-- ==== Sys2Proof/Word.lean ====
section
/-! DEFINITION. The word types of the block and the plainest reading of bit fields: fields are
written [hi:lo] with bit 0 least significant (conventions of 00_scope.md). -/

namespace Sys2Proof

/-- A byte. -/
abbrev Byte := BitVec 8
/-- A 16-bit half word (CRC-16, keys). -/
abbrev HWord := BitVec 16
/-- A 32-bit register word (R533). -/
abbrev Word := BitVec 32
/-- A 64-bit quadword (R58, R226). -/
abbrev Quad := BitVec 64
/-- A 64-byte command word, Q0 in its low bits (R58, R390). -/
abbrev CmdWord := BitVec 512

/-- The `w`-bit field of `n` that starts at bit `lo`. -/
def fld (n lo w : Nat) : Nat := (n >>> lo) % 2 ^ w

/-- Bit `i` of `n`. -/
def bit (n i : Nat) : Bool := n.testBit i

/-- A Boolean as the number 0 or 1. -/
def b2n (b : Bool) : Nat := if b then 1 else 0

/-- A number put at bit `lo` of a word, cut to `w` bits. -/
def put (v lo w : Nat) : Nat := (v % 2 ^ w) * 2 ^ lo

end Sys2Proof
end

