-- ==== Sys2Proof/Syntax.lean ====
section
/-! DEFINITION. The commands the block takes from outside (its ports, pins and links) and the events
of its own sequencers, one constructor per row of spec/opcode_table.json, with their operands. -/

namespace Sys2Proof

/-- Who makes a register write (R10, R394): the host through RG, or the Erolaic kernel. -/
inductive Writer where
  | host
  | kernel
deriving DecidableEq, Repr

/-- A register write as it arrives: its writer, the data word, and (host only) the parity bit
rg_par presented with it (R393). -/
structure RgAcc where
  who : Writer
  data : Word
  par : Bool
deriving DecidableEq, Repr

/-- What the self-check finds (R523 to R527): the rows replaced by soft repair, as (array, row), a row left
unrepaired, the fewest free spare rows of any array, the ROM, and the mutual test of collector and farrier. -/
structure SelfCheck where
  soft : List (Nat × Nat)
  bad : Option (Nat × Nat)
  minSpare : Nat
  romOk : Bool
  collectorOk : Bool
deriving DecidableEq, Repr

/-- The wrapper modes of R530. -/
inductive WrapMode where
  | bypass
  | extest
  | intest
  | clamp
  | safe
deriving DecidableEq, Repr

/-- What the FUSE instrument programs (R531). -/
inductive FuseOp where
  | lifecycle (state : Nat)
  | svn (bits : Nat)
  | ownerKey (digest : BitVec 384)
  | repair (array row : Nat)
deriving DecidableEq, Repr

/-- An access presented at an RA port (R386). `wr` is the row that carries it. -/
structure RaAccess where
  addr : Quad
  lenM1 : Byte
  tag : BitVec 7
  data : BitVec 2048
  crc : Quad
  par : Bool
deriving DecidableEq, Repr

/-- One read-data beat of an HM port (R375). -/
structure RdBeat where
  tag : BitVec 10
  last : Bool
  sts : BitVec 2
  data : BitVec 2048
  crc : Quad
  poison : BitVec 4
  par : Bool
deriving DecidableEq, Repr

/-- One write response of an HM port (R375). -/
structure WrRsp where
  tag : BitVec 10
  sts : BitVec 2
  par : Bool
deriving DecidableEq, Repr

/-- A flit as it arrives at a link port, descrambled, its tag paired with its body (R292, R293): the team it came on,
tag and body as FEC decoding leaves them, the symbols in error of each codeword that the body overlaps, and whether
the first of them was already met with the body before it (R297). -/
structure RxFlit where
  team : Nat
  tag : BitVec 112
  body : BitVec 2048
  errs : List Nat
  shared : Bool
deriving DecidableEq, Repr

/-- A training frame on one lane position (R338, R339): its control and status fields, and what the receiver
measured since its last change: figure of merit, and whether no single step raises it by 0.25 dB (R341). -/
structure TrainFrame where
  ctl : Quad
  sts : Quad
  fom : Byte
  settled : Bool
deriving DecidableEq, Repr

/-- How an I2C transaction ends at the pins (R364). -/
inductive I2cEnd where
  | ok (data : List Byte)
  | nackAddr
  | nackData (n : Nat)
  | stuck
  | lost (n : Nat)
deriving DecidableEq, Repr

/-- A parity error met in a crossbar slice while a packet crosses (R431): the slice, and the flit of the packet
in which it showed. -/
structure XbarHit where
  slice : Nat
  flit : Nat
deriving DecidableEq, Repr

/-- What the ECC scrubber meets (R428). -/
inductive ScrubHit where
  | correctable (array row : Nat)
  | uncorrectable (array row : Nat)
deriving DecidableEq, Repr

/-- A firmware access that the kernel's protection refuses (R464). -/
structure FwAccess where
  addr : Word
  wr : Bool
deriving DecidableEq, Repr


/-- The commands of the block: one constructor per row of the table of operations and events. -/
inductive Instr where
  /-- PWR_OK_FALL (R518): PWR_OK falls: any reset in progress ends and a power-up begins, with all fault sources returned to CLEAR. -/
  | pwrOkFall
  /-- PWR_OK_RISE (R518): PWR_OK rises with RST_N high, and the power-up self-check starts. -/
  | pwrOkRise
  /-- RST_N_FALL (R522): RST_N falls while PWR_OK is high: a cold reset starts, ERR_A is raised, fenced idle is sent for 2 µs and every handshake is voided. -/
  | rstNFall
  /-- RST_N_RISE (R518): RST_N rises, and the cold self-check starts. -/
  | rstNRise
  /-- SELF_CHECK_DONE (R523): The self-check completes and registers and tables take their post-reset states; the block enters F3 if a source is still FATAL. -/
  | selfCheckDone (r : SelfCheck)
  /-- WARM_RESET_REQUEST (R519): A write of WARM with KEY 0xA5 requests a warm reset; PENDING is set, the ports are fenced and the block awaits outstanding HM and LB requests. -/
  | warmResetRequest (a : RgAcc)
  /-- WARM_RESET_PROPER (R520): Once outstanding requests are answered, or at t0 + 100 µs, the warm reset proper drives handshakes low and starts the warm self-check. -/
  | warmResetProper
  /-- TAP_EXTEST (R529): The EXTEST instruction drives the boundary register and holds the block in cold reset. -/
  | tapExtest (v : Quad)
  /-- TAP_SAMPLE_PRELOAD (R529): The SAMPLE/PRELOAD instruction captures and preloads the boundary register without affecting function. -/
  | tapSamplePreload (v : Quad)
  /-- TAP_CLAMP (R529): The CLAMP instruction holds the outputs and keeps the block in cold reset. -/
  | tapClamp
  /-- TAP_WIR (R529): The WIR instruction selects the IEEE 1500 wrapper instruction-register chain. -/
  | tapWir
  /-- TAP_WDR (R529): The WDR instruction selects the wrapper data registers. -/
  | tapWdr (chain : Nat)
  /-- TAP_IJTAG (R531): The IJTAG instruction selects the IEEE 1687 instrument network. -/
  | tapIjtag
  /-- TAP_SCAN (R532): The SCAN instruction is accepted only with RST_N low; in FIELD the block zeroes partition data before it releases the chains. -/
  | tapScan
  /-- TAP_BYPASS (R529): BYPASS, or any unassigned instruction code, selects the bypass register. -/
  | tapBypass (code : Byte)
  /-- WRAPPER_MODE (R530): A wrapper mode other than WS_BYPASS holds the block in cold reset; WS_SAFE drives every req and ack low. -/
  | wrapperMode (w : Nat) (mode : WrapMode)
  /-- IJTAG_BIST (R531): In MANUFACTURE, the BIST instrument runs March C− on the chosen arrays with the block held in cold reset. -/
  | ijtagBist (array : Nat)
  /-- IJTAG_FUSE (R531): The FUSE instrument programs the fuses allowed in the current lifecycle state. -/
  | ijtagFuse (f : FuseOp)
  /-- IJTAG_LANE_LB (R531): In MANUFACTURE, the LANE_LB instrument sets near-end loopback on a team with the block held in cold reset. -/
  | ijtagLaneLb (t : Nat) (on : Bool)
  /-- CP_WORD (R46): A command word offered on a CP port is checked in order and answered ACCEPTED or with the status of the first failing condition. -/
  | cpWord (port : Nat) (w : CmdWord) (crc : HWord)
  /-- CHANNEL_ENABLE (R54): EN written 1 moves an OFF channel to STARTING, which resets NEXT_SEQ, the queue and the IDs; in DRAINING the enable is held as EN_PEND. -/
  | channelEnable (k : Nat) (a : RgAcc)
  /-- CHANNEL_ON (R54): A STARTING channel enters ON within 64 handshakes. -/
  | channelOn (k : Nat)
  /-- CHANNEL_DISABLE (R55): EN written 0 drains the channel: WAIT is cancelled, queued words are discarded and no new fragment is issued. -/
  | channelDisable (k : Nat) (a : RgAcc)
  /-- RESUME (R92): Writing RESUME resumes a channel stopped by SOE at the command after the failed one. -/
  | resume (k : Nat) (a : RgAcc)
  /-- SCALAR_WRITE (R94): A write of DX_CH_SCAL_HI commits both halves of a scalar if the channel is OFF or STOPPED, and otherwise sets WR_IGN. -/
  | scalarWrite (k : Nat) (i : Nat) (a : RgAcc)
  /-- CR_CONS_WRITE (R88): Software advances DX_CH_CR_CONS, which ends a CR_STALL. -/
  | crConsWrite (k : Nat) (a : RgAcc)
  /-- LATCHED_READ (R143): A read of the _LO word of a wide value returns its low bits and latches the high bits into the shadow that the next _HI read returns. -/
  | latchedRead (off : Nat) (par : Bool)
  /-- NOP (R86): NOP completes as soon as it starts. -/
  | nop (k : Nat)
  /-- PUT (R96): PUT starts; the block reads local data and issues write fragments to the destination chip. -/
  | put (k : Nat)
  /-- GET (R96): GET starts; read requests go to the source chip, and the returned data are written locally. -/
  | get (k : Nat)
  /-- COPY (R97): COPY starts, acting as a PUT, as a GET, or as a relayed copy between two other chips. -/
  | copy (k : Nat)
  /-- ATOM (R67): The ATOM command starts and sends one atomic packet to the home chip of TARGET. -/
  | atom (k : Nat)
  /-- ALL_REDUCE (R174): A COLL of type ALL_REDUCE starts an instance under a STAR or RING schedule. -/
  | allReduce (k : Nat)
  /-- REDUCE_SCATTER (R161): A COLL of type REDUCE_SCATTER starts a RING or STAR instance that leaves each rank its own reduced block. -/
  | reduceScatter (k : Nat)
  /-- ALL_GATHER (R161): A COLL of type ALL_GATHER starts a gather-only RING instance. -/
  | allGather (k : Nat)
  /-- BROADCAST (R177): A COLL of type BROADCAST starts an MCAST or CHAIN instance from ROOT. -/
  | broadcast (k : Nat)
  /-- REDUCE (R176): A COLL of type REDUCE starts an instance that delivers the reduced result to ROOT only. -/
  | reduce (k : Nat)
  /-- A2A_CAP (R167): A COLL of type A2A_CAP reads the send area and sends capped slots directly to every member. -/
  | a2aCap (k : Nat)
  /-- BARRIER (R176): A COLL of type BARRIER starts a STAR fold of empty contributions. -/
  | barrier (k : Nat)
  /-- SCALAR_AR (R69): A scalar all-reduce reads scalar SSRC at start and writes the reduced value to SDST at completion. -/
  | scalarAr (k : Nat)
  /-- WAIT (R72): WAIT starts and evaluates its tally or scalar condition. -/
  | waitCmd (k : Nat)
  /-- SIGNAL (R74): The SIGNAL command starts and sends a tally addition to a chip; with ORD set it waits for earlier commands. -/
  | signal (k : Nat)
  /-- FENCE (R75): FENCE completes once every earlier command of the channel is complete. -/
  | fence (k : Nat)
  /-- REPEAT (R77): REPEAT latches its count and opens a loop, or skips the body when the count is zero. -/
  | repeatLoop (k : Nat)
  /-- END (R82): END ends an iteration: it replays the body from the loop buffer or closes the loop. -/
  | endLoop (k : Nat)
  /-- BRANCH (R82): BRANCH tests a scalar and, when the condition holds, skips N words or breaks out of the loop. -/
  | branch (k : Nat)
  /-- LOADS_IMM (R83): LOADS in mode IMM writes ARG into a scalar. -/
  | loadsImm (k : Nat)
  /-- LOADS_MEM (R83): LOADS in mode MEM reads 8 B from a global address into a scalar. -/
  | loadsMem (k : Nat)
  /-- LOADS_TALLY (R83): LOADS in mode TALLY writes a local tally's value into a scalar. -/
  | loadsTally (k : Nat)
  /-- LOADS_ADD (R83): LOADS in mode ADD adds ARG to a scalar modulo 2^64. -/
  | loadsAdd (k : Nat)
  /-- MARK (R84): MARK sets the channel's layer and operator IDs. -/
  | mark (k : Nat)
  /-- TRACE (R85): TRACE writes one user record into a logbook. -/
  | trace (k : Nat)
  /-- BAD_OP (R59): A word with an unknown opcode completes with BAD_OP and stops the channel. -/
  | badOp (k : Nat)
  /-- FRAGMENT_ISSUE (R99): A fragment of a transfer enters the injection point once a fragment slot, a packet-formation slot and rein room are available. -/
  | fragmentIssue (k : Nat)
  /-- COMPLETION_RECORD_WRITE (R89): A completion record is written through the block's own windows once earlier records have been written and the ring has room. -/
  | completionRecordWrite (k : Nat)
  /-- CHANNEL_HANG (R95): A channel's progress counter does not move within its hang window: HANG is set, the command is captured, and FLT_CH_HANG and EV_CH_HANG are raised. -/
  | channelHang (k : Nat)
  /-- SHAPE_COMMIT (R102): A write to W7 of a shape entry commits all eight words at once. -/
  | shapeCommit (e : Nat) (a : RgAcc)
  /-- TALLY_WRITE (R144): A write to DX_TALLY_HI sets all 48 bits of a tally in one step. -/
  | tallyWrite (n : Nat) (a : RgAcc)
  /-- WATCH_ARM (R146): A CTL write with ARM set arms a disarmed watch, taking TALLY and COND from the same write. -/
  | watchArm (w : Nat) (a : RgAcc)
  /-- WATCH_DISARM (R146): A CTL write with ARM 0 disarms a watch. -/
  | watchDisarm (w : Nat) (a : RgAcc)
  /-- WATCH_EVENT_ENQUEUE (R147): A watch's pending event enters the EV queue once a slot is free. -/
  | watchEventEnqueue (w : Nat)
  /-- ATC_FLUSH (R127): Writing FLUSH drops every idle granule from the atomic cache. -/
  | atcFlush (a : RgAcc)
  /-- ATC_HOLD_EXPIRE (R127): An idle granule leaves the atomic cache when HOLD × 64 ns have passed since its last atomic. -/
  | atcHoldExpire (g : Nat)
  /-- ATOMIC_PERFORM (R125): The atomic unit performs one accepted atomic on its word, in acceptance order, and responds after the HM write response. -/
  | atomicPerform
  /-- PFENCE_SET (R25): DX_PFENCE.EN written 1 fences the block's own partition; DONE rises once nothing is outstanding and no response is owed. -/
  | pfenceSet (a : RgAcc)
  /-- PFENCE_LIFT (R25): DX_PFENCE.EN written 0 lifts the fence, and held commands and RA accesses proceed. -/
  | pfenceLift (a : RgAcc)
  /-- RA_LOAD (R387): An RA load is checked on acceptance and either answered at once or sent as an RA_LD packet. -/
  | raLoad (port : Nat) (x : RaAccess)
  /-- RA_STORE (R43): An RA store is checked, sent as an RA_ST packet, and answered as soon as it enters the injection point. -/
  | raStore (port : Nat) (x : RaAccess)
  /-- RA_RSP_TAKEN (R388): The host takes an RA response on the rsp bundle. -/
  | raRspTaken (port : Nat)
  /-- RA_LOAD_TIMEOUT (R45): An RA load unanswered for four hang windows completes TIMEOUT, and its tag is quarantined. -/
  | raLoadTimeout (port : Nat) (tag : Nat)
  /-- HM_READ_ISSUE (R377): The block issues an HM read request when a tag and the port's outstanding limit allow. -/
  | hmReadIssue (port : Nat)
  /-- HM_WRITE_ISSUE (R377): The block issues an HM write, as consecutive beats, when a tag and the port's limit allow. -/
  | hmWriteIssue (port : Nat)
  /-- HM_READ_BEAT (R383): A read-data beat from the host is checked for parity, tag, last flag, CRC and poison, and is delivered to its read. -/
  | hmReadBeat (port : Nat) (b : RdBeat)
  /-- HM_WRITE_RESPONSE (R380): A write response from the host is checked and completes its write, which lets tally additions and acknowledgements follow. -/
  | hmWriteResponse (port : Nat) (r : WrRsp)
  /-- HM_TIMEOUT (R385): An HM request not answered within four hang windows fails HOST_ERR, raises FLT_HM_TIMEOUT, and its tag is quarantined. -/
  | hmTimeout (port : Nat) (isWr : Bool) (tag : Nat)
  /-- EVENT_TAKEN (R391): The host takes one event word on EV, which frees a queue slot. -/
  | eventTaken
  /-- LB_WRITE_RESPONSE (R501): The host answers an LB write: OK advances PROD, and ERR stops the logbook. -/
  | lbWriteResponse (sts : Nat)
  /-- WR (R236): An accepted WR packet is written to host memory through the window and answered with WR_RSP. -/
  | wr (i : Nat)
  /-- RD (R234): An accepted RD packet reads host memory and returns RD_DATA, or RD_RSP on failure. -/
  | rd (i : Nat)
  /-- RD_RELAY (R97): The source chip of a relayed COPY reads the data and sends RLY_DATA to the destination, or RD_RSP to the originator. -/
  | rdRelay (i : Nat)
  /-- RA_LD (R152): An accepted RA_LD is performed in stream order and answered with RA_DATA or RA_RSP. -/
  | raLd (i : Nat)
  /-- RA_ST (R152): An accepted RA_ST is written in stream order; only a failure is answered, with RA_RSP. -/
  | raSt (i : Nat)
  /-- ATOM_PACKET (R121): An accepted ATOM packet is queued for the atomic unit after its window check. -/
  | atomPacket (i : Nat)
  /-- SIGNAL_PACKET (R141): An accepted SIGNAL adds ADD to its tally and is answered with SIG_RSP. -/
  | signalPacket (i : Nat)
  /-- WR_RSP (R246): A matching WR_RSP completes its fragment, frees its slot and feeds the rein's congestion echo. -/
  | wrRsp (i : Nat)
  /-- RD_DATA (R236): A matching RD_DATA is written locally for the GET fragment. -/
  | rdData (i : Nat)
  /-- RD_RSP (R246): A matching RD_RSP fails its read fragment with the outcome it carries. -/
  | rdRsp (i : Nat)
  /-- RLY_DATA (R97): The destination writes relayed COPY data and sends WR_RSP to the originator. -/
  | rlyData (i : Nat)
  /-- RA_DATA (R388): A matching RA_DATA completes an RA load and returns its data on the port. -/
  | raData (i : Nat)
  /-- RA_RSP (R44): An RA_RSP fails an RA load or, with FTAG[15] set, records a negative acknowledgement of an RA store. -/
  | raRsp (i : Nat)
  /-- ATOM_RSP (R122): A matching ATOM_RSP returns the value found, for its scalar or RMEM write-back. -/
  | atomRsp (i : Nat)
  /-- SIG_RSP (R64): A matching SIG_RSP completes a SIGNAL. -/
  | sigRsp (i : Nat)
  /-- COL_ACK (R267): A COL_ACK returns one stream credit and ends its data packet's outstanding state. -/
  | colAck (i : Nat)
  /-- COL_READY (R180): A READY token is held, compared by signature, and grants credits for a data stream. -/
  | colReady (i : Nat)
  /-- COL_DATA (R174): Collective data arrive for combining, forwarding or writing to DST, and are acknowledged. -/
  | colData (i : Nat)
  /-- COL_SLOT (R167): Capacity all-to-all rows are written into the sender's slot and acknowledged. -/
  | colSlot (i : Nat)
  /-- COL_DONE (R183): A DONE token, carrying SCOUNT for A2A_CAP, advances a member toward completion. -/
  | colDone (i : Nat)
  /-- COL_REL (R176): A barrier release completes the BARRIER at its member. -/
  | colRel (i : Nat)
  /-- COLL_ABORT (R189): A received COLL_ABORT stops or pre-marks a collective instance with the reason and outcome it carries. -/
  | collAbort (i : Nat)
  /-- MB_REQ_REMOTE (R478): A REMOTE management request is performed as a mailbox command with OPEN 0. -/
  | mbReqRemote (i : Nat)
  /-- MB_REQ_SPARE (R478): A SPARE request writes a spare's number, partition and group entries during a takeover. -/
  | mbReqSpare (i : Nat)
  /-- TREE_STAGE (R476): A STAGE tree message delivers a block's STAGED records for staging. -/
  | treeStage (i : Nat)
  /-- TREE_SEAL (R287): A SEAL message makes a block check its staging and report READY or REFUSED. -/
  | treeSeal (i : Nat)
  /-- TREE_READY (R287): A READY report is aggregated up the tree; at the leader, READY from every block leads to LOCK. -/
  | treeReady (i : Nat)
  /-- TREE_REFUSED (R287): A REFUSED report ends the lock cycle with no change. -/
  | treeRefused (i : Nat)
  /-- TREE_LOCK (R287): On LOCK, a block stops forming packets of the partition and holds CP, RA and COLL starts. -/
  | treeLock (i : Nat)
  /-- TREE_COUNT (R480): A COUNT message starts a drain round, collecting packet counts and outstanding flags. -/
  | treeCount (i : Nat)
  /-- TREE_REPORT (R480): A REPORT carries aggregated counts upward; at the leader it decides whether SWAP is sent. -/
  | treeReport (i : Nat)
  /-- TREE_SWAP (R287): On SWAP, a block puts staging in force and inverts CUR in one indivisible step. -/
  | treeSwap (i : Nat)
  /-- TREE_SWAPPED (R287): A SWAPPED report leads the leader to send RELEASE once every block has swapped. -/
  | treeSwapped (i : Nat)
  /-- TREE_RELEASE (R287): On RELEASE, a block resumes the partition's traffic and PHASE returns to 0. -/
  | treeRelease (i : Nat)
  /-- MB_RSP (R479): A management response matching an outstanding MSEQ completes that request. -/
  | mbRsp (i : Nat)
  /-- ASSIST (R451): A farrier command arrives from a neighbour; it is checked against the peer identity and performed. -/
  | assist (i : Nat)
  /-- ASSIST_RSP (R451): An ASSIST_RSP returns a farrier's response words to the requester. -/
  | assistRsp (i : Nat)
  /-- MGT_RESEND_TIMEOUT (R479): A management request unanswered for 100 µs is resent, up to 8 times, before the peer is treated as silent. -/
  | mgtResendTimeout (mseq : Nat)
  /-- PACKET_HOP (R262): A packet advances to its next hop once the required berths of its share are free, after the transit checks and the routing decision. -/
  | packetHop (place : Nat) (i : Nat) (x : Option XbarHit)
  /-- REIN_INCREASE (R279): At the end of a TAI interval with only zero echoes, a rein's RATE rises by AI. -/
  | reinIncrease (k : Nat)
  /-- TOW_ENABLE (R273): Towpath EN written 1 moves a valid entry to STARTING, or holds it as EN_PEND while DRAINING. -/
  | towEnable (t : Nat) (a : RgAcc)
  /-- TOW_STARTED (R273): A STARTING towpath entry enters ON once its ports are ACTIVE, and AVAIL is set to CRED. -/
  | towStarted (t : Nat)
  /-- TOW_DISABLE (R273): Towpath EN written 0 moves an ON entry to DRAINING. -/
  | towDisable (t : Nat) (a : RgAcc)
  /-- TOW_STALL (R274): A SOURCE towpath with no response for a hang window sets STALL, raises FLT_TOW_STALL and goes OFF. -/
  | towStall (t : Nat)
  /-- LOCK_DRAIN_TIMEOUT (R288): DRAIN_TO passes before SWAP: the cycle falls back to epoch mode or ends with no change. -/
  | lockDrainTimeout
  /-- EPOCH_HOLD_EXPIRE (R289): HOLD ms after the swap, the former bank becomes IDLE and held packets of the old epoch are discarded. -/
  | epochHoldExpire
  /-- LOCK_SWAP_TIMEOUT (R290): A block that receives no SWAP within 4 × DRAIN_TO of LOCK resumes without swapping. -/
  | lockSwapTimeout
  /-- LINK_ENABLE (R310): Link EN written 1 starts lane training of the port, or is held or ignored by the state rules. -/
  | linkEnable (p : Nat) (a : RgAcc)
  /-- LINK_DISABLE (R312): Link EN written 0 drains, or turns OFF, the port. -/
  | linkDisable (p : Nat) (a : RgAcc)
  /-- LINK_RETRAIN_WRITE (R312): Writing RETRAIN takes an ACTIVE port into RETRAIN. -/
  | linkRetrainWrite (p : Nat) (a : RgAcc)
  /-- LINK_PARAM (R311): A received LINK_PARAM is checked; in TRAINING, the second good one takes credits and brings the port ACTIVE. -/
  | linkParam (p : Nat)
  /-- LINK_PARAM_SEND (R310): Every 1 µs during bring-up, the port sends LINK_PARAM on every team. -/
  | linkParamSend (p : Nat)
  /-- TEAM_DROP (R316): A TEAM_DROP command removes a team from the rotation, and the port becomes DEGRADED. -/
  | teamDrop (p : Nat)
  /-- TEAM_ADD (R316): A TEAM_ADD command restores a retrained team to the rotation. -/
  | teamAdd (p : Nat)
  /-- RETRAIN (R312): A received RETRAIN control flit takes the port into RETRAIN. -/
  | retrain (p : Nat)
  /-- HALT_MARK (R455): A HALT_MARK ends awaiting on its input or, in RUN, puts the block into HALTING for its pair. -/
  | haltMark (p : Nat)
  /-- HALT_REL (R459): A HALT_REL releases the current halt and is forwarded on the ports that sent the marker. -/
  | haltRel (p : Nat)
  /-- ABORT (R441): A received ABORT flit is judged by generation distance, then accepted and forwarded, or dropped. -/
  | abortFlit (p : Nat)
  /-- BEACON (R483): A received BEACON is answered with BEACON_RSP within 2 µs. -/
  | beacon (p : Nat)
  /-- BEACON_RSP (R483): A matched beacon response yields offset and delay, which steer the time-of-day counter. -/
  | beaconRsp (p : Nat)
  /-- SEQ_FLIT_RECEIVE (R300): A sequenced flit is accepted and delivered in FSEQ order if its CRC passes and its FSEQ equals E, and is otherwise discarded with NAK. -/
  | seqFlitReceive (p : Nat) (f : RxFlit)
  /-- TAG_RECEIVE (R301): A good tag frees acknowledged flits, may trigger a replay on NAK, and carries credit and fence reports. -/
  | tagReceive (p : Nat) (f : RxFlit)
  /-- REPLAY_TIMEOUT (R301): The oldest unacknowledged flit passes REPLAY_TO and is replayed; past RETRY_MAX the port retrains. -/
  | replayTimeout (p : Nat)
  /-- LINK_TRAIN_TIMEOUT (R312): A port not ACTIVE within 1 ms of training fences, and FLT_LNK_TRAIN is raised. -/
  | linkTrainTimeout (p : Nat)
  /-- RETRAIN_TIMEOUT (R312): RETRAIN not complete in 200 µs fences the port, and FLT_LNK_TRAIN is raised. -/
  | retrainTimeout (p : Nat)
  /-- LINK_DRAIN_TIMEOUT (R312): A link drain not complete within one hang window fences the port. -/
  | linkDrainTimeout (p : Nat)
  /-- LNK_INJ_ARM (R323): Arming DX_LNK_INJ inverts the CRC32 of the next sequenced flit sent. -/
  | lnkInjArm (p : Nat) (a : RgAcc)
  /-- TRAINING_FRAME (R340): A training frame's control and status fields drive the four-phase tap-request handshake for its lane. -/
  | trainingFrame (t : Nat) (i : Nat) (f : TrainFrame)
  /-- FOM_UPDATE (R344): Every 2^20 UI, the receiver updates each position's figure of merit and judges spare calls and team usability. -/
  | fomUpdate (t : Nat) (foms : List Nat)
  /-- MIRROR_REQ (R348): A received MIRROR_REQ is answered with MIRROR_ACK, and the transmit spare begins mirroring. -/
  | mirrorReq (t : Nat) (lmw : Quad)
  /-- MIRROR_ACK (R350): A received MIRROR_ACK starts the comparison, or an immediate switch to the spare. -/
  | mirrorAck (t : Nat) (lmw : Quad)
  /-- SPARE_COMPARE_DONE (R350): After 2^14 UI of comparison the crossbar switches to the spare, or SPARE_BAD is set. -/
  | spareCompareDone (t : Nat) (ok : Bool)
  /-- FORWARDED_CLOCK_LOSS (R335): The clock MSB fails to alternate for 16 UI: the receiver holds its phases and calls for the spare. -/
  | forwardedClockLoss (t : Nat)
  /-- CLOCK_HOLDOVER_END (R335): Holdover ends without a clock on the spare, and the team is unusable. -/
  | clockHoldoverEnd (t : Nat)
  /-- LANE_SILENT (R349): A position with no level transitions for 256 UI calls for the spare. -/
  | laneSilent (t : Nat) (i : Nat)
  /-- TAG_LOCK_LOSS (R353): A team that loses tag lock for 64 tag slots is dropped, or retrains the port if it was the last team. -/
  | tagLockLoss (t : Nat)
  /-- TEAM_RETRY_TIMER (R354): 10 ms after a failed attempt, a dropped team starts its next retraining attempt. -/
  | teamRetryTimer (t : Nat)
  /-- TEAM_RETRY (R361): Writing RETRY starts a new series of 3 attempts for a FAILED team. -/
  | teamRetry (t : Nat) (a : RgAcc)
  /-- TEAM_SWAP (R361): Writing SWAP calls for the spare for position SLANE. -/
  | teamSwap (t : Nat) (a : RgAcc)
  /-- PRBS_MODE (R346): A PRBS write puts the team into, or out of, PRBS generation and checking. -/
  | prbsMode (t : Nat) (a : RgAcc)
  /-- PRBS_CLR (R361): Writing CLR clears the PRBS error counters. -/
  | prbsClr (t : Nat) (a : RgAcc)
  /-- HARNESS_SEAL (R356): Writing SEAL checks and seals the harness map, or records the reason for refusal. -/
  | harnessSeal (a : RgAcc)
  /-- I2C_WRITE (R364): GO with OP WRITE sends a register write to a module. -/
  | i2cWrite (c : Nat) (a : RgAcc)
  /-- I2C_READ (R364): GO with OP READ sends a register read to a module. -/
  | i2cRead (c : Nat) (a : RgAcc)
  /-- I2C_READ_CUR (R364): GO with OP READ_CUR reads from a module without the REG phase. -/
  | i2cReadCur (c : Nat) (a : RgAcc)
  /-- I2C_TRANSACTION_END (R364): An I²C transaction ends: RESULT and DONE are set, and EV_I2C_DONE is raised. -/
  | i2cTransactionEnd (c : Nat) (r : I2cEnd)
  /-- I2C_STRETCH_TIMEOUT (R364): A clock stretch beyond STRETCH ends the transaction with STRETCH_TO. -/
  | i2cStretchTimeout (c : Nat) (n : Nat)
  /-- FAULT_TAKEN (R408): The collector takes a checker's raise and classifies it by the source's state; the source state, counts and capture records are updated. -/
  | faultTaken
  /-- QUIET_EXPIRE (R410): A RECOVERING source quiet for QUIET ms returns to CLEAR; one recovery is counted. -/
  | quietExpire (code : Nat) (inst : Nat)
  /-- FLT_ACK (R412): A DX_FLT_ACK write with GO returns a matching AWAIT_ACK source to CLEAR. -/
  | fltAck (a : RgAcc)
  /-- RAIL_INVALID_TIMEOUT (R405): A checker pair invalid for more than 4 handshakes raises FLT_FC_RAIL. -/
  | railInvalidTimeout (line : Nat)
  /-- FARRIER_PROBE (R430): Every 1 ms the farrier presents a test raise to the collector and checks the answer. -/
  | farrierProbe (ok : Bool)
  /-- SCRUB (R428): The scrubber reads, corrects and writes back one SECDED word. -/
  | scrub (x : ScrubHit)
  /-- START_DONE (R420): Writing START_DONE clears CAP_START and ends start-up. -/
  | startDone (a : RgAcc)
  /-- CREC_CLR (R421): Writing CLR empties the fault capture records and clears LOST. -/
  | crecClr (a : RgAcc)
  /-- FLT_INJ_ARM (R426): Arming DX_FLT_INJ makes the named checker test its next real check against inverted check bits. -/
  | fltInjArm (a : RgAcc)
  /-- FLT_INJ_DISARM (R426): A write of ARM 0 while armed disarms the injection without making it. -/
  | fltInjDisarm (a : RgAcc)
  /-- RECOV_EXPIRE (R424): Recovery mode ends by itself 1 s after RECOV was last set. -/
  | recovExpire
  /-- RU_ENABLE (R221): A reduction unit's EN written 1 starts its self-test, or is held as EN_PEND. -/
  | ruEnable (a : RgAcc)
  /-- RU_DISABLE (R221): A unit's EN written 0 drains it to OFF, unless it is the last unit ON. -/
  | ruDisable (a : RgAcc)
  /-- RU_SPARE_DESIGNATE (R221): Writing SPARE designates a new standby unit. -/
  | ruSpareDesignate (a : RgAcc)
  /-- RU_FAULTED_CLEAR (R221): Clearing FAULTED with EN 1 restarts the unit, unless it is the standby. -/
  | ruFaultedClear (u : Nat) (a : RgAcc)
  /-- RU_SELF_TEST_DONE (R221): After 64 handshakes of self-test, a STARTING unit enters ON, or goes OFF and FAULTED on failure. -/
  | ruSelfTestDone (u : Nat) (ok : Bool)
  /-- RU_COMBINE (R212): A reduction unit combines a piece once both the partial and the local input are present. -/
  | ruCombine (u : Nat) (g : Nat) (i : Nat) (err : Bool)
  /-- RU_INJ_ARM (R218): Arming DX_RU_INJ inverts a checker of one unit on its next piece. -/
  | ruInjArm (a : RgAcc)
  /-- PKT_INJ_ARM (R249): Arming DX_PKT_INJ makes the next packet's CRC64 check fail. -/
  | pktInjArm (a : RgAcc)
  /-- PORT_HANG (R436): A link port's unacknowledged flit makes no progress for a hang window, and FLT_PORT_HANG is raised. -/
  | portHang (p : Nat)
  /-- VC_HANG (R436): A virtual channel waits without credit for a hang window, and FLT_VC_HANG is raised. -/
  | vcHang (p : Nat) (v : Nat)
  /-- HPORT_HANG (R436): A block-driven host bundle waits for ack for a hang window, and FLT_HPORT_HANG is raised. -/
  | hportHang (inst : Nat)
  /-- ABORT_GO (R439): Writing DX_ABORT_CTL.GO originates an abort of the partition with reason SOFTWARE. -/
  | abortGo (a : RgAcc)
  /-- GENERATION_STEP (R442): GEN steps, after any deferral by the 1 ms spacing: packets are discarded, outstanding work ends ABORTED, and channels drain. -/
  | generationStep
  /-- GEN_WRITE (R441): A kernel write of GEN ends abort hold, acting as a generation step to the written value. -/
  | genWrite (a : RgAcc)
  /-- ABORT_PAIR_EXPIRE (R441): At a non-member, a forwarded (PKEY, G′) pair leaves its table 1 ms after entry. -/
  | abortPairExpire (pkey : Nat) (gen : Nat)
  /-- PORT_FENCE (R445): A write of DX_FENCE puts the named link ports into FENCED without a fault. -/
  | portFence (a : RgAcc)
  /-- MC_WDOG_EXPIRE (R452): The management core watchdog expires: the farrier acts, aborts the partition and the block is fenced. -/
  | mcWdogExpire
  /-- FARRIER_OPEN_PORTS (R452): 1 ms after acting, the farrier opens every valid link port to TRAINING for MGT-only use. -/
  | farrierOpenPorts
  /-- FARRIER_TAKEBACK (R452): Writing TAKEBACK returns the farrier to WATCHING. -/
  | farrierTakeback (a : RgAcc)
  /-- FARRIER_STATUS (R451): The farrier STATUS command returns DX_FARRIER_STAT and DX_FLT_STATE. -/
  | farrierStatus
  /-- FARRIER_PEEK (R451): The farrier PEEK command returns one RG word. -/
  | farrierPeek
  /-- FARRIER_ABORT (R451): The farrier ABORT command originates an abort with reason FARRIER_CMD. -/
  | farrierAbort
  /-- FARRIER_FENCE (R451): The farrier FENCE command fences ports as DX_FENCE does. -/
  | farrierFence
  /-- FARRIER_OPEN (R451): The farrier OPEN command opens ports for assistance. -/
  | farrierOpen
  /-- FARRIER_RESET_MC (R451): The farrier RESET_MC command restarts the management core. -/
  | farrierResetMc
  /-- FARRIER_WARM_RESET (R451): The farrier WARM_RESET command performs a warm reset of the block with CAUSE 3. -/
  | farrierWarmReset
  /-- FARRIER_HALT (R451): The farrier HALT command starts a halt as DX_HALT_CTL.GO does. -/
  | farrierHalt
  /-- FARRIER_RELEASE (R451): The farrier RELEASE command releases the current halt. -/
  | farrierRelease
  /-- FARRIER_BAD_CMD (R451): An unknown farrier command is answered BAD_CMD. -/
  | farrierBadCmd
  /-- HALT_GO (R455): Writing GO puts the block into HALTING for its own partition and sends markers. -/
  | haltGo (a : RgAcc)
  /-- HALT_RELEASE (R459): Writing REL releases the halt, forwards HALT_REL and returns the block to RUN. -/
  | haltRelease (a : RgAcc)
  /-- HALTED (R456): With every marker received and acknowledged and the HM requests answered, the block enters HALTED and raises EV_HALTED. -/
  | halted
  /-- HALT_TIMEOUT (R456): HALT_TO passes while HALTING: TIMEOUT is set and FLT_HALT_TIMEOUT is raised. -/
  | haltTimeout
  /-- SNAP_SELECT (R458): A write of DX_SNAP_SEL selects a held packet for reading. -/
  | snapSelect (a : RgAcc)
  /-- MB_INFO (R473): MB_INFO returns the identity, feature, status and firmware version. -/
  | mbInfo
  /-- MB_NONCE (R473): MB_NONCE issues a 32 B nonce for expert control. -/
  | mbNonce
  /-- MB_EXPERT_ON (R474): MB_EXPERT_ON verifies the owner signature over the nonce and opens expert control for a duration. -/
  | mbExpertOn
  /-- MB_EXPERT_OFF (R474): MB_EXPERT_OFF closes expert control. -/
  | mbExpertOff
  /-- MB_FW_BEGIN (R468): MB_FW_BEGIN starts a firmware load, stopping any running firmware. -/
  | mbFwBegin
  /-- MB_FW_CHUNK (R468): MB_FW_CHUNK writes one chunk of the firmware image. -/
  | mbFwChunk
  /-- MB_FW_COMMIT (R468): MB_FW_COMMIT verifies the image, locks the extension and starts the firmware. -/
  | mbFwCommit
  /-- FW_HEARTBEAT (R468): The firmware's first heartbeat puts the kernel into FULL mode and completes MB_FW_COMMIT. -/
  | fwHeartbeat
  /-- FW_WDOG_EXPIRE (R466): A firmware heartbeat absent for 10 ms makes the kernel restart the firmware after a digest check. -/
  | fwWdogExpire
  /-- FW_ACCESS_VIOLATION (R464): A forbidden firmware access is not made; FLT_FW_PMP is raised and the firmware is restarted. -/
  | fwAccessViolation (x : FwAccess)
  /-- KERNEL_CALL (R466): A firmware ECALL is checked and performed as the mailbox command it names. -/
  | kernelCall (words : List Word)
  /-- MB_IMG_BEGIN (R473): MB_IMG_BEGIN starts delivery of a configuration image. -/
  | mbImgBegin
  /-- MB_IMG_CHUNK (R473): MB_IMG_CHUNK writes one chunk of a configuration image into staging. -/
  | mbImgChunk
  /-- MB_IMG_APPLY_START (R476): MB_IMG_APPLY in mode START writes START and LIVE records directly, including the harness seal. -/
  | mbImgApplyStart
  /-- MB_IMG_APPLY_STAGE_LOCAL (R476): MB_IMG_APPLY in mode STAGE_LOCAL stages this chip's STAGED records and applies its LIVE records. -/
  | mbImgApplyStageLocal
  /-- MB_IMG_APPLY_STAGE_DOMAIN (R476): MB_IMG_APPLY in mode STAGE_DOMAIN distributes STAGED records over the tree and leads a lock cycle. -/
  | mbImgApplyStageDomain
  /-- MB_IMG_DROP (R473): MB_IMG_DROP discards staging and returns READY banks to IDLE. -/
  | mbImgDrop
  /-- MB_TABLE_SWAP (R473): MB_TABLE_SWAP runs a lock cycle, as leader, over what the domain has staged. -/
  | mbTableSwap
  /-- MB_TAKEOVER (R448): MB_TAKEOVER fences the failed chip, stages the spare's entries and runs the lock cycle that hands the failed number to the spare. -/
  | mbTakeover
  /-- MB_ABORT (R473): MB_ABORT originates an abort as DX_ABORT_CTL.GO does. -/
  | mbAbort
  /-- MB_HALT (R473): MB_HALT starts a halt with the given HALT_ID. -/
  | mbHalt
  /-- MB_RELEASE (R473): MB_RELEASE releases the current halt. -/
  | mbRelease
  /-- MB_FLT_ACK (R412): MB_FLT_ACK acknowledges a fault source through the kernel. -/
  | mbFltAck
  /-- MB_ENABLE (R473): MB_ENABLE enables or disables a link port, towpath entry or reduction unit. -/
  | mbEnable
  /-- MB_FENCE (R473): MB_FENCE fences ports and sets or lifts the partition fence. -/
  | mbFence
  /-- MB_START_DONE (R473): MB_START_DONE writes DX_FLT_CTL.START_DONE. -/
  | mbStartDone
  /-- MB_I2C (R473): MB_I2C performs an I²C transaction for the host. -/
  | mbI2c
  /-- MB_TIME_READ (R473): MB_TIME with OP 0 returns the time status and counter. -/
  | mbTimeRead
  /-- MB_TIME_SET (R481): MB_TIME with OP 1 sets the time-of-day counter at the time master. -/
  | mbTimeSet
  /-- MB_REMOTE (R473): MB_REMOTE forwards an inner request to another chip and returns its response. -/
  | mbRemote
  /-- MB_PEEK (R473): MB_PEEK returns up to 60 RG words. -/
  | mbPeek
  /-- MB_POKE (R473): MB_POKE writes an RG word as the kernel does, under expert control. -/
  | mbPoke
  /-- MB_DIAG (R473): MB_DIAG returns the fault state, the first fault, capture status and farrier status. -/
  | mbDiag
  /-- MB_BAD_CMD (R473): An unknown mailbox command, or one outside its modes, returns BAD_CMD. -/
  | mbBadCmd
  /-- MB_TIMEOUT (R471): A mailbox request that passes its command's limit completes with TIMEOUT. -/
  | mbTimeout
  /-- EXPERT_EXPIRE (R474): Expert control ends when REMAIN reaches 0. -/
  | expertExpire
  /-- BEACON_INTERVAL (R483): Every INTERVAL the block sends a BEACON to its parent; 16 missed responses lead to HOLDOVER. -/
  | beaconInterval
  /-- GAIT_INTERVAL (R496): Each completed 1 ms gait interval updates MEAN, RANGE and LOW, and may raise FLT_GAIT_LOW or EV_GAIT. -/
  | gaitInterval (mean : Nat) (inst : Nat)
  /-- LIFE_SECOND (R505): Each second updates the lifetime counters and the gait and FOM histograms. -/
  | lifeSecond
  /-- CCNT_LATCH (R495): A read of a DX_CCNT SEQ word latches that whole counter set into read shadows. -/
  | ccntLatch (k : Nat) (snap : Bool) (par : Bool)
  /-- LOG_ENABLE (R501): Logbook EN written 1 clears it and enters STARTING, or is held as EN_PEND. -/
  | logEnable (n : Nat) (a : RgAcc)
  /-- LOG_STARTED (R501): A STARTING logbook enters ON within 64 handshakes. -/
  | logStarted (n : Nat)
  /-- LOG_DISABLE (R501): Logbook EN written 0 drains the logbook or turns it OFF, by mode. -/
  | logDisable (n : Nat) (a : RgAcc)
  /-- LOG_FLUSH (R500): Writing FLUSH pads and drains a waiting single record. -/
  | logFlush (n : Nat) (a : RgAcc)
  /-- LOG_PAD_TIMEOUT (R500): A single record that has waited 4 µs is written with a PAD record. -/
  | logPadTimeout (n : Nat)
  /-- LOG_DRAIN_WRITE (R500): A logbook writes a granule of two records to its host ring through LB while the ring has room. -/
  | logDrainWrite (n : Nat)
  /-- LOG_DRAIN_TIMEOUT (R501): A DRAINING logbook whose host ring stays full for one hang window goes OFF, losing its held records. -/
  | logDrainTimeout (n : Nat)
  /-- LOGWIN_SELECT (R502): A write of DX_LOGWIN_SEL copies one held record into the read window. -/
  | logwinSelect (a : RgAcc)
  /-- CMAP_INTERVAL (R503): At each multiple of the congestion-map interval, a CMAP record is made for each selected port. -/
  | cmapInterval
  /-- LIFE_SNAP (R506): Writing SNAP copies the live lifetime record into the snapshot and computes its CRC. -/
  | lifeSnap (a : RgAcc)
  /-- LIFE_OPEN (R507): Writing OPEN during start-up opens the lifetime body for restoration. -/
  | lifeOpen (a : RgAcc)
  /-- LIFE_COMMIT (R507): Writing COMMIT checks the restored body and merges it with the counts since cold reset, or refuses it. -/
  | lifeCommit (a : RgAcc)
  /-- REGISTER_WRITE (R534): An RG write to a register with no behaviour of its own updates its RW, W1C and permitted RWL fields. -/
  | registerWrite (off : Nat) (a : RgAcc)
  /-- FAULT_STATIC_TOGGLE (R400): Every 512 REFCLK cycles, while no F2 or F3 fault is uncleared and the block is out of reset, the farrier toggles FAULT_STATIC. -/
  | faultStaticToggle
  /-- MC_WATCHDOG_WRITE (R429): The kernel writes the management core watchdog, restarting the farrier's 50 ms count. -/
  | mcWatchdogWrite
  /-- LANE_MANAGEMENT_WORD (R347): Every 4,096 UI an idle transmit spare replaces 64 UI of PRBS31Q with an LMW carrying IDLE, a pending MIRROR_REQ or a MIRROR_ACK, and mirroring starts at the following period. -/
  | laneManagementWord (t : Nat)
  /-- PRBS_CHECKER_LOCK (R346): A PRBS checker declares LOCK after 256 error-free bits, or drops LOCK after more than 32 errors in 256 bits and seeds itself again. -/
  | prbsCheckerLock (t : Nat) (i : Nat) (errs : Nat)
  /-- TAG_LOCK (R310): A team gains tag lock after 64 consecutive TAG_SYNC at slot spacing, and the port deskews its teams and begins sending LINK_PARAM. -/
  | tagLock (p : Nat)
  /-- LOCK_RELEASE_TIMEOUT (R290): When a block is silent at step 7 of the lock cycle, the leader sends RELEASE after DRAIN_TO without waiting for every SWAPPED. -/
  | lockReleaseTimeout
deriving DecidableEq, Repr

end Sys2Proof
end

