-- ==== Sys2Proof/Config.lean ====
section
/-! DEFINITION. What the implementation fixes and the spec leaves open: free values, with no body, so that
no proof can see what they are. -/

namespace Sys2Proof.Config

/-- The ROM kernel's version, DX_MC_STAT.KVER (R470): the spec gives it no value. -/
opaque kver : BitVec 8

/-- The nonce that MB_NONCE issues (R473): unpredictable; applied to the free-value counter. -/
opaque nonce : Nat → BitVec 256

/-- The firmware key digest held in ROM (R467). -/
opaque romKeyDigest : BitVec 384

/-- The frequency term after a response, in 0.25 ns ÷ 3,125 per REFCLK cycle (R484): the spec gives no filter;
applied to the free-value counter. -/
opaque freqTerm : Nat → Int

/-- Values the spec leaves open, applied to the free-value counter. -/
opaque freeValue : Nat → BitVec 64

end Sys2Proof.Config
end

