-- ==== Sys2Proof/Machine/Bits.lean ====
section
/-! DEFINITION. Byte order, check codes and small list helpers shared by every part of the block:
little-endian quadwords and flits (R58, R226), CRC-16 (R374), CRC-32C (R295), CRC64 (R239), mix (R115). -/

namespace Sys2Proof.Machine

/-- The `n` low bytes of a number, least significant first. -/
def leBytes : Nat → Nat → List Byte
  | 0, _ => []
  | n + 1, v => BitVec.ofNat 8 v :: leBytes n (v / 256)

/-- The number whose little-endian bytes are given. -/
def leNat : List Byte → Nat
  | [] => 0
  | b :: bs => b.toNat + 256 * leNat bs

/-- The given bytes padded with zeros, or cut, to `n`. -/
def padTo (n : Nat) (l : List Byte) : List Byte := l.take n ++ List.replicate (n - l.length) 0

/-- The `w`-bit field of a quadword at bit `lo`. -/
def qf (q : Quad) (lo w : Nat) : Nat := fld q.toNat lo w

/-- The quadword Qi of a command word (R58). -/
def cq (w : CmdWord) (i : Nat) : Nat := fld w.toNat (64 * i) 64

/-- The field [hi:lo] of Qi of a command word, by width. -/
def cf (w : CmdWord) (i lo width : Nat) : Nat := fld (cq w i) lo width

/-- `f n`, with `n` evaluated before it is handed on. -/
def strict {α : Type} (n : Nat) (f : Nat → α) : α :=
  match n with
  | 0 => f 0
  | k + 1 => f (k + 1)

@[simp] theorem strict_eq {α : Type} (n : Nat) (f : Nat → α) : strict n f = f n := by cases n <;> rfl

/-- One step of a most-significant-bit-first check register of `n` bits: eight shifts. -/
def crcMsb8 (n poly : Nat) : Nat → Nat → Nat
  | 0, r => r
  | k + 1, r => crcMsb8 n poly k (((2 * r) % 2 ^ n) ^^^ (poly * (r / 2 ^ (n - 1) % 2)))

/-- A most-significant-bit-first check register of `n` bits over the bytes. -/
def crcMsb (n poly : Nat) : List Byte → Nat → Nat
  | [], r => r
  | b :: bs, r => strict (crcMsb8 n poly 8 (r ^^^ (b.toNat * 2 ^ (n - 8)))) (fun r' => crcMsb n poly bs r')

/-- CRC-16 of the block's ports: 0x8BB7, register zero, no inversion (R374). -/
def crc16 (bs : List Byte) : Nat := crcMsb 16 0x8BB7 bs 0

/-- CRC-16 of the 64 bytes of a granule (R374). -/
def granCrc (d : Nat) : Nat := crc16 (leBytes 64 d)

/-- CRC64 of a packet: ECMA-182, register all ones, inverted at the end (R239). -/
def crc64 (bs : List Byte) : Nat := crcMsb 64 0x42F0E1EBA9EA3693 bs (2 ^ 64 - 1) ^^^ (2 ^ 64 - 1)

/-- Eight steps of the reflected CRC-32C register. -/
def crc32c8 : Nat → Nat → Nat
  | 0, r => r
  | k + 1, r => crc32c8 k ((r / 2) ^^^ (0x82F63B78 * (r % 2)))

/-- The CRC-32C register over the bytes. -/
def crc32cReg : List Byte → Nat → Nat
  | [], r => r
  | b :: bs, r => strict (crc32c8 8 (r ^^^ b.toNat)) (fun r' => crc32cReg bs r')

/-- CRC-32C: 0x1EDC6F41 reflected, all ones, inverted at the end (R295). -/
def crc32c (bs : List Byte) : Nat := crc32cReg bs 0xFFFFFFFF ^^^ 0xFFFFFFFF

/-- Parity: the XOR of the bits covered (R374), the low `n` bits of `v`. -/
def parity : Nat → Nat → Bool
  | 0, _ => false
  | n + 1, v => xor (v.testBit n) (parity n v)

/-- The mixing function of R115. -/
def mix (z : Nat) : Nat :=
  let z1 := ((z ^^^ (z >>> 30)) * 0xBF58476D1CE4E5B9) % 2 ^ 64
  let z2 := ((z1 ^^^ (z1 >>> 27)) * 0x94D049BB133111EB) % 2 ^ 64
  z2 ^^^ (z2 >>> 31)

/-- The indices below `n` whose bit of `m` is set, lowest first. -/
def setBits (n m : Nat) : List Nat := (List.range n).filter (fun i => m.testBit i)

/-- The number with exactly the bits of the list set. -/
def maskOf (l : List Nat) : Nat := l.foldl (fun m i => m ||| 2 ^ i) 0

/-- Replace the first element that satisfies `p` by its image. -/
def updFirst {α : Type} (p : α → Bool) (f : α → α) : List α → List α
  | [] => []
  | x :: xs => if p x then f x :: xs else x :: updFirst p f xs

/-- Remove the first element that satisfies `p`. -/
def dropFirst {α : Type} (p : α → Bool) : List α → List α
  | [] => []
  | x :: xs => if p x then xs else x :: dropFirst p xs

/-- The list without its element at index `i`. -/
def dropAt {α : Type} : List α → Nat → List α
  | [], _ => []
  | _ :: xs, 0 => xs
  | x :: xs, i + 1 => x :: dropAt xs i

/-- The list with the element at index `i` replaced. -/
def setAt {α : Type} : List α → Nat → α → List α
  | [], _, _ => []
  | _ :: xs, 0, y => y :: xs
  | x :: xs, i + 1, y => x :: setAt xs i y

/-- The lowest number below `n` that satisfies `p`. -/
def lowest (n : Nat) (p : Nat → Bool) : Option Nat := (List.range n).find? p

/-- A 32-bit saturating count. -/
def satInc (w : Word) : Word := if w = 0xFFFFFFFF then w else w + 1

/-- The signed value of a `w`-bit number. -/
def toSigned (w n : Nat) : Int := if n < 2 ^ (w - 1) then (n : Int) else (n : Int) - 2 ^ w

/-- An integer modulo 2^w as a number. -/
def wrapInt (w : Nat) (i : Int) : Nat := (i % 2 ^ w).toNat

end Sys2Proof.Machine
end

