-- ==== Sys2Proof/Machine/Format.lean ====
section
/-! DEFINITION. Element formats, rounding, and the arithmetic of reductions and conversions
(R106, R112 to R115, R123, R197 to R210). Floating values are exact dyadic numbers; every rounding is
one explicit narrowing of an exact value. -/

namespace Sys2Proof.Machine

/-- A floating format: exponent bits, fraction bits, bias; `ieee`: has infinities and NaNs in the top
exponent, otherwise (E4M3) only the all-ones code is NaN (R197). -/
structure FFmt where
  eb : Nat
  mb : Nat
  bias : Nat
  ieee : Bool
deriving DecidableEq, Repr

/-- The floating format of an element format code (R106); an MXFP8 code names its element format. -/
def ffmt : Nat → Option FFmt
  | 0x2 => some ⟨8, 23, 127, true⟩
  | 0x3 => some ⟨8, 7, 127, true⟩
  | 0x4 => some ⟨5, 10, 15, true⟩
  | 0x5 => some ⟨4, 3, 7, false⟩
  | 0x6 => some ⟨5, 2, 15, true⟩
  | 0x7 => some ⟨4, 3, 7, false⟩
  | 0x8 => some ⟨5, 2, 15, true⟩
  | _ => none

/-- Element size in bytes (R106); zero for a reserved code. -/
def esize : Nat → Nat
  | 0x0 | 0x5 | 0x6 | 0x7 | 0x8 | 0x9 => 1
  | 0x1 | 0x3 | 0x4 | 0xA => 2
  | 0x2 | 0xB => 4
  | _ => 0

/-- The format code is one of the MXFP8 formats. -/
def isMx (f : Nat) : Bool := decide (f = 0x7) || decide (f = 0x8)

/-- Width in bits of an integer format; zero for the others. -/
def intBits : Nat → Nat
  | 0x9 => 8
  | 0xA => 16
  | 0xB => 32
  | _ => 0

/-- A floating value: NaN, infinity, or (−1)^neg · m · 2^e. -/
inductive FVal where
  | nan (neg : Bool)
  | inf (neg : Bool)
  | fin (neg : Bool) (m : Nat) (e : Int)
deriving DecidableEq, Repr

/-- Total width of a format. -/
def FFmt.bits (f : FFmt) : Nat := 1 + f.eb + f.mb

/-- Decode an element. -/
def FFmt.decode (f : FFmt) (v : Nat) : FVal :=
  let neg := v.testBit (f.eb + f.mb)
  let ex := fld v f.mb f.eb
  let fr := fld v 0 f.mb
  if f.ieee ∧ ex = 2 ^ f.eb - 1 then (if fr = 0 then .inf neg else .nan neg)
  else if ¬ f.ieee ∧ ex = 2 ^ f.eb - 1 ∧ fr = 2 ^ f.mb - 1 then .nan neg
  else if ex = 0 then .fin neg fr (1 - (f.bias : Int) - f.mb)
  else .fin neg (2 ^ f.mb + fr) ((ex : Int) - f.bias - f.mb)

/-- The sign bit in place. -/
def FFmt.signBit (f : FFmt) (neg : Bool) : Nat := b2n neg * 2 ^ (f.eb + f.mb)

/-- Quiet NaN with a sign: 0x7FC0_0000, 0x7FC0, 0x7E00, 0x7F, 0x7E (R114, R197). -/
def FFmt.qnan (f : FFmt) (neg : Bool) : Nat :=
  f.signBit neg + (if f.ieee then (2 ^ f.eb - 1) * 2 ^ f.mb + 2 ^ (f.mb - 1) else 2 ^ (f.eb + f.mb) - 1)

/-- Infinity with a sign; the format's NaN where it has none (R114). -/
def FFmt.infinity (f : FFmt) (neg : Bool) : Nat :=
  if f.ieee then f.signBit neg + (2 ^ f.eb - 1) * 2 ^ f.mb else f.qnan neg

/-- The largest finite element with a sign. -/
def FFmt.maxFin (f : FFmt) (neg : Bool) : Nat :=
  f.signBit neg + (if f.ieee then (2 ^ f.eb - 1) * 2 ^ f.mb - 1 else 2 ^ (f.eb + f.mb) - 2)

/-- How a discarded fraction rounds: to nearest even, or by a 32-bit random number (R115). -/
inductive Rounding where
  | even
  | stoch (r : Nat)
deriving DecidableEq, Repr

/-- Round the magnitude m · 2^e to an integer number of quanta 2^q. -/
def roundQ (rnd : Rounding) (m : Nat) (e q : Int) : Nat :=
  if q ≤ e then m * 2 ^ (e - q).toNat
  else
    let d := (q - e).toNat
    let n := m / 2 ^ d
    let rem := m % 2 ^ d
    match rnd with
    | .even => if 2 ^ d < 2 * rem ∨ (2 * rem = 2 ^ d ∧ n % 2 = 1) then n + 1 else n
    | .stoch r => if 2 ^ 32 ≤ rem * 2 ^ 32 / 2 ^ d + r then n + 1 else n

/-- Round a magnitude to the format's precision with an unbounded exponent range: (n, q) for n · 2^q
with n < 2^(mb + 1), q at least the subnormal quantum (R114, R115). -/
def FFmt.roundMag (f : FFmt) (rnd : Rounding) (m : Nat) (e : Int) : Nat × Int :=
  let emin : Int := 1 - (f.bias : Int)
  let q : Int := max ((Nat.log2 m : Int) + e) emin - f.mb
  let n := roundQ rnd m e q
  if n = 2 ^ (f.mb + 1) then (2 ^ f.mb, q + 1) else (n, q)

/-- Encode n · 2^q with a sign; answers none where it exceeds the largest finite value. -/
def FFmt.encodeMag (f : FFmt) (neg : Bool) (n : Nat) (q : Int) : Option Nat :=
  if n < 2 ^ f.mb then some (f.signBit neg + n)
  else
    let v := f.signBit neg + ((q + f.mb + f.bias).toNat * 2 ^ f.mb + (n - 2 ^ f.mb))
    if (q + f.mb + f.bias : Int) < 2 ^ f.eb ∧ v ≤ f.maxFin neg then some v else none

/-- Round a value into the format: overflow becomes infinity, or saturates where the format has none or
`sat` says so; NaN keeps its sign (R114). -/
def FFmt.encode (f : FFmt) (rnd : Rounding) (sat : Bool) : FVal → Nat
  | .nan neg => f.qnan neg
  | .inf neg => f.infinity neg
  | .fin neg m e =>
    if m = 0 then f.signBit neg
    else
      let (n, q) := f.roundMag rnd m e
      match f.encodeMag neg n q with
      | some v => v
      | none => if sat ∨ ¬ f.ieee then f.maxFin neg else f.infinity neg

/-- The value as a signed integer of quanta 2^q, for q at or below its exponent. -/
def signedQ (neg : Bool) (m : Nat) (e q : Int) : Int :=
  let v : Int := (m : Int) * 2 ^ (e - q).toNat
  if neg then -v else v

/-- The exact sum; an exact zero is +0 unless both are −0 (R204). -/
def FVal.add : FVal → FVal → FVal
  | .nan _, _ => .nan false
  | _, .nan _ => .nan false
  | .inf a, .inf b => if a = b then .inf a else .nan false
  | .inf a, .fin _ _ _ => .inf a
  | .fin _ _ _, .inf b => .inf b
  | .fin na ma ea, .fin nb mb eb =>
    let q := min ea eb
    let v := signedQ na ma ea q + signedQ nb mb eb q
    if v = 0 then .fin (na && nb) 0 q else .fin (decide (v < 0)) v.natAbs q

/-- Strict order of values that are not NaN, −0 below +0 (R123, R207, R209). -/
def FVal.lt : FVal → FVal → Bool
  | .inf a, .inf b => a && !b
  | .inf a, _ => a
  | _, .inf b => !b
  | .fin na ma ea, .fin nb mb eb =>
    let q := min ea eb
    let va := signedQ na ma ea q
    let vb := signedQ nb mb eb q
    decide (va < vb) || (decide (va = vb) && decide (ma = 0) && na && !nb)
  | _, _ => false

/-- The value is a NaN. -/
def FVal.isNan : FVal → Bool
  | .nan _ => true
  | _ => false

/-- maximumNumber or minimumNumber on patterns: a bit copy of the operand chosen, the canonical NaN when
both are NaN (R123, R207). -/
def FFmt.pick (f : FFmt) (max : Bool) (a b : Nat) : Nat :=
  let va := f.decode a
  let vb := f.decode b
  if va.isNan ∧ vb.isNan then f.qnan false
  else if va.isNan then b
  else if vb.isNan then a
  else if max then (if va.lt vb then b else a) else (if vb.lt va then b else a)

/-- binary32 addition to nearest even with the canonical NaN (R123). -/
def fadd32 (a b : Nat) : Nat :=
  let f : FFmt := ⟨8, 23, 127, true⟩
  match (f.decode a).add (f.decode b) with
  | .nan _ => f.qnan false
  | v => f.encode .even false v

/-! ## Conversion from FP32 (R112, R114, R115) -/

/-- Convert an FP32 pattern into a non-MXFP8 floating format. -/
def fromFp32 (dfmt : Nat) (rnd : Rounding) (v : Nat) : Nat :=
  match ffmt dfmt with
  | some f => f.encode rnd false ((FFmt.mk 8 23 127 true).decode v)
  | none => v

/-- The exponent ⌊log2 v⌋ of a non-zero finite magnitude. -/
def floorLog (m : Nat) (e : Int) : Int := (Nat.log2 m : Int) + e

/-- The shared scale X of a block of values for an MXFP8 format: the largest exponent less 8 (E4M3) or 15
(E5M2), clamped to −127 to 127, and −127 for an all-zero block; none where some value is NaN or
infinite (R112). -/
def mxScale (dfmt : Nat) (vals : List FVal) : Option Int :=
  let top : Option (Option Int) := vals.foldl (fun acc v =>
    match acc, v with
    | none, _ => none
    | some b, .fin _ m e =>
      if m = 0 then some b
      else some (some (match b with | none => floorLog m e | some x => max x (floorLog m e)))
    | some _, _ => none) (some none)
  match top with
  | none => none
  | some none => some (-127)
  | some (some x) => some (max (-127) (min 127 (x - (if dfmt = 0x7 then 8 else 15))))

/-- Encode a block: element patterns and the scale byte; 0x00 elements and scale 0xFF for a NaN block
(R112, R198, R205). `rnd i` is the rounding of element i. -/
def mxEncode (dfmt : Nat) (rnd : Nat → Rounding) (vals : List FVal) : List Nat × Nat :=
  match mxScale dfmt vals, ffmt dfmt with
  | some x, some f =>
    ((vals.zip (List.range vals.length)).map (fun (v, i) =>
      match v with
      | .fin neg m e => f.encode (rnd i) true (.fin neg m (e - x))
      | w => f.encode (rnd i) true w), (x + 127).toNat)
  | _, _ => (vals.map (fun _ => 0), 0xFF)

/-- Decode a block of MXFP8 elements with its scale byte; every value NaN in a NaN block (R198). -/
def mxDecode (fmt : Nat) (els : List Nat) (scale : Nat) : List FVal :=
  match ffmt fmt with
  | none => []
  | some f =>
    let vs := els.map f.decode
    let bad := scale = 0xFF ∨ vs.any (fun v => match v with | .fin _ _ _ => false | _ => true)
    if bad then vs.map (fun _ => .nan false)
    else vs.map (fun v =>
      match v with
      | .fin neg m e => .fin neg m (e + (scale : Int) - 127)
      | w => w)

/-! ## Combine (R203 to R208) -/

/-- The transit format of an element format: FMT, or FP32 or INT32 when widened (R201). -/
def transit (fmt : Nat) (wide : Bool) : Nat :=
  if ¬ wide then fmt else if (intBits fmt ≠ 0) then 0xB else 0x2

/-- Clamp an integer to a two's-complement width: pattern and saturation mark (R206). -/
def clampInt (w : Nat) (v : Int) : Nat × Bool :=
  if v < -2 ^ (w - 1) then (wrapInt w (-2 ^ (w - 1)), true)
  else if (2 : Int) ^ (w - 1) - 1 < v then (wrapInt w (2 ^ (w - 1) - 1), true)
  else (wrapInt w v, false)

/-- One element of a combine in transit format `t` for SUM, MAX, MIN, AND, OR, XOR: pattern and saturation
mark (R204, R206 to R208). -/
def combine1 (rop t a x : Nat) : Nat × Bool :=
  if rop = 3 then (a &&& x, false)
  else if rop = 4 then (a ||| x, false)
  else if rop = 5 then (a ^^^ x, false)
  else if intBits t ≠ 0 then
    let w := intBits t
    let va := toSigned w a
    let vx := toSigned w x
    if rop = 0 then clampInt w (va + vx)
    else if rop = 1 then (if va < vx then x else a, false)
    else (if vx < va then x else a, false)
  else
    match ffmt t with
    | none => (a, false)
    | some f =>
      if rop = 0 then
        match (f.decode a).add (f.decode x) with
        | .nan _ => (f.qnan false, false)
        | v => (f.encode .even false v, false)
      else (f.pick (decide (rop = 1)) a x, false)

/-- An element of FMT in transit format (R203): exact, sign-extended integers, or FP32 of a float. A NaN becomes the
canonical FP32 NaN, since the rule gives neither sign nor payload (DESIGN CHOICE, log 90). -/
def toTransit (fmt : Nat) (wide : Bool) (v : Nat) : Nat :=
  if ¬ wide then v
  else if intBits fmt ≠ 0 then wrapInt 32 (toSigned (intBits fmt) v)
  else
    match ffmt fmt with
    | none => v
    | some f =>
      match f.decode v with
      | .nan _ => (FFmt.mk 8 23 127 true).qnan false
      | w => (FFmt.mk 8 23 127 true).encode .even false w

/-- finish of one widened element into FMT, with its saturation mark (R204, R206). -/
def finish1 (fmt : Nat) (wide : Bool) (v : Nat) : Nat × Bool :=
  if ¬ wide then (v, false)
  else if intBits fmt ≠ 0 then clampInt (intBits fmt) (toSigned 32 v)
  else (fromFp32 fmt .even v, false)

/-- The order of ARGMAX and TOPK: `a` of position `pa` is above `b` of position `pb` (R209, R210). -/
def above (fmt a pa b pb : Nat) : Bool :=
  if intBits fmt ≠ 0 then
    let va := toSigned (intBits fmt) a
    let vb := toSigned (intBits fmt) b
    decide (vb < va) || (decide (va = vb) && decide (pa < pb))
  else
    match ffmt fmt with
    | none => decide (pa < pb)
    | some f =>
      let va := f.decode a
      let vb := f.decode b
      if va.isNan ∧ vb.isNan then decide (pa < pb)
      else if va.isNan then false
      else if vb.isNan then true
      else vb.lt va || (!(va.lt vb) && decide (pa < pb))

end Sys2Proof.Machine
end

