-- ==== Sys2Proof/Machine/Map.lean ====
section
/-! DEFINITION. Sparse maps in one canonical form: a list of (index, value) pairs with strictly
rising indices in which no entry equals what an unlisted index reads as. Register words, tallies,
channels and the management core's memory are held so. -/

namespace Sys2Proof.Machine

/-- A sparse map from indices to values. What an unlisted index reads as is a function of the
index, given to every operation. -/
abbrev SMap (α : Type) := List (Nat × α)

/-- The value at index `k`; `dflt k` where `k` is not listed. -/
def SMap.get {α : Type} (dflt : Nat → α) : SMap α → Nat → α
  | [], k => dflt k
  | (i, v) :: m, k => if i = k then v else SMap.get dflt m k

/-- Remove index `k`. -/
def SMap.erase {α : Type} : SMap α → Nat → SMap α
  | [], _ => []
  | (i, v) :: m, k => if i = k then SMap.erase m k else (i, v) :: SMap.erase m k

/-- Insert or replace the entry of `k`, keeping the indices rising. -/
def SMap.insert {α : Type} : SMap α → Nat → α → SMap α
  | [], k, x => [(k, x)]
  | (i, v) :: m, k, x =>
    if k < i then (k, x) :: (i, v) :: m
    else if i = k then (k, x) :: m
    else (i, v) :: SMap.insert m k x

/-- Write `x` at `k`, removing the entry where `x` is what an unlisted `k` reads as. -/
def SMap.set {α : Type} [DecidableEq α] (dflt : Nat → α) (m : SMap α) (k : Nat) (x : α) : SMap α :=
  if x = dflt k then SMap.erase m k else SMap.insert m k x

/-- The canonical form: indices strictly rising, no entry at its unlisted value. -/
abbrev SMap.Wf {α : Type} (dflt : Nat → α) (m : SMap α) : Prop :=
  m.Pairwise (fun a b => a.1 < b.1) ∧ ∀ e ∈ m, e.2 ≠ dflt e.1

/-- The listed entries whose index lies from `lo` to `hi - 1`. -/
def SMap.range {α : Type} (m : SMap α) (lo hi : Nat) : SMap α :=
  m.filter (fun e => decide (lo ≤ e.1) && decide (e.1 < hi))

end Sys2Proof.Machine
end

