-- ==== Sys2Proof/Machine/State.lean ====
section
/-! DEFINITION. The state of one Daxxon 3.2 block as plain data: every register, table, queue, buffer,
counter, mode and pin the spec gives it, the queue of waiting commands, and `State.reset`. -/

namespace Sys2Proof.Machine

/-- No command of this block stops the machine: the spec gives every command an effect, a drop, an
answer or a fault source of the collector. The one reason is kept for a step that would meet a state
outside the block; no command raises it, so it is safe. -/
inductive Fault where
  | outside
deriving DecidableEq, Repr

/-- Refusals. `notModelled` is raised by an arm of `exec` whose command has no meaning yet; it is safe,
since nothing is proved of a run that stops. -/
inductive Refusal where
  | notModelled (mnemonic : String)
deriving DecidableEq, Repr

/-! ## Packets (07_packet_format.md) -/

/-- A packet: the eight header quadwords, the payload and the four trailer quadwords (R224, R226, R238). -/
structure Packet where
  h0 : Quad
  h1 : Quad
  h2 : Quad
  h3 : Quad
  h4 : Quad
  h5 : Quad
  h6 : Quad
  h7 : Quad
  pay : List Byte
  t0 : Quad
  t1 : Quad
  t2 : Quad
  t3 : Quad
deriving DecidableEq, Repr

/-- A packet held in a basin, a hop queue, the injection point or an ejection berth, from its first flit on: what has
come of it, the arrival port (15: local), the direction of travel, how the port saw it, and what has left. -/
structure Held where
  pkt : Packet        -- the flits that have come, the rest read as zero
  port : Nat          -- arrival link port, 15 for the block's own injection
  share : Nat         -- virtual channel code of the berth, 6 for a towpath hop queue
  flits : Nat         -- flits received so far
  copied : Bool       -- a multicast copy was already delivered here
  dir : Option Nat    -- direction fixed at formation (multicast, towpath entry + 8)
  abn : Option Nat    -- abandoned: flits received before the first with ABN (R315)
  since : Nat         -- when it came to the head of its queue
  raw : List (BitVec 2048) := []    -- the bodies received, while more are to come
  more : Bool := false              -- the last-flit mark is still awaited
  htag : Nat := 0                   -- HTAG of the flits of a towpath packet
  sent : Nat := 0                   -- flits that have left
  out : Option (Nat × Nat × Option Nat) := none   -- port, channel and towpath entry on which its head left
deriving DecidableEq, Repr

/-! ## Host memory ports (11_block_ports.md) -/

/-- A granule read back: its 64 bytes and its poison mark. -/
structure Gran where
  data : BitVec 512
  poison : Bool
deriving DecidableEq, Repr

/-- A granule to write: data, byte enables and poison mark. -/
structure WrGran where
  key : Nat           -- offset ÷ 64 in the chip's offset space
  data : BitVec 512
  be : Quad
  poison : Bool
deriving DecidableEq, Repr

/-- A read request formed and not yet issued (R376, R377). -/
structure RdReq where
  job : Nat
  addr : Nat          -- host address of the first granule
  keys : List Nat     -- the granules, by offset ÷ 64
deriving DecidableEq, Repr

/-- A write request formed and not yet issued. -/
structure WrReq where
  job : Nat
  addr : Nat
  grans : List WrGran
deriving DecidableEq, Repr

/-- A read on the port: its tag, request, beats taken, whether it fails, whether some beat was answered ERR, and time
of issue (R378, R381, R385). -/
structure RdOut where
  tag : Nat
  req : RdReq
  beats : Nat
  err : Bool
  ans : Bool
  at_ : Nat
deriving DecidableEq, Repr

/-- A write on the port. -/
structure WrOut where
  tag : Nat
  req : WrReq
  at_ : Nat
deriving DecidableEq, Repr

/-- One HM port: waiting and outstanding requests and the quarantined tags (R384, R385). -/
structure HmPort where
  rdWait : List RdReq
  rdOut : List RdOut
  rdQuar : List Nat
  wrWait : List WrReq
  wrOut : List WrOut
  wrQuar : List Nat
deriving DecidableEq, Repr

/-- An idle HM port. -/
def HmPort.reset : HmPort := ⟨[], [], [], [], [], []⟩

/-! ## Channels (02_command_channels.md) -/

/-- The common lifecycle OFF → STARTING → ON → DRAINING → OFF (R54, R55). -/
inductive Life where
  | off
  | starting
  | on
  | draining
deriving DecidableEq, Repr

/-- Why a channel is stopped (R91, R92): by SOE (RESUME continues it) or by a status marked "always". -/
inductive StopKind where
  | no
  | soe
  | always
deriving DecidableEq, Repr

/-- An open loop: first word of its body in the loop buffer, latched count, iteration, SEQ of its REPEAT. -/
structure Loop where
  start : Nat
  count : Nat
  iter : Nat
  seq : HWord
deriving DecidableEq, Repr

/-- Words being discarded (R77, R82): by a REPEAT of count zero, a SKIP of `left` more words, or a BREAK. -/
inductive SkipKind where
  | zero
  | skip (left : Nat) (seq : HWord)
  | brk
deriving DecidableEq, Repr

/-- The discard in progress: its kind and the REPEATs opened among the discarded words. -/
structure Skip where
  kind : SkipKind
  depth : Nat
deriving DecidableEq, Repr

/-- One fragment of a transfer (R99): index, first destination offset (for LOADS MEM the source), bytes,
source offset of its first byte when the source is another chip, and whether it belongs to the scale array. -/
structure Frag where
  idx : Nat
  dst : Nat
  len : Nat
  src : Nat
  scale : Bool
deriving DecidableEq, Repr

/-- Where the cut of R99 has come to: the run, the byte within the run, and the next index. `scale`
says that the cut has reached the scale array (R113), with `off` the scale byte. -/
structure Cursor where
  run : Nat
  off : Nat
  idx : Nat
  scale : Bool
deriving DecidableEq, Repr

/-- A failed fragment: index, address outcome (0 when FENCED), ended FENCED, ended ABORTED, address (R131). -/
structure Fail where
  idx : Nat
  aout : Nat
  fenced : Bool
  aborted : Bool
  addr : Quad
deriving DecidableEq, Repr

/-- A fragment whose source is being read before it can be formed: its data once they are read. -/
structure Ahead where
  frag : Frag
  start : Cursor            -- where it begins in the runs
  job : Nat
  data : Option (List Byte × Nat)    -- destination bytes and poison bits by granule of the page
deriving DecidableEq, Repr

/-- A started, incomplete command of a channel. -/
structure Flight where
  ord : Nat                 -- start order
  word : CmdWord
  layer : HWord
  oper : HWord
  iter : Nat
  depth : Nat               -- open loops around it
  len : Nat                 -- latched LEN, COUNT or ORD readiness
  opnd : Quad               -- scalar operand read at the start
  shape : List Word         -- shape entry copied at the start (R102), eight words
  xfer : Word               -- DX_XFER_CFG read at the start (R116)
  cursor : Option Cursor    -- fragments not yet issued
  ahead : Option Ahead
  localW : Nat              -- local writes (GET data, RMEM) not yet answered
  fails : Nat
  first : Option Fail
  fenced : Bool
  aborted : Bool
  cancelled : Bool          -- ended before it had issued everything
  bytes : Nat
  value : Quad
  tStart : Nat              -- time of day at its start, 0.25 ns
  group : Nat               -- group entry of a COLL
  written : Bool
  sat : Bool
  dropped : Nat
deriving DecidableEq, Repr

/-- An outstanding fragment slot (R62, R231). -/
structure Slot where
  ftag : Nat
  pseq : Nat
  ord : Nat
  frag : Frag
  chip : Nat                -- destination chip of the request
  port : Option Nat         -- link port it left on, once it has
  tow : Option Nat          -- towpath it travels on
deriving DecidableEq, Repr

/-- A completed command whose record or event is not yet made (R89). -/
structure Owed where
  ord : Nat
  image : CmdWord             -- the record of R90
  cr : Bool                 -- a record is still to be written
  writing : Bool            -- its HM write is in progress
  ev : Bool
  seq : HWord
  status : Byte
  iter : Nat
deriving DecidableEq, Repr

/-- One command channel. -/
structure Chan where
  st : Life
  en : Bool
  enPend : Bool
  late : Bool               -- EN was written 0 in STARTING: DRAINING follows ON (R56)
  stop : StopKind
  nextSeq : HWord
  execSeq : HWord
  queue : List CmdWord
  loopBuf : List CmdWord
  pos : Nat                 -- next word of the loop buffer
  loops : List Loop         -- innermost first
  skip : Option Skip
  layer : HWord
  oper : HWord
  flights : List Flight     -- in start order
  nextOrd : Nat
  slots : List Slot
  owed : List Owed          -- in start order
  crStall : Bool
  lastStatus : Byte
  wrIgn : Bool
  hang : Bool
  cancels : Word
  prod : Word
  cons : Word
  hangCap : CmdWord
  hangVal : Quad
  progress : Nat            -- when the progress counter last moved (R95)
deriving DecidableEq, Repr

/-- A channel after reset: OFF, everything zero (R52 to R94). -/
def Chan.reset : Chan where
  st := .off
  en := false
  enPend := false
  late := false
  stop := .no
  nextSeq := 0
  execSeq := 0
  queue := []
  loopBuf := []
  pos := 0
  loops := []
  skip := none
  layer := 0
  oper := 0
  flights := []
  nextOrd := 0
  slots := []
  owed := []
  crStall := false
  lastStatus := 0
  wrIgn := false
  hang := false
  cancels := 0
  prod := 0
  cons := 0
  hangCap := 0
  hangVal := 0
  progress := 0

/-! ## Tally watches, the atomic unit, the engines (04_memory_model.md, 03_transfers_atomics.md) -/

/-- A tally watch (R145 to R147). -/
structure Watch where
  tally : Nat
  cond : Nat
  armed : Bool
  fired : Bool
  overrun : Bool
  wrIgn : Bool
  value : BitVec 48
  step : Word
  pend : Option (BitVec 128)
deriving DecidableEq, Repr

/-- A watch after reset. -/
def Watch.reset : Watch := ⟨0, 0, false, false, false, false, 0, 0, none⟩

/-- An accepted atomic waiting in the atomic unit, numbered in arrival order with the writes (R125, R128). -/
structure AtomReq where
  num : Nat
  pkt : Packet
  reading : Bool            -- an HM read for it is in progress
deriving DecidableEq, Repr

/-- A granule of the atomic cache: key (offset ÷ 64), data, time of its last atomic (R127). -/
structure AtcEntry where
  key : Nat
  data : Gran
  last : Nat
deriving DecidableEq, Repr

/-- The atomic unit: queue of accepted atomics and the atomic cache. -/
structure Atc where
  queue : List AtomReq
  cache : List AtcEntry
deriving DecidableEq, Repr

/-- What a read of host memory serves. -/
inductive RdUse where
  | frag (k ord : Nat)                       -- source of a fragment being formed
  | serve (p : Packet)                       -- an accepted RD, RD_RELAY or RA_LD
  | atom (num : Nat)                         -- an accepted atomic
  | coll (g : Nat)                           -- input of the instance of a group entry
  | collHead (g : Nat)                       -- header and counts of an A2A_CAP send area
deriving DecidableEq, Repr

/-- A read in progress: granules read so far, requests still to be answered, failure. -/
structure RdJob where
  id : Nat
  use : RdUse
  left : Nat
  got : List (Nat × Gran)
  err : Bool
  live : Bool               -- false: its work ended, the data are discarded
deriving DecidableEq, Repr

/-- What a write of host memory serves. -/
inductive WrUse where
  | packet (p : Packet)                      -- an accepted WR, RLY_DATA or RA_ST
  | get (k ord : Nat) (f : Frag) (poison : Bool)   -- data of a GET fragment
  | rmem (k ord : Nat)                       -- value found of an ATOM with RMEM
  | record (k ord : Nat)                     -- a completion record
  | atom (p : Packet) (found : Quad)         -- the value an atomic wrote
  | coll (g : Nat) (seq : HWord) (kind : Nat) (gb : List (Nat × Nat)) (addr : Nat) (ack : Option Packet)
      -- collective result (kind 0 DST, 1 REPORT): bytes by granule, address, packet to acknowledge
deriving DecidableEq, Repr

/-- A write in progress: number in arrival order, granules, requests still to be answered, failure. -/
structure WrJob where
  id : Nat
  use : WrUse
  keys : List Nat
  left : Nat
  err : Bool
  count : Nat               -- granules a tally counts (R100)
  live : Bool
deriving DecidableEq, Repr

/-- The read and write engines. -/
structure Engines where
  next : Nat
  reads : List RdJob
  writes : List WrJob
deriving DecidableEq, Repr

/-! ## RA and EV ports -/

/-- An outstanding RA load (R43, R45). -/
structure RaLoad where
  tag : Nat
  addr : Quad
  len : Nat
  pseq : Nat
  at_ : Nat
deriving DecidableEq, Repr

/-- A response waiting on the rsp bundle (R386, R388). -/
structure RaResp where
  tag : Nat
  wr : Bool
  out : Nat
  data : BitVec 2048
deriving DecidableEq, Repr

/-- One RA port: outstanding loads, quarantined (tag, PSEQ) pairs, responses, withheld accesses. -/
structure RaPort where
  loads : List RaLoad
  quar : List (Nat × Nat)
  rsp : List RaResp
  heldAcc : List (Bool × RaAccess)
deriving DecidableEq, Repr

/-- An idle RA port. -/
def RaPort.reset : RaPort := ⟨[], [], [], []⟩

/-- A stream of RA accesses at the destination, keyed by source chip and RA port (R152). -/
structure Stream where
  chip : Nat
  ra : Nat
  queue : List Packet       -- the first is being performed when `busy`
  busy : Bool
deriving DecidableEq, Repr

/-- The EV port: the queue of at most 256 words and the events held at their sources (R391). -/
structure EvPort where
  queue : List (BitVec 128)
  held : List (Option Nat × BitVec 128)
deriving DecidableEq, Repr

/-! ## Router, towpaths, reins, tables (08_routing_flow_control.md) -/

/-- Live part of a towpath entry (R269, R272, R273, R306): state, EN, held enable, AVAIL, credits held
for the next hop's queue, freed-berth counter and last counter seen, its hop queue of at most 2. -/
structure Tow where
  st : Life
  en : Bool
  enPend : Bool
  avail : Nat
  hopCred : Nat
  seen : Nat                -- last TWCNT seen from downstream
  freed : Nat               -- own freed-berth counter mod 8
  told : Nat                -- that counter as last reported upstream
  upTag : Nat               -- HTAG of the upstream entry, learnt from its flits
  queue : List Held
  lastRsp : Nat             -- time of the last response or entry (R274)
deriving DecidableEq, Repr

/-- A towpath entry after reset. -/
def Tow.reset : Tow := ⟨.off, false, false, 0, 0, 0, 0, 0, 0, [], 0⟩

/-- A rein (R278 to R280). The bucket counts tenths of a byte (6.4 ns × RATE GB/s = 64 tenths × RATE). -/
structure Rein where
  rate : Nat
  bucket : Int
  at_ : Nat                  -- when the bucket was last brought up to date
  lastDec : Option Nat
  sawZero : Bool
  sawHigh : Bool
  held : Bool               -- held a packet in this TAI interval
  limiting : Bool           -- held a packet in the last one
  start : Nat               -- start of the TAI interval
deriving DecidableEq, Repr

/-- A rein after reset: RATE 4,095, a full bucket. -/
def Rein.reset : Rein := ⟨4095, 163840, 0, none, false, false, false, false, 0⟩

/-- State of the other bank of the routing tables (R284). -/
inductive BankSt where
  | idle
  | ready
  | hold
deriving DecidableEq, Repr

/-- Phase of a lock cycle at a block (R284). -/
inductive Phase where
  | none
  | staged
  | locked
  | swapped
deriving DecidableEq, Repr

/-- The banked and staged tables: the substitution and exception tables in banks 0 and 1; windows,
groups, rank list and towpath words W0 to W5 in force and in staging. Words by RG offset. -/
structure Tables where
  cur : Bool
  other : BankSt
  phase : Phase
  cycle : HWord
  bank0 : SMap Word
  bank1 : SMap Word
  force : SMap Word
  staging : SMap Word
  holdAt : Nat              -- when the former bank entered HOLD
  lockAt : Nat              -- when LOCK was received
deriving DecidableEq, Repr

/-- The packet counts of one partition key that a lock cycle asks for (R287 step 4). -/
structure Counts where
  orig : Nat
  acc : Nat
  drop : Nat
deriving DecidableEq, Repr

/-! ## Link ports (09_link_layer.md) -/

/-- Link states (R309). -/
inductive LinkSt where
  | off
  | training
  | active
  | retrain
  | draining
  | fenced
deriving DecidableEq, Repr

/-- A sequenced flit in the replay buffer: its tag fields apart from ACKSEQ, NAK, FENCE, reports and
CRC, its body, how often it was sent and when last. -/
structure TxFlit where
  fseq : Nat
  core : Nat                -- tag bits [27:0] of R294
  body : BitVec 2048
  sends : Nat
  at_ : Nat
deriving DecidableEq, Repr

/-- What LINK_PARAM told about the peer (R311, R323). -/
structure Peer where
  chip : Nat
  chipValid : Bool
  dir : Nat
  shares : List Nat         -- by VC code 0 to 5, then TOW
  tTx : Nat                 -- its last T_TX
  rxAt : Nat                -- when it was received (time of day)
  valid : Bool
deriving DecidableEq, Repr

/-- One link port. -/
structure Link where
  st : LinkSt
  enPend : Bool
  drain : Bool              -- RETRAIN was entered from DRAINING
  heldEn : Bool             -- an EN written 1 held while a self-step is deferred (R444)
  cause : Nat
  mgtOnly : Bool
  teams : List Nat          -- usable teams, ascending
  dropAsk : List Nat        -- teams for which this side sent TEAM_DROP and awaits the answer
  fseq : Nat                -- next FSEQ to send
  rot : Nat                 -- rotation over usable teams (R298)
  e : Nat                   -- expected FSEQ
  nak : Bool
  acked : Nat               -- ACKSEQ last received
  replay : List TxFlit
  replayAt : Option (Nat × Nat)  -- last replay: from which ACKSEQ, when
  toUse : Nat               -- REPLAY_TO in use, × 64 ns
  cred : List Nat           -- credits held, by VC code 0 to 5
  seen : List Nat           -- last CRCNT seen
  freed : List Nat          -- own freed-berth counters, mod 256
  told : List Nat           -- counters as last reported
  repVc : Nat               -- rotation of the credit reports
  repTow : Nat              -- rotation of the hop-queue reports: entry reported last
  slot : Nat                -- frame slot of the next flit (R270)
  vcUsed : List Nat         -- packets started in this round of the weighted round robin, by VC code 0 to 4 (R263)
  basin : List Held         -- held packets in arrival order
  ctl : List (Nat × BitVec 2048)  -- received control flits, oldest first, with the time of day of their arrival
  ctlWait : List (Nat × BitVec 2048)  -- sequenced control flits waiting for ACTIVE (kind, body)
  peer : Peer
  goodParams : Nat          -- good LINK_PARAMs in this TRAINING
  tagLock : Bool
  paramAt : Nat             -- when LINK_PARAM was last sent
  stamps : List Nat         -- T_TX of the LINK_PARAMs sent in this TRAINING
  rtt : Nat                 -- measured round trip, 0.25 ns
  fenceRun : List (Nat × Nat)  -- good FENCE tags in a row, by team
  since : Nat               -- entry into the present state
deriving DecidableEq, Repr

/-- No peer known. -/
def Peer.reset : Peer := ⟨0, false, 0, [], 0, 0, false⟩

/-- A link port after reset: OFF (R318). -/
def Link.reset : Link where
  st := .off
  enPend := false
  drain := false
  heldEn := false
  cause := 0
  mgtOnly := false
  teams := []
  dropAsk := []
  fseq := 0
  rot := 0
  e := 0
  nak := false
  acked := 0
  replay := []
  replayAt := none
  toUse := 4
  cred := [0, 0, 0, 0, 0, 0]
  seen := [0, 0, 0, 0, 0, 0]
  freed := [0, 0, 0, 0, 0, 0]
  told := [0, 0, 0, 0, 0, 0]
  repVc := 0
  repTow := 0
  slot := 0
  vcUsed := [0, 0, 0, 0, 0]
  basin := []
  ctl := []
  ctlWait := []
  peer := Peer.reset
  goodParams := 0
  tagLock := false
  paramAt := 0
  stamps := []
  rtt := 0
  fenceRun := []
  since := 0

/-! ## Fault collector (12_faults_safety.md) -/

/-- A raise on its way into the collector: code, instance, class raised, caused by an injection,
access type, master, address and detail of its capture record (R405 to R407, R421). -/
structure Raise where
  code : Nat
  inst : Nat
  cls : Nat
  inj : Bool
  atype : Nat
  master : Nat
  addr : Nat
  detail : Nat
  time : Nat                -- time of day at the raise
deriving DecidableEq, Repr

/-- State of a fault source (R408). -/
inductive SrcSt where
  | clear
  | recovering
  | awaitAck
  | fatal
deriving DecidableEq, Repr

/-- A fault source: state, RAISES mod 16, quiet period (start, length in REFCLK cycles), times of its
last 8 completed recoveries (time of day). -/
structure Source where
  st : SrcSt
  raises : Nat
  quietAt : Nat
  quietLen : Nat
  recov : List Nat
deriving DecidableEq, Repr

/-- A source after power-up: CLEAR. -/
def Source.reset : Source := ⟨.clear, 0, 0, 0, []⟩

/-- The fault collector. Sticky bits, counts, capture records and DX_FLT_FIRST are register words.
`armed` is the injection of DX_FLT_INJ: code, instance, MODE. -/
structure Collector where
  waiting : List Raise
  src : SMap Source         -- by 64 × code + instance
  recs : Nat                -- capture records held
  lost : Nat
  rseq : Nat
  fullSaid : Bool
  capStart : Bool
  capTest : Bool
  recovAt : Nat             -- when RECOV was last set to 1
  armed : Option (Nat × Nat × Bool)
deriving DecidableEq, Repr

/-! ## Identity -/

/-- The block's own number, key, generation and partition range (R19, R21). -/
structure Ident where
  chip : BitVec 18
  valid : Bool
  pkey : HWord
  gen : Byte
  lo : BitVec 18
  hi : BitVec 18
deriving DecidableEq, Repr

/-! ## What the ports drove -/

/-- What the last command made the block's ports drive. Host bundles carry the CRC-16 of each granule or word; their parity
bits are those of `Output.parity` and `Output.wrBeats`. A frame and a lane-management word carry the register of the PRBS
that goes on after their fields: the levels sent are `trainSymbols` and `lmwSymbols` of what is listed. -/
inductive Output where
  | cpStatus (port code : Nat)
  | rgAnswer (rdata : Word) (resp : Nat)
  | hmRead (port addr lenM1 tag : Nat)
  | hmWrite (port addr tag : Nat) (grans : List WrGran) (crcs : List Nat)
  | raResp (port : Nat) (r : RaResp) (crcs : List Nat)
  | event (w : BitVec 128) (crc : Nat)
  | lbWrite (addr : Nat) (data : BitVec 512) (crc : Nat)
  | flit (port team : Nat) (tag : BitVec 112) (body : BitVec 2048)
  | nullTag (port team : Nat) (tag : BitVec 112)
  | clock (team : Nat) (symbols : List Nat) (spare : Bool)
  | lanes (team : Nat) (symbols : List (List Nat))
  | lmw (team : Nat) (w : Quad) (pn : Nat)
  | train (team pos : Nat) (ctl sts : Quad) (pn : Nat)
  | pattern (team pat : Nat)
  | pins (errA errB faultStatic : Bool)
  | i2c (c : Nat) (op addr reg n : Nat) (data : List Byte)
  | tdo (v : Nat)
  | instruments (stage array : Nat) (fused soft : List (Nat × Nat)) (gait : Quad)
  | callRet (status : Nat) (ws : List Word)
deriving DecidableEq, Repr

/-! ## Observation (15_observation.md) -/

/-- One set of command counters (R493, R494). -/
structure CmdCnt where
  seq : Nat
  iter : Nat
  frags : Nat
  rbytes : Nat
  ibytes : Nat
  reinT : Nat
  stallT : Nat
deriving DecidableEq, Repr

/-- The command counters of a channel: live and snapshot sets, whether the live set still runs, since
when no packet was formed, and whether the rein is what it waits on. -/
structure ChanCnt where
  live : CmdCnt
  snap : CmdCnt
  running : Bool
  since : Nat
  onRein : Bool
deriving DecidableEq, Repr

/-- A cleared counter set. -/
def CmdCnt.reset : CmdCnt := ⟨0, 0, 0, 0, 0, 0, 0⟩
/-- Cleared command counters. -/
def ChanCnt.reset : ChanCnt := ⟨CmdCnt.reset, CmdCnt.reset, false, 0, false⟩

/-- A logbook record: Q0 to Q3 (R498). -/
structure LogRec where
  q0 : Quad
  q1 : Quad
  q2 : Quad
  q3 : Quad
deriving DecidableEq, Repr

/-- A logbook (R497 to R501). BASE, RING and CHMASK are those read at STARTING. -/
structure Log where
  st : Life
  enPend : Bool
  stopped : Bool
  frozen : Bool
  recs : List LogRec        -- held records, oldest first
  rseq : Nat                -- records made since STARTING, mod 2^32
  prod : Word
  sent : List Nat           -- real records of each LB write not yet answered, in order
  base : Nat
  ring : Nat
  chmask : Quad
  singleAt : Nat            -- when a single record began to wait for a partner
  fullAt : Nat              -- when the host ring became full
deriving DecidableEq, Repr

/-- A logbook after reset. -/
def Log.reset : Log := ⟨.off, false, false, false, [], 0, 0, [], 0, 6, 0, 0, 0⟩

/-! ## Lanes, teams and I2C (10_lanes_teams_harness.md) -/

/-- Training of one receive position: still adapting, RX_DONE or RX_FAIL (R341). -/
inductive LaneTrain where
  | open_
  | done
  | failed
deriving DecidableEq, Repr

/-- One lane position of a team (R336 to R344): figure of merit, updates below SWAP in a row, marks of the
receive side, what the receiver asks, the transmitter's coefficients and the statuses it reports. -/
structure Lane where
  fom : Nat
  low : Nat
  bad : Bool                -- below FAIL, lost or failing the pairing check
  lost : Bool
  miswire : Bool            -- failed the pairing check of R340
  train : LaneTrain
  far : LaneTrain           -- what the far receiver reported for the own transmitter
  asks : Nat                -- requests answered in this training
  ans : Bool                -- an answer to a request stands (R340)
  cm2 : Int
  cm1 : Int
  cp1 : Int
  sts : Nat                 -- statuses reported, ST_M2 + 4·ST_M1 + 16·ST_P1
  echo : Nat                -- PRESET_ECHO
  seen : Nat                -- last good control field [15:0] acted on
  prbsErr : Nat
  prbsLock : Bool
  ask : Nat                 -- the request in the control fields sent, bits [8:0] (R339, R340)
deriving DecidableEq, Repr

/-- A lane after reset: preset 1. -/
def Lane.reset : Lane := ⟨0, 0, false, false, false, .open_, .open_, 0, false, 0, 0, 0, 0, 0, 0, 0, false, 0⟩

/-- Team states (R360). -/
inductive TeamSt where
  | off
  | training
  | usable
  | dropped
  | retraining
  | failed
  | prbs
deriving DecidableEq, Repr

/-- A call for the receive spare (R349, R350): the position, transaction number, switching at once, how far
it has come (0 called, 1 request sent, 2 acknowledged and comparing). -/
structure SpareCall where
  lane : Nat
  txn : Nat
  atOnce : Bool
  stage : Nat
deriving DecidableEq, Repr

/-- One team (R325 to R361). -/
structure Team where
  st : TeamSt
  lanes : List Lane
  spareFor : Option Nat
  txFor : Option Nat        -- position the transmit spare stands in for since training (R342)
  spareBad : Bool
  attempts : Nat
  mirror : Option Nat       -- position the transmit spare mirrors
  call : Option SpareCall
  ack : Option (Nat × Nat)  -- MIRROR_ACK due in the next LMW: lane, TXN
  arm : Option Nat          -- mirroring that starts at the following period
  txn : Nat
  holdover : Bool           -- forwarded clock lost, phases held (R335)
  clockBad : Bool
  tagLock : Bool
  retryAt : Option Nat      -- when the next attempt of R354 may start
  prbs : Bool               -- in PRBS mode by its register
  trained : Bool            -- decided usable in this training (R342)
  ever : Bool               -- some lane training has begun since reset (R346)
deriving DecidableEq, Repr

/-- A team after reset: OFF (R360). -/
def Team.reset : Team :=
  ⟨.off, List.replicate 10 Lane.reset, none, none, false, 0, none, none, none, none, 0, false, false, false, none,
    false, false, false⟩

/-- The streams that one team sends (R291 to R296): the scrambler's last 58 bits, the message bits of the codeword
being filled and their number, whether its parity is to be inverted (R323), the tag slots that have come beside
those of the bodies, in 1,285ths, and the PRBS registers: PRBS13 of each position in training, PRBS31 of the idle spare
(R338, R347). -/
structure Phy where
  scr : Nat
  bits : Nat
  fill : Nat
  inv : Bool
  slots : Nat
  pn13 : SMap Nat
  pn31 : Nat
deriving DecidableEq, Repr

/-- The streams of a team before it carries any; the PRBS registers begin at all ones, since the spec gives them no start
(DESIGN CHOICE, log 86). -/
def Phy.reset : Phy := ⟨0, 0, 0, false, 0, [], 0x7FFFFFFF⟩

/-- Who asked for a mailbox command that takes time: the mailbox, a kernel call of the firmware, nobody any more (a request
that has timed out), or a REMOTE request (R466, R471, R478). -/
inductive Asker where
  | mailbox
  | call
  | nobody
  | remote (p : Packet)
deriving DecidableEq, Repr

/-- An I2C transaction in progress (R364). `mb`: who asked for it by MB_I2C. -/
structure I2cBusy where
  op : Nat
  addr : Nat
  reg : Nat
  n : Nat
  mb : Option Asker
deriving DecidableEq, Repr

/-! ## Reduction units, crossbar, scrubber (06_reduction_arithmetic.md, 12_faults_safety.md) -/

/-- A piece of a partial that a unit can combine: group entry, dimension, place in the fold and first element. -/
structure PieceId where
  g : Nat
  dim : Nat
  pos : Nat
  a : Nat
deriving DecidableEq, Repr

/-- A reduction unit (R221): state, held enable, FAULTED, and in DRAINING the piece it still holds. -/
structure RUnit where
  st : Life
  enPend : Bool
  faulted : Bool
  holds : Option PieceId
deriving DecidableEq, Repr

/-- A unit while no reset has set it up. -/
def RUnit.reset : RUnit := ⟨.off, false, false, none⟩

/-! ## Abort, halt, farrier, monitors (13_recovery_halt.md) -/

/-- An accepted abort whose step waits (R442). -/
structure PendStep where
  gen : Byte
  reason : Nat
  orig : BitVec 18
  hops : Nat
  selfStep : Bool           -- the step of R444
  quiet : Bool              -- a write of GEN (R441): no abort is recorded
deriving DecidableEq, Repr

/-- Abort state: hold without a pending step (SKEW, left by a write of GEN), the steps that wait, the pairs a
non-member has forwarded with their times, when GEN last stepped. -/
structure AbortSt where
  skewHold : Bool
  steps : List PendStep
  pairs : List (Nat × Nat × Nat)
  lastStep : Option Nat
deriving DecidableEq, Repr

/-- Halt states (R454). -/
inductive HaltSt where
  | run
  | halting
  | halted
deriving DecidableEq, Repr

/-- The halt (R454 to R460): partition key, identifier, ports that have the marker to send or have sent it, inputs on
which a marker is awaited, entry time. -/
structure Halt where
  st : HaltSt
  key : HWord
  id : HWord
  sent : List Nat
  awaited : List Nat
  since : Nat
  said : Bool               -- HALT_TIMEOUT already reported
deriving DecidableEq, Repr

/-- A farrier command waiting to be performed: the four words and, for ASSIST, the packet and its port. -/
structure FarCmd where
  words : BitVec 128
  src : Option (Packet × Nat)
deriving DecidableEq, Repr

/-- The farrier (R450 to R453). -/
structure Farrier where
  acting : Bool
  abortSent : Bool
  opened : List Nat
  lastCmd : Byte
  ncmd : Nat
  queue : List FarCmd
  since : Nat               -- entry into ACTING
  openDone : Bool           -- FARRIER_OPEN_PORTS was performed
deriving DecidableEq, Repr

/-- A progress monitor (R436, R437): pending, start of its timer, already reported. -/
structure Monitor where
  pend : Bool
  at_ : Nat
  said : Bool
deriving DecidableEq, Repr

/-- A monitor that watches nothing. -/
def Monitor.reset : Monitor := ⟨false, 0, false⟩

/-! ## Management core (14_management_firmware.md) -/

/-- Modes of the core (R470). -/
inductive McMode where
  | basic
  | full
  | diag
deriving DecidableEq, Repr

/-- Firmware states (R470). -/
inductive FwSt where
  | none
  | loading
  | running
  | restarting
deriving DecidableEq, Repr

/-- A mailbox request in progress: its 64 words, when GO was written, and whether it was started and waits. -/
structure MbReq where
  words : List Word
  at_ : Nat
  started : Bool
deriving DecidableEq, Repr

/-- The mailbox (R470, R471). -/
structure Mailbox where
  busy : Option MbReq
  done : Bool
  tag : Byte
  status : Byte
  rsp : List Word
deriving DecidableEq, Repr

/-- An MB_REQ this kernel sent and holds outstanding (R478, R479): MSEQ, destination, header fields, payload,
when last sent and how often. -/
structure MgtOut where
  mseq : Nat
  dst : Nat
  aux : Nat
  h5 : Nat
  h6 : Nat
  pkey : Nat
  pay : List Byte
  at_ : Nat
  sends : Nat
  who : Option Asker        -- who waits for the response of a forwarded request (MB_REMOTE)
deriving DecidableEq, Repr

/-- A request this kernel has answered: sender, MSEQ, and its response. -/
structure Answered where
  src : Nat
  mseq : Nat
  aux : Nat
  pay : List Byte
deriving DecidableEq, Repr

/-- Aggregates of a tree report (R480): counts of READY, REFUSED and silent blocks, the first refusal, sums
of the partition's packets, and the three flags. -/
structure TreeAgg where
  ready : Nat
  refused : Nat
  silent : Nat
  first : Nat
  orig : Nat
  acc : Nat
  drop : Nat
  outst : Bool
  busy : Bool
  changed : Bool
deriving DecidableEq, Repr

/-- Nothing reported. -/
def TreeAgg.zero : TreeAgg := ⟨0, 0, 0, 0, 0, 0, 0, false, false, false⟩

/-- This block's part in a lock cycle (R287, R480): the cycle, its leader and the GEN of its messages, the block
that reports go to, the wave whose reports are gathered (its MSG code; 0 none), the children, those whose report
is awaited, what they reported, the counts of the last round, quiet rounds in a row, the epoch fallback, a staging
that could not be taken, and when the present step began. -/
structure LockPart where
  cycle : HWord
  leader : BitVec 18
  gen : Byte
  parent : Nat
  wave : Nat
  children : List Nat
  await : List Nat
  agg : TreeAgg
  last : Option (Nat × Nat × Nat)
  quietRounds : Nat
  epochMode : Bool
  bad : Bool
  since : Nat
  key : Nat                 -- PKEY of its messages
  drains : Bool             -- some block's staging changes a drain-only table
  silent : Nat              -- own children counted as silent
deriving DecidableEq, Repr

/-- What a lock cycle led here serves: MB_IMG_APPLY, MB_TABLE_SWAP or MB_TAKEOVER. -/
inductive LeadUse where
  | apply (serial : Nat)
  | swap
  | takeover (failed spare : BitVec 18) (samePos : Bool)
deriving DecidableEq, Repr

/-- A lock cycle led here: what it serves, who asked, and the generation at its start (R449). -/
structure Lead where
  use : LeadUse
  who : Asker
  gen : Byte
deriving DecidableEq, Repr

/-- A message of the tree or to a spare that waits for the one before it to be answered: destination, AUX, H5, H6,
key, payload words. -/
structure TreeMsg where
  dst : Nat
  aux : Nat
  h5 : Nat
  h6 : Nat
  pkey : Nat
  pay : List Word
deriving DecidableEq, Repr

/-- The management core. -/
structure Core where
  mode : McMode
  fw : FwSt
  svn : Byte
  restarts : Nat
  fwver : Word
  openUntil : Option Nat    -- expert control in force until this REFCLK cycle
  nonce : Option (BitVec 256 × Nat)
  mb : Mailbox
  ram : SMap Byte           -- management SRAM, by core address − 0x1000_0000
  fwLen : Nat
  fwParts : List (Nat × Nat)    -- chunks written: offset, bytes
  kx : Nat                  -- section lengths of the loaded image
  fc : Nat
  fd : Nat
  entry : Nat
  digest : BitVec 384       -- digest of the code region stored at load
  initData : List Byte
  heartAt : Nat
  imgLen : Option Nat
  imgParts : List (Nat × Nat)
  serial : Option Nat       -- highest image serial applied since cold reset
  wdogAt : Nat              -- last watchdog write (R429)
  mseq : Nat
  cycle : HWord             -- number of the last cycle led here
  outst : List MgtOut
  answered : List Answered
  part : Option LockPart
  lead : Option Lead
  treeQ : List TreeMsg
  spareWait : Bool          -- a spare that has taken over a number and waits for RELEASE (R31)
deriving DecidableEq, Repr

/-- States of time steering (R484). -/
inductive TimeSt where
  | free
  | acquire
  | locked
  | holdover
deriving DecidableEq, Repr

/-- Beacon exchange and steering (R483, R484): latest sequence and its T1 while unanswered, responses in a
row below 2 ns, intervals without one, frequency term and correction still to be slewed in 0.25 ns ÷ 3,125, and
whether the one step of ACQUIRE has been made. -/
structure TimeSync where
  st : TimeSt
  seq : HWord
  t1 : Option Nat
  good : Nat
  missed : Nat
  freq : Int
  corr : Int
  stepped : Bool
  at_ : Nat                 -- when the last beacon interval began
deriving DecidableEq, Repr

/-! ## Lifetime record and congestion maps (15_observation.md) -/

/-- What a port did since its CMAP interval began (R504). -/
structure CmapAcc where
  flits : Nat
  tow : Nat
  peak : Nat
  pvc : Nat
  marked : Nat
  cstall : Nat
deriving DecidableEq, Repr

/-- Nothing counted. -/
def CmapAcc.reset : CmapAcc := ⟨0, 0, 0, 0, 0, 0⟩

/-- States of restoration (R506). -/
inductive RestSt where
  | none
  | open_
  | restored
  | refused
deriving DecidableEq, Repr

/-- The lifetime record (R505 to R507): live counts by offset in the body (spare log apart), the spare log
oldest first, the snapshot, the body being restored, its CRC word, and the lowest 1 ms mean this second. -/
structure LifeRec where
  live : SMap Word
  spare : List (Word × Word × Word × Word)
  snap : SMap Word
  body : SMap Word
  crc : Word
  rstate : RestSt
  secLow : Option Nat
deriving DecidableEq, Repr

/-! ## Power, reset and test access (16_power_reset_bringup.md) -/

/-- What the block is doing between resets (R518 to R524). -/
inductive PwrPhase where
  | off                     -- PWR_OK low
  | held                    -- in cold reset
  | check (warm : Bool)     -- self-check running
  | failed                  -- the self-check failed
  | run
  | warmWait                -- steps 1 to 3 of R520
deriving DecidableEq, Repr

/-- Pins, reset and test access. -/
structure Power where
  pwrOk : Bool
  rstN : Bool
  phase : PwrPhase
  cause : Nat
  scan : Bool
  warms : Nat
  warmAt : Nat              -- when a warm reset was requested, or a cold reset began
  warmCause : Nat
  faultStatic : Bool
  staticAt : Nat            -- last toggle
  tapInst : Byte
  boundary : Quad
  wrappers : List WrapMode  -- core, then quays 0 to 3
  field : Bool              -- lifecycle fuse: FIELD
  svnFuse : Nat             -- fused SVN bits, as a mask
  owner : Option (BitVec 384)
  fused : List (Nat × Nat)  -- fused row repairs: array, row
  soft : List (Nat × Nat)
  failStage : Nat
  failArray : Nat
  loopback : List Nat       -- teams in near-end loopback
  hitch : Quad              -- hitch pins: DX_HITCH0 [31:0], DX_HITCH1 [38:32]
deriving DecidableEq, Repr

/-! ## Collectives (05_collectives.md) -/

/-- What a reducing step works on: one element as its pattern, an ARGMAX pair (value, rank), an MXFP8 block
of 32 elements with its scale or 32 widened patterns, or a TOPK list (values, then positions). -/
abbrev CUnit := List Nat

/-- A READY token held for an instance (R180 to R182): sequence, sending chip and its three context
quadwords. -/
structure ReadyTok where
  seq : HWord
  src : Nat
  h5 : Quad
  h6 : Quad
  h7 : Quad
deriving DecidableEq, Repr

/-- What an instance fixes from its group entry and command: entry, type, operation, format, sizes, rank,
schedule, chip numbers by rank, whether the entry is an axis line and along which dimension. -/
structure Plan where
  g : Nat
  digest : Nat
  ctype : Nat
  rop : Nat
  fmt : Nat
  wide : Bool
  k : Nat
  root : Nat
  count : Nat
  cap : Nat
  rb : Nat                  -- row bytes of A2A_CAP
  src : Nat
  dst : Nat
  report : Option Nat       -- offset of the report arrays, none when REPORT is zero
  tally : Option Nat
  dims : List Nat           -- sizes n0, n1, n2 of the dimensions used
  rank : Nat
  sched : Nat               -- 0 STAR, 1 RING, 2 MCAST, 3 CHAIN, 4 DIRECT
  chips : List Nat
  axis : Nat                -- dimension of the axis line, 3 for none
  plus : List Nat           -- multicast: members in order of distance from the sender in + direction
deriving DecidableEq, Repr

/-- A stream of data to one receiver (R180, R267): receiver's rank, which stream, READY held, credits, data
packets formed. -/
structure OutStream where
  rank : Nat
  key : Nat
  ready : Bool
  credit : Nat
  idx : Nat
deriving DecidableEq, Repr

/-- Local operands that wait: stage, place in the fold (0 in a chain, next index at a hub), first element,
units, saturation mark, and the read stream they came from (9: none). -/
structure Part where
  dim : Nat
  pos : Nat
  a : Nat
  us : List CUnit
  sat : Bool
  str : Nat
deriving DecidableEq, Repr

/-- A partial that arrived and waits for its local operand, what its pieces combined so far gave, and the packet to
acknowledge (R193, R212). -/
structure Wait where
  dim : Nat
  pos : Nat
  half : Nat
  a : Nat
  us : List CUnit
  done : List CUnit
  sat : Bool
  pkt : Packet
deriving DecidableEq, Repr

/-- A data packet or release to send: stream, receivers (several for a multicast, with its direction of
travel), opcode, position, payload, and the read stream its bytes are charged to. -/
structure OutPiece where
  key : Nat
  ranks : List Nat
  mdir : Option Nat
  opcode : Nat
  cphase : Nat
  half : Nat
  dim : Nat
  offset : Nat
  pay : List Byte
  sat : Bool
  str : Nat
deriving DecidableEq, Repr

/-- Bytes to be written to DST or a slot, by offset, and the packet they came in. -/
structure FinPiece where
  rs : List (Nat × List Byte)
  sat : Bool
  pkt : Option Packet
deriving DecidableEq, Repr

/-- A data packet sent and not yet acknowledged: FTAG, PSEQ, stream, receivers still to answer, towpath. -/
structure ColWire where
  ftag : Nat
  pseq : Nat
  key : Nat
  left : List Nat
  tow : Option Nat
deriving DecidableEq, Repr

/-- A stream of data that this member has granted by a READY: rank, CPHASE and DIM of its data, the berths set aside
for it, and what it still brings, none while only DONE or the end of the instance ends it (R267). -/
structure InStream where
  rank : Nat
  cphase : Nat
  dim : Nat
  berths : Nat
  left : Option Nat
deriving DecidableEq, Repr

/-- A read of the instance's input: job, read stream, receiver of an A2A row piece, first element (or byte
position in the slot), elements (or bytes). -/
structure ColRead where
  job : Nat
  str : Nat
  rank : Nat
  a : Nat
  n : Nat
deriving DecidableEq, Repr

/-- An instance in progress at this member (R171). -/
structure CollInst where
  chan : Nat
  ord : Nat
  seq : HWord
  hdr : Bool                -- the A2A_CAP header is still being read
  plan : Plan
  asked : List (Nat × Nat × Nat × Nat)  -- READYs still to be sent, in rank order: rank, CPHASE, HALF, DIM
  ins : List InStream
  outs : List OutStream
  src : List (List (Nat × Nat × Nat))  -- input still to read, by read stream: (rank, first, count)
  reads : List ColRead
  parts : List Part
  waits : List Wait
  queue : List OutPiece
  wires : List ColWire
  fin : List FinPiece
  acks : List (Packet × Bool)   -- data packets to acknowledge, with DISCARDED
  cand : List CUnit         -- TOPK: candidates of the input read so far
  gran : SMap Nat           -- granules of DST partly written: bytes so far, by offset ÷ 64
  dstLeft : Nat             -- result bytes of DST still to be written
  need : Nat                -- LEN 0 packets still to arrive (R170)
  writes : Nat
  counts : List Nat         -- A2A: send counts
  sent : List Nat           -- A2A: rows delivered by destination rank
  got : List Nat            -- A2A: bytes received by source rank
  dones : List (Nat × Nat)  -- DONE held: rank, SCOUNT
  donesOut : List Nat       -- ranks to which DONE has been sent
  report : Nat              -- 0 to be written, 1 in progress, 2 written or none
  relSeen : Bool
  half0 : List (Nat × Nat)  -- RING of size 0: LEN 0 packets that came (dimension, half)
  sat : Bool
  bytes : Nat
  value : Option Quad       -- SCALAR_AR result
  fault : Option (Nat × Nat)    -- first write refused or failed here: outcome, address
  ended : Option (Nat × Nat × Nat)   -- status, outcome, FAIL_ADDR
deriving DecidableEq, Repr

/-- A group entry's live part (R171, R182, R189): NSEQ, the instance, READY tokens held, abort marks. -/
structure Group where
  nseq : HWord
  inst : Option CollInst
  ready : List ReadyTok
  marks : List (HWord × Nat × Nat)    -- sequence, reason, outcome
deriving DecidableEq, Repr

/-- A group entry with no history. -/
def Group.reset : Group := ⟨0, none, [], []⟩

/-! ## The state -/

/-- One Daxxon 3.2 block. -/
structure State where
  /-- The commands that are waiting, first in first out. -/
  pending : List Instr
  /-- What the ports drove in the last command (the model's own record). -/
  out : List Output
  /-- The model's own counter of free values. -/
  free : Nat
  /-- REFCLK cycles since the model's time base began. -/
  now : Nat
  /-- Time of day in units of 0.25 ns ÷ 3,125 (R481): one REFCLK cycle is 80,000 of them. -/
  tod : Nat
  ident : Ident
  /-- DX_PFENCE.EN (R25). -/
  pfence : Bool
  /-- Stored words of the registers (R533), by RG offset, apart from those with a field of their own. -/
  rg : SMap Word
  /-- Write shadows of wide values, by offset (R94, R102, R143, R256). -/
  wshadow : SMap Word
  /-- Read shadows of wide values, by the offset of the _HI word (R94, R143, R488, R495). -/
  rshadow : SMap Word
  chans : SMap Chan
  /-- Command words whose acknowledge is withheld while a lock cycle holds the CP ports (R287 step 3). -/
  cpHeld : List (Nat × CmdWord × HWord)
  /-- Channel scalars, by 8 × channel + index (R94). -/
  scal : SMap Quad
  tally : SMap (BitVec 48)
  watch : SMap Watch
  atc : Atc
  eng : Engines
  hm : SMap HmPort
  ra : SMap RaPort
  streams : List Stream
  ev : EvPort
  /-- Packets formed and not yet sent on (the injection point, R8). -/
  inj : List Held
  /-- PSEQ of the last packet originated (R240). -/
  pseq : Word
  /-- Packets in the ejection berths, oldest first (R242). -/
  eject : List Held
  tbl : Tables
  tows : SMap Tow
  reins : SMap Rein
  /-- Packet-formation slots used in the present round of the weighted round robin, by channel and by 64 + RA port
  (R63, R119). -/
  rrUsed : SMap Nat
  /-- Draws of intermediate chips since block reset (R255). -/
  draws : Nat
  /-- Packets originated, accepted and dropped here, by partition key (R287). -/
  counts : SMap Counts
  links : SMap Link
  flt : Collector
  /-- Command counters by channel (R493). -/
  ccnt : SMap ChanCnt
  logs : SMap Log
  /-- Logbooks of the LB writes not yet answered, oldest first (R395). -/
  lbOut : List Nat
  groups : SMap Group
  rus : SMap RUnit
  /-- Residue faults left no unit ON or STARTING, and none has come ON since (R223). -/
  ruGone : Bool
  /-- Ejection berths that the block can set aside for collective streams (R267). -/
  berths : Nat
  teams : SMap Team
  /-- The body and tag streams of the teams. -/
  phys : SMap Phy
  /-- Transactions in progress by I2C controller (R364). -/
  i2c : SMap (Option I2cBusy)
  abort : AbortSt
  halt : Halt
  far : Farrier
  /-- Progress monitors (R436): p link port, 16 + 8·p + v virtual channel, 128 + i host bundle instance i,
  256 + i the write bundle of HM port i. -/
  mons : SMap Monitor
  mc : Core
  ts : TimeSync
  life : LifeRec
  cmap : SMap CmapAcc
  pwr : Power
deriving DecidableEq, Repr

/-! ## Reset -/

/-- Sixteen units ON and the standby OFF, as a self-check leaves them once their self-tests pass (R221,
R525). -/
def rusReset : SMap RUnit := (List.range 16).map (fun u => (u, ⟨.on, false, false, none⟩))

/-- The management core after a power-up: BASIC, no firmware, everything zero (R468, R525). -/
def Core.reset : Core where
  mode := .basic
  fw := .none
  svn := 0
  restarts := 0
  fwver := 0
  openUntil := none
  nonce := none
  mb := ⟨none, false, 0, 0, List.replicate 64 0⟩
  ram := []
  fwLen := 0
  fwParts := []
  kx := 0
  fc := 0
  fd := 0
  entry := 0
  digest := 0
  initData := []
  heartAt := 0
  imgLen := none
  imgParts := []
  serial := none
  wdogAt := 0
  mseq := 0
  cycle := 0
  outst := []
  answered := []
  part := none
  lead := none
  treeQ := []
  spareWait := false

/-- Pins and fuses at the end of a power-up self-check: both pins high, a MANUFACTURE part with nothing
fused (R523, R531). -/
def Power.reset : Power where
  pwrOk := true
  rstN := true
  phase := .run
  cause := 0
  scan := false
  warms := 0
  warmAt := 0
  warmCause := 0
  faultStatic := false
  staticAt := 0
  tapInst := 0xFF
  boundary := 0
  wrappers := List.replicate 5 .bypass
  field := false
  svnFuse := 0
  owner := none
  fused := []
  soft := []
  failStage := 0
  failArray := 0
  loopback := []
  hitch := 0

/-- The block at the end of a power-up self-check (R525): every register and table at its reset value,
everything off but the reduction units, in capture mode (R420). -/
def State.reset : State where
  pending := []
  out := []
  free := 0
  now := 0
  tod := 0
  ident := ⟨0x3FFFF, false, 0, 0, 0, 0⟩
  pfence := false
  rg := []
  wshadow := []
  rshadow := []
  chans := []
  cpHeld := []
  scal := []
  tally := []
  watch := []
  atc := ⟨[], []⟩
  eng := ⟨0, [], []⟩
  hm := []
  ra := []
  streams := []
  ev := ⟨[], []⟩
  inj := []
  pseq := 0xFFFFFFFF
  eject := []
  tbl := ⟨false, .idle, .none, 0, [], [], [], [], 0, 0⟩
  tows := []
  reins := []
  rrUsed := []
  draws := 0
  counts := []
  links := []
  flt := ⟨[], [], 0, 0, 0, false, true, false, 0, none⟩
  ccnt := []
  logs := []
  lbOut := []
  groups := []
  rus := rusReset
  ruGone := false
  berths := 4096
  teams := []
  phys := []
  i2c := []
  abort := ⟨false, [], [], none⟩
  halt := ⟨.run, 0, 0, [], [], 0, false⟩
  far := ⟨false, false, [], 0, 0, [], 0, false⟩
  mons := []
  mc := Core.reset
  ts := ⟨.free, 0, none, 0, 0, 0, 0, false, 0⟩
  life := ⟨[], [], [], [], 0, .none, none⟩
  cmap := []
  pwr := Power.reset

end Sys2Proof.Machine
end

