-- ==== Sys2Proof/Machine/Cut.lean ====
section
/-! DEFINITION. Cutting a transfer into fragments and finding the source of every destination byte:
shapes, runs, transpose, skew, microscaled destinations (R99 to R115, R539). -/

namespace Sys2Proof.Machine

/-- The fields of a transfer command and its shape that fix its fragments. -/
structure Xfer where
  src : Nat                 -- source offset
  dst : Nat                 -- destination offset
  len : Nat
  own : Bool                -- the source chip is the block's own
  xform : Nat
  sfmt : Nat
  dfmt : Nat
  sr : Bool
  seed : Nat
  xparam : Nat
  n1 : Nat
  n2 : Nat
  n3 : Nat
  ss1 : Int
  ss2 : Int
  ss3 : Int
  ds1 : Int
  ds2 : Int
  ds3 : Int
deriving DecidableEq, Repr

def Xfer.ssize (x : Xfer) : Nat := esize x.sfmt
def Xfer.dsize (x : Xfer) : Nat := esize x.dfmt
/-- Elements of a run, E = LEN ÷ ssize (R103). -/
def Xfer.elems (x : Xfer) : Nat := x.len / x.ssize
/-- The tile side T of a transpose (R109). -/
def Xfer.tile (x : Xfer) : Nat := if x.dsize = 2 then 32 else 64
/-- The conversion makes MXFP8 blocks (R112). -/
def Xfer.toMx (x : Xfer) : Bool := isMx x.dfmt && decide (x.sfmt = 0x2)

/-- The shape a transfer runs with: the eight words of its entry (R101), or SHAPE 0, which under
TRANSPOSE is a row of tiles (R110). -/
def Xfer.withShape (x : Xfer) (shape : Nat) (ws : List Word) : Xfer :=
  if shape = 0 then
    if x.xform = 1 then
      let t := x.tile
      { x with
        len := t * x.ssize
        n1 := t
        ss1 := (t * x.ssize : Nat)
        ds1 := (t * x.dsize : Nat)
        n2 := x.len / (t * t * x.ssize)
        ss2 := (t * t * x.ssize : Nat)
        ds2 := (t * t * x.dsize : Nat)
        n3 := 1
        ss3 := 0
        ds3 := 0 }
    else { x with n1 := 1, n2 := 1, n3 := 1, ss1 := 0, ss2 := 0, ss3 := 0, ds1 := 0, ds2 := 0, ds3 := 0 }
  else
    let w := fun i => (ws.getD i 0).toNat
    { x with
      n1 := fld (w 0) 0 16 + 1
      n2 := fld (w 0) 16 16 + 1
      n3 := fld (w 1) 0 16 + 1
      ss1 := toSigned 32 (w 2)
      ss2 := toSigned 32 (w 3)
      ss3 := toSigned 32 (w 4)
      ds1 := toSigned 32 (w 5)
      ds2 := toSigned 32 (w 6)
      ds3 := toSigned 32 (w 7) }

/-- Number of destination runs: one per (i3, i2, i1), or per (i3, i2, c) under TRANSPOSE (R103, R109). -/
def Xfer.runs (x : Xfer) : Nat := x.n3 * x.n2 * (if x.xform = 1 then x.elems else x.n1)

/-- Bytes of a destination run. -/
def Xfer.runLen (x : Xfer) : Nat := if x.xform = 1 then x.n1 * x.dsize else x.elems * x.dsize

/-- The indices of run `r`: (i3, i2, i1 or c). -/
def Xfer.runIdx (x : Xfer) (r : Nat) : Nat × Nat × Nat :=
  let m := if x.xform = 1 then x.elems else x.n1
  (r / (x.n2 * m), (r / m) % x.n2, r % m)

/-- First destination offset of run `r`. -/
def Xfer.runDst (x : Xfer) (r : Nat) : Int :=
  let (i3, i2, k) := x.runIdx r
  let skew : Nat :=
    if x.xform = 2 then (fld x.xparam 8 8) * (k % (fld x.xparam 0 8 + 1)) * x.dsize else 0
  (x.dst : Int) + i3 * x.ds3 + i2 * x.ds2 + k * x.ds1 + skew

/-- First source offset of run `r` (only read where runs are source-contiguous, without TRANSPOSE). -/
def Xfer.runSrc (x : Xfer) (r : Nat) : Int :=
  let (i3, i2, k) := x.runIdx r
  (x.src : Int) + i3 * x.ss3 + i2 * x.ss2 + k * x.ss1

/-- The source offset and index e of the element at byte `o` of run `r` (R103, R109, R111, R115). -/
def Xfer.elemAt (x : Xfer) (r o : Nat) : Nat × Nat :=
  let (i3, i2, k) := x.runIdx r
  let j := o / x.dsize
  if x.xform = 1 then
    (((x.src : Int) + i3 * x.ss3 + i2 * x.ss2 + j * x.ss1 + (k * x.ssize : Nat)).toNat,
      ((i3 * x.n2 + i2) * x.n1 + j) * x.tile + k)
  else
    (((x.src : Int) + i3 * x.ss3 + i2 * x.ss2 + k * x.ss1 + (j * x.ssize : Nat)).toNat,
      ((i3 * x.n2 + i2) * x.n1 + k) * x.elems + j)

/-- Bytes from byte `o` of run `r` on that lie in one piece with it, up to `need`: runs are merged while
each next one starts where the previous ends, at the source too when the source is another chip (R99). -/
def Xfer.contig (x : Xfer) : Nat → Nat → Nat → Nat → Nat
  | 0, _, _, _ => 0
  | fuel + 1, r, o, need =>
    let here := x.runLen - o
    if need ≤ here then need
    else if r + 1 < x.runs ∧ x.runDst (r + 1) = x.runDst r + x.runLen
        ∧ (x.own ∨ x.runSrc (r + 1) = x.runSrc r + (x.len : Nat)) then
      here + x.contig fuel (r + 1) 0 (need - here)
    else here

/-- Move a position `b` bytes forward over the runs. -/
def Xfer.advance (x : Xfer) : Nat → Nat → Nat → Nat → Nat × Nat
  | 0, r, o, _ => (r, o)
  | fuel + 1, r, o, b =>
    if o + b < x.runLen then (r, o + b) else x.advance fuel (r + 1) 0 (o + b - x.runLen)

/-- Scale bytes of the transfer (R112). -/
def Xfer.scales (x : Xfer) : Nat := x.n3 * x.n2 * x.n1 * x.elems / 32

/-- First offset of the scale array. -/
def Xfer.scaleBase (x : Xfer) : Nat := x.dst + 4096 * x.xparam

/-- The 32-element block that holds an element of a run, by the source offsets of its elements. -/
def Xfer.blockOf (x : Xfer) (r o : Nat) : List Nat :=
  (List.range 32).map (fun i => (x.elemAt r (o / 32 * 32 + i)).1)

/-- The block of scale byte `b` (R112: blocks numbered in run order, then by c). -/
def Xfer.scaleBlock (x : Xfer) (b : Nat) : List Nat :=
  let per := x.elems / 32
  x.blockOf (b / max 1 per) (32 * (b % max 1 per))

/-- The next fragment at a cursor and the cursor behind it, if any remains (R99, R113). -/
def Xfer.next (x : Xfer) (c : Cursor) : Option (Frag × Option Cursor) :=
  if c.scale then
    let d := x.scaleBase + c.off
    let b := min (x.scales - c.off) (4096 - d % 4096)
    let rest := if c.off + b < x.scales then some ⟨0, c.off + b, c.idx + 1, true⟩ else none
    if x.scales ≤ c.off then none else some (⟨c.idx, d, b, (x.scaleBlock c.off).headD 0, true⟩, rest)
  else if x.runs ≤ c.run ∨ x.runLen = 0 then none
  else
    let d := (x.runDst c.run + (c.off : Nat)).toNat
    let src := (x.elemAt c.run c.off).1 + c.off % max 1 x.dsize
    let page := 4096 - d % 4096
    let lim := if x.own then page else min page (4096 - src % 4096)
    let b := x.contig (lim + 1) c.run c.off lim
    let (r', o') := x.advance (b + 1) c.run c.off b
    let rest :=
      if r' < x.runs then some (Cursor.mk r' o' (c.idx + 1) false)
      else if x.toMx ∧ 0 < x.scales then some (Cursor.mk 0 0 (c.idx + 1) true)
      else none
    some (⟨c.idx, d, b, src, false⟩, rest)

/-- All fragments still to come, at most `fuel` of them; used to count a plan (R130). -/
def Xfer.countFrags (x : Xfer) : Nat → Option Cursor → Nat
  | 0, _ => 0
  | fuel + 1, c =>
    match c with
    | none => 0
    | some c =>
      match x.next c with
      | none => 0
      | some (_, rest) => 1 + x.countFrags fuel rest

/-- Destination bytes of the transfer, scale bytes apart. -/
def Xfer.destBytes (x : Xfer) : Nat := x.runs * x.runLen

/-- The planned fragments of a transfer from its start. Every fragment has at least one byte, so the bytes
bound their number. -/
def Xfer.planned (x : Xfer) : Nat := x.countFrags (x.destBytes + x.scales + 1) (some ⟨0, 0, 0, false⟩)

/-! ## Data of a fragment -/

/-- The run and byte of each destination byte of a fragment that starts at (r, o): element starts only,
as (run, offset) pairs stepping over elements. -/
def Xfer.walk (x : Xfer) : Nat → Nat → Nat → Nat → List (Nat × Nat)
  | 0, _, _, _ => []
  | fuel + 1, r, o, b =>
    if b = 0 then []
    else
      let step := min b (x.dsize - o % max 1 x.dsize)
      let nxt := if o + step < x.runLen then (r, o + step) else (r + 1, 0)
      (r, o) :: x.walk fuel nxt.1 nxt.2 (b - step)

/-- The source byte ranges (offset, bytes) a fragment reads; `(r, o)` is where it starts in the runs. -/
def Xfer.reads (x : Xfer) (f : Frag) (r o : Nat) : List (Nat × Nat) :=
  if f.scale then
    ((List.range f.len).map (fun i => (x.scaleBlock (f.dst - x.scaleBase + i)).map (fun a => (a, 4)))).flatten
  else if x.toMx then
    ((x.walk f.len r o f.len).map (fun (r, o) => (x.blockOf r o).map (fun a => (a, 4)))).flatten
  else (x.walk f.len r o f.len).map (fun (r, o) => ((x.elemAt r o).1, x.ssize))

/-- The rounding of the element with index `e` (R114, R115). -/
def Xfer.rounding (x : Xfer) (e : Nat) : Rounding :=
  if x.sr then .stoch (mix ((x.seed + (e + 1) * 0x9E3779B97F4A7C15) % 2 ^ 64) % 2 ^ 32) else .even

/-- Source bytes as a number, and whether some of them lie in a poisoned granule. -/
abbrev SrcRead := Nat → Nat → Nat × Bool

/-- Destination bytes of an element, and its poison, from the source read (R107, R112 to R115, R539). -/
def Xfer.elemBytes (x : Xfer) (rd : SrcRead) (r o : Nat) : List Byte × Bool :=
  let (a, e) := x.elemAt r o
  if x.toMx then
    let blk := x.blockOf r o
    let vs := blk.map (fun a => (FFmt.mk 8 23 127 true).decode (rd a 4).1)
    let e0 := e - o % 32
    let (els, _) := mxEncode x.dfmt (fun i => x.rounding (e0 + i)) vs
    (leBytes 1 (els.getD (o % 32) 0), blk.any (fun a => (rd a 4).2))
  else if x.sfmt = x.dfmt then
    let (v, p) := rd a x.ssize
    (leBytes x.dsize v, p)
  else
    let (v, p) := rd a 4
    (leBytes x.dsize (fromFp32 x.dfmt (x.rounding e) v), p)

/-- The destination bytes of a fragment, each with its poison. -/
def Xfer.fragData (x : Xfer) (rd : SrcRead) (f : Frag) (r o : Nat) : List (Byte × Bool) :=
  if f.scale then
    (List.range f.len).map (fun i =>
      let blk := x.scaleBlock (f.dst - x.scaleBase + i)
      let vs := blk.map (fun a => (FFmt.mk 8 23 127 true).decode (rd a 4).1)
      (BitVec.ofNat 8 (mxEncode x.dfmt (fun _ => .even) vs).2, blk.any (fun a => (rd a 4).2)))
  else
    (((x.walk f.len r o f.len).map (fun (r, o) =>
      let (bs, p) := x.elemBytes rd r (o / max 1 x.dsize * max 1 x.dsize)
      (bs.drop (o % max 1 x.dsize)).map (fun b => (b, p)))).flatten).take f.len

/-- The poison bits by granule of the page of a fragment's destination (R539). -/
def poisonMask (dst : Nat) (data : List (Byte × Bool)) : Nat :=
  maskOf ((((List.range data.length).zip data).filter (fun (_, _, p) => p)).map
    (fun (i, _, _) => ((dst % 4096) + i) / 64))

end Sys2Proof.Machine
end

