-- ==== Sys2Proof/Machine/Regs.lean ====
section
/-! DEFINITION. The map of R538 and the field maps of the chapters as write masks and reset values of
every register word, and the stored words behind them (R533, R534). -/

namespace Sys2Proof.Machine

/-- Which bits of a register word are RW, RWL and W1C (R10), and its stored reset value. Bits in none
of the masks are RO, WO or reserved. -/
structure RegMask where
  rw : Word
  rwl : Word
  w1c : Word
  reset : Word

/-- A read-only or unassigned word that resets to zero. -/
def RegMask.ro : RegMask := ⟨0, 0, 0, 0⟩

/-- Instance and offset within the instance of an array of `n` instances, `stride` bytes apart. -/
def inArr (off base stride n : Nat) : Option (Nat × Nat) :=
  if base ≤ off ∧ off < base + stride * n then some ((off - base) / stride, (off - base) % stride)
  else none

/-- Registers below 0x340 (01, 03, 05, 06, 07, 08, 16, 17). -/
def maskLow (off : Nat) : RegMask :=
  match off with
  | 0x000 => ⟨0, 0, 0, 0x7E13D320⟩
  | 0x004 => ⟨0, 0, 0, 0x00043FFF⟩
  | 0x018 => ⟨0, 0, 0, 0x00040000⟩
  | 0x020 => ⟨0, 0, 0, 0x40802000⟩
  | 0x024 => ⟨0, 0, 0, 0x10801000⟩
  | 0x028 => ⟨0, 0, 0, 0x46020100⟩
  | 0x02C => ⟨0, 0, 0, 0x0FF9090C⟩
  | 0x030 => ⟨0, 0, 0, 0x40040078⟩
  | 0x114 | 0x118 | 0x11C => ⟨0xFFFFFFFF, 0, 0, 0⟩
  | 0x120 => ⟨0, 0x3FFFF, 0, 0⟩
  | 0x140 => ⟨0, 0xFF, 0, 0x92⟩
  | 0x144 => ⟨0, 0xFF, 0, 0x10⟩
  | 0x148 => ⟨0, 0xFFFF, 0, 0x1111⟩
  | 0x160 => ⟨0, 0, 0x80000000, 0⟩
  | 0x16C | 0x170 => ⟨0xFFFFFFFF, 0, 0, 0⟩
  | 0x180 => ⟨0, 0x7FFFFF, 0x800000, 0x61FFFF⟩
  | 0x184 => ⟨0, 0, 0x8000, 0⟩
  | 0x188 => ⟨0, 0xFF, 0x100, 0⟩
  | 0x18C => ⟨0xFFFFFFFF, 0, 0, 0⟩
  | 0x200 | 0x204 | 0x208 => ⟨0xFFFFFFFF, 0, 0, 0⟩
  | 0x20C => ⟨0, 0, 0x8000, 0⟩
  | 0x218 => ⟨0, 1, 2, 0⟩
  | 0x300 => ⟨0, 0x1FFF, 0, 0x1FC8⟩
  | 0x304 => ⟨0, 0x1FFFFFFF, 0, 0x10087310⟩
  | 0x308 => ⟨0, 0xFFFFFFFF, 0, 0x0C141404⟩
  | 0x30C => ⟨0, 0xFFFFFF, 0, 0x00101C14⟩
  | 0x310 | 0x314 => ⟨0xFFFFFFFF, 0, 0, 0⟩
  | 0x318 | 0x31C => ⟨0, 0xFFFFFFFF, 0, 0⟩
  | 0x320 => ⟨0, 0x1FFFF, 0, 0x10A20⟩
  | 0x324 => ⟨8, 0, 0x10, 8⟩
  | 0x328 => ⟨0, 0xFFFFF, 0, 0x22211⟩
  | _ =>
    match inArr off 0x190 4 17 with
    | some _ => ⟨0, 0, 0x10, 0⟩
    | none => .ro

/-- Registers from 0x600 to 0xFFF: port keys, link, HM and the host-facing ports (08, 09, 11). -/
def maskPorts (off : Nat) : RegMask :=
  match inArr off 0x600 0x20 12 with
  | some (_, 0x0) | some (_, 0x4) => ⟨0, 0xFFFFFFFF, 0, 0⟩
  | some (_, 0x8) | some (_, 0xC) => ⟨0xFFFFFFFF, 0, 0, 0⟩
  | some _ => .ro
  | none =>
    match inArr off 0x800 0x40 12 with
    | some (_, 0x0) => ⟨0, 0x7FFD, 0, 0x4024⟩
    | some (_, 0x4) => ⟨0, 0, 0x10080, 0⟩
    | some (_, 0xC) | some (_, 0x10) | some (_, 0x14) | some (_, 0x18) | some (_, 0x1C)
    | some (_, 0x20) => ⟨0xFFFFFFFF, 0, 0, 0⟩
    | some (_, 0x24) => ⟨0, 3, 4, 0⟩
    | some _ => .ro
    | none =>
      match inArr off 0xE00 0x10 16 with
      | some (_, 0x0) => ⟨0, 0x03FF03FF, 0, 0x03FF03FF⟩
      | some (_, 0x4) => ⟨0, 0, 0x38000000, 0⟩
      | some (_, 0xC) => ⟨0xFFFFFFFF, 0, 0, 0⟩
      | some _ => .ro
      | none =>
        match off with
        | 0xF00 => ⟨0, 0, 0x80000000, 0⟩
        | 0xF08 => ⟨0, 0, 1, 0⟩
        | 0xF0C => ⟨0, 0, 0x10000, 0⟩
        | _ => .ro

/-- Registers from 0x2000 to 0x3FFF: collector, crossbar, hang, abort, fence, farrier, halt (12, 13). -/
def maskFault (off : Nat) : RegMask :=
  match off with
  | 0x2000 => ⟨0, 0, 0x20, 0⟩
  | 0x2004 => ⟨0, 0x11FF, 0, 0x0A⟩
  | 0x2008 => ⟨0, 0x3FFFF, 0, 0⟩
  | 0x200C => ⟨0x3FFF, 0, 0, 0⟩
  | 0x2014 => ⟨0, 0, 0x80000000, 0⟩
  | 0x2020 => ⟨0, 0xFFFF, 0x30000, 0⟩
  | 0x2100 => ⟨0, 0, 0, 0xF⟩
  | 0x3000 => ⟨0, 0x3FFFFF, 0, 0x3E8⟩
  | 0x3004 => ⟨0, 0, 0xFFFFFF, 0⟩
  | 0x3008 => ⟨0, 0, 0x3FFFFF, 0⟩
  | 0x3010 => ⟨0, 2, 0, 2⟩
  | 0x3014 => ⟨0, 0, 0x8002, 0⟩
  | 0x3024 => ⟨0xFFFFFFFF, 0, 0, 0⟩
  | 0x3030 => ⟨0, 0xFFF, 0, 0⟩
  | 0x3050 | 0x3054 | 0x3058 | 0x305C => ⟨0xFFFFFFFF, 0, 0, 0⟩
  | 0x3100 => ⟨0, 0xFFFF, 0x40000, 0⟩
  | 0x3104 => ⟨0, 0, 4, 0⟩
  | 0x3108 => ⟨0, 0xFF, 0, 0x10⟩
  | 0x3120 => ⟨0x3FFF, 0, 0, 0⟩
  | _ =>
    match inArr off 0x2200 4 128 with
    | some _ => ⟨0xFFFFFFFF, 0, 0, 0⟩
    | none =>
      match inArr off 0x2400 4 256 with
      | some _ => ⟨0, 0, 0xFFFFFFFF, 0⟩
      | none => .ro

/-- Registers from 0x4000 to 0xFFFF: channels, shapes, watches, harness, teams, I2C, management
(02, 03, 04, 10, 14). -/
def maskMid (off : Nat) : RegMask :=
  match inArr off 0x4000 0x100 64 with
  | some (_, 0x00) => ⟨0, 0xFFF, 0, 0x10⟩
  | some (_, 0x10) => ⟨0xFFFFF000, 0, 0, 0⟩
  | some (_, 0x14) => ⟨0x3FFF, 0, 0, 0⟩
  | some (_, 0x18) => ⟨0x1F, 0, 0, 0⟩
  | some _ => .ro
  | none =>
    match inArr off 0xB000 32 128 with
    | some (_, 0x1C) => ⟨0, 0, 8, 0⟩
    | some _ => .ro
    | none =>
    match inArr off 0x8020 32 255 with
    | some (_, 0x04) => ⟨0x8000FFFF, 0, 0, 0⟩
    | some _ => ⟨0xFFFFFFFF, 0, 0, 0⟩
    | none =>
      match inArr off 0xC080 4 4 with
      | some (0, _) => ⟨0, 0xFFFFFF, 0, 0x00B0BCC8⟩
      | some (1, _) => ⟨0, 0xFFFFFF, 0, 0x00909CA8⟩
      | some _ => ⟨0, 0xFFFFFF, 0, 0x008894A0⟩
      | none =>
        match inArr off 0xC040 4 12 with
        | some _ => ⟨0, 0x1F, 0, 0⟩
        | none =>
          match inArr off 0xD000 0x100 16 with
          | some (_, 0x00) => ⟨0, 0x03FF03FF, 0, 0x330⟩
          | some (_, 0x04) => ⟨0, 0, 0x02000000, 0⟩
          | some (_, 0x0C) => ⟨0, 0xF, 0, 0⟩
          | some (_, 0x1C) | some (_, 0x20) => ⟨0xFFFFFFFF, 0, 0, 0⟩
          | some _ => .ro
          | none =>
            match inArr off 0xE000 0x100 8 with
            | some (_, 0x00) => ⟨0, 0x7FF, 0, 0x7D0⟩
            | some (_, 0x04) => ⟨0, 0xFFFFFF, 0, 0⟩
            | some (_, 0x08) => ⟨0, 0, 0x3000, 0⟩
            | some (_, r) => if 0x80 ≤ r then ⟨0, 0xFFFFFFFF, 0, 0⟩ else .ro
            | none =>
              match inArr off 0xF100 4 64 with
              | some _ => ⟨0xFFFFFFFF, 0, 0, 0⟩
              | none =>
                match off with
                | 0xC000 => ⟨0, 1, 0, 0⟩
                | 0xC004 | 0xC008 => ⟨0, 0xFFFFFFFF, 0, 0xFFFFFFFF⟩
                | 0xF00C => ⟨0, 0, 4, 0⟩
                | 0xF010 => ⟨0xFFFFFFFF, 0, 0, 0⟩
                | 0xF048 => ⟨0, 0x3FFF, 0, 0x2BC⟩
                | 0xF058 => ⟨0, 0xFFFF, 0, 0⟩
                | _ => .ro

/-- Registers from 0x30000: observation (15). -/
def maskObs (off : Nat) : RegMask :=
  match inArr off 0x30000 4 64 with
  | some _ => ⟨0xFFFFFFFF, 0, 0, 0⟩
  | none =>
    match inArr off 0x30100 4 24 with
    | some _ => ⟨0xFFFFFFFF, 0, 0, 0⟩
    | none =>
      match inArr off 0x30400 0x40 32 with
      | some (_, 0x08) => ⟨1, 0, 0, 0⟩
      | some (_, r) => if r < 0x30 ∧ r ≠ 0x0C then ⟨0xFFFFFFFF, 0, 0, 0⟩ else .ro
      | none =>
        match inArr off 0x32100 0x40 4 with
        | some (_, 0x00) => ⟨0xFFFF1F0B, 0, 0, 0x600⟩
        | some (_, 0x04) => ⟨0x1F, 0, 0, 0⟩
        | some (_, 0x08) | some (_, 0x0C) => ⟨0xFFFFFFFF, 0, 0, 0⟩
        | some (_, 0x10) => ⟨0xFFFFFFC0, 0, 0, 0⟩
        | some (_, 0x14) => ⟨0xFFFFF, 0, 0, 0⟩
        | some (_, 0x1C) => ⟨0xFFFFFFFF, 0, 0, 0⟩
        | some (_, 0x20) => ⟨0, 0, 0x10, 0⟩
        | some (_, 0x24) => ⟨0xFFFFFFFF, 0, 0, 0⟩
        | some _ => .ro
        | none =>
          match off with
          | 0x32004 => ⟨0xFFFFFFFF, 0, 0, 0xFFFF⟩
          | 0x32008 => ⟨0xFFFFFFFF, 0, 0, 0⟩
          | 0x3200C => ⟨0xFFFF, 0, 0, 0⟩
          | 0x32040 => ⟨0x3FFFF, 0, 0, 0⟩
          | 0x32200 => ⟨0x1FFF, 0, 0, 0⟩
          | _ => .ro

/-- The masks of the register word at an offset (R538); unassigned offsets read zero and ignore
writes (R394). -/
def regMask (off : Nat) : RegMask :=
  if off < 0x340 then maskLow off
  else if off < 0x1000 then maskPorts off
  else if off < 0x2000 then .ro
  else if off < 0x4000 then maskFault off
  else if off < 0x10000 then maskMid off
  else if off < 0x30000 then .ro
  else maskObs off

/-- What an unlisted register word reads as: its stored reset value. -/
def regReset (off : Nat) : Word := (regMask off).reset

/-- The stored word at an offset. -/
def State.reg (s : State) (off : Nat) : Word := SMap.get regReset s.rg off

/-- Set the stored word at an offset. -/
def State.setReg (s : State) (off : Nat) (w : Word) : State :=
  { s with rg := SMap.set regReset s.rg off w }

/-- A field of the stored word at an offset. -/
def State.rf (s : State) (off lo w : Nat) : Nat := fld (s.reg off).toNat lo w

/-- Set bits of the stored word at an offset (a flag the block raises). -/
def State.orReg (s : State) (off : Nat) (m : Word) : State := s.setReg off (s.reg off ||| m)

/-- Clear bits of the stored word at an offset. -/
def State.clrReg (s : State) (off : Nat) (m : Word) : State := s.setReg off (s.reg off &&& ~~~m)

/-- Count in a saturating 32-bit register (R248, R488). -/
def State.incReg (s : State) (off : Nat) : State := s.setReg off (satInc (s.reg off))

/-- Put a value into a field of the stored word. -/
def State.putField (s : State) (off lo w v : Nat) : State :=
  s.setReg off ((s.reg off &&& ~~~(BitVec.ofNat 32 ((2 ^ w - 1) * 2 ^ lo)))
    ||| BitVec.ofNat 32 ((v % 2 ^ w) * 2 ^ lo))

/-- The word a write leaves: RW fields always, RWL fields only where `priv` (R465), W1C bits cleared
by ones, every other bit unchanged (R534). -/
def mergeWrite (m : RegMask) (priv : Bool) (old data : Word) : Word :=
  let wm := if priv then m.rw ||| m.rwl else m.rw
  ((old &&& ~~~wm) ||| (data &&& wm)) &&& ~~~(data &&& m.w1c)

end Sys2Proof.Machine
end

