-- ==== Sys2Proof/Machine/Ops.lean ====
section
/-! DEFINITION. The shared operations over the state: accessors of its parts, time, free values, raising
a fault source's line into the collector, events, and what the ports drive. -/

namespace Sys2Proof.Machine

/-! ## Parts by index -/

/-- Channel `k`. -/
def State.chan (s : State) (k : Nat) : Chan := SMap.get (fun _ => Chan.reset) s.chans k
/-- Replace channel `k`. -/
def State.setChan (s : State) (k : Nat) (c : Chan) : State :=
  { s with chans := SMap.set (fun _ => Chan.reset) s.chans k c }
/-- Change channel `k`. -/
def State.modChan (s : State) (k : Nat) (f : Chan → Chan) : State := s.setChan k (f (s.chan k))

/-- Scalar `i` of channel `k`. -/
def State.scalar (s : State) (k i : Nat) : Quad := SMap.get (fun _ => 0) s.scal (8 * k + i)
/-- Write scalar `i` of channel `k`. -/
def State.setScalar (s : State) (k i : Nat) (v : Quad) : State :=
  { s with scal := SMap.set (fun _ => 0) s.scal (8 * k + i) v }

/-- Tally `n` (R141). -/
def State.tallyOf (s : State) (n : Nat) : BitVec 48 := SMap.get (fun _ => 0) s.tally n
/-- Set tally `n`. -/
def State.setTallyRaw (s : State) (n : Nat) (v : BitVec 48) : State :=
  { s with tally := SMap.set (fun _ => 0) s.tally n v }

/-- Watch `w`. -/
def State.watchOf (s : State) (w : Nat) : Watch := SMap.get (fun _ => Watch.reset) s.watch w
/-- Replace watch `w`. -/
def State.setWatch (s : State) (w : Nat) (x : Watch) : State :=
  { s with watch := SMap.set (fun _ => Watch.reset) s.watch w x }

/-- HM port `p`. -/
def State.hmPort (s : State) (p : Nat) : HmPort := SMap.get (fun _ => HmPort.reset) s.hm p
/-- Change HM port `p`. -/
def State.modHm (s : State) (p : Nat) (f : HmPort → HmPort) : State :=
  { s with hm := SMap.set (fun _ => HmPort.reset) s.hm p (f (s.hmPort p)) }

/-- RA port `p`. -/
def State.raPort (s : State) (p : Nat) : RaPort := SMap.get (fun _ => RaPort.reset) s.ra p
/-- Change RA port `p`. -/
def State.modRa (s : State) (p : Nat) (f : RaPort → RaPort) : State :=
  { s with ra := SMap.set (fun _ => RaPort.reset) s.ra p (f (s.raPort p)) }

/-- Link port `p`. -/
def State.link (s : State) (p : Nat) : Link := SMap.get (fun _ => Link.reset) s.links p
/-- Change link port `p`. -/
def State.modLink (s : State) (p : Nat) (f : Link → Link) : State :=
  { s with links := SMap.set (fun _ => Link.reset) s.links p (f (s.link p)) }

/-- Towpath entry `t`, its live part. -/
def State.tow (s : State) (t : Nat) : Tow := SMap.get (fun _ => Tow.reset) s.tows t
/-- Change towpath entry `t`. -/
def State.modTow (s : State) (t : Nat) (f : Tow → Tow) : State :=
  { s with tows := SMap.set (fun _ => Tow.reset) s.tows t (f (s.tow t)) }

/-- The packet counts of partition key `k` (R287). -/
def State.countOf (s : State) (k : Nat) : Counts := SMap.get (fun _ => ⟨0, 0, 0⟩) s.counts k
/-- Change the packet counts of partition key `k`. -/
def State.modCount (s : State) (k : Nat) (f : Counts → Counts) : State :=
  { s with counts := SMap.set (fun _ => ⟨0, 0, 0⟩) s.counts k (f (s.countOf k)) }

/-- Rein `k` (R280). -/
def State.rein (s : State) (k : Nat) : Rein := SMap.get (fun _ => Rein.reset) s.reins k
/-- Change rein `k`. -/
def State.modRein (s : State) (k : Nat) (f : Rein → Rein) : State :=
  { s with reins := SMap.set (fun _ => Rein.reset) s.reins k (f (s.rein k)) }

/-- The fault source of a code and instance. -/
def State.source (s : State) (code inst : Nat) : Source :=
  SMap.get (fun _ => Source.reset) s.flt.src (64 * code + inst)
/-- Replace a fault source. -/
def State.setSource (s : State) (code inst : Nat) (x : Source) : State :=
  { s with flt := { s.flt with src := SMap.set (fun _ => Source.reset) s.flt.src (64 * code + inst) x } }

/-! ## Time -/

/-- The time of day in 0.25 ns (R481). -/
def State.time (s : State) : Nat := (s.tod / 3125) % 2 ^ 64

/-- REFCLK cycles (6.4 ns) in a number of nanoseconds, rounded up. -/
def nsTicks (ns : Nat) : Nat := (ns * 10 + 63) / 64

/-- The hang window DX_HANG_WIN in REFCLK cycles: WIN_US microseconds, from 10 to 4,000,000 (R435). -/
def State.hangTicks (s : State) : Nat := nsTicks (1000 * max 10 (min 4000000 (s.rf 0x3000 0 22)))

/-! ## Free values -/

/-- Use up one number of the free-value counter. -/
def State.fresh (s : State) : Nat × State := (s.free, { s with free := s.free + 1 })

/-! ## Outputs -/

/-- Record what a port drove. -/
def State.drive (s : State) (o : Output) : State := { s with out := s.out ++ [o] }

/-! ## Faults -/

/-- A raise takes its place among those that wait: by arrival, and among those of one moment by ascending code, then by
ascending instance (R407). -/
def insertRaise (r : Raise) : List Raise → List Raise
  | [] => [r]
  | x :: xs =>
    if x.time = r.time ∧ (r.code < x.code ∨ (r.code = x.code ∧ r.inst < x.inst)) then r :: x :: xs else x :: insertRaise r xs

/-- A checker raises (code, inst) at class `cls`; a source holds at most two detections that have not
been taken (R406). -/
def State.raiseX (s : State) (r : Raise) : State :=
  if 2 ≤ (s.flt.waiting.filter (fun x => x.code = r.code ∧ x.inst = r.inst)).length then s
  else { s with flt := { s.flt with waiting := insertRaise r s.flt.waiting } }

/-- A raise with no address: code, instance, class, access type and master of R421. -/
def State.raise (s : State) (code inst cls : Nat) (atype master : Nat := 0) (addr : Nat := 0)
    (detail : Nat := 0) (inj : Bool := false) : State :=
  s.raiseX ⟨code, inst, cls, inj, atype, master, addr, detail, s.time⟩

/-- Whether the armed injection of DX_FLT_INJ is for this target; making it clears ARM and sets DONE
(R425, R426). -/
def State.takeInj (s : State) (code inst : Nat) : Bool × State :=
  match s.flt.armed with
  | some (c, i, _) =>
    if c = code ∧ i = inst then
      (true, ({ s with flt := { s.flt with armed := none } }.clrReg 0x2020 0x8000).orReg 0x2020 0x10000)
    else (false, s)
  | none => (false, s)

/-- The armed injection of a SECDED target met on real traffic: raised as corrected (F0), or with MODE 1 as
uncorrectable at class `cls` (R425 to R427). Answers whether the word was uncorrectable. -/
def State.takeEcc (s : State) (code inst cls atype master : Nat) : Bool × State :=
  let (inj, t) := s.takeInj code inst
  if ¬ inj then (false, s)
  else if (s.reg 0x2020).toNat.testBit 14 then (true, t.raise code inst cls atype master 0 0 true)
  else (false, t.raise code inst 0 atype master 0 0 true)

/-- Some source is FATAL: the block is in F3 (R414). -/
def State.inF3 (s : State) : Bool := s.flt.src.any (fun e => e.2.st = .fatal)
/-- Some source is in AWAIT_ACK and none is FATAL: the block is in F2 (R414). -/
def State.inF2 (s : State) : Bool := s.flt.src.any (fun e => e.2.st = .awaitAck) && !s.inF3
/-- The block is in F2 or F3. -/
def State.fenced (s : State) : Bool := s.inF2 || s.inF3
/-- The host-facing ports answer as in F2 and F3: also in steps 1 to 3 of a warm reset (R403, R520). -/
def State.shut (s : State) : Bool := s.fenced || decide (s.pwr.phase = .warmWait)

end Sys2Proof.Machine
end

