-- ==== Sys2Proof/Machine/Log.lean ====
section
/-! DEFINITION. Events on EV and records in the logbooks (R391, R392, R497 to R499). -/

namespace Sys2Proof.Machine

/-- Logbook `n`. -/
def State.log (s : State) (n : Nat) : Log := SMap.get (fun _ => Log.reset) s.logs n
/-- Change logbook `n`. -/
def State.modLog (s : State) (n : Nat) (f : Log → Log) : State :=
  { s with logs := SMap.set (fun _ => Log.reset) s.logs n (f (s.log n)) }

/-- The logbook is in FLIGHT mode. -/
def State.flight (s : State) (n : Nat) : Bool := (s.reg (0x32100 + 0x40 * n)).toNat.testBit 1

/-- Make one record in logbook `n`: kind, SUB, TAG, Q2, Q3. STREAM with a full SRAM loses it, FLIGHT drops
the oldest. Answers whether HELD has just reached HIWAT (R497 to R499). -/
def State.logAdd (s : State) (n kind sub tag q2 q3 : Nat) : State × Bool :=
  let l := s.log n
  if l.st ≠ .on ∨ l.frozen ∨ s.pwr.phase = .warmWait then (s, false)
  else
    let r : LogRec := ⟨BitVec.ofNat 64 (put kind 0 8 + put sub 8 8 + put tag 16 16 + put l.rseq 32 32),
      BitVec.ofNat 64 s.time, BitVec.ofNat 64 q2, BitVec.ofNat 64 q3⟩
    let seq := (l.rseq + 1) % 2 ^ 32
    if 2048 ≤ l.recs.length then
      if s.flight n then (s.modLog n (fun l => { l with rseq := seq, recs := l.recs.drop 1 ++ [r] }), false)
      else ((s.modLog n (fun l => { l with rseq := seq })).incReg (0x32124 + 0x40 * n), false)
    else
      let s1 := s.modLog n (fun l =>
        { l with rseq := seq, recs := l.recs ++ [r],
                 singleAt := if l.recs.length % 2 = 0 then s.now else l.singleAt })
      (s1, decide (s.rf (0x32100 + 0x40 * n) 16 16 = l.recs.length + 1))

/-- The EV_LOG_HIGH word of logbook `n` (R509). -/
def State.evLogHigh (s : State) (n : Nat) : BitVec 128 :=
  BitVec.ofNat 128 (0x90 + put n 8 2 + put (s.log n).recs.length 16 12)

/-- Make a record in every logbook whose source bit `src` is set, answering the EV_LOG_HIGH words that
follow. -/
def State.logAll (s : State) (src kind sub tag q2 q3 : Nat) : State × List (BitVec 128) :=
  [0, 1, 2, 3].foldl (fun (acc : State × List (BitVec 128)) n =>
    if (acc.1.reg (0x32104 + 0x40 * n)).toNat.testBit src then
      let (t, hi) := acc.1.logAdd n kind sub tag q2 q3
      (t, if hi then acc.2 ++ [t.evLogHigh n] else acc.2)
    else acc) (s, [])

/-- Put events into the EV queue in order; a full queue leaves the event at its source. Every event that
enters is recorded where a logbook takes EVENT records, which can raise EV_LOG_HIGH (R391, R498). -/
def State.emitAll : Nat → List (Option Nat × BitVec 128) → State → State
  | 0, _, s => s
  | _ + 1, [], s => s
  | fuel + 1, (src, w) :: rest, s =>
    if 256 ≤ s.ev.queue.length ∨ s.ev.held ≠ [] then
      State.emitAll fuel rest { s with ev := { s.ev with held := s.ev.held ++ [(src, w)] } }
    else
      let s1 := { s with ev := { s.ev with queue := s.ev.queue ++ [w] } }
      let (s2, more) := s1.logAll 2 4 0 0 (w.toNat % 2 ^ 64) (w.toNat / 2 ^ 64)
      State.emitAll fuel (rest ++ more.map (fun m => (none, m))) s2

/-- Raise one event; `src` is the channel that raises it, if one does. -/
def State.emit (s : State) (w : Nat) (src : Option Nat := none) : State :=
  State.emitAll 8 [(src, BitVec.ofNat 128 w)] s

/-- Make a record of a kind in the logbooks that take it (R498). -/
def State.record (s : State) (src kind sub tag q2 q3 : Nat) : State :=
  let (s1, more) := s.logAll src kind sub tag q2 q3
  State.emitAll 8 (more.map (fun m => (none, m))) s1

/-- Let held events move into the queue while it has room (R391). -/
def State.pumpEvents : Nat → State → State
  | 0, s => s
  | fuel + 1, s =>
    match s.ev.held with
    | [] => s
    | (src, w) :: rest =>
      if 256 ≤ s.ev.queue.length then s
      else
        let s1 := { s with ev := { queue := s.ev.queue, held := [] } }
        let s2 := State.emitAll 8 [(src, w)] s1
        State.pumpEvents fuel { s2 with ev := { s2.ev with held := rest ++ s2.ev.held } }

/-- Channel `k` holds an event at its source. -/
def State.chanHeld (s : State) (k : Nat) : Bool := s.ev.held.any (fun e => e.1 = some k)

end Sys2Proof.Machine
end

