-- ==== Sys2Proof/Machine/Packet.lean ====
section
/-! DEFINITION. The packet's header, payload and trailer: field readers, forming a packet, CRC64, and the
structure check on arrival (R224 to R247). -/

namespace Sys2Proof.Machine

/-! ## Fields (R226, R238) -/

def Packet.opcode (p : Packet) : Nat := qf p.h0 0 8
def Packet.vc (p : Packet) : Nat := qf p.h0 8 3
def Packet.rmode (p : Packet) : Nat := qf p.h0 11 2
def Packet.cmark (p : Packet) : Nat := qf p.h0 13 2
def Packet.epoch (p : Packet) : Bool := p.h0.toNat.testBit 15
def Packet.pkey (p : Packet) : Nat := qf p.h0 16 16
def Packet.gen (p : Packet) : Nat := qf p.h0 32 8
def Packet.dst (p : Packet) : Nat := qf p.h0 40 18
def Packet.src (p : Packet) : Nat := qf p.h1 0 18
def Packet.inter (p : Packet) : Nat := qf p.h1 18 18
def Packet.len (p : Packet) : Nat := qf p.h1 36 13
def Packet.tally (p : Packet) : Nat := qf p.h1 49 13
def Packet.ten (p : Packet) : Bool := p.h1.toNat.testBit 62
def Packet.offset (p : Packet) : Nat := qf p.h2 0 46
def Packet.cecho (p : Packet) : Nat := qf p.h2 46 2
def Packet.aux (p : Packet) : Nat := qf p.h2 48 16
def Packet.ctx (p : Packet) : Nat := qf p.h3 0 2
def Packet.chan (p : Packet) : Nat := qf p.h3 2 6
def Packet.ftag (p : Packet) : Nat := qf p.h3 8 8
def Packet.layer (p : Packet) : Nat := qf p.h3 16 16
def Packet.oper (p : Packet) : Nat := qf p.h3 32 16
def Packet.granEn (p : Packet) : Quad := p.h4
def Packet.poison (p : Packet) : Quad := p.t0
def Packet.pseq (p : Packet) : Nat := qf p.t1 0 32
def Packet.sat (p : Packet) : Bool := p.t1.toNat.testBit 32
def Packet.rpseq (p : Packet) : Nat := qf p.h7 0 32

/-- The header fields of a packet to be formed, as numbers; each is cut to its width (R226). -/
structure Hd where
  opcode : Nat
  vc : Nat
  rmode : Nat := 0
  cmark : Nat := 0
  epoch : Nat := 0
  pkey : Nat := 0
  gen : Nat := 0
  dst : Nat
  src : Nat := 0
  inter : Nat := 0
  len : Nat := 0
  tally : Nat := 0
  ten : Nat := 0
  offset : Nat := 0
  cecho : Nat := 0
  aux : Nat := 0
  ctx : Nat := 0
  chan : Nat := 0
  ftag : Nat := 0
  layer : Nat := 0
  oper : Nat := 0
  granEn : Nat := 0
  h5 : Nat := 0
  h6 : Nat := 0
  h7 : Nat := 0
  poison : Nat := 0
  pseq : Nat := 0
  sat : Nat := 0
deriving DecidableEq, Repr

/-- A quadword as the sum of its placed fields. -/
def quad (n : Nat) : Quad := BitVec.ofNat 64 n

/-- The packet with the given header fields and payload, its CRC64 still zero. -/
def Hd.packet (h : Hd) (pay : List Byte) : Packet where
  h0 := quad (put h.opcode 0 8 + put h.vc 8 3 + put h.rmode 11 2 + put h.cmark 13 2 + put h.epoch 15 1
    + put h.pkey 16 16 + put h.gen 32 8 + put h.dst 40 18)
  h1 := quad (put h.src 0 18 + put h.inter 18 18 + put h.len 36 13 + put h.tally 49 13 + put h.ten 62 1)
  h2 := quad (put h.offset 0 46 + put h.cecho 46 2 + put h.aux 48 16)
  h3 := quad (put h.ctx 0 2 + put h.chan 2 6 + put h.ftag 8 8 + put h.layer 16 16 + put h.oper 32 16)
  h4 := quad h.granEn
  h5 := quad h.h5
  h6 := quad h.h6
  h7 := quad h.h7
  pay := pay
  t0 := quad h.poison
  t1 := quad (put h.pseq 0 32 + put h.sat 32 1)
  t2 := 0
  t3 := 0

/-- The packet with its VC replaced (R228). -/
def Packet.setVc (p : Packet) (v : Nat) : Packet :=
  { p with h0 := quad (p.h0.toNat - put p.vc 8 3 + put v 8 3) }

/-- The packet with its congestion mark raised to at least `l` (R230). -/
def Packet.raiseMark (p : Packet) (l : Nat) : Packet :=
  { p with h0 := quad (p.h0.toNat - put p.cmark 13 2 + put (max p.cmark l) 13 2) }

/-- The 64 header bytes. -/
def Packet.hdrBytes (p : Packet) : List Byte :=
  leBytes 8 p.h0.toNat ++ leBytes 8 p.h1.toNat ++ leBytes 8 p.h2.toNat ++ leBytes 8 p.h3.toNat
    ++ leBytes 8 p.h4.toNat ++ leBytes 8 p.h5.toNat ++ leBytes 8 p.h6.toNat ++ leBytes 8 p.h7.toNat

/-- CRC64 over header, payload and T0 to T2, VC and CMARK taken as zero (R239). -/
def Packet.crcOf (p : Packet) : Nat :=
  let q := { p with h0 := quad (p.h0.toNat - put p.vc 8 3 - put p.cmark 13 2) }
  crc64 (q.hdrBytes ++ q.pay ++ leBytes 8 q.t0.toNat ++ leBytes 8 q.t1.toNat ++ leBytes 8 q.t2.toNat)

/-- The packet with its end-to-end check made. -/
def Packet.seal (p : Packet) : Packet := { p with t3 := quad p.crcOf }

/-- All packet bytes, without pad (R225). -/
def Packet.bytes (p : Packet) : List Byte :=
  p.hdrBytes ++ p.pay ++ leBytes 8 p.t0.toNat ++ leBytes 8 p.t1.toNat ++ leBytes 8 p.t2.toNat
    ++ leBytes 8 p.t3.toNat

/-- Flits of a packet with P payload bytes (R225). -/
def flitsOf (pay : Nat) : Nat := (96 + pay + 255) / 256

/-- Flit `k` of a packet: packet bytes 256·k to 256·k + 255, padded with zeros. -/
def Packet.flit (p : Packet) (k : Nat) : BitVec 2048 :=
  BitVec.ofNat 2048 (leNat ((p.bytes.drop (256 * k)).take 256))

/-- Granule enables of a range within its page (R235). -/
def granMask (off len : Nat) : Nat :=
  if len = 0 then 0
  else
    let a := (off % 4096) / 64
    let b := ((off % 4096) + len - 1) / 64
    (2 ^ (b + 1) - 2 ^ a) % 2 ^ 64

/-! ## Opcodes (R234) -/

/-- One row of the opcode table: virtual channels and route modes allowed, payload (0 none, 1 always,
2 or none), payload limit, lowest and highest LEN, whether GRAN_EN and POISON are carried. -/
structure OpRow where
  vcs : List Nat
  modes : List Nat
  payload : Nat
  lenLo : Nat
  lenHi : Nat
  gran : Bool
  ranged : Bool             -- OFFSET and LEN name a byte range of one page

/-- The opcode table. -/
def opRow : Nat → Option OpRow
  | 0x01 => some ⟨[0, 1], [0, 1, 2], 1, 1, 4096, true, true⟩
  | 0x02 => some ⟨[1], [0], 0, 1, 4096, false, true⟩
  | 0x03 => some ⟨[1], [0], 0, 1, 4096, false, true⟩
  | 0x04 => some ⟨[1], [0], 0, 1, 256, false, true⟩
  | 0x05 => some ⟨[1], [0], 1, 1, 256, true, true⟩
  | 0x06 => some ⟨[1], [0], 0, 4, 8, false, true⟩
  | 0x07 => some ⟨[1], [0], 0, 0, 0, false, false⟩
  | 0x40 => some ⟨[3], [0], 0, 0, 0, false, false⟩
  | 0x41 => some ⟨[3], [0], 1, 1, 4096, true, true⟩
  | 0x42 => some ⟨[3], [0], 0, 0, 0, false, false⟩
  | 0x43 => some ⟨[2], [0], 1, 1, 4096, true, true⟩
  | 0x44 => some ⟨[3], [0], 1, 1, 256, true, true⟩
  | 0x45 => some ⟨[3], [0], 0, 0, 0, false, false⟩
  | 0x46 => some ⟨[3], [0], 0, 0, 0, false, false⟩
  | 0x47 => some ⟨[3], [0], 0, 0, 0, false, false⟩
  | 0x48 => some ⟨[3], [0], 0, 0, 0, false, false⟩
  | 0x80 => some ⟨[4], [0], 0, 0, 0, false, false⟩
  | 0x81 => some ⟨[4], [0, 2, 3], 2, 0, 4096, false, false⟩
  | 0x82 => some ⟨[4], [0, 2], 1, 1, 4096, false, false⟩
  | 0x83 => some ⟨[4], [0], 0, 0, 0, false, false⟩
  | 0x84 => some ⟨[4], [0, 3], 0, 0, 0, false, false⟩
  | 0xC0 => some ⟨[5], [0], 0, 0, 0, false, false⟩
  | 0xC1 => some ⟨[5], [0], 2, 0, 256, false, false⟩
  | 0xC2 => some ⟨[5], [0], 2, 0, 256, false, false⟩
  | 0xC3 => some ⟨[5], [0], 2, 0, 64, false, false⟩
  | 0xC4 => some ⟨[5], [0], 2, 0, 64, false, false⟩
  | _ => none

/-- Payload bytes of a packet by its OPCODE and LEN (R224). -/
def payLen (opcode len : Nat) : Nat :=
  match opRow opcode with
  | some r => if r.payload = 0 then 0 else len
  | none => 0

/-- The packet in bytes assembled from its flits, missing bytes read as zero (R225, R226). -/
def Packet.ofBytes (bs : List Byte) : Packet :=
  let q := fun (i : Nat) => quad (leNat ((bs.drop (8 * i)).take 8))
  let h0 := q 0
  let h1 := q 1
  let n := payLen (fld h0.toNat 0 8) (fld h1.toNat 36 13)
  let tr := fun (i : Nat) => quad (leNat ((bs.drop (64 + n + 8 * i)).take 8))
  { h0 := h0
    h1 := h1
    h2 := q 2
    h3 := q 3
    h4 := q 4
    h5 := q 5
    h6 := q 6
    h7 := q 7
    pay := padTo n ((bs.drop 64).take n)
    t0 := tr 0
    t1 := tr 1
    t2 := tr 2
    t3 := tr 3 }

/-- The bits of AUX, H5, H6 and H7 that R232, R233 and, for management packets, R477 leave reserved, by opcode. -/
def reservedBits (opcode : Nat) : Nat × Nat × Nat × Nat :=
  let all := 2 ^ 64 - 1
  let hi32 := 2 ^ 64 - 2 ^ 32
  match opcode with
  | 0x01 | 0x05 | 0x04 => (0xFFFF, all, all, all)
  | 0x02 => (0xFFFF, 2 ^ 64 - 2 ^ 46, all, all)
  | 0x03 => (0xFFFF, 0, 2 ^ 64 - 2 ^ 14, all)
  | 0x06 => (0xFC00, 0, 0, all)
  | 0x07 => (0xFFFF, 2 ^ 64 - 2 ^ 48, all, all)
  | 0x40 | 0x42 | 0x45 | 0x47 => (0xFFF0, all, all, hi32)
  | 0x41 | 0x44 => (0xFFF0, all, all, hi32)
  | 0x43 => (0xFFFF, all, all, hi32)
  | 0x46 => (0xFFF0, 0, all, hi32)
  | 0x48 => (0xFFE0, all, all, hi32)
  | 0x80 | 0x81 | 0x82 | 0x83 | 0x84 =>
    (0xFFFF, 0xE0000000, 0xF000000000000000, 0xFFFFFFE0)
  | 0xC0 => (0xFF00, all - (2 ^ 29 - 2 ^ 20) - (2 ^ 48 - 2 ^ 32), all, all)
  | 0xC1 | 0xC2 => (0x00F0, all - (2 ^ 24 - 1), all - (2 ^ 18 - 1), hi32)
  | 0xC3 | 0xC4 => (0xFFFF, all, all, hi32)
  | _ => (0, 0, 0, 0)

/-- The routing part of the structure check: OPCODE, VC and RMODE alone and together (R228, R234, R244).
Answers the malformed reason of R247. -/
def Packet.badRouting (p : Packet) : Option Nat :=
  match opRow p.opcode with
  | none => some 2
  | some r =>
    if ¬ r.vcs.contains p.vc then some 1
    else if ¬ r.modes.contains p.rmode then some 3
    else if p.opcode = 0x01 ∧ p.vc = 0 ∧ p.rmode ≠ 1 then some 1
    else none

/-- A COL_DATA of LEN 0 is of a BARRIER, or of an instance whose signature has size 0 (R224). -/
def Packet.mayBeEmpty (p : Packet) : Bool := decide (qf p.h5 0 4 = 6) || decide (qf p.h6 0 42 = 0)

/-- Checks 2 and 3 of R245 in their order: the malformed reason of R247, if any. `flits` is the flit count at which the
last-flit mark arrived. More than the 17 flits of a berth are a flit count that no packet has (reason 5); any other
count than F is the last-flit mark at a wrong flit (reason 9) (DESIGN CHOICE, log 83). -/
def Packet.malformed (p : Packet) (flits : Nat) : Option Nat :=
  match p.badRouting, opRow p.opcode with
  | some r, _ => some r
  | none, none => some 2
  | none, some r =>
    let (rA, r5, r6, r7) := reservedBits p.opcode
    if p.len < r.lenLo ∨ r.lenHi < p.len ∨ (p.opcode = 0x06 ∧ p.len ≠ 4 ∧ p.len ≠ 8)
        ∨ (p.opcode = 0x81 ∧ p.len = 0 ∧ ¬ p.mayBeEmpty) then some 4
    else if 17 < flits ∨ p.pay.length ≠ payLen p.opcode p.len then some 5
    else if p.granEn.toNat ≠ (if r.gran then granMask p.offset p.len else 0) then some 6
    else if p.poison.toNat &&& p.granEn.toNat ≠ p.poison.toNat then some 6
    else if r.ranged ∧ 4096 < p.offset % 4096 + p.len then some 8
    else if qf p.h0 58 6 ≠ 0 ∨ qf p.h1 63 1 ≠ 0 ∨ qf p.h3 48 16 ≠ 0 ∨ qf p.t1 33 31 ≠ 0 ∨ p.t2 ≠ 0
        ∨ p.aux &&& rA ≠ 0 ∨ p.h5.toNat &&& r5 ≠ 0 ∨ p.h6.toNat &&& r6 ≠ 0 ∨ p.h7.toNat &&& r7 ≠ 0 then
      some 7
    else if (p.opcode ∈ [0x40, 0x41, 0x42, 0x44, 0x45, 0x46, 0x47, 0x48, 0xC0] ∧ 0xB ≤ p.aux % 16)
        ∨ (p.opcode = 0xC0 ∧ 4 ≤ (p.aux / 16) % 16) ∨ (p.opcode ∈ [0x41, 0x44] ∧ p.aux % 16 ≠ 0) then some 7
    else if flits ≠ flitsOf (payLen p.opcode p.len) then some 9
    else none

/-- Request opcodes whose order a doubled direction keeps (R251). -/
def orderedOp (opcode : Nat) : Bool :=
  opcode ∈ [0x04, 0x05, 0x06, 0x07, 0x44, 0x45, 0x46, 0x47]

/-- The opcode belongs to REQ, RSP or COL traffic, or is COLL_ABORT: it carries a partition's key. -/
def keyedOp (opcode : Nat) : Bool := decide (opcode < 0xC1)

/-- The opcode of a REQ packet. -/
def isReq (opcode : Nat) : Bool := decide (opcode < 0x40)
/-- The opcode of a COL packet. -/
def isCol (opcode : Nat) : Bool := decide (0x80 ≤ opcode) && decide (opcode < 0xC0)

end Sys2Proof.Machine
end

