-- ==== Sys2Proof/Machine/Route.lean ====
section
/-! DEFINITION. The coordinate map, the exposure windows, the source checks and the routing decision
(01_address_space.md, 08_routing_flow_control.md). -/

namespace Sys2Proof.Machine

/-! ## Table words (R284) -/

/-- The offset belongs to a routing table: substitution (R16) or exception (R257). -/
def isRouting (off : Nat) : Bool :=
  (decide (0x1000 ≤ off) && decide (off < 0x1800)) || (decide (0x28000 ≤ off) && decide (off < 0x2C000))

/-- The offset belongs to a drain-only table: windows, groups, rank list, towpath W0 to W5. -/
def isDrainOnly (off : Nat) : Bool :=
  (decide (0x1800 ≤ off) && decide (off < 0x1A00)) || (decide (0x20000 ≤ off) && decide (off < 0x28000))
    || (decide (0xB000 ≤ off) && decide (off < 0xC000) && decide (off % 32 < 24))

/-- What an unlisted table word reads as: DX_WIN W2 0x0C, DX_GRP W0 0xD0, otherwise zero (R538). -/
def tblReset (off : Nat) : Word :=
  if 0x1800 ≤ off ∧ off < 0x1A00 ∧ off % 32 = 8 then 0xC
  else if 0x20000 ≤ off ∧ off < 0x24000 ∧ off % 32 = 0 then 0xD0
  else 0

/-- The writable bits of a table word (R16, R32, R156, R158, R257, R269). -/
def tblMask (off : Nat) : Word :=
  if 0x1000 ≤ off ∧ off < 0x1800 then (if off % 8 = 0 then 0x8003FFFF else 0x403F3F3F)
  else if 0x1800 ≤ off ∧ off < 0x1A00 then
    match off % 32 with
    | 0 | 12 => 0xFFFFF000
    | 4 => 0x3FFF
    | 8 => 0x3F
    | 16 => 0xFFFFF
    | 20 => 0xFFFFFF
    | _ => 0
  else if 0x20000 ≤ off ∧ off < 0x24000 then
    match off % 32 with
    | 0 => 0x3FF
    | 4 | 12 | 16 | 20 | 24 => 0x3FFFF
    | 8 => 0x3F3F3F
    | _ => 0
  else if 0x24000 ≤ off ∧ off < 0x28000 then 0x3FFFF
  else if 0x28000 ≤ off ∧ off < 0x2C000 then
    match off % 16 with
    | 0 => 0x3FFF
    | 4 | 8 => 0x3F3F3F
    | _ => 0xFFFF
  else
    match off % 32 with
    | 0 => 0xFF0FF7
    | 4 => 0xFFFF
    | 8 | 12 => 0x3F3F3F
    | _ => 0xFFFFFFFF

/-- A word of a table copy. -/
def tblGet (m : SMap Word) (off : Nat) : Word := SMap.get tblReset m off
/-- Write a word of a table copy. -/
def tblSet (m : SMap Word) (off : Nat) (w : Word) : SMap Word := SMap.set tblReset m off w

/-- The bank a packet's EPOCH names (R284). -/
def State.bank (s : State) (e : Bool) : SMap Word := if e then s.tbl.bank1 else s.tbl.bank0
/-- A word of the drain-only tables in force. -/
def State.force (s : State) (off : Nat) : Word := tblGet s.tbl.force off
/-- A field of a word of the drain-only tables in force. -/
def State.ff (s : State) (off lo w : Nat) : Nat := fld (s.force off).toNat lo w

/-! ## Coordinate map (R14 to R19) -/

/-- A position (x, y, z). -/
abbrev Pos := Nat × Nat × Nat

/-- Coordinate `d` of a position: 0 x, 1 y, 2 z. -/
def Pos.at (p : Pos) (d : Nat) : Nat := if d = 0 then p.1 else if d = 1 then p.2.1 else p.2.2

/-- A position packed as in the substitution and exception tables: [5:0], [13:8], [21:16]. -/
def posOf (w : Nat) : Pos := (fld w 0 6, fld w 8 6, fld w 16 6)

/-- Ring size of dimension `d` from a DX_TORUS_DIM word. -/
def dimOf (dim d : Nat) : Nat := fld dim (6 * d) 6 + 1

/-- The valid substitution entries of a bank: offset, number and W1. -/
def subEntries (b : SMap Word) : List (Nat × Nat × Nat) :=
  ((b.range 0x1000 0x1800).filter (fun e => decide (e.1 % 8 = 0) && e.2.toNat.testBit 31)).map
    (fun e => (e.1, fld e.2.toNat 0 18, (tblGet b (e.1 + 4)).toNat))

/-- A position lies within DX_TORUS_DIM. -/
def inTorus (dim : Nat) (p : Pos) : Bool :=
  decide (p.1 < dimOf dim 0) && decide (p.2.1 < dimOf dim 1) && decide (p.2.2 < dimOf dim 2)

/-- The number that the box gives a position (R15). -/
def boxAt (dim : Nat) (p : Pos) : Nat := p.1 + p.2.1 * dimOf dim 0 + p.2.2 * (dimOf dim 0 * dimOf dim 1)

/-- Another number than `n` stands at position `p`: by an entry, or by the box (R18). -/
def sharedPos (dim : Nat) (es : List (Nat × Nat × Nat)) (n : Nat) (p : Pos) : Bool :=
  es.any (fun e => decide (e.2.1 ≠ n) && !e.2.2.testBit 30 && decide (posOf e.2.2 = p))
    || (inTorus dim p && decide (boxAt dim p ≠ n) && !es.any (fun e => decide (e.2.1 = boxAt dim p)))

/-- Resolution of chip number `n` by a substitution bank and DX_TORUS_DIM (R15, R16, R18): the position, which no other
number shares, and whether a substitution entry gave it. -/
def resolveIn (dim : Nat) (b : SMap Word) (n : Nat) : Option (Pos × Bool) :=
  let es := subEntries b
  let found : Option (Pos × Bool) := match es.find? (fun e => decide (e.2.1 = n)) with
    | some e => if e.2.2.testBit 30 then none else some (posOf e.2.2, true)
    | none =>
      let x := dimOf dim 0; let y := dimOf dim 1; let z := dimOf dim 2
      if n < x * y * z then some ((n % x, (n / x) % y, n / (x * y)), false) else none
  found.filter (fun r => !sharedPos dim es n r.1)

/-- Resolution by the bank of epoch `e`. -/
def State.resolve (s : State) (e : Bool) (n : Nat) : Option Pos :=
  (resolveIn (s.reg 0x120).toNat (s.bank e) n).map (·.1)

/-- The block's own position, when its number is valid and resolves (R19). -/
def State.here (s : State) : Option Pos :=
  if s.ident.valid then s.resolve s.tbl.cur s.ident.chip.toNat else none

/-- The block may originate and accept REQ, RSP and COL traffic (R20). -/
def State.mayOriginate (s : State) : Bool := s.here.isSome && decide (s.ident.pkey ≠ 0)

/-! ## Windows (R32 to R35) -/

/-- Window `k` in force: base, log2 size, host base and W5. -/
def State.window (s : State) (k : Nat) : Nat × Nat × Nat × Nat :=
  let b := 0x1800 + 32 * k
  ((s.force b).toNat / 4096 * 4096 + s.ff (b + 4) 0 14 * 2 ^ 32, s.ff (b + 8) 0 6,
    (s.force (b + 12)).toNat / 4096 * 4096 + s.ff (b + 16) 0 20 * 2 ^ 32, (s.force (b + 20)).toNat)

/-- The kind of access a window is asked for. -/
inductive Acc where
  | rd
  | wr
  | at
deriving DecidableEq, Repr

/-- The lowest enabled window that holds the page of an offset (R32, R34). -/
def State.windowOf (s : State) (off : Nat) : Option Nat :=
  lowest 16 (fun k =>
    let (base, sz, _, w5) := s.window k
    w5.testBit 0 && decide (base ≤ off / 4096 * 4096) && decide (off / 4096 * 4096 < base + 2 ^ sz))

/-- The outcome of the window checks for a page: NO_WINDOW 3, PERM 4, or the window (R38). -/
def State.windowCheck (s : State) (a : Acc) (off : Nat) : Except Nat Nat :=
  match s.windowOf off with
  | none => .error 3
  | some k =>
    let (_, _, _, w5) := s.window k
    if w5.testBit (match a with | .rd => 1 | .wr => 2 | .at => 3) then .ok k else .error 4

/-- Host address and HM port of an offset in window `k` (R35). -/
def State.place (s : State) (k off : Nat) : Nat × Nat :=
  let (base, _, host, w5) := s.window k
  let ports := setBits 16 (fld w5 8 16)
  let g := 2 ^ (8 + fld w5 4 4)
  (host + (off - base), ports.getD (((off - base) / g) % max 1 ports.length) 0)

/-! ## Ports and directions (R251, R281, R309) -/

/-- Port `p` is valid in the harness map. -/
def State.portValid (s : State) (p : Nat) : Bool := (s.reg (0xC040 + 4 * p)).toNat.testBit 0
/-- Direction code of port `p`: 0 X+, 1 X−, 2 Y+, 3 Y−, 4 Z+, 5 Z−. -/
def State.portDir (s : State) (p : Nat) : Nat := s.rf (0xC040 + 4 * p) 1 3
/-- Port `p` is a compatibility port. -/
def State.portCompat (s : State) (p : Nat) : Bool := (s.reg (0xC040 + 4 * p)).toNat.testBit 4

/-- Port `p` counts as ACTIVE for a packet (R309). -/
def State.portUp (s : State) (p : Nat) (mgt : Bool) : Bool :=
  let l := s.link p
  decide (p < 12) && decide (l.st = .active) && (mgt || !l.mgtOnly)

/-- The ports that serve a direction and count as ACTIVE. -/
def State.upPorts (s : State) (dir : Nat) (mgt : Bool) : List Nat :=
  (List.range 12).filter (fun p => s.portValid p && decide (s.portDir p = dir) && s.portUp p mgt)

/-- The port a packet takes in a direction: the lower-numbered ACTIVE port for ordered opcodes, else the
one with more credits of its VC, ties to the lower number (R251). -/
def State.choosePort (s : State) (dir : Nat) (p : Packet) : Option Nat :=
  let ps := s.upPorts dir (decide (p.vc = 5))
  if orderedOp p.opcode then ps.head?
  else ps.foldl (fun best q =>
    match best with
    | none => some q
    | some b => if (s.link b).cred.getD p.vc 0 < (s.link q).cred.getD p.vc 0 then some q else some b) none

/-- A key is admitted by port `p` (R281, R282). -/
def State.keyAdmitted (s : State) (p key : Nat) : Bool :=
  let a := (s.reg (0x600 + 0x20 * p)).toNat
  let b := (s.reg (0x604 + 0x20 * p)).toNat
  key ≠ 0 && (fld a 0 16 = key || fld a 16 16 = key || fld b 0 16 = key || fld b 16 16 = key)

/-! ## Exception table (R257, R258) -/

/-- Kinds of a matching entry: reverse, jog to a direction, unreachable. -/
inductive ExcHit where
  | reverse
  | jog (dir : Nat)
  | unreach
deriving DecidableEq, Repr

/-- Whether the entry whose W0 is `w0` at offset `off` of a bank matches; `start` is the dimension being
started, `none` for a packet that continues along a ring. -/
def excMatches (b : SMap Word) (off : Nat) (w0 : Nat) (vc key : Nat) (t : Pos) (start : Option Nat) : Bool :=
  let lo := posOf (tblGet b (off + 4)).toNat
  let hi := posOf (tblGet b (off + 8)).toNat
  let k := fld (tblGet b (off + 12)).toNat 0 16
  w0.testBit 0 && (fld w0 8 6).testBit vc && (decide (k = 0) || decide (k = key))
    && decide (lo.1 ≤ t.1 ∧ t.1 ≤ hi.1 ∧ lo.2.1 ≤ t.2.1 ∧ t.2.1 ≤ hi.2.1 ∧ lo.2.2 ≤ t.2.2 ∧ t.2.2 ≤ hi.2.2)
    && (match start with
        | none => decide (fld w0 1 2 = 2)
        | some d => decide (fld w0 1 2 = 2) || decide (fld w0 3 2 = d))

/-- The matching entry that decides: the lowest-numbered one (R258). -/
def excFind (b : SMap Word) (vc key : Nat) (t : Pos) (start : Option Nat) : Option ExcHit :=
  match (b.range 0x28000 0x2C000).find?
      (fun e => decide (e.1 % 16 = 0) && excMatches b e.1 e.2.toNat vc key t start) with
  | none => none
  | some e =>
    match fld e.2.toNat 1 2 with
    | 0 => some .reverse
    | 1 => some (.jog (fld e.2.toNat 5 3))
    | _ => some .unreach

/-- An UNREACH entry matches: whatever its number and dimension (R255, R258). -/
def excUnreach (b : SMap Word) (vc key : Nat) (t : Pos) : Bool :=
  (b.range 0x28000 0x2C000).any
    (fun e => decide (e.1 % 16 = 0) && decide (fld e.2.toNat 1 2 = 2) && excMatches b e.1 e.2.toNat vc key t none)

/-! ## The routing decision (R252, R254) -/

/-- The outcome of routing one packet at this block. -/
inductive Decision where
  | eject
  | go (dir port vc : Nat) (enter : Bool)
  | dead
  | unmapped
deriving DecidableEq, Repr

/-- The direction opposite to a direction code. -/
def oppDir (d : Nat) : Nat := if d % 2 = 0 then d + 1 else d - 1

/-- The lowest dimension in which two positions differ. -/
def firstDim (a b : Pos) : Option Nat :=
  if a.1 ≠ b.1 then some 0 else if a.2.1 ≠ b.2.1 then some 1 else if a.2.2 ≠ b.2.2 then some 2 else none

/-- The direction in which a packet that starts dimension `d` heads, before exceptions (R252). -/
def startDir (dim d : Nat) (here t : Pos) (opcode ftag : Nat) : Nat :=
  let n := dimOf dim d
  let hp := (t.at d + n - here.at d) % n
  let hm := n - hp
  if hp < hm then 2 * d
  else if hm < hp then 2 * d + 1
  else if orderedOp opcode ∨ ftag % 2 = 0 then 2 * d
  else 2 * d + 1

/-- A packet that starts along dimension `d`: direction by the shorter way, the exception table, dead-port
reversal (R252, R254, R258). -/
def State.startRing (s : State) (b : SMap Word) (here t : Pos) (q : Packet) (vc d : Nat) : Decision :=
  let dir0 := startDir (s.reg 0x120).toNat d here t q.opcode q.ftag
  match excFind b vc q.pkey t (some d) with
  | some .unreach => .dead
  | some (.jog j) =>
    match s.choosePort j q with
    | some port => .go j port vc true
    | none => .dead
  | hit =>
    let dir1 := if hit = some .reverse then oppDir dir0 else dir0
    match s.choosePort dir1 q with
    | some port => .go dir1 port vc true
    | none =>
      match s.choosePort (oppDir dir1) q with
      | some port => .go (oppDir dir1) port vc true
      | none => .dead


/-- Route a DIRECT or TWO_PHASE packet towards `t` on virtual channel `vc`; `travel` is the direction in
which it arrived (R252, R254, R258). `changed`: its VC changed here, which re-enters a ring (R264). -/
def State.routeTo (s : State) (here t : Pos) (p : Packet) (vc : Nat) (travel : Option Nat)
    (changed : Bool) : Decision :=
  let b := s.bank p.epoch
  let q := p.setVc vc
  match firstDim here t with
  | none => .eject
  | some d =>
    match travel with
    | some dir =>
      if dir / 2 = d then
        if excFind b vc p.pkey t none = some .unreach then .dead
        else
          match s.choosePort dir q with
          | some port => .go dir port vc changed
          | none => .dead
      else s.startRing b here t q vc d
    | none => s.startRing b here t q vc d
/-- Route a packet at this block (R250, R252): resolve INTER on REQ0 and DST, change to REQ1 at the
intermediate position. A block without a position ejects what reaches it (R20). -/
def State.route (s : State) (p : Packet) (travel : Option Nat) : Decision :=
  match s.here with
  | none => .eject
  | some here =>
    match s.resolve p.epoch p.dst with
    | none => .unmapped
    | some td =>
      if p.vc = 0 then
        match s.resolve p.epoch p.inter with
        | none => .unmapped
        | some ti => if here = ti then s.routeTo here td p 1 travel true else s.routeTo here ti p 0 travel false
      else s.routeTo here td p p.vc travel false

/-! ## Source checks (R38, R260) -/

/-- The direction of the first hop of a packet to chip `dst`: `none` when no packet can leave (R252, R260);
`some none` when the chip is here. -/
def State.firstHop (s : State) (dst vc opcode ftag : Nat) : Option (Option Nat) :=
  match s.here, s.resolve s.tbl.cur dst with
  | some here, some t =>
    match firstDim here t with
    | none => some none
    | some _ =>
      let h : Hd := { opcode, vc, pkey := s.ident.pkey.toNat, dst, epoch := b2n s.tbl.cur, ftag }
      let p : Packet := h.packet []
      match s.routeTo here t p vc none false with
      | .go dir _ _ _ => some (some dir)
      | _ => none
  | _, _ => none

/-- The first hop of a packet to chip `dst` exists: no UNREACH entry matches and one direction of the first
dimension has an ACTIVE port (R260). -/
def State.reachable (s : State) (dst vc opcode ftag : Nat) : Bool := (s.firstHop dst vc opcode ftag).isSome

/-- Every port that serves a direction now is a compatibility port. -/
def State.onlyCompat (s : State) (dir : Nat) : Bool := (s.upPorts dir false).all s.portCompat

/-- A rank can be reached: its first hop exists, and not only through compatibility ports (R7, R190). -/
def State.rankReach (s : State) (dst vc opcode : Nat) : Bool :=
  match s.firstHop dst vc opcode 0 with
  | none => false
  | some none => true
  | some (some dir) => !s.onlyCompat dir

/-- RANGE 1 and UNMAPPED 2 for a chip number (R37, R38). -/
def State.rangeMapped (s : State) (n : Nat) : Option Nat :=
  if n < s.ident.lo.toNat ∨ s.ident.hi.toNat < n then some 1
  else if (s.resolve s.tbl.cur n).isNone then some 2
  else none

/-- The source checks RANGE, UNMAPPED, UNREACH for a packet to chip `n`; a block that may not originate
fails everything with UNREACH first (R20, R38). -/
def State.sourceCheck (s : State) (n vc opcode ftag : Nat) : Option Nat :=
  if ¬ s.mayOriginate then some 5
  else
    match s.rangeMapped n with
    | some o => some o
    | none => if s.reachable n vc opcode ftag then none else some 5

end Sys2Proof.Machine
end

