-- ==== Sys2Proof/Machine/Send.lean ====
section
/-! DEFINITION. Forming packets: the stamp of R23, PSEQ, EPOCH and CRC64, the packet and command counters
(R229, R240, R489 to R493), fragment slots and reins (R231, R253, R278). -/

namespace Sys2Proof.Machine

/-- The 64-bit counter whose _LO word is at `off`. -/
def State.cnt64 (s : State) (off : Nat) : Nat := (s.reg off).toNat + (s.reg (off + 4)).toNat * 2 ^ 32

/-- Set the 64-bit counter whose _LO word is at `off`. -/
def State.setCnt64 (s : State) (off v : Nat) : State :=
  (s.setReg off (BitVec.ofNat 32 v)).setReg (off + 4) (BitVec.ofNat 32 (v / 2 ^ 32))

/-- Add to a 64-bit counter, saturating (R488). -/
def State.addCnt64 (s : State) (off n : Nat) : State := s.setCnt64 off (min (2 ^ 64 - 1) (s.cnt64 off + n))

/-- The packet-counter group of an opcode (R489). -/
def opGroup (opcode : Nat) : Nat :=
  if opcode = 0x01 ∨ opcode = 0x43 then 0
  else if opcode = 0x02 ∨ opcode = 0x03 ∨ opcode = 0x41 then 1
  else if opcode = 0x04 ∨ opcode = 0x05 ∨ opcode = 0x44 then 2
  else if opcode = 0x06 then 3
  else if opcode = 0x07 then 4
  else if 0x80 ≤ opcode ∧ opcode ≤ 0x84 then 5
  else if 0xC0 ≤ opcode then 7
  else 6

/-- Attribution slot `i` matches a packet (R492). -/
def State.attrMatch (s : State) (i : Nat) (p : Packet) : Bool :=
  let b := 0x30400 + 0x40 * i
  let w := (s.reg b).toNat
  let m := (s.reg (b + 4)).toNat
  (s.reg (b + 8)).toNat.testBit 0 && ((p.layer ^^^ fld w 0 16) &&& fld m 0 16 = 0)
    && ((p.oper ^^^ fld w 16 16) &&& fld m 16 16 = 0)

/-- Count a packet originated (`at_` 0) or accepted (`at_` 16) by opcode group and attribution slot. -/
def State.countPkt (s : State) (at_ : Nat) (p : Packet) : State :=
  let b := 0x30000 + 0x20 * opGroup p.opcode + at_
  let s1 := (s.addCnt64 b 1).addCnt64 (b + 8) p.pay.length
  (List.range 32).foldl (fun t i =>
    if t.attrMatch i p then
      let a := 0x30410 + 0x40 * i + at_
      (t.addCnt64 a 1).addCnt64 (a + 8) p.pay.length
    else t) s1

/-- Form a packet and put it into the injection point: stamp PKEY, GEN, SRC, EPOCH and PSEQ, make CRC64,
count it (R23, R229, R239, R240, R489). `key` names another partition's key and generation for answers
given in place of a destination (R322). -/
def State.form (s : State) (h : Hd) (pay : List Byte) (dir : Option Nat := none)
    (key : Option (Nat × Nat) := none) : State :=
  let n := s.pseq + 1
  let (k, g) := key.getD (s.ident.pkey.toNat, s.ident.gen.toNat)
  let p : Packet := (Hd.packet { h with
    pkey := k
    gen := g
    src := s.ident.chip.toNat
    epoch := b2n s.tbl.cur
    cmark := 0
    pseq := n.toNat } pay).seal
  let s1 := { s with
    pseq := n
    inj := s.inj ++
      [{ pkt := p, port := 15, share := if p.rmode = 2 then 6 else p.vc, flits := flitsOf pay.length, copied := false
         dir := dir, abn := none, since := s.now : Held }] }
  let s2 := if keyedOp h.opcode then s1.modCount k (fun c => { c with orig := c.orig + 1 }) else s1
  s2.countPkt 0 p

/-- Abort hold is in force (R441, R442). -/
def State.abortHold (s : State) : Bool := s.abort.skewHold || s.abort.steps ≠ []

/-- A packet of virtual channel `vc` and key `key` is not formed: a block without key, number or position forms
MGT alone (R20), and in abort hold none of its partition (R26, R442). -/
def State.silent (s : State) (vc key : Nat) : Bool :=
  (decide (vc ≠ 5) && !s.mayOriginate) || (s.abortHold && decide (key = s.ident.pkey.toNat))

/-- Form a response of this block, unless it may form none (R20, R26). -/
def State.respond (s : State) (h : Hd) (pay : List Byte) (key : Option (Nat × Nat)) : State :=
  if s.silent h.vc ((key.map (·.1)).getD s.ident.pkey.toNat) then s else s.form h pay none key

/-- The response header that copies the context of `p` (R231): to its SRC, with its CMARK as echo and its
PSEQ as RPSEQ. -/
def respHd (p : Packet) (opcode outcome : Nat) : Hd where
  opcode := opcode
  vc := 3
  dst := p.src
  offset := p.offset
  cecho := p.cmark
  aux := outcome
  ctx := p.ctx
  chan := p.chan
  ftag := p.ftag
  layer := p.layer
  oper := p.oper
  h7 := p.pseq

/-- The response opcode without payload that answers a request with an outcome (R234). -/
def failOp (opcode : Nat) : Nat :=
  match opcode with
  | 0x01 | 0x43 => 0x40
  | 0x02 | 0x03 => 0x42
  | 0x04 | 0x05 => 0x45
  | 0x06 => 0x46
  | 0x07 => 0x47
  | _ => 0x48

/-- The key and generation a response carries: those of the packet it answers (R28). -/
def Packet.stamp (p : Packet) : Option (Nat × Nat) := some (p.pkey, p.gen)

/-- Answer a request or RLY_DATA without payload (R28, R230, R232, R234): an RLY_DATA is answered to INTER with
the RD_RELAY's PSEQ. -/
def State.answer (s : State) (p : Packet) (outcome : Nat) (found : Nat := 0) : State :=
  let h := respHd p (failOp p.opcode) outcome
  let h := if p.opcode = 0x43 then { h with dst := p.inter, h7 := p.rpseq } else h
  let h := if p.opcode = 0x06 then { h with h5 := found } else h
  s.respond h [] p.stamp

/-- Answer a request in place of its destination, at a port it cannot cross (R7, R322): not an answer of this
block, so that R20 does not hold it back. -/
def State.answerFor (s : State) (p : Packet) (outcome : Nat) : State :=
  let h := respHd p (failOp p.opcode) outcome
  let h := if p.opcode = 0x43 then { h with dst := p.inter, h7 := p.rpseq } else h
  if s.abortHold && decide (p.pkey = s.ident.pkey.toNat) then s else s.form h [] none p.stamp

/-! ## Reins (R278) -/

/-- The rein with its bucket brought up to `now` at RATE. -/
def Rein.fill (r : Rein) (now : Nat) : Rein :=
  { r with bucket := min 163840 (r.bucket + ((now - r.at_) * 64 * r.rate : Nat)), at_ := now }

/-- The rein admits a packet: RATE 4,095, or a bucket that is at least zero. -/
def State.reinAdmits (s : State) (k : Nat) : Bool :=
  let r := (s.rein k).fill s.now
  decide (r.rate = 4095) || decide (0 ≤ r.bucket)

/-- Charge rein `k` for a packet of an opcode and length (R278). -/
def State.reinCharge (s : State) (k opcode len : Nat) : State :=
  let c : Nat := if opcode ∈ [0x01, 0x02, 0x03, 0x05, 0x04, 0x82] then len else 64
  s.modRein k (fun r => let f := r.fill s.now; { f with bucket := f.bucket - (10 * c : Nat) })

/-- Note that rein `k` held a packet. -/
def State.reinHeld (s : State) (k : Nat) : State := s.modRein k (fun r => { r with held := true })

/-- The effect of a response's congestion echo on rein `k` (R279). -/
def State.reinEcho (s : State) (k echo : Nat) : State :=
  let r := s.rein k
  if echo = 0 then s.modRein k (fun r => { r with sawZero := true })
  else
    let cfg := (s.reg 0x304).toNat
    let spacing := nsTicks ((fld cfg 12 4 + 1) * 256)
    let ok := match r.lastDec with
      | none => true
      | some t => decide (t + spacing ≤ s.now)
    let s1 := s.modRein k (fun r => { r with sawHigh := true })
    if ok && cfg.testBit 28 then
      let cut := if echo = 1 then r.rate * 7 / 8 else if echo = 2 then r.rate * 3 / 4 else r.rate / 2
      s1.modRein k (fun r => { (r.fill s.now) with rate := max (fld cfg 16 12) cut, lastDec := some s.now })
    else s1

/-! ## Fragment slots (R62, R231, R253) -/

/-- The live part of group entry `g`. -/
def State.group (s : State) (g : Nat) : Group := SMap.get (fun _ => Group.reset) s.groups g
/-- Change the live part of group entry `g`. -/
def State.modGroup (s : State) (g : Nat) (f : Group → Group) : State :=
  { s with groups := SMap.set (fun _ => Group.reset) s.groups g (f (s.group g)) }
/-- Change the instance in progress on entry `g`, if there is one. -/
def State.modInst (s : State) (g : Nat) (f : CollInst → CollInst) : State :=
  s.modGroup g (fun x => { x with inst := x.inst.map f })

/-- FTAGs of the collective data packets of channel `k` that await their COL_ACKs. -/
def State.colTags (s : State) (k : Nat) : List Nat :=
  s.groups.flatMap (fun e =>
    match e.2.inst with
    | some c => if c.chan = k then c.wires.map (·.ftag) else []
    | none => [])

/-- FTAGs in use on channel `k`: of fragments and of collective data packets, which share the channel's 256 slots
(R62, R253). -/
def State.tagsUsed (s : State) (k : Nat) : List Nat := (s.chan k).slots.map (·.ftag) ++ s.colTags k

/-- Outstanding fragments of channel `k`: OUTSTANDING (R52, R62). -/
def State.outstanding (s : State) (k : Nat) : Nat := (s.tagsUsed k).length

/-- A free FTAG of channel `k` with the parity of `par`; none when its 128 slots are taken. -/
def State.freeTag (s : State) (k par : Nat) : Option Nat :=
  lowest 256 (fun f => decide (f % 2 = par % 2) && !(s.tagsUsed k).contains f)

/-! ## Command counters (R493 to R495) -/

/-- The command counters of channel `k`. -/
def State.cmdCnt (s : State) (k : Nat) : ChanCnt := SMap.get (fun _ => ChanCnt.reset) s.ccnt k
/-- Change the command counters of channel `k`. -/
def State.modCnt (s : State) (k : Nat) (f : ChanCnt → ChanCnt) : State :=
  { s with ccnt := SMap.set (fun _ => ChanCnt.reset) s.ccnt k (f (s.cmdCnt k)) }

/-- Time in units of 4 ns between two moments of the model's clock. -/
def units4 (a b : Nat) : Nat := (b - a) * 8 / 5

/-- Charge the time in which the channel's command formed no packet to REIN_T or STALL_T. -/
def ChanCnt.charge (c : ChanCnt) (now : Nat) : ChanCnt :=
  if ¬ c.running then c
  else
    let d := units4 c.since now
    let l := if c.onRein then { c.live with reinT := min (2 ^ 32 - 1) (c.live.reinT + d) }
             else { c.live with stallT := min (2 ^ 32 - 1) (c.live.stallT + d) }
    { c with live := l, since := now, onRein := false }

/-- A command starts: the live set becomes the snapshot and a new live set begins (R495). -/
def State.cntStart (s : State) (k seq iter : Nat) : State :=
  s.modCnt k (fun c => ⟨⟨seq, iter % 2 ^ 16, 0, 0, 0, 0, 0⟩, c.live, true, s.now, false⟩)

/-- The command's counters stop: it has finished issuing, or completed (R493). -/
def State.cntStop (s : State) (k : Nat) : State :=
  s.modCnt k (fun c => { c.charge s.now with running := false })

/-- The command formed a packet of `n` payload bytes. -/
def State.cntForm (s : State) (k n : Nat) : State :=
  s.modCnt k (fun c =>
    let d := c.charge s.now
    if d.running then
      { d with live := { d.live with frags := d.live.frags + 1, ibytes := (d.live.ibytes + n) % 2 ^ 48 } }
    else d)

/-- The command read `n` local bytes through HM ports. -/
def State.cntRead (s : State) (k n : Nat) : State :=
  s.modCnt k (fun c =>
    if c.running then { c with live := { c.live with rbytes := (c.live.rbytes + n) % 2 ^ 48 } } else c)

/-- The command waits on its rein. -/
def State.cntRein (s : State) (k : Nat) : State :=
  s.modCnt k (fun c => { c.charge s.now with onRein := true })

end Sys2Proof.Machine
end

