-- ==== Sys2Proof/Machine/Engine.lean ====
section
/-! DEFINITION. The read and write engines: turning offset ranges into HM requests through the windows
(R35, R376, R377), assembling read data, numbering writes in arrival order (R128). -/

namespace Sys2Proof.Machine

/-- Insert a number into a rising list without repeats. -/
def insertNat (k : Nat) : List Nat → List Nat
  | [] => [k]
  | x :: xs => if k < x then k :: x :: xs else if k = x then x :: xs else x :: insertNat k xs

/-- The granule keys (offset ÷ 64) of a byte range. -/
def keysOf (off len : Nat) : List Nat :=
  if len = 0 then [] else (List.range ((off + len - 1) / 64 - off / 64 + 1)).map (fun i => off / 64 + i)

/-- The granule keys of several byte ranges, rising, without repeats. -/
def keysOfAll (rs : List (Nat × Nat)) : List Nat :=
  rs.foldl (fun acc (o, n) => (keysOf o n).foldl (fun a k => insertNat k a) acc) []

/-- The window checks for every page of the ranges; the first failure is the outcome (R38). -/
def State.checkRanges (s : State) (a : Acc) (rs : List (Nat × Nat)) : Option Nat :=
  ((keysOfAll rs).map (· / 64)).foldl (fun acc page =>
    match acc with
    | some o => some o
    | none =>
      match s.windowCheck a (page * 4096) with
      | .error o => some o
      | .ok _ => none) none

/-- Where a granule lies: HM port, host address, and its interleave granule. -/
def State.granPlace (s : State) (key : Nat) : Nat × Nat × Nat :=
  match s.windowOf (64 * key) with
  | none => (0, 0, 0)
  | some k =>
    let (base, _, _, w5) := s.window k
    let (addr, port) := s.place k (64 * key)
    (port, addr, (64 * key - base) / 2 ^ (8 + fld w5 4 4))

/-- Cut a rising list of placed granules into requests: one port, contiguous addresses, within one 4 KiB
page of host address and one interleave granule (R377). -/
def cutReqs : List (Nat × Nat × Nat × Nat) → List (Nat × Nat × List Nat)
  | [] => []
  | (key, port, addr, ig) :: rest =>
    match cutReqs rest, rest with
    | (p2, a2, ks) :: more, (_, _, _, ig2) :: _ =>
      if p2 = port ∧ a2 = addr + 64 ∧ ig2 = ig ∧ a2 / 4096 = addr / 4096 then (port, addr, key :: ks) :: more
      else (port, addr, [key]) :: (p2, a2, ks) :: more
    | l, _ => (port, addr, [key]) :: l

/-- The requests for a list of granule keys: (port, host address, keys). -/
def State.reqsFor (s : State) (keys : List Nat) : List (Nat × Nat × List Nat) :=
  cutReqs (keys.map (fun k => let (p, a, i) := s.granPlace k; (k, p, a, i)))

/-- Start a read of the ranges for a use; its requests wait at their HM ports. Answers the job number. -/
def State.startRead (s : State) (use : RdUse) (rs : List (Nat × Nat)) : Nat × State :=
  let id := s.eng.next
  let reqs := s.reqsFor (keysOfAll rs)
  let s1 := { s with eng := { s.eng with
    next := id + 1
    reads := s.eng.reads ++ [RdJob.mk id use reqs.length [] false true] } }
  (id, reqs.foldl (fun t (p, a, ks) =>
    t.modHm p (fun h => { h with rdWait := h.rdWait ++ [RdReq.mk id a ks] })) s1)

/-- The granules to write for `data` at an offset: bytes in place, byte enables, poison by granule of the
page (R235, R379). -/
def wrGrans (off : Nat) (data : List Byte) (poison : Nat) : List WrGran :=
  (keysOf off data.length).map (fun k =>
    let lo := max off (64 * k)
    let hi := min (off + data.length) (64 * k + 64)
    let bytes := (data.drop (lo - off)).take (hi - lo)
    { key := k
      data := BitVec.ofNat 512 (leNat bytes * 2 ^ (8 * (lo - 64 * k)))
      be := BitVec.ofNat 64 ((2 ^ (hi - lo) - 1) * 2 ^ (lo - 64 * k))
      poison := poison.testBit (k % 64) })

/-- Start a write of granules for a use; `count` is what a tally counts. Answers the job number. -/
def State.startWrite (s : State) (use : WrUse) (grans : List WrGran) (count : Nat) : Nat × State :=
  let id := s.eng.next
  let keys := grans.map (·.key)
  let reqs := s.reqsFor keys
  let s1 := { s with
    eng := { s.eng with
      next := id + 1
      writes := s.eng.writes ++ [WrJob.mk id use keys reqs.length false count true] } }
  (id, reqs.foldl (fun t (p, a, ks) =>
    t.modHm p (fun h => { h with
      wrWait := h.wrWait ++ [WrReq.mk id a (grans.filter (fun g => ks.contains g.key))] })) s1)

/-- Granules in which a range writes at least one byte, poisoned ones apart (R100). -/
def tallyCount (off len poison : Nat) : Nat :=
  ((keysOf off len).filter (fun k => !(poison.testBit (k % 64)))).length

/-- Bytes read back: `n` bytes at an offset as a number, and whether a granule they lie in is poisoned. -/
def readBack (got : List (Nat × Gran)) : SrcRead := fun off n =>
  let find := fun k => (got.find? (fun e => e.1 = k)).map (·.2)
  let one := fun a =>
    match find (a / 64) with
    | some g => (fld g.data.toNat (8 * (a % 64)) 8, g.poison)
    | none => (0, false)
  ((List.range n).foldl (fun v i => v + (one (off + i)).1 * 256 ^ i) 0,
    (List.range n).any (fun i => (one (off + i)).2))

/-- The bytes of a contiguous range read back. -/
def readBytes (got : List (Nat × Gran)) (off n : Nat) : List Byte :=
  (List.range n).map (fun i => BitVec.ofNat 8 (readBack got (off + i) 1).1)

/-- Poison bits by granule of the page for a contiguous range read back. -/
def readPoison (got : List (Nat × Gran)) (off n : Nat) : Nat :=
  maskOf (((keysOf off n).filter (fun k => (readBack got (64 * k) 1).2)).map (· % 64))

end Sys2Proof.Machine
end

