-- ==== Sys2Proof/Machine/Chan.lean ====
section
/-! DEFINITION. The machinery every channel command shares: fetching words and loops (R76 to R82), starting
(R61, R73), completing with status, record and event (R64, R89 to R93), tallies with their watches and
WAITs (R71, R72, R141 to R147). -/

namespace Sys2Proof.Machine

/-! ## Command words -/

def opNop : Nat := 0x00
def opPut : Nat := 0x01
def opGet : Nat := 0x02
def opCopy : Nat := 0x03
def opAtom : Nat := 0x04
def opColl : Nat := 0x05
def opWait : Nat := 0x06
def opSignal : Nat := 0x07
def opFence : Nat := 0x08
def opRepeat : Nat := 0x09
def opEnd : Nat := 0x0A
def opBranch : Nat := 0x0B
def opLoads : Nat := 0x0C
def opMark : Nat := 0x0D
def opTrace : Nat := 0x0E

/-- The opcode of a command word (R58). -/
def opOf (w : CmdWord) : Nat := cf w 0 0 8
/-- The SEQ of a command word. -/
def seqOf (w : CmdWord) : Nat := cf w 0 16 16
/-- The CR, EV and SOE bits of a command word. -/
def wantsCr (w : CmdWord) : Bool := (cq w 0).testBit 32
def wantsEv (w : CmdWord) : Bool := (cq w 0).testBit 33
def wantsSoe (w : CmdWord) : Bool := (cq w 0).testBit 34

/-- A command whose successor may start once it has finished issuing (R61). -/
def isTransfer (w : CmdWord) : Bool := opOf w ∈ [opPut, opGet, opCopy, opAtom, opColl, opSignal]

/-- A COLL of type SCALAR_AR (CTYPE 7, R161). -/
def isScalarAr (w : CmdWord) : Bool := opOf w = opColl && cf w 4 12 4 = 7

/-- The scalar a command writes when it completes (R73). -/
def writesScalar (w : CmdWord) : Option Nat :=
  if opOf w = opLoads then some (cf w 1 2 3)
  else if opOf w = opAtom ∧ (cq w 4).testBit 14 then some (cf w 4 15 3)
  else if isScalarAr w then some (cf w 4 43 3)
  else none

/-- The scalars a command reads when it starts (R73). -/
def readsScalars (w : CmdWord) : List Nat :=
  let sel (c : Bool) (i : Nat) : List Nat := if c then [i] else []
  if opOf w ∈ [opPut, opGet, opCopy] then sel ((cq w 3).testBit 48) (cf w 3 49 3)
  else if opOf w = opAtom then sel ((cq w 4).testBit 10) (cf w 4 11 3)
  else if isScalarAr w then [cf w 4 40 3]
  else if opOf w = opColl then sel ((cq w 3).testBit 40) (cf w 3 41 3)
  else if opOf w = opWait then sel ((cq w 1).testBit 4) (cf w 1 5 3) ++ sel ((cq w 1).testBit 21) (cf w 1 22 3)
  else if opOf w = opBranch then [cf w 1 4 3] ++ sel ((cq w 1).testBit 7) (cf w 1 8 3)
  else if opOf w = opRepeat then sel ((cq w 1).testBit 32) (cf w 1 33 3)
  else if opOf w = opLoads ∧ cf w 1 0 2 = 3 then [cf w 1 2 3]
  else []

/-! ## Words of a channel: queue, loop buffer (R79) -/

/-- The next word of a channel: from the loop buffer while it replays, else from the queue. -/
def Chan.nextWord (c : Chan) : Option CmdWord :=
  if c.pos < c.loopBuf.length then c.loopBuf[c.pos]? else c.queue.head?

/-- Take the next word; inside a loop a word from the queue is kept in the loop buffer. -/
def Chan.takeWord (c : Chan) : Chan :=
  if c.pos < c.loopBuf.length then { c with pos := c.pos + 1 }
  else
    match c.queue with
    | [] => c
    | w :: q => if c.loops = [] then { c with queue := q }
                else { c with queue := q, loopBuf := c.loopBuf ++ [w], pos := c.pos + 1 }

/-- The next word would be the 65th of a loop body (R79); the END that closes the outermost loop is not
of the body. `depth` counts REPEATs opened among words being discarded. DESIGN CHOICE (log 73): the body of a
REPEAT of count zero outside any loop is only discarded and never kept in the loop buffer, so that its length gives
no LOOP_LONG; R79 does not say. -/
def Chan.tooLong (c : Chan) (depth : Nat) : Bool :=
  match c.nextWord with
  | none => false
  | some w => decide (c.loops ≠ []) && decide (c.pos = c.loopBuf.length) && decide (64 ≤ c.loopBuf.length)
      && !(decide (opOf w = opEnd) && decide (c.loops.length = 1) && decide (depth = 0))

/-- End the innermost loop (R82): the words captured stay while an outer loop is open. -/
def Chan.popLoop (c : Chan) : Chan :=
  match c.loops with
  | [] => c
  | [_] => { c with loops := [], loopBuf := [], pos := 0 }
  | _ :: ls => { c with loops := ls }

/-! ## Conditions (R71) -/

/-- The conditions of R71 on 64-bit values; codes above 5 never hold. -/
def condHolds (cond : Nat) (signed : Bool) (a b : Nat) : Bool :=
  let lt := if signed then decide (toSigned 64 a < toSigned 64 b) else decide (a < b)
  match cond with
  | 0 => !lt
  | 1 => decide (a = b)
  | 2 => decide (a ≠ b)
  | 3 => lt
  | 4 => decide (a &&& b ≠ 0)
  | 5 => decide (a &&& b = 0)
  | _ => false

/-- A tally extended to 64 bits, with its sign when `signed`. -/
def tallyExt (t : BitVec 48) (signed : Bool) : Nat :=
  if signed then (t.signExtend 64).toNat else t.toNat

/-- The value a WAIT tests. -/
def State.waitValue (s : State) (k : Nat) (w : CmdWord) : Nat :=
  if (cq w 1).testBit 4 then (s.scalar k (cf w 1 5 3)).toNat
  else tallyExt (s.tallyOf (cf w 1 8 13)) ((cq w 1).testBit 25)

/-- The condition of a WAIT holds now. -/
def State.waitHolds (s : State) (k : Nat) (w : CmdWord) : Bool :=
  let b := if (cq w 1).testBit 21 then (s.scalar k (cf w 1 22 3)).toNat else cq w 2
  condHolds (cf w 1 0 4) ((cq w 1).testBit 25) (s.waitValue k w) b

/-! ## Completion (R64, R89 to R93) -/

/-- The channel's progress counter moves (R95). -/
def State.progress (s : State) (k : Nat) : State := s.modChan k (fun c => { c with progress := s.now })

/-- Records of a channel's ring: 2^LOG2N, zero without a ring (R87, R88). -/
def State.ringSize (s : State) (k : Nat) : Nat :=
  let n := s.rf (0x4018 + 0x100 * k) 0 5
  if 6 ≤ n ∧ n ≤ 16 then 2 ^ n else 0

/-- The ring's offset (R87). -/
def State.ringBase (s : State) (k : Nat) : Nat :=
  (s.reg (0x4010 + 0x100 * k)).toNat / 4096 * 4096 + s.rf (0x4014 + 0x100 * k) 0 14 * 2 ^ 32

/-- The ring is full: PROD − CONS = 2^LOG2N (R89). -/
def State.ringFull (s : State) (k : Nat) : Bool :=
  s.ringSize k ≠ 0 && (((s.chan k).prod - (s.chan k).cons).toNat = s.ringSize k)

/-- The completion record of R90. -/
def recordOf (k : Nat) (f : Flight) (status tEnd : Nat) : CmdWord :=
  let fl := f.first.getD ⟨0, 0, false, false, 0⟩
  BitVec.ofNat 512 (
    put (seqOf f.word) 0 16 + put k 16 6 + put (f.depth - 1) 22 2 + put (b2n (decide (f.depth ≠ 0))) 24 1
    + put (opOf f.word) 32 8 + put status 40 8 + put fl.aout 48 4
    + (put f.iter 0 32 + put f.fails 32 32) * 2 ^ 64
    + put f.bytes 0 48 * 2 ^ 128
    + fl.addr.toNat * 2 ^ 192
    + put f.tStart 0 64 * 2 ^ 256
    + put tEnd 0 64 * 2 ^ 320
    + (put (b2n (f.written && decide (opOf f.word = opColl))) 0 1 + put (b2n f.sat) 1 1 + put f.dropped 32 32) * 2 ^ 384
    + f.value.toNat * 2 ^ 448)

/-- EV_CMD_DONE (R392). -/
def evCmdDone (k : Nat) (o : Owed) : Nat :=
  0x01 + put k 8 6 + put o.seq.toNat 16 16 + put o.status.toNat 32 8 + put o.iter 40 32

/-- Stop a channel and raise EV_CH_STOP (R92). -/
def State.stopChan (s : State) (k : Nat) (kind : StopKind) (seq status : Nat) : State :=
  (s.modChan k (fun c => { c with stop := if c.stop = .always then .always else kind })).emit
    (0x02 + put k 8 6 + put seq 16 16 + put status 32 8) (some k)

/-- How a status stops a channel (R91): "always", with SOE, or not. -/
def stopOf (status : Nat) (soe : Bool) : StopKind :=
  if 0x07 ≤ status ∧ status ≤ 0x0C then .always
  else if soe ∧ status ∈ [0x01, 0x03, 0x04, 0x06] then .soe
  else .no

/-- Raise the events of completed commands that owe no record, in start order, up to the first that still
owes one or that an incomplete earlier command precedes (R89). In DRAINING, a record that meets a full ring
is lost (R93). -/
def State.settleOwedN : Nat → Nat → State → State
  | 0, _, s => s
  | fuel + 1, k, s =>
    let c := s.chan k
    match c.owed with
    | [] => s
    | o :: rest =>
      if c.flights.any (fun f => decide (f.ord < o.ord) && (wantsCr f.word || wantsEv f.word)) then s
      else if o.cr ∧ ¬ o.writing ∧ c.st = .draining ∧ s.ringFull k then
        let o' := { o with cr := false, status := 0x0D }
        State.settleOwedN fuel k (s.modChan k (fun c =>
          { c with owed := o' :: rest, cancels := satInc c.cancels, lastStatus := 0x0D }))
      else if o.cr then s
      else
        let s1 := s.modChan k (fun c => { c with owed := rest })
        State.settleOwedN fuel k (if o.ev then s1.emit (evCmdDone k o) (some k) else s1)

/-- Raise every event and lose every record that is due now: two turns settle one completed command. -/
def State.settleOwed (s : State) (k : Nat) : State := State.settleOwedN (2 * (s.chan k).owed.length) k s

/-- Complete a command of channel `k`: LAST_STATUS, the record and event it asked for, the stop of R91, the
CMD_DONE record (R64, R89, R498). -/
def State.complete (s : State) (k : Nat) (f : Flight) (status : Nat) : State :=
  let img := recordOf k f status s.time
  let cr := wantsCr f.word && decide (s.ringSize k ≠ 0)
  let o : Owed := ⟨f.ord, img, cr, false, wantsEv f.word, BitVec.ofNat 16 (seqOf f.word),
    BitVec.ofNat 8 status, f.iter⟩
  let s1 := s.modChan k (fun c => { c with
    flights := c.flights.filter (fun g => decide (g.ord ≠ f.ord))
    lastStatus := BitVec.ofNat 8 status
    progress := s.now
    owed := if cr || wantsEv f.word then
        c.owed.filter (fun x => decide (x.ord < f.ord)) ++ [o] ++ c.owed.filter (fun x => decide (f.ord < x.ord))
      else c.owed })
  let s2 := [0, 1, 2, 3].foldl (fun t n =>
    if (t.log n).chmask.toNat.testBit k ∧ (t.reg (0x32104 + 0x40 * n)).toNat.testBit 1 then
      let (u, hi) := t.logAdd n 3 k (seqOf f.word)
        (put (opOf f.word) 0 8 + put status 8 8 + put (f.first.getD ⟨0, 0, false, false, 0⟩).aout 16 4
          + put f.fails 32 32) (put f.bytes 0 48)
      if hi then u.emit (u.evLogHigh n).toNat else u
    else t) s1
  let s3 := match stopOf status (wantsSoe f.word) with
    | .no => s2
    | kind => if (s2.chan k).st = Life.on then s2.stopChan k kind (seqOf f.word) status else s2
  s3.settleOwed k

/-! ## Settling a channel after something ended -/

/-- Enter OFF (R55 to R57): EV_CH_OFF with the final NEXT_SEQ; a held enable starts the channel again. -/
def State.chanOff (s : State) (k : Nat) : State :=
  let c := s.chan k
  let s1 := (s.modChan k (fun c => { c with
    st := .off, stop := .no, flights := [], slots := [], queue := [], skip := none })).emit
      (0x03 + put k 8 6 + put c.nextSeq.toNat 16 16) (some k)
  if c.enPend then
    s1.modChan k (fun c => { c with
      st := .starting, enPend := false, en := true, late := false, nextSeq := 0, queue := [], loopBuf := [], pos := 0,
      loops := [], layer := 0, oper := 0 })
  else s1

/-- A command's status, once its fragments have all ended: R131, and CANCELLED where a disable left some of it
unissued (R55). -/
def Flight.status (f : Flight) : Nat :=
  if f.aborted then 0x02 else if f.fenced then 0x06 else if f.cancelled then 0x05 else if f.fails ≠ 0 then 0x01 else 0x00

/-- The command has nothing in flight: no slot, no local write, no fragment being read. -/
def State.quiet (s : State) (k : Nat) (f : Flight) : Bool :=
  f.localW = 0 && f.ahead.isNone && !(s.chan k).slots.any (fun x => decide (x.ord = f.ord))

/-- A command that ends once its fragments have: a transfer, an ATOM, a SIGNAL or a LOADS MEM. -/
def hasFrags (w : CmdWord) : Bool :=
  decide (opOf w ∈ [opPut, opGet, opCopy, opAtom, opSignal]) || (decide (opOf w = opLoads) && decide (cf w 1 0 2 = 1))

/-- The fragments of a command have all ended; one that a disable left partly issued waits until nothing of the
channel is outstanding (R55). -/
def State.fragsDone (s : State) (k : Nat) (f : Flight) : Bool :=
  hasFrags f.word && f.cursor.isNone && s.quiet k f && (!f.cancelled || decide (s.outstanding k = 0))

/-- Complete what can complete on channel `k`: transfers whose fragments have ended, a FENCE behind
completed commands, and in DRAINING the cancelled remainder and the entry into OFF (R55, R64, R75). -/
def State.settleN : Nat → Nat → State → State
  | 0, _, s => s
  | fuel + 1, k, s =>
    let c := s.chan k
    match c.flights.find? (s.fragsDone k) with
    | some f =>
      let s1 := if f.fails = 0 ∧ ¬ f.aborted ∧ ¬ f.fenced ∨ opOf f.word = opAtom then
          match writesScalar f.word with
          | some i => if f.written then s.setScalar k i f.value else s
          | none => s
        else s
      State.settleN fuel k (s1.complete k f f.status)
    | none =>
      match c.flights with
      | [f] =>
        if opOf f.word = opFence then State.settleN fuel k (s.complete k f 0)
        else s
      | [] =>
        let t := s.settleOwed k
        if c.st = .draining ∧ c.slots = [] ∧ (t.chan k).owed = [] then t.chanOff k else t
      | _ => s

/-- Complete everything that can complete on channel `k`: each turn ends one command, the last one the channel. -/
def State.settle (s : State) (k : Nat) : State := State.settleN ((s.chan k).flights.length + 1) k s

/-! ## Tallies, watches and WAITs (R72, R141 to R147) -/

/-- EV_TALLY (R392). -/
def evTally (w : Nat) (x : Watch) (t : BitVec 48) (again : Bool) : BitVec 128 :=
  BitVec.ofNat 128 (0x10 + put w 8 8 + put x.tally 16 13 + put (b2n again) 29 1 + put x.value.toNat 32 48
    + put t.toNat 80 48)

/-- Firings of GE (`ge`) or LT until the comparison value leaves the values for which the condition holds: each turn
takes those up to the end of that range, or up to the wrap of VALUE. -/
def rangeFirings (ge : Bool) (t step : Nat) : Nat → Nat → Nat → Option Nat
  | 0, _, _ => none
  | fuel + 1, v, n =>
    if condHolds (if ge then 0 else 3) false t v then
      let k := if ge then (t - v) / step + 1 else (2 ^ 48 - v + step - 1) / step
      rangeFirings ge t step fuel ((v + k * step) % 2 ^ 48) (n + k)
    else some n

/-- Firings of ANY or NONE, one by one. -/
def bitFirings (cond t step : Nat) : Nat → Nat → Nat → Option Nat
  | 0, _, _ => none
  | fuel + 1, v, n =>
    if condHolds cond false t v then bitFirings cond t step fuel ((v + step) % 2 ^ 48) (n + 1) else some n

/-- The inverse of an odd number modulo 2^48, by Newton's iteration. -/
def inv48 (a : Nat) : Nat := (List.range 6).foldl (fun x _ => x * (2 ^ 49 + 2 - a * x % 2 ^ 48) % 2 ^ 48) a

/-- Firings of NE: the least n with v + n·step = t modulo 2^48. -/
def neFirings (t step v : Nat) : Option Nat :=
  let g := Nat.gcd step (2 ^ 48)
  let d := (t + 2 ^ 48 - v) % 2 ^ 48
  if d % g = 0 then some (d / g * inv48 (step / g) % (2 ^ 48 / g)) else none

/-- How often a watch with STEP not 0 fires when its condition holds now: VALUE grows by STEP until the condition is
false (R147). None: it never becomes false. GE and LT pass through a wrap of VALUE at most 2^32 times before
the values repeat; ANY and NONE depend on the bits of VALUE up to the tally's highest one, which repeat sooner. -/
def firings (cond t step v : Nat) : Option Nat :=
  match cond with
  | 0 => if t = 2 ^ 48 - 1 then none else rangeFirings true t step (2 ^ 32 + 1) v 0
  | 1 => some 1
  | 2 => neFirings t step v
  | 3 => rangeFirings false t step (2 ^ 32 + 1) v 0
  | c =>
    let m := if t = 0 then 1 else 2 ^ (t.log2 + 1)
    bitFirings c t step (m / Nat.gcd step m + 1) v 0

/-- Evaluate an armed watch against its tally: it fires while its condition holds, once when STEP is 0; the firings
of a STEP are taken together, the last one's event standing (R147). Where they never end, VALUE moves on without end
and is a free value, `free` being its number (log 74). -/
def Watch.eval (w : Nat) (t : BitVec 48) (free : Nat) (x : Watch) : Watch :=
  if ¬ x.armed ∨ ¬ condHolds x.cond false t.toNat x.value.toNat then x
  else
    let n := if x.step = 0 then 1
      else (firings x.cond t.toNat x.step.toNat x.value.toNat).getD ((Sys2Proof.Config.freeValue free).toNat + 2)
    let again := x.pend.isSome || decide (1 < n)
    let y := { x with value := x.value + BitVec.ofNat 48 ((n - 1) * x.step.toNat) }
    { y with
      fired := true
      overrun := y.overrun || again
      pend := some (evTally w y t again)
      armed := decide (x.step ≠ 0)
      value := y.value + x.step.setWidth 48 }

/-- The firings of an armed watch never end: its condition holds whatever VALUE the steps reach. -/
def Watch.endless (t : BitVec 48) (x : Watch) : Bool :=
  x.armed && condHolds x.cond false t.toNat x.value.toNat && decide (x.step ≠ 0)
    && (firings x.cond t.toNat x.step.toNat x.value.toNat).isNone

/-- Evaluate watch `w`; firings that never end use up a number of the free-value counter. -/
def State.evalWatch (s : State) (w : Nat) : State :=
  let x := s.watchOf w
  let t := s.tallyOf x.tally
  { s with free := if x.endless t then s.free + 1 else s.free }.setWatch w (x.eval w t s.free)

/-- Evaluate every armed watch of tally `n`. -/
def State.evalWatches (s : State) (n : Nat) : State :=
  s.watch.foldl (fun t (w, x) =>
    if x.armed ∧ x.tally = n then t.evalWatch w else t) s

/-- Complete every WAIT whose condition holds now (R72). -/
def State.evalWaits (s : State) : State :=
  s.chans.foldl (fun t (k, _) =>
    match (t.chan k).flights.find? (fun f => decide (opOf f.word = opWait)) with
    | some f => if t.waitHolds k f.word then (t.complete k f 0).settle k else t
    | none => t) s

/-- Set a tally and evaluate its watches and the WAITs (R72, R144, R147). -/
def State.setTally (s : State) (n : Nat) (v : BitVec 48) : State :=
  ((s.setTallyRaw n v).evalWatches n).evalWaits

/-- Add to a tally modulo 2^48 (R141, R142). Uncorrectable words of the tally and of a watch that reads it raise their
faults and are used as they stand (R427). -/
def State.addTally (s : State) (n : Nat) (v : Nat) : State :=
  let s1 := (s.takeEcc 0x12 0 2 2 0xFF).2
  let s2 := if s1.watch.any (fun e => e.2.armed && decide (e.2.tally = n)) then (s1.takeEcc 0x11 6 2 1 0xFF).2 else s1
  s2.setTally n (s.tallyOf n + BitVec.ofNat 48 v)

end Sys2Proof.Machine
end

