-- ==== Sys2Proof/Machine/Cmd.lean ====
section
/-! DEFINITION. What every command goes through: the block is out of reset, the event can happen, and, for
a register write, parity, privilege, F3 and the answer on RG (R10, R393, R394, R417, R465). -/

namespace Sys2Proof.Machine

/-- The outcome every command of the block has. -/
abbrev Out := Host.Outcome State Fault Refusal

/-- The block is out of reset and self-check: its ports answer (R394, R520). -/
def State.alive (s : State) : Bool := decide (s.pwr.phase = .run) || decide (s.pwr.phase = .warmWait)

/-- Run a command in any phase: the ports' outputs start empty, and where its event cannot happen (`ok` is
false) the state is otherwise unchanged (DESIGN CHOICE, log 10). No command changes the queue. -/
def runAny (s : State) (ok : Bool) (f : State → State) : Out :=
  let t := { s with out := [] }
  .next { (if ok then f t else t) with pending := s.pending }

/-- Run a command of the block out of reset. -/
def run (s : State) (ok : Bool) (f : State → State) : Out := runAny s (s.alive && ok) f

/-- Expert control is in force: DX_MC_UNLOCK.OPEN (R470, R474). -/
def State.expert (s : State) : Bool :=
  match s.mc.openUntil with
  | some t => decide (s.now < t)
  | none => false

/-- The parity of a register access: wr, addr[19:2] and wdata (R393). -/
def rgParity (wr : Bool) (off : Nat) (data : Word) : Bool :=
  parity 51 (b2n wr + put (off / 4) 1 18 + data.toNat * 2 ^ 19)

/-- Clear the W1C bits of a register word: of a channel's STAT (R94), a watch (R146), a unit's STAT, which the unit
leaves for its self-test where it may (R220, R221), DX_RA_STORE_ERR and DX_RG_STAT with their counts (R389, R396),
or of a stored word. -/
def State.w1cOnly (s : State) (off : Nat) (data : Word) : State :=
  let v := data.toNat
  match inArr off 0x4000 0x100 64, inArr off 0xA000 16 256, inArr off 0x190 4 17 with
  | some (k, 0x08), _, _ => s.modChan k (fun c => { c with wrIgn := c.wrIgn && !v.testBit 6, hang := c.hang && !v.testBit 7 })
  | _, some (w, 0), _ =>
    let x := s.watchOf w
    s.setWatch w { x with fired := x.fired && !v.testBit 24, overrun := x.overrun && !v.testBit 25, wrIgn := x.wrIgn && !v.testBit 26 }
  | _, _, some (u, 0) =>
    let x := SMap.get (fun _ => RUnit.reset) s.rus u
    if x.faulted ∧ v.testBit 4 then
      let go := x.st = .off ∧ (s.reg 0x180).toNat.testBit u ∧ s.rf 0x180 17 5 ≠ u
      { s with rus := SMap.set (fun _ => RUnit.reset) s.rus u { x with faulted := false, st := if go then Life.starting else x.st } }
    else s
  | _, _, _ =>
    if off = 0xF00 then (if v.testBit 31 then s.clrReg 0xF00 0xFF000000 else s)
    else if off = 0xF08 then (if v.testBit 0 then s.setReg 0xF08 0 else s)
    else s.setReg off (s.reg off &&& ~~~(data &&& (regMask off).w1c))

/-- A failed parity check of an RG access (R394, R404): not performed, counted, answered PARITY. -/
def State.rgBad (s : State) (off : Nat) (inj : Bool) : State :=
  let n := s.rf 0xF08 16 16
  (((s.orReg 0xF08 1).putField 0xF08 16 16 (min 0xFFFF (n + 1))).raise 0x27 0 1 7 0x62 off 0 inj).drive
    (.rgAnswer 0 1)

/-- A register write at `off`. The host's is checked for parity; RWL fields take effect for the kernel, and
for the host under expert control; in F3 only W1C fields are written (R10, R394, R417, R465). `always`: the
write is made in F3 too (DX_FLT_CREC_STAT). -/
def State.regWrite (s : State) (off : Nat) (a : RgAcc) (f : State → Bool → Word → State)
    (always : Bool := false) : State :=
  match a.who with
  | .kernel => f s true a.data
  | .host =>
    let (inj, s1) := s.takeInj 0x27 0
    if (a.par == rgParity true off a.data) == inj then s1.rgBad off inj
    else
      let t := if s1.inF3 && !always then s1.w1cOnly off a.data else f s1 s1.expert a.data
      t.drive (.rgAnswer 0 0)

/-- A command that is a register write: performed where the access can exist (`ok`), answered RESET while
the block is in reset or self-check. -/
def regCmd (s : State) (ok : Bool) (off : Nat) (a : RgAcc) (f : State → Bool → Word → State)
    (always : Bool := false) : Out :=
  if s.alive then run s ok (fun t => t.regWrite off a f always)
  else runAny s (ok && decide (a.who = .host) && decide (s.pwr.phase ≠ .off)) (fun t => t.drive (.rgAnswer 0 2))

/-- A data word with one bit forced. -/
def forceBit (d : Word) (i : Nat) (v : Bool) : Word :=
  if v then d ||| BitVec.ofNat 32 (2 ^ i) else d &&& ~~~(BitVec.ofNat 32 (2 ^ i))

/-- The data word of an access with one bit forced: the row names a write in which that bit stands so. The
host's parity bit follows the bit. -/
def RgAcc.force (a : RgAcc) (i : Nat) (v : Bool) : RgAcc :=
  if a.data.toNat.testBit i = v then a else { a with data := forceBit a.data i v, par := !a.par }

/-- The generic write of a register word with no behaviour of its own (R534). -/
def State.plainWrite (s : State) (off : Nat) (priv : Bool) (d : Word) : State :=
  s.setReg off (mergeWrite (regMask off) priv (s.reg off) d)

end Sys2Proof.Machine
end

