-- ==== Sys2Proof/Machine/Phy.lean ====
section
/-! DEFINITION. What a team sends on its lanes: the scrambled body stream, its FEC codewords, the symbols of the data
lanes, the tag slots of the forwarded-clock lane, training frames, and the patterns of the spare and of PRBS mode (R291 to
R293, R296, R323, R338, R346, R347). -/

namespace Sys2Proof.Machine

/-! ## Scrambler and symbols (R291, R292) -/

/-- `n` bits of `x`, least significant first, through the scrambler x^58 + x^39 + 1: the scrambled bits, and the memory
with the newest bit lowest. -/
def scramble : Nat → Nat → Nat → Nat × Nat
  | 0, st, _ => (0, st)
  | n + 1, st, x =>
    let o := (x + st / 2 ^ 38 + st / 2 ^ 57) % 2
    let r := scramble n ((2 * st + o) % 2 ^ 58) (x / 2)
    (o + 2 * r.1, r.2)

/-- The PAM4 level of two bits, the earlier one first, Gray coded (PRESUMED from IEEE 802.3, log 86). -/
def grayLevel (a b : Nat) : Nat := if a = 0 then b else 3 - b

/-- `n` symbols of a lane that sends the bits of `v` in order. -/
def pam4 (n v : Nat) : List Nat := (List.range n).map (fun i => grayLevel (fld v (2 * i) 1) (fld v (2 * i + 1) 1))

/-- The value that lane `l` of eight sends of a stream of `w`-bit symbols: every eighth symbol, from symbol `l`. -/
def laneValue (w : Nat) (syms : List Nat) (l : Nat) : Nat :=
  (List.range (syms.length / 8)).foldr (fun i v => syms.getD (8 * i + l) 0 + v * 2 ^ w) 0

/-- The eight data lanes' symbols for a stream of `w`-bit symbols. -/
def laneSymbols (w : Nat) (syms : List Nat) : List (List Nat) :=
  (List.range 8).map (fun l => pam4 (syms.length / 8 * w / 2) (laneValue w syms l))

/-- The symbols of the forwarded-clock lane for one tag slot (R292): TAG_SYNC and the tag in the lower bits, the upper
bits alternating from 0 (DESIGN CHOICE, log 86). -/
def tagSymbols (tag : Nat) : List Nat :=
  (List.range 128).map (fun i => 2 * (i % 2) + fld (0xB38F + tag * 2 ^ 16) i 1)

/-! ## PRBS patterns, training frames and lane-management words (R338, R346, R347) -/

/-- `n` bits of a PRBS whose register of `w` bits, the newest lowest, stands at `st`; the bits under `mask` give the next
one. -/
def prbs (w mask : Nat) : Nat → Nat → Nat × Nat
  | 0, st => (0, st)
  | n + 1, st =>
    let b := b2n (parity w (st &&& mask))
    let r := prbs w mask n ((2 * st + b) % 2 ^ w)
    (b + 2 * r.1, r.2)

/-- Width and mask of a pattern by PAT (R346): x^7 + x^6 + 1, x^13 + x^12 + x^2 + x + 1, x^31 + x^28 + 1. -/
def prbsOf : Nat → Nat × Nat
  | 1 => (7, 0x60)
  | 2 => (13, 0x1803)
  | _ => (31, 0x48000000)

/-- The levels of `n` UI of a pattern that stands at `st`, and where it stands then (R346). -/
def prbsSymbols (pat n st : Nat) : List Nat × Nat :=
  let (w, mask) := prbsOf pat
  let r := prbs w mask (2 * n) st
  (pam4 n r.1, r.2)

/-- The marker: 16 UI at +3, 16 UI at −3 (R338). Levels are numbered 0 for −3 to 3 for +3. -/
def marker : List Nat := List.replicate 16 3 ++ List.replicate 16 0

/-- A field of a frame: a bit of 1 as +3, −3, a bit of 0 as −3, +3, from bit 0 upward (R338). -/
def fieldSymbols (q : Quad) : List Nat := (List.range 64).flatMap (fun i => if qf q i 1 = 1 then [3, 0] else [0, 3])

/-- The 4,096 UI of a training frame: marker, control field, status field, PRBS13Q from `pn` on (R338). -/
def trainSymbols (ctl sts : Quad) (pn : Nat) : List Nat :=
  marker ++ fieldSymbols ctl ++ fieldSymbols sts ++ (prbsSymbols 2 3808 pn).1

/-- The 4,096 UI of a spare from a lane-management word on: marker, the word two bits a UI, and PRBS31Q, which went on under
the 64 UI replaced (R347). -/
def lmwSymbols (w : Quad) (pn : Nat) : List Nat :=
  marker ++ pam4 32 w.toNat ++ (prbsSymbols 3 4032 (prbsSymbols 3 64 pn).2).1

/-! ## Reed-Solomon codes over GF(2^10) (R296) -/

/-- Multiply by x modulo x^10 + x^3 + 1. -/
def gfX (a : Nat) : Nat := if a < 512 then 2 * a else (2 * a) ^^^ 0x409

/-- The product of two field elements. -/
def gfMul (a b : Nat) : Nat :=
  (List.range 10).foldl (fun v i => gfX v ^^^ (if b.testBit (9 - i) then a else 0)) 0

/-- The generator polynomial with roots x^0 to x^(m − 1), highest coefficient first, and x^m. -/
def rsGen : Nat → List Nat × Nat
  | 0 => ([1], 1)
  | m + 1 =>
    let (g, r) := rsGen m
    ((g ++ [0]).zipWith (· ^^^ ·) (0 :: g.map (gfMul r)), gfX r)

/-- The `m` parity symbols of a message, both highest first: the remainder of the message times x^m (PRESUMED field and
generator of IEEE 802.3, log 86). -/
def rsParity (m : Nat) (msg : List Nat) : List Nat :=
  let g := (rsGen m).1.drop 1
  msg.foldl (fun p d =>
    let f := d ^^^ p.headD 0
    (p.drop 1 ++ [0]).zipWith (· ^^^ ·) (g.map (gfMul f))) (List.replicate m 0)

/-- A codeword of the message bits `v`: `k` message symbols and `m` parity symbols, the parity inverted when `inv`. -/
def codeword (k m v : Nat) (inv : Bool) : List Nat :=
  let msg := (List.range k).map (fun i => fld v (10 * i) 10)
  msg ++ (rsParity m msg).map (fun p => if inv then p ^^^ 1023 else p)

/-! ## The streams of a team -/

/-- The streams of team `t`. -/
def State.phy (s : State) (t : Nat) : Phy := SMap.get (fun _ => Phy.reset) s.phys t
/-- Change the streams of team `t`. -/
def State.modPhy (s : State) (t : Nat) (f : Phy → Phy) : State :=
  { s with phys := SMap.set (fun _ => Phy.reset) s.phys t (f (s.phy t)) }

/-- Team `t`. -/
def State.team (s : State) (t : Nat) : Team := SMap.get (fun _ => Team.reset) s.teams t

/-- The transmit spare of team `t` carries the symbols of position `i`: it mirrors it, or has stood in for it since
training (R342, R348). -/
def State.onSpare (s : State) (t i : Nat) : Bool := decide ((s.team t).mirror = some i) || decide ((s.team t).txFor = some i)

/-- The data lanes of team `t` carry their symbols, and the spare those of the lane that it stands for, as a ninth. -/
def State.sendLanes (s : State) (t : Nat) (syms : List (List Nat)) : State :=
  s.drive (.lanes t (syms ++ ((List.range 8).filter (fun i => s.onSpare t i)).map (fun i => syms.getD i [])))

/-- Position `i` of team `t` has sent a training frame: its PRBS13Q has gone on (R338). -/
def State.pnFrame (s : State) (t i : Nat) : State :=
  s.modPhy t (fun y => { y with pn13 := SMap.set (fun _ => 0x1FFF) y.pn13 i (prbsSymbols 2 3808 (SMap.get (fun _ => 0x1FFF) y.pn13 i)).2 })

/-- An idle spare of team `t` sends a lane-management word and 4,032 UI of PRBS31Q (R347). -/
def State.sendLmw (s : State) (t : Nat) (w : Quad) : State :=
  (s.modPhy t (fun y => { y with pn31 := (prbsSymbols 3 4096 y.pn31).2 })).drive (.lmw t w (s.phy t).pn31)

/-- Training puts nothing in codewords: the codeword being filled and the count of tag slots start anew after it
(DEDUCED, log 86). -/
def State.restartPhy (s : State) (t : Nat) : State :=
  s.modPhy t (fun y => { y with bits := 0, fill := 0, inv := false, slots := 0 })

/-- Message and parity symbols of the FEC of a class (R296): none in class P, RS(272,257) in class B, RS(544,514) in
classes C and O. -/
def fecOf : Nat → Option (Nat × Nat)
  | 0 => none
  | 1 => some (257, 15)
  | _ => some (514, 30)

/-- The FEC of team `t`, by its class (R359). -/
def State.teamFec (s : State) (t : Nat) : Option (Nat × Nat) := fecOf (s.rf (0xD000 + 0x100 * t) 0 2)

/-- One tag slot on the forwarded-clock lane of team `t`. -/
def State.sendSlot (s : State) (t tag : Nat) : State := s.drive (.clock t (tagSymbols tag) (s.onSpare t 9))

/-- Scrambled bits `v` of a body enter the stream of team `t`, the scrambler standing at `scr` after them (R296): in
class P they go on the lanes by bytes; in the other classes they fill codewords, and one that is full is sent. With `inv`
the parity of the codeword that holds the body's first bit is inverted (R323). -/
def State.sendBits (s : State) (t v scr : Nat) (inv : Bool) : State :=
  let x := s.phy t
  match s.teamFec t with
  | none => (s.modPhy t (fun y => { y with scr := scr })).sendLanes t (laneSymbols 8 ((List.range 256).map (fun i => fld v (8 * i) 8)))
  | some (k, m) =>
    let bits := x.bits + v * 2 ^ x.fill
    let fill := x.fill + 2048
    let inv' := x.inv || inv
    if fill < 10 * k then s.modPhy t (fun y => { y with scr := scr, bits := bits, fill := fill, inv := inv' })
    else
      (s.modPhy t (fun y => { y with scr := scr, bits := bits / 2 ^ (10 * k), fill := fill - 10 * k, inv := false })).sendLanes t
        (laneSymbols 10 (codeword k m (bits % 2 ^ (10 * k)) inv'))

/-- A body enters the stream of team `t` scrambled (R291). -/
def State.sendBody (s : State) (t : Nat) (body : BitVec 2048) (inv : Bool) : State :=
  let r := scramble 2048 (s.phy t).scr body.toNat
  s.sendBits t r.1 r.2 inv

/-- A body of team `t` has taken its slot; in the classes with FEC 1,360 tag slots come in the time of 1,285 bodies:
whether one more tag slot has come than bodies need (R292, R293). -/
def State.slotDue (s : State) (t : Nat) : Bool × State :=
  match s.teamFec t with
  | none => (false, s)
  | some _ =>
    let n := (s.phy t).slots + 75
    if 1285 ≤ n then (true, s.modPhy t (fun y => { y with slots := n - 1285 }))
    else (false, s.modPhy t (fun y => { y with slots := n }))

/-- What the codewords that a received body overlaps show (R297): symbols corrected, codewords not correctable, and
whether the body is to be discarded. A codeword is counted with the first body that overlaps it; more symbols in error
than half the parity cannot be corrected (DEDUCED, log 86). -/
def State.rxFec (s : State) (f : RxFlit) : Nat × Nat × Bool :=
  match s.teamFec f.team with
  | none => (0, 0, false)
  | some (_, m) =>
    let new := f.errs.drop (if f.shared then 1 else 0)
    let bad := fun (n : Nat) => decide (m / 2 < n)
    (new.foldl (fun a n => if bad n then a else a + n) 0, (new.filter bad).length, f.errs.any bad)

end Sys2Proof.Machine
end

