-- ==== Sys2Proof/Machine/LinkOps.lean ====
section
/-! DEFINITION. Shared operations of a link port: tags and flits, control flits, and the changes of its
state with what happens to its teams, towpaths and buffers (R292 to R321, R360). -/

namespace Sys2Proof.Machine

/-! ## Lifetime spare log (R505) -/

/-- A word of the live lifetime body. -/
def State.lifeWord (s : State) (off : Nat) : Word := SMap.get (fun _ => 0) s.life.live off
/-- Count in the live lifetime body, saturating. -/
def State.lifeInc (s : State) (off : Nat) : State :=
  { s with life := { s.life with live := SMap.set (fun _ => 0) s.life.live off (satInc (s.lifeWord off)) } }

/-- Make a spare-log entry: SUMMARY, TOTAL, EV_LIFE (R505, R509). -/
def State.spareLog (s : State) (kind inst detail : Nat) : State :=
  let p := s.lifeWord 0x008
  let e : Word × Word × Word × Word :=
    (BitVec.ofNat 32 (put kind 0 8 + put inst 8 8 + put detail 16 8), p,
      BitVec.ofNat 32 s.time, BitVec.ofNat 32 (s.time / 2 ^ 32))
  let l := s.life.spare ++ [e]
  let s1 := (s.lifeInc (0x060 + 4 * (kind - 1))).lifeInc 0x684
  let s2 := { s1 with life := { s1.life with spare := l.drop (l.length - 64) } }
  s2.emit (0x94 + put kind 8 8 + put inst 16 8 + put detail 24 8 + put p.toNat 32 32)

/-! ## Teams of a port (R327, R355) -/

/-- Change team `t`. -/
def State.modTeam (s : State) (t : Nat) (f : Team → Team) : State :=
  { s with teams := SMap.set (fun _ => Team.reset) s.teams t (f (s.team t)) }

/-- The port the harness map gives team `t`; 15 for none. -/
def State.teamPort (s : State) (t : Nat) : Nat := s.rf (0xC004 + 4 * (t / 8)) (4 * (t % 8)) 4
/-- The teams of port `p`, ascending. -/
def State.portTeams (s : State) (p : Nat) : List Nat := (List.range 16).filter (fun t => s.teamPort t = p)
/-- The quay of team `t` is powered (R357). -/
def State.quayOn (s : State) (t : Nat) : Bool := !((s.reg 0xC000).toNat / 2 ^ 16).testBit (t / 4)

/-- Change the state of every team of a port that satisfies a condition. -/
def State.setTeams (s : State) (p : Nat) (which : Team → Bool) (st : TeamSt) : State :=
  (s.portTeams p).foldl (fun a t => if which (a.team t) then a.modTeam t (fun x => { x with st := st }) else a) s

/-! ## Monitors (R436) -/

/-- A monitor (R436). -/
def State.mon (s : State) (i : Nat) : Monitor := SMap.get (fun _ => Monitor.reset) s.mons i
/-- Change a monitor. -/
def State.modMon (s : State) (i : Nat) (f : Monitor → Monitor) : State :=
  { s with mons := SMap.set (fun _ => Monitor.reset) s.mons i (f (s.mon i)) }

/-! ## Tags and flits (R294, R295) -/

/-- The CRC-32C of a tag with its body: the body's bytes unless the tag is NULL, then tag bits [79:0]. -/
def tagCrc (tag : Nat) (body : BitVec 2048) : Nat :=
  crc32c ((if tag % 4 = 0 then [] else leBytes 256 body.toNat) ++ leBytes 10 (fld tag 0 80))

/-- Virtual channels in the order of credit reports (R306). -/
def repOrder : List Nat := [5, 0, 1, 2, 3, 4]

/-- The next virtual channel to report on port `p`: its place in the rotation and its code. -/
def Link.nextReport (l : Link) : Option (Nat × Nat) :=
  ((List.range 6).map (fun i => (l.repVc + 1 + i) % 6)).findSome? (fun i =>
    let v := repOrder.getD i 0
    if l.freed.getD v 0 ≠ l.told.getD v 0 then some (i, v) else none)

/-- The hop queue of IN_PORT `p` to report next: the rotation is over the entries whose counter has changed. -/
def State.nextTow (s : State) (p : Nat) : Option (Nat × Tow) :=
  let l := s.tows.filter (fun e => decide (e.2.freed ≠ e.2.told) && decide (s.ff (0xB000 + 32 * e.1) 4 4 = p))
  (l.find? (fun e => decide ((s.link p).repTow < e.1))).orElse (fun _ => l.head?)

/-- Reverse-direction fields of a tag that port `p` sends, and the state with its reports noted as made (R300, R306).
In fenced idle: FENCE 1, ACKSEQ frozen, NAK 0, no reports (R313). -/
def State.tagBack (s : State) (p : Nat) : Nat × State :=
  let l := s.link p
  if l.st = .fenced then (put l.e 28 12 + put 1 41 1 + put 7 42 3, s)
  else
    let ack := put l.e 28 12 + put (b2n l.nak) 40 1
    let (tw, s1) := match s.nextTow p with
      | some (t, x) => (put 1 53 1 + put x.upTag 54 7 + put x.freed 61 3,
          (s.modTow t (fun x => { x with told := x.freed })).modLink p (fun l => { l with repTow := t }))
      | none => (0, s)
    match l.nextReport with
    | some (i, v) =>
      (ack + tw + put v 42 3 + put (l.freed.getD v 0) 45 8,
        s1.modLink p (fun l => { l with repVc := i, told := setAt l.told v (l.freed.getD v 0) }))
    | none => (ack + tw + put 7 42 3, s1)

/-- A body of a compatibility port (R322): 240 bytes and the link word, made from the tag's fields; its CRC-32C
inverted when `bad`. -/
def compatBody (tag : Nat) (body : BitVec 2048) (bad : Bool) : BitVec 2048 :=
  let w := fld tag 0 2 + put (fld tag 2 12) 2 12 + put (fld tag 28 12) 14 12 + put (fld tag 40 1) 26 1
    + put (fld tag 14 3) 27 3 + put (fld tag 17 2) 30 2 + put (fld tag 42 3) 32 3 + put (fld tag 45 8) 35 8
  let b := body.toNat % 2 ^ 1920 + w * 2 ^ 1920
  let c := crc32c (leBytes 252 b)
  BitVec.ofNat 2048 (b + (if bad then c ^^^ 0xFFFFFFFF else c) * 2 ^ 2016)

/-- A tag with its CRC32, inverted when `bad`. -/
def sealTag (tag : Nat) (body : BitVec 2048) (bad : Bool) : Nat :=
  let c := tagCrc tag body
  tag + put (if bad then c ^^^ 0xFFFFFFFF else c) 80 32

/-- A null body, with a NULL tag in its slot, on team `team` of port `p` (R291, R293); on a compatibility port a body
of KIND 0. -/
def State.sendNull (s : State) (p team : Nat) (body : Bool) : State :=
  let (back, s1) := s.tagBack p
  if s.portCompat p then
    let b := compatBody back 0 false
    (s1.drive (.flit p team 0 b)).sendBody team b false
  else
    let tag := sealTag back 0 false
    let s2 := (s1.drive (.nullTag p team (BitVec.ofNat 112 tag))).sendSlot team tag
    if body then s2.sendBody team 0 false else s2

/-- A tag slot beside those of the bodies, where one has come, carries a NULL tag (R293). -/
def State.spareSlot (s : State) (p team : Nat) : State :=
  let (due, s1) := s.slotDue team
  if due then s1.sendNull p team false else s1

/-- The frame slot of the next flit of a port (R270). -/
def Link.pass (l : Link) : Link := { l with slot := (l.slot + 1) % 64 }

/-- Drive a flit on team `team` of port `p`: tag fields and body, its CRC32 inverted when `bad`, the parity of its
codeword when `fec` (R323). Its tag goes in the tag slot at hand, so that the tag queue of R293 is never longer than
one. A compatibility port has no tag channel (R322). -/
def State.driveFlit (s : State) (p team tag : Nat) (body : BitVec 2048) (bad : Bool := false) (fec : Bool := false) : State :=
  let s0 := s.modLink p Link.pass
  if s.portCompat p then
    let b := compatBody tag body bad
    (s0.drive (.flit p team 0 b)).sendBody team b fec
  else
    let g := sealTag tag body bad
    ((((s0.drive (.flit p team (BitVec.ofNat 112 g) body)).sendSlot team g).sendBody team body fec)).spareSlot p team

/-- One body time passes on a port with nothing to carry: every usable team sends a null body and a NULL tag; a port
that trains has only tags once it has tag lock (R291, R293, R309, R313). -/
def State.idlePort (s : State) (p : Nat) : State :=
  let l := s.link p
  match l.st with
  | .off => s
  | .training | .retrain =>
    if l.tagLock ∧ ¬ s.portCompat p then l.teams.foldl (fun t k => t.sendNull p k false) s else s
  | _ => l.teams.foldl (fun t k => (t.modLink p Link.pass).sendNull p k true) s

/-- One body time passes on every port. -/
def State.idlePorts (s : State) : State := (List.range 12).foldl (fun t p => t.idlePort p) s

/-- Take the injection of DX_LNK{p}_INJ if armed: invert the CRC32, and the FEC parity where FEC is set (R323). -/
def State.takeLnkInj (s : State) (p : Nat) : (Bool × Bool) × State :=
  let off := 0x824 + 0x40 * p
  let v := (s.reg off).toNat
  if v.testBit 0 then ((true, v.testBit 1), (s.clrReg off 1).orReg off 4) else ((false, false), s)

/-- The team that the rotation gives the next sequenced flit, and the rotation moved on (R298). -/
def State.nextTeam (s : State) (p : Nat) : Nat × State :=
  let l := s.link p
  (l.teams.getD l.rot (l.teams.headD 0),
    s.modLink p (fun l => { l with rot := if l.teams.length = 0 then 0 else (l.rot + 1) % l.teams.length }))

/-- Transmit a sequenced flit, new or replayed: its team, its injection, the tag's reverse fields (R298, R301). -/
def State.transmit (s : State) (p core fseq : Nat) (body : BitVec 2048) : State :=
  let ((bad, fec), s0) := s.takeLnkInj p
  let (team, s1) := s0.nextTeam p
  let (back, s2) := s1.tagBack p
  s2.driveFlit p team (core + put fseq 2 12 + back) body bad fec

/-- Send a new sequenced flit on port `p`: number it, keep it in the replay buffer, transmit it (R298, R299). In
RETRAIN it waits in the buffer for the replay that ends it (R312). `core` is the tag's bits [27:0] without FSEQ. -/
def State.sendSeq (s : State) (p core : Nat) (body : BitVec 2048) : State :=
  let l := s.link p
  let wait := decide (l.st = .retrain)
  let s1 := s.modLink p (fun l => { l with
    fseq := (l.fseq + 1) % 4096
    replay := l.replay ++ [⟨l.fseq, core, body, if wait then 0 else 1, s.now⟩] })
  let acc := SMap.get (fun _ => CmapAcc.reset) s1.cmap p
  let s2 := if core % 4 = 1 then
      let more : CmapAcc := { acc with flits := acc.flits + 1, tow := acc.tow + (core / 2 ^ 19) % 2 }
      { s1 with cmap := SMap.set (fun _ => CmapAcc.reset) s1.cmap p more }
    else s1
  let s3 := if l.replay = [] then s2.modMon p (fun _ => ⟨true, s.now, false⟩) else s2
  if wait then s3 else s3.transmit p core l.fseq body

/-- Send an unsequenced control flit on a team of port `p`. -/
def State.sendUnseq (s : State) (p kind : Nat) (body : BitVec 2048) (team : Nat := (s.link p).teams.headD 0) : State :=
  let (back, s1) := s.tagBack p
  s1.driveFlit p team (kind + back) body

/-! ## Packets on their way out (R262, R315) -/

/-- Send one flit of a packet on port `q` as virtual channel `v`, or on a towpath (R294, R306); with `abn` it is zero and
marked abandoned (R315). -/
def State.sendData (s : State) (q v : Nat) (tow : Option Nat) (first last abn : Bool) (body : BitVec 2048) : State :=
  s.sendSeq q (1 + put v 14 3 + (match tow with | some t => 2 ^ 19 + put t 20 7 | none => 0)
    + put (b2n first) 17 1 + put (b2n last) 18 1 + put (b2n abn) 27 1) (if abn then 0 else body)

/-- Every packet on its way through the block: basins, injection point, hop queues. -/
def State.allHeld (s : State) : List Held :=
  (List.range 12).flatMap (fun p => (s.link p).basin) ++ s.inj ++ s.tows.flatMap (fun e => e.2.queue)

/-- The head of a packet has left on port `q`. -/
def Held.leftOn (h : Held) (q : Nat) : Bool := match h.out with
  | some (p, _, _) => decide (p = q) && decide (0 < h.sent)
  | none => false

/-- Some packet has left on port `q` in part. -/
def State.startedOn (s : State) (q : Nat) : Bool := s.allHeld.any (fun h => h.leftOn q)

/-- Count a packet abandoned on a port (R315). -/
def State.abandon (s : State) (p : Nat) : State := if p < 12 then s.incReg (0x820 + 0x40 * p) else s

/-- The rest of a packet that has left in part is lost: it is completed with zero flits marked ABN while its port still
sends, and counted there (R315). -/
def State.abandonRest (s : State) (h : Held) : State :=
  match h.out with
  | none => s
  | some (q, v, tow) =>
    if h.sent = 0 then s
    else
      let n := max 1 (flitsOf (payLen h.pkt.opcode h.pkt.len) - h.sent)
      let t := match (s.link q).st with
        | .active | .draining | .retrain =>
          (List.range n).foldl (fun t i => t.sendData q v tow false (decide (i + 1 = n)) true 0) s
        | _ => s
      if h.abn.isSome then t else t.abandon q

/-- The packet belongs to the block's own partition. -/
def State.ownKey (s : State) (p : Packet) : Bool := keyedOp p.opcode && decide (p.pkey = s.ident.pkey.toNat)

/-- Count a dropped packet by its partition key for the lock cycle (R287). -/
def State.countDrop (s : State) (p : Packet) : State :=
  if keyedOp p.opcode then s.modCount p.pkey (fun c => { c with drop := c.drop + 1 }) else s

/-- A held packet is discarded: counted, and abandoned where it has left in part. -/
def State.discard1 (s : State) (h : Held) : State := (s.countDrop h.pkt).abandonRest h

/-- A towpath entry that has drained its hop queue goes OFF; a held enable starts it again (R273, R274). -/
def State.towDrained (s : State) (t : Nat) : State :=
  let x := s.tow t
  if x.st = .draining ∧ s.ff (0xB000 + 32 * t) 1 2 ≠ 0 ∧ x.queue = [] then
    s.modTow t (fun x => { x with st := if x.enPend then Life.starting else Life.off, en := x.enPend, enPend := false })
  else s

/-- Discard every packet that satisfies `which` in basins, berths, hop queues and the injection point; each frees
its berth. -/
def State.discardHeld (s : State) (which : Held → Bool) : State :=
  let s1 := (List.range 12).foldl (fun t p =>
    (t.link p).basin.foldl (fun u h =>
      if which h then
        (u.modLink p (fun l => { l with
          freed := if h.share < 6 then setAt l.freed h.share ((l.freed.getD h.share 0 + 1) % 256) else l.freed })).discard1 h
      else u) (t.modLink p (fun l => { l with basin := l.basin.filter (fun h => !(which h)) }))) s
  let s2 := s1.tows.foldl (fun t (e, x) =>
    let gone := x.queue.filter which
    let u := (t.modTow e (fun y => { y with
      queue := y.queue.filter (fun h => !(which h)), freed := (y.freed + gone.length) % 8 })).towDrained e
    gone.foldl (fun u h => u.discard1 h) u) s1
  let out := (s2.eject ++ s2.inj).filter which
  out.foldl (fun t h => t.discard1 h)
    { s2 with eject := s2.eject.filter (fun h => !(which h)), inj := s2.inj.filter (fun h => !(which h)) }

/-! ## Control flits (R317, R319) -/

/-- The body of a control flit: CTYPE and its fields. -/
def ctlBody (ctype fields : Nat) : BitVec 2048 := BitVec.ofNat 2048 (ctype + fields)

/-- Send the control flits that wait, as far as the replay buffer has room (R299); a HALT_MARK, and what follows it, waits
for the packets whose heads have left (R319). -/
def State.flushCtl (s : State) (p : Nat) : State :=
  let l := s.link p
  if l.st ≠ .active ∧ l.st ≠ .draining then s
  else
    let now := l.ctlWait.take (1024 - l.replay.length)
    let go := if s.startedOn p then now.takeWhile (fun e => decide (e.1 ≠ 0x10)) else now
    go.foldl (fun a (_, b) => a.sendSeq p 2 b) (s.modLink p (fun l => { l with ctlWait := l.ctlWait.drop go.length }))

/-- Precedence of sequenced control flits (R319): ABORT, then HALT_MARK, then the rest. -/
def ctlRank (ctype : Nat) : Nat := if ctype = 0x20 then 0 else if ctype = 0x10 then 1 else 2

/-- Send a sequenced control flit: it takes its place among those that wait by R319; on a port in RETRAIN it waits, sent
first when the port is ACTIVE again (R441). A compatibility port carries none (R322). -/
def State.sendCtl (s : State) (p ctype fields : Nat) : State :=
  if s.portCompat p then s
  else match (s.link p).st with
  | .active | .draining | .retrain =>
    let before := fun (e : Nat × BitVec 2048) => decide (ctlRank e.1 ≤ ctlRank ctype)
    (s.modLink p (fun l => { l with
      ctlWait := l.ctlWait.filter before ++ [(ctype, ctlBody ctype fields)] ++ l.ctlWait.filter (fun e => !(before e)) })).flushCtl p
  | _ => s

/-- The fields of LINK_PARAM on port `p` (R317): identity, direction, teams, class, rate, shares, time
stamps, E. -/
def State.paramFields (s : State) (p : Nat) : Nat :=
  let l := s.link p
  let ts := s.portTeams p
  let cfg := (s.reg (0xD000 + 0x100 * ts.headD 0)).toNat
  let c0 := (s.reg 0x308).toNat
  let c1 := (s.reg 0x30C).toNat
  put 0x7E13D320 32 32 + put s.ident.chip.toNat 64 18 + put (b2n s.ident.valid) 95 1
    + put (s.portDir p) 96 8 + put l.teams.length 104 8 + put (fld cfg 0 2) 112 8 + put (fld cfg 2 3) 120 8
    + put c0 128 32 + put c1 160 24
    + put s.time 192 64 + put l.peer.tTx 256 64
    + put (if l.peer.valid then s.time - l.peer.rxAt else 0) 320 64 + put l.e 384 16

/-- Send LINK_PARAM on every team of port `p` (R310, R311). -/
def State.sendParam (s : State) (p : Nat) : State :=
  ((s.link p).teams.foldl (fun t k => t.sendUnseq p 3 (ctlBody 0x01 (s.paramFields p)) k) s).modLink p
    (fun l => { l with paramAt := s.now, stamps := (if l.st = .active then [] else l.stamps) ++ [s.time] })

/-- Send LINK_PARAM again on every ACTIVE port, after DX_CHIP_NUM or the coordinate map changed (R311). -/
def State.resendParams (s : State) : State :=
  (List.range 12).foldl (fun a p => if (a.link p).st = .active then a.sendParam p else a) s

/-! ## Towpaths on a port (R274) -/

/-- A towpath entry goes OFF at once and reads EN 0; its hop queue is discarded, a held enable cleared
(R274, R446). -/
def State.towKill (s : State) (t : Nat) : State :=
  (s.tow t).queue.foldl (fun u h => u.discard1 h) (s.modTow t (fun x => { x with
    st := .off, en := false, enPend := false, avail := 0, hopCred := 0
    freed := (x.freed + x.queue.length) % 8, queue := [] }))

/-- Every towpath entry in use of a port goes OFF (R274: IN_PORT or OUT_PORT fenced). -/
def State.towFence (s : State) (p : Nat) : State :=
  s.tows.foldl (fun a (t, x) =>
    let b := 0xB000 + 32 * t
    if (x.st ≠ .off ∨ x.en) ∧ (s.ff b 4 4 = p ∨ s.ff b 8 4 = p) then a.towKill t else a) s

/-! ## Link states (R312 to R316) -/

/-- The port stops awaiting a HALT_MARK, and its own marker needs no acknowledgement (R455). -/
def State.haltForget (s : State) (p : Nat) : State :=
  { s with halt := { s.halt with
      awaited := s.halt.awaited.filter (fun q => decide (q ≠ p))
      sent := s.halt.sent.filter (fun q => decide (q ≠ p)) } }

/-- What FENCED and OFF discard of a port's own state (R314): replay buffer, credits, flits that wait. -/
def Link.discard (l : Link) : Link :=
  { l with replay := [], replayAt := none, cred := [0, 0, 0, 0, 0, 0], ctlWait := [], nak := false,
           fenceRun := [], tagLock := false, goodParams := 0, dropAsk := [], stamps := [] }

/-- Packets that lose their port with `p` in FENCED or OFF (R314): those partly received on it are dropped, those partly
forwarded from it abandoned; hop queues credited through it hold no credit. -/
def State.cutPackets (s : State) (p : Nat) : State :=
  let s1 := s.discardHeld (fun h => (h.more && decide (h.port = p)) || h.leftOn p)
  (s1.tows.map (·.1)).foldl (fun t e =>
    if t.ff (0xB000 + 32 * e) 8 4 = p then t.modTow e (fun x => { x with hopCred := 0 }) else t) s1

/-- The code of a TSTATE (R482). -/
def tsCode : TimeSt → Nat
  | .free => 0
  | .acquire => 1
  | .locked => 2
  | .holdover => 3

/-- Time steering enters a state: EV_TIME; HOLDOVER is counted and raises FLT_TIME_LOSS (R482, R484, R486). -/
def State.setTime (s : State) (st : TimeSt) : State :=
  if s.ts.st = st then s
  else
    let s1 := { s with ts := { s.ts with st := st, good := 0, missed := 0, stepped := false, corr := 0 } }.emit
      (0x85 + put (tsCode st) 8 2)
    if st = .holdover then (s1.putField 0xF04C 16 16 (min 65535 (s1.rf 0xF04C 16 16 + 1))).raise 0x7E 0 1 else s1

/-- Port `p` leaves ACTIVE: a LOCKED block whose PARENT it is goes into HOLDOVER (R484). Only LOCKED keeps a
frequency term to hold (DEDUCED, log 25). -/
def State.parentLost (s : State) (p : Nat) : State :=
  if s.ts.st = .locked ∧ s.rf 0xF048 2 4 = p ∧ (s.link p).st = .active then s.setTime .holdover else s

/-- Put port `p` into FENCED with a CAUSE (R312 to R314): a held enable is cleared (R446), attempts to
retrain its teams are abandoned (R360), and its transmitter begins fenced idle (R313). A port OFF, or already FENCED, is
unchanged. -/
def State.fencePort (s : State) (p cause : Nat) : State :=
  let l := s.link p
  if l.st = .off ∨ l.st = .fenced then s
  else
    let s1 := (s.parentLost p).modLink p (fun l => { l.discard with
      st := .fenced, cause := cause, enPend := false, since := s.now })
    let s2 := (s.portTeams p).foldl (fun a t => a.modTeam t (fun x =>
      match x.st with
      | .retraining | .training =>
        { x with st := if l.st = .retrain ∧ l.teams.contains t then TeamSt.usable else TeamSt.dropped
                 retryAt := none, call := none }
      | _ => { x with retryAt := none, call := none })) s1
    ((((s2.towFence p).cutPackets p).haltForget p).modMon p (fun _ => Monitor.reset)).idlePort p

/-- The three taps CM2, CM1, CP1 of a preset (R337). -/
def presetTaps : Nat → Int × Int × Int
  | 2 => (0, -4, 0)
  | 3 => (0, -4, -8)
  | 4 => (2, -10, -4)
  | 5 => (0, 0, -12)
  | _ => (0, 0, 0)

/-- A lane at the start of lane training: at INIT_PRESET (`preset`), or with the coefficients in force (R342,
R343). -/
def Lane.begin (y : Lane) (preset : Option Nat) : Lane :=
  let (a, b, c) := match preset with
    | some n => presetTaps n
    | none => (y.cm2, y.cm1, y.cp1)
  { y with bad := false, lost := false, miswire := false, train := .open_, far := .open_, asks := 0, ans := false, ask := 0, low := 0, sts := 0, echo := 0, seen := 0,
           cm2 := a, cm1 := b, cp1 := c }

/-- Lane training of a team begins: with INIT_PRESET everything afresh; in RETRAIN spare use stands until it is
decided again (R342, R343). -/
def Team.begin (x : Team) (st : TeamSt) (preset : Option Nat) : Team :=
  { x with
    st := st, ever := true, spareBad := false, call := none
    spareFor := if preset.isSome then none else x.spareFor
    txFor := if preset.isSome then none else x.txFor
    mirror := if preset.isSome then none else x.mirror
    ack := none, arm := none
    holdover := false, clockBad := false, tagLock := false, retryAt := none, trained := false
    lanes := x.lanes.map (fun y => y.begin preset) }

/-- INIT_PRESET of team `t`. -/
def State.initPreset (s : State) (t : Nat) : Option Nat := some (s.rf (0xD000 + 0x100 * t) 5 3)

/-- Training of port `p` begins (R310): TRAINING, its teams train afresh. Packets still held in the basin return no
credit to the new peer (DEDUCED, log 21). -/
def State.trainPort (s : State) (p : Nat) : State :=
  let s1 := s.modLink p (fun l => { l.discard with
    st := .training, enPend := false, heldEn := false, teams := [], fseq := 0, e := 0, acked := 0
    freed := [0, 0, 0, 0, 0, 0], told := [0, 0, 0, 0, 0, 0], seen := [0, 0, 0, 0, 0, 0]
    peer := { Peer.reset with chip := l.peer.chip, dir := l.peer.dir }, since := s.now
    basin := l.basin.map (fun h => { h with share := 7 }) })
  (s.portTeams p).foldl (fun a t => (a.modTeam t (fun x =>
    if x.st = .prbs then x else { x.begin .training (s.initPreset t) with attempts := 0 })).restartPhy t) s1

/-- Port `p` reaches OFF: every team of it reads OFF; a held enable begins training (R312, R360). -/
def State.offPort (s : State) (p : Nat) : State :=
  let pend := (s.link p).enPend
  let s1 := s.modLink p (fun l => { l.discard with
    st := .off, enPend := false, heldEn := false, teams := [], mgtOnly := false, since := s.now
    peer := { l.peer with valid := false } })
  let s2 := ((s1.setTeams p (fun x => decide (x.st ≠ .prbs)) .off).cutPackets p).haltForget p
  if pend then s2.trainPort p else s2

/-- Port `p` goes from ACTIVE into RETRAIN (R312, R316, R343): the teams in the rotation and the dropped ones
retrain, swaps and attempts are abandoned, the spare log gets its entry. With `drain` a DRAINING port goes too, and
drains on when it comes back (R301; DEDUCED, log 87). -/
def State.retrainPort (s : State) (p reason : Nat) (send : Bool) (drain : Bool := false) : State :=
  if (s.link p).st ≠ .active ∧ ¬ (drain ∧ (s.link p).st = .draining) then s
  else
    let s0 := (if send && !s.portCompat p then s.sendUnseq p 3 (ctlBody 0x03 (put reason 32 8)) else s).parentLost p
    let s1 := s0.modLink p (fun l => { l with
      st := .retrain, drain := decide (l.st = .draining), since := s.now, goodParams := 0, tagLock := false, fenceRun := [], dropAsk := []
      replayAt := none })
    let s2 := (s.portTeams p).foldl (fun a t => (a.modTeam t (fun x => x.begin .retraining none)).restartPhy t) s1
    ((s2.haltForget p).incReg (0x81C + 0x40 * p)).spareLog 8 p reason

/-- A draining port has sent and had acknowledged everything: it goes OFF (R312). -/
def State.drainDone (s : State) (p : Nat) : State :=
  let l := s.link p
  if l.st = .draining ∧ l.replay = [] ∧ ¬ s.startedOn p then s.offPort p else s

/-- A fault stands against FENCED port `p` (R312): the block in F2 or F3, or a source whose instance is that
port in AWAIT_ACK or FATAL. -/
def State.standing (s : State) (p : Nat) : Bool :=
  s.fenced || s.flt.src.any (fun e =>
    decide (e.1 % 64 = p) && (decide (e.2.st = .awaitAck) || decide (e.2.st = .fatal))
      && (decide (0x30 ≤ e.1 / 64 ∧ e.1 / 64 ≤ 0x39) || decide (0x50 ≤ e.1 / 64 ∧ e.1 / 64 ≤ 0x58)
        || decide (e.1 / 64 ∈ [0x17, 0x18, 0x70, 0x71, 0x73, 0x75])))

/-- The replay timeout of AUTO_TO for a round trip in 0.25 ns, capped to 100 µs over RETRY_MAX (R318). -/
def autoTo (rtt retry : Nat) : Nat := min ((2 * rtt + 256 + 255) / 256) (min 255 (100000 / (64 * max 1 retry)))

/-- A port reaches ACTIVE: after bring-up (`fresh`) with credits from the peer's shares and EV_LNK_UP (R310 step 6),
after RETRAIN with the flits that waited sent first; a port that drained before RETRAIN drains on. REPLAY_TO is set
where AUTO_TO is 1 (R318). -/
def State.activePort (s : State) (p : Nat) (fresh : Bool) : State :=
  let l := s.link p
  let c := (s.reg (0x800 + 0x40 * p)).toNat
  let s1 := s.modLink p (fun l => { l with
    st := if l.drain && !fresh then .draining else .active, drain := false, since := s.now
    toUse := if c.testBit 2 then autoTo l.rtt (fld c 11 4) else max 1 (fld c 3 8)
    cred := if fresh then (List.range 6).map (fun v => l.peer.shares.getD v 0) else l.cred })
  let s2 := (s.portTeams p).foldl (fun a t =>
    a.modTeam t (fun x => if l.teams.contains t then { x with st := .usable } else x)) s1
  let s3 := if fresh then s2.emit (0x40 + put p 8 4 + put l.teams.length 12 4) else s2
  s3.flushCtl p

/-- Port `p` is DEGRADED: fewer usable teams than the harness map assigns (R318). -/
def State.degraded (s : State) (p : Nat) : Bool :=
  (decide ((s.link p).st = .active) || decide ((s.link p).st = .draining) || decide ((s.link p).st = .retrain))
    && decide ((s.link p).teams.length < (s.portTeams p).length)

end Sys2Proof.Machine
end

