-- ==== Sys2Proof/Machine/ChanOps.lean ====
section
/-! DEFINITION. Shared operations of a command channel: what holds its starts and fragments, failing a
fragment, draining (R55, R56, R61, R73, R130, R131), and starting a command. -/

namespace Sys2Proof.Machine

/-! ## What holds a partition's work -/

/-- The block halts its own partition (R455). -/
def State.haltOwn (s : State) : Bool := decide (s.halt.st ≠ .run) && decide (s.halt.key = s.ident.pkey)

/-- Lock cycle between LOCK and RELEASE (R287). -/
def State.lockHold (s : State) : Bool := decide (s.tbl.phase = .locked) || decide (s.tbl.phase = .swapped)

/-- The block may form request packets of its partition now: no partition fence, abort hold, halt or lock
(R25, R287, R442, R455), and it is not in F2 or F3 (R415). -/
def State.mayForm (s : State) : Bool :=
  !s.pfence && !s.abortHold && !s.haltOwn && !s.lockHold && !s.shut

/-- The acknowledge of port `p` is withheld: partition fence, abort hold, halt, lock, 128 loads outstanding or
quarantined, or the port's rein (R25, R278, R287, R388, R442, R455). -/
def State.raWithheld (s : State) (p : Nat) : Bool :=
  let r := s.raPort p
  !s.shut && (s.pfence || s.abortHold || s.haltOwn || s.lockHold || decide (128 ≤ r.loads.length + r.quar.length)
    || !s.reinAdmits (64 + p))

/-! ## Failing a fragment (R130, R131) -/

/-- FAIL_ADDR of a fragment of a command (R131): the source of a GET or LOADS MEM, else the destination. -/
def failAddr (w : CmdWord) (f : Frag) : Quad :=
  BitVec.ofNat 64 (
    if opOf w = opGet then cq w 1 / 2 ^ 46 * 2 ^ 46 + f.src
    else if opOf w = opLoads then cq w 2
    else if opOf w = opAtom then cq w 1
    else if opOf w = opSignal then cf w 1 0 18 * 2 ^ 46
    else cq w 2 / 2 ^ 46 * 2 ^ 46 + f.dst)

/-- Note a failed fragment in its flight: FAILS, and the failed fragment with the lowest index. -/
def Flight.fail (f : Flight) (x : Fail) : Flight :=
  { f with
    fails := f.fails + 1
    fenced := f.fenced || x.fenced
    aborted := f.aborted || x.aborted
    first := match f.first with
      | some y => if x.idx < y.idx then some x else some y
      | none => some x }

/-- Change the flight with start order `ord` of channel `k`. -/
def State.modFlight (s : State) (k ord : Nat) (f : Flight → Flight) : State :=
  s.modChan k (fun c => { c with flights := updFirst (fun x => decide (x.ord = ord)) f c.flights })

/-- The flight with start order `ord` of channel `k`. -/
def State.flightOf (s : State) (k ord : Nat) : Option Flight :=
  (s.chan k).flights.find? (fun f => decide (f.ord = ord))

/-- End the fragment of a slot without success: outcome, or FENCED, or ABORTED. -/
def State.failSlot (s : State) (k : Nat) (x : Slot) (aout : Nat) (fenced aborted : Bool) : State :=
  (s.modChan k (fun c => { c with slots := c.slots.filter (fun y => decide (y.ftag ≠ x.ftag)), progress := s.now })).modFlight
    k x.ord (fun f => f.fail ⟨x.frag.idx, aout, fenced, aborted, failAddr f.word x.frag⟩)

/-- Stop the source reads of a channel's fragments (their data are discarded). -/
def State.dropAhead (s : State) (k : Nat) : State :=
  { s with eng := { s.eng with reads := s.eng.reads.map (fun j =>
      match j.use with
      | .frag c _ => if c = k then { j with live := false } else j
      | _ => j) } }

/-! ## Draining (R55, R56) -/

/-- Channel `k` enters DRAINING, or stays in it: queued words are discarded and counted, a WAIT ends
CANCELLED, fragments not issued never are; collectives are ended by their own rules first. `fence`: a
fragment whose source read is held at the HM ports ends FENCED (R403). -/
def State.drainChan (s : State) (k : Nat) (keepPend fence : Bool) : State :=
  let c := s.chan k
  if c.st = .off then s
  else
    let s1 := (s.dropAhead k).modChan k (fun c => { c with
      st := .draining
      en := false
      enPend := keepPend && c.enPend
      queue := []
      cancels := (List.range c.queue.length).foldl (fun w _ => satInc w) c.cancels
      skip := none
      stop := .no
      flights := c.flights.map (fun f =>
        let g := match f.ahead with
          | some a => if fence then f.fail ⟨a.frag.idx, 0, true, false, failAddr f.word a.frag⟩ else f
          | none => f
        if opOf f.word = opColl then f
        else { g with cancelled := g.cancelled || f.cursor.isSome || (f.ahead.isSome && !fence), cursor := none, ahead := none }) })
    let s2 := c.flights.foldl (fun t f =>
      if opOf f.word ∈ [opWait, opBranch] then t.complete k f 0x05 else t) s1
    s2.settle k

/-- Every outstanding fragment of channel `k` ends ABORTED, and every incomplete transfer with it (R28). -/
def State.abortSlots (s : State) (k : Nat) : State :=
  let s1 := (s.chan k).slots.foldl (fun t x => t.failSlot k x 7 false true) s
  s1.modChan k (fun c => { c with flights := c.flights.map (fun f =>
    if opOf f.word ∈ [opPut, opGet, opCopy, opAtom, opSignal] ∨ (opOf f.word = opLoads ∧ cf f.word 1 0 2 = 1)
      then { f with aborted := true } else f) })

/-- Fragments of every channel that left on port `p` end FENCED: the port was fenced by an F2 or F3 fault
(R130). -/
def State.fenceSlots (s : State) (p : Nat) : State :=
  s.chans.foldl (fun t (k, _) =>
    let t1 := ((t.chan k).slots.filter (fun x => decide (x.port = some p))).foldl
      (fun u x => u.failSlot k x 0 true false) t
    t1.settle k) s

/-! ## Starting a command (R61, R73) -/

/-- The scalar interlocks of R73 are clear for a word. -/
def Chan.interlocks (c : Chan) (w : CmdWord) : Bool :=
  let busy := c.flights.filterMap (fun f => writesScalar f.word)
  (readsScalars w).all (fun i => !busy.contains i) && (match writesScalar w with
    | some i => !busy.contains i
    | none => true)

/-- Every earlier command has finished issuing, or completed (R61). -/
def Chan.prevDone (c : Chan) : Bool :=
  c.flights.all (fun f => isTransfer f.word && f.cursor.isNone && f.ahead.isNone)

/-- The word that channel `k` can start as far as the channel is concerned: everything but a COLL's own entry (R61,
R89, R391). -/
def State.ready (s : State) (k : Nat) : Option CmdWord :=
  let c := s.chan k
  match c.nextWord with
  | none => none
  | some w =>
    if decide (k < 64) && decide (c.st = .on) && decide (c.stop = .no) && c.skip.isNone && c.prevDone && c.interlocks w
        && !(wantsCr w && c.crStall) && !(wantsEv w && s.chanHeld k) && !s.pfence && !s.abortHold && !s.haltOwn && !s.shut
      then some w else none

/-- A COLL must wait to start: its entry is BUSY (R171), or a lock cycle is between LOCK and RELEASE (R192). -/
def State.entryWait (s : State) (w : CmdWord) : Bool :=
  decide (opOf w = opColl) && (s.lockHold || (s.group (cf w 4 0 9)).inst.isSome)

/-- The word that channel `k` can start now. A COLL that waits stays at the head of its queue. -/
def State.startable (s : State) (k : Nat) : Option CmdWord :=
  match s.ready k with
  | none => none
  | some w => if s.entryWait w then none else some w

/-- Channel `k` has a COLL that waits for entry `g`. -/
def State.waitsFor (s : State) (k g : Nat) : Bool :=
  match s.ready k with
  | some w => decide (opOf w = opColl) && decide (cf w 4 0 9 = g)
  | none => false

/-- A packet of the instance in progress on entry `g`, of channel `own`, moves the progress counter of that channel
and of those whose COLL waits for the entry (R95). -/
def State.collProgress (s : State) (g own : Nat) : State :=
  (s.chans.map (·.1)).foldl (fun t k => if k = own ∨ s.waitsFor k g then t.progress k else t) s

/-- The flight of a word that starts now, with nothing latched yet. -/
def State.newFlight (s : State) (k : Nat) (w : CmdWord) : Flight :=
  let c := s.chan k
  { ord := c.nextOrd
    word := w
    layer := c.layer
    oper := c.oper
    iter := match c.loops with | [] => 0 | l :: _ => l.iter
    depth := c.loops.length
    len := 0
    opnd := 0
    shape := []
    xfer := s.reg 0x140
    cursor := none
    ahead := none
    localW := 0
    fails := 0
    first := none
    fenced := false
    aborted := false
    cancelled := false
    bytes := 0
    value := 0
    tStart := s.time
    group := 0
    written := false
    sat := false
    dropped := 0 }

/-- Take the next word and put its flight in execution: EXEC_SEQ, the command counters, the CMD_START
records (R53, R495, R498). -/
def State.begin (s : State) (k : Nat) (w : CmdWord) : State × Flight :=
  let f := s.newFlight k w
  let s1 := s.modChan k (fun c => { c.takeWord with
    execSeq := BitVec.ofNat 16 (seqOf w)
    nextOrd := c.nextOrd + 1
    flights := c.flights ++ [f]
    progress := s.now })
  let s2 := s1.cntStart k (seqOf w) f.iter
  let s3 := [0, 1, 2, 3].foldl (fun t n =>
    if (t.log n).chmask.toNat.testBit k ∧ (t.reg (0x32104 + 0x40 * n)).toNat.testBit 1 then
      let (u, hi) := t.logAdd n 2 k (seqOf w)
        (put (opOf w) 0 8 + put f.iter 8 16 + put f.layer.toNat 24 16 + put f.oper.toNat 40 16) (cq w 1)
      if hi then u.emit (u.evLogHigh n).toNat else u
    else t) s2
  (s3, f)

/-- The 65th word of a loop body is reached: the REPEAT of the outermost loop completes with LOOP_LONG
(R79). Its record and event, if asked for, were made when it started; the status stops the channel. -/
def State.loopLong (s : State) (k : Nat) : State :=
  let seq := match (s.chan k).loops.getLast? with
    | some l => l.seq.toNat
    | none => 0
  (s.modChan k (fun c => { c with lastStatus := 0x0C, progress := s.now })).stopChan k .always seq 0x0C

/-- The ECC of the tables that a starting word reads: the channel's registers, its shape, its group entry. With an
uncorrectable word the command ends as one with a bad field (R427). -/
def State.wordEcc (s : State) (k : Nat) (w : CmdWord) : Bool × State :=
  let (b7, s7) := s.takeEcc 0x11 7 2 6 k
  let (b5, s5) := if opOf w ∈ [opPut, opGet, opCopy] ∧ cf w 3 40 8 ≠ 0 then s7.takeEcc 0x11 5 2 6 k else (false, s7)
  let (b3, s3) := if opOf w = opColl then s5.takeEcc 0x11 3 2 6 k else (false, s5)
  (b7 || b5 || b3, s3)

/-- A command of a channel: if its word can start and is of this row (`row`), start it; a word that breaks
its field rules (`good` is false) completes with BAD_FIELD and has no other effect (R60). An uncorrectable word of the
queue does not execute (R427). -/
def State.startCmd (s : State) (k : Nat) (good : CmdWord → Bool) (body : State → Flight → State) : State :=
  match s.startable k with
  | none => s
  | some w =>
    if (s.chan k).tooLong 0 then s.loopLong k
    else
      let (lost, s0) := s.takeEcc 0x14 k 2 6 k
      if lost then s0
      else
      let (bad, s1) := s0.wordEcc k w
      let (t, f) := s1.begin k w
      let u := if good w && !bad then body t f else t.complete k f 0x08
      (if (u.flightOf k f.ord).isSome then u else u.cntStop k).settle k

/-- The word channel `k` can start is of this row. -/
def State.heads (s : State) (k : Nat) (row : CmdWord → Bool) : Bool :=
  match s.startable k with
  | some w => row w
  | none => false

/-- Quadwords of a word with bits outside a mask. -/
def resv (w : CmdWord) (i mask : Nat) : Bool := decide (cq w i &&& (2 ^ 64 - 1 - mask) = 0)

/-- A mask of `w` bits from bit `lo`. -/
def span (lo w : Nat) : Nat := (2 ^ w - 1) * 2 ^ lo

/-- Q0's reserved bits are zero (R58, R60). -/
def goodQ0 (w : CmdWord) : Bool := resv w 0 (span 0 14 + span 16 16 + span 32 3)

/-- Quadwords `i` to 7 are zero. -/
def zeroFrom (w : CmdWord) (i : Nat) : Bool := decide (w.toNat / 2 ^ (64 * i) = 0)

/-- A global address's chip number and offset (R11). -/
def chipOf (a : Nat) : Nat := a / 2 ^ 46
/-- The offset of a global address. -/
def offOf (a : Nat) : Nat := a % 2 ^ 46

end Sys2Proof.Machine
end

