-- ==== Sys2Proof/Machine/Issue.lean ====
section
/-! DEFINITION. Fragments of channel commands: the fields of a transfer, its checks at the start, the choice
of route mode, and the packet that enters the injection point (R97 to R118, R253, R255, R272). -/

namespace Sys2Proof.Machine

/-! ## A transfer's fields and checks (R65, R66, R98, R101 to R112) -/

/-- The block's own chip number. -/
def State.own (s : State) : Nat := s.ident.chip.toNat

/-- Who reads and who writes a transfer (R96): the block reads its own memory and sends data; it asks the
source chip and writes here; or the source chip relays to a third chip. -/
inductive Way where
  | send
  | fetch
  | relay
deriving DecidableEq, Repr

/-- The way of a transfer word: a transfer whose source is the block's own is read here. -/
def State.wayOf (s : State) (w : CmdWord) : Way :=
  if chipOf (cq w 1) = s.own then .send else if chipOf (cq w 2) = s.own then .fetch else .relay

/-- The transfer of a flight, with its latched length and its copied shape. -/
def State.xferOf (s : State) (f : Flight) : Xfer :=
  let w := f.word
  (Xfer.mk (offOf (cq w 1)) (offOf (cq w 2)) f.len (s.wayOf w = .send) (cf w 4 0 4) (cf w 4 4 4) (cf w 4 8 4)
    ((cq w 4).testBit 12) (cq w 5) (cf w 4 16 16) 1 1 1 0 0 0 0 0 0).withShape (cf w 3 40 8) f.shape

/-- Field rules of a transfer word that need no arithmetic (R60, R65, R98, R106 to R108). -/
def State.goodXfer (s : State) (w : CmdWord) : Bool :=
  let sf := cf w 4 4 4; let df := cf w 4 8 4; let xf := cf w 4 0 4
  let conv := decide (sf ≠ df)
  goodQ0 w && resv w 3 (span 0 52) && resv w 4 (span 0 13 + span 16 16) && resv w 6 (span 0 14) && zeroFrom w 7
    && (decide (opOf w ≠ opPut) || decide (chipOf (cq w 1) = s.own))
    && (decide (opOf w ≠ opGet) || decide (chipOf (cq w 2) = s.own))
    && decide (sf < 12) && decide (df < 12) && decide (xf ≤ 2)
    && (!conv || (decide (sf = 2) && decide (3 ≤ df ∧ df ≤ 8)))
    && ((!conv && decide (xf = 0)) || decide (chipOf (cq w 1) = s.own))
    && (decide (cf w 4 16 16 = 0) || decide (xf = 2) || isMx df)
    && (!isMx df || decide (xf = 0))
    && (decide (xf ≠ 2) || (decide (cf w 4 24 8 ≠ 0) && decide (cf w 3 40 8 ≠ 0)))

/-- The lowest and highest value of the sum of a base and three strided indices. -/
def extremes (base : Int) (l : List (Nat × Int)) : Int × Int :=
  l.foldl (fun (lo, hi) (n, st) => let d := ((n - 1 : Nat) : Int) * st; (lo + min 0 d, hi + max 0 d)) (base, base)

/-- Every byte of the range lies in the offset space. -/
def inSpace (e : Int × Int) (last : Nat) : Bool := decide (0 ≤ e.1) && decide (e.2 + last ≤ 2 ^ 46)

/-- Divisible as an integer. -/
def mult (a : Int) (b : Nat) : Bool := decide (a % (b : Int) = 0)

/-- The arithmetic rules of a transfer with its shape (R104, R109 to R112). `len` is the word's LEN. -/
def Xfer.good (x : Xfer) (shape len : Nat) : Bool :=
  let ss := x.ssize; let ds := x.dsize
  let base := mult x.src ss && mult x.ss1 ss && mult x.ss2 ss && mult x.ss3 ss && mult x.dst ds && mult x.ds1 ds
    && mult x.ds2 ds && mult x.ds3 ds && mult len ss
  let srcE := extremes x.src [(x.n1, x.ss1), (x.n2, x.ss2), (x.n3, x.ss3)]
  let skew := if x.xform = 2 then fld x.xparam 8 8 * ((x.n1 - 1) % (fld x.xparam 0 8 + 1)) * ds else 0
  let dstE := if x.xform = 1 then extremes x.dst [(x.elems, x.ds1), (x.n2, x.ds2), (x.n3, x.ds3)]
              else extremes x.dst [(x.n1, x.ds1), (x.n2, x.ds2), (x.n3, x.ds3)]
  let tr := decide (x.xform ≠ 1) || (decide (ds = 1 ∨ ds = 2) && decide (x.len = x.tile * ss)
    && decide (x.n1 % x.tile = 0) && mult x.dst 64 && mult x.ds1 64 && mult x.ds2 64 && mult x.ds3 64
    && (decide (shape ≠ 0) || decide (len % (x.tile * x.tile * ss) = 0)))
  let sk := decide (x.xform ≠ 2) || decide (((x.elems + fld x.xparam 8 8 * fld x.xparam 0 8) * ds : Nat) ≤ x.ds1)
  let mx := !x.toMx || (decide (len % 128 = 0) && decide (x.scaleBase + x.scales ≤ 2 ^ 46))
  base && tr && sk && mx && inSpace srcE x.len && inSpace dstE (x.runLen + skew)

/-! ## Route mode of a fragment (R116, R117, R255) -/

/-- Coordinates in which two positions differ. -/
def diffs (a b : Pos) : Nat := b2n (a.1 ≠ b.1) + b2n (a.2.1 ≠ b.2.1) + b2n (a.2.2 ≠ b.2.2)

/-- A towpath of the partition from this chip to position `t`, ON with a free slot (R117, R272). -/
def State.freeTow (s : State) (here t : Pos) : Option Nat :=
  lowest 128 (fun e =>
    let b := 0xB000 + 32 * e
    let w0 := (s.force b).toNat
    w0.testBit 0 && decide (fld w0 1 2 = 0) && decide (s.ff (b + 4) 0 16 = s.ident.pkey.toNat)
      && decide (posOf (s.force (b + 8)).toNat = here) && decide (posOf (s.force (b + 12)).toNat = t)
      && decide ((s.tow e).st = .on) && decide (1 ≤ (s.tow e).avail))

/-- Draw `k` of an intermediate chip (R255). -/
def State.drawChip (s : State) (k : Nat) : Nat :=
  let seed := (s.reg 0x318).toNat + (s.reg 0x31C).toNat * 2 ^ 32
  let v := mix ((seed + (s.own + 1) * 2 ^ 40 + k * 0x9E3779B97F4A7C15) % 2 ^ 64)
  s.ident.lo.toNat + (v % 2 ^ 32) * (s.ident.hi.toNat - s.ident.lo.toNat + 1) / 2 ^ 32

/-- Up to `n` draws of an intermediate (R255): the chip drawn, if one serves, and the draws made. -/
def State.drawInter (s : State) (here t : Pos) : Nat → Nat → Option Nat × Nat
  | 0, k => (none, k)
  | n + 1, k =>
    let c := s.drawChip k
    match s.resolve s.tbl.cur c with
    | some p =>
      if p = here ∨ p = t ∨ excUnreach (s.bank s.tbl.cur) 0 s.ident.pkey.toNat p then
        s.drawInter here t n (k + 1)
      else (some c, k + 1)
    | none => s.drawInter here t n (k + 1)

/-- Route mode, virtual channel, intermediate and towpath of a data fragment (R117), with the draws made. -/
def State.modeOf (s : State) (f : Flight) (chip len destBytes : Nat) : (Nat × Nat × Nat × Option Nat) × State :=
  match s.here, s.resolve s.tbl.cur chip with
  | some here, some t =>
    let tow := if f.xfer.toNat.testBit 7 ∧ 1024 ≤ len then s.freeTow here t else none
    match tow with
    | some e => ((2, 1, 0, some e), s)
    | none =>
      let tp := fld f.xfer.toNat 0 6
      if f.xfer.toNat.testBit 6 ∨ diffs here t ≤ 1 ∨ tp = 63 ∨ destBytes < 2 ^ tp then ((0, 1, 0, none), s)
      else
        let (c, k) := s.drawInter here t 4 s.draws
        let s1 := { s with draws := k }
        match c with
        | some c => ((1, 0, c, none), s1)
        | none => ((0, 1, 0, none), s1)
  | _, _ => ((0, 1, 0, none), s)

/-! ## Issuing -/

/-- The chip to which a command's request packets go. -/
def State.reqChip (s : State) (w : CmdWord) : Nat :=
  if opOf w ∈ [opPut, opGet, opCopy] then
    (match s.wayOf w with | .send => chipOf (cq w 2) | _ => chipOf (cq w 1))
  else if opOf w = opAtom then chipOf (cq w 1)
  else if opOf w = opSignal then cf w 1 0 18
  else chipOf (cq w 2)

/-- The source checks of a transfer at its start (R20, R38): for a relayed COPY also RANGE and UNMAPPED of
the destination, source first. -/
def State.xferCheck (s : State) (w : CmdWord) : Option Nat :=
  let c := s.reqChip w
  if ¬ s.mayOriginate then some 5
  else
    match s.rangeMapped c with
    | some o => some o
    | none =>
      let d := match s.wayOf w with
        | .relay => if opOf w = opCopy then s.rangeMapped (chipOf (cq w 2)) else none
        | _ => none
      match d with
      | some o => some o
      | none => if s.reachable c 1 0x01 0 then none else some 5

/-- A packet enters towpath `e` (R272): a credit is used; a stall is timed from the first one used (R274). -/
def State.towEnter (s : State) (e : Nat) : State :=
  s.modTow e (fun t => { t with
    avail := t.avail - 1
    lastRsp := if t.avail = s.ff (0xB000 + 32 * e) 16 8 then s.now else t.lastRsp })

/-- A packet's response on towpath `e` has come (R272); a draining SOURCE whose packets have all been
answered goes OFF, and a held enable starts it again (R273, R274). -/
def State.towLeave (s : State) (e : Nat) : State :=
  s.modTow e (fun t =>
    let cred := s.ff (0xB000 + 32 * e) 16 8
    if t.st = .on then { t with avail := min cred (t.avail + 1), lastRsp := s.now }
    else if t.st = .draining then
      if cred ≤ t.avail + 1 then
        { t with st := if t.enPend then Life.starting else Life.off, en := t.enPend, enPend := false, avail := 0 }
      else { t with avail := t.avail + 1, lastRsp := s.now }
    else t)

/-- Room for one more packet of channel `k` with the parity of `idx`: a fragment slot, and its rein unless it
travels on a towpath (R62, R253, R278). -/
def State.room (s : State) (k idx : Nat) (tow : Bool) : Bool :=
  decide (s.outstanding k < 256) && (s.freeTag k idx).isSome && (tow || s.reinAdmits k)

/-- Nothing but its rein keeps a packet of channel `k` with the parity of `idx` from being formed. -/
def State.reinOnly (s : State) (k idx : Nat) (tow : Bool) : Bool :=
  decide (s.outstanding k < 256) && (s.freeTag k idx).isSome && !tow && !s.reinAdmits k

/-- A request to chip `chip` can leave: the block may originate it and its first hop exists (R20, R260). `par` has the
parity of its fragment, by which it breaks a tie. -/
def State.canLeave (s : State) (chip vc opcode par : Nat) : Bool := s.mayOriginate && s.reachable chip vc opcode (par % 2)

/-! ## Formation slots (R63, R119) -/

/-- Weight of channel `i`, or of RA port `i` − 64; 0 acts as 1 (R51, R119). -/
def State.weight (s : State) (i : Nat) : Nat :=
  max 1 (if i < 64 then s.rf (0x4000 + 0x100 * i) 4 4 else s.rf 0x148 (4 * (i - 64)) 4)

/-- Slots that requester `i` has used in the present round. -/
def State.slotsOf (s : State) (i : Nat) : Nat := SMap.get (fun _ => 0) s.rrUsed i

/-- Requester `i` uses a packet-formation slot; one beyond its weight opens a new round. -/
def State.useSlot (s : State) (i : Nat) : State :=
  let m := if s.slotsOf i < s.weight i then s.rrUsed else []
  { s with rrUsed := SMap.set (fun _ => 0) m i (SMap.get (fun _ => 0) m i + 1) }

/-- The first command of channel `k` that has something to issue (R99). -/
def Chan.issuing (c : Chan) : Option Flight :=
  c.flights.find? (fun f => (f.cursor.isSome || f.ahead.isSome) && decide (opOf f.word ≠ opColl))

/-- A SIGNAL with ORD waits for every earlier command of its channel (R74). -/
def Chan.ordWait (c : Chan) (f : Flight) : Bool :=
  decide (opOf f.word = opSignal) && (cq f.word 1).testBit 48 && c.flights.any (fun g => decide (g.ord < f.ord))

/-- Channel `k` has a packet it could form now if it had the slot. -/
def State.fragReady (s : State) (k : Nat) : Bool :=
  match (s.chan k).issuing with
  | none => false
  | some f =>
    let x := s.xferOf f
    s.mayForm && !(s.chan k).ordWait f
      && (if opOf f.word ∈ [opAtom, opSignal, opLoads] then s.room k 0 false
          else
            match f.ahead, f.cursor with
            | some a, _ =>
              let ((_, _, _, tow), _) := s.modeOf f (chipOf (cq f.word 2)) a.frag.len (x.destBytes + (if x.toMx then x.scales else 0))
              a.data.isSome && s.room k a.frag.idx tow.isSome
            | none, some c => decide (s.wayOf f.word ≠ .send) && s.room k c.idx false
            | none, none => false)

/-- Requester `i` could form a packet now: a channel with a fragment ready, an RA port with an access that may be
taken. -/
def State.claims (s : State) (i : Nat) : Bool :=
  if i < 64 then s.fragReady i else decide ((s.raPort (i - 64)).heldAcc ≠ []) && !s.raWithheld (i - 64)

/-- The next slot can be requester `i`'s: it has slots of its weight left in this round, or no other that could form
a packet has, and a new round begins (R63, R119). -/
def State.turn (s : State) (i : Nat) : Bool :=
  decide (s.slotsOf i < s.weight i)
    || (s.chans.map Prod.fst ++ [64, 65, 66, 67]).all (fun j : Nat => decide (j = i) || !s.claims j || decide (s.weight j ≤ s.slotsOf j))

/-! ## Issuing -/

/-- Enter a request of flight `f` for fragment `fr` into the injection point: a slot, the packet, the rein's
charge, the counters (R62, R231, R253, R278). -/
def State.issue (s : State) (k : Nat) (f : Flight) (fr : Frag) (h : Hd) (pay : List Byte) (tow : Option Nat)
    (reinLen : Nat) : State :=
  match s.freeTag k fr.idx with
  | none => s
  | some tag =>
    let s1 := s.form { h with ctx := 0, chan := k, ftag := tag, layer := f.layer.toNat, oper := f.oper.toNat } pay (tow.map (· + 8))
    let s2 := s1.modChan k (fun c => { c with
      slots := c.slots ++ [⟨tag, s1.pseq.toNat, f.ord, fr, h.dst, none, tow⟩]
      progress := s.now })
    let s3 := match tow with
      | some e => s2.towEnter e
      | none => s2.reinCharge k h.opcode reinLen
    (s3.useSlot k).cntForm k pay.length

/-- A fragment that fails before its packet (R130): outcome, no packet sent. -/
def State.failFrag (s : State) (k : Nat) (f : Flight) (fr : Frag) (aout : Nat) (fenced : Bool := false) : State :=
  s.modFlight k f.ord (fun g =>
    { g.fail ⟨fr.idx, aout, fenced, false, failAddr f.word fr⟩ with ahead := none })

/-- Form the packet of a fragment (`go`) once a slot, the rein and its turn allow; one that cannot leave fails with
UNREACH, and its command goes on behind it (`next`). -/
def State.offer (s : State) (k : Nat) (f : Flight) (fr : Frag) (tow leaves : Bool) (next : Flight → Flight)
    (go : State → State) : State :=
  if ¬ leaves then (s.failFrag k f fr 5).modFlight k f.ord next
  else if ¬ s.room k fr.idx tow then (if s.reinOnly k fr.idx tow then (s.reinHeld k).cntRein k else s)
  else if ¬ s.turn k then s
  else (go s).modFlight k f.ord next

/-- The single packet of an ATOM, SIGNAL or LOADS MEM. -/
def singleHd (f : Flight) : Hd :=
  let w := f.word
  if opOf w = opAtom then
    { opcode := 0x06, vc := 1, dst := chipOf (cq w 1), len := if cf w 4 8 2 = 0 then 4 else 8, offset := offOf (cq w 1)
      aux := cf w 4 0 10, h5 := f.opnd.toNat, h6 := cq w 3 }
  else if opOf w = opSignal then
    { opcode := 0x07, vc := 1, dst := cf w 1 0 18, tally := cf w 1 32 13, ten := 1, h5 := cf w 2 0 48 }
  else
    { opcode := 0x02, vc := 1, dst := chipOf (cq w 2), len := 8, offset := offOf (cq w 2) }

/-- Send the single packet of a flight. -/
def State.issueSingle (s : State) (k : Nat) (f : Flight) : State :=
  let h := singleHd f
  let fr : Frag := ⟨0, 0, h.len, offOf (cq f.word 2), false⟩
  s.offer k f fr false (s.canLeave h.dst 1 h.opcode 0) (fun g => { g with cursor := none })
    (fun t => t.issue k f fr h [] none h.len)

/-- Begin the next fragment of a transfer that the block reads itself: window checks, then the source read,
one fragment ahead of its packet. -/
def State.readAhead (s : State) (k : Nat) (f : Flight) (c : Cursor) : State :=
  let x := s.xferOf f
  match x.next c with
  | none => s.modFlight k f.ord (fun g => { g with cursor := none })
  | some (fr, rest) =>
    let s1 := s.modFlight k f.ord (fun g => { g with cursor := rest })
    let rs := x.reads fr c.run c.off
    if ¬ s.mayOriginate then s1.failFrag k f fr 5
    else
      match s1.checkRanges .rd rs with
      | some o => s1.failFrag k f fr o
      | none =>
        let (id, s2) := s1.startRead (.frag k f.ord) rs
        s2.modFlight k f.ord (fun g => { g with ahead := some ⟨fr, c, id, none⟩ })

/-- Form the data packet of a fragment whose source has been read. -/
def State.issueData (s : State) (k : Nat) (f : Flight) (a : Ahead) (data : List Byte) (poison : Nat) : State :=
  let w := f.word
  let x := s.xferOf f
  let chip := chipOf (cq w 2)
  let ((rm, vc, inter, tow), s1) := s.modeOf f chip a.frag.len (x.destBytes + (if x.toMx then x.scales else 0))
  let leaves := if tow.isSome then s.mayOriginate else s.canLeave (if rm = 1 then inter else chip) vc 0x01 a.frag.idx
  s.offer k f a.frag tow.isSome leaves (fun g => { g with ahead := none }) (fun _ =>
    s1.issue k f a.frag
      { opcode := 0x01, vc := vc, rmode := rm, dst := chip, inter := inter, len := a.frag.len, offset := a.frag.dst
        tally := cf w 6 0 13, ten := cf w 6 13 1, granEn := granMask a.frag.dst a.frag.len, poison := poison } data tow
      a.frag.len)

/-- Form the read request of a fragment of a GET, or the relay request of a COPY (R96, R97, R232). -/
def State.issueRead (s : State) (k : Nat) (f : Flight) (c : Cursor) (way : Way) : State :=
  let w := f.word
  let x := s.xferOf f
  match x.next c with
  | none => s.modFlight k f.ord (fun g => { g with cursor := none })
  | some (fr, rest) =>
    let h : Hd := { opcode := 0x02, vc := 1, dst := chipOf (cq w 1), len := fr.len, offset := fr.src, h5 := fr.dst }
    let h := if way = .relay then
        { h with opcode := 0x03, h5 := chipOf (cq w 2) * 2 ^ 46 + fr.dst, h6 := cf w 6 0 14 }
      else h
    s.offer k f fr false (s.canLeave h.dst 1 h.opcode fr.idx) (fun g => { g with cursor := rest })
      (fun t => t.issue k f fr h [] none fr.len)

/-- One step of a channel's issuing: the first command that has something to issue (R99). -/
def State.issueStep (s : State) (k : Nat) : State :=
  match (s.chan k).issuing with
  | none => s
  | some f =>
    if ¬ s.mayForm then s
    else
      let s1 :=
        if opOf f.word ∈ [opAtom, opSignal, opLoads] then
          (if (s.chan k).ordWait f then s else s.issueSingle k f)
        else
          match f.ahead, f.cursor, s.wayOf f.word with
          | some a, _, _ =>
            (match a.data with
            | some (d, p) => s.issueData k f a d p
            | none => s)
          | none, some c, .send => s.readAhead k f c
          | none, some c, way => s.issueRead k f c way
          | none, none, _ => s
      let s2 := match s1.flightOf k f.ord with
        | some g => if g.cursor.isNone ∧ g.ahead.isNone then s1.cntStop k else s1
        | none => s1
      s2.settle k

end Sys2Proof.Machine
end

