-- ==== Sys2Proof/Machine/Channel.lean ====
section
/-! DEFINITION. The commands of the channels: words on CP (R46, R47), scalars and rings from RG, the start of
every command but COLL, fragments, completion records and hang detection (02_command_channels.md). -/

namespace Sys2Proof.Machine

/-! ## Words being discarded (R77, R82) -/

/-- The BRANCH in execution on channel `k` completes. -/
def State.branchDone (s : State) (k status : Nat) : State :=
  let s1 := s.modChan k (fun c => { c with skip := none })
  match (s.chan k).flights.find? (fun f => decide (opOf f.word = opBranch)) with
  | some f => (s1.complete k f status).cntStop k
  | none => s1

/-- Discard the words that have arrived, as the skip in progress says. -/
def State.runSkip : Nat → Nat → State → State
  | 0, _, s => s
  | fuel + 1, k, s =>
    let c := s.chan k
    match c.skip, c.nextWord with
    | some sk, some w =>
      let isEnd := decide (opOf w = opEnd)
      let depth := if opOf w = opRepeat then sk.depth + 1 else if isEnd then sk.depth - 1 else sk.depth
      if c.tooLong sk.depth then (s.modChan k (fun c => { c with skip := none })).loopLong k
      else
        let took := s.modChan k (fun c => { c.takeWord with skip := some { sk with depth := depth }, progress := s.now })
        match sk.kind with
        | .zero =>
          if isEnd ∧ sk.depth = 0 then took.modChan k (fun c => { c with skip := none })
          else State.runSkip fuel k took
        | .skip left seq =>
          if isEnd ∧ sk.depth = 0 then s.branchDone k 0x0A
          else if left ≤ 1 ∧ depth = 0 then took.branchDone k 0
          else State.runSkip fuel k
            (took.modChan k (fun c => { c with skip := some ⟨.skip (left - 1) seq, depth⟩ }))
        | .brk =>
          if isEnd ∧ sk.depth = 0 then (took.modChan k (fun c => c.popLoop)).branchDone k 0
          else State.runSkip fuel k took
    | _, _ => s

/-- Discard what has arrived on channel `k`: at most the loop buffer and the queue. -/
def State.discardWords (s : State) (k : Nat) : State := State.runSkip 160 k s

/-! ## CP_WORD (R46, R47, R390) -/

/-- The first failing condition of R46 for a word on a CP port: its status code, 0 for ACCEPTED. -/
def State.cpCheck (s : State) (port : Nat) (w : CmdWord) (crcOk : Bool) : Nat :=
  let k := cf w 0 8 6
  let c := s.chan k
  if ¬ crcOk then 1
  else if s.shut then 2
  else if s.rf (0x4000 + 0x100 * k) 0 4 ≠ port then 3
  else if c.st ≠ .on then 4
  else if seqOf w ≠ c.nextSeq.toNat then 5
  else if 64 ≤ c.queue.length then 6
  else 0

/-- The fault a status raises: FLT_CP_CRC, FLT_CP_PORT, FLT_CP_SEQ (R47). -/
def State.cpFault (s : State) (port k status : Nat) (inj : Bool) : State :=
  match status with
  | 1 => s.raise 0x28 port 1 6 0xFF 0 0 inj
  | 3 => s.raise 0x29 port 2 6 k
  | 5 => s.raise 0x2A port 1 6 k
  | _ => s

/-- A word enters the queue of channel `k`: NEXT_SEQ steps (R47, R53). The hang timer of a channel that had nothing to
do starts here (R437). -/
def State.enqueue (s : State) (k : Nat) (w : CmdWord) : State :=
  s.modChan k (fun c => { c with
    queue := c.queue ++ [w], nextSeq := c.nextSeq + 1
    progress := if c.flights = [] ∧ c.nextWord = none then s.now else c.progress })

/-- Offer a word: check it, enqueue it, answer its status. -/
def State.cpOffer (s : State) (port : Nat) (w : CmdWord) (crc : HWord) : State :=
  let (inj, s1) := s.takeInj 0x28 port
  let good := decide (crc16 (leBytes 64 w.toNat) = crc.toNat)
  let k := cf w 0 8 6
  let st := s1.cpCheck port w (good && !inj)
  let s2 := if st = 0 then
      (s1.enqueue k w).discardWords k
    else s1.cpFault port k st (good && inj)
  s2.drive (.cpStatus port st)

/-- CP_WORD: between LOCK and RELEASE the acknowledge is withheld (R287 step 3). -/
def execCpWord (port : Nat) (w : CmdWord) (crc : HWord) (s : State) : Out :=
  run s (decide (port < 16) && !s.cpHeld.any (fun e => decide (e.1 = port))) (fun s =>
    if s.lockHold then { s with cpHeld := s.cpHeld ++ [(port, w, crc)] } else s.cpOffer port w crc)

/-- The words whose acknowledge was withheld are taken when the lock ends. -/
def State.releaseCp (s : State) : State :=
  s.cpHeld.foldl (fun t (p, w, c) => t.cpOffer p w c) { s with cpHeld := [] }

/-! ## Lifecycle and registers (R52 to R54, R88, R94) -/

/-- An EN written 1 (R54, R56). -/
def State.chanEnable (s : State) (k : Nat) : State :=
  s.modChan k (fun c =>
    match c.st with
    | .off => { c with
        st := .starting, en := true, late := false, nextSeq := 0, queue := [], loopBuf := [], pos := 0, loops := [], skip := none
        layer := 0, oper := 0 }
    | .draining => { c with en := true, enPend := true }
    | _ => { c with en := true })

/-- A RESUME written 1 (R92). -/
def State.chanResume (s : State) (k : Nat) : State :=
  s.modChan k (fun c => if c.st = .on ∧ c.stop = .soe then { c with stop := .no } else c)

/-- Writing both halves of a scalar (R94). -/
def State.wrScalHi (s : State) (k i : Nat) (d : Word) : State :=
  let c := s.chan k
  let lo := SMap.get (fun _ => (0 : Word)) s.wshadow (0x4080 + 0x100 * k + 8 * i)
  if c.st = .off ∨ (c.st = .on ∧ c.stop ≠ .no) then
    (s.setScalar k i (BitVec.ofNat 64 (lo.toNat + d.toNat * 2 ^ 32))).evalWaits
  else s.modChan k (fun c => { c with wrIgn := true })

/-- SCALAR_WRITE: a write of DX_CH_SCAL{i}_HI. -/
def execScalarWrite (k i : Nat) (a : RgAcc) (s : State) : Out :=
  regCmd s (decide (k < 64) && decide (i < 8)) (0x4084 + 0x100 * k + 8 * i) a (fun s _ d => s.wrScalHi k i d)

/-- CR_STALL and EV_CR_FULL follow the ring's fill (R89). -/
def State.checkStall (s : State) (k : Nat) : State :=
  if s.ringFull k ∧ ¬ (s.chan k).crStall then
    (s.modChan k (fun c => { c with crStall := true })).emit (0x04 + put k 8 6 + put (s.chan k).prod.toNat 32 32) (some k)
  else if ¬ s.ringFull k then s.modChan k (fun c => { c with crStall := false })
  else s

/-- A write of DX_CH_CR_CONS (R88). -/
def State.wrCons (s : State) (k : Nat) (d : Word) : State :=
  (s.modChan k (fun c => { c with cons := d })).checkStall k

/-- CR_CONS_WRITE. -/
def execCrConsWrite (k : Nat) (a : RgAcc) (s : State) : Out :=
  regCmd s (decide (k < 64)) (0x4020 + 0x100 * k) a (fun s _ d => s.wrCons k d)

/-- The commit of a shape entry by a write of W7 (R102). -/
def State.wrShape (s : State) (e : Nat) (d : Word) : State :=
  let b := 0x8000 + 32 * e
  ((List.range 7).foldl (fun t i =>
    t.setReg (b + 4 * i) (SMap.get (fun _ => (0 : Word)) t.wshadow (b + 4 * i) &&& (regMask (b + 4 * i)).rw)) s).setReg (b + 28) d

/-- SHAPE_COMMIT. -/
def execShapeCommit (e : Nat) (a : RgAcc) (s : State) : Out :=
  regCmd s (decide (1 ≤ e ∧ e < 256)) (0x801C + 32 * e) a (fun s _ d => s.wrShape e d)

/-! ## Commands that end at once -/

/-- A row of one opcode: the word at the head of channel `k` starts. -/
def chanCmd (k : Nat) (row : CmdWord → Bool) (good : State → CmdWord → Bool) (body : State → Flight → State)
    (s : State) : Out :=
  run s (s.heads k row) (fun s => s.startCmd k (fun w => goodQ0 w && good s w) (fun t f => body t f))

/-- NOP (R86). -/
def execNop (k : Nat) (s : State) : Out :=
  chanCmd k (fun w => decide (opOf w = opNop)) (fun _ w => zeroFrom w 1) (fun t f => t.complete k f 0) s

/-- MARK (R84). -/
def execMark (k : Nat) (s : State) : Out :=
  chanCmd k (fun w => decide (opOf w = opMark)) (fun _ w => resv w 1 (span 0 32) && zeroFrom w 2) (fun t f =>
    (t.modChan k (fun c => { c with
      layer := BitVec.ofNat 16 (cf f.word 1 0 16), oper := BitVec.ofNat 16 (cf f.word 1 16 16) })).complete k f 0) s

/-- TRACE (R85, R498): a user record in the logbook it names; one that is not ON counts it lost. -/
def execTrace (k : Nat) (s : State) : Out :=
  chanCmd k (fun w => decide (opOf w = opTrace))
    (fun _ w => resv w 1 (span 0 2 + span 16 16) && zeroFrom w 3) (fun t f =>
      let n := cf f.word 1 0 2
      let u :=
        if (t.log n).st ≠ .on then t.incReg (0x32124 + 0x40 * n)
        else if ¬ (t.reg (0x32104 + 0x40 * n)).toNat.testBit 0 then t
        else
          let (x, hi) := t.logAdd n 1 k (cf f.word 1 16 16) (cq f.word 2)
            (put (seqOf f.word) 0 16 + put f.iter 16 16 + put f.layer.toNat 32 16 + put f.oper.toNat 48 16)
          if hi then x.emit (x.evLogHigh n).toNat else x
      u.complete k f 0) s

/-- LOADS that ends at once: the value is written and the command completes (R83, R90). -/
def State.loadsDone (s : State) (k : Nat) (f : Flight) (v : Quad) : State :=
  (s.setScalar k (cf f.word 1 2 3) v).complete k { f with value := v } 0

/-- Field rules of LOADS (R83). -/
def goodLoads (w : CmdWord) : Bool := resv w 1 (span 0 18) && zeroFrom w 3

/-- LOADS with MODE IMM (R83). -/
def execLoadsImm (k : Nat) (s : State) : Out :=
  chanCmd k (fun w => decide (opOf w = opLoads) && decide (cf w 1 0 2 = 0)) (fun _ w => goodLoads w)
    (fun t f => t.loadsDone k f (BitVec.ofNat 64 (cq f.word 2))) s

/-- LOADS with MODE TALLY (R83). -/
def execLoadsTally (k : Nat) (s : State) : Out :=
  chanCmd k (fun w => decide (opOf w = opLoads) && decide (cf w 1 0 2 = 2)) (fun _ w => goodLoads w)
    (fun t f => t.loadsDone k f ((t.tallyOf (cf f.word 1 5 13)).setWidth 64)) s

/-- LOADS with MODE ADD (R83). -/
def execLoadsAdd (k : Nat) (s : State) : Out :=
  chanCmd k (fun w => decide (opOf w = opLoads) && decide (cf w 1 0 2 = 3)) (fun _ w => goodLoads w)
    (fun t f => t.loadsDone k f (t.scalar k (cf f.word 1 2 3) + BitVec.ofNat 64 (cq f.word 2))) s

/-- BAD_OP (R59): any opcode outside the table. -/
def execBadOp (k : Nat) (s : State) : Out :=
  run s (s.heads k (fun w => decide (0x0E < opOf w))) (fun s =>
    s.startCmd k (fun _ => true) (fun t f => t.complete k f 0x07))

/-- FENCE (R75): it completes once every earlier command has. -/
def execFence (k : Nat) (s : State) : Out :=
  chanCmd k (fun w => decide (opOf w = opFence)) (fun _ w => zeroFrom w 1) (fun t _ => t) s

/-- WAIT (R72): it completes at once, or when a later change makes its condition true. -/
def execWaitCmd (k : Nat) (s : State) : Out :=
  chanCmd k (fun w => decide (opOf w = opWait))
    (fun _ w => resv w 1 (span 0 26) && zeroFrom w 3 && decide (cf w 1 0 4 ≤ 5)) (fun t f =>
      if t.waitHolds k f.word then t.complete k f 0 else t) s

/-! ## Loops and branches (R76 to R82) -/

/-- REPEAT (R76 to R78). -/
def execRepeatLoop (k : Nat) (s : State) : Out :=
  chanCmd k (fun w => decide (opOf w = opRepeat)) (fun _ w => resv w 1 (span 0 36) && zeroFrom w 2) (fun t f =>
    let v := if (cq f.word 1).testBit 32 then (t.scalar k (cf f.word 1 33 3)).toNat else cf f.word 1 0 32
    let c := t.chan k
    if 4 ≤ c.loops.length then t.complete k f 0x09
    else if 2 ^ 32 ≤ v then t.complete k f 0x0B
    else if v = 0 then
      ((t.complete k f 0).modChan k (fun c => { c with skip := some ⟨.zero, 0⟩ })).discardWords k
    else
      (t.complete k f 0).modChan k (fun c => { c with
        loopBuf := if c.loops = [] then [] else c.loopBuf
        pos := if c.loops = [] then 0 else c.pos
        loops := ⟨if c.loops = [] then 0 else c.pos, v, 0, BitVec.ofNat 16 (seqOf f.word)⟩ :: c.loops })) s

/-- END (R78, R79): the next iteration replays the body from the loop buffer, or the loop closes. -/
def execEndLoop (k : Nat) (s : State) : Out :=
  chanCmd k (fun w => decide (opOf w = opEnd)) (fun _ w => zeroFrom w 1) (fun t f =>
    match (t.chan k).loops with
    | [] => t.complete k f 0x09
    | l :: ls =>
      if l.iter + 1 < l.count then
        (t.complete k f 0).modChan k (fun c => { c with loops := { l with iter := l.iter + 1 } :: ls, pos := l.start })
      else (t.complete k f 0).modChan k (fun c => c.popLoop)) s

/-- Field rules of BRANCH (R81, R82). -/
def goodBranch (w : CmdWord) : Bool :=
  resv w 1 (span 0 14 + span 16 6) && zeroFrom w 3 && decide (cf w 1 0 4 ≤ 5) && decide (cf w 1 12 2 ≤ 1)
    && (decide (cf w 1 12 2 = 1) || decide (cf w 1 16 6 ≠ 0))

/-- BRANCH (R81, R82). -/
def execBranch (k : Nat) (s : State) : Out :=
  chanCmd k (fun w => decide (opOf w = opBranch)) (fun _ w => goodBranch w) (fun t f =>
    let w := f.word
    let b := if (cq w 1).testBit 7 then (t.scalar k (cf w 1 8 3)).toNat else cq w 2
    if ¬ condHolds (cf w 1 0 4) ((cq w 1).testBit 11) (t.scalar k (cf w 1 4 3)).toNat b then t.complete k f 0
    else if cf w 1 12 2 = 1 then
      if (t.chan k).loops = [] then t.complete k f 0x0A
      else (t.modChan k (fun c => { c with skip := some ⟨.brk, 0⟩ })).discardWords k
    else
      (t.modChan k (fun c => { c with skip := some ⟨.skip (cf w 1 16 6) (BitVec.ofNat 16 (seqOf w)), 0⟩ })).discardWords k) s

/-! ## Transfers (R65 to R67, R96 to R122) -/

/-- End a transfer at its source checks: every planned fragment counts as failed (R130). -/
def State.failAll (s : State) (k : Nat) (f : Flight) (aout planned : Nat) (fr : Frag) : State :=
  s.complete k { f with
    fails := planned
    first := some ⟨0, aout, false, false, failAddr f.word fr⟩ } 0x01

/-- Start a PUT, GET or COPY. -/
def State.startXfer (s : State) (k : Nat) (f : Flight) : State :=
  let w := f.word
  let sh := cf w 3 40 8
  let lenV := if (cq w 3).testBit 48 then (s.scalar k (cf w 3 49 3)).toNat else cf w 3 0 40
  let ws := (List.range 8).map (fun i => s.reg (0x8000 + 32 * sh + 4 * i))
  let f1 := { f with len := lenV % 2 ^ 40, shape := if sh = 0 then [] else ws }
  if 2 ^ 40 ≤ lenV then s.complete k f 0x08
  else if lenV = 0 then s.complete k f1 0
  else if sh ≠ 0 ∧ ¬ ((ws.getD 1 0).toNat.testBit 31) then s.complete k f 0x08
  else
    let x := s.xferOf f1
    if ¬ x.good sh lenV then s.complete k f 0x08
    else
      match s.xferCheck w with
      | some o =>
        (match x.next ⟨0, 0, 0, false⟩ with
        | some (fr, _) => s.failAll k f1 o x.planned fr
        | none => s.complete k f1 0)
      | none => s.modFlight k f.ord (fun _ => { f1 with cursor := some ⟨0, 0, 0, false⟩ })

/-- PUT (R96). -/
def execPut (k : Nat) (s : State) : Out :=
  chanCmd k (fun w => decide (opOf w = opPut)) (fun s w => s.goodXfer w) (fun t f => t.startXfer k f) s

/-- GET (R96). -/
def execGet (k : Nat) (s : State) : Out :=
  chanCmd k (fun w => decide (opOf w = opGet)) (fun s w => s.goodXfer w) (fun t f => t.startXfer k f) s

/-- COPY (R96, R97). -/
def execCopy (k : Nat) (s : State) : Out :=
  chanCmd k (fun w => decide (opOf w = opCopy)) (fun s w => s.goodXfer w) (fun t f => t.startXfer k f) s

/-- Start a command of one packet: source checks, then the packet as soon as there is room. -/
def State.startSingle (s : State) (k : Nat) (f : Flight) (opcode : Nat) : State :=
  let chip := s.reqChip f.word
  match s.sourceCheck chip 1 opcode 0 with
  | some o => s.failAll k f o 1 ⟨0, 0, 0, 0, false⟩
  | none =>
    let f1 := { f with cursor := some ⟨0, 0, 0, false⟩ }
    (s.modFlight k f.ord (fun _ => f1)).issueStep k

/-- Whether an operation exists in a size (R121, R122): SIZE 0 is 4 B, 1 is 8 B. -/
def goodAop (aop size : Nat) : Bool :=
  decide (size ≤ 1) && (decide (aop ≤ 9) || decide (aop = 0x20) || (decide (aop ∈ [0x10, 0x11, 0x12]) && decide (size = 0)))

/-- Field rules of ATOM (R67, R121, R122). DESIGN CHOICE (log 75): Q5, the RADDR, is checked with RMEM 1 alone and may
hold anything otherwise; the spec does not say that it must then be zero. -/
def State.goodAtom (s : State) (w : CmdWord) : Bool :=
  let n := if cf w 4 8 2 = 0 then 4 else 8
  resv w 4 (span 0 19) && zeroFrom w 6 && goodAop (cf w 4 0 8) (cf w 4 8 2) && decide (cq w 1 % n = 0)
    && (!(cq w 4).testBit 18 || (decide (cq w 5 % n = 0) && decide (chipOf (cq w 5) = s.own)))

/-- ATOM (R67, R120 to R122). -/
def execAtom (k : Nat) (s : State) : Out :=
  chanCmd k (fun w => decide (opOf w = opAtom)) (fun s w => s.goodAtom w) (fun t f =>
    let a := if (cq f.word 4).testBit 10 then t.scalar k (cf f.word 4 11 3) else BitVec.ofNat 64 (cq f.word 2)
    t.startSingle k { f with opnd := a } 0x06) s

/-- Field rules of SIGNAL (R74). -/
def goodSignal (w : CmdWord) : Bool :=
  resv w 1 (span 0 18 + span 32 13 + span 48 1) && resv w 2 (span 0 48) && zeroFrom w 3 && decide (cq w 2 ≠ 0)

/-- SIGNAL (R74). -/
def execSignal (k : Nat) (s : State) : Out :=
  chanCmd k (fun w => decide (opOf w = opSignal)) (fun _ w => goodSignal w) (fun t f => t.startSingle k f 0x07) s

/-- LOADS with MODE MEM (R83): one read of 8 bytes, by the rules of a GET. -/
def execLoadsMem (k : Nat) (s : State) : Out :=
  chanCmd k (fun w => decide (opOf w = opLoads) && decide (cf w 1 0 2 = 1))
    (fun _ w => goodLoads w && decide (cq w 2 % 8 = 0)) (fun t f => t.startSingle k f 0x02) s

/-! ## Completion records (R89, R93) -/

/-- A record's write has ended: PROD counts it in any case, a failed one stops the channel as SOE would
(R89), but not in DRAINING (R93). -/
def State.recordDone (s : State) (k ord : Nat) (ok : Bool) : State :=
  match (s.chan k).owed with
  | o :: rest =>
    if o.ord ≠ ord ∨ ¬ o.writing then s
    else
      let o' := { o with cr := false, writing := false, status := if ok then o.status else 0x0D }
      let s1 := s.modChan k (fun c => { c with
        owed := o' :: rest, prod := c.prod + 1, progress := s.now
        lastStatus := if ok then c.lastStatus else 0x0D })
      let s2 := if ¬ ok ∧ (s1.chan k).st = .on then s1.stopChan k .soe o.seq.toNat 0x0D else s1
      ((s2.checkStall k).settleOwed k).settle k
  | [] => s

/-- A record can be written now: it is the first owed, every earlier command that asked for a record or event
is done, and the ring has room. -/
def State.recordReady (s : State) (k : Nat) : Bool :=
  match (s.chan k).owed with
  | o :: _ => o.cr && !o.writing && !s.ringFull k
      && !(s.chan k).flights.any (fun f => decide (f.ord < o.ord) && (wantsCr f.word || wantsEv f.word))
  | [] => false

/-- COMPLETION_RECORD_WRITE: the record goes through the block's own windows to BASE + 64·(PROD mod N)
(R88, R89). -/
def execCompletionRecordWrite (k : Nat) (s : State) : Out :=
  run s (decide (k < 64) && s.recordReady k) (fun s =>
    match (s.chan k).owed with
    | o :: rest =>
      let off := s.ringBase k + 64 * ((s.chan k).prod.toNat % s.ringSize k)
      let s1 := s.modChan k (fun c => { c with owed := { o with writing := true } :: rest })
      (match s1.checkRanges .wr [(off, 64)] with
      | some _ => s1.recordDone k o.ord false
      | none => (s1.startWrite (.record k o.ord) (wrGrans off (leBytes 64 o.image.toNat) 0) 0).2)
    | [] => s)

/-! ## Hang detection (R95) -/

/-- The hang window of channel `k` in REFCLK cycles: DX_HANG_WIN × 2^HSHIFT, at most 4 s (R51). -/
def State.chanWindow (s : State) (k : Nat) : Nat :=
  min 625000000 (s.hangTicks * 2 ^ s.rf (0x4000 + 0x100 * k) 8 4)

/-- Channel `k` stands still: work in execution or queue, no progress for its window, not yet reported. -/
def State.chanStuck (s : State) (k : Nat) : Bool :=
  let c := s.chan k
  let m := s.mon (512 + k)
  decide (s.halt.st = .run) && (decide (c.flights ≠ []) || c.nextWord.isSome)
    && decide (c.progress + s.chanWindow k ≤ s.now) && !(m.said && decide (m.at_ = c.progress))

/-- CHANNEL_HANG (R95). DESIGN CHOICE (log 76): with several commands in execution HANGCAP takes the one started last,
and with none the word at the head of the queue. -/
def execChannelHang (k : Nat) (s : State) : Out :=
  run s (decide (k < 64) && s.chanStuck k) (fun s =>
    let c := s.chan k
    let s1 := (s.modMon (512 + k) (fun _ => ⟨true, c.progress, true⟩)).modChan k (fun c => { c with
      hang := true
      hangCap := match c.flights.getLast? with
        | some f => f.word
        | none => c.nextWord.getD 0
      hangVal := match c.flights.find? (fun f => decide (opOf f.word = opWait)) with
        | some f => BitVec.ofNat 64 (s.waitValue k f.word)
        | none => c.hangVal })
    (s1.raise 0x60 k 1 6 k).emit (0x05 + put k 8 6 + put c.execSeq.toNat 16 16) (some k))

end Sys2Proof.Machine
end

