-- ==== Sys2Proof/Machine/Reduce.lean ====
section
/-! DEFINITION. What the reduction units compute on units of a vector, and how units travel in a packet
(R197 to R211, R237). -/

namespace Sys2Proof.Machine

/-- Elements in one unit of a format: a block of 32 for MXFP8, otherwise one. -/
def grain (fmt : Nat) : Nat := if isMx fmt then 32 else 1

/-- The format in which a unit's elements travel: FMT when finished, else T (R201). -/
def wireFmt (rop fmt : Nat) (wide fin : Bool) : Nat :=
  if fin ∨ rop = 6 ∨ rop = 7 then fmt else transit fmt wide

/-- The most elements one packet carries (R237). -/
def maxElems (rop fmt : Nat) (wide fin : Bool) : Nat :=
  let s := esize fmt
  if rop = 6 then 16 * (4096 / (16 * (s + 4)))
  else
    let t := wireFmt rop fmt wide fin
    if isMx t then 3968 else 4096 / max 1 (esize t) / grain fmt * grain fmt

/-- Split a list into runs of `n`; `fuel` bounds their number. -/
def chunks {α : Type} (n : Nat) : Nat → List α → List (List α)
  | 0, _ => []
  | _ + 1, [] => []
  | fuel + 1, l => l.take n :: chunks n fuel (l.drop n)

/-- Little-endian numbers of `n` bytes each. -/
def leNums (n : Nat) (bs : List Byte) : List Nat := (chunks n bs.length bs).map leNat

/-- The payload that carries units (R237): values in order, then scales, ranks or positions. -/
def packUnits (rop fmt : Nat) (wide fin : Bool) (us : List CUnit) : List Byte :=
  let t := wireFmt rop fmt wide fin
  let el := fun (n : Nat) (l : List Nat) => l.foldr (fun v acc => leBytes n v ++ acc) []
  if rop = 6 then el (esize fmt) (us.map (fun u => u.getD 0 0)) ++ el 4 (us.map (fun u => u.getD 1 0))
  else if rop = 7 then
    let l := us.headD []
    el (esize fmt) (l.take (l.length / 2)) ++ el 4 (l.drop (l.length / 2))
  else if isMx t then el 1 (us.flatMap (fun u => u.take 32)) ++ el 1 (us.map (fun u => u.getD 32 0))
  else el (esize t) (us.flatMap id)

/-- The units in a payload. -/
def unpackUnits (rop fmt : Nat) (wide fin : Bool) (bs : List Byte) : List CUnit :=
  let t := wireFmt rop fmt wide fin
  let s := esize fmt
  if rop = 6 then
    let k := bs.length / (s + 4)
    ((leNums s (bs.take (k * s))).zip (leNums 4 (bs.drop (k * s)))).map (fun (v, r) => [v, r])
  else if rop = 7 then
    let k := bs.length / (s + 4)
    if k = 0 then [] else [leNums s (bs.take (k * s)) ++ leNums 4 (bs.drop (k * s))]
  else if isMx t then
    let m := bs.length / 33
    ((chunks 32 m (leNums 1 (bs.take (32 * m)))).zip (leNums 1 (bs.drop (32 * m)))).map (fun (u, x) => u ++ [x])
  else
    let l := leNums (max 1 (esize t)) bs
    if grain fmt = 1 then l.map (fun v => [v]) else chunks 32 l.length l

/-- A candidate list of TOPK as (value, position) pairs. -/
def pairsOf (u : CUnit) : List (Nat × Nat) := (u.take (u.length / 2)).zip (u.drop (u.length / 2))

/-- Insert a pair into a list in the order of R210. -/
def insertTop (fmt : Nat) (x : Nat × Nat) : List (Nat × Nat) → List (Nat × Nat)
  | [] => [x]
  | y :: ys => if above fmt x.1 x.2 y.1 y.2 then x :: y :: ys else y :: insertTop fmt x ys

/-- The first `k` of some pairs, as a candidate list (R210). -/
def topOf (fmt k : Nat) (l : List (Nat × Nat)) : CUnit :=
  let r := (l.foldl (fun acc x => (insertTop fmt x acc).take k) [])
  r.map (·.1) ++ r.map (·.2)

/-- to_T of one input unit at rank `rank` (R201, R203, R209): MXFP8 widens to FP32, ARGMAX adds the rank. -/
def toT (rop fmt : Nat) (wide : Bool) (rank : Nat) (u : CUnit) : CUnit :=
  if rop = 6 then [u.getD 0 0, rank]
  else if isMx fmt ∧ wide then
    (mxDecode fmt (u.take 32) (u.getD 32 0)).map (fun v =>
      match v with
      | .nan _ => (FFmt.mk 8 23 127 true).qnan false
      | w => (FFmt.mk 8 23 127 true).encode .even false w)
  else if isMx fmt then u
  else u.map (toTransit fmt wide)

/-- combine of one unit: the partial first, the local operand second (R194, R203 to R210), with the
saturation mark. -/
def combineUnit (rop fmt : Nat) (wide : Bool) (k : Nat) (acc x : CUnit) : CUnit × Bool :=
  if rop = 7 then (topOf fmt k (pairsOf acc ++ pairsOf x), false)
  else if rop = 6 then
    (if above fmt (x.getD 0 0) (x.getD 1 0) (acc.getD 0 0) (acc.getD 1 0) then x else acc, false)
  else if isMx fmt ∧ ¬ wide then
    let va := mxDecode fmt (acc.take 32) (acc.getD 32 0)
    let vx := mxDecode fmt (x.take 32) (x.getD 32 0)
    let (els, sc) := mxEncode fmt (fun _ => .even) ((va.zip vx).map (fun (p, q) => p.add q))
    (els ++ [sc], false)
  else
    let l := (acc.zip x).map (fun (p, q) => combine1 rop (transit fmt wide) p q)
    (l.map (·.1), l.any (·.2))

/-- combine of two runs of units. -/
def combineUnits (rop fmt : Nat) (wide : Bool) (k : Nat) (acc x : List CUnit) : List CUnit × Bool :=
  let l := (acc.zip x).map (fun (p, q) => combineUnit rop fmt wide k p q)
  (l.map (·.1), l.any (·.2))

/-- finish of one unit, with its saturation mark (R203 to R206). -/
def finishUnit (rop fmt : Nat) (wide : Bool) (u : CUnit) : CUnit × Bool :=
  if rop = 6 ∨ rop = 7 then (u, false)
  else if isMx fmt then
    if ¬ wide then (u, false)
    else
      let (els, sc) := mxEncode fmt (fun _ => .even) (u.map (FFmt.mk 8 23 127 true).decode)
      (els ++ [sc], false)
  else
    let l := u.map (finish1 fmt wide)
    (l.map (·.1), l.any (·.2))

/-- finish of a run of units. -/
def finishUnits (rop fmt : Nat) (wide : Bool) (us : List CUnit) : List CUnit × Bool :=
  let l := us.map (finishUnit rop fmt wide)
  (l.map (·.1), l.any (·.2))

/-- ROP, FMT, type and WIDE form a combination of R200 (types: 0 ALL_REDUCE, 1 REDUCE_SCATTER, 4 REDUCE,
7 SCALAR_AR). -/
def goodRop (ctype rop fmt : Nat) (wide : Bool) : Bool :=
  let num := decide (fmt ∈ [2, 3, 4, 5, 6, 9, 0xA, 0xB])
  let bits := decide (fmt ∈ [0, 1, 9, 0xA, 0xB])
  match rop with
  | 0 => (num || (isMx fmt && decide (ctype ≠ 7))) && (!wide || decide (fmt ∈ [3, 4, 5, 6, 7, 8, 9, 0xA]))
  | 1 | 2 => num && !wide
  | 3 | 4 | 5 => bits && !wide
  | 6 => num && !wide && decide (ctype = 0 ∨ ctype = 4)
  | 7 => num && !wide && decide (ctype = 0)
  | _ => false

end Sys2Proof.Machine
end

