-- ==== Sys2Proof/Machine/CollPlan.lean ====
section
/-! DEFINITION. Groups, signatures and the geometry of schedules (R156 to R180, R233): everything an
instance fixes from its group entry and command. -/

namespace Sys2Proof.Machine

/-! ## Group entries (R156 to R160) -/

/-- The RG offset of group entry `g`. -/
def grpOff (g : Nat) : Nat := 0x20000 + 32 * g

/-- Dimension sizes of an entry whose words are read by `wd`. -/
def grpDims (wd : Nat → Nat) : List Nat :=
  let nd := fld (wd 0) 2 2 + 1
  ((List.range 3).map (fun d => fld (wd 2) (8 * d) 6 + 1)).take nd

/-- The chip number of rank `r` of an entry whose words are `wd` and rank list `rl` (R157). -/
def grpChip (wd rl : Nat → Nat) (r : Nat) : Nat :=
  let base := fld (wd 1) 0 18
  if (wd 0).testBit 1 then fld (rl (base + r)) 0 18
  else
    let dims := grpDims wd
    let n0 := dims.getD 0 1
    let n1 := dims.getD 1 1
    base + (r % n0) * fld (wd 3) 0 18 + (r / n0) % n1 * fld (wd 4) 0 18 + r / (n0 * n1) * fld (wd 5) 0 18

/-- Ranks of an entry. -/
def grpSize (wd : Nat → Nat) : Nat := (grpDims wd).foldl (· * ·) 1

/-- DIGEST of an entry (R159). -/
def grpDigest (wd rl : Nat → Nat) : Nat :=
  let words := [fld (wd 0) 0 10, wd 1, wd 2, wd 3, wd 4, wd 5]
  let more := if (wd 0).testBit 1 then (List.range (grpSize wd)).map (grpChip wd rl) else []
  fld (crc32c ((words ++ more).flatMap (fun v => leBytes 4 v))) 0 16

/-- Words of group entry `g` in force. -/
def State.grpWord (s : State) (g i : Nat) : Nat := (s.force (grpOff g + 4 * i)).toNat
/-- The rank list in force. -/
def State.rlist (s : State) (i : Nat) : Nat := (s.force (0x24000 + 4 * i)).toNat

/-- An entry breaks a rule of R160; `dimWord`, range and chip number are those in force. -/
def badGroup (wd rl : Nat → Nat) (lo hi chip : Nat) : Bool :=
  let dims := grpDims wd
  let n := grpSize wd
  let unused := fun d => decide (dims.length ≤ d) && (decide (fld (wd 2) (8 * d) 6 ≠ 0) || decide (fld (wd (3 + d)) 0 18 ≠ 0))
  let chips := (List.range n).map (grpChip wd rl)
  let list := (wd 0).testBit 1
  decide (fld (wd 0) 2 2 = 3) || unused 1 || unused 2
    || (!list && (decide (fld (wd 3) 0 18 < 1)
        || (decide (2 ≤ dims.length) && decide (fld (wd 4) 0 18 < dims.getD 0 1 * fld (wd 3) 0 18))
        || (decide (3 ≤ dims.length) && decide (fld (wd 5) 0 18 < dims.getD 1 1 * fld (wd 4) 0 18))
        || decide (0x3FFFF < grpChip wd rl (n - 1))))
    || (list && (decide (4096 < fld (wd 1) 0 18 + n) || !decide (chips.Nodup)))
    || chips.any (fun c => decide (c < lo) || decide (hi < c))
    || decide (n ≤ fld (wd 6) 0 18) || decide (chips.getD (fld (wd 6) 0 18) 0 ≠ chip)

/-! ## The plan of an instance -/

def Plan.n (p : Plan) : Nat := p.chips.length
def Plan.nd (p : Plan) : Nat := p.dims.length
/-- Size of dimension `d`. -/
def Plan.size (p : Plan) (d : Nat) : Nat := p.dims.getD d 1
/-- Ranks in one step of dimension `d`. -/
def Plan.stride (p : Plan) (d : Nat) : Nat := (p.dims.take d).foldl (· * ·) 1
/-- Index of rank `r` in dimension `d` (R157). -/
def Plan.idx (p : Plan) (r d : Nat) : Nat := r / p.stride d % p.size d
/-- The rank that differs from `r` only in dimension `d`, where its index is `i`. -/
def Plan.inLine (p : Plan) (r d i : Nat) : Nat := r + i * p.stride d - p.idx r d * p.stride d
/-- The neighbour of `r` along dimension `d`, in the + direction for half 0 (R174). -/
def Plan.next (p : Plan) (r d half : Nat) : Nat :=
  p.inLine r d ((p.idx r d + (if half = 0 then 1 else p.size d - 1)) % p.size d)
/-- The neighbour from which half `half` comes. -/
def Plan.prev (p : Plan) (r d half : Nat) : Nat := p.next r d (1 - half)
/-- The lowest dimension in which rank `r` has a non-zero index; the number of dimensions for rank 0. -/
def Plan.level (p : Plan) (r : Nat) : Nat := ((List.range p.nd).find? (fun d => p.idx r d ≠ 0)).getD p.nd

/-- The type reduces (R161, R194). -/
def Plan.reduces (p : Plan) : Bool := decide (p.ctype ∈ [0, 1, 4, 7])

/-- Element size of FMT. -/
def Plan.es (p : Plan) : Nat := esize p.fmt
/-- Elements in the granule that blocks and halves are rounded to (R174). -/
def Plan.u (p : Plan) : Nat := if isMx p.fmt then 64 else 64 / max 1 p.es

/-- Length of the instance's vector. -/
def Plan.vec (p : Plan) : Nat :=
  if p.ctype = 1 ∨ p.ctype = 2 then p.n * p.count else if p.ctype = 7 then 8 / max 1 p.es
  else if p.ctype = 5 ∨ p.ctype = 6 then 0 else p.count

/-- Ceiling of a quotient. -/
def cdiv (a b : Nat) : Nat := (a + b - 1) / max 1 b

/-- Block size in the cut of a piece of `len` elements along dimension `d` (R174). -/
def Plan.bsize (p : Plan) (d len : Nat) : Nat :=
  if p.ctype = 1 ∨ p.ctype = 2 then p.count else p.u * cdiv len (p.size d * p.u)

/-- Block `b` of the piece [lo, hi) along dimension `d`. -/
def Plan.block (p : Plan) (d lo hi b : Nat) : Nat × Nat :=
  let bs := p.bsize d (hi - lo)
  (min (lo + b * bs) hi, min (lo + (b + 1) * bs) hi)

/-- The piece that rank `r` works on at stage `d` (R175). -/
def Plan.piece (p : Plan) (r : Nat) : Nat → Nat × Nat
  | 0 => (0, p.vec)
  | d + 1 => let (lo, hi) := p.piece r d; p.block d lo hi (p.idx r d)

/-- Elements in the + half of a block of `len` elements. -/
def Plan.plusLen (p : Plan) (len : Nat) : Nat := min len (p.u * cdiv len (2 * p.u))

/-- The block and half at stage `d` that hold element `a` of rank `r`'s piece, and where that half ends. -/
def Plan.seg (p : Plan) (r d a : Nat) : Nat × Nat × Nat :=
  let (lo, hi) := p.piece r d
  let bs := max 1 (p.bsize d (hi - lo))
  let b := (a - lo) / bs
  let (x, y) := p.block d lo hi b
  let m := x + p.plusLen (y - x)
  if a < m then (b, 0, m) else (b, 1, y)

/-- Place of rank `r` in the chain of block `b`, half `half`, along dimension `d`: 1 is the first rank and 0
the owner (R174). -/
def Plan.place (p : Plan) (r d b half : Nat) : Nat :=
  let n := p.size d
  if half = 0 then (p.idx r d + n - b % n) % n else (b + n - p.idx r d) % n

/-- Ranks that the + direction of a CHAIN covers (R177). -/
def Plan.chainPlus (p : Plan) : Nat := cdiv (p.n - 1) 2

/-- Distance of rank `r` from ROOT along a CHAIN and its direction; (0, 0) for ROOT. -/
def Plan.chainPos (p : Plan) (r : Nat) : Nat × Nat :=
  let dp := (r + p.n - p.root) % p.n
  if dp ≤ p.chainPlus then (dp, 0) else (p.n - dp, 1)

/-- The rank before `r` in its CHAIN. -/
def Plan.chainPrev (p : Plan) (r : Nat) : Nat :=
  if (p.chainPos r).2 = 0 then (r + p.n - 1) % p.n else (r + 1) % p.n

/-- The rank after `r` in its CHAIN direction `h`, if the CHAIN goes on. -/
def Plan.chainNext (p : Plan) (r h : Nat) : Option Nat :=
  let d := (p.chainPos r).1
  let last := if h = 0 then p.chainPlus else p.n - 1 - p.chainPlus
  if d < last then some (if h = 0 then (r + 1) % p.n else (r + p.n - 1) % p.n) else none

/-- The next rank on the return path of a REDUCE from rank 0 to ROOT through the hubs, at a member that got
the result at level `lv` (R176): the highest dimension below `lv` in which ROOT's index is not zero. -/
def Plan.toRoot (p : Plan) (r lv : Nat) : Option (Nat × Nat) :=
  ((List.range lv).reverse.find? (fun d => p.idx p.root d ≠ 0)).map (fun d => (p.inLine r d (p.idx p.root d), d))

/-- Rank `r` lies on the return path: its indices equal ROOT's from its level up. -/
def Plan.onPath (p : Plan) (r : Nat) : Bool :=
  (List.range p.nd).all (fun d => p.idx r d = 0 || p.idx r d = p.idx p.root d)
    && (List.range p.nd).all (fun d => decide (d < p.level r) || decide (p.idx r d = p.idx p.root d))

/-! ## Streams (R180, R267) -/

/-- Stream keys: ring half + 2·DIM, 8 result to ROOT of a RING, 16 + DIM fold, 24 + DIM result of a STAR,
32 broadcast, 33 forwarding of a CHAIN, 40 slots. -/
def Plan.keyOf (p : Plan) (cphase half dim : Nat) : Nat :=
  if p.ctype = 5 then 40
  else if p.ctype = 3 then (if p.rank = p.root then 32 else 33)
  else if cphase = 2 then 16 + dim
  else if cphase = 3 then (if p.sched = 1 then 8 else 24 + dim)
  else half + 2 * dim

/-- The other ranks. -/
def Plan.others (p : Plan) : List Nat := (List.range p.n).filter (fun r => r ≠ p.rank)

/-- The other ranks of this rank's line along dimension `d`. -/
def Plan.line (p : Plan) (d : Nat) : List Nat :=
  ((List.range (p.size d)).filter (fun i => i ≠ p.idx p.rank d)).map (fun i => p.inLine p.rank d i)

/-- The dimensions of more than one rank. -/
def Plan.used (p : Plan) : List Nat := (List.range p.nd).filter (fun d => 2 ≤ p.size d)

/-- Rank `r` owns a finished piece with elements, or the vector is empty. -/
def Plan.owns (p : Plan) (r : Nat) : Bool :=
  let (lo, hi) := p.piece r p.nd
  decide (lo < hi) || decide (p.vec = 0)

/-- READY tokens this member sends at its start: rank, CPHASE, HALF, DIM (R180). DESIGN CHOICE (log 78): the spec
gives no CPHASE, HALF and DIM for the READYs of DIRECT, MCAST, CHAIN and the streams of a REDUCE to ROOT; the model
takes those of the data that the stream will carry, with HALF 0 and DIM 0 where data of both halves come. -/
def Plan.readies (p : Plan) : List (Nat × Nat × Nat × Nat) :=
  let r := p.rank
  if p.sched = 1 then
    let ph := if p.ctype = 2 then 1 else 0
    p.used.flatMap (fun d => [(p.prev r d 0, ph, 0, d), (p.prev r d 1, ph, 1, d)])
      ++ (if p.ctype = 4 ∧ r = p.root then (p.others.filter p.owns).map (fun q => (q, 3, 0, 0)) else [])
  else if p.sched = 0 then
    let lv := p.level r
    let wants := match p.ctype with
      | 6 => false
      | 4 => p.onPath r
      | _ => true
    ((List.range lv).flatMap (fun d => (p.line d).map (fun q => (q, 2, 0, d))))
      ++ (if decide (r ≠ 0) && wants then [(p.inLine r lv 0, 3, 0, lv)] else [])
  else if p.sched = 4 then p.others.map (fun q => (q, 0, 0, 0))
  else if r = p.root then []
  else
    let h := (p.chainPos r).2
    let prev := p.chainPrev r
    (p.root, 1, h, 0) :: (if p.sched = 3 ∧ prev ≠ p.root then [(prev, 1, h, 0)] else [])

/-- The data streams this member sends on (R180). -/
def Plan.streams (p : Plan) : List OutStream :=
  let r := p.rank
  let mk := fun (q k : Nat) => OutStream.mk q k false 0 0
  if p.sched = 1 then
    p.used.flatMap (fun d => [mk (p.next r d 0) (2 * d), mk (p.next r d 1) (1 + 2 * d)])
      ++ (if p.ctype = 4 ∧ r ≠ p.root ∧ p.owns r then [mk p.root 8] else [])
  else if p.sched = 0 then
    let lv := p.level r
    let res := match p.ctype with
      | 6 => []
      | 4 => if p.onPath r then (p.toRoot r lv).toList.map (fun (q, d) => mk q (24 + d)) else []
      | _ => (List.range lv).flatMap (fun d => (p.line d).map (fun q => mk q (24 + d)))
    (if r ≠ 0 then [mk (p.inLine r lv 0) (16 + lv)] else []) ++ res
  else if p.sched = 4 then p.others.map (fun q => mk q 40)
  else if r = p.root then p.others.map (fun q => mk q 32)
  else if p.sched = 3 then (p.chainNext r (p.chainPos r).2).toList.map (fun q => mk q 33)
  else []

/-- The first credits of a stream: 4 for a RING stream, its results to ROOT included, 2 for every other (R267). -/
def firstCredit (key : Nat) : Nat := if key ≤ 8 then 4 else 2

/-- The ejection berths set aside for the stream that a READY opens (R267): none for the READY to ROOT of a CHAIN's
member whose data come from another rank. -/
def Plan.berthsFor (p : Plan) (q : Nat) : Nat :=
  if p.sched = 3 ∧ q = p.root ∧ p.chainPrev p.rank ≠ p.root then 0 else if p.sched = 1 then 4 else 2

/-- What a stream brings before it ends, in elements, or in packets where they carry none or a whole list: `none` for
the streams of a RING's lines, which end with the instance, and of DIRECT, which end with DONE. -/
def Plan.expect (p : Plan) (q ph : Nat) : Option Nat :=
  if p.ctype = 5 then none
  else if p.sched = 1 then
    if ph = 3 then
      let (lo, hi) := p.piece q p.nd
      some (if p.vec = 0 then 2 else hi - lo)
    else none
  else if p.vec = 0 ∨ p.rop = 7 then some 1
  else some p.vec

/-! ## Signature (R185, R233) -/

/-- H5 of the signature for sequence `seq`. -/
def Plan.sig5 (p : Plan) (seq : HWord) : Nat :=
  put p.ctype 0 4 + put p.rop 4 4 + put p.fmt 8 4 + put (b2n p.wide) 12 1 + put p.k 13 7 + put p.g 20 9
    + put seq.toNat 32 16 + put p.digest 48 16

/-- H6 of the signature. -/
def Plan.sig6 (p : Plan) : Nat :=
  (if p.ctype = 5 then put p.cap 0 32 + put (p.rb / 64 - 1) 32 10 else if p.ctype = 6 ∨ p.ctype = 7 then 0
   else put p.count 0 40) + put p.root 42 18

/-- Fields in which a received signature differs, as the bits of FIELDS from bit 0 (R188). -/
def sigDiff (h5 h6 r5 r6 : Nat) : Nat :=
  maskOf ((List.range 9).filter (fun i =>
    match i with
    | 0 => fld h5 0 4 ≠ fld r5 0 4
    | 1 => fld h5 4 4 ≠ fld r5 4 4
    | 2 => fld h5 8 4 ≠ fld r5 8 4
    | 3 => fld h5 12 1 ≠ fld r5 12 1
    | 4 => fld h5 13 7 ≠ fld r5 13 7
    | 5 => fld h6 0 42 ≠ fld r6 0 42
    | 6 => fld h6 42 18 ≠ fld r6 42 18
    | 7 => fld h5 48 16 ≠ fld r5 48 16
    | _ => fld h5 32 16 ≠ fld r5 32 16))

/-! ## Where data lie in host memory (R163, R164, R166, R167, R199) -/

/-- Element ranges of `n` elements from element `i` of a buffer of `e` elements at `base` (R199). -/
def bufRanges (fmt base e i n : Nat) : List (Nat × Nat) :=
  if isMx fmt then [(base + i, n), (base + 4096 * cdiv e 4096 + i / 32, n / 32)]
  else [(base + i * esize fmt, n * esize fmt)]

/-- Elements of SRC. -/
def Plan.srcElems (p : Plan) : Nat := if p.ctype = 1 then p.n * p.count else p.count
/-- Elements of DST. -/
def Plan.dstElems (p : Plan) : Nat := if p.ctype = 2 then p.n * p.count else if p.rop = 7 then p.k else p.count

/-- The vector index of the first element of SRC. -/
def Plan.srcBase (p : Plan) : Nat := if p.ctype = 2 then p.rank * p.count else 0
/-- The vector index of the first element of DST. -/
def Plan.dstBase (p : Plan) : Nat := if p.ctype = 1 then p.rank * p.count else 0

/-- Bytes of the input that `n` elements take, MXFP8 scales included (R199); for A2A_CAP `n` counts bytes. -/
def Plan.readBytes (p : Plan) (n : Nat) : Nat :=
  if p.ctype = 5 then n else n * p.es + (if isMx p.fmt then n / 32 else 0)

/-- Bytes of the input that the elements of a payload took; `fin` says that they travel in FMT. -/
def Plan.inputBytes (p : Plan) (fin : Bool) (len : Nat) : Nat :=
  if p.ctype = 5 ∨ fin then len
  else if p.rop = 6 ∨ p.rop = 7 then len / (p.es + 4) * p.es
  else
    let t := wireFmt p.rop p.fmt p.wide false
    if isMx t then len else p.readBytes (len / max 1 (esize t))

/-- Ranges of DST that a finished piece writes, with their bytes: values, then scales, ranks or positions. -/
def Plan.places (p : Plan) (a : Nat) (us : List CUnit) : List (Nat × List Byte) :=
  let i := a - p.dstBase
  let pay := packUnits p.rop p.fmt false true us
  if p.rop = 6 ∨ p.rop = 7 then
    let k := pay.length / (p.es + 4)
    let second := cdiv (p.dst + p.dstElems * p.es) 64 * 64
    [(p.dst + i * p.es, pay.take (k * p.es)), (second + 4 * i, pay.drop (k * p.es))]
  else if isMx p.fmt then
    let n := 32 * us.length
    [(p.dst + i, pay.take n), (p.dst + 4096 * cdiv p.dstElems 4096 + i / 32, pay.drop n)]
  else [(p.dst + i * p.es, pay)]

/-- This member writes DST (R183). -/
def Plan.writesDst (p : Plan) : Bool :=
  match p.ctype with
  | 3 => decide (p.rank ≠ p.root) || decide (p.src ≠ p.dst)
  | 4 => decide (p.rank = p.root)
  | 6 | 7 => false
  | _ => true

/-- Bytes of DST this member writes. -/
def Plan.dstBytes (p : Plan) : Nat :=
  if ¬ p.writesDst then 0
  else if p.ctype = 5 then p.n * p.cap * p.rb
  else
    let e := p.dstElems
    e * p.es + (if isMx p.fmt then e / 32 else if p.rop = 6 ∨ p.rop = 7 then 4 * e else 0)

/-- LEN 0 packets addressed to this member in an instance of COUNT 0 whose arrival is its condition on DST
(R170, R183). -/
def Plan.emptyNeed (p : Plan) : Nat :=
  if p.vec ≠ 0 ∨ p.ctype ≥ 5 then 0
  else if p.sched = 1 then
    let u := 2 * p.used.length
    match p.ctype with
    | 0 => 2 * u
    | 4 => if p.rank = p.root then u + 2 * (p.n - 1) else 0
    | _ => u
  else if p.sched = 0 then
    let folds := ((List.range (p.level p.rank)).map (fun d => p.size d - 1)).foldl (· + ·) 0
    if p.ctype = 4 ∧ p.rank ≠ p.root then 0 else folds + b2n (p.rank ≠ 0)
  else if p.rank = p.root then 0 else 1

/-- Offsets of an A2A_CAP send area: the counts' bytes, and the first row (R166). -/
def Plan.rowBase (p : Plan) : Nat := p.src + 64 + cdiv (4 * p.n) 64 * 64

/-- Rows of rank `j`'s list before row 0 of it. -/
def rowStart (counts : List Nat) (j : Nat) : Nat := (counts.take j).foldl (· + ·) 0

/-- Rows delivered to each rank: at most CAP, and none from row COUNT of the area on (R166, R167). -/
def Plan.delivered (p : Plan) (counts : List Nat) : List Nat :=
  (List.range p.n).map (fun j => min (min (counts.getD j 0) p.cap) (p.count - rowStart counts j))

/-- The input to be read, by read stream, as (receiver, first, count) runs in the order in which the streams
need them (R174, R194). -/
def Plan.input (p : Plan) (sent : List Nat) : List (List (Nat × Nat × Nat)) :=
  let r := p.rank
  let halves := fun (d b h : Nat) =>
    let (lo, hi) := p.piece r d
    let (x, y) := p.block d lo hi b
    let m := x + p.plusLen (y - x)
    if h = 0 then (0, x, m - x) else (0, m, y - m)
  let keep := fun (l : List (Nat × Nat × Nat)) => l.filter (fun e => e.2.2 ≠ 0)
  if p.ctype ≥ 6 then []
  else if p.ctype = 5 then
    (List.range p.n).map (fun j => keep [(j, 0, sent.getD j 0 * p.rb)])
  else if p.sched = 1 then
    if p.ctype = 2 then [keep [halves 0 r 0], keep [halves 0 r 1]]
    else
      let n0 := p.size 0
      let i0 := p.idx r 0
      [keep ((List.range n0).map (fun j => halves 0 ((i0 + n0 - (j + 1) % n0) % n0) 0)),
        keep ((List.range n0).map (fun j => halves 0 ((i0 + j + 1) % n0) 1))]
  else if p.sched = 0 ∨ r = p.root then [keep [(0, 0, p.vec)]]
  else []

end Sys2Proof.Machine
end

