-- ==== Sys2Proof/Machine/CollData.lean ====
section
/-! DEFINITION. The data flow of an instance at one member (R174 to R177, R194, R211, R212): what own input,
arrived partials and finished pieces lead to. Everything here changes the instance alone; the engine sends,
writes and acknowledges what it leaves in the instance's lists. -/

namespace Sys2Proof.Machine

/-! ## Sending -/

/-- Queue packets that carry units from element `a` on, cut at the packet limit; no units make one LEN 0
packet (R170, R237). -/
def CollInst.send (c : CollInst) (key : Nat) (ranks : List Nat) (mdir : Option Nat) (cphase half dim a : Nat)
    (us : List CUnit) (fin sat : Bool) (str : Nat) : CollInst :=
  let p := c.plan
  let g := grain p.fmt
  let m := if p.rop = 7 then 1 else max 1 (maxElems p.rop p.fmt p.wide fin / g)
  let parts := if us = [] then [[]] else chunks m us.length us
  let ps := ((List.range parts.length).zip parts).map (fun (i, l) =>
    OutPiece.mk key ranks mdir 0x81 cphase half dim (a + i * m * g) (packUnits p.rop p.fmt p.wide fin l) sat str)
  { c with queue := c.queue ++ ps }

/-- Queue a release to some ranks (R176). -/
def CollInst.release (c : CollInst) (ranks : List Nat) (mdir : Option Nat) (dim : Nat) : CollInst :=
  { c with queue := c.queue ++ [⟨99, ranks, mdir, 0x84, 3, 0, dim, 0, [], false, 9⟩] }

/-- The + and − row multicasts of the sender: covered ranks in the order of travel, the last one the DST, and
the direction (R275). -/
def Plan.mcast (p : Plan) : List (List Nat × Nat) :=
  let h := cdiv p.plus.length 2
  let minus := (p.plus.drop h).reverse
  [(p.plus.take h, 2 * p.axis), (minus, 2 * p.axis + 1)].filter (fun e => e.1 ≠ [])

/-! ## Finished pieces -/

/-- What a finished piece means at this member itself: a scalar, bytes of DST, or the arrival of a LEN 0
packet; a packet that brings nothing to write is acknowledged at once. -/
def CollInst.keep (c : CollInst) (a : Nat) (us : List CUnit) (sat : Bool) (pkt : Option Packet) : CollInst :=
  let p := c.plan
  let ack := fun (c : CollInst) => match pkt with
    | some q => { c with acks := c.acks ++ [(q, false)] }
    | none => c
  if p.ctype = 7 then
    let l := us.flatMap id
    let v := leNat (l.flatMap (fun x => leBytes p.es x))
    ack { c with value := some (BitVec.ofNat 64 v), sat := c.sat || sat }
  else if us = [] then ack { c with need := if pkt.isSome then c.need - 1 else c.need }
  else if ¬ p.writesDst then ack c
  else
    let g := grain p.fmt
    let n := g * us.length
    let lo := if p.ctype = 1 then max a (p.rank * p.count) else a
    let hi := if p.ctype = 1 then min (a + n) ((p.rank + 1) * p.count) else a + n
    let own := if p.rop = 7 then us else (us.drop ((lo - a) / g)).take ((hi - lo) / g)
    if own = [] then ack c
    else { c with fin := c.fin ++ [⟨p.places lo own, sat, pkt⟩] }

/-- Split a run of units at the ends of block halves of stage `d`: (block, half, first element, units). -/
def Plan.split (p : Plan) (d : Nat) : Nat → Nat → List CUnit → List (Nat × Nat × Nat × List CUnit)
  | 0, _, _ => []
  | fuel + 1, a, us =>
    if us = [] then []
    else
      let (b, h, e) := p.seg p.rank d a
      let m := max 1 ((e - a) / grain p.fmt)
      (b, h, a, us.take m) :: p.split d fuel (a + m * grain p.fmt) (us.drop m)

/-- The gather sends that finished elements cause along every dimension below `lv`, highest first (R174,
R175). -/
def CollInst.gather (c : CollInst) (lv a : Nat) (us : List CUnit) (sat : Bool) : CollInst :=
  (c.plan.used.filter (fun d => d < lv)).reverse.foldl (fun c d =>
    (c.plan.split d us.length a us).foldl (fun c (_, h, x, l) =>
      c.send (h + 2 * d) [c.plan.next c.plan.rank d h] none 1 h d x l true sat 9) c) c

/-- The result of a STAR on its way out from a member of level `lv` (R176). -/
def CollInst.starResult (c : CollInst) (lv a : Nat) (us : List CUnit) (sat : Bool) (pkt : Option Packet) : CollInst :=
  let p := c.plan
  if p.ctype = 4 then
    if p.rank = p.root then c.keep a us sat pkt
    else
      let c1 := match pkt with
        | some q => { c with acks := c.acks ++ [(q, false)] }
        | none => c
      match p.toRoot p.rank lv with
      | some (q, d) => c1.send (24 + d) [q] none 3 0 d a us true sat 9
      | none => c1
  else
    let c1 := c.keep a us sat pkt
    if p.nd = 1 ∧ p.axis < 3 then
      if p.rank = 0 then p.mcast.foldl (fun c (l, dir) => c.send 24 l (some dir) 3 0 0 a us true sat 9) c1 else c1
    else
      (List.range lv).reverse.foldl (fun c d =>
        (p.line d).foldl (fun c q => c.send (24 + d) [q] none 3 0 d a us true sat 9) c) c1

/-- The release of a BARRIER on its way out from a member of level `lv`. -/
def CollInst.starRelease (c : CollInst) (lv : Nat) : CollInst :=
  let p := c.plan
  let c1 := { c with relSeen := true }
  if p.nd = 1 ∧ p.axis < 3 then
    if p.rank = 0 then p.mcast.foldl (fun c (l, dir) => c.release l (some dir) 0) c1 else c1
  else (List.range lv).reverse.foldl (fun c d => (p.line d).foldl (fun c q => c.release [q] none d) c) c1

/-! ## Partials -/

/-- Add local operands to those that wait. -/
def CollInst.addPart (c : CollInst) (x : Part) : CollInst := { c with parts := c.parts ++ [x] }

/-- `n` units from element `a` of stage `dim` and place `pos`, gathered from the local operands that hold them
whatever the order in which they came, with their saturation marks; none while one is missing. `g`: elements of a
unit; `fuel` bounds the operands used. No units are held by an operand without units. -/
def operand (parts : List Part) (dim pos g : Nat) : Nat → Nat → Nat → Option (List CUnit × Bool)
  | 0, _, _ => none
  | fuel + 1, a, n =>
    match parts.find? (fun y => decide (y.dim = dim) && decide (y.pos = pos) && decide (y.a ≤ a)
        && (decide (a < y.a + g * y.us.length) || (decide (n = 0) && decide (y.us = [])))) with
    | none => none
    | some y =>
      let l := (y.us.drop ((a - y.a) / g)).take n
      if l.length = n then some (l, y.sat)
      else (operand parts dim pos g fuel (a + g * l.length) (n - l.length)).map (fun (m, s) => (l ++ m, y.sat || s))

/-- The local operands once `n` units from element `a` of a stage and place have been used. -/
def CollInst.dropOperand (c : CollInst) (dim pos a n : Nat) : CollInst :=
  let g := grain c.plan.fmt
  { c with parts := c.parts.flatMap (fun y =>
      if y.dim ≠ dim ∨ y.pos ≠ pos then [y]
      else if n = 0 then (if y.us = [] then [] else [y])
      else
        let before := { y with us := y.us.take ((a - y.a) / g) }
        let after := { y with a := max y.a (a + g * n), us := y.us.drop ((a + g * n - y.a) / g) }
        (if before.us = [] then [] else [before]) ++ (if after.us = [] then [] else [after])) }

/-- Own operands of stage `d` are present: the first rank of a chain sends them, others keep them for the
partial that will come; past the last stage they are finished (R174 to R176). -/
def CollInst.own : Nat → CollInst → Nat → Nat → List CUnit → Bool → Nat → CollInst
  | 0, c, _, _, _, _, _ => c
  | fuel + 1, c, d, a, us, sat, str =>
    let p := c.plan
    if p.nd ≤ d then
      if p.ctype = 6 then c.starRelease d
      else
        let (vs, m) := finishUnits p.rop p.fmt p.wide us
        if p.sched = 0 then c.starResult d a vs (sat || m) none
        else if p.ctype = 4 then
          if p.rank = p.root then c.keep a vs (sat || m) none
          else c.send 8 [p.root] none 3 (p.seg p.rank (d - 1) a).2.1 0 a vs true (sat || m) 9
        else
          let c1 := c.keep a vs (sat || m) none
          if p.ctype = 1 then c1 else c1.gather d a vs (sat || m)
    else if p.size d = 1 then CollInst.own fuel c (d + 1) a us sat str
    else if p.sched = 0 then
      let l := if us = [] ∨ p.rop = 7 then [(a, us)] else (p.split 0 us.length a us).map (fun (_, _, x, v) => (x, v))
      l.foldl (fun c (x, v) =>
        if p.idx p.rank d = 0 then c.addPart ⟨d, 1, x, v, sat, str⟩
        else c.send (16 + d) [p.inLine p.rank d 0] none 2 0 d x v false sat str) c
    else
      (p.split d us.length a us).foldl (fun c (b, h, x, l) =>
        if p.place p.rank d b h = 1 then c.send (h + 2 * d) [p.next p.rank d h] none 0 h d x l false sat str
        else c.addPart ⟨d, 0, x, l, sat, str⟩) c

/-- The units that one piece holds (R193): 256 B of the elements as partials carry them, one MXFP8 block. A TOPK
candidate list is one piece, however long (DESIGN CHOICE, log 79: a list of more than 256 B has no cut of its own). -/
def Plan.pieceUnits (p : Plan) : Nat :=
  if p.rop = 7 ∨ isMx p.fmt then 1
  else if p.rop = 6 then 256 / (p.es + 4)
  else 256 / max 1 (esize (wireFmt p.rop p.fmt p.wide false))

/-- The next piece of a waiting partial: its first element and its units. -/
def CollInst.piece (c : CollInst) (w : Wait) : Nat × Nat :=
  (w.a + grain c.plan.fmt * w.done.length, min c.plan.pieceUnits (w.us.length - w.done.length))

/-- The local operand of the next piece of a waiting partial. -/
def CollInst.operandOf (c : CollInst) (w : Wait) : Option (List CUnit × Bool) :=
  let (a, n) := c.piece w
  operand c.parts w.dim w.pos (grain c.plan.fmt) (n + 1) a n

/-- What the combined units of a partial lead to, once all its pieces are combined (R174 to R176). -/
def CollInst.goOn (c : CollInst) (w : Wait) : CollInst :=
  let p := c.plan
  let d := w.dim
  if w.pos = 0 then
    let (b, h, _) := p.seg p.rank d w.a
    if p.place p.rank d b h = 0 then CollInst.own 4 c (d + 1) w.a w.done w.sat 9
    else c.send (h + 2 * d) [p.next p.rank d h] none 0 h d w.a w.done false w.sat 9
  else if w.pos + 1 = p.size d then CollInst.own 4 c (d + 1) w.a w.done w.sat 9
  else c.addPart ⟨d, w.pos + 1, w.a, w.done, w.sat, 9⟩

/-- Combine the next piece of a waiting partial with its local operand (R193, R194, R212): in a chain the partial is
the first operand, at a hub what the lower ranks gave. After the last piece the packet is acknowledged and what was
combined goes on. -/
def CollInst.combine (c : CollInst) (w : Wait) : CollInst :=
  let p := c.plan
  match c.operandOf w with
  | none => c
  | some (mine, psat) =>
    let (a, n) := c.piece w
    let c0 := c.dropOperand w.dim w.pos a n
    let theirs := (w.us.drop w.done.length).take n
    let (vs, m) := if w.pos = 0 then combineUnits p.rop p.fmt p.wide p.k theirs mine
      else combineUnits p.rop p.fmt p.wide p.k mine theirs
    let x := { w with done := w.done ++ vs, sat := w.sat || psat || m }
    if x.done.length < x.us.length then
      { c0 with waits := updFirst (fun z => decide (z = w)) (fun _ => x) c0.waits }
    else
      CollInst.goOn { c0 with
        waits := dropFirst (fun z => decide (z = w)) c0.waits
        need := if w.us = [] then c0.need - 1 else c0.need
        acks := c0.acks ++ [(w.pkt, false)] } x

/-! ## Instances of COUNT 0 in a RING (R170) -/

/-- Send the LEN 0 packet of half `h` in the gather phase along the highest of some dimensions, or, for a
REDUCE, to ROOT. -/
def CollInst.zeroDown (c : CollInst) (ds : List Nat) (h : Nat) : CollInst :=
  let p := c.plan
  if p.ctype = 4 then (if p.rank = p.root then c else c.send 8 [p.root] none 3 h 0 0 [] true false 9)
  else if p.ctype = 1 then c
  else
    match ds with
    | d :: _ => c.send (h + 2 * d) [p.next p.rank d h] none 1 h d 0 [] true false 9
    | [] => c

/-- Send the LEN 0 packet of half `h` in the reduce phase of the first of some dimensions. -/
def CollInst.zeroUp (c : CollInst) (ds : List Nat) (h : Nat) : CollInst :=
  match ds with
  | d :: _ => c.send (h + 2 * d) [c.plan.next c.plan.rank d h] none 0 h d 0 [] false false 9
  | [] => c.zeroDown c.plan.used.reverse h

/-! ## Arrivals -/

/-- A forwarded piece of a CHAIN goes on; one of a MCAST does not. -/
def CollInst.chainOn (c : CollInst) (h a : Nat) (us : List CUnit) : CollInst :=
  if c.plan.sched = 3 then
    match c.plan.chainNext c.plan.rank h with
    | some q => c.send (if c.plan.rank = c.plan.root then 32 else 33) [q] none 1 h 0 a us true false 9
    | none => c
  else c

/-- Data of a stream have come: what it still brings goes down, and its berths are free at its end (R267). -/
def CollInst.arrived (c : CollInst) (r cphase dim : Nat) (us : List CUnit) : CollInst :=
  let n := if us = [] ∨ c.plan.rop = 7 then 1 else grain c.plan.fmt * us.length
  let step := fun (x : InStream) =>
    if x.rank = r ∧ x.cphase = cphase ∧ x.dim = dim then { x with left := x.left.map (fun l => l - n) } else x
  { c with ins := (c.ins.map step).filter (fun x => x.left ≠ some 0) }

/-- A data packet of the instance arrives from rank `from_` (R174 to R177, R182). -/
def CollInst.arrive (c0 : CollInst) (from_ : Nat) (q : Packet) : CollInst :=
  let p := c0.plan
  let cphase := qf q.h7 0 2
  let half := qf q.h7 2 1
  let dim := qf q.h7 3 2
  let fin := decide (cphase = 1 ∨ cphase = 3)
  let us := unpackUnits p.rop p.fmt p.wide fin q.pay
  let c := c0.arrived from_ cphase dim us
  if p.sched = 1 ∧ p.vec = 0 then
    let c1 := { c with need := c.need - 1, acks := c.acks ++ [(q, false)] }
    match cphase with
    | 0 => c1.zeroUp (p.used.filter (fun d => dim < d)) half
    | 1 => c1.zeroDown (p.used.filter (fun d => d < dim)).reverse half
    | _ => c1
  else
    match cphase with
    | 0 => { c with waits := c.waits ++ [⟨dim, 0, half, q.offset, us, [], q.sat, q⟩] }
    | 2 => { c with waits := c.waits ++ [⟨dim, p.idx from_ dim, 0, q.offset, us, [], q.sat, q⟩] }
    | 1 =>
      let c1 := c.keep q.offset us q.sat (some q)
      if p.sched = 1 then
        let (b, h, _) := p.seg p.rank dim q.offset
        let c2 :=
          if p.place p.rank dim b h + 1 < p.size dim then
            c1.send (h + 2 * dim) [p.next p.rank dim h] none 1 h dim q.offset us true q.sat 9
          else c1
        c2.gather dim q.offset us q.sat
      else c1.chainOn half q.offset us
    | _ =>
      if p.sched = 1 then c.keep q.offset us q.sat (some q)
      else c.starResult dim q.offset us q.sat (some q)

/-- Own input of `us` units from vector element `a` has been read, by read stream `str` (R174, R177,
R194). -/
def CollInst.input (c : CollInst) (a : Nat) (us : List CUnit) (str : Nat) : CollInst :=
  let p := c.plan
  if p.ctype = 3 then
    let c1 := if p.writesDst then c.keep a us false none else c
    if p.sched = 2 then p.mcast.foldl (fun c (l, dir) => c.send 32 l (some dir) 1 (dir % 2) 0 a us true false str) c1
    else (c1.chainOn 0 a us).chainOn 1 a us
  else if p.ctype = 2 then (c.keep a us false none).gather p.nd a us false
  else if p.rop = 7 then
    let more := (us.zip (List.range us.length)).map (fun (u, i) => (u.getD 0 0, p.rank * p.count + a + i))
    let l := topOf p.fmt p.k ((c.cand.headD []) |> pairsOf |>.append more)
    if c.reads = [] ∧ c.src.all (fun l => l = []) then CollInst.own 4 { c with cand := [] } 0 0 [l] false str
    else { c with cand := [l] }
  else CollInst.own 4 c 0 a (us.map (toT p.rop p.fmt p.wide p.rank)) false str

/-- What an instance without input does at its start: BARRIER, SCALAR_AR with operand `v`, COUNT 0. -/
def CollInst.startEmpty (c : CollInst) (v : Quad) : CollInst :=
  let p := c.plan
  if p.ctype = 6 then CollInst.own 4 c 0 0 [] false 9
  else if p.ctype = 7 then
    CollInst.own 4 c 0 0 ((leNums (max 1 p.es) (leBytes 8 v.toNat)).map (fun x => toT p.rop p.fmt p.wide p.rank [x])) false 9
  else if p.ctype = 5 ∨ p.vec ≠ 0 then c
  else if p.sched = 1 then
    if p.ctype = 2 then (c.zeroDown p.used.reverse 0).zeroDown p.used.reverse 1
    else (c.zeroUp p.used 0).zeroUp p.used 1
  else if p.sched = 0 then CollInst.own 4 c 0 0 [] false 9
  else if p.rank = p.root then
    (if p.sched = 2 then p.mcast.foldl (fun c (l, dir) => c.send 32 l (some dir) 1 (dir % 2) 0 0 [] true false 9) c
     else (c.chainOn 0 0 []).chainOn 1 0 [])
  else c

end Sys2Proof.Machine
end

