-- ==== Sys2Proof/Machine/Coll.lean ====
section
/-! DEFINITION. The collective engine at one member: starting, rendezvous, sending against credits, reading
and writing, aborts and completion (R170 to R192, R267, R540). -/

namespace Sys2Proof.Machine

/-- The block may form collective packets of its partition now: as for requests, but an instance in progress
goes on during a lock cycle, which waits for its entry to be free (R192). A block without key, number or position
forms none (R20). -/
def State.collForm (s : State) : Bool := s.mayOriginate && !s.pfence && !s.abortHold && !s.haltOwn && !s.shut

/-! ## The plan (R161 to R173) -/

/-- Insert by a key, keeping the order. -/
def insertBy (key : Nat → Nat) (x : Nat) : List Nat → List Nat
  | [] => [x]
  | y :: ys => if key x < key y then x :: y :: ys else y :: insertBy key x ys

/-- COUNT of a COLL: from the word, or from a scalar (R68). -/
def State.collCount (s : State) (k : Nat) (w : CmdWord) : Nat :=
  if (cq w 3).testBit 40 then (s.scalar k (cf w 3 41 3)).toNat % 2 ^ 40 else cf w 3 0 40

/-- The dimension along which the positions of some chips lie on one line, 3 if they do not (R177). -/
def State.axisOf (s : State) (chips : List Nat) : Nat :=
  let ps := chips.map (s.resolve s.tbl.cur)
  if ps.any Option.isNone then 3
  else
    let l := ps.filterMap id
    let p0 := l.headD (0, 0, 0)
    let vary := [0, 1, 2].filter (fun d => l.any (fun p => p.at d ≠ p0.at d))
    match vary with
    | [d] => d
    | _ => 3

/-- The other ranks in the order of their distance from rank `r` in the + direction of dimension `d` (R275). -/
def State.plusOrder (s : State) (chips : List Nat) (r d : Nat) : List Nat :=
  let at_ := fun i => ((s.resolve s.tbl.cur (chips.getD i 0)).getD (0, 0, 0)).at d
  let n := dimOf (s.reg 0x120).toNat d
  ((List.range chips.length).filter (fun i => i ≠ r)).foldl
    (fun l i => insertBy (fun j => (at_ j + n - at_ r) % n) i l) []

/-- The plan of a COLL word on its group entry (R173). -/
def State.planOf (s : State) (k : Nat) (w : CmdWord) : Plan :=
  let g := cf w 4 0 9
  let wd := s.grpWord g
  let dims := grpDims wd
  let n := grpSize wd
  let chips := (List.range n).map (grpChip wd s.rlist)
  let ct := cf w 4 12 4
  let count := s.collCount k w
  let fmt := cf w 4 20 4
  let root := cf w 4 46 18
  let bytes := (if ct = 1 then n * count else count) * esize fmt
  let log2 := fld (wd 0) 4 6
  let star := decide (log2 = 63) || (decide (log2 ≠ 0) && decide (bytes < 2 ^ log2))
  let axis := if dims.length = 1 then s.axisOf chips else 3
  let sched :=
    if ct = 6 ∨ ct = 7 ∨ (ct = 0 ∧ cf w 4 16 4 = 7) then 0
    else if ct = 2 then 1
    else if ct = 3 then (if axis < 3 then 2 else 3)
    else if ct = 5 then 4
    else if star then 0 else 1
  { g := g
    digest := fld (wd 0) 16 16
    ctype := ct
    rop := cf w 4 16 4
    fmt := fmt
    wide := (cq w 4).testBit 24
    k := cf w 4 32 7
    root := root
    count := count
    cap := cf w 5 0 32
    rb := 0
    src := offOf (cq w 1)
    dst := offOf (cq w 2)
    report := if cq w 7 = 0 then none else some (offOf (cq w 7))
    tally := if (cq w 6).testBit 13 then some (cf w 6 0 13) else none
    dims := dims
    rank := fld (wd 6) 0 18
    sched := sched
    chips := chips
    axis := axis
    plus := if axis < 3 then s.plusOrder chips (if ct = 3 then root else 0) axis else [] }

/-- The areas of SRC: elements, and MXFP8 scales (R199). -/
def Plan.srcAreas (p : Plan) : List (Nat × Nat) := bufRanges p.fmt p.src p.srcElems 0 p.srcElems

/-- The areas of DST: elements, MXFP8 scales, ranks of an ARGMAX and positions of a TOPK (R164, R199). -/
def Plan.dstAreas (p : Plan) : List (Nat × Nat) :=
  bufRanges p.fmt p.dst p.dstElems 0 p.dstElems
    ++ (if p.rop = 6 ∨ p.rop = 7 then [(cdiv (p.dst + p.dstElems * p.es) 64 * 64, 4 * p.dstElems)] else [])

/-- The rules of R163 on the two ranges: inside the offset space, and disjoint or related as the type allows. A range
is the areas it has, the second ones included (R164, R199): equal ranges are equal areas. -/
def Plan.goodRanges (p : Plan) : Bool :=
  let useS := decide (p.ctype ≤ 4) && (decide (p.ctype ≠ 3) || decide (p.rank = p.root))
  let useD := decide (p.ctype ≤ 4) && (decide (p.ctype ≠ 4) || decide (p.rank = p.root))
  let some_ := fun (l : List (Nat × Nat)) => l.filter (fun e => e.2 ≠ 0)
  let ss := some_ p.srcAreas
  let ds := some_ p.dstAreas
  let a := if isMx p.fmt then 1 else p.es
  let inside := fun (l : List (Nat × Nat)) => l.all (fun e => decide (e.1 + e.2 ≤ 2 ^ 46))
  let fit := (!useS || inside ss) && (!useD || inside ds)
  let aligned := (!useS || decide (p.src % a = 0)) && (!useD || decide (p.dst % a = 0))
  let apart := ss.all (fun x => ds.all (fun y => decide (x.1 + x.2 ≤ y.1) || decide (y.1 + y.2 ≤ x.1)))
  let tied := ((decide (p.ctype = 0) || decide (p.ctype = 3)) && decide (ss = ds))
    || (decide (p.ctype = 2) && decide (ss = some_ (bufRanges p.fmt p.dst p.dstElems (p.rank * p.count) p.count)))
  fit && aligned && (!(useS && useD) || apart || tied)

/-- The rules of R60 and R162 to R170 that the command and its entry can break. -/
def State.goodColl (s : State) (w : CmdWord) (p : Plan) : Bool :=
  let ct := p.ctype
  let noData := decide (ct = 6) || decide (ct = 7)
  let isLocal := fun i => decide (chipOf (cq w i) = s.own)
  (s.grpWord p.g 0).testBit 0 && decide (ct < 8) && decide (p.fmt < 12)
    && resv w 3 (span 0 44) && resv w 4 (span 0 9 + span 12 13 + span 32 7 + span 40 24) && resv w 5 (span 0 32)
    && resv w 6 (span 0 14)
    && (decide (p.nd = 1) || decide (ct ≠ 1 ∧ ct ≠ 2 ∧ ct ≠ 5))
    && (p.reduces || (decide (p.rop = 0) && !p.wide))
    && (!p.reduces || goodRop ct p.rop p.fmt p.wide)
    && (decide (p.rop = 7) || decide (p.k = 0))
    && (decide (ct = 3 ∨ ct = 4) || decide (p.root = 0)) && decide (p.root < p.n)
    && (decide (ct = 5) || (decide (p.cap = 0) && decide (cq w 7 = 0)))
    && (decide (ct ≠ 5 ∧ ct ≠ 6) || decide (p.fmt = 0))
    && (decide (ct = 7) || decide (cf w 4 40 6 = 0))
    && (!noData || (decide (cq w 1 = 0) && decide (cq w 2 = 0) && decide (cq w 3 = 0) && decide (cq w 6 = 0)))
    && (noData || (decide (ct = 4 ∧ p.rank ≠ p.root)) || isLocal 2)
    && (noData || (decide (ct = 3 ∧ p.rank ≠ p.root)) || isLocal 1)
    && (decide (ct ≠ 4) || decide (p.rank = p.root) || decide (cq w 2 = 0))
    && (decide (ct ≠ 3) || decide (p.rank = p.root) || decide (cq w 1 = 0))
    && (!isMx p.fmt || decide (p.count % 32 = 0))
    && (decide (p.rop ≠ 7) || (decide (1 ≤ p.k ∧ p.k ≤ 64) && decide (p.k ≤ p.n * p.count) && decide (p.n * p.count ≤ 2 ^ 32)))
    && p.goodRanges
    && (decide (ct ≠ 5) || (decide (p.src % 64 = 0)
        && (decide (cq w 7 = 0) || (isLocal 7 && decide (cq w 7 % 64 = 0)
            && decide (offOf (cq w 7) + 3 * (cdiv (4 * p.n) 64 * 64) ≤ 2 ^ 46)))
        && decide (p.rowBase ≤ 2 ^ 46)))

/-- The size of the A2A_CAP areas, once RB is known, stays in the offset space, and send area and DST are
disjoint (R163, R170). -/
def Plan.goodArea (p : Plan) : Bool :=
  let sEnd := p.rowBase + p.count * p.rb
  let dEnd := p.dst + p.n * p.cap * p.rb
  decide (sEnd ≤ 2 ^ 46) && decide (dEnd ≤ 2 ^ 46)
    && (decide (sEnd ≤ p.dst) || decide (dEnd ≤ p.src) || decide (p.n * p.cap * p.rb = 0))

/-! ## Sending (R178, R181, R231, R267, R276) -/

/-- Send a token or data packet of an instance to rank `r` (R232, R233). -/
def State.collPacket (s : State) (c : CollInst) (opcode r cphase half dim : Nat) (scount : Nat := 0)
    (rmode : Nat := 0) (dir : Option Nat := none) (ftag offset : Nat := 0) (pay : List Byte := []) (sat : Bool := false) :
    State :=
  let f := (s.flightOf c.chan c.ord).map (fun f => (f.layer.toNat, f.oper.toNat))
  let (layer, oper) := f.getD (0, 0)
  let h : Hd :=
    { opcode, vc := 4, rmode, dst := c.plan.chips.getD r 0, len := pay.length, offset, ctx := 2, chan := c.chan, ftag
      layer, oper, h5 := c.plan.sig5 c.seq, h6 := c.plan.sig6, h7 := cphase + put half 2 1 + put dim 3 2 + put scount 32 32
      sat := b2n sat }
  ((s.form h pay dir).cntForm c.chan pay.length).collProgress c.plan.g c.chan

/-- A token or release of an instance: it waits for the rein of its channel and is charged to it (R278). The answer
says whether it was formed. -/
def State.collToken (s : State) (c : CollInst) (opcode r cphase half dim : Nat) (scount : Nat := 0) (rmode : Nat := 0)
    (dir : Option Nat := none) : State × Bool :=
  if ¬ s.collForm then (s, false)
  else if s.reinAdmits c.chan then
    ((s.collPacket c opcode r cphase half dim scount rmode dir).reinCharge c.chan opcode 0, true)
  else (s.reinHeld c.chan, false)

/-- Every stream of the instance has its READY (R181). -/
def CollInst.allReady (c : CollInst) : Bool := c.outs.all (·.ready)

/-- The streams of a queued piece hold READY and a credit. -/
def CollInst.mayGo (c : CollInst) (x : OutPiece) : Bool :=
  x.ranks.all (fun r => c.outs.any (fun o => decide (o.rank = r) && decide (o.key = x.key) && o.ready && decide (1 ≤ o.credit)))
    && (decide (x.key ≠ 32 ∧ x.key ≠ 40) || c.allReady)

/-- The towpath that a piece of `len` bytes to rank `r` would take: ring and chain transfers, and slots of at
least 1,024 B (R117, R178). -/
def State.collTow (s : State) (c : CollInst) (key r len : Nat) : Option Nat :=
  let on := match s.flightOf c.chan c.ord with
    | some f => f.xfer.toNat.testBit 7
    | none => false
  if on && (decide (key < 8) || (decide (key ∈ [32, 33]) && decide (c.plan.sched = 3)) || (decide (key = 40) && decide (1024 ≤ len))) then
    match s.here, s.resolve s.tbl.cur (c.plan.chips.getD r 0) with
    | some here, some t => s.freeTow here t
    | _, _ => none
  else none

/-- A multicast packet counts once for each copy it delivers (R287). -/
def State.countCopies (s : State) (n : Nat) : State :=
  s.modCount s.ident.pkey.toNat (fun c => { c with orig := c.orig + (n - 1) })

/-- End the instance's work for good: status, outcome and FAIL_ADDR. What it still holds is let go, packets it
holds are answered as discarded, and `now` drops what it awaits on the wire too (R189, R190). -/
def State.collStop (s : State) (g status outcome addr : Nat) (now : Bool) : State :=
  match (s.group g).inst with
  | none => s
  | some c =>
    if c.ended.isSome then (if now then s.modInst g (fun c => { c with wires := [] }) else s)
    else
      let jobs := c.reads.map (·.job)
      let rds := s.eng.reads.map (fun (j : RdJob) =>
        if jobs.contains j.id ∨ j.use = .collHead g then { j with live := false } else j)
      let s1 := { s with eng := { s.eng with reads := rds } }
      let held := c.waits.map (·.pkt) ++ c.fin.filterMap (·.pkt)
      s1.modInst g (fun c => { c with
        ended := some (status, outcome, addr)
        hdr := false
        asked := []
        src := []
        reads := []
        parts := []
        waits := []
        queue := []
        fin := []
        acks := c.acks ++ held.map (fun p => (p, true))
        wires := if now then [] else c.wires })

/-- Send COLL_ABORT for sequence `seq` of entry `g` to every other rank, in rank order, with the IDs of the command of
channel `chan` whose instance it is (R84, R189); a block that may originate nothing sends none (R20), nor does one in
abort hold (R26). -/
def State.collAbortAll (s : State) (g : Nat) (seq : HWord) (chan reason outcome : Nat) (chips : List Nat) (rank : Nat)
    (ids : HWord × HWord) : State :=
  ((List.range chips.length).filter (fun r => decide (r ≠ rank) && s.mayOriginate && !s.abortHold)).foldl (fun t r =>
    t.form { opcode := 0xC0, vc := 5, dst := chips.getD r 0, aux := outcome + 16 * reason, ctx := 2, chan
             layer := ids.1.toNat, oper := ids.2.toNat, h5 := put g 20 9 + put seq.toNat 32 16 } []) (s.incReg 0x170)

/-- Mark a sequence that has not started (R189): tokens held for it are dropped and counted (R191). -/
def State.collMark (s : State) (g : Nat) (seq : HWord) (reason outcome : Nat) : State :=
  let x := s.group g
  if x.marks.any (fun m => m.1 = seq) then s
  else
    let held := (x.ready.filter (fun t => t.seq = seq)).length
    (List.range held).foldl (fun t _ => t.incReg 0x16C) (s.modGroup g (fun x => { x with
      marks := x.marks ++ [(seq, reason, outcome)], ready := x.ready.filter (fun t => t.seq ≠ seq) }))

/-- The status of a COLL_ABORT reason. -/
def reasonStatus (reason : Nat) : Nat := match reason with
  | 0 => 3
  | 1 => 4
  | 2 => 5
  | _ => 1

/-- Start the collective-scoped abort of R189 for the instance in progress. -/
def State.collAbort (s : State) (g reason outcome addr : Nat) : State :=
  match (s.group g).inst with
  | none => s
  | some c =>
    if c.ended.isSome then s
    else
      let ids := ((s.flightOf c.chan c.ord).map (fun f => (f.layer, f.oper))).getD (0, 0)
      ((s.collAbortAll g c.seq c.chan reason outcome c.plan.chips c.plan.rank ids).collProgress g c.chan).collStop g
        (reasonStatus reason) outcome addr false

/-- Try to send one queued piece of entry `g`; the answer says whether it left the queue. A data packet whose first hop
does not exist ends the instance (R190, R260). -/
def State.collSend1 (s : State) (g : Nat) (x : OutPiece) : State × Bool :=
  match (s.group g).inst with
  | none => (s, true)
  | some c =>
    let r := x.ranks.getLastD 0
    if x.opcode = 0x84 then
      let (t, sent) := s.collToken c 0x84 r x.cphase x.half x.dim 0 (if x.mdir.isSome then 3 else 0) x.mdir
      if sent then (t.countCopies x.ranks.length, true) else (t, false)
    else if ¬ (s.collForm && c.mayGo x) then (s, false)
    else
      let idx := ((c.outs.find? (fun o => decide (o.rank = r) && decide (o.key = x.key))).map (·.idx)).getD 0
      let tow := if x.mdir.isSome then none else s.collTow c x.key r x.pay.length
      let chip := c.plan.chips.getD r 0
      if x.mdir.isNone && tow.isNone && !s.reachable chip 4 x.opcode (idx % 2) then (s.collAbort g 3 5 (chip * 2 ^ 46), true)
      else if x.key = 40 ∧ tow.isNone ∧ ¬ s.reinAdmits c.chan then (s.reinHeld c.chan, false)
      else
        match if s.outstanding c.chan < 256 then s.freeTag c.chan idx else none with
        | none => (s, false)
        | some tag =>
          let rmode := if x.mdir.isSome then 3 else if tow.isSome then 2 else 0
          let dir := match x.mdir with
            | some d => some d
            | none => tow.map (· + 8)
          let s1 := (s.collPacket c x.opcode r x.cphase x.half x.dim 0 rmode dir tag x.offset x.pay x.sat).countCopies
            x.ranks.length
          let s2 := s1.modInst g (fun c => { c with
            wires := c.wires ++ [⟨tag, s1.pseq.toNat, x.key, x.ranks, tow⟩]
            outs := c.outs.map (fun o =>
              if x.ranks.contains o.rank ∧ o.key = x.key then { o with credit := o.credit - 1, idx := o.idx + 1 } else o) })
          (match tow with
            | some e => s2.towEnter e
            | none => if x.key = 40 then s2.reinCharge c.chan x.opcode x.pay.length else s2, true)

/-- Send what can be sent, each stream in order. -/
def State.collSendAll (s : State) (g : Nat) : State :=
  match (s.group g).inst with
  | none => s
  | some c =>
    let (t, kept) := c.queue.foldl (fun (acc : State × List OutPiece) x =>
      if acc.2.any (fun y => decide (y.key = x.key) && x.ranks.any (fun r => y.ranks.contains r)) then (acc.1, acc.2 ++ [x])
      else
        let (t, sent) := acc.1.collSend1 g x
        (t, if sent then acc.2 else acc.2 ++ [x])) (s, [])
    t.modInst g (fun c => { c with queue := if c.ended.isSome then [] else kept })

/-! ## READY (R180, R267) -/

/-- Ejection berths set aside for the streams of every instance. -/
def State.berthsUsed (s : State) : Nat :=
  s.groups.foldl (fun t e =>
    match e.2.inst with
    | some c => c.ins.foldl (fun n x => n + x.berths) t
    | none => t) 0

/-- Send up to `n` of the READYs still to be sent, in rank order, while berths can be set aside for their streams
(R267). -/
def State.collAsk : Nat → State → Nat → State
  | 0, s, _ => s
  | n + 1, s, g =>
    match (s.group g).inst with
    | none => s
    | some c =>
      match c.asked with
      | [] => s
      | (r, ph, h, d) :: rest =>
        let b := c.plan.berthsFor r
        if s.berths < s.berthsUsed + b then s
        else
          let (t, sent) := s.collToken c 0x80 r ph h d
          if sent then
            State.collAsk n (t.modInst g (fun c => { c with
              asked := rest
              ins := if b = 0 then c.ins else c.ins ++ [⟨r, ph, d, b, c.plan.expect r ph⟩] })) g
          else t

/-- Send the READYs that can be sent. -/
def State.collAsks (s : State) (g : Nat) : State :=
  match (s.group g).inst with
  | none => s
  | some c => State.collAsk c.asked.length s g

/-! ## Acknowledging (R191, R230, R267) -/

/-- Answer a data packet with COL_ACK; for an instance in progress that is a packet sent for it (R95). -/
def State.colAnswer (s : State) (p : Packet) (outcome : Nat) (discarded : Bool) : State :=
  let t := s.respond (respHd p 0x48 (outcome + 16 * b2n discarded)) [] p.stamp
  let g := qf p.h5 20 9
  match (t.group g).inst with
  | some c => if c.seq.toNat = qf p.h5 32 16 then t.collProgress g c.chan else t
  | none => t

/-- Send the acknowledgements that are due. -/
def State.collAcks (s : State) (g : Nat) : State :=
  match (s.group g).inst with
  | none => s
  | some c => c.acks.foldl (fun t (p, d) => t.colAnswer p 0 d) (s.modInst g (fun c => { c with acks := [] }))

/-! ## Reading SRC (R194) -/

/-- Input bytes of read stream `str` that are read ahead: asked for, waiting for a partial, or waiting to be sent. -/
def CollInst.ahead (c : CollInst) (str : Nat) : Nat :=
  let p := c.plan
  let a := (c.reads.filter (fun r => r.str = str)).foldl (fun t r => t + p.readBytes r.n) 0
  let b := (c.parts.filter (fun x => x.str = str)).foldl (fun t x => t + p.readBytes (grain p.fmt * x.us.length)) 0
  let q := (c.queue.filter (fun x => x.str = str)).foldl
    (fun t x => t + p.inputBytes (decide (x.cphase = 1 ∨ x.cphase = 3)) x.pay.length) 0
  a + b + q

/-- Bytes of the read-ahead pool in use by every instance. -/
def State.poolUsed (s : State) : Nat :=
  s.groups.foldl (fun t e =>
    match e.2.inst with
    | some c => (List.range c.src.length).foldl (fun t i => t + c.ahead i) t
    | none => t) 0

/-- Byte ranges of `n` elements (for A2A_CAP: bytes of a rank's list) from `a` of the input. -/
def CollInst.srcRanges (c : CollInst) (rank a n : Nat) : List (Nat × Nat) :=
  let p := c.plan
  if p.ctype = 5 then [(p.rowBase + rowStart c.counts rank * p.rb + a, n)]
  else bufRanges p.fmt p.src p.srcElems (a - p.srcBase) n

/-- The most elements (bytes) of one read: what one packet carries. -/
def Plan.readMax (p : Plan) : Nat :=
  if p.ctype = 5 then 4096 else if p.rop = 7 then 4096 / max 1 p.es else maxElems p.rop p.fmt p.wide (!p.reduces)

/-- The next read of stream `i`: rank, first, and how much one packet carries of what the next run still holds. -/
def CollInst.nextRead (c : CollInst) (i : Nat) : Option (Nat × Nat × Nat) :=
  match c.src.getD i [] with
  | [] => none
  | (rank, a, n) :: _ => some (rank, a, min n c.plan.readMax)

/-- Stream `i` may read on: the READY of its RING direction has gone, and 192 KiB of its input are not exceeded. -/
def CollInst.mayRead (c : CollInst) (i : Nat) : Bool :=
  (match c.nextRead i with
    | some (_, _, m) => decide (c.ahead i + c.plan.readBytes m ≤ 196608)
    | none => false)
    && (decide (c.plan.sched ≠ 1)
      || !c.asked.any (fun (_, ph, h, d) => decide (ph ≤ 1) && decide (h = i) && decide (d = 0)))

/-- Begin one read of the input of entry `g`; none when nothing more may be read now: the pool of 1,536 KiB serves
every stream. -/
def State.collRead1 (s : State) (g : Nat) : Option State :=
  match (s.group g).inst with
  | none => none
  | some c =>
    match (List.range c.src.length).find? c.mayRead with
    | none => none
    | some i =>
        match c.src.getD i [] with
        | [] => none
        | (rank, a, n) :: rest =>
          let m := min n c.plan.readMax
          if 1572864 < s.poolUsed + c.plan.readBytes m ∨ ¬ s.collForm then none
          else
          let left := if m < n then (rank, a + m, n - m) :: rest else rest
          let rs := c.srcRanges rank a m
          match s.checkRanges .rd rs with
          | some o => some (s.collAbort g 3 o (s.own * 2 ^ 46 + (rs.headD (0, 0)).1))
          | none =>
            let (id, s1) := s.startRead (.coll g) rs
            some (s1.modInst g (fun c => { c with src := setAt c.src i left, reads := c.reads ++ [⟨id, i, rank, a, m⟩] }))

/-- Read ahead as far as the limits allow. -/
def State.collReads : Nat → State → Nat → State
  | 0, s, _ => s
  | fuel + 1, s, g =>
    match s.collRead1 g with
    | some t => State.collReads fuel t g
    | none => s

/-! ## Writing DST and the report arrays (R168, R169, R183, R184) -/

/-- Merge two sets of granule writes that may touch the same granules. -/
def mergeGrans (l : List WrGran) : List WrGran :=
  l.foldl (fun acc x =>
    if acc.any (fun y => decide (y.key = x.key)) then
      updFirst (fun y => decide (y.key = x.key)) (fun y => { y with data := y.data ||| x.data, be := y.be ||| x.be }) acc
    else acc ++ [x]) []

/-- Bytes enabled in a granule write. -/
def WrGran.bytes (x : WrGran) : Nat := (setBits 64 x.be.toNat).length

/-- Note a write of DST or REPORT that failed here: only this member's status shows it (R190). -/
def CollInst.noteFault (c : CollInst) (outcome addr : Nat) : CollInst :=
  { c with fault := match c.fault with
      | some f => some f
      | none => some (outcome, addr) }

/-- Write ranges of DST (kind 0) or REPORT (kind 1), acknowledging the packet they came in afterwards. -/
def State.collWrite (s : State) (g kind : Nat) (rs : List (Nat × List Byte)) (pkt : Option Packet) : State :=
  match (s.group g).inst with
  | none => s
  | some c =>
    let total := rs.foldl (fun t (_, b) => t + b.length) 0
    let addr := s.own * 2 ^ 46 + (rs.headD (0, [])).1
    match s.checkRanges .wr (rs.map (fun (o, b) => (o, b.length))) with
    | some o =>
      let s1 := s.modInst g (fun c =>
        if kind = 0 then { c.noteFault o addr with dstLeft := c.dstLeft - total } else { c.noteFault o addr with report := 2 })
      (match pkt with
      | some p => s1.colAnswer p o false
      | none => s1)
    | none =>
      let grans := mergeGrans (rs.flatMap (fun (o, b) => wrGrans o b 0))
      let gb := grans.map (fun x => (x.key, x.bytes))
      (s.modInst g (fun c => { c with writes := c.writes + 1 })).startWrite (.coll g c.seq kind gb addr pkt) grans 0 |>.2

/-- Write every finished piece. -/
def State.collFins (s : State) (g : Nat) : State :=
  match (s.group g).inst with
  | none => s
  | some c => c.fin.foldl (fun t x =>
      (t.modInst g (fun c => { c with sat := c.sat || x.sat })).collWrite g 0 x.rs x.pkt)
      (s.modInst g (fun c => { c with fin := [] }))

/-- Bytes of DST that lie in a granule. -/
def Plan.granBytes (p : Plan) (key : Nat) : Nat :=
  let areas :=
    if p.ctype = 5 then [(p.dst, p.n * p.cap * p.rb)]
    else
      let e := p.dstElems
      let v := (p.dst, e * p.es)
      if p.rop = 6 ∨ p.rop = 7 then [v, (cdiv (p.dst + e * p.es) 64 * 64, 4 * e)]
      else if isMx p.fmt then [v, (p.dst + 4096 * cdiv e 4096, e / 32)]
      else [v]
  areas.foldl (fun t (o, n) => t + (min (64 * key + 64) (o + n) - max (64 * key) o)) 0

/-- A write of DST or REPORT has been answered: bytes and granules are counted, each granule of DST once, when
all of it that belongs to DST is written. -/
def State.collWritten (s : State) (g : Nat) (seq : HWord) (kind : Nat) (gb : List (Nat × Nat)) (addr : Nat)
    (pkt : Option Packet) (ok : Bool) : State :=
  let s0 := match pkt with
    | some p => s.colAnswer p (if ok then 0 else 9) false
    | none => s
  match (s.group g).inst with
  | none => s0
  | some c =>
    if c.seq ≠ seq then s0
    else
      let total := gb.foldl (fun t e => t + e.2) 0
      let s1 := s0.modInst g (fun c => { c with writes := c.writes - 1 })
      if kind = 1 then s1.modInst g (fun c => { (if ok then c else c.noteFault 9 addr) with report := 2 })
      else if ¬ ok then s1.modInst g (fun c => { c.noteFault 9 addr with dstLeft := c.dstLeft - total })
      else
        let (m, n) := gb.foldl (fun (acc : SMap Nat × Nat) (k, b) =>
          let have_ := SMap.get (fun _ => 0) acc.1 k + b
          if c.plan.granBytes k ≤ have_ then (SMap.erase acc.1 k, acc.2 + 1)
          else (SMap.set (fun _ => 0) acc.1 k have_, acc.2)) (c.gran, 0)
        let s2 := s1.modInst g (fun c => { c with gran := m, dstLeft := c.dstLeft - total, bytes := c.bytes + total })
        (match c.plan.tally with
        | some t => if n = 0 then s2 else s2.addTally t n
        | none => s2)

/-! ## Tokens of completion (R183, R232) -/

/-- The report arrays at offset `o`: RECV, DROP_IN and DROP_OUT (R168). -/
def CollInst.reportArrays (c : CollInst) (o : Nat) : List (Nat × List Byte) :=
  let p := c.plan
  let a := cdiv (4 * p.n) 64 * 64
  let recv := fun j => c.got.getD j 0 / max 1 p.rb
  let scount := fun j => ((c.dones.find? (fun e => e.1 = j)).map (·.2)).getD 0
  let arr := fun (f : Nat → Nat) => (List.range p.n).flatMap (fun j => leBytes 4 (f j))
  [(o, arr recv), (o + a, arr (fun j => scount j - recv j)),
    (o + 2 * a, arr (fun j => c.counts.getD j 0 - c.sent.getD j 0))]

/-- DONE of rank `j` with its SCOUNT: for A2A_CAP the rest of its slot is padded with zeros (R167). -/
def CollInst.done (c : CollInst) (j scount : Nat) : CollInst :=
  if c.dones.any (fun e => e.1 = j) then c
  else
    let p := c.plan
    let c1 := { c with dones := c.dones ++ [(j, scount)], ins := c.ins.filter (fun x => p.ctype ≠ 5 ∨ x.rank ≠ j) }
    let n := c.got.getD j 0
    if p.ctype = 5 ∧ n < p.cap * p.rb then
      { c1 with fin := c1.fin ++ [⟨[(p.dst + j * p.cap * p.rb + n, List.replicate (p.cap * p.rb - n) 0)], false, none⟩] }
    else c1

/-- Nothing of rank `j`'s slot data is still to be read, sent or acknowledged. -/
def CollInst.slotSent (c : CollInst) (j : Nat) : Bool :=
  decide (c.src.getD j [] = []) && !c.reads.any (fun r => decide (r.rank = j))
    && !c.queue.any (fun x => x.ranks.contains j) && !c.wires.any (fun x => x.left.contains j)

/-- This member's DST is written and counted, every LEN 0 packet it awaits has come. -/
def CollInst.dstDone (c : CollInst) : Bool :=
  decide (c.dstLeft = 0) && decide (c.need = 0) && decide (c.writes = 0) && decide (c.fin = [])

/-- Ranks to which this member owes DONE now. -/
def CollInst.donesDue (c : CollInst) : List Nat :=
  let p := c.plan
  let all := match p.ctype with
    | 3 => if p.rank ≠ p.root ∧ c.dstDone then [p.root] else []
    | 4 => if p.rank = p.root ∧ c.dstDone then p.others else []
    | 5 => if c.hdr ∨ ¬ c.allReady then [] else p.others.filter c.slotSent
    | _ => []
  all.filter (fun r => !c.donesOut.contains r)

/-- Send the DONE tokens that are due, mark the own slot done, write the report arrays. -/
def State.collTokens (s : State) (g : Nat) : State :=
  match (s.group g).inst with
  | none => s
  | some c =>
    if c.ended.isSome ∨ ¬ s.collForm then s
    else
      let s1 := c.donesDue.foldl (fun t r =>
        let (u, sent) := t.collToken c 0x83 r 0 0 0 (if c.plan.ctype = 5 then c.counts.getD r 0 else 0)
        if sent then u.modInst g (fun c => { c with donesOut := c.donesOut ++ [r] }) else u) s
      let s2 := s1.modInst g (fun c =>
        if c.plan.ctype = 5 ∧ ¬ c.hdr ∧ c.slotSent c.plan.rank then c.done c.plan.rank (c.counts.getD c.plan.rank 0) else c)
      match (s2.group g).inst with
      | none => s2
      | some c =>
        match c.plan.report with
        | some o =>
          if c.plan.ctype = 5 ∧ c.report = 0 ∧ ¬ c.hdr ∧ c.dones.length = c.plan.n then
            (s2.modInst g (fun c => { c with report := 1 })).collWrite g 1 (c.reportArrays o) none
          else s2
        | none => s2

/-! ## Completion (R183, R184, R190) -/

/-- The member has done all that its completion requires. -/
def CollInst.finished (c : CollInst) : Bool :=
  let p := c.plan
  let idle := decide (c.wires = []) && decide (c.acks = [])
  if c.ended.isSome then idle
  else
    idle && !c.hdr && decide (c.asked = []) && c.src.all (fun l => decide (l = [])) && decide (c.reads = []) && decide (c.parts = [])
      && decide (c.waits = []) && decide (c.queue = []) && c.dstDone && c.donesDue.isEmpty
      && (match p.ctype with
          | 3 => decide (p.rank ≠ p.root) || p.others.all (fun r => c.dones.any (fun e => e.1 = r))
          | 4 => decide (p.rank = p.root) || c.dones.any (fun e => e.1 = p.root)
          | 5 => decide (c.dones.length = p.n) && decide (c.report = 2)
              && p.others.all (fun r => c.donesOut.contains r)
          | 6 => c.relSeen
          | 7 => c.value.isSome
          | _ => true)

/-- The COLL of entry `g` completes at this member: its record, scalar and status; BUSY clears. -/
def State.collEnd (s : State) (g : Nat) : State :=
  match (s.group g).inst with
  | none => s
  | some c =>
    let s1 := s.modGroup g (fun x => { x with inst := none })
    match s1.flightOf c.chan c.ord with
    | none => s1
    | some f =>
      let (st, out, addr) := match c.ended, c.fault with
        | some e, _ => e
        | none, some (o, a) => (1, o, a)
        | none, none => (0, 0, 0)
      let drop := if c.plan.ctype = 5 then
          (List.range c.plan.n).foldl (fun t j => t + (c.counts.getD j 0 - c.sent.getD j 0)) 0 else 0
      let f1 := { f with
        cursor := none
        fails := if st = 1 then 1 else 0
        first := if st = 0 then none else some ⟨0, out, false, false, BitVec.ofNat 64 addr⟩
        bytes := c.bytes
        written := decide (st = 0) && (c.plan.writesDst || decide (c.plan.ctype = 3))
        sat := c.sat
        dropped := drop
        value := if st = 0 then c.value.getD 0 else 0 }
      let s2 := match st, c.value with
        | 0, some v => s1.setScalar c.chan (cf f.word 4 43 3) v
        | _, _ => s1
      ((s2.cntStop c.chan).complete c.chan f1 st).settle c.chan

/-- The command has finished issuing once all of SRC has been read (R171). -/
def State.collIssued (s : State) (g : Nat) : State :=
  match (s.group g).inst with
  | none => s
  | some c =>
    if ¬ c.hdr ∧ c.reads = [] ∧ c.src.all (fun l => decide (l = [])) then
      match s.flightOf c.chan c.ord with
      | some f => if f.cursor.isSome then (s.modFlight c.chan c.ord (fun f => { f with cursor := none })).cntStop c.chan else s
      | none => s
    else s

/-- Do what entry `g`'s instance can do now. -/
def State.collPump (s : State) (g : Nat) : State :=
  ((((State.collReads 512 ((s.collAcks g).collAsks g) g).collFins g).collSendAll g).collTokens g
    |>.collFins g |>.collAcks g).collIssued g

/-! ## Mismatch (R186, R188, R540) -/

/-- A disagreement is seen: fault, counts, capture; the instance in progress is aborted, or the next sequence
is marked where none is (R186, R188). -/
def State.collMismatch (s : State) (g fields rseq peer : Nat) : State :=
  let grp := s.group g
  let s1 := s.raise 0x61 0 0 4 0x66
  let lseq := match grp.inst with
    | some c => c.seq
    | none => grp.nseq
  let s2 := if (s1.reg 0x160).toNat.testBit 31 then s1
    else ((s1.setReg 0x160 (BitVec.ofNat 32 (g + fields * 2 ^ 16 + 2 ^ 31))).setReg 0x164
      (BitVec.ofNat 32 (lseq.toNat + put rseq 16 16))).setReg 0x168 (BitVec.ofNat 32 (put peer 0 18))
  match grp.inst with
  | some c => if c.ended.isSome then s2.incReg 0x170 else s2.collAbort g 0 0 0
  | none =>
    let wd := s.grpWord g
    let chips := (List.range (grpSize wd)).map (grpChip wd s.rlist)
    if grp.marks.any (fun m => m.1 = grp.nseq) then s2.incReg 0x170
    else (s2.collAbortAll g grp.nseq 0 0 0 chips (fld (wd 6) 0 18) (0, 0)).collMark g grp.nseq 0 0

/-- Compare a READY held for the instance in progress and, if it agrees, let it grant its stream's credits
(R180, R186, R267). -/
def State.takeReady (s : State) (g : Nat) (t : ReadyTok) : State :=
  match (s.group g).inst with
  | none => s
  | some c =>
    if c.ended.isSome then s.incReg 0x16C
    else
      let p := c.plan
      let d := sigDiff (p.sig5 c.seq) p.sig6 t.h5.toNat t.h6.toNat
      match p.chips.findIdx? (fun x => x = t.src) with
      | none => (s.collMismatch g (d ||| 0x80) t.seq.toNat t.src).incReg 0x16C
      | some r =>
        if d ≠ 0 then (s.collMismatch g d t.seq.toNat t.src).incReg 0x16C
        else
          let key := p.keyOf (qf t.h7 0 2) (qf t.h7 2 1) (qf t.h7 3 2)
          s.modInst g (fun c => { c with
            outs := c.outs.map (fun o =>
              if o.rank = r ∧ o.key = key ∧ ¬ o.ready then { o with ready := true, credit := firstCredit key } else o) })

/-! ## Starting (R170, R171, R180, R189) -/

/-- The instance's sequence is taken by a command that ends at once: tokens held for it are dropped. -/
def State.skipSeq (s : State) (g : Nat) : State :=
  let n := (s.group g).nseq
  let late := ((s.group g).ready.filter (fun t => t.seq = n)).length
  (List.range late).foldl (fun t _ => t.incReg 0x16C) (s.modGroup g (fun x => { x with
    nseq := x.nseq + 1
    ready := x.ready.filter (fun t => t.seq ≠ n)
    marks := x.marks.filter (fun m => m.1 ≠ n) }))

/-- A new instance in which nothing has been done. -/
def CollInst.fresh (k ord : Nat) (seq : HWord) (p : Plan) : CollInst where
  chan := k
  ord := ord
  seq := seq
  hdr := decide (p.ctype = 5)
  plan := p
  asked := []
  ins := []
  outs := p.streams
  src := []
  reads := []
  parts := []
  waits := []
  queue := []
  wires := []
  fin := []
  acks := []
  cand := []
  gran := []
  dstLeft := 0
  need := p.emptyNeed
  writes := 0
  counts := []
  sent := []
  got := List.replicate p.n 0
  dones := []
  donesOut := []
  report := if p.report.isNone then 2 else 0
  relSeen := false
  half0 := []
  sat := false
  bytes := 0
  value := none
  fault := none
  ended := none

/-- READYs in the order of their ranks (R267). -/
def byRank (l : List (Nat × Nat × Nat × Nat)) : List (Nat × Nat × Nat × Nat) :=
  l.foldl (fun acc x => acc.takeWhile (fun y => y.1 ≤ x.1) ++ x :: acc.dropWhile (fun y => y.1 ≤ x.1)) []

/-- Rendezvous: READY is due for every stream, tokens held are compared, input reads begin (R180 to R182, R194). -/
def State.collOpen (s : State) (g : Nat) (v : Quad) : State :=
  match (s.group g).inst with
  | none => s
  | some c0 =>
    let s1 := s.modInst g (fun c =>
      ({ c with
          hdr := false
          asked := byRank c.plan.readies
          dstLeft := c.plan.dstBytes
          src := c.plan.input c.sent }).startEmpty v)
    let s2 := s1.collAsks g
    let held := (s2.group g).ready.filter (fun t => t.seq = c0.seq)
    let s3 := s2.modGroup g (fun x => { x with ready := x.ready.filter (fun t => t.seq ≠ c0.seq) })
    held.foldl (fun t x => t.takeReady g x) s3

/-- Residue faults have left no unit ON or STARTING, and none has come ON since (R223). -/
def State.ruNone (s : State) : Bool := s.ruGone && !s.rus.any (fun e => decide (e.2.st = .on))

/-- The first rank that fails a source check, or is reached only through a compatibility port, with its outcome and
chip (R38, R190). -/
def State.rankCheck (s : State) (chips : List Nat) : Option (Nat × Nat) :=
  chips.findSome? (fun c =>
    match s.sourceCheck c 4 0x81 0 with
    | some o => some (o, c)
    | none => if s.rankReach c 4 0x81 then none else some (5, c))

/-- Complete a COLL that has no instance. -/
def State.collRefuse (s : State) (k : Nat) (f : Flight) (status outcome addr fails : Nat) : State :=
  ((s.complete k { f with
    cursor := none
    fails := fails
    first := if status = 8 then none else some ⟨0, outcome, false, false, BitVec.ofNat 64 addr⟩ } status).cntStop k).settle k

/-- Start the instance of a COLL whose entry is free. -/
def State.collStart (s : State) (k : Nat) (f : Flight) : State :=
  let w := f.word
  let g := cf w 4 0 9
  let p := s.planOf k w
  let grp := s.group g
  if ¬ s.goodColl w p then s.collRefuse k f 8 0 0 0
  else
    match grp.marks.find? (fun m => m.1 = grp.nseq) with
    | some (_, reason, out) => (s.skipSeq g).collRefuse k f (reasonStatus reason) out 0 0
    | none =>
      match s.rankCheck p.chips with
      | some (o, c) =>
        ((s.collAbortAll g grp.nseq k 3 o p.chips p.rank (f.layer, f.oper)).skipSeq g).collRefuse k f 1 o (c * 2 ^ 46) 1
      | none =>
        if p.reduces && s.ruNone then (s.skipSeq g).collRefuse k f 6 0 0 0
        else
          let s1 := (s.modGroup g (fun x => { x with
              nseq := x.nseq + 1
              inst := some (CollInst.fresh k f.ord grp.nseq p) })).modFlight k f.ord
            (fun f => { f with group := g, cursor := some ⟨0, 0, 0, false⟩ })
          if p.ctype = 5 then
            let rs := [(p.src, 64 + cdiv (4 * p.n) 64 * 64)]
            match s1.checkRanges .rd rs with
            | some o => s1.collAbort g 3 o (s.own * 2 ^ 46 + p.src)
            | none => (s1.startRead (.collHead g) rs).2
          else s1.collOpen g (s.scalar k (cf w 4 40 3))

/-- Do what entry `g` can do now, and complete what is finished. -/
def State.collTurn (s : State) (g : Nat) : State :=
  let t := s.collPump g
  match (t.group g).inst with
  | some c => if c.finished then t.collEnd g else t
  | none => t

/-- Every entry in turn. -/
def State.collTurnAll (s : State) : State :=
  s.groups.foldl (fun t e => t.collTurn e.1) s

/-- A COLL command of channel `k` starts: its entry is free (R171). -/
def State.collCmd (s : State) (k : Nat) (f : Flight) : State := (s.collStart k f).collTurn (cf f.word 4 0 9)

/-! ## Local input and combining (R167, R194, R212, R215) -/

/-- Input of entry `g` has been read by a job, or its read failed with an outcome (R190). -/
def State.collReadDone (s : State) (g job : Nat) (got : List (Nat × Gran)) (err : Bool) : State :=
  match (s.group g).inst with
  | none => s
  | some c =>
    match c.reads.find? (fun r => r.job = job) with
    | none => s
    | some r =>
      let rs := c.srcRanges r.rank r.a r.n
      let poison := rs.any (fun (o, n) => readPoison got o n ≠ 0)
      let n := rs.foldl (fun t x => t + x.2) 0
      let s1 := (s.cntRead c.chan n).modInst g (fun c => { c with reads := c.reads.filter (fun x => x.job ≠ job) })
      if err ∨ poison then (s1.collAbort g 3 (if err then 9 else 6) (s.own * 2 ^ 46 + (rs.headD (0, 0)).1)).collTurn g
      else
        let data := rs.map (fun (o, n) => readBytes got o n)
        let p := c.plan
        let s2 := s1.modInst g (fun c =>
          if p.ctype = 5 then
            let bytes := data.flatMap id
            if r.rank = p.rank then
              { c with
                fin := c.fin ++ [⟨[(p.dst + p.rank * p.cap * p.rb + r.a, bytes)], false, none⟩]
                got := setAt c.got p.rank (c.got.getD p.rank 0 + bytes.length) }
            else { c with queue := c.queue ++ [⟨40, [r.rank], none, 0x82, 0, 0, 0, r.a, bytes, false, r.str⟩] }
          else
            let el := leNums (max 1 p.es) (data.headD [])
            let us := if isMx p.fmt then
                ((chunks 32 el.length el).zip ((data.getD 1 []).map BitVec.toNat)).map (fun (u, x) => u ++ [x])
              else el.map (fun v => [v])
            c.input r.a us r.str)
        s2.collTurn g

/-- The header and counts of an A2A_CAP send area have been read (R166, R170). A BAD_FIELD found in them is a command
with no effect (R60): the sequence it took is given back, and tokens held for it stay held (DESIGN CHOICE, log 80: the
spec does not say whether such a command consumes its sequence). -/
def State.collHeadDone (s : State) (g : Nat) (got : List (Nat × Gran)) (err : Bool) : State :=
  match (s.group g).inst with
  | none => s
  | some c =>
    if ¬ c.hdr then s
    else
      let p := c.plan
      let poison := readPoison got p.src (64 + cdiv (4 * p.n) 64 * 64) ≠ 0
      let s0 := s.cntRead c.chan (64 + cdiv (4 * p.n) 64 * 64)
      if err ∨ poison then
        (s0.collAbort g 3 (if err then 9 else 6) (s.own * 2 ^ 46 + p.src)).collTurn g
      else
        let head := readBytes got p.src 64
        let rb := leNat (head.take 4)
        let counts := leNums 4 (readBytes got (p.src + 64) (4 * p.n))
        let q := { p with rb := rb }
        if rb % 64 ≠ 0 ∨ rb = 0 ∨ 65536 < rb ∨ leNat (head.drop 4) ≠ 0 ∨ ¬ q.goodArea then
          let s1 := s0.modGroup g (fun x => { x with nseq := c.seq, inst := none })
          match s1.flightOf c.chan c.ord with
          | some f => (s1.collRefuse c.chan f 8 0 0 0).collTurn g
          | none => s1
        else
          let s1 := s0.modInst g (fun c => { c with plan := q, counts := counts, sent := q.delivered counts })
          (s1.collOpen g 0).collTurn g

/-- Elements that the next combine of a waiting partial produces (R490). -/
def CollInst.combined (c : CollInst) (w : Wait) : Nat :=
  if c.plan.rop = 7 then (w.us.headD []).length / 2 else grain c.plan.fmt * (c.piece w).2

/-- A unit combines the next piece of the `i`-th waiting partial of entry `g`. -/
def State.collCombine (s : State) (g i : Nat) : State :=
  match (s.group g).inst with
  | none => s
  | some c =>
    match c.waits[i]? with
    | none => s
    | some w =>
      let s1 := s.addCnt64 (0x30100 + 8 * c.plan.fmt) (c.combined w)
      (s1.modInst g (fun c => c.combine w)).collTurn g

end Sys2Proof.Machine
end

