-- ==== Sys2Proof/Machine/CollIn.lean ====
section
/-! DEFINITION. What collective packets do at their receiver (R180 to R191, R267, R540), and the commands
COLL. -/

namespace Sys2Proof.Machine

/-! ## Arrivals -/

/-- Drop a packet of an aborted or late instance: counted, a data packet acknowledged as discarded (R191). -/
def State.colDrop (s : State) (p : Packet) : State :=
  let t := s.incReg 0x16C
  if p.opcode = 0x81 ∨ p.opcode = 0x82 then t.colAnswer p 0 true else t

/-- A packet whose group entry is not VALID here (R540). -/
def State.colInvalid (s : State) (p : Packet) : State :=
  let g := qf p.h5 20 9
  let s1 := (s.colDrop p).raise 0x61 0 0 4 0x66
  if (s1.reg 0x160).toNat.testBit 31 then s1
  else ((s1.setReg 0x160 (BitVec.ofNat 32 (g + 2 ^ 23 + 2 ^ 31))).setReg 0x164
    (BitVec.ofNat 32 ((s.group g).nseq.toNat + put (qf p.h5 32 16) 16 16))).setReg 0x168 (BitVec.ofNat 32 p.src)

/-- What a packet whose signature agrees does in the instance (R174 to R183). -/
def CollInst.take (c : CollInst) (r : Nat) (p : Packet) : CollInst :=
  let refuse := { c with acks := c.acks ++ [(p, true)] }
  match p.opcode with
  | 0x81 => if c.plan.ctype = 5 then refuse else c.arrive r p
  | 0x82 =>
    let q := c.plan
    if q.ctype ≠ 5 ∨ q.cap * q.rb < p.offset + p.pay.length then refuse
    else
      { c with
        got := setAt c.got r (c.got.getD r 0 + p.pay.length)
        fin := c.fin ++ [⟨[(q.dst + r * q.cap * q.rb + p.offset, p.pay)], false, some p⟩] }
  | 0x83 => c.done r (qf p.h7 32 32)
  | 0x84 => if c.plan.ctype = 6 then c.starRelease (qf p.h7 3 2) else c
  | _ => c

/-- The instance in progress on entry `g`, if packet sequence `seq` is its own, moves the progress counters (R95). -/
def State.colMoves (s : State) (g : Nat) (seq : HWord) : State :=
  match (s.group g).inst with
  | some c => if c.seq = seq then s.collProgress g c.chan else s
  | none => s

/-- An accepted COL packet meets check 8 of R245 (R182, R186, R191, R540). A READY that is to be held is held as it is,
and compared when its instance starts. DESIGN CHOICE (log 81), where R182 leaves a sequence open: one at a distance of
exactly 2^15, which is in both of its ranges, is late; a DONE or release carrying N + 1, of which it names READY and data
packets alone, is a mismatch in SEQ; a data packet, DONE or release carrying N before this member has an instance N that
takes data is dropped as late and not compared. -/
def State.colAccept (s : State) (p : Packet) : State :=
  let g := qf p.h5 20 9
  if ¬ (s.grpWord g 0).testBit 0 then s.colInvalid p
  else
    let grp := s.group g
    let seq : HWord := BitVec.ofNat 16 (qf p.h5 32 16)
    let tok : ReadyTok := ⟨seq, p.src, p.h5, p.h6, p.h7⟩
    let wd := s.grpWord g
    let chips := (List.range (grpSize wd)).map (grpChip wd s.rlist)
    let n := match grp.inst with
      | some c => c.seq
      | none => grp.nseq
    let d := (seq - n).toNat
    let bad := fun (t : State) (fields : Nat) =>
      ((t.collMismatch g fields seq.toNat p.src).colDrop p).collTurn g
    if 2 ^ 15 ≤ d then s.colDrop p
    else
      let waits := match grp.inst with
        | some c => c.hdr
        | none => true
      if decide (p.opcode = 0x80) && (decide (d = 1) || (decide (d = 0) && waits)) then
        if grp.marks.any (fun m => m.1 = seq) then s.colDrop p
        else (s.modGroup g (fun x => { x with ready := x.ready ++ [tok] })).colMoves g seq
      else
        match chips.findIdx? (fun x => x = p.src) with
        | none => bad s 0x80
        | some r =>
          if d ≠ 0 then
            bad s (match grp.inst with
              | some c => sigDiff (c.plan.sig5 c.seq) c.plan.sig6 p.h5.toNat p.h6.toNat ||| 0x100
              | none => 0x100)
          else
            match grp.inst with
            | none => s.colDrop p
            | some c =>
              if c.ended.isSome ∨ c.hdr then (s.colDrop p).colMoves g seq
              else
                let diff := sigDiff (c.plan.sig5 c.seq) c.plan.sig6 p.h5.toNat p.h6.toNat
                if diff ≠ 0 then bad s diff
                else if p.opcode = 0x80 then ((s.collProgress g c.chan).takeReady g tok).collTurn g
                else ((s.collProgress g c.chan).modInst g (fun c => c.take r p)).collTurn g

/-- An accepted COLL_ABORT (R189): the instance in progress stops, one not yet started is marked. -/
def State.colAbortIn (s : State) (p : Packet) : State :=
  let g := qf p.h5 20 9
  let grp := s.group g
  let seq : HWord := BitVec.ofNat 16 (qf p.h5 32 16)
  let reason := (p.aux / 16) % 16
  let outcome := p.aux % 16
  let mark := s.collMark g seq reason outcome
  match grp.inst with
  | some c =>
    if seq = c.seq then ((s.collProgress g c.chan).collStop g (reasonStatus reason) outcome 0 false).collTurn g
    else if seq = c.seq + 1 then mark
    else s
  | none => if seq = grp.nseq ∨ seq = grp.nseq + 1 then mark else s

/-- The instance and data packet that a COL_ACK answers (R231, R246). -/
def State.colWire (s : State) (p : Packet) : Option (Nat × CollInst × ColWire × Nat) :=
  s.groups.findSome? (fun (g, x) =>
    match x.inst with
    | none => none
    | some c =>
      if c.chan ≠ p.chan then none
      else
        match c.wires.find? (fun w => decide (w.ftag = p.ftag) && decide (w.pseq = p.rpseq)), c.plan.chips.findIdx? (fun y => y = p.src) with
        | some w, some r => if w.left.contains r then some (g, c, w, r) else none
        | _, _ => none)

/-- A matching COL_ACK (R25, R190, R267, R272): the credit returns, the packet is no longer outstanding; PFENCED
and UNREACH abort the instance. -/
def State.colAckIn (s : State) (g : Nat) (c : CollInst) (w : ColWire) (r : Nat) (p : Packet) : State :=
  let outcome := p.aux % 16
  let s1 := ((s.collProgress g c.chan).reinEcho c.chan p.cecho).modInst g (fun c => { c with
    outs := c.outs.map (fun o => if o.rank = r ∧ o.key = w.key then { o with credit := o.credit + 1 } else o)
    wires := (c.wires.map (fun x => if x = w then { x with left := x.left.filter (fun q => q ≠ r) } else x)).filter
      (fun x => x.left ≠ []) })
  let s2 := match w.tow with
    | some e => s1.towLeave e
    | none => s1
  let s3 := if outcome = 0xA ∨ outcome = 5 then s2.collAbort g 3 outcome (c.plan.chips.getD r 0 * 2 ^ 46) else s2
  s3.collTurn g

/-! ## Ends of a channel's or the block's instances (R28, R190, R192) -/

/-- Every COLL in execution on channel `k` ends CANCELLED for every member (R190). -/
def State.collDrain (s : State) (k : Nat) : State :=
  (s.chan k).flights.foldl (fun t f =>
    if opOf f.word ≠ opColl then t
    else (t.collAbort f.group 2 0 0).collTurn f.group) s

/-- Every instance ends here at once with a status (FENCED 6 at an F2 or F3 fault, ABORTED 2 at a generation
step), those for which `which` holds. -/
def State.collEndAll (s : State) (status outcome : Nat) (which : CollInst → Bool) : State :=
  s.groups.foldl (fun t (g, x) =>
    match x.inst with
    | some c => if which c then (t.collStop g status outcome 0 true).collTurn g else t
    | none => t) s

/-- The state of every group entry at a generation step (R192). -/
def State.groupsReset (s : State) : State := { s with groups := [] }

/-! ## Draining with collectives -/

/-- Channel `k` drains: its collectives are aborted, then the rest follows (R55, R190). -/
def State.drainAll (s : State) (k : Nat) (keepPend fence : Bool) : State :=
  if (s.chan k).st = .off then s
  else
    let t := s.modChan k (fun c => { c with st := .draining })
    (t.collDrain k).drainChan k keepPend fence

/-- An EN written 0 (R55, R56). -/
def State.chanDisable (s : State) (k : Nat) : State :=
  let c := s.chan k
  match c.st with
  | .on => s.drainAll k false false
  | .starting => s.modChan k (fun c => { c with en := false, late := true })
  | .draining => s.modChan k (fun c => { c with en := false, enPend := false })
  | .off => s

/-- A write of DX_CH_CTL (R52, R54 to R56, R92). -/
def State.wrChanCtl (s : State) (k : Nat) (d : Word) : State :=
  let s1 := if d.toNat.testBit 0 then s.chanEnable k else s.chanDisable k
  if d.toNat.testBit 1 then s1.chanResume k else s1

/-! ## The commands COLL (R161, R170) -/

/-- A COLL row: the word at the head of channel `k` is of one of its types. -/
def collRow (k : Nat) (types : List Nat) (s : State) : Out :=
  run s (s.heads k (fun w => decide (opOf w = opColl) && types.contains (cf w 4 12 4))) (fun s =>
    s.startCmd k goodQ0 (fun t f => t.collCmd k f))

/-- ALL_REDUCE; a word of a reserved type ends here with BAD_FIELD (R161). -/
def execAllReduce (k : Nat) (s : State) : Out := collRow k [0, 8, 9, 10, 11, 12, 13, 14, 15] s
/-- REDUCE_SCATTER. -/
def execReduceScatter (k : Nat) (s : State) : Out := collRow k [1] s
/-- ALL_GATHER. -/
def execAllGather (k : Nat) (s : State) : Out := collRow k [2] s
/-- BROADCAST. -/
def execBroadcast (k : Nat) (s : State) : Out := collRow k [3] s
/-- REDUCE. -/
def execReduce (k : Nat) (s : State) : Out := collRow k [4] s
/-- A2A_CAP. -/
def execA2aCap (k : Nat) (s : State) : Out := collRow k [5] s
/-- BARRIER. -/
def execBarrier (k : Nat) (s : State) : Out := collRow k [6] s
/-- SCALAR_AR. -/
def execScalarAr (k : Nat) (s : State) : Out := collRow k [7] s

/-! ## Channel rows that can end or move a collective -/

/-- CHANNEL_ENABLE (R54): a write of DX_CH_CTL with EN 1. -/
def execChannelEnable (k : Nat) (a : RgAcc) (s : State) : Out :=
  regCmd s (decide (k < 64)) (0x4004 + 0x100 * k) (RgAcc.force a 0 true) (fun s _ d => s.wrChanCtl k d)

/-- CHANNEL_DISABLE (R55): a write of DX_CH_CTL with EN 0. -/
def execChannelDisable (k : Nat) (a : RgAcc) (s : State) : Out :=
  regCmd s (decide (k < 64)) (0x4004 + 0x100 * k) (RgAcc.force a 0 false) (fun s _ d => s.wrChanCtl k d)

/-- RESUME (R92): a write of DX_CH_CTL with RESUME 1. -/
def execResume (k : Nat) (a : RgAcc) (s : State) : Out :=
  regCmd s (decide (k < 64)) (0x4004 + 0x100 * k) (RgAcc.force a 1 true) (fun s _ d => s.wrChanCtl k d)

/-- CHANNEL_ON (R54): a STARTING channel enters ON; one whose EN was written 0 meanwhile drains at once
(R56). -/
def execChannelOn (k : Nat) (s : State) : Out :=
  run s (decide (k < 64) && decide ((s.chan k).st = .starting)) (fun s =>
    let t := s.modChan k (fun c => { c with st := .on, progress := s.now })
    if (s.chan k).late then t.drainAll k false false else t)

end Sys2Proof.Machine
end

