-- ==== Sys2Proof/Machine/Serve.lean ====
section
/-! DEFINITION. Serving accepted packets and finishing the block's own reads and writes of host memory: the
write engine, read service, RA streams, the atomic unit and its cache (R97, R121 to R129, R141, R152). -/

namespace Sys2Proof.Machine

/-! ## RA streams at the destination (R152) -/

/-- Start the write of an accepted WR, RLY_DATA or RA_ST through the write engine. -/
def State.serveWrite (s : State) (p : Packet) : State :=
  (s.startWrite (.packet p) (wrGrans p.offset p.pay p.poison.toNat)
    (if p.ten then tallyCount p.offset p.len p.poison.toNat else 0)).2

/-- Start the read of an accepted RD, RD_RELAY or RA_LD. -/
def State.serveRead (s : State) (p : Packet) : State := (s.startRead (.serve p) [(p.offset, p.len)]).2

/-- The access is of the stream of chip `c` and RA port `r`. -/
def Stream.is (x : Stream) (c r : Nat) : Bool := decide (x.chip = c) && decide (x.ra = r)

/-- Perform the first access of a stream unless one is being performed; an empty stream is forgotten. -/
def State.streamTurn (s : State) (c r : Nat) : State :=
  match s.streams.find? (fun x => x.is c r) with
  | none => s
  | some x =>
    if x.busy then s
    else
      match x.queue with
      | [] => { s with streams := s.streams.filter (fun y => !(y.is c r)) }
      | p :: _ =>
        let t := { s with streams := updFirst (fun y => y.is c r) (fun y => { y with busy := true }) s.streams }
        if p.opcode = 0x04 then t.serveRead p else t.serveWrite p

/-- An access joins its stream. -/
def State.streamPush (s : State) (p : Packet) : State :=
  let r := p.chan % 4
  let t := if s.streams.any (fun x => x.is p.src r) then
      { s with streams := updFirst (fun x => x.is p.src r) (fun x => { x with queue := x.queue ++ [p] }) s.streams }
    else { s with streams := s.streams ++ [⟨p.src, r, [p], false⟩] }
  t.streamTurn p.src r

/-- The access of a stream that was being performed has ended: the next one follows. -/
def State.streamDone (s : State) (p : Packet) : State :=
  let r := p.chan % 4
  { s with streams := updFirst (fun x => x.is p.src r) (fun x => { x with queue := x.queue.drop 1, busy := false }) s.streams }.streamTurn
    p.src r

/-! ## Answers that carry data (R130, R232, R236) -/

/-- Poison of the source granules of a read as POISON bits of the destination page. -/
def carryPoison (got : List (Nat × Gran)) (src n dst : Nat) : Nat :=
  maskOf (((keysOf dst n).filter (fun k =>
    let lo := max dst (64 * k)
    let hi := min (dst + n) (64 * k + 64)
    (keysOf (src + (lo - dst)) (hi - lo)).any (fun j => (readBack got (64 * j) 1).2))).map (· % 64))

/-- An accepted RD, RD_RELAY or RA_LD has read its data (R97, R130): poison goes with the data, except that a
relayed read that meets it fails at the source chip. -/
def State.serveDone (s : State) (p : Packet) (got : List (Nat × Gran)) (err : Bool) : State :=
  let pz := readPoison got p.offset p.len
  let t :=
    if err then s.answer p 9
    else if p.opcode = 0x03 ∧ pz ≠ 0 then s.answer p 6
    else
      let op := if p.opcode = 0x02 then 0x41 else if p.opcode = 0x03 then 0x43 else 0x44
      let off := if p.opcode = 0x02 then qf p.h5 0 46 else if p.opcode = 0x03 then offOf p.h5.toNat else p.offset
      let h := respHd p op 0
      let h := { h with
        len := p.len
        offset := off
        granEn := granMask off p.len
        poison := carryPoison got p.offset p.len off }
      let h := if p.opcode = 0x03 then
          { h with vc := 2, dst := chipOf p.h5.toNat, inter := p.src, tally := qf p.h6 0 13, ten := qf p.h6 13 1 }
        else h
      s.respond h (readBytes got p.offset p.len) p.stamp
  if p.opcode = 0x04 then t.streamDone p else t

/-- An accepted write has ended (R131, R141): the count, then the acknowledgement; an RA store is answered only
when it fails. -/
def State.writeServed (s : State) (p : Packet) (count : Nat) (err : Bool) : State :=
  if p.opcode = 0x05 then (if err then s.answer p 9 else s).streamDone p
  else if err then s.answer p 9
  else
    let t := if p.ten ∧ count ≠ 0 then s.addTally p.tally count else s
    t.answer p (if p.poison.toNat = 0 then 0 else 6)

/-! ## The atomic unit (R121 to R128) -/

/-- The value an operation writes for the value found, and the operands, all of `w` bits (R121); none where
nothing is written. -/
def aopResult (aop w f a b : Nat) : Option Nat :=
  let sf := toSigned w f
  let sa := toSigned w a
  let b32 : FFmt := ⟨8, 23, 127, true⟩
  match aop with
  | 0x00 => some ((f + a) % 2 ^ w)
  | 0x01 => some (f &&& a)
  | 0x02 => some (f ||| a)
  | 0x03 => some (f ^^^ a)
  | 0x04 => some (if sa < sf then a else f)
  | 0x05 => some (if sf < sa then a else f)
  | 0x06 => some (min f a)
  | 0x07 => some (max f a)
  | 0x08 => some a
  | 0x09 => if f = b then some a else none
  | 0x10 => some (fadd32 f a)
  | 0x11 => some (b32.pick true f a)
  | 0x12 => some (b32.pick false f a)
  | _ => none

/-- The granule an atomic touches. -/
def atomKey (p : Packet) : Nat := p.offset / 64

/-- The write is the write-through of an atomic. -/
def WrJob.isAtom (j : WrJob) : Bool := match j.use with
  | .atom _ _ => true
  | _ => false

/-- A write-through of granule `key` is not answered yet. -/
def State.atomWriting (s : State) (key : Nat) : Bool := s.eng.writes.any (fun j => j.isAtom && j.keys.contains key)

/-- A granule of the cache is idle: no atomic on it is queued, performed or being written through. -/
def State.atcIdle (s : State) (key : Nat) : Bool :=
  !(s.atc.queue.any (fun a => decide (atomKey a.pkt = key))) && !(s.atomWriting key)

/-- HOLD 0: a granule that became idle is dropped (R127). -/
def State.atcTrim (s : State) (key : Nat) : State :=
  if s.rf 0x144 0 8 = 0 ∧ s.atcIdle key then
    { s with atc := { s.atc with cache := s.atc.cache.filter (fun e => decide (e.key ≠ key)) } }
  else s

/-- Put a granule into the cache: into its entry, or the one its read took. -/
def State.atcPut (s : State) (key : Nat) (g : Gran) : State :=
  { s with atc := { s.atc with cache := s.atc.cache.filter (fun e => decide (e.key ≠ key)) ++ [⟨key, g, s.now⟩] } }

/-- Entries of the cache in use: granules held, and granules that an atomic is reading (R128). -/
def State.atcUsed (s : State) : Nat := s.atc.cache.length + (s.atc.queue.filter (·.reading)).length

/-- The cache has an entry for one more granule, or an idle one that can leave (R128). -/
def State.atcRoom (s : State) : Bool := decide (s.atcUsed < 2048) || s.atc.cache.any (fun e => s.atcIdle e.key)

/-- Make room for one more granule: of 2,048 entries in use, an idle one leaves. DESIGN CHOICE (log 82): the one used
longest ago; the spec gives no order. -/
def State.atcMake (s : State) : State :=
  if s.atcUsed < 2048 then s
  else
    let idle := s.atc.cache.filter (fun e => s.atcIdle e.key)
    match idle.foldl (fun (b : Option AtcEntry) e => match b with
        | some x => if e.last < x.last then some e else b
        | none => some e) none with
    | some x => { s with atc := { s.atc with cache := s.atc.cache.filter (fun e => decide (e.key ≠ x.key)) } }
    | none => s

/-- Perform an atomic on its granule: the new value is written through, and the response follows its HM write
response; an atomic that writes nothing answers at once (R121, R126). -/
def State.atomDo (s : State) (a : AtomReq) (g : Gran) : State :=
  let p := a.pkt
  let key := atomKey p
  let n := p.len
  let lo := p.offset % 64
  let f := fld g.data.toNat (8 * lo) (8 * n)
  let s1 := { s with atc := { s.atc with queue := s.atc.queue.filter (fun x => decide (x.num ≠ a.num)) } }
  match aopResult (p.aux % 256) (8 * n) f (p.h5.toNat % 2 ^ (8 * n)) (p.h6.toNat % 2 ^ (8 * n)) with
  | none => ((s1.atcPut key g).answer p 0 f).atcTrim key
  | some v =>
    let d := g.data.toNat - f * 2 ^ (8 * lo) + v * 2 ^ (8 * lo)
    let g' : Gran := { g with data := BitVec.ofNat 512 d }
    ((s1.atcPut key g').startWrite (.atom p (BitVec.ofNat 64 f)) (wrGrans p.offset (leBytes n v) 0) 0).2

/-- The read of an atomic's granule has ended: an error or poison fails it, nothing written (R130). -/
def State.atomRead (s : State) (num : Nat) (got : List (Nat × Gran)) (err : Bool) : State :=
  match s.atc.queue.find? (fun a => decide (a.num = num)) with
  | none => s
  | some a =>
    let drop : State := { s with atc := { s.atc with queue := s.atc.queue.filter (fun x => decide (x.num ≠ num)) } }
    match got.find? (fun e => decide (e.1 = atomKey a.pkt)) with
    | some (_, g) => if err then drop.answer a.pkt 9 else if g.poison then drop.answer a.pkt 6 else s.atomDo a g
    | none => drop.answer a.pkt 9

/-- The write-through of an atomic has been answered; after an error the granule leaves the cache. -/
def State.atomWritten (s : State) (p : Packet) (found : Quad) (err : Bool) : State :=
  let key := atomKey p
  if err then
    ({ s with atc := { s.atc with cache := s.atc.cache.filter (fun e => decide (e.key ≠ key)) } }).answer p 9
  else (s.answer p 0 found.toNat).atcTrim key

/-- An accepted atomic can be performed now: it is the first on its granule, no earlier write of the write
engine to it is unanswered, and its granule is in the cache or can be read (R125, R128). -/
def State.atomReady (s : State) (a : AtomReq) : Bool :=
  let key := atomKey a.pkt
  !a.reading && !(s.atc.queue.any (fun b => decide (b.num < a.num) && decide (atomKey b.pkt = key)))
    && !(s.eng.writes.any (fun j => !j.isAtom && decide (j.id < a.num) && j.keys.contains key))
    && (s.atc.cache.any (fun e => decide (e.key = key)) || (s.atcRoom && !(s.atomWriting key)))

/-- Perform the first atomic that can be performed. A cache hit checks the entry's ECC: an uncorrectable word
fails the atomic (FLT_ATC_ECC). -/
def State.atomStep (s : State) : State :=
  match s.atc.queue.find? (fun a => s.atomReady a) with
  | none => s
  | some a =>
    let key := atomKey a.pkt
    match s.atc.cache.find? (fun e => decide (e.key = key)) with
    | some e =>
      let mode := s.rf 0x2020 14 1
      let (inj, t) := s.takeInj 0x13 0
      if inj ∧ mode = 1 then
        let u := t.raise 0x13 0 2 3 0x63 0 0 true
        ({ u with atc := ⟨u.atc.queue.filter (fun x => decide (x.num ≠ a.num)), u.atc.cache.filter (fun x => decide (x.key ≠ key))⟩ }).answer
          a.pkt 9
      else (if inj then t.raise 0x13 0 0 3 0x63 0 0 true else t).atomDo a e.data
    | none =>
      let s0 := s.atcMake
      let q := updFirst (fun (x : AtomReq) => decide (x.num = a.num)) (fun x => { x with reading := true }) s0.atc.queue
      let t := { s0 with atc := { s0.atc with queue := q } }
      (t.startRead (.atom a.num) [(64 * key, 64)]).2

/-- An atomic is accepted: it takes its number in the order of arrivals (R125, R128). -/
def State.atomQueue (s : State) (p : Packet) : State :=
  { s with
    eng := { s.eng with next := s.eng.next + 1 }
    atc := { s.atc with queue := s.atc.queue ++ [⟨s.eng.next, p, false⟩] } }

/-! ## The block's own reads and writes end -/

/-- The source of a fragment has been read (R130, R241, R434, R539): its data wait for their packet, or the
fragment fails with HOST_ERR. -/
def State.fragRead (s : State) (k ord id : Nat) (got : List (Nat × Gran)) (err : Bool) : State :=
  match s.flightOf k ord with
  | none => s
  | some f =>
    match f.ahead with
    | none => s
    | some a =>
      if a.job ≠ id then s
      else
        let x := s.xferOf f
        let moved := decide (x.xform = 1) || decide (x.sfmt ≠ x.dfmt)
        let (inj, s1) := if moved && !err then s.takeInj 0x19 0 else (false, s)
        let s2 := if inj then s1.raise 0x19 0 1 1 k 0 0 true else s1
        let n := (x.reads a.frag a.start.run a.start.off).foldl (fun t r => t + r.2) 0
        let s3 := s2.cntRead k n
        if err ∨ inj then (s3.failFrag k f a.frag 9).settle k
        else
          let d := x.fragData (readBack got) a.frag a.start.run a.start.off
          s3.modFlight k ord (fun g => { g with ahead := some { a with data := some (d.map (·.1), poisonMask a.frag.dst d) } })

/-- A read has ended. -/
def State.readDone (s : State) (j : RdJob) : State :=
  match j.use with
  | .frag k ord => s.fragRead k ord j.id j.got j.err
  | .serve p => s.serveDone p j.got j.err
  | .atom num => s.atomRead num j.got j.err
  | .coll g =>
    let (bad, t) := s.takeEcc 0x15 0 1 1 0x66
    t.collReadDone g j.id j.got (j.err || bad)
  | .collHead g => s.collHeadDone g j.got j.err

/-- The data of a GET fragment have been written here (R100, R130, R131, R141). -/
def State.getWritten (s : State) (k ord : Nat) (fr : Frag) (poison : Bool) (count : Nat) (err : Bool) : State :=
  match s.flightOf k ord with
  | none => s
  | some f =>
    let s1 := s.modFlight k ord (fun g =>
      let h := { g with localW := g.localW - 1 }
      if err then h.fail ⟨fr.idx, 9, false, false, failAddr f.word fr⟩
      else if poison then h.fail ⟨fr.idx, 6, false, false, failAddr f.word fr⟩
      else { h with bytes := h.bytes + fr.len })
    let s2 := if ¬ err ∧ (cq f.word 6).testBit 13 ∧ count ≠ 0 then s1.addTally (cf f.word 6 0 13) count else s1
    s2.settle k

/-- The RMEM write of an ATOM has ended with an outcome (R122). -/
def State.rmemDone (s : State) (k ord outcome : Nat) : State :=
  match s.flightOf k ord with
  | none => s
  | some f =>
    (s.modFlight k ord (fun g =>
      let h := { g with localW := g.localW - 1 }
      if outcome = 0 then h else h.fail ⟨0, outcome, false, false, BitVec.ofNat 64 (cq f.word 5)⟩)).settle k

/-- A write has ended. -/
def State.writeDone (s : State) (j : WrJob) : State :=
  match j.use with
  | .packet p => s.writeServed p j.count j.err
  | .get k ord f pz => s.getWritten k ord f pz j.count j.err
  | .rmem k ord => s.rmemDone k ord (if j.err then 9 else 0)
  | .record k ord => s.recordDone k ord (!j.err)
  | .atom p found => s.atomWritten p found j.err
  | .coll g seq kind gb addr ack => (s.collWritten g seq kind gb addr ack (!j.err)).collTurn g

/-- Granules of a read have come. -/
def State.readGot (s : State) (id : Nat) (grans : List (Nat × Gran)) : State :=
  let rs := updFirst (fun (j : RdJob) => decide (j.id = id)) (fun j => { j with got := j.got ++ grans }) s.eng.reads
  { s with eng := { s.eng with reads := rs } }

/-- A request of a read has ended; with the last one the read ends, and what it was for goes on. -/
def State.readPart (s : State) (id : Nat) (err : Bool) : State :=
  match s.eng.reads.find? (fun j => decide (j.id = id)) with
  | none => s
  | some j =>
    let j' := { j with left := j.left - 1, err := j.err || err }
    if j'.left = 0 then
      let t := { s with eng := { s.eng with reads := s.eng.reads.filter (fun x => decide (x.id ≠ id)) } }
      if j.live then t.readDone j' else t
    else { s with eng := { s.eng with reads := updFirst (fun (x : RdJob) => decide (x.id = id)) (fun _ => j') s.eng.reads } }

/-- A request of a write has ended. -/
def State.writePart (s : State) (id : Nat) (err : Bool) : State :=
  match s.eng.writes.find? (fun j => decide (j.id = id)) with
  | none => s
  | some j =>
    let j' := { j with left := j.left - 1, err := j.err || err }
    if j'.left = 0 then
      let t := { s with eng := { s.eng with writes := s.eng.writes.filter (fun x => decide (x.id ≠ id)) } }
      if j.live then t.writeDone j' else t
    else { s with eng := { s.eng with writes := updFirst (fun (x : WrJob) => decide (x.id = id)) (fun _ => j') s.eng.writes } }

/-! ## Commands of the atomic unit -/

/-- ATOMIC_PERFORM (R125). -/
def execAtomicPerform (s : State) : Out :=
  run s (s.atc.queue.any (fun a => s.atomReady a)) (fun s => s.atomStep)

/-- Drop every idle granule of the cache that satisfies a condition. -/
def State.atcDrop (s : State) (p : AtcEntry → Bool) : State :=
  { s with atc := { s.atc with cache := s.atc.cache.filter (fun e => !(p e && s.atcIdle e.key)) } }

/-- ATC_HOLD_EXPIRE (R127): HOLD × 64 ns have passed since the last atomic of granule `g`. -/
def execAtcHoldExpire (g : Nat) (s : State) : Out :=
  let due : AtcEntry → Bool := fun e => decide (e.key = g) && decide (e.last + nsTicks (64 * s.rf 0x144 0 8) ≤ s.now)
  run s (s.atc.cache.any (fun e => due e && s.atcIdle e.key)) (fun s => s.atcDrop due)

/-- A write of DX_ATC_CFG (R127). -/
def State.wrAtcCfg (s : State) (priv : Bool) (d : Word) : State :=
  let t := s.plainWrite 0x144 priv d
  if d.toNat.testBit 8 then t.atcDrop (fun _ => true) else t

/-- ATC_FLUSH: a write of DX_ATC_CFG with FLUSH 1. -/
def execAtcFlush (a : RgAcc) (s : State) : Out :=
  regCmd s true 0x144 (RgAcc.force a 8 true) (fun s priv d => s.wrAtcCfg priv d)

end Sys2Proof.Machine
end

