-- ==== Sys2Proof/Machine/Ports.lean ====
section
/-! DEFINITION. The host-facing ports: host memory requests and their answers, remote access, events
(R40 to R45, R374 to R391, R403). -/

namespace Sys2Proof.Machine

/-! ## HM requests (R376, R377, R384) -/

/-- RG offset of a register of HM port `p`. -/
def hmReg (p r : Nat) : Nat := 0xE00 + 0x10 * p + r

/-- The lowest free tag of 1,024, neither outstanding nor quarantined. -/
def freeHmTag (used quar : List Nat) : Option Nat := lowest 1024 (fun t => !used.contains t && !quar.contains t)

/-- The host has taken something from bundle `i`: its monitor made progress, and its timer begins anew while more waits
(R436, R437). -/
def State.moved (s : State) (i : Nat) : State := s.modMon (128 + i) (fun _ => Monitor.reset)

/-- The parity bit that goes with an output of a host bundle (R374, R375, R386, R393, R395). -/
def Output.parity : Output → Option Bool
  | .hmRead _ a n t => some (Sys2Proof.Machine.parity 62 (fld a 6 46 + put n 46 6 + put t 52 10))
  | .raResp _ r _ => some (Sys2Proof.Machine.parity 12 (r.tag + put (b2n r.wr) 7 1 + put r.out 8 4))
  | .rgAnswer d x => some (Sys2Proof.Machine.parity 34 (d.toNat + put x 32 2))
  | .lbWrite a _ _ => some (Sys2Proof.Machine.parity 46 (fld a 6 46))
  | _ => none

/-- One beat on a wr bundle: last flag, four lanes of data with enables, CRC-16 and poison, and the parity (R375). -/
structure WrBeat where
  last : Bool
  data : List (BitVec 512)
  be : List Quad
  crc : List Nat
  poison : List Bool
  par : Bool
deriving DecidableEq, Repr

/-- The beats of a write of granules (R375, R376): four granules a beat, and lanes of zeros past the last one. -/
def Output.wrBeats : Output → List WrBeat
  | .hmWrite _ a t gs crcs =>
    let n := (gs.length + 3) / 4
    (List.range n).map (fun b =>
      let lane := fun (g : Nat) => (gs[4 * b + g]?).getD ⟨0, 0, 0, false⟩
      let lanes := [lane 0, lane 1, lane 2, lane 3]
      let last := decide (b + 1 = n)
      let be := (lanes.zipIdx.map (fun e => e.1.be.toNat * 2 ^ (64 * e.2))).foldl (· + ·) 0
      let bad := (lanes.zipIdx.map (fun e => b2n e.1.poison * 2 ^ e.2)).foldl (· + ·) 0
      ⟨last, lanes.map (·.data), lanes.map (·.be), (List.range 4).map (fun g => crcs.getD (4 * b + g) 0), lanes.map (·.poison),
        Sys2Proof.Machine.parity 323 (fld a 6 46 + put (gs.length - 1) 46 6 + put t 52 10 + put (b2n last) 62 1 + be * 2 ^ 63 + bad * 2 ^ 319)⟩)
  | _ => []

/-- HM port `p` may issue one more read. -/
def State.hmRdRoom (s : State) (p : Nat) : Bool :=
  let h := s.hmPort p
  decide (h.rdOut.length + h.rdQuar.length ≤ s.rf (hmReg p 0) 0 10)

/-- HM port `p` may issue one more write. -/
def State.hmWrRoom (s : State) (p : Nat) : Bool :=
  let h := s.hmPort p
  decide (h.wrOut.length + h.wrQuar.length ≤ s.rf (hmReg p 0) 16 10)

/-- HM_READ_ISSUE: the oldest waiting read of port `p` goes out. -/
def execHmReadIssue (p : Nat) (s : State) : Out :=
  let h := s.hmPort p
  run s (decide (p < 16) && decide (h.rdWait ≠ []) && s.hmRdRoom p) (fun s =>
    match h.rdWait, freeHmTag (h.rdOut.map (·.tag)) h.rdQuar with
    | r :: rest, some tag =>
      ((s.moved p).modHm p (fun h => { h with rdWait := rest, rdOut := h.rdOut ++ [⟨tag, r, 0, false, false, s.now⟩] })).drive
        (.hmRead p r.addr (r.keys.length - 1) tag)
    | _, _ => s)

/-- A write must wait for atomics: one of the write engine for every atomic accepted before it on its granules
(R128), the write-through of an atomic for the one before it on its granule (DESIGN CHOICE, log 68). -/
def State.writeWaits (s : State) (r : WrReq) : Bool :=
  match s.eng.writes.find? (fun j => decide (j.id = r.job)) with
  | none => false
  | some j =>
    r.grans.any (fun g =>
      if j.isAtom then s.eng.writes.any (fun o => decide (o.id < j.id) && o.isAtom && o.keys.contains g.key)
      else s.atomWriting g.key
        || s.atc.queue.any (fun a => decide (a.num < j.id) && decide (atomKey a.pkt = g.key)))

/-- HM_WRITE_ISSUE: the first waiting write of port `p` that may go out does; a write of the write engine drops
its granules from the atomic cache (R128). Each lane carries a CRC-16 of the bytes presented (R242, R377). -/
def execHmWriteIssue (p : Nat) (s : State) : Out :=
  let h := s.hmPort p
  run s (decide (p < 16) && h.wrWait.any (fun r => !s.writeWaits r) && s.hmWrRoom p) (fun s =>
    match h.wrWait.find? (fun r => !s.writeWaits r), freeHmTag (h.wrOut.map (·.tag)) h.wrQuar with
    | some r, some tag =>
      let atom := s.eng.writes.any (fun j => decide (j.id = r.job) && j.isAtom)
      let t := (s.moved p).modHm p (fun h => { h with
        wrWait := dropFirst (fun x => decide (x = r)) h.wrWait, wrOut := h.wrOut ++ [⟨tag, r, s.now⟩] })
      let c := t.atc.cache.filter (fun e => atom || !(r.grans.any (fun g => decide (g.key = e.key))))
      ({ t with atc := { t.atc with cache := c } }).drive
        (.hmWrite p r.addr tag r.grans (r.grans.map (fun (g : WrGran) => granCrc g.data.toNat)))
    | _, _ => s)

/-- Set a flag of DX_HM{p}_STAT: TIMEOUT 27, PROTO 28, RD_CRC 29 (R384). -/
def State.hmFlag (s : State) (p i : Nat) : State := s.orReg (hmReg p 4) (BitVec.ofNat 32 (2 ^ i))

/-- Count an ERR in DX_HM{p}_ERRS, saturating: reads in the low half, writes in the high. -/
def State.hmErr (s : State) (p lo : Nat) : State := s.putField (hmReg p 12) lo 16 (min 0xFFFF (s.rf (hmReg p 12) lo 16 + 1))

/-- FLT_HM_PROTO on port `p` (R381, R383). -/
def State.hmProto (s : State) (p atype master addr : Nat) : State := (s.raise 0x22 p 2 atype master addr).hmFlag p 28

/-- The read of `tag` on port `p` ends. -/
def State.hmReadEnd (s : State) (p tag : Nat) (job : Nat) (err : Bool) : State :=
  (s.modHm p (fun h => { h with rdOut := h.rdOut.filter (fun x => decide (x.tag ≠ tag)) })).readPart job err

/-- The lanes of a beat that fail their CRC-16: lane g of beat b carries granule 4b + g of `n`; `inj` inverts
the check bits of the first lane checked (R376, R383, R426). -/
def badLanes (x : RdBeat) (b n : Nat) (inj : Bool) : List Nat :=
  let lanes := [0, 1, 2, 3].filter (fun g => decide (4 * b + g < n) && !x.poison.toNat.testBit g)
  lanes.filter (fun g =>
    let want := fld x.crc.toNat (16 * g) 16
    let want := if inj ∧ lanes.head? = some g then want ^^^ 0xFFFF else want
    decide (crc16 (leBytes 64 (fld x.data.toNat (512 * g) 512)) ≠ want))

/-- The granules that a beat brings. -/
def beatGrans (x : RdBeat) (b : Nat) (keys : List Nat) : List (Nat × Gran) :=
  ([0, 1, 2, 3].filter (fun g => decide (4 * b + g < keys.length))).map (fun g =>
    (keys.getD (4 * b + g) 0, ⟨BitVec.ofNat 512 (fld x.data.toNat (512 * g) 512), x.poison.toNat.testBit g⟩))

/-- A beat of an outstanding read (R376, R378, R381, R383). -/
def State.hmBeat (s : State) (p : Nat) (x : RdBeat) (r : RdOut) : State :=
  let n := r.req.keys.length
  let final := (n + 3) / 4 - 1
  let bad := decide (x.sts ≠ 0)
  let s1 := if bad && !r.ans then s.hmErr p 0 else s
  let s2 := if 2 ≤ x.sts.toNat then s1.hmProto p 1 0x64 r.req.addr else s1
  if (x.last ∧ r.beats ≠ final) ∨ final < r.beats then
    (s2.hmProto p 1 0x64 r.req.addr).hmReadEnd p r.tag r.req.job true
  else
    let (inj, s3) := s2.takeInj 0x20 p
    let lanes := badLanes x r.beats n inj
    let s4 := lanes.foldl (fun t g =>
      (t.raise 0x20 p 1 1 0x64 (r.req.addr + 64 * (4 * r.beats + g)) 0 (inj && decide (lanes.head? = some g))).hmFlag p 29) s3
    let err := r.err || bad || decide (lanes ≠ [])
    let s5 := s4.readGot r.req.job (beatGrans x r.beats r.req.keys)
    if x.last then s5.hmReadEnd p r.tag r.req.job err
    else s5.modHm p (fun h => { h with
      rdOut := updFirst (fun y => decide (y.tag = r.tag)) (fun y => { y with beats := y.beats + 1, err := err, ans := r.ans || bad }) h.rdOut })

/-- HM_READ_BEAT: parity first, then the tag, then the beat itself; a quarantined tag is freed by its last beat
(R383, R385). -/
def execHmReadBeat (p : Nat) (x : RdBeat) (s : State) : Out :=
  run s (decide (p < 16)) (fun s =>
    let (inj, s0) := s.takeInj 0x23 p
    let par := parity 17 (x.tag.toNat + put (b2n x.last) 10 1 + put x.sts.toNat 11 2 + put x.poison.toNat 13 4)
    if (x.par == par) == inj then (s0.raise 0x23 p 2 1 0x64 0 0 inj).hmFlag p 28
    else
      let tag := x.tag.toNat
      match (s0.hmPort p).rdOut.find? (fun r => decide (r.tag = tag)) with
      | some r => s0.hmBeat p x r
      | none =>
        if (s0.hmPort p).rdQuar.contains tag then
          if x.last then s0.modHm p (fun h => { h with rdQuar := h.rdQuar.filter (fun t => decide (t ≠ tag)) }) else s0
        else s0.hmProto p 1 0x64 0)

/-- HM_WRITE_RESPONSE: checked as a beat is; then its write ends (R380, R381, R383, R385). -/
def execHmWriteResponse (p : Nat) (x : WrRsp) (s : State) : Out :=
  run s (decide (p < 16)) (fun s =>
    let (inj, s0) := s.takeInj 0x23 p
    let par := parity 12 (x.tag.toNat + put x.sts.toNat 10 2)
    if (x.par == par) == inj then (s0.raise 0x23 p 2 2 0x65 0 0 inj).hmFlag p 28
    else
      let tag := x.tag.toNat
      match (s0.hmPort p).wrOut.find? (fun r => decide (r.tag = tag)) with
      | some r =>
        let bad := decide (x.sts ≠ 0)
        let s1 := if bad then s0.hmErr p 16 else s0
        let s2 := if 2 ≤ x.sts.toNat then s1.hmProto p 2 0x65 r.req.addr else s1
        (s2.modHm p (fun h => { h with wrOut := h.wrOut.filter (fun y => decide (y.tag ≠ tag)) })).writePart r.req.job bad
      | none =>
        if (s0.hmPort p).wrQuar.contains tag then
          s0.modHm p (fun h => { h with wrQuar := h.wrQuar.filter (fun t => decide (t ≠ tag)) })
        else s0.hmProto p 2 0x65 0)

/-- A request of port `p` has waited four hang windows. -/
def State.hmLate (s : State) (p tag : Nat) (isWr : Bool) : Bool :=
  let h := s.hmPort p
  if isWr then h.wrOut.any (fun r => decide (r.tag = tag) && decide (r.at_ + 4 * s.hangTicks ≤ s.now))
  else h.rdOut.any (fun r => decide (r.tag = tag) && decide (r.at_ + 4 * s.hangTicks ≤ s.now))

/-- HM_TIMEOUT (R385): the access fails HOST_ERR, its tag is quarantined. -/
def execHmTimeout (p : Nat) (isWr : Bool) (tag : Nat) (s : State) : Out :=
  run s (decide (p < 16) && s.hmLate p tag isWr) (fun s =>
    if isWr then
      match (s.hmPort p).wrOut.find? (fun r => decide (r.tag = tag)) with
      | some r =>
        (((s.raise 0x21 p 1 2 0x65 r.req.addr).hmFlag p 27).modHm p (fun h => { h with
          wrOut := h.wrOut.filter (fun y => decide (y.tag ≠ tag)), wrQuar := h.wrQuar ++ [tag] })).writePart r.req.job true
      | none => s
    else
      match (s.hmPort p).rdOut.find? (fun r => decide (r.tag = tag)) with
      | some r =>
        (((s.raise 0x21 p 1 1 0x64 r.req.addr).hmFlag p 27).modHm p (fun h => { h with
          rdQuar := h.rdQuar ++ [tag] })).hmReadEnd p tag r.req.job true
      | none => s)

/-! ## RA accesses at the source (R40 to R45, R387, R388) -/

/-- Give a response on port `p`. -/
def State.raRespond (s : State) (p tag : Nat) (wr : Bool) (out : Nat) (data : BitVec 2048 := 0) : State :=
  s.modRa p (fun r => { r with rsp := r.rsp ++ [⟨tag, wr, out, data⟩] })

/-- The lanes of a store that hold an addressed byte. -/
def raLanes (x : RaAccess) : List Nat :=
  let a := x.addr.toNat % 256
  [0, 1, 2, 3].filter (fun g => decide (a / 64 ≤ g) && decide (g ≤ min 3 ((a + x.lenM1.toNat) / 64)))

/-- Some lane of a store fails its CRC-16; `inj` inverts the check bits of the first lane checked. -/
def raCrcBad (x : RaAccess) (inj : Bool) : Bool :=
  (raLanes x).any (fun g =>
    let want := fld x.crc.toNat (16 * g) 16
    let want := if inj ∧ (raLanes x).head? = some g then want ^^^ 0xFFFF else want
    decide (crc16 (leBytes 64 (fld x.data.toNat (512 * g) 512)) ≠ want))

/-- The packet of an access enters the injection point; a store is answered at once (R42, R43, R226). -/
def State.raSend (s : State) (p : Nat) (wr : Bool) (x : RaAccess) : State :=
  let len := x.lenM1.toNat + 1
  let off := offOf x.addr.toNat
  let h : Hd := { opcode := if wr then 0x05 else 0x04, vc := 1, dst := chipOf x.addr.toNat, len, offset := off, ctx := 1
                  chan := p, ftag := x.tag.toNat + if wr then 128 else 0, granEn := if wr then granMask off len else 0 }
  let pay := if wr then (leBytes 256 x.data.toNat).drop (x.addr.toNat % 256) |>.take len else []
  let t := ((s.form h pay).reinCharge (64 + p) h.opcode len).useSlot (64 + p)
  if wr then t.raRespond p x.tag.toNat true 0
  else t.modRa p (fun r => { r with loads := r.loads ++ [⟨x.tag.toNat, x.addr, len, t.pseq.toNat, s.now⟩] })

/-- An access is accepted: UNREACH while the block is in F2 or F3 (R403), then the checks of R387 in order. -/
def State.raAccept (s : State) (p : Nat) (wr : Bool) (x : RaAccess) : State :=
  let tag := x.tag.toNat
  if s.shut then s.raRespond p tag wr 5
  else
    let (ip, s1) := s.takeInj 0x24 p
    let par := parity 80 (x.addr.toNat + put (b2n wr) 64 1 + put x.lenM1.toNat 65 8 + put tag 73 7)
    if (x.par == par) == ip then
      (s1.raise 0x24 p 1 (if wr then 2 else 1) (0x40 + p) x.addr.toNat 0 ip).raRespond p tag wr 9
    else
      let (ic, s2) := if wr then s1.takeInj 0x25 p else (false, s1)
      let r := s2.raPort p
      if wr ∧ raCrcBad x ic then (s2.raise 0x25 p 1 2 (0x40 + p) x.addr.toNat 0 ic).raRespond p tag wr 9
      else if ¬ wr ∧ (r.loads.any (fun l => decide (l.tag = tag)) ∨ r.quar.any (fun q => decide (q.1 = tag))) then
        (s2.raise 0x26 p 1 1 (0x40 + p) x.addr.toNat).raRespond p tag wr 1
      else if 256 < x.addr.toNat % 256 + x.lenM1.toNat + 1 then s2.raRespond p tag wr 1
      else
        match s2.sourceCheck (chipOf x.addr.toNat) 1 (if wr then 0x05 else 0x04) (tag + if wr then 128 else 0) with
        | some o => s2.raRespond p tag wr o
        | none => s2.raSend p wr x

/-- Take the accesses that ports hold, as far as they may be taken now. -/
def State.raRelease (s : State) : State :=
  [0, 1, 2, 3].foldl (fun t p =>
    match (t.raPort p).heldAcc with
    | [] => t
    | (wr, x) :: rest =>
      if t.raWithheld p then (if t.reinAdmits (64 + p) then t else t.reinHeld (64 + p))
      else if ¬ (t.shut || t.turn (64 + p)) then t
      else (t.modRa p (fun r => { r with heldAcc := rest })).raAccept p wr x) s

/-- An access is offered on port `p`: taken, or held with its acknowledge withheld. -/
def State.raOffer (s : State) (p : Nat) (wr : Bool) (x : RaAccess) : State :=
  (s.modRa p (fun r => { r with heldAcc := r.heldAcc ++ [(wr, x)] })).raRelease

/-- FRAGMENT_ISSUE (R62, R63, R99): the next fragment of the channel's issuing command is read or formed; a
collective of the channel sends what it can; RA accesses that waited for a slot of the round follow. -/
def execFragmentIssue (k : Nat) (s : State) : Out :=
  run s (decide (k < 64)) (fun s =>
    let t := s.issueStep k
    (t.groups.foldl (fun t (g, x) =>
      match x.inst with
      | some c => if c.chan = k then t.collTurn g else t
      | none => t) t).raRelease)

/-- RA_LOAD (R387). -/
def execRaLoad (p : Nat) (x : RaAccess) (s : State) : Out :=
  run s (decide (p < 4) && decide ((s.raPort p).heldAcc = [])) (fun s => s.raOffer p false x)

/-- RA_STORE (R43). -/
def execRaStore (p : Nat) (x : RaAccess) (s : State) : Out :=
  run s (decide (p < 4) && decide ((s.raPort p).heldAcc = [])) (fun s => s.raOffer p true x)

/-- RA_RSP_TAKEN (R388): the host takes the oldest response of port `p`. -/
def execRaRspTaken (p : Nat) (s : State) : Out :=
  run s (decide (p < 4) && decide ((s.raPort p).rsp ≠ [])) (fun s =>
    match (s.raPort p).rsp with
    | [] => s
    | r :: rest => (((s.moved (16 + p)).modRa p (fun x => { x with rsp := rest })).drive
      (.raResp p r ((List.range 4).map (fun g => granCrc (fld r.data.toNat (512 * g) 512))))).raRelease)

/-- End an outstanding load with an outcome; `quar`: its tag is quarantined (R45). -/
def State.raEnd (s : State) (p : Nat) (l : RaLoad) (out : Nat) (data : BitVec 2048) (quar : Bool) : State :=
  (s.modRa p (fun r => { r with
    loads := r.loads.filter (fun y => decide (y.tag ≠ l.tag))
    quar := if quar then r.quar ++ [(l.tag, l.pseq)] else r.quar })).raRespond p l.tag false out data

/-- RA_LOAD_TIMEOUT (R45): four hang windows without a response. -/
def execRaLoadTimeout (p tag : Nat) (s : State) : Out :=
  let due := fun (l : RaLoad) => decide (l.tag = tag) && decide (l.at_ + 4 * s.hangTicks ≤ s.now) && decide (s.halt.st = .run)
  run s (decide (p < 4) && (s.raPort p).loads.any due) (fun s =>
    match (s.raPort p).loads.find? due with
    | some l => s.raEnd p l 8 0 true
    | none => s)

/-! ## EV (R391) -/

/-- EVENT_TAKEN: the host takes the oldest event, which frees a slot. -/
def execEventTaken (s : State) : Out :=
  run s (decide (s.ev.queue ≠ [])) (fun s =>
    match s.ev.queue with
    | [] => s
    | w :: rest => ((({ s with ev := { s.ev with queue := rest } }).moved 20).drive (.event w (crc16 (leBytes 16 w.toNat)))).pumpEvents 256)

/-! ## Tallies and watches from RG (R143 to R147) -/

/-- A write of DX_TALLY{n}_HI sets all 48 bits (R143, R144). -/
def State.wrTallyHi (s : State) (n : Nat) (d : Word) : State :=
  let lo := SMap.get (fun _ => (0 : Word)) s.wshadow (0x10000 + 8 * n)
  s.setTally n (BitVec.ofNat 48 (lo.toNat + d.toNat * 2 ^ 32))

/-- TALLY_WRITE. -/
def execTallyWrite (n : Nat) (a : RgAcc) (s : State) : Out :=
  regCmd s (decide (n < 8192)) (0x10004 + 8 * n) a (fun s _ d => s.wrTallyHi n d)

/-- A write of DX_TWATCH{w}_CTL (R145, R146). -/
def State.wrWatchCtl (s : State) (w : Nat) (d : Word) : State :=
  let v := d.toNat
  let x := s.watchOf w
  let y := { x with
    fired := x.fired && !v.testBit 24
    overrun := x.overrun && !v.testBit 25
    wrIgn := x.wrIgn && !v.testBit 26 }
  let tally := fld v 0 13
  let cond := fld v 16 3
  if ¬ v.testBit 20 then
    s.setWatch w (if x.armed then
      { y with armed := false, wrIgn := y.wrIgn || decide (tally ≠ x.tally) || decide (cond ≠ x.cond) }
      else { y with tally := tally, cond := cond })
  else if x.armed then
    s.setWatch w { y with wrIgn := y.wrIgn || decide (tally ≠ x.tally) || decide (cond ≠ x.cond) }
  else if 6 ≤ cond then s.setWatch w { y with wrIgn := true }
  else
    let z := { y with tally := tally, cond := cond, armed := true }
    (s.setWatch w z).evalWatch w

/-- A write of VALUE or STEP of watch `w`: ignored while it is armed. -/
def State.wrWatchVal (s : State) (w : Nat) (f : Watch → Watch) : State :=
  let x := s.watchOf w
  if x.armed then (if f x = x then s else s.setWatch w { x with wrIgn := true }) else s.setWatch w (f x)

/-- WATCH_ARM: a write of CTL with ARM 1. -/
def execWatchArm (w : Nat) (a : RgAcc) (s : State) : Out :=
  regCmd s (decide (w < 256)) (0xA000 + 16 * w) (RgAcc.force a 20 true) (fun s _ d => s.wrWatchCtl w d)

/-- WATCH_DISARM: a write of CTL with ARM 0. -/
def execWatchDisarm (w : Nat) (a : RgAcc) (s : State) : Out :=
  regCmd s (decide (w < 256)) (0xA000 + 16 * w) (RgAcc.force a 20 false) (fun s _ d => s.wrWatchCtl w d)

/-- WATCH_EVENT_ENQUEUE (R147): the pending event enters the queue, which has a free slot. -/
def execWatchEventEnqueue (w : Nat) (s : State) : Out :=
  run s (decide (w < 256) && (s.watchOf w).pend.isSome && decide (s.ev.queue.length < 256) && decide (s.ev.held = [])) (fun s =>
    match (s.watchOf w).pend with
    | some e => (s.setWatch w { s.watchOf w with pend := none }).emit e.toNat
    | none => s)

end Sys2Proof.Machine
end

