-- ==== Sys2Proof/Machine/Accept.lean ====
section
/-! DEFINITION. Accepting packets from the ejection berths: the checks of R245 in order, the partition fence,
matching responses, and what each packet of the opcode table does at its receiver (R20 to R28, R234 to R248). -/

namespace Sys2Proof.Machine

/-! ## Checks 1 to 6 (R245, R248) -/

/-- Capture the first failure in DX_PKT_CAP0 to CAP2 while CAP0.VALID is 0 (R248). -/
def State.pktCap (s : State) (kind reason port : Nat) (p : Packet) : State :=
  if (s.reg 0x20C).toNat.testBit 15 then s
  else
    ((s.setReg 0x20C (BitVec.ofNat 32 (kind + put reason 4 4 + put port 8 4 + put p.vc 12 3 + 2 ^ 15 + put p.opcode 16 8))).setReg
      0x210 (BitVec.ofNat 32 p.src)).setReg 0x214 (BitVec.ofNat 32 p.pseq)

/-- The master field of a capture record for an arrival port (R421). -/
def portMaster (port : Nat) : Nat := if port < 12 then 0x50 + port else 0x5F

/-- The global address a packet names. -/
def Packet.gaddr (p : Packet) : Nat := p.dst * 2 ^ 46 + p.offset

/-- A packet that fails an integrity check or matches nothing: counted, captured, its fault raised. -/
def State.pktBad (s : State) (h : Held) (cnt code kind reason : Nat) (inj : Bool := false) (atype : Nat := 4) : State :=
  ((s.incReg cnt).pktCap kind reason h.port h.pkt).raise code h.port 1 atype (portMaster h.port) h.pkt.gaddr 0 inj

/-- The group entry named in a multicast packet's signature is VALID here with its DIGEST (R245, R275). -/
def State.mcastMember (s : State) (p : Packet) : Bool :=
  let w := s.grpWord (qf p.h5 20 9) 0
  w.testBit 0 && decide (fld w 16 16 = qf p.h5 48 16)

/-- Checks 1 to 6 of R245 on a packet in a berth, with abort hold (R442): whether it passes, and the state with
what a failure counts and raises. -/
def State.checked (s : State) (h : Held) : Bool × State :=
  let p := h.pkt
  let armed := (s.reg 0x218).toNat.testBit 0
  let want := if armed then 2 ^ 64 - 1 - p.crcOf else p.crcOf
  let bad := decide (p.t3.toNat ≠ want)
  let s1 := if armed then (let t := s.clrReg 0x218 1; if bad then t.orReg 0x218 2 else t) else s
  if bad then (false, (s1.countDrop p).pktBad h 0x200 0x55 1 0 armed)
  else
    match p.malformed h.flits with
    | some r => (false, (s1.countDrop p).pktBad h 0x204 0x56 2 r)
    | none =>
      if keyedOp p.opcode ∧ (p.gen ≠ s1.ident.gen.toNat ∨ (p.opcode < 0xC0 ∧ s1.ownKey p ∧ s1.abortHold)) then
        (false, (s1.countDrop p).incReg 0x11C)
      else if keyedOp p.opcode ∧ (p.pkey ≠ s1.ident.pkey.toNat ∨ s1.ident.pkey = 0 ∨ s1.mc.spareWait) then
        (false, (s1.countDrop p).incReg 0x118)
      else if keyedOp p.opcode ∧ s1.here.isNone then (false, (s1.countDrop p).incReg 0x114)
      else if ¬ (if p.rmode = 3 then s1.mcastMember p else decide (p.dst = s1.own)) then
        (false, ((s1.countDrop p).incReg 0x114).raise 0x58 h.port 1 4 (portMaster h.port) p.gaddr)
      else
        let s2 := if keyedOp p.opcode then s1.modCount p.pkey (fun c => { c with acc := c.acc + 1 }) else s1
        (true, s2.countPkt 16 p)

/-- What the partition fence makes of an accepted packet (R25 items 3 and 4): answered or dropped without being
performed; none when the fence does not stop it. -/
def State.fenceAnswer (s : State) (p : Packet) : Option State :=
  if ¬ s.pfence then none
  else if isReq p.opcode ∨ p.opcode = 0x43 then some (s.answer p 0xA)
  else if p.opcode = 0x81 ∨ p.opcode = 0x82 then some (s.colAnswer p 0xA true)
  else if isCol p.opcode ∨ p.opcode = 0xC0 then some s
  else none

/-- Berth `i` holds a packet whose opcode satisfies `which`, and no earlier berth one of its virtual channel from
its port, whose packets come in order (R243). -/
def State.berth (s : State) (i : Nat) (which : Nat → Bool) : Bool :=
  match s.eject[i]? with
  | some h => which h.pkt.opcode && !((s.eject.take i).any (fun x => decide (x.port = h.port) && decide (x.pkt.vc = h.pkt.vc)))
  | none => false

/-- Take berth `i`: the berth is freed, and a packet that passes checks 1 to 6 and the partition fence is handed
to `body`. -/
def State.take (s : State) (i : Nat) (body : State → Held → State) : State :=
  match s.eject[i]? with
  | none => s
  | some h =>
    let (ok, t) := { s with eject := dropAt s.eject i }.checked h
    if ¬ ok then t
    else
      match t.fenceAnswer h.pkt with
      | some u => u
      | none => body t h

/-- A packet row: berth `i` holds a packet of one of the row's opcodes. -/
def pktRow (i : Nat) (ops : List Nat) (body : State → Held → State) (s : State) : Out :=
  run s (s.berth i (fun o => ops.contains o)) (fun s => s.take i body)

/-! ## Requests -/

/-- Check 9 of R245: NO_WINDOW or PERM. -/
def State.window9 (s : State) (a : Acc) (p : Packet) : Option Nat :=
  match s.windowCheck a p.offset with
  | .error o => some o
  | .ok _ => none

/-- A request that meets check 9 is answered, else served. An uncorrectable window word refuses it as NO_WINDOW
(R427). -/
def State.serveIf (s : State) (a : Acc) (p : Packet) (f : State → State) : State :=
  let (bad, t) := s.takeEcc 0x11 2 2 4 0x5F
  if bad then t.answer p 3
  else
    match t.window9 a p with
    | some o => t.answer p o
    | none => f t

/-- WR (R236); a packet with an unknown opcode is malformed and meets its checks here too. -/
def execWr (i : Nat) (s : State) : Out :=
  run s (s.berth i (fun o => decide (o = 0x01) || (opRow o).isNone)) (fun s =>
    s.take i (fun s h => s.serveIf .wr h.pkt (fun t => t.serveWrite h.pkt)))

/-- RD: in F2 and F3 a request to be served is dropped (R403). -/
def execRd (i : Nat) (s : State) : Out :=
  pktRow i [0x02] (fun s h => s.serveIf .rd h.pkt (fun t => if t.shut then t else t.serveRead h.pkt)) s

/-- The source chip's checks of a relayed read's destination, by its own tables (R97). -/
def State.relayCheck (s : State) (p : Packet) : Option Nat :=
  let c := chipOf p.h5.toNat
  if (s.resolve s.tbl.cur c).isNone then some 2
  else if s.reachable c 2 0x43 p.ftag then none else some 5

/-- RD_RELAY (R97). -/
def execRdRelay (i : Nat) (s : State) : Out :=
  pktRow i [0x03] (fun s h => s.serveIf .rd h.pkt (fun t =>
    match t.relayCheck h.pkt with
    | some o => t.answer h.pkt o
    | none => if t.shut then t else t.serveRead h.pkt)) s

/-- RA_LD (R152). -/
def execRaLd (i : Nat) (s : State) : Out :=
  pktRow i [0x04] (fun s h => s.serveIf .rd h.pkt (fun t => if t.shut then t else t.streamPush h.pkt)) s

/-- RA_ST (R152). -/
def execRaSt (i : Nat) (s : State) : Out :=
  pktRow i [0x05] (fun s h => s.serveIf .wr h.pkt (fun t => t.streamPush h.pkt)) s

/-- ATOM (R121, R124, R125): an unknown operation writes nothing. -/
def execAtomPacket (i : Nat) (s : State) : Out :=
  pktRow i [0x06] (fun s h => s.serveIf .at h.pkt (fun t => t.atomQueue h.pkt)) s

/-- SIGNAL: the addition, then the acknowledgement (R141). -/
def execSignalPacket (i : Nat) (s : State) : Out :=
  pktRow i [0x07] (fun s h => (s.addTally h.pkt.tally (qf h.pkt.h5 0 48)).answer h.pkt 0) s

/-- RLY_DATA (R97): written as a WR; the acknowledgement goes to INTER. -/
def execRlyData (i : Nat) (s : State) : Out :=
  pktRow i [0x43] (fun s h => s.serveIf .wr h.pkt (fun t => t.serveWrite h.pkt)) s

/-! ## Responses (R246) -/

/-- A response that matches nothing (R246, R248). -/
def State.stale (s : State) (h : Held) : State := s.pktBad h 0x208 0x57 3 0

/-- The responses that can answer a fragment of a command (R96, R234). -/
def Way.answers : Way → List Nat
  | .send => [0x40]
  | .fetch => [0x41, 0x42]
  | .relay => [0x40, 0x42]

/-- The opcodes that answer a packet of a flight's command. -/
def State.answersOf (s : State) (f : Flight) : List Nat :=
  let op := opOf f.word
  if op = opAtom then [0x46]
  else if op = opSignal then [0x47]
  else if op = opLoads then [0x41, 0x42]
  else (s.wayOf f.word).answers

/-- The fragment slot and flight that a response of context 0 answers (R246). -/
def State.slotFor (s : State) (p : Packet) : Option (Nat × Slot × Flight) :=
  if p.ctx ≠ 0 then none
  else
    match (s.chan p.chan).slots.find? (fun x => decide (x.ftag = p.ftag) && decide (x.pseq = p.rpseq)) with
    | some x => (s.flightOf p.chan x.ord).map (fun f => (p.chan, x, f))
    | none => none

/-- Free a slot: the fragment has its answer. -/
def State.freeSlot (s : State) (k : Nat) (x : Slot) : State :=
  s.modChan k (fun c => { c with slots := c.slots.filter (fun y => decide (y.ftag ≠ x.ftag)), progress := s.now })

/-- A response of a channel's fragment: its echo reaches the rein and its towpath credit returns (R272, R279);
then `body`, or the failure the outcome names. An opcode that does not answer the fragment's request matches all the
same, and ends the fragment without data (R246; DESIGN CHOICE, log 84). -/
def State.slotRsp (s : State) (h : Held) (body : State → Nat → Slot → Flight → State) : State :=
  let p := h.pkt
  match s.slotFor p with
  | none => s.stale h
  | some (k, x, f) =>
    let body := if (s.answersOf f).contains p.opcode then body else fun t _ _ _ => t
    let s1 := s.reinEcho k p.cecho
    let s2 := match x.tow with
      | some e => s1.towLeave e
      | none => s1
    let o := if p.opcode = 0x41 then 0 else p.aux % 16
    let s3 := if o ≠ 0 ∨ p.opcode = 0x42 then s2.failSlot k x o false false else body (s2.freeSlot k x) k x f
    s3.settle k

/-- An RA load's response (R45, R246): a matching entry completes, a quarantined tag is freed. -/
def State.raRsp (s : State) (h : Held) (f : RaLoad → Nat × BitVec 2048) : State :=
  let p := h.pkt
  let port := p.chan % 4
  let tag := p.ftag % 128
  let r := s.raPort port
  if p.ctx ≠ 1 ∨ 4 ≤ p.chan ∨ 128 ≤ p.ftag then s.stale h
  else
    match r.loads.find? (fun l => decide (l.tag = tag) && decide (l.pseq = p.rpseq)) with
    | some l =>
      let (o, d) := f l
      ((s.reinEcho (64 + port) p.cecho).raEnd port l o d false).raRelease
    | none =>
      if r.quar.any (fun q => decide (q = (tag, p.rpseq))) then
        (s.modRa port (fun r => { r with quar := r.quar.filter (fun q => decide (q ≠ (tag, p.rpseq))) })).raRelease
      else s.stale h

/-- A response row of the context `ctx` in which its opcode is sent. In another context it matches an entry of that one
by CTX, CHAN, FTAG and RPSEQ alone, and ends it without data (R246; DESIGN CHOICE, log 84). -/
def State.rsp (s : State) (ctx : Nat) (h : Held) (own : State → State) : State :=
  let p := h.pkt
  if p.ctx = ctx then own s
  else
    match p.ctx with
    | 0 => s.slotRsp h (fun t _ _ _ => t)
    | 1 => s.raRsp h (fun _ => (p.aux % 16, 0))
    | 2 =>
      match s.colWire p with
      | some (g, c, w, r) => s.colAckIn g c w r p
      | none => s.stale h
    | _ => s.stale h

/-- A response to a fragment. -/
def State.chanRsp (s : State) (h : Held) (body : State → Nat → Slot → Flight → State) : State :=
  s.rsp 0 h (fun t => t.slotRsp h body)

/-- WR_RSP (R64, R131). -/
def execWrRsp (i : Nat) (s : State) : Out :=
  pktRow i [0x40] (fun s h => s.chanRsp h (fun t k x _ =>
    t.modFlight k x.ord (fun g => { g with bytes := g.bytes + x.frag.len }))) s

/-- SIG_RSP (R64). -/
def execSigRsp (i : Nat) (s : State) : Out :=
  pktRow i [0x47] (fun s h => s.chanRsp h (fun t _ _ _ => t)) s

/-- RD_RSP (R246): the fragment fails. -/
def execRdRsp (i : Nat) (s : State) : Out :=
  pktRow i [0x42] (fun s h => s.chanRsp h (fun t _ _ _ => t)) s

/-- RD_DATA (R236, R245 check 9): GET data are written here, after check 9; LOADS MEM takes its value, which goes to no
host memory, so that it meets no window (DESIGN CHOICE, log 85). -/
def execRdData (i : Nat) (s : State) : Out :=
  pktRow i [0x41] (fun s h => s.chanRsp h (fun t k x f =>
    let p := h.pkt
    let fail := fun (o : Nat) => t.modFlight k x.ord (fun g => g.fail ⟨x.frag.idx, o, false, false, failAddr f.word x.frag⟩)
    if opOf f.word = opLoads then
      if p.poison ≠ 0 then fail 6
      else t.modFlight k x.ord (fun g => { g with value := BitVec.ofNat 64 (leNat (p.pay.take 8)), written := true })
    else
      match t.window9 .wr p with
      | some o => fail o
      | none =>
        ((t.modFlight k x.ord (fun g => { g with localW := g.localW + 1 })).startWrite (.get k x.ord x.frag (decide (p.poison ≠ 0)))
          (wrGrans p.offset p.pay p.poison.toNat) (tallyCount p.offset p.len p.poison.toNat)).2)) s

/-- ATOM_RSP (R122): the value found, and its write to RADDR where RMEM asks for it. -/
def execAtomRsp (i : Nat) (s : State) : Out :=
  pktRow i [0x46] (fun s h => s.chanRsp h (fun t k x f =>
    let w := f.word
    let n := if cf w 4 8 2 = 0 then 4 else 8
    let t1 := t.modFlight k x.ord (fun g => { g with value := h.pkt.h5, written := (cq w 4).testBit 14 })
    if ¬ (cq w 4).testBit 18 then t1
    else
      let off := offOf (cq w 5)
      match t1.checkRanges .wr [(off, n)] with
      | some o => t1.modFlight k x.ord (fun g => g.fail ⟨0, o, false, false, BitVec.ofNat 64 (cq w 5)⟩)
      | none =>
        ((t1.modFlight k x.ord (fun g => { g with localW := g.localW + 1 })).startWrite (.rmem k x.ord)
          (wrGrans off (leBytes n h.pkt.h5.toNat) 0) 0).2)) s

/-- RA_DATA (R388): the addressed bytes on their lanes; poison answers POISON with zero data. -/
def execRaData (i : Nat) (s : State) : Out :=
  pktRow i [0x44] (fun s h => s.rsp 1 h (fun s => s.raRsp h (fun l =>
    if h.pkt.poison ≠ 0 then (6, 0)
    else (0, BitVec.ofNat 2048 (leNat (h.pkt.pay.take l.len) * 2 ^ (8 * (l.addr.toNat % 256))))))) s

/-- A negative acknowledgement of an RA store (R44, R389): the first is kept, later ones are counted, each raises
EV_RA_STORE_ERR. -/
def State.raNak (s : State) (p : Packet) : State :=
  let port := p.chan % 4
  let o := p.aux % 16
  let s1 := s.reinEcho (64 + port) p.cecho
  let s2 := if (s1.reg 0xF00).toNat.testBit 31 then s1.putField 0xF00 24 7 (min 127 (s1.rf 0xF00 24 7 + 1))
    else s1.setReg 0xF00 (BitVec.ofNat 32 (o + put port 4 2 + put p.src 6 18 + 2 ^ 31))
  s2.emit (0x20 + put port 8 2 + put o 12 4 + put p.src 16 18)

/-- RA_RSP (R44, R246): with FTAG[15], in whatever context, the negative acknowledgement of a store; else a failed
load. -/
def execRaRsp (i : Nat) (s : State) : Out :=
  pktRow i [0x45] (fun s h =>
    if 128 ≤ h.pkt.ftag then s.raNak h.pkt else s.rsp 1 h (fun s => s.raRsp h (fun _ => (h.pkt.aux % 16, 0)))) s

/-- COL_ACK (R267). -/
def execColAck (i : Nat) (s : State) : Out :=
  pktRow i [0x48] (fun s h => s.rsp 2 h (fun s =>
    match s.colWire h.pkt with
    | some (g, c, w, r) => s.colAckIn g c w r h.pkt
    | none => s.stale h)) s

/-! ## Collective packets -/

/-- COL_READY (R180). -/
def execColReady (i : Nat) (s : State) : Out := pktRow i [0x80] (fun s h => s.colAccept h.pkt) s
/-- COL_DATA (R174). -/
def execColData (i : Nat) (s : State) : Out := pktRow i [0x81] (fun s h => s.colAccept h.pkt) s
/-- COL_SLOT (R167). -/
def execColSlot (i : Nat) (s : State) : Out := pktRow i [0x82] (fun s h => s.colAccept h.pkt) s
/-- COL_DONE (R183). -/
def execColDone (i : Nat) (s : State) : Out := pktRow i [0x83] (fun s h => s.colAccept h.pkt) s
/-- COL_REL (R176). -/
def execColRel (i : Nat) (s : State) : Out := pktRow i [0x84] (fun s h => s.colAccept h.pkt) s
/-- COLL_ABORT (R189). -/
def execCollAbort (i : Nat) (s : State) : Out := pktRow i [0xC0] (fun s h => s.colAbortIn h.pkt) s

end Sys2Proof.Machine
end

