-- ==== Sys2Proof/Machine/Hop.lean ====
section
/-! DEFINITION. One hop of a packet: the transit checks, the routing decision, credits, marks, multicast copies,
towpath hop queues and the crossbar; the towpath entries and the reins' increase (R241 to R283, R315, R322, R431). -/

namespace Sys2Proof.Machine

/-! ## Places -/

/-- A held packet by place and index: basin of port 0 to 11, 15 the injection point, 16 + t the hop queue of
towpath entry t. -/
def State.heldAt (s : State) (place i : Nat) : Option Held :=
  if place < 12 then (s.link place).basin[i]?
  else if place = 15 then s.inj[i]?
  else if 16 ≤ place ∧ place < 144 ∧ i = 0 then (s.tow (place - 16)).queue[0]?
  else none

/-- Remove a held packet; its berth is free and its counter advances (R305). -/
def State.unhold (s : State) (place i : Nat) (h : Held) : State :=
  if place < 12 then
    s.modLink place (fun l => { l with
      basin := dropAt l.basin i
      freed := if h.share < 6 then setAt l.freed h.share ((l.freed.getD h.share 0 + 1) % 256) else l.freed })
  else if place = 15 then { s with inj := dropAt s.inj i }
  else
    (s.modTow (place - 16) (fun x => { x with queue := x.queue.drop 1, freed := (x.freed + 1) % 8 })).towDrained (place - 16)

/-- Put a held packet back as it now is. -/
def State.setHeld (s : State) (place i : Nat) (h : Held) : State :=
  if place < 12 then s.modLink place (fun l => { l with basin := setAt l.basin i h })
  else if place = 15 then { s with inj := setAt s.inj i h }
  else s.modTow (place - 16) (fun x => { x with queue := setAt x.queue i h })

/-- The arrival port of a packet at a place; 15 for the block's own. -/
def arrival (place : Nat) (h : Held) : Nat := if place < 12 then place else h.port

/-- The earlier packets of a place with the same share and destination leave first. -/
def State.first (s : State) (place i : Nat) (h : Held) : Bool :=
  let l := if place < 12 then (s.link place).basin else if place = 15 then s.inj else []
  !((l.take i).any (fun x => decide (x.share = h.share) && decide (x.pkt.dst = h.pkt.dst) && decide (x.dir = h.dir)))

/-- The packet belongs to the partition that is being halted (R455). -/
def State.haltedPkt (s : State) (p : Packet) : Bool :=
  decide (s.halt.st ≠ .run) && decide (p.opcode < 0xC0) && decide (p.pkey = s.halt.key.toNat)

/-! ## The decision -/

/-- What becomes of a held packet now: it ejects here, is dropped (counted, with a fault code or none), leaves on
a port, or waits. -/
inductive Fate where
  | eject
  | drop (why : Nat)
  | leave (port vc : Nat) (enter : Bool) (tow : Option Nat)
  | wait
deriving DecidableEq, Repr

/-- The towpath fate of a packet of entry `t` (R271, R273): no entry in use drops it, a SINK ejects it, another
sends it on to its OUT_PORT. -/
def State.towFate (s : State) (t : Nat) : Fate :=
  let b := 0xB000 + 32 * t
  let x := s.tow t
  if x.st ≠ .on ∧ x.st ≠ .draining then .drop 0x52
  else if s.ff b 1 2 = 2 then .eject
  else
    let q := s.ff b 8 4
    if (s.link q).st = .active ∧ ¬ (s.link q).mgtOnly then .leave q 6 false (some t) else .wait

/-- The fate of a multicast packet that travels in direction `dir` (R275). -/
def State.mcastFate (s : State) (here t : Pos) (p : Packet) (dir : Nat) (enter : Bool) : Fate :=
  if here = t then .eject
  else if excFind (s.bank p.epoch) p.vc p.pkey t (if enter then some (dir / 2) else none) = some .unreach then .drop 0x50
  else
    match s.choosePort dir p with
    | some q => .leave q p.vc enter none
    | none => .drop 0x50

/-- The bank that an EPOCH names may route (R283 check 2, R289). -/
def State.epochUsable (s : State) (e : Bool) : Bool := decide (e = s.tbl.cur) || decide (s.tbl.other ≠ .idle)

/-- A packet at a place is for this block: a SINK's towpath packet, or one whose DST resolves here (R244, R250). -/
def State.isHere (s : State) (place : Nat) (h : Held) : Bool :=
  if 16 ≤ place then decide (s.ff (0xB000 + 32 * (place - 16)) 1 2 = 2)
  else
    match s.here with
    | none => true
    | some here => s.epochUsable h.pkt.epoch && decide (s.resolve h.pkt.epoch h.pkt.dst = some here)

/-- Check 4 of R283 with the routing decision for a packet whose DST is at `t`; `travel` is the direction of arrival. -/
def State.routeFate (s : State) (h : Held) (here t : Pos) (travel : Option Nat) : Fate :=
  let p := h.pkt
  if p.rmode = 2 then
    match h.dir with
    | some e => if 8 ≤ e then s.towFate (e - 8) else .drop 0x52
    | none => .drop 0x52
  else if p.rmode = 3 then
    match h.dir, travel with
    | some d, _ => s.mcastFate here t p d true
    | none, some d => s.mcastFate here t p d false
    | none, none => .drop 0x50
  else
    match s.route p travel with
    | .eject => .eject
    | .go _ q v enter => .leave q v enter none
    | .dead => .drop 0x50
    | .unmapped => .drop 0x51

/-- The fate of a held packet: the check of R244 for one that is not for this block, then the transit checks of R283 in
their order. A block without a position ejects what reaches it (R20). -/
def State.fate (s : State) (place : Nat) (h : Held) : Fate :=
  let p := h.pkt
  let a := arrival place h
  if a < 12 ∧ p.badRouting.isSome ∧ ¬ s.isHere place h then .drop 0x56
  else if a < 12 ∧ p.opcode < 0xC1 ∧ ¬ s.keyAdmitted a p.pkey then .drop 0x54
  else
    match s.here with
    | none => if place = 15 ∧ p.dst ≠ s.own then .drop 0x51 else .eject
    | some here =>
      if ¬ s.epochUsable p.epoch then .drop 0x314
      else
        match s.resolve p.epoch p.dst with
        | none => .drop 0x51
        | some t =>
          if 16 ≤ place then s.towFate (place - 16)
          else s.routeFate h here t (if place < 12 then some (oppDir (s.portDir place)) else none)

/-- Packets at place and index that wait to leave on port `q` as virtual channel `v`. -/
def State.waitersAt (s : State) (q v place : Nat) (l : List Held) : List Held :=
  l.filter (fun h => h.out.isNone &&
    match s.fate place h with
    | .leave q' v' _ none => decide (q' = q) && decide (v' = v) && !(s.haltedPkt h.pkt && s.halt.sent.contains q)
    | _ => false)

/-- Every packet that waits to leave on port `q` as virtual channel `v`. -/
def State.waiters (s : State) (q v : Nat) : List Held :=
  (List.range 12).flatMap (fun a => s.waitersAt q v a (s.link a).basin) ++ s.waitersAt q v 15 s.inj

/-- When the oldest packet that waits on a virtual channel without credit began to wait. -/
def State.vcWait (s : State) (p v : Nat) : Option Nat :=
  if (s.link p).cred.getD v 0 ≠ 0 then none
  else
    match s.waiters p v with
    | [] => none
    | h :: hs => some (max (s.mon (16 + 8 * p + v)).at_ (hs.foldl (fun a x => min a x.since) h.since))

/-! ## Dropping and leaving -/

/-- Count in DX_ROUTE_DROPS and, for a packet that arrived on a port, in its RDROPS. -/
def State.routeDrop (s : State) (a : Nat) : State :=
  let t := s.incReg 0x310
  if a < 12 then t.incReg (0x60C + 0x20 * a) else t

/-- A packet is dropped whole in transit, by the fault code or counter that says why (R244, R254, R258, R273,
R283, R289). -/
def State.hopDrop (s : State) (place i : Nat) (h : Held) (why : Nat) : State :=
  let a := arrival place h
  let p := h.pkt
  let t := (s.unhold place i h).countDrop p
  let up := fun (u : State) => u.raise why a 1 5 (portMaster a) p.gaddr
  match why with
  | 0x54 => up (t.incReg (0x608 + 0x20 * a))
  | 0x314 => t.incReg 0x314
  | 0x51 => up (t.incReg 0x310)
  | 0x56 => t.pktBad h 0x204 0x56 2 (p.badRouting.getD 2) false 5
  | _ => up (t.routeDrop a)

/-- Occupancy of the far share of a virtual channel in sixteenths (R277). -/
def State.occupancy (s : State) (q v : Nat) : Nat :=
  let l := s.link q
  let share := l.peer.shares.getD v 0
  if share = 0 then 0 else (share - l.cred.getD v 0) * 16 / share

/-- The level at which a packet that leaves on port `q` is marked (R277). -/
def State.markLevel (s : State) (q v : Nat) : Nat :=
  let c := (s.reg 0x300).toNat
  let o := s.occupancy q v
  if ¬ c.testBit 12 then 0
  else if fld c 8 4 ≤ o then 3 else if fld c 4 4 ≤ o then 2 else if fld c 0 4 ≤ o then 1 else 0

/-- Change what the CMAP interval of a port has seen (R504). -/
def State.modCmap (s : State) (q : Nat) (f : CmapAcc → CmapAcc) : State :=
  { s with cmap := SMap.set (fun _ => CmapAcc.reset) s.cmap q (f (SMap.get (fun _ => CmapAcc.reset) s.cmap q)) }

/-- Note the occupancy of a switched share after a credit was spent (R504). -/
def State.notePeak (s : State) (q v : Nat) : State :=
  let o := s.occupancy q v
  s.modCmap q (fun c =>
    if c.peak < o ∨ (c.peak = o ∧ v < c.pvc) then { c with peak := o, pvc := v } else c)

/-- Spend one credit of a virtual channel; its monitor starts where none is left (R305, R436). -/
def State.spend (s : State) (q v : Nat) : State :=
  let t := s.modLink q (fun l => { l with cred := setAt l.cred v (l.cred.getD v 0 - 1) })
  let t := if (t.link q).cred.getD v 0 = 0 then t.modMon (16 + 8 * q + v) (fun _ => ⟨true, t.now, false⟩) else t
  if v = 5 then t else t.notePeak q v

/-- Flit bodies of a packet that can be sent on a port (R225, R322): those that have come, 256 bytes each; between ports
of which one is a compatibility port, with 240 bytes a body, all of them once the packet has come whole. -/
def State.bodies (s : State) (q : Nat) (h : Held) : List (BitVec 2048) :=
  if h.more ∧ (s.portCompat q ∨ (h.port < 12 ∧ s.portCompat h.port)) then []
  else if s.portCompat q then (chunks 240 20 h.pkt.bytes).map (fun b => BitVec.ofNat 2048 (leNat b))
  else (List.range h.flits).map h.pkt.flit

/-- The fragment of the block's own request left on port `q` (R130). -/
def State.noteSlot (s : State) (p : Packet) (q : Nat) : State :=
  if p.ctx = 0 ∧ isReq p.opcode then
    s.modChan p.chan (fun c => { c with
      slots := updFirst (fun x => decide (x.ftag = p.ftag) && decide (x.pseq = p.pseq)) (fun x => { x with port := some q }) c.slots })
  else s

/-! ## Crossbar (R431) -/

/-- A slice of the crossbar carries flits: the eight active ones, the spare in place of the slice it replaced. -/
def State.sliceInUse (s : State) (x : Nat) : Bool :=
  let used := (s.reg 0x2100).toNat.testBit 4
  if x = 8 then used else decide (x < 8) && !(used && decide (s.rf 0x2100 0 4 = x))

/-- A parity error in a slice: fault, FAULTED, and the spare switched in; with the spare already in use the block
has none left (R427, R431, R505). -/
def State.xbarError (s : State) (x : Nat) (inj : Bool) : State :=
  let used := (s.reg 0x2100).toNat.testBit 4
  let t := (s.raise 0x07 x 1 0 0xFF 0 0 inj).orReg 0x2100 (BitVec.ofNat 32 (2 ^ (5 + x)))
  if used then t.raise 0x08 0 2 0 0xFF
  else ((t.putField 0x2100 0 4 x).orReg 0x2100 0x10).spareLog 7 x 0

/-- The parity error of one crossing: a real one in a slice in use, or an injected one at the head flit. Answers
the flit from which the packet is abandoned. -/
def State.crossing (s : State) (hit : Option XbarHit) : Option Nat × State :=
  let injs := (List.range 9).filter (fun x => s.sliceInUse x && decide (s.flt.armed.map (fun a => (a.1, a.2.1)) = some (0x07, x)))
  match injs, hit with
  | x :: _, _ => (some 0, (s.takeInj 0x07 x).2.xbarError x true)
  | [], some e => if s.sliceInUse e.slice then (some e.flit, s.xbarError e.slice false) else (none, s)
  | [], none => (none, s)

/-! ## Frame slots (R270) -/

/-- The entry whose slot port `q` is at (R270). An entry that drains keeps its slots for what its hop queue still holds
(DEDUCED, log 88). -/
def State.slotOwner (s : State) (q : Nat) : Option Nat :=
  let k := (s.link q).slot
  (s.tows.find? (fun e =>
    let o := 0xB000 + 32 * e.1
    (decide (e.2.st = .on) || decide (e.2.st = .draining)) && decide (s.ff o 8 4 = q) && decide (s.ff o 1 2 ≠ 2)
      && (if k < 32 then s.force (o + 16) else s.force (o + 20)).toNat.testBit (k % 32))).map (·.1)

/-- The packet whose flits an entry sends next, with its place. -/
def State.towNext (s : State) (t : Nat) : Option (Nat × Nat × Held) :=
  if s.ff (0xB000 + 32 * t) 1 2 = 0 then
    let i := s.inj.findIdx (fun h => decide (h.pkt.rmode = 2) && decide (h.dir = some (t + 8)))
    s.inj[i]?.map (fun h => (15, i, h))
  else (s.tow t).queue.head?.map (fun h => (16 + t, 0, h))

/-- Nothing on port `q` keeps a packet from starting: it is not halted, the block may inject it, and no HALT_MARK waits
to be sent (R26, R319, R455). -/
def State.mayStart (s : State) (q place : Nat) (h : Held) : Bool :=
  !(s.haltedPkt h.pkt && (decide (place = 15) || s.halt.sent.contains q))
    && !(decide (place = 15) && s.abortHold && s.ownKey h.pkt)
    && !(s.link q).ctlWait.any (fun e => decide (e.1 = 0x10))

/-- The flit of entry `t` that is ready for port `q`, with `room` for it in the replay buffer: of a packet that has
started, or the head of one that may (R262, R270, R282). -/
def State.towReady (s : State) (t q room : Nat) : Option (Nat × Nat × Held) :=
  match s.towNext t with
  | none => none
  | some (place, i, h) =>
    let up := decide ((s.link q).st = .active) || (decide ((s.link q).st = .draining) && h.out.isSome)
    let start := h.out.isSome || (decide (s.fate place h = .leave q 6 false (some t)) && decide (1 ≤ (s.tow t).hopCred)
      && s.keyAdmitted q h.pkt.pkey && s.mayStart q place h)
    if up && start && decide (0 < room) && decide (h.sent < h.flits) then some (place, i, h) else none

/-- The head of a packet of entry `t` takes a credit of the next hop queue (R271, R306). -/
def State.towBegin (s : State) (q t : Nat) (h : Held) : Held × State :=
  if h.out.isSome then (h, s)
  else
    ({ h with out := some (q, h.pkt.vc, some t) },
      (s.noteSlot h.pkt q).modTow t (fun x => { x with hopCred := x.hopCred - 1 }))

/-- Send the next flit of a towpath packet; its berth is free after the last. -/
def State.towFlit (s : State) (q t place i : Nat) (h0 : Held) : State :=
  let (h, s1) := s.towBegin q t h0
  let k := h.sent
  let last := !h.more && decide (k + 1 = h.flits)
  let s2 := if last then s1.unhold place i h else s1.setHeld place i { h with sent := k + 1 }
  s2.sendData q h.pkt.vc (some t) (decide (k = 0)) last (decide (h.abn.getD (k + 1) ≤ k)) (h.pkt.flit k)

/-- The entries that own the slots at hand send the flits they have ready, at most a frame of them, before the next
flit of port `q`; `keep` flits of the replay buffer are spoken for (R263, R270). -/
def State.frame : Nat → Nat → Nat → State → State
  | 0, _, _, s => s
  | n + 1, q, keep, s =>
    match s.slotOwner q with
    | none => s
    | some t =>
      match s.towReady t q (1024 - (s.link q).replay.length - keep) with
      | none => s
      | some (place, i, h) => State.frame n q keep (s.towFlit q t place i h)

/-- Entry `t` sends its flits from its next slot on, while the slots that follow are its own (R270); a slot on the way
there carries what its own entry has ready, or passes. -/
def State.towRun : Nat → Bool → Nat → Nat → State → State
  | 0, _, _, _, s => s
  | n + 1, begun, q, t, s =>
    let own := s.slotOwner q
    if own = some t then
      match s.towReady t q (1024 - (s.link q).replay.length) with
      | some (place, i, h) => State.towRun n true q t (s.towFlit q t place i h)
      | none => s
    else if begun then s
    else
      match own.bind (fun e => (s.towReady e q (1024 - (s.link q).replay.length)).map (fun x => (e, x))) with
      | some (e, place, i, h) => State.towRun n false q t (s.towFlit q e place i h)
      | none => State.towRun n false q t (s.modLink q Link.pass)

/-! ## The switched channels of a port (R263) -/

/-- Credits of channel `v` on port `q` let a packet start: 2 where it enters a ring, else 1 (R264, R305). -/
def State.hasCredit (s : State) (q v : Nat) (enter : Bool) : Bool :=
  decide ((if enter then 2 else 1) ≤ (s.link q).cred.getD v 0)

/-- The channel of a packet that could start on port `q` now. -/
def State.starts (s : State) (q place i : Nat) (h : Held) : Option Nat :=
  if h.out.isSome ∨ ¬ s.first place i h ∨ ¬ s.mayStart q place h then none
  else
    match s.fate place h with
    | .leave q' v enter none => if q' = q ∧ s.hasCredit q v enter then some v else none
    | _ => none

/-- The channels whose packets could start on port `q` now. -/
def State.starters (s : State) (q : Nat) : List Nat :=
  let at_ := fun (a : Nat) (l : List Held) => l.zipIdx.filterMap (fun (h, i) => s.starts q a i h)
  (List.range 12).flatMap (fun a => at_ a (s.link a).basin) ++ at_ 15 s.inj

/-- A management flit is ready for port `q` (R263). -/
def State.mgtReady (s : State) (q : Nat) : Bool :=
  (s.starters q).contains 5 || s.allHeld.any (fun h => decide (h.out = some (q, 5, none)) && decide (h.sent < h.flits))

/-- A switched packet holds port `q`: its head has left and its end has not (R263). -/
def State.portTaken (s : State) (q : Nat) : Bool :=
  s.allHeld.any (fun h => match h.out with
    | some (p, v, none) => decide (p = q) && decide (v ≠ 5)
    | _ => false)

/-- Weight of a switched channel: 0 acts as 1 (R263). -/
def State.vcWeight (s : State) (v : Nat) : Nat := max 1 (s.rf 0x328 (4 * v) 4)

/-- Channel `v` may start a packet on port `q`: management at once; another with no management flit ready, no packet
holding the port, and packets left of its weight in this round, or every channel that could start one without (R263). -/
def State.vcTurn (s : State) (q v : Nat) : Bool :=
  let used := fun (u : Nat) => (s.link q).vcUsed.getD u 0
  decide (v = 5) || (!s.mgtReady q && !s.portTaken q && (decide (used v < s.vcWeight v)
    || (s.starters q).all (fun u => decide (u = v) || decide (s.vcWeight u ≤ used u))))

/-- Channel `v` has started a packet on port `q`; one beyond its weight opens a new round. -/
def State.useVc (s : State) (q v : Nat) : State :=
  if v = 5 then s
  else
    let w := s.vcWeight v
    s.modLink q (fun l =>
      let u := if l.vcUsed.getD v 0 < w then l.vcUsed else [0, 0, 0, 0, 0]
      { l with vcUsed := setAt u v (u.getD v 0 + 1) })

/-! ## PACKET_HOP -/

/-- Received management packets that the block holds (R479). -/
def State.mgtHeld (s : State) : Nat :=
  (s.eject.filter (fun h => decide (0xC1 ≤ h.pkt.opcode))).length + (s.far.queue.filter (fun c => c.src.isSome)).length

/-- A management packet that is dropped without response: counted, FLT_MB_MGT_DROP (R478, R486). -/
def State.mgtDrop (s : State) : State := (s.incReg 0xF010).raise 0x7D 0 0 4 0x60

/-- A packet enters the ejection point; one that is abandoned is dropped (R242, R315), and so is an MB_REQ or ASSIST
that finds 32 management packets held (R479). -/
def State.hopEject (s : State) (place i : Nat) (h : Held) (hit : Option XbarHit) : State :=
  let (abn, t) := s.crossing hit
  let u := t.unhold place i h
  if h.abn.isSome ∨ abn.isSome then
    (if h.abn.isNone then u.abandon (arrival place h) else u).countDrop h.pkt
  else if (h.pkt.opcode = 0xC1 ∨ h.pkt.opcode = 0xC3) ∧ 32 ≤ u.mgtHeld then u.mgtDrop
  else { u with eject := u.eject ++ [{ h with since := s.now }] }

/-- Compatibility ports carry WR, RD, WR_RSP, RD_DATA and RD_RSP (R322). -/
def compatOp (opcode : Nat) : Bool := decide (opcode ∈ [0x01, 0x02, 0x40, 0x41, 0x42])

/-- A packet that may not cross a compatibility port: a request or RLY_DATA is answered UNREACH in place of its
destination, any other is dropped and counted (R322). -/
def State.hopTurned (s : State) (place i : Nat) (h : Held) : State :=
  let t := (s.unhold place i h).countDrop h.pkt
  if isReq h.pkt.opcode ∨ h.pkt.opcode = 0x43 then t.answerFor h.pkt 5 else t.incReg 0x204

/-- The departure key refuses a packet (R283 check 5). -/
def State.keyRefused (s : State) (place i : Nat) (h : Held) (q : Nat) : State :=
  (((s.unhold place i h).countDrop h.pkt).incReg (0x608 + 0x20 * q)).raise 0x54 q 1 5 (portMaster (arrival place h)) h.pkt.gaddr

/-- What a crossbar error at flit `b` makes of a packet that leaves on port `q`: abandoned from there on (R315, R431). -/
def State.xbarCut (s : State) (q : Nat) (h : Held) (b : Option Nat) : Held × State :=
  ({ h with abn := match h.abn, b with
      | some x, some y => some (min x y)
      | some x, none => some x
      | none, y => y },
    if h.abn.isNone ∧ b.isSome then s.abandon q else s)

/-- A switched packet sends the flits that have come, with towpath flits in the slots reserved for them; its berth is
free after the last (R262, R263, R270). A port in RETRAIN lets it wait (R315). -/
def State.goOn (s : State) (place i : Nat) (h : Held) (q v : Nat) : State :=
  if (s.link q).st ≠ .active ∧ (s.link q).st ≠ .draining then s
  else
    let bs := s.bodies q h
    let new := (bs.drop h.sent).take (1024 - (s.link q).replay.length)
    let upto := h.sent + new.length
    let done := !h.more && decide (upto = bs.length)
    let s1 := if done then s.unhold place i h else s.setHeld place i { h with sent := upto }
    let s2 := (new.zip (List.range new.length)).foldl (fun t (b, j) =>
      let k := h.sent + j
      (t.frame 64 q (new.length - j)).sendData q v none (decide (k = 0)) (done && decide (k + 1 = upto))
        (decide (h.abn.getD (k + 1) ≤ k)) b) s1
    s2.flushCtl q

/-- A packet starts on port `q` as virtual channel `v` when the port, its berths and the replay buffer allow
(R262 to R264, R277, R282, R299). -/
def State.hopLeave (s : State) (place i : Nat) (h : Held) (q v : Nat) (enter : Bool) (hit : Option XbarHit) : State :=
  let p := if v = h.pkt.vc then h.pkt else h.pkt.setVc v
  if p.opcode < 0xC1 ∧ ¬ s.keyAdmitted q p.pkey then s.keyRefused place i h q
  else if s.portCompat q ∧ ¬ compatOp p.opcode then s.hopTurned place i h
  else if ¬ s.hasCredit q v enter ∨ 1024 ≤ (s.link q).replay.length ∨ ¬ s.mayStart q place h ∨ ¬ s.vcTurn q v
      ∨ s.bodies q h = [] then s
  else
    let mark := if v = 5 then 0 else s.markLevel q v
    let (abn, s0) := s.crossing hit
    let (h1, s1) := s0.xbarCut q { h with
      pkt := if mark = 0 then p else p.raiseMark mark
      out := some (q, v, none) } abn
    let s2 := ((s1.noteSlot p q).spend q v).useVc q v
    let s3 := if mark ≤ p.cmark then s2 else s2.modCmap q (fun c => { c with marked := c.marked + 1 })
    (s3.setHeld place i h1).goOn place i h1 q v

/-- A towpath packet starts on port `q`, in the slots of its entry (R270, R271, R282). -/
def State.hopTow (s : State) (place i : Nat) (h : Held) (q t : Nat) (hit : Option XbarHit) : State :=
  if ¬ s.keyAdmitted q h.pkt.pkey then s.keyRefused place i h q
  else if (s.towReady t q (1024 - (s.link q).replay.length)).map (fun x => (x.1, x.2.1)) ≠ some (place, i) then s
  else
    let (abn, s0) := s.crossing hit
    let (h1, s1) := s0.xbarCut q h abn
    (State.towRun 128 false q t (s1.setHeld place i h1)).flushCtl q

/-- A multicast packet that passes a member leaves its copy there once it has come whole, whether or not it can go on
(R242, R275). -/
def State.hopCopy (s : State) (place i : Nat) (h : Held) : State :=
  if place < 12 ∧ h.pkt.rmode = 3 ∧ ¬ h.copied ∧ ¬ h.more ∧ h.abn.isNone ∧ s.mcastMember h.pkt then
    let t := s.modLink place (fun l => { l with basin := setAt l.basin i { h with copied := true } })
    { t with eject := t.eject ++ [{ h with since := s.now, sent := 0, out := none }] }
  else s

/-- The ECC of a berth as its packet is read: an uncorrectable one loses the packet (R324, R427). -/
def State.berthEcc (s : State) (place : Nat) : Bool × State :=
  if place < 12 then s.takeEcc 0x17 place 1 5 (portMaster place) else (false, s)

/-- The ECC of the table words behind a routing decision: with an uncorrectable one the packet fails as if the
coordinate map, the exception table or the towpath table refused it (R427). -/
def State.tableEcc (s : State) (place : Nat) (h : Held) (f : Fate) : Fate × State :=
  let m := portMaster (arrival place h)
  let (b0, s0) := s.takeEcc 0x11 0 2 5 m
  if b0 then (.drop 0x51, s0)
  else
    let (b1, s1) := if f = .eject then (false, s0) else s0.takeEcc 0x11 1 2 5 m
    if b1 then (.drop 0x50, s1)
    else
      let (b4, s4) := if 16 ≤ place ∨ h.pkt.rmode = 2 then s1.takeEcc 0x11 4 2 5 m else (false, s1)
      (if b4 then .drop 0x52 else f, s4)

/-- The head of a held packet: what the ECC of its berth and of the tables leaves of its fate, and then its end, its drop
or its departure. It ejects only whole (R242). -/
def State.hopHead (s : State) (place i : Nat) (h : Held) (hit : Option XbarHit) : State :=
  let f := s.fate place h
  if f = .wait ∨ (f = .eject ∧ h.more) then s
  else
    let (bad, t) := s.berthEcc place
    if bad then (t.unhold place i h).countDrop h.pkt
    else
      match t.tableEcc place h f with
      | (.wait, u) => u
      | (.eject, u) => u.hopEject place i h hit
      | (.drop why, u) => u.hopDrop place i h why
      | (.leave q v enter none, u) =>
        let w := u.hopCopy place i h
        w.hopLeave place i ((w.heldAt place i).getD h) q v enter hit
      | (.leave q _ _ (some e), u) => u.hopTow place i h q e hit

/-- One attempt to move a held packet. The block's own packets of a halted partition stay, and in abort hold those of
its partition (R26, R455); one whose head has left goes on where it went. -/
def State.hop (s : State) (place i : Nat) (hit : Option XbarHit) : State :=
  match s.heldAt place i with
  | none => s
  | some h =>
    match h.out with
    | some (q, v, none) =>
      let t := s.hopCopy place i h
      if v ≠ 5 ∧ t.mgtReady q then t else t.goOn place i ((t.heldAt place i).getD h) q v
    | some (q, _, some e) => (State.towRun 128 false q e s).flushCtl q
    | none =>
      if ¬ s.first place i h ∨ (place = 15 ∧ (s.haltedPkt h.pkt ∨ (s.abortHold ∧ s.ownKey h.pkt))) then s
      else s.hopHead place i h hit

/-- PACKET_HOP (R262): a packet of a basin, a hop queue or the injection point advances. -/
def execPacketHop (place i : Nat) (x : Option XbarHit) (s : State) : Out :=
  run s (s.heldAt place i).isSome (fun s =>
    let t := s.hop place i x
    if place = 15 then t.raRelease else t)

/-! ## Reins (R279) -/

/-- Length of a TAI interval in REFCLK cycles. -/
def State.taiTicks (s : State) : Nat := nsTicks ((s.rf 0x304 8 4 + 1) * 256)

/-- REIN_INCREASE (R279, R280): a TAI interval of rein `k` ends. -/
def execReinIncrease (k : Nat) (s : State) : Out :=
  run s (decide (k < 68) && decide ((s.rein k).start + s.taiTicks ≤ s.now)) (fun s =>
    s.modRein k (fun r =>
      let f := r.fill s.now
      { f with
        rate := if r.sawZero && !r.sawHigh then min 4095 (r.rate + s.rf 0x304 0 8) else r.rate
        sawZero := false, sawHigh := false, limiting := r.held, held := false, start := s.now }))

/-! ## Towpath entries (R273, R274) -/

/-- EN written 1 to an entry: OFF and VALID goes to STARTING, DRAINING holds it. -/
def State.towEnable (s : State) (t : Nat) : State :=
  s.modTow t (fun x =>
    match x.st with
    | .off => { x with en := true, st := if (s.force (0xB000 + 32 * t)).toNat.testBit 0 then Life.starting else Life.off }
    | .starting => { x with en := true }
    | .on => { x with en := true }
    | .draining => { x with enPend := true })

/-- An entry in ON begins to drain; a SOURCE with nothing in flight and a hop with an empty queue go OFF at once
(R273). -/
def State.towDrain (s : State) (t : Nat) : State :=
  let b := 0xB000 + 32 * t
  let s1 := s.modTow t (fun x => { x with st := .draining, en := false })
  if s.ff b 1 2 = 0 then
    if (s.tow t).avail = s.ff b 16 8 then s1.modTow t (fun x => { x with st := .off, avail := 0 }) else s1
  else s1.towDrained t

/-- EN written 0 to an entry. In STARTING it reaches ON first; EN 0 is kept until then. -/
def State.towDisable (s : State) (t : Nat) : State :=
  match (s.tow t).st with
  | .on => s.towDrain t
  | .draining => s.modTow t (fun x => { x with enPend := false })
  | _ => s.modTow t (fun x => { x with en := false })

/-- A write of word 6 of a towpath entry (R269). -/
def State.wrTowEn (s : State) (t : Nat) (priv : Bool) (d : Word) : State :=
  if ¬ priv then s else if d.toNat.testBit 0 then s.towEnable t else s.towDisable t

/-- TOW_ENABLE. -/
def execTowEnable (t : Nat) (a : RgAcc) (s : State) : Out :=
  regCmd s (decide (t < 128)) (0xB018 + 32 * t) (RgAcc.force a 0 true) (fun s p d => s.wrTowEn t p d)

/-- TOW_DISABLE. -/
def execTowDisable (t : Nat) (a : RgAcc) (s : State) : Out :=
  regCmd s (decide (t < 128)) (0xB018 + 32 * t) (RgAcc.force a 0 false) (fun s p d => s.wrTowEn t p d)

/-- The link ports an entry uses are ACTIVE, and none is a compatibility port (R7, R273). -/
def State.towPortsUp (s : State) (t : Nat) : Bool :=
  let b := 0xB000 + 32 * t
  let role := s.ff b 1 2
  let up := fun (p : Nat) => decide ((s.link p).st = .active) && !s.portCompat p
  (decide (role = 0) || up (s.ff b 4 4)) && (decide (role = 2) || up (s.ff b 8 4))

/-- TOW_STARTED (R272, R273, R306): credits are taken; an entry disabled while STARTING drains at once (R274). -/
def execTowStarted (t : Nat) (s : State) : Out :=
  run s (decide (t < 128) && decide ((s.tow t).st = .starting) && s.towPortsUp t) (fun s =>
    let b := 0xB000 + 32 * t
    let s1 := s.modTow t (fun x => { x with
      st := .on
      avail := if s.ff b 1 2 = 0 then s.ff b 16 8 else 0
      hopCred := if s.ff b 1 2 = 2 then 0 else 2
      seen := 0, freed := 0, told := 0, queue := [], lastRsp := s.now })
    if (s.tow t).en then s1 else s1.towDrain t)

/-- TOW_STALL (R274): no response for a hang window; the timer holds while the block halts (R437). -/
def execTowStall (t : Nat) (s : State) : Out :=
  let b := 0xB000 + 32 * t
  let x := s.tow t
  run s (decide (t < 128) && (decide (x.st = .on) || decide (x.st = .draining)) && decide (s.ff b 1 2 = 0)
      && decide (x.avail < s.ff b 16 8) && decide (x.lastRsp + s.hangTicks ≤ s.now) && decide (s.halt.st = .run)) (fun s =>
    ((s.orReg (0xB01C + 32 * t) 8).raise 0x53 (s.ff b 8 4) 1 0 0xFF).towKill t)

end Sys2Proof.Machine
end

