-- ==== Sys2Proof/Machine/Abort.lean ====
section
/-! DEFINITION. Aborting a partition: origination, forwarding, acceptance with abort hold, and the generation step
with all its effects (R26 to R28, R439 to R444); received control flits. -/

namespace Sys2Proof.Machine

/-! ## Received control flits -/

/-- The oldest received control flit of port `p`, if it is of a type. -/
def State.ctlFront (s : State) (p ctype : Nat) : Option Nat :=
  match (s.link p).ctl with
  | [] => none
  | (_, b) :: _ => if b.toNat % 256 = ctype then some b.toNat else none

/-- When the oldest received control flit of port `p` came. -/
def State.ctlTime (s : State) (p : Nat) : Nat := match (s.link p).ctl with
  | (t, _) :: _ => t
  | [] => s.time

/-- Take the oldest received control flit of port `p`. -/
def State.ctlPop (s : State) (p : Nat) : State := s.modLink p (fun l => { l with ctl := l.ctl.drop 1 })

/-- A control-flit row: the flit at the front of port `p` is of type `ctype`. -/
def ctlRow (p ctype : Nat) (body : State → Nat → State) (s : State) : Out :=
  run s (decide (p < 12) && (s.ctlFront p ctype).isSome) (fun s =>
    match s.ctlFront p ctype with
    | some b => body (s.ctlPop p) b
    | none => s)

/-! ## The generation step (R26, R442 step 4) -/

/-- A packet of the block's own partition. -/
def State.ownPkt (s : State) (h : Held) : Bool := s.ownKey h.pkt

/-- RA accesses queued at this destination and not being performed are discarded (R26). -/
def State.discardStreams (s : State) : State :=
  { s with streams := s.streams.filterMap (fun x => if x.busy then some { x with queue := x.queue.take 1 } else none) }

/-- Every outstanding RA load ends with an outcome. `quar`: their tags are quarantined, else every tag is free. -/
def State.raLoadsEnd (s : State) (outcome : Nat) (quar : Bool) : State :=
  [0, 1, 2, 3].foldl (fun t p =>
    let u := (t.raPort p).loads.foldl (fun u l => u.raEnd p l outcome 0 quar) t
    if quar then u else u.modRa p (fun r => { r with quar := [] })) s

/-- Every collective instance ends ABORTED here (R190, R192). -/
def State.collsAbort (s : State) : State :=
  (s.groups.foldl (fun t (g, _) =>
    let u := (t.collStop g 2 7 0 true).modInst g (fun c => { c with acks := [] })
    u.collTurn g) s).groupsReset

/-- Towpath entries of the partition: credits return to CRED; a draining SOURCE has nothing left in flight
(R274). -/
def State.towsReset (s : State) : State :=
  s.tows.foldl (fun t (e, _) =>
    let b := 0xB000 + 32 * e
    if t.ff b 1 2 = 0 ∧ t.ff (b + 4) 0 16 = t.ident.pkey.toNat then
      match (t.tow e).st with
      | .on => t.modTow e (fun x => { x with avail := t.ff b 16 8, lastRsp := t.now })
      | .draining => t.modTow e (fun x => { x with
          st := if x.enPend then Life.starting else Life.off, en := x.enPend, enPend := false, avail := 0 })
      | _ => t
    else t) s

/-- Every rein's RATE is 4,095 again (R279). -/
def State.reinsReset (s : State) : State :=
  { s with reins := s.reins.filterMap (fun (k, r) =>
      let q := { r.fill s.now with rate := 4095 }
      if q = Rein.reset then none else some (k, q)) }

/-- The timers of channels, link ports, virtual channels, towpaths and RA loads held while the block halted, for `d`:
they go on from where they stood, and one that began meanwhile stands at its start (R437). -/
def State.timersHeld (s : State) (d : Nat) : State :=
  let on := fun (a : Nat) => min s.now (a + d)
  let s1 := (s.chans.map (·.1)).foldl (fun t k => t.modChan k (fun c => { c with progress := on c.progress })) s
  let s2 := (s1.mons.map (·.1)).foldl (fun t i =>
    if i < 16 ∨ 512 ≤ i then t.modMon i (fun m => { m with at_ := on m.at_ }) else t) s1
  let s3 := (List.range 12).foldl (fun t p => (List.range 6).foldl (fun t v =>
    match s.vcWait p v with
    | some a => t.modMon (16 + 8 * p + v) (fun m => { m with at_ := on a })
    | none => t) t) s2
  let s4 := (s3.tows.map (·.1)).foldl (fun t e => t.modTow e (fun x => { x with lastRsp := on x.lastRsp })) s3
  [0, 1, 2, 3].foldl (fun t p => t.modRa p (fun r => { r with loads := r.loads.map (fun l => { l with at_ := on l.at_ }) })) s4

/-- The halt of the partition ends here; its identifier stays as the last one (R437, R459, R460). -/
def State.haltEnd (s : State) : State :=
  let t := s.timersHeld (s.now - s.halt.since)
  { t with halt := { t.halt with st := .run, sent := [], awaited := [], said := false } }

/-- Link ports whose enable was held for a self-step train now, unless a fault stands against them (R444). -/
def State.portsHeld (s : State) : State :=
  (List.range 12).foldl (fun t p =>
    let l := t.link p
    if l.heldEn then
      if l.st = .fenced ∧ ¬ t.standing p then t.trainPort p else t.modLink p (fun l => { l with heldEn := false })
    else t) s

/-- GEN steps to `gen`: packets are discarded, outstanding work ends ABORTED, channels drain, and collectives, hop
queues and reins are reset (R26, R28, R45, R56, R192, R274, R279). -/
def State.genEffects (s : State) (gen : Byte) : State :=
  let s1 := s.collsAbort
  let s2 := s1.discardHeld s1.ownPkt
  let s3 := ({ s2 with ident := { s2.ident with gen := gen } }.discardStreams).raLoadsEnd 7 false
  let s4 := (s3.chans.map (·.1)).foldl (fun t k => (t.abortSlots k).drainAll k false false) s3
  let s5 := (s4.towsReset).reinsReset
  { s5 with abort := { s5.abort with lastStep := some s5.now } }

/-- The time of day of a generation step (R440). -/
def State.stepTime (s : State) : State :=
  (s.setReg 0x301C (BitVec.ofNat 32 s.time)).setReg 0x3020 (BitVec.ofNat 32 (s.time / 2 ^ 32))

/-- A generation step may be made now (R27). -/
def State.stepDue (s : State) : Bool :=
  match s.abort.lastStep with
  | none => true
  | some t => decide (t + nsTicks 1000000 ≤ s.now)

/-- Record of an accepted abort and EV_ABORT (R440, R442 step 5, R462). -/
def State.abortSaid (s : State) (x : PendStep) : State :=
  let n := s.rf 0x3014 16 16
  let s1 := s.setReg 0x3014 (BitVec.ofNat 32 (s.rf 0x3014 1 1 * 2 + put x.reason 3 4 + put x.hops 7 8 + 2 ^ 15
    + put (min 65535 (n + 1)) 16 16))
  (s1.setReg 0x3018 (BitVec.ofNat 32 x.orig.toNat)).emit (0x71 + put s.ident.pkey.toNat 8 16 + put x.gen.toNat 24 8
    + put x.orig.toNat 32 18 + put x.reason 52 4 + put x.hops 56 8 + put s.time 64 64)

/-- The first waiting step is made: the last one ends abort hold, ports held for a self-step may train, and RA
accesses go on (R442, R444). -/
def State.stepNow (s : State) : State :=
  match s.abort.steps with
  | [] => s
  | x :: rest =>
    let s1 := (s.genEffects x.gen).stepTime
    let s2 := { s1 with abort := { s1.abort with steps := rest } }
    let s3 := if x.quiet then s2 else s2.abortSaid x
    (if x.selfStep then s3.portsHeld else s3).raRelease

/-! ## Waves (R439, R441, R442) -/

/-- Forward an abort on every other port that admits the key and is ACTIVE or in RETRAIN (R441). -/
def State.fwdAbort (s : State) (from_ key gen orig reason hops : Nat) : State :=
  (List.range 12).foldl (fun t p =>
    if p ≠ from_ ∧ t.keyAdmitted p key ∧ ((t.link p).st = .active ∨ (t.link p).st = .retrain) then
      t.sendCtl p 0x20 (put key 32 16 + put gen 48 8 + put orig 64 32 + put reason 96 8 + put (min 255 hops) 104 8)
    else t) s

/-- Set recovery mode (R424). -/
def State.setRecov (s : State) : State :=
  { s.orReg 0x2004 0x1000 with flt := { s.flt with recovAt := s.now } }

/-- A member accepts an abort that travelled `hops`: it is forwarded, hold begins, recovery mode is set, a halt of
the partition ends, and the step waits for GENERATION_STEP (R442, R460). -/
def State.acceptAbort (s : State) (from_ : Nat) (x : PendStep) (forward : Bool) : State :=
  let s1 := if forward then s.fwdAbort from_ s.ident.pkey.toNat x.gen.toNat x.orig.toNat x.reason (x.hops + 1) else s
  let s2 := if s1.haltOwn then s1.haltEnd else s1
  { s2.setRecov with abort := { s2.abort with steps := s2.abort.steps ++ [x] } }

/-- Originate an abort of the own partition, unless it has no key or is in abort hold (R439). -/
def State.originAbort (s : State) (reason : Nat) : State :=
  if s.ident.pkey = 0 ∨ s.abortHold then s
  else s.acceptAbort 15 ⟨s.ident.gen + 1, reason, s.ident.chip, 0, false, false⟩ true

/-- The generation an arriving abort is compared with: GEN, or that of the last waiting step (R441). -/
def State.genBase (s : State) : Byte :=
  match s.abort.steps.getLast? with
  | some x => x.gen
  | none => s.ident.gen

/-- A member judges an abort by its distance (R441). -/
def State.judgeAbort (s : State) (p gen orig reason hops : Nat) : State :=
  let d := (gen + 256 - s.genBase.toNat) % 256
  if d = 1 then s.acceptAbort p ⟨BitVec.ofNat 8 gen, reason, BitVec.ofNat 18 orig, hops, false, false⟩ true
  else if 2 ≤ d ∧ d ≤ 127 then
    { (s.orReg 0x3014 2).raise 0x73 p 1 10 (0x50 + p) with abort := { s.abort with skewHold := true } }
  else s.incReg 0x3024

/-- A non-member forwards the first arrival of a pair; pairs leave after 1 ms, the oldest when 16 are held
(R441). -/
def State.passAbort (s : State) (p key gen orig reason hops : Nat) : State :=
  let live := s.abort.pairs.filter (fun x => decide (s.now < x.2.2 + nsTicks 1000000))
  if live.any (fun x => decide (x.1 = key) && decide (x.2.1 = gen)) then { s with abort := { s.abort with pairs := live } }
  else
    let l := live ++ [(key, gen, s.now)]
    { s with abort := { s.abort with pairs := l.drop (l.length - 16) } }.fwdAbort p key gen orig reason (hops + 1)

/-- ABORT (R441): taken only from an ACTIVE port whose keys admit it. -/
def execAbortFlit (p : Nat) (s : State) : Out :=
  ctlRow p 0x20 (fun s b =>
    let key := fld b 32 16
    if (s.link p).st ≠ .active ∨ ¬ s.keyAdmitted p key then s
    else
      let gen := fld b 48 8
      if key = s.ident.pkey.toNat then s.judgeAbort p gen (fld b 64 18) (fld b 96 8) (fld b 104 8)
      else s.passAbort p key gen (fld b 64 18) (fld b 96 8) (fld b 104 8)) s

/-- GENERATION_STEP (R27, R442): the first waiting step is made, once 1 ms has passed since the last. -/
def execGenerationStep (s : State) : Out :=
  run s (decide (s.abort.steps ≠ []) && s.stepDue) (fun s => s.stepNow)

/-- A request of the block's own is outstanding (R25): fragments of every command, RA loads, collective data
awaiting their COL_ACK. -/
def State.reqOut (s : State) : Bool :=
  s.chans.any (fun e => decide (e.2.slots ≠ [])) || s.ra.any (fun e => decide (e.2.loads ≠ []))
    || s.groups.any (fun e => match e.2.inst with | some c => decide (c.wires ≠ []) | none => false)

/-- A response is owed for a packet accepted before (R25). -/
def State.rspOwed (s : State) : Bool :=
  decide (s.atc.queue ≠ []) || s.streams.any (fun x => decide (x.queue ≠ []))
    || s.eng.reads.any (fun j => j.live && (match j.use with | .serve _ => true | _ => false))
    || s.eng.writes.any (fun j => j.live && (match j.use with
        | .packet _ => true
        | .atom _ _ => true
        | .coll _ _ _ _ _ ack => ack.isSome
        | _ => false))
    || s.groups.any (fun e => match e.2.inst with
        | some c => decide (c.acks ≠ []) || decide (c.waits ≠ []) || c.fin.any (fun f => f.pkt.isSome)
        | none => false)

/-- DX_PFENCE.DONE (R25). -/
def State.pfenceDone (s : State) : Bool := s.pfence && !s.reqOut && !s.rspOwed

/-- The partition is fenced at this block (R25). -/
def State.partFenced (s : State) : Bool := s.pfenceDone || decide (s.ident.pkey = 0)

/-- A write of DX_PART changes PKEY where it may not: the whole write has no effect (R24). -/
def State.keyLocked (s : State) (d : Word) : Bool :=
  let k := fld d.toNat 0 16
  decide (k ≠ 0xFFFF) && decide (k ≠ s.ident.pkey.toNat) && !s.partFenced

/-- A write of DX_PART (R21, R22, R24, R27, R441): PKEY never becomes 0xFFFF; a write of GEN during the hold of an abort
out of step is a generation step to the value written, made at once or when R27 allows, and ends the hold. -/
def State.wrPart (s : State) (priv : Bool) (d : Word) : State :=
  if ¬ priv ∨ s.keyLocked d then s
  else
    let k := fld d.toNat 0 16
    let gen := BitVec.ofNat 8 (fld d.toNat 16 8)
    let s1 : State := if k = 0xFFFF then s else { s with
      ident := { s.ident with pkey := BitVec.ofNat 16 k }
      mc := { s.mc with spareWait := s.mc.spareWait && decide (s.ident.pkey.toNat = k) } }
    if s1.abort.skewHold then
      let x : PendStep := ⟨gen, 0, 0, 0, false, true⟩
      let s2 := { s1 with abort := { s1.abort with skewHold := false, steps := s1.abort.steps ++ [x] } }
      if s2.abort.steps = [x] ∧ s2.stepDue then s2.stepNow else s2
    else { s1 with ident := { s1.ident with gen := gen } }

/-- GEN_WRITE: the kernel's write of DX_PART. -/
def execGenWrite (a : RgAcc) (s : State) : Out :=
  regCmd s true 0x108 a (fun s p d => s.wrPart p d)

/-- A write of DX_ABORT_CTL (R439, R440). -/
def State.wrAbortCtl (s : State) (priv : Bool) (d : Word) : State :=
  let s1 := s.plainWrite 0x3010 priv d
  if priv ∧ d.toNat.testBit 0 then s1.originAbort 0 else s1

/-- ABORT_GO: a write with GO 1. -/
def execAbortGo (a : RgAcc) (s : State) : Out :=
  regCmd s true 0x3010 (RgAcc.force a 0 true) (fun s p d => s.wrAbortCtl p d)

/-- ABORT_PAIR_EXPIRE (R441): a pair leaves a non-member's table 1 ms after it entered. -/
def execAbortPairExpire (key gen : Nat) (s : State) : Out :=
  let is := fun (x : Nat × Nat × Nat) => decide (x.1 = key) && decide (x.2.1 = gen) && decide (x.2.2 + nsTicks 1000000 ≤ s.now)
  run s (s.abort.pairs.any is) (fun s =>
    { s with abort := { s.abort with pairs := s.abort.pairs.filter (fun x => !(is x)) } })

end Sys2Proof.Machine
end

