-- ==== Sys2Proof/Machine/Links.lean ====
section
/-! DEFINITION. The rows of a link port: received tags and flits, sequence numbers, replay, credits, bring-up,
LINK_PARAM, the states' timeouts and the registers of a port (R294 to R324). -/

namespace Sys2Proof.Machine

/-! ## The halt on a port -/

/-- A port that reaches ACTIVE during a halt sends the marker first and awaits the peer's (R455); packets whose heads have
left are completed before it (R319). -/
def State.haltJoin (s : State) (p : Nat) : State :=
  if s.halt.st = .run ∨ ¬ s.keyAdmitted p s.halt.key.toNat ∨ s.portCompat p then s
  else
    { s with halt := { s.halt with sent := s.halt.sent ++ [p], awaited := s.halt.awaited ++ [p] } }.sendCtl p 0x10
      (put s.halt.key.toNat 32 16 + put s.halt.id.toNat 48 16)

/-! ## Reactions -/

/-- DX_LNK{p} register offset. -/
def lnkReg (p off : Nat) : Nat := 0x800 + 0x40 * p + off

/-- FENCED by an F2 fault of the port itself (R312, R324). -/
def State.linkFault (s : State) (p code cause : Nat) (inj : Bool := false) : State :=
  ((s.raise code p 2 10 (0x50 + p) 0 0 inj).fencePort p cause).fenceSlots p

/-- A retry limit or protocol fault takes the port into RETRAIN (R301). -/
def State.linkRetry (s : State) (p code reason : Nat) : State :=
  (s.raise code p 1 10 (0x50 + p)).retrainPort p reason true true

/-- The peer is fenced: PEER_FENCED, F1, FENCED; with ON_PEER the partition is aborted (R312, R439). -/
def State.peerFenced (s : State) (p : Nat) : State :=
  let s1 := ((s.orReg (lnkReg p 4) 0x80).raise 0x39 p 1 10 (0x50 + p)).fencePort p 2
  if (s.reg 0x3010).toNat.testBit 1 ∧ s.keyAdmitted p s.ident.pkey.toNat then s1.originAbort 1 else s1

/-! ## Replay (R299 to R302) -/

/-- REPLAY_TO in use, in REFCLK cycles. -/
def Link.toTicks (l : Link) : Nat := nsTicks (64 * max 1 l.toUse)

/-- An injected ECC error met by a replay read: uncorrectable fences the port (R324, R426). -/
def State.replayEcc (s : State) (p : Nat) : Bool × State := s.takeEcc 0x18 p 2 10 (0x50 + p)

/-- Resend buffered flits in order, each read of the replay buffer through its ECC; an uncorrectable word fences the port
(R301, R324). -/
def State.replayFrom (p : Nat) : List TxFlit → State → State
  | [], s => s
  | f :: fs, s =>
    let (bad, s1) := s.replayEcc p
    if bad then (s1.fencePort p 4).fenceSlots p
    else State.replayFrom p fs (s1.transmit p f.core f.fseq f.body)

/-- Resend every buffered flit. -/
def State.replayAll (s : State) (p : Nat) : State :=
  let fl := (s.link p).replay
  State.replayFrom p fl
    (s.modLink p (fun l => { l with replay := l.replay.map (fun f => { f with sends := f.sends + 1, at_ := s.now }) }))

/-- Replay from the oldest unacknowledged flit, unless it was already sent RETRY_MAX + 1 times. -/
def State.startReplay (s : State) (p : Nat) : State :=
  let l := s.link p
  match l.replay with
  | [] => s
  | f :: _ =>
    if max 1 (s.rf (lnkReg p 0) 11 4) + 1 ≤ f.sends then s.linkRetry p 0x32 2
    else ((s.modLink p (fun l => { l with replayAt := some (l.acked, s.now) })).incReg (lnkReg p 0xC)).replayAll p

/-- Flits acknowledged: A is the far side's next expected FSEQ (R301). Answers none when A lies outside the
window. -/
def Link.ackTo (l : Link) (a : Nat) : Option Link :=
  let base := match l.replay with
    | f :: _ => f.fseq
    | [] => l.fseq
  let n := (a + 4096 - base) % 4096
  if n ≤ l.replay.length then some { l with replay := l.replay.drop n, acked := a } else none

/-- Take ACKSEQ and NAK of a good tag (R301). -/
def State.takeAck (s : State) (p a : Nat) (nak : Bool) : State :=
  let l := s.link p
  match l.ackTo a with
  | none => s.linkRetry p 0x33 3
  | some l' =>
    let s1 := s.modLink p (fun _ => l')
    let s2 := if l'.replay.length < l.replay.length then s1.modMon p (fun _ => ⟨decide (l'.replay ≠ []), s.now, false⟩) else s1
    let again := match l'.replayAt with
      | some (b, t) => decide (b = a) && decide (s.now < t + l'.toTicks)
      | none => false
    if nak && !again then (s2.startReplay p).drainDone p else (s2.flushCtl p).drainDone p

/-! ## Credits (R305 to R307) -/

/-- Add what a credit wait cost to the port's CSTALL (R504). -/
def State.noteStall (s : State) (p v : Nat) : State :=
  let m := s.mon (16 + 8 * p + v)
  if ¬ m.pend ∨ v = 5 then s
  else
    match s.waiters p v with
    | [] => s
    | h :: hs =>
      let t0 := max m.at_ (hs.foldl (fun a x => min a x.since) h.since)
      s.modCmap p (fun c => { c with cstall := min (2 ^ 32 - 1) (c.cstall + units4 t0 s.now) })

/-- A report of channel `v`'s freed-berth counter; one that would exceed the share fences the port (R306, R307). -/
def State.takeCredit (s : State) (p v cnt : Nat) : State :=
  let l := s.link p
  let d := (cnt + 256 - l.seen.getD v 0) % 256
  let c := l.cred.getD v 0 + d
  if d = 0 then s
  else if l.peer.shares.getD v 0 < c then s.linkFault p 0x36 5
  else
    ((s.noteStall p v).modLink p (fun l => { l with cred := setAt l.cred v c, seen := setAt l.seen v cnt })).modMon
      (16 + 8 * p + v) (fun _ => ⟨false, s.now, false⟩)

/-- A report of a hop queue's counter, for the upstream entry it names (R306, R307). -/
def State.takeTowCredit (s : State) (p t cnt : Nat) : State :=
  let x := s.tow t
  let d := (cnt + 8 - x.seen) % 8
  if d = 0 ∨ (x.st ≠ .on ∧ x.st ≠ .draining) ∨ s.ff (0xB000 + 32 * t) 8 4 ≠ p then s
  else if 2 < x.hopCred + d then s.linkFault p 0x36 5
  else s.modTow t (fun x => { x with hopCred := x.hopCred + d, seen := cnt })

/-- Count good FENCE tags of a team; 64 in a row on every usable team tell that the peer is fenced (R312). -/
def State.takeFence (s : State) (p team : Nat) (on : Bool) : State :=
  let l := s.link p
  let old := ((l.fenceRun.find? (fun e => decide (e.1 = team))).map (·.2)).getD 0
  let run := (l.fenceRun.filter (fun e => decide (e.1 ≠ team))) ++ (if on then [(team, min 64 (old + 1))] else [])
  let s1 := if l.fenceRun = [] ∧ ¬ on then s else s.modLink p (fun l => { l with fenceRun := run })
  if l.teams ≠ [] ∧ l.teams.all (fun t => run.any (fun e => decide (e.1 = t) && decide (64 ≤ e.2))) then s1.peerFenced p else s1

/-- The reverse-direction fields of a good tag. -/
def State.takeTag (s : State) (p team tag : Nat) : State :=
  let s1 := s.takeFence p team (tag.testBit 41)
  if (s1.link p).st ≠ .active ∧ (s1.link p).st ≠ .draining then s1
  else
    let s2 := s1.takeAck p (fld tag 28 12) (tag.testBit 40)
    if (s2.link p).st ≠ .active ∧ (s2.link p).st ≠ .draining then s2
    else
      let v := fld tag 42 3
      let s3 := if v < 6 then s2.takeCredit p v (fld tag 45 8) else s2
      if tag.testBit 53 ∧ ((s3.link p).st = .active ∨ (s3.link p).st = .draining) then
        s3.takeTowCredit p (fld tag 54 7) (fld tag 61 3) else s3

/-! ## Delivering flits (R243, R271, R300, R311, R315) -/

/-- The entry in use that takes a towpath packet from port `p` (R271). -/
def State.towMatch (s : State) (p : Nat) (k : Packet) : Option Nat :=
  match s.resolve k.epoch k.src, s.resolve k.epoch k.dst with
  | some a, some b =>
    lowest 128 (fun t =>
      let o := 0xB000 + 32 * t
      (s.force o).toNat.testBit 0 && decide (s.ff o 4 4 = p) && decide (s.ff o 1 2 ≠ 0)
        && (decide ((s.tow t).st = .on) || decide ((s.tow t).st = .draining)) && decide (s.ff (o + 4) 0 16 = k.pkey)
        && decide (posOf (s.force (o + 8)).toNat = a) && decide (posOf (s.force (o + 12)).toNat = b))
  | _, _ => none

/-- A berth of a virtual channel is free again without a packet having been held (R305). -/
def State.freeBerth (s : State) (p v : Nat) : State :=
  if v < 6 then s.modLink p (fun l => { l with freed := setAt l.freed v ((l.freed.getD v 0 + 1) % 256) }) else s

/-- A packet of which no part has been held is dropped whole (R311, R315); its berth is free. -/
def State.refuseHead (s : State) (p : Nat) (h : Held) : State := (s.countDrop h.pkt).freeBerth p h.share

/-- Hold a packet from its first flit on: in the hop queue of the entry that takes it, or in the basin (R262, R271). A
packet abandoned before its header, and one of another channel on an MGT-only port, is dropped. -/
def State.holdHead (s : State) (p tagVc : Nat) (h : Held) : State :=
  if (s.link p).mgtOnly ∧ tagVc ≠ 5 then (s.incReg 0x310).refuseHead p h
  else if h.abn = some 0 then s.refuseHead p h
  else
    match if h.share = 6 then s.towMatch p h.pkt else none with
    | some t => s.modTow t (fun x => { x with upTag := h.htag, queue := x.queue ++ [{ h with dir := some (t + 8) }] })
    | none => s.modLink p (fun l => { l with basin := l.basin ++ [h] })

/-- The packet being received on port `p` to which a flit belongs: same virtual channel, or same towpath tag. -/
def Held.takes (h : Held) (p vc : Nat) (tow : Bool) (htag : Nat) : Bool :=
  h.more && decide (h.port = p) && (if tow then decide (h.share = 6) && decide (h.htag = htag) else decide (h.share = vc))

/-- Flits that a packet of `n` bodies counts as: on a compatibility port the 240-byte bodies stand for the flits of its
length where their number is right (R225, R322). -/
def State.flitCount (s : State) (p n : Nat) (k : Packet) : Nat :=
  let len := payLen k.opcode k.len
  if ¬ s.portCompat p then n else if n = (96 + len + 239) / 240 then flitsOf len else flitsOf len + 1

/-- A flit is added to a packet being received: what has come is read as a packet, whose first quadword may have
changed on leaving (R228, R230). -/
def State.grow (s : State) (p : Nat) (body : BitVec 2048) (last abn : Bool) (h : Held) : Held :=
  let raw := h.raw ++ [body]
  let n := if s.portCompat p then 240 else 256
  let k := Packet.ofBytes (raw.foldr (fun b l => leBytes n b.toNat ++ l) [])
  { h with
    pkt := if h.out.isSome then { k with h0 := h.pkt.h0 } else k
    flits := if last then s.flitCount p raw.length k else raw.length
    raw := if last then [] else raw
    more := !last
    abn := if abn ∧ h.abn.isNone then some h.raw.length else h.abn }

/-- The first flit of a packet (R243, R294). A packet of the same channel still being received can get no more flits: it is
dropped, and abandoned where it has left in part (R315). -/
def State.firstIn (s : State) (p tag : Nat) (body : BitVec 2048) : State :=
  let vc := fld tag 14 3
  let tow := tag.testBit 19
  let s1 := s.discardHeld (fun h => h.takes p vc tow (fld tag 20 7))
  let h : Held := { pkt := Packet.ofBytes [], port := p, share := if tow then 6 else vc, flits := 0, copied := false, dir := none,
                    abn := none, since := s.now, htag := fld tag 20 7 }
  s1.holdHead p vc (s1.grow p body (tag.testBit 18) (tag.testBit 27) h)

/-- A DATA flit is delivered (R243, R294, R315); one of a packet that is held no more is discarded (R283). -/
def State.dataIn (s : State) (p tag : Nat) (body : BitVec 2048) : State :=
  if tag.testBit 17 then s.firstIn p tag body
  else
    let mine := fun (h : Held) => h.takes p (fld tag 14 3) (tag.testBit 19) (fld tag 20 7)
    let put := fun (l : List Held) => updFirst mine (s.grow p body (tag.testBit 18) (tag.testBit 27)) l
    let s1 := if (s.link p).basin.any mine then s.modLink p (fun l => { l with basin := put l.basin }) else s
    (s.tows.map (·.1)).foldl (fun t e =>
      if (t.tow e).queue.any mine then t.modTow e (fun x => { x with queue := put x.queue }) else t) s1

/-- Control types of sequenced and of unsequenced flits (R317). -/
def ctlKind : Nat → Option Nat
  | 0x01 | 0x03 | 0x30 | 0x31 => some 3
  | 0x02 | 0x10 | 0x11 | 0x20 => some 2
  | _ => none

/-- A control flit is delivered, or discarded for its type or kind (R317); only LINK_PARAM crosses a compatibility
port (R322). -/
def State.ctlIn (s : State) (p kind : Nat) (body : BitVec 2048) : State :=
  let c := body.toNat % 256
  if ctlKind c = some kind ∧ (c = 1 ∨ ¬ s.portCompat p) then s.modLink p (fun l => { l with ctl := l.ctl ++ [(s.time, body)] })
  else s.raise 0x33 p 1 10 (0x50 + p)

/-! ## Receiving (R295, R297, R300) -/

/-- The tag fields of a flit as received: the tag, or on a compatibility port the link word (R322). -/
def State.rxTag (s : State) (p : Nat) (f : RxFlit) : Nat :=
  if s.portCompat p then
    let w := f.body.toNat / 2 ^ 1920
    fld w 0 2 + put (fld w 2 12) 2 12 + put (fld w 27 3) 14 3 + put (fld w 30 2) 17 2 + put (fld w 14 12) 28 12
      + put (fld w 26 1) 40 1 + put (fld w 32 3) 42 3 + put (fld w 35 8) 45 8
  else f.tag.toNat

/-- The check code of a flit as received is right. -/
def State.rxGood (s : State) (p : Nat) (f : RxFlit) : Bool :=
  if s.portCompat p then decide (crc32c (leBytes 252 f.body.toNat) = f.body.toNat / 2 ^ 2016)
  else decide (tagCrc f.tag.toNat f.body = fld f.tag.toNat 80 32)

/-- The body of a flit without its link word. -/
def State.rxBody (s : State) (p : Nat) (f : RxFlit) : BitVec 2048 :=
  if s.portCompat p then BitVec.ofNat 2048 (f.body.toNat % 2 ^ 1920) else f.body

/-- Count what FEC met (R297, R324). -/
def State.fecCount (s : State) (p : Nat) (f : RxFlit) : State :=
  let (corr, uncorr, _) := s.rxFec f
  let add := fun (t : State) (off n : Nat) =>
    t.setReg (lnkReg p off) (BitVec.ofNat 32 (min (2 ^ 32 - 1) ((t.reg (lnkReg p off)).toNat + n)))
  (List.range (min uncorr 2)).foldl (fun t _ => t.raise 0x31 p 0 10 (0x50 + p)) (add (add s 0x14 corr) 0x18 uncorr)

/-- The body overlaps a codeword that could not be corrected (R297). -/
def State.fecFail (s : State) (f : RxFlit) : Bool := (s.rxFec f).2.2

/-- A flit that FEC or its CRC rejects: discarded whole; a sequenced one asks for a replay (R295, R297, R300). -/
def State.rxBad (s : State) (p : Nat) (f : RxFlit) (seq : Bool) : State :=
  let s1 := if s.fecFail f then s else (s.incReg (lnkReg p 0x10)).raise 0x30 p 0 10 (0x50 + p)
  let s2 := s1.modLink p (fun l => { l with fenceRun := l.fenceRun.filter (fun e => decide (e.1 ≠ f.team)) })
  if seq then s2.modLink p (fun l => { l with nak := true }) else s2

/-- A good sequenced flit: accepted when its FSEQ is E, else discarded (R300, R301). -/
def State.seqIn (s : State) (p tag : Nat) (body : BitVec 2048) : State :=
  let l := s.link p
  let d := (fld tag 2 12 + 4096 - l.e) % 4096
  if d = 0 then
    let s1 := s.modLink p (fun l => { l with e := (l.e + 1) % 4096, nak := false })
    if tag % 4 = 1 then s1.dataIn p tag body else s1.ctlIn p 2 body
  else
    let s1 := s.modLink p (fun l => { l with nak := true })
    if 1024 < d ∧ d < 3072 then s1.linkRetry p 0x33 3 else s1

/-- SEQ_FLIT_RECEIVE (R300): a DATA or CTRL_SEQ flit on a port that receives every kind (R309). -/
def execSeqFlitReceive (p : Nat) (f : RxFlit) (s : State) : Out :=
  let l := s.link p
  let tag := s.rxTag p f
  run s (decide (p < 12) && (decide (l.st = .active) || decide (l.st = .draining)) && (decide (tag % 4 = 1) || decide (tag % 4 = 2)))
    (fun s =>
      let s1 := s.fecCount p f
      if s.fecFail f ∨ ¬ s.rxGood p f then s1.rxBad p f true
      else
        let s2 := s1.takeTag p f.team tag
        if (s2.link p).st = .active ∨ (s2.link p).st = .draining then s2.seqIn p tag (s.rxBody p f) else s2)

/-- TAG_RECEIVE (R301, R306, R312): a NULL or CTRL_UNSEQ tag. A port in TRAINING or RETRAIN takes only LINK_PARAM,
and FENCE in RETRAIN; a FENCED port takes the tag alone (R309). -/
def execTagReceive (p : Nat) (f : RxFlit) (s : State) : Out :=
  let l := s.link p
  let tag := s.rxTag p f
  run s (decide (p < 12) && decide (l.st ≠ .off) && (decide (tag % 4 = 0) || decide (tag % 4 = 3)))
    (fun s =>
      let s1 := s.fecCount p f
      if s.fecFail f ∨ ¬ s.rxGood p f then s1.rxBad p f false
      else
        let s2 := if l.st = .training then s1 else s1.takeTag p f.team tag
        let st := (s2.link p).st
        if tag % 4 = 0 ∨ st = .off ∨ st = .fenced then s2
        else if (st = .training ∨ st = .retrain) ∧ ¬ ((s.rxBody p f).toNat % 256 = 1 ∧ l.tagLock) then s2
        else s2.ctlIn p 3 (s.rxBody p f))

/-- REPLAY_TIMEOUT (R301): the oldest unacknowledged flit has waited REPLAY_TO since its last transmission. -/
def execReplayTimeout (p : Nat) (s : State) : Out :=
  let l := s.link p
  run s (decide (p < 12) && (decide (l.st = .active) || decide (l.st = .draining))
      && (match l.replay with
          | f :: _ => decide (f.at_ + l.toTicks ≤ s.now)
          | [] => false)) (fun s => s.startReplay p)

/-! ## LINK_PARAM (R310, R311) -/

/-- The position next to `a` in a direction. -/
def neighbour (dim dir : Nat) (a : Pos) : Pos :=
  let d := dir / 2
  let n := dimOf dim d
  let v := (a.at d + (if dir % 2 = 0 then 1 else n - 1)) % n
  if d = 0 then (v, a.2.1, a.2.2) else if d = 1 then (a.1, v, a.2.2) else (a.1, a.2.1, v)

/-- The first three checks of R311 on a LINK_PARAM. -/
def State.paramGood (s : State) (p b : Nat) : Bool :=
  let cfg := (s.reg (0xD000 + 0x100 * (s.portTeams p).headD 0)).toNat
  decide (fld b 112 8 = fld cfg 0 2) && decide (fld b 120 8 = fld cfg 2 3) && decide (fld b 104 8 = (s.link p).teams.length)
    && decide (fld b 96 8 = oppDir (s.portDir p)) && (s.portCompat p || decide (fld b 36 28 = 0x7E13D32))

/-- The last check of R311: none when it does not apply, else whether the peer is the neighbour. -/
def State.paramWire (s : State) (p b : Nat) : Option Bool :=
  if ¬ s.ident.valid ∨ ¬ b.testBit 95 then none
  else
    match s.here, s.resolve s.tbl.cur (fld b 64 18) with
    | some h, some t => some (decide (t = neighbour (s.reg 0x120).toNat (s.portDir p) h))
    | _, _ => some false

/-- Farrier assistance: the port opened by the farrier is MGT-only whatever its check finds (R452). -/
def State.forcedMgt (s : State) (p : Nat) : Bool := s.far.acting && s.far.opened.contains p

/-- Teams that training dropped begin their attempts once the port is ACTIVE (R354). -/
def State.retryDropped (s : State) (p : Nat) : State :=
  (s.portTeams p).foldl (fun t k => t.modTeam k (fun x => if x.st = .dropped then { x with retryAt := some t.now } else x)) s

/-- Steps 5 and 6 of R310: round trip (R317) of the LINK_PARAM received at `came`, replay timeout, credits, ACTIVE. -/
def State.linkUp (s : State) (p b came : Nat) : State :=
  let s1 := s.modLink p (fun l => { l with rtt := came - fld b 256 64 - fld b 320 64, fseq := 0, e := 0, acked := 0 })
  ((s1.activePort p true).haltJoin p).retryDropped p

/-- RETRAIN ends: the replay resumes at the peer's E (R312). -/
def State.linkBack (s : State) (p b : Nat) : State :=
  match (s.link p).ackTo (fld b 384 12) with
  | none => s
  | some l =>
    let s1 := (s.modLink p (fun _ => l)).modMon p (fun m => { m with at_ := m.at_ + (s.now - l.since) })
    let s2 := (s1.modLink p (fun l => { l with st := .active, ctlWait := [], since := s.now })).replayAll p
    let s3 := s2.modLink p (fun x => { x with ctlWait := if x.st = .active then l.ctlWait else [] })
    if (s3.link p).st ≠ .active then s3
    else
      let s4 := s3.activePort p false
      if (s4.link p).st = .active then (s4.haltJoin p).retryDropped p else s4.drainDone p

/-- Virtual channel codes 0 to 5, and 6 for TOW, by their place in the shares of LINK_PARAM (R227, R317). -/
def shareByte (v : Nat) : Nat := if v = 5 then 16 else if v = 6 then 22 else 17 + v

/-- LINK_PARAM (R310, R311): the checks, what it tells of the peer, and the end of bring-up or RETRAIN. The second good
one that echoes this side's last time stamp ends bring-up. -/
def execLinkParam (p : Nat) (s : State) : Out :=
  let came := s.ctlTime p
  ctlRow p 1 (fun s b =>
    let st := (s.link p).st
    if st ≠ .training ∧ st ≠ .active ∧ st ≠ .retrain then s
    else if ¬ s.paramGood p b then s.linkFault p 0x35 6
    else
      let wire := s.paramWire p b
      let s1 := if wire = some false then s.raise 0x37 p 1 10 (0x50 + p) else s
      let s2 := s1.modLink p (fun l => { l with
        mgtOnly := s.forcedMgt p || (match wire with | some ok => !ok | none => l.mgtOnly)
        goodParams := l.goodParams + 1
        peer := { chip := fld b 64 18, chipValid := b.testBit 95, dir := fld b 96 3
                  shares := (List.range 7).map (fun v => fld b (8 * shareByte v) 8)
                  tTx := fld b 192 64, rxAt := came, valid := true } })
      if st = .training ∧ 2 ≤ (s2.link p).goodParams ∧ (s2.link p).stamps.contains (fld b 256 64) then s2.linkUp p b came
      else if st = .retrain ∧ (s2.link p).tagLock then s2.linkBack p b
      else s2) s

/-- LINK_PARAM_SEND (R310): every 1 µs from tag lock until ACTIVE. -/
def execLinkParamSend (p : Nat) (s : State) : Out :=
  let l := s.link p
  run s (decide (p < 12) && (decide (l.st = .training) || decide (l.st = .retrain)) && l.tagLock
      && decide (l.paramAt + nsTicks 1000 ≤ s.now)) (fun s => s.sendParam p)

/-! ## Timeouts of the states (R312) -/

/-- LINK_TRAIN_TIMEOUT: not ACTIVE within 1 ms. -/
def execLinkTrainTimeout (p : Nat) (s : State) : Out :=
  run s (decide (p < 12) && decide ((s.link p).st = .training) && decide ((s.link p).since + nsTicks 1000000 ≤ s.now))
    (fun s => s.linkFault p 0x34 3)

/-- RETRAIN_TIMEOUT: RETRAIN not complete in 200 µs. -/
def execRetrainTimeout (p : Nat) (s : State) : Out :=
  run s (decide (p < 12) && decide ((s.link p).st = .retrain) && decide ((s.link p).since + nsTicks 200000 ≤ s.now))
    (fun s => s.linkFault p 0x34 3)

/-- LINK_DRAIN_TIMEOUT: drain not complete in one hang window. -/
def execLinkDrainTimeout (p : Nat) (s : State) : Out :=
  run s (decide (p < 12) && decide ((s.link p).st = .draining) && decide ((s.link p).since + s.hangTicks ≤ s.now))
    (fun s => s.linkFault p 0x34 3)

/-- RETRAIN (R312, R317): a received RETRAIN flit. -/
def execRetrain (p : Nat) (s : State) : Out := ctlRow p 3 (fun s b => s.retrainPort p (fld b 32 8) false) s

/-! ## DX_LNK{p}_CTL (R312, R318, R346, R357, R444) -/

/-- Flag an ignored write of a port's registers. -/
def State.lnkIgn (s : State) (p : Nat) : State := s.orReg (lnkReg p 4) 0x10000

/-- A deferred self-step holds enables of FENCED ports (R444). -/
def State.selfDefer (s : State) : Bool := s.abort.steps.any (fun x => x.selfStep)

/-- EN written 1. -/
def State.linkEn (s : State) (p : Nat) : State :=
  let l := s.link p
  match l.st with
  | .off => s.trainPort p
  | .draining => s.modLink p (fun l => { l with enPend := true })
  | .retrain => if l.drain then s.modLink p (fun l => { l with enPend := true }) else s
  | .fenced =>
    if s.standing p then s.lnkIgn p
    else if s.selfDefer then s.modLink p (fun l => { l with heldEn := true })
    else s.trainPort p
  | _ => s

/-- EN written 0. -/
def State.linkDis (s : State) (p : Nat) : State :=
  match (s.link p).st with
  | .active | .retrain =>
    let s1 := ((s.parentLost p).modLink p (fun l => { l with st := .draining, drain := false, since := s.now, ctlWait := [] })).haltForget p
    let s2 := (s1.portTeams p).foldl (fun t k => t.modTeam k (fun x =>
      match x.st with
      | .retraining => { x with st := if (s.link p).teams.contains k then TeamSt.usable else TeamSt.dropped, retryAt := none }
      | _ => { x with retryAt := none })) s1
    s2.drainDone p
  | .training | .fenced => s.offPort p
  | .draining => s.modLink p (fun l => { l with enPend := false })
  | .off => s

/-- A write of EN is ignored: map not sealed, port not in the map, or a team of it in PRBS mode (R346, R357); EN 1 in
FENCED while a fault stands against the port (R312). -/
def State.enIgnored (s : State) (p : Nat) (en : Bool) : Bool :=
  !(s.reg 0xC000).toNat.testBit 0 || !s.portValid p || (s.portTeams p).any (fun t => decide ((s.team t).st = .prbs))
    || (en && decide ((s.link p).st = .fenced) && s.standing p)

/-- A write of DX_LNK{p}_CTL. -/
def State.wrLnkCtl (s : State) (p : Nat) (priv : Bool) (d : Word) : State :=
  let v := d.toNat
  let gap := max 1 (fld v 3 8)
  let tries := max 1 (fld v 11 4)
  if priv ∧ 100000 < 64 * gap * tries then s.lnkIgn p
  else
    let en := v.testBit 0
    let ign := priv && s.enIgnored p en
    let d' := if ign then forceBit d 0 ((s.reg (lnkReg p 0)).toNat.testBit 0) else d
    let s1 := s.plainWrite (lnkReg p 0) priv d'
    let s2 := if priv && !v.testBit 2 then s1.modLink p (fun l => { l with toUse := max 1 (fld v 3 8) }) else s1
    let s3 := if ¬ priv then s2
      else if ign then (if en then s2.lnkIgn p else s2)
      else if en then s2.linkEn p else s2.linkDis p
    if v.testBit 1 then s3.retrainPort p 1 true else s3

/-- LINK_ENABLE: a write with EN 1. -/
def execLinkEnable (p : Nat) (a : RgAcc) (s : State) : Out :=
  regCmd s (decide (p < 12)) (lnkReg p 0) (RgAcc.force a 0 true) (fun s pr d => s.wrLnkCtl p pr d)

/-- LINK_DISABLE: a write with EN 0. -/
def execLinkDisable (p : Nat) (a : RgAcc) (s : State) : Out :=
  regCmd s (decide (p < 12)) (lnkReg p 0) (RgAcc.force a 0 false) (fun s pr d => s.wrLnkCtl p pr d)

/-- LINK_RETRAIN_WRITE: a write with RETRAIN 1. -/
def execLinkRetrainWrite (p : Nat) (a : RgAcc) (s : State) : Out :=
  regCmd s (decide (p < 12)) (lnkReg p 0) (RgAcc.force a 1 true) (fun s pr d => s.wrLnkCtl p pr d)

/-- LNK_INJ_ARM (R323): a write of DX_LNK{p}_INJ with ARM 1. -/
def execLnkInjArm (p : Nat) (a : RgAcc) (s : State) : Out :=
  regCmd s (decide (p < 12)) (lnkReg p 0x24) (RgAcc.force a 0 true) (fun s pr d => s.plainWrite (lnkReg p 0x24) pr d)

/-- A write of a port's key words: only while the port is OFF or FENCED (R281). -/
def State.wrPortKey (s : State) (p off : Nat) (priv : Bool) (d : Word) : State :=
  if ¬ priv then s
  else if (s.link p).st = .off ∨ (s.link p).st = .fenced then s.plainWrite off priv d
  else s.lnkIgn p

end Sys2Proof.Machine
end

