-- ==== Sys2Proof/Machine/Halt.lean ====
section
/-! DEFINITION. The global halt (R454 to R460) and the progress monitors' reports (R436 to R438). -/

namespace Sys2Proof.Machine

/-! ## Entering, leaving -/

/-- The block enters HALTING for (K, H): its markers leave on every ACTIVE port that admits K, and the peers'
markers are awaited there (R455). -/
def State.haltEnter (s : State) (key id : Nat) : State :=
  let s1 := { s with halt := ⟨.halting, BitVec.ofNat 16 key, BitVec.ofNat 16 id, [], [], s.now, false⟩ }
  (List.range 12).foldl (fun t p => if (t.link p).st = .active then t.haltJoin p else t) s1

/-- GO for the own partition: only in RUN and with a key (R455, R459). Answers whether it took effect. -/
def State.haltGo (s : State) (id : Nat) : Bool × State :=
  if s.halt.st = .run ∧ s.ident.pkey ≠ 0 then (true, s.haltEnter s.ident.pkey.toNat id) else (false, s)

/-- The current halt is released: HALT_REL goes out where the marker went, EV_HALT_REL, RUN; held work goes on
(R459). -/
def State.haltRelease (s : State) : Bool × State :=
  if s.halt.st = .run then (false, s)
  else
    let k := s.halt.key.toNat
    let id := s.halt.id.toNat
    let s1 := s.halt.sent.foldl (fun t p => t.sendCtl p 0x11 (put k 32 16 + put id 48 16)) s
    (true, ((s1.emit (0x73 + put k 8 16 + put id 24 16)).haltEnd).raRelease)

/-- A write of DX_HALT_CTL (R454, R459). -/
def State.wrHaltCtl (s : State) (priv : Bool) (d : Word) : State :=
  let s1 := s.plainWrite 0x3100 priv d
  if ¬ priv then s1
  else
    let (okG, s2) := if d.toNat.testBit 16 then s1.haltGo (fld d.toNat 0 16) else (true, s1)
    let (okR, s3) := if d.toNat.testBit 17 ∧ s.halt.st ≠ .run then s2.haltRelease else (!d.toNat.testBit 17, s2)
    if okG && okR then s3 else s3.orReg 0x3100 0x40000

/-- HALT_GO: a write with GO 1. -/
def execHaltGo (a : RgAcc) (s : State) : Out :=
  regCmd s true 0x3100 (RgAcc.force a 16 true) (fun s p d => s.wrHaltCtl p d)

/-- HALT_RELEASE: a write with REL 1. -/
def execHaltRelease (a : RgAcc) (s : State) : Out :=
  regCmd s true 0x3100 (RgAcc.force a 17 true) (fun s p d => s.wrHaltCtl p d)

/-- HALT_MARK (R455): ends awaiting on its input, or in RUN starts the halt; any other is discarded. -/
def execHaltMark (p : Nat) (s : State) : Out :=
  ctlRow p 0x10 (fun s b =>
    let k := fld b 32 16
    let id := fld b 48 16
    if s.halt.st ≠ .run then
      if k = s.halt.key.toNat ∧ id = s.halt.id.toNat then
        { s with halt := { s.halt with awaited := s.halt.awaited.filter (fun q => decide (q ≠ p)) } }
      else s
    else if s.keyAdmitted p k ∧ id ≠ s.halt.id.toNat ∧ (s.link p).st = .active then
      let t := s.haltEnter k id
      { t with halt := { t.halt with awaited := t.halt.awaited.filter (fun q => decide (q ≠ p)) } }
    else s) s

/-- HALT_REL (R459): releases the halt of its pair. -/
def execHaltRel (p : Nat) (s : State) : Out :=
  ctlRow p 0x11 (fun s b =>
    if s.halt.st ≠ .run ∧ fld b 32 16 = s.halt.key.toNat ∧ fld b 48 16 = s.halt.id.toNat then s.haltRelease.2 else s) s

/-! ## HALTED (R456) -/

/-- A packet of the halted partition is still on its way through acceptance or the HM ports. -/
def State.haltBusy (s : State) : Bool :=
  let k := fun (p : Packet) => decide (p.opcode < 0xC0) && decide (p.pkey = s.halt.key.toNat)
  let own := decide (s.halt.key = s.ident.pkey)
  s.eject.any (fun h => k h.pkt) || s.atc.queue.any (fun a => k a.pkt) || s.streams.any (fun x => x.queue.any k)
    || s.eng.reads.any (fun j => match j.use with | .serve p => k p | _ => false)
    || s.eng.writes.any (fun j => match j.use with
        | .packet p => k p
        | .atom p _ => k p
        | .get _ _ _ _ => own
        | .rmem _ _ => own
        | .coll _ _ _ _ _ ack => ack.isSome && own
        | .record _ _ => false)

/-- Every marker sent has been acknowledged. -/
def State.marksAcked (s : State) : Bool :=
  s.halt.sent.all (fun p =>
    let l := s.link p
    !(l.replay.any (fun f => decide (f.core % 4 = 2) && decide (f.body.toNat % 256 = 0x10)))
      && !(l.ctlWait.any (fun x => decide (x.1 = 0x10))))

/-- Packets of the halted partition held in basins and hop queues. -/
def State.haltBasin (s : State) : Nat :=
  let n := fun (l : List Held) => (l.filter (fun h => s.haltedPkt h.pkt)).length
  (List.range 12).foldl (fun a p => a + n (s.link p).basin) 0 + s.tows.foldl (fun a e => a + n e.2.queue) 0

/-- HALTED (R456, R462). -/
def execHalted (s : State) : Out :=
  run s (decide (s.halt.st = .halting) && decide (s.halt.awaited = []) && s.marksAcked && !s.haltBusy) (fun s =>
    { s with halt := { s.halt with st := .halted } }.emit
      (0x72 + put s.halt.key.toNat 8 16 + put s.halt.id.toNat 24 16 + put s.haltBasin 40 16))

/-- HALT_TIMEOUT (R456): HALT_TO has passed while HALTING; once. -/
def execHaltTimeout (s : State) : Out :=
  run s (decide (s.halt.st = .halting) && !s.halt.said
      && decide (s.halt.since + nsTicks (64000 * max 1 (s.rf 0x3108 0 8)) ≤ s.now)) (fun s =>
    let t := (s.orReg 0x3104 4).raise 0x74 0 1
    { t with halt := { t.halt with said := true } })

/-- SNAP_SELECT (R458): a write of DX_SNAP_SEL. -/
def execSnapSelect (a : RgAcc) (s : State) : Out :=
  regCmd s true 0x3120 a (fun s p d => s.plainWrite 0x3120 p d)

/-- The held packet of the halted partition that DX_SNAP_SEL names. -/
def State.snapSel (s : State) : Option Held :=
  if s.halt.st ≠ .halted then none
  else
    let w := s.rf 0x3120 0 4
    let v := s.rf 0x3120 4 3
    let l := if w < 12 then (s.link w).basin ++ s.tows.flatMap (fun e => e.2.queue.filter (fun h => decide (h.port = w)))
      else if w = 12 then s.inj else []
    (l.filter (fun h => s.haltedPkt h.pkt && decide (h.pkt.vc = v)))[s.rf 0x3120 7 7]?

/-! ## Monitors (R436 to R438) -/

/-- Report a stall: its bit, EV_HANG and its fault (R437, R438, R461, R462). -/
def State.hangSaid (s : State) (mon kind inst vc : Nat) (reg : Nat) (bit code fi : Nat) : State :=
  let s1 := (s.modMon mon (fun m => { m with said := true })).orReg reg (BitVec.ofNat 32 (2 ^ bit))
  (s1.emit (0x70 + put kind 8 2 + put inst 10 6 + put vc 16 3)).raise code fi 2 0 0xFF 0 vc

/-- PORT_HANG (R436): the replay buffer holds an unacknowledged flit and ACKSEQ has not advanced for a window. -/
def execPortHang (p : Nat) (s : State) : Out :=
  let l := s.link p
  let m := s.mon p
  run s (decide (p < 12) && (decide (l.st = .active) || decide (l.st = .draining)) && decide (l.replay ≠ []) && !m.said
      && decide (s.halt.st = .run) && decide (m.at_ + s.hangTicks ≤ s.now)) (fun s =>
    ((s.hangSaid p 0 p 0 0x3004 p 0x70 p).fencePort p 1).fenceSlots p)

/-- VC_HANG (R436): a packet has waited without a credit of its virtual channel for a window. -/
def execVcHang (p v : Nat) (s : State) : Out :=
  let due := match s.vcWait p v with
    | some t => decide (t + s.hangTicks ≤ s.now)
    | none => false
  run s (decide (p < 12) && decide (v < 6) && decide ((s.link p).st = .active) && due && !(s.mon (16 + 8 * p + v)).said
      && decide (s.halt.st = .run)) (fun s =>
    ((s.hangSaid (16 + 8 * p + v) 1 p v 0x3004 (12 + p) 0x71 p).fencePort p 1).fenceSlots p)

/-- A host bundle that the block drives holds req high: something waits to be taken (R436). Bundles 0 to 15 HM
(rd or wr), 16 to 19 RA, 20 EV, 21 LB. An RA port that holds an access with every tag quarantined is stuck too (R45). -/
def State.hostReq (s : State) (i : Nat) : Bool :=
  if i < 16 then
    (decide ((s.hmPort i).rdWait ≠ []) && s.hmRdRoom i) || ((s.hmPort i).wrWait.any (fun r => !s.writeWaits r) && s.hmWrRoom i)
  else if i < 20 then
    let r := s.raPort (i - 16)
    decide (r.rsp ≠ []) || (decide (128 ≤ r.quar.length) && decide (r.heldAcc ≠ []))
  else if i = 20 then decide (s.ev.queue ≠ [])
  else [0, 1, 2, 3].any (fun n => decide (2 ≤ (s.log n).recs.length) && !s.flight n && !(s.log n).stopped && decide ((s.log n).st ≠ Life.off))

/-- The monitors of the host bundles over one REFCLK cycle: a timer begins when its bundle begins to wait (R437). -/
def State.watchHost (s : State) : State :=
  (List.range 22).foldl (fun t i =>
    let m := t.mon (128 + i)
    if s.hostReq i = m.pend then t
    else if m.pend then t.modMon (128 + i) (fun m => { m with pend := false })
    else t.modMon (128 + i) (fun m => { m with pend := true, at_ := s.now })) s

/-- HPORT_HANG (R436, R437): a bundle's req has met no ack for a window; the ack is the row that takes what waits
(DESIGN CHOICE, log 22). -/
def execHportHang (inst : Nat) (s : State) : Out :=
  let m := s.mon (128 + inst)
  run s (decide (inst < 22) && s.hostReq inst && m.pend && !m.said && decide (m.at_ + s.hangTicks ≤ s.now)) (fun s =>
    s.hangSaid (128 + inst) 2 inst 0 0x3008 inst 0x72 inst)

end Sys2Proof.Machine
end

