-- ==== Sys2Proof/Machine/Crypto.lean ====
section
/-! DEFINITION. SHA-384 of FIPS 180-4 and ECDSA verification over P-384 of FIPS 186-5, which the kernel checks
images and expert control with (R467, R474, R475). Their constants are those of the two standards (PRESUMED,
log 23). -/

namespace Sys2Proof.Machine

/-! ## SHA-384 -/

/-- Round constants 0 to 19. -/
def shaK0 : List Nat :=
  [0x428A2F98D728AE22, 0x7137449123EF65CD, 0xB5C0FBCFEC4D3B2F, 0xE9B5DBA58189DBBC, 0x3956C25BF348B538,
   0x59F111F1B605D019, 0x923F82A4AF194F9B, 0xAB1C5ED5DA6D8118, 0xD807AA98A3030242, 0x12835B0145706FBE,
   0x243185BE4EE4B28C, 0x550C7DC3D5FFB4E2, 0x72BE5D74F27B896F, 0x80DEB1FE3B1696B1, 0x9BDC06A725C71235,
   0xC19BF174CF692694, 0xE49B69C19EF14AD2, 0xEFBE4786384F25E3, 0x0FC19DC68B8CD5B5, 0x240CA1CC77AC9C65]

/-- Round constants 20 to 39. -/
def shaK1 : List Nat :=
  [0x2DE92C6F592B0275, 0x4A7484AA6EA6E483, 0x5CB0A9DCBD41FBD4, 0x76F988DA831153B5, 0x983E5152EE66DFAB,
   0xA831C66D2DB43210, 0xB00327C898FB213F, 0xBF597FC7BEEF0EE4, 0xC6E00BF33DA88FC2, 0xD5A79147930AA725,
   0x06CA6351E003826F, 0x142929670A0E6E70, 0x27B70A8546D22FFC, 0x2E1B21385C26C926, 0x4D2C6DFC5AC42AED,
   0x53380D139D95B3DF, 0x650A73548BAF63DE, 0x766A0ABB3C77B2A8, 0x81C2C92E47EDAEE6, 0x92722C851482353B]

/-- Round constants 40 to 59. -/
def shaK2 : List Nat :=
  [0xA2BFE8A14CF10364, 0xA81A664BBC423001, 0xC24B8B70D0F89791, 0xC76C51A30654BE30, 0xD192E819D6EF5218,
   0xD69906245565A910, 0xF40E35855771202A, 0x106AA07032BBD1B8, 0x19A4C116B8D2D0C8, 0x1E376C085141AB53,
   0x2748774CDF8EEB99, 0x34B0BCB5E19B48A8, 0x391C0CB3C5C95A63, 0x4ED8AA4AE3418ACB, 0x5B9CCA4F7763E373,
   0x682E6FF3D6B2B8A3, 0x748F82EE5DEFB2FC, 0x78A5636F43172F60, 0x84C87814A1F0AB72, 0x8CC702081A6439EC]

/-- Round constants 60 to 79. -/
def shaK3 : List Nat :=
  [0x90BEFFFA23631E28, 0xA4506CEBDE82BDE9, 0xBEF9A3F7B2C67915, 0xC67178F2E372532B, 0xCA273ECEEA26619C,
   0xD186B8C721C0C207, 0xEADA7DD6CDE0EB1E, 0xF57D4F7FEE6ED178, 0x06F067AA72176FBA, 0x0A637DC5A2C898A6,
   0x113F9804BEF90DAE, 0x1B710B35131C471B, 0x28DB77F523047D84, 0x32CAAB7B40C72493, 0x3C9EBE0A15C9BEBC,
   0x431D67C49C100D4C, 0x4CC5D4BECB3E42B6, 0x597F299CFC657E2A, 0x5FCB6FAB3AD6FAEC, 0x6C44198C4A475817]

/-- The 80 round constants. -/
def shaK : List Nat := shaK0 ++ shaK1 ++ shaK2 ++ shaK3

/-- The initial hash value of SHA-384. -/
def shaH : List Nat :=
  [0xCBBB9D5DC1059ED8, 0x629A292A367CD507, 0x9159015A3070DD17, 0x152FECD8F70E5939, 0x67332667FFC00B31,
   0x8EB44A8768581511, 0xDB0C2E0D64F98FA7, 0x47B5481DBEFA4FA4]

/-- 2^64. -/
def w64 : Nat := 2 ^ 64

/-- Rotate a 64-bit word right. -/
def rotr (x n : Nat) : Nat := x / 2 ^ n + (x % 2 ^ n) * 2 ^ (64 - n)

/-- The big-endian number of some bytes. -/
def beNat (bs : List Byte) : Nat := bs.foldl (fun a b => 256 * a + b.toNat) 0

/-- The message padded to whole blocks of 128 bytes. -/
def shaPad (m : List Byte) : List Byte :=
  let z := (239 - m.length % 128) % 128
  m ++ [0x80] ++ List.replicate z 0 ++ (leBytes 16 (8 * m.length)).reverse

/-- Extend the message schedule, held newest first, by `n` words. -/
def shaExpand : Nat → List Nat → List Nat
  | 0, w => w
  | n + 1, w =>
    let a := w.getD 1 0
    let b := w.getD 14 0
    let s1 := rotr a 19 ^^^ rotr a 61 ^^^ a / 2 ^ 6
    let s0 := rotr b 1 ^^^ rotr b 8 ^^^ b / 2 ^ 7
    shaExpand n ((s1 + w.getD 6 0 + s0 + w.getD 15 0) % w64 :: w)

/-- The eight working variables. -/
structure ShaVars where
  a : Nat
  b : Nat
  c : Nat
  d : Nat
  e : Nat
  f : Nat
  g : Nat
  h : Nat

/-- One round with its constant and schedule word. -/
def shaRound (v : ShaVars) (kw : Nat × Nat) : ShaVars :=
  let e1 := rotr v.e 14 ^^^ rotr v.e 18 ^^^ rotr v.e 41
  let ch := (v.e &&& v.f) ^^^ ((w64 - 1 - v.e) &&& v.g)
  let t1 := v.h + e1 + ch + kw.1 + kw.2
  let e0 := rotr v.a 28 ^^^ rotr v.a 34 ^^^ rotr v.a 39
  let mj := (v.a &&& v.b) ^^^ (v.a &&& v.c) ^^^ (v.b &&& v.c)
  ⟨(t1 + e0 + mj) % w64, v.a, v.b, v.c, (v.d + t1) % w64, v.e, v.f, v.g⟩

/-- One block of 128 bytes. -/
def shaBlock (h : List Nat) (m : List Byte) : List Nat :=
  let w0 := (List.range 16).map (fun i => beNat ((m.drop (8 * i)).take 8))
  let w := (shaExpand 64 w0.reverse).reverse
  let g := fun i => h.getD i 0
  let v := (shaK.zip w).foldl shaRound ⟨g 0, g 1, g 2, g 3, g 4, g 5, g 6, g 7⟩
  [(g 0 + v.a) % w64, (g 1 + v.b) % w64, (g 2 + v.c) % w64, (g 3 + v.d) % w64,
    (g 4 + v.e) % w64, (g 5 + v.f) % w64, (g 6 + v.g) % w64, (g 7 + v.h) % w64]

/-- All blocks of a padded message, `n` of them. -/
def shaBlocks : Nat → List Nat → List Byte → List Nat
  | 0, h, _ => h
  | n + 1, h, m => shaBlocks n (shaBlock h (m.take 128)) (m.drop 128)

/-- SHA-384 as a number, its first byte most significant. -/
def sha384 (m : List Byte) : Nat :=
  let p := shaPad m
  ((shaBlocks (p.length / 128) shaH p).take 6).foldl (fun a x => a * w64 + x) 0

/-! ## P-384 -/

/-- The prime of the field. -/
def p384 : Nat := 2 ^ 384 - 2 ^ 128 - 2 ^ 96 + 2 ^ 32 - 1
/-- The order of the group. -/
def n384 : Nat :=
  0xFFFFFFFFFFFFFFFFFFFFFFFFFFFFFFFFFFFFFFFFFFFFFFFFC7634D81F4372DDF581A0DB248B0A77AECEC196ACCC52973
/-- The constant of the curve y² = x³ − 3x + b. -/
def b384 : Nat :=
  0xB3312FA7E23EE7E4988E056BE3F82D19181D9C6EFE8141120314088F5013875AC656398D8A2ED19D2A85C8EDD3EC2AEF
/-- The base point. -/
def g384 : Nat × Nat :=
  (0xAA87CA22BE8B05378EB1C71EF320AD746E1D3B628BA79B9859F741E082542A385502F25DBF55296C3A545E3872760AB7,
   0x3617DE4A96262C6F5D9E98BF9292DC29F8F41DBD289A147CE9DA3113B5F0B8C00A60B1CE1D7E819D7A431D7C90EA0E5F)

/-- a^e modulo m over the low `n` bits of e. -/
def powMod (m : Nat) : Nat → Nat → Nat → Nat
  | 0, _, _ => 1 % m
  | n + 1, a, e =>
    let r := powMod m n (a * a % m) (e / 2)
    if e % 2 = 1 then r * a % m else r

/-- The inverse modulo a prime. -/
def invMod (m a : Nat) : Nat := powMod m 384 (a % m) (m - 2)

/-- A point of the curve; none is the point at infinity. -/
abbrev Point := Option (Nat × Nat)

/-- The point of slope `l` through `a` with the other point's x. -/
def chord (l : Nat) (a : Nat × Nat) (x : Nat) : Nat × Nat :=
  let x3 := (l * l + 2 * p384 - a.1 - x) % p384
  (x3, (l * (a.1 + p384 - x3) + p384 - a.2) % p384)

/-- Addition of points. -/
def Point.add (a b : Point) : Point :=
  match a, b with
  | none, q => q
  | p, none => p
  | some p, some q =>
    if p.1 = q.1 then
      if (p.2 + q.2) % p384 = 0 then none
      else some (chord ((3 * p.1 * p.1 + p384 - 3) * invMod p384 (2 * p.2) % p384) p p.1)
    else some (chord ((q.2 + p384 - p.2) * invMod p384 (q.1 + p384 - p.1) % p384) p q.1)

/-- k · P over the low `n` bits of k. -/
def Point.mul : Nat → Nat → Point → Point
  | 0, _, _ => none
  | n + 1, k, p =>
    let r := Point.mul n (k / 2) (p.add p)
    if k % 2 = 1 then r.add p else r

/-- ECDSA verification: the 97 bytes of an uncompressed point, the message, r and s (FIPS 186-5). -/
def ecdsaOk (key msg : List Byte) (r s : Nat) : Bool :=
  let x := beNat ((key.drop 1).take 48)
  let y := beNat ((key.drop 49).take 48)
  let on := decide (x < p384) && decide (y < p384) && decide ((y * y) % p384 = (x * x * x + (p384 - 3) * x + b384) % p384)
  if key.length ≠ 97 ∨ key.headD 0 ≠ 4 ∨ ¬ on ∨ r = 0 ∨ n384 ≤ r ∨ s = 0 ∨ n384 ≤ s then false
  else
    let w := invMod n384 s
    let u1 := sha384 msg * w % n384
    let u2 := r * w % n384
    match (Point.mul 384 u1 (some g384)).add (Point.mul 384 u2 (some (x, y))) with
    | none => false
    | some q => decide (q.1 % n384 = r)

/-- The four bytes of each word in order. -/
def wordBytes (ws : List Word) : List Byte := ws.flatMap (fun w => leBytes 4 w.toNat)

/-- The little-endian word at an offset of some bytes. -/
def wordAt (bs : List Byte) (off : Nat) : Nat := leNat ((bs.drop off).take 4)

/-- A signature field verifies: r then s, 48 bytes each, little-endian like every field of the layouts
(DEDUCED, log 24); the point's coordinates are in the big-endian order of its encoding. -/
def sigOk (key msg sig : List Byte) : Bool :=
  ecdsaOk (key.take 97) msg (leNat (sig.take 48)) (leNat ((sig.drop 48).take 48))

end Sys2Proof.Machine
end

