-- ==== Sys2Proof/Machine/Units.lean ====
section
/-! DEFINITION. The reduction units: lifecycle, standby, self-test, combining with its residue check, and their
registers (R214 to R223). -/

namespace Sys2Proof.Machine

/-- Unit `u`. -/
def State.unit (s : State) (u : Nat) : RUnit := SMap.get (fun _ => RUnit.reset) s.rus u
/-- Change unit `u`. -/
def State.modUnit (s : State) (u : Nat) (f : RUnit → RUnit) : State :=
  { s with rus := SMap.set (fun _ => RUnit.reset) s.rus u (f (s.unit u)) }

/-- EN of unit `u`. -/
def State.unitEn (s : State) (u : Nat) : Bool := (s.reg 0x180).toNat.testBit u
/-- The unit designated as standby; 17 to 31: none. -/
def State.unitSpare (s : State) : Nat := s.rf 0x180 17 5

/-- Unit `u`, which is OFF, starts its self-test if it is enabled, not FAULTED and not the standby (R221). -/
def State.unitTry (s : State) (u : Nat) : State :=
  let x := s.unit u
  if x.st = .off ∧ ¬ x.faulted ∧ s.unitEn u ∧ s.unitSpare ≠ u then s.modUnit u (fun x => { x with st := .starting }) else s

/-- The next piece of a waiting partial of entry `g`. -/
def CollInst.pieceId (c : CollInst) (g : Nat) (w : Wait) : PieceId := ⟨g, w.dim, w.pos, (c.piece w).1⟩

/-- The pieces that wait for a unit with both inputs here (R212). -/
def State.readyPieces (s : State) : List PieceId :=
  s.groups.flatMap (fun e => match e.2.inst with
    | none => []
    | some c => (c.waits.filter (fun w => (c.operandOf w).isSome)).map (c.pieceId e.1))

/-- The pieces that draining units hold. -/
def State.heldPieces (s : State) : List PieceId := s.rus.filterMap (fun e => e.2.holds)

/-- Unit `u` has nothing left to combine and goes OFF; a held enable starts it again (R221). -/
def State.unitOff (s : State) (u : Nat) : State :=
  let t := s.modUnit u (fun x => { x with st := .off, enPend := false, holds := none })
  if (s.unit u).enPend then t.unitTry u else t

/-- Unit `u` takes no new pieces: DRAINING with the piece it holds, or OFF at once. Which piece it holds the spec leaves
open: here the first ready one that no other draining unit holds (DESIGN CHOICE, log 19). -/
def State.unitDrain (s : State) (u : Nat) : State :=
  match s.readyPieces.find? (fun x => !s.heldPieces.contains x) with
  | some x => s.modUnit u (fun y => { y with st := .draining, holds := some x })
  | none => s.unitOff u

/-- A draining unit whose piece has gone, with its instance, goes OFF. -/
def State.unitsSettle (s : State) : State :=
  (List.range 17).foldl (fun t u => match (t.unit u).holds with
    | some x => if t.readyPieces.contains x then t else t.unitOff u
    | none => t) s

/-- Units ON or STARTING. -/
def State.unitsUp (s : State) : List Nat :=
  (List.range 17).filter (fun u => decide ((s.unit u).st = .on) || decide ((s.unit u).st = .starting))

/-- SPARE is written (R219, R221). -/
def State.wrSpare (s : State) (n : Nat) : State :=
  let old := s.unitSpare
  if n = old then s
  else if n < 17 ∧ (s.unit n).faulted then s.orReg 0x180 0x800000
  else
    let s1 := s.putField 0x180 17 5 n
    let s2 := if n < 17 ∧ (s1.unit n).st = .on then s1.unitDrain n else s1
    if old < 17 then s2.unitTry old else s2

/-- EN of unit `u` is written (R221). -/
def State.wrUnitEn (s : State) (u : Nat) (on : Bool) : State :=
  let x := s.unit u
  let set := fun (t : State) => t.putField 0x180 u 1 (b2n on)
  if on then
    match x.st with
    | .draining => (set s).modUnit u (fun x => { x with enPend := true })
    | .off => (set s).unitTry u
    | _ => set s
  else
    match x.st with
    | .on => if s.unitsUp = [u] then s.orReg 0x180 0x800000 else (set s).unitDrain u
    | .starting => if s.unitsUp = [u] then s.orReg 0x180 0x800000 else set s
    | .draining => (set s).modUnit u (fun x => { x with enPend := false })
    | .off => set s

/-- A write of DX_RU_CTL (R219). Where one write changes SPARE and EN, the spec gives no order: SPARE is applied first and
then EN by rising unit (DESIGN CHOICE, log 89). -/
def State.wrRuCtl (s : State) (priv : Bool) (d : Word) : State :=
  let v := d.toNat
  let s0 := if v.testBit 23 then s.clrReg 0x180 0x800000 else s
  if ¬ priv then s0
  else
    let s1 := (s0.putField 0x180 22 1 (fld v 22 1)).wrSpare (fld v 17 5)
    ((List.range 17).foldl (fun t u => t.wrUnitEn u (v.testBit u)) s1).unitsSettle

/-- RU_ENABLE: a write of DX_RU_CTL. -/
def execRuEnable (a : RgAcc) (s : State) : Out := regCmd s true 0x180 a (fun s p d => s.wrRuCtl p d)
/-- RU_DISABLE: a write of DX_RU_CTL. -/
def execRuDisable (a : RgAcc) (s : State) : Out := regCmd s true 0x180 a (fun s p d => s.wrRuCtl p d)
/-- RU_SPARE_DESIGNATE: a write of DX_RU_CTL. -/
def execRuSpareDesignate (a : RgAcc) (s : State) : Out := regCmd s true 0x180 a (fun s p d => s.wrRuCtl p d)

/-- A write of DX_RU_STAT{u} (R220, R221). -/
def State.wrRuStat (s : State) (u : Nat) (d : Word) : State :=
  s.w1cOnly (0x190 + 4 * u) (d &&& 0x10)

/-- RU_FAULTED_CLEAR: a write with FAULTED 1. -/
def execRuFaultedClear (u : Nat) (a : RgAcc) (s : State) : Out :=
  regCmd s (decide (u < 17)) (0x190 + 4 * u) (RgAcc.force a 4 true) (fun s _ d => s.wrRuStat u d)

/-- Count a residue fault of unit `u` (R220). -/
def State.resCount (s : State) (u : Nat) : State :=
  s.putField (0x190 + 4 * u) 8 8 (min 255 (s.rf (0x190 + 4 * u) 8 8 + 1))

/-- No unit is left ON or STARTING: FLT_RU_NONE, and every reducing instance ends as at an F2 fault (R223). -/
def State.unitsNone (s : State) : State :=
  if s.unitsUp = [] then ({ s with ruGone := true }.raise 0x63 0 2 0 0x66).collEndAll 6 0 (fun c => c.plan.reduces) else s

/-- The standby takes the place of failed unit `u` (R222). -/
def State.spareIn (s : State) (u : Nat) : State :=
  let n := s.unitSpare
  if (s.reg 0x180).toNat.testBit 22 ∧ n < 17 ∧ (s.unit n).st = .off ∧ s.unitEn n ∧ ¬ (s.unit n).faulted then
    (((s.putField 0x180 17 5 31).modUnit n (fun x => { x with st := .starting })).emit (0x30 + put u 8 5 + put n 16 5)).spareLog 5 n u
  else s

/-- Unit `u` reaches ON at the end of its self-test; one disabled meanwhile has nothing to drain and goes OFF (R221). -/
def State.unitOn (s : State) (u : Nat) : State :=
  { s.modUnit u (fun x => { x with st := if s.unitEn u then Life.on else Life.off }) with ruGone := s.ruGone && !s.unitEn u }

/-- RU_SELF_TEST_DONE (R221 to R223): ON, or a residue fault without an instance: OFF and FAULTED, and the standby comes
in. -/
def execRuSelfTestDone (u : Nat) (ok : Bool) (s : State) : Out :=
  run s (decide (u < 17) && decide ((s.unit u).st = .starting)) (fun s =>
    if ok then s.unitOn u
    else
      (((((s.modUnit u (fun x => { x with st := .off, faulted := true })).raise 0x62 u 1 0 0x66).resCount u).spareLog 6 u 0).spareIn
        u).unitsNone)

/-- A residue mismatch in unit `u` on a piece of entry `g` (R215 to R217, R222, R223): the piece is discarded, the
instance aborts with reason RESIDUE, the unit goes OFF and FAULTED, the standby comes in. -/
def State.residue (s : State) (u g : Nat) (inj : Bool) : State :=
  let seq := match (s.group g).inst with
    | some c => c.seq.toNat
    | none => 0
  let s1 := ((s.raise 0x62 u 1 0 0x66 0 0 inj).incReg 0x18C).resCount u
  let s2 := if (s1.reg 0x184).toNat.testBit 15 then s1
    else s1.setReg 0x184 (BitVec.ofNat 32 (u + put g 5 9 + put (b2n inj) 14 1 + 2 ^ 15 + put seq 16 16))
  let s3 := (s2.collAbort g 1 0 0).collTurn g
  let s4 := (s3.modUnit u (fun x => { x with st := .off, enPend := false, faulted := true, holds := none })).spareLog 6 u 0
  (s4.spareIn u).unitsNone

/-- The next piece of the `i`-th waiting partial of entry `g`, if both its inputs are here (R212). -/
def State.pieceAt (s : State) (g i : Nat) : Option PieceId :=
  match (s.group g).inst with
  | none => none
  | some c =>
    match c.waits[i]? with
    | some w => if (c.operandOf w).isSome then some (c.pieceId g w) else none
    | none => none

/-- Unit `u` may take that piece: it is ON and no draining unit holds the piece, or it drains and holds it itself. -/
def State.unitTakes (s : State) (u g i : Nat) : Bool :=
  match s.pieceAt g i with
  | none => false
  | some x =>
    (decide ((s.unit u).st = .on) && !s.heldPieces.contains x)
      || (decide ((s.unit u).st = .draining) && decide ((s.unit u).holds = some x))

/-- RU_COMBINE (R193, R212, R214, R218): a unit combines one piece; `err` says that a residue or duplicate disagrees, and
an armed DX_RU_INJ makes it so. A unit that drains is done with it. -/
def execRuCombine (u g i : Nat) (err : Bool) (s : State) : Out :=
  run s (decide (u < 17) && s.unitTakes u g i) (fun s =>
    let inj := (s.reg 0x188).toNat.testBit 7 && decide (s.rf 0x188 0 5 = u) && decide (s.rf 0x188 5 2 ≠ 3)
    let t := if inj then s.clrReg 0x188 0x80 else s
    let v := if inj || err then t.residue u g inj else t.collCombine g i
    (if (v.unit u).st = .draining then v.unitOff u else v).unitsSettle)

/-- RU_INJ_ARM (R218): a write of DX_RU_INJ with ARM 1. -/
def execRuInjArm (a : RgAcc) (s : State) : Out :=
  regCmd s true 0x188 (RgAcc.force a 7 true) (fun s p d => s.plainWrite 0x188 p d)

/-- PKT_INJ_ARM (R249): a write of DX_PKT_INJ with ARM 1. -/
def execPktInjArm (a : RgAcc) (s : State) : Out :=
  regCmd s true 0x218 (RgAcc.force a 0 true) (fun s p d => s.plainWrite 0x218 p d)

end Sys2Proof.Machine
end

