-- ==== Sys2Proof/Machine/Lanes.lean ====
section
/-! DEFINITION. Lanes and teams: equalization training, figures of merit, lane sparing, losing and regaining a
team, tag lock and the PRBS counters (R310, R316, R334 to R354, R358 to R361). -/

namespace Sys2Proof.Machine

/-! ## Register places and small readings -/

/-- A register of team `t`. -/
def teamReg (t off : Nat) : Nat := 0xD000 + 0x100 * t + off

/-- CRC-16 of training frames and lane-management words: 0x1021, register all ones, no inversion (R339). -/
def crcLane (q : Quad) : Nat := crcMsb 16 0x1021 (leBytes 6 q.toNat) 0xFFFF

/-- A field whose CRC is good. -/
def laneGood (q : Quad) : Bool := decide (crcLane q = qf q 48 16)

/-- The class of team `t` (R359). -/
def State.teamClass (s : State) (t : Nat) : Nat := s.rf (teamReg t 0) 0 2
/-- TRAIN, SWAP and FAIL of a team's class (R345). -/
def State.fomTrain (s : State) (t : Nat) : Nat := s.rf (0xC080 + 4 * s.teamClass t) 0 8
/-- SWAP of the class of team `t`. -/
def State.fomSwap (s : State) (t : Nat) : Nat := s.rf (0xC080 + 4 * s.teamClass t) 8 8
/-- FAIL of the class of team `t`. -/
def State.fomFail (s : State) (t : Nat) : Nat := s.rf (0xC080 + 4 * s.teamClass t) 16 8

/-- The place of team `t` among the teams of its port (R327). -/
def State.teamPos (s : State) (t : Nat) : Nat := (s.portTeams (s.teamPort t)).findIdx (fun k => decide (k = t))

/-- Lane position `i` of a team. -/
def Team.lane (x : Team) (i : Nat) : Lane := x.lanes.getD i Lane.reset
/-- Change lane position `i` of team `t`. -/
def State.modLane (s : State) (t i : Nat) (f : Lane → Lane) : State :=
  s.modTeam t (fun x => { x with lanes := setAt x.lanes i (f (x.lane i)) })

/-- A position that carries a logical lane: 0 to 7 and 9 (R325). -/
def lanePos (i : Nat) : Bool := decide (i < 8) || decide (i = 9)
/-- The positions 0 to 7 and 9. -/
def lanePositions : List Nat := [0, 1, 2, 3, 4, 5, 6, 7, 9]

/-- WR_IGN of a team (R360). -/
def State.teamIgn (s : State) (t : Nat) : State := s.orReg (teamReg t 4) 0x02000000

/-! ## The transmitter's side of training (R336, R337, R340) -/

/-- The three taps are in range and C0 is at least 32 (R336). -/
def tapsOk (a b c : Int) : Bool :=
  decide (0 ≤ a ∧ a ≤ 6) && decide (-16 ≤ b ∧ b ≤ 0) && decide (-16 ≤ c ∧ c ≤ 0) && decide (32 ≤ 64 - a + b + c)

/-- Status of tap `j` (0 M2, 1 M1, 2 P1) in the packed statuses. -/
def stsOf (sts j : Nat) : Nat := fld sts (2 * j) 2
/-- Replace the status of tap `j`. -/
def stsPut (sts j v : Nat) : Nat := sts - stsOf sts j * 4 ^ j + (v % 4) * 4 ^ j

/-- One tap's step of the four-phase handshake: a request met with status 0 is applied or refused and answered; a
held request leaves the answer standing; hold returns the status to 0. -/
def Lane.tapStep (y : Lane) (j req : Nat) : Lane :=
  if req = 0 ∨ req = 3 then { y with sts := stsPut y.sts j 0 }
  else if stsOf y.sts j ≠ 0 then y
  else
    let d : Int := if req = 1 then 1 else -1
    let a := y.cm2 + (if j = 0 then d else 0)
    let b := y.cm1 + (if j = 1 then d else 0)
    let c := y.cp1 + (if j = 2 then d else 0)
    if tapsOk a b c then { y with cm2 := a, cm1 := b, cp1 := c, sts := stsPut y.sts j 1 }
    else { y with sts := stsPut y.sts j (if req = 1 then 3 else 2) }

/-- A good control field at the transmitter: a PRESET of 1 to 5 sets the taps once and answers all three statuses;
otherwise each tap request takes its step. -/
def Lane.control (y : Lane) (c : Nat) : Lane :=
  let ps := fld c 0 3
  let y1 :=
    if 1 ≤ ps ∧ ps ≤ 5 then
      if fld y.seen 0 3 = ps then y
      else
        let (a, b, d) := presetTaps ps
        { y with cm2 := a, cm1 := b, cp1 := d, sts := 0x15, echo := ps }
    else ((y.tapStep 0 (fld c 3 2)).tapStep 1 (fld c 5 2)).tapStep 2 (fld c 7 2)
  { y1 with
    seen := c % 2 ^ 16
    far := if c.testBit 9 then .done else if c.testBit 10 then .failed else y1.far }

/-! ## The receiver's side of training (R340 to R343) -/

/-- Requests a receiver may have answered in this training (R341). -/
def State.askLimit (s : State) (t : Nat) : Nat :=
  let slow := decide ((s.link (s.teamPort t)).st = .retrain)
  if s.teamClass t = 3 then (if slow then 16 else 48) else if slow then 32 else 128

/-- What a receiver measured: the figure of merit, and the decision of R341. -/
def Lane.measure (y : Lane) (train limit fom : Nat) (settled : Bool) : Lane :=
  let y1 := { y with fom := fom }
  if y.train ≠ .open_ then y1
  else if train ≤ fom ∧ (settled ∨ limit ≤ y.asks) then { y1 with train := .done }
  else if limit ≤ y.asks then { y1 with train := .failed }
  else y1

/-- A good status field: an answer to the receiver's requests is counted once (R340, R341). -/
def Lane.answer (y : Lane) (q : Nat) : Lane :=
  let on := decide (q % 64 ≠ 0)
  { y with asks := if on && !y.ans then y.asks + 1 else y.asks, ans := on }

/-- R342 in one direction: none when not usable, else the position the spare stands in for. -/
def spareVerdict (ok : Nat → Bool) : Option (Option Nat) :=
  match lanePositions.filter (fun i => !ok i) with
  | [] => some none
  | [i] => if ok 8 then some (some i) else none
  | _ => none

/-- The request of the next control field: hold while an answer stands or the lane is decided, a request once made until
it is answered, else what the search of the receiver asks next, which the spec leaves to it: a free value (R340, R341). -/
def Lane.nextAsk (y : Lane) (v : Nat) : Nat :=
  if y.train ≠ .open_ ∨ y.ans then 0
  else if y.ask ≠ 0 then y.ask
  else put (v % 6) 0 3 + put (v / 6 % 3) 3 2 + put (v / 18 % 3) 5 2 + put (v / 54 % 3) 7 2

/-- A field of a training frame with its CRC (R339). -/
def laneField (v : Nat) : Quad := BitVec.ofNat 64 (v + put (crcLane (BitVec.ofNat 64 v)) 48 16)

/-- The control field that position `i` of a team at place `pos` sends (R339). -/
def Lane.ctlField (y : Lane) (i pos : Nat) : Quad :=
  laneField (y.ask + put (b2n (decide (y.train = .done))) 9 1 + put (b2n (decide (y.train = .failed))) 10 1 + put i 16 4 + put pos 20 4)

/-- The status field that a position sends (R339). -/
def Lane.stsField (y : Lane) : Quad :=
  laneField (y.sts + put y.echo 6 3 + put y.cm2.natAbs 16 4 + put y.cm1.natAbs 20 5 + put y.cp1.natAbs 25 5)

/-- Position `i` of team `t` sends its next training frame: the two fields, between marker and PRBS13Q (R338, R339). -/
def State.sendFrame (s : State) (t i : Nat) : State :=
  let v := (Sys2Proof.Config.freeValue s.free).toNat
  let s1 := { s with free := s.free + 1 }.modLane t i (fun y => { y with ask := y.nextAsk v })
  let y := (s1.team t).lane i
  (s1.pnFrame t i).drive (.train t i (y.ctlField i (s.teamPos t)) y.stsField (SMap.get (fun _ => 0x1FFF) (s1.phy t).pn13 i))

/-- Every position has RX_DONE or RX_FAIL (or failed the pairing check) from both sides. -/
def Team.allIn (x : Team) : Bool :=
  x.lanes.all (fun y => (decide (y.train ≠ .open_) || y.bad) && decide (y.far ≠ .open_))

/-- The decision of R342 for a team: the spare of the receive and of the transmit direction. -/
def Team.verdict (x : Team) (spareEn : Bool) : Option (Option Nat × Option Nat) :=
  let rx := spareVerdict (fun i => decide ((x.lane i).train = .done) && !(x.lane i).bad && (spareEn || decide (i ≠ 8)))
  let tx := spareVerdict (fun i => decide ((x.lane i).far = .done))
  match rx, tx with
  | some a, some b => some (a, b)
  | _, _ => none

/-- A team's part in this training is decided. -/
def Team.decided (x : Team) : Bool := x.trained || decide (x.st = .dropped) || decide (x.st = .failed)

/-- 10 ms in REFCLK cycles (R354). -/
def retryTicks : Nat := nsTicks 10000000

/-- An attempt of R354 has failed: the third makes the team FAILED. -/
def State.attemptFailed (s : State) (t : Nat) : State :=
  let n := (s.team t).attempts + 1
  if 3 ≤ n then
    ((s.modTeam t (fun x => { x with st := .failed, attempts := n, retryAt := none })).raise 0x43 t 1 10 (0x50 + s.teamPort t)).spareLog
      4 t (s.teamPort t)
  else s.modTeam t (fun x => { x with st := .dropped, attempts := n, retryAt := some (s.now + retryTicks) })

/-- Begin an attempt of R354: lane training of that team alone. -/
def State.attempt (s : State) (t : Nat) : State :=
  (s.modTeam t (fun x => x.begin .retraining (s.initPreset t))).restartPhy t

/-- Step 5 of lane training for team `t`: decided by R342; with no team of the port usable the port repeats lane
training. -/
def State.decideTeam (s : State) (t : Nat) : State :=
  let p := s.teamPort t
  let x := s.team t
  let st := (s.link p).st
  let v := x.verdict ((s.reg (teamReg t 0)).toNat.testBit 8)
  let s1 := s.modTeam t (fun x => { x with mirror := none })
  match v with
  | some (rx, tx) =>
    s1.modTeam t (fun x => { x with
      trained := true, spareFor := rx, txFor := tx, st := if st = .training then .usable else x.st })
  | none =>
    if st = .active then s1.attemptFailed t
    else
      let s2 := s1.modTeam t (fun x => { x with st := .dropped, spareFor := none, txFor := none })
      if (s2.portTeams p).all (fun k => (s2.team k).decided && !(s2.team k).trained) then
        (s2.portTeams p).foldl (fun a k => a.modTeam k (fun x =>
          if st = .training then x.begin .training (s.initPreset k) else x.begin .retraining none)) s2
      else s2

/-- Team `t` is in lane training: its port in TRAINING or RETRAIN, or an attempt of its own. -/
def State.inTraining (s : State) (t : Nat) : Bool :=
  let x := s.team t
  let st := (s.link (s.teamPort t)).st
  (decide (x.st = .training) || decide (x.st = .retraining)) && !x.trained
    && (decide (st = .training) || decide (st = .retrain) || decide (st = .active))

/-- TRAINING_FRAME (R338 to R343): one frame on one position, which sends its own in the same time. A frame of another position or team place marks the
lane bad (R340). -/
def execTrainingFrame (t i : Nat) (f : TrainFrame) (s : State) : Out :=
  run s (decide (t < 16) && decide (i < 10) && s.inTraining t) (fun s =>
    let y := (s.team t).lane i
    let good := laneGood f.ctl
    let wrong := good && (decide (qf f.ctl 16 4 ≠ i) || decide (qf f.ctl 20 4 ≠ s.teamPos t))
    let y1 := if good then y.control f.ctl.toNat else y
    let y2 := if laneGood f.sts then y1.answer f.sts.toNat else y1
    let y3 := y2.measure (s.fomTrain t) (s.askLimit t) f.fom.toNat f.settled
    let y4 := if wrong then { y3 with bad := true, miswire := true } else y3
    let s1 := (s.modLane t i (fun _ => y4)).sendFrame t i
    let s2 := if wrong && !y.miswire then s1.raise 0x42 t 1 10 (0x50 + s.teamPort t) else s1
    if (s2.team t).allIn then s2.decideTeam t else s2)

/-! ## Leaving and joining the rotation (R316, R353, R354) -/

/-- Put a team index into an ascending list. -/
def insAsc (t : Nat) : List Nat → List Nat
  | [] => [t]
  | x :: xs => if t < x then t :: x :: xs else if t = x then x :: xs else x :: insAsc t xs

/-- The team reads DROPPED and the drop is counted and entered in the lifetime record. -/
def State.markDrop (s : State) (p t : Nat) : State :=
  ((s.modTeam t (fun x => { x with st := .dropped, call := none, ack := none, arm := none, tagLock := false, trained := false
                                   attempts := 0, retryAt := none })).incReg (teamReg t 0x20)).spareLog 3 t p

/-- The TEAM_DROP exchange for a team is complete: out of the rotation, DEGRADED, FLT_LNK_TEAM_LOST, and the first
attempt begins. -/
def State.dropComplete (s : State) (p t : Nat) : State :=
  ((s.modLink p (fun l => { l with
      teams := l.teams.filter (fun k => decide (k ≠ t)), rot := 0
      dropAsk := l.dropAsk.filter (fun k => decide (k ≠ t)), fenceRun := l.fenceRun.filter (fun e => decide (e.1 ≠ t)) })).raise
    0x38 p 1 10 (0x50 + p)).attempt t

/-- The last usable teams are lost: RETRAIN with reason 4, FLT_LNK_TEAM_LOST once (R316). -/
def State.lastLost (s : State) (p : Nat) : State := (s.raise 0x38 p 1 10 (0x50 + p)).retrainPort p 4 true

/-- Team `t` of an ACTIVE port is unusable (R316, R353). -/
def State.teamUnusable (s : State) (t : Nat) : State :=
  let p := s.teamPort t
  let l := s.link p
  if l.st ≠ .active ∨ ¬ l.teams.contains t ∨ l.dropAsk.contains t then s
  else if l.teams.all (fun k => decide (k = t) || l.dropAsk.contains k) then s.lastLost p
  else
    let s1 := s.markDrop p t
    if s.portCompat p then s1.dropComplete p t
    else (s1.modLink p (fun l => { l with dropAsk := l.dropAsk ++ [t] })).sendCtl p 2 (put 1 32 8 + put (s.teamPos t) 40 8)

/-- The team a LINK_CMD names on port `p`. -/
def State.cmdTeam (s : State) (p b : Nat) : Option Nat := (s.portTeams p)[fld b 40 8]?

/-- TEAM_DROP (R316): the answer to this side's own completes the exchange; otherwise this side answers. -/
def execTeamDrop (p : Nat) (s : State) : Out :=
  run s (decide (p < 12) && (match s.ctlFront p 2 with | some b => decide (fld b 32 8 ≠ 2) | none => false)) (fun s =>
    match s.ctlFront p 2 with
    | none => s
    | some b =>
      let s1 := s.ctlPop p
      let l := s1.link p
      match s1.cmdTeam p b with
      | none => s1
      | some t =>
        if fld b 32 8 ≠ 1 ∨ l.st ≠ .active ∨ ¬ l.teams.contains t then s1
        else if l.dropAsk.contains t then s1.dropComplete p t
        else if l.teams.all (fun k => decide (k = t) || l.dropAsk.contains k) then s1.lastLost p
        else ((s1.markDrop p t).sendCtl p 2 (put 1 32 8 + put (s.teamPos t) 40 8)).dropComplete p t) 

/-- Both sides have said TEAM_ADD: the team is in the rotation again. Entries of `dropAsk` from 100 are teams for
which this side has sent TEAM_ADD, from 200 teams for which the peer has. -/
def State.addComplete (s : State) (p t : Nat) : State :=
  (s.modLink p (fun l => { l with
    teams := insAsc t l.teams, rot := 0
    dropAsk := l.dropAsk.filter (fun k => decide (k ≠ 100 + t) && decide (k ≠ 200 + t)) })).modTeam t (fun x =>
      { x with st := .usable, attempts := 0, retryAt := none })

/-- TEAM_ADD (R316): completes the exchange where this side has said it, is answered where the team has tag lock,
and otherwise waits for the tag lock. -/
def execTeamAdd (p : Nat) (s : State) : Out :=
  run s (decide (p < 12) && (match s.ctlFront p 2 with | some b => decide (fld b 32 8 = 2) | none => false)) (fun s =>
    match s.ctlFront p 2 with
    | none => s
    | some b =>
      let s1 := s.ctlPop p
      let l := s1.link p
      match s1.cmdTeam p b with
      | none => s1
      | some t =>
        if l.st ≠ .active ∨ l.teams.contains t ∨ ¬ ((s1.team t).st = .retraining) then s1
        else if l.dropAsk.contains (100 + t) then s1.addComplete p t
        else if (s1.team t).tagLock then (s1.sendCtl p 2 (put 2 32 8 + put (s.teamPos t) 40 8)).addComplete p t
        else s1.modLink p (fun l => { l with dropAsk := insAsc (200 + t) l.dropAsk }))

/-- A team of an ACTIVE port has gained tag lock after its attempt: TEAM_ADD (R354). -/
def State.teamBack (s : State) (p t : Nat) : State :=
  let s1 := s.modTeam t (fun x => { x with tagLock := true })
  if s.portCompat p then s1.addComplete p t
  else
    let s2 := s1.sendCtl p 2 (put 2 32 8 + put (s.teamPos t) 40 8)
    if (s.link p).dropAsk.contains (200 + t) then s2.addComplete p t
    else s2.modLink p (fun l => { l with dropAsk := insAsc (100 + t) l.dropAsk })

/-- The teams of an ACTIVE port that wait for tag lock after an attempt. -/
def State.waitLock (s : State) (p : Nat) : List Nat :=
  (s.portTeams p).filter (fun t => decide ((s.team t).st = .retraining) && (s.team t).trained && !(s.team t).tagLock)

/-- TAG_LOCK (R310 step 2): the usable teams of a port in TRAINING or RETRAIN gain tag lock, are deskewed, and
LINK_PARAM begins; on an ACTIVE port the teams retrained since (R354). -/
def execTagLock (p : Nat) (s : State) : Out :=
  let l := s.link p
  let ts := s.portTeams p
  let up := ts.filter (fun t => (s.team t).trained)
  let bring := (decide (l.st = .training) || decide (l.st = .retrain)) && !l.tagLock && decide (up ≠ [])
    && ts.all (fun t => (s.team t).decided)
  run s (decide (p < 12) && (bring || (decide (l.st = .active) && decide (s.waitLock p ≠ [])))) (fun s =>
    if bring then
      let s1 := s.modLink p (fun l => { l with tagLock := true, teams := up, rot := 0, goodParams := 0 })
      (up.foldl (fun a t => a.modTeam t (fun x => { x with tagLock := true })) s1).sendParam p
    else (s.waitLock p).foldl (fun a t => a.teamBack p t) s)

/-- TAG_LOCK_LOSS (R353): a usable team of an ACTIVE port without tag lock for 64 slots. -/
def execTagLockLoss (t : Nat) (s : State) : Out :=
  run s (decide (t < 16) && decide ((s.team t).st = .usable) && decide ((s.link (s.teamPort t)).st = .active)) (fun s =>
    (s.modTeam t (fun x => { x with tagLock := false })).teamUnusable t)

/-- TEAM_RETRY_TIMER (R354): the next attempt of a dropped team begins. -/
def execTeamRetryTimer (t : Nat) (s : State) : Out :=
  let x := s.team t
  run s (decide (t < 16) && decide (x.st = .dropped) && decide ((s.link (s.teamPort t)).st = .active)
      && (match x.retryAt with | some r => decide (r ≤ s.now) | none => false)) (fun s => s.attempt t)

/-! ## Lane sparing (R347 to R352) -/

/-- A lane-management word (R347). -/
def lmw (kind lane txn sfom : Nat) : Quad :=
  let q : Quad := BitVec.ofNat 64 (put kind 0 4 + put lane 4 4 + put txn 8 8 + put sfom 16 8)
  q ||| BitVec.ofNat 64 (put (crcLane q) 48 16)

/-- The receive spare can be called for: SPARE_EN, spare idle and not SPARE_BAD, and the own transmit spare free to
carry the request (R349, R351). -/
def State.spareFree (s : State) (t : Nat) : Bool :=
  let x := s.team t
  (s.reg (teamReg t 0)).toNat.testBit 8 && decide (x.spareFor = none) && !x.spareBad
    && decide (x.mirror = none) && decide (x.arm = none) && decide (x.txFor = none)

/-- Call for the spare for a position (R349, R350). -/
def State.callSpare (s : State) (t lane : Nat) (atOnce : Bool) : State :=
  s.modTeam t (fun x => { x with call := some ⟨lane, (x.txn + 1) % 256, atOnce, 0⟩, txn := (x.txn + 1) % 256 })

/-- Positions below FAIL or lost that the spare does not replace. -/
def Team.failing (x : Team) : List Nat :=
  lanePositions.filter (fun i => (x.lane i).bad && decide (x.spareFor ≠ some i))

/-- The receive spare is found unusable: SPARE_BAD, FLT_LANE_SPARE_BAD, its lifetime entry (R350, R352). -/
def State.spareIsBad (s : State) (t : Nat) : State :=
  if (s.team t).spareBad then s
  else
    ((s.modTeam t (fun x => { x with spareBad := true, call := none })).raise 0x41 t 0 10 (0x50 + s.teamPort t)).spareLog
      2 t 0

/-- The first of the candidates of R349: the clock, else the lowest figure of merit. -/
def Team.candidate (x : Team) (c : List Nat) : Option Nat :=
  if c.contains 9 then some 9
  else c.foldl (fun b i =>
    match b with
    | none => some i
    | some j => if (x.lane i).fom < (x.lane j).fom then some i else b) none

/-- Judge a usable team of an ACTIVE port (R349, R351 to R353). -/
def State.judgeTeam (s0 : State) (t : Nat) : State :=
  let s := if (s0.team t).lane 8 |>.bad then s0.spareIsBad t else s0
  let x := s.team t
  let fails := x.failing
  if x.spareFor.isSome ∧ x.spareBad then s.teamUnusable t
  else if fails ≠ [] then
    match fails with
    | [i] =>
      match x.call with
      | some c =>
        if c.lane = i then s.modTeam t (fun x => { x with call := some { c with atOnce := true } })
        else if c.stage = 0 ∧ s.spareFree t then s.callSpare t i true
        else s.teamUnusable t
      | none => if s.spareFree t then s.callSpare t i true else s.teamUnusable t
    | _ => s.teamUnusable t
  else if (s.reg (teamReg t 0)).toNat.testBit 9 ∧ x.call = none ∧ s.spareFree t then
    match x.candidate (lanePositions.filter (fun i => decide (16 ≤ (x.lane i).low))) with
    | some i => s.callSpare t i (decide (i = 9))
    | none => s
  else s

/-- The crossbar switches to the spare (R350 step 5). -/
def State.swapDone (s : State) (t lane : Nat) : State :=
  (((((s.modTeam t (fun x => { x with
      spareFor := some lane, call := none, holdover := x.holdover && decide (lane ≠ 9) })).incReg (teamReg t 0x1C)).raise
    0x40 t 0 10 (0x50 + s.teamPort t)).emit (0x41 + put t 8 4 + put lane 12 4)).spareLog 1 t lane).judgeTeam t

/-- The team carries traffic: usable, its port ACTIVE or DRAINING (R309, R360). -/
def State.teamLive (s : State) (t : Nat) : Bool :=
  let st := (s.link (s.teamPort t)).st
  decide (t < 16) && decide ((s.team t).st = .usable) && (decide (st = .active) || decide (st = .draining))
    && decide (s.teamPort t < 12)

/-- FOM_UPDATE (R344, R349): a figure of merit for each of the ten positions, and the judgement that follows. A call
that found no answer since the last update is made afresh. -/
def execFomUpdate (t : Nat) (foms : List Nat) (s : State) : Out :=
  let st := (s.link (s.teamPort t)).st
  let x := s.team t
  run s (decide (t < 16) && decide (s.teamPort t < 12)
      && ((decide (st = .active ∨ st = .retrain) && decide (x.st = .usable ∨ x.st = .retraining))
        || (decide (st = .active ∨ st = .retrain) && decide (x.st = .dropped ∨ x.st = .failed)))) (fun s =>
    let s1 := (List.range 10).foldl (fun a i => a.modLane t i (fun y =>
      let f := foms.getD i 0 % 256
      let lost := y.lost && decide (f = 0)
      { y with fom := f, lost := lost, bad := y.miswire || lost || decide (f < s.fomFail t)
               low := if f < s.fomSwap t then min 16 (y.low + 1) else 0 })) s
    if s1.teamLive t then
      (s1.modTeam t (fun x => { x with call := match x.call with
        | some c => if c.stage = 1 then none else some c
        | none => none })).judgeTeam t
    else s1)

/-- LANE_SILENT (R349): a position without level transitions for 256 UI. -/
def execLaneSilent (t i : Nat) (s : State) : Out :=
  run s (s.teamLive t && decide (i < 10)) (fun s =>
    (s.modLane t i (fun y => { y with lost := true, bad := true })).judgeTeam t)

/-- FORWARDED_CLOCK_LOSS (R335): the sampling phases are held and the spare is called for; a clock that came on the
spare is lost with it. -/
def execForwardedClockLoss (t : Nat) (s : State) : Out :=
  run s (s.teamLive t && !(s.team t).holdover) (fun s =>
    let i := if (s.team t).spareFor = some 9 then 8 else 9
    ((s.modTeam t (fun x => { x with holdover := true })).modLane t i (fun y => { y with lost := true, bad := true })).judgeTeam t)

/-- CLOCK_HOLDOVER_END (R335, R353): holdover ends without a clock. -/
def execClockHoldoverEnd (t : Nat) (s : State) : Out :=
  run s (s.teamLive t && (s.team t).holdover) (fun s =>
    (s.modTeam t (fun x => { x with holdover := false })).teamUnusable t)

/-- LANE_MANAGEMENT_WORD (R347, R348): the next period of an idle transmit spare: mirroring that was agreed begins,
or an LMW goes out with a MIRROR_REQ, a MIRROR_ACK or IDLE. -/
def execLaneManagementWord (t : Nat) (s : State) : Out :=
  let x := s.team t
  run s (s.teamLive t && decide (x.mirror = none) && decide (x.txFor = none)) (fun s =>
    let sfom := (x.lane 8).fom
    match x.arm with
    | some l => s.modTeam t (fun x => { x with mirror := some l, arm := none })
    | none =>
      match x.call, x.ack with
      | some c, a =>
        if c.stage = 0 then
          (s.modTeam t (fun x => { x with call := some { c with stage := 1 } })).sendLmw t (lmw 1 c.lane c.txn sfom)
        else match a with
          | some (l, n) => (s.modTeam t (fun x => { x with ack := none, arm := some l })).sendLmw t (lmw 2 l n sfom)
          | none => s.sendLmw t (lmw 0 0 0 sfom)
      | none, some (l, n) => (s.modTeam t (fun x => { x with ack := none, arm := some l })).sendLmw t (lmw 2 l n sfom)
      | none, none => s.sendLmw t (lmw 0 0 0 sfom))

/-- MIRROR_REQ (R348): acknowledged in the next LMW, unless the transmit spare already mirrors. -/
def execMirrorReq (t : Nat) (w : Quad) (s : State) : Out :=
  let x := s.team t
  run s (s.teamLive t && laneGood w && decide (qf w 0 4 = 1) && lanePos (qf w 4 4)) (fun s =>
    if x.mirror.isSome ∨ x.arm.isSome ∨ x.txFor.isSome then s
    else s.modTeam t (fun x => { x with ack := some (qf w 4 4, qf w 8 8) }))

/-- MIRROR_ACK (R350): the answer to this receiver's request starts the comparison, or the switch at once. -/
def execMirrorAck (t : Nat) (w : Quad) (s : State) : Out :=
  let x := s.team t
  run s (s.teamLive t && laneGood w && decide (qf w 0 4 = 2)) (fun s =>
    match x.call with
    | some c =>
      if c.stage = 1 ∧ c.lane = qf w 4 4 ∧ c.txn = qf w 8 8 then
        if c.atOnce then s.swapDone t c.lane else s.modTeam t (fun x => { x with call := some { c with stage := 2 } })
      else s
    | none => s)

/-- SPARE_COMPARE_DONE (R350): the comparison over 2^14 UI has matched, or not; a position that failed meanwhile needs
no comparison. -/
def execSpareCompareDone (t : Nat) (ok : Bool) (s : State) : Out :=
  let x := s.team t
  run s (s.teamLive t && (match x.call with | some c => decide (c.stage = 2) | none => false)) (fun s =>
    match x.call with
    | some c => if ok ∨ c.atOnce then s.swapDone t c.lane else (s.spareIsBad t).judgeTeam t
    | none => s)

/-! ## Team registers (R359, R361) -/

/-- Write of DX_TEAM{t}_CFG: CLASS and RATE only before the seal, the rest only while the team is OFF (R355,
R359). -/
def State.wrTeamCfg (s : State) (t : Nat) (priv : Bool) (d : Word) : State :=
  if ¬ priv then s
  else
    let old := s.reg (teamReg t 0)
    let free : Word := 0x03FF03E0
    let sealed := (s.reg 0xC000).toNat.testBit 0
    let d1 := if sealed then (d &&& ~~~0x1F) ||| (old &&& 0x1F) else d
    let clash := decide ((s.team t).st ≠ .off) && decide ((d1 ^^^ old) &&& free ≠ 0)
    let d2 := if clash then (d1 &&& ~~~free) ||| (old &&& free) else d1
    let s1 := s.plainWrite (teamReg t 0) priv d2
    if clash then s1.teamIgn t else s1

/-- SWAP written for a position (R349, R352). -/
def State.swSwap (s : State) (t lane : Nat) : State :=
  if ¬ lanePos lane then s
  else if ¬ s.teamLive t ∨ ¬ s.spareFree t ∨ (s.team t).call.isSome then s.teamIgn t
  else s.callSpare t lane (((s.team t).lane lane).bad || decide (lane = 9))

/-- RETRY written: a new series of attempts for a FAILED team (R354). -/
def State.swRetry (s : State) (t : Nat) : State :=
  if (s.team t).st ≠ .failed then s
  else
    let s1 := s.modTeam t (fun x => { x with st := .dropped, attempts := 0, retryAt := some s.now })
    if (s.link (s.teamPort t)).st = .active then s1.attempt t else s1

/-- A write of DX_TEAM{t}_CTL. -/
def State.wrTeamCtl (s : State) (t : Nat) (d : Word) : State :=
  let s1 := if d.toNat.testBit 0 then s.swSwap t (fld d.toNat 1 4) else s
  if d.toNat.testBit 5 then s1.swRetry t else s1

/-- TEAM_RETRY: a write with RETRY 1. -/
def execTeamRetry (t : Nat) (a : RgAcc) (s : State) : Out :=
  regCmd s (decide (t < 16)) (teamReg t 8) (RgAcc.force a 5 true) (fun s _ d => s.wrTeamCtl t d)

/-- TEAM_SWAP: a write with SWAP 1. -/
def execTeamSwap (t : Nat) (a : RgAcc) (s : State) : Out :=
  regCmd s (decide (t < 16)) (teamReg t 8) (RgAcc.force a 0 true) (fun s _ d => s.wrTeamCtl t d)

/-- Enter PRBS mode where the team may (R346). -/
def State.prbsEnter (s : State) (t : Nat) : State :=
  let p := s.teamPort t
  if s.quayOn t ∧ (12 ≤ p ∨ (s.link p).st = .off) then
    s.modTeam t (fun x => { x with
      st := .prbs, prbs := true
      lanes := x.lanes.map (fun y =>
        let (a, b, c) := if x.ever then (y.cm2, y.cm1, y.cp1) else presetTaps (s.rf (teamReg t 0) 5 3)
        { y with cm2 := a, cm1 := b, cp1 := c, prbsLock := if x.st = .prbs then y.prbsLock else false }) })
  else s

/-- A team in PRBS mode with TX set: each transmit position sends the pattern from here on; without, none does (R346). -/
def State.sendPattern (s : State) (t : Nat) : State :=
  let v := (s.reg (teamReg t 0xC)).toNat
  s.drive (.pattern t (if (s.team t).st = .prbs ∧ v.testBit 2 then fld v 0 2 else 0))

/-- A write of DX_TEAM{t}_PRBS (R346, R361). -/
def State.wrPrbs (s : State) (t : Nat) (priv : Bool) (d : Word) : State :=
  let s1 := s.plainWrite (teamReg t 0xC) priv d
  let s2 := if d.toNat.testBit 4 then s1.modTeam t (fun x => { x with lanes := x.lanes.map (fun y => { y with prbsErr := 0 }) }) else s1
  let v := (s2.reg (teamReg t 0xC)).toNat
  if ¬ priv then s2
  else if fld v 0 2 = 0 then
    if (s2.team t).st = .prbs then
      (s2.modTeam t (fun x => { x with st := .off, prbs := false, lanes := x.lanes.map (fun y => { y with prbsLock := false }) })).sendPattern t
    else s2
  else if v.testBit 2 ∨ v.testBit 3 then (s2.prbsEnter t).sendPattern t
  else s2

/-- PRBS_MODE: a write of DX_TEAM{t}_PRBS. -/
def execPrbsMode (t : Nat) (a : RgAcc) (s : State) : Out :=
  regCmd s (decide (t < 16)) (teamReg t 0xC) a (fun s pr d => s.wrPrbs t pr d)

/-- PRBS_CLR: a write with CLR 1. -/
def execPrbsClr (t : Nat) (a : RgAcc) (s : State) : Out :=
  regCmd s (decide (t < 16)) (teamReg t 0xC) (RgAcc.force a 4 true) (fun s pr d => s.wrPrbs t pr d)

/-- PRBS_CHECKER_LOCK (R346): 256 bits of a checker with their number of errors: counted while locked; LOCK after
none, lost after more than 32. -/
def execPrbsCheckerLock (t i errs : Nat) (s : State) : Out :=
  run s (decide (t < 16) && decide (i < 10) && decide ((s.team t).st = .prbs) && (s.reg (teamReg t 0xC)).toNat.testBit 3)
    (fun s => s.modLane t i (fun y =>
      if y.prbsLock then
        { y with prbsErr := min (2 ^ 32 - 1) (y.prbsErr + min 256 errs), prbsLock := decide (errs ≤ 32) }
      else { y with prbsLock := decide (errs = 0) }))

/-! ## The harness map (R355 to R357) -/

/-- The valid ports. -/
def State.validPorts (s : State) : List Nat := (List.range 12).filter (fun p => s.portValid p)
/-- Class and rate of a team. -/
def State.teamKind (s : State) (t : Nat) : Nat := s.rf (teamReg t 0) 0 5

/-- A reserved value (R356 0x1): the port and team concerned; a failure that concerns no team names team 0 (DESIGN
CHOICE, log 91). -/
def State.sealReserved (s : State) : Option (Nat × Nat) :=
  let ts := List.range 16
  match ts.find? (fun t => decide (12 ≤ s.teamPort t) && decide (s.teamPort t ≠ 15)) with
  | some t => some (s.teamPort t, t)
  | none =>
    match (List.range 12).find? (fun p => decide (6 ≤ s.portDir p)) with
    | some p => some (p, 0)
    | none =>
      (ts.find? (fun t => decide (5 ≤ s.rf (teamReg t 0) 2 3) || decide (s.rf (teamReg t 0) 5 3 = 0)
        || decide (6 ≤ s.rf (teamReg t 0) 5 3))).map (fun t => (s.teamPort t, t))

/-- The first check of R356 that a seal breaks: REFUSE, RPORT, RTEAM. -/
def State.sealRefuse (s : State) : Option (Nat × Nat × Nat) :=
  let vp := s.validPorts
  match s.sealReserved with
  | some (p, t) => some (1, p, t)
  | none =>
  match (List.range 16).find? (fun t => decide (s.teamPort t ≠ 15) && !s.portValid (s.teamPort t)) with
  | some t => some (2, s.teamPort t, t)
  | none =>
  match vp.find? (fun p => decide (s.portTeams p = [])) with
  | some p => some (3, p, 0)
  | none =>
  match vp.find? (fun p => decide (8 < (s.portTeams p).length)) with
  | some p => some (4, p, 0)
  | none =>
  match vp.findSome? (fun p => ((s.portTeams p).find? (fun t => decide (s.teamKind t ≠ s.teamKind ((s.portTeams p).headD 0)))).map
      (fun t => (p, t))) with
  | some (p, t) => some (5, p, t)
  | none =>
  match vp.find? (fun p =>
      let same := vp.filter (fun q => decide (s.portDir q = s.portDir p))
      decide (2 < same.length) || (decide (1 < same.length) && same.any (fun q => s.portCompat q))) with
  | some p => some (6, p, 0)
  | none =>
  match vp.findSome? (fun p => if s.portCompat p then
      ((s.portTeams p).find? (fun t => decide (s.teamKind t ≠ 0xD) && decide (s.teamKind t ≠ 0xE))).map (fun t => (p, t)) else none) with
  | some (p, t) => some (7, p, t)
  | none => none

/-- Seal the map (R356, R357): refused with its reason, or sealed with the unused quays powered down. -/
def State.sealMap (s : State) : State :=
  if (s.reg 0xC000).toNat.testBit 0 then s
  else
    match s.sealRefuse with
    | some (c, p, t) => s.putField 0xC000 4 12 (put c 0 4 + put p 4 4 + put t 8 4)
    | none =>
      let down := (List.range 4).filter (fun q => (List.range 4).all (fun k => decide (s.teamPort (4 * q + k) = 15)))
      let s1 := s.setReg 0xC000 (BitVec.ofNat 32 (1 + maskOf (down.map (fun q => 16 + q))))
      (List.range 16).foldl (fun a t =>
        if down.contains (t / 4) ∧ (a.team t).st = .prbs then a.modTeam t (fun x => { x with st := .off, prbs := false }) else a) s1

/-- A write of DX_HARNESS_CTL: SEAL written 1 by a writer that may. -/
def State.wrHarness (s : State) (priv : Bool) (d : Word) : State :=
  if priv ∧ d.toNat.testBit 0 then s.sealMap else s

/-- A write of a map register, ignored once sealed (R355). -/
def State.wrMap (s : State) (off : Nat) (priv : Bool) (d : Word) : State :=
  if (s.reg 0xC000).toNat.testBit 0 then s else s.plainWrite off priv d

/-- A write of DX_FOM_CFG{c}: ignored unless FAIL < SWAP < TRAIN (R345). -/
def State.wrFom (s : State) (off : Nat) (priv : Bool) (d : Word) : State :=
  let v := d.toNat
  if fld v 16 8 < fld v 8 8 ∧ fld v 8 8 < fld v 0 8 then s.plainWrite off priv d else s

/-- HARNESS_SEAL: a write with SEAL 1. -/
def execHarnessSeal (a : RgAcc) (s : State) : Out :=
  regCmd s true 0xC000 (RgAcc.force a 0 true) (fun s pr d => s.wrHarness pr d)

end Sys2Proof.Machine
end

