-- ==== Sys2Proof/Machine/Mc.lean ====
section
/-! DEFINITION. The management core's own operations: its memory, modes, expert control, the restart of the
firmware and the mailbox's completion (R463 to R474). -/

namespace Sys2Proof.Machine

/-! ## Management SRAM (R463) -/

/-- Bytes of the management SRAM, by core address − 0x1000_0000. -/
def State.ramRead (s : State) (off n : Nat) : List Byte :=
  (List.range n).map (fun i => SMap.get (fun _ => 0) s.mc.ram (off + i))

/-- Write bytes into the management SRAM. -/
def State.ramWrite (s : State) (off : Nat) (bs : List Byte) : State :=
  { s with mc := { s.mc with
      ram := (bs.zipIdx).foldl (fun m e => SMap.set (fun _ => 0) m (off + e.2) e.1) s.mc.ram } }

/-- Zero the SRAM from `lo` to `hi - 1`. -/
def State.ramZero (s : State) (lo hi : Nat) : State :=
  { s with mc := { s.mc with ram := s.mc.ram.filter (fun e => decide (e.1 < lo) || decide (hi ≤ e.1)) } }

/-- Where the kernel region ends and firmware code, data and the staging area begin. -/
def codeBase : Nat := 0x20000
/-- Firmware data. -/
def dataBase : Nat := 0xA0000
/-- The staging area for configuration images. -/
def stageBase : Nat := 0xC0000

/-! ## Modes (R468 to R470) -/

/-- The code of a mode. -/
def modeCode : McMode → Nat
  | .basic => 0
  | .full => 1
  | .diag => 2

/-- The code of a firmware state. -/
def fwCode : FwSt → Nat
  | .none => 0
  | .loading => 1
  | .running => 2
  | .restarting => 3

/-- Mode and firmware state change; EV_FW_STATE reports it (R487). -/
def State.setFw (s : State) (m : McMode) (f : FwSt) : State :=
  if s.mc.mode = m ∧ s.mc.fw = f then s
  else { s with mc := { s.mc with mode := m, fw := f } }.emit (0x81 + put (modeCode m) 8 2 + put (fwCode f) 10 2)

/-- Whole seconds of expert control that remain, rounded up (R470). -/
def State.remain (s : State) : Nat :=
  match s.mc.openUntil with
  | some t => (t - s.now + 156249999) / 156250000
  | none => 0

/-- EV_EXPERT (R487). -/
def State.sayExpert (s : State) : State := s.emit (0x82 + put (b2n s.mc.openUntil.isSome) 8 1 + put s.remain 16 12)

/-- Expert control closes (R474). -/
def State.closeExpert (s : State) : State :=
  if s.mc.openUntil.isSome then { s with mc := { s.mc with openUntil := none } }.sayExpert else s

/-! ## The mailbox (R470 to R472) -/

/-- Word 0 of a response. -/
def rspHead (status tag nw : Nat) : Word := BitVec.ofNat 32 (status + put tag 8 8 + put nw 16 6)

/-- The 64 words of a response. -/
def rspWords (status tag : Nat) (ws : List Word) : List Word :=
  (rspHead status tag ws.length :: ws) ++ List.replicate (63 - ws.length) 0

/-- What waits for a mailbox request that has ended waits for nobody. -/
def State.disown (s : State) : State :=
  let free := fun (a : Asker) => if a = .mailbox then Asker.nobody else a
  { s with
    i2c := s.i2c.map (fun e => (e.1, e.2.map (fun (b : I2cBusy) => { b with mb := b.mb.map free })))
    mc := { s.mc with
      lead := s.mc.lead.map (fun (l : Lead) => { l with who := free l.who })
      outst := s.mc.outst.map (fun (m : MgtOut) => { m with who := m.who.map free }) } }

/-- The mailbox request in progress completes in one step, and EV_MB_DONE follows (R471). -/
def State.mbDone (s : State) (status : Nat) (ws : List Word) : State :=
  match s.mc.mb.busy with
  | none => s
  | some r =>
    let tag := fld (r.words.headD 0).toNat 8 8
    let s1 := { s with mc := { s.mc with
      mb := ⟨none, true, BitVec.ofNat 8 tag, BitVec.ofNat 8 status, rspWords status tag ws⟩ } }
    (s1.disown).emit (0x80 + put tag 8 8 + put status 16 8)

/-! ## Restarting the firmware (R466, R469) -/

/-- The SHA-384 of the firmware code in place equals the digest stored at load. -/
def State.codeGood (s : State) : Bool :=
  decide (sha384 (s.ramRead codeBase s.mc.fc) = s.mc.digest.toNat)

/-- Start the firmware at its entry point: its data region holds the initial data, and its heartbeat is awaited. -/
def State.startFw (s : State) : State :=
  let s1 := (s.ramZero dataBase stageBase).ramWrite dataBase s.mc.initData
  { s1 with mc := { s1.mc with heartAt := s1.now } }

/-- The kernel restarts the firmware (R466). -/
def State.restartFw (s : State) : State :=
  let s1 := if s.codeGood then
      let t := s.startFw
      ({ t with mc := { t.mc with restarts := min 255 (t.mc.restarts + 1) } }).setFw t.mc.mode .restarting
    else (s.raise 0x78 0 1).setFw .basic .none
  s1.mbDone 7 []

end Sys2Proof.Machine
end

