-- ==== Sys2Proof/Machine/Faults.lean ====
section
/-! DEFINITION. The fault collector: taking and classifying raises, capture, acknowledgement, injection, and the
reaction of F2 and F3 (R399, R400, R403, R405 to R431). -/

namespace Sys2Proof.Machine

/-! ## Pins (R399, R400) -/

/-- The condition that drives ERR_A 1 and ERR_B 0. -/
def State.errOn (s : State) : Bool := s.fenced || s.far.acting || decide (s.pwr.phase ≠ .run)

/-- Drive the error pins where their condition has changed from `old`. -/
def State.sayPins (s : State) (old : Bool) : State :=
  if s.errOn = old then s else s.drive (.pins s.errOn (!s.errOn) s.pwr.faultStatic)

/-! ## The reaction (R403, R415) -/

/-- A read that serves work which leaves the block in a packet. -/
def RdUse.leaves : RdUse → Bool
  | .atom _ => false
  | _ => true

/-- Requests of reads whose work has ended are never issued (R403). -/
def State.dropWaiting (s : State) : State :=
  let dead := (s.eng.reads.filter (fun j => !j.live)).map (·.id)
  let waiting := fun (id : Nat) => s.hm.foldl (fun n e => n + (e.2.rdWait.filter (fun r => decide (r.job = id))).length) 0
  let reads := s.eng.reads.filterMap (fun j =>
    if j.live then some j
    else if j.left ≤ waiting j.id then none else some { j with left := j.left - waiting j.id })
  let s1 := (s.hm.map (·.1)).foldl (fun t p =>
    t.modHm p (fun h => { h with rdWait := h.rdWait.filter (fun r => !(dead.contains r.job)) })) s
  { s1 with eng := { s1.eng with reads := reads } }

/-- Accepted requests that would answer with data are dropped; stores of their streams go on (R403). -/
def State.dropServed (s : State) : State :=
  let s1 : State := { s with eng := { s.eng with reads := s.eng.reads.map (fun (j : RdJob) => if j.use.leaves then { j with live := false } else j) } }
  let drop := fun (x : Stream) =>
    let first := match x.queue with
      | p :: _ => x.busy && decide (p.opcode ≠ 0x04)
      | [] => false
    { x with queue := x.queue.filter (fun p => decide (p.opcode ≠ 0x04)), busy := first }
  let s2 : State := { s1 with streams := s1.streams.map drop }
  s2.streams.foldl (fun t (x : Stream) => t.streamTurn x.chip x.ra) s2.dropWaiting

/-- FLIGHT logbooks with FREEZE stop recording (R501). -/
def State.freezeLogs (s : State) : State :=
  [0, 1, 2, 3].foldl (fun t n =>
    if t.flight n ∧ (t.reg (0x32100 + 0x40 * n)).toNat.testBit 3 ∧ ((t.log n).st = .on ∨ (t.log n).st = .starting) then
      t.modLog n (fun l => { l with frozen := true }) else t) s

/-- Entry into F3 is counted (R505); the kernel stops the firmware, closes expert control and enters DIAG (R417,
R469, R474). -/
def State.enterDiag (s0 : State) : State :=
  if s0.inF3 then
    ((s0.lifeInc 0x01C).closeExpert).setFw .diag .none
  else s0

/-- The block enters F2 or F3 (R403, R415): every port that is not OFF is fenced and the fragments on it end FENCED,
instances and channels end, source reads are never issued, RA accesses are answered UNREACH. -/
def State.enterFault (s : State) : State :=
  let s1 := (List.range 12).foldl (fun t p => (t.fencePort p 1).fenceSlots p) s
  let s2 := s1.collEndAll 6 0 (fun _ => true)
  let s3 := (s2.chans.map (·.1)).foldl (fun t k => t.drainAll k false true) s2
  let s4 := ((s3.dropServed).raLoadsEnd 5 true).raRelease
  ((s4.releaseCp).freezeLogs).enterDiag

/-- The block has left F2 (R416, R444): with ON_PEER a member steps its generation once, before a port can leave
FENCED. -/
def State.leaveF2 (s : State) : State :=
  if (s.reg 0x3010).toNat.testBit 1 ∧ s.ident.pkey ≠ 0 then
    s.acceptAbort 15 ⟨s.genBase + 1, 1, s.ident.chip, 0, true, false⟩ false
  else s

/-! ## Capture (R419 to R423) -/

/-- Capture mode (R420). -/
def State.capturing (s : State) : Bool :=
  (s.reg 0x2004).toNat.testBit 8 || s.flt.capStart || s.flt.capTest || (s.reg 0x2004).toNat.testBit 12

/-- The event word of a fault (R423). -/
def State.fltEvent (s : State) (ev code inst raised taken : Nat) : State :=
  s.emit (ev + put code 8 8 + put inst 16 6 + put raised 22 2 + put taken 24 2 + put s.time 64 64)

/-- Write a capture record, or count it lost (R421). -/
def State.capture (s : State) (r : Raise) (taken : Nat) : State :=
  let seq := s.flt.rseq
  let s0 := { s with flt := { s.flt with rseq := (seq + 1) % 2 ^ 16 } }
  if 64 ≤ s.flt.recs then { s0 with flt := { s0.flt with lost := min 65535 (s0.flt.lost + 1) } }
  else
    let rmode := b2n ((s.reg 0x2004).toNat.testBit 12)
    let w0 := put r.code 0 8 + put r.inst 8 6 + put r.cls 14 2 + put taken 16 2 + put (b2n r.inj) 18 1 + put rmode 19 1
      + put r.atype 20 4 + put r.master 24 8
    let ws := [w0, r.addr, r.addr / 2 ^ 32, r.detail, r.time, r.time / 2 ^ 32, seq, 0]
    let s1 := (List.range 8).foldl (fun t i => t.setReg (0x2800 + 32 * s.flt.recs + 4 * i) (BitVec.ofNat 32 (ws.getD i 0))) s0
    let s2 : State := { s1 with flt := { s1.flt with recs := s1.flt.recs + 1 } }
    if s2.flt.recs = 64 ∧ ¬ s2.flt.fullSaid then
      { s2 with flt := { s2.flt with fullSaid := true } }.fltEvent 0x64 r.code r.inst r.cls taken
    else s2

/-! ## Classification (R408, R410, R424) -/

/-- The codes that recovery mode lowers (R424). -/
def recovCode (c : Nat) : Bool := [0x37, 0x39, 0x50, 0x51, 0x52, 0x53, 0x57].contains c

/-- One hour in 0.25 ns. -/
def hour : Nat := 3600 * 4 * 10 ^ 9

/-- Recoveries that a source completed in the hour before `t`. -/
def Source.recent (x : Source) (t : Nat) : Nat := (x.recov.filter (fun r => decide (t < r + hour))).length

/-- The class at which a raise is taken and the state it leaves. -/
def Source.classify (x : Source) (r : Raise) (recovery : Bool) : Nat × SrcSt :=
  if r.cls = 0 ∨ (r.cls = 1 ∧ recovery ∧ recovCode r.code) then (0, x.st)
  else
    match x.st with
    | .clear =>
      if r.cls = 1 then (if 8 ≤ x.recent r.time then (2, .awaitAck) else (1, .recovering))
      else if r.cls = 2 then (2, .awaitAck) else (3, .fatal)
    | .recovering => if r.cls = 3 then (3, .fatal) else (2, .awaitAck)
    | .awaitAck => if r.cls = 1 then (1, .awaitAck) else (3, .fatal)
    | .fatal => (r.cls, .fatal)

/-- The collector takes one raise (R408, R409, R415, R419 to R423). -/
def State.takeRaise (s : State) (r : Raise) : State :=
  let x := s.source r.code r.inst
  let before := s.fenced
  let was3 := s.inF3
  let pins := s.errOn
  let (taken, st) := x.classify r ((s.reg 0x2004).toNat.testBit 12)
  let x1 := { x with
    st := st, raises := (x.raises + 1) % 16
    quietAt := if x.st = .clear ∧ st = .recovering then s.now else x.quietAt
    quietLen := if x.st = .clear ∧ st = .recovering then nsTicks (1000000 * max 1 (s.rf 0x2004 0 8)) else x.quietLen }
  let s1 := s.setSource r.code r.inst x1
  let st0 := 0x2400 + 8 * r.code + 4 * (r.inst / 32)
  let s2 := (s1.orReg st0 (BitVec.ofNat 32 (2 ^ (r.inst % 32)))).incReg (0x2200 + 4 * r.code)
  let s3 := if s2.capturing then s2.capture r taken else s2
  let cap := s2.capturing
  let s3 := s3.record 3 5 r.code (put r.inst 0 6 + put r.cls 6 2 + put taken 8 2 + put (b2n r.inj) 10 1
    + put (s.rf 0x2004 12 1) 11 1) (if cap then r.addr % 2 ^ 64 else 0) (if cap then r.detail % 2 ^ 32 else 0)
  let s4 := if r.inj && s3.flt.armed.isNone then { s3 with flt := { s3.flt with capTest := false } } else s3
  let s5 := if taken = 0 then s4 else s4.fltEvent (0x5F + taken) r.code r.inst r.cls taken
  let s6 := if ¬ before ∧ s5.fenced ∧ ¬ (s5.reg 0x2014).toNat.testBit 31 then
      ((s5.setReg 0x2014 (BitVec.ofNat 32 (put r.code 0 8 + put r.inst 8 6 + put taken 14 2 + 2 ^ 31))).setReg 0x2018
        (BitVec.ofNat 32 r.time)).setReg 0x201C (BitVec.ofNat 32 (r.time / 2 ^ 32))
    else s5
  if (¬ before ∧ s6.fenced) ∨ (¬ was3 ∧ s6.inF3) then (s6.enterFault).sayPins pins else s6

/-- FAULT_TAKEN (R407, R408): the oldest raise that waits. -/
def execFaultTaken (s : State) : Out :=
  run s (decide (s.flt.waiting ≠ [])) (fun s =>
    match s.flt.waiting with
    | [] => s
    | r :: rest => { s with flt := { s.flt with waiting := rest } }.takeRaise r)

/-- QUIET_EXPIRE (R410): the quiet period of a RECOVERING source ends; a raise that waits goes first. -/
def execQuietExpire (code inst : Nat) (s : State) : Out :=
  let x := s.source code inst
  run s (decide (inst < 64) && decide (x.st = .recovering) && decide (x.quietAt + x.quietLen ≤ s.now)
      && !(s.flt.waiting.any (fun r => decide (r.code = code) && decide (r.inst = inst)))) (fun s =>
    let l := x.recov ++ [s.time]
    (s.setSource code inst { x with st := .clear, recov := l.drop (l.length - 8) }).fltEvent 0x63 code inst 1 1)

/-! ## Acknowledgement (R412, R416) -/

/-- Acknowledge a source with the RAISES value read. Answers whether it took effect. -/
def State.ack (s : State) (code inst raises : Nat) : Bool × State :=
  let x := s.source code inst
  if s.inF3 then (false, s)
  else if x.st ≠ .awaitAck ∨ x.raises ≠ raises then (false, s.orReg 0x2000 0x20)
  else
    let pins := s.errOn
    let s1 := (s.setSource code inst { x with st := .clear }).fltEvent 0x63 code inst 2 2
    (true, if s1.fenced then s1 else (s1.leaveF2).sayPins pins)

/-- A write of DX_FLT_ACK; one with GO that does not take effect stores nothing. -/
def State.wrFltAck (s : State) (priv : Bool) (d : Word) : State :=
  let v := d.toNat
  if s.inF3 then s
  else if ¬ v.testBit 31 then s.plainWrite 0x2008 priv d
  else if ¬ priv then s.orReg 0x2000 0x20
  else
    let (took, t) := s.ack (fld v 0 8) (fld v 8 6) (fld v 14 4)
    if took then t.plainWrite 0x2008 priv d else t

/-- FLT_ACK: a write with GO 1. -/
def execFltAck (a : RgAcc) (s : State) : Out :=
  regCmd s true 0x2008 (RgAcc.force a 31 true) (fun s p d => s.wrFltAck p d)

/-! ## Checkers of the collector and the farrier (R405, R428, R430) -/

/-- RAIL_INVALID_TIMEOUT (R405): an invalid pair on an input line for more than 4 handshakes. -/
def execRailInvalidTimeout (line : Nat) (s : State) : Out :=
  run s true (fun s => s.raise 0x01 0 2 9 0xFF 0 line)

/-- FARRIER_PROBE (R430): a wrong or missing answer raises FLT_FC_SELF. -/
def execFarrierProbe (ok : Bool) (s : State) : Out :=
  run s true (fun s => if ok then s else s.raise 0x02 0 3 9 0x61)

/-- The class of an uncorrectable word by its code (R427). -/
def eccClass (code : Nat) : Nat :=
  if code = 0x05 then 3 else if [0x15, 0x16, 0x17].contains code then 1 else 2

/-- The SECDED arrays that there are, each named here by 64 × its code + instance (R427; DESIGN CHOICE, log 12). -/
def eccArray (a : Nat) : Bool :=
  match a / 64 with
  | 0x05 | 0x10 | 0x12 | 0x13 | 0x15 => decide (a % 64 = 0)
  | 0x11 => decide (a % 64 < 8)
  | 0x14 => true
  | 0x16 => decide (a % 64 < 4)
  | 0x17 | 0x18 => decide (a % 64 < 12)
  | _ => false

/-- SCRUB (R428): a corrected word is written back, an uncorrectable one is raised at its class. -/
def execScrub (x : ScrubHit) (s : State) : Out :=
  match x with
  | .correctable a row => run s (eccArray a) (fun s => s.raise (a / 64) (a % 64) 0 8 0x67 row)
  | .uncorrectable a row => run s (eccArray a) (fun s => s.raise (a / 64) (a % 64) (eccClass (a / 64)) 8 0x67 row)

/-! ## Registers of the collector (R411, R420, R421, R424 to R426) -/

/-- Start-up ends: CAP_START clears, and a restoration still OPEN is refused (R420, R507). -/
def State.startDone (s : State) : State :=
  { s with
    flt := { s.flt with capStart := false }
    life := { s.life with rstate := if s.life.rstate = .open_ then .refused else s.life.rstate } }

/-- A write of DX_FLT_CTL. -/
def State.wrFltCtl (s : State) (priv : Bool) (d : Word) : State :=
  let s1 := s.plainWrite 0x2004 priv d
  let s2 := if priv ∧ d.toNat.testBit 12 then { s1 with flt := { s1.flt with recovAt := s1.now } } else s1
  if d.toNat.testBit 10 then s2.startDone else s2

/-- START_DONE: a write with START_DONE 1. -/
def execStartDone (a : RgAcc) (s : State) : Out :=
  regCmd s true 0x2004 (RgAcc.force a 10 true) (fun s p d => s.wrFltCtl p d)

/-- RECOV_EXPIRE (R424). -/
def execRecovExpire (s : State) : Out :=
  run s ((s.reg 0x2004).toNat.testBit 12 && decide (s.flt.recovAt + nsTicks 1000000000 ≤ s.now)) (fun s => s.clrReg 0x2004 0x1000)

/-- A write of DX_FLT_CREC_STAT: CLR empties every slot (R421). -/
def State.wrCrec (s : State) (d : Word) : State :=
  if d.toNat.testBit 7 then
    { s with
      rg := s.rg.filter (fun e => !(decide (0x2800 ≤ e.1) && decide (e.1 < 0x3000)))
      flt := { s.flt with recs := 0, lost := 0, rseq := 0, fullSaid := false } }
  else s

/-- CREC_CLR: a write with CLR 1, made in F3 too (R417). -/
def execCrecClr (a : RgAcc) (s : State) : Out :=
  regCmd s true 0x2024 (RgAcc.force a 7 true) (fun s _ d => s.wrCrec d) true

/-- The codes marked "yes" (R427). -/
def injYes (c : Nat) : Bool :=
  [1, 2, 3, 5, 7, 0x20, 0x23, 0x24, 0x25, 0x27, 0x28].contains c || (decide (0x10 ≤ c) && decide (c ≤ 0x19))

/-- Targets that drive their own rail pair invalid as soon as they are armed (R426). -/
def State.railInj (s : State) (code inst : Nat) : State :=
  if [1, 2, 3].contains code then
    let (made, t) := s.takeInj code inst
    if made then t.raise code inst (if code = 1 then 2 else 3) 9 0xFF 0 0 true else t
  else s

/-- A write of DX_FLT_INJ (R417, R425, R426). -/
def State.wrFltInj (s : State) (priv : Bool) (d : Word) : State :=
  if s.inF3 then s.w1cOnly 0x2020 d
  else
    let v := d.toNat
    let s1 := s.plainWrite 0x2020 priv d
    if ¬ priv then s1
    else if ¬ v.testBit 15 then
      if s.flt.armed.isSome then { s1 with flt := { s1.flt with armed := none, capTest := false } } else s1
    else if injYes (fld v 0 8) then
      ({ s1 with flt := { s1.flt with armed := some (fld v 0 8, fld v 8 6, v.testBit 14), capTest := true } }).railInj
        (fld v 0 8) (fld v 8 6)
    else
      ({ s1 with flt := { s1.flt with armed := none, capTest := s1.flt.capTest && s1.flt.armed.isNone } }.clrReg 0x2020 0x8000).orReg
        0x2020 0x20000

/-- FLT_INJ_ARM: a write with ARM 1. -/
def execFltInjArm (a : RgAcc) (s : State) : Out :=
  regCmd s true 0x2020 (RgAcc.force a 15 true) (fun s p d => s.wrFltInj p d)

/-- FLT_INJ_DISARM: a write with ARM 0. -/
def execFltInjDisarm (a : RgAcc) (s : State) : Out :=
  regCmd s true 0x2020 (RgAcc.force a 15 false) (fun s p d => s.wrFltInj p d)

/-- FAULT_STATIC_TOGGLE (R400): every 512 REFCLK cycles while no F2 or F3 is uncleared and the block is out of
reset; a broken farrier leaves the pin static (R453). -/
def execFaultStaticToggle (s : State) : Out :=
  run s (!s.fenced && decide (s.pwr.phase = .run) && decide (s.pwr.staticAt + 512 ≤ s.now)) (fun s =>
    let t := { s with pwr := { s.pwr with faultStatic := !s.pwr.faultStatic, staticAt := s.now } }
    t.drive (.pins t.errOn (!t.errOn) t.pwr.faultStatic))

end Sys2Proof.Machine
end

