-- ==== Sys2Proof/Machine/Tables.lean ====
section
/-! DEFINITION. The banked and staged tables: writes to them, the checks that refuse an image, installation at a
lock cycle, the hold of the former bank, and the registers of identity and the partition fence (R16 to R25, R32,
R33, R156 to R160, R257, R269, R284 to R289). -/

namespace Sys2Proof.Machine

/-! ## The checks of an image (R17, R18, R33, R160, R257, R258, R269, R287 step 1) -/

/-- A word of a table copy as a number. -/
def tw (m : SMap Word) (off : Nat) : Nat := (tblGet m off).toNat

/-- The valid substitution entry at an offset breaks R17, R18 or the bound on coordinates. -/
def badSub (dim : Nat) (b : SMap Word) (off : Nat) : Bool :=
  let es := subEntries b
  es.any (fun e => decide (e.1 = off) && (es.any (fun x => decide (x.1 ≠ off) && decide (x.2.1 = e.2.1))
    || (!e.2.2.testBit 30 && (!inTorus dim (posOf e.2.2) || sharedPos dim es e.2.1 (posOf e.2.2)))))

/-- The exception entry at an offset breaks R257 or R258. -/
def badExc (b : SMap Word) (off : Nat) : Bool :=
  let w := tw b off
  let kind := fld w 1 2
  let dim := fld w 3 2
  let jd := fld w 5 3
  decide (kind = 3) || (decide (kind < 2) && decide (dim = 3)) || (decide (kind = 1) && (decide (6 ≤ jd) || decide (jd / 2 = dim)))
    || decide (fld w 8 6 = 0)

/-- The window at an offset breaks R33. -/
def badWindow (m : SMap Word) (off : Nat) : Bool :=
  let base := tw m off / 4096 * 4096 + fld (tw m (off + 4)) 0 14 * 2 ^ 32
  let sz := fld (tw m (off + 8)) 0 6
  let host := tw m (off + 12) / 4096 * 4096 + fld (tw m (off + 16)) 0 20 * 2 ^ 32
  let w5 := tw m (off + 20)
  let ilv := fld w5 4 4
  decide (sz < 12) || decide (46 < sz) || decide (base % 2 ^ sz ≠ 0) || decide (2 ^ 52 < host + 2 ^ sz)
    || decide (fld w5 8 16 = 0) || decide (8 < ilv) || decide (2 ^ sz < 2 ^ (8 + ilv))

/-- The towpath entry at an offset breaks the rules of its own fields (R269). -/
def badTow (m : SMap Word) (off : Nat) : Bool :=
  let w0 := tw m off
  let role := fld w0 1 2
  let ip := fld w0 4 4
  let op := fld w0 8 4
  let cr := fld w0 16 8
  let slots := decide (tw m (off + 16) ≠ 0) || decide (tw m (off + 20) ≠ 0)
  let key := fld (tw m (off + 4)) 0 16
  (match role with
    | 0 => decide (ip ≠ 15) || decide (12 ≤ op) || decide (cr = 0) || !slots
    | 1 => decide (12 ≤ ip) || decide (12 ≤ op) || decide (cr ≠ 0) || !slots
    | 2 => decide (12 ≤ ip) || decide (op ≠ 15) || decide (cr ≠ 0) || slots
    | _ => true)
    || decide (key = 0) || decide (key = 0xFFFF)

/-- The valid towpath entries of a copy, by offset. -/
def towEntries (m : SMap Word) : List Nat :=
  ((m.range 0xB000 0xC000).filter (fun e => decide (e.1 % 32 = 0) && e.2.toNat.testBit 0)).map (·.1)

/-- The valid towpath entry at an offset breaks a rule of R269, of its own or with the other valid entries; `share` is the
TOW share. -/
def badTowAt (m : SMap Word) (share off : Nat) : Bool :=
  let es := towEntries m
  let slots : Nat → Nat := fun o => tw m (o + 16) + tw m (o + 20) * 2 ^ 32
  let key := fun (o : Nat) => (fld (tw m o) 4 4, tw m (o + 8), tw m (o + 12))
  let ip := fld (tw m off) 4 4
  let op := fld (tw m off) 8 4
  let outs := es.filter (fun o => decide (fld (tw m o) 8 4 = op))
  let ins := es.filter (fun o => decide (fld (tw m o) 4 4 = ip) && decide (fld (tw m o) 1 2 ≠ 0))
  badTow m off || es.any (fun o => decide (o ≠ off) && decide (key o = key off))
    || (decide (op < 12) && (outs.any (fun o => decide (o ≠ off) && decide ((slots o : Nat) &&& slots off ≠ 0))
      || decide (56 < outs.foldl (fun a o => a + (setBits 64 (slots o)).length) 0)))
    || (decide (ip < 12) && decide (share < 2 * ins.length))

/-- The valid group entries of a copy, by number. -/
def grpEntries (m : SMap Word) : List Nat :=
  ((m.range 0x20000 0x24000).filter (fun e => decide (e.1 % 32 = 0) && e.2.toNat.testBit 0)).map (fun e => (e.1 - 0x20000) / 32)

/-- Words of group entry `g` and of the rank list in a copy. -/
def grpOf (m : SMap Word) (g i : Nat) : Nat := tw m (grpOff g + 4 * i)
/-- The rank list of a copy. -/
def rlOf (m : SMap Word) (i : Nat) : Nat := tw m (0x24000 + 4 * i)

/-- Group entry `g` of a copy breaks R160 at this block. -/
def State.badGrp (s : State) (m : SMap Word) (g : Nat) : Bool :=
  badGroup (grpOf m g) (rlOf m) s.ident.lo.toNat s.ident.hi.toNat s.ident.chip.toNat

/-- A bank of the routing tables passes. -/
def State.bankOk (s : State) (b : SMap Word) : Bool :=
  (subEntries b).all (fun e => !badSub (s.reg 0x120).toNat b e.1)
    && ((b.range 0x28000 0x2C000).filter (fun e => decide (e.1 % 16 = 0) && e.2.toNat.testBit 0)).all (fun e => !badExc b e.1)

/-- A copy of the drain-only tables passes. -/
def State.drainOk (s : State) (m : SMap Word) : Bool :=
  (List.range 16).all (fun k => !((tw m (0x1800 + 32 * k + 20)).testBit 0 && badWindow m (0x1800 + 32 * k)))
    && (towEntries m).all (fun o => !badTowAt m (s.rf 0x30C 16 8) o) && (grpEntries m).all (fun g => !s.badGrp m g)

/-- The other bank of the routing tables. -/
def State.otherBank (s : State) : SMap Word := s.bank (!s.tbl.cur)

/-- What is staged passes every check of step 1 of R287. -/
def State.stagingOk (s : State) : Bool := s.bankOk s.otherBank && s.drainOk s.tbl.staging

/-- What is staged changes a drain-only table (R288). -/
def State.stagingDrains (s : State) : Bool := decide (s.tbl.staging ≠ s.tbl.force)

/-! ## Installation (R159, R192, R285, R287 step 6) -/

/-- A copy in which the DIGEST of group entry `g` is computed (R159). -/
def digestIn (m : SMap Word) (g : Nat) : SMap Word :=
  let w0 := tblGet m (grpOff g)
  tblSet m (grpOff g) (BitVec.ofNat 32 (w0.toNat % 2 ^ 16 + put (grpDigest (grpOf m g) (rlOf m)) 16 16))

/-- The group entries of a copy that have been written, valid or not. -/
def grpWritten (m : SMap Word) : List Nat := ((m.range 0x20000 0x24000).map (fun e => (e.1 - 0x20000) / 32)).eraseDups

/-- The group entries that a write at an offset of the group table or rank list concerns. -/
def grpsAt (m : SMap Word) (off : Nat) : List Nat :=
  if 0x20000 ≤ off ∧ off < 0x24000 then [(off - 0x20000) / 32]
  else if 0x24000 ≤ off ∧ off < 0x28000 then
    let i := (off - 0x24000) / 4
    (grpWritten m).filter (fun g =>
      let b := fld (grpOf m g 1) 0 18
      (grpOf m g 0).testBit 1 && decide (b ≤ i) && decide (i < b + grpSize (grpOf m g)))
  else []

/-- The live state of a group entry resets (R192); an instance in progress ends for this member as at a generation
step. -/
def State.groupReset (s : State) (g : Nat) : State :=
  let s1 := match (s.group g).inst with
    | some _ => (s.collStop g 2 7 0 true).collTurn g
    | none => s
  { s1 with groups := SMap.set (fun _ => Group.reset) s1.groups g Group.reset }

/-- One routing-table word in both banks. -/
def Tables.both (t : Tables) (off : Nat) (w : Word) : Tables :=
  { t with bank0 := tblSet t.bank0 off w, bank1 := tblSet t.bank1 off w }

/-- One drain-only word in force and in staging, with the DIGEST of the entries concerned. -/
def Tables.direct (t : Tables) (off : Nat) (w : Word) : Tables :=
  let f := tblSet t.force off w
  let f' := (grpsAt f off).foldl digestIn f
  let g := tblSet t.staging off w
  { t with force := f', staging := (grpsAt g off).foldl digestIn g }

/-- One word in the other bank or the staging copy. -/
def Tables.stage (t : Tables) (off : Nat) (w : Word) : Tables :=
  if isRouting off then
    if t.cur then { t with bank0 := tblSet t.bank0 off w } else { t with bank1 := tblSet t.bank1 off w }
  else { t with staging := tblSet t.staging off w }

/-- The bit of a word that validates an entry: VALID, or EN of a window. -/
def validBit (off : Nat) : Option Nat :=
  if 0x1000 ≤ off ∧ off < 0x1800 then (if off % 8 = 0 then some 31 else none)
  else if 0x1800 ≤ off ∧ off < 0x1A00 then (if off % 32 = 20 then some 0 else none)
  else if 0x20000 ≤ off ∧ off < 0x24000 then (if off % 32 = 0 then some 0 else none)
  else if 0x28000 ≤ off ∧ off < 0x2C000 then (if off % 16 = 0 then some 0 else none)
  else if 0xB000 ≤ off ∧ off < 0xC000 then (if off % 32 = 0 then some 0 else none)
  else none

/-- The entry that a word at `off` validates breaks a check in the copy `m` (R33, R285). -/
def State.badEntry (s : State) (m : SMap Word) (off : Nat) : Bool :=
  if off < 0x1800 then badSub (s.reg 0x120).toNat m off
  else if off < 0x1A00 then badWindow m (off - 20)
  else if off < 0xC000 then badTowAt m (s.rf 0x30C 16 8) off
  else if off < 0x24000 then s.badGrp m ((off - 0x20000) / 32)
  else badExc m off

/-- WR_IGN of DX_EPOCH. -/
def State.epochIgn (s : State) : State := s.orReg 0x324 0x10

/-- Case 1 of R285: every link port OFF or FENCED and no bank in HOLD. -/
def State.directAll (s : State) : Bool :=
  (List.range 12).all (fun p => decide ((s.link p).st = .off) || decide ((s.link p).st = .fenced)) && decide (s.tbl.other ≠ .hold)

/-- Case 2 of R285: the partition is fenced here, and the word is of a window, a group entry, the rank list, or a
towpath entry whose PKEY is the block's. -/
def State.directPart (s : State) (off : Nat) (w : Word) : Bool :=
  isDrainOnly off && s.partFenced
    && (decide (off < 0xB000) || decide (0xC000 ≤ off)
      || decide ((if off % 32 = 4 then w.toNat % 2 ^ 16 else s.ff (off / 32 * 32 + 4) 0 16) = s.ident.pkey.toNat))

/-- An entry that is OFF with EN 1 and VALID starts (R273). -/
def State.towTry (s : State) (t : Nat) : State :=
  let x := s.tow t
  if x.st = .off ∧ x.en ∧ (s.force (0xB000 + 32 * t)).toNat.testBit 0 then s.modTow t (fun x => { x with st := .starting }) else s

/-- An entry whose W0 to W5 a lock cycle changes is OFF at the swap; it keeps EN (R274). -/
def State.towSwapped (s : State) (t : Nat) : State :=
  let x := s.tow t
  if x.st = .off then s else (s.towKill t).modTow t (fun y => { y with en := x.en || x.enPend })

/-- A direct installation of one word (R285). -/
def State.installWord (s : State) (off : Nat) (w : Word) : State :=
  let put1 := fun (t : State) (w : Word) => { t with tbl := if isRouting off then t.tbl.both off w else t.tbl.direct off w }
  let s1 := put1 s w
  let m := if isRouting off then s1.bank s1.tbl.cur else s1.tbl.force
  let bad := match validBit off with
    | some b => w.toNat.testBit b && s.badEntry m off
    | none => false
  let s2 := match validBit off with
    | some b => if bad then (put1 s (forceBit w b false)).epochIgn else s1
    | none => s1
  let s3 := (grpsAt s2.tbl.force off).foldl (fun t g => t.groupReset g) s2
  if off < 0x1800 then s3.resendParams
  else if 0xB000 ≤ off ∧ off < 0xC000 then s3.towTry ((off - 0xB000) / 32) else s3

/-- A write of a table word by a writer that may: installed directly (R285), or staged while OTHER is IDLE and PHASE
is 0 (R284). A window never becomes enabled against R33. -/
def State.wrTable (s : State) (off : Nat) (priv : Bool) (d : Word) : State :=
  if ¬ priv then s
  else
    let w := d &&& tblMask off
    if s.directAll ∨ s.directPart off w then s.installWord off w
    else if s.tbl.other = .idle ∧ s.tbl.phase = .none then
      let t := s.tbl.stage off w
      let bad := decide (0x1800 ≤ off) && decide (off < 0x1A00) && decide (off % 32 = 20) && w.toNat.testBit 0
        && badWindow t.staging (off - 20)
      { s with tbl := if bad then s.tbl.stage off (forceBit w 0 false) else t }
    else s.epochIgn

/-- A table word as RG reads it: in force, or with VIEW 0 the other bank and the staging copy (R284). -/
def State.readTable (s : State) (off : Nat) : Word :=
  let view := (s.reg 0x324).toNat.testBit 3
  if isRouting off then tblGet (if view then s.bank s.tbl.cur else s.otherBank) off
  else tblGet (if view then s.tbl.force else s.tbl.staging) off

/-- The drain-only tables as they will be in force after the swap: with the DIGEST of every entry that the staging or the
copy in force has written (R159). -/
def State.stagedForce (s : State) : SMap Word :=
  (grpWritten s.tbl.staging ++ grpWritten s.tbl.force).eraseDups.foldl digestIn s.tbl.staging

/-- Group entries in which two copies differ. -/
def changedGrps (old new : SMap Word) : List Nat :=
  (List.range 512).filter (fun g => (List.range 7).any (fun i => decide (tblGet old (grpOff g + 4 * i) ≠ tblGet new (grpOff g + 4 * i))))

/-- Towpath entries of which two copies differ in W0 to W5. -/
def changedTows (old new : SMap Word) : List Nat :=
  (List.range 128).filter (fun t => (List.range 6).any (fun i => decide (tblGet old (0xB000 + 32 * t + 4 * i) ≠ tblGet new (0xB000 + 32 * t + 4 * i))))

/-- A group entry that the staged tables change has an instance in progress (R192, R287 step 5). -/
def State.stagedBusy (s : State) : Bool :=
  (changedGrps s.tbl.force s.stagedForce).any (fun g => (s.group g).inst.isSome)

/-- Staging put in force and CUR inverted, in one step (R287 step 6, R288). `epoch`: the former bank enters HOLD. -/
def State.swapTables (s : State) (epoch : Bool) : State :=
  let old := s.tbl.force
  let new := s.stagedForce
  let changed := changedGrps old new
  let s1 := { s with tbl := { s.tbl with
    cur := !s.tbl.cur
    other := if epoch then .hold else .idle
    phase := .swapped
    force := new
    staging := new
    holdAt := s.now } }
  let s2 := (changedTows old new).foldl (fun t e => t.towSwapped e) (changed.foldl (fun t g => t.groupReset g) s1)
  s2.resendParams

/-- What is staged is discarded: the copies are those in force again, a READY bank is IDLE (R473 MB_IMG_DROP). -/
def State.dropStaging (s : State) : State :=
  { s with tbl := { s.tbl with
      other := if s.tbl.other = .ready then .idle else s.tbl.other
      phase := if s.tbl.phase = .staged then .none else s.tbl.phase
      staging := s.tbl.force
      bank0 := if s.tbl.cur ∧ s.tbl.other ≠ .hold then s.tbl.bank1 else s.tbl.bank0
      bank1 := if ¬ s.tbl.cur ∧ s.tbl.other ≠ .hold then s.tbl.bank0 else s.tbl.bank1 } }

/-- EPOCH_HOLD_EXPIRE (R289): the former bank is IDLE, and packets of its epoch held here are discarded. -/
def execEpochHoldExpire (s : State) : Out :=
  run s (decide (s.tbl.other = .hold) && decide (s.tbl.holdAt + nsTicks (1000000 * max 2 (s.rf 0x320 8 8)) ≤ s.now)) (fun s =>
    ({ s with tbl := { s.tbl with other := .idle } }).discardHeld (fun h => decide (h.pkt.epoch ≠ s.tbl.cur)))

/-! ## Identity (R19, R24) -/

/-- A write of DX_CHIP_NUM. -/
def State.wrChip (s : State) (priv : Bool) (d : Word) : State :=
  if priv then
    { s with ident := { s.ident with chip := BitVec.ofNat 18 d.toNat, valid := d.toNat.testBit 31 } }.resendParams
  else s

/-- A write of DX_PART_LO or DX_PART_HI: only while the partition is fenced here. -/
def State.wrPartLim (s : State) (hi priv : Bool) (d : Word) : State :=
  if priv ∧ s.partFenced then
    { s with ident := if hi then { s.ident with hi := BitVec.ofNat 18 d.toNat } else { s.ident with lo := BitVec.ofNat 18 d.toNat } }
  else s

/-- A write of DX_TORUS_DIM: the coordinate map changes (R311); numbers that would share a position resolve to none
(R18). -/
def State.wrTorus (s : State) (priv : Bool) (d : Word) : State :=
  if priv then (s.plainWrite 0x120 priv d).resendParams else s

/-! ## The partition fence (R25) -/

/-- A write of DX_PFENCE: EN 0 lets held RA accesses proceed. -/
def State.wrPfence (s : State) (priv : Bool) (d : Word) : State :=
  if ¬ priv then s
  else if d.toNat.testBit 0 then { s with pfence := true }
  else { s with pfence := false }.raRelease

/-- PFENCE_SET: a write with EN 1. -/
def execPfenceSet (a : RgAcc) (s : State) : Out :=
  regCmd s true 0x124 (RgAcc.force a 0 true) (fun s p d => s.wrPfence p d)

/-- PFENCE_LIFT: a write with EN 0. -/
def execPfenceLift (a : RgAcc) (s : State) : Out :=
  regCmd s true 0x124 (RgAcc.force a 0 false) (fun s p d => s.wrPfence p d)

end Sys2Proof.Machine
end

