-- ==== Sys2Proof/Machine/Observe.lean ====
section
/-! DEFINITION. Observation: gait, logbooks, congestion maps and the lifetime record (R395, R488, R496 to R507). -/

namespace Sys2Proof.Machine

/-! ## Gait (R496) -/

/-- GAIT_INTERVAL: a completed 1 ms interval with its mean, and the mean of the last 1 µs. -/
def execGaitInterval (mean inst : Nat) (s : State) : Out :=
  run s true (fun s =>
    let m := min mean 65535
    let s1 := s.setReg 0x32000 (BitVec.ofNat 32 (m + put (min inst 65535) 16 16))
    let s2 := s1.setReg 0x32004 (BitVec.ofNat 32 (min m (s.rf 0x32004 0 16) + put (max m (s.rf 0x32004 16 16)) 16 16))
    let low := match s.life.secLow with
      | some x => min x m
      | none => m
    let s3 : State := { s2 with life := { s2.life with secLow := some low } }
    let s4 := if m < 950 then (s3.incReg 0x32008).raise 0x06 0 0 else s3
    if m < s.rf 0x3200C 0 16 then s4.emit (0x93 + put m 8 16) else s4)

/-! ## Logbooks (R497 to R501) -/

/-- A register of logbook `n`. -/
def logReg (n off : Nat) : Nat := 0x32100 + 0x40 * n + off

/-- Add to LOST, saturating. -/
def State.logLost (s : State) (n k : Nat) : State :=
  s.setReg (logReg n 0x24) (BitVec.ofNat 32 (min (2 ^ 32 - 1) ((s.reg (logReg n 0x24)).toNat + k)))

/-- Logbook `n` enters STARTING: SRAM, RSEQ, PROD, STOPPED and FROZEN cleared, BASE, RING and CHMASK read. LB writes of
its last life still unanswered belong to no logbook any more (number 4). -/
def State.logStart (s : State) (n : Nat) : State :=
  let r := s.rf (logReg n 0) 8 5
  { s with lbOut := s.lbOut.map (fun m => if m = n then 4 else m) }.modLog n (fun l => { l with
    st := .starting, enPend := false, stopped := false, frozen := false, recs := [], sent := [], rseq := 0, prod := 0
    base := ((s.reg (logReg n 0x10)).toNat + s.rf (logReg n 0x14) 0 20 * 2 ^ 32) / 64 * 64
    ring := if 6 ≤ r ∧ r ≤ 24 then r else 6
    chmask := BitVec.ofNat 64 ((s.reg (logReg n 8)).toNat + (s.reg (logReg n 0xC)).toNat * 2 ^ 32) })

/-- Logbook `n` reaches OFF: EV_LOG_OFF; a held enable starts it. `lose`: what it holds is lost. -/
def State.logOff (s : State) (n : Nat) (lose : Bool) : State :=
  let l := s.log n
  let s1 := if lose then (s.logLost n l.recs.length).modLog n (fun l => { l with recs := [] }) else s
  let s2 := (s1.modLog n (fun l => { l with st := .off, enPend := false })).emit
    (0x92 + put n 8 2 + put (s1.reg (logReg n 0x24)).toNat 32 32)
  if l.enPend then s2.logStart n else s2

/-- A draining logbook that holds nothing and has every write answered is OFF; a stopped one loses what it holds. -/
def State.logDrained (s : State) (n : Nat) : State :=
  let l := s.log n
  if l.st ≠ .draining then s
  else if l.stopped then s.logOff n true
  else if l.recs = [] ∧ l.sent = [] then s.logOff n false
  else s

/-- EN written. -/
def State.logEn (s : State) (n : Nat) (on : Bool) : State :=
  let l := s.log n
  match on, l.st with
  | true, .off => s.logStart n
  | true, .draining => s.modLog n (fun l => { l with enPend := true })
  | false, .draining => s.modLog n (fun l => { l with enPend := false })
  | false, .on =>
    if s.flight n then s.logOff n false
    else if l.stopped then s.logOff n true
    else (s.modLog n (fun l => { l with st := .draining, fullAt := s.now })).logDrained n
  | false, .starting => s.logOff n false
  | _, _ => s

/-- PROD, the writes not yet answered, and CONS leave room in the host ring (R500). -/
def State.logRoom (s : State) (n : Nat) : Bool :=
  let l := s.log n
  let ahead := (l.prod.toNat + l.sent.length + 2 ^ 32 - (s.reg (logReg n 0x1C)).toNat) % 2 ^ 32
  decide (ahead < 2 ^ l.ring)

/-- Logbook `n` may write a granule of `k` records. -/
def State.logCan (s : State) (n k : Nat) : Bool :=
  let l := s.log n
  decide (n < 4) && (decide (l.st = .on) || decide (l.st = .draining)) && !s.flight n && !l.stopped
    && decide (k ≤ l.recs.length) && decide (s.lbOut.length < 64) && s.logRoom n

/-- A record as 32 bytes. -/
def LogRec.bits (r : LogRec) : Nat := r.q0.toNat + r.q1.toNat * 2 ^ 64 + r.q2.toNat * 2 ^ 128 + r.q3.toNat * 2 ^ 192

/-- Write the oldest `k` records as one granule, padded (R500). An injected uncorrectable word drops its record,
which counts as lost (R427). -/
def State.logWrite (s0 : State) (n k : Nat) : State :=
  let (bad, s) := s0.takeEcc 0x16 n 1 0 0xFF
  let l := s.log n
  let out := l.recs.take k
  if bad then ((s.modLog n (fun l => { l with recs := l.recs.drop 1, singleAt := s.now })).logLost n 1).logDrained n
  else
    let a := l.base + 64 * ((l.prod.toNat + l.sent.length) % 2 ^ l.ring)
    let d := (out.getD 0 ⟨0, 0, 0, 0⟩).bits + (out.getD 1 ⟨0, 0, 0, 0⟩).bits * 2 ^ 256
    let s1 := s.modLog n (fun l => { l with recs := l.recs.drop k, sent := l.sent ++ [out.length], fullAt := s.now })
    ({ s1 with lbOut := s1.lbOut ++ [n] }.drive (.lbWrite a (BitVec.ofNat 512 d) (granCrc (d % 2 ^ 512)))).moved 21

/-- LOG_DRAIN_WRITE: a granule of two records. -/
def execLogDrainWrite (n : Nat) (s : State) : Out := run s (s.logCan n 2) (fun s => s.logWrite n 2)

/-- LOG_PAD_TIMEOUT: a single record that has waited 4 µs goes with a PAD record. -/
def execLogPadTimeout (n : Nat) (s : State) : Out :=
  run s (s.logCan n 1 && decide ((s.log n).recs.length = 1) && decide ((s.log n).singleAt + nsTicks 4000 ≤ s.now))
    (fun s => s.logWrite n 1)

/-- A write of DX_LOG{n}_CTL: MODE changes only while OFF (R499). -/
def State.wrLogCtl (s : State) (n : Nat) (priv : Bool) (d : Word) : State :=
  let was := (s.reg (logReg n 0)).toNat.testBit 1
  let d' := if (s.log n).st = .off then d else forceBit d 1 was
  let s1 := (s.plainWrite (logReg n 0) priv d').logEn n (d.toNat.testBit 0)
  if d.toNat.testBit 2 ∧ s1.logCan n 1 ∧ (s1.log n).recs.length = 1 then s1.logWrite n 1 else s1

/-- LOG_ENABLE: a write with EN 1. -/
def execLogEnable (n : Nat) (a : RgAcc) (s : State) : Out :=
  regCmd s (decide (n < 4)) (logReg n 0) (RgAcc.force a 0 true) (fun s p d => s.wrLogCtl n p d)

/-- LOG_DISABLE: a write with EN 0. -/
def execLogDisable (n : Nat) (a : RgAcc) (s : State) : Out :=
  regCmd s (decide (n < 4)) (logReg n 0) (RgAcc.force a 0 false) (fun s p d => s.wrLogCtl n p d)

/-- LOG_FLUSH: a write with FLUSH 1. -/
def execLogFlush (n : Nat) (a : RgAcc) (s : State) : Out :=
  regCmd s (decide (n < 4)) (logReg n 0) (RgAcc.force a 2 true) (fun s p d => s.wrLogCtl n p d)

/-- LOG_STARTED: ON within 64 handshakes. -/
def execLogStarted (n : Nat) (s : State) : Out :=
  run s (decide (n < 4) && decide ((s.log n).st = .starting)) (fun s => s.modLog n (fun l => { l with st := .on }))

/-- LOG_DRAIN_TIMEOUT: the host ring has stayed full for a hang window. -/
def execLogDrainTimeout (n : Nat) (s : State) : Out :=
  run s (decide (n < 4) && decide ((s.log n).st = .draining) && !s.logRoom n && decide ((s.log n).fullAt + s.hangTicks ≤ s.now))
    (fun s => s.logOff n true)

/-- LB_WRITE_RESPONSE (R395, R501): the answer to the oldest LB write; statuses other than 0 count as ERR. -/
def execLbWriteResponse (sts : Nat) (s : State) : Out :=
  run s (decide (s.lbOut ≠ [])) (fun s =>
    match s.lbOut with
    | [] => s
    | n :: rest =>
      let s1 : State := { s with lbOut := rest }
      if 4 ≤ n then (if sts % 4 = 0 then s1 else s1.orReg 0xF0C 0x10000) else
      let k := (s1.log n).sent.headD 0
      let s2 := s1.modLog n (fun l => { l with sent := l.sent.drop 1, prod := if sts % 4 = 0 then l.prod + 1 else l.prod })
      if sts % 4 = 0 then s2.logDrained n
      else
        (((((s2.orReg 0xF0C 0x10000).orReg (logReg n 0x20) 0x10).logLost n k).modLog n (fun l => { l with stopped := true })).emit
          (0x91 + put n 8 2)).logDrained n)

/-- A write of DX_LOGWIN_SEL (R502): one held record into the window, zeros past HELD. -/
def State.wrLogWin (s : State) (priv : Bool) (d : Word) : State :=
  let s1 := s.plainWrite 0x32200 priv d
  let r := ((s1.log (s1.rf 0x32200 0 2)).recs.getD (s1.rf 0x32200 2 11) ⟨0, 0, 0, 0⟩).bits
  (List.range 8).foldl (fun t i => t.setReg (0x32220 + 4 * i) (BitVec.ofNat 32 (r / 2 ^ (32 * i)))) s1

/-- LOGWIN_SELECT. -/
def execLogwinSelect (a : RgAcc) (s : State) : Out :=
  regCmd s true 0x32200 a (fun s p d => s.wrLogWin p d)

/-! ## Congestion maps (R503, R504) -/

/-- The code of a link state in DX_LNK{p}_STAT (R318). -/
def linkCode : LinkSt → Nat
  | .off => 0
  | .training => 1
  | .active => 2
  | .retrain => 3
  | .draining => 4
  | .fenced => 5

/-- The interval in units of the time of day. -/
def State.cmapLen (s : State) : Nat :=
  let p := s.rf 0x32040 1 5
  2 ^ (if 4 ≤ p ∧ p ≤ 20 then p else 4) * 4000 * 3125

/-- The record of one port over the interval that ends. -/
def State.cmapRecord (s : State) (p idx : Nat) : State :=
  let c := SMap.get (fun _ => CmapAcc.reset) s.cmap p
  let l := s.link p
  let share := if c.flits = 0 then 0 else c.tow * 256 / c.flits
  s.record 4 6 p (idx % 2 ^ 16)
    (min c.flits (2 ^ 32 - 1) + put c.peak 32 5 + put c.pvc 37 3 + put (min share 255) 40 8 + put (linkCode l.st) 48 3
      + put l.teams.length 51 4)
    (min c.marked (2 ^ 32 - 1) + put c.cstall 32 32)

/-- CMAP_INTERVAL: the time of day has just passed a multiple of the interval. -/
def execCmapInterval (s : State) : Out :=
  run s ((s.reg 0x32040).toNat.testBit 0 && decide (s.tod % s.cmapLen < 80016)) (fun s =>
    let idx := s.tod / s.cmapLen
    let s1 := (List.range 12).foldl (fun t p =>
      if (t.reg 0x32040).toNat.testBit (6 + p) ∧ (t.link p).st ≠ .off then t.cmapRecord p idx else t) s
    { s1 with cmap := [] })

/-! ## The lifetime record (R505 to R507) -/

/-- Add to a field of the live lifetime body, saturating. -/
def State.lifeAdd (s : State) (off n : Nat) : State :=
  { s with life := { s.life with
      live := SMap.set (fun _ => 0) s.life.live off (BitVec.ofNat 32 (min (2 ^ 32 - 1) ((s.lifeWord off).toNat + n))) } }

/-- Add one to a 64-bit field of the live lifetime body, saturating. -/
def State.lifeInc64 (s : State) (off : Nat) : State :=
  let v := min (2 ^ 64 - 1) ((s.lifeWord off).toNat + (s.lifeWord (off + 4)).toNat * 2 ^ 32 + 1)
  let put1 := fun (t : State) (o x : Nat) =>
    { t with life := { t.life with live := SMap.set (fun _ => 0) t.life.live o (BitVec.ofNat 32 x) } }
  put1 (put1 s off v) (off + 4) (v / 2 ^ 32)

/-- The bin of GAIT_HIST. -/
def gaitBin (m : Nat) : Nat := if m < 850 then 0 else min 15 ((m - 800) / 50)

/-- Figures of merit of the positions in use of a team. -/
def Team.inUse (x : Team) : List Nat :=
  ((lanePositions.filter (fun i => decide (x.spareFor ≠ some i))) ++ (if x.spareFor.isSome then [8] else [])).map (fun i => (x.lane i).fom)

/-- The bin of FOM_HIST. -/
def State.fomBin (s : State) (t : Nat) : Nat :=
  let l := (s.team t).inUse
  let m := l.foldl min 255
  let tr := s.fomTrain t
  if l.any (fun f => decide (f = 0)) then 7
  else if m < s.fomFail t then 0
  else if m < s.fomSwap t then 1
  else if m < tr then 2
  else if m < tr + 16 then 3
  else if m < tr + 32 then 4
  else if m < tr + 48 then 5
  else 6

/-- LIFE_SECOND: one second of life. -/
def execLifeSecond (s : State) : Out :=
  run s true (fun s =>
    let s1 := s.lifeInc64 0x008
    let s2 := if (List.range 12).any (fun p => decide ((s.link p).st = .active)) then s1.lifeInc64 0x010 else s1
    let s3 := match s.life.secLow with
      | some m => s2.lifeInc (0x020 + 4 * gaitBin m)
      | none => s2
    let s4 := (List.range 16).foldl (fun t k =>
      if (t.team k).st = .usable then t.lifeInc (0x080 + 32 * k + 4 * t.fomBin k) else t) s3
    { s4 with life := { s4.life with secLow := none } })

/-- A word of the live body as a snapshot holds it. -/
def State.lifeBody (s : State) (off : Nat) : Word :=
  if off = 0 then 1
  else if off = 4 then 0x7E13D320
  else if 0x280 ≤ off ∧ off < 0x680 then
    let (a, b, c, d) := s.life.spare.getD ((off - 0x280) / 16) (0, 0, 0, 0)
    match (off / 4) % 4 with
    | 0 => a
    | 1 => b
    | 2 => c
    | _ => d
  else if off = 0x680 then BitVec.ofNat 32 s.life.spare.length
  else s.lifeWord off

/-- The offsets of the body. -/
def lifeOffs : List Nat := (List.range 418).map (fun i => 4 * i)

/-- CRC-32C over a body in offset order. -/
def lifeCrc (w : Nat → Word) : Word := BitVec.ofNat 32 (crc32c (lifeOffs.flatMap (fun o => leBytes 4 (w o).toNat)))

/-- SNAP (R506). -/
def State.lifeSnap (s : State) : State :=
  let snap := lifeOffs.foldl (fun m o => SMap.set (fun _ => 0) m o (s.lifeBody o)) []
  { s with life := { s.life with snap := snap, crc := lifeCrc s.lifeBody } }

/-- OPEN (R507): only during start-up and once. -/
def State.lifeOpen (s : State) : State :=
  if s.flt.capStart ∧ s.life.rstate = .none then { s with life := { s.life with rstate := .open_, body := s.life.snap } } else s

/-- A word of the body being restored. -/
def State.lifeNew (s : State) (off : Nat) : Word := SMap.get (fun _ => 0) s.life.body off

/-- COMMIT (R507): the checks, then written values and counts since cold reset are joined. -/
def State.lifeCommit (s : State) : State :=
  if s.life.rstate ≠ .open_ then s
  else if s.life.crc ≠ lifeCrc s.lifeNew ∨ s.lifeNew 0 ≠ 1 ∨ (s.lifeNew 4).toNat / 2 ^ 12 ≠ 0x7E13D then
    { s with life := { s.life with rstate := .refused, body := [] } }
  else
    let held := min 64 (fld (s.lifeNew 0x680).toNat 0 7)
    let old := (List.range held).map (fun e =>
      let o := 0x280 + 16 * e
      (s.lifeNew o, s.lifeNew (o + 4), s.lifeNew (o + 8), s.lifeNew (o + 12)))
    let log := old ++ s.life.spare
    let wide := [0x008, 0x010]
    let one := lifeOffs.filter (fun o => decide (0x018 ≤ o) && (decide (o < 0x280) || decide (o = 0x684)))
    let s1 := one.foldl (fun t o => t.lifeAdd o (s.lifeNew o).toNat) s
    let s2 := wide.foldl (fun t o =>
      let v := min (2 ^ 64 - 1) ((t.lifeWord o).toNat + (t.lifeWord (o + 4)).toNat * 2 ^ 32
        + (s.lifeNew o).toNat + (s.lifeNew (o + 4)).toNat * 2 ^ 32)
      { t with life := { t.life with
          live := SMap.set (fun _ => 0) (SMap.set (fun _ => 0) t.life.live o (BitVec.ofNat 32 v)) (o + 4) (BitVec.ofNat 32 (v / 2 ^ 32)) } }) s1
    { s2 with life := { s2.life with rstate := .restored, body := [], spare := log.drop (log.length - 64) } }

/-- A write of DX_LIFE_CTL. -/
def State.wrLifeCtl (s : State) (d : Word) : State :=
  let s1 := if d.toNat.testBit 0 then s.lifeSnap else s
  let s2 := if d.toNat.testBit 1 then s1.lifeOpen else s1
  if d.toNat.testBit 2 then s2.lifeCommit else s2

/-- A write of DX_LIFE_CRC or of a body word: only while restoration is OPEN. -/
def State.wrLifeBody (s : State) (off : Nat) (d : Word) : State :=
  if s.life.rstate ≠ .open_ then s
  else if off = 0x34004 then { s with life := { s.life with crc := d } }
  else { s with life := { s.life with body := SMap.set (fun _ => 0) s.life.body (off - 0x34100) d } }

/-- LIFE_SNAP: a write with SNAP 1. -/
def execLifeSnap (a : RgAcc) (s : State) : Out :=
  regCmd s true 0x34000 (RgAcc.force a 0 true) (fun s _ d => s.wrLifeCtl d)

/-- LIFE_OPEN: a write with OPEN 1. -/
def execLifeOpen (a : RgAcc) (s : State) : Out :=
  regCmd s true 0x34000 (RgAcc.force a 1 true) (fun s _ d => s.wrLifeCtl d)

/-- LIFE_COMMIT: a write with COMMIT 1. -/
def execLifeCommit (a : RgAcc) (s : State) : Out :=
  regCmd s true 0x34000 (RgAcc.force a 2 true) (fun s _ d => s.wrLifeCtl d)

end Sys2Proof.Machine
end

