-- ==== Sys2Proof/Machine/Power.lean ====
section
/-! DEFINITION. Resets, the self-check, repair data, and test access (R511 to R532, R418). -/

namespace Sys2Proof.Machine

/-! ## What survives (R418, R525) -/

/-- What no reset touches in this model: the queue, the time base, the free values, and fuses, pins and test
access. -/
def State.base (s : State) : State :=
  { State.reset with pending := s.pending, out := s.out, free := s.free, now := s.now, pwr := s.pwr }

/-- Stored words of `s` at the offsets that satisfy `which`. -/
def State.keepRegs (s t : State) (which : Nat → Bool) : State :=
  (s.rg.filter (fun e => which e.1)).foldl (fun u e => u.setReg e.1 e.2) t

/-- Registers that a cold reset keeps: DX_FLT_FIRST while a source is FATAL (R418). -/
def isFirst (off : Nat) : Bool := decide (0x2014 ≤ off) && decide (off < 0x2020)

/-- Stored words that a warm reset keeps whole (R418, R488, R525): repairs, DX_FLT_FIRST, counts, sticky bits and
capture records, the crossbar, counters and attribution, gait, and LOST of the logbooks. -/
def isWarm (off : Nat) : Bool :=
  decide (off = 0x18) || isFirst off || decide (off = 0x2100) || (decide (0x2200 ≤ off) && decide (off < 0x3000))
    || (decide (0x30000 ≤ off) && decide (off < 0x30C00)) || (decide (0x32000 ≤ off) && decide (off ≤ 0x32008))
    || [0, 1, 2, 3].any (fun n => decide (off = logReg n 0x24))

/-- The block after a cold reset's self-check: FATAL sources stay, and ACTING stays until TAKEBACK (R418, R452). -/
def State.afterCold (s : State) : State :=
  let fatal := s.flt.src.filter (fun e => decide (e.2.st = .fatal))
  let t := { s.base with
    flt := { State.reset.flt with src := fatal }
    far := { State.reset.far with acting := s.far.acting, abortSent := s.far.abortSent, opened := s.far.opened,
                                  lastCmd := s.far.lastCmd, ncmd := s.far.ncmd }
    life := { State.reset.life with live := SMap.set (fun _ => 0) [] 0x018 1 }
    pwr := { s.pwr with warms := 0 } }
  if fatal = [] then t else s.keepRegs t isFirst

/-- The units as a warm self-check leaves them: ON where EN is 1 and the unit is neither standby nor FAULTED
(R221, R525). -/
def State.warmUnits (s t : State) : State :=
  (List.range 17).foldl (fun u n =>
    let bad := (s.unit n).faulted
    u.modUnit n (fun x => { x with
      st := if !bad && decide (s.unitSpare ≠ n) then .on else .off, faulted := bad, enPend := false })) t

/-- The block after a warm reset's self-check (R418, R469, R501, R525). -/
def State.afterWarm (s : State) : State :=
  let t : State := { s.base with
    tod := s.tod
    flt := { s.flt with capStart := true, capTest := false, armed := none }
    far := { State.reset.far with acting := s.far.acting, abortSent := s.far.abortSent, opened := s.far.opened,
                                  lastCmd := s.far.lastCmd, ncmd := s.far.ncmd }
    life := s.life
    logs := s.logs.filterMap (fun e =>
      if s.flight e.1 ∧ e.2.recs ≠ [] then some (e.1, { Log.reset with recs := e.2.recs, rseq := e.2.rseq }) else none)
    mc := { Core.reset with
      restarts := s.mc.restarts, ram := s.mc.ram, kx := s.mc.kx, fc := s.mc.fc, fd := s.mc.fd, entry := s.mc.entry
      digest := s.mc.digest, initData := s.mc.initData, svn := s.mc.svn, fwver := s.mc.fwver, serial := s.mc.serial }
    pwr := { s.pwr with warms := min 255 (s.pwr.warms + 1), cause := s.pwr.warmCause } }
  let t1 := s.keepRegs t isWarm
  let t2 := (t1.putField 0x2004 0 8 (s.rf 0x2004 0 8)).putField 0x2004 12 1 (s.rf 0x2004 12 1)
  let t3 := (List.range 17).foldl (fun u n => u.putField (0x190 + 4 * n) 8 8 (s.rf (0x190 + 4 * n) 8 8))
    (t2.putField 0x180 17 5 s.unitSpare)
  s.warmUnits t3

/-- The firmware after a warm reset: started against the stored digest, or BASIC with FW NONE (R469). The kernel's
watchdog counts from here (R429). -/
def State.bootFw (s : State) : State :=
  let s0 := { s with mc := { s.mc with wdogAt := s.now } }
  if s0.mc.fc = 0 ∨ s0.inF3 then s0
  else if s0.codeGood then (s0.startFw).setFw .basic .loading
  else s0.raise 0x78 0 1

/-! ## Resets (R518 to R522) -/

/-- Something holds the block in cold reset while PWR_OK is high (R522, R529, R530). -/
def Power.holds (p : Power) : Bool :=
  !p.rstN || decide (p.tapInst = 0x00) || decide (p.tapInst = 0x02) || p.wrappers.any (fun w => decide (w ≠ .bypass))

/-- Drive the pins of a block that is in reset or self-check: ERR_A 1, ERR_B 0, FAULT_STATIC low (R399, R520,
R522). -/
def State.resetPins (s : State) : State :=
  ({ s with pwr := { s.pwr with faultStatic := false } }).drive (.pins true false false)

/-- A cold reset begins: every link port that is not OFF sends fenced idle (R522). -/
def State.coldIdle (s : State) : State :=
  ((List.range 12).foldl (fun t p => if (t.link p).st = .off then t else t.modLink p (fun l => { l.discard with st := .fenced })) s).idlePorts

/-- A change of what holds the block: into cold reset, or out of it into a cold self-check. -/
def State.holdTurn (s : State) (was : Bool) : State :=
  let p := s.pwr
  if ¬ p.pwrOk then s
  else if p.holds ∧ ¬ was then ({ s with pwr := { p with phase := .held, cause := 1, scan := false, warmAt := s.now } }.coldIdle).resetPins
  else if was ∧ ¬ p.holds then { s with pwr := { p with phase := .check false } }.resetPins
  else s

/-- PWR_OK_FALL (R418, R518): everything is lost, and all fault sources are CLEAR. -/
def execPwrOkFall (s : State) : Out :=
  runAny s s.pwr.pwrOk (fun s =>
    let p := s.pwr
    ({ s.base with pwr := { Power.reset with
        pwrOk := false, rstN := p.rstN, phase := .off, tapInst := p.tapInst, boundary := p.boundary, wrappers := p.wrappers
        field := p.field, svnFuse := p.svnFuse, owner := p.owner, fused := p.fused, loopback := p.loopback
        hitch := p.hitch } }).resetPins)

/-- PWR_OK_RISE: the self-check starts unless a cold reset is held (R518). -/
def execPwrOkRise (s : State) : Out :=
  runAny s (!s.pwr.pwrOk) (fun s =>
    { s with pwr := { s.pwr with
      pwrOk := true, phase := if s.pwr.holds then .held else .check false, cause := 0, staticAt := s.now } })

/-- RST_N_FALL (R518, R522). -/
def execRstNFall (s : State) : Out :=
  runAny s s.pwr.rstN (fun s =>
    let was := s.pwr.holds
    ({ s with pwr := { s.pwr with rstN := false } }).holdTurn was)

/-- RST_N_RISE (R518). -/
def execRstNRise (s : State) : Out :=
  runAny s (!s.pwr.rstN) (fun s =>
    let was := s.pwr.holds
    ({ s with pwr := { s.pwr with rstN := true } }).holdTurn was)

/-- A warm reset is requested (R518, R520 steps 1 and 2): ignored during a reset, while PENDING is 1, and in F3. -/
def State.warmRequest (s : State) (cause : Nat) : State :=
  if s.pwr.phase ≠ .run ∨ s.inF3 then s
  else
    let pins := s.errOn
    let s1 := { s with pwr := { s.pwr with phase := .warmWait, warmAt := s.now, warmCause := cause } }
    let s2 := (List.range 12).foldl (fun t p => t.fencePort p 8) s1
    let s3 := (s2.chans.map (·.1)).foldl (fun t k => t.drainAll k false false) s2
    let s4 := ((s3.dropServed).raLoadsEnd 5 true).raRelease
    (s4.releaseCp).sayPins pins

/-- A write of DX_RESET_CTL (R519). -/
def State.wrResetCtl (s : State) (priv : Bool) (d : Word) : State :=
  if priv ∧ d.toNat.testBit 0 ∧ fld d.toNat 8 8 = 0xA5 then s.warmRequest 2 else s

/-- WARM_RESET_REQUEST: a write with WARM 1. -/
def execWarmResetRequest (a : RgAcc) (s : State) : Out :=
  regCmd s true 0x10 (RgAcc.force a 0 true) (fun s p d => s.wrResetCtl p d)

/-- Every issued HM request and LB write is answered. -/
def State.hostIdle (s : State) : Bool :=
  s.hm.all (fun e => decide (e.2.rdOut = []) && decide (e.2.wrOut = [])) && decide (s.lbOut = [])

/-- WARM_RESET_PROPER (R520 steps 3 and 4): all answered and 2 µs after the request at the earliest, 100 µs at the
latest. -/
def execWarmResetProper (s : State) : Out :=
  runAny s (decide (s.pwr.phase = .warmWait) && decide (s.pwr.warmAt + nsTicks 2000 ≤ s.now)
      && (s.hostIdle || decide (s.pwr.warmAt + nsTicks 100000 ≤ s.now))) (fun s =>
    { s with pwr := { s.pwr with phase := .check true } }.resetPins)

/-! ## Self-check (R523 to R527) -/

/-- The stage at which a self-check fails, in the order of R523: 1 march test, 2 ROM, 3 mutual test; 0 none. -/
def checkStage (r : SelfCheck) (warm : Bool) : Nat :=
  if r.bad.isSome ∧ ¬ warm then 1 else if ¬ r.romOk then 2 else if ¬ r.collectorOk then 3 else 0

/-- DX_REPAIR_STAT after a power-up or cold self-check (R527). -/
def State.repairStat (s : State) (r : SelfCheck) : State :=
  s.setReg 0x18 (BitVec.ofNat 32 (min 255 s.pwr.fused.length + put (min 255 r.soft.length) 8 8 + put (min 255 r.minSpare) 16 8
    + put (b2n (decide (192 ≤ s.pwr.fused.length))) 24 1))

/-- SELF_CHECK_DONE (R420, R469, R524, R525): on failure the block stays in self-check; otherwise it takes the state
of R525, in F3 if a source is still FATAL. -/
def execSelfCheckDone (r : SelfCheck) (s : State) : Out :=
  match s.pwr.phase with
  | .check warm => runAny s true (fun s =>
      let st := checkStage r warm
      if st ≠ 0 then
        { s with pwr := { s.pwr with phase := .failed, failStage := st, failArray := match r.bad with | some b => b.1 | none => 0 } }
      else
        let t := if warm then s.afterWarm
          else if s.pwr.cause = 0 then State.base s
          else s.afterCold
        let t1 : State := { t with pwr := { t.pwr with
          phase := .run, failStage := 0, failArray := 0, staticAt := s.now, soft := if warm then t.pwr.soft else r.soft } }
        let t2 := if warm then t1 else t1.repairStat r
        let t3 := t2.bootFw
        let t4 := if t3.fenced then t3.enterFault else t3
        t4.sayPins true)
  | _ => runAny s false (fun s => s)

/-! ## Test access (R529 to R532) -/

/-- The instruction register takes an instruction. -/
def State.tap (s : State) (inst : Byte) : State :=
  let was := s.pwr.holds
  ({ s with pwr := { s.pwr with tapInst := inst } }).holdTurn was

/-- The levels of the boundary pins: PWR_OK, RST_N, ERR_A, ERR_B, FAULT_STATIC, the hitch pins; the levels of the I2C
pins are free (DESIGN CHOICE, log 8). -/
def State.boundaryPins (s : State) : Nat :=
  b2n s.pwr.pwrOk + put (b2n s.pwr.rstN) 1 1 + put (b2n s.errOn) 2 1 + put (b2n (!s.errOn)) 3 1 + put (b2n s.pwr.faultStatic) 4 1
    + put s.pwr.hitch.toNat 5 39 + put (Sys2Proof.Config.freeValue s.free).toNat 44 16

/-- TAP_EXTEST: the boundary register drives the pins; the block is held in cold reset. -/
def execTapExtest (v : Quad) (s : State) : Out :=
  runAny s true (fun s => ({ s with pwr := { s.pwr with boundary := v } }).tap 0x00)

/-- TAP_SAMPLE_PRELOAD: the pins are captured and shifted out, the boundary register is preloaded. -/
def execTapSamplePreload (v : Quad) (s : State) : Out :=
  runAny s true (fun s =>
    (({ s with free := s.free + 1, pwr := { s.pwr with boundary := v } }).drive (.tdo s.boundaryPins)).tap 0x01)

/-- TAP_CLAMP: the outputs stand; the block is held in cold reset. -/
def execTapClamp (s : State) : Out := runAny s true (fun s => s.tap 0x02)
/-- TAP_WIR: the wrapper instruction registers are selected. -/
def execTapWir (s : State) : Out := runAny s true (fun s => s.tap 0x10)
/-- TAP_WDR: the selected wrapper data registers. -/
def execTapWdr (_chain : Nat) (s : State) : Out := runAny s true (fun s => s.tap 0x11)
/-- TAP_IJTAG: the instrument network is selected, and the instruments that are read in every lifecycle state give SELFCHK
(stage and array that failed), REPAIR (fused and soft repairs) and GAIT_REF, a free-running count whose value is free
(R531). -/
def execTapIjtag (s : State) : Out :=
  runAny s true (fun s =>
    ({ s with free := s.free + 1 }.drive
      (.instruments s.pwr.failStage s.pwr.failArray s.pwr.fused s.pwr.soft (Sys2Proof.Config.freeValue s.free))).tap 0x20)
/-- TAP_BYPASS: BYPASS, and every code that is not assigned. -/
def execTapBypass (code : Byte) (s : State) : Out :=
  runAny s (!([0x00, 0x01, 0x02, 0x10, 0x11, 0x20, 0x30].contains code)) (fun s => s.tap 0xFF)

/-- TAP_SCAN: only with RST_N low; in FIELD what holds partition data is zeroed first, the collector's sources
apart (R532). -/
def execTapScan (s : State) : Out :=
  runAny s (!s.pwr.rstN) (fun s =>
    let t := if s.pwr.field then { s.base with flt := s.flt, far := s.far, rg := s.rg.filter (fun e => isFirst e.1) } else s
    ({ t with pwr := { t.pwr with scan := true } }).tap 0x30)

/-- WRAPPER_MODE (R530): any mode but WS_BYPASS holds the block in cold reset. -/
def execWrapperMode (w : Nat) (mode : WrapMode) (s : State) : Out :=
  runAny s (decide (w < 5)) (fun s =>
    let was := s.pwr.holds
    ({ s with pwr := { s.pwr with wrappers := setAt s.pwr.wrappers w mode } }).holdTurn was)

/-- The instruments of the network are reached. -/
def State.ijtag (s : State) : Bool := decide (s.pwr.tapInst = 0x20)

/-- IJTAG_BIST (R531): in MANUFACTURE and with the block held in cold reset; the arrays' contents are lost, as at
the end of that reset in any case. -/
def execIjtagBist (_array : Nat) (s : State) : Out :=
  runAny s (s.ijtag && !s.pwr.field && decide (s.pwr.phase = .held)) (fun s =>
    { s with free := s.free + 1 }.drive (.tdo ((Sys2Proof.Config.freeValue s.free).toNat % 2)))

/-- IJTAG_FUSE (R531): fuses are blown and never cleared; in FIELD only SVN bits, and an owner key digest while none
is programmed. At most 192 repairs (R526). -/
def execIjtagFuse (f : FuseOp) (s : State) : Out :=
  runAny s s.ijtag (fun s =>
    let p := s.pwr
    match f with
    | .svn bits => { s with pwr := { p with svnFuse := p.svnFuse ||| bits % 256 } }
    | .ownerKey d =>
      match p.owner with
      | none => { s with pwr := { p with owner := some d } }
      | some old => if p.field then s else { s with pwr := { p with owner := some (old ||| d) } }
    | .lifecycle st => if ¬ p.field ∧ st = 1 then { s with pwr := { p with field := true } } else s
    | .repair a r =>
      if p.field ∨ 192 ≤ p.fused.length then s else { s with pwr := { p with fused := p.fused ++ [(a, r)] } })

/-- IJTAG_LANE_LB (R531): in MANUFACTURE, with the block held in cold reset. -/
def execIjtagLaneLb (t : Nat) (on : Bool) (s : State) : Out :=
  runAny s (s.ijtag && !s.pwr.field && decide (s.pwr.phase = .held) && decide (t < 16)) (fun s =>
    let l := s.pwr.loopback.filter (fun x => decide (x ≠ t))
    { s with pwr := { s.pwr with loopback := if on then insAsc t l else l } })

end Sys2Proof.Machine
end

