-- ==== Sys2Proof/Machine/Time.lean ====
section
/-! DEFINITION. The time of day: beacons and steering (R321, R481 to R485). -/

namespace Sys2Proof.Machine

/-- The difference of two 64-bit counters as a signed number. -/
def diff64 (a b : Nat) : Int := toSigned 64 ((a + 2 ^ 64 - b) % 2 ^ 64)

/-- Beacon exchange runs here: EN 1 and MASTER 0 (R483). -/
def State.beaconOn (s : State) : Bool := (s.reg 0xF048).toNat.testBit 0 && !(s.reg 0xF048).toNat.testBit 1

/-- A write of DX_TIME_CFG: EN 0 or MASTER 1 leaves FREE, EN written 1 with MASTER 0 enters ACQUIRE (R484). -/
def State.wrTimeCfg (s : State) (priv : Bool) (d : Word) : State :=
  let s1 := s.plainWrite 0xF048 priv d
  if s1.beaconOn then
    if s1.ts.st = .free then { s1.setTime .acquire with ts := { (s1.setTime .acquire).ts with t1 := none, at_ := s1.now } } else s1
  else { s1.setTime .free with ts := { (s1.setTime .free).ts with t1 := none } }

/-- The beacon interval in REFCLK cycles. -/
def State.beaconTicks (s : State) : Nat := nsTicks (1000 * max 1 (s.rf 0xF048 6 8))

/-- BEACON_INTERVAL (R483, R484): an interval ends; the next beacon goes out on PARENT if it is ACTIVE
and no compatibility port (R7, R322). The 16th
interval without a matched response ends LOCKED. -/
def execBeaconInterval (s : State) : Out :=
  run s (s.beaconOn && decide (s.ts.at_ + s.beaconTicks ≤ s.now)) (fun s =>
    let p := s.rf 0xF048 2 4
    let s1 := { s with ts := { s.ts with at_ := s.now, missed := if s.ts.t1.isSome then s.ts.missed + 1 else s.ts.missed } }
    let s2 := if s1.ts.st = .locked ∧ 16 ≤ s1.ts.missed then s1.setTime .holdover else s1
    if p < 12 ∧ (s2.link p).st = .active ∧ ¬ s2.portCompat p then
      let n := s2.ts.seq + 1
      ({ s2 with ts := { s2.ts with seq := n, t1 := some s2.time } }).sendUnseq p 3
        (ctlBody 0x30 (put n.toNat 32 16 + put s2.time 64 64))
    else s2)

/-- BEACON (R483): answered on the same port with T1 echoed, T2 and T3, whatever the own configuration, while
the port is ACTIVE (R309). -/
def execBeacon (p : Nat) (s : State) : Out :=
  let t2 := s.ctlTime p
  ctlRow p 0x30 (fun s b =>
    if (s.link p).st ≠ .active then s else s.sendUnseq p 3 (ctlBody 0x31 (put (fld b 32 16) 32 16 + put (fld b 64 64) 64 64 + put t2 128 64 + put s.time 192 64))) s

/-- Steering by an offset of θ units (R484). -/
def State.steerBy (s : State) (theta : Int) : State :=
  let near := decide (-8 < theta) && decide (theta < 8)
  let good := if near then s.ts.good + 1 else 0
  let corr := theta * 3125
  let set1 := fun (t : State) => { t with ts := { t.ts with good := good, missed := 0, t1 := none } }
  match s.ts.st with
  | .free => set1 s
  | .acquire =>
    if s.flt.capStart ∧ ¬ s.ts.stepped ∧ (theta ≤ -4000 ∨ 4000 ≤ theta) then
      let t := set1 s
      { t with tod := ((t.tod : Int) + corr).toNat, ts := { t.ts with stepped := true, corr := 0 } }
    else if 16 ≤ good then
      let t := (set1 s).setTime .locked
      { t with ts := { t.ts with corr := corr } }
    else
      let t := set1 s
      { t with ts := { t.ts with corr := corr } }
  | .locked =>
    let t := set1 s
    { t with free := t.free + 1, ts := { t.ts with corr := corr, freq := Sys2Proof.Config.freqTerm t.free } }
  | .holdover =>
    if ¬ near then (set1 s).setTime .acquire
    else if 16 ≤ good then
      let t := (set1 s).setTime .locked
      { t with ts := { t.ts with corr := corr } }
    else set1 s

/-- BEACON_RSP (R483): a response to the latest beacon gives θ and δ, and the counter is steered; any other is
discarded. -/
def execBeaconRsp (p : Nat) (s : State) : Out :=
  let t4 := s.ctlTime p
  ctlRow p 0x31 (fun s b =>
    match s.ts.t1 with
    | none => s
    | some t1 =>
      if ¬ s.beaconOn ∨ p ≠ s.rf 0xF048 2 4 ∨ fld b 32 16 ≠ s.ts.seq.toNat then s
      else
        let t2 := fld b 128 64
        let t3 := fld b 192 64
        let a := toSigned 16 (s.rf 0xF058 0 16)
        let theta := (diff64 t2 t1 - diff64 t4 t3 - a) / 2
        let delta := (diff64 t4 t1 - diff64 t3 t2) / 2
        ((s.setReg 0xF050 (BitVec.ofNat 32 (wrapInt 32 theta))).setReg 0xF054 (BitVec.ofNat 32 (wrapInt 32 delta))).steerBy theta) s

end Sys2Proof.Machine
end

