-- ==== Sys2Proof/Machine/I2c.lean ====
section
/-! DEFINITION. The I²C controllers (R362 to R364). -/

namespace Sys2Proof.Machine

/-- A register of controller `c`. -/
def i2cReg (c off : Nat) : Nat := 0xE000 + 0x100 * c + off

/-- The transaction in progress on controller `c`. -/
def State.i2cBusy (s : State) (c : Nat) : Option I2cBusy := SMap.get (fun _ => none) s.i2c c

/-- Set the transaction in progress on controller `c`. -/
def State.setI2c (s : State) (c : Nat) (x : Option I2cBusy) : State :=
  { s with i2c := SMap.set (fun _ => none) s.i2c c x }

/-- Bytes of the DATA buffer. -/
def State.i2cData (s : State) (c n : Nat) : List Byte :=
  ((List.range 32).flatMap (fun i => leBytes 4 (s.reg (i2cReg c (0x80 + 4 * i))).toNat)).take n

/-- Put bytes at the start of the DATA buffer. -/
def State.setI2cData (s : State) (c : Nat) (bs : List Byte) : State :=
  let old := s.i2cData c 128
  let all := bs ++ old.drop bs.length
  (List.range 32).foldl (fun t i => t.setReg (i2cReg c (0x80 + 4 * i)) (BitVec.ofNat 32 (leNat ((all.drop (4 * i)).take 4)))) s

/-- A transaction ends with a result and bytes transferred: DONE, EV_I2C_DONE (R364). -/
def State.i2cDone (s : State) (c result n : Nat) : State :=
  ((s.setI2c c none).setReg (i2cReg c 8)
    ((s.reg (i2cReg c 8) &&& 0x3000) ||| BitVec.ofNat 32 (put result 1 3 + put n 4 8 + 0x1000))).emit
    (0x50 + put c 8 3 + put result 12 3)

/-- GO: a transaction starts with the fields of CMD; BUSY ignores it, EN 0 or OP 3 ends it at once (R363, R364). -/
def State.i2cGo (s : State) (c : Nat) (mb : Option Asker) : State :=
  if (s.i2cBusy c).isSome then s.orReg (i2cReg c 8) 0x2000
  else
    let w := (s.reg (i2cReg c 4)).toNat
    let op := fld w 0 2
    let n := fld w 17 7 + 1
    if op = 3 ∨ ¬ (s.reg (i2cReg c 0)).toNat.testBit 0 then s.i2cDone c 6 0
    else
      (s.setI2c c (some ⟨op, fld w 2 7, fld w 9 8, n, mb⟩)).drive
        (.i2c c op (fld w 2 7) (fld w 9 8) n (if op = 0 then s.i2cData c n else []))

/-- A write of DX_I2C{c}_CMD. -/
def State.wrI2cCmd (s : State) (c : Nat) (priv : Bool) (d : Word) : State :=
  let s1 := s.plainWrite (i2cReg c 4) priv d
  if d.toNat.testBit 31 then s1.i2cGo c none else s1

/-- The rows of GO: the write with its OP. -/
def i2cRow (s : State) (c : Nat) (a : RgAcc) (op : Nat) : Out :=
  regCmd s (decide (c < 8)) (i2cReg c 4)
    (RgAcc.force (RgAcc.force (RgAcc.force a 31 true) 0 (decide (op % 2 = 1))) 1 (decide (op = 2))) (fun s p d => s.wrI2cCmd c p d)

/-- I2C_WRITE. -/
def execI2cWrite (c : Nat) (a : RgAcc) (s : State) : Out := i2cRow s c a 0
/-- I2C_READ. -/
def execI2cRead (c : Nat) (a : RgAcc) (s : State) : Out := i2cRow s c a 1
/-- I2C_READ_CUR. -/
def execI2cReadCur (c : Nat) (a : RgAcc) (s : State) : Out := i2cRow s c a 2

/-- The bytes that a read which failed after `n` of them left in DATA: free values (DESIGN CHOICE, log 26). -/
def State.i2cPart (s : State) (c n : Nat) (b : I2cBusy) : State :=
  if b.op = 0 ∨ n = 0 then s
  else
    { s with free := s.free + n }.setI2cData c
      ((List.range n).map (fun i => BitVec.ofNat 8 (Sys2Proof.Config.freeValue (s.free + i)).toNat))

/-- What a transaction's end leaves: RESULT, NDONE, the data read. -/
def State.i2cEnd (s : State) (c : Nat) (b : I2cBusy) (r : I2cEnd) : State :=
  match r with
  | .ok data => ((if b.op = 0 then s else s.setI2cData c (padTo b.n data))).i2cDone c 0 b.n
  | .nackAddr => s.i2cDone c 1 0
  | .nackData n => s.i2cDone c 2 (min n b.n)
  | .stuck => (s.raise 0x44 c 1).i2cDone c 4 0
  | .lost n => (s.i2cPart c (min n b.n) b).i2cDone c 5 (min n b.n)

end Sys2Proof.Machine
end

