-- ==== Sys2Proof/Machine/RegRead.lean ====
section
/-! DEFINITION. What a read of each register returns: the stored words with the live fields put over them, the
tables, and the latches of wide values (R94, R143, R488, R495, R533, R534, R538). -/

namespace Sys2Proof.Machine

/-- The code of a lifecycle state. -/
def lifeCode : Life → Nat
  | .off => 0
  | .starting => 1
  | .on => 2
  | .draining => 3

/-- The code of a bank state (R284). -/
def bankCode : BankSt → Nat
  | .idle => 0
  | .ready => 1
  | .hold => 2

/-- The code of a phase (R284). -/
def phaseCode : Phase → Nat
  | .none => 0
  | .staged => 1
  | .locked => 2
  | .swapped => 3

/-- The code of a source state (R413). -/
def srcCode : SrcSt → Nat
  | .clear => 0
  | .recovering => 1
  | .awaitAck => 2
  | .fatal => 3

/-- The code of a team state (R360). -/
def teamCode : TeamSt → Nat
  | .off => 0
  | .training => 1
  | .usable => 2
  | .dropped => 3
  | .retraining => 4
  | .failed => 5
  | .prbs => 6

/-- Word `i` of a 512-bit command word. -/
def cmdWordAt (w : CmdWord) (i : Nat) : Nat := fld w.toNat (32 * i) 32

/-! ## Live fields -/

/-- DX_COORD (R19). -/
def State.coordWord (s : State) : Nat :=
  if ¬ s.ident.valid then 0
  else
    match resolveIn (s.reg 0x120).toNat (s.bank s.tbl.cur) s.ident.chip.toNat with
    | some ((x, y, z), sub) => x + put y 8 6 + put z 16 6 + put (b2n sub) 30 1 + 2 ^ 31
    | none => 0

/-- DX_EPOCH (R284). -/
def State.epochWord (s : State) : Nat :=
  b2n s.tbl.cur + put (bankCode s.tbl.other) 1 2 + ((s.reg 0x324).toNat &&& 0x18) + put (phaseCode s.tbl.phase) 5 3
    + put s.tbl.cycle.toNat 16 16

/-- DX_RU_STAT{u} (R220). -/
def State.unitWord (s : State) (u : Nat) : Nat :=
  let x := s.unit u
  lifeCode x.st + put (b2n (decide (s.unitSpare = u) && decide (x.st = .off) && s.unitEn u)) 2 1 + put (b2n x.enPend) 3 1
    + put (b2n x.faulted) 4 1 + put (s.rf (0x190 + 4 * u) 8 8) 8 8

/-- DX_LNK{p}_STAT (R318); COMPAT is copied by the seal (R357). -/
def State.linkWord (s : State) (p : Nat) : Nat :=
  let l := s.link p
  linkCode l.st + put (b2n l.enPend) 3 1 + put (b2n (s.degraded p)) 4 1 + put (b2n l.mgtOnly) 5 1
    + put (b2n ((s.reg 0xC000).toNat.testBit 0 && s.portCompat p)) 6 1 + put l.teams.length 8 4 + put l.cause 12 4 + ((s.reg (lnkReg p 4)).toNat &&& 0x10080)

/-- DX_LNK{p}_PEER (R323). -/
def State.peerWord (s : State) (p : Nat) : Nat :=
  let l := s.link p
  put l.peer.chip 0 18 + put l.peer.dir 18 3 + put (min 1023 (l.rtt / 32)) 21 10 + put (b2n l.peer.valid) 31 1

/-- DX_HM{p}_STAT and DX_HM{p}_QUAR (R384). -/
def State.hmWord (s : State) (p off : Nat) : Nat :=
  let h := s.hmPort p
  if off = 4 then put h.rdOut.length 0 11 + put h.wrOut.length 16 11 + ((s.reg (0xE04 + 16 * p)).toNat &&& 0x38000000)
  else put h.rdQuar.length 0 11 + put h.wrQuar.length 16 11

/-- Sources in a state, saturating at 255. -/
def State.srcCount (s : State) (x : SrcSt) : Nat := min 255 (s.flt.src.filter (fun e => decide (e.2.st = x))).length

/-- DX_FLT_STATE (R414): the error pins follow their condition at once in this model (DESIGN CHOICE, log 27). -/
def State.fltWord (s : State) : Nat :=
  b2n s.inF2 + put (b2n s.inF3) 1 1 + put (b2n s.errOn) 2 1 + put (b2n (!s.errOn)) 3 1 + put (b2n s.capturing) 4 1
    + ((s.reg 0x2000).toNat &&& 0x20) + put (s.srcCount .recovering) 8 8 + put (s.srcCount .awaitAck) 16 8

/-- DX_FLT_SRC (R413). -/
def State.srcWord (s : State) : Nat :=
  let x := s.source (s.rf 0x200C 0 8) (s.rf 0x200C 8 6)
  srcCode x.st + put x.raises 2 4 + put (min 8 (x.recent s.time)) 6 4

/-- DX_FARRIER_STAT (R450). -/
def State.farWord (s : State) : Nat :=
  b2n s.far.acting + put (b2n s.far.abortSent) 2 1 + put (maskOf s.far.opened) 4 12 + put s.far.lastCmd.toNat 16 8
    + put (min 255 s.far.ncmd) 24 8

/-- DX_FENCE: the ports in a FENCED state entered by command (R445). -/
def State.fenceWord (s : State) : Nat :=
  maskOf ((List.range 12).filter (fun p => decide ((s.link p).st = .fenced) && decide ((s.link p).cause = 7)))

/-- DX_ABORT_STAT (R440). -/
def State.abortWord (s : State) : Nat :=
  ((s.reg 0x3014).toNat &&& 0xFFFFFFFA) + put (b2n s.abortHold) 0 1 + put (b2n (decide (s.abort.steps ≠ []) && !s.stepDue)) 2 1

/-- DX_HALT_STAT (R454). -/
def State.haltWord (s : State) : Nat :=
  (match s.halt.st with
    | .run => 0
    | .halting => 1
    | .halted => 2)
    + ((s.reg 0x3104).toNat &&& 4) + put (maskOf s.halt.awaited) 4 12 + put s.halt.id.toNat 16 16

/-- DX_SNAP_CNT: K packets held in basins and at the injection point, in HALTED (R458). -/
def State.snapCnt (s : State) : Nat :=
  if s.halt.st ≠ .halted then 0
  else min 65535 s.haltBasin + put (min 65535 (s.inj.filter (fun h => s.haltedPkt h.pkt)).length) 16 16

/-- Word `i` of the header of the packet that DX_SNAP_SEL names. -/
def State.snapData (s : State) (i : Nat) : Nat :=
  match s.snapSel with
  | none => 0
  | some h =>
    let q := ([h.pkt.h0, h.pkt.h1, h.pkt.h2, h.pkt.h3, h.pkt.h4, h.pkt.h5, h.pkt.h6, h.pkt.h7]).getD (i / 2) 0
    qf q (32 * (i % 2)) 32

/-- A word of channel `k`, apart from those stored (R50 to R53, R87, R95). -/
def State.chanWord (s : State) (k off : Nat) : Nat :=
  let c := s.chan k
  if off = 0x04 then b2n c.en
  else if off = 0x08 then
    lifeCode c.st + put (b2n c.enPend) 2 1 + put (b2n (decide (c.st = .on) && decide (c.stop ≠ .no))) 3 1
      + put (b2n (c.flights.any (fun f => decide (opOf f.word = opWait)))) 4 1 + put (b2n c.crStall) 5 1
      + put (b2n c.wrIgn) 6 1 + put (b2n c.hang) 7 1 + put c.lastStatus.toNat 8 8 + put (s.outstanding k) 16 9
      + put c.queue.length 25 7
  else if off = 0x0C then c.nextSeq.toNat + put c.execSeq.toNat 16 16
  else if off = 0x1C then c.prod.toNat
  else if off = 0x20 then c.cons.toNat
  else if off = 0x24 then c.cancels.toNat
  else if off = 0x28 then qf c.hangVal 0 32
  else if off = 0x2C then qf c.hangVal 32 32
  else if 0x40 ≤ off ∧ off < 0x80 then cmdWordAt c.hangCap ((off - 0x40) / 4)
  else if 0x80 ≤ off ∧ off < 0xC0 then qf (s.scalar k ((off - 0x80) / 8)) (32 * (off / 4 % 2)) 32
  else (s.reg (0x4000 + 0x100 * k + off)).toNat

/-- A word of watch `w` (R145). -/
def State.watchWord (s : State) (w off : Nat) : Nat :=
  let x := s.watchOf w
  match off with
  | 0 => x.tally + put x.cond 16 3 + put (b2n x.armed) 20 1 + put (b2n x.fired) 24 1 + put (b2n x.overrun) 25 1
      + put (b2n x.wrIgn) 26 1
  | 4 => fld x.value.toNat 0 32
  | 8 => fld x.value.toNat 32 16
  | _ => x.step.toNat

/-- A word of team `t` (R358 to R361). -/
def State.teamWord (s : State) (t off : Nat) : Nat :=
  let x := s.team t
  let bad := maskOf ((List.range 10).filter (fun i => (x.lane i).bad))
  let fom := fun (a n : Nat) => (List.range n).foldl (fun v i => v + put (x.lane (a + i)).fom (8 * i) 8) 0
  if off = 0x04 then
    teamCode x.st + put (x.spareFor.getD 15) 3 4 + put (b2n x.spareBad) 7 1 + put bad 8 10 + put x.attempts 18 2
      + put (b2n x.mirror.isSome) 20 1 + put (x.mirror.getD 0) 21 4 + ((s.reg (teamReg t 4)).toNat &&& 0x02000000)
  else if off = 0x0C then
    ((s.reg (teamReg t 0xC)).toNat &&& 0xF) + put (maskOf ((List.range 10).filter (fun i => (x.lane i).prbsLock))) 16 10
  else if off = 0x10 then fom 0 4
  else if off = 0x14 then fom 4 4
  else if off = 0x18 then fom 8 2
  else if 0x40 ≤ off ∧ off < 0x68 then
    let l := x.lane ((off - 0x40) / 4)
    put l.cm2.natAbs 0 4 + put l.cm1.natAbs 4 5 + put l.cp1.natAbs 9 5
      + put (64 - l.cm2.natAbs - l.cm1.natAbs - l.cp1.natAbs) 14 7
  else if 0x80 ≤ off ∧ off < 0xA8 then (x.lane ((off - 0x80) / 4)).prbsErr
  else (s.reg (teamReg t off)).toNat

/-- A word of the management core's block (R470, R481, R482). -/
def State.mcWord (s : State) (off : Nat) : Nat :=
  if off = 0xF000 then
    modeCode s.mc.mode + put (fwCode s.mc.fw) 2 2 + put Sys2Proof.Config.kver.toNat 8 8 + put s.mc.svn.toNat 16 8
      + put s.mc.restarts 24 8
  else if off = 0xF004 then (if s.expert then 1 + put s.remain 16 12 else 0)
  else if off = 0xF00C then
    (if s.mc.mb.busy.isSome then 1 else if s.mc.mb.done then 2 else 0) + ((s.reg 0xF00C).toNat &&& 4)
      + put s.mc.mb.tag.toNat 8 8 + put s.mc.mb.status.toNat 16 8
  else if off = 0xF040 then fld s.time 0 32
  else if off = 0xF044 then fld s.time 32 32
  else if off = 0xF04C then tsCode s.ts.st + ((s.reg 0xF04C).toNat &&& 0xFFFF0000)
  else if 0xF200 ≤ off ∧ off < 0xF300 then (s.mc.mb.rsp.getD ((off - 0xF200) / 4) 0).toNat
  else (s.reg off).toNat

/-- Word `i` of a set of command counters (R494). -/
def CmdCnt.word (c : CmdCnt) (i : Nat) : Nat :=
  match i with
  | 0 => put c.seq 0 16 + put c.iter 16 16
  | 1 => c.frags % 2 ^ 32
  | 2 => fld c.rbytes 0 32
  | 3 => fld c.rbytes 32 16
  | 4 => fld c.ibytes 0 32
  | 5 => fld c.ibytes 32 16
  | 6 => c.reinT
  | _ => c.stallT

/-- A word of logbook `n` (R499). -/
def State.logWord (s : State) (n off : Nat) : Nat :=
  let l := s.log n
  if off = 0x18 then l.prod.toNat
  else if off = 0x20 then
    lifeCode l.st + put (b2n l.enPend) 2 1 + put (b2n l.stopped) 3 1 + ((s.reg (logReg n 0x20)).toNat &&& 0x10)
      + put (b2n l.frozen) 5 1 + put l.recs.length 16 12
  else (s.reg (logReg n off)).toNat

/-- RSTATE (R506). -/
def restCode : RestSt → Nat
  | .none => 0
  | .open_ => 1
  | .restored => 2
  | .refused => 3

/-- A word of the tables, with the live words of towpath and group entries (R156, R269). -/
def State.tableWord (s : State) (off : Nat) : Nat :=
  if 0xB000 ≤ off ∧ off < 0xC000 ∧ off % 32 = 24 then b2n (s.tow ((off - 0xB000) / 32)).en
  else if 0xB000 ≤ off ∧ off < 0xC000 ∧ off % 32 = 28 then
    let x := s.tow ((off - 0xB000) / 32)
    lifeCode x.st + put (b2n x.enPend) 2 1 + ((s.reg off).toNat &&& 8) + put x.avail 4 8
  else if 0x20000 ≤ off ∧ off < 0x24000 ∧ off % 32 = 28 then
    let g := s.group ((off - 0x20000) / 32)
    g.nseq.toNat + put (b2n g.inst.isSome) 16 1
  else (s.readTable off).toNat

/-! ## One word -/

/-- Registers below 0x1000 with live fields. -/
def State.readLow (s : State) (off : Nat) : Nat :=
  match inArr off 0x190 4 17, inArr off 0x340 4 68, inArr off 0x800 0x40 12, inArr off 0xE00 0x10 16 with
  | some (u, _), _, _, _ => s.unitWord u
  | _, some (k, _), _, _ => (s.rein k).rate + put (b2n (s.rein k).limiting) 16 1
  | _, _, some (p, 0), _ => ((s.reg off).toNat &&& 0xFFFFF807) + put (s.link p).toUse 3 8
  | _, _, some (p, 4), _ => s.linkWord p
  | _, _, some (p, 8), _ => s.peerWord p
  | _, _, _, some (p, 4) => s.hmWord p 4
  | _, _, _, some (p, 8) => s.hmWord p 8
  | _, _, _, _ =>
    if off = 0x014 then
      s.pwr.cause + put (b2n (decide (s.pwr.phase = .warmWait))) 3 1 + put (b2n s.pwr.scan) 4 1 + put (min 255 s.pwr.warms) 8 8
    else if off = 0x100 then s.ident.chip.toNat + put (b2n s.ident.valid) 31 1
    else if off = 0x104 then s.coordWord
    else if off = 0x108 then s.ident.pkey.toNat + put s.ident.gen.toNat 16 8
    else if off = 0x10C then s.ident.lo.toNat
    else if off = 0x110 then s.ident.hi.toNat
    else if off = 0x124 then b2n s.pfence + put (b2n s.pfenceDone) 1 1
    else if off = 0x324 then s.epochWord
    else if off = 0xF04 then min 256 s.ev.queue.length + put (b2n (decide (s.ev.held ≠ []) || s.watch.any (fun e => e.2.pend.isSome))) 16 1
    else if off = 0xF0C then put s.lbOut.length 0 7 + ((s.reg off).toNat &&& 0x10000)
    else if off = 0xF10 then qf s.pwr.hitch 0 32
    else if off = 0xF14 then qf s.pwr.hitch 32 7
    else (s.reg off).toNat

/-- Registers from 0x2000 to 0x3FFF. -/
def State.readFault (s : State) (off : Nat) : Nat :=
  if off = 0x2000 then s.fltWord
  else if off = 0x2004 then
    ((s.reg off).toNat &&& 0x11FF) + put (b2n s.flt.capStart) 9 1 + put (b2n s.flt.capTest) 11 1
  else if off = 0x2010 then s.srcWord
  else if off = 0x2024 then s.flt.recs + put s.flt.lost 16 16
  else if off = 0x3014 then s.abortWord
  else if off = 0x3030 then s.fenceWord
  else if off = 0x3040 then s.farWord
  else if off = 0x3104 then s.haltWord
  else if off = 0x3110 then s.snapCnt
  else if off = 0x3120 then ((s.reg off).toNat &&& 0x3FFF) + put (b2n s.snapSel.isSome) 31 1
  else if off = 0x3124 then (match s.snapSel with | some h => h.pkt.pseq | none => 0)
  else if 0x3140 ≤ off ∧ off < 0x3180 then s.snapData ((off - 0x3140) / 4)
  else (s.reg off).toNat

/-- Registers from 0x4000 to 0xFFFF. -/
def State.readMid (s : State) (off : Nat) : Nat :=
  match inArr off 0x4000 0x100 64, inArr off 0xA000 16 256, inArr off 0xD000 0x100 16, inArr off 0xE000 0x100 8 with
  | some (k, r), _, _, _ => s.chanWord k r
  | _, some (w, r), _, _ => s.watchWord w r
  | _, _, some (t, r), _ => s.teamWord t r
  | _, _, _, some (c, 8) => ((s.reg off).toNat &&& 0xFFFFFFFE) + b2n (s.i2cBusy c).isSome
  | _, _, _, _ =>
    if 0xB000 ≤ off ∧ off < 0xC000 then s.tableWord off
    else if off = 0xC000 then (s.reg off).toNat ^^^ 0xF0000
    else if 0xF000 ≤ off then s.mcWord off
    else (s.reg off).toNat

/-- Registers from 0x30000. -/
def State.readObs (s : State) (off : Nat) : Nat :=
  match inArr off 0x31000 0x40 64, inArr off 0x32100 0x40 4 with
  | some (k, r), _ => (if r < 0x20 then (s.cmdCnt k).live else (s.cmdCnt k).snap).word (r % 0x20 / 4)
  | _, some (n, r) => s.logWord n r
  | _, _ =>
    if off = 0x34000 then put (restCode s.life.rstate) 3 2
    else if off = 0x34004 then s.life.crc.toNat
    else if 0x34100 ≤ off ∧ off < 0x34788 then (SMap.get (fun _ => (0 : Word)) s.life.snap (off - 0x34100)).toNat
    else (s.reg off).toNat

/-- The word at an offset at this moment, before any latch. -/
def State.readWord (s : State) (off : Nat) : Word :=
  BitVec.ofNat 32 (
    if off < 0x1000 then s.readLow off
    else if off < 0x2000 then s.tableWord off
    else if off < 0x4000 then s.readFault off
    else if off < 0x10000 then s.readMid off
    else if off < 0x20000 then fld (s.tallyOf ((off - 0x10000) / 8)).toNat (32 * (off / 4 % 2)) 32
    else if off < 0x2C000 then s.tableWord off
    else if off < 0x30000 then 0
    else s.readObs off)

/-! ## Latches (R94, R143, R481, R488, R495) -/

/-- The _LO words of values read through a latch: scalars, tallies, the time of day, the 64-bit counters. -/
def isWideLo (off : Nat) : Bool :=
  decide (off % 8 = 0) &&
    ((match inArr off 0x4000 0x100 64 with
      | some (_, r) => decide (0x80 ≤ r) && decide (r < 0xC0)
      | none => false)
    || (decide (0x10000 ≤ off) && decide (off < 0x20000))
    || decide (off = 0xF040)
    || (decide (0x30000 ≤ off) && decide (off < 0x30160))
    || (match inArr off 0x30400 0x40 32 with
      | some (_, r) => decide (0x10 ≤ r) && decide (r < 0x30)
      | none => false))

/-- The word is one of a set of command counters: channel, whether of the snapshot, word. -/
def ccntAt (off : Nat) : Option (Nat × Bool × Nat) :=
  (inArr off 0x31000 0x40 64).map (fun x => (x.1, decide (0x20 ≤ x.2), x.2 % 0x20 / 4))

/-- A shadow. -/
def State.shadow (s : State) (off : Nat) : Word := SMap.get (fun _ => 0) s.rshadow off
/-- Latch a word into its shadow. -/
def State.latch (s : State) (off : Nat) (w : Word) : State :=
  { s with rshadow := SMap.set (fun _ => 0) s.rshadow off w }

/-- Latch a whole set of command counters. -/
def State.latchCnt (s : State) (k : Nat) (snap : Bool) : State :=
  let b := 0x31000 + 0x40 * k + (if snap then 0x20 else 0)
  (List.range 8).foldl (fun t i => t.latch (b + 4 * i) (s.readWord (b + 4 * i))) s

/-- An RG read of an aligned offset: the word and the state with what the read latched. -/
def State.readReg (s : State) (off : Nat) : Word × State :=
  match ccntAt off with
  | some (k, snap, i) =>
    let t := if i = 0 then s.latchCnt k snap else s
    (t.shadow off, t)
  | none =>
    if isWideLo off then (s.readWord off, s.latch (off + 4) (s.readWord (off + 4)))
    else if off % 8 = 4 ∧ isWideLo (off - 4) then (s.shadow off, s)
    else (s.readWord off, s)

/-- A read by the host through RG: parity is checked, the answer carries the word (R393, R394). -/
def State.rgRead (s : State) (off : Nat) (par : Bool) : State :=
  let (inj, s1) := s.takeInj 0x27 0
  if (par == rgParity false off 0) == inj then s1.rgBad off inj
  else
    let (w, t) := s1.readReg off
    t.drive (.rgAnswer w 0)

/-- A read row: answered RESET in reset and self-check. -/
def readCmd (s : State) (ok : Bool) (off : Nat) (par : Bool) : Out :=
  if s.alive then run s ok (fun t => t.rgRead off par)
  else runAny s (ok && decide (s.pwr.phase ≠ .off)) (fun t => t.drive (.rgAnswer 0 2))

/-- LATCHED_READ (R143): an RG read; of a _LO word of a wide value it latches the high half. -/
def execLatchedRead (off : Nat) (par : Bool) (s : State) : Out :=
  readCmd s (decide (off % 4 = 0) && decide (off < 0x100000)) off par

/-- CCNT_LATCH (R495): an RG read of the SEQ word of a set. -/
def execCcntLatch (k : Nat) (snap par : Bool) (s : State) : Out :=
  readCmd s (decide (k < 64)) (0x31000 + 0x40 * k + (if snap then 0x20 else 0)) par

end Sys2Proof.Machine
end

