-- ==== Sys2Proof/Machine/RegWrite.lean ====
section
/-! DEFINITION. What a write of each register does: the one place where an offset is led to the behaviour of its
register (R10, R465, R533, R534, R538). -/

namespace Sys2Proof.Machine

/-! ## Registers whose commands follow in later files -/

/-- A write of DX_FENCE (R445): the ports named are fenced by command; a port that is OFF, or FENCED already, is not
touched. -/
def State.wrFence (s : State) (priv : Bool) (d : Word) : State :=
  if ¬ priv then s
  else (setBits 12 d.toNat).foldl (fun t p =>
    if (t.link p).st = .off ∨ (t.link p).st = .fenced then t else (t.fencePort p 7).fenceSlots p) s

/-- A write of DX_FARRIER_CTL (R450, R452): TAKEBACK returns the farrier to WATCHING. -/
def State.wrFarCtl (s : State) (priv : Bool) (d : Word) : State :=
  if priv ∧ d.toNat.testBit 0 ∧ s.far.acting then
    let pins := s.errOn
    let t := { s with far := { s.far with acting := false, abortSent := false, opened := [], openDone := false } }
    (t.emit (0x74 + put s.far.lastCmd.toNat 16 8)).sayPins pins
  else s

/-- A write of DX_FARRIER_CMD3 submits the command word (R450). -/
def State.wrFarCmd (s : State) (d : Word) : State :=
  let t := s.setReg 0x305C d
  let w := (t.reg 0x3050).toNat + (t.reg 0x3054).toNat * 2 ^ 32 + (t.reg 0x3058).toNat * 2 ^ 64 + d.toNat * 2 ^ 96
  { t with far := { t.far with queue := t.far.queue ++ [⟨BitVec.ofNat 128 w, none⟩] } }

/-- The flag of a mailbox write that was ignored (R471). -/
def State.mbIgn (s : State) : State := s.orReg 0xF00C 4

/-- A write of DX_MB_CTL: GO submits the request (R470, R471). -/
def State.wrMbCtl (s : State) (d : Word) : State :=
  if ¬ d.toNat.testBit 0 then s
  else if s.mc.mb.busy.isSome then s.mbIgn
  else
    let ws := (List.range 64).map (fun i => s.reg (0xF100 + 4 * i))
    { s with mc := { s.mc with mb := { s.mc.mb with busy := some ⟨ws, s.now, false⟩, done := false } } }

/-- A write of a request word: ignored while a request is in progress (R471). -/
def State.wrMbReq (s : State) (off : Nat) (d : Word) : State :=
  if s.mc.mb.busy.isSome then s.mbIgn else s.setReg off d

/-- A write of a 64-bit counter's words: the _LO word is held in a shadow, the _HI word commits both (R143, R488). -/
def State.wrWide (s : State) (off : Nat) (d : Word) : State :=
  if off % 8 = 0 then { s with wshadow := SMap.set (fun _ => 0) s.wshadow off d }
  else (s.setReg (off - 4) (SMap.get (fun _ => (0 : Word)) s.wshadow (off - 4))).setReg off d

/-- A write held in a shadow until the word that commits it (R94, R102, R143, R256). -/
def State.wrShadow (s : State) (off : Nat) (d : Word) : State :=
  { s with wshadow := SMap.set (fun _ => 0) s.wshadow off d }

/-- DX_ROUTE_SEED_HI commits both words (R256). -/
def State.wrSeedHi (s : State) (priv : Bool) (d : Word) : State :=
  if priv then (s.setReg 0x318 (SMap.get (fun _ => (0 : Word)) s.wshadow 0x318)).setReg 0x31C d else s

/-- The completion-ring registers may be written only while the channel is OFF (R88). -/
def State.wrRing (s : State) (k off : Nat) (priv : Bool) (d : Word) : State :=
  if (s.chan k).st = .off then (s.plainWrite off priv d).checkStall k else s.modChan k (fun c => { c with wrIgn := true })

/-- A write of DX_CMARK_CFG: ignored unless 0 < T1 < T2 < T3 (R277). -/
def State.wrCmark (s : State) (priv : Bool) (d : Word) : State :=
  let t := fun (i : Nat) => fld d.toNat (4 * i) 4
  if 0 < t 0 ∧ t 0 < t 1 ∧ t 1 < t 2 then s.plainWrite 0x300 priv d else s

/-- A write of DX_REIN_CFG: REIN_EN 0 holds every RATE at 4,095 (R279). -/
def State.wrRein (s : State) (priv : Bool) (d : Word) : State :=
  let t := s.plainWrite 0x304 priv d
  if (t.reg 0x304).toNat.testBit 28 then t else t.reinsReset

/-- A set of berth shares is good: at least 2 for each virtual channel, at most 120 in all (R261). -/
def sharesOk (c0 c1 : Nat) : Bool :=
  let vs := (List.range 4).map (fun i => fld c0 (8 * i) 8) ++ [fld c1 0 8, fld c1 8 8]
  vs.all (fun v => decide (2 ≤ v)) && decide (vs.foldl (· + ·) 0 + fld c1 16 8 ≤ 120)

/-- A write of DX_BASIN_CFG0 or DX_BASIN_CFG1: taken while every link port is OFF and the shares are good (R261). -/
def State.wrBasin (s : State) (off : Nat) (priv : Bool) (d : Word) : State :=
  let t := s.plainWrite off priv d
  if (List.range 12).all (fun p => decide ((s.link p).st = .off)) ∧ sharesOk (t.reg 0x308).toNat (t.reg 0x30C).toNat then t else s

/-! ## By blocks -/

/-- Below 0x1000. -/
def State.writeLow (s : State) (off : Nat) (priv : Bool) (d : Word) : State :=
  match inArr off 0x190 4 17, inArr off 0x600 0x20 12, inArr off 0x800 0x40 12 with
  | some (u, _), _, _ => s.wrRuStat u d
  | _, some (p, 0), _ => s.wrPortKey p off priv d
  | _, some (p, 4), _ => s.wrPortKey p off priv d
  | _, _, some (p, 0) => s.wrLnkCtl p priv d
  | _, _, _ =>
    if off = 0x010 then s.wrResetCtl priv d
    else if off = 0x100 then s.wrChip priv d
    else if off = 0x108 then s.wrPart priv d
    else if off = 0x10C then s.wrPartLim false priv d
    else if off = 0x110 then s.wrPartLim true priv d
    else if off = 0x120 then s.wrTorus priv d
    else if off = 0x124 then s.wrPfence priv d
    else if off = 0x144 then s.wrAtcCfg priv d
    else if off = 0x180 then s.wrRuCtl priv d
    else if off = 0x300 then s.wrCmark priv d
    else if off = 0x304 then s.wrRein priv d
    else if off = 0x308 ∨ off = 0x30C then s.wrBasin off priv d
    else if off = 0x318 then (if priv then s.wrShadow off d else s)
    else if off = 0x31C then s.wrSeedHi priv d
    else if off = 0xF00 ∨ off = 0xF08 then s.w1cOnly off d
    else s.plainWrite off priv d

/-- From 0x2000 to 0x3FFF. -/
def State.writeFault (s : State) (off : Nat) (priv : Bool) (d : Word) : State :=
  if off = 0x2004 then s.wrFltCtl priv d
  else if off = 0x2008 then s.wrFltAck priv d
  else if off = 0x2020 then s.wrFltInj priv d
  else if off = 0x2024 then s.wrCrec d
  else if off = 0x3010 then s.wrAbortCtl priv d
  else if off = 0x3030 then s.wrFence priv d
  else if off = 0x3044 then s.wrFarCtl priv d
  else if off = 0x305C then s.wrFarCmd d
  else if off = 0x3100 then s.wrHaltCtl priv d
  else s.plainWrite off priv d

/-- A word of a channel's block. The _LO word of a scalar goes to its shadow in every state of the channel, and only the
commit by _HI can be ignored (R94; DESIGN CHOICE, log 77). -/
def State.writeChan (s : State) (k r : Nat) (priv : Bool) (d : Word) : State :=
  let off := 0x4000 + 0x100 * k + r
  if r = 0x04 then s.wrChanCtl k d
  else if r = 0x08 then s.w1cOnly off d
  else if r = 0x10 ∨ r = 0x14 ∨ r = 0x18 then s.wrRing k off priv d
  else if r = 0x20 then s.wrCons k d
  else if 0x80 ≤ r ∧ r < 0xC0 then (if r % 8 = 0 then s.wrShadow off d else s.wrScalHi k ((r - 0x84) / 8) d)
  else s.plainWrite off priv d

/-- A word of a watch. -/
def State.writeWatch (s : State) (w r : Nat) (d : Word) : State :=
  match r with
  | 0 => s.wrWatchCtl w d
  | 4 => s.wrWatchVal w (fun x => { x with value := BitVec.ofNat 48 (fld x.value.toNat 32 16 * 2 ^ 32 + d.toNat) })
  | 8 => s.wrWatchVal w (fun x => { x with value := BitVec.ofNat 48 (fld x.value.toNat 0 32 + d.toNat * 2 ^ 32) })
  | _ => s.wrWatchVal w (fun x => { x with step := d })

/-- From 0x4000 to 0xFFFF. -/
def State.writeMid (s : State) (off : Nat) (priv : Bool) (d : Word) : State :=
  match inArr off 0x4000 0x100 64, inArr off 0x8020 32 255, inArr off 0xA000 16 256 with
  | some (k, r), _, _ => s.writeChan k r priv d
  | _, some (e, r), _ => if r = 0x1C then s.wrShape (e + 1) d else s.wrShadow off d
  | _, _, some (w, r) => s.writeWatch w r d
  | _, _, _ =>
    match inArr off 0xB000 32 128, inArr off 0xD000 0x100 16, inArr off 0xE000 0x100 8 with
    | some (t, r), _, _ =>
      if r < 24 then s.wrTable off priv d else if r = 24 then s.wrTowEn t priv d else s.plainWrite off priv d
    | _, some (t, 0x00), _ => s.wrTeamCfg t priv d
    | _, some (t, 0x08), _ => s.wrTeamCtl t d
    | _, some (t, 0x0C), _ => s.wrPrbs t priv d
    | _, _, some (c, 4) => s.wrI2cCmd c priv d
    | _, _, _ =>
      if off = 0xC000 then s.wrHarness priv d
      else if 0xC004 ≤ off ∧ off < 0xC080 then s.wrMap off priv d
      else if 0xC080 ≤ off ∧ off < 0xC090 then s.wrFom off priv d
      else if off = 0xF008 then s.wrMbCtl d
      else if off = 0xF048 then s.wrTimeCfg priv d
      else if 0xF100 ≤ off ∧ off < 0xF200 then s.wrMbReq off d
      else s.plainWrite off priv d

/-- From 0x30000. -/
def State.writeObs (s : State) (off : Nat) (priv : Bool) (d : Word) : State :=
  match inArr off 0x32100 0x40 4 with
  | some (n, 0) => s.wrLogCtl n priv d
  | _ =>
    if off = 0x32200 then s.wrLogWin priv d
    else if off = 0x34000 then s.wrLifeCtl d
    else if off = 0x34004 ∨ (0x34100 ≤ off ∧ off < 0x34788) then s.wrLifeBody off d
    else if isWideLo off ∨ isWideLo (off - 4) then s.wrWide off d
    else s.plainWrite off priv d

/-- A write of any register word: `priv` says that its RWL fields take effect. -/
def State.writeReg (s : State) (off : Nat) (priv : Bool) (d : Word) : State :=
  if off < 0x1000 then s.writeLow off priv d
  else if off < 0x1A00 then s.wrTable off priv d
  else if off < 0x2000 then s
  else if off < 0x4000 then s.writeFault off priv d
  else if off < 0x10000 then s.writeMid off priv d
  else if off < 0x20000 then
    (if off % 8 = 0 then s.wrShadow off d else s.wrTallyHi ((off - 0x10004) / 8) d)
  else if off < 0x2C000 then
    (if 0x20000 ≤ off ∧ off < 0x24000 ∧ off % 32 = 28 then s else s.wrTable off priv d)
  else if off < 0x30000 then s
  else s.writeObs off priv d

/-- REGISTER_WRITE (R534): a write of any register word, by the host through RG or by the kernel. -/
def execRegisterWrite (off : Nat) (a : RgAcc) (s : State) : Out :=
  regCmd s (decide (off % 4 = 0) && decide (off < 0x100000)) off a (fun s p d => s.writeReg off p d) (decide (off = 0x2024))

/-- PORT_FENCE (R445): a write of DX_FENCE. -/
def execPortFence (a : RgAcc) (s : State) : Out := regCmd s true 0x3030 a (fun s p d => s.wrFence p d)

/-- FARRIER_TAKEBACK (R452): a write of DX_FARRIER_CTL with TAKEBACK 1. -/
def execFarrierTakeback (a : RgAcc) (s : State) : Out :=
  regCmd s true 0x3044 (RgAcc.force a 0 true) (fun s p d => s.wrFarCtl p d)

end Sys2Proof.Machine
end

