-- ==== Sys2Proof/Machine/Farrier.lean ====
section
/-! DEFINITION. The farrier: the watchdog of the management core, its commands from RG and from neighbours, and
assistance (R429, R450 to R453, R477, R478). -/

namespace Sys2Proof.Machine

/-! ## Acting for a stopped core (R429, R452) -/

/-- MC_WATCHDOG_WRITE (R429): the kernel writes its watchdog. -/
def execMcWatchdogWrite (s : State) : Out :=
  run s true (fun s => { s with mc := { s.mc with wdogAt := s.now } })

/-- EV_FARRIER (R462). -/
def State.sayFarrier (s : State) : State :=
  s.emit (0x74 + put (b2n s.far.acting) 8 2 + put s.far.lastCmd.toNat 16 8)

/-- MC_WDOG_EXPIRE (R429, R452 steps 1 and 2): 50 ms without a write. The count starts again. -/
def execMcWdogExpire (s : State) : Out :=
  run s (decide (s.mc.wdogAt + nsTicks 50000000 ≤ s.now)) (fun s =>
    let pins := s.errOn
    let first := !s.far.acting
    let s1 : State := { s with
      mc := { s.mc with wdogAt := s.now }
      far := if first then { s.far with acting := true, since := s.now, openDone := false } else s.far }
    let s2 := s1.raise 0x04 0 2 0 0x61
    let s3 := if first then
        let s4 := s2.setRecov.sayFarrier
        let s5 := s4.originAbort 2
        { s5 with far := { s5.far with abortSent := decide (s4.ident.pkey ≠ 0) && !s4.abortHold } }
      else s2
    s3.sayPins pins)

/-- A FENCED port opens for assistance: it trains, and stays MGT_ONLY (R452). -/
def State.farOpen (s : State) (ps : List Nat) : State :=
  ps.foldl (fun t p =>
    let u : State := { t with far := { t.far with opened := if t.far.opened.contains p then t.far.opened else t.far.opened ++ [p] } }
    if (u.link p).st = .fenced then u.trainPort p else u) s

/-- FARRIER_OPEN_PORTS (R452 step 4): 1 ms after it began to act, every valid port opens. -/
def execFarrierOpenPorts (s : State) : Out :=
  run s (s.far.acting && !s.far.openDone && decide (s.far.since + nsTicks 1000000 ≤ s.now)) (fun s =>
    let t := s.farOpen s.validPorts
    { t with far := { t.far with openDone := true } })

/-! ## Commands (R450, R451) -/

/-- A field of a command word. -/
def FarCmd.f (c : FarCmd) (lo w : Nat) : Nat := fld c.words.toNat lo w

/-- The answer to a command: the RSP registers, or an ASSIST_RSP to its sender (R451, R477). -/
def State.farAnswer (s : State) (c : FarCmd) (status d0 d1 : Nat) : State :=
  let r0 := status + put (c.f 8 8) 8 8
  match c.src with
  | none =>
    (((s.setReg 0x3060 (BitVec.ofNat 32 r0)).setReg 0x3064 (BitVec.ofNat 32 d0)).setReg 0x3068 (BitVec.ofNat 32 d1)).setReg 0x306C 0
  | some (p, _) =>
    s.form { respHd p 0xC4 0 with vc := 5, len := 16, offset := 0, h7 := qf p.h7 0 32 }
      (leBytes 16 (r0 + d0 % 2 ^ 32 * 2 ^ 32 + d1 % 2 ^ 32 * 2 ^ 64)) none p.stamp

/-- The farrier takes commands: while it acts from step 4 on, and never once it has failed itself (R452, R453). -/
def State.farReady (s : State) : Bool :=
  (!s.far.acting || s.far.openDone) && decide ((s.source 0x03 0).st ≠ .fatal)

/-- Take the command at the front of the farrier's queue (R451): unknown, of another key, not allowed while it
watches, or performed by `body`, which answers with the state and, unless it has answered already, a status and two
words. -/
def farRow (which : Nat → Bool) (body : State → FarCmd → State × Option (Nat × Nat × Nat)) (s : State) : Out :=
  let front := match s.far.queue with
    | c :: _ => which (c.f 0 8)
    | [] => false
  run s (front && s.farReady) (fun s =>
    match s.far.queue with
    | [] => s
    | c :: rest =>
      let t : State := { s with far := { s.far with queue := rest } }
      let cmd := c.f 0 8
      if cmd = 0 ∨ 9 < cmd then t.farAnswer c 1 0 0
      else if c.f 16 16 ≠ t.ident.pkey.toNat then t.farAnswer c 2 0 0
      else if 3 ≤ cmd ∧ ¬ t.far.acting then t.farAnswer c 3 0 0
      else
        let u : State := { t with far := { t.far with lastCmd := BitVec.ofNat 8 cmd, ncmd := min 255 (t.far.ncmd + 1) } }
        match body u c with
        | (v, some (st, d0, d1)) => v.farAnswer c st d0 d1
        | (v, none) => v)

/-- FARRIER_STATUS: DX_FARRIER_STAT and DX_FLT_STATE. -/
def execFarrierStatus (s : State) : Out :=
  farRow (fun n => decide (n = 1)) (fun s _ => (s, some (0, s.farWord, s.fltWord))) s

/-- FARRIER_PEEK: one RG word; the mailbox offsets are refused. -/
def execFarrierPeek (s : State) : Out :=
  farRow (fun n => decide (n = 2)) (fun s c =>
    let off := fld (c.f 32 32) 2 18 * 4
    if 0xF000 ≤ off ∧ off < 0xF300 then (s, some (3, 0, 0))
    else
      let (w, t) := s.readReg off
      (t, some (0, w.toNat, 0))) s

/-- FARRIER_ABORT: the abort of reason 3; the new generation. -/
def execFarrierAbort (s : State) : Out :=
  farRow (fun n => decide (n = 3)) (fun s _ =>
    let t := s.originAbort 3
    (t, some (0, t.genBase.toNat, 0))) s

/-- FARRIER_FENCE: as a write of DX_FENCE. -/
def execFarrierFence (s : State) : Out :=
  farRow (fun n => decide (n = 4)) (fun s c => (s.wrFence true (BitVec.ofNat 32 (c.f 32 12)), some (0, 0, 0))) s

/-- FARRIER_OPEN: opens valid ports for assistance. -/
def execFarrierOpen (s : State) : Out :=
  farRow (fun n => decide (n = 5)) (fun s c =>
    let t := s.farOpen ((setBits 12 (c.f 32 12)).filter (fun p => s.portValid p))
    (t, some (0, maskOf t.far.opened, 0))) s

/-- The management core restarts: its kernel boots, the firmware is checked and started as after a warm reset (R451,
R469). The answer has gone out before. -/
def State.resetMc (s : State) : State :=
  let s1 := (s.closeExpert).mbDone 7 []
  let s2 : State := { s1 with mc := { s1.mc with
    nonce := none, outst := [], answered := [], part := none, lead := none, treeQ := [], fwLen := 0, fwParts := []
    imgLen := none, imgParts := [] } }
  if s2.inF3 then { s2 with mc := { s2.mc with wdogAt := s2.now } }
  else ((s2.setFw .basic .none)).bootFw

/-- FARRIER_RESET_MC: answered before it acts. -/
def execFarrierResetMc (s : State) : Out :=
  farRow (fun n => decide (n = 6)) (fun s c =>
    let t := s.farAnswer c 0 0 0
    (t.resetMc, none)) s

/-- FARRIER_WARM_RESET: answered before it acts; CAUSE 3. -/
def execFarrierWarmReset (s : State) : Out :=
  farRow (fun n => decide (n = 7)) (fun s c =>
    let t := s.farAnswer c 0 0 0
    (t.warmRequest 3, none)) s

/-- FARRIER_HALT: as DX_HALT_CTL.GO. -/
def execFarrierHalt (s : State) : Out :=
  farRow (fun n => decide (n = 8)) (fun s c => (s.wrHaltCtl true (BitVec.ofNat 32 (c.f 32 16 + 0x10000)), some (0, 0, 0))) s

/-- FARRIER_RELEASE: as DX_HALT_CTL.REL. -/
def execFarrierRelease (s : State) : Out :=
  farRow (fun n => decide (n = 9)) (fun s _ =>
    (s.wrHaltCtl true (BitVec.ofNat 32 (s.rf 0x3100 0 16 + 0x20000)), some (0, 0, 0))) s

/-- FARRIER_BAD_CMD: an unknown command. -/
def execFarrierBadCmd (s : State) : Out :=
  farRow (fun n => decide (n = 0) || decide (9 < n)) (fun s _ => (s, some (1, 0, 0))) s

/-! ## ASSIST (R451, R477, R478) -/

/-- ASSIST: a command word from the neighbour whose chip number the arrival port knows. -/
def execAssist (i : Nat) (s : State) : Out :=
  pktRow i [0xC3] (fun s h =>
    if h.pkt.pkey ≠ s.ident.pkey.toNat then s.mgtDrop
    else if 12 ≤ h.port ∨ (s.link h.port).peer.chip ≠ h.pkt.src then s.raise 0x75 h.port 1 4 (portMaster h.port)
    else { s with far := { s.far with
        queue := s.far.queue ++ [⟨BitVec.ofNat 128 (leNat (h.pkt.pay.take 16)), some (h.pkt, h.port)⟩] } }) s

/-- ASSIST_RSP: taken under the own key; the block sends no ASSIST of its own accord, and it changes nothing. -/
def execAssistRsp (i : Nat) (s : State) : Out :=
  pktRow i [0xC4] (fun s h => if h.pkt.pkey ≠ s.ident.pkey.toNat then s.mgtDrop else s) s

end Sys2Proof.Machine
end

