-- ==== Sys2Proof/Machine/Mgt.lean ====
section
/-! DEFINITION. Management packets between kernels: requests and responses, resends, the records of images, and the
tree of a lock domain (R475, R477 to R480). -/

namespace Sys2Proof.Machine

/-! ## Requests and responses (R477 to R479) -/

/-- The words of a payload. -/
def payWords (bs : List Byte) : List Word :=
  (List.range (bs.length / 4)).map (fun i => BitVec.ofNat 32 (leNat ((bs.drop (4 * i)).take 4)))

/-- Send an MB_REQ and hold it outstanding; `who` waits for its response. -/
def State.mgtSend (s : State) (m : TreeMsg) (who : Option Asker) : State :=
  let n := (s.mc.mseq + 1) % 2 ^ 32
  let bs := wordBytes m.pay
  let t := s.form { opcode := 0xC1, vc := 5, dst := m.dst, len := bs.length, ctx := 3, aux := m.aux, h5 := m.h5, h6 := m.h6
                    h7 := n }
    bs none (some (m.pkey, fld m.h5 16 8))
  { t with mc := { t.mc with
      mseq := n
      outst := t.mc.outst ++ [⟨n, m.dst, m.aux, m.h5, m.h6, m.pkey, bs, s.now, 0, who⟩] } }

/-- Send again a request still outstanding, with the same MSEQ (R479). -/
def State.mgtResend (s : State) (m : MgtOut) : State :=
  let t := s.form { opcode := 0xC1, vc := 5, dst := m.dst, len := m.pay.length, ctx := 3, aux := m.aux, h5 := m.h5
                    h6 := m.h6, h7 := m.mseq }
    m.pay none (some (m.pkey, fld m.h5 16 8))
  { t with mc := { t.mc with
      outst := t.mc.outst.map (fun (o : MgtOut) => if o.mseq = m.mseq then { o with at_ := s.now, sends := o.sends + 1 } else o) } }

/-- The header of a management response (R230, R231, R236, R477): the context, mark and MSEQ of the request, and its
OFFSET where no payload goes with it. -/
def mgtRspHd (p : Packet) (opcode len : Nat) : Hd :=
  { respHd p opcode 0 with vc := 5, len, offset := if len = 0 then p.offset else 0, h7 := qf p.h7 0 32 }

/-- Form the MB_RSP that answers an MB_REQ. -/
def State.mgtRespond (s : State) (p : Packet) (bs : List Byte) : State :=
  s.form { mgtRspHd p 0xC2 bs.length with aux := p.aux, h5 := p.h5.toNat, h6 := p.h6.toNat } bs none p.stamp

/-- Answer an MB_REQ with words, and keep the answer for a repeat; the 256 latest are kept. -/
def State.mgtReply (s : State) (p : Packet) (ws : List Word) : State :=
  let t := s.mgtRespond p (wordBytes ws)
  let l := t.mc.answered ++ [⟨p.src, qf p.h7 0 32, p.aux, wordBytes ws⟩]
  { t with mc := { t.mc with answered := l.drop (l.length - 256) } }

/-- A command has its result: the mailbox completes, a kernel call returns, or the response of a REMOTE request leaves
with the TAG of that request (R466, R471, R478). -/
def State.answerAsk (s : State) (who : Asker) (status : Nat) (ws : List Word) : State :=
  match who with
  | .mailbox => s.mbDone status ws
  | .call => s.drive (.callRet status ws)
  | .nobody => s
  | .remote p => s.mgtReply p (rspHead status (fld (leNat (p.pay.take 4)) 8 8) ws.length :: ws)

/-- A management request may be taken (R478). -/
def State.mgtTaken (s : State) (h : Held) : Bool :=
  let k := h.pkt.pkey
  let own := s.ident.pkey.toNat
  let spare := decide (own = 0) && decide (h.port < 12) && s.keyAdmitted h.port k
  match h.pkt.aux % 16 with
  | 0 => decide (own ≠ 0) && decide (k = own) && decide (s.mc.mode = .full)
  | 1 => decide (k = own) || spare
  | 2 => spare
  | _ => false

/-- A row of MB_REQ packets: those whose MCLASS and MSG satisfy `sel`. A request answered before gets the same answer
again; one that may not be taken is dropped (R478, R479). -/
def mgtRow (i : Nat) (sel : Nat → Nat → Bool) (body : State → Held → State) (s : State) : Out :=
  let mine := match s.eject[i]? with
    | some h => sel (h.pkt.aux % 16) (h.pkt.aux / 256)
    | none => false
  run s (s.berth i (fun o => decide (o = 0xC1)) && mine) (fun s => s.take i (fun t h =>
    if ¬ t.mgtTaken h then t.mgtDrop
    else
      match t.mc.answered.find? (fun a => decide (a.src = h.pkt.src) && decide (a.mseq = qf h.pkt.h7 0 32)) with
      | some a => t.mgtRespond h.pkt a.pay
      | none => body t h))

/-! ## Records (R475) -/

/-- A record of an image: RG offset, CLASS, the chip it is for, its data words. -/
structure Rec where
  off : Nat
  cls : Nat
  chip : Option Nat
  data : List Word
deriving DecidableEq, Repr

/-- The words of a record. -/
def Rec.words (r : Rec) : List Word :=
  [BitVec.ofNat 32 (r.off / 4), BitVec.ofNat 32 (put r.data.length 0 13 + put r.cls 13 2 + put (b2n r.chip.isSome) 15 1)]
    ++ (match r.chip with
        | some c => [BitVec.ofNat 32 c]
        | none => []) ++ r.data

/-- The records of a list of words; none when they break the layout of R475. -/
def parseRecs : Nat → List Word → Option (List Rec)
  | _, [] => some []
  | 0, _ => none
  | fuel + 1, a :: b :: ws =>
    let n := fld b.toNat 0 13
    let filt := b.toNat.testBit 15
    let chip := (ws.headD 0).toNat
    let data := if filt then ws.drop 1 else ws
    if 2 ^ 18 ≤ a.toNat ∨ 2 ^ 16 ≤ b.toNat ∨ n = 0 ∨ 4096 < n ∨ fld b.toNat 13 2 = 3 ∨ data.length < n
        ∨ (filt ∧ (ws = [] ∨ 2 ^ 18 ≤ chip)) then none
    else
      (parseRecs fuel (data.drop n)).map (fun l => ⟨4 * a.toNat, fld b.toNat 13 2, if filt then some chip else none, data.take n⟩ :: l)
  | _ + 1, [_] => none

/-- A record in pieces of at most 60 data words, each small enough for one packet. -/
def Rec.pieces : Nat → Rec → List Rec
  | 0, _ => []
  | fuel + 1, r =>
    if r.data.length ≤ 60 then [r]
    else { r with data := r.data.take 60 } :: Rec.pieces fuel { r with off := r.off + 240, data := r.data.drop 60 }

/-- The record applies to a chip. -/
def Rec.isFor (r : Rec) (n : Nat) : Bool :=
  match r.chip with
  | some c => decide (c = n)
  | none => true

/-- The words of a record with their offsets. -/
def Rec.writes (r : Rec) : List (Nat × Word) := r.data.zipIdx.map (fun e => (r.off + 4 * e.2, e.1))

/-! ## The tree (R480) -/

/-- The position one hop from `p` along dimension `d`. -/
def stepPos (dim : Nat) (p : Pos) (d : Nat) (plus : Bool) : Pos :=
  let n := dimOf dim d
  let v := (p.at d + (if plus then 1 else n - 1)) % n
  if d = 0 then (v, p.2.1, p.2.2) else if d = 1 then (p.1, v, p.2.2) else (p.1, p.2.1, v)

/-- The parent of position `p` in the tree of the leader at `l`. -/
def parentOf (dim : Nat) (p l : Pos) : Option Pos :=
  match [2, 1, 0].find? (fun d => decide (p.at d ≠ l.at d)) with
  | none => none
  | some d =>
    let n := dimOf dim d
    let hp := (l.at d + n - p.at d) % n
    some (stepPos dim p d (decide (hp ≤ n - hp)))

/-- The children of position `p`, with the direction codes that lead to each. -/
def childrenOf (dim : Nat) (p l : Pos) : List (Pos × List Nat) :=
  let nb := (List.range 6).map (fun c => (stepPos dim p (c / 2) (decide (c % 2 = 0)), c))
  let kids := ((nb.map (·.1)).eraseDups).filter (fun q => decide (q ≠ p) && decide (parentOf dim q l = some p))
  kids.map (fun q => (q, (nb.filter (fun e => decide (e.1 = q))).map (·.2)))

/-- The chip number that stands at a position by the tables in force. -/
def State.numAt (s : State) (p : Pos) : Option Nat :=
  let es := subEntries (s.bank s.tbl.cur)
  let dim := (s.reg 0x120).toNat
  let n := match es.find? (fun e => !e.2.2.testBit 30 && decide (posOf e.2.2 = p)) with
    | some e => e.2.1
    | none => boxAt dim p
  if s.resolve s.tbl.cur n = some p then some n else none

/-- The chips below a position: its children, and in place of a position without a chip that position's own. -/
def State.kidsAt : Nat → State → Pos → Pos → List Nat
  | 0, _, _, _ => []
  | fuel + 1, s, p, l =>
    (childrenOf (s.reg 0x120).toNat p l).flatMap (fun e =>
      match s.numAt e.1 with
      | some n => [n]
      | none => State.kidsAt fuel s e.1 l)

/-- This block's children: over ports that admit the key (R284). -/
def State.ownKids (s : State) (leader key : Nat) : List Nat :=
  match s.here, s.resolve s.tbl.cur leader with
  | some p, some l =>
    (childrenOf (s.reg 0x120).toNat p l).flatMap (fun e =>
      if (List.range 12).any (fun q => s.portValid q && e.2.contains (s.portDir q) && s.keyAdmitted q key) then
        (match s.numAt e.1 with
          | some n => [n]
          | none => State.kidsAt 64 s e.1 l)
      else [])
  | _, _ => []

/-- The chips to reach in place of a silent child. -/
def State.kidsOf (s : State) (n leader : Nat) : List Nat :=
  match s.resolve s.tbl.cur n, s.resolve s.tbl.cur leader with
  | some p, some l => State.kidsAt 64 s p l
  | _, _ => []

/-! ## Queues of messages -/

/-- A message of the tree or to a spare waits its turn. -/
def State.treePut (s : State) (m : TreeMsg) : State := { s with mc := { s.mc with treeQ := s.mc.treeQ ++ [m] } }

/-- A message of the tree to `dst` is outstanding. -/
def State.treeBusy (s : State) (dst : Nat) : Bool := s.mc.outst.any (fun o => decide (o.dst = dst) && o.who.isNone)

/-- Messages leave in order, one outstanding to each destination. -/
def State.pumpTree (s : State) : State :=
  s.mc.treeQ.foldl (fun t m => if t.treeBusy m.dst then t.treePut m else t.mgtSend m none) { s with mc := { s.mc with treeQ := [] } }

/-- Nothing of the tree or to a spare waits for an answer. -/
def State.treeIdle (s : State) : Bool := decide (s.mc.treeQ = []) && !s.mc.outst.any (fun o => o.who.isNone)

end Sys2Proof.Machine
end

