-- ==== Sys2Proof/Machine/Cycle.lean ====
section
/-! DEFINITION. The lock cycle: this block's part in it, its leader, and the tree messages that carry it (R30, R287 to
R290, R448, R449, R480). -/

namespace Sys2Proof.Machine

/-! ## The part of a block -/

/-- Change this block's part in the cycle. -/
def State.modPart (s : State) (f : LockPart → LockPart) : State := { s with mc := { s.mc with part := s.mc.part.map f } }

/-- EV_LOCK_CYCLE: a change of PHASE (R487). -/
def State.sayLock (s : State) : State :=
  let ep := match s.mc.part with
    | some p => p.epochMode
    | none => false
  s.emit (0x84 + put s.tbl.cycle.toNat 8 16 + put (phaseCode s.tbl.phase) 24 3 + put (b2n ep) 27 1)

/-- A message of the cycle: MSG, CYCLE, the sender's GEN and the leader (R477). -/
def State.treeMsg (s : State) (p : LockPart) (dst msg : Nat) (ws : List Word) : TreeMsg :=
  let g := if s.ident.pkey.toNat = p.key then s.ident.gen.toNat else p.gen.toNat
  ⟨dst, 1 + 256 * msg, p.cycle.toNat + put g 16 8, p.leader.toNat, p.key, ws⟩

/-- A message to every child. -/
def State.sendDown (s : State) (p : LockPart) (msg : Nat) (ws : List Word) : State :=
  p.children.foldl (fun t c => t.treePut (s.treeMsg p c msg ws)) s

/-- The words of a report (R480): the three counts, the first refusal plus one, the three sums, the flags. -/
def TreeAgg.words (a : TreeAgg) (drains : Bool) : List Word :=
  let two := fun (n : Nat) => [BitVec.ofNat 32 n, BitVec.ofNat 32 (n / 2 ^ 32)]
  [BitVec.ofNat 32 a.ready, BitVec.ofNat 32 a.refused, BitVec.ofNat 32 a.silent, BitVec.ofNat 32 a.first] ++ two a.orig
    ++ two a.acc ++ two a.drop ++ [BitVec.ofNat 32 (b2n a.outst + put (b2n a.busy) 1 1 + put (b2n a.changed) 2 1 + put (b2n drains) 3 1)]

/-- The report in some words, and whether staging below changes a drain-only table. -/
def aggOf (ws : List Word) : TreeAgg × Bool :=
  let w := fun (i : Nat) => (ws.getD i 0).toNat
  let two := fun (i : Nat) => w i + w (i + 1) * 2 ^ 32
  (⟨w 0, w 1, w 2, w 3, two 4, two 6, two 8, (w 10).testBit 0, (w 10).testBit 1, (w 10).testBit 2⟩, (w 10).testBit 3)

/-- Two reports together. -/
def TreeAgg.add (a b : TreeAgg) : TreeAgg :=
  ⟨a.ready + b.ready, a.refused + b.refused, a.silent + b.silent, if a.first ≠ 0 then a.first else b.first, a.orig + b.orig,
    a.acc + b.acc, a.drop + b.drop, a.outst || b.outst, a.busy || b.busy, a.changed || b.changed⟩

/-- The reports of a wave are gathered, beginning with the own. The silent blocks are those of the whole cycle, at the
swap those that fall silent in it (R290). -/
def State.gather (s : State) (wave : Nat) (a : TreeAgg) : State :=
  s.modPart (fun p => { p with
    wave := wave, await := p.children, agg := { a with silent := if wave = 8 then 0 else p.silent }, since := s.now })

/-! ## Staging (R287 step 1, R448 step 3, R476) -/

/-- Staging may be written (R284). -/
def State.stageOpen (s : State) : Bool := decide (s.tbl.other = .idle) && decide (s.tbl.phase = .none)

/-- A word may be a target of STAGED records (R476). -/
def stagedTarget (off : Nat) : Bool := isRouting off || isDrainOnly off

/-- The words of a record are staged. -/
def Tables.stageRec (t : Tables) (r : Rec) : Tables := r.writes.foldl (fun u e => u.stage e.1 (e.2 &&& tblMask e.1)) t

/-- The offset of the entry for number `n` in a substitution table: the one it has, or the first that is free. -/
def subSlot (b : SMap Word) (n : Nat) : Option Nat :=
  let w := fun (e : Nat) => tw b (0x1000 + 8 * e)
  let e := match lowest 256 (fun e => (w e).testBit 31 && decide (fld (w e) 0 18 = n)) with
    | some e => some e
    | none => lowest 256 (fun e => !(w e).testBit 31)
  e.map (fun e => 0x1000 + 8 * e)

/-- A substitution entry for number `n` with W1; none when no entry is free. -/
def subPut (b : SMap Word) (n w1 : Nat) : Option (SMap Word) :=
  (subSlot b n).map (fun o => tblSet (tblSet b o (BitVec.ofNat 32 (n + 2 ^ 31))) (o + 4) (BitVec.ofNat 32 w1))

/-- The substitution entries of a takeover (R30): the spare's number retired, and, away from the failed chip's
position, the failed number at the spare's. -/
def takeoverSubs (b : SMap Word) (failed spare : Nat) (same : Bool) (pos : Nat) : Option (SMap Word) :=
  match subPut b spare (2 ^ 30) with
  | none => none
  | some b1 => if same then some b1 else subPut b1 failed pos

/-- A block's share in a takeover before the lock cycle: ports that face the failed number are fenced by command, and
the substitution entries are staged on a copy of the bank in force (R30, R448 steps 2 and 3). -/
def State.takeoverHere (s : State) (failed spare : Nat) (same : Bool) (pos : Nat) : State :=
  let s1 := (List.range 12).foldl (fun t p =>
    let l := t.link p
    if l.peer.valid ∧ l.peer.chip = failed ∧ l.st ≠ .off ∧ l.st ≠ .fenced then (t.fencePort p 7).fenceSlots p else t) s
  match if s1.stageOpen then takeoverSubs (s1.bank s1.tbl.cur) failed spare same pos else none with
  | none => s1.modPart (fun p => { p with bad := true })
  | some b => { s1 with tbl := if s1.tbl.cur then { s1.tbl with bank0 := b } else { s1.tbl with bank1 := b } }

/-- STAGE at this block: the entries of a takeover, or records for this chip. -/
def State.stageHere (s : State) (ws : List Word) : State :=
  let w := fun (i : Nat) => (ws.getD i 0).toNat
  if w 0 = 0xFFFFFFFF then s.takeoverHere (w 1) (w 2) ((w 3).testBit 31) (fld (w 3) 0 22)
  else
    match parseRecs 64 ws with
    | none => s.modPart (fun p => { p with bad := true })
    | some rs =>
      let mine := rs.filter (fun r => r.isFor s.own)
      if ¬ s.stageOpen ∨ mine.any (fun r => r.writes.any (fun e => !stagedTarget e.1)) then s.modPart (fun p => { p with bad := true })
      else { s with tbl := mine.foldl Tables.stageRec s.tbl }

/-! ## The steps of R287 at a block -/

/-- SEAL: the checks of step 1; READY or REFUSED is gathered. -/
def State.sealHere (s : State) : State :=
  let bad := match s.mc.part with
    | some p => p.bad
    | none => true
  let ok := !bad && s.stagingOk && (s.stageOpen || (decide (s.tbl.phase = .staged) && decide (s.tbl.other = .ready)))
  let drains := s.stagingDrains
  let t := s.modPart (fun p => { p with drains := drains })
  if ok then
    let c := match s.mc.part with
      | some p => p.cycle
      | none => s.tbl.cycle
    (({ t with tbl := { t.tbl with other := .ready, phase := .staged, cycle := c } }).sayLock).gather 2 { TreeAgg.zero with ready := 1 }
  else t.gather 2 { TreeAgg.zero with refused := 1, first := s.own + 1 }

/-- LOCK (step 3). -/
def State.lockHere (s : State) : State :=
  if s.tbl.phase = .staged then ({ s with tbl := { s.tbl with phase := .locked, lockAt := s.now } }).sayLock else s

/-- COUNT (step 4): the packets of the cycle's partition, and what still is under way. Counts are changed when they
differ from those of the round before. -/
def State.countHere (s : State) : State :=
  match s.mc.part with
  | none => s
  | some p =>
    let c := s.countOf p.key
    let n := (c.orig, c.acc, c.drop)
    let changed := match p.last with
      | some m => decide (m ≠ n)
      | none => false
    (s.modPart (fun p => { p with last := some n })).gather 6 ⟨0, 0, 0, 0, c.orig, c.acc, c.drop,
      s.reqOut || s.inj.any (fun h => decide (h.pkt.pkey = p.key)), s.stagedBusy, changed⟩

/-- The towpath entries of a partition that are not OFF. -/
def State.towsOn (s : State) (key : Nat) : List Nat :=
  (List.range 128).filter (fun e => decide (s.ff (0xB004 + 32 * e) 0 16 = key) && decide ((s.tow e).st ≠ .off))

/-- Every towpath of a partition is disabled (R273, R288). -/
def State.towsOff (s : State) (key : Nat) : State := (s.towsOn key).foldl (fun t e => t.towDisable e) s

/-- Staging is in force here, and this block's share of the wave is done (step 6). -/
def State.swapNow (s : State) (p : LockPart) : State :=
  ((s.swapTables p.epochMode).sayLock).modPart (fun q => { q with
    agg := { q.agg with ready := q.agg.ready + 1 }, await := q.await.filter (fun n => decide (n ≠ s.own)) })

/-- A swap in epoch mode is made once every towpath of the partition is OFF here (R288); until then the block awaits
itself. -/
def State.swapDue (s : State) (p : LockPart) : Bool :=
  decide (s.tbl.phase ≠ .swapped) && decide (s.tbl.phase ≠ .none) && decide (p.wave = 8) && p.await.contains s.own
    && (!p.epochMode || decide (s.towsOn p.key = []))

/-- The swap that waited for towpaths is made. -/
def State.swapTurn (s : State) : State :=
  match s.mc.part with
  | some p => if s.swapDue p then s.swapNow p else s
  | none => s

/-- SWAP (step 6); in epoch mode the partition's towpaths are disabled first. A spare that waits for RELEASE has had no
LOCK. -/
def State.swapHere (s : State) (epoch : Bool) : State :=
  match s.mc.part with
  | none => s
  | some p =>
    if ¬ (s.tbl.phase = .locked ∨ (s.tbl.phase = .staged ∧ s.mc.spareWait)) then s.gather 8 TreeAgg.zero
    else
      let s1 := (s.gather 8 TreeAgg.zero).modPart (fun q => { q with epochMode := epoch, await := s.own :: q.await })
      (if epoch then s1.towsOff p.key else s1).swapTurn

/-- RELEASE reaches a block whose swap still waits for towpaths: they go OFF, and the swap is made. -/
def State.swapLate (s : State) : State :=
  match s.mc.part with
  | some p =>
    if p.wave = 8 ∧ p.await.contains s.own then ((s.towsOn p.key).foldl (fun t e => t.towKill e) s).swapTurn else s
  | none => s

/-- The cycle ends at this block: what was held goes on, towpath entries that the swap put OFF start (R274), PHASE 0;
without a swap a READY bank returns to IDLE unless `keep` (R287 step 8, R290). -/
def State.unlock (s : State) (keep : Bool) : State :=
  let was := s.tbl.phase
  let s1 : State := { s with tbl := { s.tbl with
    phase := .none
    other := if was ≠ .swapped ∧ ¬ keep ∧ s.tbl.other = .ready then BankSt.idle else s.tbl.other } }
  let s2 := if was = .none then s1 else s1.sayLock
  let s3 := (({ s2 with mc := { s2.mc with part := none } }).releaseCp).raRelease
  (List.range 128).foldl (fun t e => t.towTry e) s3

/-- RELEASE (step 8); a spare takes packets from now on (R31). -/
def State.releaseHere (s : State) : State :=
  let t := s.swapLate.unlock false
  { t with mc := { t.mc with spareWait := false } }

/-! ## The wave -/

/-- What a message of the leader does at this block. -/
def State.waveHere (s : State) (msg : Nat) (ws : List Word) : State :=
  match msg with
  | 1 => s.stageHere ws
  | 2 => s.sealHere
  | 5 => s.lockHere
  | 6 => s.countHere
  | 8 => s.swapHere ((ws.headD 0).toNat.testBit 0)
  | 10 => s.releaseHere
  | _ => s

/-- A wave passes this block: on to its children, and its own step. -/
def State.wave (s : State) (msg : Nat) (ws : List Word) : State :=
  match s.mc.part with
  | none => s
  | some p => (s.sendDown p msg ws).waveHere msg ws

/-- Words that the spec leaves open: free values. -/
def State.freeWords (s : State) (n : Nat) : List Word × State :=
  ((List.range n).map (fun i => BitVec.ofNat 32 (Sys2Proof.Config.freeValue (s.free + i)).toNat), { s with free := s.free + n })

/-- EV_IMG (R487). -/
def State.sayImg (s : State) (status first : Nat) : State := s.emit (0x83 + put status 8 8 + put first 16 16)

/-- The leader ends its cycle: RELEASE goes out, and the command that asked for it is answered. A refusal names a
record and a reason that the reports do not carry: free values. -/
def State.leadEnd (s : State) (l : Lead) (status : Nat) (ws : List Word) : State :=
  let s1 := s.wave 10 []
  let s2 : State := { s1 with mc := { s1.mc with lead := none } }
  let (rs, s3) := if status = 4 then s2.freeWords 2 else (ws, s2)
  let s4 := match l.use with
    | .apply serial =>
      let t := s3.sayImg status (rs.headD 0).toNat
      let u := if status = 4 then t.raise 0x7C 0 0 0 0x60 else t
      if status = 0 then { u with mc := { u.mc with serial := some serial } } else u
    | _ => s3
  s4.answerAsk l.who status rs

/-- The words that a finished cycle answers. -/
def State.leadWords (s : State) (l : Lead) (p : LockPart) : List Word :=
  let c := BitVec.ofNat 32 p.cycle.toNat
  match l.use with
  | .apply _ => [c]
  | .swap => [c, BitVec.ofNat 32 (b2n p.epochMode)]
  | .takeover _ _ _ => [c, BitVec.ofNat 32 s.ident.gen.toNat]

/-- The leader of a takeover counts on silence: of the failed chip, and of the spare under its former number. -/
def Lead.bears (l : Lead) (silent : Nat) : Bool :=
  match l.use with
  | .takeover _ _ _ => decide (silent ≤ 2)
  | _ => decide (silent = 0)

/-- A takeover meets a new generation (R449). -/
def State.leadStale (s : State) (l : Lead) : Bool :=
  match l.use with
  | .takeover _ _ _ => decide (l.gen ≠ s.ident.gen)
  | _ => false

/-- SWAP goes out. The spare of a takeover at another position has no place in the tree, and by its new number it can
be reached only by the tables that the leader now puts in force: it is asked here for the first time. -/
def State.swapWave (s : State) (l : Lead) (epoch : Bool) : State :=
  let t := match l.use with
    | .takeover failed _ false =>
      s.modPart (fun p => { p with children := p.children.filter (fun n => decide (n ≠ failed.toNat)) ++ [failed.toNat] })
    | _ => s
  t.wave 8 [BitVec.ofNat 32 (b2n epoch)]

/-- The leader goes on once a wave has been answered (R287 steps 2, 5, 7): SWAP after two quiet rounds in a row (R480);
RELEASE at once, unless a block fell silent at the swap (R290). -/
def State.leadStep (s : State) (l : Lead) (p : LockPart) : State :=
  let a := p.agg
  if p.wave = 2 then
    if a.refused ≠ 0 ∨ s.leadStale l then s.leadEnd l 4 []
    else if ¬ l.bears a.silent then s.leadEnd l 9 []
    else (s.wave 5 []).wave 6 []
  else if p.wave = 6 then
    let quiet := !a.changed && decide (a.orig = a.acc + a.drop) && !a.outst && !a.busy && decide (a.silent = 0)
    let n := if quiet then p.quietRounds + 1 else 0
    let t := s.modPart (fun p => { p with quietRounds := n, wave := 0 })
    if 2 ≤ n then t.swapWave l false
    else if p.children = [] then t
    else t.wave 6 []
  else if a.silent ≠ 0 then s
  else s.leadEnd l 0 (s.leadWords l p)

/-- A block sends its report up (R480). -/
def State.reportUp (s : State) (p : LockPart) : State :=
  let msg := if p.wave = 2 then (if p.agg.refused = 0 then 3 else 4) else if p.wave = 6 then 7 else 9
  (s.treePut (s.treeMsg p p.parent msg (p.agg.words p.drains))).modPart (fun p => { p with wave := 0 })

/-- A wave whose reports are all here goes on. -/
def State.treeTurn : Nat → State → State
  | 0, s => s
  | fuel + 1, s =>
    match s.mc.part with
    | none => s
    | some p =>
      if p.wave = 0 ∨ p.await ≠ [] then s
      else
        match s.mc.lead with
        | some l => State.treeTurn fuel (s.leadStep l p)
        | none => s.reportUp p

/-- The leader seals once everything it sent has been answered. -/
def State.leadSeal (s : State) : State :=
  match s.mc.lead, s.mc.part with
  | some _, some p =>
    if p.wave = 0 ∧ (s.tbl.phase = .none ∨ s.tbl.phase = .staged) ∧ s.treeIdle then s.wave 2 [] else s
  | _, _ => s

/-- What the tree allows now is done. -/
def State.treeGo (s : State) : State := ((s.leadSeal).treeTurn 8).pumpTree

/-- A swap that waited for towpaths is made, and the tree goes on. -/
def State.swapSettle (s : State) : State :=
  match s.mc.part with
  | some p => if s.swapDue p then (s.swapNow p).treeGo else s
  | none => s

/-- A leader without children repeats its drain round as time passes. -/
def State.leadRound (s : State) : State :=
  match s.mc.lead, s.mc.part with
  | some _, some p => if p.wave = 0 ∧ s.tbl.phase = .locked then (s.wave 6 []).treeGo else s
  | _, _ => s

/-! ## Leading (R287, R289, R290) -/

/-- A lock cycle is in progress here, or a bank is in HOLD: a second one is refused. `staged`: a sealed staging does
not count. -/
def State.cycleBusy (s : State) (staged : Bool) : Bool :=
  s.mc.lead.isSome || s.mc.part.isSome || decide (s.tbl.other = .hold)
    || !(decide (s.tbl.phase = .none) || (staged && decide (s.tbl.phase = .staged)))

/-- This block becomes the leader of a new cycle. -/
def State.leadStart (s : State) (use : LeadUse) (who : Asker) : State :=
  let c := s.mc.cycle + 1
  let p : LockPart := {
    cycle := c, leader := s.ident.chip, gen := s.ident.gen, parent := s.own, wave := 0
    children := s.ownKids s.own s.ident.pkey.toNat, await := [], agg := TreeAgg.zero, last := none, quietRounds := 0
    epochMode := false, bad := false, since := s.now, key := s.ident.pkey.toNat, drains := false, silent := 0 }
  { s with
    tbl := { s.tbl with cycle := c }
    mc := { s.mc with cycle := c, part := some p, lead := some ⟨use, who, s.ident.gen⟩ } }

/-! ## Messages of the tree -/

/-- A message of a leader's wave concerns this block: it has joined the cycle, or joins it now. Only STAGE and SEAL
begin a part, and not while another cycle holds the block (R290). -/
def State.joinPart (s : State) (p : Packet) (msg : Nat) : Option State :=
  let cycle := BitVec.ofNat 16 p.h5.toNat
  let leader := BitVec.ofNat 18 p.h6.toNat
  let fresh : LockPart := {
    cycle := cycle, leader := leader, gen := BitVec.ofNat 8 (p.h5.toNat / 2 ^ 16), parent := p.src, wave := 0
    children := s.ownKids leader.toNat p.pkey, await := [], agg := TreeAgg.zero, last := none, quietRounds := 0
    epochMode := false, bad := false, since := s.now, key := p.pkey, drains := false, silent := 0 }
  match s.mc.part with
  | some q =>
    if q.cycle = cycle ∧ q.leader = leader ∧ s.mc.lead.isNone then some (s.modPart (fun q => { q with parent := p.src }))
    else if msg ≤ 2 ∧ s.mc.lead.isNone ∧ s.tbl.phase = .none ∧ s.tbl.other ≠ .hold then
      some { s with mc := { s.mc with part := some fresh } }
    else none
  | none =>
    if msg ≤ 2 ∧ (s.tbl.phase = .none ∨ s.tbl.phase = .staged) ∧ s.tbl.other ≠ .hold then
      some { s with mc := { s.mc with part := some fresh } }
    else none

/-- A refusal from a block that another cycle holds. -/
def State.refuseUp (s : State) (p : Packet) : State :=
  s.treePut ⟨p.src, 1 + 256 * 4, p.h5.toNat % 2 ^ 24, fld p.h6.toNat 0 18, p.pkey,
    ({ TreeAgg.zero with refused := 1, first := s.own + 1 } : TreeAgg).words false⟩

/-- A message of the leader, taken and acknowledged. -/
def State.treeDown (s : State) (h : Held) (msg : Nat) : State :=
  let p := h.pkt
  let gen := fld p.h5.toNat 16 8
  let s0 := s.mgtReply p []
  let s1 := if msg = 1 ∧ p.pkey = s0.ident.pkey.toNat ∧ gen ≠ s0.ident.gen.toNat then s0.judgeAbort h.port gen (fld p.h6.toNat 0 18) 0 0
    else s0
  match s1.joinPart p msg with
  | some t => (t.wave msg (payWords p.pay)).treeGo
  | none => (if msg = 2 then s1.refuseUp p else s1).pumpTree

/-- A child's report, taken and acknowledged: it joins the wave that gathers it. -/
def State.treeUp (s : State) (h : Held) (wave : Nat) : State :=
  let p := h.pkt
  let s1 := s.mgtReply p []
  match s1.mc.part with
  | none => s1.pumpTree
  | some q =>
    if q.cycle = BitVec.ofNat 16 p.h5.toNat ∧ q.leader = BitVec.ofNat 18 p.h6.toNat ∧ q.wave = wave ∧ q.await.contains p.src then
      let (a, d) := aggOf (payWords p.pay)
      (s1.modPart (fun q => { q with agg := q.agg.add a, drains := q.drains || d, await := dropFirst (fun x => decide (x = p.src)) q.await })).treeGo
    else s1.pumpTree

/-- A row of the leader's messages. -/
def treeDownRow (i msg : Nat) (s : State) : Out :=
  mgtRow i (fun c m => decide (c = 1) && decide (m = msg)) (fun s h => s.treeDown h msg) s

/-- A row of reports. -/
def treeUpRow (i msg wave : Nat) (s : State) : Out :=
  mgtRow i (fun c m => decide (c = 1) && decide (m = msg)) (fun s h => s.treeUp h wave) s

/-- TREE_STAGE (R476). -/
def execTreeStage (i : Nat) (s : State) : Out := treeDownRow i 1 s
/-- TREE_SEAL (R287 step 1). -/
def execTreeSeal (i : Nat) (s : State) : Out := treeDownRow i 2 s
/-- TREE_READY (R287 step 2). -/
def execTreeReady (i : Nat) (s : State) : Out := treeUpRow i 3 2 s
/-- TREE_REFUSED (R287 step 2). -/
def execTreeRefused (i : Nat) (s : State) : Out := treeUpRow i 4 2 s
/-- TREE_LOCK (R287 step 3). -/
def execTreeLock (i : Nat) (s : State) : Out := treeDownRow i 5 s
/-- TREE_COUNT (R287 step 4, R480). -/
def execTreeCount (i : Nat) (s : State) : Out := treeDownRow i 6 s
/-- TREE_REPORT (R287 step 5, R480). -/
def execTreeReport (i : Nat) (s : State) : Out := treeUpRow i 7 6 s
/-- TREE_SWAP (R287 step 6, R288). -/
def execTreeSwap (i : Nat) (s : State) : Out := treeDownRow i 8 s
/-- TREE_SWAPPED (R287 step 7). -/
def execTreeSwapped (i : Nat) (s : State) : Out := treeUpRow i 9 8 s
/-- TREE_RELEASE (R287 step 8). -/
def execTreeRelease (i : Nat) (s : State) : Out := treeDownRow i 10 s

/-! ## The spare (R30, R448 step 3, R478) -/

/-- The registers and tables that a SPARE request may write. -/
def spareTarget (off : Nat) : Bool := decide (0x20000 ≤ off) && decide (off < 0x28000)

/-- A spare that keeps its position takes the substitution entries of every member into its staging, and part in the
swap: `former` is its number until now, `pos` its position (R30). -/
def State.spareJoin (s : State) (p : Packet) (failed former pos : Nat) : State :=
  let cycle := BitVec.ofNat 16 p.h5.toNat
  let mine := match s.mc.part with
    | some q => decide (q.cycle = cycle)
    | none => false
  let b := s.bank (if mine then !s.tbl.cur else s.tbl.cur)
  match if s.stageOpen then takeoverSubs b failed former false pos else none with
  | none => s
  | some b =>
    let t : State := { s with tbl := if s.tbl.cur then { s.tbl with bank0 := b } else { s.tbl with bank1 := b } }
    if ¬ t.stagingOk then s
    else
      let q : LockPart := {
        cycle := cycle, leader := BitVec.ofNat 18 p.h6.toNat, gen := s.ident.gen, parent := p.src, wave := 0
        children := [], await := [], agg := TreeAgg.zero, last := none, quietRounds := 0
        epochMode := false, bad := false, since := s.now, key := p.pkey, drains := t.stagingDrains, silent := 0 }
      ({ t with
        tbl := { t.tbl with other := .ready, phase := .staged, cycle := cycle }
        mc := { t.mc with part := some q } }).sayLock

/-- The words of a SPARE request take effect as the kernel's writes: records of group entries not yet VALID and of the
rank list, or, last, the number, the range, the entries that become VALID, and the partition, whose packets the spare
does not take before RELEASE (R31). -/
def State.spareHere (s : State) (p : Packet) (ws : List Word) : State :=
  let w := fun (i : Nat) => ws.getD i 0
  if w 0 = 0xFFFFFFFE then
    let s1 := ((s.writeReg 0x10C true (w 3)).writeReg 0x110 true (w 4)).writeReg 0x100 true (w 1)
    let gs := (List.range 512).filter (fun g => (w (5 + g / 32)).toNat.testBit (g % 32))
    let s2 := (gs.foldl (fun t g => t.writeReg (grpOff g) true (t.force (grpOff g) ||| 1)) s1).writeReg 0x108 true (w 2)
    let s3 : State := { s2 with mc := { s2.mc with spareWait := true } }
    if (w 22).toNat.testBit 31 then s3 else s3.spareJoin p (fld (w 1).toNat 0 18) (fld (w 21).toNat 0 18) (fld (w 22).toNat 0 22)
  else
    match parseRecs 64 ws with
    | none => s
    | some rs => rs.foldl (fun t r => r.writes.foldl (fun u e => if spareTarget e.1 then u.writeReg e.1 true e.2 else u) t) s

/-- MB_REQ_SPARE. -/
def execMbReqSpare (i : Nat) (s : State) : Out :=
  mgtRow i (fun c _ => decide (c = 2)) (fun s h => (s.mgtReply h.pkt []).spareHere h.pkt (payWords h.pkt.pay)) s

/-- A word as it goes to the spare ahead of the last message: a group entry not yet VALID. -/
def spareWord (e : Nat × Word) : Word := if e.1 < 0x24000 ∧ e.1 % 32 = 0 then e.2 &&& 0xFFFFFFFE else e.2

/-- The SPARE requests of a takeover: what the image stages for the spare among group entries and rank list, then its
number, partition and place. -/
def State.sendSpare (s : State) (failed spare : Nat) (same : Bool) (pos : Nat) (rs : List Rec) : State :=
  match s.mc.part with
  | none => s
  | some p =>
    let m := fun (ws : List Word) =>
      TreeMsg.mk spare 2 (p.cycle.toNat + put s.ident.gen.toNat 16 8) p.leader.toNat p.key ws
    let mine := rs.filter (fun r => (r.isFor failed || r.isFor spare) && decide (r.cls = 1))
    let es := (mine.flatMap Rec.writes).filter (fun e => spareTarget e.1)
    let t := es.foldl (fun u e => u.treePut (m (Rec.words ⟨e.1, 1, none, [spareWord e]⟩))) s
    let gs := (es.filter (fun e => decide (e.1 < 0x24000) && decide (e.1 % 32 = 0) && e.2.toNat.testBit 0)).map (fun e => (e.1 - 0x20000) / 32)
    let map := (List.range 16).map (fun i => BitVec.ofNat 32 (maskOf ((gs.filter (fun g => decide (g / 32 = i))).map (· % 32))))
    t.treePut (m ([0xFFFFFFFE, BitVec.ofNat 32 (failed + 2 ^ 31), BitVec.ofNat 32 (s.ident.pkey.toNat + put s.ident.gen.toNat 16 8),
      BitVec.ofNat 32 s.ident.lo.toNat, BitVec.ofNat 32 s.ident.hi.toNat] ++ map
      ++ [BitVec.ofNat 32 spare, BitVec.ofNat 32 (pos + put (b2n same) 31 1)]))

/-! ## Answers and silence (R479, R480) -/

/-- MB_RSP: it matches a request held outstanding, or is dropped (R478). -/
def execMbRsp (i : Nat) (s : State) : Out :=
  pktRow i [0xC2] (fun s h =>
    match s.mc.outst.find? (fun o => decide (o.mseq = qf h.pkt.h7 0 32)) with
    | none => s.mgtDrop
    | some o =>
      let t : State := { s with mc := { s.mc with outst := s.mc.outst.filter (fun x => decide (x.mseq ≠ o.mseq)) } }
      match o.who with
      | some a => t.answerAsk a 0 ((payWords h.pkt.pay).take 63)
      | none => t.treeGo) s

/-- A child is silent: its children take its place, and what it did not answer goes to them (R480). -/
def State.childSilent (s : State) (o : MgtOut) : State :=
  match s.mc.part with
  | none => s
  | some p =>
    let lost : List TreeMsg := ⟨o.dst, o.aux, o.h5, o.h6, o.pkey, payWords o.pay⟩ :: s.mc.treeQ.filter (fun m => decide (m.dst = o.dst))
    let rest := s.mc.treeQ.filter (fun m => decide (m.dst ≠ o.dst))
    if ¬ p.children.contains o.dst then { s with mc := { s.mc with treeQ := rest } }
    else
      let joined := match s.mc.lead with
        | some ⟨.takeover failed _ false, _, _⟩ => decide (p.wave = 8) && decide (failed.toNat = o.dst)
        | _ => false
      let kids := if joined then [] else s.kidsOf o.dst p.leader.toNat
      let swap := fun (l : List Nat) => l.flatMap (fun n => if n = o.dst then kids else [n])
      let t := { s with mc := { s.mc with treeQ := rest ++ lost.flatMap (fun (m : TreeMsg) => kids.map (fun k => { m with dst := k })) } }
      t.modPart (fun p => { p with
        children := swap p.children, await := swap p.await, silent := p.silent + 1, agg := { p.agg with silent := p.agg.silent + 1 } })

/-- A peer is treated as silent. -/
def State.peerSilent (s : State) (o : MgtOut) : State :=
  let t : State := { s with mc := { s.mc with outst := s.mc.outst.filter (fun x => decide (x.mseq ≠ o.mseq)) } }
  match o.who with
  | some a => t.answerAsk a 9 []
  | none =>
    if o.aux % 16 = 2 then
      match t.mc.lead with
      | some l => (({ t with mc := { t.mc with treeQ := t.mc.treeQ.filter (fun m => decide (m.aux % 16 ≠ 2)) } }).leadEnd l 9 []).pumpTree
      | none => t
    else (t.childSilent o).treeGo

/-- MGT_RESEND_TIMEOUT (R479): 100 µs without a response; the ninth time the peer is silent. -/
def execMgtResendTimeout (mseq : Nat) (s : State) : Out :=
  match s.mc.outst.find? (fun o => decide (o.mseq = mseq) && decide (o.at_ + nsTicks 100000 ≤ s.now)) with
  | some o => run s true (fun s => if o.sends < 8 then s.mgtResend o else s.peerSilent o)
  | none => run s false id

/-! ## Limits of the cycle (R286, R288, R290) -/

/-- DRAIN_TO in REFCLK cycles. -/
def State.drainTicks (s : State) : Nat := nsTicks (64000 * s.rf 0x320 0 8)

/-- LOCK_DRAIN_TIMEOUT (R288): epoch mode, or no change. -/
def execLockDrainTimeout (s : State) : Out :=
  match s.mc.lead, s.mc.part with
  | some l, some p =>
    run s (decide (s.tbl.phase = .locked) && decide (s.tbl.lockAt + s.drainTicks ≤ s.now)) (fun s =>
      if (s.reg 0x320).toNat.testBit 16 ∧ ¬ p.drains then ((s.swapWave l true).treeGo) else (s.leadEnd l 6 []).pumpTree)
  | _, _ => run s false id

/-- LOCK_SWAP_TIMEOUT (R290): the block resumes without swapping and keeps its other bank READY. -/
def execLockSwapTimeout (s : State) : Out :=
  run s (s.mc.lead.isNone && decide (s.tbl.phase = .locked) && decide (s.tbl.lockAt + 4 * s.drainTicks ≤ s.now)) (fun s => s.unlock true)

/-- LOCK_RELEASE_TIMEOUT (R290): RELEASE without every SWAPPED. -/
def execLockReleaseTimeout (s : State) : Out :=
  match s.mc.lead, s.mc.part with
  | some l, some p =>
    run s (decide (p.wave = 8) && decide (p.since + s.drainTicks ≤ s.now)) (fun s => (s.leadEnd l 0 (s.leadWords l p)).pumpTree)
  | _, _ => run s false id

end Sys2Proof.Machine
end

