-- ==== Sys2Proof/Machine/Firmware.lean ====
section
/-! DEFINITION. Expert control, and the loading, running and watching of the service firmware (R464, R466 to R469,
R474). Each command of the mailbox is a function of who asks and of the request's words, and answers itself. -/

namespace Sys2Proof.Machine

/-! ## Requests -/

/-- Argument `i` of a request, as a number. -/
def arg (ws : List Word) (i : Nat) : Nat := (ws.getD i 0).toNat
/-- CMD of a request. -/
def reqCmd (ws : List Word) : Nat := fld (arg ws 0) 0 8
/-- NW of a request. -/
def reqNw (ws : List Word) : Nat := fld (arg ws 0) 16 6
/-- The bytes of `n` bytes of data that begin at argument `i`. -/
def argBytes (ws : List Word) (i n : Nat) : List Byte := (wordBytes (ws.drop i)).take n

/-! ## Expert control (R474) -/

/-- MB_NONCE: a fresh nonce. -/
def State.mbNonce (s : State) (who : Asker) (_ : List Word) : State :=
  let n := Sys2Proof.Config.nonce s.free
  let t : State := { s with free := s.free + 1, mc := { s.mc with nonce := some (n, s.now) } }
  t.answerAsk who 0 ((List.range 8).map (fun i => BitVec.ofNat 32 (n.toNat / 2 ^ (32 * i))))

/-- The presented key and signature open expert control for a duration. -/
def State.expertOk (s : State) (ws : List Word) : Bool :=
  let key := argBytes ws 2 97
  let sig := argBytes ws 27 96
  match s.mc.nonce, s.pwr.owner with
  | some (n, t), some d =>
    decide (s.now ≤ t + nsTicks 60000000000) && decide (sha384 key = d.toNat)
      && sigOk key (leBytes 32 n.toNat ++ leBytes 4 (s.readWord 0).toNat ++ leBytes 4 (s.readWord 0x100).toNat ++ leBytes 4 (arg ws 1)) sig
  | _, _ => false

/-- MB_EXPERT_ON: the nonce is consumed in any case. -/
def State.mbExpertOn (s : State) (who : Asker) (ws : List Word) : State :=
  let t : State := { s with mc := { s.mc with nonce := none } }
  if arg ws 1 = 0 ∨ 3600 < arg ws 1 then t.answerAsk who 2 []
  else if s.expertOk ws then
    ({ t with mc := { t.mc with openUntil := some (s.now + arg ws 1 * 156250000) } }.sayExpert).answerAsk who 0 []
  else (t.raise 0x7B 0 1 0 0x60).answerAsk who 8 []

/-- MB_EXPERT_OFF. -/
def State.mbExpertOff (s : State) (who : Asker) (_ : List Word) : State := (s.closeExpert).answerAsk who 0 []

/-- EXPERT_EXPIRE: the duration has passed. -/
def execExpertExpire (s : State) : Out :=
  match s.mc.openUntil with
  | some t => run s (decide (t ≤ s.now)) (fun s => s.closeExpert)
  | none => run s false id

/-! ## Images in chunks (R468, R473) -/

/-- Chunks cover `n` bytes exactly once. -/
def covered (parts : List (Nat × Nat)) (n : Nat) : Bool := decide ((parts.map (·.2)).foldl (· + ·) 0 = n)

/-- A chunk of a load of `len` bytes may be written: its size, its place, and not where another lies. -/
def chunkOk (parts : List (Nat × Nat)) (len : Nat) (ws : List Word) : Bool :=
  let off := arg ws 1
  let n := arg ws 2
  decide (4 ≤ n) && decide (n ≤ 240) && decide (2 + (n + 3) / 4 ≤ reqNw ws) && decide (off + n ≤ len)
    && !parts.any (fun p => decide (p.1 < off + n) && decide (off < p.1 + p.2))

/-- KEY padded to 100 bytes, and SIG. -/
def sealLen : Nat := 196

/-- The most bytes a firmware image can have. -/
def fwMax : Nat := 64 + 98304 + 524288 + 131072 + sealLen

/-- MB_FW_BEGIN: a load begins; running firmware is stopped. -/
def State.mbFwBegin (s : State) (who : Asker) (ws : List Word) : State :=
  if arg ws 1 < 64 + sealLen ∨ fwMax < arg ws 1 then s.answerAsk who 2 []
  else
    let t : State := { s with mc := { s.mc with
      fwLen := arg ws 1, fwParts := [], kx := 0, fc := 0, fd := 0, entry := 0, digest := 0, initData := [], svn := 0, fwver := 0 } }
    (t.setFw .basic .loading).answerAsk who 0 []

/-- MB_FW_CHUNK: the bytes go into the kernel and firmware regions, where the image lies in one piece until it is
committed. -/
def State.mbFwChunk (s : State) (who : Asker) (ws : List Word) : State :=
  if chunkOk s.mc.fwParts s.mc.fwLen ws then
    let t := s.ramWrite (arg ws 1) (argBytes ws 3 (arg ws 2))
    ({ t with mc := { t.mc with fwParts := t.mc.fwParts ++ [(arg ws 1, arg ws 2)] } }).answerAsk who 0 []
  else s.answerAsk who 2 []

/-- The least SVN that the fuses allow: the number of SVN bits blown (R467). -/
def State.svnMin (s : State) : Nat := (setBits 8 s.pwr.svnFuse).length

/-- The checks of R467 on an image: the status of the first that fails. -/
def State.fwCheck (s : State) (img : List Byte) : Option Nat :=
  let w := wordAt img
  let kx := w 12
  let fc := w 16
  let fd := w 20
  let body := 64 + kx + fc + fd
  let b := fun (i : Nat) => (img.getD i 0).toNat
  let zero := (List.range 36).all (fun i => decide (b (28 + i) = 0)) && decide (b 9 = 0) && decide (b 10 = 0) && decide (b 11 = 0)
    && (List.range 3).all (fun i => decide (b (body + 97 + i) = 0))
  if w 0 ≠ 0x3D320F17 ∨ kx % 4 ≠ 0 ∨ 98304 < kx ∨ fc % 4 ≠ 0 ∨ 524288 < fc ∨ fd % 4 ≠ 0 ∨ 131072 < fd ∨ fc ≤ w 24
      ∨ img.length ≠ body + sealLen ∨ ¬ zero then some 2
  else
    let key := (img.drop body).take 97
    let sig := (img.drop (body + 100)).take 96
    if b 8 < s.svnMin ∨ sha384 key ≠ Sys2Proof.Config.romKeyDigest.toNat ∨ ¬ sigOk key (img.take body) sig then some 8 else none

/-- A load fails: both regions are zeroed, and the firmware is gone (R468). -/
def State.fwFail (s : State) (who : Asker) (status : Nat) : State :=
  let t := s.ramZero 0 stageBase
  ((({ t with mc := { t.mc with fwLen := 0, fwParts := [], fc := 0 } }).raise 0x78 0 1 0 0x60).setFw .basic .none).answerAsk who status []

/-- MB_FW_COMMIT: the sections take their places and the firmware starts; the answer follows its first heartbeat. -/
def State.mbFwCommit (s : State) (who : Asker) (_ : List Word) : State :=
  let img := s.ramRead 0 s.mc.fwLen
  if s.mc.fwLen = 0 ∨ ¬ covered s.mc.fwParts s.mc.fwLen then s.fwFail who 2
  else
    match s.fwCheck img with
    | some st => s.fwFail who st
    | none =>
      let kx := wordAt img 12
      let fc := wordAt img 16
      let fd := wordAt img 20
      let code := (img.drop (64 + kx)).take fc
      let t := ((s.ramZero 0 stageBase).ramWrite 0 ((img.drop 64).take kx)).ramWrite codeBase code
      let u : State := { t with mc := { t.mc with
        fwLen := 0, fwParts := [], kx := kx, fc := fc, fd := fd, entry := wordAt img 24, svn := img.getD 8 0
        fwver := BitVec.ofNat 32 (wordAt img 4), digest := BitVec.ofNat 384 (sha384 code)
        initData := (img.drop (64 + kx + fc)).take fd } }
      u.startFw

/-! ## The running firmware (R464, R466, R468) -/

/-- Firmware has been started and runs. -/
def State.fwRuns (s : State) : Bool := decide (s.mc.fc ≠ 0) && decide (s.mc.fw ≠ .none)

/-- FW_HEARTBEAT: the first one after a start leads to FULL and completes MB_FW_COMMIT. -/
def execFwHeartbeat (s : State) : Out :=
  run s s.fwRuns (fun s =>
    let t := ({ s with mc := { s.mc with heartAt := s.now } }).setFw .full .running
    match t.mc.mb.busy with
    | some r => if r.started ∧ reqCmd r.words = 0x12 then t.mbDone 0 [] else t
    | none => t)

/-- FW_WDOG_EXPIRE: 10 ms without a heartbeat. -/
def execFwWdogExpire (s : State) : Out :=
  run s (s.fwRuns && decide (s.mc.heartAt + nsTicks 10000000 ≤ s.now)) (fun s => (s.raise 0x79 0 1 0 0x60).restartFw)

/-- Counter and capture registers of the block: RW words of drops, errors and counts, and W1C captures. -/
def isCounter (off : Nat) : Bool :=
  off ∈ [0x114, 0x118, 0x11C, 0x160, 0x16C, 0x170, 0x184, 0x18C, 0x200, 0x204, 0x208, 0x20C, 0x310, 0x314, 0xF00, 0xF08, 0xF0C, 0x2014,
      0x3014, 0x3024, 0xF010, 0x32004, 0x32008]
    || (match inArr off 0x600 0x20 12, inArr off 0x800 0x40 12, inArr off 0xE00 0x10 16 with
      | some (_, r), _, _ => decide (r = 8) || decide (r = 12)
      | _, some (_, r), _ => decide (0xC ≤ r) && decide (r ≤ 0x20)
      | _, _, some (_, r) => decide (r = 12)
      | _, _, _ => false)
    || (decide (0x2200 ≤ off) && decide (off < 0x2800)) || (decide (0x30000 ≤ off) && decide (off < 0x30160))
    || (match inArr off 0xD000 0x100 16, inArr off 0x30400 0x40 32 with
      | some (_, r), _ => decide (r = 0x1C) || decide (r = 0x20)
      | _, some (_, r) => decide (r < 0x30) && decide (r ≠ 0xC)
      | _, _ => false)

/-- RG offsets that the firmware may write (R363, R464, R510). -/
def fwMayWrite (off : Nat) : Bool :=
  (decide (0xF200 ≤ off) && decide (off < 0xF300)) || decide (off = 0xF00C) || (decide (0xE000 ≤ off) && decide (off < 0xE800))
    || isCounter off || (decide (0x32100 ≤ off) && decide (off < 0x32204)) || off ∈ [0x32040, 0x3200C, 0x34000]

/-- The token area is closed: MB_EXPERT_ON is in progress (R474). -/
def State.tokenArea (s : State) (off : Nat) : Bool :=
  match s.mc.mb.busy with
  | some r => decide (reqCmd r.words = 3) && decide (0xF104 ≤ off) && decide (off < 0xF1CC)
  | none => false

/-- An access that the firmware may make (R463, R464). -/
def State.fwAllowed (s : State) (x : FwAccess) : Bool :=
  let a := x.addr.toNat
  if 0x10020000 ≤ a ∧ a < 0x100A0000 then !x.wr
  else if 0x100A0000 ≤ a ∧ a < 0x100C0000 then true
  else if 0x100C0000 ≤ a ∧ a < 0x10100000 then !x.wr
  else if 0x20000000 ≤ a ∧ a < 0x20100000 then
    (if x.wr then fwMayWrite ((a - 0x20000000) / 4 * 4) else !s.tokenArea (a - 0x20000000))
  else false

/-- FW_ACCESS_VIOLATION: the access is not made; the firmware restarts. -/
def execFwAccessViolation (x : FwAccess) (s : State) : Out :=
  run s (s.fwRuns && !s.fwAllowed x) (fun s => (s.raise 0x7A 0 1 (if x.wr then 2 else 1) 0x60 x.addr.toNat).restartFw)

end Sys2Proof.Machine
end

