-- ==== Sys2Proof/Machine/Image.lean ====
section
/-! DEFINITION. Configuration images: their delivery, checks and application (R284, R285, R287, R475, R476). -/

namespace Sys2Proof.Machine

/-! ## Delivery (R473) -/

/-- MB_IMG_BEGIN. -/
def State.mbImgBegin (s : State) (who : Asker) (ws : List Word) : State :=
  if arg ws 1 < 64 + sealLen ∨ 262144 < arg ws 1 then s.answerAsk who 2 []
  else ({ s with mc := { s.mc with imgLen := some (arg ws 1), imgParts := [] } }).answerAsk who 0 []

/-- MB_IMG_CHUNK. -/
def State.mbImgChunk (s : State) (who : Asker) (ws : List Word) : State :=
  if chunkOk s.mc.imgParts (s.mc.imgLen.getD 0) ws then
    let t := s.ramWrite (stageBase + arg ws 1) (argBytes ws 3 (arg ws 2))
    ({ t with mc := { t.mc with imgParts := t.mc.imgParts ++ [(arg ws 1, arg ws 2)] } }).answerAsk who 0 []
  else s.answerAsk who 2 []

/-! ## The image (R475) -/

/-- An image that has its layout and signature: TARGET, SERIAL, NREC and the words of its records. -/
structure Image where
  target : Nat
  serial : Nat
  nrec : Nat
  words : List Word
deriving DecidableEq, Repr

/-- The image in the staging area, or the status of the first check that fails: layout, then signature. -/
def State.image (s : State) : Except Nat Image :=
  let len := s.mc.imgLen.getD 0
  let img := s.ramRead stageBase len
  let w := wordAt img
  let body := 64 + w 24
  let zero := (List.range 8).all (fun i => decide (w (32 + 4 * i) = 0)) && decide (((img.drop (body + 97)).take 3).all (fun b => b = 0))
  if s.mc.imgLen.isNone ∨ ¬ covered s.mc.imgParts len ∨ w 0 ≠ 0x3D32C0F6 ∨ w 4 ≠ 1 ∨ fld (w 8) 18 13 ≠ 0 ∨ 2 ^ 16 ≤ w 12
      ∨ w 24 % 4 ≠ 0 ∨ len ≠ body + sealLen ∨ ¬ zero then .error 2
  else
    let key := (img.drop body).take 97
    let sig := (img.drop (body + 100)).take 96
    match s.pwr.owner with
    | none => .error 8
    | some d =>
      if sha384 key ≠ d.toNat ∨ ¬ sigOk key (img.take body) sig then .error 8
      else .ok ⟨w 8, w 16 + w 20 * 2 ^ 32, w 28, payWords ((img.drop 64).take (w 24))⟩

/-- TARGET and SERIAL are as R476 asks. -/
def State.imageFits (s : State) (m : Image) : Bool :=
  (m.target.testBit 31 || decide (fld m.target 0 18 = s.own))
    && (match s.mc.serial with
      | some n => decide (n < m.serial)
      | none => true)

/-- The records of an image; none when they break the layout or NREC. -/
def Image.recs (m : Image) : Option (List Rec) :=
  match parseRecs m.words.length m.words with
  | some l => if l.length = m.nrec then some l else none
  | none => none

/-! ## What records may target (R476) -/

/-- The word has an RW or RWL field. -/
def hasField (off : Nat) : Bool :=
  stagedTarget off || decide ((regMask off).rw ||| (regMask off).rwl ≠ 0) || off ∈ [0x100, 0x108, 0x10C, 0x110, 0x124]
    || (decide (0x10000 ≤ off) && decide (off < 0x20000)) || (decide (0xA000 ≤ off) && decide (off < 0xB000))
    || (match inArr off 0x4000 0x100 64, inArr off 0xB000 32 128 with
      | some (_, r), _ => decide (r = 4) || decide (r = 0x20) || (decide (0x80 ≤ r) && decide (r < 0xC0))
      | _, some (_, r) => decide (r = 24)
      | _, _ => false)

/-- Words that only commands change. -/
def commandOnly (off : Nat) : Bool :=
  decide (off = 0x10) || (decide (0x2000 ≤ off) && decide (off < 0x3000)) || (decide (0x3030 ≤ off) && decide (off < 0x3104))
    || (decide (0x3110 ≤ off) && decide (off < 0x3200)) || (decide (0xF000 ≤ off) && decide (off < 0xF040))
    || (decide (0xF100 ≤ off) && decide (off < 0x10000)) || (decide (0x34000 ≤ off) && decide (off < 0x34788))

/-- A record keeps the limits of its class. -/
def Rec.allowed (r : Rec) : Bool :=
  r.writes.all (fun e =>
    if r.cls = 1 then stagedTarget e.1
    else hasField e.1 && !commandOnly e.1 && !(r.cls = 2 && stagedTarget e.1) && !(decide (e.1 = 0x3010) && e.2.toNat.testBit 0))

/-! ## Writes of records -/

/-- The kernel's write of a key has no effect: PKEY 0xFFFF (R22), PKEY and the range of a partition that is not fenced
(R24), the keys of a port that is neither OFF nor FENCED (R281). -/
def State.keyIgnored (s : State) (off : Nat) (d : Word) : Bool :=
  if off = 0x108 then decide (fld d.toNat 0 16 = 0xFFFF) || s.keyLocked d
  else if off = 0x10C ∨ off = 0x110 then !s.partFenced
  else
    match inArr off 0x600 0x20 12 with
    | some (p, r) => decide (r < 8) && !(decide ((s.link p).st = .off) || decide ((s.link p).st = .fenced))
    | none => false

/-- A rule refused the kernel's write of a word: a flag of an ignored write rose from a clear state, SEAL stays 0, or
the word does not read back. -/
def State.refusedWrite (s : State) (off : Nat) (d : Word) : Bool :=
  let flag := fun (t : State) (o : Nat) (b : Nat) => (t.readWord o).toNat.testBit b
  let back := fun (m : Word) => decide ((s.writeReg off true d).readWord off &&& m ≠ d &&& m)
  if stagedTarget off then flag ((s.clrReg 0x324 0x10).writeReg off true d) 0x324 4
  else if off = 0xC000 then d.toNat.testBit 0 && !flag (s.writeReg off true d) 0xC000 0
  else if (0xC004 ≤ off ∧ off < 0xC090) ∨ off = 0x300 ∨ off = 0x308 ∨ off = 0x30C then back ((regMask off).rwl)
  else if off = 0x180 then flag ((s.clrReg 0x180 0x800000).writeReg off true d) 0x180 23
  else if 0x800 ≤ off ∧ off < 0xB00 ∧ off % 0x40 = 0 then flag ((s.clrReg (off + 4) 0x10000).writeReg off true d) (off + 4) 16
  else if s.keyIgnored off d then true
  else
    match inArr off 0x4000 0x100 64, inArr off 0xA000 16 256, inArr off 0xD000 0x100 16 with
    | some (k, _), _, _ => ((s.w1cOnly (0x4008 + 0x100 * k) 0x40).writeReg off true d).chan k |>.wrIgn
    | _, some (w, _), _ => (((s.w1cOnly (0xA000 + 16 * w) 0x04000000).writeReg off true d).watchOf w).wrIgn
    | _, _, some (t, _) => flag ((s.clrReg (0xD004 + 0x100 * t) 0x02000000).writeReg off true d) (0xD004 + 0x100 * t) 25
    | _, _, _ => false

/-- Write the records of a class in order, each for the number the chip has then; the index of the first that is
refused. -/
def State.writeRecs (s : State) (cls : Nat) (rs : List (Rec × Nat)) : Except Nat State :=
  rs.foldl (fun (acc : Except Nat State) r =>
    match acc with
    | .error i => .error i
    | .ok t =>
      if r.1.cls ≠ cls ∨ ¬ r.1.isFor t.own then .ok t
      else
        r.1.writes.foldl (fun (a : Except Nat State) e =>
          match a with
          | .error i => .error i
          | .ok u => if u.refusedWrite e.1 e.2 then .error r.2 else .ok (u.writeReg e.1 true e.2)) (.ok t)) (.ok s)

/-! ## Application (R476) -/

/-- An apply ends: EV_IMG and the answer. -/
def State.imgDone (s : State) (who : Asker) (status : Nat) : State := (s.sayImg status 0).answerAsk who status []

/-- An apply is refused: nothing of the image is applied. The record's index is a free value where no record is at
fault, and so is every reason, since the spec numbers none. -/
def State.imgRefused (s : State) (who : Asker) (index : Option Nat) : State :=
  let (fs, t) := s.freeWords 2
  let i := match index with
    | some n => BitVec.ofNat 32 n
    | none => fs.headD 0
  ((t.raise 0x7C 0 0 0 0x60).sayImg 4 i.toNat).answerAsk who 4 [i, fs.getD 1 0]

/-- The image has been applied: its SERIAL counts. -/
def State.imgApplied (s : State) (who : Asker) (m : Image) : State :=
  ({ s with mc := { s.mc with serial := some m.serial } }).imgDone who 0

/-- Every link port is OFF and the harness is not sealed. -/
def State.startOpen (s : State) : Bool :=
  (List.range 12).all (fun p => decide ((s.link p).st = .off)) && !(s.reg 0xC000).toNat.testBit 0

/-- MODE 0: START records, then LIVE records. -/
def State.applyStart (s : State) (who : Asker) (m : Image) (rs : List (Rec × Nat)) : State :=
  if ¬ s.startOpen then s.imgRefused who none
  else
    match s.writeRecs 0 rs with
    | .error i => s.imgRefused who (some i)
    | .ok t =>
      match t.writeRecs 2 rs with
      | .error i => s.imgRefused who (some i)
      | .ok u => u.imgApplied who m

/-- MODE 1: STAGED records of this chip, sealed; then LIVE records. -/
def State.applyLocal (s : State) (who : Asker) (m : Image) (rs : List (Rec × Nat)) : State :=
  if s.cycleBusy false ∨ ¬ s.stageOpen then s.imgDone who 5
  else
    let mine := rs.filter (fun r => decide (r.1.cls = 1) && r.1.isFor s.own)
    let t : State := { s with tbl := mine.foldl (fun b r => b.stageRec r.1) s.tbl }
    if ¬ t.stagingOk then s.imgRefused who none
    else
      match (({ t with tbl := { t.tbl with other := .ready, phase := .staged } }).sayLock).writeRecs 2 rs with
      | .error i => s.imgRefused who (some i)
      | .ok u => u.imgApplied who m

/-- MODE 2: this block leads; STAGED records go to every block of the domain. -/
def State.applyDomain (s : State) (who : Asker) (m : Image) (rs : List (Rec × Nat)) : State :=
  if s.cycleBusy false ∨ ¬ s.stageOpen then s.imgDone who 5
  else
    let ps := (rs.filter (fun r => decide (r.1.cls = 1))).flatMap (fun r => r.1.pieces 70)
    (ps.foldl (fun t r => t.wave 1 r.words) (s.leadStart (.apply m.serial) who)).treeGo

/-- MB_IMG_APPLY. -/
def State.mbImgApply (s : State) (who : Asker) (ws : List Word) : State :=
  if 2 < arg ws 1 then s.imgDone who 2
  else
    match s.image with
    | .error st => s.imgDone who st
    | .ok m =>
      if ¬ s.imageFits m then s.imgRefused who none
      else
        match m.recs with
        | none => s.imgRefused who none
        | some l =>
          let rs := l.zipIdx
          match rs.find? (fun r => !r.1.allowed) with
          | some r => s.imgRefused who (some r.2)
          | none =>
            match arg ws 1 with
            | 0 => s.applyStart who m rs
            | 1 => s.applyLocal who m rs
            | _ => s.applyDomain who m rs

/-- MB_IMG_DROP: what is staged here is discarded. -/
def State.mbImgDrop (s : State) (who : Asker) (_ : List Word) : State :=
  if s.mc.lead.isSome ∨ s.tbl.phase = .locked ∨ s.tbl.phase = .swapped then s.answerAsk who 5 []
  else
    let t : State := { s.dropStaging with mc := { s.mc with part := none } }
    (if s.tbl.phase = .staged then t.sayLock else t).answerAsk who 0 []

/-! ## Lock cycles led here (R448, R473) -/

/-- MB_TABLE_SWAP: what the domain has staged is swapped in. -/
def State.mbTableSwap (s : State) (who : Asker) (_ : List Word) : State :=
  if s.cycleBusy true then s.answerAsk who 5 [] else (s.leadStart .swap who).treeGo

/-- The STAGED records of the image in the staging area, if there is one; or the status of its first failing check. -/
def State.takeoverRecs (s : State) : Except Nat (List Rec) :=
  if s.mc.imgLen.isNone then .ok []
  else
    match s.image with
    | .error st => .error st
    | .ok m =>
      match m.recs with
      | none => .error 4
      | some l => if l.all Rec.allowed then .ok (l.filter (fun r => decide (r.cls = 1))) else .error 4

/-- MB_TAKEOVER (R448): RECOV is set, every block fences the failed number and stages the spare's entries, the spare
gets its own, and the cycle runs. A chip reached only through compatibility ports is no spare (R7). Away from the failed chip's position the spare's is the one its number has here. -/
def State.mbTakeover (s : State) (who : Asker) (ws : List Word) : State :=
  let failed := arg ws 1
  let spare := arg ws 2
  let same := (arg ws 3).testBit 0
  if 2 ^ 18 ≤ failed ∨ 2 ^ 18 ≤ spare ∨ failed = spare ∨ 1 < arg ws 3 then s.answerAsk who 2 []
  else if s.cycleBusy false ∨ ¬ s.stageOpen then s.answerAsk who 5 []
  else
    match s.takeoverRecs, (s.resolve s.tbl.cur spare) with
    | .error 4, _ =>
      let (fs, t) := s.freeWords 2
      t.answerAsk who 4 fs
    | .error st, _ => s.answerAsk who st []
    | .ok _, none => s.answerAsk who 9 []
    | .ok rs, some (x, y, z) =>
      if ¬ s.rankReach spare 5 0xC1 then s.answerAsk who 9 [] else
      let pos := x + put y 8 6 + put z 16 6
      let head : List Word := [0xFFFFFFFF, BitVec.ofNat 32 failed, BitVec.ofNat 32 spare, BitVec.ofNat 32 (pos + put (b2n same) 31 1)]
      let t := (s.setRecov).leadStart (.takeover (BitVec.ofNat 18 failed) (BitVec.ofNat 18 spare) same) who
      let u := (rs.flatMap (fun r => r.pieces 70)).foldl (fun (t : State) r => t.wave 1 r.words) (t.wave 1 head)
      (u.sendSpare failed spare same pos rs).treeGo

end Sys2Proof.Machine
end

