-- ==== Sys2Proof/Machine/Mailbox.lean ====
section
/-! DEFINITION. The mailbox: its table of commands, what each does, requests that arrive from another chip or from the
firmware, and the end of requests that take time (R363, R364, R466, R471 to R473, R478). -/

namespace Sys2Proof.Machine

/-! ## The table of commands (R473) -/

/-- A command of the mailbox: where it is served, whether it needs expert control, the arguments it needs, its limit in
milliseconds. -/
structure MbCmd where
  basic : Bool
  full : Bool
  diag : Bool
  expert : Bool
  nw : Nat
  limit : Nat
deriving DecidableEq, Repr

/-- The table of R473. -/
def mbCmd : Nat → Option MbCmd
  | 0x01 => some ⟨true, true, true, false, 0, 1⟩
  | 0x02 => some ⟨true, true, false, false, 0, 1⟩
  | 0x03 => some ⟨true, true, false, false, 50, 100⟩
  | 0x04 => some ⟨true, true, false, false, 0, 1⟩
  | 0x10 => some ⟨true, true, false, false, 1, 1⟩
  | 0x11 => some ⟨true, false, false, false, 3, 1⟩
  | 0x12 => some ⟨true, false, false, false, 0, 160⟩
  | 0x20 => some ⟨true, true, false, false, 1, 1⟩
  | 0x21 => some ⟨true, true, false, false, 3, 1⟩
  | 0x22 => some ⟨true, true, false, false, 1, 250⟩
  | 0x23 => some ⟨true, true, false, false, 0, 1⟩
  | 0x24 => some ⟨false, true, false, false, 0, 250⟩
  | 0x30 => some ⟨false, true, false, false, 3, 200⟩
  | 0x31 => some ⟨true, true, false, false, 0, 2⟩
  | 0x32 => some ⟨true, true, false, false, 1, 1⟩
  | 0x33 => some ⟨true, true, false, false, 0, 1⟩
  | 0x34 => some ⟨true, true, false, false, 1, 1⟩
  | 0x35 => some ⟨true, true, false, false, 3, 1⟩
  | 0x36 => some ⟨true, true, false, false, 1, 1⟩
  | 0x37 => some ⟨true, true, false, false, 0, 1⟩
  | 0x40 => some ⟨false, true, false, false, 2, 20⟩
  | 0x50 => some ⟨true, true, false, false, 1, 1⟩
  | 0x60 => some ⟨false, true, false, false, 2, 20⟩
  | 0x70 => some ⟨true, true, true, false, 2, 1⟩
  | 0x71 => some ⟨true, true, false, true, 2, 1⟩
  | 0x72 => some ⟨true, true, true, false, 0, 1⟩
  | _ => none

/-- A command is served in a mode. -/
def MbCmd.served (c : MbCmd) : McMode → Bool
  | .basic => c.basic
  | .full => c.full
  | .diag => c.diag

/-! ## Commands that are reads (R473) -/

/-- MB_INFO. -/
def State.mbInfo (s : State) (who : Asker) (_ : List Word) : State :=
  s.answerAsk who 0 [s.readWord 0, s.readWord 4, s.readWord 0xF000, s.mc.fwver]

/-- MB_PEEK: words from an offset on, outside the management registers. -/
def State.mbPeek (s : State) (who : Asker) (ws : List Word) : State :=
  let off := arg ws 1
  let n := arg ws 2
  if off % 4 ≠ 0 ∨ n = 0 ∨ 60 < n ∨ 0x100000 < off + 4 * n ∨ (off < 0x10000 ∧ 0xF000 < off + 4 * n) then s.answerAsk who 2 []
  else
    let (vs, t) := (List.range n).foldl (fun (a : List Word × State) i =>
      let (w, u) := a.2.readReg (off + 4 * i)
      (a.1 ++ [w], u)) ([], s)
    t.answerAsk who 0 vs

/-- MB_DIAG. -/
def State.mbDiag (s : State) (who : Asker) (_ : List Word) : State :=
  s.answerAsk who 0 ([0x2000, 0x2014, 0x2018, 0x201C, 0x2024, 0x3040].map s.readWord)

/-! ## Commands that act as register writes (R473) -/

/-- MB_POKE: the kernel's write of a word outside the management registers. A write whose key has no effect answers
BAD_ARG; what else it writes takes effect (R22, R24, R281). -/
def State.mbPoke (s : State) (who : Asker) (ws : List Word) : State :=
  let off := arg ws 1
  if off % 4 ≠ 0 ∨ 0x100000 ≤ off ∨ (0xF000 ≤ off ∧ off < 0x10000) then s.answerAsk who 2 []
  else (s.writeReg off true (ws.getD 2 0)).answerAsk who (if s.keyIgnored off (ws.getD 2 0) then 2 else 0) []

/-- MB_ABORT: as DX_ABORT_CTL.GO; the new generation. -/
def State.mbAbort (s : State) (who : Asker) (_ : List Word) : State :=
  let t := s.originAbort 0
  t.answerAsk who 0 [BitVec.ofNat 32 t.genBase.toNat]

/-- MB_HALT: as DX_HALT_CTL.GO. -/
def State.mbHalt (s : State) (who : Asker) (ws : List Word) : State :=
  if 2 ^ 16 ≤ arg ws 1 then s.answerAsk who 2 []
  else (s.wrHaltCtl true (BitVec.ofNat 32 (arg ws 1 + 0x10000))).answerAsk who 0 []

/-- MB_RELEASE: as DX_HALT_CTL.REL. -/
def State.mbRelease (s : State) (who : Asker) (_ : List Word) : State :=
  (s.wrHaltCtl true (BitVec.ofNat 32 (s.rf 0x3100 0 16 + 0x20000))).answerAsk who 0 []

/-- MB_FLT_ACK: as a write of DX_FLT_ACK with GO. -/
def State.mbFltAck (s : State) (who : Asker) (ws : List Word) : State :=
  if ¬ (arg ws 1).testBit 31 ∨ fld (arg ws 1) 18 13 ≠ 0 then s.answerAsk who 2 []
  else
    let t := s.wrFltAck true (ws.getD 1 0)
    t.answerAsk who 0 [t.readWord 0x2010]

/-- MB_ENABLE: the EN of a link port, a towpath entry or a reduction unit. -/
def State.mbEnable (s : State) (who : Asker) (ws : List Word) : State :=
  let i := arg ws 2
  let en := (arg ws 3).testBit 0
  let said := fun (t : State) (off : Nat) => t.answerAsk who 0 [t.readWord off]
  if 1 < arg ws 3 then s.answerAsk who 2 []
  else if arg ws 1 = 0 ∧ i < 12 then
    said (s.wrLnkCtl i true (forceBit (s.readWord (0x800 + 0x40 * i)) 0 en)) (0x804 + 0x40 * i)
  else if arg ws 1 = 1 ∧ i < 128 then said (s.wrTowEn i true (BitVec.ofNat 32 (b2n en))) (0xB01C + 32 * i)
  else if arg ws 1 = 2 ∧ i < 17 then said (s.wrRuCtl true (forceBit (s.readWord 0x180 &&& 0x7FFFFF) i en)) (0x190 + 4 * i)
  else s.answerAsk who 2 []

/-- MB_FENCE: as a write of DX_FENCE, then of DX_PFENCE where the second argument asks for it. -/
def State.mbFence (s : State) (who : Asker) (ws : List Word) : State :=
  let two := if 2 ≤ reqNw ws then arg ws 2 else 0
  if 2 ^ 12 ≤ arg ws 1 ∨ 3 ≤ two then s.answerAsk who 2 []
  else
    let t := s.wrFence true (ws.getD 1 0)
    let u := if two = 0 then t else t.wrPfence true (if two = 1 then 1 else 0)
    u.answerAsk who 0 [u.readWord 0x124]

/-- MB_START_DONE. -/
def State.mbStartDone (s : State) (who : Asker) (_ : List Word) : State := s.startDone.answerAsk who 0 []

/-- MB_TIME: a read, or at the time master under expert control the setting of the counter (R481). -/
def State.mbTime (s : State) (who : Asker) (open_ : Bool) (ws : List Word) : State :=
  let said := fun (t : State) => t.answerAsk who 0 [t.readWord 0xF04C, t.readWord 0xF040, t.readWord 0xF044]
  if arg ws 1 = 0 then said s
  else if arg ws 1 ≠ 1 ∨ reqNw ws < 3 then s.answerAsk who 2 []
  else if ¬ open_ ∨ ¬ (s.reg 0xF048).toNat.testBit 1 then s.answerAsk who 3 []
  else said { s with tod := (arg ws 2 + arg ws 3 * 2 ^ 32) * 3125 }

/-! ## I²C for the host (R363, R364, R473) -/

/-- What MB_I2C answers once the transaction has ended: RESULT and NDONE as DX_I2C{c}_STAT places them, and the data. -/
def State.i2cWords (s : State) (c : Nat) (read : Bool) : List Word :=
  let w := s.reg (i2cReg c 8) &&& 0xFFE
  w :: (if read then payWords (s.i2cData c (4 * ((fld w.toNat 4 8 + 3) / 4))) else [])

/-- The kernel writes SPEED, DATA and CMD, and waits. -/
def State.mbI2c (s : State) (who : Asker) (ws : List Word) : State :=
  let c := fld (arg ws 1) 0 3
  let op := fld (arg ws 1) 8 2
  let n := fld (arg ws 2) 8 7 + 1
  if arg ws 1 &&& 0x7F0307 ≠ arg ws 1 ∨ arg ws 2 &&& 0x37FFF ≠ arg ws 2 ∨ op = 3 ∨ (op = 0 ∧ reqNw ws < 2 + (n + 3) / 4) then
    s.answerAsk who 2 []
  else
    let s1 := s.putField (i2cReg c 0) 1 2 (fld (arg ws 2) 16 2)
    let s2 := if op = 0 then s1.setI2cData c (argBytes ws 3 n) else s1
    let s3 := (s2.plainWrite (i2cReg c 4) true
      (BitVec.ofNat 32 (op + put (fld (arg ws 1) 16 7) 2 7 + put (arg ws 2) 9 8 + put (n - 1) 17 7))).i2cGo c (some who)
    if (s3.i2cBusy c).isSome then s3 else s3.answerAsk who 0 (s3.i2cWords c (decide (op ≠ 0)))

/-- Controller `c` has ended the transaction that `who` asked for. -/
def State.i2cTell (s : State) (c : Nat) (b : I2cBusy) : State :=
  match b.mb with
  | some who => s.answerAsk who 0 (s.i2cWords c (decide (b.op ≠ 0)))
  | none => s

/-- I2C_TRANSACTION_END (R364). -/
def execI2cTransactionEnd (c : Nat) (r : I2cEnd) (s : State) : Out :=
  match s.i2cBusy c with
  | some b => run s (decide (c < 8)) (fun s => (s.i2cEnd c b r).i2cTell c b)
  | none => run s false id

/-- I2C_STRETCH_TIMEOUT (R364): STRETCH_TO after `n` bytes. -/
def execI2cStretchTimeout (c n : Nat) (s : State) : Out :=
  match s.i2cBusy c with
  | some b => run s (decide (c < 8)) (fun s => ((s.i2cPart c (min n b.n) b).i2cDone c 3 (min n b.n)).i2cTell c b)
  | none => run s false id

/-! ## Requests to another chip (R473, R478) -/

/-- MB_REMOTE: the inner request leaves as an MB_REQ. -/
def State.mbRemote (s : State) (who : Asker) (ws : List Word) : State :=
  if 2 ^ 18 ≤ arg ws 1 then s.answerAsk who 2 []
  else
    s.mgtSend ⟨arg ws 1, 0, put s.ident.gen.toNat 16 8, 0, s.ident.pkey.toNat, (ws.drop 2).take (reqNw ws - 1)⟩ (some who)

/-! ## Performing a request -/

/-- What a command does, once the checks common to all have passed. -/
def State.mbDo (s : State) (who : Asker) (open_ : Bool) (ws : List Word) : State :=
  match reqCmd ws with
  | 0x01 => s.mbInfo who ws
  | 0x02 => s.mbNonce who ws
  | 0x03 => s.mbExpertOn who ws
  | 0x04 => s.mbExpertOff who ws
  | 0x10 => s.mbFwBegin who ws
  | 0x11 => s.mbFwChunk who ws
  | 0x12 => s.mbFwCommit who ws
  | 0x20 => s.mbImgBegin who ws
  | 0x21 => s.mbImgChunk who ws
  | 0x22 => s.mbImgApply who ws
  | 0x23 => s.mbImgDrop who ws
  | 0x24 => s.mbTableSwap who ws
  | 0x30 => s.mbTakeover who ws
  | 0x31 => s.mbAbort who ws
  | 0x32 => s.mbHalt who ws
  | 0x33 => s.mbRelease who ws
  | 0x34 => s.mbFltAck who ws
  | 0x35 => s.mbEnable who ws
  | 0x36 => s.mbFence who ws
  | 0x37 => s.mbStartDone who ws
  | 0x40 => s.mbI2c who ws
  | 0x50 => s.mbTime who open_ ws
  | 0x60 => s.mbRemote who ws
  | 0x70 => s.mbPeek who ws
  | 0x71 => s.mbPoke who ws
  | _ => s.mbDiag who ws

/-- The first of the common checks that a request fails: unknown, not served in the mode, expert control, reserved bits
of word 0 or arguments that are missing (R472, R473). -/
def mbRefusal (mode : McMode) (open_ : Bool) (ws : List Word) : Option Nat :=
  match mbCmd (reqCmd ws) with
  | none => some 1
  | some c =>
    if ¬ c.served mode then some (if mode = .diag then 0xA else 1)
    else if c.expert ∧ ¬ open_ then some 3
    else if 2 ^ 22 ≤ arg ws 0 ∨ reqNw ws < c.nw then some 2
    else none

/-- A request is performed for `who` in a mode. -/
def State.mbPerform (s : State) (who : Asker) (mode : McMode) (open_ : Bool) (ws : List Word) : State :=
  match mbRefusal mode open_ ws with
  | some st => s.answerAsk who st []
  | none => s.mbDo who open_ ws

/-! ## The mailbox's requests -/

/-- The kernel reads the request and its own code through their checkers; an uncorrectable word of the ROM or of the
management SRAM is a fault and nothing more (R427). -/
def State.mbFetch (s : State) : State := ((s.takeEcc 0x05 0 3 1 0x60).2.takeEcc 0x10 0 2 1 0x60).2

/-- The request in the mailbox is started. -/
def State.mbStart (s : State) (r : MbReq) : State :=
  let t := s.mbFetch
  let u : State := { t with mc := { t.mc with mb := { t.mc.mb with busy := some { r with started := true } } } }
  u.mbPerform .mailbox u.mc.mode u.expert r.words

/-- A row of the mailbox: the waiting request satisfies `sel` and is served in the mode. -/
def mbRowOf (sel : List Word → Bool) (s : State) : Out :=
  match s.mc.mb.busy with
  | some r =>
    let known := match mbCmd (reqCmd r.words) with
      | some c => c.served s.mc.mode
      | none => false
    run s (!r.started && known && sel r.words) (fun s => s.mbStart r)
  | none => run s false id

/-- A row of one command code. -/
def mbRow (cmd : Nat) (s : State) : Out := mbRowOf (fun ws => decide (reqCmd ws = cmd)) s

/-- MB_INFO. -/
def execMbInfo (s : State) : Out := mbRow 0x01 s
/-- MB_NONCE. -/
def execMbNonce (s : State) : Out := mbRow 0x02 s
/-- MB_EXPERT_ON. -/
def execMbExpertOn (s : State) : Out := mbRow 0x03 s
/-- MB_EXPERT_OFF. -/
def execMbExpertOff (s : State) : Out := mbRow 0x04 s
/-- MB_FW_BEGIN. -/
def execMbFwBegin (s : State) : Out := mbRow 0x10 s
/-- MB_FW_CHUNK. -/
def execMbFwChunk (s : State) : Out := mbRow 0x11 s
/-- MB_FW_COMMIT. -/
def execMbFwCommit (s : State) : Out := mbRow 0x12 s
/-- MB_IMG_BEGIN. -/
def execMbImgBegin (s : State) : Out := mbRow 0x20 s
/-- MB_IMG_CHUNK. -/
def execMbImgChunk (s : State) : Out := mbRow 0x21 s
/-- MB_IMG_APPLY in MODE 0, and with a MODE that is out of range. -/
def execMbImgApplyStart (s : State) : Out :=
  mbRowOf (fun ws => decide (reqCmd ws = 0x22) && decide (arg ws 1 ≠ 1) && decide (arg ws 1 ≠ 2)) s
/-- MB_IMG_APPLY in MODE 1. -/
def execMbImgApplyStageLocal (s : State) : Out := mbRowOf (fun ws => decide (reqCmd ws = 0x22) && decide (arg ws 1 = 1)) s
/-- MB_IMG_APPLY in MODE 2. -/
def execMbImgApplyStageDomain (s : State) : Out := mbRowOf (fun ws => decide (reqCmd ws = 0x22) && decide (arg ws 1 = 2)) s
/-- MB_IMG_DROP. -/
def execMbImgDrop (s : State) : Out := mbRow 0x23 s
/-- MB_TABLE_SWAP. -/
def execMbTableSwap (s : State) : Out := mbRow 0x24 s
/-- MB_TAKEOVER. -/
def execMbTakeover (s : State) : Out := mbRow 0x30 s
/-- MB_ABORT. -/
def execMbAbort (s : State) : Out := mbRow 0x31 s
/-- MB_HALT. -/
def execMbHalt (s : State) : Out := mbRow 0x32 s
/-- MB_RELEASE. -/
def execMbRelease (s : State) : Out := mbRow 0x33 s
/-- MB_FLT_ACK. -/
def execMbFltAck (s : State) : Out := mbRow 0x34 s
/-- MB_ENABLE. -/
def execMbEnable (s : State) : Out := mbRow 0x35 s
/-- MB_FENCE. -/
def execMbFence (s : State) : Out := mbRow 0x36 s
/-- MB_START_DONE. -/
def execMbStartDone (s : State) : Out := mbRow 0x37 s
/-- MB_I2C; it waits while the controller is BUSY. -/
def execMbI2c (s : State) : Out :=
  mbRowOf (fun ws => decide (reqCmd ws = 0x40) && (s.i2cBusy (fld (arg ws 1) 0 3)).isNone) s
/-- MB_TIME with OP 0, and with an OP that is out of range. -/
def execMbTimeRead (s : State) : Out := mbRowOf (fun ws => decide (reqCmd ws = 0x50) && decide (arg ws 1 ≠ 1)) s
/-- MB_TIME with OP 1. -/
def execMbTimeSet (s : State) : Out := mbRowOf (fun ws => decide (reqCmd ws = 0x50) && decide (arg ws 1 = 1)) s
/-- MB_REMOTE. -/
def execMbRemote (s : State) : Out := mbRow 0x60 s
/-- MB_PEEK. -/
def execMbPeek (s : State) : Out := mbRow 0x70 s
/-- MB_POKE. -/
def execMbPoke (s : State) : Out := mbRow 0x71 s
/-- MB_DIAG. -/
def execMbDiag (s : State) : Out := mbRow 0x72 s

/-- MB_BAD_CMD: unknown, or not served in the mode. -/
def execMbBadCmd (s : State) : Out :=
  match s.mc.mb.busy with
  | some r =>
    let known := match mbCmd (reqCmd r.words) with
      | some c => c.served s.mc.mode
      | none => false
    run s (!r.started && !known) (fun s => s.mbStart r)
  | none => run s false id

/-- MB_TIMEOUT (R471): the command's limit has passed. -/
def execMbTimeout (s : State) : Out :=
  match s.mc.mb.busy with
  | some r =>
    let ms := match mbCmd (reqCmd r.words) with
      | some c => c.limit
      | none => 1
    run s (decide (r.at_ + nsTicks (1000000 * ms) ≤ s.now)) (fun s => s.mbDone 6 [])
  | none => run s false id

/-! ## Calls and requests from elsewhere -/

/-- KERNEL_CALL (R466): a call of the firmware, checked as in BASIC mode. -/
def execKernelCall (words : List Word) (s : State) : Out :=
  run s s.fwRuns (fun s => s.mbPerform .call .basic s.expert words)

/-- Commands that a REMOTE request may not carry (R478). -/
def notRemote (cmd : Nat) : Bool := cmd ∈ [0x60, 0x02, 0x03, 0x04, 0x10, 0x11, 0x12, 0x71]

/-- A REMOTE request is still being performed: this is a repeat of it. -/
def State.remoteBusy (s : State) (p : Packet) : Bool :=
  let same := fun (a : Asker) => match a with
    | .remote q => decide (q.src = p.src) && decide (q.h7 = p.h7)
    | _ => false
  s.i2c.any (fun e => match e.2 with
      | some b => (match b.mb with | some a => same a | none => false)
      | none => false)
    || (match s.mc.lead with | some l => same l.who | none => false)

/-- MB_REQ_REMOTE (R478): performed with OPEN 0. Packets of a class that is refused, and of the tree with a MSG that has
no meaning, are dropped. -/
def execMbReqRemote (i : Nat) (s : State) : Out :=
  mgtRow i (fun c m => decide (c = 0) || decide (3 ≤ c) || (decide (c = 1) && (decide (m = 0) || decide (10 < m)))) (fun s h =>
    let ws := payWords h.pkt.pay
    if h.pkt.aux % 16 ≠ 0 then s.mgtDrop
    else if s.remoteBusy h.pkt then s
    else if notRemote (reqCmd ws) then s.answerAsk (.remote h.pkt) 3 []
    else if reqCmd ws = 0x40 ∧ (s.i2cBusy (fld (arg ws 1) 0 3)).isSome then s
    else s.mbPerform (.remote h.pkt) .full false ws) s

end Sys2Proof.Machine
end

