-- ==== Sys2Proof/Machine/Dispatch.lean ====
section
/-! DEFINITION. The meaning of every command: one arm per constructor of `Instr`. -/

namespace Sys2Proof.Machine

/-- The command's effect on everything but the queue. -/
def exec (i : Instr) (s : State) : Host.Outcome State Fault Refusal :=
  match i with
  | .pwrOkFall => Sys2Proof.Machine.execPwrOkFall s
  | .pwrOkRise => Sys2Proof.Machine.execPwrOkRise s
  | .rstNFall => Sys2Proof.Machine.execRstNFall s
  | .rstNRise => Sys2Proof.Machine.execRstNRise s
  | .selfCheckDone r => Sys2Proof.Machine.execSelfCheckDone r s
  | .warmResetRequest a => Sys2Proof.Machine.execWarmResetRequest a s
  | .warmResetProper => Sys2Proof.Machine.execWarmResetProper s
  | .tapExtest v => Sys2Proof.Machine.execTapExtest v s
  | .tapSamplePreload v => Sys2Proof.Machine.execTapSamplePreload v s
  | .tapClamp => Sys2Proof.Machine.execTapClamp s
  | .tapWir => Sys2Proof.Machine.execTapWir s
  | .tapWdr chain => Sys2Proof.Machine.execTapWdr chain s
  | .tapIjtag => Sys2Proof.Machine.execTapIjtag s
  | .tapScan => Sys2Proof.Machine.execTapScan s
  | .tapBypass code => Sys2Proof.Machine.execTapBypass code s
  | .wrapperMode w mode => Sys2Proof.Machine.execWrapperMode w mode s
  | .ijtagBist array => Sys2Proof.Machine.execIjtagBist array s
  | .ijtagFuse f => Sys2Proof.Machine.execIjtagFuse f s
  | .ijtagLaneLb t on => Sys2Proof.Machine.execIjtagLaneLb t on s
  | .cpWord port w crc => Sys2Proof.Machine.execCpWord port w crc s
  | .channelEnable k a => Sys2Proof.Machine.execChannelEnable k a s
  | .channelOn k => Sys2Proof.Machine.execChannelOn k s
  | .channelDisable k a => Sys2Proof.Machine.execChannelDisable k a s
  | .resume k a => Sys2Proof.Machine.execResume k a s
  | .scalarWrite k j a => Sys2Proof.Machine.execScalarWrite k j a s
  | .crConsWrite k a => Sys2Proof.Machine.execCrConsWrite k a s
  | .latchedRead off par => Sys2Proof.Machine.execLatchedRead off par s
  | .nop k => Sys2Proof.Machine.execNop k s
  | .put k => Sys2Proof.Machine.execPut k s
  | .get k => Sys2Proof.Machine.execGet k s
  | .copy k => Sys2Proof.Machine.execCopy k s
  | .atom k => Sys2Proof.Machine.execAtom k s
  | .allReduce k => Sys2Proof.Machine.execAllReduce k s
  | .reduceScatter k => Sys2Proof.Machine.execReduceScatter k s
  | .allGather k => Sys2Proof.Machine.execAllGather k s
  | .broadcast k => Sys2Proof.Machine.execBroadcast k s
  | .reduce k => Sys2Proof.Machine.execReduce k s
  | .a2aCap k => Sys2Proof.Machine.execA2aCap k s
  | .barrier k => Sys2Proof.Machine.execBarrier k s
  | .scalarAr k => Sys2Proof.Machine.execScalarAr k s
  | .waitCmd k => Sys2Proof.Machine.execWaitCmd k s
  | .signal k => Sys2Proof.Machine.execSignal k s
  | .fence k => Sys2Proof.Machine.execFence k s
  | .repeatLoop k => Sys2Proof.Machine.execRepeatLoop k s
  | .endLoop k => Sys2Proof.Machine.execEndLoop k s
  | .branch k => Sys2Proof.Machine.execBranch k s
  | .loadsImm k => Sys2Proof.Machine.execLoadsImm k s
  | .loadsMem k => Sys2Proof.Machine.execLoadsMem k s
  | .loadsTally k => Sys2Proof.Machine.execLoadsTally k s
  | .loadsAdd k => Sys2Proof.Machine.execLoadsAdd k s
  | .mark k => Sys2Proof.Machine.execMark k s
  | .trace k => Sys2Proof.Machine.execTrace k s
  | .badOp k => Sys2Proof.Machine.execBadOp k s
  | .fragmentIssue k => Sys2Proof.Machine.execFragmentIssue k s
  | .completionRecordWrite k => Sys2Proof.Machine.execCompletionRecordWrite k s
  | .channelHang k => Sys2Proof.Machine.execChannelHang k s
  | .shapeCommit e a => Sys2Proof.Machine.execShapeCommit e a s
  | .tallyWrite n a => Sys2Proof.Machine.execTallyWrite n a s
  | .watchArm w a => Sys2Proof.Machine.execWatchArm w a s
  | .watchDisarm w a => Sys2Proof.Machine.execWatchDisarm w a s
  | .watchEventEnqueue w => Sys2Proof.Machine.execWatchEventEnqueue w s
  | .atcFlush a => Sys2Proof.Machine.execAtcFlush a s
  | .atcHoldExpire g => Sys2Proof.Machine.execAtcHoldExpire g s
  | .atomicPerform => Sys2Proof.Machine.execAtomicPerform s
  | .pfenceSet a => Sys2Proof.Machine.execPfenceSet a s
  | .pfenceLift a => Sys2Proof.Machine.execPfenceLift a s
  | .raLoad port x => Sys2Proof.Machine.execRaLoad port x s
  | .raStore port x => Sys2Proof.Machine.execRaStore port x s
  | .raRspTaken port => Sys2Proof.Machine.execRaRspTaken port s
  | .raLoadTimeout port tag => Sys2Proof.Machine.execRaLoadTimeout port tag s
  | .hmReadIssue port => Sys2Proof.Machine.execHmReadIssue port s
  | .hmWriteIssue port => Sys2Proof.Machine.execHmWriteIssue port s
  | .hmReadBeat port b => Sys2Proof.Machine.execHmReadBeat port b s
  | .hmWriteResponse port r => Sys2Proof.Machine.execHmWriteResponse port r s
  | .hmTimeout port isWr tag => Sys2Proof.Machine.execHmTimeout port isWr tag s
  | .eventTaken => Sys2Proof.Machine.execEventTaken s
  | .lbWriteResponse sts => Sys2Proof.Machine.execLbWriteResponse sts s
  | .wr j => Sys2Proof.Machine.execWr j s
  | .rd j => Sys2Proof.Machine.execRd j s
  | .rdRelay j => Sys2Proof.Machine.execRdRelay j s
  | .raLd j => Sys2Proof.Machine.execRaLd j s
  | .raSt j => Sys2Proof.Machine.execRaSt j s
  | .atomPacket j => Sys2Proof.Machine.execAtomPacket j s
  | .signalPacket j => Sys2Proof.Machine.execSignalPacket j s
  | .wrRsp j => Sys2Proof.Machine.execWrRsp j s
  | .rdData j => Sys2Proof.Machine.execRdData j s
  | .rdRsp j => Sys2Proof.Machine.execRdRsp j s
  | .rlyData j => Sys2Proof.Machine.execRlyData j s
  | .raData j => Sys2Proof.Machine.execRaData j s
  | .raRsp j => Sys2Proof.Machine.execRaRsp j s
  | .atomRsp j => Sys2Proof.Machine.execAtomRsp j s
  | .sigRsp j => Sys2Proof.Machine.execSigRsp j s
  | .colAck j => Sys2Proof.Machine.execColAck j s
  | .colReady j => Sys2Proof.Machine.execColReady j s
  | .colData j => Sys2Proof.Machine.execColData j s
  | .colSlot j => Sys2Proof.Machine.execColSlot j s
  | .colDone j => Sys2Proof.Machine.execColDone j s
  | .colRel j => Sys2Proof.Machine.execColRel j s
  | .collAbort j => Sys2Proof.Machine.execCollAbort j s
  | .mbReqRemote j => Sys2Proof.Machine.execMbReqRemote j s
  | .mbReqSpare j => Sys2Proof.Machine.execMbReqSpare j s
  | .treeStage j => Sys2Proof.Machine.execTreeStage j s
  | .treeSeal j => Sys2Proof.Machine.execTreeSeal j s
  | .treeReady j => Sys2Proof.Machine.execTreeReady j s
  | .treeRefused j => Sys2Proof.Machine.execTreeRefused j s
  | .treeLock j => Sys2Proof.Machine.execTreeLock j s
  | .treeCount j => Sys2Proof.Machine.execTreeCount j s
  | .treeReport j => Sys2Proof.Machine.execTreeReport j s
  | .treeSwap j => Sys2Proof.Machine.execTreeSwap j s
  | .treeSwapped j => Sys2Proof.Machine.execTreeSwapped j s
  | .treeRelease j => Sys2Proof.Machine.execTreeRelease j s
  | .mbRsp j => Sys2Proof.Machine.execMbRsp j s
  | .assist j => Sys2Proof.Machine.execAssist j s
  | .assistRsp j => Sys2Proof.Machine.execAssistRsp j s
  | .mgtResendTimeout mseq => Sys2Proof.Machine.execMgtResendTimeout mseq s
  | .packetHop place j x => Sys2Proof.Machine.execPacketHop place j x s
  | .reinIncrease k => Sys2Proof.Machine.execReinIncrease k s
  | .towEnable t a => Sys2Proof.Machine.execTowEnable t a s
  | .towStarted t => Sys2Proof.Machine.execTowStarted t s
  | .towDisable t a => Sys2Proof.Machine.execTowDisable t a s
  | .towStall t => Sys2Proof.Machine.execTowStall t s
  | .lockDrainTimeout => Sys2Proof.Machine.execLockDrainTimeout s
  | .epochHoldExpire => Sys2Proof.Machine.execEpochHoldExpire s
  | .lockSwapTimeout => Sys2Proof.Machine.execLockSwapTimeout s
  | .linkEnable p a => Sys2Proof.Machine.execLinkEnable p a s
  | .linkDisable p a => Sys2Proof.Machine.execLinkDisable p a s
  | .linkRetrainWrite p a => Sys2Proof.Machine.execLinkRetrainWrite p a s
  | .linkParam p => Sys2Proof.Machine.execLinkParam p s
  | .linkParamSend p => Sys2Proof.Machine.execLinkParamSend p s
  | .teamDrop p => Sys2Proof.Machine.execTeamDrop p s
  | .teamAdd p => Sys2Proof.Machine.execTeamAdd p s
  | .retrain p => Sys2Proof.Machine.execRetrain p s
  | .haltMark p => Sys2Proof.Machine.execHaltMark p s
  | .haltRel p => Sys2Proof.Machine.execHaltRel p s
  | .abortFlit p => Sys2Proof.Machine.execAbortFlit p s
  | .beacon p => Sys2Proof.Machine.execBeacon p s
  | .beaconRsp p => Sys2Proof.Machine.execBeaconRsp p s
  | .seqFlitReceive p f => Sys2Proof.Machine.execSeqFlitReceive p f s
  | .tagReceive p f => Sys2Proof.Machine.execTagReceive p f s
  | .replayTimeout p => Sys2Proof.Machine.execReplayTimeout p s
  | .linkTrainTimeout p => Sys2Proof.Machine.execLinkTrainTimeout p s
  | .retrainTimeout p => Sys2Proof.Machine.execRetrainTimeout p s
  | .linkDrainTimeout p => Sys2Proof.Machine.execLinkDrainTimeout p s
  | .lnkInjArm p a => Sys2Proof.Machine.execLnkInjArm p a s
  | .trainingFrame t j f => Sys2Proof.Machine.execTrainingFrame t j f s
  | .fomUpdate t foms => Sys2Proof.Machine.execFomUpdate t foms s
  | .mirrorReq t lmw => Sys2Proof.Machine.execMirrorReq t lmw s
  | .mirrorAck t lmw => Sys2Proof.Machine.execMirrorAck t lmw s
  | .spareCompareDone t ok => Sys2Proof.Machine.execSpareCompareDone t ok s
  | .forwardedClockLoss t => Sys2Proof.Machine.execForwardedClockLoss t s
  | .clockHoldoverEnd t => Sys2Proof.Machine.execClockHoldoverEnd t s
  | .laneSilent t j => Sys2Proof.Machine.execLaneSilent t j s
  | .tagLockLoss t => Sys2Proof.Machine.execTagLockLoss t s
  | .teamRetryTimer t => Sys2Proof.Machine.execTeamRetryTimer t s
  | .teamRetry t a => Sys2Proof.Machine.execTeamRetry t a s
  | .teamSwap t a => Sys2Proof.Machine.execTeamSwap t a s
  | .prbsMode t a => Sys2Proof.Machine.execPrbsMode t a s
  | .prbsClr t a => Sys2Proof.Machine.execPrbsClr t a s
  | .harnessSeal a => Sys2Proof.Machine.execHarnessSeal a s
  | .i2cWrite c a => Sys2Proof.Machine.execI2cWrite c a s
  | .i2cRead c a => Sys2Proof.Machine.execI2cRead c a s
  | .i2cReadCur c a => Sys2Proof.Machine.execI2cReadCur c a s
  | .i2cTransactionEnd c r => Sys2Proof.Machine.execI2cTransactionEnd c r s
  | .i2cStretchTimeout c n => Sys2Proof.Machine.execI2cStretchTimeout c n s
  | .faultTaken => Sys2Proof.Machine.execFaultTaken s
  | .quietExpire code inst => Sys2Proof.Machine.execQuietExpire code inst s
  | .fltAck a => Sys2Proof.Machine.execFltAck a s
  | .railInvalidTimeout line => Sys2Proof.Machine.execRailInvalidTimeout line s
  | .farrierProbe ok => Sys2Proof.Machine.execFarrierProbe ok s
  | .scrub x => Sys2Proof.Machine.execScrub x s
  | .startDone a => Sys2Proof.Machine.execStartDone a s
  | .crecClr a => Sys2Proof.Machine.execCrecClr a s
  | .fltInjArm a => Sys2Proof.Machine.execFltInjArm a s
  | .fltInjDisarm a => Sys2Proof.Machine.execFltInjDisarm a s
  | .recovExpire => Sys2Proof.Machine.execRecovExpire s
  | .ruEnable a => Sys2Proof.Machine.execRuEnable a s
  | .ruDisable a => Sys2Proof.Machine.execRuDisable a s
  | .ruSpareDesignate a => Sys2Proof.Machine.execRuSpareDesignate a s
  | .ruFaultedClear u a => Sys2Proof.Machine.execRuFaultedClear u a s
  | .ruSelfTestDone u ok => Sys2Proof.Machine.execRuSelfTestDone u ok s
  | .ruCombine u g j err => Sys2Proof.Machine.execRuCombine u g j err s
  | .ruInjArm a => Sys2Proof.Machine.execRuInjArm a s
  | .pktInjArm a => Sys2Proof.Machine.execPktInjArm a s
  | .portHang p => Sys2Proof.Machine.execPortHang p s
  | .vcHang p v => Sys2Proof.Machine.execVcHang p v s
  | .hportHang inst => Sys2Proof.Machine.execHportHang inst s
  | .abortGo a => Sys2Proof.Machine.execAbortGo a s
  | .generationStep => Sys2Proof.Machine.execGenerationStep s
  | .genWrite a => Sys2Proof.Machine.execGenWrite a s
  | .abortPairExpire pkey gen => Sys2Proof.Machine.execAbortPairExpire pkey gen s
  | .portFence a => Sys2Proof.Machine.execPortFence a s
  | .mcWdogExpire => Sys2Proof.Machine.execMcWdogExpire s
  | .farrierOpenPorts => Sys2Proof.Machine.execFarrierOpenPorts s
  | .farrierTakeback a => Sys2Proof.Machine.execFarrierTakeback a s
  | .farrierStatus => Sys2Proof.Machine.execFarrierStatus s
  | .farrierPeek => Sys2Proof.Machine.execFarrierPeek s
  | .farrierAbort => Sys2Proof.Machine.execFarrierAbort s
  | .farrierFence => Sys2Proof.Machine.execFarrierFence s
  | .farrierOpen => Sys2Proof.Machine.execFarrierOpen s
  | .farrierResetMc => Sys2Proof.Machine.execFarrierResetMc s
  | .farrierWarmReset => Sys2Proof.Machine.execFarrierWarmReset s
  | .farrierHalt => Sys2Proof.Machine.execFarrierHalt s
  | .farrierRelease => Sys2Proof.Machine.execFarrierRelease s
  | .farrierBadCmd => Sys2Proof.Machine.execFarrierBadCmd s
  | .haltGo a => Sys2Proof.Machine.execHaltGo a s
  | .haltRelease a => Sys2Proof.Machine.execHaltRelease a s
  | .halted => Sys2Proof.Machine.execHalted s
  | .haltTimeout => Sys2Proof.Machine.execHaltTimeout s
  | .snapSelect a => Sys2Proof.Machine.execSnapSelect a s
  | .mbInfo => Sys2Proof.Machine.execMbInfo s
  | .mbNonce => Sys2Proof.Machine.execMbNonce s
  | .mbExpertOn => Sys2Proof.Machine.execMbExpertOn s
  | .mbExpertOff => Sys2Proof.Machine.execMbExpertOff s
  | .mbFwBegin => Sys2Proof.Machine.execMbFwBegin s
  | .mbFwChunk => Sys2Proof.Machine.execMbFwChunk s
  | .mbFwCommit => Sys2Proof.Machine.execMbFwCommit s
  | .fwHeartbeat => Sys2Proof.Machine.execFwHeartbeat s
  | .fwWdogExpire => Sys2Proof.Machine.execFwWdogExpire s
  | .fwAccessViolation x => Sys2Proof.Machine.execFwAccessViolation x s
  | .kernelCall words => Sys2Proof.Machine.execKernelCall words s
  | .mbImgBegin => Sys2Proof.Machine.execMbImgBegin s
  | .mbImgChunk => Sys2Proof.Machine.execMbImgChunk s
  | .mbImgApplyStart => Sys2Proof.Machine.execMbImgApplyStart s
  | .mbImgApplyStageLocal => Sys2Proof.Machine.execMbImgApplyStageLocal s
  | .mbImgApplyStageDomain => Sys2Proof.Machine.execMbImgApplyStageDomain s
  | .mbImgDrop => Sys2Proof.Machine.execMbImgDrop s
  | .mbTableSwap => Sys2Proof.Machine.execMbTableSwap s
  | .mbTakeover => Sys2Proof.Machine.execMbTakeover s
  | .mbAbort => Sys2Proof.Machine.execMbAbort s
  | .mbHalt => Sys2Proof.Machine.execMbHalt s
  | .mbRelease => Sys2Proof.Machine.execMbRelease s
  | .mbFltAck => Sys2Proof.Machine.execMbFltAck s
  | .mbEnable => Sys2Proof.Machine.execMbEnable s
  | .mbFence => Sys2Proof.Machine.execMbFence s
  | .mbStartDone => Sys2Proof.Machine.execMbStartDone s
  | .mbI2c => Sys2Proof.Machine.execMbI2c s
  | .mbTimeRead => Sys2Proof.Machine.execMbTimeRead s
  | .mbTimeSet => Sys2Proof.Machine.execMbTimeSet s
  | .mbRemote => Sys2Proof.Machine.execMbRemote s
  | .mbPeek => Sys2Proof.Machine.execMbPeek s
  | .mbPoke => Sys2Proof.Machine.execMbPoke s
  | .mbDiag => Sys2Proof.Machine.execMbDiag s
  | .mbBadCmd => Sys2Proof.Machine.execMbBadCmd s
  | .mbTimeout => Sys2Proof.Machine.execMbTimeout s
  | .expertExpire => Sys2Proof.Machine.execExpertExpire s
  | .beaconInterval => Sys2Proof.Machine.execBeaconInterval s
  | .gaitInterval mean inst => Sys2Proof.Machine.execGaitInterval mean inst s
  | .lifeSecond => Sys2Proof.Machine.execLifeSecond s
  | .ccntLatch k snap par => Sys2Proof.Machine.execCcntLatch k snap par s
  | .logEnable n a => Sys2Proof.Machine.execLogEnable n a s
  | .logStarted n => Sys2Proof.Machine.execLogStarted n s
  | .logDisable n a => Sys2Proof.Machine.execLogDisable n a s
  | .logFlush n a => Sys2Proof.Machine.execLogFlush n a s
  | .logPadTimeout n => Sys2Proof.Machine.execLogPadTimeout n s
  | .logDrainWrite n => Sys2Proof.Machine.execLogDrainWrite n s
  | .logDrainTimeout n => Sys2Proof.Machine.execLogDrainTimeout n s
  | .logwinSelect a => Sys2Proof.Machine.execLogwinSelect a s
  | .cmapInterval => Sys2Proof.Machine.execCmapInterval s
  | .lifeSnap a => Sys2Proof.Machine.execLifeSnap a s
  | .lifeOpen a => Sys2Proof.Machine.execLifeOpen a s
  | .lifeCommit a => Sys2Proof.Machine.execLifeCommit a s
  | .registerWrite off a => Sys2Proof.Machine.execRegisterWrite off a s
  | .faultStaticToggle => Sys2Proof.Machine.execFaultStaticToggle s
  | .mcWatchdogWrite => Sys2Proof.Machine.execMcWatchdogWrite s
  | .laneManagementWord t => Sys2Proof.Machine.execLaneManagementWord t s
  | .prbsCheckerLock t j errs => Sys2Proof.Machine.execPrbsCheckerLock t j errs s
  | .tagLock p => Sys2Proof.Machine.execTagLock p s
  | .lockReleaseTimeout => Sys2Proof.Machine.execLockReleaseTimeout s

end Sys2Proof.Machine
end

