-- ==== Sys2Proof/Machine/Tick.lean ====
section
/-! DEFINITION. The passing of one REFCLK cycle: the time base and the time of day (R481, R484). -/

namespace Sys2Proof.Machine

/-- The most a correction or the frequency term may add in one REFCLK cycle: 200 ppm of 80,000 (R484). -/
def maxSlew : Int := 16

/-- What steering adds to the counter in one REFCLK cycle, in 0.25 ns ÷ 3,125: the frequency term while the
state keeps one, and as much of the correction still to be made as the limit leaves (R484). -/
def State.steer (s : State) : Int × Int :=
  let keep : Int := match s.ts.st with
    | .locked | .holdover => max (-maxSlew) (min maxSlew s.ts.freq)
    | _ => 0
  let lo := -maxSlew - keep
  let hi := maxSlew - keep
  let part : Int := match s.ts.st with
    | .acquire | .locked => max lo (min hi s.ts.corr)
    | _ => 0
  (keep + part, s.ts.corr - part)

/-- The time of day stands at 0: PWR_OK is low, or a cold reset or its self-check is on (R481, R525). -/
def State.todHeld (s : State) : Bool :=
  match s.pwr.phase with
  | .off | .held | .failed | .check false => true
  | _ => false

/-- One REFCLK cycle passes (R481): 25.6 units of time of day, and the steering of R484. -/
def State.tick (s : State) : State :=
  let (d, left) := s.steer
  { s with
    out := []
    now := s.now + 1
    tod := if s.todHeld then 0 else (s.tod + 80000 + d.toNat) - (-d).toNat
    ts := { s.ts with corr := left } }

end Sys2Proof.Machine
end

