-- ==== Sys2Proof/Machine/Step.lean ====
section
/-! DEFINITION. One step: the command at the front of the queue, or one REFCLK cycle on an empty queue. -/

namespace Sys2Proof.Machine

/-- What the block does of itself in a REFCLK cycle without a command: a leader without children repeats its drain round,
the monitors of the host bundles see what waits, a swap that waited for towpaths is made, RA accesses that ports held are taken as far as they may, draining reduction
units without a piece go OFF, and every link port sends null bodies and NULL tags. In reset only time passes, but for the
first 2 µs of a cold reset, in which link ports send fenced idle (R522). -/
def State.cyclePasses (s : State) : State :=
  let t := (if s.alive then s.watchHost else s).tick
  if t.alive then (((((t.leadRound).swapSettle).raRelease).unitsSettle).idlePorts)
  else if t.pwr.phase = .held ∧ t.now < t.pwr.warmAt + nsTicks 2000 then t.idlePorts
  else t

/-- Take the command at the front of the queue and run it with the rest of the queue; on an empty queue one
REFCLK cycle passes (DESIGN CHOICE, log 3). -/
def step (s : State) : Host.Outcome State Fault Refusal :=
  match s.pending with
  | [] => .next { s.cyclePasses with pending := [] }
  | c :: rest => exec c { s with pending := rest }

/-- The state with the command that a word spells put at the front of its queue. The table gives its rows
no bits, so that no word spells one. -/
def State.withFetchWord (s : State) (nbits w : Nat) : State :=
  match decodeTableWord nbits w with
  | some c => { s with pending := c :: s.pending }
  | none => s

end Sys2Proof.Machine
end

