-- ==== Sys2Proof/Safety.lean ====
section
/-! DEFINITION. The terms statements are made in: what a command answers, when a register write takes its full
effect, and the invariants of a block that runs as the spec says. -/

namespace Sys2Proof

/-- Bit `i` of the data word of a register write. -/
def RgAcc.bit (a : RgAcc) (i : Nat) : Bool := a.data.toNat.testBit i

end Sys2Proof

namespace Sys2Proof.Machine

/-- Command `c` answers a next state from `s`, and `P` holds of that state. -/
def Answers (c : Instr) (s : State) (P : State → Prop) : Prop := ∃ t, exec c s = .next t ∧ P t

/-- A register write is made, with privilege `priv`: the block is out of reset, and the writer is the kernel, or
the host with good parity, no injection armed and the block not in F3; the kernel has privilege always, the host under
expert control (R10, R394, R417, R465). -/
def WriteMade (s : State) (off : Nat) (a : RgAcc) (priv : Bool) : Prop :=
  s.alive = true ∧ match a.who with
    | .kernel => priv = true
    | .host => s.flt.armed = none ∧ a.par = rgParity true off a.data ∧ s.inF3 = false ∧ priv = s.expert

/-- Channel `k` can start word `w` and nothing stands in its way: the block is out of reset, no ECC injection is armed,
and the word is not the 65th of a loop body (R61, R73, R79, R426). -/
def Starts (s : State) (k : Nat) (w : CmdWord) : Prop :=
  s.alive = true ∧ s.startable k = some w ∧ s.flt.armed = none ∧ (s.chan k).tooLong 0 = false

/-- The same, with no other command of the channel in execution. -/
def StartsAlone (s : State) (k : Nat) (w : CmdWord) : Prop := Starts s k w ∧ (s.chan k).flights = []

/-- The state once the packet `h` has left ejection berth `i` and been checked and counted (R245). -/
def State.accepted (s : State) (i : Nat) (h : Held) : State :=
  (({ s with out := [], eject := dropAt s.eject i } : State).checked h).2

/-- Packet `h` stands in ejection berth `i`, no earlier berth holds one of its virtual channel from its port, it passes
checks 1 to 6 of R245, the partition is not fenced, and no injection is armed. -/
def Accepts (s : State) (i : Nat) (h : Held) : Prop :=
  s.alive = true ∧ s.eject[i]? = some h ∧ s.berth i (fun _ => true) = true ∧ s.pfence = false ∧ s.flt.armed = none ∧
    (({ s with out := [], eject := dropAt s.eject i } : State).checked h).1 = true

/-- An accepted MB_REQ of a class and MSG that may be taken and was not answered before (R478, R479). -/
def MgtComes (s : State) (i : Nat) (h : Held) (mclass msg : Nat) : Prop :=
  Accepts s i h ∧ h.pkt.opcode = 0xC1 ∧ h.pkt.aux % 16 = mclass ∧ h.pkt.aux / 256 = msg ∧ (s.accepted i h).mgtTaken h = true ∧
    ∀ a ∈ s.mc.answered, ¬(a.src = h.pkt.src ∧ a.mseq = qf h.pkt.h7 0 32)

/-- The oldest received control flit of port `p` is `b`, of type `ctype` (R307). -/
def CtlComes (s : State) (p ctype b : Nat) : Prop := s.alive = true ∧ p < 12 ∧ s.ctlFront p ctype = some b

/-- The mailbox holds request `r`, not started, which passes the checks common to all commands; no injection is armed
(R472, R473). -/
def MbWaits (s : State) (r : MbReq) : Prop :=
  s.alive = true ∧ s.mc.mb.busy = some r ∧ r.started = false ∧ s.flt.armed = none ∧
    mbRefusal s.mc.mode s.expert r.words = none

/-- The state in which the kernel performs the mailbox's request `r`. -/
def State.asked (s : State) (r : MbReq) : State :=
  { s with out := [], mc := { s.mc with mb := { s.mc.mb with busy := some { r with started := true } } } }

/-- The mailbox holds an answer with status `st` (R471). -/
def MbAnswered (t : State) (st : Nat) : Prop :=
  t.mc.mb.busy = none ∧ t.mc.mb.done = true ∧ t.mc.mb.status = BitVec.ofNat 8 st

/-! ## Invariants and reset -/

/-- The identity registers and what they read: DX_ID, DX_FEATURE and DX_SIZE0 to DX_SIZE4 (R536, R538). -/
def identityRegs : List (Nat × Word) :=
  [(0x000, 0x7E13D320), (0x004, 0x00043FFF), (0x020, 0x40802000), (0x024, 0x10801000), (0x028, 0x46020100),
   (0x02C, 0x0FF9090C), (0x030, 0x40040078)]

/-- The identity registers read as they must. -/
def State.Identity (s : State) : Prop := ∀ e ∈ identityRegs, (s.readReg e.1).1 = e.2

/-- PKEY is not the reserved key, and the tallies stand in canonical form (R22). -/
def State.KeyAndTallies (s : State) : Prop := s.ident.pkey ≠ 0xFFFF ∧ SMap.Wf (fun _ => (0 : BitVec 48)) s.tally

/-- Registers with what they read after reset (R220, R538): one of every group of the map that has a reset value. -/
def resetRegs : List (Nat × Word) :=
  [(0x010, 0), (0x100, 0x0003FFFF), (0x104, 0), (0x108, 0), (0x120, 0), (0x140, 0x92), (0x144, 0x10), (0x148, 0x1111),
   (0x180, 0x0061FFFF), (0x190, 2), (0x1CC, 2), (0x1D0, 4), (0x200, 0), (0x300, 0x1FC8), (0x304, 0x10087310),
   (0x308, 0x0C141404), (0x30C, 0x00101C14), (0x320, 0x00010A20), (0x324, 8), (0x328, 0x00022211), (0x340, 0xFFF),
   (0x44C, 0xFFF), (0x600, 0), (0x800, 0x4024), (0x804, 0), (0xAC0, 0x4024), (0xE00, 0x03FF03FF), (0xF00, 0)] ++
  [(0x1000, 0), (0x1800, 0), (0x1808, 0xC), (0x2004, 0x20A), (0x2100, 0xF), (0x2200, 0), (0x3000, 0x3E8), (0x3010, 2),
   (0x3014, 0), (0x3108, 0x10), (0x4000, 0x10), (0x4004, 0), (0x8020, 0), (0xA000, 0), (0xB000, 0), (0xC000, 0x000F0000),
   (0xC004, 0xFFFFFFFF), (0xC080, 0x00B0BCC8), (0xC084, 0x00909CA8), (0xC088, 0x008894A0), (0xD000, 0x330), (0xD004, 0x78),
   (0xD040, 0x00100000), (0xE000, 0x7D0), (0xF004, 0), (0xF040, 0), (0xF048, 0x2BC), (0x10000, 0), (0x20000, 0xD0),
   (0x24000, 0), (0x28000, 0), (0x30000, 0), (0x31000, 0), (0x32004, 0xFFFF), (0x32100, 0x600), (0x34004, 0)]

/-! ## What a command leaves -/

/-- What a command of these kinds leaves: channels, tallies, watches, the atomic
cache, the host-facing ports and packets at their receiver.
Everything but the fields taken from `t` stands as in `s`. -/
def restChannels (c : Instr) (s t : State) : State :=
  match c with
  | .cpWord .. =>
    { s with out := t.out, rg := t.rg, chans := t.chans, cpHeld := t.cpHeld, ev := t.ev, flt := t.flt,
             ccnt := t.ccnt, logs := t.logs }
  | .channelEnable .. | .channelDisable .. | .resume .. =>
    { s with out := t.out, rg := t.rg, chans := t.chans, scal := t.scal, watch := t.watch, eng := t.eng,
             hm := t.hm, ev := t.ev, inj := t.inj, pseq := t.pseq, tows := t.tows, reins := t.reins,
             counts := t.counts, flt := t.flt, ccnt := t.ccnt, logs := t.logs, groups := t.groups, rus := t.rus }
  | .channelOn .. =>
    { s with out := t.out, rg := t.rg, chans := t.chans, scal := t.scal, eng := t.eng, hm := t.hm, ev := t.ev,
             inj := t.inj, pseq := t.pseq, tows := t.tows, reins := t.reins, counts := t.counts, ccnt := t.ccnt,
             logs := t.logs, groups := t.groups }
  | .scalarWrite .. =>
    { s with out := t.out, rg := t.rg, chans := t.chans, scal := t.scal, watch := t.watch, ev := t.ev,
             flt := t.flt, logs := t.logs, rus := t.rus }
  | .crConsWrite .. =>
    { s with out := t.out, rg := t.rg, chans := t.chans, watch := t.watch, ev := t.ev, flt := t.flt,
             logs := t.logs, rus := t.rus }
  | .latchedRead .. =>
    { s with out := t.out, rg := t.rg, rshadow := t.rshadow, flt := t.flt }
  | .nop .. | .put .. | .get .. | .copy .. | .waitCmd .. | .fence .. | .repeatLoop .. | .endLoop .. | .branch .. |
  .loadsImm .. | .loadsTally .. | .loadsAdd .. | .mark .. | .trace .. | .badOp .. =>
    { s with out := t.out, rg := t.rg, chans := t.chans, scal := t.scal, ev := t.ev, flt := t.flt, ccnt := t.ccnt,
             logs := t.logs }
  | .atom .. | .signal .. | .loadsMem .. =>
    { s with out := t.out, rg := t.rg, chans := t.chans, scal := t.scal, eng := t.eng, hm := t.hm, ev := t.ev,
             inj := t.inj, pseq := t.pseq, tows := t.tows, reins := t.reins, rrUsed := t.rrUsed, draws := t.draws,
             counts := t.counts, flt := t.flt, ccnt := t.ccnt, logs := t.logs }
  | .allReduce .. | .reduceScatter .. | .allGather .. | .broadcast .. | .reduce .. | .a2aCap .. | .barrier .. |
  .scalarAr .. =>
    { s with out := t.out, rg := t.rg, chans := t.chans, scal := t.scal, eng := t.eng, hm := t.hm, ev := t.ev,
             inj := t.inj, pseq := t.pseq, tows := t.tows, reins := t.reins, counts := t.counts, flt := t.flt,
             ccnt := t.ccnt, logs := t.logs, groups := t.groups }
  | .fragmentIssue .. =>
    { s with out := t.out, rg := t.rg, chans := t.chans, scal := t.scal, eng := t.eng, hm := t.hm, ra := t.ra,
             ev := t.ev, inj := t.inj, pseq := t.pseq, tows := t.tows, reins := t.reins, rrUsed := t.rrUsed,
             draws := t.draws, counts := t.counts, flt := t.flt, ccnt := t.ccnt, logs := t.logs,
             groups := t.groups }
  | .completionRecordWrite .. =>
    { s with out := t.out, rg := t.rg, chans := t.chans, scal := t.scal, eng := t.eng, hm := t.hm, ev := t.ev,
             logs := t.logs }
  | .channelHang .. =>
    { s with out := t.out, rg := t.rg, chans := t.chans, ev := t.ev, flt := t.flt, logs := t.logs, mons := t.mons
             }
  | .shapeCommit .. =>
    { s with out := t.out, rg := t.rg, chans := t.chans, watch := t.watch, flt := t.flt, rus := t.rus }
  | .tallyWrite .. =>
    { s with out := t.out, free := t.free, rg := t.rg, chans := t.chans, scal := t.scal, tally := t.tally,
             watch := t.watch, ev := t.ev, flt := t.flt, logs := t.logs, rus := t.rus }
  | .watchArm .. | .watchDisarm .. =>
    { s with out := t.out, free := t.free, rg := t.rg, chans := t.chans, watch := t.watch, flt := t.flt,
             rus := t.rus }
  | .watchEventEnqueue .. =>
    { s with out := t.out, rg := t.rg, watch := t.watch, ev := t.ev, logs := t.logs }
  | .atcFlush .. =>
    { s with out := t.out, rg := t.rg, chans := t.chans, watch := t.watch, atc := t.atc, flt := t.flt,
             rus := t.rus }
  | .atcHoldExpire .. =>
    { s with out := t.out, atc := t.atc }
  | .atomicPerform .. =>
    { s with out := t.out, rg := t.rg, atc := t.atc, eng := t.eng, hm := t.hm, inj := t.inj, pseq := t.pseq,
             counts := t.counts, flt := t.flt }
  | .pfenceSet .. | .pfenceLift .. =>
    { s with out := t.out, pfence := t.pfence, rg := t.rg, chans := t.chans, watch := t.watch, ra := t.ra,
             inj := t.inj, pseq := t.pseq, reins := t.reins, rrUsed := t.rrUsed, draws := t.draws,
             counts := t.counts, flt := t.flt, rus := t.rus }
  | .raLoad .. | .raStore .. =>
    { s with out := t.out, rg := t.rg, ra := t.ra, inj := t.inj, pseq := t.pseq, reins := t.reins,
             rrUsed := t.rrUsed, draws := t.draws, counts := t.counts, flt := t.flt }
  | .raRspTaken .. =>
    { s with out := t.out, rg := t.rg, ra := t.ra, inj := t.inj, pseq := t.pseq, reins := t.reins,
             rrUsed := t.rrUsed, draws := t.draws, counts := t.counts, flt := t.flt, mons := t.mons }
  | .raLoadTimeout .. =>
    { s with out := t.out, ra := t.ra }
  | .hmReadIssue .. =>
    { s with out := t.out, hm := t.hm, mons := t.mons }
  | .hmWriteIssue .. =>
    { s with out := t.out, atc := t.atc, hm := t.hm, mons := t.mons }
  | .hmReadBeat .. =>
    { s with out := t.out, rg := t.rg, chans := t.chans, scal := t.scal, atc := t.atc, eng := t.eng, hm := t.hm,
             streams := t.streams, ev := t.ev, inj := t.inj, pseq := t.pseq, tows := t.tows, reins := t.reins,
             counts := t.counts, flt := t.flt, ccnt := t.ccnt, logs := t.logs, groups := t.groups }
  | .hmWriteResponse .. | .hmTimeout .. =>
    { s with out := t.out, free := t.free, rg := t.rg, chans := t.chans, scal := t.scal, tally := t.tally,
             watch := t.watch, atc := t.atc, eng := t.eng, hm := t.hm, streams := t.streams, ev := t.ev,
             inj := t.inj, pseq := t.pseq, tows := t.tows, reins := t.reins, counts := t.counts, flt := t.flt,
             ccnt := t.ccnt, logs := t.logs, groups := t.groups }
  | .eventTaken .. =>
    { s with out := t.out, rg := t.rg, ev := t.ev, logs := t.logs, mons := t.mons }
  | .lbWriteResponse .. =>
    { s with out := t.out, rg := t.rg, ev := t.ev, logs := t.logs, lbOut := t.lbOut }
  | .wr .. | .rd .. | .rdRelay .. | .rlyData .. =>
    { s with out := t.out, rg := t.rg, chans := t.chans, eng := t.eng, hm := t.hm, inj := t.inj, pseq := t.pseq,
             eject := t.eject, counts := t.counts, flt := t.flt }
  | .raLd .. | .raSt .. =>
    { s with out := t.out, rg := t.rg, chans := t.chans, eng := t.eng, hm := t.hm, streams := t.streams,
             inj := t.inj, pseq := t.pseq, eject := t.eject, counts := t.counts, flt := t.flt }
  | .atomPacket .. =>
    { s with out := t.out, rg := t.rg, chans := t.chans, atc := t.atc, eng := t.eng, inj := t.inj, pseq := t.pseq,
             eject := t.eject, counts := t.counts, flt := t.flt }
  | .signalPacket .. =>
    { s with out := t.out, free := t.free, rg := t.rg, chans := t.chans, scal := t.scal, tally := t.tally,
             watch := t.watch, ev := t.ev, inj := t.inj, pseq := t.pseq, eject := t.eject, counts := t.counts,
             flt := t.flt, logs := t.logs }
  | .wrRsp .. | .rdData .. | .rdRsp .. | .raData .. | .raRsp .. | .atomRsp .. | .sigRsp .. | .colAck .. =>
    { s with out := t.out, rg := t.rg, chans := t.chans, scal := t.scal, eng := t.eng, hm := t.hm, ra := t.ra,
             ev := t.ev, inj := t.inj, pseq := t.pseq, eject := t.eject, tows := t.tows, reins := t.reins,
             rrUsed := t.rrUsed, draws := t.draws, counts := t.counts, flt := t.flt, ccnt := t.ccnt,
             logs := t.logs, groups := t.groups }
  | .colReady .. | .colData .. | .colSlot .. | .colDone .. | .colRel .. | .collAbort .. =>
    { s with out := t.out, rg := t.rg, chans := t.chans, scal := t.scal, eng := t.eng, hm := t.hm, ev := t.ev,
             inj := t.inj, pseq := t.pseq, eject := t.eject, tows := t.tows, reins := t.reins, counts := t.counts,
             flt := t.flt, ccnt := t.ccnt, logs := t.logs, groups := t.groups }
  | _ => t

/-- What a command of these kinds leaves: hops, reins, towpaths, links, teams, I²C and reduction units.
Everything but the fields taken from `t` stands as in `s`. -/
def restFabric (c : Instr) (s t : State) : State :=
  match c with
  | .packetHop .. =>
    { s with out := t.out, rg := t.rg, chans := t.chans, ra := t.ra, ev := t.ev, inj := t.inj, pseq := t.pseq,
             eject := t.eject, tows := t.tows, reins := t.reins, rrUsed := t.rrUsed, draws := t.draws,
             counts := t.counts, links := t.links, flt := t.flt, logs := t.logs, phys := t.phys, mons := t.mons,
             life := t.life, cmap := t.cmap }
  | .reinIncrease .. =>
    { s with out := t.out, reins := t.reins }
  | .towEnable .. | .towDisable .. =>
    { s with out := t.out, rg := t.rg, chans := t.chans, watch := t.watch, tows := t.tows, flt := t.flt,
             rus := t.rus }
  | .towStarted .. =>
    { s with out := t.out, tows := t.tows }
  | .towStall .. =>
    { s with out := t.out, rg := t.rg, tows := t.tows, counts := t.counts, links := t.links, flt := t.flt,
             phys := t.phys, mons := t.mons, cmap := t.cmap }
  | .linkEnable .. | .linkDisable .. | .linkRetrainWrite .. =>
    { s with out := t.out, rg := t.rg, chans := t.chans, watch := t.watch, ev := t.ev, inj := t.inj,
             eject := t.eject, tows := t.tows, counts := t.counts, links := t.links, flt := t.flt, logs := t.logs,
             rus := t.rus, teams := t.teams, phys := t.phys, halt := t.halt, mons := t.mons, ts := t.ts,
             life := t.life, cmap := t.cmap }
  | .linkParam .. | .linkTrainTimeout .. | .retrainTimeout .. | .linkDrainTimeout .. =>
    { s with out := t.out, rg := t.rg, chans := t.chans, scal := t.scal, ev := t.ev, inj := t.inj,
             eject := t.eject, tows := t.tows, counts := t.counts, links := t.links, flt := t.flt, logs := t.logs,
             teams := t.teams, phys := t.phys, halt := t.halt, mons := t.mons, ts := t.ts, cmap := t.cmap }
  | .linkParamSend .. | .beacon .. =>
    { s with out := t.out, tows := t.tows, links := t.links, phys := t.phys }
  | .teamDrop .. | .fomUpdate .. | .mirrorAck .. | .spareCompareDone .. | .forwardedClockLoss .. |
  .clockHoldoverEnd .. | .laneSilent .. | .tagLockLoss .. =>
    { s with out := t.out, rg := t.rg, ev := t.ev, tows := t.tows, links := t.links, flt := t.flt, logs := t.logs,
             teams := t.teams, phys := t.phys, halt := t.halt, mons := t.mons, ts := t.ts, life := t.life,
             cmap := t.cmap }
  | .teamAdd .. | .tagLock .. =>
    { s with out := t.out, rg := t.rg, tows := t.tows, links := t.links, teams := t.teams, phys := t.phys,
             mons := t.mons, cmap := t.cmap }
  | .retrain .. =>
    { s with out := t.out, rg := t.rg, ev := t.ev, tows := t.tows, links := t.links, flt := t.flt, logs := t.logs,
             teams := t.teams, phys := t.phys, halt := t.halt, ts := t.ts, life := t.life }
  | .haltMark .. =>
    { s with out := t.out, rg := t.rg, tows := t.tows, links := t.links, phys := t.phys, halt := t.halt,
             mons := t.mons, cmap := t.cmap }
  | .haltRel .. =>
    { s with out := t.out, rg := t.rg, chans := t.chans, ra := t.ra, ev := t.ev, inj := t.inj, pseq := t.pseq,
             tows := t.tows, reins := t.reins, rrUsed := t.rrUsed, draws := t.draws, counts := t.counts,
             links := t.links, flt := t.flt, logs := t.logs, phys := t.phys, halt := t.halt, mons := t.mons,
             cmap := t.cmap }
  | .abortFlit .. =>
    { s with out := t.out, rg := t.rg, chans := t.chans, ra := t.ra, tows := t.tows, links := t.links,
             flt := t.flt, phys := t.phys, abort := t.abort, halt := t.halt, mons := t.mons, cmap := t.cmap }
  | .beaconRsp .. =>
    { s with out := t.out, free := t.free, tod := t.tod, rg := t.rg, ev := t.ev, links := t.links, flt := t.flt,
             logs := t.logs, ts := t.ts }
  | .seqFlitReceive .. | .tagReceive .. =>
    { s with out := t.out, rg := t.rg, chans := t.chans, scal := t.scal, ra := t.ra, ev := t.ev, inj := t.inj,
             eject := t.eject, tows := t.tows, counts := t.counts, links := t.links, flt := t.flt, logs := t.logs,
             teams := t.teams, phys := t.phys, abort := t.abort, halt := t.halt, mons := t.mons, ts := t.ts,
             life := t.life, cmap := t.cmap }
  | .replayTimeout .. =>
    { s with out := t.out, rg := t.rg, chans := t.chans, scal := t.scal, ev := t.ev, inj := t.inj,
             eject := t.eject, tows := t.tows, counts := t.counts, links := t.links, flt := t.flt, logs := t.logs,
             teams := t.teams, phys := t.phys, halt := t.halt, mons := t.mons, ts := t.ts, life := t.life,
             cmap := t.cmap }
  | .lnkInjArm .. | .ruEnable .. | .ruDisable .. | .ruSpareDesignate .. | .ruFaultedClear .. | .ruInjArm .. |
  .pktInjArm .. =>
    { s with out := t.out, rg := t.rg, chans := t.chans, watch := t.watch, flt := t.flt, rus := t.rus }
  | .trainingFrame .. =>
    { s with out := t.out, free := t.free, rg := t.rg, ev := t.ev, flt := t.flt, logs := t.logs, teams := t.teams,
             phys := t.phys, life := t.life }
  | .mirrorReq .. | .prbsCheckerLock .. =>
    { s with out := t.out, teams := t.teams }
  | .teamRetryTimer .. | .laneManagementWord .. =>
    { s with out := t.out, teams := t.teams, phys := t.phys }
  | .teamRetry .. | .teamSwap .. =>
    { s with out := t.out, rg := t.rg, chans := t.chans, watch := t.watch, flt := t.flt, rus := t.rus,
             teams := t.teams, phys := t.phys }
  | .prbsMode .. | .prbsClr .. | .harnessSeal .. =>
    { s with out := t.out, rg := t.rg, chans := t.chans, watch := t.watch, flt := t.flt, rus := t.rus,
             teams := t.teams }
  | .i2cWrite .. | .i2cRead .. | .i2cReadCur .. =>
    { s with out := t.out, rg := t.rg, chans := t.chans, watch := t.watch, ev := t.ev, flt := t.flt,
             logs := t.logs, rus := t.rus, i2c := t.i2c }
  | .i2cTransactionEnd .. =>
    { s with out := t.out, free := t.free, rg := t.rg, ev := t.ev, inj := t.inj, pseq := t.pseq,
             counts := t.counts, flt := t.flt, logs := t.logs, i2c := t.i2c, mc := t.mc }
  | .i2cStretchTimeout .. =>
    { s with out := t.out, free := t.free, rg := t.rg, ev := t.ev, inj := t.inj, pseq := t.pseq,
             counts := t.counts, logs := t.logs, i2c := t.i2c, mc := t.mc }
  | .ruSelfTestDone .. | .ruCombine .. =>
    { s with out := t.out, rg := t.rg, chans := t.chans, scal := t.scal, eng := t.eng, hm := t.hm, ev := t.ev,
             inj := t.inj, pseq := t.pseq, tows := t.tows, reins := t.reins, counts := t.counts, flt := t.flt,
             ccnt := t.ccnt, logs := t.logs, groups := t.groups, rus := t.rus, ruGone := t.ruGone, life := t.life
             }
  | .faultStaticToggle .. =>
    { s with out := t.out, pwr := t.pwr }
  | .mcWatchdogWrite .. =>
    { s with out := t.out, mc := t.mc }
  | _ => t

/-- What a command of these kinds leaves: faults, fences, aborts, generations, the farrier, halts and observation.
Everything but the fields taken from `t` stands as in `s`. -/
def restFaults (c : Instr) (s t : State) : State :=
  match c with
  | .faultTaken .. =>
    { t with pending := s.pending, free := s.free, now := s.now, tod := s.tod, ident := s.ident,
             pfence := s.pfence, wshadow := s.wshadow, rshadow := s.rshadow, tally := s.tally, watch := s.watch,
             atc := s.atc, tbl := s.tbl, lbOut := s.lbOut, rus := s.rus, ruGone := s.ruGone, berths := s.berths,
             i2c := s.i2c, abort := s.abort, far := s.far, pwr := s.pwr }
  | .quietExpire .. =>
    { s with out := t.out, rg := t.rg, ev := t.ev, flt := t.flt, logs := t.logs }
  | .fltAck .. =>
    { s with out := t.out, rg := t.rg, chans := t.chans, watch := t.watch, ra := t.ra, ev := t.ev, tows := t.tows,
             links := t.links, flt := t.flt, logs := t.logs, rus := t.rus, phys := t.phys, abort := t.abort,
             halt := t.halt, mons := t.mons, cmap := t.cmap }
  | .railInvalidTimeout .. | .farrierProbe .. | .scrub .. =>
    { s with out := t.out, flt := t.flt }
  | .startDone .. | .lifeSnap .. | .lifeOpen .. | .lifeCommit .. =>
    { s with out := t.out, rg := t.rg, chans := t.chans, watch := t.watch, flt := t.flt, rus := t.rus,
             life := t.life }
  | .crecClr .. | .fltInjArm .. | .fltInjDisarm .. | .snapSelect .. | .logwinSelect .. =>
    { s with out := t.out, rg := t.rg, chans := t.chans, watch := t.watch, flt := t.flt, rus := t.rus }
  | .recovExpire .. =>
    { s with out := t.out, rg := t.rg }
  | .portHang .. | .vcHang .. =>
    { s with out := t.out, rg := t.rg, chans := t.chans, scal := t.scal, ev := t.ev, inj := t.inj,
             eject := t.eject, tows := t.tows, counts := t.counts, links := t.links, flt := t.flt, logs := t.logs,
             teams := t.teams, phys := t.phys, halt := t.halt, mons := t.mons, ts := t.ts, cmap := t.cmap }
  | .hportHang .. =>
    { s with out := t.out, rg := t.rg, ev := t.ev, flt := t.flt, logs := t.logs, mons := t.mons }
  | .abortGo .. =>
    { s with out := t.out, rg := t.rg, chans := t.chans, watch := t.watch, ra := t.ra, tows := t.tows,
             links := t.links, flt := t.flt, rus := t.rus, phys := t.phys, abort := t.abort, halt := t.halt,
             mons := t.mons, cmap := t.cmap }
  | .generationStep .. =>
    { t with pending := s.pending, free := s.free, now := s.now, tod := s.tod, pfence := s.pfence,
             wshadow := s.wshadow, rshadow := s.rshadow, cpHeld := s.cpHeld, tally := s.tally, watch := s.watch,
             atc := s.atc, tbl := s.tbl, lbOut := s.lbOut, rus := s.rus, ruGone := s.ruGone, berths := s.berths,
             i2c := s.i2c, halt := s.halt, far := s.far, mc := s.mc, ts := s.ts, life := s.life, pwr := s.pwr }
  | .genWrite .. =>
    { t with pending := s.pending, free := s.free, now := s.now, tod := s.tod, pfence := s.pfence,
             wshadow := s.wshadow, rshadow := s.rshadow, cpHeld := s.cpHeld, tally := s.tally, atc := s.atc,
             tbl := s.tbl, lbOut := s.lbOut, ruGone := s.ruGone, berths := s.berths, i2c := s.i2c, halt := s.halt,
             far := s.far, ts := s.ts, life := s.life, pwr := s.pwr }
  | .abortPairExpire .. =>
    { s with out := t.out, abort := t.abort }
  | .portFence .. =>
    { s with out := t.out, rg := t.rg, chans := t.chans, scal := t.scal, watch := t.watch, ev := t.ev,
             inj := t.inj, eject := t.eject, tows := t.tows, counts := t.counts, links := t.links, flt := t.flt,
             logs := t.logs, rus := t.rus, teams := t.teams, phys := t.phys, halt := t.halt, mons := t.mons,
             ts := t.ts, cmap := t.cmap }
  | .mcWdogExpire .. =>
    { s with out := t.out, rg := t.rg, chans := t.chans, ra := t.ra, ev := t.ev, tows := t.tows, links := t.links,
             flt := t.flt, logs := t.logs, phys := t.phys, abort := t.abort, halt := t.halt, far := t.far,
             mons := t.mons, mc := t.mc, cmap := t.cmap }
  | .farrierOpenPorts .. =>
    { s with out := t.out, links := t.links, teams := t.teams, phys := t.phys, far := t.far }
  | .farrierTakeback .. =>
    { s with out := t.out, rg := t.rg, chans := t.chans, watch := t.watch, ev := t.ev, flt := t.flt,
             logs := t.logs, rus := t.rus, far := t.far }
  | .farrierStatus .. | .farrierBadCmd .. =>
    { s with out := t.out, rg := t.rg, inj := t.inj, pseq := t.pseq, counts := t.counts, far := t.far }
  | .farrierPeek .. =>
    { s with out := t.out, rg := t.rg, rshadow := t.rshadow, inj := t.inj, pseq := t.pseq, counts := t.counts,
             far := t.far }
  | .farrierAbort .. =>
    { s with out := t.out, rg := t.rg, chans := t.chans, ra := t.ra, inj := t.inj, pseq := t.pseq, tows := t.tows,
             counts := t.counts, links := t.links, flt := t.flt, phys := t.phys, abort := t.abort, halt := t.halt,
             far := t.far, mons := t.mons, cmap := t.cmap }
  | .farrierFence .. =>
    { s with out := t.out, rg := t.rg, chans := t.chans, scal := t.scal, ev := t.ev, inj := t.inj, pseq := t.pseq,
             eject := t.eject, tows := t.tows, counts := t.counts, links := t.links, flt := t.flt, logs := t.logs,
             teams := t.teams, phys := t.phys, halt := t.halt, far := t.far, mons := t.mons, ts := t.ts,
             cmap := t.cmap }
  | .farrierOpen .. =>
    { s with out := t.out, rg := t.rg, inj := t.inj, pseq := t.pseq, counts := t.counts, links := t.links,
             teams := t.teams, phys := t.phys, far := t.far }
  | .farrierResetMc .. =>
    { s with out := t.out, rg := t.rg, ev := t.ev, inj := t.inj, pseq := t.pseq, counts := t.counts, flt := t.flt,
             logs := t.logs, i2c := t.i2c, far := t.far, mc := t.mc }
  | .farrierWarmReset .. =>
    { t with pending := s.pending, free := s.free, now := s.now, tod := s.tod, ident := s.ident,
             pfence := s.pfence, wshadow := s.wshadow, rshadow := s.rshadow, tally := s.tally, watch := s.watch,
             atc := s.atc, tbl := s.tbl, lbOut := s.lbOut, rus := s.rus, ruGone := s.ruGone, berths := s.berths,
             i2c := s.i2c, abort := s.abort, mc := s.mc, life := s.life }
  | .farrierHalt .. | .farrierRelease .. =>
    { s with out := t.out, rg := t.rg, chans := t.chans, ra := t.ra, ev := t.ev, inj := t.inj, pseq := t.pseq,
             tows := t.tows, reins := t.reins, rrUsed := t.rrUsed, draws := t.draws, counts := t.counts,
             links := t.links, flt := t.flt, logs := t.logs, phys := t.phys, halt := t.halt, far := t.far,
             mons := t.mons, cmap := t.cmap }
  | .haltGo .. | .haltRelease .. =>
    { s with out := t.out, rg := t.rg, chans := t.chans, watch := t.watch, ra := t.ra, ev := t.ev, inj := t.inj,
             pseq := t.pseq, tows := t.tows, reins := t.reins, rrUsed := t.rrUsed, draws := t.draws,
             counts := t.counts, links := t.links, flt := t.flt, logs := t.logs, rus := t.rus, phys := t.phys,
             halt := t.halt, mons := t.mons, cmap := t.cmap }
  | .halted .. =>
    { s with out := t.out, rg := t.rg, ev := t.ev, logs := t.logs, halt := t.halt }
  | .haltTimeout .. =>
    { s with out := t.out, rg := t.rg, flt := t.flt, halt := t.halt }
  | .gaitInterval .. =>
    { s with out := t.out, rg := t.rg, ev := t.ev, flt := t.flt, logs := t.logs, life := t.life }
  | .lifeSecond .. =>
    { s with out := t.out, life := t.life }
  | .ccntLatch .. =>
    { s with out := t.out, rg := t.rg, rshadow := t.rshadow, flt := t.flt }
  | .logEnable .. | .logDisable .. | .logFlush .. =>
    { s with out := t.out, rg := t.rg, chans := t.chans, watch := t.watch, ev := t.ev, flt := t.flt,
             logs := t.logs, lbOut := t.lbOut, rus := t.rus, mons := t.mons }
  | .logStarted .. =>
    { s with out := t.out, logs := t.logs }
  | .logPadTimeout .. | .logDrainWrite .. =>
    { s with out := t.out, rg := t.rg, ev := t.ev, flt := t.flt, logs := t.logs, lbOut := t.lbOut, mons := t.mons
             }
  | .logDrainTimeout .. =>
    { s with out := t.out, rg := t.rg, ev := t.ev, logs := t.logs, lbOut := t.lbOut }
  | .cmapInterval .. =>
    { s with out := t.out, rg := t.rg, ev := t.ev, logs := t.logs, cmap := t.cmap }
  | _ => t

/-- What a command of these kinds leaves: the management core, lock cycles, the mailbox, time and registers.
Everything but the fields taken from `t` stands as in `s`. -/
def restCore (c : Instr) (s t : State) : State :=
  match c with
  | .mbReqRemote .. | .kernelCall .. =>
    { t with pending := s.pending, now := s.now, ruGone := s.ruGone, berths := s.berths }
  | .mbReqSpare .. | .mbImgApplyStart .. | .mbImgApplyStageLocal .. | .mbImgApplyStageDomain .. | .mbPoke .. |
  .registerWrite .. =>
    { t with pending := s.pending, now := s.now, tod := s.tod, rshadow := s.rshadow, ruGone := s.ruGone,
             berths := s.berths }
  | .treeStage .. | .treeSeal .. | .treeLock .. | .treeCount .. | .treeSwap .. | .treeRelease .. =>
    { t with pending := s.pending, now := s.now, tod := s.tod, ident := s.ident, pfence := s.pfence,
             wshadow := s.wshadow, rshadow := s.rshadow, tally := s.tally, watch := s.watch, atc := s.atc,
             streams := s.streams, lbOut := s.lbOut, rus := s.rus, ruGone := s.ruGone, berths := s.berths,
             far := s.far, life := s.life, pwr := s.pwr }
  | .treeReady .. | .treeRefused .. | .treeReport .. | .treeSwapped .. | .mbRsp .. | .mgtResendTimeout .. |
  .lockDrainTimeout .. | .mbTableSwap .. | .mbTakeover .. | .lockReleaseTimeout .. =>
    { t with pending := s.pending, now := s.now, tod := s.tod, ident := s.ident, pfence := s.pfence,
             wshadow := s.wshadow, rshadow := s.rshadow, tally := s.tally, watch := s.watch, atc := s.atc,
             streams := s.streams, lbOut := s.lbOut, rus := s.rus, ruGone := s.ruGone, berths := s.berths,
             abort := s.abort, far := s.far, life := s.life, pwr := s.pwr }
  | .assist .. =>
    { s with out := t.out, rg := t.rg, chans := t.chans, inj := t.inj, pseq := t.pseq, eject := t.eject,
             counts := t.counts, flt := t.flt, far := t.far }
  | .assistRsp .. =>
    { s with out := t.out, rg := t.rg, chans := t.chans, inj := t.inj, pseq := t.pseq, eject := t.eject,
             counts := t.counts, flt := t.flt }
  | .epochHoldExpire .. =>
    { s with out := t.out, rg := t.rg, inj := t.inj, eject := t.eject, tbl := t.tbl, tows := t.tows,
             counts := t.counts, links := t.links, phys := t.phys, mons := t.mons, cmap := t.cmap }
  | .lockSwapTimeout .. =>
    { s with out := t.out, rg := t.rg, chans := t.chans, cpHeld := t.cpHeld, ra := t.ra, ev := t.ev, inj := t.inj,
             pseq := t.pseq, tbl := t.tbl, tows := t.tows, reins := t.reins, rrUsed := t.rrUsed, draws := t.draws,
             counts := t.counts, flt := t.flt, ccnt := t.ccnt, logs := t.logs, mc := t.mc }
  | .mbInfo .. | .mbExpertOn .. | .mbExpertOff .. | .mbFwBegin .. | .mbFwChunk .. | .mbFwCommit .. | .mbImgBegin ..
  | .mbImgChunk .. | .mbI2c .. | .mbTimeRead .. | .mbRemote .. | .mbDiag .. | .mbBadCmd .. =>
    { s with out := t.out, rg := t.rg, ev := t.ev, inj := t.inj, pseq := t.pseq, counts := t.counts, flt := t.flt,
             logs := t.logs, i2c := t.i2c, mc := t.mc }
  | .mbNonce .. =>
    { s with out := t.out, free := t.free, rg := t.rg, ev := t.ev, inj := t.inj, pseq := t.pseq,
             counts := t.counts, flt := t.flt, logs := t.logs, i2c := t.i2c, mc := t.mc }
  | .fwHeartbeat .. | .mbTimeout .. =>
    { s with out := t.out, rg := t.rg, ev := t.ev, logs := t.logs, i2c := t.i2c, mc := t.mc }
  | .fwWdogExpire .. | .fwAccessViolation .. =>
    { s with out := t.out, rg := t.rg, ev := t.ev, flt := t.flt, logs := t.logs, i2c := t.i2c, mc := t.mc }
  | .mbImgDrop .. =>
    { s with out := t.out, rg := t.rg, ev := t.ev, inj := t.inj, pseq := t.pseq, tbl := t.tbl, counts := t.counts,
             flt := t.flt, logs := t.logs, i2c := t.i2c, mc := t.mc }
  | .mbAbort .. | .mbFltAck .. =>
    { s with out := t.out, rg := t.rg, chans := t.chans, ra := t.ra, ev := t.ev, inj := t.inj, pseq := t.pseq,
             tows := t.tows, counts := t.counts, links := t.links, flt := t.flt, logs := t.logs, phys := t.phys,
             i2c := t.i2c, abort := t.abort, halt := t.halt, mons := t.mons, mc := t.mc, cmap := t.cmap }
  | .mbHalt .. | .mbRelease .. =>
    { s with out := t.out, rg := t.rg, chans := t.chans, ra := t.ra, ev := t.ev, inj := t.inj, pseq := t.pseq,
             tows := t.tows, reins := t.reins, rrUsed := t.rrUsed, draws := t.draws, counts := t.counts,
             links := t.links, flt := t.flt, logs := t.logs, phys := t.phys, i2c := t.i2c, halt := t.halt,
             mons := t.mons, mc := t.mc, cmap := t.cmap }
  | .mbEnable .. =>
    { s with out := t.out, rg := t.rg, ev := t.ev, inj := t.inj, pseq := t.pseq, eject := t.eject, tows := t.tows,
             counts := t.counts, links := t.links, flt := t.flt, logs := t.logs, rus := t.rus, teams := t.teams,
             phys := t.phys, i2c := t.i2c, halt := t.halt, mons := t.mons, mc := t.mc, ts := t.ts, life := t.life,
             cmap := t.cmap }
  | .mbFence .. =>
    { s with out := t.out, pfence := t.pfence, rg := t.rg, chans := t.chans, scal := t.scal, ra := t.ra,
             ev := t.ev, inj := t.inj, pseq := t.pseq, eject := t.eject, tows := t.tows, reins := t.reins,
             rrUsed := t.rrUsed, draws := t.draws, counts := t.counts, links := t.links, flt := t.flt,
             logs := t.logs, teams := t.teams, phys := t.phys, i2c := t.i2c, halt := t.halt, mons := t.mons,
             mc := t.mc, ts := t.ts, cmap := t.cmap }
  | .mbStartDone .. =>
    { s with out := t.out, rg := t.rg, ev := t.ev, inj := t.inj, pseq := t.pseq, counts := t.counts, flt := t.flt,
             logs := t.logs, i2c := t.i2c, mc := t.mc, life := t.life }
  | .mbTimeSet .. =>
    { s with out := t.out, tod := t.tod, rg := t.rg, ev := t.ev, inj := t.inj, pseq := t.pseq, counts := t.counts,
             flt := t.flt, logs := t.logs, i2c := t.i2c, mc := t.mc }
  | .mbPeek .. =>
    { s with out := t.out, rg := t.rg, rshadow := t.rshadow, ev := t.ev, inj := t.inj, pseq := t.pseq,
             counts := t.counts, flt := t.flt, logs := t.logs, i2c := t.i2c, mc := t.mc }
  | .expertExpire .. =>
    { s with out := t.out, rg := t.rg, ev := t.ev, logs := t.logs, mc := t.mc }
  | .beaconInterval .. =>
    { s with out := t.out, rg := t.rg, ev := t.ev, tows := t.tows, links := t.links, flt := t.flt, logs := t.logs,
             phys := t.phys, ts := t.ts }
  | _ => t

end Sys2Proof.Machine
end

