-- ==== Sys2Proof/Certificates/Slice0/Obligations.lean ====
section
/-! DEFINITION. The statements for the provers. `Answers c s P`: the command `c` answers a next state from `s`, of
which `P` holds. `WriteMade s off a priv`: the register write `a` at `off` is made with privilege `priv`. -/

open Sys2Proof Sys2Proof.Machine

/-! ## The queue and the step -/

/-- A step runs the command at the front of the queue, with the queue's rest. -/
def Obligations.StepRunsFrontCommand : Prop :=
  ∀ (s : State) (c : Instr) (rest : List Instr), s.pending = c :: rest →
    step s = exec c { s with pending := rest }

/-- On an empty queue one REFCLK cycle of 6.4 ns passes: the time base moves by one and the queue stays empty (the
model's choice, log 3). -/
def Obligations.IdleStepPassesOneCycle : Prop :=
  ∀ s : State, s.pending = [] → ∃ t, step s = .next t ∧ t.pending = [] ∧ t.now = s.now + 1

/-- Every command answers a next state in every state, and leaves the queue as it is: nothing stops the block. -/
def Obligations.EveryCommandAnswersAndKeepsTheQueue : Prop :=
  ∀ (c : Instr) (s : State), Answers c s (fun t => t.pending = s.pending)

/-! ## Pins, resets and test access (R518 to R532) -/

/-- PWR_OK low clears channels, links, tallies, stored registers and every fault source; its rise starts the self-check, or
a held cold reset. RST_N low holds a block that nothing held in cold reset, with ERR_A 1, ERR_B 0, FAULT_STATIC low and
every link port that is not OFF fenced; its rise starts the cold self-check where nothing else holds the block. A wrapper mode
other than WS_BYPASS holds the block too (R418, R518, R522, R530). -/
def Obligations.PinsAndWrappersSetThePhase : Prop :=
  ∀ s : State,
    (s.pwr.pwrOk = true → Answers .pwrOkFall s (fun t => t.pwr.pwrOk = false ∧ t.pwr.phase = .off ∧ t.flt.src = []
      ∧ t.chans = [] ∧ t.links = [] ∧ t.tally = [] ∧ t.rg = [] ∧ t.pwr.rstN = s.pwr.rstN)) ∧
    (s.pwr.pwrOk = false → Answers .pwrOkRise s (fun t => t.pwr.pwrOk = true
      ∧ t.pwr.phase = (if s.pwr.holds then .held else .check false))) ∧
    (s.pwr.rstN = true → Answers .rstNFall s (fun t => t.pwr.rstN = false ∧ (s.pwr.pwrOk = true → s.pwr.holds = false →
      t.pwr.phase = .held ∧ t.pwr.cause = 1 ∧ .pins true false false ∈ t.out ∧
      ∀ p, p < 12 → (t.link p).st = (if (s.link p).st = .off then .off else .fenced)))) ∧
    (s.pwr.rstN = false → Answers .rstNRise s (fun t => t.pwr.rstN = true ∧ (s.pwr.pwrOk = true →
      ({ s.pwr with rstN := true } : Power).holds = false → t.pwr.phase = .check false))) ∧
    (∀ (w : Nat) (m : WrapMode), w < 5 → Answers (.wrapperMode w m) s (fun t =>
      t.pwr.wrappers = setAt s.pwr.wrappers w m
      ∧ (s.pwr.wrappers.length = 5 → s.pwr.pwrOk = true → s.pwr.holds = false → m ≠ .bypass → t.pwr.phase = .held)))

/-- Each instruction of the test access port is taken into the instruction register, an unassigned code as BYPASS. EXTEST and
CLAMP hold the block in cold reset; any other leaves a block that nothing holds as it is, and starts the cold self-check of one
that only the former instruction held. EXTEST and SAMPLE/PRELOAD load the boundary register. SCAN is taken with RST_N low and
notes that it preceded the reset, in FIELD with channels and tallies cleared and the fault collector as it was; with RST_N high
it changes nothing. Instruments, under IJTAG: March C− in MANUFACTURE with the block held shifts a result bit out; SVN fuses
are only ever set, FIELD cannot be undone, an owner key is programmed where none is, a row repair in MANUFACTURE while fewer
than 192 stand; a team's near-end loopback is set in MANUFACTURE with the block held (R526, R529, R531, R532). -/
def Obligations.TapInstructionsAndInstruments : Prop :=
  (∀ s : State,
    let holding (inst : Byte) (t : State) := t.pwr.tapInst = inst ∧ (s.pwr.pwrOk = true → s.pwr.holds = false → t.pwr.phase = .held)
    let passing (inst : Byte) (t : State) := t.pwr.tapInst = inst ∧ (s.pwr.holds = false → t.pwr.phase = s.pwr.phase) ∧
      (s.pwr.pwrOk = true → s.pwr.holds = true → ({ s.pwr with tapInst := inst } : Power).holds = false → t.pwr.phase = .check false)
    (∀ v : Quad, Answers (.tapExtest v) s (fun t => holding 0x00 t ∧ t.pwr.boundary = v)) ∧
    (∀ v : Quad, Answers (.tapSamplePreload v) s (fun t => passing 0x01 t ∧ t.pwr.boundary = v)) ∧
    (Answers .tapClamp s (holding 0x02)) ∧
    (Answers .tapWir s (passing 0x10)) ∧
    (∀ n : Nat, Answers (.tapWdr n) s (passing 0x11)) ∧
    (Answers .tapIjtag s (passing 0x20)) ∧
    (s.pwr.rstN = false → Answers .tapScan s (fun t => t.pwr.tapInst = 0x30 ∧ t.pwr.scan = true ∧ t.flt = s.flt ∧
      (s.pwr.field = true → t.chans = [] ∧ t.tally = []))) ∧
    (s.pwr.rstN = true → Answers .tapScan s (fun t => t = { s with out := [] })) ∧
    (∀ code : Byte, code ∉ [0x00, 0x01, 0x02, 0x10, 0x11, 0x20, 0x30] → Answers (.tapBypass code) s (passing 0xFF))) ∧
  (∀ s : State, s.pwr.tapInst = 0x20 →
    (∀ a : Nat, s.pwr.field = false → s.pwr.phase = .held → Answers (.ijtagBist a) s (fun t => ∃ v, t.out = [.tdo v] ∧ v < 2)) ∧
    (∀ bits : Nat, Answers (.ijtagFuse (.svn bits)) s (fun t => t.pwr.svnFuse = s.pwr.svnFuse ||| bits % 256)) ∧
    (Answers (.ijtagFuse (.lifecycle 1)) s (fun t => t.pwr.field = true)) ∧
    (∀ d, s.pwr.owner = none → Answers (.ijtagFuse (.ownerKey d)) s (fun t => t.pwr.owner = some d)) ∧
    (∀ a r, s.pwr.field = false → s.pwr.fused.length < 192 →
      Answers (.ijtagFuse (.repair a r)) s (fun t => t.pwr.fused = s.pwr.fused ++ [(a, r)])) ∧
    (∀ (f : FuseOp), Answers (.ijtagFuse f) s (fun t => s.pwr.field = true → t.pwr.field = true)) ∧
    (∀ (n : Nat) (on : Bool), n < 16 → s.pwr.field = false → s.pwr.phase = .held →
      Answers (.ijtagLaneLb n on) s (fun t => ∀ m, m ∈ t.pwr.loopback ↔ (if m = n then on = true else m ∈ s.pwr.loopback))))

/-- A made write of DX_RESET_CTL with WARM 1 and KEY 0xA5 starts a warm reset, which stays pending; the same write with
another key has no effect; once every HM request and LB write is answered and 2 µs have passed, the reset proper drives ERR_A 1,
ERR_B 0 and FAULT_STATIC low and starts the warm self-check. A good self-check puts the block in operation, with the time of day
0 after a power-up or cold reset and kept by a warm one; one whose ROM check fails leaves it failed (R481, R519, R520, R523,
R524). -/
def Obligations.WarmResetAndSelfCheckRun : Prop :=
  (∀ (s : State) (a : RgAcc), WriteMade s 0x10 a true → RgAcc.bit a 0 = true → s.pwr.phase = .run → s.inF3 = false →
    Answers (.warmResetRequest a) s (fun t =>
      (fld a.data.toNat 8 8 = 0xA5 → t.pwr.phase = .warmWait ∧ t.pwr.warmAt = s.now ∧ t.pwr.warmCause = 2) ∧
      (fld a.data.toNat 8 8 ≠ 0xA5 → t = { s with out := t.out }))) ∧
  (∀ s : State, s.pwr.phase = .warmWait → s.pwr.warmAt + nsTicks 2000 ≤ s.now → s.hostIdle = true →
    Answers .warmResetProper s (fun t => t.pwr.phase = .check true ∧ t.out = [.pins true false false])) ∧
  (∀ (s : State) (warm : Bool) (r : SelfCheck), s.pwr.phase = .check warm → r.bad = none → r.romOk = true →
    r.collectorOk = true → Answers (.selfCheckDone r) s (fun t => t.pwr.phase = .run ∧ (warm = false → t.tod = 0) ∧
      (warm = true → t.tod = s.tod))) ∧
  (∀ (s : State) (warm : Bool) (r : SelfCheck), s.pwr.phase = .check warm → r.romOk = false →
    Answers (.selfCheckDone r) s (fun t => t.pwr.phase = .failed))

/-- What commands of the pins, the wrappers and test access leave (PWR_OK_FALL, TAP_SCAN in FIELD and SELF_CHECK_DONE apart,
which clear the block): all but the power state, the outputs and the count of free values; a command that can begin or end a
cold reset may change the link ports too, which send fenced idle with the towpath credits they report. -/
def Obligations.PinAndTestCommandsFrame : Prop :=
  (∀ (s t : State) (c : Instr),
    (c = .pwrOkRise ∨ c = .warmResetProper ∨ (∃ n, c = .ijtagBist n) ∨ (∃ f, c = .ijtagFuse f) ∨ (∃ n on, c = .ijtagLaneLb n on)) →
    exec c s = .next t → t = { s with out := t.out, pwr := t.pwr, free := t.free }) ∧
  (∀ (s t : State) (c : Instr),
    (c = .rstNFall ∨ c = .rstNRise ∨ (∃ w m, c = .wrapperMode w m) ∨ (∃ v, c = .tapExtest v) ∨ (∃ v, c = .tapSamplePreload v)
      ∨ c = .tapClamp ∨ c = .tapWir ∨ (∃ n, c = .tapWdr n) ∨ c = .tapIjtag ∨ (∃ n, c = .tapBypass n)
      ∨ (c = .tapScan ∧ s.pwr.field = false)) →
    exec c s = .next t → t = { s with out := t.out, pwr := t.pwr, free := t.free, links := t.links, phys := t.phys, tows := t.tows })
/-! ## Command channels (R46 to R95) -/

/-- The life of a channel. EN written 1 takes it from OFF to STARTING with an empty queue and the sequence at 0, or is held
while it drains; STARTING enters ON; EN written 0 takes it out of ON, or is held until STARTING ends, or ends the held enable;
RESUME continues a channel stopped by SOE and no other (R54 to R56, R92). -/
def Obligations.ChannelLifeFollowsItsEnable : Prop :=
  ∀ (s : State) (k : Nat) (a : RgAcc) (p : Bool), k < 64 → WriteMade s (0x4004 + 0x100 * k) a p →
    (RgAcc.bit a 0 = true → Answers (.channelEnable k a) s (fun t =>
      ((s.chan k).st = .off → (t.chan k).st = .starting ∧ (t.chan k).en = true ∧ (t.chan k).nextSeq = 0 ∧ (t.chan k).queue = []
        ∧ (t.chan k).layer = 0 ∧ (t.chan k).oper = 0) ∧
      ((s.chan k).st = .draining → (t.chan k).st = .draining ∧ (t.chan k).enPend = true))) ∧
    (RgAcc.bit a 0 = false → Answers (.channelDisable k a) s (fun t =>
      ((s.chan k).st = .on → (t.chan k).st ≠ .on) ∧
      ((s.chan k).st = .starting → (t.chan k).st = .starting ∧ (t.chan k).late = true) ∧
      ((s.chan k).st = .draining → (t.chan k).st = .draining ∧ (t.chan k).enPend = false) ∧
      ((s.chan k).st = .off → t.chan k = s.chan k))) ∧
    (RgAcc.bit a 0 = true → RgAcc.bit a 1 = true → (s.chan k).st = .on → Answers (.resume k a) s (fun t =>
      (t.chan k).st = .on ∧ (t.chan k).stop = (if (s.chan k).stop = .soe then .no else (s.chan k).stop))) ∧
    ((s.chan k).st = .starting → (s.chan k).late = false → Answers (.channelOn k) s (fun t =>
      (t.chan k).st = .on ∧ (t.chan k).queue = (s.chan k).queue))

/-- A word offered on a CP port is answered with the status of the first condition that fails, in the order CRC, block state,
owner, state, SEQ, room; it is not taken then, and CRC, PORT and SEQ raise their fault. A word that passes all is answered
ACCEPTED and enqueued at its channel, and NEXT_SEQ moves on. While a lock cycle holds the ports its acknowledge is withheld
(R46, R47, R287). -/
def Obligations.CpWordIsCheckedInOrder : Prop :=
  ∀ (s : State) (port : Nat) (w : CmdWord) (crc : HWord), s.alive = true → port < 16 → s.flt.armed = none →
    s.cpHeld.any (fun e => decide (e.1 = port)) = false →
    let k := cf w 0 8 6
    let c := s.chan k
    let ok := decide (crc16 (leBytes 64 w.toNat) = crc.toNat)
    let owned := s.rf (0x4000 + 0x100 * k) 0 4 = port
    let no (st : Nat) (t : State) := t.out = [.cpStatus port st] ∧ t.chans = s.chans
    let raised (code cls : Nat) (t : State) :=
      if 2 ≤ (s.flt.waiting.filter (fun x => x.code = code ∧ x.inst = port)).length then t.flt = s.flt
      else ∃ r, t.flt = { s.flt with waiting := insertRaise r s.flt.waiting } ∧ r.code = code ∧ r.inst = port ∧ r.cls = cls
    Answers (.cpWord port w crc) s (fun t =>
      (s.lockHold = true → t.cpHeld = s.cpHeld ++ [(port, w, crc)] ∧ t.chans = s.chans ∧ t.out = []) ∧
      (s.lockHold = false →
        (ok = false → no 1 t ∧ raised 0x28 1 t) ∧
        (ok = true → s.shut = true → no 2 t ∧ t.flt = s.flt) ∧
        (ok = true → s.shut = false → ¬owned → no 3 t ∧ raised 0x29 2 t) ∧
        (ok = true → s.shut = false → owned → c.st ≠ .on → no 4 t ∧ t.flt = s.flt) ∧
        (ok = true → s.shut = false → owned → c.st = .on → seqOf w ≠ c.nextSeq.toNat → no 5 t ∧ raised 0x2A 1 t) ∧
        (ok = true → s.shut = false → owned → c.st = .on → seqOf w = c.nextSeq.toNat → 64 ≤ c.queue.length →
          no 6 t ∧ t.flt = s.flt) ∧
        (ok = true → s.shut = false → owned → c.st = .on → seqOf w = c.nextSeq.toNat → c.queue.length < 64 →
          t.out = [.cpStatus port 0] ∧ t.flt = s.flt ∧ (t.chan k).nextSeq = c.nextSeq + 1 ∧
            (c.skip = none → (t.chan k).queue = c.queue ++ [w]))))

/-- What software writes of a channel: the upper word of a scalar commits both halves of a channel that is OFF or stopped, and
is ignored with WR_IGN otherwise; CR_CONS moves and CR_STALL follows the ring's fill; a write of W7 commits a shape entry
(R88, R89, R94, R102). -/
def Obligations.ChannelRegistersTakeTheirWrites : Prop :=
  (∀ (s : State) (k i : Nat) (a : RgAcc) (p : Bool), k < 64 → i < 8 → WriteMade s (0x4084 + 0x100 * k + 8 * i) a p →
    Answers (.scalarWrite k i a) s (fun t =>
      (((s.chan k).st = .off ∨ ((s.chan k).st = .on ∧ (s.chan k).stop ≠ .no)) →
        (∀ f ∈ (s.chan k).flights, writesScalar f.word = some i → f.cursor = none → s.quiet k f = false) →
        (t.scalar k i).toNat = (SMap.get (fun _ => (0 : Word)) s.wshadow (0x4080 + 0x100 * k + 8 * i)).toNat
          + a.data.toNat * 2 ^ 32) ∧
      (¬((s.chan k).st = .off ∨ ((s.chan k).st = .on ∧ (s.chan k).stop ≠ .no)) → t.scal = s.scal ∧ (t.chan k).wrIgn = true))) ∧
  (∀ (s : State) (k : Nat) (a : RgAcc) (p : Bool), k < 64 → WriteMade s (0x4020 + 0x100 * k) a p →
    Answers (.crConsWrite k a) s (fun t => (t.chan k).cons = a.data ∧ (t.chan k).crStall = t.ringFull k)) ∧
  (∀ (s : State) (e : Nat) (a : RgAcc) (p : Bool), 1 ≤ e → e < 256 → WriteMade s (0x801C + 32 * e) a p →
    Answers (.shapeCommit e a) s (fun t => t.reg (0x801C + 32 * e) = a.data ∧ ∀ i, i < 7 →
      t.reg (0x8000 + 32 * e + 4 * i) = SMap.get (fun _ => (0 : Word)) s.wshadow (0x8000 + 32 * e + 4 * i)
        &&& (regMask (0x8000 + 32 * e + 4 * i)).rw))

/-- The commands that end as soon as they start, with no other command of the channel in execution: NOP, MARK, the LOADS
of an immediate, a tally and a sum, FENCE, a WAIT whose condition holds, and TRACE complete with OK; an unknown opcode
completes with BAD_OP and stops the channel always; a WAIT whose condition does not hold stays in execution
(R59, R71, R72, R75, R83 to R86). -/
def Obligations.ImmediateCommandsCompleteAtOnce : Prop :=
  ∀ (s : State) (k : Nat) (w : CmdWord), StartsAlone s k w →
    let done (t : State) := (t.chan k).lastStatus = 0 ∧ (t.chan k).flights = [] ∧ (t.chan k).execSeq.toNat = seqOf w
    (opOf w = opNop → goodQ0 w = true → zeroFrom w 1 = true → Answers (.nop k) s (fun t => done t ∧ t.scal = s.scal)) ∧
    (opOf w = opMark → goodQ0 w = true → resv w 1 (span 0 32) = true → zeroFrom w 2 = true → Answers (.mark k) s (fun t =>
      done t ∧ (t.chan k).layer.toNat = cf w 1 0 16 ∧ (t.chan k).oper.toNat = cf w 1 16 16 ∧ t.scal = s.scal)) ∧
    (opOf w = opLoads → cf w 1 0 2 = 0 → goodQ0 w = true → goodLoads w = true → Answers (.loadsImm k) s (fun t =>
      done t ∧ (t.scalar k (cf w 1 2 3)).toNat = cq w 2)) ∧
    (opOf w = opLoads → cf w 1 0 2 = 2 → goodQ0 w = true → goodLoads w = true → Answers (.loadsTally k) s (fun t =>
      done t ∧ (t.scalar k (cf w 1 2 3)).toNat = (s.tallyOf (cf w 1 5 13)).toNat)) ∧
    (opOf w = opLoads → cf w 1 0 2 = 3 → goodQ0 w = true → goodLoads w = true → Answers (.loadsAdd k) s (fun t =>
      done t ∧ t.scalar k (cf w 1 2 3) = s.scalar k (cf w 1 2 3) + BitVec.ofNat 64 (cq w 2))) ∧
    (opOf w = opFence → goodQ0 w = true → zeroFrom w 1 = true → Answers (.fence k) s (fun t => done t ∧ t.scal = s.scal)) ∧
    (opOf w = opTrace → goodQ0 w = true → resv w 1 (span 0 2 + span 16 16) = true → zeroFrom w 3 = true →
      Answers (.trace k) s (fun t => done t ∧ t.scal = s.scal)) ∧
    (opOf w = opWait → goodQ0 w = true → resv w 1 (span 0 26) = true → zeroFrom w 3 = true → cf w 1 0 4 ≤ 5 →
      Answers (.waitCmd k) s (fun t => (s.waitHolds k w = true → done t) ∧
        (s.waitHolds k w = false → (t.chan k).flights.map (·.word) = [w] ∧ (t.chan k).execSeq.toNat = seqOf w))) ∧
    (0x0E < opOf w → Answers (.badOp k) s (fun t => (t.chan k).lastStatus = 0x07 ∧ (t.chan k).stop = .always
      ∧ (t.chan k).flights = []))

/-- REPEAT latches its count and opens a loop, or skips its body when the count is 0; a fifth open loop completes with BAD_NEST and
a count of 2^32 or more with BAD_COUNT. END ends an iteration: the loop is replayed from its first word or closed; without a
loop it completes with BAD_NEST. BRANCH whose condition does not hold completes and skips nothing (R77, R78, R81, R82). -/
def Obligations.LoopsOpenRepeatAndClose : Prop :=
  ∀ (s : State) (k : Nat) (w : CmdWord), StartsAlone s k w → goodQ0 w = true →
    (opOf w = opRepeat → resv w 1 (span 0 36) = true → zeroFrom w 2 = true →
      let v := if (cq w 1).testBit 32 then (s.scalar k (cf w 1 33 3)).toNat else cf w 1 0 32
      Answers (.repeatLoop k) s (fun t =>
        (4 ≤ (s.chan k).loops.length → (t.chan k).lastStatus = 0x09 ∧ (t.chan k).loops = (s.chan k).loops) ∧
        ((s.chan k).loops.length < 4 → 2 ^ 32 ≤ v → (t.chan k).lastStatus = 0x0B ∧ (t.chan k).loops = (s.chan k).loops) ∧
        ((s.chan k).loops.length < 4 → 0 < v → v < 2 ^ 32 → (t.chan k).lastStatus = 0 ∧
          (t.chan k).loops.map (fun l => (l.count, l.iter)) = (v, 0) :: (s.chan k).loops.map (fun l => (l.count, l.iter))))) ∧
    (opOf w = opEnd → zeroFrom w 1 = true → Answers (.endLoop k) s (fun t =>
      match (s.chan k).loops with
      | [] => (t.chan k).lastStatus = 0x09
      | l :: ls =>
        (t.chan k).lastStatus = 0 ∧
        (if l.iter + 1 < l.count then (t.chan k).loops = { l with iter := l.iter + 1 } :: ls ∧ (t.chan k).pos = l.start
         else (t.chan k).loops = ls))) ∧
    (opOf w = opBranch → goodBranch w = true →
      condHolds (cf w 1 0 4) ((cq w 1).testBit 11) (s.scalar k (cf w 1 4 3)).toNat
        (if (cq w 1).testBit 7 then (s.scalar k (cf w 1 8 3)).toNat else cq w 2) = false →
      Answers (.branch k) s (fun t => (t.chan k).lastStatus = 0 ∧ (t.chan k).skip = none ∧ (t.chan k).loops = (s.chan k).loops))

/-- A transfer, an atomic, a signal, a memory load or a collective that channel `k` can start is put in execution: EXEC_SEQ is
its SEQ and the channel has started one more command (R53, R61, R64, R67, R69, R74, R83, R96, R161). -/
def Obligations.TransfersAndCollectivesStart : Prop :=
  ∀ (s : State) (k : Nat) (w : CmdWord), Starts s k w →
    let begun (t : State) := (t.chan k).execSeq.toNat = seqOf w ∧ (t.chan k).nextOrd = (s.chan k).nextOrd + 1
    (opOf w = opPut → Answers (.put k) s begun) ∧ (opOf w = opGet → Answers (.get k) s begun) ∧
    (opOf w = opCopy → Answers (.copy k) s begun) ∧ (opOf w = opAtom → Answers (.atom k) s begun) ∧
    (opOf w = opSignal → Answers (.signal k) s begun) ∧
    (opOf w = opLoads → cf w 1 0 2 = 1 → Answers (.loadsMem k) s begun) ∧
    (opOf w = opColl →
      (cf w 4 12 4 = 0 ∨ 8 ≤ cf w 4 12 4 → Answers (.allReduce k) s begun) ∧
      (cf w 4 12 4 = 1 → Answers (.reduceScatter k) s begun) ∧ (cf w 4 12 4 = 2 → Answers (.allGather k) s begun) ∧
      (cf w 4 12 4 = 3 → Answers (.broadcast k) s begun) ∧ (cf w 4 12 4 = 4 → Answers (.reduce k) s begun) ∧
      (cf w 4 12 4 = 5 → Answers (.a2aCap k) s begun) ∧ (cf w 4 12 4 = 6 → Answers (.barrier k) s begun) ∧
      (cf w 4 12 4 = 7 → Answers (.scalarAr k) s begun))

/-- A command of any opcode whose word has a reserved bit of Q0 set completes with BAD_FIELD, stops the channel always and has no other effect:
scalars and tallies stand (R60, R91). -/
def Obligations.BadFieldStopsTheChannel : Prop :=
  ∀ (s : State) (k : Nat) (w : CmdWord), StartsAlone s k w → goodQ0 w = false →
    let bad (t : State) := (t.chan k).lastStatus = 0x08 ∧ (t.chan k).stop = .always ∧ (t.chan k).flights = []
      ∧ t.scal = s.scal ∧ t.tally = s.tally
    (opOf w = opNop → Answers (.nop k) s bad) ∧ (opOf w = opPut → Answers (.put k) s bad) ∧
    (opOf w = opGet → Answers (.get k) s bad) ∧ (opOf w = opCopy → Answers (.copy k) s bad) ∧
    (opOf w = opAtom → Answers (.atom k) s bad) ∧ (opOf w = opSignal → Answers (.signal k) s bad) ∧
    (opOf w = opWait → Answers (.waitCmd k) s bad) ∧ (opOf w = opFence → Answers (.fence k) s bad) ∧
    (opOf w = opMark → Answers (.mark k) s bad) ∧ (opOf w = opTrace → Answers (.trace k) s bad) ∧
    (opOf w = opRepeat → Answers (.repeatLoop k) s bad) ∧ (opOf w = opEnd → Answers (.endLoop k) s bad) ∧
    (opOf w = opBranch → Answers (.branch k) s bad) ∧
    (∀ m row, (m, row) ∈ [(0, Instr.loadsImm k), (1, .loadsMem k), (2, .loadsTally k), (3, .loadsAdd k)] →
      opOf w = opLoads → cf w 1 0 2 = m → Answers row s bad) ∧
    (∀ ct row, (ct, row) ∈ [(0, Instr.allReduce k), (1, .reduceScatter k), (2, .allGather k), (3, .broadcast k), (4, .reduce k),
        (5, .a2aCap k), (6, .barrier k), (7, .scalarAr k)] →
      opOf w = opColl → cf w 4 12 4 = ct → Answers row s bad)

/-! ## Tallies, watches, events and the atomic cache (R121 to R129, R141 to R147, R391) -/

/-- A write of DX_TALLY_HI sets all 48 bits of a tally at once, from the low word written before and the word written, and no
other tally. Arming a disarmed watch takes tally and condition from the write; it fires at once, and disarms without a step, if the
condition holds already; a condition that does not exist leaves it disarmed with WR_IGN, and an armed watch keeps its tally.
A write with ARM 0 disarms. A pending event enters the queue once a slot is free, and the host takes the oldest event word,
the events behind it keeping their order (R143 to R147, R391). -/
def Obligations.TalliesWatchesAndEvents : Prop :=
  (∀ (s : State) (n : Nat) (a : RgAcc) (p : Bool), n < 8192 → WriteMade s (0x10004 + 8 * n) a p →
    Answers (.tallyWrite n a) s (fun t =>
      (t.tallyOf n).toNat = ((SMap.get (fun _ => (0 : Word)) s.wshadow (0x10000 + 8 * n)).toNat + a.data.toNat * 2 ^ 32) % 2 ^ 48 ∧
      ∀ m, m ≠ n → t.tallyOf m = s.tallyOf m)) ∧
  (∀ (s : State) (w : Nat) (a : RgAcc) (p : Bool), w < 256 → WriteMade s (0xA000 + 16 * w) a p → RgAcc.bit a 20 = true →
    let n := fld a.data.toNat 0 13
    let c := fld a.data.toNat 16 3
    let x := s.watchOf w
    Answers (.watchArm w a) s (fun t =>
      (x.armed = false → c < 6 → condHolds c false (s.tallyOf n).toNat x.value.toNat = false →
        (t.watchOf w).armed = true ∧ (t.watchOf w).tally = n ∧ (t.watchOf w).cond = c) ∧
      (x.armed = false → c < 6 → condHolds c false (s.tallyOf n).toNat x.value.toNat = true → x.step = 0 →
        (t.watchOf w).armed = false ∧ (t.watchOf w).fired = true ∧ (t.watchOf w).pend.isSome = true) ∧
      (x.armed = false → 6 ≤ c → (t.watchOf w).armed = false ∧ (t.watchOf w).wrIgn = true) ∧
      (x.armed = true → (t.watchOf w).armed = true ∧ (t.watchOf w).tally = x.tally ∧ (t.watchOf w).cond = x.cond))) ∧
  (∀ (s : State) (w : Nat) (a : RgAcc) (p : Bool), w < 256 → WriteMade s (0xA000 + 16 * w) a p → RgAcc.bit a 20 = false →
    Answers (.watchDisarm w a) s (fun t => (t.watchOf w).armed = false ∧ (t.watchOf w).value = (s.watchOf w).value)) ∧
  (∀ (s : State) (w : Nat) (e : BitVec 128), s.alive = true → w < 256 → (s.watchOf w).pend = some e →
    s.ev.queue.length < 256 → s.ev.held = [] →
    Answers (.watchEventEnqueue w) s (fun t => (t.watchOf w).pend = none ∧ (s.ev.queue ++ [e]) <+: t.ev.queue)) ∧
  (∀ (s : State) (w : BitVec 128) (rest : List (BitVec 128)), s.alive = true → s.ev.queue = w :: rest →
    Answers .eventTaken s (fun t => t.out = [.event w (crc16 (leBytes 16 w.toNat))] ∧ rest <+: t.ev.queue))

/-- FLUSH drops exactly the idle granules of the atomic cache, and an idle granule leaves when HOLD × 64 ns have passed since
its last atomic. An atomic that can be performed on a granule in the cache leaves the queue, and what it writes is written
through before it is answered; with its granule absent, the granule is read first (R121, R125 to R127). -/
def Obligations.AtomicCacheHoldsAndPerforms : Prop :=
  (∀ (s : State) (a : RgAcc) (p : Bool), WriteMade s 0x144 a p → RgAcc.bit a 8 = true →
    Answers (.atcFlush a) s (fun t => ∀ e, e ∈ t.atc.cache ↔ e ∈ s.atc.cache ∧ s.atcIdle e.key = false)) ∧
  (∀ (s : State) (g : Nat), s.alive = true →
    (∃ e ∈ s.atc.cache, e.key = g ∧ e.last + nsTicks (64 * s.rf 0x144 0 8) ≤ s.now ∧ s.atcIdle g = true) →
    Answers (.atcHoldExpire g) s (fun t => ∀ e, e ∈ t.atc.cache ↔
      e ∈ s.atc.cache ∧ ¬(e.key = g ∧ e.last + nsTicks (64 * s.rf 0x144 0 8) ≤ s.now))) ∧
  (∀ (s : State) (a : AtomReq), s.alive = true → s.flt.armed = none → s.atc.queue.find? (fun x => s.atomReady x) = some a →
    Answers .atomicPerform s (fun t =>
      (∀ e, s.atc.cache.find? (fun e => decide (e.key = atomKey a.pkt)) = some e →
        t.atc.queue = s.atc.queue.filter (fun x => decide (x.num ≠ a.num)) ∧
        (let f := fld e.data.data.toNat (8 * (a.pkt.offset % 64)) (8 * a.pkt.len)
         (aopResult (a.pkt.aux % 256) (8 * a.pkt.len) f (a.pkt.h5.toNat % 2 ^ (8 * a.pkt.len))
            (a.pkt.h6.toNat % 2 ^ (8 * a.pkt.len))).isSome = true →
          ∃ j ∈ t.eng.writes, j.use = .atom a.pkt (BitVec.ofNat 64 f))) ∧
      (s.atc.cache.find? (fun e => decide (e.key = atomKey a.pkt)) = none →
        ∃ j ∈ t.eng.reads, j.use = .atom a.num)))

/-! ## Host memory ports (R376 to R385) -/

/-- The oldest waiting read of a port, and its first write that may go out, is issued under the lowest free tag, and becomes
outstanding. An answer on HM with bad parity, or with a tag that is neither outstanding nor quarantined, raises PROTO and is
dropped: no read or write is touched. The last good beat of a read and the response of a write end their request, whose tag is
free again; a request unanswered for four hang windows ends with its tag quarantined (R376, R377, R380, R381, R383, R385). -/
def Obligations.HmRequestsAreIssuedAndAnswered : Prop :=
  (∀ (s : State) (p : Nat) (r : RdReq) (rest : List RdReq) (tag : Nat), s.alive = true → p < 16 →
    (s.hmPort p).rdWait = r :: rest → s.hmRdRoom p = true →
    freeHmTag ((s.hmPort p).rdOut.map (·.tag)) (s.hmPort p).rdQuar = some tag →
    Answers (.hmReadIssue p) s (fun t => t.out = [.hmRead p r.addr (r.keys.length - 1) tag] ∧ (t.hmPort p).rdWait = rest ∧
      (t.hmPort p).rdOut = (s.hmPort p).rdOut ++ [⟨tag, r, 0, false, false, s.now⟩])) ∧
  (∀ (s : State) (p : Nat) (r : WrReq) (tag : Nat), s.alive = true → p < 16 →
    (s.hmPort p).wrWait.find? (fun x => !s.writeWaits x) = some r → s.hmWrRoom p = true →
    freeHmTag ((s.hmPort p).wrOut.map (·.tag)) (s.hmPort p).wrQuar = some tag →
    Answers (.hmWriteIssue p) s (fun t => t.out = [.hmWrite p r.addr tag r.grans (r.grans.map (fun (g : WrGran) => granCrc g.data.toNat))] ∧
      (t.hmPort p).wrWait = dropFirst (fun x => decide (x = r)) (s.hmPort p).wrWait ∧
      (t.hmPort p).wrOut = (s.hmPort p).wrOut ++ [⟨tag, r, s.now⟩])) ∧
  (∀ (s : State) (p : Nat) (x : RdBeat), s.alive = true → p < 16 → s.flt.armed = none →
    let good := x.par = parity 17 (x.tag.toNat + put (b2n x.last) 10 1 + put x.sts.toNat 11 2 + put x.poison.toNat 13 4)
    Answers (.hmReadBeat p x) s (fun t =>
      (¬good → t.hm = s.hm ∧ t.eng = s.eng ∧ (t.reg (hmReg p 4)).toNat.testBit 28 = true) ∧
      (good → (∀ r ∈ (s.hmPort p).rdOut, r.tag ≠ x.tag.toNat) → x.tag.toNat ∉ (s.hmPort p).rdQuar →
        t.hm = s.hm ∧ t.eng = s.eng ∧ (t.reg (hmReg p 4)).toNat.testBit 28 = true) ∧
      (good → ∀ r, (s.hmPort p).rdOut.find? (fun r => decide (r.tag = x.tag.toNat)) = some r → x.last = true →
        ∀ q ∈ (t.hmPort p).rdOut, q.tag ≠ x.tag.toNat))) ∧
  (∀ (s : State) (p : Nat) (x : WrRsp), s.alive = true → p < 16 → s.flt.armed = none →
    let good := x.par = parity 12 (x.tag.toNat + put x.sts.toNat 10 2)
    Answers (.hmWriteResponse p x) s (fun t =>
      (¬good → t.hm = s.hm ∧ t.eng = s.eng ∧ (t.reg (hmReg p 4)).toNat.testBit 28 = true) ∧
      (good → (∀ r ∈ (s.hmPort p).wrOut, r.tag ≠ x.tag.toNat) → x.tag.toNat ∉ (s.hmPort p).wrQuar →
        t.hm = s.hm ∧ t.eng = s.eng ∧ (t.reg (hmReg p 4)).toNat.testBit 28 = true) ∧
      (good → ∀ r, (s.hmPort p).wrOut.find? (fun r => decide (r.tag = x.tag.toNat)) = some r →
        ∀ q ∈ (t.hmPort p).wrOut, q.tag ≠ x.tag.toNat))) ∧
  (∀ (s : State) (p tag : Nat), s.alive = true → p < 16 →
    (s.hmLate p tag false = true → Answers (.hmTimeout p false tag) s (fun t => tag ∈ (t.hmPort p).rdQuar ∧
      ∀ q ∈ (t.hmPort p).rdOut, q.tag ≠ tag)) ∧
    (s.hmLate p tag true = true → Answers (.hmTimeout p true tag) s (fun t => tag ∈ (t.hmPort p).wrQuar ∧
      ∀ q ∈ (t.hmPort p).wrOut, q.tag ≠ tag)))

/-! ## Remote access (R40 to R45, R387, R388, R403) -/

/-- A load that passes its checks becomes outstanding under its tag, and a store is answered OK as soon as it is sent; while
the port withholds, the access waits; one that may be taken is sent when the turn of the round is the port's; in F2 and F3 both are answered
UNREACH. The host takes the oldest response; a load
unanswered for four hang windows completes TIMEOUT and its tag is quarantined (R42, R43, R45, R387, R388, R403). -/
def Obligations.RemoteAccessesAreTakenHeldAndAnswered : Prop :=
  (∀ (s : State) (p : Nat) (x : RaAccess), s.alive = true → p < 4 → s.flt.armed = none →
    (∀ q, q < 4 → (s.raPort q).heldAcc = []) →
    let par (wr : Bool) := parity 80 (x.addr.toNat + put (b2n wr) 64 1 + put x.lenM1.toNat 65 8 + put x.tag.toNat 73 7)
    (Answers (.raLoad p x) s (fun t =>
      (s.shut = true → (t.raPort p).rsp = (s.raPort p).rsp ++ [⟨x.tag.toNat, false, 5, 0⟩]) ∧
      (s.raWithheld p = true → (t.raPort p).heldAcc = [(false, x)] ∧ (t.raPort p).loads = (s.raPort p).loads) ∧
      (s.shut = false → s.raWithheld p = false → s.turn (64 + p) = true → x.par = par false →
        (s.raPort p).loads.any (fun l => decide (l.tag = x.tag.toNat)) = false →
        (s.raPort p).quar.any (fun q => decide (q.1 = x.tag.toNat)) = false →
        x.addr.toNat % 256 + x.lenM1.toNat < 256 → s.sourceCheck (chipOf x.addr.toNat) 1 0x04 x.tag.toNat = none →
        (t.raPort p).loads.map (fun l => (l.tag, l.addr, l.len)) =
          (s.raPort p).loads.map (fun l => (l.tag, l.addr, l.len)) ++ [(x.tag.toNat, x.addr, x.lenM1.toNat + 1)]))) ∧
    (Answers (.raStore p x) s (fun t =>
      (s.shut = true → (t.raPort p).rsp = (s.raPort p).rsp ++ [⟨x.tag.toNat, true, 5, 0⟩]) ∧
      (s.raWithheld p = true → (t.raPort p).heldAcc = [(true, x)]) ∧
      (s.shut = false → s.raWithheld p = false → s.turn (64 + p) = true → x.par = par true → raCrcBad x false = false →
        x.addr.toNat % 256 + x.lenM1.toNat < 256 → s.sourceCheck (chipOf x.addr.toNat) 1 0x05 (x.tag.toNat + 128) = none →
        (t.raPort p).rsp = (s.raPort p).rsp ++ [⟨x.tag.toNat, true, 0, 0⟩])))) ∧
  (∀ (s : State) (p : Nat) (r : RaResp) (rest : List RaResp), s.alive = true → p < 4 → (s.raPort p).rsp = r :: rest →
    Answers (.raRspTaken p) s (fun t => t.out = [.raResp p r ((List.range 4).map (fun g => granCrc (fld r.data.toNat (512 * g) 512)))] ∧ rest <+: (t.raPort p).rsp)) ∧
  (∀ (s : State) (p tag : Nat) (l : RaLoad), s.alive = true → p < 4 → s.halt.st = .run → l ∈ (s.raPort p).loads →
    l.tag = tag → l.at_ + 4 * s.hangTicks ≤ s.now →
    Answers (.raLoadTimeout p tag) s (fun t => (t.raPort p).rsp = (s.raPort p).rsp ++ [⟨tag, false, 8, 0⟩] ∧
      (∃ n, (tag, n) ∈ (t.raPort p).quar) ∧ ∀ q ∈ (t.raPort p).loads, q.tag ≠ tag))


/-! ## Packets taken at their receiver (R20 to R28, R97, R121 to R131, R152, R174 to R191, R234 to R248) -/

/-- What the requests do at their receiver. WR and RLY_DATA start a write of the payload's granules; RD and RD_RELAY start
a read; RA_LD and RA_ST join the stream of their chip and port; ATOM joins the atomic unit's queue, with the next number in
the order of arrivals; SIGNAL adds to its tally modulo 2^48 and is acknowledged with outcome OK. A request whose window does
not allow it starts nothing and is answered with the outcome of the check (R38, R97, R125, R141, R152, R236, R245). -/
def Obligations.RequestsAreServed : Prop :=
  ∀ (s : State) (i : Nat) (h : Held), Accepts s i h →
    let u := s.accepted i h
    let p := h.pkt
    let written (t : State) := ∃ j, t.eng.writes = s.eng.writes ++ [j] ∧ j.use = .packet p ∧
      j.keys = (wrGrans p.offset p.pay p.poison.toNat).map (·.key) ∧
      j.count = (if p.ten then tallyCount p.offset p.len p.poison.toNat else 0)
    let readIn (t : State) := ∃ j, t.eng.reads = s.eng.reads ++ [j] ∧ j.use = .serve p
    let joined (t : State) := ∃ x ∈ t.streams, x.is p.src (p.chan % 4) = true ∧ p ∈ x.queue ∧ x.busy = true
    let refused (o : Nat) (t : State) := t.eng = s.eng ∧ t.streams = s.streams ∧ t.atc = s.atc ∧
      ∃ q, t.inj = s.inj ++ [q] ∧ q.pkt.opcode = failOp p.opcode ∧ q.pkt.aux = o ∧ q.pkt.ftag = p.ftag
    (p.opcode = 0x01 → (u.window9 .wr p = none → Answers (.wr i) s written) ∧
      ∀ o, u.window9 .wr p = some o → Answers (.wr i) s (refused o)) ∧
    (p.opcode = 0x43 → (u.window9 .wr p = none → Answers (.rlyData i) s written) ∧
      ∀ o, u.window9 .wr p = some o → Answers (.rlyData i) s (refused o)) ∧
    (p.opcode = 0x02 → (u.window9 .rd p = none → s.shut = false → Answers (.rd i) s readIn) ∧
      ∀ o, u.window9 .rd p = some o → Answers (.rd i) s (refused o)) ∧
    (p.opcode = 0x03 → (u.window9 .rd p = none → u.relayCheck p = none → s.shut = false → Answers (.rdRelay i) s readIn) ∧
      (∀ o, u.window9 .rd p = none → u.relayCheck p = some o → Answers (.rdRelay i) s (refused o)) ∧
      ∀ o, u.window9 .rd p = some o → Answers (.rdRelay i) s (refused o)) ∧
    (p.opcode = 0x04 → (u.window9 .rd p = none → s.shut = false → Answers (.raLd i) s joined) ∧
      ∀ o, u.window9 .rd p = some o → Answers (.raLd i) s (refused o)) ∧
    (p.opcode = 0x05 → (u.window9 .wr p = none → Answers (.raSt i) s joined) ∧
      ∀ o, u.window9 .wr p = some o → Answers (.raSt i) s (refused o)) ∧
    (p.opcode = 0x06 → (u.window9 .at p = none → Answers (.atomPacket i) s (fun t =>
        t.atc.queue = s.atc.queue ++ [⟨s.eng.next, p, false⟩] ∧ t.eng.next = s.eng.next + 1)) ∧
      ∀ o, u.window9 .at p = some o → Answers (.atomPacket i) s (refused o)) ∧
    (p.opcode = 0x07 → Answers (.signalPacket i) s (fun t =>
      t.tallyOf p.tally = s.tallyOf p.tally + BitVec.ofNat 48 (qf p.h5 0 48) ∧
      ∃ q, t.inj = s.inj ++ [q] ∧ q.pkt.opcode = 0x47 ∧ q.pkt.aux = 0 ∧ q.pkt.dst = p.src))

/-- A response in the context of a channel that matches a fragment frees its slot; one that matches none, or names no context,
changes no channel and is counted in DX_PKT_STALE. The data of a GET's fragment that the windows allow are written here
(R62, R64, R96, R246, R248). -/
def Obligations.ResponsesEndTheirFragments : Prop :=
  ∀ (s : State) (i : Nat) (h : Held), Accepts s i h →
    let u := s.accepted i h
    let free (t : State) := ∀ k x f, u.slotFor h.pkt = some (k, x, f) → ∀ y ∈ (t.chan k).slots, y.ftag ≠ x.ftag
    let stale (t : State) := (h.pkt.ctx = 0 ∨ h.pkt.ctx = 3) → u.slotFor h.pkt = none → t.chans = s.chans ∧ t.eng = s.eng ∧ t.reg 0x208 = (u.incReg 0x208).reg 0x208
    (h.pkt.opcode = 0x40 → Answers (.wrRsp i) s (fun t => free t ∧ stale t)) ∧
    (h.pkt.opcode = 0x42 → Answers (.rdRsp i) s (fun t => free t ∧ stale t)) ∧
    (h.pkt.opcode = 0x41 → Answers (.rdData i) s (fun t => free t ∧ stale t ∧
      ∀ k x f, u.slotFor h.pkt = some (k, x, f) → opOf f.word = opGet → (u.answersOf f).contains 0x41 = true → u.window9 .wr h.pkt = none →
        ∃ j ∈ t.eng.writes, j.use = .get k x.ord x.frag (decide (h.pkt.poison ≠ 0)))) ∧
    (h.pkt.opcode = 0x46 → Answers (.atomRsp i) s (fun t => free t ∧ stale t)) ∧
    (h.pkt.opcode = 0x47 → Answers (.sigRsp i) s (fun t => free t ∧ stale t))

/-- A response to an RA load completes it towards the host: with its data on their byte lanes, with POISON (6) and no data,
or with the outcome it carries; the load is no longer outstanding. One that answers a load that timed out frees its tag and
gives the host nothing; one that matches neither is counted in DX_PKT_STALE. RA_RSP with FTAG[15] is kept as a store's negative
acknowledgement (R44, R45, R246, R248, R388, R389). -/
def Obligations.RemoteResponsesCompleteLoads : Prop :=
  ∀ (s : State) (i : Nat) (h : Held), Accepts s i h → h.pkt.ctx = 1 → (∀ q, q < 4 → (s.raPort q).heldAcc = []) →
    let p := h.pkt
    let port := p.chan % 4
    let isFor (l : RaLoad) := decide (l.tag = p.ftag % 128) && decide (l.pseq = p.rpseq)
    let late (t : State) := ∀ q, t.raPort q = if q = port then { s.raPort q with
      quar := (s.raPort q).quar.filter (fun e => decide (e ≠ (p.ftag % 128, p.rpseq))) } else s.raPort q
    let stale (t : State) := t.ra = s.ra ∧ t.reg 0x208 = ((s.accepted i h).incReg 0x208).reg 0x208
    (p.chan < 4 → p.ftag < 128 → (s.raPort port).loads.find? isFor = none →
      ((p.ftag % 128, p.rpseq) ∈ (s.raPort port).quar →
        (p.opcode = 0x44 → Answers (.raData i) s late) ∧ (p.opcode = 0x45 → Answers (.raRsp i) s late)) ∧
      ((p.ftag % 128, p.rpseq) ∉ (s.raPort port).quar →
        (p.opcode = 0x44 → Answers (.raData i) s stale) ∧ (p.opcode = 0x45 → Answers (.raRsp i) s stale))) ∧
    (∀ l, p.chan < 4 → p.ftag < 128 → (s.raPort port).loads.find? isFor = some l →
      let ended (o : Nat) (d : BitVec 2048) (t : State) :=
        (t.raPort port).rsp = (s.raPort port).rsp ++ [⟨l.tag, false, o, d⟩] ∧ ∀ y ∈ (t.raPort port).loads, y.tag ≠ l.tag
      (p.opcode = 0x44 → Answers (.raData i) s (ended (if p.poison = 0 then 0 else 6)
        (if p.poison = 0 then BitVec.ofNat 2048 (leNat (p.pay.take l.len) * 2 ^ (8 * (l.addr.toNat % 256))) else 0))) ∧
      (p.opcode = 0x45 → Answers (.raRsp i) s (ended (p.aux % 16) 0))) ∧
    (p.opcode = 0x45 → 128 ≤ p.ftag → (s.reg 0xF00).toNat.testBit 31 = false → Answers (.raRsp i) s (fun t =>
      t.reg 0xF00 = BitVec.ofNat 32 (p.aux % 16 + put port 4 2 + put p.src 6 18 + 2 ^ 31) ∧ t.ra = s.ra))

/-- What collective packets with an agreeing signature do in the instance in progress they belong to: COL_READY opens its
stream with its first credits, COL_DATA arrives at the schedule, COL_SLOT writes at its place of the sender's slot, COL_DONE marks
the sender done, COL_REL releases a barrier; then the entry does all it can. COL_READY of an entry without an instance is held;
with no instance a DONE or a release is dropped and counted, and so is a READY, DONE or release of a sequence past. COL_ACK returns
the credit and ends the packet's wait at its sender; COLL_ABORT ends the instance, or marks a sequence not yet started (R167,
R174 to R183, R189, R191, R267). -/
def Obligations.CollectivePacketsAct : Prop :=
  ∀ (s : State) (i : Nat) (h : Held), Accepts s i h →
    let u := s.accepted i h
    let p := h.pkt
    let g := qf p.h5 20 9
    let seq : HWord := BitVec.ofNat 16 (qf p.h5 32 16)
    let chips := (List.range (grpSize (s.grpWord g))).map (grpChip (s.grpWord g) s.rlist)
    let counted (t : State) := t.groups = s.groups ∧ t.reg 0x16C = (u.incReg 0x16C).reg 0x16C
    (∀ c r, (s.grpWord g 0).testBit 0 = true → (s.group g).inst = some c → c.seq = seq → c.ended = none → c.hdr = false →
      chips.findIdx? (fun x => x = p.src) = some r → sigDiff (c.plan.sig5 c.seq) c.plan.sig6 p.h5.toNat p.h6.toNat = 0 →
      let acts (e : CollInst) (t : State) :=
        t = { State.collTurn ((u.collProgress g c.chan).modInst g (fun _ => e)) g with pending := s.pending }
      (p.opcode = 0x80 → c.plan.chips = chips → Answers (.colReady i) s (acts { c with
        outs := c.outs.map (fun o =>
          let key := c.plan.keyOf (qf p.h7 0 2) (qf p.h7 2 1) (qf p.h7 3 2)
          if o.rank = r ∧ o.key = key ∧ ¬ o.ready then { o with ready := true, credit := firstCredit key } else o) })) ∧
      (p.opcode = 0x81 → c.plan.ctype ≠ 5 → Answers (.colData i) s (acts (c.arrive r p))) ∧
      (p.opcode = 0x82 → c.plan.ctype = 5 → p.offset + p.pay.length ≤ c.plan.cap * c.plan.rb → Answers (.colSlot i) s (acts { c with
        got := setAt c.got r (c.got.getD r 0 + p.pay.length)
        fin := c.fin ++ [⟨[(c.plan.dst + r * c.plan.cap * c.plan.rb + p.offset, p.pay)], false, some p⟩] })) ∧
      (p.opcode = 0x83 → Answers (.colDone i) s (acts (c.done r (qf p.h7 32 32)))) ∧
      (p.opcode = 0x84 → c.plan.ctype = 6 → Answers (.colRel i) s (acts (c.starRelease (qf p.h7 3 2))))) ∧
    ((s.grpWord g 0).testBit 0 = true → (s.group g).inst = none → (s.group g).nseq = seq →
      (p.opcode = 0x80 → (∀ m ∈ (s.group g).marks, m.1 ≠ seq) → Answers (.colReady i) s (fun t =>
        (t.group g).ready = (s.group g).ready ++ [⟨seq, p.src, p.h5, p.h6, p.h7⟩])) ∧
      (chips.contains p.src = true → (p.opcode = 0x83 → Answers (.colDone i) s counted) ∧
        (p.opcode = 0x84 → Answers (.colRel i) s counted))) ∧
    ((s.grpWord g 0).testBit 0 = true →
      2 ^ 15 ≤ (seq - (match (s.group g).inst with | some c => c.seq | none => (s.group g).nseq)).toNat →
      (p.opcode = 0x80 → Answers (.colReady i) s counted) ∧ (p.opcode = 0x83 → Answers (.colDone i) s counted) ∧
      (p.opcode = 0x84 → Answers (.colRel i) s counted)) ∧
    (∀ g' c w r, p.opcode = 0x48 → p.ctx = 2 → u.colWire p = some (g', c, w, r) → (s.group g').inst = some c →
      p.aux % 16 ≠ 0xA → p.aux % 16 ≠ 5 → Answers (.colAck i) s (fun t => ∃ v c', (v.group g').inst = some c' ∧
        c'.outs = c.outs.map (fun o => if o.rank = r ∧ o.key = w.key then { o with credit := o.credit + 1 } else o) ∧
        c'.wires = (c.wires.map (fun x => if x = w then { x with left := x.left.filter (fun q => q ≠ r) } else x)).filter (fun x => x.left ≠ []) ∧
        v.inj = s.inj ∧ v.chans = (u.collProgress g' c.chan).chans ∧ t = { State.collTurn v g' with pending := s.pending })) ∧
    (p.opcode = 0x48 → p.ctx = 3 ∨ p.ctx = 2 ∧ u.colWire p = none → Answers (.colAck i) s (fun t =>
      t.groups = s.groups ∧ t.reg 0x208 = (u.incReg 0x208).reg 0x208)) ∧
    (p.opcode = 0xC0 →
      (∀ c, (s.group g).inst = some c → c.seq = seq → c.ended = none → Answers (.collAbort i) s (fun t =>
        let v := (u.collProgress g c.chan).collStop g (reasonStatus ((p.aux / 16) % 16)) (p.aux % 16) 0 false
        (∃ c', (v.group g).inst = some c' ∧ c'.ended = some (reasonStatus ((p.aux / 16) % 16), p.aux % 16, 0) ∧ c'.queue = [] ∧ c'.src = [])
          ∧ t = { State.collTurn v g with pending := s.pending })) ∧
      ((s.group g).inst = none → (s.group g).nseq = seq → (∀ m ∈ (s.group g).marks, m.1 ≠ seq) →
        Answers (.collAbort i) s (fun t => (t.group g).marks = (s.group g).marks ++ [(seq, (p.aux / 16) % 16, p.aux % 16)])))

/-! ## Lock cycle and management packets (R284 to R290, R476 to R480) -/

/-- What the leader's messages do at a block that has joined its cycle. STAGE stages the records for this chip; SEAL seals a
staging that passes, and changes neither state otherwise; LOCK locks a sealed block; COUNT notes the packet counts and asks
the children; SWAP inverts CUR and puts staging in force, in epoch mode, with no towpath of the partition but OFF, with the former
bank in HOLD; RELEASE ends the block's part, where its swap does not still wait (R287, R288, R289, R476, R480). -/
def Obligations.LeaderMessagesAct : Prop :=
  ∀ (s : State) (i : Nat) (h : Held) (q : LockPart) (msg : Nat), MgtComes s i h 1 msg → s.mc.lead = none → s.mc.part = some q →
    q.cycle = BitVec.ofNat 16 h.pkt.h5.toNat → q.leader = BitVec.ofNat 18 h.pkt.h6.toNat →
    let u := (s.accepted i h).mgtReply h.pkt []
    let ws := payWords h.pkt.pay
    (msg = 1 → ∀ rs, fld h.pkt.h5.toNat 16 8 = s.ident.gen.toNat → (ws.getD 0 0).toNat ≠ 0xFFFFFFFF → parseRecs 64 ws = some rs →
      s.stageOpen = true → (∀ r ∈ rs, r.isFor s.own = true → ∀ e ∈ r.writes, stagedTarget e.1 = true) →
      Answers (.treeStage i) s (fun t => t.tbl = (rs.filter (fun r => r.isFor s.own)).foldl Tables.stageRec s.tbl)) ∧
    (msg = 2 → s.stageOpen = true → Answers (.treeSeal i) s (fun t =>
      (q.bad = false → u.stagingOk = true → t.tbl.other = .ready ∧ t.tbl.phase = .staged ∧ t.tbl.cycle = q.cycle) ∧
      (q.bad = true ∨ u.stagingOk = false → t.tbl = s.tbl))) ∧
    (msg = 5 → Answers (.treeLock i) s (fun t => (s.tbl.phase = .staged → t.tbl.phase = .locked ∧ t.tbl.lockAt = s.now) ∧
      (s.tbl.phase ≠ .staged → t.tbl = s.tbl))) ∧
    (msg = 6 → Answers (.treeCount i) s (fun t => t.tbl = s.tbl ∧ ∃ p, t.mc.part = some p ∧ p.last.isSome = true ∧
      p.children = q.children ∧ (q.children ≠ [] → p.wave = 6 ∧ p.await = q.children))) ∧
    (msg = 8 → s.tbl.phase = .locked → ((ws.headD 0).toNat.testBit 0 = true → s.towsOn q.key = []) → Answers (.treeSwap i) s (fun t =>
      t.tbl.phase = .swapped ∧ t.tbl.cur = !s.tbl.cur ∧ t.tbl.force = s.stagedForce ∧
      t.tbl.other = (if (ws.headD 0).toNat.testBit 0 then .hold else .idle))) ∧
    (msg = 10 → q.await.contains s.own = false → Answers (.treeRelease i) s (fun t => t.tbl.phase = .none ∧ t.mc.part = none ∧ t.tbl.cur = s.tbl.cur))

/-- A child's report joins the wave it answers: the child is no longer awaited and its counts are added; while others are
awaited nothing more happens, and with the last one a block that does not lead sends its own report. The leader's last
READY, with none refused and none silent, locks its sealed block, and the leader's last SWAPPED, with none silent, ends the
cycle (R287, R480). -/
def Obligations.ReportsGatherUpTheTree : Prop :=
  ∀ (s : State) (i : Nat) (h : Held) (q : LockPart) (msg : Nat), MgtComes s i h 1 msg → s.mc.part = some q →
    q.cycle = BitVec.ofNat 16 h.pkt.h5.toNat → q.leader = BitVec.ofNat 18 h.pkt.h6.toNat → h.pkt.src ∈ q.await →
    q.wave = (if msg ≤ 4 then 2 else if msg = 7 then 6 else 8) →
    let rest := dropFirst (fun x => decide (x = h.pkt.src)) q.await
    let a := q.agg.add (aggOf (payWords h.pkt.pay)).1
    let gathered (t : State) :=
      (rest ≠ [] → ∃ p, t.mc.part = some p ∧ p.await = rest ∧ p.agg = a ∧ p.wave = q.wave) ∧
      (rest = [] → s.mc.lead = none → ∃ p, t.mc.part = some p ∧ p.await = [] ∧ p.wave = 0)
    (msg = 3 → Answers (.treeReady i) s (fun t => gathered t ∧
      (∀ l, rest = [] → s.mc.lead = some l → a.refused = 0 → a.silent = 0 → l.use = .swap → s.tbl.phase = .staged →
        q.children ≠ [] → t.tbl.phase = .locked ∧ t.tbl.lockAt = s.now))) ∧
    (msg = 4 → Answers (.treeRefused i) s gathered) ∧
    (msg = 7 → Answers (.treeReport i) s gathered) ∧
    (msg = 9 → Answers (.treeSwapped i) s (fun t => gathered t ∧
      (∀ l, rest = [] → s.mc.lead = some l → a.silent = 0 → t.mc.lead = none ∧ t.mc.part = none ∧ t.tbl.phase = .none)))

/-- Management packets between kernels: a REMOTE request is performed with OPEN 0 as in FULL mode; a SPARE request is
acknowledged and its words written, and after the last the spare waits for RELEASE; a response ends the request it matches; ASSIST from a neighbour joins the farrier's
queue, and its response ends it; a request unanswered for 100 µs is sent again under its MSEQ while it was
sent fewer than eight times (R449, R452, R478, R479). -/
def Obligations.ManagementPacketsAct : Prop :=
  (∀ (s : State) (i : Nat) (h : Held) (msg : Nat), MgtComes s i h 0 msg →
    let u := s.accepted i h
    let ws := payWords h.pkt.pay
    (notRemote (reqCmd ws) = true → u.remoteBusy h.pkt = false → Answers (.mbReqRemote i) s (fun t =>
      ∃ a ∈ t.mc.answered, a.src = h.pkt.src ∧ a.mseq = qf h.pkt.h7 0 32 ∧ payWords a.pay = [rspHead 3 (fld (leNat (h.pkt.pay.take 4)) 8 8) 0])) ∧
    (notRemote (reqCmd ws) = false → reqCmd ws ≠ 0x40 → u.remoteBusy h.pkt = false → Answers (.mbReqRemote i) s (fun t =>
      t = { u.mbPerform (.remote h.pkt) .full false ws with pending := s.pending }))) ∧
  (∀ (s : State) (i : Nat) (h : Held) (msg : Nat), MgtComes s i h 2 msg → Answers (.mbReqSpare i) s (fun t =>
    let ws := payWords h.pkt.pay
    t = { ((s.accepted i h).mgtReply h.pkt []).spareHere h.pkt ws with pending := s.pending } ∧
      (ws.getD 0 0 = 0xFFFFFFFE → t.mc.spareWait = true) ∧ ∃ a ∈ t.mc.answered, a.src = h.pkt.src ∧ a.mseq = qf h.pkt.h7 0 32)) ∧
  (∀ (s : State) (i : Nat) (h : Held), Accepts s i h →
    (h.pkt.opcode = 0xC2 → Answers (.mbRsp i) s (fun t =>
      ∀ o, s.mc.outst.find? (fun o => decide (o.mseq = qf h.pkt.h7 0 32)) = some o → o.who = some .mailbox → s.mc.mb.busy.isSome = true →
        (∀ x ∈ t.mc.outst, x.mseq ≠ o.mseq) ∧ MbAnswered t 0)) ∧
    (h.pkt.opcode = 0xC3 → h.pkt.pkey = s.ident.pkey.toNat → h.port < 12 → (s.link h.port).peer.chip = h.pkt.src →
      Answers (.assist i) s (fun t => t.far.queue = s.far.queue ++ [⟨BitVec.ofNat 128 (leNat (h.pkt.pay.take 16)), some (h.pkt, h.port)⟩])) ∧
    (h.pkt.opcode = 0xC4 → h.pkt.pkey = s.ident.pkey.toNat → Answers (.assistRsp i) s (fun t =>
      t = { s.accepted i h with pending := s.pending }))) ∧
  (∀ (s : State) (o : MgtOut), s.alive = true →
    s.mc.outst.find? (fun x => decide (x.mseq = o.mseq) && decide (x.at_ + nsTicks 100000 ≤ s.now)) = some o → o.sends < 8 →
    Answers (.mgtResendTimeout o.mseq) s (fun t => { o with at_ := s.now, sends := o.sends + 1 } ∈ t.mc.outst ∧
      ∃ x, t.inj = s.inj ++ [x] ∧ x.pkt.opcode = 0xC1 ∧ x.pkt.dst = o.dst % 2 ^ 18 ∧ qf x.pkt.h7 0 32 = o.mseq % 2 ^ 32))

/-- The limits of the lock cycle. With EPOCH_FB 0 a leader whose block stays LOCKED for DRAIN_TO ends the cycle without a
swap; a member that stays LOCKED for four times DRAIN_TO resumes without swapping and keeps its bank READY; a leader that
awaits SWAPPED for DRAIN_TO ends the cycle; a bank in HOLD is IDLE once the hold time has passed, and packets of its epoch
held here are gone (R288, R289, R290). -/
def Obligations.LockCycleLimits : Prop :=
  (∀ (s : State) (l : Lead) (p : LockPart), s.alive = true → s.mc.lead = some l → s.mc.part = some p → s.tbl.phase = .locked →
    s.tbl.lockAt + s.drainTicks ≤ s.now → (s.reg 0x320).toNat.testBit 16 = false → p.await.contains s.own = false →
    Answers .lockDrainTimeout s (fun t => t.mc.lead = none ∧ t.mc.part = none ∧ t.tbl.phase = .none ∧ t.tbl.cur = s.tbl.cur)) ∧
  (∀ (s : State), s.alive = true → s.mc.lead = none → s.tbl.phase = .locked → s.tbl.lockAt + 4 * s.drainTicks ≤ s.now →
    Answers .lockSwapTimeout s (fun t => t.tbl.phase = .none ∧ t.tbl.other = s.tbl.other ∧ t.tbl.cur = s.tbl.cur ∧ t.mc.part = none)) ∧
  (∀ (s : State) (l : Lead) (p : LockPart), s.alive = true → s.mc.lead = some l → s.mc.part = some p → p.wave = 8 →
    p.since + s.drainTicks ≤ s.now →
    Answers .lockReleaseTimeout s (fun t => t.mc.lead = none ∧ t.mc.part = none ∧ t.tbl.phase = .none)) ∧
  (∀ (s : State), s.alive = true → s.tbl.other = .hold → s.tbl.holdAt + nsTicks (1000000 * max 2 (s.rf 0x320 8 8)) ≤ s.now →
    Answers .epochHoldExpire s (fun t => t.tbl = { s.tbl with other := .idle } ∧ (∀ h ∈ t.inj, h.pkt.epoch = s.tbl.cur) ∧
      (∀ h ∈ t.eject, h.pkt.epoch = s.tbl.cur) ∧ ∀ p, p < 12 → ∀ h ∈ (t.link p).basin, h.pkt.epoch = s.tbl.cur))

/-! ## Hops, reins and towpaths (R241 to R283, R315) -/

/-- One hop of a packet that has come whole and of which nothing has left. At its destination it enters the ejection
berths (dropped there if it was abandoned); one that no rule lets pass is dropped and counted; one that may start on a port
spends a credit of its virtual channel, and where no towpath slot lies between and the replay buffer has room all its flits
enter the buffer; one of a towpath entry whose slot is at hand begins to leave and takes a credit of the next hop queue. Each way the
place it held whole is free; a multicast packet that passes a member leaves a copy (R242, R258, R262, R263, R270, R271, R275,
R282, R283, R289, R299, R305, R315). -/
def Obligations.PacketsHop : Prop :=
  ∀ (s : State) (place i : Nat) (h : Held), s.alive = true → s.flt.armed = none → s.halt.st = .run →
    s.heldAt place i = some h → s.first place i h = true → h.out = none → h.more = false → (place = 15 → s.abortHold = false) →
    let gone (t : State) := (place < 12 → (t.link place).basin = dropAt (s.link place).basin i) ∧
      (place = 15 → dropAt s.inj i <+: t.inj) ∧ (16 ≤ place → (t.tow (place - 16)).queue = (s.tow (place - 16)).queue.drop 1)
    let counts (r : Nat) (t : State) := t.reg r = (s.incReg r).reg r
    (s.fate place h = .eject → h.pkt.opcode ≠ 0xC1 → h.pkt.opcode ≠ 0xC3 → Answers (.packetHop place i none) s (fun t => gone t ∧
      t.eject = if h.abn.isSome then s.eject else s.eject ++ [{ h with since := s.now }])) ∧
    (∀ why, s.fate place h = .drop why → Answers (.packetHop place i none) s (fun t => gone t ∧ t.eject = s.eject ∧
      (place < 12 → (why = 0x50 ∨ why = 0x51 ∨ why = 0x52 → counts 0x310 t) ∧ (why = 0x314 → counts 0x314 t) ∧
        (why = 0x54 → counts (0x608 + 0x20 * place) t) ∧ (why = 0x56 → counts 0x204 t)))) ∧
    (∀ q v enter, s.fate place h = .leave q v enter none → (0xC1 ≤ h.pkt.opcode ∨ s.keyAdmitted q h.pkt.pkey = true) →
      s.portCompat q = false → h.pkt.rmode ≠ 3 → (s.link q).st = .active → (s.link q).ctlWait = [] →
      s.hasCredit q v enter = true → s.vcTurn q v = true → h.sent = 0 → 0 < h.flits → (s.link q).replay.length + h.flits ≤ 1024 →
      (∀ e ∈ s.tows, e.2.st ≠ .on ∧ e.2.st ≠ .draining) →
      Answers (.packetHop place i none) s (fun t => gone t ∧ t.eject = s.eject ∧
        (t.link q).replay.length = (s.link q).replay.length + h.flits ∧
        (t.link q).cred = setAt (s.link q).cred v ((s.link q).cred.getD v 0 - 1))) ∧
    (∀ q v enter k, s.fate place h = .leave q v enter (some k) → s.keyAdmitted q h.pkt.pkey = true → s.slotOwner q = some k →
      s.towReady k q (1024 - (s.link q).replay.length) = some (place, i, h) → h.abn = none →
      Answers (.packetHop place i none) s (fun t => (t.tow k).hopCred < (s.tow k).hopCred ∧
        ∃ f l, (t.link q).replay = (s.link q).replay ++ f :: l ∧ f.body = h.pkt.flit h.sent)) ∧
    (∀ q v enter, s.fate place h = .leave q v enter none → place < 12 → h.pkt.rmode = 3 → h.copied = false → h.abn = none →
      s.mcastMember h.pkt = true → Answers (.packetHop place i none) s (fun t =>
        t.eject = s.eject ++ [{ h with since := s.now, sent := 0, out := none }]))

/-- At the end of a TAI interval the rein's RATE rises by its step when a response was seen and none above the level, and the
interval's marks start afresh. A towpath entry starts when it is enabled and VALID, takes its credits when it reaches ON,
drains when it is disabled (a SOURCE with nothing in flight and a hop with an empty queue are OFF at once), and goes OFF when
no response comes for a hang window. Only a privileged writer enables or disables one (R269, R272 to R274, R279). -/
def Obligations.ReinsAndTowpaths : Prop :=
  (∀ (s : State) (k : Nat), s.alive = true → k < 68 → (s.rein k).start + s.taiTicks ≤ s.now →
    let r := s.rein k
    Answers (.reinIncrease k) s (fun t =>
      (t.rein k).rate = (if r.sawZero = true ∧ r.sawHigh = false then min 4095 (r.rate + s.rf 0x304 0 8) else r.rate) ∧
      (t.rein k).start = s.now ∧ (t.rein k).sawZero = false ∧ (t.rein k).limiting = r.held ∧ (t.rein k).held = false)) ∧
  (∀ (s : State) (n : Nat) (a : RgAcc), n < 128 → WriteMade s (0xB018 + 32 * n) a true →
    let x := s.tow n
    let b := 0xB000 + 32 * n
    (RgAcc.bit a 0 = true → Answers (.towEnable n a) s (fun t =>
      (x.st = .off → (t.tow n).en = true ∧ (t.tow n).st = (if (s.force b).toNat.testBit 0 then .starting else .off)) ∧
      (x.st = .draining → (t.tow n).st = .draining ∧ (t.tow n).enPend = true) ∧
      (x.st = .starting ∨ x.st = .on → (t.tow n).st = x.st ∧ (t.tow n).en = true))) ∧
    (RgAcc.bit a 0 = false → Answers (.towDisable n a) s (fun t =>
      (x.st = .on → s.ff b 1 2 = 0 → (t.tow n).st = (if x.avail = s.ff b 16 8 then .off else .draining) ∧ (t.tow n).en = false) ∧
      (x.st = .on → s.ff b 1 2 ≠ 0 → x.enPend = false → (t.tow n).st = (if x.queue = [] then .off else .draining) ∧ (t.tow n).en = false) ∧
      (x.st = .starting → (t.tow n).st = .starting ∧ (t.tow n).en = false) ∧
      (x.st = .draining → (t.tow n).st = .draining ∧ (t.tow n).enPend = false)))) ∧
  (∀ (s : State) (n : Nat) (a : RgAcc), n < 128 → WriteMade s (0xB018 + 32 * n) a false →
    (RgAcc.bit a 0 = true → Answers (.towEnable n a) s (fun t => t.tows = s.tows)) ∧
    (RgAcc.bit a 0 = false → Answers (.towDisable n a) s (fun t => t.tows = s.tows))) ∧
  (∀ (s : State) (n : Nat), s.alive = true → n < 128 → (s.tow n).st = .starting → s.towPortsUp n = true →
    let b := 0xB000 + 32 * n
    Answers (.towStarted n) s (fun t =>
      ((s.tow n).en = true → (t.tow n).st = .on ∧ (t.tow n).avail = (if s.ff b 1 2 = 0 then s.ff b 16 8 else 0) ∧
        (t.tow n).hopCred = (if s.ff b 1 2 = 2 then 0 else 2) ∧ (t.tow n).queue = []) ∧
      ((s.tow n).en = false → (s.tow n).enPend = false → (t.tow n).st = .off))) ∧
  (∀ (s : State) (n : Nat), s.alive = true → n < 128 → (s.tow n).st = .on → s.ff (0xB000 + 32 * n) 1 2 = 0 →
    (s.tow n).avail < s.ff (0xB000 + 32 * n) 16 8 → (s.tow n).lastRsp + s.hangTicks ≤ s.now → s.halt.st = .run →
    Answers (.towStall n) s (fun t => (t.tow n).st = .off ∧ (t.tow n).en = false ∧ (t.tow n).queue = [] ∧
      (t.reg (0xB01C + 32 * n)).toNat.testBit 3 = true))

/-! ## Link ports (R292 to R324, R357, R444, R445) -/

/-- What a made write of a port's control registers does. EN 1 trains an OFF port, is held by a DRAINING one, and trains a FENCED
one unless a self-step is deferred (held); EN 0 drains a port that carries traffic and
puts any other OFF; RETRAIN takes an ACTIVE port into RETRAIN. A write whose time-out budget exceeds 100 µs, and an EN 1 of a
port the harness map does not allow or of a FENCED one that a fault stands against, are ignored with WR_IGN. LNK_INJ takes its bits; DX_FENCE fences the ports it names
(R302, R312, R318, R323, R346, R357, R444, R445). -/
def Obligations.LinkControlWrites : Prop :=
  (∀ (s : State) (p : Nat) (a : RgAcc), p < 12 → WriteMade s (lnkReg p 0) a true →
    let l := s.link p
    let v := a.data.toNat
    let ignored (t : State) := (t.link p).st = l.st ∧ (t.reg (lnkReg p 4)).toNat.testBit 16 = true
    let fits := 64 * max 1 (fld v 3 8) * max 1 (fld v 11 4) ≤ 100000
    (RgAcc.bit a 0 = true → Answers (.linkEnable p a) s (fun t =>
      (¬fits → ignored t) ∧
      (fits → s.enIgnored p true = true → RgAcc.bit a 1 = false → ignored t) ∧
      (fits → s.enIgnored p true = false →
        (l.st = .off → (t.link p).st = .training) ∧
        (l.st = .draining → (t.link p).st = .draining ∧ (t.link p).enPend = true) ∧
        (l.st = .fenced → s.selfDefer = true → (t.link p).st = .fenced ∧ (t.link p).heldEn = true) ∧
        (l.st = .fenced → s.selfDefer = false → (t.link p).st = .training) ∧
        (l.st = .active → RgAcc.bit a 1 = false → (t.link p).st = .active)))) ∧
    (RgAcc.bit a 0 = false → fits → s.enIgnored p false = false → Answers (.linkDisable p a) s (fun t =>
      (l.st = .active ∨ l.st = .retrain → l.replay ≠ [] ∨ s.startedOn p = true → (t.link p).st = .draining) ∧
      (l.st = .active ∨ l.st = .retrain → l.replay = [] → s.startedOn p = false → l.enPend = false → (t.link p).st = .off) ∧
      (l.st = .training ∨ l.st = .fenced → l.enPend = false → (t.link p).st = .off) ∧
      (l.st = .draining → (t.link p).st = .draining ∧ (t.link p).enPend = false))) ∧
    (RgAcc.bit a 1 = true → RgAcc.bit a 0 = true → fits → l.st = .active →
      Answers (.linkRetrainWrite p a) s (fun t => (t.link p).st = .retrain))) ∧
  (∀ (s : State) (p : Nat) (a : RgAcc) (priv : Bool), p < 12 → WriteMade s (lnkReg p 0x24) a priv → RgAcc.bit a 0 = true →
    Answers (.lnkInjArm p a) s (fun t => t.reg (lnkReg p 0x24) = mergeWrite (regMask (lnkReg p 0x24)) priv (s.reg (lnkReg p 0x24)) a.data ∧
      t.links = s.links)) ∧
  (∀ (s : State) (a : RgAcc), WriteMade s 0x3030 a true → Answers (.portFence a) s (fun t => ∀ p, p < 12 →
    (a.data.toNat.testBit p = true → (s.link p).st ≠ .off → (t.link p).st = .fenced ∧ ((s.link p).st ≠ .fenced → (t.link p).cause = 7)) ∧
    (a.data.toNat.testBit p = false → (t.link p).st = (s.link p).st))) ∧
  (∀ (s : State) (a : RgAcc), WriteMade s 0x3030 a false → Answers (.portFence a) s (fun t => t.links = s.links))

/-- Bring-up of a port. With tag lock on its trained teams LINK_PARAM begins, sent on each of them every 1 µs; one that fails a check fences the
port with CAUSE 6; the first good one tells of the peer, and a later one, with an own time stamp echoed, makes the port
ACTIVE with the peer's shares as credits, each channel's from its own byte; a good one ends RETRAIN. A peer that is not the neighbour leaves the port MGT-only.
TRAINING over 1 ms, RETRAIN over 200 µs and a drain over a hang window fence the port with CAUSE 3; a received RETRAIN takes an
ACTIVE port into RETRAIN (R305, R310 to R312, R317). -/
def Obligations.LinkBringUp : Prop :=
  (∀ (s : State) (p : Nat), s.alive = true → p < 12 →
    let l := s.link p
    let up := (s.portTeams p).filter (fun k => (s.team k).trained)
    (l.st = .training ∨ l.st = .retrain → l.tagLock = false → up ≠ [] → (s.portTeams p).all (fun k => (s.team k).decided) = true →
      Answers (.tagLock p) s (fun t => (t.link p).st = l.st ∧ (t.link p).tagLock = true ∧ (t.link p).teams = up ∧
        (t.link p).paramAt = s.now ∧ ∀ k ∈ up, (t.team k).tagLock = true)) ∧
    (l.st = .training ∨ l.st = .retrain → l.tagLock = true → l.paramAt + nsTicks 1000 ≤ s.now →
      Answers (.linkParamSend p) s (fun t => (t.link p).paramAt = s.now ∧ (s.portCompat p = false → ∀ k ∈ l.teams,
        ∃ tag, .flit p k tag (ctlBody 0x01 (s.paramFields p)) ∈ t.out))) ∧
    (l.st = .training → l.since + nsTicks 1000000 ≤ s.now →
      Answers (.linkTrainTimeout p) s (fun t => (t.link p).st = .fenced ∧ (t.link p).cause = 3)) ∧
    (l.st = .retrain → l.since + nsTicks 200000 ≤ s.now →
      Answers (.retrainTimeout p) s (fun t => (t.link p).st = .fenced ∧ (t.link p).cause = 3)) ∧
    (l.st = .draining → l.since + s.hangTicks ≤ s.now →
      Answers (.linkDrainTimeout p) s (fun t => (t.link p).st = .fenced ∧ (t.link p).cause = 3))) ∧
  (∀ (s : State) (p b : Nat), CtlComes s p 1 b → s.flt.armed = none →
    let l := s.link p
    Answers (.linkParam p) s (fun t =>
      (l.st = .training ∨ l.st = .active ∨ l.st = .retrain → s.paramGood p b = false → (t.link p).st = .fenced ∧ (t.link p).cause = 6) ∧
      (s.paramGood p b = true → l.st = .training → l.goodParams = 0 → (t.link p).st = .training ∧ (t.link p).goodParams = 1 ∧
        (t.link p).peer.chip = fld b 64 18 ∧ (t.link p).peer.valid = true) ∧
      (s.paramGood p b = true → l.st = .training → 0 < l.goodParams → l.stamps.contains (fld b 256 64) = true → (t.link p).st = .active ∧
        (t.link p).cred = (List.range 6).map (fun v => fld b (8 * (if v = 5 then 16 else 17 + v)) 8)) ∧
      (s.paramGood p b = true → l.st = .active → (t.link p).st = .active ∧ (t.link p).cred = l.cred) ∧
      (s.paramGood p b = true → l.st = .retrain → l.tagLock = true → (l.ackTo (fld b 384 12)).isSome = true → l.drain = false →
        (t.link p).st = .active) ∧
      (∀ ok, s.paramGood p b = true → l.st = .training ∨ l.st = .active → s.paramWire p b = some ok →
        (t.link p).mgtOnly = (s.forcedMgt p || !ok)))) ∧
  (∀ (s : State) (p b : Nat), CtlComes s p 3 b → Answers (.retrain p) s (fun t =>
    (t.link p).st = if (s.link p).st = .active then .retrain else (s.link p).st))

/-- Receiving in sequence. A sequenced flit with the expected FSEQ is accepted and E moves on; one that FEC or the CRC rejects, or
that is out of place, changes E not and asks for a replay; one 1,025 to 3,071 ahead takes the port into RETRAIN. A good
DATA flit that is first and last of its packet puts it in the basin; control flits are kept in order. A good tag
acknowledges flits and reports credits, fencing the port when a report exceeds the share; the 64th FENCE tag in a row tells
that the peer is fenced. A replay resends every buffered flit, or takes the port into RETRAIN after RETRY_MAX (R294, R295,
R300, R301, R305 to R307, R312). -/
def Obligations.FlitsReceivedInSequence : Prop :=
  (∀ (s : State) (p : Nat) (f : RxFlit), s.alive = true → p < 12 → s.flt.armed = none → (s.link p).st = .active →
    let l := s.link p
    let tag := s.rxTag p f
    let d := (fld tag 2 12 + 4096 - l.e) % 4096
    let good := s.fecFail f = false ∧ s.rxGood p f = true
    let plain := l.fenceRun = [] ∧ tag.testBit 41 = false ∧ tag.testBit 40 = false ∧ tag.testBit 53 = false ∧
      (l.ackTo (fld tag 28 12)).isSome = true
    (tag % 4 = 1 ∨ tag % 4 = 2 → Answers (.seqFlitReceive p f) s (fun t =>
      (¬good → (t.link p).e = l.e ∧ (t.link p).nak = true) ∧
      (good → plain → 6 ≤ fld tag 42 3 →
        (d = 0 → (t.link p).e = (l.e + 1) % 4096 ∧ (t.link p).nak = false) ∧
        (d ≠ 0 → d ≤ 1024 ∨ 3072 ≤ d → (t.link p).e = l.e ∧ (t.link p).nak = true ∧ (t.link p).basin = l.basin ∧ (t.link p).ctl = l.ctl) ∧
        (1024 < d → d < 3072 → (t.link p).st = .retrain) ∧
        (d = 0 → tag % 4 = 2 → s.portCompat p = false → ctlKind (f.body.toNat % 256) = some 2 →
          (t.link p).ctl = l.ctl ++ [(s.time, f.body)]) ∧
        (d = 0 → tag % 4 = 1 → tag.testBit 17 = true → tag.testBit 18 = true → tag.testBit 19 = false → tag.testBit 27 = false →
          fld tag 14 3 < 6 → l.mgtOnly = false → s.portCompat p = false → (∀ x ∈ l.basin, x.more = false) →
          ∃ h, (t.link p).basin = l.basin ++ [h] ∧ h.share = fld tag 14 3 ∧ h.flits = 1 ∧ h.more = false ∧
            h.pkt = Packet.ofBytes (leBytes 256 f.body.toNat))))) ∧
    (tag % 4 = 0 → good → Answers (.tagReceive p f) s (fun t =>
      (plain → 6 ≤ fld tag 42 3 → l.ctlWait = [] → ∀ l', l.ackTo (fld tag 28 12) = some l' → (t.link p).replay = l'.replay) ∧
      (plain → fld tag 42 3 < 6 →
        let v := fld tag 42 3
        let n := (fld tag 45 8 + 256 - l.seen.getD v 0) % 256
        (0 < n → l.cred.getD v 0 + n ≤ l.peer.shares.getD v 0 → (t.link p).cred = setAt l.cred v (l.cred.getD v 0 + n)) ∧
        (0 < n → l.peer.shares.getD v 0 < l.cred.getD v 0 + n → (t.link p).st = .fenced ∧ (t.link p).cause = 5)) ∧
      (∀ n, tag.testBit 41 = true → l.teams = [f.team] → l.fenceRun = [(f.team, n)] →
        (63 ≤ n → (t.link p).st = .fenced ∧ (t.link p).cause = 2) ∧
        (n < 63 → tag.testBit 40 = false → tag.testBit 53 = false → 6 ≤ fld tag 42 3 → (l.ackTo (fld tag 28 12)).isSome = true →
          (t.link p).st = .active ∧ (t.link p).fenceRun = [(f.team, n + 1)]))))) ∧
  (∀ (s : State) (p : Nat) (f : RxFlit), s.alive = true → p < 12 → (s.link p).st = .training → (s.link p).tagLock = true →
    s.rxTag p f % 4 = 3 → s.fecFail f = false → s.rxGood p f = true → (s.rxBody p f).toNat % 256 = 1 →
    Answers (.tagReceive p f) s (fun t => (t.link p).ctl = (s.link p).ctl ++ [(s.time, s.rxBody p f)])) ∧
  (∀ (s : State) (p : Nat) (f : TxFlit) (rest : List TxFlit), s.alive = true → p < 12 → s.flt.armed = none →
    (s.link p).st = .active → (s.link p).replay = f :: rest → f.at_ + (s.link p).toTicks ≤ s.now →
    let tries := max 1 (s.rf (lnkReg p 0) 11 4)
    Answers (.replayTimeout p) s (fun t =>
      (f.sends ≤ tries → (t.link p).replay = (s.link p).replay.map (fun f => { f with sends := f.sends + 1, at_ := s.now }) ∧
        (t.out.filter (fun o => match o with | .flit q _ _ _ => decide (q = p) | _ => false)).length = (s.link p).replay.length) ∧
      (tries < f.sends → (t.link p).st = .retrain)))

/-- What the control flits do that are not of bring-up. HALT_MARK starts the halt of its pair, or ends the wait for the marker
on its input; HALT_REL releases the halt of its pair. An ABORT of the own partition with the next generation is accepted
and awaits its step, one 2 to 127 ahead begins the hold of an abort out of step, and another is counted; of another
partition it is remembered and not acted on. BEACON on an ACTIVE port is answered with its T1, T2 and T3; a response to the latest beacon sets
the measured offset and delay and steers the counter; a beacon interval sends the next beacon to an ACTIVE parent, and the 16th
without an answer ends LOCKED (R441, R442, R455, R459, R483, R484). -/
def Obligations.ControlFlitsAct : Prop :=
  (∀ (s : State) (p b : Nat), CtlComes s p 0x10 b →
    let key := fld b 32 16
    let id := fld b 48 16
    Answers (.haltMark p) s (fun t =>
      (s.halt.st = .run → s.keyAdmitted p key = true → id ≠ s.halt.id.toNat → (s.link p).st = .active →
        t.halt.st = .halting ∧ t.halt.key.toNat = key ∧ t.halt.id.toNat = id ∧ p ∉ t.halt.awaited ∧ t.halt.since = s.now) ∧
      (s.halt.st ≠ .run → key = s.halt.key.toNat → id = s.halt.id.toNat →
        t.halt = { s.halt with awaited := s.halt.awaited.filter (fun q => decide (q ≠ p)) }) ∧
      (s.halt.st ≠ .run → ¬(key = s.halt.key.toNat ∧ id = s.halt.id.toNat) → t.halt = s.halt))) ∧
  (∀ (s : State) (p b : Nat), CtlComes s p 0x11 b →
    Answers (.haltRel p) s (fun t =>
      (s.halt.st ≠ .run → fld b 32 16 = s.halt.key.toNat → fld b 48 16 = s.halt.id.toNat → t.halt.st = .run) ∧
      (¬(fld b 32 16 = s.halt.key.toNat ∧ fld b 48 16 = s.halt.id.toNat) → t.halt = s.halt))) ∧
  (∀ (s : State) (p b : Nat), CtlComes s p 0x20 b →
    let key := fld b 32 16
    let gen := fld b 48 8
    let d := (gen + 256 - s.genBase.toNat) % 256
    let taken := (s.link p).st = .active ∧ s.keyAdmitted p key = true
    Answers (.abortFlit p) s (fun t =>
      (¬taken → t.abort = s.abort) ∧
      (taken → key = s.ident.pkey.toNat → d = 1 → t.abort.steps = s.abort.steps ++
        [⟨BitVec.ofNat 8 gen, fld b 96 8, BitVec.ofNat 18 (fld b 64 18), fld b 104 8, false, false⟩] ∧ t.flt.recovAt = s.now) ∧
      (taken → key = s.ident.pkey.toNat → 2 ≤ d → d ≤ 127 → t.abort = { s.abort with skewHold := true }) ∧
      (taken → key = s.ident.pkey.toNat → d = 0 ∨ 128 ≤ d → t.abort = s.abort ∧ t.reg 0x3024 = (s.incReg 0x3024).reg 0x3024) ∧
      (taken → key ≠ s.ident.pkey.toNat → t.abort.steps = s.abort.steps ∧ ∃ n, (key, gen, n) ∈ t.abort.pairs))) ∧
  (∀ (s : State) (p b : Nat), CtlComes s p 0x30 b → (s.link p).st = .active → s.portCompat p = false → Answers (.beacon p) s (fun t =>
    ∃ team tag, .flit p team tag (ctlBody 0x31 (put (fld b 32 16) 32 16 + put (fld b 64 64) 64 64 + put (s.ctlTime p) 128 64
      + put s.time 192 64)) ∈ t.out)) ∧
  (∀ (s : State) (p b t1 : Nat), CtlComes s p 0x31 b →
    let theta := (diff64 (fld b 128 64) t1 - diff64 (s.ctlTime p) (fld b 192 64) - toSigned 16 (s.rf 0xF058 0 16)) / 2
    let delta := (diff64 (s.ctlTime p) t1 - diff64 (fld b 192 64) (fld b 128 64)) / 2
    let near := -8 < theta ∧ theta < 8
    let ours := s.beaconOn = true ∧ p = s.rf 0xF048 2 4 ∧ fld b 32 16 = s.ts.seq.toNat
    Answers (.beaconRsp p) s (fun t =>
      (s.ts.t1 = none ∨ ¬ours → t.ts = s.ts) ∧
      (s.ts.t1 = some t1 → ours → t.reg 0xF050 = BitVec.ofNat 32 (wrapInt 32 theta) ∧
        t.reg 0xF054 = BitVec.ofNat 32 (wrapInt 32 delta) ∧ t.ts.t1 = none ∧
        (s.ts.st = .acquire → near → 15 ≤ s.ts.good → t.ts.st = .locked) ∧
        (s.ts.st = .acquire → ¬near → t.ts.st = .acquire) ∧
        (s.ts.st = .locked → t.ts.st = .locked) ∧
        (s.ts.st = .holdover → ¬near → t.ts.st = .acquire)))) ∧
  (∀ (s : State), s.alive = true → s.beaconOn = true → s.ts.at_ + s.beaconTicks ≤ s.now →
    let p := s.rf 0xF048 2 4
    let missed := if s.ts.t1.isSome then s.ts.missed + 1 else s.ts.missed
    Answers .beaconInterval s (fun t => t.ts.at_ = s.now ∧
      (s.ts.st = .locked → 16 ≤ missed → t.ts.st = .holdover) ∧
      (s.ts.st = .locked → missed < 16 → t.ts.st = .locked) ∧
      (p < 12 → (s.link p).st = .active → s.portCompat p = false → t.ts.seq = s.ts.seq + 1 ∧ t.ts.t1 = some s.time) ∧
      (¬(p < 12 ∧ (s.link p).st = .active ∧ s.portCompat p = false) → t.ts.seq = s.ts.seq)))

/-! ## Lanes, teams, the harness map and I²C (R325 to R364) -/

/-- Training frames and figures of merit. A frame's figure of merit is the lane's, and the position sends its own frame; with others still in training, a good
PRESET sets the three taps and is echoed, a frame that names another lane or team marks the lane miswired, and the receiver
is done once the figure reaches TRAIN settled, failed once its requests run out below it. Each FOM update of a usable team on an
ACTIVE port gives every lane its figure. In PRBS mode a checker counts errors while locked; a write enters or leaves the mode where it may, and CLR clears the
counters (R336 to R344, R346). -/
def Obligations.LanesTrainAndAreMeasured : Prop :=
  (∀ (s : State) (n i : Nat) (f : TrainFrame), s.alive = true → n < 16 → i < 10 → s.inTraining n = true → (s.team n).lanes.length = 10 →
    let y := (s.team n).lane i
    let ps := fld f.ctl.toNat 0 3
    Answers (.trainingFrame n i f) s (fun t => ((t.team n).lane i).fom = f.fom.toNat ∧ (∃ c d e, .train n i c d e ∈ t.out) ∧
      ((∃ j, j < 10 ∧ j ≠ i ∧ ((s.team n).lane j).far = .open_) →
        let z := (t.team n).lane i
        (laneGood f.ctl = true → 1 ≤ ps → ps ≤ 5 → fld y.seen 0 3 ≠ ps → (z.cm2, z.cm1, z.cp1) = presetTaps ps ∧ z.echo = ps) ∧
        (laneGood f.ctl = true → qf f.ctl 16 4 ≠ i ∨ qf f.ctl 20 4 ≠ s.teamPos n → z.bad = true ∧ z.miswire = true) ∧
        (y.train = .open_ → s.fomTrain n ≤ f.fom.toNat → f.settled = true → z.train = .done) ∧
        (y.train = .open_ → f.fom.toNat < s.fomTrain n → s.askLimit n ≤ y.asks → z.train = .failed)))) ∧
  (∀ (s : State) (n : Nat) (foms : List Nat), s.alive = true → s.teamLive n = true → (s.link (s.teamPort n)).st = .active → (s.team n).lanes.length = 10 →
    Answers (.fomUpdate n foms) s (fun t => ∀ i, i < 10 → ((t.team n).lane i).fom = foms.getD i 0 % 256)) ∧
  (∀ (s : State) (n i errs : Nat), s.alive = true → n < 16 → i < 10 → (s.team n).st = .prbs →
    (s.reg (teamReg n 0xC)).toNat.testBit 3 = true → (s.team n).lanes.length = 10 →
    let y := (s.team n).lane i
    Answers (.prbsCheckerLock n i errs) s (fun t =>
      (y.prbsLock = true → ((t.team n).lane i).prbsErr = min (2 ^ 32 - 1) (y.prbsErr + min 256 errs) ∧
        ((t.team n).lane i).prbsLock = decide (errs ≤ 32)) ∧
      (y.prbsLock = false → ((t.team n).lane i).prbsErr = y.prbsErr ∧ ((t.team n).lane i).prbsLock = decide (errs = 0)))) ∧
  (∀ (s : State) (n : Nat) (a : RgAcc), n < 16 → WriteMade s (teamReg n 0xC) a true →
    let v := (mergeWrite (regMask (teamReg n 0xC)) true (s.reg (teamReg n 0xC)) a.data).toNat
    Answers (.prbsMode n a) s (fun t =>
      (fld v 0 2 = 0 → (s.team n).st = .prbs → (t.team n).st = .off) ∧
      (fld v 0 2 ≠ 0 → v.testBit 2 = true ∨ v.testBit 3 = true → s.quayOn n = true →
        12 ≤ s.teamPort n ∨ (s.link (s.teamPort n)).st = .off → (t.team n).st = .prbs))) ∧
  (∀ (s : State) (n : Nat) (a : RgAcc) (priv : Bool), n < 16 → WriteMade s (teamReg n 0xC) a priv → RgAcc.bit a 4 = true →
    Answers (.prbsClr n a) s (fun t => ∀ i, ((t.team n).lane i).prbsErr = 0))

/-- Lane sparing. A position that falls silent, and a forwarded clock that is lost, call for the free spare with the next
transaction number; so does SWAP written by software, ignored with WR_IGN where the spare is not free. The management words
carry the call, the acknowledgement and IDLE, and mirroring follows it; a request is acknowledged unless the transmit spare
is in use; the matching acknowledgement starts the comparison, and a good comparison (or an acknowledged switch at once)
puts the spare in the position's place; a bad one marks the spare bad (R335, R347 to R352). -/
def Obligations.SparesReplaceLanes : Prop :=
  ∀ (s : State) (n : Nat), s.alive = true → s.teamLive n = true → (s.team n).lanes.length = 10 →
    let x := s.team n
    let sound (but : Nat) := ∀ j, j < 10 → j ≠ but → (x.lane j).bad = false
    let called (i : Nat) (now : Bool) (t : State) := (t.team n).call = some ⟨i, (x.txn + 1) % 256, now, 0⟩
    (∀ i, i ∈ lanePositions → s.spareFree n = true → x.call = none → sound i → Answers (.laneSilent n i) s (fun t =>
      called i true t ∧ ((t.team n).lane i).lost = true)) ∧
    (x.holdover = false → s.spareFree n = true → x.call = none → sound 9 → Answers (.forwardedClockLoss n) s (fun t =>
      called 9 true t ∧ (t.team n).holdover = true)) ∧
    (∀ (a : RgAcc) (priv : Bool), WriteMade s (teamReg n 8) a priv → RgAcc.bit a 0 = true → lanePos (fld a.data.toNat 1 4) = true →
      let i := fld a.data.toNat 1 4
      Answers (.teamSwap n a) s (fun t =>
        (s.spareFree n = true → x.call = none → called i ((x.lane i).bad || decide (i = 9)) t) ∧
        (s.spareFree n = false ∨ x.call.isSome = true → t.teams = s.teams ∧ (t.reg (teamReg n 4)).toNat.testBit 25 = true))) ∧
    (x.mirror = none → x.txFor = none → Answers (.laneManagementWord n) s (fun t =>
      let sfom := (x.lane 8).fom
      (∀ i, x.arm = some i → (t.team n).mirror = some i ∧ (t.team n).arm = none) ∧
      (∀ c, x.arm = none → x.call = some c → c.stage = 0 → (t.team n).call = some { c with stage := 1 } ∧
        t.out = [.lmw n (lmw 1 c.lane c.txn sfom) (s.phy n).pn31]) ∧
      (∀ i k, x.arm = none → x.call = none → x.ack = some (i, k) → (t.team n).ack = none ∧ (t.team n).arm = some i ∧
        t.out = [.lmw n (lmw 2 i k sfom) (s.phy n).pn31]) ∧
      (x.arm = none → x.call = none → x.ack = none → t.teams = s.teams ∧ t.out = [.lmw n (lmw 0 0 0 sfom) (s.phy n).pn31]))) ∧
    (∀ w : Quad, laneGood w = true → qf w 0 4 = 1 → lanePos (qf w 4 4) = true → Answers (.mirrorReq n w) s (fun t =>
      (x.mirror = none → x.arm = none → x.txFor = none → (t.team n).ack = some (qf w 4 4, qf w 8 8)) ∧
      (x.mirror.isSome = true ∨ x.arm.isSome = true ∨ x.txFor.isSome = true → t.teams = s.teams))) ∧
    (∀ (w : Quad) (c : SpareCall), laneGood w = true → qf w 0 4 = 2 → x.call = some c → c.stage = 1 → c.lane = qf w 4 4 → c.txn = qf w 8 8 →
      Answers (.mirrorAck n w) s (fun t =>
        (c.atOnce = false → (t.team n).call = some { c with stage := 2 }) ∧
        (c.atOnce = true → lanePos c.lane = true → x.spareBad = false → sound c.lane → (t.team n).spareFor = some c.lane ∧ (t.team n).call = none))) ∧
    (∀ (c : SpareCall), x.call = some c → c.stage = 2 → lanePos c.lane = true → x.spareBad = false → sound c.lane →
      Answers (.spareCompareDone n true) s (fun t => (t.team n).spareFor = some c.lane ∧ (t.team n).call = none)) ∧
    (∀ (c : SpareCall), x.call = some c → c.stage = 2 → c.atOnce = false → x.spareBad = false → x.spareFor = none → sound 10 →
      Answers (.spareCompareDone n false) s (fun t => (t.team n).spareBad = true ∧ (t.team n).call = none))

/-- How a team of an ACTIVE port leaves the rotation and returns. Losing its clock in holdover, or its tag lock, drops a usable team: the last one
takes the port into RETRAIN, another reads DROPPED while TEAM_DROP is agreed. TEAM_DROP answered takes it out and begins an
attempt; attempts follow by timer and, for a FAILED team, by RETRY; TEAM_ADD from both sides puts it back (R316, R335,
R353, R354). -/
def Obligations.TeamsLeaveAndReturn : Prop :=
  (∀ (s : State) (n : Nat), s.alive = true → s.teamLive n = true → (s.link (s.teamPort n)).st = .active → n ∈ (s.link (s.teamPort n)).teams →
    n ∉ (s.link (s.teamPort n)).dropAsk →
    let p := s.teamPort n
    let l := s.link p
    let last := l.teams.all (fun k => decide (k = n) || l.dropAsk.contains k)
    let left (t : State) := (last = true → (t.link p).st = .retrain ∧ (t.team n).st = .retraining) ∧
      (last = false → s.portCompat p = false → (t.team n).st = .dropped ∧ n ∈ (t.link p).dropAsk)
    ((s.team n).holdover = true → Answers (.clockHoldoverEnd n) s (fun t => left t ∧ (t.team n).holdover = false)) ∧
    Answers (.tagLockLoss n) s (fun t => left t ∧ (t.team n).tagLock = false)) ∧
  (∀ (s : State) (n r : Nat), s.alive = true → n < 16 → (s.team n).st = .dropped → (s.link (s.teamPort n)).st = .active →
    (s.team n).retryAt = some r → r ≤ s.now → Answers (.teamRetryTimer n) s (fun t => (t.team n).st = .retraining)) ∧
  (∀ (s : State) (n : Nat) (a : RgAcc) (priv : Bool), n < 16 → WriteMade s (teamReg n 8) a priv → RgAcc.bit a 5 = true →
    RgAcc.bit a 0 = false → Answers (.teamRetry n a) s (fun t =>
      ((s.team n).st = .failed → (s.link (s.teamPort n)).st = .active → (t.team n).st = .retraining) ∧
      ((s.team n).st = .failed → (s.link (s.teamPort n)).st ≠ .active → (t.team n).st = .dropped ∧ (t.team n).retryAt = some s.now) ∧
      ((s.team n).st ≠ .failed → t.teams = s.teams))) ∧
  (∀ (s : State) (p b n : Nat), CtlComes s p 2 b → s.cmdTeam p b = some n → (s.link p).st = .active →
    let l := s.link p
    (fld b 32 8 = 1 → n ∈ l.teams → Answers (.teamDrop p) s (fun t =>
      (n ∈ l.dropAsk → n ∉ (t.link p).teams ∧ (t.team n).st = .retraining) ∧
      (n ∉ l.dropAsk → l.teams.all (fun k => decide (k = n) || l.dropAsk.contains k) = true → (t.link p).st = .retrain) ∧
      (n ∉ l.dropAsk → l.teams.all (fun k => decide (k = n) || l.dropAsk.contains k) = false →
        n ∉ (t.link p).teams ∧ (t.team n).st = .retraining))) ∧
    (fld b 32 8 = 2 → n ∉ l.teams → (s.team n).st = .retraining → Answers (.teamAdd p) s (fun t =>
      (100 + n ∈ l.dropAsk ∨ (s.team n).tagLock = true → n ∈ (t.link p).teams ∧ (t.team n).st = .usable) ∧
      (100 + n ∉ l.dropAsk → (s.team n).tagLock = false → (t.link p).teams = l.teams ∧ 200 + n ∈ (t.link p).dropAsk))))

/-- SEAL written 1 by a writer that may: a map that breaks a check is refused with the check, port and team in DX_HARNESS_CTL,
a good one is sealed with its unused quays powered down; a sealed map stays (R355 to R357). -/
def Obligations.HarnessSealChecksTheMap : Prop :=
  (∀ (s : State) (a : RgAcc), WriteMade s 0xC000 a true → RgAcc.bit a 0 = true → Answers (.harnessSeal a) s (fun t =>
    ((s.reg 0xC000).toNat.testBit 0 = true → t.rg = s.rg ∧ t.teams = s.teams) ∧
    ((s.reg 0xC000).toNat.testBit 0 = false →
      (∀ c p n, s.sealRefuse = some (c, p, n) → (t.reg 0xC000).toNat.testBit 0 = false ∧
        t.rf 0xC000 4 12 = put c 0 4 + put p 4 4 + put n 8 4) ∧
      (s.sealRefuse = none → (t.reg 0xC000).toNat.testBit 0 = true ∧ t.rf 0xC000 4 12 = 0 ∧
        ∀ q, q < 4 → ((t.reg 0xC000).toNat.testBit (16 + q) = true ↔ ∀ k, k < 4 → s.teamPort (4 * q + k) = 15))))) ∧
  (∀ (s : State) (a : RgAcc), WriteMade s 0xC000 a false → RgAcc.bit a 0 = true →
    Answers (.harnessSeal a) s (fun t => t.rg = s.rg ∧ t.teams = s.teams))

/-- GO starts a transaction with the fields of CMD on an idle, enabled controller; with EN 0 it ends at once with RESULT 6, and
while one is in progress it is ignored. A transaction ends with its RESULT, the bytes transferred and DONE; bytes left by a
read that failed are free values (the model's choice, log 26) (R363, R364). -/
def Obligations.I2cTransactions : Prop :=
  (∀ (s : State) (c : Nat) (a : RgAcc) (priv : Bool), c < 8 → WriteMade s (i2cReg c 4) a priv → RgAcc.bit a 31 = true →
    let w := (mergeWrite (regMask (i2cReg c 4)) priv (s.reg (i2cReg c 4)) a.data).toNat
    let goes (t : State) :=
      (s.i2cBusy c = none → (s.reg (i2cReg c 0)).toNat.testBit 0 = true → fld w 0 2 ≠ 3 →
        t.i2cBusy c = some ⟨fld w 0 2, fld w 2 7, fld w 9 8, fld w 17 7 + 1, none⟩) ∧
      (s.i2cBusy c = none → (s.reg (i2cReg c 0)).toNat.testBit 0 = false → t.i2cBusy c = none ∧ t.rf (i2cReg c 8) 1 3 = 6) ∧
      ((s.i2cBusy c).isSome = true → t.i2c = s.i2c ∧ (t.reg (i2cReg c 8)).toNat.testBit 13 = true)
    (fld a.data.toNat 0 2 = 0 → Answers (.i2cWrite c a) s goes) ∧
    (fld a.data.toNat 0 2 = 1 → Answers (.i2cRead c a) s goes) ∧
    (fld a.data.toNat 0 2 = 2 → Answers (.i2cReadCur c a) s goes)) ∧
  (∀ (s : State) (c : Nat) (b : I2cBusy), s.alive = true → c < 8 → s.i2cBusy c = some b → b.mb = none →
    let ended (result n : Nat) (t : State) := t.i2cBusy c = none ∧ t.rf (i2cReg c 8) 1 3 = result ∧ t.rf (i2cReg c 8) 4 8 = n % 256 ∧
      (t.reg (i2cReg c 8)).toNat.testBit 12 = true
    (∀ bs, Answers (.i2cTransactionEnd c (.ok bs)) s (ended 0 b.n)) ∧
    Answers (.i2cTransactionEnd c .nackAddr) s (ended 1 0) ∧
    (∀ n, Answers (.i2cTransactionEnd c (.nackData n)) s (ended 2 (min n b.n))) ∧
    Answers (.i2cTransactionEnd c .stuck) s (ended 4 0) ∧
    (∀ n, Answers (.i2cTransactionEnd c (.lost n)) s (ended 5 (min n b.n))) ∧
    (∀ n, Answers (.i2cStretchTimeout c n) s (ended 3 (min n b.n))))

/-! ## Reduction units (R212 to R223) -/

/-- DX_RU_CTL enables units (OFF and good ones start their self-test, a draining one holds the enable), takes the enable of others
away (a unit that was ON is ON no more, and OFF where no piece waits), refuses with WR_IGN to disable the
last one, and designates the standby, which is ON no more; a FAULTED unit is no standby. A self-test ends ON, or OFF and FAULTED;
clearing FAULTED lets the unit start again. A unit that is ON combines a piece, one that drains is OFF after its piece, and
with a residue mismatch a unit goes OFF and FAULTED. The injections take their bits (R193, R212, R216 to R222, R249). -/
def Obligations.ReductionUnitsLive : Prop :=
  (∀ (s : State) (a : RgAcc), WriteMade s 0x180 a true →
    let v := a.data.toNat
    let n := fld v 17 5
    let keeps (u : Nat) := ∀ x, (s.unit u).holds = some x → s.readyPieces.contains x = true
    (n = s.unitSpare → Answers (.ruEnable a) s (fun t => ∀ u, u < 17 → v.testBit u = true → keeps u →
      ((s.unit u).st = .off → (s.unit u).faulted = false → n ≠ u → (t.unit u).st = .starting) ∧
      ((s.unit u).st = .draining → (t.unit u).st = .draining ∧ (t.unit u).enPend = true))) ∧
    (n = s.unitSpare → Answers (.ruDisable a) s (fun t => ∀ u, u < 17 → v.testBit u = false → keeps u →
      ((s.unit u).st = .on → (∃ w, w < 17 ∧ w ≠ u ∧ v.testBit w = true ∧ w ∈ s.unitsUp) →
        (t.unit u).st ≠ .on ∧ t.unitEn u = false ∧ (s.readyPieces = [] → (t.unit u).st = .off)) ∧
      ((s.unit u).st = .draining → (t.unit u).st = .draining ∧ (t.unit u).enPend = false) ∧
      (s.unitsUp = [u] → (∀ w, w < 17 → v.testBit w = false) → t.unit u = s.unit u ∧ (t.reg 0x180).toNat.testBit 23 = true))) ∧
    (n ≠ s.unitSpare → Answers (.ruSpareDesignate a) s (fun t =>
      (n < 17 → (s.unit n).faulted = true → t.unitSpare = s.unitSpare ∧ (t.reg 0x180).toNat.testBit 23 = true) ∧
      (17 ≤ n ∨ (s.unit n).faulted = false → t.unitSpare = n) ∧
      (n < 17 → (s.unit n).faulted = false → (s.unit n).st = .on → (t.unit n).st ≠ .on ∧
        (s.readyPieces = [] → (t.unit n).st = .off))))) ∧
  (∀ (s : State) (u : Nat) (a : RgAcc) (priv : Bool), u < 17 → WriteMade s (0x190 + 4 * u) a priv → RgAcc.bit a 4 = true →
    (s.unit u).faulted = true → Answers (.ruFaultedClear u a) s (fun t => (t.unit u).faulted = false ∧
      (t.unit u).st = (if (s.unit u).st = .off ∧ s.unitEn u = true ∧ s.unitSpare ≠ u then .starting else (s.unit u).st))) ∧
  (∀ (s : State) (u : Nat), s.alive = true → u < 17 → (s.unit u).st = .starting →
    Answers (.ruSelfTestDone u true) s (fun t => (t.unit u).st = (if s.unitEn u then .on else .off)) ∧
    Answers (.ruSelfTestDone u false) s (fun t => (t.unit u).st = .off ∧ (t.unit u).faulted = true)) ∧
  (∀ (s : State) (u g i : Nat), s.alive = true → u < 17 → s.unitTakes u g i = true →
    Answers (.ruCombine u g i true) s (fun t => (t.unit u).st = .off ∧ (t.unit u).faulted = true) ∧
    (∀ c w, (s.reg 0x188).toNat.testBit 7 = false → (s.group g).inst = some c → c.waits[i]? = some w →
      Answers (.ruCombine u g i false) s (fun t =>
        (∃ v : State, (v.group g).inst = some (c.combine w) ∧ v.inj = s.inj ∧ t.groups = (v.collTurn g).groups ∧ t.inj = (v.collTurn g).inj) ∧
        ((s.unit u).st = .draining → (s.unit u).enPend = false → (t.unit u).st = .off)))) ∧
  (∀ (s : State) (a : RgAcc) (priv : Bool),
    (WriteMade s 0x188 a priv → RgAcc.bit a 7 = true → Answers (.ruInjArm a) s (fun t =>
      t.reg 0x188 = mergeWrite (regMask 0x188) priv (s.reg 0x188) a.data)) ∧
    (WriteMade s 0x218 a priv → RgAcc.bit a 0 = true → Answers (.pktInjArm a) s (fun t =>
      t.reg 0x218 = mergeWrite (regMask 0x218) priv (s.reg 0x218) a.data)))

/-! ## Faults (R399 to R431) -/

/-- The collector takes the oldest raise that waits: RAISES counts modulo 16, the sticky bit is set, DX_FLT_CNT of the code
counts, saturating, and in capture mode a record is written, or counted lost when 64 stand. By the source's state and the class raised (recovery mode lowers some
class-1 codes to class 0) the source recovers for a quiet period, awaits an acknowledgement, or is FATAL; a raise after eight
recoveries in an hour counts as F2. Entering F2 or F3 fences every port that is not OFF, and F3 takes the core into DIAG. A quiet period
that ends clears the source; an acknowledgement with the RAISES read clears a waiting one, any other is refused with
ACK_BAD, and in F3 it has no effect (R403, R407 to R410, R412, R415 to R417, R421, R424). -/
def Obligations.FaultsAreTakenByState : Prop :=
  (∀ (s : State) (r : Raise) (rest : List Raise), s.alive = true → s.flt.waiting = r :: rest → r.code < 128 → r.inst < 64 → r.cls < 4 →
    let x := s.source r.code r.inst
    let low := r.cls = 0 ∨ (r.cls = 1 ∧ (s.reg 0x2004).toNat.testBit 12 = true ∧ recovCode r.code = true)
    let becomes (st : SrcSt) (t : State) := (t.source r.code r.inst).st = st
    let fences (t : State) := s.fenced = false → ∀ p, p < 12 → (s.link p).st ≠ .off → (t.link p).st = .fenced
    let dies (t : State) := becomes .fatal t ∧ fences t ∧ (s.inF3 = false → t.mc.mode = .diag)
    Answers .faultTaken s (fun t => List.Sublist rest t.flt.waiting ∧ (t.source r.code r.inst).raises = (x.raises + 1) % 16 ∧
      (t.reg (0x2400 + 8 * r.code + 4 * (r.inst / 32))).toNat.testBit (r.inst % 32) = true ∧
      (t.reg (0x2200 + 4 * r.code)).toNat = min (2 ^ 32 - 1) ((s.reg (0x2200 + 4 * r.code)).toNat + 1) ∧
      (s.capturing = true → s.flt.recs < 64 → t.flt.recs = s.flt.recs + 1 ∧
        fld (t.reg (0x2800 + 32 * s.flt.recs)).toNat 0 16 = r.code + 2 ^ 8 * r.inst + 2 ^ 14 * r.cls) ∧
      (s.capturing = true → 64 ≤ s.flt.recs → t.flt.lost = min 65535 (s.flt.lost + 1)) ∧
      (low → becomes x.st t ∧ t.links = s.links) ∧
      (¬low → r.cls = 1 → x.st = .clear → x.recent r.time < 8 → becomes .recovering t ∧ (t.source r.code r.inst).quietAt = s.now) ∧
      (¬low → r.cls = 1 → x.st = .clear → 8 ≤ x.recent r.time → becomes .awaitAck t ∧ fences t) ∧
      (r.cls = 2 → x.st = .clear → becomes .awaitAck t ∧ fences t) ∧
      (¬low → r.cls ≤ 2 → x.st = .recovering → becomes .awaitAck t ∧ fences t) ∧
      (¬low → r.cls = 1 → x.st = .awaitAck → becomes .awaitAck t) ∧
      (r.cls = 2 → x.st = .awaitAck → dies t) ∧
      (r.cls = 3 → dies t))) ∧
  (∀ (s : State) (code inst : Nat), s.alive = true → inst < 64 → (s.source code inst).st = .recovering →
    (s.source code inst).quietAt + (s.source code inst).quietLen ≤ s.now →
    (∀ r ∈ s.flt.waiting, ¬(r.code = code ∧ r.inst = inst)) →
    Answers (.quietExpire code inst) s (fun t => (t.source code inst).st = .clear ∧ s.time ∈ (t.source code inst).recov)) ∧
  (∀ (s : State) (a : RgAcc), WriteMade s 0x2008 a true → RgAcc.bit a 31 = true →
    let code := fld a.data.toNat 0 8
    let inst := fld a.data.toNat 8 6
    let right := (s.source code inst).st = .awaitAck ∧ (s.source code inst).raises = fld a.data.toNat 14 4
    Answers (.fltAck a) s (fun t =>
      (s.inF3 = true → t.flt = s.flt ∧ t.rg = s.rg) ∧
      (s.inF3 = false → right → (t.source code inst).st = .clear) ∧
      (s.inF3 = false → ¬right → t.flt.src = s.flt.src ∧ t.reg 0x2008 = s.reg 0x2008 ∧ (t.reg 0x2000).toNat.testBit 5 = true)))

/-- The other rows of the collector. A checker's row raises its code at its class unless two raises of that source already
wait; a good farrier probe raises nothing. ARM takes an injection of a target that has one (a rail's is made at once) and
refuses any other; ARM 0 disarms. START_DONE ends capture of start-up; recovery mode ends 1 s after it was set; CLR
empties the capture records, in F3 too; FAULT_STATIC toggles every 512 cycles (R400, R405, R406, R420, R421, R424 to R428,
R430, R507). -/
def Obligations.CheckersAndInjections : Prop :=
  (∀ (s : State), s.alive = true →
    let raised (code inst cls : Nat) (t : State) :=
      (s.flt.waiting.filter (fun x => x.code = code ∧ x.inst = inst)).length < 2 →
        ∃ r, t.flt.waiting = insertRaise r s.flt.waiting ∧ r.code = code ∧ r.inst = inst ∧ r.cls = cls
    (∀ line, Answers (.railInvalidTimeout line) s (raised 1 0 2)) ∧
    Answers (.farrierProbe false) s (raised 2 0 3) ∧ Answers (.farrierProbe true) s (fun t => t.flt = s.flt) ∧
    (∀ a row, eccArray a = true → Answers (.scrub (.correctable a row)) s (raised (a / 64) (a % 64) 0) ∧
      Answers (.scrub (.uncorrectable a row)) s (raised (a / 64) (a % 64) (eccClass (a / 64)))) ∧
    ((s.reg 0x2004).toNat.testBit 12 = true → s.flt.recovAt + nsTicks 1000000000 ≤ s.now →
      Answers .recovExpire s (fun t => (t.reg 0x2004).toNat.testBit 12 = false)) ∧
    (s.fenced = false → s.pwr.phase = .run → s.pwr.staticAt + 512 ≤ s.now → Answers .faultStaticToggle s (fun t =>
      t.pwr.faultStatic = !s.pwr.faultStatic ∧ t.out = [.pins s.errOn (!s.errOn) (!s.pwr.faultStatic)])) ∧
    (∀ a : RgAcc, (a.who = .host → s.flt.armed = none ∧ a.par = rgParity true 0x2024 a.data) → RgAcc.bit a 7 = true →
      Answers (.crecClr a) s (fun t => t.flt.recs = 0 ∧ t.flt.lost = 0 ∧ t.flt.rseq = 0 ∧
        ∀ e ∈ t.rg, ¬(0x2800 ≤ e.1 ∧ e.1 < 0x3000)))) ∧
  (∀ (s : State) (a : RgAcc), WriteMade s 0x2020 a true → s.inF3 = false →
    let code := fld a.data.toNat 0 8
    let inst := fld a.data.toNat 8 6
    (RgAcc.bit a 15 = true → Answers (.fltInjArm a) s (fun t =>
      (injYes code = true → code ∉ [1, 2, 3] → t.flt.armed = some (code, inst, RgAcc.bit a 14) ∧ t.flt.capTest = true) ∧
      (code ∈ [1, 2, 3] → t.flt.armed = none ∧ (t.reg 0x2020).toNat.testBit 16 = true) ∧
      (injYes code = false → t.flt.armed = none ∧ (t.reg 0x2020).toNat.testBit 17 = true))) ∧
    (RgAcc.bit a 15 = false → Answers (.fltInjDisarm a) s (fun t => t.flt.armed = none))) ∧
  (∀ (s : State) (a : RgAcc) (priv : Bool), WriteMade s 0x2004 a priv → RgAcc.bit a 10 = true →
    Answers (.startDone a) s (fun t => t.flt.capStart = false ∧ t.life.rstate ≠ .open_))

/-! ## Monitors, halt, aborts (R25 to R28, R95, R435 to R460) -/

/-- A port without progress, and a virtual channel without credit, for a hang window fence the port with CAUSE 1 and set their
bit; a host bundle and a channel that stall are reported, a channel with the word of its one command in execution. HALTING that lasts too long is reported once. GO starts a halt of
the own partition in RUN, REL releases it, each refused with WR_IGN otherwise; HALTED follows once every marker has come and
gone and nothing of the partition moves (R95, R436 to R438, R454 to R459). -/
def Obligations.MonitorsAndHalts : Prop :=
  (∀ (s : State) (p : Nat), s.alive = true → p < 12 → (s.link p).st = .active → s.halt.st = .run →
    let hung (bit : Nat) (t : State) := (t.link p).st = .fenced ∧ (t.link p).cause = 1 ∧ (t.reg 0x3004).toNat.testBit bit = true
    ((s.link p).replay ≠ [] → (s.mon p).said = false → (s.mon p).at_ + s.hangTicks ≤ s.now →
      Answers (.portHang p) s (hung p)) ∧
    (∀ v t0, v < 6 → s.vcWait p v = some t0 → t0 + s.hangTicks ≤ s.now → (s.mon (16 + 8 * p + v)).said = false →
      Answers (.vcHang p v) s (fun t => hung (12 + p) t ∧ (t.mon (16 + 8 * p + v)).said = true))) ∧
  (∀ (s : State) (i : Nat), s.alive = true → i < 22 → s.hostReq i = true → (s.mon (128 + i)).pend = true →
    (s.mon (128 + i)).said = false → (s.mon (128 + i)).at_ + s.hangTicks ≤ s.now →
    Answers (.hportHang i) s (fun t => (t.reg 0x3008).toNat.testBit i = true ∧ (t.mon (128 + i)).said = true)) ∧
  (∀ (s : State) (k : Nat), s.alive = true → k < 64 → s.chanStuck k = true → Answers (.channelHang k) s (fun t =>
    (t.chan k).hang = true ∧ (∀ f, (s.chan k).flights = [f] → (t.chan k).hangCap = f.word))) ∧
  (∀ (s : State), s.alive = true → s.halt.st = .halting →
    (s.halt.said = false → s.halt.since + nsTicks (64000 * max 1 (s.rf 0x3108 0 8)) ≤ s.now →
      Answers .haltTimeout s (fun t => t.halt = { s.halt with said := true } ∧ (t.reg 0x3104).toNat.testBit 2 = true)) ∧
    (s.halt.awaited = [] → s.marksAcked = true → s.haltBusy = false →
      Answers .halted s (fun t => t.halt = { s.halt with st := .halted }))) ∧
  (∀ (s : State) (a : RgAcc), WriteMade s 0x3100 a true →
    let no (t : State) := t.halt = s.halt ∧ (t.reg 0x3100).toNat.testBit 18 = true
    (RgAcc.bit a 16 = true → RgAcc.bit a 17 = false → Answers (.haltGo a) s (fun t =>
      (s.halt.st = .run → s.ident.pkey ≠ 0 → t.halt.st = .halting ∧ t.halt.key = s.ident.pkey ∧
        t.halt.id.toNat = fld a.data.toNat 0 16 ∧ t.halt.since = s.now) ∧
      (s.halt.st ≠ .run ∨ s.ident.pkey = 0 → no t))) ∧
    (RgAcc.bit a 17 = true → RgAcc.bit a 16 = false → Answers (.haltRelease a) s (fun t =>
      (s.halt.st ≠ .run → t.halt.st = .run) ∧ (s.halt.st = .run → no t)))) ∧
  (∀ (s : State) (a : RgAcc) (priv : Bool), WriteMade s 0x3120 a priv → Answers (.snapSelect a) s (fun t =>
    t.reg 0x3120 = mergeWrite (regMask 0x3120) priv (s.reg 0x3120) a.data ∧ t.halt = s.halt))

/-- Aborts, generations and the partition fence. GO originates an abort towards the next generation, unless the block has no
partition or holds already. The step takes the waiting generation, 1 ms after the last: every RATE is 4,095 again and no
packet of the partition stands in a berth. A write of DX_PART that would change PKEY takes no effect at all while the
partition is not fenced at the block; PKEY 0xFFFF is never taken and GEN of such a write is. While the block holds for an abort
out of step, the write ends that hold and its GEN is a generation step: made at once, or 1 ms after the last, behind the steps that
wait. A pair leaves the table after 1 ms. EN of DX_PFENCE is the fence (R21, R22, R24 to R28, R279, R439 to R442). -/
def Obligations.AbortsAndGenerations : Prop :=
  (∀ (s : State) (a : RgAcc), WriteMade s 0x3010 a true → RgAcc.bit a 0 = true → Answers (.abortGo a) s (fun t =>
    (s.ident.pkey = 0 ∨ s.abortHold = true → t.abort = s.abort) ∧
    (s.ident.pkey ≠ 0 → s.abortHold = false → t.abort.steps = [⟨s.ident.gen + 1, 0, s.ident.chip, 0, false, false⟩] ∧ t.flt.recovAt = s.now))) ∧
  (∀ (s : State) (x : PendStep) (rest : List PendStep), s.alive = true → s.abort.steps = x :: rest → s.stepDue = true →
    Answers .generationStep s (fun t => t.ident = { s.ident with gen := x.gen } ∧ t.abort.steps = rest ∧ t.abort.lastStep = some s.now ∧
      (∀ k, (t.rein k).rate = 4095) ∧ ∀ h ∈ t.eject, s.ownPkt h = false)) ∧
  (∀ (s : State) (a : RgAcc), WriteMade s 0x108 a true →
    let k := fld a.data.toNat 0 16
    let own := s.ident.pkey.toNat
    let gen := fld a.data.toNat 16 8
    Answers (.genWrite a) s (fun t =>
      (k ≠ 0xFFFF → k ≠ own → s.partFenced = false → t.ident = s.ident ∧ t.abort = s.abort) ∧
      (k = 0xFFFF ∨ k = own ∨ s.partFenced = true →
        t.abort.skewHold = false ∧ t.ident.pkey.toNat = (if k = 0xFFFF then own else k) ∧
        (s.abort.skewHold = false → t.ident.gen.toNat = gen ∧ t.abort.steps = s.abort.steps) ∧
        (s.abort.skewHold = true → s.abort.steps = [] → s.stepDue = true →
          t.ident.gen.toNat = gen ∧ t.abort.steps = [] ∧ t.abort.lastStep = some s.now) ∧
        (s.abort.skewHold = true → ¬(s.abort.steps = [] ∧ s.stepDue = true) → t.ident.gen = s.ident.gen ∧
          t.abort.steps = s.abort.steps ++ [⟨BitVec.ofNat 8 gen, 0, 0, 0, false, true⟩])))) ∧
  (∀ (s : State) (a : RgAcc), WriteMade s 0x108 a false → Answers (.genWrite a) s (fun t => t.ident = s.ident ∧ t.abort = s.abort)) ∧
  (∀ (s : State) (key gen n : Nat), s.alive = true → (key, gen, n) ∈ s.abort.pairs → n + nsTicks 1000000 ≤ s.now →
    Answers (.abortPairExpire key gen) s (fun t => ∀ x, x ∈ t.abort.pairs ↔
      x ∈ s.abort.pairs ∧ ¬(x.1 = key ∧ x.2.1 = gen ∧ x.2.2 + nsTicks 1000000 ≤ s.now))) ∧
  (∀ (s : State) (a : RgAcc) (priv : Bool), WriteMade s 0x124 a priv →
    (RgAcc.bit a 0 = true → Answers (.pfenceSet a) s (fun t => t.pfence = (priv || s.pfence))) ∧
    (RgAcc.bit a 0 = false → Answers (.pfenceLift a) s (fun t => t.pfence = (!priv && s.pfence))))

/-! ## The farrier (R429, R450 to R453) -/

/-- The farrier acts for a core whose watchdog was not written for 50 ms: it aborts the partition with reason 2, and opens
the valid fenced ports 1 ms later; TAKEBACK ends that. Its commands are answered in the order unknown, foreign key, not allowed
while it watches, and then performed (R429, R451, R452). -/
def Obligations.FarrierActsAndAnswers : Prop :=
  (∀ (s : State), s.alive = true →
    Answers .mcWatchdogWrite s (fun t => t.mc.wdogAt = s.now) ∧
    (s.mc.wdogAt + nsTicks 50000000 ≤ s.now → Answers .mcWdogExpire s (fun t => t.mc.wdogAt = s.now ∧ t.far.acting = true ∧
      (s.far.acting = false → t.far.since = s.now ∧ t.far.openDone = false ∧
        (s.ident.pkey ≠ 0 → s.abortHold = false → t.abort.steps = [⟨s.ident.gen + 1, 2, s.ident.chip, 0, false, false⟩])) ∧
      (s.far.acting = true → t.far = s.far ∧ t.abort = s.abort))) ∧
    (s.far.acting = true → s.far.openDone = false → s.far.since + nsTicks 1000000 ≤ s.now →
      Answers .farrierOpenPorts s (fun t => t.far.openDone = true ∧ ∀ p ∈ s.validPorts, p ∈ t.far.opened ∧
        ((s.link p).st = .fenced → (t.link p).st = .training)))) ∧
  (∀ (s : State) (a : RgAcc), WriteMade s 0x3044 a true → RgAcc.bit a 0 = true → Answers (.farrierTakeback a) s (fun t =>
    t.far.acting = false ∧ (s.far.acting = true → t.far.opened = []) ∧ (s.far.acting = false → t.far = s.far))) ∧
  (∀ (s : State) (c : FarCmd) (rest : List FarCmd), s.alive = true → s.far.queue = c :: rest → s.farReady = true → c.src = none →
    let cmd := c.f 0 8
    let told (st : Nat) (t : State) := t.far.queue = rest ∧ t.reg 0x3060 = BitVec.ofNat 32 (st + put (c.f 8 8) 8 8)
    let ours := c.f 16 16 = s.ident.pkey.toNat
    let acts := ours ∧ s.far.acting = true
    (cmd = 0 ∨ 9 < cmd → Answers .farrierBadCmd s (told 1)) ∧
    (∀ row, (cmd, row) ∈ [(1, Instr.farrierStatus), (2, .farrierPeek), (3, .farrierAbort), (4, .farrierFence), (5, .farrierOpen),
        (6, .farrierResetMc), (7, .farrierWarmReset), (8, .farrierHalt), (9, .farrierRelease)] →
      Answers row s (fun t => (¬ours → told 2 t ∧ t.far.lastCmd = s.far.lastCmd) ∧
        (ours → 3 ≤ cmd → s.far.acting = false → told 3 t ∧ t.far.lastCmd = s.far.lastCmd) ∧
        (ours → cmd ≤ 2 ∨ s.far.acting = true → t.far.lastCmd.toNat = cmd))) ∧
    (cmd = 1 → ours → Answers .farrierStatus s (told 0)) ∧
    (cmd = 2 → ours →
      let off := fld (c.f 32 32) 2 18 * 4
      let u : State := { s with out := [], far := { s.far with queue := rest, lastCmd := 2, ncmd := min 255 (s.far.ncmd + 1) } }
      Answers .farrierPeek s (fun t => (0xF000 ≤ off → off < 0xF300 → told 3 t) ∧
        (off < 0xF000 ∨ 0xF300 ≤ off → told 0 t ∧ t.reg 0x3064 = (u.readReg off).1))) ∧
    (cmd = 3 → acts → Answers .farrierAbort s (fun t => told 0 t ∧ (s.ident.pkey ≠ 0 → s.abortHold = false →
      t.abort.steps = [⟨s.ident.gen + 1, 3, s.ident.chip, 0, false, false⟩]))) ∧
    (cmd = 4 → acts → Answers .farrierFence s (fun t => told 0 t ∧ ∀ p, p < 12 → (c.f 32 12).testBit p = true →
      (s.link p).st ≠ .off → (t.link p).st = .fenced)) ∧
    (cmd = 5 → acts → Answers .farrierOpen s (fun t => told 0 t ∧ ∀ p, p < 12 → (c.f 32 12).testBit p = true → s.portValid p = true →
      p ∈ t.far.opened ∧ ((s.link p).st = .fenced → (t.link p).st = .training))) ∧
    (cmd = 6 → acts → Answers .farrierResetMc s (fun t => told 0 t ∧ t.mc.nonce = none ∧ t.mc.outst = [] ∧ t.mc.openUntil = none ∧
      t.mc.mb.busy = none)) ∧
    (cmd = 7 → acts → Answers .farrierWarmReset s (fun t => told 0 t ∧ (s.pwr.phase = .run → s.inF3 = false →
      t.pwr.phase = .warmWait ∧ t.pwr.warmCause = 3))) ∧
    (cmd = 8 → acts → Answers .farrierHalt s (fun t => told 0 t ∧ (s.halt.st = .run → s.ident.pkey ≠ 0 →
      t.halt.st = .halting ∧ t.halt.id.toNat = c.f 32 16))) ∧
    (cmd = 9 → acts → Answers .farrierRelease s (fun t => told 0 t ∧ t.halt.st = .run)))

/-! ## The mailbox and the core (R464 to R476, R481) -/

/-- The mailbox's questions and its ways to end. INFO, DIAG and PEEK answer what they read; NONCE makes a fresh nonce (a free
value); EXPERT_ON consumes the nonce and opens expert control only for a good token; POKE is the kernel's write, and answers
BAD_ARG where the key of that write has no effect (for the keys of the partition the model's reading of R24, log 92); TIME reads,
or sets the counter at the time master under expert control; REMOTE sends the request to another chip and waits; an unknown
command, and one not served in the mode, end with their status, and a request out of time with TIMEOUT; a kernel call is
performed as in BASIC (R466, R470 to R474, R478, R481). -/
def Obligations.MailboxAnswers : Prop :=
  (∀ (s : State) (r : MbReq), MbWaits s r →
    let ws := r.words
    let q := s.asked r
    let tells (st : Nat) (l : List Word) (t : State) := MbAnswered t st ∧ t.mc.mb.rsp = rspWords st (fld (ws.headD 0).toNat 8 8) l
    (reqCmd ws = 0x01 → Answers .mbInfo s (tells 0 [q.readWord 0, q.readWord 4, q.readWord 0xF000, s.mc.fwver])) ∧
    (reqCmd ws = 0x02 → Answers .mbNonce s (fun t => MbAnswered t 0 ∧ t.free = s.free + 1 ∧ ∃ n, t.mc.nonce = some (n, s.now))) ∧
    (reqCmd ws = 0x03 → Answers .mbExpertOn s (fun t => t.mc.nonce = none ∧
      (arg ws 1 = 0 ∨ 3600 < arg ws 1 → MbAnswered t 2 ∧ t.mc.openUntil = s.mc.openUntil) ∧
      (1 ≤ arg ws 1 → arg ws 1 ≤ 3600 → q.expertOk ws = true → MbAnswered t 0 ∧ t.mc.openUntil = some (s.now + arg ws 1 * 156250000)) ∧
      (1 ≤ arg ws 1 → arg ws 1 ≤ 3600 → q.expertOk ws = false → MbAnswered t 8 ∧ t.mc.openUntil = s.mc.openUntil))) ∧
    (reqCmd ws = 0x04 → Answers .mbExpertOff s (fun t => MbAnswered t 0 ∧ t.mc.openUntil = none)) ∧
    (reqCmd ws = 0x50 → arg ws 1 ≠ 1 → Answers .mbTimeRead s (fun t => MbAnswered t (if arg ws 1 = 0 then 0 else 2) ∧ t.tod = s.tod)) ∧
    (reqCmd ws = 0x50 → arg ws 1 = 1 → Answers .mbTimeSet s (fun t =>
      (reqNw ws < 3 → MbAnswered t 2 ∧ t.tod = s.tod) ∧
      (3 ≤ reqNw ws → s.expert = false ∨ (s.reg 0xF048).toNat.testBit 1 = false → MbAnswered t 3 ∧ t.tod = s.tod) ∧
      (3 ≤ reqNw ws → s.expert = true → (s.reg 0xF048).toNat.testBit 1 = true → MbAnswered t 0 ∧
        t.tod = (arg ws 2 + arg ws 3 * 2 ^ 32) * 3125))) ∧
    (reqCmd ws = 0x60 → Answers .mbRemote s (fun t =>
      (2 ^ 18 ≤ arg ws 1 → MbAnswered t 2) ∧
      (arg ws 1 < 2 ^ 18 → t.mc.mb.busy = some { r with started := true } ∧
        ∃ o, t.mc.outst = s.mc.outst ++ [o] ∧ o.dst = arg ws 1 ∧ o.who = some .mailbox))) ∧
    (reqCmd ws = 0x70 → Answers .mbPeek s (fun t =>
      (arg ws 1 % 4 ≠ 0 ∨ arg ws 2 = 0 ∨ 60 < arg ws 2 → MbAnswered t 2) ∧
      (arg ws 1 % 4 = 0 → arg ws 2 = 1 → 0x10000 ≤ arg ws 1 → arg ws 1 < 0x100000 → tells 0 [(q.readReg (arg ws 1)).1] t))) ∧
    (reqCmd ws = 0x71 → Answers .mbPoke s (fun t =>
      (arg ws 1 % 4 ≠ 0 ∨ 0x100000 ≤ arg ws 1 ∨ (0xF000 ≤ arg ws 1 ∧ arg ws 1 < 0x10000) → MbAnswered t 2) ∧
      (arg ws 1 % 4 = 0 → arg ws 1 < 0xF000 → t = { (q.writeReg (arg ws 1) true (ws.getD 2 0)).answerAsk .mailbox
        (if q.keyIgnored (arg ws 1) (ws.getD 2 0) then 2 else 0) [] with pending := s.pending }))) ∧
    (reqCmd ws = 0x72 → Answers .mbDiag s (tells 0 ([0x2000, 0x2014, 0x2018, 0x201C, 0x2024, 0x3040].map q.readWord)))) ∧
  (∀ (s : State) (r : MbReq), s.alive = true → s.mc.mb.busy = some r → r.started = false → s.flt.armed = none →
    (mbCmd (reqCmd r.words) = none → Answers .mbBadCmd s (fun t => MbAnswered t 1)) ∧
    (∀ c, mbCmd (reqCmd r.words) = some c → c.served s.mc.mode = false →
      Answers .mbBadCmd s (fun t => MbAnswered t (if s.mc.mode = .diag then 0xA else 1)))) ∧
  (∀ (s : State) (r : MbReq), s.alive = true → s.mc.mb.busy = some r →
    r.at_ + nsTicks (1000000 * ((mbCmd (reqCmd r.words)).map (·.limit)).getD 1) ≤ s.now →
    Answers .mbTimeout s (fun t => MbAnswered t 6)) ∧
  (∀ (s : State) (ws : List Word), s.alive = true → s.fwRuns = true → Answers (.kernelCall ws) s (fun t =>
    t = { ({ s with out := [] } : State).mbPerform .call .basic s.expert ws with pending := s.pending }))

/-- Firmware and images in chunks. BEGIN opens a load of a length in range, a CHUNK that fits and overlaps none is kept, COMMIT
checks layout and signature and starts the firmware, answered by its first heartbeat in FULL mode. Ten milliseconds without
a heartbeat, and an access the firmware may not make, restart it if its code still has the digest stored at load, and else leave
BASIC mode without firmware; expert control ends with its duration; DROP discards what is staged, unless a cycle runs
(R463, R464, R466 to R469, R473, R474). -/
def Obligations.FirmwareLives : Prop :=
  (∀ (s : State) (r : MbReq), MbWaits s r →
    let ws := r.words
    (reqCmd ws = 0x10 → Answers .mbFwBegin s (fun t =>
      (arg ws 1 < 260 ∨ fwMax < arg ws 1 → MbAnswered t 2 ∧ t.mc.fwLen = s.mc.fwLen) ∧
      (260 ≤ arg ws 1 → arg ws 1 ≤ fwMax → MbAnswered t 0 ∧ t.mc.mode = .basic ∧ t.mc.fw = .loading ∧ t.mc.fwLen = arg ws 1 ∧ t.mc.fwParts = []))) ∧
    (reqCmd ws = 0x11 → Answers .mbFwChunk s (fun t =>
      (chunkOk s.mc.fwParts s.mc.fwLen ws = true → MbAnswered t 0 ∧ t.mc.fwParts = s.mc.fwParts ++ [(arg ws 1, arg ws 2)]) ∧
      (chunkOk s.mc.fwParts s.mc.fwLen ws = false → MbAnswered t 2 ∧ t.mc.fwParts = s.mc.fwParts))) ∧
    (reqCmd ws = 0x12 → Answers .mbFwCommit s (fun t =>
      let img := s.ramRead 0 s.mc.fwLen
      (s.mc.fwLen = 0 ∨ covered s.mc.fwParts s.mc.fwLen = false → MbAnswered t 2 ∧ t.mc.fw = .none ∧ t.mc.mode = .basic) ∧
      (∀ st, s.mc.fwLen ≠ 0 → covered s.mc.fwParts s.mc.fwLen = true → s.fwCheck img = some st →
        MbAnswered t st ∧ t.mc.fw = .none ∧ t.mc.mode = .basic) ∧
      (s.mc.fwLen ≠ 0 → covered s.mc.fwParts s.mc.fwLen = true → s.fwCheck img = none →
        t.mc.mb.busy = some { r with started := true } ∧ t.mc.heartAt = s.now ∧ t.mc.fc = wordAt img 16 ∧
        t.mc.digest = BitVec.ofNat 384 (sha384 ((img.drop (64 + wordAt img 12)).take (wordAt img 16)))))) ∧
    (reqCmd ws = 0x20 → Answers .mbImgBegin s (fun t =>
      (arg ws 1 < 260 ∨ 262144 < arg ws 1 → MbAnswered t 2 ∧ t.mc.imgLen = s.mc.imgLen) ∧
      (260 ≤ arg ws 1 → arg ws 1 ≤ 262144 → MbAnswered t 0 ∧ t.mc.imgLen = some (arg ws 1) ∧ t.mc.imgParts = []))) ∧
    (reqCmd ws = 0x21 → Answers .mbImgChunk s (fun t =>
      (chunkOk s.mc.imgParts (s.mc.imgLen.getD 0) ws = true → MbAnswered t 0 ∧ t.mc.imgParts = s.mc.imgParts ++ [(arg ws 1, arg ws 2)]) ∧
      (chunkOk s.mc.imgParts (s.mc.imgLen.getD 0) ws = false → MbAnswered t 2 ∧ t.mc.imgParts = s.mc.imgParts))) ∧
    (reqCmd ws = 0x23 → Answers .mbImgDrop s (fun t =>
      (s.mc.lead.isSome = true ∨ s.tbl.phase = .locked ∨ s.tbl.phase = .swapped → MbAnswered t 5 ∧ t.tbl = s.tbl) ∧
      (s.mc.lead = none → s.tbl.phase = .none ∨ s.tbl.phase = .staged → MbAnswered t 0 ∧ t.mc.part = none ∧ t.tbl = s.dropStaging.tbl)))) ∧
  (∀ (s : State), s.alive = true → s.fwRuns = true →
    let restarts (t : State) := (∀ r, s.mc.mb.busy = some r → MbAnswered t 7) ∧
      (s.codeGood = true → t.mc.fw = .restarting ∧ t.mc.mode = s.mc.mode ∧ t.mc.heartAt = s.now ∧ t.mc.restarts = min 255 (s.mc.restarts + 1)) ∧
      (s.codeGood = false → t.mc.fw = .none ∧ t.mc.mode = .basic)
    Answers .fwHeartbeat s (fun t => t.mc.mode = .full ∧ t.mc.fw = .running ∧ t.mc.heartAt = s.now ∧
      ∀ r, s.mc.mb.busy = some r → r.started = true → reqCmd r.words = 0x12 → MbAnswered t 0) ∧
    (s.mc.heartAt + nsTicks 10000000 ≤ s.now → Answers .fwWdogExpire s restarts) ∧
    (∀ x, s.fwAllowed x = false → Answers (.fwAccessViolation x) s restarts)) ∧
  (∀ (s : State) (n : Nat), s.alive = true → s.mc.openUntil = some n → n ≤ s.now →
    Answers .expertExpire s (fun t => t.mc.openUntil = none))

/-- Applying an image, and the cycles led here. An image that breaks its layout or signature ends with that check's status, one
that does not fit, and a record a rule refuses, with REFUSED. MODE 0 needs every port OFF and the harness open, and writes the
START and then the LIVE records; MODE 1 stages and seals this chip's records; MODE 2, TABLE_SWAP and TAKEOVER lead a
cycle of the domain, answered when it ends; a spare that no port leads to but a compatibility port is refused with NO_PEER. A cycle
that already runs refuses them with FABRIC_BUSY (R284, R287, R290, R448,
R473, R475, R476). -/
def Obligations.ImagesAreApplied : Prop :=
  ∀ (s : State) (r : MbReq), MbWaits s r →
    let ws := r.words
    let q := s.asked r
    let waits (t : State) (use : LeadUse) := t.mc.lead = some ⟨use, .mailbox, s.ident.gen⟩ ∧ t.mc.cycle = s.mc.cycle + 1 ∧
      t.mc.mb.busy = some { r with started := true }
    (reqCmd ws = 0x22 →
      let applies (row : Instr) := (row = .mbImgApplyStart ∧ arg ws 1 = 0) ∨ (row = .mbImgApplyStageLocal ∧ arg ws 1 = 1) ∨
        (row = .mbImgApplyStageDomain ∧ arg ws 1 = 2)
      let refuses (t : State) := MbAnswered t 4 ∧ t.tbl = s.tbl ∧ t.mc.serial = s.mc.serial
      (2 < arg ws 1 → Answers .mbImgApplyStart s (fun t => MbAnswered t 2)) ∧
      (∀ st row, applies row → q.image = .error st → Answers row s (fun t => MbAnswered t st ∧ t.tbl = s.tbl)) ∧
      (∀ m row, applies row → q.image = .ok m → q.imageFits m = false ∨ m.recs = none → Answers row s refuses) ∧
      (∀ m l row, applies row → q.image = .ok m → q.imageFits m = true → m.recs = some l →
        l.find? (fun x => !x.allowed) ≠ none → Answers row s refuses) ∧
      (∀ m l, q.image = .ok m → q.imageFits m = true → m.recs = some l → l.find? (fun x => !x.allowed) = none →
        let rs := l.zipIdx
        let busy := q.cycleBusy false = true ∨ q.stageOpen = false
        (arg ws 1 = 0 → q.startOpen = false → Answers .mbImgApplyStart s (fun t => MbAnswered t 4 ∧ t.mc.serial = s.mc.serial)) ∧
        (∀ v u, arg ws 1 = 0 → q.startOpen = true → q.writeRecs 0 rs = .ok v → v.writeRecs 2 rs = .ok u →
          Answers .mbImgApplyStart s (fun t => t = { u.imgApplied .mailbox m with pending := s.pending })) ∧
        (arg ws 1 = 1 → busy → Answers .mbImgApplyStageLocal s (fun t => MbAnswered t 5 ∧ t.tbl = s.tbl)) ∧
        (arg ws 1 = 1 → ¬busy → (∀ x ∈ l, x.cls ≠ 2) →
          let staged := (l.filter (fun x => decide (x.cls = 1) && x.isFor s.own)).foldl Tables.stageRec s.tbl
          ({ q with tbl := staged } : State).stagingOk = true →
          Answers .mbImgApplyStageLocal s (fun t => MbAnswered t 0 ∧ t.mc.serial = some m.serial ∧
            t.tbl = { staged with other := .ready, phase := .staged })) ∧
        (arg ws 1 = 2 → busy → Answers .mbImgApplyStageDomain s (fun t => MbAnswered t 5 ∧ t.tbl = s.tbl)) ∧
        (arg ws 1 = 2 → ¬busy → q.ownKids q.own s.ident.pkey.toNat ≠ [] →
          Answers .mbImgApplyStageDomain s (fun t => waits t (.apply m.serial))))) ∧
    (reqCmd ws = 0x24 →
      (q.cycleBusy true = true → Answers .mbTableSwap s (fun t => MbAnswered t 5 ∧ t.tbl = s.tbl)) ∧
      (q.cycleBusy true = false → q.ownKids q.own s.ident.pkey.toNat ≠ [] → Answers .mbTableSwap s (fun t => waits t .swap))) ∧
    (reqCmd ws = 0x30 →
      let failed := arg ws 1
      let spare := arg ws 2
      let good := failed < 2 ^ 18 ∧ spare < 2 ^ 18 ∧ failed ≠ spare ∧ arg ws 3 ≤ 1
      (¬good → Answers .mbTakeover s (fun t => MbAnswered t 2)) ∧
      (good → q.cycleBusy false = true ∨ q.stageOpen = false → Answers .mbTakeover s (fun t => MbAnswered t 5)) ∧
      (∀ rs, good → q.cycleBusy false = false → q.stageOpen = true → q.takeoverRecs = .ok rs →
        q.resolve s.tbl.cur spare = none ∨ q.rankReach spare 5 0xC1 = false → Answers .mbTakeover s (fun t => MbAnswered t 9)) ∧
      (∀ rs pos, good → q.cycleBusy false = false → q.stageOpen = true → q.takeoverRecs = .ok rs → q.resolve s.tbl.cur spare = some pos →
        q.rankReach spare 5 0xC1 = true → Answers .mbTakeover s (fun t => t.flt.recovAt = s.now ∧
          waits t (.takeover (BitVec.ofNat 18 failed) (BitVec.ofNat 18 spare) ((arg ws 3).testBit 0)))))

/-- The requests that act as registers do: ABORT, HALT and RELEASE, FLT_ACK, the EN of a port, towpath entry or unit, FENCE,
START_DONE, and an I²C transaction, which the mailbox awaits (R363, R364, R439, R454, R459, R473). -/
def Obligations.MailboxActsAsRegisters : Prop :=
  ∀ (s : State) (r : MbReq), MbWaits s r →
    let ws := r.words
    let q := s.asked r
    let told (u : State) (off : Nat) (t : State) := t = { u.answerAsk .mailbox 0 [u.readWord off] with pending := s.pending }
    (reqCmd ws = 0x31 → Answers .mbAbort s (fun t => MbAnswered t 0 ∧ (s.ident.pkey ≠ 0 → s.abortHold = false →
      t.abort.steps = [⟨s.ident.gen + 1, 0, s.ident.chip, 0, false, false⟩] ∧ t.mc.mb.rsp.getD 1 0 = BitVec.ofNat 32 (s.ident.gen + 1).toNat))) ∧
    (reqCmd ws = 0x32 → Answers .mbHalt s (fun t => (2 ^ 16 ≤ arg ws 1 → MbAnswered t 2 ∧ t.halt = s.halt) ∧
      (arg ws 1 < 2 ^ 16 → MbAnswered t 0 ∧ (s.halt.st = .run → s.ident.pkey ≠ 0 → t.halt.st = .halting ∧ t.halt.id.toNat = arg ws 1)))) ∧
    (reqCmd ws = 0x33 → Answers .mbRelease s (fun t => MbAnswered t 0 ∧ t.halt.st = .run)) ∧
    (reqCmd ws = 0x34 → Answers .mbFltAck s (fun t =>
      ((arg ws 1).testBit 31 = false ∨ fld (arg ws 1) 18 13 ≠ 0 → MbAnswered t 2 ∧ t.flt = s.flt) ∧
      ((arg ws 1).testBit 31 = true → fld (arg ws 1) 18 13 = 0 → MbAnswered t 0 ∧
        (s.inF3 = false → (s.source (fld (arg ws 1) 0 8) (fld (arg ws 1) 8 6)).st = .awaitAck →
          (s.source (fld (arg ws 1) 0 8) (fld (arg ws 1) 8 6)).raises = fld (arg ws 1) 14 4 →
          (t.source (fld (arg ws 1) 0 8) (fld (arg ws 1) 8 6)).st = .clear)))) ∧
    (reqCmd ws = 0x35 →
      let i := arg ws 2
      let en := (arg ws 3).testBit 0
      (1 < arg ws 3 → Answers .mbEnable s (fun t => MbAnswered t 2)) ∧
      (arg ws 3 ≤ 1 → arg ws 1 = 0 → i < 12 → Answers .mbEnable s
        (told (q.wrLnkCtl i true (forceBit (q.readWord (0x800 + 0x40 * i)) 0 en)) (0x804 + 0x40 * i))) ∧
      (arg ws 3 ≤ 1 → arg ws 1 = 1 → i < 128 → Answers .mbEnable s (told (q.wrTowEn i true (BitVec.ofNat 32 (b2n en))) (0xB01C + 32 * i))) ∧
      (arg ws 3 ≤ 1 → arg ws 1 = 2 → i < 17 → Answers .mbEnable s
        (told (q.wrRuCtl true (forceBit (q.readWord 0x180 &&& 0x7FFFFF) i en)) (0x190 + 4 * i)))) ∧
    (reqCmd ws = 0x36 →
      let two := if 2 ≤ reqNw ws then arg ws 2 else 0
      (2 ^ 12 ≤ arg ws 1 ∨ 3 ≤ two → Answers .mbFence s (fun t => MbAnswered t 2 ∧ t.links = s.links)) ∧
      (arg ws 1 < 2 ^ 12 → two = 0 → Answers .mbFence s (told (q.wrFence true (ws.getD 1 0)) 0x124)) ∧
      (arg ws 1 < 2 ^ 12 → two = 1 ∨ two = 2 → Answers .mbFence s
        (told ((q.wrFence true (ws.getD 1 0)).wrPfence true (if two = 1 then 1 else 0)) 0x124))) ∧
    (reqCmd ws = 0x37 → Answers .mbStartDone s (fun t => MbAnswered t 0 ∧ t.flt.capStart = false)) ∧
    (reqCmd ws = 0x40 → s.i2cBusy (fld (arg ws 1) 0 3) = none →
      let c := fld (arg ws 1) 0 3
      let op := fld (arg ws 1) 8 2
      let n := fld (arg ws 2) 8 7 + 1
      let good := arg ws 1 &&& 0x7F0307 = arg ws 1 ∧ arg ws 2 &&& 0x37FFF = arg ws 2 ∧ op ≠ 3 ∧ (op = 0 → 2 + (n + 3) / 4 ≤ reqNw ws)
      Answers .mbI2c s (fun t => (¬good → MbAnswered t 2 ∧ t.i2cBusy c = none) ∧
        (good → (s.reg (i2cReg c 0)).toNat.testBit 0 = true →
          t.i2cBusy c = some ⟨op, fld (arg ws 1) 16 7, arg ws 2 % 256, n, some .mailbox⟩ ∧ t.mc.mb.busy = some { r with started := true }) ∧
        (good → (s.reg (i2cReg c 0)).toNat.testBit 0 = false → MbAnswered t 0)))

/-! ## Registers, records and observation (R87 to R90, R99, R143, R393 to R396, R465, R481, R495 to R507) -/

/-- What a channel's issuing command sends when it has room, a slot of the round and a first hop, no collective of the channel
running and no RA access waiting: the request of an ATOM, of a SIGNAL or of LOADS MEM; the read
request of a GET and the relay request of a COPY between other chips; the data packet of a fragment whose source has been
read, on a towpath or by the route drawn for it. The packet enters the injection point and its fragment holds a slot. A transfer that sends its own data starts the read
of its next fragment's source. The first completion record owed is written at BASE + 64 × (PROD mod N) through the block's
own windows; where they do not allow it, PROD moves on and nothing is written (R20, R62, R63, R67, R69, R83, R88, R89, R96, R97, R99). -/
def Obligations.FragmentsAndRecordsAreIssued : Prop :=
  (∀ (s : State) (k : Nat) (f : Flight), s.alive = true → k < 64 → (∀ e ∈ s.groups, ∀ c, e.2.inst = some c → c.chan ≠ k) →
    (∀ p, p < 4 → (s.raPort p).heldAcc = []) → s.mayForm = true →
    (s.chan k).flights.find? (fun f => (f.cursor.isSome || f.ahead.isSome) && decide (opOf f.word ≠ opColl)) = some f →
    let x := s.xferOf f
    let w := f.word
    let sent (op chip : Nat) (t : State) := ∃ h y, t.inj = s.inj ++ [h] ∧ h.pkt.opcode = op ∧ h.pkt.chan = k ∧
      h.pkt.dst = chip % 2 ^ 18 ∧ (t.chan k).slots = (s.chan k).slots ++ [y] ∧ y.ord = f.ord ∧ y.ftag = h.pkt.ftag
    let goes (idx op chip : Nat) := s.room k idx false = true ∧ s.turn k = true ∧ s.canLeave chip 1 op idx = true
    (opOf w = opAtom → goes 0 0x06 (chipOf (cq w 1)) → Answers (.fragmentIssue k) s (sent 0x06 (chipOf (cq w 1)))) ∧
    (opOf w = opSignal → (s.chan k).ordWait f = false → goes 0 0x07 (cf w 1 0 18) →
      Answers (.fragmentIssue k) s (sent 0x07 (cf w 1 0 18))) ∧
    (opOf w = opLoads → goes 0 0x02 (chipOf (cq w 2)) → Answers (.fragmentIssue k) s (sent 0x02 (chipOf (cq w 2)))) ∧
    (opOf w ∈ [opPut, opGet, opCopy] →
      (∀ c fr rest, f.ahead = none → f.cursor = some c → x.next c = some (fr, rest) →
        (s.wayOf w = .fetch → goes fr.idx 0x02 (chipOf (cq w 1)) → Answers (.fragmentIssue k) s (sent 0x02 (chipOf (cq w 1)))) ∧
        (s.wayOf w = .relay → goes fr.idx 0x03 (chipOf (cq w 1)) → Answers (.fragmentIssue k) s (sent 0x03 (chipOf (cq w 1))))) ∧
      (∀ a d p rm vc inter tow, f.ahead = some a → a.data = some (d, p) →
        (s.modeOf f (chipOf (cq w 2)) a.frag.len (x.destBytes + (if x.toMx then x.scales else 0))).1 = (rm, vc, inter, tow) →
        s.room k a.frag.idx tow.isSome = true → s.turn k = true → s.mayOriginate = true →
        tow.isSome = true ∨ s.canLeave (if rm = 1 then inter else chipOf (cq w 2)) vc 0x01 a.frag.idx = true →
        Answers (.fragmentIssue k) s (sent 0x01 (chipOf (cq w 2)))) ∧
      (∀ c fr rest, f.ahead = none → f.cursor = some c → s.wayOf w = .send → x.next c = some (fr, rest) → s.mayOriginate = true →
        s.checkRanges .rd (x.reads fr c.run c.off) = none → Answers (.fragmentIssue k) s (fun t =>
          t.inj = s.inj ∧ ∃ j, t.eng.reads = s.eng.reads ++ [j] ∧ j.use = .frag k f.ord ∧ j.live = true)))) ∧
  (∀ (s : State) (k : Nat) (o : Owed) (rest : List Owed), s.alive = true → k < 64 → s.recordReady k = true →
    (s.chan k).owed = o :: rest →
    let off := s.ringBase k + 64 * ((s.chan k).prod.toNat % s.ringSize k)
    Answers (.completionRecordWrite k) s (fun t =>
      (s.checkRanges .wr [(off, 64)] = none → (t.chan k).owed = { o with writing := true } :: rest ∧
        ∃ j, t.eng.writes = s.eng.writes ++ [j] ∧ j.use = .record k o.ord ∧ j.keys = [off / 64]) ∧
      (s.checkRanges .wr [(off, 64)] ≠ none → (t.chan k).prod = (s.chan k).prod + 1 ∧ t.eng = s.eng)))

/-- RG accesses. A host write with bad parity is not made, is answered PARITY and counted; in reset and self-check the answer
is RESET and nothing changes. A made write of a register word without behaviour of its own (DX_XFER_CFG, DX_LOCK_CFG,
DX_HANG_WIN) stores it under its masks, and no other word changes; in F3 it is answered and not made. A read of a tally's low
word latches the high one, which the next read returns; a read of the first word of a channel's counters latches the set
(R10, R143, R393, R394, R417, R465, R495, R534). -/
def Obligations.RegisterAccessesAnswer : Prop :=
  (∀ (s : State) (off : Nat) (a : RgAcc), off % 4 = 0 → off < 0x100000 → a.who = .host →
    (s.alive = true → s.flt.armed = none → a.par ≠ rgParity true off a.data → Answers (.registerWrite off a) s (fun t =>
      t.out = [.rgAnswer 0 1] ∧ (t.reg 0xF08).toNat.testBit 0 = true ∧ (∀ o, o ≠ 0xF08 → t.reg o = s.reg o) ∧
      t = { s with out := t.out, rg := t.rg, flt := t.flt })) ∧
    (s.alive = false → s.pwr.phase ≠ .off → Answers (.registerWrite off a) s (fun t => t = { s with out := [.rgAnswer 0 2] }))) ∧
  (∀ (s : State) (off : Nat) (a : RgAcc) (p : Bool), off ∈ [0x140, 0x320, 0x3000] → WriteMade s off a p →
    Answers (.registerWrite off a) s (fun t => t.reg off = mergeWrite (regMask off) p (s.reg off) a.data ∧
      (∀ o, o ≠ off → t.reg o = s.reg o) ∧ t = { s with out := t.out, rg := t.rg })) ∧
  (∀ (s : State) (off : Nat) (a : RgAcc), off ∈ [0x140, 0x320, 0x3000] → s.alive = true → s.flt.armed = none → a.who = .host →
    a.par = rgParity true off a.data → s.inF3 = true →
    Answers (.registerWrite off a) s (fun t => t.out = [.rgAnswer 0 0] ∧ ∀ o, t.reg o = s.reg o)) ∧
  (∀ (s : State) (n : Nat), n < 8192 → s.alive = true → s.flt.armed = none →
    Answers (.latchedRead (0x10000 + 8 * n) (rgParity false (0x10000 + 8 * n) 0)) s (fun t =>
      t.out = [.rgAnswer ((s.tallyOf n).setWidth 32) 0] ∧
      (t.shadow (0x10004 + 8 * n)).toNat = (s.tallyOf n).toNat / 2 ^ 32 ∧ t = { s with out := t.out, rshadow := t.rshadow }) ∧
    Answers (.latchedRead (0x10004 + 8 * n) (rgParity false (0x10004 + 8 * n) 0)) s (fun t =>
      t.out = [.rgAnswer (s.shadow (0x10004 + 8 * n)) 0])) ∧
  (∀ (s : State) (k : Nat) (snap : Bool), k < 64 → s.alive = true → s.flt.armed = none →
    let b := 0x31000 + 0x40 * k + (if snap then 0x20 else 0)
    let c := if snap then (s.cmdCnt k).snap else (s.cmdCnt k).live
    Answers (.ccntLatch k snap (rgParity false b 0)) s (fun t =>
      t.out = [.rgAnswer (BitVec.ofNat 32 (c.word 0)) 0] ∧ ∀ i, i < 8 → t.shadow (b + 4 * i) = BitVec.ofNat 32 (c.word i)))

/-- The life of a logbook. EN written 1 takes it from OFF to STARTING with an empty SRAM and sequence and producer at 0, or is
held while it drains; STARTING enters ON; EN written 0 takes a FLIGHT or stopped logbook OFF, lets one in STREAM drain, and
ends a held enable. FLUSH and the wait of 4 µs write a single record, two records go as one granule, and a drain whose ring
stays full for a hang window loses what it holds. An answer on LB ends the oldest LB write: with status 0 its logbook's producer
moves on, and a draining logbook that holds nothing is OFF; with another the logbook is stopped and DX_LB_STAT.ERR stands.
DX_LOGWIN_SEL shows the record it selects, and a congestion interval that ends leaves the map empty (R395, R497 to R504). -/
def Obligations.LogbooksLive : Prop :=
  (∀ (s : State) (n : Nat) (a : RgAcc) (p : Bool), n < 4 → WriteMade s (logReg n 0) a p →
    let l := s.log n
    (RgAcc.bit a 2 = false → RgAcc.bit a 0 = true → Answers (.logEnable n a) s (fun t =>
      (l.st = .off → (t.log n).st = .starting ∧ (t.log n).recs = [] ∧ (t.log n).rseq = 0 ∧ (t.log n).prod = 0 ∧
        (t.log n).stopped = false ∧ (t.log n).frozen = false) ∧
      (l.st = .draining → t.log n = { l with enPend := true }) ∧
      (l.st = .on ∨ l.st = .starting → t.log n = l))) ∧
    (RgAcc.bit a 2 = false → RgAcc.bit a 0 = false → l.enPend = false → Answers (.logDisable n a) s (fun t =>
      (l.st = .on → s.flight n = true → (t.log n).st = .off) ∧
      (l.st = .on → s.flight n = false → l.stopped = true → (t.log n).st = .off ∧ (t.log n).recs = []) ∧
      (l.st = .on → s.flight n = false → l.stopped = false → ¬(l.recs = [] ∧ l.sent = []) →
        (t.log n).st = .draining ∧ (t.log n).recs = l.recs) ∧
      (l.st = .on → s.flight n = false → l.recs = [] → l.sent = [] → (t.log n).st = .off) ∧
      (l.st = .starting → (t.log n).st = .off) ∧ (l.st = .off → t.log n = l))) ∧
    (RgAcc.bit a 0 = false → RgAcc.bit a 2 = false → l.st = .draining → Answers (.logDisable n a) s (fun t =>
      t.log n = { l with enPend := false })) ∧
    (∀ x, RgAcc.bit a 0 = true → RgAcc.bit a 2 = true → s.flt.armed = none → l.st = .on → s.logCan n 1 = true → l.recs = [x] →
      Answers (.logFlush n a) s (fun t => (t.log n).recs = [] ∧ (t.log n).sent = l.sent ++ [1] ∧ t.lbOut = s.lbOut ++ [n]))) ∧
  (∀ (s : State) (n : Nat), s.alive = true → n < 4 →
    let l := s.log n
    (l.st = .starting → Answers (.logStarted n) s (fun t => t.log n = { l with st := .on })) ∧
    (s.logCan n 2 = true → s.flt.armed = none → Answers (.logDrainWrite n) s (fun t => (t.log n).recs = l.recs.drop 2 ∧
      (t.log n).sent = l.sent ++ [2] ∧ t.lbOut = s.lbOut ++ [n] ∧
      ∃ d : BitVec 512, t.out = [.lbWrite (l.base + 64 * ((l.prod.toNat + l.sent.length) % 2 ^ l.ring)) d (granCrc d.toNat)])) ∧
    (∀ x, l.recs = [x] → s.logCan n 1 = true → s.flt.armed = none → l.singleAt + nsTicks 4000 ≤ s.now →
      Answers (.logPadTimeout n) s (fun t => (t.log n).recs = [] ∧ (t.log n).sent = l.sent ++ [1] ∧ t.lbOut = s.lbOut ++ [n])) ∧
    (l.st = .draining → s.logRoom n = false → l.fullAt + s.hangTicks ≤ s.now → l.enPend = false →
      Answers (.logDrainTimeout n) s (fun t => (t.log n).st = .off ∧ (t.log n).recs = [] ∧
        (t.reg (logReg n 0x24)).toNat = min (2 ^ 32 - 1) ((s.reg (logReg n 0x24)).toNat + l.recs.length)))) ∧
  (∀ (s : State) (n sts : Nat) (rest : List Nat), s.alive = true → n < 4 → s.lbOut = n :: rest →
    let l := s.log n
    Answers (.lbWriteResponse sts) s (fun t => t.lbOut = rest ∧
      (sts % 4 = 0 → l.st = .on → t.log n = { l with sent := l.sent.drop 1, prod := l.prod + 1 }) ∧
      (sts % 4 = 0 → l.st = .draining → l.stopped = false → l.recs = [] → l.sent.length ≤ 1 → l.enPend = false →
        (t.log n).st = .off ∧ (t.log n).prod = l.prod + 1) ∧
      (sts % 4 ≠ 0 → (t.reg 0xF0C).toNat.testBit 16 = true ∧
        (l.st = .on → (t.log n).stopped = true ∧ (t.log n).prod = l.prod)))) ∧
  (∀ (s : State) (a : RgAcc) (p : Bool), WriteMade s 0x32200 a p →
    let r := ((s.log (fld a.data.toNat 0 2)).recs.getD (fld a.data.toNat 2 11) ⟨0, 0, 0, 0⟩).bits
    Answers (.logwinSelect a) s (fun t => ∀ i, i < 8 → t.reg (0x32220 + 4 * i) = BitVec.ofNat 32 (r / 2 ^ (32 * i)))) ∧
  (∀ (s : State), s.alive = true → (s.reg 0x32040).toNat.testBit 0 = true → s.tod % s.cmapLen < 80016 →
    Answers .cmapInterval s (fun t => t.cmap = [] ∧ t.links = s.links))

/-- Gait and life. An interval of 1 ms gives DX_GAIT its mean and the latest microsecond, moves the extremes and the second's
lowest mean, and counts a mean below 950; a second adds one to the seconds of operation, saturating. SNAP copies the live
record with its CRC; OPEN opens restoration once, during start-up; COMMIT refuses a body that fails its checks and adds a good
one to the counts since cold reset (R496, R505 to R507). -/
def Obligations.GaitAndLifeAreKept : Prop :=
  (∀ (s : State) (mean inst : Nat), s.alive = true →
    let m := min mean 65535
    Answers (.gaitInterval mean inst) s (fun t =>
      (t.reg 0x32000).toNat = m + 2 ^ 16 * min inst 65535 ∧
      (t.reg 0x32004).toNat = min m (s.rf 0x32004 0 16) + 2 ^ 16 * max m (s.rf 0x32004 16 16) ∧
      t.reg 0x32008 = (if m < 950 then (s.incReg 0x32008).reg 0x32008 else s.reg 0x32008) ∧
      t.life.secLow = some (match s.life.secLow with | some x => min x m | none => m))) ∧
  (∀ (s : State), s.alive = true → Answers .lifeSecond s (fun t => t.life.secLow = none ∧
    (t.lifeWord 8).toNat + 2 ^ 32 * (t.lifeWord 0xC).toNat =
      min (2 ^ 64 - 1) ((s.lifeWord 8).toNat + 2 ^ 32 * (s.lifeWord 0xC).toNat + 1))) ∧
  (∀ (s : State) (a : RgAcc) (p : Bool), WriteMade s 0x34000 a p →
    (RgAcc.bit a 0 = true → RgAcc.bit a 1 = false → RgAcc.bit a 2 = false → Answers (.lifeSnap a) s (fun t =>
      (∀ o ∈ lifeOffs, SMap.get (fun _ => (0 : Word)) t.life.snap o = s.lifeBody o) ∧ t.life.crc = lifeCrc s.lifeBody ∧
      t.life.live = s.life.live)) ∧
    (RgAcc.bit a 0 = false → RgAcc.bit a 1 = true → RgAcc.bit a 2 = false → Answers (.lifeOpen a) s (fun t =>
      (s.flt.capStart = true → s.life.rstate = .none → t.life = { s.life with rstate := .open_, body := s.life.snap }) ∧
      (s.flt.capStart = false ∨ s.life.rstate ≠ .none → t.life = s.life))) ∧
    (RgAcc.bit a 0 = false → RgAcc.bit a 1 = false → RgAcc.bit a 2 = true → Answers (.lifeCommit a) s (fun t =>
      let bad := s.life.crc ≠ lifeCrc s.lifeNew ∨ s.lifeNew 0 ≠ 1 ∨ (s.lifeNew 4).toNat / 2 ^ 12 ≠ 0x7E13D
      (s.life.rstate ≠ .open_ → t.life = s.life) ∧
      (s.life.rstate = .open_ → bad → t.life = { s.life with rstate := .refused, body := [] }) ∧
      (s.life.rstate = .open_ → ¬bad → t.life.rstate = .restored ∧ ∀ i, 6 ≤ i → i < 160 →
        (t.lifeWord (4 * i)).toNat = min (2 ^ 32 - 1) ((s.lifeWord (4 * i)).toNat + (s.lifeNew (4 * i)).toNat)))))

/-! ## Windows, transfers of nothing, reset and invariants (R22, R34, R35, R66, R141, R525, R533, R537, R538) -/

/-- The enabled window of the lowest number that holds the page of an offset decides. Its host address is HOST + (o − BASE)
and its port the j-th lowest set bit of HM_MASK, with j = ⌊(o − BASE) / 2^(8+ILV)⌋ mod m, m the ports in HM_MASK (R34, R35). -/
def Obligations.WindowsPlaceAccesses : Prop :=
  ∀ (s : State) (o k : Nat),
    let page := o / 4096 * 4096
    let holds (j : Nat) := (s.window j).2.2.2.testBit 0 = true ∧ (s.window j).1 ≤ page ∧ page < (s.window j).1 + 2 ^ (s.window j).2.1
    let bits (mask n : Nat) := ((List.range n).filter (fun i => mask.testBit i)).length
    (s.windowOf o = some k ↔ k < 16 ∧ holds k ∧ ∀ j, j < k → ¬ holds j) ∧
    (s.windowOf o = none ↔ ∀ j, j < 16 → ¬ holds j) ∧
    (let base := (s.window k).1
     let mask := fld (s.window k).2.2.2 8 16
     let g := 2 ^ (8 + fld (s.window k).2.2.2 4 4)
     mask ≠ 0 → base ≤ o → (s.place k o).1 = (s.window k).2.2.1 + (o - base) ∧ mask.testBit (s.place k o).2 = true ∧
       bits mask (s.place k o).2 = (o - base) / g % bits mask 16)

/-- A transfer whose LEN is 0, given directly or by a scalar, completes at once with OK, moves nothing and changes no tally; one
whose scalar holds 2^40 or more completes with BAD_FIELD and stops the channel (R66). -/
def Obligations.TransfersOfNothingComplete : Prop :=
  ∀ (s : State) (k : Nat) (w : CmdWord), StartsAlone s k w → s.goodXfer w = true →
    let len := if (cq w 3).testBit 48 then (s.scalar k (cf w 3 49 3)).toNat else cf w 3 0 40
    let still (t : State) := (t.chan k).flights = [] ∧ t.tally = s.tally ∧ t.eng = s.eng ∧ t.hm = s.hm ∧ t.inj = s.inj
    let ends (t : State) := (len = 0 → (t.chan k).lastStatus = 0 ∧ still t) ∧
      (2 ^ 40 ≤ len → (t.chan k).lastStatus = 0x08 ∧ (t.chan k).stop = .always ∧ still t)
    (opOf w = opPut → Answers (.put k) s ends) ∧ (opOf w = opGet → Answers (.get k) s ends) ∧
    (opOf w = opCopy → Answers (.copy k) s ends)

/-- What reset leaves, as a read on RG returns it and as the state holds it: identity, configuration at its reset values,
units 0 to 15 ON and unit 16 on standby, every channel, link, team, towpath and logbook OFF, tallies and scalars zero, expert
control closed, the farrier WATCHING, no halt, GEN and the time of day 0, nothing waiting. The reset state is the end of a
power-up self-check (the model's choice, log 5). -/
def Obligations.ResetLeavesTheseValues : Prop :=
  (∀ e ∈ identityRegs ++ resetRegs, (State.reset.readReg e.1).1 = e.2) ∧
  (∀ k, (State.reset.chan k).st = .off ∧ (State.reset.link k).st = .off ∧ (State.reset.team k).st = .off ∧
    (State.reset.tow k).st = .off ∧ (State.reset.log k).st = .off ∧ State.reset.tallyOf k = 0 ∧
    (∀ i, State.reset.scalar k i = 0) ∧ (State.reset.watchOf k).armed = false) ∧
  State.reset.pending = [] ∧ State.reset.pwr.phase = .run ∧ State.reset.mc.mode = .basic ∧ State.reset.expert = false ∧
  State.reset.far.acting = false ∧ State.reset.halt.st = .run ∧ State.reset.ident.gen = 0 ∧ State.reset.tod = 0 ∧
  State.reset.flt.waiting = [] ∧ State.reset.fenced = false ∧ State.reset.KeyAndTallies ∧ State.reset.Identity

/-- Every step keeps the identity registers: DX_ID, DX_FEATURE and DX_SIZE0 to DX_SIZE4 read the same values after it, in
every state and through every reset, in F3 too (R537). -/
def Obligations.IdentityNeverChanges : Prop :=
  ∀ s t : State, s.Identity → step s = .next t → t.Identity

/-- Every step keeps two invariants: PKEY is not 0xFFFF, whoever writes it, and the tallies stand in their one canonical form,
rising and without an entry of zero (R22; the form is the model's own, log 29). -/
def Obligations.KeyAndTallyFormAreKept : Prop :=
  ∀ s t : State, s.KeyAndTallies → step s = .next t → t.KeyAndTallies

/-! ## What commands leave -/

/-- A command of the channels, tallies, watches, the atomic cache, the host-facing ports or of a packet at its receiver
changes no part of the state but those named for it. One that starts on a channel leaves every other channel and its scalars,
and, with no injection armed, every stored register but the logbooks' counts of lost records; arming or disarming a watch
leaves every other watch. -/
def Obligations.ChannelCommandsFrame : Prop :=
  (∀ (c : Instr) (s t : State), exec c s = .next t → t = restChannels c s t) ∧
  (∀ (k : Nat) (c : Instr) (s t : State), c ∈ [.nop k, .mark k, .loadsImm k, .loadsTally k, .loadsAdd k, .fence k, .waitCmd k,
      .trace k, .badOp k, .repeatLoop k, .endLoop k, .branch k, .put k, .get k, .copy k] → exec c s = .next t →
    (∀ j, j ≠ k → t.chan j = s.chan j ∧ ∀ i, i < 8 → t.scalar j i = s.scalar j i) ∧
    (s.flt.armed = none → ∀ o, (∀ n, n < 4 → o ≠ logReg n 0x24) → t.reg o = s.reg o)) ∧
  (∀ (w : Nat) (a : RgAcc) (c : Instr) (s t : State), c = .watchArm w a ∨ c = .watchDisarm w a → exec c s = .next t →
    ∀ v, v ≠ w → t.watchOf v = s.watchOf v)

/-- A command of hops, reins, towpaths, links, teams, I²C or reduction units changes no part of the state but those named for
it. -/
def Obligations.FabricCommandsFrame : Prop :=
  ∀ (c : Instr) (s t : State), exec c s = .next t → t = restFabric c s t

/-- A command of faults, fences, aborts, generations, the farrier, halts or observation changes no part of the state but
those named for it. -/
def Obligations.FaultCommandsFrame : Prop :=
  ∀ (c : Instr) (s t : State), exec c s = .next t → t = restFaults c s t

/-- A command of the management core, lock cycles, the mailbox, time or plain registers changes no part of the state but those
named for it. -/
def Obligations.CoreCommandsFrame : Prop :=
  ∀ (c : Instr) (s t : State), exec c s = .next t → t = restCore c s t
end

