-- ==== Sys2Proof/Laws/State.lean ====
section
/-! SUPPORT. What the named updates of the state leave: one theorem per update, with one equation per field it does
not write, each used by the simplifier as a rule of its own. -/

namespace Sys2Proof.Machine

@[simp] theorem State.setChan_frame (s : State) (k : Nat) (c : Chan) :
    (s.setChan k c).pending = s.pending ∧ (s.setChan k c).out = s.out ∧ (s.setChan k c).free = s.free ∧ (s.setChan k c).now = s.now
    ∧ (s.setChan k c).tod = s.tod ∧ (s.setChan k c).ident = s.ident ∧ (s.setChan k c).pfence = s.pfence ∧ (s.setChan k c).rg = s.rg
    ∧ (s.setChan k c).wshadow = s.wshadow ∧ (s.setChan k c).rshadow = s.rshadow ∧ (s.setChan k c).cpHeld = s.cpHeld ∧ (s.setChan k c).scal = s.scal
    ∧ (s.setChan k c).tally = s.tally ∧ (s.setChan k c).watch = s.watch ∧ (s.setChan k c).atc = s.atc ∧ (s.setChan k c).eng = s.eng
    ∧ (s.setChan k c).hm = s.hm ∧ (s.setChan k c).ra = s.ra ∧ (s.setChan k c).streams = s.streams ∧ (s.setChan k c).ev = s.ev
    ∧ (s.setChan k c).inj = s.inj ∧ (s.setChan k c).pseq = s.pseq ∧ (s.setChan k c).eject = s.eject ∧ (s.setChan k c).tbl = s.tbl
    ∧ (s.setChan k c).tows = s.tows ∧ (s.setChan k c).reins = s.reins ∧ (s.setChan k c).draws = s.draws ∧ (s.setChan k c).counts = s.counts
    ∧ (s.setChan k c).links = s.links ∧ (s.setChan k c).flt = s.flt ∧ (s.setChan k c).ccnt = s.ccnt ∧ (s.setChan k c).logs = s.logs
    ∧ (s.setChan k c).lbOut = s.lbOut ∧ (s.setChan k c).groups = s.groups ∧ (s.setChan k c).rus = s.rus ∧ (s.setChan k c).teams = s.teams
    ∧ (s.setChan k c).i2c = s.i2c ∧ (s.setChan k c).abort = s.abort ∧ (s.setChan k c).halt = s.halt ∧ (s.setChan k c).far = s.far
    ∧ (s.setChan k c).mons = s.mons ∧ (s.setChan k c).mc = s.mc ∧ (s.setChan k c).ts = s.ts ∧ (s.setChan k c).life = s.life
    ∧ (s.setChan k c).cmap = s.cmap ∧ (s.setChan k c).pwr = s.pwr ∧ (s.setChan k c).rrUsed = s.rrUsed ∧ (s.setChan k c).ruGone = s.ruGone
    ∧ (s.setChan k c).berths = s.berths ∧ (s.setChan k c).phys = s.phys := by
  refine ⟨rfl, rfl, rfl, rfl, rfl, rfl, rfl, rfl, rfl, rfl, rfl, rfl, rfl, rfl, rfl, rfl, rfl, rfl, rfl, rfl, rfl, rfl, rfl, rfl, rfl, rfl, rfl, rfl, rfl, rfl, rfl, rfl, rfl, rfl, rfl, rfl, rfl, rfl, rfl, rfl, rfl, rfl, rfl, rfl, rfl, rfl, rfl, rfl, rfl, rfl⟩

@[simp] theorem State.modChan_frame (s : State) (k : Nat) (f : Chan → Chan) :
    (s.modChan k f).pending = s.pending ∧ (s.modChan k f).out = s.out ∧ (s.modChan k f).free = s.free ∧ (s.modChan k f).now = s.now
    ∧ (s.modChan k f).tod = s.tod ∧ (s.modChan k f).ident = s.ident ∧ (s.modChan k f).pfence = s.pfence ∧ (s.modChan k f).rg = s.rg
    ∧ (s.modChan k f).wshadow = s.wshadow ∧ (s.modChan k f).rshadow = s.rshadow ∧ (s.modChan k f).cpHeld = s.cpHeld ∧ (s.modChan k f).scal = s.scal
    ∧ (s.modChan k f).tally = s.tally ∧ (s.modChan k f).watch = s.watch ∧ (s.modChan k f).atc = s.atc ∧ (s.modChan k f).eng = s.eng
    ∧ (s.modChan k f).hm = s.hm ∧ (s.modChan k f).ra = s.ra ∧ (s.modChan k f).streams = s.streams ∧ (s.modChan k f).ev = s.ev
    ∧ (s.modChan k f).inj = s.inj ∧ (s.modChan k f).pseq = s.pseq ∧ (s.modChan k f).eject = s.eject ∧ (s.modChan k f).tbl = s.tbl
    ∧ (s.modChan k f).tows = s.tows ∧ (s.modChan k f).reins = s.reins ∧ (s.modChan k f).draws = s.draws ∧ (s.modChan k f).counts = s.counts
    ∧ (s.modChan k f).links = s.links ∧ (s.modChan k f).flt = s.flt ∧ (s.modChan k f).ccnt = s.ccnt ∧ (s.modChan k f).logs = s.logs
    ∧ (s.modChan k f).lbOut = s.lbOut ∧ (s.modChan k f).groups = s.groups ∧ (s.modChan k f).rus = s.rus ∧ (s.modChan k f).teams = s.teams
    ∧ (s.modChan k f).i2c = s.i2c ∧ (s.modChan k f).abort = s.abort ∧ (s.modChan k f).halt = s.halt ∧ (s.modChan k f).far = s.far
    ∧ (s.modChan k f).mons = s.mons ∧ (s.modChan k f).mc = s.mc ∧ (s.modChan k f).ts = s.ts ∧ (s.modChan k f).life = s.life
    ∧ (s.modChan k f).cmap = s.cmap ∧ (s.modChan k f).pwr = s.pwr ∧ (s.modChan k f).rrUsed = s.rrUsed ∧ (s.modChan k f).ruGone = s.ruGone
    ∧ (s.modChan k f).berths = s.berths ∧ (s.modChan k f).phys = s.phys := by
  refine ⟨rfl, rfl, rfl, rfl, rfl, rfl, rfl, rfl, rfl, rfl, rfl, rfl, rfl, rfl, rfl, rfl, rfl, rfl, rfl, rfl, rfl, rfl, rfl, rfl, rfl, rfl, rfl, rfl, rfl, rfl, rfl, rfl, rfl, rfl, rfl, rfl, rfl, rfl, rfl, rfl, rfl, rfl, rfl, rfl, rfl, rfl, rfl, rfl, rfl, rfl⟩

@[simp] theorem State.setScalar_frame (s : State) (k i : Nat) (v : Quad) :
    (s.setScalar k i v).pending = s.pending ∧ (s.setScalar k i v).out = s.out ∧ (s.setScalar k i v).free = s.free ∧ (s.setScalar k i v).now = s.now
    ∧ (s.setScalar k i v).tod = s.tod ∧ (s.setScalar k i v).ident = s.ident ∧ (s.setScalar k i v).pfence = s.pfence ∧ (s.setScalar k i v).rg = s.rg
    ∧ (s.setScalar k i v).wshadow = s.wshadow ∧ (s.setScalar k i v).rshadow = s.rshadow ∧ (s.setScalar k i v).chans = s.chans
    ∧ (s.setScalar k i v).cpHeld = s.cpHeld ∧ (s.setScalar k i v).tally = s.tally ∧ (s.setScalar k i v).watch = s.watch
    ∧ (s.setScalar k i v).atc = s.atc ∧ (s.setScalar k i v).eng = s.eng ∧ (s.setScalar k i v).hm = s.hm ∧ (s.setScalar k i v).ra = s.ra
    ∧ (s.setScalar k i v).streams = s.streams ∧ (s.setScalar k i v).ev = s.ev ∧ (s.setScalar k i v).inj = s.inj ∧ (s.setScalar k i v).pseq = s.pseq
    ∧ (s.setScalar k i v).eject = s.eject ∧ (s.setScalar k i v).tbl = s.tbl ∧ (s.setScalar k i v).tows = s.tows ∧ (s.setScalar k i v).reins = s.reins
    ∧ (s.setScalar k i v).draws = s.draws ∧ (s.setScalar k i v).counts = s.counts ∧ (s.setScalar k i v).links = s.links
    ∧ (s.setScalar k i v).flt = s.flt ∧ (s.setScalar k i v).ccnt = s.ccnt ∧ (s.setScalar k i v).logs = s.logs ∧ (s.setScalar k i v).lbOut = s.lbOut
    ∧ (s.setScalar k i v).groups = s.groups ∧ (s.setScalar k i v).rus = s.rus ∧ (s.setScalar k i v).teams = s.teams ∧ (s.setScalar k i v).i2c = s.i2c
    ∧ (s.setScalar k i v).abort = s.abort ∧ (s.setScalar k i v).halt = s.halt ∧ (s.setScalar k i v).far = s.far ∧ (s.setScalar k i v).mons = s.mons
    ∧ (s.setScalar k i v).mc = s.mc ∧ (s.setScalar k i v).ts = s.ts ∧ (s.setScalar k i v).life = s.life ∧ (s.setScalar k i v).cmap = s.cmap
    ∧ (s.setScalar k i v).pwr = s.pwr ∧ (s.setScalar k i v).rrUsed = s.rrUsed ∧ (s.setScalar k i v).ruGone = s.ruGone
    ∧ (s.setScalar k i v).berths = s.berths ∧ (s.setScalar k i v).phys = s.phys := by
  refine ⟨rfl, rfl, rfl, rfl, rfl, rfl, rfl, rfl, rfl, rfl, rfl, rfl, rfl, rfl, rfl, rfl, rfl, rfl, rfl, rfl, rfl, rfl, rfl, rfl, rfl, rfl, rfl, rfl, rfl, rfl, rfl, rfl, rfl, rfl, rfl, rfl, rfl, rfl, rfl, rfl, rfl, rfl, rfl, rfl, rfl, rfl, rfl, rfl, rfl, rfl⟩

@[simp] theorem State.setTallyRaw_frame (s : State) (n : Nat) (v : BitVec 48) :
    (s.setTallyRaw n v).pending = s.pending ∧ (s.setTallyRaw n v).out = s.out ∧ (s.setTallyRaw n v).free = s.free ∧ (s.setTallyRaw n v).now = s.now
    ∧ (s.setTallyRaw n v).tod = s.tod ∧ (s.setTallyRaw n v).ident = s.ident ∧ (s.setTallyRaw n v).pfence = s.pfence ∧ (s.setTallyRaw n v).rg = s.rg
    ∧ (s.setTallyRaw n v).wshadow = s.wshadow ∧ (s.setTallyRaw n v).rshadow = s.rshadow ∧ (s.setTallyRaw n v).chans = s.chans
    ∧ (s.setTallyRaw n v).cpHeld = s.cpHeld ∧ (s.setTallyRaw n v).scal = s.scal ∧ (s.setTallyRaw n v).watch = s.watch
    ∧ (s.setTallyRaw n v).atc = s.atc ∧ (s.setTallyRaw n v).eng = s.eng ∧ (s.setTallyRaw n v).hm = s.hm ∧ (s.setTallyRaw n v).ra = s.ra
    ∧ (s.setTallyRaw n v).streams = s.streams ∧ (s.setTallyRaw n v).ev = s.ev ∧ (s.setTallyRaw n v).inj = s.inj ∧ (s.setTallyRaw n v).pseq = s.pseq
    ∧ (s.setTallyRaw n v).eject = s.eject ∧ (s.setTallyRaw n v).tbl = s.tbl ∧ (s.setTallyRaw n v).tows = s.tows ∧ (s.setTallyRaw n v).reins = s.reins
    ∧ (s.setTallyRaw n v).draws = s.draws ∧ (s.setTallyRaw n v).counts = s.counts ∧ (s.setTallyRaw n v).links = s.links
    ∧ (s.setTallyRaw n v).flt = s.flt ∧ (s.setTallyRaw n v).ccnt = s.ccnt ∧ (s.setTallyRaw n v).logs = s.logs ∧ (s.setTallyRaw n v).lbOut = s.lbOut
    ∧ (s.setTallyRaw n v).groups = s.groups ∧ (s.setTallyRaw n v).rus = s.rus ∧ (s.setTallyRaw n v).teams = s.teams ∧ (s.setTallyRaw n v).i2c = s.i2c
    ∧ (s.setTallyRaw n v).abort = s.abort ∧ (s.setTallyRaw n v).halt = s.halt ∧ (s.setTallyRaw n v).far = s.far ∧ (s.setTallyRaw n v).mons = s.mons
    ∧ (s.setTallyRaw n v).mc = s.mc ∧ (s.setTallyRaw n v).ts = s.ts ∧ (s.setTallyRaw n v).life = s.life ∧ (s.setTallyRaw n v).cmap = s.cmap
    ∧ (s.setTallyRaw n v).pwr = s.pwr ∧ (s.setTallyRaw n v).rrUsed = s.rrUsed ∧ (s.setTallyRaw n v).ruGone = s.ruGone
    ∧ (s.setTallyRaw n v).berths = s.berths ∧ (s.setTallyRaw n v).phys = s.phys := by
  refine ⟨rfl, rfl, rfl, rfl, rfl, rfl, rfl, rfl, rfl, rfl, rfl, rfl, rfl, rfl, rfl, rfl, rfl, rfl, rfl, rfl, rfl, rfl, rfl, rfl, rfl, rfl, rfl, rfl, rfl, rfl, rfl, rfl, rfl, rfl, rfl, rfl, rfl, rfl, rfl, rfl, rfl, rfl, rfl, rfl, rfl, rfl, rfl, rfl, rfl, rfl⟩

@[simp] theorem State.setWatch_frame (s : State) (w : Nat) (x : Watch) :
    (s.setWatch w x).pending = s.pending ∧ (s.setWatch w x).out = s.out ∧ (s.setWatch w x).free = s.free ∧ (s.setWatch w x).now = s.now
    ∧ (s.setWatch w x).tod = s.tod ∧ (s.setWatch w x).ident = s.ident ∧ (s.setWatch w x).pfence = s.pfence ∧ (s.setWatch w x).rg = s.rg
    ∧ (s.setWatch w x).wshadow = s.wshadow ∧ (s.setWatch w x).rshadow = s.rshadow ∧ (s.setWatch w x).chans = s.chans
    ∧ (s.setWatch w x).cpHeld = s.cpHeld ∧ (s.setWatch w x).scal = s.scal ∧ (s.setWatch w x).tally = s.tally ∧ (s.setWatch w x).atc = s.atc
    ∧ (s.setWatch w x).eng = s.eng ∧ (s.setWatch w x).hm = s.hm ∧ (s.setWatch w x).ra = s.ra ∧ (s.setWatch w x).streams = s.streams
    ∧ (s.setWatch w x).ev = s.ev ∧ (s.setWatch w x).inj = s.inj ∧ (s.setWatch w x).pseq = s.pseq ∧ (s.setWatch w x).eject = s.eject
    ∧ (s.setWatch w x).tbl = s.tbl ∧ (s.setWatch w x).tows = s.tows ∧ (s.setWatch w x).reins = s.reins ∧ (s.setWatch w x).draws = s.draws
    ∧ (s.setWatch w x).counts = s.counts ∧ (s.setWatch w x).links = s.links ∧ (s.setWatch w x).flt = s.flt ∧ (s.setWatch w x).ccnt = s.ccnt
    ∧ (s.setWatch w x).logs = s.logs ∧ (s.setWatch w x).lbOut = s.lbOut ∧ (s.setWatch w x).groups = s.groups ∧ (s.setWatch w x).rus = s.rus
    ∧ (s.setWatch w x).teams = s.teams ∧ (s.setWatch w x).i2c = s.i2c ∧ (s.setWatch w x).abort = s.abort ∧ (s.setWatch w x).halt = s.halt
    ∧ (s.setWatch w x).far = s.far ∧ (s.setWatch w x).mons = s.mons ∧ (s.setWatch w x).mc = s.mc ∧ (s.setWatch w x).ts = s.ts
    ∧ (s.setWatch w x).life = s.life ∧ (s.setWatch w x).cmap = s.cmap ∧ (s.setWatch w x).pwr = s.pwr ∧ (s.setWatch w x).rrUsed = s.rrUsed
    ∧ (s.setWatch w x).ruGone = s.ruGone ∧ (s.setWatch w x).berths = s.berths ∧ (s.setWatch w x).phys = s.phys := by
  refine ⟨rfl, rfl, rfl, rfl, rfl, rfl, rfl, rfl, rfl, rfl, rfl, rfl, rfl, rfl, rfl, rfl, rfl, rfl, rfl, rfl, rfl, rfl, rfl, rfl, rfl, rfl, rfl, rfl, rfl, rfl, rfl, rfl, rfl, rfl, rfl, rfl, rfl, rfl, rfl, rfl, rfl, rfl, rfl, rfl, rfl, rfl, rfl, rfl, rfl, rfl⟩

@[simp] theorem State.modHm_frame (s : State) (p : Nat) (f : HmPort → HmPort) :
    (s.modHm p f).pending = s.pending ∧ (s.modHm p f).out = s.out ∧ (s.modHm p f).free = s.free ∧ (s.modHm p f).now = s.now
    ∧ (s.modHm p f).tod = s.tod ∧ (s.modHm p f).ident = s.ident ∧ (s.modHm p f).pfence = s.pfence ∧ (s.modHm p f).rg = s.rg
    ∧ (s.modHm p f).wshadow = s.wshadow ∧ (s.modHm p f).rshadow = s.rshadow ∧ (s.modHm p f).chans = s.chans ∧ (s.modHm p f).cpHeld = s.cpHeld
    ∧ (s.modHm p f).scal = s.scal ∧ (s.modHm p f).tally = s.tally ∧ (s.modHm p f).watch = s.watch ∧ (s.modHm p f).atc = s.atc
    ∧ (s.modHm p f).eng = s.eng ∧ (s.modHm p f).ra = s.ra ∧ (s.modHm p f).streams = s.streams ∧ (s.modHm p f).ev = s.ev ∧ (s.modHm p f).inj = s.inj
    ∧ (s.modHm p f).pseq = s.pseq ∧ (s.modHm p f).eject = s.eject ∧ (s.modHm p f).tbl = s.tbl ∧ (s.modHm p f).tows = s.tows
    ∧ (s.modHm p f).reins = s.reins ∧ (s.modHm p f).draws = s.draws ∧ (s.modHm p f).counts = s.counts ∧ (s.modHm p f).links = s.links
    ∧ (s.modHm p f).flt = s.flt ∧ (s.modHm p f).ccnt = s.ccnt ∧ (s.modHm p f).logs = s.logs ∧ (s.modHm p f).lbOut = s.lbOut
    ∧ (s.modHm p f).groups = s.groups ∧ (s.modHm p f).rus = s.rus ∧ (s.modHm p f).teams = s.teams ∧ (s.modHm p f).i2c = s.i2c
    ∧ (s.modHm p f).abort = s.abort ∧ (s.modHm p f).halt = s.halt ∧ (s.modHm p f).far = s.far ∧ (s.modHm p f).mons = s.mons ∧ (s.modHm p f).mc = s.mc
    ∧ (s.modHm p f).ts = s.ts ∧ (s.modHm p f).life = s.life ∧ (s.modHm p f).cmap = s.cmap ∧ (s.modHm p f).pwr = s.pwr
    ∧ (s.modHm p f).rrUsed = s.rrUsed ∧ (s.modHm p f).ruGone = s.ruGone ∧ (s.modHm p f).berths = s.berths ∧ (s.modHm p f).phys = s.phys := by
  refine ⟨rfl, rfl, rfl, rfl, rfl, rfl, rfl, rfl, rfl, rfl, rfl, rfl, rfl, rfl, rfl, rfl, rfl, rfl, rfl, rfl, rfl, rfl, rfl, rfl, rfl, rfl, rfl, rfl, rfl, rfl, rfl, rfl, rfl, rfl, rfl, rfl, rfl, rfl, rfl, rfl, rfl, rfl, rfl, rfl, rfl, rfl, rfl, rfl, rfl, rfl⟩

@[simp] theorem State.modRa_frame (s : State) (p : Nat) (f : RaPort → RaPort) :
    (s.modRa p f).pending = s.pending ∧ (s.modRa p f).out = s.out ∧ (s.modRa p f).free = s.free ∧ (s.modRa p f).now = s.now
    ∧ (s.modRa p f).tod = s.tod ∧ (s.modRa p f).ident = s.ident ∧ (s.modRa p f).pfence = s.pfence ∧ (s.modRa p f).rg = s.rg
    ∧ (s.modRa p f).wshadow = s.wshadow ∧ (s.modRa p f).rshadow = s.rshadow ∧ (s.modRa p f).chans = s.chans ∧ (s.modRa p f).cpHeld = s.cpHeld
    ∧ (s.modRa p f).scal = s.scal ∧ (s.modRa p f).tally = s.tally ∧ (s.modRa p f).watch = s.watch ∧ (s.modRa p f).atc = s.atc
    ∧ (s.modRa p f).eng = s.eng ∧ (s.modRa p f).hm = s.hm ∧ (s.modRa p f).streams = s.streams ∧ (s.modRa p f).ev = s.ev ∧ (s.modRa p f).inj = s.inj
    ∧ (s.modRa p f).pseq = s.pseq ∧ (s.modRa p f).eject = s.eject ∧ (s.modRa p f).tbl = s.tbl ∧ (s.modRa p f).tows = s.tows
    ∧ (s.modRa p f).reins = s.reins ∧ (s.modRa p f).draws = s.draws ∧ (s.modRa p f).counts = s.counts ∧ (s.modRa p f).links = s.links
    ∧ (s.modRa p f).flt = s.flt ∧ (s.modRa p f).ccnt = s.ccnt ∧ (s.modRa p f).logs = s.logs ∧ (s.modRa p f).lbOut = s.lbOut
    ∧ (s.modRa p f).groups = s.groups ∧ (s.modRa p f).rus = s.rus ∧ (s.modRa p f).teams = s.teams ∧ (s.modRa p f).i2c = s.i2c
    ∧ (s.modRa p f).abort = s.abort ∧ (s.modRa p f).halt = s.halt ∧ (s.modRa p f).far = s.far ∧ (s.modRa p f).mons = s.mons ∧ (s.modRa p f).mc = s.mc
    ∧ (s.modRa p f).ts = s.ts ∧ (s.modRa p f).life = s.life ∧ (s.modRa p f).cmap = s.cmap ∧ (s.modRa p f).pwr = s.pwr
    ∧ (s.modRa p f).rrUsed = s.rrUsed ∧ (s.modRa p f).ruGone = s.ruGone ∧ (s.modRa p f).berths = s.berths ∧ (s.modRa p f).phys = s.phys := by
  refine ⟨rfl, rfl, rfl, rfl, rfl, rfl, rfl, rfl, rfl, rfl, rfl, rfl, rfl, rfl, rfl, rfl, rfl, rfl, rfl, rfl, rfl, rfl, rfl, rfl, rfl, rfl, rfl, rfl, rfl, rfl, rfl, rfl, rfl, rfl, rfl, rfl, rfl, rfl, rfl, rfl, rfl, rfl, rfl, rfl, rfl, rfl, rfl, rfl, rfl, rfl⟩

@[simp] theorem State.modLink_frame (s : State) (p : Nat) (f : Link → Link) :
    (s.modLink p f).pending = s.pending ∧ (s.modLink p f).out = s.out ∧ (s.modLink p f).free = s.free ∧ (s.modLink p f).now = s.now
    ∧ (s.modLink p f).tod = s.tod ∧ (s.modLink p f).ident = s.ident ∧ (s.modLink p f).pfence = s.pfence ∧ (s.modLink p f).rg = s.rg
    ∧ (s.modLink p f).wshadow = s.wshadow ∧ (s.modLink p f).rshadow = s.rshadow ∧ (s.modLink p f).chans = s.chans ∧ (s.modLink p f).cpHeld = s.cpHeld
    ∧ (s.modLink p f).scal = s.scal ∧ (s.modLink p f).tally = s.tally ∧ (s.modLink p f).watch = s.watch ∧ (s.modLink p f).atc = s.atc
    ∧ (s.modLink p f).eng = s.eng ∧ (s.modLink p f).hm = s.hm ∧ (s.modLink p f).ra = s.ra ∧ (s.modLink p f).streams = s.streams
    ∧ (s.modLink p f).ev = s.ev ∧ (s.modLink p f).inj = s.inj ∧ (s.modLink p f).pseq = s.pseq ∧ (s.modLink p f).eject = s.eject
    ∧ (s.modLink p f).tbl = s.tbl ∧ (s.modLink p f).tows = s.tows ∧ (s.modLink p f).reins = s.reins ∧ (s.modLink p f).draws = s.draws
    ∧ (s.modLink p f).counts = s.counts ∧ (s.modLink p f).flt = s.flt ∧ (s.modLink p f).ccnt = s.ccnt ∧ (s.modLink p f).logs = s.logs
    ∧ (s.modLink p f).lbOut = s.lbOut ∧ (s.modLink p f).groups = s.groups ∧ (s.modLink p f).rus = s.rus ∧ (s.modLink p f).teams = s.teams
    ∧ (s.modLink p f).i2c = s.i2c ∧ (s.modLink p f).abort = s.abort ∧ (s.modLink p f).halt = s.halt ∧ (s.modLink p f).far = s.far
    ∧ (s.modLink p f).mons = s.mons ∧ (s.modLink p f).mc = s.mc ∧ (s.modLink p f).ts = s.ts ∧ (s.modLink p f).life = s.life
    ∧ (s.modLink p f).cmap = s.cmap ∧ (s.modLink p f).pwr = s.pwr ∧ (s.modLink p f).rrUsed = s.rrUsed ∧ (s.modLink p f).ruGone = s.ruGone
    ∧ (s.modLink p f).berths = s.berths ∧ (s.modLink p f).phys = s.phys := by
  refine ⟨rfl, rfl, rfl, rfl, rfl, rfl, rfl, rfl, rfl, rfl, rfl, rfl, rfl, rfl, rfl, rfl, rfl, rfl, rfl, rfl, rfl, rfl, rfl, rfl, rfl, rfl, rfl, rfl, rfl, rfl, rfl, rfl, rfl, rfl, rfl, rfl, rfl, rfl, rfl, rfl, rfl, rfl, rfl, rfl, rfl, rfl, rfl, rfl, rfl, rfl⟩

@[simp] theorem State.modTow_frame (s : State) (t : Nat) (f : Tow → Tow) :
    (s.modTow t f).pending = s.pending ∧ (s.modTow t f).out = s.out ∧ (s.modTow t f).free = s.free ∧ (s.modTow t f).now = s.now
    ∧ (s.modTow t f).tod = s.tod ∧ (s.modTow t f).ident = s.ident ∧ (s.modTow t f).pfence = s.pfence ∧ (s.modTow t f).rg = s.rg
    ∧ (s.modTow t f).wshadow = s.wshadow ∧ (s.modTow t f).rshadow = s.rshadow ∧ (s.modTow t f).chans = s.chans ∧ (s.modTow t f).cpHeld = s.cpHeld
    ∧ (s.modTow t f).scal = s.scal ∧ (s.modTow t f).tally = s.tally ∧ (s.modTow t f).watch = s.watch ∧ (s.modTow t f).atc = s.atc
    ∧ (s.modTow t f).eng = s.eng ∧ (s.modTow t f).hm = s.hm ∧ (s.modTow t f).ra = s.ra ∧ (s.modTow t f).streams = s.streams
    ∧ (s.modTow t f).ev = s.ev ∧ (s.modTow t f).inj = s.inj ∧ (s.modTow t f).pseq = s.pseq ∧ (s.modTow t f).eject = s.eject
    ∧ (s.modTow t f).tbl = s.tbl ∧ (s.modTow t f).reins = s.reins ∧ (s.modTow t f).draws = s.draws ∧ (s.modTow t f).counts = s.counts
    ∧ (s.modTow t f).links = s.links ∧ (s.modTow t f).flt = s.flt ∧ (s.modTow t f).ccnt = s.ccnt ∧ (s.modTow t f).logs = s.logs
    ∧ (s.modTow t f).lbOut = s.lbOut ∧ (s.modTow t f).groups = s.groups ∧ (s.modTow t f).rus = s.rus ∧ (s.modTow t f).teams = s.teams
    ∧ (s.modTow t f).i2c = s.i2c ∧ (s.modTow t f).abort = s.abort ∧ (s.modTow t f).halt = s.halt ∧ (s.modTow t f).far = s.far
    ∧ (s.modTow t f).mons = s.mons ∧ (s.modTow t f).mc = s.mc ∧ (s.modTow t f).ts = s.ts ∧ (s.modTow t f).life = s.life
    ∧ (s.modTow t f).cmap = s.cmap ∧ (s.modTow t f).pwr = s.pwr ∧ (s.modTow t f).rrUsed = s.rrUsed ∧ (s.modTow t f).ruGone = s.ruGone
    ∧ (s.modTow t f).berths = s.berths ∧ (s.modTow t f).phys = s.phys := by
  refine ⟨rfl, rfl, rfl, rfl, rfl, rfl, rfl, rfl, rfl, rfl, rfl, rfl, rfl, rfl, rfl, rfl, rfl, rfl, rfl, rfl, rfl, rfl, rfl, rfl, rfl, rfl, rfl, rfl, rfl, rfl, rfl, rfl, rfl, rfl, rfl, rfl, rfl, rfl, rfl, rfl, rfl, rfl, rfl, rfl, rfl, rfl, rfl, rfl, rfl, rfl⟩

@[simp] theorem State.modRein_frame (s : State) (k : Nat) (f : Rein → Rein) :
    (s.modRein k f).pending = s.pending ∧ (s.modRein k f).out = s.out ∧ (s.modRein k f).free = s.free ∧ (s.modRein k f).now = s.now
    ∧ (s.modRein k f).tod = s.tod ∧ (s.modRein k f).ident = s.ident ∧ (s.modRein k f).pfence = s.pfence ∧ (s.modRein k f).rg = s.rg
    ∧ (s.modRein k f).wshadow = s.wshadow ∧ (s.modRein k f).rshadow = s.rshadow ∧ (s.modRein k f).chans = s.chans ∧ (s.modRein k f).cpHeld = s.cpHeld
    ∧ (s.modRein k f).scal = s.scal ∧ (s.modRein k f).tally = s.tally ∧ (s.modRein k f).watch = s.watch ∧ (s.modRein k f).atc = s.atc
    ∧ (s.modRein k f).eng = s.eng ∧ (s.modRein k f).hm = s.hm ∧ (s.modRein k f).ra = s.ra ∧ (s.modRein k f).streams = s.streams
    ∧ (s.modRein k f).ev = s.ev ∧ (s.modRein k f).inj = s.inj ∧ (s.modRein k f).pseq = s.pseq ∧ (s.modRein k f).eject = s.eject
    ∧ (s.modRein k f).tbl = s.tbl ∧ (s.modRein k f).tows = s.tows ∧ (s.modRein k f).draws = s.draws ∧ (s.modRein k f).counts = s.counts
    ∧ (s.modRein k f).links = s.links ∧ (s.modRein k f).flt = s.flt ∧ (s.modRein k f).ccnt = s.ccnt ∧ (s.modRein k f).logs = s.logs
    ∧ (s.modRein k f).lbOut = s.lbOut ∧ (s.modRein k f).groups = s.groups ∧ (s.modRein k f).rus = s.rus ∧ (s.modRein k f).teams = s.teams
    ∧ (s.modRein k f).i2c = s.i2c ∧ (s.modRein k f).abort = s.abort ∧ (s.modRein k f).halt = s.halt ∧ (s.modRein k f).far = s.far
    ∧ (s.modRein k f).mons = s.mons ∧ (s.modRein k f).mc = s.mc ∧ (s.modRein k f).ts = s.ts ∧ (s.modRein k f).life = s.life
    ∧ (s.modRein k f).cmap = s.cmap ∧ (s.modRein k f).pwr = s.pwr ∧ (s.modRein k f).rrUsed = s.rrUsed ∧ (s.modRein k f).ruGone = s.ruGone
    ∧ (s.modRein k f).berths = s.berths ∧ (s.modRein k f).phys = s.phys := by
  refine ⟨rfl, rfl, rfl, rfl, rfl, rfl, rfl, rfl, rfl, rfl, rfl, rfl, rfl, rfl, rfl, rfl, rfl, rfl, rfl, rfl, rfl, rfl, rfl, rfl, rfl, rfl, rfl, rfl, rfl, rfl, rfl, rfl, rfl, rfl, rfl, rfl, rfl, rfl, rfl, rfl, rfl, rfl, rfl, rfl, rfl, rfl, rfl, rfl, rfl, rfl⟩

@[simp] theorem State.setSource_frame (s : State) (code inst : Nat) (x : Source) :
    (s.setSource code inst x).pending = s.pending ∧ (s.setSource code inst x).out = s.out ∧ (s.setSource code inst x).free = s.free
    ∧ (s.setSource code inst x).now = s.now ∧ (s.setSource code inst x).tod = s.tod ∧ (s.setSource code inst x).ident = s.ident
    ∧ (s.setSource code inst x).pfence = s.pfence ∧ (s.setSource code inst x).rg = s.rg ∧ (s.setSource code inst x).wshadow = s.wshadow
    ∧ (s.setSource code inst x).rshadow = s.rshadow ∧ (s.setSource code inst x).chans = s.chans ∧ (s.setSource code inst x).cpHeld = s.cpHeld
    ∧ (s.setSource code inst x).scal = s.scal ∧ (s.setSource code inst x).tally = s.tally ∧ (s.setSource code inst x).watch = s.watch
    ∧ (s.setSource code inst x).atc = s.atc ∧ (s.setSource code inst x).eng = s.eng ∧ (s.setSource code inst x).hm = s.hm
    ∧ (s.setSource code inst x).ra = s.ra ∧ (s.setSource code inst x).streams = s.streams ∧ (s.setSource code inst x).ev = s.ev
    ∧ (s.setSource code inst x).inj = s.inj ∧ (s.setSource code inst x).pseq = s.pseq ∧ (s.setSource code inst x).eject = s.eject
    ∧ (s.setSource code inst x).tbl = s.tbl ∧ (s.setSource code inst x).tows = s.tows ∧ (s.setSource code inst x).reins = s.reins
    ∧ (s.setSource code inst x).draws = s.draws ∧ (s.setSource code inst x).counts = s.counts ∧ (s.setSource code inst x).links = s.links
    ∧ (s.setSource code inst x).ccnt = s.ccnt ∧ (s.setSource code inst x).logs = s.logs ∧ (s.setSource code inst x).lbOut = s.lbOut
    ∧ (s.setSource code inst x).groups = s.groups ∧ (s.setSource code inst x).rus = s.rus ∧ (s.setSource code inst x).teams = s.teams
    ∧ (s.setSource code inst x).i2c = s.i2c ∧ (s.setSource code inst x).abort = s.abort ∧ (s.setSource code inst x).halt = s.halt
    ∧ (s.setSource code inst x).far = s.far ∧ (s.setSource code inst x).mons = s.mons ∧ (s.setSource code inst x).mc = s.mc
    ∧ (s.setSource code inst x).ts = s.ts ∧ (s.setSource code inst x).life = s.life ∧ (s.setSource code inst x).cmap = s.cmap
    ∧ (s.setSource code inst x).pwr = s.pwr ∧ (s.setSource code inst x).rrUsed = s.rrUsed ∧ (s.setSource code inst x).ruGone = s.ruGone
    ∧ (s.setSource code inst x).berths = s.berths ∧ (s.setSource code inst x).phys = s.phys := by
  refine ⟨rfl, rfl, rfl, rfl, rfl, rfl, rfl, rfl, rfl, rfl, rfl, rfl, rfl, rfl, rfl, rfl, rfl, rfl, rfl, rfl, rfl, rfl, rfl, rfl, rfl, rfl, rfl, rfl, rfl, rfl, rfl, rfl, rfl, rfl, rfl, rfl, rfl, rfl, rfl, rfl, rfl, rfl, rfl, rfl, rfl, rfl, rfl, rfl, rfl, rfl⟩

@[simp] theorem State.setReg_frame (s : State) (off : Nat) (w : Word) :
    (s.setReg off w).pending = s.pending ∧ (s.setReg off w).out = s.out ∧ (s.setReg off w).free = s.free ∧ (s.setReg off w).now = s.now
    ∧ (s.setReg off w).tod = s.tod ∧ (s.setReg off w).ident = s.ident ∧ (s.setReg off w).pfence = s.pfence ∧ (s.setReg off w).wshadow = s.wshadow
    ∧ (s.setReg off w).rshadow = s.rshadow ∧ (s.setReg off w).chans = s.chans ∧ (s.setReg off w).cpHeld = s.cpHeld ∧ (s.setReg off w).scal = s.scal
    ∧ (s.setReg off w).tally = s.tally ∧ (s.setReg off w).watch = s.watch ∧ (s.setReg off w).atc = s.atc ∧ (s.setReg off w).eng = s.eng
    ∧ (s.setReg off w).hm = s.hm ∧ (s.setReg off w).ra = s.ra ∧ (s.setReg off w).streams = s.streams ∧ (s.setReg off w).ev = s.ev
    ∧ (s.setReg off w).inj = s.inj ∧ (s.setReg off w).pseq = s.pseq ∧ (s.setReg off w).eject = s.eject ∧ (s.setReg off w).tbl = s.tbl
    ∧ (s.setReg off w).tows = s.tows ∧ (s.setReg off w).reins = s.reins ∧ (s.setReg off w).draws = s.draws ∧ (s.setReg off w).counts = s.counts
    ∧ (s.setReg off w).links = s.links ∧ (s.setReg off w).flt = s.flt ∧ (s.setReg off w).ccnt = s.ccnt ∧ (s.setReg off w).logs = s.logs
    ∧ (s.setReg off w).lbOut = s.lbOut ∧ (s.setReg off w).groups = s.groups ∧ (s.setReg off w).rus = s.rus ∧ (s.setReg off w).teams = s.teams
    ∧ (s.setReg off w).i2c = s.i2c ∧ (s.setReg off w).abort = s.abort ∧ (s.setReg off w).halt = s.halt ∧ (s.setReg off w).far = s.far
    ∧ (s.setReg off w).mons = s.mons ∧ (s.setReg off w).mc = s.mc ∧ (s.setReg off w).ts = s.ts ∧ (s.setReg off w).life = s.life
    ∧ (s.setReg off w).cmap = s.cmap ∧ (s.setReg off w).pwr = s.pwr ∧ (s.setReg off w).rrUsed = s.rrUsed ∧ (s.setReg off w).ruGone = s.ruGone
    ∧ (s.setReg off w).berths = s.berths ∧ (s.setReg off w).phys = s.phys := by
  refine ⟨rfl, rfl, rfl, rfl, rfl, rfl, rfl, rfl, rfl, rfl, rfl, rfl, rfl, rfl, rfl, rfl, rfl, rfl, rfl, rfl, rfl, rfl, rfl, rfl, rfl, rfl, rfl, rfl, rfl, rfl, rfl, rfl, rfl, rfl, rfl, rfl, rfl, rfl, rfl, rfl, rfl, rfl, rfl, rfl, rfl, rfl, rfl, rfl, rfl, rfl⟩

@[simp] theorem State.orReg_frame (s : State) (off : Nat) (m : Word) :
    (s.orReg off m).pending = s.pending ∧ (s.orReg off m).out = s.out ∧ (s.orReg off m).free = s.free ∧ (s.orReg off m).now = s.now
    ∧ (s.orReg off m).tod = s.tod ∧ (s.orReg off m).ident = s.ident ∧ (s.orReg off m).pfence = s.pfence ∧ (s.orReg off m).wshadow = s.wshadow
    ∧ (s.orReg off m).rshadow = s.rshadow ∧ (s.orReg off m).chans = s.chans ∧ (s.orReg off m).cpHeld = s.cpHeld ∧ (s.orReg off m).scal = s.scal
    ∧ (s.orReg off m).tally = s.tally ∧ (s.orReg off m).watch = s.watch ∧ (s.orReg off m).atc = s.atc ∧ (s.orReg off m).eng = s.eng
    ∧ (s.orReg off m).hm = s.hm ∧ (s.orReg off m).ra = s.ra ∧ (s.orReg off m).streams = s.streams ∧ (s.orReg off m).ev = s.ev
    ∧ (s.orReg off m).inj = s.inj ∧ (s.orReg off m).pseq = s.pseq ∧ (s.orReg off m).eject = s.eject ∧ (s.orReg off m).tbl = s.tbl
    ∧ (s.orReg off m).tows = s.tows ∧ (s.orReg off m).reins = s.reins ∧ (s.orReg off m).draws = s.draws ∧ (s.orReg off m).counts = s.counts
    ∧ (s.orReg off m).links = s.links ∧ (s.orReg off m).flt = s.flt ∧ (s.orReg off m).ccnt = s.ccnt ∧ (s.orReg off m).logs = s.logs
    ∧ (s.orReg off m).lbOut = s.lbOut ∧ (s.orReg off m).groups = s.groups ∧ (s.orReg off m).rus = s.rus ∧ (s.orReg off m).teams = s.teams
    ∧ (s.orReg off m).i2c = s.i2c ∧ (s.orReg off m).abort = s.abort ∧ (s.orReg off m).halt = s.halt ∧ (s.orReg off m).far = s.far
    ∧ (s.orReg off m).mons = s.mons ∧ (s.orReg off m).mc = s.mc ∧ (s.orReg off m).ts = s.ts ∧ (s.orReg off m).life = s.life
    ∧ (s.orReg off m).cmap = s.cmap ∧ (s.orReg off m).pwr = s.pwr ∧ (s.orReg off m).rrUsed = s.rrUsed ∧ (s.orReg off m).ruGone = s.ruGone
    ∧ (s.orReg off m).berths = s.berths ∧ (s.orReg off m).phys = s.phys := by
  refine ⟨rfl, rfl, rfl, rfl, rfl, rfl, rfl, rfl, rfl, rfl, rfl, rfl, rfl, rfl, rfl, rfl, rfl, rfl, rfl, rfl, rfl, rfl, rfl, rfl, rfl, rfl, rfl, rfl, rfl, rfl, rfl, rfl, rfl, rfl, rfl, rfl, rfl, rfl, rfl, rfl, rfl, rfl, rfl, rfl, rfl, rfl, rfl, rfl, rfl, rfl⟩

@[simp] theorem State.clrReg_frame (s : State) (off : Nat) (m : Word) :
    (s.clrReg off m).pending = s.pending ∧ (s.clrReg off m).out = s.out ∧ (s.clrReg off m).free = s.free ∧ (s.clrReg off m).now = s.now
    ∧ (s.clrReg off m).tod = s.tod ∧ (s.clrReg off m).ident = s.ident ∧ (s.clrReg off m).pfence = s.pfence ∧ (s.clrReg off m).wshadow = s.wshadow
    ∧ (s.clrReg off m).rshadow = s.rshadow ∧ (s.clrReg off m).chans = s.chans ∧ (s.clrReg off m).cpHeld = s.cpHeld ∧ (s.clrReg off m).scal = s.scal
    ∧ (s.clrReg off m).tally = s.tally ∧ (s.clrReg off m).watch = s.watch ∧ (s.clrReg off m).atc = s.atc ∧ (s.clrReg off m).eng = s.eng
    ∧ (s.clrReg off m).hm = s.hm ∧ (s.clrReg off m).ra = s.ra ∧ (s.clrReg off m).streams = s.streams ∧ (s.clrReg off m).ev = s.ev
    ∧ (s.clrReg off m).inj = s.inj ∧ (s.clrReg off m).pseq = s.pseq ∧ (s.clrReg off m).eject = s.eject ∧ (s.clrReg off m).tbl = s.tbl
    ∧ (s.clrReg off m).tows = s.tows ∧ (s.clrReg off m).reins = s.reins ∧ (s.clrReg off m).draws = s.draws ∧ (s.clrReg off m).counts = s.counts
    ∧ (s.clrReg off m).links = s.links ∧ (s.clrReg off m).flt = s.flt ∧ (s.clrReg off m).ccnt = s.ccnt ∧ (s.clrReg off m).logs = s.logs
    ∧ (s.clrReg off m).lbOut = s.lbOut ∧ (s.clrReg off m).groups = s.groups ∧ (s.clrReg off m).rus = s.rus ∧ (s.clrReg off m).teams = s.teams
    ∧ (s.clrReg off m).i2c = s.i2c ∧ (s.clrReg off m).abort = s.abort ∧ (s.clrReg off m).halt = s.halt ∧ (s.clrReg off m).far = s.far
    ∧ (s.clrReg off m).mons = s.mons ∧ (s.clrReg off m).mc = s.mc ∧ (s.clrReg off m).ts = s.ts ∧ (s.clrReg off m).life = s.life
    ∧ (s.clrReg off m).cmap = s.cmap ∧ (s.clrReg off m).pwr = s.pwr ∧ (s.clrReg off m).rrUsed = s.rrUsed ∧ (s.clrReg off m).ruGone = s.ruGone
    ∧ (s.clrReg off m).berths = s.berths ∧ (s.clrReg off m).phys = s.phys := by
  refine ⟨rfl, rfl, rfl, rfl, rfl, rfl, rfl, rfl, rfl, rfl, rfl, rfl, rfl, rfl, rfl, rfl, rfl, rfl, rfl, rfl, rfl, rfl, rfl, rfl, rfl, rfl, rfl, rfl, rfl, rfl, rfl, rfl, rfl, rfl, rfl, rfl, rfl, rfl, rfl, rfl, rfl, rfl, rfl, rfl, rfl, rfl, rfl, rfl, rfl, rfl⟩

@[simp] theorem State.incReg_frame (s : State) (off : Nat) :
    (s.incReg off).pending = s.pending ∧ (s.incReg off).out = s.out ∧ (s.incReg off).free = s.free ∧ (s.incReg off).now = s.now
    ∧ (s.incReg off).tod = s.tod ∧ (s.incReg off).ident = s.ident ∧ (s.incReg off).pfence = s.pfence ∧ (s.incReg off).wshadow = s.wshadow
    ∧ (s.incReg off).rshadow = s.rshadow ∧ (s.incReg off).chans = s.chans ∧ (s.incReg off).cpHeld = s.cpHeld ∧ (s.incReg off).scal = s.scal
    ∧ (s.incReg off).tally = s.tally ∧ (s.incReg off).watch = s.watch ∧ (s.incReg off).atc = s.atc ∧ (s.incReg off).eng = s.eng
    ∧ (s.incReg off).hm = s.hm ∧ (s.incReg off).ra = s.ra ∧ (s.incReg off).streams = s.streams ∧ (s.incReg off).ev = s.ev
    ∧ (s.incReg off).inj = s.inj ∧ (s.incReg off).pseq = s.pseq ∧ (s.incReg off).eject = s.eject ∧ (s.incReg off).tbl = s.tbl
    ∧ (s.incReg off).tows = s.tows ∧ (s.incReg off).reins = s.reins ∧ (s.incReg off).draws = s.draws ∧ (s.incReg off).counts = s.counts
    ∧ (s.incReg off).links = s.links ∧ (s.incReg off).flt = s.flt ∧ (s.incReg off).ccnt = s.ccnt ∧ (s.incReg off).logs = s.logs
    ∧ (s.incReg off).lbOut = s.lbOut ∧ (s.incReg off).groups = s.groups ∧ (s.incReg off).rus = s.rus ∧ (s.incReg off).teams = s.teams
    ∧ (s.incReg off).i2c = s.i2c ∧ (s.incReg off).abort = s.abort ∧ (s.incReg off).halt = s.halt ∧ (s.incReg off).far = s.far
    ∧ (s.incReg off).mons = s.mons ∧ (s.incReg off).mc = s.mc ∧ (s.incReg off).ts = s.ts ∧ (s.incReg off).life = s.life
    ∧ (s.incReg off).cmap = s.cmap ∧ (s.incReg off).pwr = s.pwr ∧ (s.incReg off).rrUsed = s.rrUsed ∧ (s.incReg off).ruGone = s.ruGone
    ∧ (s.incReg off).berths = s.berths ∧ (s.incReg off).phys = s.phys := by
  refine ⟨rfl, rfl, rfl, rfl, rfl, rfl, rfl, rfl, rfl, rfl, rfl, rfl, rfl, rfl, rfl, rfl, rfl, rfl, rfl, rfl, rfl, rfl, rfl, rfl, rfl, rfl, rfl, rfl, rfl, rfl, rfl, rfl, rfl, rfl, rfl, rfl, rfl, rfl, rfl, rfl, rfl, rfl, rfl, rfl, rfl, rfl, rfl, rfl, rfl, rfl⟩

@[simp] theorem State.putField_frame (s : State) (off lo w v : Nat) :
    (s.putField off lo w v).pending = s.pending ∧ (s.putField off lo w v).out = s.out ∧ (s.putField off lo w v).free = s.free
    ∧ (s.putField off lo w v).now = s.now ∧ (s.putField off lo w v).tod = s.tod ∧ (s.putField off lo w v).ident = s.ident
    ∧ (s.putField off lo w v).pfence = s.pfence ∧ (s.putField off lo w v).wshadow = s.wshadow ∧ (s.putField off lo w v).rshadow = s.rshadow
    ∧ (s.putField off lo w v).chans = s.chans ∧ (s.putField off lo w v).cpHeld = s.cpHeld ∧ (s.putField off lo w v).scal = s.scal
    ∧ (s.putField off lo w v).tally = s.tally ∧ (s.putField off lo w v).watch = s.watch ∧ (s.putField off lo w v).atc = s.atc
    ∧ (s.putField off lo w v).eng = s.eng ∧ (s.putField off lo w v).hm = s.hm ∧ (s.putField off lo w v).ra = s.ra
    ∧ (s.putField off lo w v).streams = s.streams ∧ (s.putField off lo w v).ev = s.ev ∧ (s.putField off lo w v).inj = s.inj
    ∧ (s.putField off lo w v).pseq = s.pseq ∧ (s.putField off lo w v).eject = s.eject ∧ (s.putField off lo w v).tbl = s.tbl
    ∧ (s.putField off lo w v).tows = s.tows ∧ (s.putField off lo w v).reins = s.reins ∧ (s.putField off lo w v).draws = s.draws
    ∧ (s.putField off lo w v).counts = s.counts ∧ (s.putField off lo w v).links = s.links ∧ (s.putField off lo w v).flt = s.flt
    ∧ (s.putField off lo w v).ccnt = s.ccnt ∧ (s.putField off lo w v).logs = s.logs ∧ (s.putField off lo w v).lbOut = s.lbOut
    ∧ (s.putField off lo w v).groups = s.groups ∧ (s.putField off lo w v).rus = s.rus ∧ (s.putField off lo w v).teams = s.teams
    ∧ (s.putField off lo w v).i2c = s.i2c ∧ (s.putField off lo w v).abort = s.abort ∧ (s.putField off lo w v).halt = s.halt
    ∧ (s.putField off lo w v).far = s.far ∧ (s.putField off lo w v).mons = s.mons ∧ (s.putField off lo w v).mc = s.mc
    ∧ (s.putField off lo w v).ts = s.ts ∧ (s.putField off lo w v).life = s.life ∧ (s.putField off lo w v).cmap = s.cmap
    ∧ (s.putField off lo w v).pwr = s.pwr ∧ (s.putField off lo w v).rrUsed = s.rrUsed ∧ (s.putField off lo w v).ruGone = s.ruGone
    ∧ (s.putField off lo w v).berths = s.berths ∧ (s.putField off lo w v).phys = s.phys := by
  refine ⟨rfl, rfl, rfl, rfl, rfl, rfl, rfl, rfl, rfl, rfl, rfl, rfl, rfl, rfl, rfl, rfl, rfl, rfl, rfl, rfl, rfl, rfl, rfl, rfl, rfl, rfl, rfl, rfl, rfl, rfl, rfl, rfl, rfl, rfl, rfl, rfl, rfl, rfl, rfl, rfl, rfl, rfl, rfl, rfl, rfl, rfl, rfl, rfl, rfl, rfl⟩

@[simp] theorem State.plainWrite_frame (s : State) (off : Nat) (p : Bool) (d : Word) :
    (s.plainWrite off p d).pending = s.pending ∧ (s.plainWrite off p d).out = s.out ∧ (s.plainWrite off p d).free = s.free
    ∧ (s.plainWrite off p d).now = s.now ∧ (s.plainWrite off p d).tod = s.tod ∧ (s.plainWrite off p d).ident = s.ident
    ∧ (s.plainWrite off p d).pfence = s.pfence ∧ (s.plainWrite off p d).wshadow = s.wshadow ∧ (s.plainWrite off p d).rshadow = s.rshadow
    ∧ (s.plainWrite off p d).chans = s.chans ∧ (s.plainWrite off p d).cpHeld = s.cpHeld ∧ (s.plainWrite off p d).scal = s.scal
    ∧ (s.plainWrite off p d).tally = s.tally ∧ (s.plainWrite off p d).watch = s.watch ∧ (s.plainWrite off p d).atc = s.atc
    ∧ (s.plainWrite off p d).eng = s.eng ∧ (s.plainWrite off p d).hm = s.hm ∧ (s.plainWrite off p d).ra = s.ra
    ∧ (s.plainWrite off p d).streams = s.streams ∧ (s.plainWrite off p d).ev = s.ev ∧ (s.plainWrite off p d).inj = s.inj
    ∧ (s.plainWrite off p d).pseq = s.pseq ∧ (s.plainWrite off p d).eject = s.eject ∧ (s.plainWrite off p d).tbl = s.tbl
    ∧ (s.plainWrite off p d).tows = s.tows ∧ (s.plainWrite off p d).reins = s.reins ∧ (s.plainWrite off p d).draws = s.draws
    ∧ (s.plainWrite off p d).counts = s.counts ∧ (s.plainWrite off p d).links = s.links ∧ (s.plainWrite off p d).flt = s.flt
    ∧ (s.plainWrite off p d).ccnt = s.ccnt ∧ (s.plainWrite off p d).logs = s.logs ∧ (s.plainWrite off p d).lbOut = s.lbOut
    ∧ (s.plainWrite off p d).groups = s.groups ∧ (s.plainWrite off p d).rus = s.rus ∧ (s.plainWrite off p d).teams = s.teams
    ∧ (s.plainWrite off p d).i2c = s.i2c ∧ (s.plainWrite off p d).abort = s.abort ∧ (s.plainWrite off p d).halt = s.halt
    ∧ (s.plainWrite off p d).far = s.far ∧ (s.plainWrite off p d).mons = s.mons ∧ (s.plainWrite off p d).mc = s.mc ∧ (s.plainWrite off p d).ts = s.ts
    ∧ (s.plainWrite off p d).life = s.life ∧ (s.plainWrite off p d).cmap = s.cmap ∧ (s.plainWrite off p d).pwr = s.pwr
    ∧ (s.plainWrite off p d).rrUsed = s.rrUsed ∧ (s.plainWrite off p d).ruGone = s.ruGone ∧ (s.plainWrite off p d).berths = s.berths
    ∧ (s.plainWrite off p d).phys = s.phys := by
  refine ⟨rfl, rfl, rfl, rfl, rfl, rfl, rfl, rfl, rfl, rfl, rfl, rfl, rfl, rfl, rfl, rfl, rfl, rfl, rfl, rfl, rfl, rfl, rfl, rfl, rfl, rfl, rfl, rfl, rfl, rfl, rfl, rfl, rfl, rfl, rfl, rfl, rfl, rfl, rfl, rfl, rfl, rfl, rfl, rfl, rfl, rfl, rfl, rfl, rfl, rfl⟩

@[simp] theorem State.drive_frame (s : State) (o : Output) :
    (s.drive o).pending = s.pending ∧ (s.drive o).free = s.free ∧ (s.drive o).now = s.now ∧ (s.drive o).tod = s.tod ∧ (s.drive o).ident = s.ident
    ∧ (s.drive o).pfence = s.pfence ∧ (s.drive o).rg = s.rg ∧ (s.drive o).wshadow = s.wshadow ∧ (s.drive o).rshadow = s.rshadow
    ∧ (s.drive o).chans = s.chans ∧ (s.drive o).cpHeld = s.cpHeld ∧ (s.drive o).scal = s.scal ∧ (s.drive o).tally = s.tally
    ∧ (s.drive o).watch = s.watch ∧ (s.drive o).atc = s.atc ∧ (s.drive o).eng = s.eng ∧ (s.drive o).hm = s.hm ∧ (s.drive o).ra = s.ra
    ∧ (s.drive o).streams = s.streams ∧ (s.drive o).ev = s.ev ∧ (s.drive o).inj = s.inj ∧ (s.drive o).pseq = s.pseq ∧ (s.drive o).eject = s.eject
    ∧ (s.drive o).tbl = s.tbl ∧ (s.drive o).tows = s.tows ∧ (s.drive o).reins = s.reins ∧ (s.drive o).draws = s.draws ∧ (s.drive o).counts = s.counts
    ∧ (s.drive o).links = s.links ∧ (s.drive o).flt = s.flt ∧ (s.drive o).ccnt = s.ccnt ∧ (s.drive o).logs = s.logs ∧ (s.drive o).lbOut = s.lbOut
    ∧ (s.drive o).groups = s.groups ∧ (s.drive o).rus = s.rus ∧ (s.drive o).teams = s.teams ∧ (s.drive o).i2c = s.i2c ∧ (s.drive o).abort = s.abort
    ∧ (s.drive o).halt = s.halt ∧ (s.drive o).far = s.far ∧ (s.drive o).mons = s.mons ∧ (s.drive o).mc = s.mc ∧ (s.drive o).ts = s.ts
    ∧ (s.drive o).life = s.life ∧ (s.drive o).cmap = s.cmap ∧ (s.drive o).pwr = s.pwr ∧ (s.drive o).rrUsed = s.rrUsed ∧ (s.drive o).ruGone = s.ruGone
    ∧ (s.drive o).berths = s.berths ∧ (s.drive o).phys = s.phys := by
  refine ⟨rfl, rfl, rfl, rfl, rfl, rfl, rfl, rfl, rfl, rfl, rfl, rfl, rfl, rfl, rfl, rfl, rfl, rfl, rfl, rfl, rfl, rfl, rfl, rfl, rfl, rfl, rfl, rfl, rfl, rfl, rfl, rfl, rfl, rfl, rfl, rfl, rfl, rfl, rfl, rfl, rfl, rfl, rfl, rfl, rfl, rfl, rfl, rfl, rfl, rfl⟩

@[simp] theorem State.raiseX_frame (s : State) (r : Raise) :
    (s.raiseX r).pending = s.pending ∧ (s.raiseX r).out = s.out ∧ (s.raiseX r).free = s.free ∧ (s.raiseX r).now = s.now ∧ (s.raiseX r).tod = s.tod
    ∧ (s.raiseX r).ident = s.ident ∧ (s.raiseX r).pfence = s.pfence ∧ (s.raiseX r).rg = s.rg ∧ (s.raiseX r).wshadow = s.wshadow
    ∧ (s.raiseX r).rshadow = s.rshadow ∧ (s.raiseX r).chans = s.chans ∧ (s.raiseX r).cpHeld = s.cpHeld ∧ (s.raiseX r).scal = s.scal
    ∧ (s.raiseX r).tally = s.tally ∧ (s.raiseX r).watch = s.watch ∧ (s.raiseX r).atc = s.atc ∧ (s.raiseX r).eng = s.eng ∧ (s.raiseX r).hm = s.hm
    ∧ (s.raiseX r).ra = s.ra ∧ (s.raiseX r).streams = s.streams ∧ (s.raiseX r).ev = s.ev ∧ (s.raiseX r).inj = s.inj ∧ (s.raiseX r).pseq = s.pseq
    ∧ (s.raiseX r).eject = s.eject ∧ (s.raiseX r).tbl = s.tbl ∧ (s.raiseX r).tows = s.tows ∧ (s.raiseX r).reins = s.reins
    ∧ (s.raiseX r).draws = s.draws ∧ (s.raiseX r).counts = s.counts ∧ (s.raiseX r).links = s.links ∧ (s.raiseX r).ccnt = s.ccnt
    ∧ (s.raiseX r).logs = s.logs ∧ (s.raiseX r).lbOut = s.lbOut ∧ (s.raiseX r).groups = s.groups ∧ (s.raiseX r).rus = s.rus
    ∧ (s.raiseX r).teams = s.teams ∧ (s.raiseX r).i2c = s.i2c ∧ (s.raiseX r).abort = s.abort ∧ (s.raiseX r).halt = s.halt ∧ (s.raiseX r).far = s.far
    ∧ (s.raiseX r).mons = s.mons ∧ (s.raiseX r).mc = s.mc ∧ (s.raiseX r).ts = s.ts ∧ (s.raiseX r).life = s.life ∧ (s.raiseX r).cmap = s.cmap
    ∧ (s.raiseX r).pwr = s.pwr ∧ (s.raiseX r).rrUsed = s.rrUsed ∧ (s.raiseX r).ruGone = s.ruGone ∧ (s.raiseX r).berths = s.berths
    ∧ (s.raiseX r).phys = s.phys := by
  unfold State.raiseX
  split <;> refine ⟨rfl, rfl, rfl, rfl, rfl, rfl, rfl, rfl, rfl, rfl, rfl, rfl, rfl, rfl, rfl, rfl, rfl, rfl, rfl, rfl, rfl, rfl, rfl, rfl, rfl, rfl, rfl, rfl, rfl, rfl, rfl, rfl, rfl, rfl, rfl, rfl, rfl, rfl, rfl, rfl, rfl, rfl, rfl, rfl, rfl, rfl, rfl, rfl, rfl, rfl⟩

@[simp] theorem State.raise_frame (s : State) (code inst cls atype master addr detail : Nat) (inj : Bool) :
    (s.raise code inst cls atype master addr detail inj).pending = s.pending ∧ (s.raise code inst cls atype master addr detail inj).out = s.out
    ∧ (s.raise code inst cls atype master addr detail inj).free = s.free ∧ (s.raise code inst cls atype master addr detail inj).now = s.now
    ∧ (s.raise code inst cls atype master addr detail inj).tod = s.tod ∧ (s.raise code inst cls atype master addr detail inj).ident = s.ident
    ∧ (s.raise code inst cls atype master addr detail inj).pfence = s.pfence ∧ (s.raise code inst cls atype master addr detail inj).rg = s.rg
    ∧ (s.raise code inst cls atype master addr detail inj).wshadow = s.wshadow
    ∧ (s.raise code inst cls atype master addr detail inj).rshadow = s.rshadow ∧ (s.raise code inst cls atype master addr detail inj).chans = s.chans
    ∧ (s.raise code inst cls atype master addr detail inj).cpHeld = s.cpHeld ∧ (s.raise code inst cls atype master addr detail inj).scal = s.scal
    ∧ (s.raise code inst cls atype master addr detail inj).tally = s.tally ∧ (s.raise code inst cls atype master addr detail inj).watch = s.watch
    ∧ (s.raise code inst cls atype master addr detail inj).atc = s.atc ∧ (s.raise code inst cls atype master addr detail inj).eng = s.eng
    ∧ (s.raise code inst cls atype master addr detail inj).hm = s.hm ∧ (s.raise code inst cls atype master addr detail inj).ra = s.ra
    ∧ (s.raise code inst cls atype master addr detail inj).streams = s.streams ∧ (s.raise code inst cls atype master addr detail inj).ev = s.ev
    ∧ (s.raise code inst cls atype master addr detail inj).inj = s.inj ∧ (s.raise code inst cls atype master addr detail inj).pseq = s.pseq
    ∧ (s.raise code inst cls atype master addr detail inj).eject = s.eject ∧ (s.raise code inst cls atype master addr detail inj).tbl = s.tbl
    ∧ (s.raise code inst cls atype master addr detail inj).tows = s.tows ∧ (s.raise code inst cls atype master addr detail inj).reins = s.reins
    ∧ (s.raise code inst cls atype master addr detail inj).draws = s.draws ∧ (s.raise code inst cls atype master addr detail inj).counts = s.counts
    ∧ (s.raise code inst cls atype master addr detail inj).links = s.links ∧ (s.raise code inst cls atype master addr detail inj).ccnt = s.ccnt
    ∧ (s.raise code inst cls atype master addr detail inj).logs = s.logs ∧ (s.raise code inst cls atype master addr detail inj).lbOut = s.lbOut
    ∧ (s.raise code inst cls atype master addr detail inj).groups = s.groups ∧ (s.raise code inst cls atype master addr detail inj).rus = s.rus
    ∧ (s.raise code inst cls atype master addr detail inj).teams = s.teams ∧ (s.raise code inst cls atype master addr detail inj).i2c = s.i2c
    ∧ (s.raise code inst cls atype master addr detail inj).abort = s.abort ∧ (s.raise code inst cls atype master addr detail inj).halt = s.halt
    ∧ (s.raise code inst cls atype master addr detail inj).far = s.far ∧ (s.raise code inst cls atype master addr detail inj).mons = s.mons
    ∧ (s.raise code inst cls atype master addr detail inj).mc = s.mc ∧ (s.raise code inst cls atype master addr detail inj).ts = s.ts
    ∧ (s.raise code inst cls atype master addr detail inj).life = s.life ∧ (s.raise code inst cls atype master addr detail inj).cmap = s.cmap
    ∧ (s.raise code inst cls atype master addr detail inj).pwr = s.pwr ∧ (s.raise code inst cls atype master addr detail inj).rrUsed = s.rrUsed
    ∧ (s.raise code inst cls atype master addr detail inj).ruGone = s.ruGone ∧ (s.raise code inst cls atype master addr detail inj).berths = s.berths
    ∧ (s.raise code inst cls atype master addr detail inj).phys = s.phys := by
  exact s.raiseX_frame ⟨code, inst, cls, inj, atype, master, addr, detail, s.time⟩

@[simp] theorem State.takeInj_frame (s : State) (code inst : Nat) :
    (s.takeInj code inst).2.pending = s.pending ∧ (s.takeInj code inst).2.out = s.out ∧ (s.takeInj code inst).2.free = s.free
    ∧ (s.takeInj code inst).2.now = s.now ∧ (s.takeInj code inst).2.tod = s.tod ∧ (s.takeInj code inst).2.ident = s.ident
    ∧ (s.takeInj code inst).2.pfence = s.pfence ∧ (s.takeInj code inst).2.wshadow = s.wshadow ∧ (s.takeInj code inst).2.rshadow = s.rshadow
    ∧ (s.takeInj code inst).2.chans = s.chans ∧ (s.takeInj code inst).2.cpHeld = s.cpHeld ∧ (s.takeInj code inst).2.scal = s.scal
    ∧ (s.takeInj code inst).2.tally = s.tally ∧ (s.takeInj code inst).2.watch = s.watch ∧ (s.takeInj code inst).2.atc = s.atc
    ∧ (s.takeInj code inst).2.eng = s.eng ∧ (s.takeInj code inst).2.hm = s.hm ∧ (s.takeInj code inst).2.ra = s.ra
    ∧ (s.takeInj code inst).2.streams = s.streams ∧ (s.takeInj code inst).2.ev = s.ev ∧ (s.takeInj code inst).2.inj = s.inj
    ∧ (s.takeInj code inst).2.pseq = s.pseq ∧ (s.takeInj code inst).2.eject = s.eject ∧ (s.takeInj code inst).2.tbl = s.tbl
    ∧ (s.takeInj code inst).2.tows = s.tows ∧ (s.takeInj code inst).2.reins = s.reins ∧ (s.takeInj code inst).2.draws = s.draws
    ∧ (s.takeInj code inst).2.counts = s.counts ∧ (s.takeInj code inst).2.links = s.links ∧ (s.takeInj code inst).2.ccnt = s.ccnt
    ∧ (s.takeInj code inst).2.logs = s.logs ∧ (s.takeInj code inst).2.lbOut = s.lbOut ∧ (s.takeInj code inst).2.groups = s.groups
    ∧ (s.takeInj code inst).2.rus = s.rus ∧ (s.takeInj code inst).2.teams = s.teams ∧ (s.takeInj code inst).2.i2c = s.i2c
    ∧ (s.takeInj code inst).2.abort = s.abort ∧ (s.takeInj code inst).2.halt = s.halt ∧ (s.takeInj code inst).2.far = s.far
    ∧ (s.takeInj code inst).2.mons = s.mons ∧ (s.takeInj code inst).2.mc = s.mc ∧ (s.takeInj code inst).2.ts = s.ts
    ∧ (s.takeInj code inst).2.life = s.life ∧ (s.takeInj code inst).2.cmap = s.cmap ∧ (s.takeInj code inst).2.pwr = s.pwr
    ∧ (s.takeInj code inst).2.rrUsed = s.rrUsed ∧ (s.takeInj code inst).2.ruGone = s.ruGone ∧ (s.takeInj code inst).2.berths = s.berths
    ∧ (s.takeInj code inst).2.phys = s.phys := by
  unfold State.takeInj
  (repeat' split) <;> refine ⟨rfl, rfl, rfl, rfl, rfl, rfl, rfl, rfl, rfl, rfl, rfl, rfl, rfl, rfl, rfl, rfl, rfl, rfl, rfl, rfl, rfl, rfl, rfl, rfl, rfl, rfl, rfl, rfl, rfl, rfl, rfl, rfl, rfl, rfl, rfl, rfl, rfl, rfl, rfl, rfl, rfl, rfl, rfl, rfl, rfl, rfl, rfl, rfl, rfl⟩

@[simp] theorem State.takeEcc_frame (s : State) (code inst cls atype master : Nat) :
    (s.takeEcc code inst cls atype master).2.pending = s.pending ∧ (s.takeEcc code inst cls atype master).2.out = s.out
    ∧ (s.takeEcc code inst cls atype master).2.free = s.free ∧ (s.takeEcc code inst cls atype master).2.now = s.now
    ∧ (s.takeEcc code inst cls atype master).2.tod = s.tod ∧ (s.takeEcc code inst cls atype master).2.ident = s.ident
    ∧ (s.takeEcc code inst cls atype master).2.pfence = s.pfence ∧ (s.takeEcc code inst cls atype master).2.wshadow = s.wshadow
    ∧ (s.takeEcc code inst cls atype master).2.rshadow = s.rshadow ∧ (s.takeEcc code inst cls atype master).2.chans = s.chans
    ∧ (s.takeEcc code inst cls atype master).2.cpHeld = s.cpHeld ∧ (s.takeEcc code inst cls atype master).2.scal = s.scal
    ∧ (s.takeEcc code inst cls atype master).2.tally = s.tally ∧ (s.takeEcc code inst cls atype master).2.watch = s.watch
    ∧ (s.takeEcc code inst cls atype master).2.atc = s.atc ∧ (s.takeEcc code inst cls atype master).2.eng = s.eng
    ∧ (s.takeEcc code inst cls atype master).2.hm = s.hm ∧ (s.takeEcc code inst cls atype master).2.ra = s.ra
    ∧ (s.takeEcc code inst cls atype master).2.streams = s.streams ∧ (s.takeEcc code inst cls atype master).2.ev = s.ev
    ∧ (s.takeEcc code inst cls atype master).2.inj = s.inj ∧ (s.takeEcc code inst cls atype master).2.pseq = s.pseq
    ∧ (s.takeEcc code inst cls atype master).2.eject = s.eject ∧ (s.takeEcc code inst cls atype master).2.tbl = s.tbl
    ∧ (s.takeEcc code inst cls atype master).2.tows = s.tows ∧ (s.takeEcc code inst cls atype master).2.reins = s.reins
    ∧ (s.takeEcc code inst cls atype master).2.draws = s.draws ∧ (s.takeEcc code inst cls atype master).2.counts = s.counts
    ∧ (s.takeEcc code inst cls atype master).2.links = s.links ∧ (s.takeEcc code inst cls atype master).2.ccnt = s.ccnt
    ∧ (s.takeEcc code inst cls atype master).2.logs = s.logs ∧ (s.takeEcc code inst cls atype master).2.lbOut = s.lbOut
    ∧ (s.takeEcc code inst cls atype master).2.groups = s.groups ∧ (s.takeEcc code inst cls atype master).2.rus = s.rus
    ∧ (s.takeEcc code inst cls atype master).2.teams = s.teams ∧ (s.takeEcc code inst cls atype master).2.i2c = s.i2c
    ∧ (s.takeEcc code inst cls atype master).2.abort = s.abort ∧ (s.takeEcc code inst cls atype master).2.halt = s.halt
    ∧ (s.takeEcc code inst cls atype master).2.far = s.far ∧ (s.takeEcc code inst cls atype master).2.mons = s.mons
    ∧ (s.takeEcc code inst cls atype master).2.mc = s.mc ∧ (s.takeEcc code inst cls atype master).2.ts = s.ts
    ∧ (s.takeEcc code inst cls atype master).2.life = s.life ∧ (s.takeEcc code inst cls atype master).2.cmap = s.cmap
    ∧ (s.takeEcc code inst cls atype master).2.pwr = s.pwr ∧ (s.takeEcc code inst cls atype master).2.rrUsed = s.rrUsed
    ∧ (s.takeEcc code inst cls atype master).2.ruGone = s.ruGone ∧ (s.takeEcc code inst cls atype master).2.berths = s.berths
    ∧ (s.takeEcc code inst cls atype master).2.phys = s.phys := by
  have h := s.takeInj_frame code inst
  unfold State.takeEcc
  rcases hx : s.takeInj code inst with ⟨i, u⟩
  rw [hx] at h
  (repeat' split) <;> simp_all

@[simp] theorem State.modCount_frame (s : State) (k : Nat) (f : Counts → Counts) :
    (s.modCount k f).pending = s.pending ∧ (s.modCount k f).out = s.out ∧ (s.modCount k f).free = s.free ∧ (s.modCount k f).now = s.now
    ∧ (s.modCount k f).tod = s.tod ∧ (s.modCount k f).ident = s.ident ∧ (s.modCount k f).pfence = s.pfence ∧ (s.modCount k f).rg = s.rg
    ∧ (s.modCount k f).wshadow = s.wshadow ∧ (s.modCount k f).rshadow = s.rshadow ∧ (s.modCount k f).chans = s.chans
    ∧ (s.modCount k f).cpHeld = s.cpHeld ∧ (s.modCount k f).scal = s.scal ∧ (s.modCount k f).tally = s.tally ∧ (s.modCount k f).watch = s.watch
    ∧ (s.modCount k f).atc = s.atc ∧ (s.modCount k f).eng = s.eng ∧ (s.modCount k f).hm = s.hm ∧ (s.modCount k f).ra = s.ra
    ∧ (s.modCount k f).streams = s.streams ∧ (s.modCount k f).ev = s.ev ∧ (s.modCount k f).inj = s.inj ∧ (s.modCount k f).pseq = s.pseq
    ∧ (s.modCount k f).eject = s.eject ∧ (s.modCount k f).tbl = s.tbl ∧ (s.modCount k f).tows = s.tows ∧ (s.modCount k f).reins = s.reins
    ∧ (s.modCount k f).rrUsed = s.rrUsed ∧ (s.modCount k f).draws = s.draws ∧ (s.modCount k f).links = s.links ∧ (s.modCount k f).flt = s.flt
    ∧ (s.modCount k f).ccnt = s.ccnt ∧ (s.modCount k f).logs = s.logs ∧ (s.modCount k f).lbOut = s.lbOut ∧ (s.modCount k f).groups = s.groups
    ∧ (s.modCount k f).rus = s.rus ∧ (s.modCount k f).ruGone = s.ruGone ∧ (s.modCount k f).berths = s.berths ∧ (s.modCount k f).teams = s.teams
    ∧ (s.modCount k f).phys = s.phys ∧ (s.modCount k f).i2c = s.i2c ∧ (s.modCount k f).abort = s.abort ∧ (s.modCount k f).halt = s.halt
    ∧ (s.modCount k f).far = s.far ∧ (s.modCount k f).mons = s.mons ∧ (s.modCount k f).mc = s.mc ∧ (s.modCount k f).ts = s.ts
    ∧ (s.modCount k f).life = s.life ∧ (s.modCount k f).cmap = s.cmap ∧ (s.modCount k f).pwr = s.pwr := by
  refine ⟨rfl, rfl, rfl, rfl, rfl, rfl, rfl, rfl, rfl, rfl, rfl, rfl, rfl, rfl, rfl, rfl, rfl, rfl, rfl, rfl, rfl, rfl, rfl, rfl, rfl, rfl, rfl, rfl, rfl, rfl, rfl, rfl, rfl, rfl, rfl, rfl, rfl, rfl, rfl, rfl, rfl, rfl, rfl, rfl, rfl, rfl, rfl, rfl, rfl, rfl⟩

@[simp] theorem State.modCnt_frame (s : State) (k : Nat) (f : ChanCnt → ChanCnt) :
    (s.modCnt k f).pending = s.pending ∧ (s.modCnt k f).out = s.out ∧ (s.modCnt k f).free = s.free ∧ (s.modCnt k f).now = s.now
    ∧ (s.modCnt k f).tod = s.tod ∧ (s.modCnt k f).ident = s.ident ∧ (s.modCnt k f).pfence = s.pfence ∧ (s.modCnt k f).rg = s.rg
    ∧ (s.modCnt k f).wshadow = s.wshadow ∧ (s.modCnt k f).rshadow = s.rshadow ∧ (s.modCnt k f).chans = s.chans ∧ (s.modCnt k f).cpHeld = s.cpHeld
    ∧ (s.modCnt k f).scal = s.scal ∧ (s.modCnt k f).tally = s.tally ∧ (s.modCnt k f).watch = s.watch ∧ (s.modCnt k f).atc = s.atc
    ∧ (s.modCnt k f).eng = s.eng ∧ (s.modCnt k f).hm = s.hm ∧ (s.modCnt k f).ra = s.ra ∧ (s.modCnt k f).streams = s.streams
    ∧ (s.modCnt k f).ev = s.ev ∧ (s.modCnt k f).inj = s.inj ∧ (s.modCnt k f).pseq = s.pseq ∧ (s.modCnt k f).eject = s.eject
    ∧ (s.modCnt k f).tbl = s.tbl ∧ (s.modCnt k f).tows = s.tows ∧ (s.modCnt k f).reins = s.reins ∧ (s.modCnt k f).rrUsed = s.rrUsed
    ∧ (s.modCnt k f).draws = s.draws ∧ (s.modCnt k f).counts = s.counts ∧ (s.modCnt k f).links = s.links ∧ (s.modCnt k f).flt = s.flt
    ∧ (s.modCnt k f).logs = s.logs ∧ (s.modCnt k f).lbOut = s.lbOut ∧ (s.modCnt k f).groups = s.groups ∧ (s.modCnt k f).rus = s.rus
    ∧ (s.modCnt k f).ruGone = s.ruGone ∧ (s.modCnt k f).berths = s.berths ∧ (s.modCnt k f).teams = s.teams ∧ (s.modCnt k f).phys = s.phys
    ∧ (s.modCnt k f).i2c = s.i2c ∧ (s.modCnt k f).abort = s.abort ∧ (s.modCnt k f).halt = s.halt ∧ (s.modCnt k f).far = s.far
    ∧ (s.modCnt k f).mons = s.mons ∧ (s.modCnt k f).mc = s.mc ∧ (s.modCnt k f).ts = s.ts ∧ (s.modCnt k f).life = s.life
    ∧ (s.modCnt k f).cmap = s.cmap ∧ (s.modCnt k f).pwr = s.pwr := by
  refine ⟨rfl, rfl, rfl, rfl, rfl, rfl, rfl, rfl, rfl, rfl, rfl, rfl, rfl, rfl, rfl, rfl, rfl, rfl, rfl, rfl, rfl, rfl, rfl, rfl, rfl, rfl, rfl, rfl, rfl, rfl, rfl, rfl, rfl, rfl, rfl, rfl, rfl, rfl, rfl, rfl, rfl, rfl, rfl, rfl, rfl, rfl, rfl, rfl, rfl, rfl⟩

@[simp] theorem State.modLog_frame (s : State) (n : Nat) (f : Log → Log) :
    (s.modLog n f).pending = s.pending ∧ (s.modLog n f).out = s.out ∧ (s.modLog n f).free = s.free ∧ (s.modLog n f).now = s.now
    ∧ (s.modLog n f).tod = s.tod ∧ (s.modLog n f).ident = s.ident ∧ (s.modLog n f).pfence = s.pfence ∧ (s.modLog n f).rg = s.rg
    ∧ (s.modLog n f).wshadow = s.wshadow ∧ (s.modLog n f).rshadow = s.rshadow ∧ (s.modLog n f).chans = s.chans ∧ (s.modLog n f).cpHeld = s.cpHeld
    ∧ (s.modLog n f).scal = s.scal ∧ (s.modLog n f).tally = s.tally ∧ (s.modLog n f).watch = s.watch ∧ (s.modLog n f).atc = s.atc
    ∧ (s.modLog n f).eng = s.eng ∧ (s.modLog n f).hm = s.hm ∧ (s.modLog n f).ra = s.ra ∧ (s.modLog n f).streams = s.streams
    ∧ (s.modLog n f).ev = s.ev ∧ (s.modLog n f).inj = s.inj ∧ (s.modLog n f).pseq = s.pseq ∧ (s.modLog n f).eject = s.eject
    ∧ (s.modLog n f).tbl = s.tbl ∧ (s.modLog n f).tows = s.tows ∧ (s.modLog n f).reins = s.reins ∧ (s.modLog n f).rrUsed = s.rrUsed
    ∧ (s.modLog n f).draws = s.draws ∧ (s.modLog n f).counts = s.counts ∧ (s.modLog n f).links = s.links ∧ (s.modLog n f).flt = s.flt
    ∧ (s.modLog n f).ccnt = s.ccnt ∧ (s.modLog n f).lbOut = s.lbOut ∧ (s.modLog n f).groups = s.groups ∧ (s.modLog n f).rus = s.rus
    ∧ (s.modLog n f).ruGone = s.ruGone ∧ (s.modLog n f).berths = s.berths ∧ (s.modLog n f).teams = s.teams ∧ (s.modLog n f).phys = s.phys
    ∧ (s.modLog n f).i2c = s.i2c ∧ (s.modLog n f).abort = s.abort ∧ (s.modLog n f).halt = s.halt ∧ (s.modLog n f).far = s.far
    ∧ (s.modLog n f).mons = s.mons ∧ (s.modLog n f).mc = s.mc ∧ (s.modLog n f).ts = s.ts ∧ (s.modLog n f).life = s.life
    ∧ (s.modLog n f).cmap = s.cmap ∧ (s.modLog n f).pwr = s.pwr := by
  refine ⟨rfl, rfl, rfl, rfl, rfl, rfl, rfl, rfl, rfl, rfl, rfl, rfl, rfl, rfl, rfl, rfl, rfl, rfl, rfl, rfl, rfl, rfl, rfl, rfl, rfl, rfl, rfl, rfl, rfl, rfl, rfl, rfl, rfl, rfl, rfl, rfl, rfl, rfl, rfl, rfl, rfl, rfl, rfl, rfl, rfl, rfl, rfl, rfl, rfl, rfl⟩

@[simp] theorem State.modMon_frame (s : State) (i : Nat) (f : Monitor → Monitor) :
    (s.modMon i f).pending = s.pending ∧ (s.modMon i f).out = s.out ∧ (s.modMon i f).free = s.free ∧ (s.modMon i f).now = s.now
    ∧ (s.modMon i f).tod = s.tod ∧ (s.modMon i f).ident = s.ident ∧ (s.modMon i f).pfence = s.pfence ∧ (s.modMon i f).rg = s.rg
    ∧ (s.modMon i f).wshadow = s.wshadow ∧ (s.modMon i f).rshadow = s.rshadow ∧ (s.modMon i f).chans = s.chans ∧ (s.modMon i f).cpHeld = s.cpHeld
    ∧ (s.modMon i f).scal = s.scal ∧ (s.modMon i f).tally = s.tally ∧ (s.modMon i f).watch = s.watch ∧ (s.modMon i f).atc = s.atc
    ∧ (s.modMon i f).eng = s.eng ∧ (s.modMon i f).hm = s.hm ∧ (s.modMon i f).ra = s.ra ∧ (s.modMon i f).streams = s.streams
    ∧ (s.modMon i f).ev = s.ev ∧ (s.modMon i f).inj = s.inj ∧ (s.modMon i f).pseq = s.pseq ∧ (s.modMon i f).eject = s.eject
    ∧ (s.modMon i f).tbl = s.tbl ∧ (s.modMon i f).tows = s.tows ∧ (s.modMon i f).reins = s.reins ∧ (s.modMon i f).rrUsed = s.rrUsed
    ∧ (s.modMon i f).draws = s.draws ∧ (s.modMon i f).counts = s.counts ∧ (s.modMon i f).links = s.links ∧ (s.modMon i f).flt = s.flt
    ∧ (s.modMon i f).ccnt = s.ccnt ∧ (s.modMon i f).logs = s.logs ∧ (s.modMon i f).lbOut = s.lbOut ∧ (s.modMon i f).groups = s.groups
    ∧ (s.modMon i f).rus = s.rus ∧ (s.modMon i f).ruGone = s.ruGone ∧ (s.modMon i f).berths = s.berths ∧ (s.modMon i f).teams = s.teams
    ∧ (s.modMon i f).phys = s.phys ∧ (s.modMon i f).i2c = s.i2c ∧ (s.modMon i f).abort = s.abort ∧ (s.modMon i f).halt = s.halt
    ∧ (s.modMon i f).far = s.far ∧ (s.modMon i f).mc = s.mc ∧ (s.modMon i f).ts = s.ts ∧ (s.modMon i f).life = s.life ∧ (s.modMon i f).cmap = s.cmap
    ∧ (s.modMon i f).pwr = s.pwr := by
  refine ⟨rfl, rfl, rfl, rfl, rfl, rfl, rfl, rfl, rfl, rfl, rfl, rfl, rfl, rfl, rfl, rfl, rfl, rfl, rfl, rfl, rfl, rfl, rfl, rfl, rfl, rfl, rfl, rfl, rfl, rfl, rfl, rfl, rfl, rfl, rfl, rfl, rfl, rfl, rfl, rfl, rfl, rfl, rfl, rfl, rfl, rfl, rfl, rfl, rfl, rfl⟩

@[simp] theorem State.modTeam_frame (s : State) (t : Nat) (f : Team → Team) :
    (s.modTeam t f).pending = s.pending ∧ (s.modTeam t f).out = s.out ∧ (s.modTeam t f).free = s.free ∧ (s.modTeam t f).now = s.now
    ∧ (s.modTeam t f).tod = s.tod ∧ (s.modTeam t f).ident = s.ident ∧ (s.modTeam t f).pfence = s.pfence ∧ (s.modTeam t f).rg = s.rg
    ∧ (s.modTeam t f).wshadow = s.wshadow ∧ (s.modTeam t f).rshadow = s.rshadow ∧ (s.modTeam t f).chans = s.chans ∧ (s.modTeam t f).cpHeld = s.cpHeld
    ∧ (s.modTeam t f).scal = s.scal ∧ (s.modTeam t f).tally = s.tally ∧ (s.modTeam t f).watch = s.watch ∧ (s.modTeam t f).atc = s.atc
    ∧ (s.modTeam t f).eng = s.eng ∧ (s.modTeam t f).hm = s.hm ∧ (s.modTeam t f).ra = s.ra ∧ (s.modTeam t f).streams = s.streams
    ∧ (s.modTeam t f).ev = s.ev ∧ (s.modTeam t f).inj = s.inj ∧ (s.modTeam t f).pseq = s.pseq ∧ (s.modTeam t f).eject = s.eject
    ∧ (s.modTeam t f).tbl = s.tbl ∧ (s.modTeam t f).tows = s.tows ∧ (s.modTeam t f).reins = s.reins ∧ (s.modTeam t f).rrUsed = s.rrUsed
    ∧ (s.modTeam t f).draws = s.draws ∧ (s.modTeam t f).counts = s.counts ∧ (s.modTeam t f).links = s.links ∧ (s.modTeam t f).flt = s.flt
    ∧ (s.modTeam t f).ccnt = s.ccnt ∧ (s.modTeam t f).logs = s.logs ∧ (s.modTeam t f).lbOut = s.lbOut ∧ (s.modTeam t f).groups = s.groups
    ∧ (s.modTeam t f).rus = s.rus ∧ (s.modTeam t f).ruGone = s.ruGone ∧ (s.modTeam t f).berths = s.berths ∧ (s.modTeam t f).phys = s.phys
    ∧ (s.modTeam t f).i2c = s.i2c ∧ (s.modTeam t f).abort = s.abort ∧ (s.modTeam t f).halt = s.halt ∧ (s.modTeam t f).far = s.far
    ∧ (s.modTeam t f).mons = s.mons ∧ (s.modTeam t f).mc = s.mc ∧ (s.modTeam t f).ts = s.ts ∧ (s.modTeam t f).life = s.life
    ∧ (s.modTeam t f).cmap = s.cmap ∧ (s.modTeam t f).pwr = s.pwr := by
  refine ⟨rfl, rfl, rfl, rfl, rfl, rfl, rfl, rfl, rfl, rfl, rfl, rfl, rfl, rfl, rfl, rfl, rfl, rfl, rfl, rfl, rfl, rfl, rfl, rfl, rfl, rfl, rfl, rfl, rfl, rfl, rfl, rfl, rfl, rfl, rfl, rfl, rfl, rfl, rfl, rfl, rfl, rfl, rfl, rfl, rfl, rfl, rfl, rfl, rfl, rfl⟩

@[simp] theorem State.modPhy_frame (s : State) (t : Nat) (f : Phy → Phy) :
    (s.modPhy t f).pending = s.pending ∧ (s.modPhy t f).out = s.out ∧ (s.modPhy t f).free = s.free ∧ (s.modPhy t f).now = s.now
    ∧ (s.modPhy t f).tod = s.tod ∧ (s.modPhy t f).ident = s.ident ∧ (s.modPhy t f).pfence = s.pfence ∧ (s.modPhy t f).rg = s.rg
    ∧ (s.modPhy t f).wshadow = s.wshadow ∧ (s.modPhy t f).rshadow = s.rshadow ∧ (s.modPhy t f).chans = s.chans ∧ (s.modPhy t f).cpHeld = s.cpHeld
    ∧ (s.modPhy t f).scal = s.scal ∧ (s.modPhy t f).tally = s.tally ∧ (s.modPhy t f).watch = s.watch ∧ (s.modPhy t f).atc = s.atc
    ∧ (s.modPhy t f).eng = s.eng ∧ (s.modPhy t f).hm = s.hm ∧ (s.modPhy t f).ra = s.ra ∧ (s.modPhy t f).streams = s.streams
    ∧ (s.modPhy t f).ev = s.ev ∧ (s.modPhy t f).inj = s.inj ∧ (s.modPhy t f).pseq = s.pseq ∧ (s.modPhy t f).eject = s.eject
    ∧ (s.modPhy t f).tbl = s.tbl ∧ (s.modPhy t f).tows = s.tows ∧ (s.modPhy t f).reins = s.reins ∧ (s.modPhy t f).rrUsed = s.rrUsed
    ∧ (s.modPhy t f).draws = s.draws ∧ (s.modPhy t f).counts = s.counts ∧ (s.modPhy t f).links = s.links ∧ (s.modPhy t f).flt = s.flt
    ∧ (s.modPhy t f).ccnt = s.ccnt ∧ (s.modPhy t f).logs = s.logs ∧ (s.modPhy t f).lbOut = s.lbOut ∧ (s.modPhy t f).groups = s.groups
    ∧ (s.modPhy t f).rus = s.rus ∧ (s.modPhy t f).ruGone = s.ruGone ∧ (s.modPhy t f).berths = s.berths ∧ (s.modPhy t f).teams = s.teams
    ∧ (s.modPhy t f).i2c = s.i2c ∧ (s.modPhy t f).abort = s.abort ∧ (s.modPhy t f).halt = s.halt ∧ (s.modPhy t f).far = s.far
    ∧ (s.modPhy t f).mons = s.mons ∧ (s.modPhy t f).mc = s.mc ∧ (s.modPhy t f).ts = s.ts ∧ (s.modPhy t f).life = s.life
    ∧ (s.modPhy t f).cmap = s.cmap ∧ (s.modPhy t f).pwr = s.pwr := by
  refine ⟨rfl, rfl, rfl, rfl, rfl, rfl, rfl, rfl, rfl, rfl, rfl, rfl, rfl, rfl, rfl, rfl, rfl, rfl, rfl, rfl, rfl, rfl, rfl, rfl, rfl, rfl, rfl, rfl, rfl, rfl, rfl, rfl, rfl, rfl, rfl, rfl, rfl, rfl, rfl, rfl, rfl, rfl, rfl, rfl, rfl, rfl, rfl, rfl, rfl, rfl⟩

@[simp] theorem State.modUnit_frame (s : State) (u : Nat) (f : RUnit → RUnit) :
    (s.modUnit u f).pending = s.pending ∧ (s.modUnit u f).out = s.out ∧ (s.modUnit u f).free = s.free ∧ (s.modUnit u f).now = s.now
    ∧ (s.modUnit u f).tod = s.tod ∧ (s.modUnit u f).ident = s.ident ∧ (s.modUnit u f).pfence = s.pfence ∧ (s.modUnit u f).rg = s.rg
    ∧ (s.modUnit u f).wshadow = s.wshadow ∧ (s.modUnit u f).rshadow = s.rshadow ∧ (s.modUnit u f).chans = s.chans ∧ (s.modUnit u f).cpHeld = s.cpHeld
    ∧ (s.modUnit u f).scal = s.scal ∧ (s.modUnit u f).tally = s.tally ∧ (s.modUnit u f).watch = s.watch ∧ (s.modUnit u f).atc = s.atc
    ∧ (s.modUnit u f).eng = s.eng ∧ (s.modUnit u f).hm = s.hm ∧ (s.modUnit u f).ra = s.ra ∧ (s.modUnit u f).streams = s.streams
    ∧ (s.modUnit u f).ev = s.ev ∧ (s.modUnit u f).inj = s.inj ∧ (s.modUnit u f).pseq = s.pseq ∧ (s.modUnit u f).eject = s.eject
    ∧ (s.modUnit u f).tbl = s.tbl ∧ (s.modUnit u f).tows = s.tows ∧ (s.modUnit u f).reins = s.reins ∧ (s.modUnit u f).rrUsed = s.rrUsed
    ∧ (s.modUnit u f).draws = s.draws ∧ (s.modUnit u f).counts = s.counts ∧ (s.modUnit u f).links = s.links ∧ (s.modUnit u f).flt = s.flt
    ∧ (s.modUnit u f).ccnt = s.ccnt ∧ (s.modUnit u f).logs = s.logs ∧ (s.modUnit u f).lbOut = s.lbOut ∧ (s.modUnit u f).groups = s.groups
    ∧ (s.modUnit u f).ruGone = s.ruGone ∧ (s.modUnit u f).berths = s.berths ∧ (s.modUnit u f).teams = s.teams ∧ (s.modUnit u f).phys = s.phys
    ∧ (s.modUnit u f).i2c = s.i2c ∧ (s.modUnit u f).abort = s.abort ∧ (s.modUnit u f).halt = s.halt ∧ (s.modUnit u f).far = s.far
    ∧ (s.modUnit u f).mons = s.mons ∧ (s.modUnit u f).mc = s.mc ∧ (s.modUnit u f).ts = s.ts ∧ (s.modUnit u f).life = s.life
    ∧ (s.modUnit u f).cmap = s.cmap ∧ (s.modUnit u f).pwr = s.pwr := by
  refine ⟨rfl, rfl, rfl, rfl, rfl, rfl, rfl, rfl, rfl, rfl, rfl, rfl, rfl, rfl, rfl, rfl, rfl, rfl, rfl, rfl, rfl, rfl, rfl, rfl, rfl, rfl, rfl, rfl, rfl, rfl, rfl, rfl, rfl, rfl, rfl, rfl, rfl, rfl, rfl, rfl, rfl, rfl, rfl, rfl, rfl, rfl, rfl, rfl, rfl, rfl⟩

@[simp] theorem State.modGroup_frame (s : State) (g : Nat) (f : Group → Group) :
    (s.modGroup g f).pending = s.pending ∧ (s.modGroup g f).out = s.out ∧ (s.modGroup g f).free = s.free ∧ (s.modGroup g f).now = s.now
    ∧ (s.modGroup g f).tod = s.tod ∧ (s.modGroup g f).ident = s.ident ∧ (s.modGroup g f).pfence = s.pfence ∧ (s.modGroup g f).rg = s.rg
    ∧ (s.modGroup g f).wshadow = s.wshadow ∧ (s.modGroup g f).rshadow = s.rshadow ∧ (s.modGroup g f).chans = s.chans
    ∧ (s.modGroup g f).cpHeld = s.cpHeld ∧ (s.modGroup g f).scal = s.scal ∧ (s.modGroup g f).tally = s.tally ∧ (s.modGroup g f).watch = s.watch
    ∧ (s.modGroup g f).atc = s.atc ∧ (s.modGroup g f).eng = s.eng ∧ (s.modGroup g f).hm = s.hm ∧ (s.modGroup g f).ra = s.ra
    ∧ (s.modGroup g f).streams = s.streams ∧ (s.modGroup g f).ev = s.ev ∧ (s.modGroup g f).inj = s.inj ∧ (s.modGroup g f).pseq = s.pseq
    ∧ (s.modGroup g f).eject = s.eject ∧ (s.modGroup g f).tbl = s.tbl ∧ (s.modGroup g f).tows = s.tows ∧ (s.modGroup g f).reins = s.reins
    ∧ (s.modGroup g f).rrUsed = s.rrUsed ∧ (s.modGroup g f).draws = s.draws ∧ (s.modGroup g f).counts = s.counts ∧ (s.modGroup g f).links = s.links
    ∧ (s.modGroup g f).flt = s.flt ∧ (s.modGroup g f).ccnt = s.ccnt ∧ (s.modGroup g f).logs = s.logs ∧ (s.modGroup g f).lbOut = s.lbOut
    ∧ (s.modGroup g f).rus = s.rus ∧ (s.modGroup g f).ruGone = s.ruGone ∧ (s.modGroup g f).berths = s.berths ∧ (s.modGroup g f).teams = s.teams
    ∧ (s.modGroup g f).phys = s.phys ∧ (s.modGroup g f).i2c = s.i2c ∧ (s.modGroup g f).abort = s.abort ∧ (s.modGroup g f).halt = s.halt
    ∧ (s.modGroup g f).far = s.far ∧ (s.modGroup g f).mons = s.mons ∧ (s.modGroup g f).mc = s.mc ∧ (s.modGroup g f).ts = s.ts
    ∧ (s.modGroup g f).life = s.life ∧ (s.modGroup g f).cmap = s.cmap ∧ (s.modGroup g f).pwr = s.pwr := by
  refine ⟨rfl, rfl, rfl, rfl, rfl, rfl, rfl, rfl, rfl, rfl, rfl, rfl, rfl, rfl, rfl, rfl, rfl, rfl, rfl, rfl, rfl, rfl, rfl, rfl, rfl, rfl, rfl, rfl, rfl, rfl, rfl, rfl, rfl, rfl, rfl, rfl, rfl, rfl, rfl, rfl, rfl, rfl, rfl, rfl, rfl, rfl, rfl, rfl, rfl, rfl⟩


end Sys2Proof.Machine
end

