-- ==== Sys2Proof/Laws/Cmd.lean ====
section
/-! SUPPORT. What the wrappers of every command do: a command whose event can happen has its effect, one whose
event cannot happen leaves the state as it was, and a register write that is made is its row's write. -/

namespace Sys2Proof.Machine

theorem runAny_true (s : State) (f : State → State) :
    runAny s true f = .next { f { s with out := [] } with pending := s.pending } := rfl

theorem runAny_false (s : State) (f : State → State) : runAny s false f = .next { s with out := [] } := rfl

theorem run_true {s : State} (h : s.alive = true) (f : State → State) :
    run s true f = .next { f { s with out := [] } with pending := s.pending } := by
  simp [run, runAny_true, h]

theorem run_false (s : State) (f : State → State) : run s false f = .next { s with out := [] } := by
  simp [run, runAny_false]

theorem run_dead {s : State} (h : s.alive = false) (ok : Bool) (f : State → State) :
    run s ok f = .next { s with out := [] } := by
  simp [run, runAny_false, h]

/-- A command of the block out of reset whose event can happen answers its effect. -/
theorem run_ok {s : State} {ok : Bool} (h : s.alive = true) (hk : ok = true) (f : State → State) :
    run s ok f = .next { f { s with out := [] } with pending := s.pending } := by
  subst hk; exact run_true h f

/-- Every use of `runAny` answers a next state with the queue as it was. -/
theorem runAny_next (s : State) (ok : Bool) (f : State → State) :
    ∃ t, runAny s ok f = .next t ∧ t.pending = s.pending := ⟨_, rfl, rfl⟩

theorem run_next (s : State) (ok : Bool) (f : State → State) :
    ∃ t, run s ok f = .next t ∧ t.pending = s.pending := runAny_next s _ f

theorem regCmd_next (s : State) (ok : Bool) (off : Nat) (a : RgAcc) (f : State → Bool → Word → State) (al : Bool) :
    ∃ t, regCmd s ok off a f al = .next t ∧ t.pending = s.pending := by
  unfold regCmd; split
  · exact run_next s _ _
  · exact runAny_next s _ _

theorem readCmd_next (s : State) (ok : Bool) (off : Nat) (par : Bool) :
    ∃ t, readCmd s ok off par = .next t ∧ t.pending = s.pending := by
  unfold readCmd; split
  · exact run_next s _ _
  · exact runAny_next s _ _

/-- Forcing a bit that stands as the row says changes nothing. -/
theorem RgAcc.force_eq {a : RgAcc} {i : Nat} {v : Bool} (h : a.bit i = v) : RgAcc.force a i v = a := by
  unfold RgAcc.force
  rw [if_pos]
  exact h

/-- What a made register write does: the row's write, and the answer to the host. -/
theorem regWrite_made {s : State} {off : Nat} {a : RgAcc} {priv : Bool} (h : WriteMade s off a priv)
    (f : State → Bool → Word → State) (al : Bool) :
    s.regWrite off a f al = match a.who with
      | .kernel => f s priv a.data
      | .host => (f s priv a.data).drive (.rgAnswer 0 0) := by
  unfold WriteMade at h
  unfold State.regWrite
  rcases hw : a.who with _ | _
  · simp only [hw] at h
    obtain ⟨_, ha, hp, h3, hx⟩ := h
    simp [State.takeInj, ha, hp, h3, hx]
  · simp only [hw] at h
    simp [h.2]

/-- The same of the whole command: the state it answers. -/
theorem regCmd_made {s : State} {off : Nat} {a : RgAcc} {priv : Bool} (h : WriteMade s off a priv)
    (f : State → Bool → Word → State) (al : Bool) :
    regCmd s true off a f al = .next { (match a.who with
      | .kernel => f { s with out := [] } priv a.data
      | .host => (f { s with out := [] } priv a.data).drive (.rgAnswer 0 0)) with pending := s.pending } := by
  have h' : WriteMade { s with out := [] } off a priv := h
  have ha : s.alive = true := h.1
  simp only [regCmd, ha, if_true, run_true ha, regWrite_made h']

end Sys2Proof.Machine
end

