-- ==== Sys2Proof/Laws/Map.lean ====
section
/-! SUPPORT. The laws of sparse maps: a read after a write, and that writes keep the canonical form. -/

namespace Sys2Proof.Machine

variable {α : Type}

theorem SMap.get_erase (d : Nat → α) (m : SMap α) (k j : Nat) :
    SMap.get d (SMap.erase m k) j = if j = k then d j else SMap.get d m j := by
  induction m with
  | nil => simp [SMap.erase, SMap.get]
  | cons e m ih =>
    obtain ⟨i, v⟩ := e
    by_cases hik : i = k
    · simp only [SMap.erase, hik, if_true, ih, SMap.get]
      by_cases hj : j = k
      · simp [hj]
      · simp [hj, Ne.symm hj]
    · simp only [SMap.erase, hik, if_false, SMap.get, ih]
      by_cases hij : i = j
      · subst hij; simp [hik]
      · simp [hij]

theorem SMap.get_insert (d : Nat → α) (m : SMap α) (k j : Nat) (x : α) :
    SMap.get d (SMap.insert m k x) j = if j = k then x else SMap.get d m j := by
  induction m with
  | nil => simp [SMap.insert, SMap.get, eq_comm]
  | cons e m ih =>
    obtain ⟨i, v⟩ := e
    unfold SMap.insert
    split
    · simp only [SMap.get]
      by_cases hj : j = k
      · simp [hj]
      · simp [hj, Ne.symm hj]
    · split
      · next h => subst h; simp only [SMap.get]; by_cases hj : j = i <;> simp [hj, Ne.symm]
      · next h =>
        simp only [SMap.get, ih]
        by_cases hij : i = j
        · subst hij; simp [h]
        · simp [hij]

/-- A read after a write. -/
theorem SMap.get_set [DecidableEq α] (d : Nat → α) (m : SMap α) (k j : Nat) (x : α) :
    SMap.get d (SMap.set d m k x) j = if j = k then x else SMap.get d m j := by
  unfold SMap.set
  split
  · next h => rw [SMap.get_erase]; split
              · next e => subst e; exact h.symm
              · rfl
  · rw [SMap.get_insert]

/-- A read after a write to the same index. -/
@[simp] theorem SMap.get_set_same [DecidableEq α] (d : Nat → α) (m : SMap α) (k : Nat) (x : α) :
    SMap.get d (SMap.set d m k x) k = x := by simp [SMap.get_set]

/-- A read after a write to another index. -/
theorem SMap.get_set_other [DecidableEq α] (d : Nat → α) (m : SMap α) {k j : Nat} (x : α) (h : j ≠ k) :
    SMap.get d (SMap.set d m k x) j = SMap.get d m j := by simp [SMap.get_set, h]

theorem SMap.mem_erase {m : SMap α} {k : Nat} {e : Nat × α} (h : e ∈ SMap.erase m k) : e ∈ m := by
  induction m with
  | nil => exact h
  | cons a m ih =>
    obtain ⟨i, v⟩ := a
    unfold SMap.erase at h
    split at h
    · exact List.mem_cons_of_mem _ (ih h)
    · rcases List.mem_cons.mp h with rfl | h
      · exact List.mem_cons_self
      · exact List.mem_cons_of_mem _ (ih h)

theorem SMap.mem_insert {m : SMap α} {k : Nat} {x : α} {e : Nat × α} (h : e ∈ SMap.insert m k x) :
    e = (k, x) ∨ e ∈ m := by
  induction m with
  | nil => simpa [SMap.insert] using h
  | cons a m ih =>
    obtain ⟨i, v⟩ := a
    unfold SMap.insert at h
    split at h
    · rcases List.mem_cons.mp h with h | h
      · exact .inl h
      · exact .inr h
    · split at h
      · rcases List.mem_cons.mp h with h | h
        · exact .inl h
        · exact .inr (List.mem_cons_of_mem _ h)
      · rcases List.mem_cons.mp h with rfl | h
        · exact .inr List.mem_cons_self
        · exact (ih h).imp id (List.mem_cons_of_mem _)

theorem SMap.erase_sorted {m : SMap α} {k : Nat} (h : m.Pairwise (fun a b => a.1 < b.1)) :
    (SMap.erase m k).Pairwise (fun a b => a.1 < b.1) := by
  induction m with
  | nil => exact h
  | cons a m ih =>
    obtain ⟨i, v⟩ := a
    unfold SMap.erase
    have h' := List.pairwise_cons.mp h
    split
    · exact ih h'.2
    · exact List.pairwise_cons.mpr ⟨fun e he => h'.1 e (SMap.mem_erase he), ih h'.2⟩

theorem SMap.insert_sorted {m : SMap α} {k : Nat} {x : α} (h : m.Pairwise (fun a b => a.1 < b.1)) :
    (SMap.insert m k x).Pairwise (fun a b => a.1 < b.1) := by
  induction m with
  | nil => simp [SMap.insert]
  | cons a m ih =>
    obtain ⟨i, v⟩ := a
    have h' := List.pairwise_cons.mp h
    unfold SMap.insert
    split
    · next hk =>
      refine List.pairwise_cons.mpr ⟨fun e he => ?_, h⟩
      rcases List.mem_cons.mp he with rfl | he
      · exact hk
      · exact Nat.lt_trans hk (h'.1 e he)
    · next hk =>
      split
      · next hi => subst hi; exact List.pairwise_cons.mpr ⟨h'.1, h'.2⟩
      · next hi =>
        refine List.pairwise_cons.mpr ⟨fun e he => ?_, ih h'.2⟩
        rcases SMap.mem_insert he with rfl | he
        · show i < k
          omega
        · exact h'.1 e he

/-- A write keeps the canonical form. -/
theorem SMap.set_wf [DecidableEq α] {d : Nat → α} {m : SMap α} (k : Nat) (x : α) (h : SMap.Wf d m) :
    SMap.Wf d (SMap.set d m k x) := by
  unfold SMap.set
  split
  · exact ⟨SMap.erase_sorted h.1, fun e he => h.2 e (SMap.mem_erase he)⟩
  · next hx =>
    refine ⟨SMap.insert_sorted h.1, fun e he => ?_⟩
    rcases SMap.mem_insert he with rfl | he
    · exact hx
    · exact h.2 e he

/-- Dropping entries keeps the canonical form. -/
theorem SMap.filter_wf {d : Nat → α} {m : SMap α} (p : Nat × α → Bool) (h : SMap.Wf d m) : SMap.Wf d (m.filter p) :=
  ⟨h.1.filter p, fun e he => h.2 e ((List.mem_filter.mp he).1)⟩

theorem SMap.nil_wf (d : Nat → α) : SMap.Wf d [] := ⟨List.Pairwise.nil, by simp⟩

end Sys2Proof.Machine
end

