-- ==== Sys2Proof/Laws/Shared.lean ====
section
/-! SUPPORT. What the shared operations write: each leaves every field of the state but those named for it. A lemma
says so as one equation between the new state and the old one with those fields taken over. -/

namespace Sys2Proof.Machine

/-- A relation that holds of a state and itself, and passes through a fold. -/
theorem foldl_keeps {α β : Type} {R : β → β → Prop} (refl : ∀ s, R s s) (trans : ∀ {s t u}, R s t → R t u → R s u)
    (f : β → α → β) (h : ∀ t x, R t (f t x)) (l : List α) (s : β) : R s (l.foldl f s) := by
  induction l generalizing s with
  | nil => exact refl s
  | cons x l ih => exact trans (h s x) (ih (f s x))

/-! ## Events and records (R391, R498) -/

/-- `t` is `s` but for the event queue, the logbooks and the stored registers. -/
def Told (s t : State) : Prop := t = { s with ev := t.ev, logs := t.logs, rg := t.rg }

theorem Told.refl (s : State) : Told s s := rfl
theorem Told.trans {s t u : State} (h : Told s t) (k : Told t u) : Told s u := by
  unfold Told at *
  rw [k, h]

theorem State.setReg_told (s : State) (off : Nat) (w : Word) : Told s (s.setReg off w) := rfl
theorem State.incReg_told (s : State) (off : Nat) : Told s (s.incReg off) := rfl
theorem State.withEv_told (s : State) (e : EvPort) : Told s { s with ev := e } := rfl
theorem State.modLog_told (s : State) (n : Nat) (f : Log → Log) : Told s (s.modLog n f) := rfl

theorem State.logAdd_told (s : State) (n kind sub tag q2 q3 : Nat) : Told s (s.logAdd n kind sub tag q2 q3).1 := by
  unfold State.logAdd
  dsimp only
  repeat' split
  all_goals dsimp only
  · exact Told.refl s
  · exact s.modLog_told n _
  · exact (s.modLog_told n _).trans (State.incReg_told _ _)
  · exact s.modLog_told n _

theorem State.logAll_told (s : State) (src kind sub tag q2 q3 : Nat) : Told s (s.logAll src kind sub tag q2 q3).1 := by
  unfold State.logAll
  refine foldl_keeps (R := fun (a b : State × List (BitVec 128)) => Told a.1 b.1) (fun _ => Told.refl _) Told.trans _ ?_ _ _
  intro a n
  dsimp only
  split
  · exact State.logAdd_told _ _ _ _ _ _ _
  · exact Told.refl _

theorem State.emitAll_told (fuel : Nat) (l : List (Option Nat × BitVec 128)) (s : State) : Told s (State.emitAll fuel l s) := by
  induction fuel generalizing l s with
  | zero => exact Told.refl s
  | succ n ih =>
    match l with
    | [] => exact Told.refl s
    | (src, w) :: rest =>
      unfold State.emitAll
      split
      · exact (s.withEv_told _).trans (ih _ _)
      · exact ((s.withEv_told _).trans (State.logAll_told _ _ _ _ _ _ _)).trans (ih _ _)

/-- Raising an event writes the queue, the logbooks that record it and their counts of lost records. -/
theorem State.emit_told (s : State) (w : Nat) (src : Option Nat) : Told s (s.emit w src) := State.emitAll_told _ _ _

theorem State.record_told (s : State) (src kind sub tag q2 q3 : Nat) : Told s (s.record src kind sub tag q2 q3) :=
  (s.logAll_told src kind sub tag q2 q3).trans (State.emitAll_told _ _ _)

theorem State.pumpEvents_told (fuel : Nat) (s : State) : Told s (State.pumpEvents fuel s) := by
  induction fuel generalizing s with
  | zero => exact Told.refl s
  | succ n ih =>
    unfold State.pumpEvents
    split
    · exact Told.refl s
    · split
      · exact Told.refl s
      · exact (((s.withEv_told _).trans (State.emitAll_told _ _ _)).trans (State.withEv_told _ _)).trans (ih _)

theorem State.fltEvent_told (s : State) (ev code inst raised taken : Nat) : Told s (s.fltEvent ev code inst raised taken) :=
  s.emit_told _ _

/-- Stopping a channel writes its stop and raises EV_CH_STOP. -/
theorem State.stopChan_told (s : State) (k : Nat) (kind : StopKind) (seq status : Nat) :
    Told (s.modChan k (fun c => { c with stop := if c.stop = .always then .always else kind }))
      (s.stopChan k kind seq status) := State.emit_told _ _ _

/-! ## Packets formed (R229, R240) -/

/-- `t` is `s` but for the injection point, PSEQ, the partition's packet counts and the stored registers. -/
def Formed (s t : State) : Prop := t = { s with inj := t.inj, pseq := t.pseq, counts := t.counts, rg := t.rg }

theorem Formed.refl (s : State) : Formed s s := rfl
theorem Formed.trans {s t u : State} (h : Formed s t) (k : Formed t u) : Formed s u := by
  unfold Formed at *
  rw [k, h]

theorem State.setReg_formed (s : State) (off : Nat) (w : Word) : Formed s (s.setReg off w) := rfl
theorem State.addCnt64_formed (s : State) (off n : Nat) : Formed s (s.addCnt64 off n) := by
  unfold State.addCnt64 State.setCnt64
  exact (s.setReg_formed _ _).trans (State.setReg_formed _ _ _)

theorem State.countPkt_formed (s : State) (a : Nat) (p : Packet) : Formed s (s.countPkt a p) := by
  unfold State.countPkt
  dsimp only
  refine Formed.trans (t := (s.addCnt64 (0x30000 + 0x20 * opGroup p.opcode + a) 1).addCnt64
    (0x30000 + 0x20 * opGroup p.opcode + a + 8) p.pay.length) ?_ (foldl_keeps Formed.refl Formed.trans _ ?_ _ _)
  · exact (State.addCnt64_formed _ _ _).trans (State.addCnt64_formed _ _ _)
  intro t i
  split
  · exact (State.addCnt64_formed _ _ _).trans (State.addCnt64_formed _ _ _)
  · exact Formed.refl t

/-- Forming a packet writes the injection point, PSEQ, the counts and the counters. -/
theorem State.form_formed (s : State) (h : Hd) (pay : List Byte) (dir : Option Nat) (key : Option (Nat × Nat)) :
    Formed s (s.form h pay dir key) := by
  unfold State.form
  refine Formed.trans ?_ (State.countPkt_formed _ _ _)
  split <;> rfl

/-- A response is formed, or nothing is. -/
theorem State.respond_formed (s : State) (h : Hd) (pay : List Byte) (key : Option (Nat × Nat)) :
    Formed s (s.respond h pay key) := by
  unfold State.respond
  split
  · exact Formed.refl s
  · exact s.form_formed _ _ _ _

theorem State.answer_formed (s : State) (p : Packet) (outcome found : Nat) : Formed s (s.answer p outcome found) := by
  unfold State.answer
  exact s.respond_formed _ _ _

/-! ## Host memory jobs (R376, R380) -/

/-- `t` is `s` but for the engines and the HM ports. -/
def Asked (s t : State) : Prop := t = { s with eng := t.eng, hm := t.hm }

theorem Asked.refl (s : State) : Asked s s := rfl
theorem Asked.trans {s t u : State} (h : Asked s t) (k : Asked t u) : Asked s u := by
  unfold Asked at *
  rw [k, h]

theorem State.withEng_asked (s : State) (e : Engines) : Asked s { s with eng := e } := rfl
theorem State.modHm_asked (s : State) (p : Nat) (f : HmPort → HmPort) : Asked s (s.modHm p f) := rfl

/-- Starting a read writes the engines and the HM ports; the job's number is the engines' next. -/
theorem State.startRead_asked (s : State) (use : RdUse) (rs : List (Nat × Nat)) :
    Asked s (s.startRead use rs).2 ∧ (s.startRead use rs).1 = s.eng.next :=
  ⟨(s.withEng_asked _).trans (foldl_keeps Asked.refl Asked.trans _ (fun _ _ => State.modHm_asked _ _ _) _ _), rfl⟩

/-- Starting a write writes the engines and the HM ports; the job's number is the engines' next. -/
theorem State.startWrite_asked (s : State) (use : WrUse) (grans : List WrGran) (count : Nat) :
    Asked s (s.startWrite use grans count).2 ∧ (s.startWrite use grans count).1 = s.eng.next :=
  ⟨(s.withEng_asked _).trans (foldl_keeps Asked.refl Asked.trans _ (fun _ _ => State.modHm_asked _ _ _) _ _), rfl⟩

/-! ## Faults (R405) -/

/-- Raising a fault writes the collector's waiting raises alone. -/
theorem State.raise_eq (s : State) (code inst cls atype master addr detail : Nat) (inj : Bool) :
    s.raise code inst cls atype master addr detail inj
      = { s with flt := (s.raise code inst cls atype master addr detail inj).flt } := by
  unfold State.raise State.raiseX
  split <;> rfl

/-! ## Flits (R291 to R303) -/

/-- `t` is `s` but for the links, towpaths, streams of the teams and what the ports drove. -/
def Sent (s t : State) : Prop := t = { s with links := t.links, tows := t.tows, phys := t.phys, out := t.out }

theorem Sent.refl (s : State) : Sent s s := rfl
theorem Sent.trans {s t u : State} (h : Sent s t) (k : Sent t u) : Sent s u := by
  unfold Sent at *
  rw [k, h]

theorem State.modLink_sent (s : State) (p : Nat) (f : Link → Link) : Sent s (s.modLink p f) := rfl
theorem State.drive_sent (s : State) (o : Output) : Sent s (s.drive o) := rfl
theorem State.sendSlot_sent (s : State) (t tag : Nat) : Sent s (s.sendSlot t tag) := rfl

theorem State.tagBack_sent (s : State) (p : Nat) : Sent s (s.tagBack p).2 := by
  unfold State.tagBack
  dsimp only
  repeat' split
  all_goals rfl

theorem State.sendBits_sent (s : State) (t v scr : Nat) (inv : Bool) : Sent s (s.sendBits t v scr inv) := by
  unfold State.sendBits
  dsimp only
  repeat' split
  all_goals rfl

theorem State.sendBody_sent (s : State) (t : Nat) (body : BitVec 2048) (inv : Bool) : Sent s (s.sendBody t body inv) :=
  s.sendBits_sent t _ _ inv

theorem State.slotDue_sent (s : State) (t : Nat) : Sent s (s.slotDue t).2 := by
  unfold State.slotDue
  dsimp only
  repeat' split
  all_goals rfl

theorem State.sendNull_sent (s : State) (p team : Nat) (body : Bool) : Sent s (s.sendNull p team body) := by
  have h := s.tagBack_sent p
  unfold State.sendNull
  dsimp only
  repeat' split
  · exact (h.trans (State.drive_sent _ _)).trans (State.sendBody_sent _ _ _ _)
  · exact ((h.trans (State.drive_sent _ _)).trans (State.sendSlot_sent _ _ _)).trans (State.sendBody_sent _ _ _ _)
  · exact (h.trans (State.drive_sent _ _)).trans (State.sendSlot_sent _ _ _)

theorem State.spareSlot_sent (s : State) (p team : Nat) : Sent s (s.spareSlot p team) := by
  unfold State.spareSlot
  dsimp only
  split
  · exact (s.slotDue_sent _).trans (State.sendNull_sent _ _ _ _)
  · exact s.slotDue_sent _

theorem State.driveFlit_sent (s : State) (p team tag : Nat) (body : BitVec 2048) (bad fec : Bool) :
    Sent s (s.driveFlit p team tag body bad fec) := by
  have h := s.modLink_sent p Link.pass
  unfold State.driveFlit
  dsimp only
  split
  · exact (h.trans (State.drive_sent _ _)).trans (State.sendBody_sent _ _ _ _)
  · exact (((h.trans (State.drive_sent _ _)).trans (State.sendSlot_sent _ _ _)).trans (State.sendBody_sent _ _ _ _)).trans
      (State.spareSlot_sent _ _ _)

/-- Sending an unsequenced flit writes the port's reports, the towpaths', the team's stream and the outputs. -/
theorem State.sendUnseq_sent (s : State) (p kind : Nat) (body : BitVec 2048) (team : Nat) :
    Sent s (s.sendUnseq p kind body team) :=
  (s.tagBack_sent p).trans (State.driveFlit_sent _ _ _ _ _ _ _)

/-- A raise that joins those that wait loses none of them and does not change their order. -/
theorem sublist_insertRaise (r : Raise) (l : List Raise) : List.Sublist l (insertRaise r l) := by
  induction l with
  | nil => simp [insertRaise]
  | cons x xs ih =>
    unfold insertRaise
    split
    · exact List.sublist_cons_self r (x :: xs)
    · exact ih.cons_cons x

theorem mem_insertRaise (r x : Raise) (l : List Raise) : x ∈ insertRaise r l ↔ x = r ∨ x ∈ l := by
  induction l with
  | nil => simp [insertRaise]
  | cons y ys ih =>
    unfold insertRaise
    split
    · simp
    · simp [ih, or_left_comm]

end Sys2Proof.Machine
end

