-- ==== Sys2Proof/WellFormed.lean ====
section
/-! DEFINITION. Which commands are well formed: every operand that numbers a port, channel, team, entry, tag or
offset lies in the range the spec gives it. A command out of range names nothing the block has; its meaning
changes nothing (log 10). -/

namespace Sys2Proof

/-- The operands of a command lie in the ranges of the spec's address map and port counts (R46, R52, R141, R145,
R269, R278, R310, R333, R364, R374, R386, R391, R497, R533). -/
def Instr.wf (c : Instr) : Bool :=
  match c with
  | .pwrOkFall => true
  | .pwrOkRise => true
  | .rstNFall => true
  | .rstNRise => true
  | .selfCheckDone _ => true
  | .warmResetRequest _ => true
  | .warmResetProper => true
  | .tapExtest _ => true
  | .tapSamplePreload _ => true
  | .tapClamp => true
  | .tapWir => true
  | .tapWdr chain => decide (chain < 5)
  | .tapIjtag => true
  | .tapScan => true
  | .tapBypass _ => true
  | .wrapperMode w _ => decide (w < 5)
  | .ijtagBist _ => true
  | .ijtagFuse _ => true
  | .ijtagLaneLb t _ => decide (t < 16)
  | .cpWord port _ _ => decide (port < 16)
  | .channelEnable k _ => decide (k < 64)
  | .channelOn k => decide (k < 64)
  | .channelDisable k _ => decide (k < 64)
  | .resume k _ => decide (k < 64)
  | .scalarWrite k i _ => decide (k < 64 ∧ i < 8)
  | .crConsWrite k _ => decide (k < 64)
  | .latchedRead off _ => decide (off % 4 = 0 ∧ off < 0x100000)
  | .nop k => decide (k < 64)
  | .put k => decide (k < 64)
  | .get k => decide (k < 64)
  | .copy k => decide (k < 64)
  | .atom k => decide (k < 64)
  | .allReduce k => decide (k < 64)
  | .reduceScatter k => decide (k < 64)
  | .allGather k => decide (k < 64)
  | .broadcast k => decide (k < 64)
  | .reduce k => decide (k < 64)
  | .a2aCap k => decide (k < 64)
  | .barrier k => decide (k < 64)
  | .scalarAr k => decide (k < 64)
  | .waitCmd k => decide (k < 64)
  | .signal k => decide (k < 64)
  | .fence k => decide (k < 64)
  | .repeatLoop k => decide (k < 64)
  | .endLoop k => decide (k < 64)
  | .branch k => decide (k < 64)
  | .loadsImm k => decide (k < 64)
  | .loadsMem k => decide (k < 64)
  | .loadsTally k => decide (k < 64)
  | .loadsAdd k => decide (k < 64)
  | .mark k => decide (k < 64)
  | .trace k => decide (k < 64)
  | .badOp k => decide (k < 64)
  | .fragmentIssue k => decide (k < 64)
  | .completionRecordWrite k => decide (k < 64)
  | .channelHang k => decide (k < 64)
  | .shapeCommit e _ => decide (1 ≤ e ∧ e < 256)
  | .tallyWrite n _ => decide (n < 8192)
  | .watchArm w _ => decide (w < 256)
  | .watchDisarm w _ => decide (w < 256)
  | .watchEventEnqueue w => decide (w < 256)
  | .atcFlush _ => true
  | .atcHoldExpire _ => true
  | .atomicPerform => true
  | .pfenceSet _ => true
  | .pfenceLift _ => true
  | .raLoad port _ => decide (port < 4)
  | .raStore port _ => decide (port < 4)
  | .raRspTaken port => decide (port < 4)
  | .raLoadTimeout port tag => decide (port < 4 ∧ tag < 128)
  | .hmReadIssue port => decide (port < 16)
  | .hmWriteIssue port => decide (port < 16)
  | .hmReadBeat port _ => decide (port < 16)
  | .hmWriteResponse port _ => decide (port < 16)
  | .hmTimeout port _ tag => decide (port < 16 ∧ tag < 1024)
  | .eventTaken => true
  | .lbWriteResponse sts => decide (sts < 4)
  | .wr _ => true
  | .rd _ => true
  | .rdRelay _ => true
  | .raLd _ => true
  | .raSt _ => true
  | .atomPacket _ => true
  | .signalPacket _ => true
  | .wrRsp _ => true
  | .rdData _ => true
  | .rdRsp _ => true
  | .rlyData _ => true
  | .raData _ => true
  | .raRsp _ => true
  | .atomRsp _ => true
  | .sigRsp _ => true
  | .colAck _ => true
  | .colReady _ => true
  | .colData _ => true
  | .colSlot _ => true
  | .colDone _ => true
  | .colRel _ => true
  | .collAbort _ => true
  | .mbReqRemote _ => true
  | .mbReqSpare _ => true
  | .treeStage _ => true
  | .treeSeal _ => true
  | .treeReady _ => true
  | .treeRefused _ => true
  | .treeLock _ => true
  | .treeCount _ => true
  | .treeReport _ => true
  | .treeSwap _ => true
  | .treeSwapped _ => true
  | .treeRelease _ => true
  | .mbRsp _ => true
  | .assist _ => true
  | .assistRsp _ => true
  | .mgtResendTimeout _ => true
  | .packetHop place _ x => (decide (place < 12) || (decide (15 ≤ place) && decide (place < 144))) && (match x with | some h => decide (h.slice < 9) | none => true)
  | .reinIncrease k => decide (k < 68)
  | .towEnable t _ => decide (t < 128)
  | .towStarted t => decide (t < 128)
  | .towDisable t _ => decide (t < 128)
  | .towStall t => decide (t < 128)
  | .lockDrainTimeout => true
  | .epochHoldExpire => true
  | .lockSwapTimeout => true
  | .linkEnable p _ => decide (p < 12)
  | .linkDisable p _ => decide (p < 12)
  | .linkRetrainWrite p _ => decide (p < 12)
  | .linkParam p => decide (p < 12)
  | .linkParamSend p => decide (p < 12)
  | .teamDrop p => decide (p < 12)
  | .teamAdd p => decide (p < 12)
  | .retrain p => decide (p < 12)
  | .haltMark p => decide (p < 12)
  | .haltRel p => decide (p < 12)
  | .abortFlit p => decide (p < 12)
  | .beacon p => decide (p < 12)
  | .beaconRsp p => decide (p < 12)
  | .seqFlitReceive p _ => decide (p < 12)
  | .tagReceive p _ => decide (p < 12)
  | .replayTimeout p => decide (p < 12)
  | .linkTrainTimeout p => decide (p < 12)
  | .retrainTimeout p => decide (p < 12)
  | .linkDrainTimeout p => decide (p < 12)
  | .lnkInjArm p _ => decide (p < 12)
  | .trainingFrame t i _ => decide (t < 16 ∧ i < 10)
  | .fomUpdate t foms => decide (t < 16 ∧ foms.length = 10 ∧ ∀ f ∈ foms, f < 256)
  | .mirrorReq t _ => decide (t < 16)
  | .mirrorAck t _ => decide (t < 16)
  | .spareCompareDone t _ => decide (t < 16)
  | .forwardedClockLoss t => decide (t < 16)
  | .clockHoldoverEnd t => decide (t < 16)
  | .laneSilent t i => decide (t < 16 ∧ i < 10)
  | .tagLockLoss t => decide (t < 16)
  | .teamRetryTimer t => decide (t < 16)
  | .teamRetry t _ => decide (t < 16)
  | .teamSwap t _ => decide (t < 16)
  | .prbsMode t _ => decide (t < 16)
  | .prbsClr t _ => decide (t < 16)
  | .harnessSeal _ => true
  | .i2cWrite c _ => decide (c < 8)
  | .i2cRead c _ => decide (c < 8)
  | .i2cReadCur c _ => decide (c < 8)
  | .i2cTransactionEnd c _ => decide (c < 8)
  | .i2cStretchTimeout c _ => decide (c < 8)
  | .faultTaken => true
  | .quietExpire code inst => decide (code < 128 ∧ inst < 64)
  | .fltAck _ => true
  | .railInvalidTimeout _ => true
  | .farrierProbe _ => true
  | .scrub _ => true
  | .startDone _ => true
  | .crecClr _ => true
  | .fltInjArm _ => true
  | .fltInjDisarm _ => true
  | .recovExpire => true
  | .ruEnable _ => true
  | .ruDisable _ => true
  | .ruSpareDesignate _ => true
  | .ruFaultedClear u _ => decide (u < 17)
  | .ruSelfTestDone u _ => decide (u < 17)
  | .ruCombine u g _ _ => decide (u < 17 ∧ g < 512)
  | .ruInjArm _ => true
  | .pktInjArm _ => true
  | .portHang p => decide (p < 12)
  | .vcHang p v => decide (p < 12 ∧ v < 6)
  | .hportHang inst => decide (inst < 22)
  | .abortGo _ => true
  | .generationStep => true
  | .genWrite _ => true
  | .abortPairExpire pkey gen => decide (pkey < 65536 ∧ gen < 256)
  | .portFence _ => true
  | .mcWdogExpire => true
  | .farrierOpenPorts => true
  | .farrierTakeback _ => true
  | .farrierStatus => true
  | .farrierPeek => true
  | .farrierAbort => true
  | .farrierFence => true
  | .farrierOpen => true
  | .farrierResetMc => true
  | .farrierWarmReset => true
  | .farrierHalt => true
  | .farrierRelease => true
  | .farrierBadCmd => true
  | .haltGo _ => true
  | .haltRelease _ => true
  | .halted => true
  | .haltTimeout => true
  | .snapSelect _ => true
  | .mbInfo => true
  | .mbNonce => true
  | .mbExpertOn => true
  | .mbExpertOff => true
  | .mbFwBegin => true
  | .mbFwChunk => true
  | .mbFwCommit => true
  | .fwHeartbeat => true
  | .fwWdogExpire => true
  | .fwAccessViolation _ => true
  | .kernelCall words => decide (words.length ≤ 64)
  | .mbImgBegin => true
  | .mbImgChunk => true
  | .mbImgApplyStart => true
  | .mbImgApplyStageLocal => true
  | .mbImgApplyStageDomain => true
  | .mbImgDrop => true
  | .mbTableSwap => true
  | .mbTakeover => true
  | .mbAbort => true
  | .mbHalt => true
  | .mbRelease => true
  | .mbFltAck => true
  | .mbEnable => true
  | .mbFence => true
  | .mbStartDone => true
  | .mbI2c => true
  | .mbTimeRead => true
  | .mbTimeSet => true
  | .mbRemote => true
  | .mbPeek => true
  | .mbPoke => true
  | .mbDiag => true
  | .mbBadCmd => true
  | .mbTimeout => true
  | .expertExpire => true
  | .beaconInterval => true
  | .gaitInterval _ _ => true
  | .lifeSecond => true
  | .ccntLatch k _ _ => decide (k < 64)
  | .logEnable n _ => decide (n < 4)
  | .logStarted n => decide (n < 4)
  | .logDisable n _ => decide (n < 4)
  | .logFlush n _ => decide (n < 4)
  | .logPadTimeout n => decide (n < 4)
  | .logDrainWrite n => decide (n < 4)
  | .logDrainTimeout n => decide (n < 4)
  | .logwinSelect _ => true
  | .cmapInterval => true
  | .lifeSnap _ => true
  | .lifeOpen _ => true
  | .lifeCommit _ => true
  | .registerWrite off _ => decide (off % 4 = 0 ∧ off < 0x100000)
  | .faultStaticToggle => true
  | .mcWatchdogWrite => true
  | .laneManagementWord t => decide (t < 16)
  | .prbsCheckerLock t i _ => decide (t < 16 ∧ i < 10)
  | .tagLock p => decide (p < 12)
  | .lockReleaseTimeout => true

end Sys2Proof
end

