-- ==== Sys2Proof/Tests/Slice0.lean ====
section
/-! SUPPORT. The package's own tests: ill-formed operands, and for every statement with hypotheses states and operands
that meet them, each with what the command then does. Expected values are the spec's rules worked by hand. -/

open Sys2Proof Sys2Proof.Machine

namespace Sys2Proof.Tests

set_option Elab.async false

/-- The state after a command. -/
def after (c : Instr) (s : State) : State :=
  match exec c s with
  | .next t => t
  | _ => s

/-- A register write by the kernel. -/
def kw (d : Nat) : RgAcc := ⟨.kernel, BitVec.ofNat 32 d, false⟩

/-- A register write by the host with good parity. -/
def hw (off d : Nat) : RgAcc := ⟨.host, BitVec.ofNat 32 d, rgParity true off (BitVec.ofNat 32 d)⟩

/-- A made write by the kernel. -/
theorem made {s : State} {off d : Nat} (h : s.alive = true) : WriteMade s off (kw d) true := ⟨h, rfl⟩

/-- Chip 5 of a 16 × 16 × 32 torus, in partition 7 of all its chips. -/
def chip5 : State :=
  ({ State.reset with ident := ⟨5, true, 7, 0, 0, 8191⟩ } : State).setReg 0x120 0x0001F3CF

/-- Channel 0 ON with a queue, on its port 0. -/
def chan0 (q : List CmdWord) : State :=
  chip5.modChan 0 (fun c => { c with st := .on, en := true, queue := q, nextSeq := BitVec.ofNat 16 q.length })

/-- A command word from its first five quadwords. -/
def word (q0 : Nat) (q1 : Nat := 0) (q2 : Nat := 0) (q3 : Nat := 0) (q4 : Nat := 0) : CmdWord :=
  BitVec.ofNat 512 (q0 + q1 * 2 ^ 64 + q2 * 2 ^ 128 + q3 * 2 ^ 192 + q4 * 2 ^ 256)

/-! ## Well-formedness: an ill-formed operand for each kind of range, beside a well-formed one -/

theorem test_wf_channel : (Instr.nop 64).wf = false ∧ (Instr.nop 63).wf = true := by decide
theorem test_wf_scalar : (Instr.scalarWrite 0 8 (kw 0)).wf = false ∧ (Instr.scalarWrite 63 7 (kw 0)).wf = true := by decide
theorem test_wf_port : (Instr.cpWord 16 0 0).wf = false ∧ (Instr.cpWord 15 0 0).wf = true := by decide
theorem test_wf_offset : (Instr.registerWrite 0x102 (kw 0)).wf = false ∧ (Instr.registerWrite 0x100000 (kw 0)).wf = false ∧
    (Instr.registerWrite 0x100 (kw 0)).wf = true := by decide
theorem test_wf_link : (Instr.linkEnable 12 (kw 0)).wf = false ∧ (Instr.linkEnable 11 (kw 0)).wf = true := by decide
theorem test_wf_team : (Instr.laneSilent 16 0).wf = false ∧ (Instr.laneSilent 15 0).wf = true := by decide
theorem test_wf_tally : (Instr.tallyWrite 8192 (kw 0)).wf = false ∧ (Instr.tallyWrite 8191 (kw 0)).wf = true := by decide
theorem test_wf_watch : (Instr.watchArm 256 (kw 0)).wf = false ∧ (Instr.watchArm 255 (kw 0)).wf = true := by decide
theorem test_wf_towpath : (Instr.towEnable 128 (kw 0)).wf = false ∧ (Instr.towEnable 127 (kw 0)).wf = true := by decide
theorem test_wf_rein : (Instr.reinIncrease 68).wf = false ∧ (Instr.reinIncrease 67).wf = true := by decide
theorem test_wf_shape : (Instr.shapeCommit 0 (kw 0)).wf = false ∧ (Instr.shapeCommit 255 (kw 0)).wf = true := by decide
theorem test_wf_unit : (Instr.ruEnable (kw 0)).wf = true ∧ (Instr.ruSelfTestDone 17 true).wf = false := by decide
theorem test_wf_logbook : (Instr.logStarted 4).wf = false ∧ (Instr.logStarted 3).wf = true := by decide
theorem test_wf_i2c : (Instr.i2cTransactionEnd 8 .stuck).wf = false ∧ (Instr.i2cTransactionEnd 7 .stuck).wf = true := by decide
theorem test_wf_wrapper : (Instr.wrapperMode 5 .bypass).wf = false ∧ (Instr.tapWdr 5).wf = false := by decide

/-! ## The queue and the step; pins, resets and test access -/

theorem witness_StepRunsFrontCommand :
    ∃ s c, s.pending = c :: [] ∧ step s = exec c { s with pending := [] } :=
  ⟨{ State.reset with pending := [.nop 0] }, .nop 0, rfl, rfl⟩

theorem witness_IdleStep : State.reset.pending = [] ∧ (match step State.reset with | .next t => t.now | _ => 0) = 1 := by
  decide +kernel

theorem witness_Pins : chip5.pwr.pwrOk = true ∧ chip5.pwr.rstN = true ∧ chip5.pwr.holds = false ∧
    (after .pwrOkFall chip5).pwr.phase = .off ∧ (after .pwrOkRise (after .pwrOkFall chip5)).pwr.phase = .check false ∧
    (after .rstNFall chip5).pwr.phase = .held ∧ (after .rstNFall chip5).out = [.pins true false false] ∧
    (after .rstNRise (after .rstNFall chip5)).pwr.phase = .check false ∧
    (after (.wrapperMode 4 .extest) chip5).pwr.phase = .held := by decide +kernel

theorem witness_Tap : (after (.tapExtest 3) chip5).pwr.phase = .held ∧ (after (.tapExtest 3) chip5).pwr.boundary = 3 ∧
    (after (.tapSamplePreload 9) chip5).pwr.phase = .run ∧ (after .tapClamp chip5).pwr.phase = .held ∧
    (after .tapScan (after .rstNFall chip5)).pwr.scan = true ∧ (after (.tapBypass 0x44) (after .tapClamp chip5)).pwr.phase = .check false := by
  decide +kernel

/-- A part in MANUFACTURE, held, with IJTAG selected. -/
def held : State := after .tapIjtag (after .rstNFall chip5)

theorem witness_Instruments : held.pwr.tapInst = 0x20 ∧ held.pwr.field = false ∧ held.pwr.phase = .held ∧
    (after (.ijtagBist 3) held).out.length = 1 ∧ (after (.ijtagFuse (.svn 5)) held).pwr.svnFuse = 5 ∧
    (after (.ijtagFuse (.lifecycle 1)) held).pwr.field = true ∧
    (after (.ijtagFuse (.ownerKey 9)) held).pwr.owner = some 9 ∧ (after (.ijtagFuse (.repair 1 2)) held).pwr.fused = [(1, 2)] ∧
    (after (.ijtagLaneLb 15 true) held).pwr.loopback = [15] := by decide +kernel

/-- The write that asks for a warm reset, and the state that waits for it. -/
def warm : State := { after (.warmResetRequest (kw 0xA501)) chip5 with now := 1000 }

theorem witness_WarmResetRequest : WriteMade chip5 0x10 (kw 0xA501) true ∧ RgAcc.bit (kw 0xA501) 0 = true ∧
    chip5.pwr.phase = .run ∧ chip5.inF3 = false ∧ warm.pwr.phase = .warmWait ∧ warm.pwr.warmCause = 2 ∧
    (after (.warmResetRequest (kw 0x4401)) chip5).pwr.phase = .run := by
  refine ⟨made ?_, ?_⟩ <;> decide +kernel

theorem witness_WarmReset : warm.pwr.warmAt + nsTicks 2000 ≤ warm.now ∧ warm.hostIdle = true ∧
    (after .warmResetProper warm).pwr.phase = .check true ∧
    (after (.selfCheckDone ⟨[], none, 4, true, true⟩) (after .warmResetProper warm)).pwr.phase = .run ∧
    (after (.selfCheckDone ⟨[], none, 4, false, true⟩) (after .warmResetProper warm)).pwr.phase = .failed := by decide +kernel

/-! ## Channels -/

theorem witness_ChannelLife : WriteMade chip5 (0x4004 + 0x100 * 63) (kw 1) true ∧ RgAcc.bit (kw 1) 0 = true ∧
    (chip5.chan 63).st = .off ∧ ((after (.channelEnable 63 (kw 1)) chip5).chan 63).st = .starting ∧
    ((after (.channelOn 63) (after (.channelEnable 63 (kw 1)) chip5)).chan 63).st = .on ∧
    ((after (.channelDisable 0 (kw 0)) (chan0 [])).chan 0).st = .off ∧
    ((after (.channelDisable 0 (kw 0)) (after (.channelEnable 0 (kw 1)) chip5)).chan 0).late = true ∧
    ((after (.resume 0 (kw 3)) ((chan0 []).modChan 0 (fun c => { c with stop := .soe }))).chan 0).stop = .no ∧
    ((after (.resume 0 (kw 3)) ((chan0 []).modChan 0 (fun c => { c with stop := .always }))).chan 0).stop = .always := by
  refine ⟨made ?_, ?_⟩ <;> decide +kernel

/-- The CRC that a CP word needs. -/
def crc (w : CmdWord) : HWord := BitVec.ofNat 16 (crc16 (leBytes 64 w.toNat))

theorem witness_CpWord : (chan0 []).alive = true ∧ (chan0 []).cpHeld.any (fun e => decide (e.1 = 0)) = false ∧
    (after (.cpWord 0 (word 0) (crc (word 0))) (chan0 [])).out = [.cpStatus 0 0] ∧
    ((after (.cpWord 0 (word 0) (crc (word 0))) (chan0 [])).chan 0).queue = [word 0] ∧
    (after (.cpWord 0 (word 0) 1) (chan0 [])).out = [.cpStatus 0 1] ∧
    (after (.cpWord 0 (word 0) 1) (chan0 [])).flt.waiting.map (fun r => (r.code, r.inst, r.cls)) = [(0x28, 0, 1)] ∧
    (after (.cpWord 15 (word 0) (crc (word 0))) (chan0 [])).out = [.cpStatus 15 3] ∧
    (after (.cpWord 15 (word 0) (crc (word 0))) (chan0 [])).flt.waiting.map (fun r => (r.code, r.inst, r.cls)) = [(0x29, 15, 2)] ∧
    (after (.cpWord 0 (word 0) (crc (word 0))) chip5).out = [.cpStatus 0 4] ∧
    (after (.cpWord 0 (word 0x10000) (crc (word 0x10000))) (chan0 [])).out = [.cpStatus 0 5] ∧
    (after (.cpWord 0 (word 0x400000) (crc (word 0x400000))) (chan0 (List.replicate 64 (word 0)))).out = [.cpStatus 0 6] := by
  decide +kernel

theorem witness_ChannelRegisters : WriteMade chip5 (0x4084 + 0x100 * 63 + 8 * 7) (kw 5) true ∧
    (after (.scalarWrite 63 7 (kw 5)) (after (.registerWrite (0x4080 + 0x100 * 63 + 56) (kw 9)) chip5)).scalar 63 7 = 0x500000009 ∧
    ((after (.scalarWrite 0 7 (kw 5)) (chan0 [])).chan 0).wrIgn = true ∧
    ((after (.crConsWrite 0 (kw 9)) (chan0 [])).chan 0).cons = 9 ∧
    (after (.shapeCommit 255 (kw 0x80)) (after (.registerWrite (0x8000 + 32 * 255) (kw 77)) chip5)).reg (0x8000 + 32 * 255) = 77 := by
  refine ⟨made ?_, ?_⟩ <;> decide +kernel

theorem witness_Immediate : StartsAlone (chan0 [word 0]) 0 (word 0) ∧ opOf (word 0) = opNop ∧ goodQ0 (word 0) = true ∧
    zeroFrom (word 0) 1 = true := by
  refine ⟨⟨⟨?_, ?_, ?_, ?_⟩, ?_⟩, ?_⟩ <;> decide +kernel

theorem test_nop : ((after (.nop 0) (chan0 [word 0])).chan 0).lastStatus = 0 ∧
    ((after (.nop 0) (chan0 [word 0])).chan 0).queue = [] := by decide +kernel
theorem test_mark : let t := after (.mark 0) (chan0 [word 0x0D 0x00020001])
    (t.chan 0).layer = 1 ∧ (t.chan 0).oper = 2 ∧ (t.chan 0).lastStatus = 0 ∧ goodQ0 (word 0x0D 0x00020001) = true ∧
    resv (word 0x0D 0x00020001) 1 (span 0 32) = true := by decide +kernel
theorem test_loadsImm : let w := word 0x0C 12 0x1234
    (after (.loadsImm 0) (chan0 [w])).scalar 0 3 = 0x1234 ∧ goodQ0 w = true ∧ goodLoads w = true := by decide +kernel
theorem test_loadsTally : let w := word 0x0C (2 + 4 * 7 + 32 * 40)
    (after (.loadsTally 0) ((chan0 [w]).setTallyRaw 40 99)).scalar 0 7 = 99 ∧ goodLoads w = true := by decide +kernel
theorem test_loadsAdd : let w := word 0x0C 3 (2 ^ 64 - 1)
    (after (.loadsAdd 0) ((chan0 [w]).setScalar 0 0 1)).scalar 0 0 = 0 ∧ goodLoads w = true := by decide +kernel
theorem test_wait : ((after (.waitCmd 0) (chan0 [word 6 0 5])).chan 0).flights.length = 1 ∧
    ((after (.waitCmd 0) ((chan0 [word 6 0 5]).setTallyRaw 0 5)).chan 0).flights = [] ∧
    (chan0 [word 6 0 5]).waitHolds 0 (word 6 0 5) = false := by decide +kernel
theorem test_fence : ((after (.fence 0) (chan0 [word 8])).chan 0).flights = [] ∧
    ((after (.trace 0) (chan0 [word 0x0E])).chan 0).lastStatus = 0 := by decide +kernel
theorem test_badOp : ((after (.badOp 0) (chan0 [word 0x0F])).chan 0).stop = .always ∧
    ((after (.badOp 0) (chan0 [word 0x0F])).chan 0).lastStatus = 7 := by decide +kernel
theorem witness_BadField : let w := word (2 ^ 63)
    goodQ0 w = false ∧ ((after (.nop 0) (chan0 [w])).chan 0).lastStatus = 8 ∧ ((after (.nop 0) (chan0 [w])).chan 0).stop = .always := by
  decide +kernel

theorem witness_Loops : let s := chan0 [word 9 3, word 0, word 0x0A]
    let deep := s.modChan 0 (fun c => { c with loops := List.replicate 4 ⟨0, 2, 0, 0⟩ })
    let once := after (.endLoop 0) (after (.nop 0) (after (.repeatLoop 0) s))
    ((after (.repeatLoop 0) s).chan 0).loops.map (fun l => (l.count, l.iter)) = [(3, 0)] ∧
    ((after (.repeatLoop 0) deep).chan 0).lastStatus = 9 ∧ (once.chan 0).loops.map (fun l => (l.count, l.iter)) = [(3, 1)] ∧
    (once.chan 0).pos = 0 ∧ (once.startable 0).isSome = true ∧
    ((after (.endLoop 0) (chan0 [word 0x0A])).chan 0).lastStatus = 9 ∧
    ((after (.repeatLoop 0) ((chan0 [word 9 (2 ^ 32)]).setScalar 0 0 (2 ^ 32))).chan 0).lastStatus = 0x0B ∧
    ((after (.branch 0) (chan0 [word 0x0B 0x1001 0])).chan 0).skip = none := by decide +kernel

theorem witness_Starts : Starts (chan0 [word 1]) 0 (word 1) := by
  refine ⟨?_, ?_, ?_, ?_⟩ <;> decide +kernel

/-- Channel 0 after command `c` found the word `w` first. -/
def ran (c : Instr) (w : CmdWord) : Nat × Nat × Nat :=
  let x := (after c (chan0 [w])).chan 0
  (x.execSeq.toNat, x.nextOrd, x.flights.length)

theorem witness_TransfersAndCollectives :
    ([word 1, word 2, word 3, word 4, word 7, word 0xC 1] ++ (List.range 8).map (fun i => word 5 0 0 0 (0x1000 * i))).all
      (fun w => decide ((chan0 [w]).startable 0 = some w) && !((chan0 [w]).chan 0).tooLong 0) = true ∧ ran (.put 0) (word 1) = (0, 1, 0) ∧ ran (.get 0) (word 2) = (0, 1, 0) ∧
    ran (.copy 0) (word 3) = (0, 1, 0) ∧ ran (.atom 0) (word 4) = (0, 1, 0) ∧ ran (.signal 0) (word 7) = (0, 1, 0) ∧
    ran (.loadsMem 0) (word 0xC 1) = (0, 1, 0) ∧
    ran (.allReduce 0) (word 5) = (0, 1, 0) ∧ ran (.reduceScatter 0) (word 5 0 0 0 0x1000) = (0, 1, 0) ∧
    ran (.allGather 0) (word 5 0 0 0 0x2000) = (0, 1, 0) ∧ ran (.broadcast 0) (word 5 0 0 0 0x3000) = (0, 1, 0) ∧
    ran (.reduce 0) (word 5 0 0 0 0x4000) = (0, 1, 0) ∧ ran (.a2aCap 0) (word 5 0 0 0 0x5000) = (0, 1, 0) ∧
    ran (.barrier 0) (word 5 0 0 0 0x6000) = (0, 1, 0) ∧ ran (.scalarAr 0) (word 5 0 0 0 0x7000) = (0, 1, 0) := by decide +kernel

/-! ## Tallies, watches, events and the atomic cache -/

theorem witness_Tallies : WriteMade chip5 (0x10004 + 8 * 8191) (kw 0x12345) true ∧
    (after (.tallyWrite 8191 (kw 0x12345)) (after (.registerWrite (0x10000 + 8 * 8191) (kw 6)) chip5)).tallyOf 8191
      = 0x234500000006 := by
  refine ⟨made ?_, ?_⟩ <;> decide +kernel

/-- Watch 255 with value 5 and no step. -/
def watching (v : Nat) : State := chip5.setWatch 255 { Watch.reset with value := BitVec.ofNat 48 v }
/-- The arming write of condition `c` on tally 8191. -/
def armW (c : Nat) : RgAcc := kw (8191 + c * 2 ^ 16 + 2 ^ 20)

theorem witness_Watches : WriteMade (watching 5) (0xA000 + 16 * 255) (armW 5) true ∧
    RgAcc.bit (armW 5) 20 = true ∧ RgAcc.bit (kw 0) 20 = false ∧
    ((after (.watchArm 255 (armW 0)) (watching 5)).watchOf 255).armed = true ∧
    ((after (.watchArm 255 (armW 2)) (watching 5)).watchOf 255).fired = true ∧
    ((after (.watchArm 255 (armW 6)) (watching 5)).watchOf 255).wrIgn = true ∧
    ((after (.watchArm 255 (armW 5)) (after (.watchArm 255 (armW 0)) (watching 5))).watchOf 255).cond = 0 ∧
    ((after (.watchDisarm 255 (kw 0)) (after (.watchArm 255 (armW 0)) (watching 5))).watchOf 255).armed = false := by
  refine ⟨made ?_, ?_⟩ <;> decide +kernel

/-- Watch 0 with an event that waits for room. -/
def waiting (n : Nat) : State :=
  { chip5 with watch := [(0, { Watch.reset with pend := some 9 })], ev := ⟨List.replicate n 7, []⟩ }

theorem witness_Events : ((waiting 255).watchOf 0).pend = some 9 ∧ (waiting 255).ev.queue.length < 256 ∧
    (waiting 255).ev.held = [] ∧ (after (.watchEventEnqueue 0) (waiting 255)).ev.queue.length = 256 ∧
    (after (.watchEventEnqueue 0) (waiting 256)).ev.queue.length = 256 ∧
    (after .eventTaken (waiting 2)).out = [.event 7 (crc16 (leBytes 16 7))] ∧ (after .eventTaken (waiting 2)).ev.queue = [7] := by decide +kernel

/-- A packet as `port`'s basin or an ejection berth holds it. -/
def heldOf (p : Packet) (port : Nat := 15) : Held := { pkt := p, port := port, share := p.vc, flits := flitsOf p.pay.length, copied := false, dir := none, abn := none, since := 0 }
/-- A packet of partition 7 to chip 5. -/
def pk (h : Hd) (pay : List Byte := []) : Packet := (Hd.packet { h with pkey := 7, dst := 5, src := 9 } pay).seal

/-- FETCH_ADD of 8 bytes at offset 64. -/
def fetchAdd : Packet := pk { opcode := 6, vc := 1, dst := 5, len := 8, offset := 64, aux := 0x01, h5 := 3 }

/-- The atomic cache with granule 1, and the atomic `n` waiting. -/
def cached (gs : List Nat) (q : List AtomReq) : State :=
  { chip5 with now := 1000, atc := ⟨q, gs.map (fun g => ⟨g, ⟨40, false⟩, 0⟩)⟩ }

theorem witness_AtomicCache : WriteMade (cached [1, 2] []) 0x144 (kw 0x110) true ∧ RgAcc.bit (kw 0x110) 8 = true ∧
    (after (.atcFlush (kw 0x110)) (cached [1, 2] [⟨0, fetchAdd, false⟩])).atc.cache.map (·.key) = [1] ∧
    (after (.atcHoldExpire 2) (cached [1, 2] [])).atc.cache.map (·.key) = [1] ∧
    (cached [1] [⟨0, fetchAdd, false⟩]).atc.queue.find? (fun x => (cached [1] [⟨0, fetchAdd, false⟩]).atomReady x) = some ⟨0, fetchAdd, false⟩ ∧
    (after .atomicPerform (cached [1] [⟨0, fetchAdd, false⟩])).atc.queue = [] ∧
    (after .atomicPerform (cached [1] [⟨0, fetchAdd, false⟩])).eng.writes.map (·.use) = [.atom fetchAdd 40] ∧
    (after .atomicPerform (cached [] [⟨0, fetchAdd, false⟩])).eng.reads.map (·.use) = [.atom 0] := by
  refine ⟨made ?_, ?_⟩ <;> decide +kernel

/-! ## Host memory ports and remote access -/

/-- Port 15 with a read that waits, one outstanding under tag 0, and the same of writes. -/
def hm15 : State := { chip5 with now := 2 ^ 40 }.modHm 15 (fun h => { h with
  rdWait := [⟨0, 0x40, [1]⟩], rdOut := [⟨0, ⟨1, 0x80, [2]⟩, 0, false, false, 0⟩]
  wrWait := [⟨2, 0xC0, []⟩], wrOut := [⟨0, ⟨3, 0x100, []⟩, 0⟩] })

/-- A read beat and a write response with their parity. -/
def beat (tag : Nat) (ok : Bool := true) : RdBeat :=
  ⟨BitVec.ofNat 10 tag, true, 0, 0, 0, 0, parity 17 (tag + put 1 10 1) == ok⟩
def wresp (tag : Nat) (ok : Bool := true) : WrRsp := ⟨BitVec.ofNat 10 tag, 0, parity 12 tag == ok⟩

theorem witness_HmRequests : hm15.alive = true ∧ hm15.hmRdRoom 15 = true ∧ hm15.hmWrRoom 15 = true ∧ hm15.flt.armed = none ∧
    freeHmTag ((hm15.hmPort 15).rdOut.map (·.tag)) (hm15.hmPort 15).rdQuar = some 1 ∧
    (after (.hmReadIssue 15) hm15).out = [.hmRead 15 0x40 0 1] ∧ (after (.hmWriteIssue 15) hm15).out = [.hmWrite 15 0xC0 1 [] []] ∧
    (hm15.hmPort 15).wrWait.find? (fun x => !hm15.writeWaits x) = some ⟨2, 0xC0, []⟩ ∧
    (((after (.hmReadBeat 15 (beat 0)) hm15).hmPort 15).rdOut = []) ∧
    ((after (.hmReadBeat 15 (beat 0 false)) hm15).reg (hmReg 15 4)).toNat.testBit 28 = true ∧
    ((after (.hmReadBeat 15 (beat 1)) hm15).reg (hmReg 15 4)).toNat.testBit 28 = true ∧
    (((after (.hmWriteResponse 15 (wresp 0)) hm15).hmPort 15).wrOut = []) ∧
    (after (.hmWriteResponse 15 (wresp 1)) hm15).hm = hm15.hm ∧
    ((after (.hmWriteResponse 15 (wresp 0 false)) hm15).reg (hmReg 15 4)).toNat.testBit 28 = true ∧
    ((after (.hmTimeout 15 false 0) hm15).hmPort 15).rdQuar = [0] ∧
    ((after (.hmTimeout 15 true 0) hm15).hmPort 15).wrQuar = [0] ∧ hm15.hmLate 15 0 false = true ∧ hm15.hmLate 15 0 true = true := by
  decide +kernel

/-- An access of one byte to the block's own chip, tag 5, with its parity. -/
def access (isWr : Bool) : RaAccess :=
  ⟨BitVec.ofNat 64 (5 * 2 ^ 46), 0, 5, 0, 0, parity 80 (5 * 2 ^ 46 + put (b2n isWr) 64 1 + put 5 73 7)⟩

theorem witness_RemoteAccesses : let late := { chip5.modRa 3 (fun r => { r with loads := [⟨5, 0, 1, 0, 0⟩] }) with now := 2 ^ 40 }
    chip5.shut = false ∧ chip5.raWithheld 3 = false ∧ chip5.sourceCheck 5 1 4 5 = none ∧ chip5.sourceCheck 5 1 5 133 = none ∧
    raCrcBad (access true) false = false ∧
    ((after (.raLoad 3 (access false)) chip5).raPort 3).loads.map (fun l => (l.tag, l.len)) = [(5, 1)] ∧
    ((after (.raStore 3 (access true)) chip5).raPort 3).rsp = [⟨5, true, 0, 0⟩] ∧
    { chip5 with pfence := true }.raWithheld 3 = true ∧
    ((after (.raLoad 3 (access false)) { chip5 with pfence := true }).raPort 3).heldAcc = [(false, access false)] ∧
    (after (.raRspTaken 3) (after (.raStore 3 (access true)) chip5)).out = [.raResp 3 ⟨5, true, 0, 0⟩ (List.replicate 4 (granCrc 0))] ∧ chip5.turn 67 = true ∧
    late.halt.st = .run ∧ late.hangTicks * 4 ≤ late.now ∧
    ((after (.raLoadTimeout 3 5) late).raPort 3).rsp = [⟨5, false, 8, 0⟩] := by decide +kernel

/-- The parity of a read answer covers data and response (R393); a write of one granule is one beat with three lanes of
zeros, and its parity covers address, length, tag, last, enables and poison (R375, R376). -/
theorem test_wires : Output.parity (.rgAnswer 7 1) = some false ∧ Output.parity (.rgAnswer 0 2) = some true ∧
    Output.parity (.hmRead 0 0x40 0 1) = some false ∧
    (Output.wrBeats (.hmWrite 0 0x40 1 [⟨1, 5, 1, true⟩] [9])).map (fun b => (b.last, b.data, b.crc, b.par)) =
      [(true, [5, 0, 0, 0], [9, 0, 0, 0], true)] := by decide +kernel

/-! ## Packets taken at their receiver -/

/-- The block with window 0 over the first 2^20 bytes, granting what `w5` says. -/
def windowed (w5 : Nat) : State :=
  let f := tblSet (tblSet chip5.tbl.force 0x1808 20) 0x1814 (BitVec.ofNat 32 w5)
  { chip5 with tbl := { chip5.tbl with force := f } }
/-- The block with packet `p` alone in the ejection berths. -/
def arrived (s : State) (p : Packet) (port : Nat := 15) : State := { s with eject := [heldOf p port] }

/-- Every condition of `Accepts` on the packet in berth 0. -/
def accepted (s : State) (h : Held) : Bool :=
  s.alive && decide (s.eject[0]? = some h) && s.berth 0 (fun _ => true) && !s.pfence && decide (s.flt.armed = none) &&
    (({ s with out := [], eject := dropAt s.eject 0 } : State).checked h).1

theorem accepts {s : State} {h : Held} (e : accepted s h = true) : Accepts s 0 h := by
  simpa [accepted, Accepts, and_assoc] using e

def pWr : Packet := pk { opcode := 1, vc := 0, rmode := 1, dst := 5, len := 64, offset := 4032, granEn := 2 ^ 63 } (List.replicate 64 7)
def pRly : Packet := pk { opcode := 0x43, vc := 2, dst := 5, len := 64, offset := 64, granEn := 2 } (List.replicate 64 7)
def pRd : Packet := pk { opcode := 2, vc := 1, dst := 5, len := 4096, offset := 0 }
def pRelay : Packet := pk { opcode := 3, vc := 1, dst := 5, len := 64, offset := 0, h5 := 5 * 2 ^ 46 }
def pRaLd : Packet := pk { opcode := 4, vc := 1, dst := 5, len := 256, offset := 0, ctx := 1, chan := 3 }
def pRaSt : Packet := pk { opcode := 5, vc := 1, dst := 5, len := 4, offset := 4, ctx := 1, granEn := 1 } [1, 2, 3, 4]
def pSig : Packet := pk { opcode := 7, vc := 1, dst := 5, tally := 8191, ten := 1, h5 := 2 ^ 48 - 1, ftag := 9 }

theorem witness_Accepts : Accepts (arrived (windowed 0xF0F) pWr) 0 (heldOf pWr) := accepts (by decide +kernel)

theorem witness_Requests : [pWr, pRly, pRd, pRelay, pRaLd, pRaSt, fetchAdd, pSig].all (fun p =>
      accepted (arrived (windowed 0xF0F) p) (heldOf p)) = true ∧
    (after (.wr 0) (arrived (windowed 0xF0F) pWr)).eng.writes.map (·.keys) = [[63]] ∧
    (after (.rlyData 0) (arrived (windowed 0xF0F) pRly)).eng.writes.map (·.keys) = [[1]] ∧
    (after (.rd 0) (arrived (windowed 0xF0F) pRd)).eng.reads.length = 1 ∧
    (after (.rdRelay 0) (arrived (windowed 0xF0F) pRelay)).eng.reads.length = 1 ∧
    (after (.raLd 0) (arrived (windowed 0xF0F) pRaLd)).streams.map (·.ra) = [3] ∧
    (after (.raSt 0) (arrived (windowed 0xF0F) pRaSt)).streams.map (·.chip) = [9] ∧
    (after (.atomPacket 0) (arrived (windowed 0xF0F) fetchAdd)).atc.queue = [⟨0, fetchAdd, false⟩] ∧
    (after (.signalPacket 0) (arrived ((windowed 0xF0F).setTallyRaw 8191 3) pSig)).tallyOf 8191 = 2 := by decide +kernel

/-- OPCODE and AUX of the packets formed. -/
def formed (s : State) : List (Nat × Nat) := s.inj.map (fun h => (h.pkt.opcode, h.pkt.aux))

theorem test_requests_refused : formed (after (.wr 0) (arrived (windowed 0xF03) pWr)) = [(0x40, 4)] ∧
    formed (after (.rd 0) (arrived (windowed 0xF0D) pRd)) = [(0x42, 4)] ∧
    formed (after (.raLd 0) (arrived chip5 pRaLd)) = [(0x45, 3)] ∧ formed (after (.raSt 0) (arrived chip5 pRaSt)) = [(0x45, 3)] ∧
    formed (after (.rlyData 0) (arrived chip5 pRly)) = [(0x40, 3)] ∧
    formed (after (.atomPacket 0) (arrived (windowed 0xF07) fetchAdd)) = [(0x46, 4)] ∧
    formed (after (.rdRelay 0) (arrived chip5 pRelay)) = [(0x42, 3)] ∧
    formed (after (.signalPacket 0) (arrived chip5 pSig)) = [(0x47, 0)] := by decide +kernel

/-- Channel 0 with command `w` in execution and a fragment outstanding under FTAG 3, PSEQ 77. -/
def outstanding (w : CmdWord) : State :=
  (after (.put 0) (chan0 [word 1 (5 * 2 ^ 46) (5 * 2 ^ 46) 64])).modChan 0 (fun x => { x with
    flights := x.flights.map (fun f => { f with word := w })
    slots := [⟨3, 77, 0, ⟨0, 0, 64, 0, false⟩, 9, none, none⟩] })
/-- COPY to, GET from, ATOM on and SIGNAL to chip 9. -/
def copyW : CmdWord := word 3 (5 * 2 ^ 46) (9 * 2 ^ 46) 64
def getW : CmdWord := word 2 (9 * 2 ^ 46) (5 * 2 ^ 46) 64
def atomW : CmdWord := word 4 (9 * 2 ^ 46) 1 0 0x101
def sigW : CmdWord := word 7 9 1
/-- A response with FTAG 3 to PSEQ 77. -/
def rsp (op : Nat) (len : Nat := 0) : Packet :=
  pk { opcode := op, vc := 3, dst := 5, ftag := 3, h7 := 77, len := len, granEn := if len = 0 then 0 else 1 } (List.replicate len 1)

theorem witness_Responses : accepted (arrived (outstanding copyW) (rsp 0x40)) (heldOf (rsp 0x40)) = true ∧
    ((after (.wrRsp 0) (arrived (outstanding copyW) (rsp 0x40))).chan 0).slots = [] ∧
    ((after (.rdRsp 0) (arrived (outstanding getW) (rsp 0x42))).chan 0).slots = [] ∧
    ((after (.rdData 0) (arrived (outstanding getW) (rsp 0x41 64))).chan 0).slots = [] ∧
    ((after (.atomRsp 0) (arrived (outstanding atomW) (rsp 0x46))).chan 0).slots = [] ∧
    ((after (.sigRsp 0) (arrived (outstanding sigW) (rsp 0x47))).chan 0).slots = [] ∧
    [(Instr.wrRsp 0, rsp 0x40), (.rdRsp 0, rsp 0x42), (.rdData 0, rsp 0x41 64), (.atomRsp 0, rsp 0x46), (.sigRsp 0, rsp 0x47)].all
      (fun e => decide ((after e.1 (arrived chip5 e.2)).reg 0x208 = 1)) = true := by decide +kernel

/-- RA port 3 with the load of tag 3 outstanding. -/
def loading : State := chip5.modRa 3 (fun r => { r with loads := [⟨3, 8, 4, 77, 0⟩] })
def raRsp (op : Nat) (ftag : Nat := 3) (aux : Nat := 0) (len : Nat := 0) : Packet :=
  pk { opcode := op, vc := 3, dst := 5, ctx := 1, chan := 3, ftag := ftag, aux := aux, h7 := 77, len := len, granEn := if len = 0 then 0 else 1 }
    (List.replicate len 1)

theorem witness_RemoteResponses : accepted (arrived loading (raRsp 0x44 3 0 4)) (heldOf (raRsp 0x44 3 0 4)) = true ∧
    accepted (arrived loading (raRsp 0x45 3 5)) (heldOf (raRsp 0x45 3 5)) = true ∧
    ((after (.raData 0) (arrived loading (raRsp 0x44 3 0 4))).raPort 3).rsp = [⟨3, false, 0, 0x01010101 * 2 ^ 64⟩] ∧
    ((after (.raRsp 0) (arrived loading (raRsp 0x45 3 5))).raPort 3).rsp = [⟨3, false, 5, 0⟩] ∧
    (after (.raRsp 0) (arrived loading (raRsp 0x45 131 4))).reg 0xF00 = BitVec.ofNat 32 (2 ^ 31 + 9 * 64 + 3 * 16 + 4) := by decide +kernel
theorem witness_RemoteResponsesLate :
    accepted (arrived (chip5.modRa 3 (fun r => { r with quar := [(3, 77)] })) (raRsp 0x44 3 0 4)) (heldOf (raRsp 0x44 3 0 4)) = true ∧
    ((after (.raData 0) (arrived (chip5.modRa 3 (fun r => { r with quar := [(3, 77)] })) (raRsp 0x44 3 0 4))).raPort 3).quar = [] ∧
    ((after (.raRsp 0) (arrived (chip5.modRa 3 (fun r => { r with quar := [(3, 77)] })) (raRsp 0x45 3 5))).raPort 3).rsp = [] ∧
    (after (.raData 0) (arrived chip5 (raRsp 0x44 3 0 4))).reg 0x208 = 1 ∧ (after (.raRsp 0) (arrived chip5 (raRsp 0x45 3 5))).reg 0x208 = 1 := by
  decide +kernel


/-! ## Collectives -/

/-- An instance of type `ct` on group 0 of the chips 5 (rank 0) and 9 (rank 1). -/
def plan2 (ct : Nat) : Plan :=
  ⟨0, 0, ct, 0, 3, false, 0, 0, 64, 16, 64, 0, 2 ^ 20, none, none, [2], 0, if ct = 5 then 4 else 0, [5, 9], 0, []⟩
/-- The instance with a READY stream to rank 1 and a wire that waits for it. -/
def inst2 (ct : Nat) : CollInst :=
  { CollInst.fresh 0 0 0 (plan2 ct) with hdr := false, dstLeft := 64, outs := [⟨1, (plan2 ct).keyOf 0 0 0, false, 0, 0⟩], wires := [⟨3, 77, 16, [1], none⟩] }
/-- Group 0 in force, with the instance. -/
def grouped (c : Option CollInst) : State :=
  let f := tblSet (tblSet (tblSet (tblSet [] 0x20000 0xD1) 0x20004 5) 0x20008 1) 0x2000C 4
  { chip5 with tbl := { chip5.tbl with force := f }, groups := SMap.set (fun _ => Group.reset) [] 0 { Group.reset with inst := c } }
/-- A packet of the instance from rank 1. -/
def colPk (ct op : Nat) (len : Nat := 0) (h7 : Nat := 0) (offset : Nat := 0) : Packet :=
  pk { opcode := op, vc := 4, dst := 5, h5 := (plan2 ct).sig5 0, h6 := (plan2 ct).sig6, h7 := h7, len := len, offset := offset } (List.replicate len 1)
/-- COLL_ABORT of group 0, sequence 0, reason 1, outcome 5; and COL_ACK of the wire. -/
def colAbt : Packet := pk { opcode := 0xC0, vc := 5, dst := 5, aux := 0x15 }
def colAckP (ctx : Nat) : Packet := pk { opcode := 0x48, vc := 3, dst := 5, ctx := ctx, ftag := 3, h7 := 77 }

theorem witness_Collectives : (grouped none).grpWord 0 0 % 2 = 1 ∧
    (List.range (grpSize ((grouped none).grpWord 0))).map (grpChip ((grouped none).grpWord 0) (grouped none).rlist) = [5, 9] ∧
    [colPk 0 0x80, colPk 6 0x84, colPk 5 0x82 64, colPk 5 0x83, colPk 0 0x81 64, colAbt, colAckP 2].all (fun p =>
      accepted (arrived (grouped none) p) (heldOf p)) = true ∧
    ((after (.colReady 0) (arrived (grouped (some (inst2 0))) (colPk 0 0x80))).group 0).inst.map (fun c => c.outs.map (·.ready)) = some [true] ∧
    ((after (.colData 0) (arrived (grouped (some (inst2 0))) (colPk 0 0x81 64))).group 0).inst.isSome = true ∧
    ((after (.colSlot 0) (arrived (grouped (some (inst2 5))) (colPk 5 0x82 64))).group 0).inst.map (fun c => c.got) = some [0, 64] ∧
    ((after (.colDone 0) (arrived (grouped (some (inst2 5))) (colPk 5 0x83 0 (3 * 2 ^ 32)))).group 0).inst.map (fun c => c.dones.head?) = some (some (1, 3)) ∧
    ((after (.colRel 0) (arrived (grouped (some (inst2 6))) (colPk 6 0x84))).group 0).inst.map (fun c => c.relSeen) = some true ∧
    ((after (.colReady 0) (arrived (grouped none) (colPk 0 0x80))).group 0).ready.length = 1 ∧
    (after (.colDone 0) (arrived (grouped none) (colPk 5 0x83))).reg 0x16C = 1 ∧
    ((after (.colAck 0) (arrived (grouped (some (inst2 0))) (colAckP 2))).group 0).inst.map (fun c => c.wires.length) = some 0 ∧
    (after (.colAck 0) (arrived (grouped (some (inst2 0))) (colAckP 0))).reg 0x208 = 1 ∧
    ((after (.collAbort 0) (arrived (grouped none) colAbt)).group 0).marks = [(0, 1, 5)] := by decide +kernel

/-- Group 0 without an instance, so far on that sequence 0 lies 2^15 behind. -/
def past : State := { grouped none with groups := SMap.set (fun _ => Group.reset) [] 0 { Group.reset with nseq := 2 ^ 15 } }

theorem witness_CollectivesPast : (after (.colReady 0) (arrived past (colPk 0 0x80))).reg 0x16C = 1 ∧
    (after (.colDone 0) (arrived past (colPk 5 0x83))).reg 0x16C = 1 ∧ (after (.colRel 0) (arrived past (colPk 6 0x84))).reg 0x16C = 1 ∧
    ((after (.collAbort 0) (arrived (grouped (some (inst2 0))) colAbt)).group 0).inst.map (·.ended) = some (some (4, 5, 0)) := by
  decide +kernel


/-! ## Lock cycle and management packets -/

/-- A part in cycle 3 of leader 9, with the children `kids`, in wave `w`. -/
def part3 (w : Nat) (kids : List Nat) : LockPart :=
  ⟨3, 9, 0, 9, w, kids, if w = 0 then [] else kids, TreeAgg.zero, none, 0, false, false, 0, 7, false, 0⟩
/-- The block in phase `ph` of the cycle. -/
def joined (ph : Phase) (w : Nat := 0) (kids : List Nat := []) : State :=
  { chip5 with now := 2 ^ 40, tbl := { chip5.tbl with phase := ph }, mc := { chip5.mc with part := some (part3 w kids) } }
/-- A tree message MSG of that cycle from chip 9. -/
def treePk (msg : Nat) (ws : List Word := []) : Packet :=
  pk { opcode := 0xC1, vc := 5, dst := 5, aux := 256 * msg + 1, h5 := 3, h6 := 9, h7 := 1, len := 4 * ws.length }
    (ws.flatMap (fun w => leBytes 4 w.toNat))

/-- Every condition of `MgtComes` on the packet in berth 0 of a block that has answered nothing. -/
theorem mgtComes {s : State} {h : Held} {c m : Nat} (e : accepted s h = true)
    (f : h.pkt.opcode = 0xC1 ∧ h.pkt.aux % 16 = c ∧ h.pkt.aux / 256 = m ∧ (s.accepted 0 h).mgtTaken h = true ∧ s.mc.answered = []) :
    MgtComes s 0 h c m :=
  ⟨accepts e, f.1, f.2.1, f.2.2.1, f.2.2.2.1, by simp [f.2.2.2.2]⟩

theorem witness_MgtComes : MgtComes (arrived (joined .staged) (treePk 5)) 0 (heldOf (treePk 5)) 1 5 :=
  mgtComes (by decide +kernel) (by decide +kernel)

/-- The routing record of STAGE: substitution entry 0. -/
def stageWs : List Word := [0x400, 2, 0x80000009, 0x00000001]

theorem witness_LeaderMessages :
    (after (.treeStage 0) (arrived (joined .none) (treePk 1 stageWs))).tbl.bank1 = [(0x1000, 0x80000009), (0x1004, 1)] ∧
    (after (.treeSeal 0) (arrived (joined .none) (treePk 2))).tbl.phase = .staged ∧
    (after (.treeLock 0) (arrived (joined .staged) (treePk 5))).tbl.phase = .locked ∧
    ((after (.treeCount 0) (arrived (joined .locked 0 [4]) (treePk 6))).mc.part.map (·.await)) = some [4] ∧
    (after (.treeSwap 0) (arrived (joined .locked) (treePk 8 [0]))).tbl.cur = true ∧
    (after (.treeRelease 0) (arrived (joined .swapped) (treePk 10))).mc.part = none := by decide +kernel

/-- A report of 11 words: one READY. -/
def readyWs : List Word := 1 :: List.replicate 10 0

theorem witness_Reports :
    ((after (.treeReady 0) (arrived (joined .staged 2 [9, 4]) (treePk 3 readyWs))).mc.part.map (fun p => (p.await, p.agg.ready))) = some ([4], 1) ∧
    ((after (.treeRefused 0) (arrived (joined .staged 2 [9]) (treePk 4 readyWs))).mc.part.map (·.wave)) = some 0 ∧
    ((after (.treeReport 0) (arrived (joined .locked 6 [9]) (treePk 7 readyWs))).mc.part.map (·.wave)) = some 0 ∧
    ((after (.treeSwapped 0) (arrived (joined .swapped 8 [9]) (treePk 9 readyWs))).mc.part.map (·.wave)) = some 0 ∧
    (let s := joined .staged 2 [9]
     (after (.treeReady 0) (arrived { s with mc := { s.mc with lead := some ⟨.swap, .mailbox, 0⟩ } } (treePk 3 readyWs))).tbl.phase) = .locked := by
  decide +kernel

/-- A REMOTE request with command `cmd`, and the block in FULL mode. -/
def remotePk (cmd : Nat) : Packet :=
  pk { opcode := 0xC1, vc := 5, dst := 5, h7 := 1, len := 4 } (leBytes 4 cmd)
def full5 : State := { chip5 with mc := { chip5.mc with mode := .full } }
/-- The spare's block: no partition, at its link port 0 the partition 7 is admitted. -/
def spare5 : State :=
  (({ chip5 with ident := { chip5.ident with pkey := 0 } } : State).setReg 0x604 7).modLink 0 (fun l => { l with st := .active })
def sparePk : Packet := pk { opcode := 0xC1, vc := 5, dst := 5, aux := 2, h7 := 1, len := 4 } (leBytes 4 0xFFFFFFFF)
/-- A request sent to chip 9 that waits for its response. -/
def asking : State :=
  { chip5 with now := 2 ^ 30, mc := { chip5.mc with outst := [⟨5, 9, 0, 0, 0, 7, [], 0, 1, some .mailbox⟩], mb := { chip5.mc.mb with busy := some ⟨[], 0, true⟩ } } }
def mbRspPk : Packet := pk { opcode := 0xC2, vc := 5, dst := 5, h7 := 5, len := 4 } [0, 0, 0, 0]
def assistPk (op : Nat) : Packet := pk { opcode := op, vc := 5, dst := 5, len := 16 } (List.replicate 16 0)

theorem witness_Management :
    ((after (.mbReqRemote 0) (arrived full5 (remotePk 0x60))).mc.answered.map (fun a => payWords a.pay)) = [[rspHead 3 0 0]] ∧
    ((after (.mbReqRemote 0) (arrived full5 (remotePk 1))).mc.answered.map (fun a => (payWords a.pay).head?)) = [some (rspHead 0 0 4)] ∧
    (spare5.mgtTaken (heldOf sparePk 0)) = true ∧ accepted (arrived spare5 sparePk 0) (heldOf sparePk 0) = true ∧
    (after (.mbReqSpare 0) (arrived spare5 sparePk 0)).mc.answered.length = 1 ∧
    (after (.mbRsp 0) (arrived asking mbRspPk)).mc.mb.done = true ∧
    (after (.assist 0) (arrived (chip5.modLink 0 (fun l => { l with peer := { l.peer with chip := 9 } })) (assistPk 0xC3) 0)).far.queue.length = 1 ∧
    (after (.assistRsp 0) (arrived chip5 (assistPk 0xC4))).out = [] ∧
    ((after (.mgtResendTimeout 5) asking).mc.outst.map (·.sends)) = [2] := by decide +kernel

/-- The block whose former bank is held since the start. -/
def holding : State := { chip5 with now := 2 ^ 40, tbl := { chip5.tbl with cur := true, other := .hold } }

theorem witness_LockCycleLimits :
    (let s := joined .locked
     (after .lockDrainTimeout { s with mc := { s.mc with lead := some ⟨.swap, .nobody, 0⟩ } }).tbl.phase) = .none ∧
    (after .lockSwapTimeout (joined .locked)).tbl.phase = .none ∧ (joined .locked).drainTicks * 4 ≤ 2 ^ 40 ∧
    (let s := joined .swapped 8 [4]
     (after .lockReleaseTimeout { s with mc := { s.mc with lead := some ⟨.swap, .nobody, 0⟩ } }).mc.lead) = none ∧
    (after .epochHoldExpire holding).tbl.other = .idle ∧ (after .epochHoldExpire { holding with now := 0 }).tbl.other = .hold := by
  decide +kernel

theorem witness_LeaderEnds : (joined .locked).towsOn 7 = [] ∧
    (joined .locked).mc.part.map (fun p => p.await.contains (joined .locked).own) = some false ∧
    (after (.treeSwap 0) (arrived (joined .locked) (treePk 8 [1]))).tbl.other = .hold ∧
    (after (.treeSwap 0) (arrived (joined .locked) (treePk 8 [0]))).tbl.other = .idle ∧
    (let s := joined .swapped 8 [9]
     (after (.treeSwapped 0) (arrived { s with mc := { s.mc with lead := some ⟨.swap, .mailbox, 0⟩ } } (treePk 9 readyWs))).mc.part) = none ∧
    (after (.mbReqSpare 0) (arrived spare5 (pk { opcode := 0xC1, vc := 5, dst := 5, aux := 2, h7 := 1, len := 92 }
      (leBytes 4 0xFFFFFFFE ++ leBytes 4 (2 ^ 31 + 3) ++ leBytes 4 7 ++ List.replicate 80 0)) 0)).mc.spareWait = true := by decide +kernel


/-! ## Hops, reins and towpaths -/

/-- A sealed harness map: team 0 on port 0 in direction X+, team 15 on port 11 in direction X−, both admitting key 7. -/
def wired : State :=
  [(0xC000, 1), (0xC004, 0xFFFFFFF0), (0xC008, 0xBFFFFFFF), (0xC040, 1), (0xC06C, 3), (0x600, 7), (0x760, 7)].foldl
    (fun t e => t.setReg e.1 (BitVec.ofNat 32 e.2)) chip5
/-- Port `p` in state `st` with its team and 4 credits of every channel. -/
def linked (p : Nat) (st : LinkSt) (s : State := wired) : State :=
  s.modLink p (fun l => { l with st := st, teams := [if p = 0 then 0 else 15], cred := List.replicate 6 4, peer := { l.peer with shares := List.replicate 7 8 } })
/-- A packet of partition `key` to chip `d` that stands in the basin of port 0, or at the injection point. -/
def passing (d : Nat) (key : Nat := 7) : Held := heldOf (Hd.packet { opcode := 7, vc := 1, pkey := key, dst := d, src := 9 } []) 0
def inBasin (h : Held) (s : State := linked 0 .active) : State := s.modLink 0 (fun l => { l with basin := [h] })
def injected (h : Held) : State := { linked 0 .active with inj := [{ h with port := 15 }] }

theorem witness_PacketsHop :
    (linked 0 .active).fate 15 { passing 6 with port := 15 } = .leave 0 1 true none ∧
    (injected (passing 6)).hasCredit 0 1 true = true ∧ (injected (passing 6)).vcTurn 0 1 = true ∧
    (injected (passing 6)).first 15 0 { passing 6 with port := 15 } = true ∧
    (after (.packetHop 15 0 none) (injected (passing 6))).inj = [] ∧
    (after (.packetHop 15 0 none) (injected (passing 6))).out.length = 3 ∧
    ((after (.packetHop 15 0 none) (injected (passing 6))).link 0).cred = [4, 3, 4, 4, 4, 4] ∧
    ((after (.packetHop 15 0 none) (injected (passing 6))).link 0).replay.length = 1 ∧
    (inBasin (passing 5)).fate 0 (passing 5) = .eject ∧
    (after (.packetHop 0 0 none) (inBasin (passing 5))).eject = [passing 5] ∧
    (after (.packetHop 0 0 none) (inBasin { passing 5 with abn := some 0 })).eject = [] ∧
    (inBasin (passing 5 8)).fate 0 (passing 5 8) = .drop 0x54 ∧
    (after (.packetHop 0 0 none) (inBasin (passing 5 8))).reg 0x608 = 1 ∧
    ((after (.packetHop 0 0 none) (inBasin (passing 9000))).reg 0x310) = 1 := by decide +kernel

/-- A towpath SOURCE entry 127 of 4 slots, VALID, out of port 0, and a hop entry in to port 11. -/
def towed (st : Life) (avail : Nat) (role : Nat := 0) : State :=
  let f := tblSet chip5.tbl.force (0xB000 + 32 * 127) (BitVec.ofNat 32 (1 + 2 * role + 16 * 11 + 4 * 2 ^ 16))
  ({ linked 0 .active (linked 11 .active) with now := 2 ^ 40, tbl := { chip5.tbl with force := f } }).modTow 127 (fun x => { x with
    st := st, avail := avail, en := decide (st ≠ Life.off), queue := [] })
/-- A towpath packet at the injection point, its slot at hand, and a multicast packet that passes this member. -/
def towPk : Held :=
  { heldOf (Hd.packet { opcode := 1, vc := 1, rmode := 2, pkey := 7, dst := 6, src := 5, len := 1024, granEn := 0xFFFF } (List.replicate 1024 7)) 15 with
    share := 6, dir := some (127 + 8) }
def towGo : State :=
  let s := towed .on 3
  { s with tbl := { s.tbl with force := tblSet s.tbl.force (0xB010 + 32 * 127) 1 }, inj := [towPk] }.modTow 127 (fun x => { x with hopCred := 2 })
def mcPk : Held :=
  heldOf (Hd.packet { opcode := 0x81, vc := 4, rmode := 3, pkey := 7, dst := 4, src := 9, h5 := (plan2 0).sig5 0, h6 := (plan2 0).sig6 } []) 0
def mcState : State := inBasin mcPk { linked 11 .active (linked 0 .active) with tbl := (grouped none).tbl }

theorem witness_PacketsHopOnTowpaths : towGo.fate 15 towPk = .leave 0 6 false (some 127) ∧ towGo.slotOwner 0 = some 127 ∧
    (towGo.towReady 127 0 1024) = some (15, 0, towPk) ∧ ((after (.packetHop 15 0 none) towGo).link 0).replay.length = 1 ∧
    ((after (.packetHop 15 0 none) towGo).tow 127).hopCred = 1 ∧ mcState.fate 0 mcPk = .leave 11 4 false none ∧
    mcState.mcastMember mcPk.pkt = true ∧ (after (.packetHop 0 0 none) mcState).eject.length = 1 := by decide +kernel

/-- Entry 127 after a command. -/
def tow127 (c : Instr) (s : State) : Life × Bool × Nat × Nat :=
  let x := (after c s).tow 127
  (x.st, x.en, x.avail, x.hopCred)

theorem witness_Towpaths : WriteMade (towed .off 0) (0xB018 + 32 * 127) (kw 1) true ∧
    tow127 (.towEnable 127 (kw 1)) (towed .off 0) = (.starting, true, 0, 0) ∧
    tow127 (.towStarted 127) (towed .starting 0) = (.on, true, 4, 2) ∧ (towed .starting 0).towPortsUp 127 = true ∧
    tow127 (.towStarted 127) (towed .starting 0 2) = (.on, true, 0, 0) ∧
    tow127 (.towDisable 127 (kw 0)) (towed .on 3) = (.draining, false, 3, 0) ∧
    tow127 (.towDisable 127 (kw 0)) (towed .on 4) = (.off, false, 0, 0) ∧
    tow127 (.towDisable 127 (kw 0)) (towed .on 0 1) = (.off, false, 0, 0) ∧
    (tow127 (.towStall 127) (towed .on 3)).1 = .off ∧ (tow127 (.towStall 127) (towed .on 4)).1 = .on ∧
    (after (.towEnable 127 (hw (0xB018 + 32 * 127) 1)) (towed .off 0)).tows = (towed .off 0).tows := by
  refine ⟨made ?_, ?_⟩ <;> decide +kernel

theorem witness_HostWriteMade : WriteMade (towed .off 0) (0xB018 + 32 * 127) (hw (0xB018 + 32 * 127) 1) false := by
  refine ⟨?_, ?_, ?_, ?_, ?_⟩ <;> decide +kernel

/-- Rein 67 at RATE 100, with the interval over. -/
def reined (zero high : Bool) : State :=
  { chip5 with now := 2 ^ 40 }.modRein 67 (fun r => { r with rate := 100, sawZero := zero, sawHigh := high })

theorem witness_Rein : (reined true false).taiTicks ≤ 2 ^ 40 ∧
    ((after (.reinIncrease 67) (reined true false)).rein 67).rate = 100 + 0x10 ∧
    ((after (.reinIncrease 67) (reined true true)).rein 67).rate = 100 ∧ ((after (.reinIncrease 67) (reined false false)).rein 67).rate = 100 := by
  decide +kernel

/-! ## Link ports -/

theorem witness_LinkControl : WriteMade wired (lnkReg 11 0) (kw 1) true ∧ WriteMade wired 0x3030 (kw 0x801) true ∧
    ((after (.linkEnable 11 (kw 1)) wired).link 11).st = .training ∧
    ((after (.linkEnable 5 (kw 1)) wired).link 5).st = .off ∧ ((after (.linkEnable 5 (kw 1)) wired).reg (lnkReg 5 4)).toNat.testBit 16 = true ∧
    ((after (.linkEnable 11 (kw 0x7FF9)) wired).link 11).st = .off ∧
    ((after (.linkEnable 11 (kw 1)) (linked 11 .fenced)).link 11).st = .training ∧
    ((after (.linkEnable 11 (kw 1)) (linked 11 .draining)).link 11).enPend = true ∧
    ((after (.linkDisable 11 (kw 0)) (linked 11 .active)).link 11).st = .off ∧
    ((after (.linkDisable 11 (kw 0)) (linked 11 .training)).link 11).st = .off ∧
    ((after (.linkRetrainWrite 11 (kw 3)) (linked 11 .active)).link 11).st = .retrain ∧
    ((after (.portFence (kw 0x801)) (linked 11 .active)).link 11).cause = 7 ∧ ((after (.portFence (kw 0x801)) wired).link 0).st = .off ∧
    (after (.lnkInjArm 11 (kw 1)) wired).reg (lnkReg 11 0x24) = 1 := by
  refine ⟨made ?_, made ?_, ?_⟩ <;> decide +kernel

/-- Port 11 in training or retraining since the start, with its team trained. -/
def training (st : LinkSt) (lock : Bool) : State :=
  ({ linked 11 st with now := 2 ^ 40 }.modLink 11 (fun l => { l with tagLock := lock })).modTeam 15 (fun x => { x with trained := true, st := .usable })
/-- The fields of LINK_PARAM from chip 4 at X− of this block, for one team in MODE 0 and RATE 4, with the time stamp `echo`. -/
def param (echo : Nat) (seen : Nat := 4) : Nat :=
  1 + put 0x7E13D32 36 28 + put seen 64 18 + 2 ^ 95 + put 0 96 8 + put 1 104 8 + put 0 112 8 + put 4 120 8 +
    maskOf ((List.range 6).map (fun v => 128 + 8 * v)) + put echo 256 64
/-- The state with a received control flit at the front of port 11. -/
def ctlAt (b : Nat) (s : State) : State := s.modLink 11 (fun l => { l with ctl := [(40, BitVec.ofNat 2048 b)] })
/-- State, CAUSE and credits of port 11 after a command. -/
def port11 (c : Instr) (s : State) : LinkSt × Nat × List Nat :=
  let l := (after c s).link 11
  (l.st, l.cause, l.cred)

theorem witness_CtlComes : CtlComes (ctlAt (param 5) (training .training true)) 11 1 (param 5) :=
  ⟨by decide +kernel, by decide, by decide +kernel⟩

theorem witness_BringUp :
    ((after (.tagLock 11) (training .training false)).link 11).tagLock = true ∧
    ((training .training false).portTeams 11).all (fun k => ((training .training false).team k).decided) = true ∧
    (after (.linkParamSend 11) (training .retrain true)).out.length = 3 ∧
    (port11 (.linkTrainTimeout 11) (training .training false)).1 = .fenced ∧ (port11 (.retrainTimeout 11) (training .retrain false)).2.1 = 3 ∧
    (port11 (.linkDrainTimeout 11) (training .draining false)).1 = .fenced ∧
    (ctlAt (param 5) (training .training true)).paramGood 11 (param 5) = true ∧
    ((after (.linkParam 11) (ctlAt (param 5) (training .training true))).link 11).goodParams = 1 ∧
    (let s := (ctlAt (param 5) (training .training true)).modLink 11 (fun l => { l with goodParams := 1, stamps := [5] })
     port11 (.linkParam 11) s) = (.active, 0, List.replicate 6 1) ∧
    ((after (.linkParam 11) (ctlAt (param 5) (training .training true))).link 11).mgtOnly = false ∧
    ((after (.linkParam 11) (ctlAt (param 5 3) (training .training true))).link 11).mgtOnly = true ∧
    (let s := ctlAt 1 (training .training true)
     (port11 (.linkParam 11) s).1 = .fenced ∧ (port11 (.linkParam 11) s).2.1 = 6) ∧
    (port11 (.linkParam 11) (ctlAt (param 5) (training .retrain true))).1 = .active ∧
    (port11 (.retrain 11) (ctlAt 3 (linked 11 .active))).1 = .retrain := by decide +kernel

/-- A good tag with the given fields, over a body. -/
def rx (tag : Nat) (body : Nat := 0) : RxFlit :=
  ⟨15, BitVec.ofNat 112 (tag + put (tagCrc tag (BitVec.ofNat 2048 body)) 80 32), BitVec.ofNat 2048 body, [], false⟩
/-- A tag of kind, FSEQ, first and last, virtual channel, without a credit report. -/
def tagOf (kind fseq : Nat) (fl : Nat := 0) (vc : Nat := 0) (rep : Nat := 7) (crcnt : Nat := 0) : Nat :=
  kind + put fseq 2 12 + put vc 14 3 + put fl 17 2 + put rep 42 3 + put crcnt 45 8

/-- Port 11 ACTIVE, expecting FSEQ 4095. -/
def rxing : State := (linked 11 .active).modLink 11 (fun l => { l with e := 4095, cred := [4, 4, 4, 4, 4, 4] })
/-- The same with FEC class B on its team. -/
def classB : State := rxing.setReg 0xDF00 1
/-- E, NAK, packets and control flits held after flit `f`. -/
def seqAfter (f : RxFlit) (s : State := rxing) : Nat × Bool × Nat × Nat :=
  let l := (after (.seqFlitReceive 11 f) s).link 11
  (l.e, l.nak, l.basin.length, l.ctl.length)
/-- Port 11 with one flit to acknowledge, sent `n` times. -/
def replaying (n : Nat) : State := { rxing.modLink 11 (fun l => { l with replay := [⟨0, 1, 0, n, 0⟩], fseq := 1 }) with now := 2 ^ 40 }

theorem witness_Flits : rxing.rxGood 11 (rx (tagOf 1 4095 3)) = true ∧
    seqAfter (rx (tagOf 1 4095 3)) = (0, false, 1, 0) ∧ seqAfter { rx (tagOf 1 4095 3) with errs := [8] } classB = (4095, true, 0, 0) ∧
    seqAfter { rx (tagOf 1 4095 3) with errs := [7] } classB = (0, false, 1, 0) ∧
    seqAfter (rx (tagOf 1 0 3)) = (4095, true, 0, 0) ∧ (seqAfter (rx (tagOf 1 3071 3))).1 = 4095 ∧
    ((after (.seqFlitReceive 11 (rx (tagOf 1 1024 3))) rxing).link 11).st = .retrain ∧
    ((after (.seqFlitReceive 11 (rx (tagOf 1 1023 3))) rxing).link 11).st = .active ∧
    seqAfter (rx (tagOf 2 4095) 2) = (0, false, 0, 1) ∧
    ((after (.tagReceive 11 (rx (tagOf 0 0 0 0 5 4))) rxing).link 11).cred = [4, 4, 4, 4, 4, 8] ∧
    ((after (.tagReceive 11 (rx (tagOf 0 0 0 0 5 5))) rxing).link 11).cause = 5 ∧
    ((after (.tagReceive 11 (rx (tagOf 0 0 + 2 ^ 28))) (replaying 1)).link 11).replay = [] ∧
    ((after (.tagReceive 11 (rx (tagOf 0 0 + 2 ^ 41))) (rxing.modLink 11 (fun l => { l with fenceRun := [(15, 63)] }))).link 11).cause = 2 ∧
    ((after (.tagReceive 11 (rx (tagOf 0 0 + 2 ^ 41))) (rxing.modLink 11 (fun l => { l with fenceRun := [(15, 62)] }))).link 11).st = .active ∧
    ((after (.tagReceive 11 (rx (tagOf 3 0) 1)) (training .training true)).link 11).ctl.length = 1 ∧
    (after (.replayTimeout 11) (replaying 1)).out.length = 3 ∧
    ((after (.replayTimeout 11) (replaying 20)).link 11).st = .retrain := by decide +kernel

/-- A control flit for partition 7 with `id` at [63:48] and `more`, at the front of port 11. -/
def ctl7 (ctype id : Nat) (more : Nat := 0) (s : State := linked 11 .active) : State :=
  ctlAt (ctype + put 7 32 16 + put id 48 16 + more) s
/-- In a halt of partition 7 with identifier 3 that waits for the marker on port 11. -/
def haltIn : State := { linked 11 .active with halt := ⟨.halting, 7, 3, [], [11], 0, false⟩ }
/-- Time steering over port 11, in state `st`, with beacon 1 sent at time 0 and `good` responses so far. -/
def steering (st : TimeSt) (good : Nat) : State :=
  { (linked 11 .active).setReg 0xF048 (BitVec.ofNat 32 (1 + 4 * 11)) with now := 2 ^ 30, ts := ⟨st, 1, some 0, good, 0, 0, 0, true, 0⟩ }
/-- The response to beacon 1, with T2 = T3 = `t`. -/
def beaconRsp (t : Nat) : Nat := 0x31 + put 1 32 16 + put t 128 64 + put t 192 64

theorem witness_ControlFlits :
    (after (.haltMark 11) (ctl7 0x10 3)).halt.st ≠ .run ∧ (after (.haltMark 11) (ctl7 0x10 3 0 haltIn)).halt.awaited = [] ∧
    (after (.haltMark 11) (ctl7 0x10 4 0 haltIn)).halt = haltIn.halt ∧
    (after (.haltRel 11) (ctl7 0x11 3 0 haltIn)).halt.st = .run ∧ (after (.haltRel 11) (ctl7 0x11 4 0 haltIn)).halt.st = .halting ∧
    (after (.abortFlit 11) (ctl7 0x20 1 (put 9 64 18 + put 2 96 8 + put 5 104 8))).abort.steps = [⟨1, 2, 9, 5, false, false⟩] ∧
    (after (.abortFlit 11) (ctl7 0x20 2)).abort.skewHold = true ∧ (after (.abortFlit 11) (ctl7 0x20 127)).abort.skewHold = true ∧
    (after (.abortFlit 11) (ctl7 0x20 128)).reg 0x3024 = 1 ∧ (after (.abortFlit 11) (ctl7 0x20 0)).reg 0x3024 = 1 ∧
    (after (.abortFlit 11) (ctl7 0x20 1 0 (linked 11 .training))).abort = chip5.abort ∧
    (after (.abortFlit 11) (ctlAt (0x20 + put 8 32 16 + put 1 48 8) ((linked 11 .active).setReg 0x760 0x80007))).abort.pairs.length = 1 ∧
    (after (.beacon 11) (ctl7 0x30 0)).out.length = 3 ∧
    (let t := after (.beaconRsp 11) (ctlAt (beaconRsp 20) (steering .acquire 15))
     (t.ts.st, t.reg 0xF050, t.reg 0xF054) = (.locked, 0, 20)) ∧
    (after (.beaconRsp 11) (ctlAt (beaconRsp 40) (steering .acquire 15))).ts.st = .acquire ∧
    (after (.beaconRsp 11) (ctlAt (beaconRsp 40) (steering .holdover 0))).ts.st = .acquire ∧
    (after (.beaconRsp 11) (ctlAt (beaconRsp 40) (steering .locked 0))).ts.st = .locked ∧
    (steering .locked 0).beaconOn = true ∧
    (after .beaconInterval { steering .locked 0 with ts := ⟨.locked, 1, some 0, 0, 15, 0, 0, true, 0⟩ }).ts.st = .holdover ∧
    (after .beaconInterval (steering .locked 0)).ts.seq = 2 := by decide +kernel

/-! ## Lanes, teams, the harness map and I²C -/

/-- Team 15 of port 11 in state `st`, changed by `f`. -/
def teamed (st : TeamSt) (f : Team → Team := id) (link : LinkSt := .active) : State :=
  ({ linked 11 link with now := 2 ^ 40 }).modTeam 15 (fun x => { f x with st := st })
/-- Lane 9 of team 15 with its changes. -/
def lane9 (f : Lane → Lane) (x : Team) : Team := { x with lanes := setAt x.lanes 9 (f (x.lane 9)) }
/-- A training frame that carries a control field with its check. -/
def frame (ctl fom : Nat) (settled : Bool) : TrainFrame :=
  ⟨BitVec.ofNat 64 (ctl + put (crcLane (BitVec.ofNat 64 ctl)) 48 16), 0, BitVec.ofNat 8 fom, settled⟩
/-- Lane 9 of team 15 after a frame. -/
def lane9After (f : TrainFrame) (asks : Nat := 0) : Lane :=
  ((after (.trainingFrame 15 9 f) (teamed .training (lane9 (fun y => { y with asks := asks })) .training)).team 15).lane 9

theorem witness_Lanes : (teamed .training id .training).inTraining 15 = true ∧
    ((lane9After (frame (5 + 9 * 2 ^ 16) 7 false)).fom, (lane9After (frame (5 + 9 * 2 ^ 16) 7 false)).echo) = (7, 5) ∧
    (lane9After (frame (8 * 2 ^ 16) 7 false)).miswire = true ∧ (lane9After (frame (9 * 2 ^ 16) 200 true)).train = .done ∧
    (lane9After (frame (9 * 2 ^ 16) 199 true) 128).train = .failed ∧ (lane9After (frame (9 * 2 ^ 16) 199 true) 127).train = .open_ ∧
    (((after (.fomUpdate 15 [1, 2]) (teamed .usable)).team 15).lane 1).fom = 2 ∧ (teamed .usable).teamLive 15 = true ∧
    (((after (.prbsCheckerLock 15 9 33) ((teamed .prbs (lane9 (fun y => { y with prbsLock := true }))).setReg (teamReg 15 0xC) 9)).team 15).lane 9).prbsErr = 33 ∧
    (((after (.prbsCheckerLock 15 9 0) ((teamed .prbs).setReg (teamReg 15 0xC) 9)).team 15).lane 9).prbsLock = true ∧
    ((after (.prbsMode 15 (kw 5)) (teamed .off id .off)).team 15).st = .prbs ∧ ((after (.prbsMode 15 (kw 0)) (teamed .prbs id .off)).team 15).st = .off ∧
    (((after (.prbsClr 15 (kw 0x10)) (teamed .prbs (lane9 (fun y => { y with prbsErr := 5 })))).team 15).lane 9).prbsErr = 0 := by
  decide +kernel

/-- Team 15 after a command. -/
def team15 (c : Instr) (s : State) : Team := (after c s).team 15
/-- A call for lane 9, transaction 1, at stage `n`. -/
def calling (n : Nat) (now : Bool) : State := teamed .usable (fun x => { x with call := some ⟨9, 1, now, n⟩, txn := 1 })

theorem witness_Spares : (teamed .usable).spareFree 15 = true ∧
    (team15 (.laneSilent 15 9) (teamed .usable)).call = some ⟨9, 1, true, 0⟩ ∧
    (team15 (.forwardedClockLoss 15) (teamed .usable)).call = some ⟨9, 1, true, 0⟩ ∧
    (team15 (.teamSwap 15 (kw 0x13)) (teamed .usable)).call = some ⟨9, 1, true, 0⟩ ∧
    (team15 (.teamSwap 15 (kw 1)) (teamed .usable)).call = some ⟨0, 1, false, 0⟩ ∧
    ((after (.teamSwap 15 (kw 1)) (calling 0 false)).reg (teamReg 15 4)).toNat.testBit 25 = true ∧
    (team15 (.laneManagementWord 15) (calling 0 false)).call = some ⟨9, 1, false, 1⟩ ∧
    (after (.laneManagementWord 15) (teamed .usable)).out = [.lmw 15 (lmw 0 0 0 0) 0x7FFFFFFF] ∧
    (team15 (.mirrorReq 15 (lmw 1 9 255 0)) (teamed .usable)).ack = some (9, 255) ∧
    (team15 (.laneManagementWord 15) (teamed .usable (fun x => { x with ack := some (9, 255) }))).arm = some 9 ∧
    (team15 (.laneManagementWord 15) (teamed .usable (fun x => { x with arm := some 9 }))).mirror = some 9 ∧
    (team15 (.mirrorAck 15 (lmw 2 9 1 0)) (calling 1 false)).call = some ⟨9, 1, false, 2⟩ ∧
    (team15 (.mirrorAck 15 (lmw 2 9 1 0)) (calling 1 true)).spareFor = some 9 ∧
    (team15 (.spareCompareDone 15 true) (calling 2 false)).spareFor = some 9 ∧
    (team15 (.spareCompareDone 15 false) (calling 2 false)).spareBad = true := by decide +kernel

/-- Port 11 with the teams 14 and 15, team 14 usable. -/
def pair (st : TeamSt) (teams : List Nat) (asks : List Nat := []) (f : Team → Team := id) : State :=
  (((teamed st f).setReg 0xC008 0xBBFFFFFF).modTeam 14 (fun x => { x with st := .usable })).modLink 11 (fun l => { l with teams := teams, dropAsk := asks })
/-- TEAM_CMD with ACTION `a` for the second team of port 11, at its front. -/
def teamCmd (a : Nat) (s : State) : State := ctlAt (2 + put a 32 8 + put 1 40 8) s

theorem witness_Teams :
    (team15 (.clockHoldoverEnd 15) (pair .usable [14, 15] [] (fun x => { x with holdover := true }))).st = .dropped ∧
    (after (.tagLockLoss 15) (teamed .usable)).link 11 ≠ (teamed .usable).link 11 ∧ (team15 (.tagLockLoss 15) (teamed .usable)).st = .retraining ∧
    (team15 (.tagLockLoss 15) (pair .usable [14, 15])).st = .dropped ∧
    (team15 (.teamRetryTimer 15) (pair .dropped [14] [] (fun x => { x with retryAt := some 0 }))).st = .retraining ∧
    (team15 (.teamRetry 15 (kw 0x20)) (pair .failed [14])).st = .retraining ∧
    (pair .usable [14, 15]).cmdTeam 11 (2 + put 1 40 8) = some 15 ∧
    (team15 (.teamDrop 11) (teamCmd 1 (pair .dropped [14, 15] [15]))).st = .retraining ∧
    (team15 (.teamDrop 11) (teamCmd 1 (pair .usable [14, 15]))).st = .retraining ∧
    ((after (.teamDrop 11) (teamCmd 1 (pair .usable [15]))).link 11).st = .retrain ∧
    ((after (.teamAdd 11) (teamCmd 2 (pair .retraining [14] [] (fun x => { x with tagLock := true })))).link 11).teams = [14, 15] ∧
    ((after (.teamAdd 11) (teamCmd 2 (pair .retraining [14]))).link 11).dropAsk = [215] := by decide +kernel

/-- The harness map of `wired`, not sealed. -/
def unsealed : State := wired.setReg 0xC000 0x000F0000

theorem witness_HarnessSeal : WriteMade unsealed 0xC000 (kw 1) true ∧ unsealed.sealRefuse = none ∧
    (after (.harnessSeal (kw 1)) unsealed).reg 0xC000 = 0x60001 ∧
    (after (.harnessSeal (kw 1)) (unsealed.setReg 0xC040 0)).reg 0xC000 = 0xF0020 ∧
    (after (.harnessSeal (hw 0xC000 1)) unsealed).reg 0xC000 = 0xF0000 := by
  refine ⟨made ?_, ?_⟩ <;> decide +kernel

/-- Controller 7 with EN `en`, busy with a read of 128 bytes when `busy`. -/
def i2c7 (en : Nat) (busy : Bool) : State :=
  let s := chip5.setReg (i2cReg 7 0) (BitVec.ofNat 32 en)
  if busy then s.setI2c 7 (some ⟨1, 0x50, 0, 128, none⟩) else s
/-- RESULT, NDONE and whether a transaction stands after a command. -/
def i2cAfter (c : Instr) (s : State) : Nat × Nat × Bool :=
  let t := after c s
  (t.rf (i2cReg 7 8) 1 3, t.rf (i2cReg 7 8) 4 8, (t.i2cBusy 7).isSome)

theorem witness_I2c : WriteMade (i2c7 1 false) (i2cReg 7 4) (kw 0x80FE0141) true ∧
    (after (.i2cRead 7 (kw 0x80FE0141)) (i2c7 1 false)).i2cBusy 7 = some ⟨1, 0x50, 0, 128, none⟩ ∧
    (after (.i2cWrite 7 (kw 0x80000000)) (i2c7 1 false)).i2cBusy 7 = some ⟨0, 0, 0, 1, none⟩ ∧
    i2cAfter (.i2cReadCur 7 (kw 0x80000002)) (i2c7 0 false) = (6, 0, false) ∧
    ((after (.i2cRead 7 (kw 0x80FE0141)) (i2c7 1 true)).reg (i2cReg 7 8)).toNat.testBit 13 = true ∧
    i2cAfter (.i2cTransactionEnd 7 (.ok [1])) (i2c7 1 true) = (0, 128, false) ∧
    i2cAfter (.i2cTransactionEnd 7 .nackAddr) (i2c7 1 true) = (1, 0, false) ∧
    i2cAfter (.i2cTransactionEnd 7 (.nackData 3)) (i2c7 1 true) = (2, 3, false) ∧
    i2cAfter (.i2cTransactionEnd 7 .stuck) (i2c7 1 true) = (4, 0, false) ∧
    i2cAfter (.i2cTransactionEnd 7 (.lost 0)) (i2c7 1 true) = (5, 0, false) ∧
    i2cAfter (.i2cStretchTimeout 7 0) (i2c7 1 true) = (3, 0, false) := by
  refine ⟨made ?_, ?_⟩ <;> decide +kernel

/-! ## Reduction units -/

/-- Unit 16 in state `st`. -/
def unit16 (st : Life) (faulted : Bool) : State := chip5.modUnit 16 (fun _ => ⟨st, false, faulted, none⟩)
/-- An instance with one partial that finds its local operand. -/
def combining : State :=
  let c := { inst2 0 with parts := [⟨0, 0, 0, [[1]], false, 0⟩], waits := [⟨0, 0, 0, 0, [[2]], [], false, colPk 0 0x81 64⟩] }
  (grouped (some c)).modUnit 16 (fun _ => ⟨.on, false, false, none⟩)

/-- Unit 1 cleared while a piece waits: it drains with that piece. -/
def draining : State := after (.ruDisable (kw 0x00200001)) combining
def drains : RUnit := draining.unit 1

theorem witness_Units : WriteMade chip5 0x180 (kw 0x003FFFFF) true ∧ chip5.unitSpare = 16 ∧
    ((after (.ruSpareDesignate (kw 0x0001FFFF)) chip5).unit 0).st = .off ∧ (after (.ruSpareDesignate (kw 0x0001FFFF)) chip5).unitSpare = 0 ∧
    ((after (.ruSpareDesignate (kw 0x003FFFFF)) (unit16 .off false)).unit 16).st = .starting ∧
    (after (.ruSpareDesignate (kw 0x0001FFFF)) (chip5.modUnit 0 (fun x => { x with faulted := true }))).unitSpare = 16 ∧
    ((after (.ruEnable (kw 0x0021FFFF)) (chip5.modUnit 0 (fun x => { x with st := .off }))).unit 0).st = .starting ∧
    ((after (.ruDisable (kw 0x00200001)) chip5).unit 15).st = .off ∧ ((after (.ruDisable (kw 0x00200001)) chip5).unit 0).st = .on ∧
    ((after (.ruDisable (kw 0x00200000)) { chip5 with rus := [(0, ⟨.on, false, false, none⟩)] }).unit 0).st = .on ∧
    ((after (.ruFaultedClear 16 (kw 0x10)) (unit16 .off true)).unit 16).faulted = false ∧
    ((after (.ruSelfTestDone 16 true) (unit16 .starting false)).unit 16).st = .on ∧
    ((after (.ruSelfTestDone 16 false) (unit16 .starting false)).unit 16) = ⟨.off, false, true, none⟩ ∧
    combining.unitTakes 16 0 0 = true ∧ drains.holds.isSome = true ∧ drains.st = .draining ∧
    (((after (.ruEnable (kw 0x003FFFFF)) draining).unit 1).st, ((after (.ruEnable (kw 0x003FFFFF)) draining).unit 1).enPend) = (.draining, true) ∧
    ((after (.ruCombine 1 0 0 false) draining).unit 1).st = .off ∧ draining.unitTakes 16 0 0 = false ∧
    ((after (.ruCombine 16 0 0 true) combining).unit 16) = ⟨.off, false, true, none⟩ ∧
    ((after (.ruCombine 16 0 0 false) combining).group 0).inst.map (fun c => c.waits.length) = some 0 ∧
    (after (.ruInjArm (kw 0x80)) chip5).reg 0x188 = 0x80 ∧ (after (.pktInjArm (kw 1)) chip5).reg 0x218 = 1 := by
  refine ⟨made ?_, ?_⟩ <;> decide +kernel

/-- PRBS7 repeats after 127 bits and no sooner (R346); a frame begins with its marker and a field bit of 1 goes as +3, −3
(R338); an LMW's bits follow its marker two a UI, bit 0 first (R347). -/
theorem test_patterns : (prbs 7 0x60 127 0x7F).2 = 0x7F ∧ (List.range 126).all (fun n => (prbs 7 0x60 (n + 1) 0x7F).2 != 0x7F) = true ∧
    (trainSymbols 1 0 0x1FFF).take 36 = marker ++ [3, 0, 0, 3] ∧ (lmwSymbols 0x1E 0x7FFFFFFF).take 35 = marker ++ [1, 2, 3] := by
  decide +kernel

/-! ## Faults -/

/-- A raise of code 0x55, instance 3, at class `cls` waits, and its source is `src`. -/
def raising (cls : Nat) (src : Source) (code : Nat := 0x55) : State :=
  let s := { linked 11 .active with now := 2 ^ 40, flt := { chip5.flt with waiting := [⟨code, 3, cls, false, 4, 0x5B, 0, 0, 100⟩] } }
  s.setSource code 3 src
/-- State of that source after the raise is taken, and of port 11. -/
def took (cls : Nat) (st : SrcSt) (recov : List Nat := []) : SrcSt × LinkSt :=
  let t := after .faultTaken (raising cls ⟨st, 15, 0, 0, recov⟩)
  ((t.source 0x55 3).st, (t.link 11).st)

theorem witness_FaultTaken :
    took 0 .clear = (.clear, .active) ∧ took 1 .clear = (.recovering, .active) ∧
    took 1 .clear (List.replicate 8 90) = (.awaitAck, .fenced) ∧ took 2 .clear = (.awaitAck, .fenced) ∧
    took 1 .recovering = (.awaitAck, .fenced) ∧ took 1 .awaitAck = (.awaitAck, .active) ∧ took 2 .awaitAck = (.fatal, .fenced) ∧
    took 3 .clear = (.fatal, .fenced) ∧ (after .faultTaken (raising 3 Source.reset)).mc.mode = .diag ∧
    ((after .faultTaken (raising 1 ⟨.clear, 15, 0, 0, []⟩)).source 0x55 3).raises = 0 ∧
    (after .faultTaken (raising 0 Source.reset)).reg (0x2400 + 8 * 0x55) = 8 ∧ (after .faultTaken (raising 0 Source.reset)).reg (0x2200 + 4 * 0x55) = 1 ∧
    (raising 1 Source.reset).capturing = true ∧ (after .faultTaken (raising 1 Source.reset)).flt.recs = 1 ∧
    ((after .faultTaken ((raising 1 Source.reset 0x50).setReg 0x2004 0x1000)).source 0x50 3).st = .clear ∧
    (let s := raising 1 Source.reset
     (after .faultTaken { s with flt := { s.flt with recs := 64 } }).flt.lost) = 1 := by decide +kernel

/-- The source of code 0x7F, instance 63, in state `st` with RAISES 5. -/
def sourced (st : SrcSt) : State := { chip5 with now := 2 ^ 30 }.setSource 0x7F 63 ⟨st, 5, 0, 1000, []⟩
/-- The acknowledgement of that source with RAISES `n`. -/
def ackW (n : Nat) : RgAcc := kw (0x7F + 63 * 2 ^ 8 + n * 2 ^ 14 + 2 ^ 31)

theorem witness_Acks : WriteMade (sourced .awaitAck) 0x2008 (ackW 5) true ∧ RgAcc.bit (ackW 5) 31 = true ∧
    ((after (.quietExpire 0x7F 63) (sourced .recovering)).source 0x7F 63).st = .clear ∧
    ((after (.fltAck (ackW 5)) (sourced .awaitAck)).source 0x7F 63).st = .clear ∧
    ((after (.fltAck (ackW 4)) (sourced .awaitAck)).source 0x7F 63).st = .awaitAck ∧
    ((after (.fltAck (ackW 4)) (sourced .awaitAck)).reg 0x2000).toNat.testBit 5 = true ∧
    ((after (.fltAck (ackW 5)) ((sourced .awaitAck).setSource 1 0 ⟨.fatal, 0, 0, 0, []⟩)).source 0x7F 63).st = .awaitAck := by
  refine ⟨made ?_, ?_⟩ <;> decide +kernel

/-- Code, instance and class of the raises that wait. -/
def raised (s : State) : List (Nat × Nat × Nat) := s.flt.waiting.map (fun r => (r.code, r.inst, r.cls))

theorem witness_Checkers : WriteMade chip5 0x2020 (kw 0x8011) true ∧ WriteMade chip5 0x2004 (kw 0x400) true ∧
    raised (after (.railInvalidTimeout 1) chip5) = [(1, 0, 2)] ∧ raised (after (.farrierProbe false) chip5) = [(2, 0, 3)] ∧
    raised (after (.farrierProbe true) chip5) = [] ∧ raised (after (.scrub (.correctable (64 * 0x10) 0)) chip5) = [(0x10, 0, 0)] ∧
    raised (after (.scrub (.uncorrectable (64 * 0x05) 0)) chip5) = [(0x05, 0, 3)] ∧
    (after .recovExpire { chip5.setReg 0x2004 0x1000 with now := 2 ^ 40 }).reg 0x2004 = 0 ∧
    (after .faultStaticToggle { chip5 with now := 512 }).pwr.faultStatic = true ∧
    (after (.crecClr (kw 0x80)) (after .faultTaken (raising 1 Source.reset))).flt.recs = 0 ∧
    (after (.fltInjArm (kw 0x8011)) chip5).flt.armed = some (0x11, 0, false) ∧
    (after (.fltInjArm (kw 0x8055)) chip5).flt.armed = none ∧ ((after (.fltInjArm (kw 0x8055)) chip5).reg 0x2020).toNat.testBit 17 = true ∧
    ((after (.fltInjArm (kw 0x8002)) chip5).reg 0x2020).toNat.testBit 16 = true ∧
    (after (.fltInjDisarm (kw 0)) (after (.fltInjArm (kw 0x8011)) chip5)).flt.armed = none ∧
    (after (.startDone (kw 0x400)) chip5).flt.capStart = false := by
  refine ⟨made ?_, made ?_, ?_⟩ <;> decide +kernel

/-! ## Monitors, halts, aborts -/

/-- Long after port 11 last made progress, with a flit in its replay buffer and a packet that waits for a credit of port 0. -/
def hanging : State :=
  { (linked 0 .active (linked 11 .active)) with now := 2 ^ 40, inj := [{ passing 6 with port := 15 }] }.modLink 11 (fun l => { l with replay := [⟨0, 1, 0, 1, 0⟩] })
    |>.modLink 0 (fun l => { l with cred := List.replicate 6 0 })
/-- A halt in state `st` since the start. -/
def halting (st : HaltSt) : State := { chip5 with now := 2 ^ 40, halt := ⟨st, 7, 3, [], [], 0, false⟩ }

theorem witness_Monitors : WriteMade chip5 0x3100 (kw 0x1FFFF) true ∧ WriteMade chip5 0x3120 (kw 5) true ∧
    ((after (.portHang 11) hanging).link 11).cause = 1 ∧ (hanging.vcWait 0 1) = some 0 ∧
    ((after (.vcHang 0 1) hanging).link 0).st = .fenced ∧ ((after (.vcHang 0 1) hanging).reg 0x3004) = 0x1000 ∧
    (after (.hportHang 20) (({ chip5 with ev := ⟨[0], []⟩, now := 2 ^ 40 } : State).modMon 148 (fun _ => ⟨true, 0, false⟩))).reg 0x3008 = 0x100000 ∧
    (({ chip5 with ev := ⟨[0], []⟩ } : State).watchHost.mon 148) = ⟨true, chip5.now, false⟩ ∧
    ((after (.channelHang 0) { chan0 [word 1] with now := 2 ^ 60 }).chan 0).hang = true ∧
    (after .haltTimeout (halting .halting)).halt.said = true ∧ (after .halted (halting .halting)).halt.st = .halted ∧
    (after (.haltGo (kw 0x1FFFF)) chip5).halt.id = 0xFFFF ∧ ((after (.haltGo (kw 0x1FFFF)) (halting .halted)).reg 0x3100).toNat.testBit 18 = true ∧
    (after (.haltRelease (kw 0x20000)) (halting .halted)).halt.st = .run ∧
    ((after (.haltRelease (kw 0x20000)) chip5).reg 0x3100).toNat.testBit 18 = true ∧
    (after (.snapSelect (kw 5)) chip5).reg 0x3120 = 5 := by
  refine ⟨made ?_, made ?_, ?_⟩ <;> decide +kernel

/-- An accepted abort to generation 1 waits; the last step was at `n`. -/
def stepping (n : Nat) : State :=
  { chip5 with now := nsTicks 1000000, abort := ⟨false, [⟨1, 0, 5, 0, false, false⟩], [(8, 1, 0)], some n⟩, eject := [heldOf pSig] }

/-- Generation, steps that wait and the skew hold after GEN 5 is written under that hold; the last step was at `last`. -/
def written (steps : List PendStep) (last : Option Nat) : Nat × List PendStep × Bool :=
  let t := after (.genWrite (kw 0x50007)) { chip5 with now := 2, abort := ⟨true, steps, [], last⟩ }
  (t.ident.gen.toNat, t.abort.steps, t.abort.skewHold)

theorem witness_Aborts : WriteMade chip5 0x3010 (kw 1) true ∧ WriteMade chip5 0x108 (kw 0x50008) true ∧ WriteMade chip5 0x124 (kw 1) true ∧
    (after (.abortGo (kw 1)) chip5).abort.steps = [⟨1, 0, 5, 0, false, false⟩] ∧ (after (.abortGo (kw 1)) (stepping 0)).abort = (stepping 0).abort ∧
    (after .generationStep (stepping 0)).ident.gen = 1 ∧ (after .generationStep (stepping 0)).eject = [] ∧ (stepping 1).stepDue = false ∧
    (after (.genWrite (kw 0x50008)) chip5).ident.gen = 0 ∧ (after (.genWrite (kw 0x50008)) chip5).ident.pkey = 7 ∧
    (after (.genWrite (kw 0x50007)) chip5).ident.gen = 5 ∧ (after (.genWrite (kw 0x5FFFF)) chip5).ident.gen = 5 ∧
    written [] none = (5, [], false) ∧ written [] (some 1) = (0, [⟨5, 0, 0, 0, false, true⟩], false) ∧
    written [⟨1, 0, 5, 0, false, false⟩] none = (0, [⟨1, 0, 5, 0, false, false⟩, ⟨5, 0, 0, 0, false, true⟩], false) ∧
    (after (.genWrite (kw 0x50008)) { chip5 with pfence := true }).ident.pkey = 8 ∧
    (after (.genWrite (kw 0x5FFFF)) { chip5 with pfence := true }).ident.pkey = 7 ∧
    (after (.abortPairExpire 8 1) (stepping 0)).abort.pairs = [] ∧
    (after (.pfenceSet (kw 1)) chip5).pfence = true ∧ (after (.pfenceSet (hw 0x124 1)) chip5).pfence = false ∧
    (after (.pfenceLift (kw 0)) { chip5 with pfence := true }).pfence = false := by
  refine ⟨made ?_, made ?_, made ?_, ?_⟩ <;> decide +kernel

/-! ## The farrier -/

/-- A command `cmd` of partition `key` with argument `arg` in front of the farrier, which acts. -/
def farring (cmd : Nat) (arg : Nat := 0) (key : Nat := 7) (act : Bool := true) : State :=
  { linked 11 .fenced with
    now := 2 ^ 40
    far := ⟨act, false, [], 0, 0, [⟨BitVec.ofNat 128 (cmd + put 9 8 8 + put key 16 16 + put arg 32 32), none⟩], 0, true⟩ }
/-- The first word of the answer, and the command last performed. -/
def told (c : Instr) (s : State) : Word × Byte := ((after c s).reg 0x3060, (after c s).far.lastCmd)

theorem witness_Farrier : WriteMade (farring 1) 0x3044 (kw 1) true ∧ (farring 1).farReady = true ∧
    (after .mcWdogExpire { chip5 with now := 2 ^ 40 }).far.acting = true ∧
    (after .mcWdogExpire { chip5 with now := 2 ^ 40 }).abort.steps = [⟨1, 2, 5, 0, false, false⟩] ∧
    (after .mcWatchdogWrite { chip5 with now := 9 }).mc.wdogAt = 9 ∧
    (let s := farring 1
     ((after .farrierOpenPorts { s with far := { s.far with openDone := false } }).link 11).st) = .training ∧
    (after (.farrierTakeback (kw 1)) (farring 1)).far.acting = false ∧
    told .farrierBadCmd (farring 0) = (0x901, 0) ∧ told .farrierBadCmd (farring 10) = (0x901, 0) ∧
    told .farrierStatus (farring 1 0 8) = (0x902, 0) ∧ told .farrierStatus (farring 1 0 7 false) = (0x900, 1) ∧
    told .farrierAbort (farring 3 0 7 false) = (0x903, 0) ∧ told .farrierPeek (farring 2 0xF000) = (0x903, 2) ∧
    ((after .farrierPeek (farring 2 0)).reg 0x3064) = 0x7E13D320 ∧
    (after .farrierAbort (farring 3)).abort.steps = [⟨1, 3, 5, 0, false, false⟩] ∧
    ((after .farrierFence (farring 4 0x800)).link 11).st = .fenced ∧ ((after .farrierOpen (farring 5 0x800)).link 11).st = .training ∧
    told .farrierResetMc (farring 6) = (0x900, 6) ∧ (after .farrierWarmReset (farring 7)).pwr.phase = .warmWait ∧
    (after .farrierHalt (farring 8 3)).halt.id = 3 ∧ (after .farrierRelease (farring 9)).halt.st = .run := by
  refine ⟨made ?_, ?_⟩ <;> decide +kernel

/-- Raises of one moment wait by code and instance, behind those of earlier ones (R407). -/
theorem test_raise_order : (insertRaise ⟨7, 2, 1, false, 0, 0, 0, 0, 5⟩ [⟨9, 0, 1, false, 0, 0, 0, 0, 4⟩, ⟨7, 1, 1, false, 0, 0, 0, 0, 5⟩,
    ⟨7, 3, 1, false, 0, 0, 0, 0, 5⟩]).map (fun r => (r.code, r.inst)) = [(9, 0), (7, 1), (7, 2), (7, 3)] := by decide

/-! ## The mailbox and the core -/

/-- A request of command `cmd`, tag 1, with its arguments, and the block that holds it in mode `m`. -/
def req (cmd : Nat) (args : List Nat) : MbReq :=
  ⟨BitVec.ofNat 32 (cmd + 2 ^ 8 + put args.length 16 6) :: args.map (BitVec.ofNat 32), 0, false⟩
def asked (m : McMode) (cmd : Nat) (args : List Nat := []) (s : State := chip5) : State :=
  { s with mc := { s.mc with mode := m, mb := { s.mc.mb with busy := some (req cmd args) } } }
/-- Whether the request that stands waits as `MbWaits` asks. -/
def waits (s : State) : Bool :=
  s.alive && decide (s.flt.armed = none) &&
    (match s.mc.mb.busy with | some r => !r.started && decide (mbRefusal s.mc.mode s.expert r.words = none) | none => false)
/-- The status and the words of the mailbox's answer; 99 while none has come. -/
def answer (c : Instr) (s : State) : Nat × List Word :=
  let t := after c s
  (if t.mc.mb.done then t.mc.mb.status.toNat else 99, (t.mc.mb.rsp.drop 1).take (fld (t.mc.mb.rsp.headD 0).toNat 16 6))
/-- Under expert control until 100. -/
def opened : State := { chip5 with mc := { chip5.mc with openUntil := some 100 } }

theorem witness_MbWaits : MbWaits (asked .basic 1) (req 1 []) := by
  refine ⟨?_, ?_, ?_, ?_, ?_⟩ <;> decide +kernel

/-- Bytes of a number given by its base 2^384 digits, lowest first. -/
def bytesOf (n : Nat) (l : List Nat) : List Byte := leBytes n (l.foldr (fun d a => d + 2 ^ 384 * a) 0)
/-- A key (97 bytes), 3 zeros and its signature of nonce 2, this chip and a duration of 3600 s; made for this test. -/
def tokenBytes : List Byte := bytesOf 196
  [0x0B6E0ABE019C02C88CAAB1F78DC44761DDDB59F66D6D3F26AAB8912901F9AD8B04A2102C4D1826FA6AAA87E4AC533204,
   0xE149F34E7369354ACFA5818EE6712B3016A123E86CFE92B3EBBFADBCFF3400B4E886C6F1E7E71989D3AAA7EBB0C13C68,
   0x5B416BD5BB1963DBCEDAC5E9CAC8675F251C199ED38E5091073EDBD3F7EDA2B460EB2D3A3653F6B301D812250000000D,
   0x5B416BD5BB1963DBCEDAC5E9CAC8675F251C199ED38E5091073EDBD3F7EDA2B460EB2D3A3653F6B301D8122516EAB763,
   0x16EAB763]
/-- An image without records, serial 1 for any chip, with its key and signature; made for this test. -/
def imageBytes : List Byte := bytesOf 260
  [0x00000000000000000000000000000000000000000000000000000000000000010000000080000000000000013D32C0F6,
   0x021D60DE156E67B55FC970E6374B00295AFAC79A842A618004EAF470A0BD4F0400000000000000000000000000000000,
   0x5FD065F1AA485F2F481E76E80D37B36BA0001DE21AACE6568FF1241B79A97432D36E30EC6680C77900CDF84C6F14B2FB,
   0xB5A23D58F6699A8406DEC728A3DA65861CF102DDBC8AFA9FFDCDC2E0000000E06058F32257369C39D44F6307FFF8C979,
   0xB5A23D58F6699A8406DEC728A3DA65861CF102DDBC8AFA9FFDCDC2E0452DB683328622973F406D7EFD6D82B58B082E18,
   0x452DB683328622973F406D7EFD6D82B58B082E18]
/-- The block fused for the key of the token, or of the image, with the nonce and the image in place. -/
def tokened : State :=
  { chip5 with
    pwr := { chip5.pwr with owner := some 0x3D2C2FF08D895F3806617D6DAEFCD12A1C57F895B69928F35E0BB99D1A71CB3D6A935F406304F5EB42A6B0DC25084184 }
    mc := { chip5.mc with nonce := some (2, 0) } }
def imaged : State :=
  { wired with
    pwr := { chip5.pwr with owner := some 0x2C60FE70B1137C3F9A4B1E91C77D09FB5CD6961F6F5E4A11C8F40E3580138C431BB4E7C7CFF1B8FABF3FBC67072D6C06 }
    mc := { chip5.mc with
      imgLen := some 260, imgParts := [(0, 240), (240, 20)]
      ram := (imageBytes.zipIdx.filter (fun e => e.1 ≠ 0)).map (fun e => (stageBase + e.2, e.1)) } }
/-- The words of the token. -/
def tokenWs : List Nat := 3600 :: (payWords tokenBytes).map (·.toNat)

theorem witness_Mailbox :
    [(0x01, []), (0x02, []), (0x03, tokenWs), (0x50, [0]), (0x70, [0, 1]), (0x72, [])].all (fun e => waits (asked .basic e.1 e.2)) = true ∧
    [(0x04, []), (0x50, [1, 5, 0]), (0x71, [0x3000, 5])].all (fun e => waits (asked .basic e.1 e.2 opened)) = true ∧
    waits (asked .full 0x60 [9, 1]) = true ∧
    (answer .mbInfo (asked .basic 1)).2.take 2 = [0x7E13D320, 0x00043FFF] ∧
    (answer .mbNonce (asked .basic 2)).1 = 0 ∧
    answer .mbExpertOff (asked .basic 4 [] opened) = (0, []) ∧ (answer .mbTimeRead (asked .basic 0x50 [0])).1 = 0 ∧
    (answer .mbTimeRead (asked .basic 0x50 [2])).1 = 2 ∧
    (answer .mbTimeSet (asked .basic 0x50 [1, 5, 0])).1 = 3 ∧
    (after .mbTimeSet (asked .basic 0x50 [1, 5, 0] (opened.setReg 0xF048 2))).tod = 5 * 3125 ∧
    (after .mbRemote (asked .full 0x60 [9, 1])).mc.outst.map (·.dst) = [9] ∧ (answer .mbRemote (asked .full 0x60 [2 ^ 18, 1])).1 = 2 ∧
    answer .mbPeek (asked .basic 0x70 [0x10000, 1]) = (0, [0]) ∧ (answer .mbPeek (asked .basic 0x70 [2, 1])).1 = 2 ∧
    (after .mbPoke (asked .basic 0x71 [0x3000, 5] opened)).reg 0x3000 = 5 ∧ (answer .mbPoke (asked .basic 0x71 [0xF000, 5] opened)).1 = 2 ∧
    (answer .mbDiag (asked .diag 0x72)).1 = 0 ∧
    (answer .mbBadCmd (asked .basic 0x7F)).1 = 1 ∧ (answer .mbBadCmd (asked .basic 0x24)).1 = 1 ∧ (answer .mbBadCmd (asked .diag 0x24)).1 = 0xA ∧
    (answer .mbTimeout { asked .basic 1 with now := nsTicks 1000000 }).1 = 6 ∧ (answer .mbTimeout { asked .basic 1 with now := nsTicks 1000000 - 1 }).1 = 99 := by
  decide +kernel

theorem witness_ExpertOn : (answer .mbExpertOn (asked .basic 3 tokenWs tokened)).1 = 0 ∧
    (after .mbExpertOn (asked .basic 3 tokenWs tokened)).mc.openUntil = some (3600 * 156250000) ∧
    (answer .mbExpertOn (asked .basic 3 tokenWs chip5)).1 = 8 ∧ (answer .mbExpertOn (asked .basic 3 [3601] tokened)).1 = 2 := by
  decide +kernel

/-- A block that holds `bs` at `off` of its SRAM. -/
def holdsRam (s : State) (off : Nat) (bs : List Byte) : State :=
  { s with mc := { s.mc with ram := (bs.zipIdx.filter (fun e => e.1 ≠ 0)).map (fun e => (off + e.2, e.1)) } }
/-- A firmware image with one word of code, signed by a key made for this test. -/
def fwBytes : List Byte := bytesOf 264
  [0x40000000000000000000000023D320F17,
   0x1AABEF56CC207D720AB92DF2EC8C8836043A1DBC857C268736DA3B040000001300000000000000000000000000000000,
   0x79C218BD72D647007189E77DE597B6598FE1BB1567C504E8FDF951C8AF5987BC327BF36ECAB7F7D2F6343308D9D032F0,
   0x9B8D3FA0D7E0C333ECF4AE4D9C0CE3B8CECC7603CF4DA0D800000029F697695C2C4BF8464853530649D199FCD0C2D958,
   0x9B8D3FA0D7E0C333ECF4AE4D9C0CE3B8CECC7603CF4DA0D88B6A67146D934B6B071A8C238DAC773D71813A3F1CD85ABA,
   0x8B6A67146D934B6B071A8C238DAC773D71813A3F1CD85ABA]
/-- A load of that image, its chunks written. -/
def loaded (parts : List (Nat × Nat)) : State :=
  let s := asked .basic 0x12
  holdsRam { s with mc := { s.mc with fw := .loading, fwLen := 264, fwParts := parts } } 0 fwBytes

/-- The key in mask ROM is a free value of Config: were it the key of this image, the image would pass its checks. -/
theorem witness_fwCheck (h : sha384 (((fwBytes.drop 68).take 97)) = Sys2Proof.Config.romKeyDigest.toNat) :
    (loaded [(0, 240), (240, 24)]).fwCheck fwBytes = none := by
  have e : wordAt fwBytes 12 = 0 ∧ wordAt fwBytes 16 = 4 ∧ wordAt fwBytes 20 = 0 := by decide +kernel
  unfold State.fwCheck
  simp only [e.1, e.2.1, e.2.2]
  rw [if_neg (by decide +kernel), if_neg]
  rintro (a | a | a)
  · revert a; decide +kernel
  · exact a h
  · revert a; decide +kernel

/-- Firmware of one word of code 0x13 at its place, with its digest or another, loaded and in state `f`. -/
def firmware (f : FwSt) (good : Bool) (s : State := chip5) : State :=
  holdsRam { s with now := 2 ^ 40, mc := { s.mc with fc := 4, fw := f, digest := if good then BitVec.ofNat 384 (sha384 [0x13, 0, 0, 0]) else 0 } }
    codeBase [0x13]

theorem witness_Firmware :
    [(0x10, [264]), (0x11, [0, 4, 0x13]), (0x12, []), (0x20, [260]), (0x21, [0, 4, 1]), (0x23, [])].all (fun e => waits (asked .basic e.1 e.2)) = true ∧
    (answer .mbFwBegin (asked .basic 0x10 [259])).1 = 2 ∧ (after .mbFwBegin (asked .basic 0x10 [260])).mc.fw = .loading ∧
    (after .mbFwChunk { asked .basic 0x11 [0, 4, 0x13] with mc := { (loaded []).mc with mb := (asked .basic 0x11 [0, 4, 0x13]).mc.mb } }).mc.fwParts = [(0, 4)] ∧
    (answer .mbFwChunk (asked .basic 0x11 [0, 4, 0x13])).1 = 2 ∧
    (answer .mbFwCommit (loaded [(0, 240)])).1 = 2 ∧ covered (loaded [(0, 240), (240, 24)]).mc.fwParts 264 = true ∧
    (after .mbImgBegin (asked .basic 0x20 [260])).mc.imgLen = some 260 ∧ (answer .mbImgBegin (asked .basic 0x20 [262145])).1 = 2 ∧
    (after .mbImgChunk (asked .basic 0x21 [0, 4, 1] { chip5 with mc := { chip5.mc with imgLen := some 260 } })).mc.imgParts = [(0, 4)] ∧
    (answer .mbImgChunk (asked .basic 0x21 [0, 4, 1])).1 = 2 ∧
    (answer .mbImgDrop (asked .basic 0x23)).1 = 0 ∧ (answer .mbImgDrop (asked .basic 0x23 [] (joined .locked))).1 = 5 ∧
    (firmware .running true).fwRuns = true ∧ (after .fwHeartbeat (firmware .restarting true)).mc.mode = .full ∧
    (after .fwWdogExpire (firmware .running true)).mc.fw = .restarting ∧ (after .fwWdogExpire (firmware .running false)).mc.fw = .none ∧
    (firmware .running true).fwAllowed ⟨0x10000000, false⟩ = false ∧
    (after (.fwAccessViolation ⟨0x10000000, false⟩) (firmware .running true)).mc.restarts = 1 ∧
    (after .expertExpire { opened with now := 100 }).mc.openUntil = none ∧ (after .expertExpire { opened with now := 99 }).mc.openUntil = some 100 ∧
    (after (.kernelCall [0x101]) (firmware .running true)).mc = (firmware .running true).mc := by decide +kernel

/-- The image in place, on a block whose ports are OFF and whose map is open. -/
def openImage : State := { imaged with rg := unsealed.rg }

theorem witness_Images :
    [(McMode.basic, 0x22, [0]), (.full, 0x24, []), (.full, 0x30, [6, 4, 1])].all (fun e => waits (asked e.1 e.2.1 e.2.2)) = true ∧
    (match imaged.image with | .ok m => decide (m.serial = 1 ∧ m.recs = some []) && imaged.imageFits m | .error _ => false) = true ∧
    (after .mbImgApplyStart (asked .basic 0x22 [0] openImage)).mc.serial = some 1 ∧
    (answer .mbImgApplyStart (asked .basic 0x22 [0] imaged)).1 = 4 ∧ (answer .mbImgApplyStart (asked .basic 0x22 [0])).1 = 2 ∧
    (answer .mbImgApplyStart (asked .basic 0x22 [3])).1 = 2 ∧
    (answer .mbImgApplyStart (asked .basic 0x22 [0] { openImage with pwr := chip5.pwr })).1 = 8 ∧
    (after .mbImgApplyStageLocal (asked .basic 0x22 [1] imaged)).tbl.phase = .staged ∧
    (answer .mbImgApplyStageLocal (asked .basic 0x22 [1] { imaged with tbl := { imaged.tbl with phase := .staged } })).1 = 5 ∧
    (after .mbImgApplyStageDomain (asked .full 0x22 [2] imaged)).mc.lead = some ⟨.apply 1, .mailbox, 0⟩ ∧
    wired.ownKids 5 7 ≠ [] ∧ (after .mbTableSwap (asked .full 0x24 [] wired)).mc.lead = some ⟨.swap, .mailbox, 0⟩ ∧
    (answer .mbTableSwap (asked .full 0x24 [] (joined .none))).1 = 5 ∧
    (answer .mbTakeover (asked .full 0x30 [6, 6, 1])).1 = 2 ∧ (answer .mbTakeover (asked .full 0x30 [6, 9000, 1] wired)).1 = 9 ∧
    (answer .mbTakeover (asked .full 0x30 [6, 4, 1] wired)).1 = 9 ∧
    (after .mbTakeover (asked .full 0x30 [6, 4, 1] (linked 11 .active))).mc.lead = some ⟨.takeover 6 4 true, .mailbox, 0⟩ := by decide +kernel

/-- An acknowledgement word for the source of `sourced`. -/
def ackN (n : Nat) : Nat := 0x7F + 63 * 2 ^ 8 + n * 2 ^ 14 + 2 ^ 31

theorem witness_MailboxActs :
    [(0x32, [0xFFFF]), (0x34, [ackN 5]), (0x35, [0, 11, 1]), (0x36, [0x800]), (0x37, [])].all
      (fun e => waits (asked .basic e.1 e.2)) = true ∧ waits (asked .basic 0x31) = true ∧ waits (asked .basic 0x33) = true ∧
    waits (asked .full 0x40 [0x500107, 0x7F00]) = true ∧
    answer .mbAbort (asked .basic 0x31) = (0, [1]) ∧ (after .mbAbort (asked .basic 0x31)).abort.steps = [⟨1, 0, 5, 0, false, false⟩] ∧
    (after .mbHalt (asked .basic 0x32 [0xFFFF])).halt.id = 0xFFFF ∧ (answer .mbHalt (asked .basic 0x32 [0x10000])).1 = 2 ∧
    (after .mbRelease (asked .basic 0x33 [] (halting .halted))).halt.st = .run ∧
    ((after .mbFltAck (asked .basic 0x34 [ackN 5] (sourced .awaitAck))).source 0x7F 63).st = .clear ∧
    (answer .mbFltAck (asked .basic 0x34 [5])).1 = 2 ∧
    ((after .mbEnable (asked .basic 0x35 [0, 11, 1] wired)).link 11).st = .training ∧
    ((after .mbEnable (asked .basic 0x35 [1, 127, 1] (towed .off 0))).tow 127).st = .starting ∧
    ((after .mbEnable (asked .basic 0x35 [2, 15, 0])).unit 15).st = .off ∧ (answer .mbEnable (asked .basic 0x35 [0, 0, 2])).1 = 2 ∧
    ((after .mbFence (asked .basic 0x36 [0x800] (linked 11 .active))).link 11).st = .fenced ∧
    (after .mbFence (asked .basic 0x36 [0, 1])).pfence = true ∧ (answer .mbFence (asked .basic 0x36 [0x1000])).1 = 2 ∧
    (after .mbStartDone (asked .basic 0x37)).flt.capStart = false ∧
    (after .mbI2c (asked .full 0x40 [0x500107, 0x7F00] (i2c7 1 false))).i2cBusy 7 = some ⟨1, 0x50, 0, 128, some .mailbox⟩ ∧
    (answer .mbI2c (asked .full 0x40 [0x500107, 0x7F00] (i2c7 0 false))).1 = 0 ∧
    (answer .mbI2c (asked .full 0x40 [0x500307, 0] (i2c7 1 false))).1 = 2 := by decide +kernel

/-! ## Fragments, records, registers and observation -/

/-- Channel 0 with `w` in execution and its fragments still to issue, window 0 over its own memory. -/
def issuing (w : CmdWord) : State :=
  let s := { windowed 0xF0F with chans := (chan0 [word 1 (5 * 2 ^ 46) (5 * 2 ^ 46) 64]).chans }
  (after (.put 0) s).modChan 0 (fun x => { x with flights := x.flights.map (fun f => { f with word := w, cursor := some ⟨0, 0, 0, false⟩ }) })
/-- OPCODE and DST of what enters the injection point, and slots held, after FRAGMENT_ISSUE. -/
def issued (s : State) : List (Nat × Nat) × Nat :=
  let t := after (.fragmentIssue 0) s
  (t.inj.map (fun h => (h.pkt.opcode, h.pkt.dst)), (t.chan 0).slots.length)
/-- A PUT whose source bytes have been read. -/
def readAhead : State :=
  let f : Frag := ⟨0, 0, 64, 0, false⟩
  (issuing (word 1 (5 * 2 ^ 46) (5 * 2 ^ 46) 64)).modChan 0 (fun x => { x with
    flights := x.flights.map (fun g => { g with cursor := none, ahead := some ⟨f, ⟨0, 0, 0, false⟩, 0, some (List.replicate 64 1, 0)⟩ }) })

theorem witness_Fragments : (issuing sigW).mayForm = true ∧ (issuing sigW).turn 0 = true ∧ (issuing sigW).canLeave 5 1 0x07 0 = true ∧
    (List.range 4).all (fun p => decide (((issuing sigW).raPort p).heldAcc = [])) = true ∧ readAhead.mayOriginate = true ∧
    (issuing sigW).room 0 0 false = true ∧
    issued (issuing (word 4 (5 * 2 ^ 46) 1 0 0x101)) = ([(6, 5)], 1) ∧ issued (issuing (word 7 5 1)) = ([(7, 5)], 1) ∧
    issued (issuing (word 0xC 1 (5 * 2 ^ 46))) = ([(2, 5)], 1) ∧
    (issuing getW).wayOf getW = .fetch ∧ (issuing (word 3 (9 * 2 ^ 46) (8 * 2 ^ 46) 64)).wayOf (word 3 (9 * 2 ^ 46) (8 * 2 ^ 46) 64) = .relay ∧
    (after (.fragmentIssue 0) (issuing (word 1 (5 * 2 ^ 46) (5 * 2 ^ 46) 64))).eng.reads.map (·.use) = [.frag 0 0] ∧
    issued readAhead = ([(1, 5)], 1) := by decide +kernel

/-- Channel 0 owing one record to a ring of 64 at offset 0, under window 0 when `w`. -/
def owing (w : Bool) : State :=
  let s := { windowed (if w then 0xF0F else 0xF0B) with chans := (chan0 []).chans }
  (s.setReg 0x4018 6).modChan 0 (fun c => { c with prod := 65, cons := 2, owed := [⟨0, 0, true, false, false, 0, 0, 0⟩] })

theorem witness_Records : (owing true).recordReady 0 = true ∧
    (after (.completionRecordWrite 0) (owing true)).eng.writes.map (·.keys) = [[1]] ∧
    ((after (.completionRecordWrite 0) (owing false)).chan 0).prod = 66 := by decide +kernel

/-- In F3. -/
def dead : State := chip5.setSource 1 0 ⟨.fatal, 0, 0, 0, []⟩

theorem witness_Registers : WriteMade chip5 0x3000 (kw 5) true ∧ dead.inF3 = true ∧
    (after (.registerWrite 0x3000 { hw 0x3000 5 with par := !(hw 0x3000 5).par }) chip5).out = [.rgAnswer 0 1] ∧
    (after (.registerWrite 0x3000 { hw 0x3000 5 with par := !(hw 0x3000 5).par }) chip5).reg 0xF08 ≠ 0 ∧
    (after (.registerWrite 0x3000 (hw 0x3000 5)) (after .rstNFall chip5)).out = [.rgAnswer 0 2] ∧
    (after (.registerWrite 0x3000 (kw 0xFF400005)) chip5).reg 0x3000 = 5 ∧
    (after (.registerWrite 0x140 (kw 7)) chip5).reg 0x140 = 7 ∧
    (after (.registerWrite 0x3000 (hw 0x3000 5)) dead).reg 0x3000 = 0x3E8 ∧
    (after (.latchedRead (0x10000 + 8 * 8191) (rgParity false (0x10000 + 8 * 8191) 0)) (chip5.setTallyRaw 8191 0x123456789ABC)).out = [.rgAnswer 0x56789ABC 0] ∧
    (after (.latchedRead (0x10004 + 8 * 8191) (rgParity false (0x10004 + 8 * 8191) 0))
      (after (.latchedRead (0x10000 + 8 * 8191) (rgParity false (0x10000 + 8 * 8191) 0)) (chip5.setTallyRaw 8191 0x123456789ABC))).out = [.rgAnswer 0x1234 0] ∧
    (after (.ccntLatch 63 true (rgParity false (0x31020 + 0x40 * 63) 0)) (chip5.modCnt 63 (fun x => { x with snap := { x.snap with seq := 5 } }))).out
      = [.rgAnswer 5 0] := by
  refine ⟨made ?_, ?_⟩ <;> decide +kernel

/-- Logbook 3 in state `st` with `n` records, a ring of 64 granules, in FLIGHT mode when `fl`. -/
def logged (st : Life) (n : Nat) (fl : Bool := false) (f : Log → Log := id) : State :=
  let s := { chip5 with now := 2 ^ 40 }.setReg (logReg 3 0) (if fl then 3 else 1)
  s.modLog 3 (fun l => f { l with st := st, recs := (List.range n).map (fun i => ⟨BitVec.ofNat 64 i, 0, 0, 0⟩) })
/-- State and records held of logbook 3 after a command. -/
def log3 (c : Instr) (s : State) : Life × Nat :=
  let l := (after c s).log 3
  (l.st, l.recs.length)

theorem witness_Logbooks : WriteMade (logged .off 0) (logReg 3 0) (kw 1) true ∧ WriteMade chip5 0x32200 (kw 7) true ∧
    log3 (.logEnable 3 (kw 1)) (logged .off 2) = (.starting, 0) ∧ ((after (.logEnable 3 (kw 1)) (logged .draining 2)).log 3).enPend = true ∧
    log3 (.logDisable 3 (kw 2)) (logged .on 2 true) = (.off, 2) ∧ log3 (.logDisable 3 (kw 0)) (logged .on 2) = (.draining, 2) ∧
    log3 (.logDisable 3 (kw 0)) (logged .on 0) = (.off, 0) ∧ log3 (.logDisable 3 (kw 0)) (logged .on 2 false (fun l => { l with stopped := true })) = (.off, 0) ∧
    log3 (.logFlush 3 (kw 5)) (logged .on 1) = (.on, 0) ∧ log3 (.logStarted 3) (logged .starting 0) = (.on, 0) ∧
    log3 (.logDrainWrite 3) (logged .on 3) = (.on, 1) ∧ (after (.logDrainWrite 3) (logged .on 3)).lbOut = [3] ∧
    (logged .on 2).logCan 3 2 = true ∧ log3 (.logPadTimeout 3) (logged .on 1) = (.on, 0) ∧
    log3 (.logDrainTimeout 3) (logged .draining 2 false (fun l => { l with prod := 64 })) = (.off, 0) ∧
    (after (.logDrainTimeout 3) (logged .draining 2 false (fun l => { l with prod := 64 }))).reg (logReg 3 0x24) = 2 ∧
    ((after (.lbWriteResponse 0) { logged .on 0 with lbOut := [3] }).log 3).prod = 1 ∧
    log3 (.lbWriteResponse 0) { logged .draining 0 false (fun l => { l with sent := [2] }) with lbOut := [3] } = (.off, 0) ∧
    ((after (.lbWriteResponse 1) { logged .on 0 with lbOut := [3] }).log 3).stopped = true ∧
    ((after (.logwinSelect (kw 7)) (logged .on 2)).reg 0x32220) = 1 ∧
    (after .cmapInterval ({ chip5 with cmap := [(0, ⟨1, 0, 0, 0, 0, 0⟩)] }.setReg 0x32040 1)).cmap = [] := by
  refine ⟨made ?_, made ?_, ?_⟩ <;> decide +kernel

/-- The block whose snapshot was just opened for restoration. -/
def restoring : State :=
  let t := chip5.lifeSnap
  { t with life := { t.life with rstate := .open_, body := t.life.snap } }

theorem witness_GaitAndLife : WriteMade chip5 0x34000 (kw 1) true ∧
    (after (.gaitInterval 949 1000) chip5).reg 0x32000 = BitVec.ofNat 32 (949 + 1000 * 2 ^ 16) ∧
    (after (.gaitInterval 949 1000) chip5).reg 0x32004 = BitVec.ofNat 32 (949 + 949 * 2 ^ 16) ∧
    (after (.gaitInterval 949 0) chip5).reg 0x32008 = 1 ∧ (after (.gaitInterval 950 0) chip5).reg 0x32008 = 0 ∧
    (after .lifeSecond chip5).lifeWord 8 = 1 ∧ (after (.lifeOpen (kw 2)) (after (.lifeSnap (kw 1)) chip5)).life.body = restoring.life.body ∧
    (after (.lifeOpen (kw 2)) (after (.startDone (kw 0x400)) chip5)).life.rstate = .none := by
  refine ⟨made ?_, ?_⟩ <;> decide +kernel

theorem witness_LifeCommit : (after (.lifeCommit (kw 4)) restoring).life.rstate = .restored ∧
    (after (.lifeCommit (kw 4)) { restoring with life := { restoring.life with crc := 0 } }).life.rstate = .refused ∧
    (after (.lifeCommit (kw 4)) chip5).life.rstate = .none := by decide +kernel

/-! ## Windows, transfers of nothing, invariants and frames -/

theorem witness_Windows : (windowed 0x80010F).windowOf 4095 = some 0 ∧ (windowed 0x80010F).windowOf (2 ^ 20) = none ∧
    (windowed 0x80010F).place 0 255 = (255, 0) ∧ (windowed 0x80010F).place 0 256 = (256, 15) := by decide +kernel

/-- A PUT of own memory with LEN from scalar 7, which holds `n`. -/
def nothing (n : Nat) : State := (chan0 [word 1 (5 * 2 ^ 46) (5 * 2 ^ 46) (15 * 2 ^ 48)]).setScalar 0 7 (BitVec.ofNat 64 n)

theorem witness_Nothing : (nothing 0).goodXfer (word 1 (5 * 2 ^ 46) (5 * 2 ^ 46) (15 * 2 ^ 48)) = true ∧
    ((after (.put 0) (nothing 0)).chan 0).lastStatus = 0 ∧ ((after (.put 0) (nothing 0)).chan 0).flights = [] ∧
    ((after (.put 0) (nothing (2 ^ 40))).chan 0).lastStatus = 8 := by decide +kernel

theorem witness_Identity : State.reset.Identity := by
  unfold State.Identity; decide +kernel

theorem witness_KeyAndTallies : State.reset.KeyAndTallies := by
  refine ⟨?_, ?_⟩ <;> decide +kernel

theorem witness_Frames : exec (.nop 0) (chan0 [word 0]) = .next (after (.nop 0) (chan0 [word 0])) ∧
    exec (.watchDisarm 1 (kw 0)) chip5 = .next (after (.watchDisarm 1 (kw 0)) chip5) ∧
    exec .lifeSecond chip5 = .next (after .lifeSecond chip5) ∧ exec .tapClamp chip5 = .next (after .tapClamp chip5) :=
  ⟨rfl, rfl, rfl, rfl⟩

/-- The digest of "abc" that FIPS 180-4's example gives. -/
theorem test_sha384 : sha384 [0x61, 0x62, 0x63] = 0xcb00753f45a35e8bb5a03d699ac65007272c32ab0eded1631a8b605a43ff5bed8086072ba1e7cc2358baeca134c825a7 := by
  decide +kernel

end Sys2Proof.Tests
end

namespace Sys2Proof.Machine

/-! ## Windows (R32, R34, R35) -/

theorem mem_setBits {n m i : Nat} : i ∈ setBits n m ↔ i < n ∧ m.testBit i = true := by
  rw [setBits, List.mem_filter, List.mem_range]

/-- Where bit `n` is set, the numbers below `n + 1` whose bit is set end with `n`. -/
theorem setBits_succ_of_testBit {n m : Nat} (h : m.testBit n = true) : setBits (n + 1) m = setBits n m ++ [n] := by
  rw [setBits, setBits, List.range_succ, List.filter_append, List.filter_cons_of_pos h, List.filter_nil]

theorem setBits_succ_of_not_testBit {n m : Nat} (h : ¬ m.testBit n = true) : setBits (n + 1) m = setBits n m := by
  rw [setBits, setBits, List.range_succ, List.filter_append, List.filter_cons_of_neg h, List.filter_nil, List.append_nil]

/-- A set bit stands in `setBits` at the place that counts the set bits below it. -/
theorem length_setBits_getElem {n m j : Nat} (h : j < (setBits n m).length) :
    (setBits (setBits n m)[j] m).length = j := by
  induction n with
  | zero => exact absurd h (Nat.not_lt_zero j)
  | succ n ih =>
    by_cases hbit : m.testBit n = true
    · simp only [setBits_succ_of_testBit hbit] at h ⊢
      rw [List.length_append, List.length_singleton] at h
      by_cases hj : j < (setBits n m).length
      · rw [List.getElem_append_left hj]
        exact ih hj
      · have hlast : j = (setBits n m).length := by omega
        subst hlast
        rw [List.getElem_concat_length rfl]
    · simp only [setBits_succ_of_not_testBit hbit] at h ⊢
      exact ih h

/-- Where some bit is set, the element of `setBits` picked modulo its length has as many set bits below it as the
remainder says. -/
theorem setBits_getD_mod {n m : Nat} (h : setBits n m ≠ []) (q : Nat) :
    (setBits n m).getD (q % max 1 (setBits n m).length) 0 ∈ setBits n m ∧
    (setBits ((setBits n m).getD (q % max 1 (setBits n m).length) 0) m).length = q % (setBits n m).length := by
  have hpos : 0 < (setBits n m).length := List.length_pos_iff.mpr h
  have hlt : q % (setBits n m).length < (setBits n m).length := Nat.mod_lt q hpos
  rw [Nat.max_eq_right hpos, ← List.getElem_eq_getD (h := hlt)]
  exact ⟨List.getElem_mem hlt, length_setBits_getElem hlt⟩

/-- A field that is not 0 has a set bit within its width. -/
theorem setBits_fld_ne_nil {x lo w : Nat} (h : fld x lo w ≠ 0) : setBits w (fld x lo w) ≠ [] := by
  obtain ⟨i, hi⟩ := Nat.exists_testBit_of_ne_zero h
  have hw : i < w := by
    refine Nat.lt_of_not_le fun hle => ?_
    have hlt : fld x lo w < 2 ^ i :=
      Nat.lt_of_lt_of_le (Nat.mod_lt _ (Nat.two_pow_pos w)) (Nat.pow_le_pow_right Nat.two_pos hle)
    rw [Nat.testBit_lt_two_pow hlt] at hi
    exact Bool.false_ne_true hi
  exact List.ne_nil_of_mem (mem_setBits.mpr ⟨hw, hi⟩)

/-- `lowest` answers the lowest number below `n` of the property that its test decides. -/
theorem lowest_eq_some_iff {n k : Nat} {p : Nat → Bool} {P : Nat → Prop} (hp : ∀ j, p j = true ↔ P j) :
    lowest n p = some k ↔ k < n ∧ P k ∧ ∀ j, j < k → ¬ P j := by
  simp only [lowest, List.find?_range_eq_some, List.mem_range, Bool.not_eq_true', ← Bool.not_eq_true, hp]
  exact and_left_comm

theorem lowest_eq_none_iff {n : Nat} {p : Nat → Bool} {P : Nat → Prop} (hp : ∀ j, p j = true ↔ P j) :
    lowest n p = none ↔ ∀ j, j < n → ¬ P j := by
  simp only [lowest, List.find?_eq_none, List.mem_range, hp]

/-- Window `k` is enabled and holds the page of offset `o` (R32). -/
def State.HoldsPage (s : State) (o k : Nat) : Prop :=
  (s.window k).2.2.2.testBit 0 = true ∧ (s.window k).1 ≤ o / 4096 * 4096 ∧
    o / 4096 * 4096 < (s.window k).1 + 2 ^ (s.window k).2.1

/-- The window that decides is the lowest one that is enabled and holds the page (R34). -/
theorem State.windowOf_eq_some_iff (s : State) (o k : Nat) :
    s.windowOf o = some k ↔ k < 16 ∧ s.HoldsPage o k ∧ ∀ j, j < k → ¬ s.HoldsPage o j :=
  lowest_eq_some_iff (fun j => by
    simp only [State.HoldsPage, Bool.and_eq_true, decide_eq_true_eq, and_assoc])

theorem State.windowOf_eq_none_iff (s : State) (o : Nat) :
    s.windowOf o = none ↔ ∀ j, j < 16 → ¬ s.HoldsPage o j :=
  lowest_eq_none_iff (fun j => by
    simp only [State.HoldsPage, Bool.and_eq_true, decide_eq_true_eq, and_assoc])

/-- The port an access takes is the set bit of HM_MASK below which as many are set as granules lie between BASE and the
offset, counted modulo the ports (R35). -/
theorem State.place_port (s : State) (k o : Nat) (h : fld (s.window k).2.2.2 8 16 ≠ 0) :
    (s.place k o).2 ∈ setBits 16 (fld (s.window k).2.2.2 8 16) ∧
    (setBits (s.place k o).2 (fld (s.window k).2.2.2 8 16)).length =
      (o - (s.window k).1) / 2 ^ (8 + fld (s.window k).2.2.2 4 4) % (setBits 16 (fld (s.window k).2.2.2 8 16)).length :=
  setBits_getD_mod (setBits_fld_ne_nil h) _

/-- Settles O52: the lowest enabled window that holds the page decides, and its mask's set bits, counted in order, name the
port. -/
theorem windowsPlaceAccesses : Obligations.WindowsPlaceAccesses := by
  unfold Obligations.WindowsPlaceAccesses
  intro s o k
  refine ⟨s.windowOf_eq_some_iff o k, s.windowOf_eq_none_iff o, fun hmask _ => ?_⟩
  obtain ⟨hmem, hcount⟩ := s.place_port k o hmask
  exact ⟨rfl, (mem_setBits.mp hmem).2, hcount⟩

end Sys2Proof.Machine

namespace Sys2Proof.Machine

/-! ## What the shared operations of a channel leave (R53, R64, R89 to R93) -/

@[simp] theorem State.chan_modChan (s : State) (k : Nat) (f : Chan → Chan) : (s.modChan k f).chan k = f (s.chan k) :=
  SMap.get_set_same _ _ _ _

@[simp] theorem State.chan_cntStart (s : State) (k seq iter j : Nat) : (s.cntStart k seq iter).chan j = s.chan j := rfl

theorem Told.chan {s t : State} (h : Told s t) (k : Nat) : t.chan k = s.chan k := (congrArg (State.chan · k) h :)

/-- `t` is `s` but for the channels, their command counters, the event queue, the logbooks and the stored registers. -/
def Booked (s t : State) : Prop :=
  t = { s with chans := t.chans, ccnt := t.ccnt, ev := t.ev, logs := t.logs, rg := t.rg }

theorem Booked.refl (s : State) : Booked s s := rfl
theorem Booked.trans {s t u : State} (h : Booked s t) (k : Booked t u) : Booked s u := by
  unfold Booked at *
  rw [k, h]

theorem Told.booked {s t : State} (h : Told s t) : Booked s t := by
  unfold Told at h
  unfold Booked
  rw [h]

theorem State.modChan_booked (s : State) (k : Nat) (f : Chan → Chan) : Booked s (s.modChan k f) := rfl
theorem State.cntStart_booked (s : State) (k seq iter : Nat) : Booked s (s.cntStart k seq iter) := rfl
theorem State.cntStop_booked (s : State) (k : Nat) : Booked s (s.cntStop k) := rfl

theorem Booked.out {s t : State} (h : Booked s t) : t.out = s.out := (congrArg State.out h :)
theorem Booked.flt {s t : State} (h : Booked s t) : t.flt = s.flt := (congrArg State.flt h :)
theorem Booked.tally {s t : State} (h : Booked s t) : t.tally = s.tally := (congrArg State.tally h :)
theorem Booked.eng {s t : State} (h : Booked s t) : t.eng = s.eng := (congrArg State.eng h :)
theorem Booked.hm {s t : State} (h : Booked s t) : t.hm = s.hm := (congrArg State.hm h :)
theorem Booked.inj {s t : State} (h : Booked s t) : t.inj = s.inj := (congrArg State.inj h :)
theorem Booked.scalar {s t : State} (h : Booked s t) (k i : Nat) : t.scalar k i = s.scalar k i :=
  (congrArg (State.scalar · k i) h :)

/-- Recording the start or the end of a command of channel `k` writes no more than an event does (R498). -/
theorem State.cmdRecords_told (s : State) (k kind tag q2 q3 : Nat) :
    Told s ([0, 1, 2, 3].foldl (fun t n =>
      if (t.log n).chmask.toNat.testBit k ∧ (t.reg (0x32104 + 0x40 * n)).toNat.testBit 1 then
        let (u, hi) := t.logAdd n kind k tag q2 q3
        if hi then u.emit (u.evLogHigh n).toNat else u
      else t) s) := by
  refine foldl_keeps Told.refl Told.trans _ (fun t n => ?_) _ s
  have h := t.logAdd_told n kind k tag q2 q3
  dsimp only
  split
  · split
    · exact h.trans (State.emit_told _ _ _)
    · exact h
  · exact Told.refl t

/-- `t` is `s` after some of what channel `k` owes was made or lost: no more of the channel changes than that, and
LAST_STATUS only in DRAINING (R89, R93). -/
structure Paid (k : Nat) (s t : State) : Prop where
  booked : Booked s t
  chan : t.chan k = { s.chan k with
    owed := (t.chan k).owed, cancels := (t.chan k).cancels, lastStatus := (t.chan k).lastStatus }
  lastStatus : (s.chan k).st ≠ .draining → (t.chan k).lastStatus = (s.chan k).lastStatus

theorem Paid.refl (k : Nat) (s : State) : Paid k s s := ⟨Booked.refl s, rfl, fun _ => rfl⟩

theorem Paid.st {k : Nat} {s t : State} (h : Paid k s t) : (t.chan k).st = (s.chan k).st := (congrArg Chan.st h.chan :)

theorem Paid.trans {k : Nat} {s t u : State} (h : Paid k s t) (h' : Paid k t u) : Paid k s u where
  booked := h.booked.trans h'.booked
  chan := by rw [h'.chan, h.chan]
  lastStatus hne := (h'.lastStatus (h.st ▸ hne)).trans (h.lastStatus hne)

theorem Told.paid {s t : State} (h : Told s t) (k : Nat) : Paid k s t where
  booked := h.booked
  chan := by rw [h.chan k]
  lastStatus _ := by rw [h.chan k]

theorem State.settleOwedN_paid (n k : Nat) (s : State) : Paid k s (State.settleOwedN n k s) := by
  induction n generalizing s with
  | zero => exact Paid.refl k s
  | succ n ih =>
    unfold State.settleOwedN
    dsimp only
    split
    · exact Paid.refl k s
    · next o rest _ =>
      have hpop : Paid k s (s.modChan k (fun c => { c with owed := rest })) :=
        ⟨s.modChan_booked k _, by rw [s.chan_modChan], fun _ => by rw [s.chan_modChan]⟩
      split
      · exact Paid.refl k s
      · split
        · next hlost =>
          obtain ⟨-, -, hdrain, -⟩ := hlost
          have hlose := s.chan_modChan k (fun c =>
            { c with owed := { o with cr := false, status := 0x0D } :: rest, cancels := satInc c.cancels, lastStatus := 0x0D })
          exact Paid.trans ⟨s.modChan_booked k _, by rw [hlose], fun hlive => absurd hdrain hlive⟩ (ih _)
        · split
          · exact Paid.refl k s
          · split
            · exact (hpop.trans ((State.emit_told _ _ _).paid k)).trans (ih _)
            · exact hpop.trans (ih _)

theorem State.settleOwed_paid (s : State) (k : Nat) : Paid k s (s.settleOwed k) := s.settleOwedN_paid _ k

/-- How a channel stands stopped after a command that ended with a status of this kind: a stop is made in ON alone, and
one that RESUME does not end stays (R91, R92). -/
def Chan.stopAfter (c : Chan) : StopKind → StopKind
  | .no => c.stop
  | kind => if c.st = .on ∧ c.stop ≠ .always then kind else c.stop

theorem Chan.stopAfter_of_on {c : Chan} {kind : StopKind} (hon : c.st = .on) (h : kind ≠ .no) :
    c.stopAfter kind = if c.stop = .always then .always else kind := by
  cases kind with
  | no => exact absurd rfl h
  | soe | always => by_cases hc : c.stop = .always <;> simp [Chan.stopAfter, hon, hc]

theorem Chan.stopAfter_of_not_on {c : Chan} {kind : StopKind} (hoff : c.st ≠ .on) : c.stopAfter kind = c.stop := by
  cases kind <;> simp [Chan.stopAfter, hoff]

/-- `t` is `s` after the command `w` of channel `k`, of start order `ord`, completed with `status` (R64, R89 to R93). -/
structure Completed (k ord : Nat) (w : CmdWord) (status : Nat) (s t : State) : Prop where
  booked : Booked s t
  chan : t.chan k = { s.chan k with
    flights := (s.chan k).flights.filter (fun g => decide (g.ord ≠ ord))
    stop := (s.chan k).stopAfter (stopOf status (wantsSoe w))
    progress := s.now
    owed := (t.chan k).owed, cancels := (t.chan k).cancels, lastStatus := (t.chan k).lastStatus }
  lastStatus : (s.chan k).st ≠ .draining → (t.chan k).lastStatus = BitVec.ofNat 8 status

section
variable {k ord : Nat} {w : CmdWord} {status : Nat} {s t : State}

theorem Completed.st (h : Completed k ord w status s t) : (t.chan k).st = (s.chan k).st := (congrArg Chan.st h.chan :)

theorem Completed.flights (h : Completed k ord w status s t) :
    (t.chan k).flights = (s.chan k).flights.filter (fun g => decide (g.ord ≠ ord)) := (congrArg Chan.flights h.chan :)

theorem Completed.stop (h : Completed k ord w status s t) :
    (t.chan k).stop = (s.chan k).stopAfter (stopOf status (wantsSoe w)) := (congrArg Chan.stop h.chan :)

theorem Completed.nextSeq (h : Completed k ord w status s t) : (t.chan k).nextSeq = (s.chan k).nextSeq :=
  (congrArg Chan.nextSeq h.chan :)

/-- What the channel still owes may be made after the command has completed. -/
theorem Completed.paid {u : State} (h : Completed k ord w status s t) (p : Paid k t u) : Completed k ord w status s u where
  booked := h.booked.trans p.booked
  chan := by rw [p.chan, h.chan]
  lastStatus hne := (p.lastStatus (h.st ▸ hne)).trans (h.lastStatus hne)

end

theorem State.stopChan_booked (s : State) (k : Nat) (kind : StopKind) (seq status : Nat) :
    Booked s (s.stopChan k kind seq status) :=
  (s.modChan_booked k _).trans (s.stopChan_told k kind seq status).booked

theorem State.chan_stopChan (s : State) (k : Nat) (kind : StopKind) (seq status : Nat) :
    (s.stopChan k kind seq status).chan k
      = { s.chan k with stop := if (s.chan k).stop = .always then .always else kind } :=
  ((s.stopChan_told k kind seq status).chan k).trans (s.chan_modChan k _)

/-- What a status of a kind that stops makes of channel `k`. -/
theorem State.stopChan_ite (s : State) (k seq status : Nat) {kind : StopKind} (h : kind ≠ .no) :
    Booked s (if (s.chan k).st = .on then s.stopChan k kind seq status else s) ∧
    (if (s.chan k).st = .on then s.stopChan k kind seq status else s).chan k
      = { s.chan k with stop := (s.chan k).stopAfter kind } := by
  split
  · next hon =>
    refine ⟨s.stopChan_booked k kind seq status, ?_⟩
    rw [s.chan_stopChan, Chan.stopAfter_of_on hon h]
  · next hoff => exact ⟨Booked.refl s, by rw [Chan.stopAfter_of_not_on hoff]⟩

theorem State.complete_completed (s : State) (k : Nat) (f : Flight) (status : Nat) :
    Completed k f.ord f.word status s (s.complete k f status) := by
  unfold State.complete
  dsimp only
  refine Completed.paid ?_ (State.settleOwed_paid _ k)
  generalize hs1 : s.modChan k _ = s1
  generalize hs2 : List.foldl _ s1 [0, 1, 2, 3] = s2
  have hlog : Told s1 s2 := by rw [← hs2]; exact s1.cmdRecords_told k _ _ _ _
  have hb : Booked s s2 := (hs1 ▸ s.modChan_booked k _ : Booked s s1).trans hlog.booked
  have hc : s2.chan k = { s.chan k with
      flights := (s.chan k).flights.filter (fun g => decide (g.ord ≠ f.ord))
      lastStatus := BitVec.ofNat 8 status, progress := s.now, owed := (s2.chan k).owed } := by
    rw [hlog.chan k, ← hs1, s.chan_modChan]
  have hstop (kind : StopKind) : (s2.chan k).stopAfter kind = (s.chan k).stopAfter kind := by rw [hc]; rfl
  cases hkind : stopOf status (wantsSoe f.word) with
  | no =>
    refine ⟨hb, ?_, fun _ => by rw [hc]⟩
    rw [hc, hkind]
    rfl
  | soe | always =>
    obtain ⟨hb', hc'⟩ := s2.stopChan_ite k (seqOf f.word) status (kind := stopOf status (wantsSoe f.word)) (by simp [hkind])
    rw [hkind] at hb' hc'
    refine ⟨hb.trans hb', ?_, fun _ => ?_⟩
    · dsimp only
      rw [hc', hstop, hc, hkind]
    · dsimp only
      rw [hc', hc]

/-! ## Settling and starting -/

/-- A channel that is not DRAINING and has nothing in execution settles by what it owes. -/
theorem State.settle_paid (s : State) (k : Nat) (hf : (s.chan k).flights = []) (hst : (s.chan k).st ≠ .draining) :
    Paid k s (s.settle k) := by
  have h : s.settle k = s.settleOwed k := by simp [State.settle, State.settleN, hf, hst]
  rw [h]
  exact s.settleOwed_paid k

/-- A channel starts a word only in ON and not stopped (R61, R92). -/
theorem State.startable_on {s : State} {k : Nat} {w : CmdWord} (h : s.startable k = some w) :
    (s.chan k).st = .on ∧ (s.chan k).stop = .no := by
  have hready : s.ready k = some w := by
    unfold State.startable at h
    split at h
    · cases h
    · next w' hr =>
      split at h
      · cases h
      · rwa [Option.some.inj h] at hr
  unfold State.ready at hready
  dsimp only at hready
  split at hready
  · cases hready
  · split at hready
    · next hok =>
      simp only [Bool.and_eq_true, decide_eq_true_eq, and_assoc] at hok
      obtain ⟨-, hon, hgo, -⟩ := hok
      exact ⟨hon, hgo⟩
    · cases hready

theorem State.takeInj_unarmed {s : State} (h : s.flt.armed = none) (code inst : Nat) : s.takeInj code inst = (false, s) := by
  simp [State.takeInj, h]

theorem State.takeEcc_unarmed {s : State} (h : s.flt.armed = none) (code inst cls atype master : Nat) :
    s.takeEcc code inst cls atype master = (false, s) := by
  simp [State.takeEcc, State.takeInj_unarmed h]

theorem State.wordEcc_unarmed {s : State} (h : s.flt.armed = none) (k : Nat) (w : CmdWord) : s.wordEcc k w = (false, s) := by
  simp [State.wordEcc, State.takeEcc_unarmed h]

theorem Chan.takeWord_eq (c : Chan) :
    c.takeWord = { c with queue := c.takeWord.queue, loopBuf := c.takeWord.loopBuf, pos := c.takeWord.pos } := by
  unfold Chan.takeWord
  repeat' split
  all_goals rfl

/-- Beginning a word writes its channel and what records its start (R53, R495, R498). -/
theorem State.begin_booked (s : State) (k : Nat) (w : CmdWord) : Booked s (s.begin k w).1 :=
  ((s.modChan_booked k _).trans (State.cntStart_booked _ k _ _)).trans (State.cmdRecords_told _ k _ _ _ _).booked

theorem State.chan_begin (s : State) (k : Nat) (w : CmdWord) :
    (s.begin k w).1.chan k = { (s.chan k).takeWord with
      execSeq := BitVec.ofNat 16 (seqOf w), nextOrd := (s.chan k).nextOrd + 1
      flights := (s.chan k).flights ++ [s.newFlight k w], progress := s.now } :=
  (((State.cmdRecords_told _ k _ _ _ _).chan k).trans (State.chan_cntStart _ k _ _ k)).trans (s.chan_modChan k _)

theorem State.begin_flight (s : State) (k : Nat) (w : CmdWord) : (s.begin k w).2 = s.newFlight k w := rfl

/-- A good word that can start, and that its row leaves with nothing in execution on its channel, leaves what the row made
but for what the channel owes (R61, R64). -/
theorem State.startCmd_paid {s : State} {k : Nat} {w : CmdWord} {good : CmdWord → Bool} {body : State → Flight → State}
    (h : Starts s k w) (hgood : good w = true)
    (hf : ((body (s.begin k w).1 (s.newFlight k w)).chan k).flights = [])
    (hst : ((body (s.begin k w).1 (s.newFlight k w)).chan k).st ≠ .draining) :
    Paid k (body (s.begin k w).1 (s.newFlight k w)) (s.startCmd k good body) := by
  obtain ⟨-, hstart, harm, hlong⟩ := h
  have hrun : s.startCmd k good body = ((body (s.begin k w).1 (s.newFlight k w)).cntStop k).settle k := by
    simp [State.startCmd, hstart, hlong, State.takeEcc_unarmed harm, State.wordEcc_unarmed harm, State.begin_flight, hgood,
      State.flightOf, hf]
  rw [hrun]
  have p := State.settle_paid (State.cntStop _ k) k hf hst
  exact ⟨(State.cntStop_booked _ k).trans p.booked, p.chan, p.lastStatus⟩

/-- A word that starts alone and that its row completes at once: its status stands, the channel is stopped as the status
says, and nothing but the books of the command changes. -/
theorem State.startCmd_completed {s : State} {k status : Nat} {w : CmdWord} {good : CmdWord → Bool}
    {body : State → Flight → State} (h : StartsAlone s k w) (hgood : good w = true)
    (hbody : Completed k (s.newFlight k w).ord w status (s.begin k w).1 (body (s.begin k w).1 (s.newFlight k w))) :
    Booked s (s.startCmd k good body) ∧ ((s.startCmd k good body).chan k).flights = []
      ∧ ((s.startCmd k good body).chan k).lastStatus = BitVec.ofNat 8 status
      ∧ ((s.startCmd k good body).chan k).stop = stopOf status (wantsSoe w) := by
  obtain ⟨hstarts, hnone⟩ := h
  have ⟨_, hstart, _, _⟩ := hstarts
  obtain ⟨hon, hgo⟩ := State.startable_on hstart
  have hc := s.chan_begin k w
  have hst : ((s.begin k w).1.chan k).st = .on := by rw [hc, Chan.takeWord_eq]; exact hon
  have hstop : ((s.begin k w).1.chan k).stop = .no := by rw [hc, Chan.takeWord_eq]; exact hgo
  have hflights : ((s.begin k w).1.chan k).flights = [s.newFlight k w] := by rw [hc, hnone]; rfl
  have hlive : ((s.begin k w).1.chan k).st ≠ .draining := by simp [hst]
  have hp := State.startCmd_paid hstarts hgood (by rw [hbody.flights, hflights]; simp) (hbody.st ▸ hlive)
  have he := hbody.paid hp
  refine ⟨(s.begin_booked k w).trans he.booked, ?_, he.lastStatus hlive, ?_⟩
  · rw [he.flights, hflights]; simp
  · rw [he.stop]
    cases hkind : stopOf status (wantsSoe w) with
    | no => exact hstop
    | soe | always => rw [Chan.stopAfter_of_on hst (by simp), hstop]; rfl

/-- A row of one opcode whose word can start answers what starting it makes. -/
theorem chanCmd_next {s : State} {k : Nat} {w : CmdWord} {row : CmdWord → Bool} (good : State → CmdWord → Bool)
    (body : State → Flight → State) (h : Starts s k w) (hrow : row w = true) :
    chanCmd k row good body s = .next { ({ s with out := [] } : State).startCmd k
      (fun w => goodQ0 w && good { s with out := [] } w) (fun t f => body t f) with pending := s.pending } := by
  obtain ⟨halive, hstart, -, -⟩ := h
  exact run_ok halive (by simp [State.heads, hstart, hrow]) _

/-! ## Transfers of nothing (R66) -/

/-- The length of a transfer, given directly or by a scalar (R66). -/
def State.xferLen (s : State) (k : Nat) (w : CmdWord) : Nat :=
  if (cq w 3).testBit 48 then (s.scalar k (cf w 3 49 3)).toNat else cf w 3 0 40

theorem State.startXfer_of_len_zero (s : State) (k : Nat) (f : Flight) (h : s.xferLen k f.word = 0) :
    Completed k f.ord f.word 0 s (s.startXfer k f) := by
  unfold State.xferLen at h
  unfold State.startXfer
  dsimp only
  rw [h, if_neg (by decide), if_pos rfl]
  exact s.complete_completed k _ 0

theorem State.startXfer_of_len_big (s : State) (k : Nat) (f : Flight) (h : 2 ^ 40 ≤ s.xferLen k f.word) :
    Completed k f.ord f.word 8 s (s.startXfer k f) := by
  unfold State.xferLen at h
  unfold State.startXfer
  dsimp only
  rw [if_pos h]
  exact s.complete_completed k f 8

theorem State.goodQ0_of_goodXfer {s : State} {w : CmdWord} (h : s.goodXfer w = true) : goodQ0 w = true := by
  simp only [State.goodXfer, Bool.and_eq_true, and_assoc] at h
  exact h.1

theorem Booked.xferLen {s t : State} (h : Booked s t) (k : Nat) (w : CmdWord) : t.xferLen k w = s.xferLen k w := by
  unfold State.xferLen
  rw [h.scalar]

/-- `t` is `s` after a transfer of no bytes, or of too many, ended at its start: it moved nothing and changed no tally. -/
def EndedAtStart (s : State) (k len : Nat) (t : State) : Prop :=
  let still := (t.chan k).flights = [] ∧ t.tally = s.tally ∧ t.eng = s.eng ∧ t.hm = s.hm ∧ t.inj = s.inj
  (len = 0 → (t.chan k).lastStatus = 0 ∧ still)
    ∧ (2 ^ 40 ≤ len → (t.chan k).lastStatus = 0x08 ∧ (t.chan k).stop = .always ∧ still)

theorem State.startCmd_startXfer {s : State} {k : Nat} {w : CmdWord} {good : CmdWord → Bool} (h : StartsAlone s k w)
    (hgood : good w = true) : EndedAtStart s k (s.xferLen k w) (s.startCmd k good (fun t f => t.startXfer k f)) := by
  have hlen := (s.begin_booked k w).xferLen k w
  refine ⟨fun hzero => ?_, fun hbig => ?_⟩
  · obtain ⟨hb, hf, hs, -⟩ := State.startCmd_completed (body := fun t f => t.startXfer k f) h hgood
      (State.startXfer_of_len_zero _ k (s.newFlight k w) (hlen.trans hzero))
    exact ⟨hs, hf, hb.tally, hb.eng, hb.hm, hb.inj⟩
  · obtain ⟨hb, hf, hs, hstop⟩ := State.startCmd_completed (body := fun t f => t.startXfer k f) h hgood
      (State.startXfer_of_len_big _ k (s.newFlight k w) (Nat.le_trans hbig (Nat.le_of_eq hlen.symm)))
    exact ⟨hs, hstop, hf, hb.tally, hb.eng, hb.hm, hb.inj⟩

theorem chanCmd_startXfer {s : State} {k : Nat} {w : CmdWord} {row : CmdWord → Bool} (h : StartsAlone s k w)
    (hgood : s.goodXfer w = true) (hrow : row w = true) :
    ∃ t, chanCmd k row (fun s w => s.goodXfer w) (fun t f => t.startXfer k f) s = .next t
      ∧ EndedAtStart s k (s.xferLen k w) t := by
  have hstart : StartsAlone { s with out := [] } k w := h
  have hgood' : (goodQ0 w && State.goodXfer { s with out := [] } w) = true :=
    Bool.and_eq_true_iff.mpr ⟨State.goodQ0_of_goodXfer hgood, hgood⟩
  exact ⟨_, chanCmd_next _ _ h.1 hrow, State.startCmd_startXfer hstart hgood'⟩

/-- Settles O53: a transfer without bytes, or with too many, is completed by its start, and a completion books alone. -/
theorem transfersOfNothingComplete : Obligations.TransfersOfNothingComplete := by
  unfold Obligations.TransfersOfNothingComplete
  intro s k w h hgood
  exact ⟨fun hop => chanCmd_startXfer h hgood (decide_eq_true hop), fun hop => chanCmd_startXfer h hgood (decide_eq_true hop),
    fun hop => chanCmd_startXfer h hgood (decide_eq_true hop)⟩

/-! ## Words on CP (R46, R47, R287) -/

/-- `t` is `s` after words of channel `k` were discarded: the books of the channel alone changed, and not NEXT_SEQ. -/
structure Discarded (k : Nat) (s t : State) : Prop where
  booked : Booked s t
  nextSeq : (t.chan k).nextSeq = (s.chan k).nextSeq

theorem Discarded.refl (k : Nat) (s : State) : Discarded k s s := ⟨Booked.refl s, rfl⟩
theorem Discarded.trans {k : Nat} {s t u : State} (h : Discarded k s t) (h' : Discarded k t u) : Discarded k s u :=
  ⟨h.booked.trans h'.booked, h'.nextSeq.trans h.nextSeq⟩

theorem State.modChan_discarded {s : State} {k : Nat} {f : Chan → Chan} (h : (f (s.chan k)).nextSeq = (s.chan k).nextSeq) :
    Discarded k s (s.modChan k f) := ⟨s.modChan_booked k f, by rw [s.chan_modChan, h]⟩

theorem Chan.nextSeq_takeWord (c : Chan) : c.takeWord.nextSeq = c.nextSeq := by rw [Chan.takeWord_eq]

theorem Chan.nextSeq_popLoop (c : Chan) : c.popLoop.nextSeq = c.nextSeq := by
  unfold Chan.popLoop
  split <;> rfl

theorem State.loopLong_discarded (s : State) (k : Nat) : Discarded k s (s.loopLong k) := by
  unfold State.loopLong
  exact (State.modChan_discarded (by rfl)).trans ⟨State.stopChan_booked _ _ _ _ _, by rw [State.chan_stopChan]⟩

theorem State.branchDone_discarded (s : State) (k status : Nat) : Discarded k s (s.branchDone k status) := by
  have hskip : Discarded k s (s.modChan k (fun c => { c with skip := none })) := State.modChan_discarded (by rfl)
  unfold State.branchDone
  dsimp only
  split
  · next f _ =>
    have hc := State.complete_completed (s.modChan k (fun c => { c with skip := none })) k f status
    exact hskip.trans ⟨hc.booked.trans (State.cntStop_booked _ k), hc.nextSeq⟩
  · exact hskip

theorem State.runSkip_discarded (n k : Nat) (s : State) : Discarded k s (State.runSkip n k s) := by
  induction n generalizing s with
  | zero => exact Discarded.refl k s
  | succ n ih =>
    unfold State.runSkip
    dsimp only
    split
    · next sk w _ _ =>
      have hclear (t : State) : Discarded k t (t.modChan k (fun c => { c with skip := none })) :=
        State.modChan_discarded (by rfl)
      have htook (skip : Skip) : Discarded k s
          (s.modChan k (fun c => { c.takeWord with skip := some skip, progress := s.now })) :=
        State.modChan_discarded (Chan.nextSeq_takeWord _)
      generalize (if opOf w = opRepeat then _ else _ : Nat) = depth
      split
      · exact (hclear s).trans (State.loopLong_discarded _ k)
      · split
        · split
          · exact (htook _).trans (hclear _)
          · exact (htook _).trans (ih _)
        · split
          · exact s.branchDone_discarded k _
          · split
            · exact (htook _).trans (State.branchDone_discarded _ k _)
            · exact ((htook _).trans (State.modChan_discarded (by rfl))).trans (ih _)
        · split
          · exact ((htook _).trans (State.modChan_discarded (Chan.nextSeq_popLoop _))).trans (State.branchDone_discarded _ k _)
          · exact (htook _).trans (ih _)
    · exact Discarded.refl k s

theorem State.discardWords_discarded (s : State) (k : Nat) : Discarded k s (s.discardWords k) := s.runSkip_discarded _ k

/-- Without a skip in progress nothing is discarded. -/
theorem State.discardWords_of_no_skip {s : State} {k : Nat} (h : (s.chan k).skip = none) : s.discardWords k = s := by
  unfold State.discardWords State.runSkip
  simp only [h]

/-- In `t` a detection of `(code, inst)` has joined those that waited in `s`, unless two of its source waited there
already (R405, R406). -/
def Raised (s : State) (code inst cls : Nat) (t : State) : Prop :=
  if 2 ≤ (s.flt.waiting.filter (fun x => x.code = code ∧ x.inst = inst)).length then t.flt = s.flt
  else ∃ r, t.flt = { s.flt with waiting := insertRaise r s.flt.waiting } ∧ r.code = code ∧ r.inst = inst ∧ r.cls = cls

theorem State.raise_raised (s : State) (code inst cls atype master addr detail : Nat) (inj : Bool) {t : State}
    (h : t.flt = (s.raise code inst cls atype master addr detail inj).flt) : Raised s code inst cls t := by
  unfold State.raise State.raiseX at h
  unfold Raised
  split
  · next hfull => rw [h, if_pos hfull]
  · next hroom =>
    rw [if_neg hroom] at h
    exact ⟨_, h, rfl, rfl, rfl⟩

/-- The CRC of a word offered on CP is good (R46). -/
def cpCrcGood (w : CmdWord) (crc : HWord) : Bool := decide (crc16 (leBytes 64 w.toNat) = crc.toNat)

theorem State.cpOffer_unarmed {s : State} (h : s.flt.armed = none) (port : Nat) (w : CmdWord) (crc : HWord) :
    s.cpOffer port w crc = (if s.cpCheck port w (cpCrcGood w crc) = 0 then (s.enqueue (cf w 0 8 6) w).discardWords (cf w 0 8 6)
      else s.cpFault port (cf w 0 8 6) (s.cpCheck port w (cpCrcGood w crc)) false).drive
        (.cpStatus port (s.cpCheck port w (cpCrcGood w crc))) := by
  unfold State.cpOffer
  rw [State.takeInj_unarmed h]
  dsimp only
  rw [Bool.not_false, Bool.and_true, Bool.and_false]
  rfl

theorem State.cpFault_frame (s : State) (port k status : Nat) (inj : Bool) :
    (s.cpFault port k status inj).out = s.out ∧ (s.cpFault port k status inj).chans = s.chans := by
  unfold State.cpFault
  split <;> simp

/-- A word that fails a check is answered with its status and not taken; what the status raises is all that changes. -/
theorem State.cpOffer_refused {s : State} (harm : s.flt.armed = none) (hout : s.out = []) {port st : Nat} {w : CmdWord}
    {crc : HWord} (hst : s.cpCheck port w (cpCrcGood w crc) = st) (h0 : st ≠ 0) :
    ((s.cpOffer port w crc).out = [.cpStatus port st] ∧ (s.cpOffer port w crc).chans = s.chans)
    ∧ (s.cpOffer port w crc).flt = (s.cpFault port (cf w 0 8 6) st false).flt := by
  obtain ⟨ho, hc⟩ := s.cpFault_frame port (cf w 0 8 6) st false
  rw [s.cpOffer_unarmed harm, hst, if_neg h0]
  exact ⟨⟨by rw [State.drive, ho, hout]; rfl, hc⟩, rfl⟩

/-- A word that passes all checks is answered ACCEPTED and enqueued; NEXT_SEQ moves on. -/
theorem State.cpOffer_accepted {s : State} (harm : s.flt.armed = none) (hout : s.out = []) {port : Nat} {w : CmdWord}
    {crc : HWord} (hst : s.cpCheck port w (cpCrcGood w crc) = 0) :
    (s.cpOffer port w crc).out = [.cpStatus port 0] ∧ (s.cpOffer port w crc).flt = s.flt
      ∧ ((s.cpOffer port w crc).chan (cf w 0 8 6)).nextSeq = (s.chan (cf w 0 8 6)).nextSeq + 1
      ∧ ((s.chan (cf w 0 8 6)).skip = none →
        ((s.cpOffer port w crc).chan (cf w 0 8 6)).queue = (s.chan (cf w 0 8 6)).queue ++ [w]) := by
  generalize hk : cf w 0 8 6 = k
  have henq : (s.enqueue k w).chan k = _ := s.chan_modChan k _
  have hd := (s.enqueue k w).discardWords_discarded k
  rw [s.cpOffer_unarmed harm, hst, if_pos rfl, hk]
  refine ⟨?_, hd.booked.flt, ?_, fun hskip => ?_⟩
  · rw [State.drive, hd.booked.out]
    exact congrArg (· ++ [_]) hout
  · exact hd.nextSeq.trans (by rw [henq])
  · have hskip' : ((s.enqueue k w).chan k).skip = none := by rw [henq]; exact hskip
    rw [State.discardWords_of_no_skip hskip']
    exact congrArg Chan.queue henq

/-- While a lock cycle holds the ports the word is kept, unanswered (R287). -/
theorem execCpWord_locked {s : State} {port : Nat} {w : CmdWord} {crc : HWord} (halive : s.alive = true) (hport : port < 16)
    (hheld : s.cpHeld.any (fun e => decide (e.1 = port)) = false) (hlock : s.lockHold = true) :
    execCpWord port w crc s = .next { s with out := [], cpHeld := s.cpHeld ++ [(port, w, crc)] } := by
  have hlock' : State.lockHold { s with out := [] } = true := hlock
  rw [execCpWord, run_ok halive (by simp [hport, hheld]), if_pos hlock']

theorem execCpWord_unlocked {s : State} {port : Nat} {w : CmdWord} {crc : HWord} (halive : s.alive = true) (hport : port < 16)
    (hheld : s.cpHeld.any (fun e => decide (e.1 = port)) = false) (hlock : s.lockHold = false) :
    execCpWord port w crc s = .next { State.cpOffer { s with out := [] } port w crc with pending := s.pending } := by
  have hlock' : State.lockHold { s with out := [] } = false := hlock
  rw [execCpWord, run_ok halive (by simp [hport, hheld]), hlock', if_neg Bool.false_ne_true]

/-- Settles O9: the first failing condition decides the word's status, and a status that is not ACCEPTED has no effect but
its fault. -/
theorem cpWordIsCheckedInOrder : Obligations.CpWordIsCheckedInOrder := by
  unfold Obligations.CpWordIsCheckedInOrder
  intro s port w crc halive hport harm hheld
  dsimp only
  cases hlock : s.lockHold with
  | true => exact ⟨_, execCpWord_locked halive hport hheld hlock, fun _ => ⟨rfl, rfl, rfl⟩, fun h => absurd h (by decide)⟩
  | false =>
    refine ⟨_, execCpWord_unlocked halive hport hheld hlock, fun h => absurd h (by decide), fun _ => ?_⟩
    have checks {st : Nat} (h : s.cpCheck port w (cpCrcGood w crc) = st) :
        State.cpCheck { s with out := [] } port w (cpCrcGood w crc) = st := h
    have refused {st : Nat} (h : s.cpCheck port w (cpCrcGood w crc) = st) (h0 : st ≠ 0) :=
      State.cpOffer_refused (s := { s with out := [] }) harm rfl (checks h) h0
    refine ⟨fun hcrc => ?_, fun hcrc hshut => ?_, fun hcrc hshut how => ?_, fun hcrc hshut how hst => ?_,
      fun hcrc hshut how hst hseq => ?_, fun hcrc hshut how hst hseq hfull => ?_, fun hcrc hshut how hst hseq hroom => ?_⟩
    · obtain ⟨hno, hflt⟩ := refused (st := 1) (by simp [State.cpCheck, cpCrcGood, hcrc]) (by decide)
      exact ⟨hno, State.raise_raised { s with out := [] } 0x28 port 1 6 0xFF 0 0 false hflt⟩
    · exact refused (st := 2) (by simp [State.cpCheck, cpCrcGood, hcrc, hshut]) (by decide)
    · obtain ⟨hno, hflt⟩ := refused (st := 3) (by simp [State.cpCheck, cpCrcGood, hcrc, hshut, how]) (by decide)
      exact ⟨hno, State.raise_raised { s with out := [] } 0x29 port 2 6 (cf w 0 8 6) 0 0 false hflt⟩
    · exact refused (st := 4) (by simp [State.cpCheck, cpCrcGood, hcrc, hshut, how, hst]) (by decide)
    · obtain ⟨hno, hflt⟩ := refused (st := 5) (by simp [State.cpCheck, cpCrcGood, hcrc, hshut, how, hst, hseq]) (by decide)
      exact ⟨hno, State.raise_raised { s with out := [] } 0x2A port 1 6 (cf w 0 8 6) 0 0 false hflt⟩
    · exact refused (st := 6) (by simp [State.cpCheck, cpCrcGood, hcrc, hshut, how, hst, hseq, hfull]) (by decide)
    · exact State.cpOffer_accepted (s := { s with out := [] }) harm rfl
        (checks (by simp [State.cpCheck, cpCrcGood, hcrc, hshut, how, hst, hseq, hroom]))

end Sys2Proof.Machine

namespace Sys2Proof.Machine

/-! ## A fault count that a flit changes (R315, R323, R403, R409)

The model's state bounds no port number. Fencing a port completes the packets partly received on it with flits marked ABN, on
the ports where they left (R315), and each such flit takes the injection armed at 0x824 + 0x40 × port (R323). For ports 0 to 11
that register lies below 0xB00. For a port numbered 104 it is 0x2224, the DX_FLT_CNT of code 0x09. -/

/-- The first flit of a packet that port 11 still receives. It has left on port 104. -/
def strayHeld : Held where
  pkt := Hd.packet { opcode := 7, vc := 1, dst := 0 } []
  port := 11
  share := 1
  flits := 1
  copied := false
  dir := none
  abn := none
  since := 0
  more := true
  sent := 1
  out := some (104, 1, none)

/-- A raise of code 0x09, instance 0, at class 2. -/
def strayRaise : Raise := ⟨9, 0, 2, false, 0, 0, 0, 0, 0⟩

/-- Ports 11 and 104 are ACTIVE, port 11 with the packet above in its basin, and the raise above waits. -/
def strayState : State :=
  { State.reset with
    links := [(11, { Link.reset with st := .active, basin := [strayHeld] }), (104, { Link.reset with st := .active })]
    flt := { State.reset.flt with waiting := [strayRaise] } }

/-- The collector takes the raise that has waited longest (R407, R408). -/
theorem exec_faultTaken {s : State} {r : Raise} {rest : List Raise} (halive : s.alive = true) (hwait : s.flt.waiting = r :: rest) :
    exec .faultTaken s =
      .next { State.takeRaise { s with out := [], flt := { s.flt with waiting := rest } } r with pending := s.pending } := by
  have harm : exec .faultTaken s = execFaultTaken s := rfl
  rw [harm, execFaultTaken, run_ok halive (by simp [hwait])]
  simp only [hwait]

/-- The state once the collector has taken the raise: the block is in F2. -/
def strayTaken : State :=
  { State.takeRaise { strayState with out := [], flt := { strayState.flt with waiting := [] } } strayRaise with
    pending := strayState.pending }

theorem exec_faultTaken_strayState : exec .faultTaken strayState = .next strayTaken := exec_faultTaken rfl rfl

/-- Counting the raise sets bit 0 of the count; the packet's last flit takes that bit for ARM of port 104, clears it and sets
bit 2, DONE. -/
theorem strayTaken_count : (strayTaken.reg (0x2200 + 4 * strayRaise.code)).toNat = 4 := by decide +kernel

theorem strayState_count : (strayState.reg (0x2200 + 4 * strayRaise.code)).toNat = 0 := by decide +kernel

/-- Refutes O39: where a packet has left on port 104, the entry into F2 makes DX_FLT_CNT of code 0x09 read 4 after its first
raise. The statement speaks of every state, with no hypothesis that packets leave on ports 0 to 11. -/
theorem not_faultsAreTakenByState : ¬ Obligations.FaultsAreTakenByState := by
  unfold Obligations.FaultsAreTakenByState
  rintro ⟨htake, -⟩
  obtain ⟨t, hexec, -, -, -, hcount, -⟩ :=
    htake strayState strayRaise [] (by decide) rfl (by decide) (by decide) (by decide)
  cases exec_faultTaken_strayState.symm.trans hexec
  rw [strayTaken_count, strayState_count] at hcount
  exact absurd hcount (by decide)

end Sys2Proof.Machine

namespace Sys2Proof.Machine

/-! ## The identity registers (R536, R537)

The words at the places of the identity registers are the state's identity words, `State.ids`. Only `rg` holds them, so an
operation that changes another field keeps them, and so does a write of `rg` at 0x34 or above, or one that goes by the field
masks: those registers have no field that a write reaches. One lemma for each operation of the model says that it keeps the
identity words, proved from the operations it calls. The resets are the one exception: they leave `rg` empty but for
registers beyond these, so the words read as out of reset (`idWords []`), which are the words of R538. -/

/-- The words stored at the places of the identity registers. -/
def idWords (rg : SMap Word) : List Word := identityRegs.map (fun e => SMap.get regReset rg e.1)

/-- The identity words of a state. -/
def State.ids (s : State) : List Word := idWords s.rg

/-! The proofs of the next two lemmas stand in parentheses so that `simp` cites them: taken as definitional, they would have
the kernel compare whole states field by field. -/

@[simp] theorem idWords_rg (s : State) : idWords s.rg = s.ids := (rfl)

@[simp] theorem State.ids_mk
    {pending out free now tod ident pfence rg wshadow rshadow chans cpHeld scal tally watch atc eng hm ra
      streams ev inj pseq eject tbl tows reins rrUsed draws counts links flt ccnt logs lbOut groups rus ruGone
      berths teams phys i2c abort halt far mons mc ts life cmap pwr} :
    State.ids ⟨pending, out, free, now, tod, ident, pfence, rg, wshadow, rshadow, chans, cpHeld, scal, tally,
      watch, atc, eng, hm, ra, streams, ev, inj, pseq, eject, tbl, tows, reins, rrUsed, draws, counts, links,
      flt, ccnt, logs, lbOut, groups, rus, ruGone, berths, teams, phys, i2c, abort, halt, far, mons, mc, ts,
      life, cmap, pwr⟩ = idWords rg := (rfl)

/-- A write keeps the identity words if it goes elsewhere, or writes what stands there. -/
theorem idWords_set {rg : SMap Word} {off : Nat} {w : Word}
    (h : ∀ e ∈ identityRegs, e.1 = off → w = SMap.get regReset rg e.1) : idWords (SMap.set regReset rg off w) = idWords rg := by
  refine List.map_congr_left fun e he => ?_
  rw [SMap.get_set]
  split
  · next heq => exact h e he heq
  · rfl

/-- The identity registers stand below offset 0x34. -/
theorem identityRegs_lt : ∀ e ∈ identityRegs, e.1 < 0x34 := by decide

/-- The identity registers have no field that a write reaches (R536, R538). -/
theorem identityRegs_mask :
    ∀ e ∈ identityRegs, (regMask e.1).rw = 0 ∧ (regMask e.1).rwl = 0 ∧ (regMask e.1).w1c = 0 := by
  decide

theorem Word.and_ones (w : Word) : w &&& 0xFFFFFFFF#32 = w := BitVec.and_allOnes

theorem mergeWrite_identity {e : Nat × Word} (he : e ∈ identityRegs) (priv : Bool) (old d : Word) :
    mergeWrite (regMask e.1) priv old d = old := by
  obtain ⟨hrw, hrwl, hw1c⟩ := identityRegs_mask e he
  simp [mergeWrite, hrw, hrwl, hw1c, Word.and_ones]

/-- A read of an identity register answers the stored word. -/
theorem State.Identity_iff (s : State) : s.Identity ↔ s.ids = identityRegs.map Prod.snd := by
  have h : ∀ e ∈ identityRegs, (s.readReg e.1).1 = SMap.get regReset s.rg e.1 := by
    intro e he
    simp only [identityRegs, List.mem_cons, List.not_mem_nil, or_false] at he
    rcases he with rfl | rfl | rfl | rfl | rfl | rfl | rfl <;>
      simp [State.readReg, ccntAt, isWideLo, inArr, State.readWord, State.readLow, State.reg]
  unfold State.Identity State.ids idWords
  rw [List.map_inj_left]
  exact forall₂_congr fun e he => by rw [h e he]

/-! The banks of registers that the operations write lie above the identity registers. -/

@[simp] theorem le_logReg (n off : Nat) : 0x34 ≤ logReg n off := by
  unfold logReg
  omega

@[simp] theorem le_lnkReg (p off : Nat) : 0x34 ≤ lnkReg p off := by
  unfold lnkReg
  omega

@[simp] theorem le_hmReg (p r : Nat) : 0x34 ≤ hmReg p r := by
  unfold hmReg
  omega

@[simp] theorem le_teamReg (t off : Nat) : 0x34 ≤ teamReg t off := by
  unfold teamReg
  omega

@[simp] theorem le_i2cReg (c off : Nat) : 0x34 ≤ i2cReg c off := by
  unfold i2cReg
  omega

/-! The identity words of a choice and of a fold. -/

@[simp] theorem State.ids_ite (c : Prop) [Decidable c] (s t : State) :
    (if c then s else t).ids = if c then s.ids else t.ids := by split <;> rfl

@[simp] theorem State.ids_ite_fst {α : Type} (c : Prop) [Decidable c] (s t : State × α) :
    (if c then s else t).1.ids = if c then s.1.ids else t.1.ids := by split <;> rfl

@[simp] theorem State.ids_ite_snd {α : Type} (c : Prop) [Decidable c] (s t : α × State) :
    (if c then s else t).2.ids = if c then s.2.ids else t.2.ids := by split <;> rfl

@[simp] theorem State.ids_foldl {α : Type} {f : State → α → State} (h : ∀ t x, (f t x).ids = t.ids)
    (l : List α) (s : State) : (l.foldl f s).ids = s.ids :=
  foldl_keeps (R := fun s t : State => t.ids = s.ids) (fun _ => rfl) (fun h k => k.trans h) f h l s

@[simp] theorem State.setReg_ids (s : State) {off : Nat} (w : Word) (h : 0x34 ≤ off) :
    (s.setReg off w).ids = s.ids :=
  idWords_set fun e he heq => absurd (identityRegs_lt e he) (by omega)

/-- Writing consecutive words keeps the identity words. -/
theorem State.setRegs_ids (s : State) {b : Nat} (n : Nat) (f : State → Nat → Word) (h : 0x34 ≤ b) :
    ((List.range n).foldl (fun t i => t.setReg (b + 4 * i) (f t i)) s).ids = s.ids :=
  State.ids_foldl (fun _ _ => State.setReg_ids _ _ (Nat.le_add_right_of_le h)) _ _

@[simp] theorem State.orReg_ids (s : State) {off : Nat} (m : Word) (h : 0x34 ≤ off) :
    (s.orReg off m).ids = s.ids := s.setReg_ids _ h

@[simp] theorem State.clrReg_ids (s : State) {off : Nat} (m : Word) (h : 0x34 ≤ off) :
    (s.clrReg off m).ids = s.ids := s.setReg_ids _ h

@[simp] theorem State.incReg_ids (s : State) {off : Nat} (h : 0x34 ≤ off) :
    (s.incReg off).ids = s.ids := s.setReg_ids _ h

@[simp] theorem State.putField_ids (s : State) {off : Nat} (lo w v : Nat) (h : 0x34 ≤ off) :
    (s.putField off lo w v).ids = s.ids := s.setReg_ids _ h

/-- Out of reset the identity registers read the words of R538. -/
theorem idWords_nil : idWords [] = identityRegs.map Prod.snd := by decide

/-! ### Shared operations -/

@[simp] theorem State.setChan_ids (s : State) (k : Nat) (c : Chan) : (s.setChan k c).ids = s.ids := by
  simp [State.setChan]

@[simp] theorem State.modChan_ids (s : State) (k : Nat) (f : Chan → Chan) : (s.modChan k f).ids = s.ids := by
  simp [State.modChan]

@[simp] theorem State.setScalar_ids (s : State) (k i : Nat) (v : Quad) : (s.setScalar k i v).ids = s.ids := by
  simp [State.setScalar]

@[simp] theorem State.setTallyRaw_ids (s : State) (n : Nat) (v : BitVec 48) : (s.setTallyRaw n v).ids = s.ids := by
  simp [State.setTallyRaw]

@[simp] theorem State.setWatch_ids (s : State) (w : Nat) (x : Watch) : (s.setWatch w x).ids = s.ids := by
  simp [State.setWatch]

@[simp] theorem State.modHm_ids (s : State) (p : Nat) (f : HmPort → HmPort) : (s.modHm p f).ids = s.ids := by
  simp [State.modHm]

@[simp] theorem State.modRa_ids (s : State) (p : Nat) (f : RaPort → RaPort) : (s.modRa p f).ids = s.ids := by
  simp [State.modRa]

@[simp] theorem State.modLink_ids (s : State) (p : Nat) (f : Link → Link) : (s.modLink p f).ids = s.ids := by
  simp [State.modLink]

@[simp] theorem State.modTow_ids (s : State) (t : Nat) (f : Tow → Tow) : (s.modTow t f).ids = s.ids := by
  simp [State.modTow]

@[simp] theorem State.modCount_ids (s : State) (k : Nat) (f : Counts → Counts) : (s.modCount k f).ids = s.ids := by
  simp [State.modCount]

@[simp] theorem State.modRein_ids (s : State) (k : Nat) (f : Rein → Rein) : (s.modRein k f).ids = s.ids := by
  simp [State.modRein]

@[simp] theorem State.setSource_ids (s : State) (code inst : Nat) (x : Source) :
    (s.setSource code inst x).ids = s.ids := by
  simp [State.setSource]

@[simp] theorem State.drive_ids (s : State) (o : Output) : (s.drive o).ids = s.ids := by simp [State.drive]
@[simp] theorem State.raiseX_ids (s : State) (r : Raise) : (s.raiseX r).ids = s.ids := by simp [State.raiseX]

@[simp] theorem State.raise_ids (s : State) (code inst cls : Nat) (atype master : Nat) (addr : Nat) (detail : Nat)
    (inj : Bool) :
    (s.raise code inst cls atype master addr detail inj).ids = s.ids := by
  simp [State.raise]

@[simp] theorem State.takeInj_ids (s : State) (code inst : Nat) : (s.takeInj code inst).2.ids = s.ids := by
  unfold State.takeInj
  split <;> simp

@[simp] theorem State.takeEcc_ids (s : State) (code inst cls atype master : Nat) :
    (s.takeEcc code inst cls atype master).2.ids = s.ids := by
  simp [State.takeEcc]

/-! ### Events and logs -/

@[simp] theorem State.modLog_ids (s : State) (n : Nat) (f : Log → Log) : (s.modLog n f).ids = s.ids := by
  simp [State.modLog]

@[simp] theorem State.logAdd_ids (s : State) (n kind sub tag q2 q3 : Nat) :
    (s.logAdd n kind sub tag q2 q3).1.ids = s.ids := by
  simp (disch := omega) [State.logAdd]

@[simp] theorem State.logAll_ids (s : State) (src kind sub tag q2 q3 : Nat) :
    (s.logAll src kind sub tag q2 q3).1.ids = s.ids := by
  simp [State.logAll]

@[simp] theorem State.emitAll_ids (fuel : Nat) (l : List (Option Nat × BitVec 128)) (s : State) :
    (State.emitAll fuel l s).ids = s.ids := by
  induction fuel generalizing l s with
  | zero => rfl
  | succ n ih =>
    match l with
    | [] => rfl
    | (src, w) :: rest =>
      unfold State.emitAll
      split
      · rw [ih]
        rfl
      · rw [ih]
        simp

@[simp] theorem State.emit_ids (s : State) (w : Nat) (src : Option Nat) : (s.emit w src).ids = s.ids := by
  simp [State.emit]

@[simp] theorem State.record_ids (s : State) (src kind sub tag q2 q3 : Nat) :
    (s.record src kind sub tag q2 q3).ids = s.ids := by
  simp [State.record]

@[simp] theorem State.pumpEvents_ids (fuel : Nat) (s : State) : (State.pumpEvents fuel s).ids = s.ids := by
  induction fuel generalizing s with
  | zero => rfl
  | succ n ih =>
    unfold State.pumpEvents
    split <;> simp [ih]

/-! ### Packets sent -/

@[simp] theorem State.setCnt64_ids (s : State) {off : Nat} (v : Nat) (h : 0x34 ≤ off) :
    (s.setCnt64 off v).ids = s.ids := by
  simp (disch := omega) [State.setCnt64]

@[simp] theorem State.addCnt64_ids (s : State) {off : Nat} (v : Nat) (h : 0x34 ≤ off) :
    (s.addCnt64 off v).ids = s.ids := by simp [State.addCnt64, h]

@[simp] theorem State.countPkt_ids (s : State) (at_ : Nat) (p : Packet) : (s.countPkt at_ p).ids = s.ids := by
  have two (t : State) (b n m : Nat) (h : 0x34 ≤ b) : ((t.addCnt64 b n).addCnt64 (b + 8) m).ids = t.ids :=
    (State.addCnt64_ids _ _ (by omega)).trans (State.addCnt64_ids _ _ h)
  unfold State.countPkt
  refine (State.ids_foldl (fun t i => ?_) _ _).trans (two _ _ _ _ (by omega))
  split
  · exact two _ _ _ _ (by omega)
  · rfl

@[simp] theorem State.form_ids (s : State) (h : Hd) (pay : List Byte) (dir : Option Nat) (key : Option (Nat × Nat)) :
    (s.form h pay dir key).ids = s.ids := by
  simp [State.form]

@[simp] theorem State.respond_ids (s : State) (h : Hd) (pay : List Byte) (key : Option (Nat × Nat)) :
    (s.respond h pay key).ids = s.ids := by
  simp [State.respond]

@[simp] theorem State.answer_ids (s : State) (p : Packet) (outcome : Nat) (found : Nat) :
    (s.answer p outcome found).ids = s.ids := by
  simp [State.answer]

@[simp] theorem State.answerFor_ids (s : State) (p : Packet) (outcome : Nat) :
    (s.answerFor p outcome).ids = s.ids := by
  simp [State.answerFor]

@[simp] theorem State.reinCharge_ids (s : State) (k opcode len : Nat) : (s.reinCharge k opcode len).ids = s.ids := by
  simp [State.reinCharge]

@[simp] theorem State.reinHeld_ids (s : State) (k : Nat) : (s.reinHeld k).ids = s.ids := by simp [State.reinHeld]

@[simp] theorem State.reinEcho_ids (s : State) (k echo : Nat) : (s.reinEcho k echo).ids = s.ids := by
  simp [State.reinEcho]

@[simp] theorem State.modGroup_ids (s : State) (g : Nat) (f : Group → Group) : (s.modGroup g f).ids = s.ids := by
  simp [State.modGroup]

@[simp] theorem State.modInst_ids (s : State) (g : Nat) (f : CollInst → CollInst) : (s.modInst g f).ids = s.ids := by
  simp [State.modInst]

@[simp] theorem State.modCnt_ids (s : State) (k : Nat) (f : ChanCnt → ChanCnt) : (s.modCnt k f).ids = s.ids := by
  simp [State.modCnt]

@[simp] theorem State.cntStart_ids (s : State) (k seq iter : Nat) : (s.cntStart k seq iter).ids = s.ids := by
  simp [State.cntStart]

@[simp] theorem State.cntStop_ids (s : State) (k : Nat) : (s.cntStop k).ids = s.ids := by simp [State.cntStop]
@[simp] theorem State.cntForm_ids (s : State) (k n : Nat) : (s.cntForm k n).ids = s.ids := by simp [State.cntForm]
@[simp] theorem State.cntRead_ids (s : State) (k n : Nat) : (s.cntRead k n).ids = s.ids := by simp [State.cntRead]
@[simp] theorem State.cntRein_ids (s : State) (k : Nat) : (s.cntRein k).ids = s.ids := by simp [State.cntRein]

/-! ### The read and write engines -/

@[simp] theorem State.startRead_ids (s : State) (use : RdUse) (rs : List (Nat × Nat)) :
    (s.startRead use rs).2.ids = s.ids := by
  simp [State.startRead]

@[simp] theorem State.startWrite_ids (s : State) (use : WrUse) (grans : List WrGran) (count : Nat) :
    (s.startWrite use grans count).2.ids = s.ids := by
  simp [State.startWrite]

/-! ### Channels -/

@[simp] theorem State.progress_ids (s : State) (k : Nat) : (s.progress k).ids = s.ids := by simp [State.progress]

@[simp] theorem State.stopChan_ids (s : State) (k : Nat) (kind : StopKind) (seq status : Nat) :
    (s.stopChan k kind seq status).ids = s.ids := by
  simp [State.stopChan]

@[simp] theorem State.settleOwedN_ids (n k : Nat) (s : State) : (State.settleOwedN n k s).ids = s.ids := by
  induction n generalizing s with
  | zero => rfl
  | succ n ih =>
    unfold State.settleOwedN
    dsimp only
    split <;> simp [ih]

@[simp] theorem State.settleOwed_ids (s : State) (k : Nat) : (s.settleOwed k).ids = s.ids := by
  simp [State.settleOwed]

@[simp] theorem State.complete_ids (s : State) (k : Nat) (f : Flight) (status : Nat) :
    (s.complete k f status).ids = s.ids := by
  unfold State.complete
  split <;> simp

@[simp] theorem State.chanOff_ids (s : State) (k : Nat) : (s.chanOff k).ids = s.ids := by simp [State.chanOff]

@[simp] theorem State.settleN_ids (n k : Nat) (s : State) : (State.settleN n k s).ids = s.ids := by
  induction n generalizing s with
  | zero => rfl
  | succ n ih =>
    unfold State.settleN
    dsimp only
    repeat' split
    all_goals simp [ih]

@[simp] theorem State.settle_ids (s : State) (k : Nat) : (s.settle k).ids = s.ids := by simp [State.settle]
@[simp] theorem State.evalWatch_ids (s : State) (w : Nat) : (s.evalWatch w).ids = s.ids := by simp [State.evalWatch]

@[simp] theorem State.evalWatches_ids (s : State) (n : Nat) : (s.evalWatches n).ids = s.ids := by
  simp [State.evalWatches]

@[simp] theorem State.evalWaits_ids (s : State) : s.evalWaits.ids = s.ids := by
  unfold State.evalWaits
  refine (State.ids_foldl (fun t x => ?_) _ _).trans ?_
  · dsimp only
    repeat' split
    all_goals simp (disch := omega)
  · simp (disch := omega)

@[simp] theorem State.setTally_ids (s : State) (n : Nat) (v : BitVec 48) : (s.setTally n v).ids = s.ids := by
  simp [State.setTally]

@[simp] theorem State.addTally_ids (s : State) (n : Nat) (v : Nat) : (s.addTally n v).ids = s.ids := by
  simp [State.addTally]

/-! ### Register writes -/

/-- A bit is written as 1 to clear it only where the field map lets it (`identityRegs_mask`). -/
@[simp] theorem State.w1cOnly_ids (s : State) (off : Nat) (data : Word) : (s.w1cOnly off data).ids = s.ids := by
  unfold State.w1cOnly
  dsimp only
  split
  · simp
  · simp
  · split <;> rfl
  · split
    · simp
    · split
      · simp
      · refine idWords_set fun e he heq => ?_
        obtain ⟨-, -, hw1c⟩ := identityRegs_mask e he
        subst heq
        simp [hw1c, State.reg, Word.and_ones]

@[simp] theorem State.rgBad_ids (s : State) (off : Nat) (inj : Bool) : (s.rgBad off inj).ids = s.ids := by
  simp [State.rgBad]

@[simp] theorem State.regWrite_ids (s : State) (off : Nat) (a : RgAcc) {f : State → Bool → Word → State} (al : Bool)
    (h : ∀ t p d, (f t p d).ids = t.ids) :
   (s.regWrite off a f al).ids = s.ids := by
  unfold State.regWrite
  split <;> simp [h]

/-- A stored write changes only fields that the map lets it. -/
@[simp] theorem State.plainWrite_ids (s : State) (off : Nat) (priv : Bool) (d : Word) :
    (s.plainWrite off priv d).ids = s.ids :=
  idWords_set fun e he heq => by subst heq; exact mergeWrite_identity he priv _ d

/-! ### The physical layer -/

@[simp] theorem State.modPhy_ids (s : State) (t : Nat) (f : Phy → Phy) : (s.modPhy t f).ids = s.ids := by
  simp [State.modPhy]

@[simp] theorem State.sendLanes_ids (s : State) (t : Nat) (syms : List (List Nat)) :
    (s.sendLanes t syms).ids = s.ids := by
  simp [State.sendLanes]

@[simp] theorem State.pnFrame_ids (s : State) (t i : Nat) : (s.pnFrame t i).ids = s.ids := by simp [State.pnFrame]

@[simp] theorem State.sendLmw_ids (s : State) (t : Nat) (w : Quad) : (s.sendLmw t w).ids = s.ids := by
  simp [State.sendLmw]

@[simp] theorem State.restartPhy_ids (s : State) (t : Nat) : (s.restartPhy t).ids = s.ids := by
  simp [State.restartPhy]

@[simp] theorem State.sendSlot_ids (s : State) (t tag : Nat) : (s.sendSlot t tag).ids = s.ids := by
  simp [State.sendSlot]

@[simp] theorem State.sendBits_ids (s : State) (t v scr : Nat) (inv : Bool) :
    (s.sendBits t v scr inv).ids = s.ids := by
  unfold State.sendBits
  split <;> simp

@[simp] theorem State.sendBody_ids (s : State) (t : Nat) (body : BitVec 2048) (inv : Bool) :
    (s.sendBody t body inv).ids = s.ids := by
  simp [State.sendBody]

@[simp] theorem State.slotDue_ids (s : State) (t : Nat) : (s.slotDue t).2.ids = s.ids := by
  unfold State.slotDue
  split <;> simp

/-! ### Links -/

@[simp] theorem State.lifeInc_ids (s : State) (off : Nat) : (s.lifeInc off).ids = s.ids := by simp [State.lifeInc]

@[simp] theorem State.spareLog_ids (s : State) (kind inst detail : Nat) :
    (s.spareLog kind inst detail).ids = s.ids := by
  simp [State.spareLog]

@[simp] theorem State.modTeam_ids (s : State) (t : Nat) (f : Team → Team) : (s.modTeam t f).ids = s.ids := by
  simp [State.modTeam]

@[simp] theorem State.setTeams_ids (s : State) (p : Nat) (which : Team → Bool) (st : TeamSt) :
    (s.setTeams p which st).ids = s.ids := by
  simp [State.setTeams]

@[simp] theorem State.modMon_ids (s : State) (i : Nat) (f : Monitor → Monitor) : (s.modMon i f).ids = s.ids := by
  simp [State.modMon]

@[simp] theorem State.tagBack_ids (s : State) (p : Nat) : (s.tagBack p).2.ids = s.ids := by
  unfold State.tagBack
  dsimp only
  repeat' split
  all_goals simp

@[simp] theorem State.sendNull_ids (s : State) (p team : Nat) (body : Bool) :
    (s.sendNull p team body).ids = s.ids := by
  simp [State.sendNull]

@[simp] theorem State.spareSlot_ids (s : State) (p team : Nat) : (s.spareSlot p team).ids = s.ids := by
  simp [State.spareSlot]

@[simp] theorem State.driveFlit_ids (s : State) (p team tag : Nat) (body : BitVec 2048) (bad : Bool) (fec : Bool) :
    (s.driveFlit p team tag body bad fec).ids = s.ids := by
  simp [State.driveFlit]

@[simp] theorem State.idlePort_ids (s : State) (p : Nat) : (s.idlePort p).ids = s.ids := by
  unfold State.idlePort
  dsimp only
  split <;> simp

@[simp] theorem State.idlePorts_ids (s : State) : s.idlePorts.ids = s.ids := by simp [State.idlePorts]

@[simp] theorem State.takeLnkInj_ids (s : State) (p : Nat) : (s.takeLnkInj p).2.ids = s.ids := by
  simp (disch := omega) [State.takeLnkInj]

@[simp] theorem State.nextTeam_ids (s : State) (p : Nat) : (s.nextTeam p).2.ids = s.ids := by simp [State.nextTeam]

@[simp] theorem State.transmit_ids (s : State) (p core fseq : Nat) (body : BitVec 2048) :
    (s.transmit p core fseq body).ids = s.ids := by
  simp [State.transmit]

@[simp] theorem State.sendSeq_ids (s : State) (p core : Nat) (body : BitVec 2048) :
    (s.sendSeq p core body).ids = s.ids := by
  simp [State.sendSeq]

@[simp] theorem State.sendUnseq_ids (s : State) (p kind : Nat) (body : BitVec 2048) (team : Nat) :
    (s.sendUnseq p kind body team).ids = s.ids := by
  simp [State.sendUnseq]

@[simp] theorem State.sendData_ids (s : State) (q v : Nat) (tow : Option Nat) (first last abn : Bool)
    (body : BitVec 2048) :
    (s.sendData q v tow first last abn body).ids = s.ids := by
  simp [State.sendData]

@[simp] theorem State.abandon_ids (s : State) (p : Nat) : (s.abandon p).ids = s.ids := by
  simp (disch := omega) [State.abandon]

@[simp] theorem State.abandonRest_ids (s : State) (h : Held) : (s.abandonRest h).ids = s.ids := by
  unfold State.abandonRest
  dsimp only
  repeat' split
  all_goals simp

@[simp] theorem State.countDrop_ids (s : State) (p : Packet) : (s.countDrop p).ids = s.ids := by
  simp [State.countDrop]

@[simp] theorem State.discard1_ids (s : State) (h : Held) : (s.discard1 h).ids = s.ids := by simp [State.discard1]

@[simp] theorem State.towDrained_ids (s : State) (t : Nat) : (s.towDrained t).ids = s.ids := by
  simp [State.towDrained]

@[simp] theorem State.discardHeld_ids (s : State) (which : Held → Bool) : (s.discardHeld which).ids = s.ids := by
  simp [State.discardHeld]

@[simp] theorem State.flushCtl_ids (s : State) (p : Nat) : (s.flushCtl p).ids = s.ids := by simp [State.flushCtl]

@[simp] theorem State.sendCtl_ids (s : State) (p ctype fields : Nat) : (s.sendCtl p ctype fields).ids = s.ids := by
  unfold State.sendCtl
  dsimp only
  repeat' split
  all_goals simp

@[simp] theorem State.sendParam_ids (s : State) (p : Nat) : (s.sendParam p).ids = s.ids := by simp [State.sendParam]
@[simp] theorem State.resendParams_ids (s : State) : s.resendParams.ids = s.ids := by simp [State.resendParams]
@[simp] theorem State.towKill_ids (s : State) (t : Nat) : (s.towKill t).ids = s.ids := by simp [State.towKill]
@[simp] theorem State.towFence_ids (s : State) (p : Nat) : (s.towFence p).ids = s.ids := by simp [State.towFence]

@[simp] theorem State.haltForget_ids (s : State) (p : Nat) : (s.haltForget p).ids = s.ids := by
  simp [State.haltForget]

@[simp] theorem State.cutPackets_ids (s : State) (p : Nat) : (s.cutPackets p).ids = s.ids := by
  simp [State.cutPackets]

@[simp] theorem State.setTime_ids (s : State) (st : TimeSt) : (s.setTime st).ids = s.ids := by simp [State.setTime]

@[simp] theorem State.parentLost_ids (s : State) (p : Nat) : (s.parentLost p).ids = s.ids := by
  simp [State.parentLost]

@[simp] theorem State.fencePort_ids (s : State) (p cause : Nat) : (s.fencePort p cause).ids = s.ids := by
  simp [State.fencePort]

@[simp] theorem State.trainPort_ids (s : State) (p : Nat) : (s.trainPort p).ids = s.ids := by simp [State.trainPort]
@[simp] theorem State.offPort_ids (s : State) (p : Nat) : (s.offPort p).ids = s.ids := by simp [State.offPort]

@[simp] theorem State.retrainPort_ids (s : State) (p reason : Nat) (send drain : Bool) :
    (s.retrainPort p reason send drain).ids = s.ids := by
  have h : 0x34 ≤ 0x81C + 0x40 * p := by omega
  simp [State.retrainPort, h]

@[simp] theorem State.drainDone_ids (s : State) (p : Nat) : (s.drainDone p).ids = s.ids := by simp [State.drainDone]

@[simp] theorem State.activePort_ids (s : State) (p : Nat) (fresh : Bool) : (s.activePort p fresh).ids = s.ids := by
  simp [State.activePort]

/-! ### Commands of a channel -/

@[simp] theorem State.modFlight_ids (s : State) (k ord : Nat) (f : Flight → Flight) :
    (s.modFlight k ord f).ids = s.ids := by
  simp [State.modFlight]

@[simp] theorem State.failSlot_ids (s : State) (k : Nat) (x : Slot) (aout : Nat) (fenced aborted : Bool) :
    (s.failSlot k x aout fenced aborted).ids = s.ids := by
  simp [State.failSlot]

@[simp] theorem State.dropAhead_ids (s : State) (k : Nat) : (s.dropAhead k).ids = s.ids := by simp [State.dropAhead]

@[simp] theorem State.drainChan_ids (s : State) (k : Nat) (keepPend fence : Bool) :
    (s.drainChan k keepPend fence).ids = s.ids := by
  simp [State.drainChan]

@[simp] theorem State.abortSlots_ids (s : State) (k : Nat) : (s.abortSlots k).ids = s.ids := by
  simp [State.abortSlots]

@[simp] theorem State.fenceSlots_ids (s : State) (p : Nat) : (s.fenceSlots p).ids = s.ids := by
  simp [State.fenceSlots]

@[simp] theorem State.collProgress_ids (s : State) (g own : Nat) : (s.collProgress g own).ids = s.ids := by
  simp [State.collProgress]

@[simp] theorem State.begin_ids (s : State) (k : Nat) (w : CmdWord) : (s.begin k w).1.ids = s.ids := by
  simp [State.begin]

@[simp] theorem State.loopLong_ids (s : State) (k : Nat) : (s.loopLong k).ids = s.ids := by simp [State.loopLong]

@[simp] theorem State.wordEcc_ids (s : State) (k : Nat) (w : CmdWord) : (s.wordEcc k w).2.ids = s.ids := by
  simp [State.wordEcc]

@[simp] theorem State.startCmd_ids (s : State) (k : Nat) (good : CmdWord → Bool) {body : State → Flight → State}
    (h : ∀ t f, (body t f).ids = t.ids) :
   (s.startCmd k good body).ids = s.ids := by
  unfold State.startCmd
  split <;> simp [h]

/-! ### The issue of fragments -/

@[simp] theorem State.modeOf_ids (s : State) (f : Flight) (chip len destBytes : Nat) :
    (s.modeOf f chip len destBytes).2.ids = s.ids := by
  unfold State.modeOf
  dsimp only
  repeat' split
  all_goals simp

@[simp] theorem State.towEnter_ids (s : State) (e : Nat) : (s.towEnter e).ids = s.ids := by simp [State.towEnter]
@[simp] theorem State.towLeave_ids (s : State) (e : Nat) : (s.towLeave e).ids = s.ids := by simp [State.towLeave]
@[simp] theorem State.useSlot_ids (s : State) (i : Nat) : (s.useSlot i).ids = s.ids := by simp [State.useSlot]

@[simp] theorem State.issue_ids (s : State) (k : Nat) (f : Flight) (fr : Frag) (h : Hd) (pay : List Byte)
    (tow : Option Nat) (reinLen : Nat) :
    (s.issue k f fr h pay tow reinLen).ids = s.ids := by
  unfold State.issue
  dsimp only
  repeat' split
  all_goals simp

@[simp] theorem State.failFrag_ids (s : State) (k : Nat) (f : Flight) (fr : Frag) (aout : Nat) (fenced : Bool) :
    (s.failFrag k f fr aout fenced).ids = s.ids := by
  simp [State.failFrag]

@[simp] theorem State.offer_ids (s : State) (k : Nat) (f : Flight) (fr : Frag) (tow leaves : Bool)
    (next : Flight → Flight)
    {go : State → State} (h : (go s).ids = s.ids) :
   (s.offer k f fr tow leaves next go).ids = s.ids := by
  simp [State.offer, h]

@[simp] theorem State.issueSingle_ids (s : State) (k : Nat) (f : Flight) : (s.issueSingle k f).ids = s.ids := by
  simp [State.issueSingle]

@[simp] theorem State.readAhead_ids (s : State) (k : Nat) (f : Flight) (c : Cursor) :
    (s.readAhead k f c).ids = s.ids := by
  unfold State.readAhead
  dsimp only
  repeat' split
  all_goals simp

@[simp] theorem State.issueData_ids (s : State) (k : Nat) (f : Flight) (a : Ahead) (data : List Byte) (poison : Nat) :
    (s.issueData k f a data poison).ids = s.ids := by
  unfold State.issueData
  dsimp only
  simp

@[simp] theorem State.issueRead_ids (s : State) (k : Nat) (f : Flight) (c : Cursor) (way : Way) :
    (s.issueRead k f c way).ids = s.ids := by
  unfold State.issueRead
  dsimp only
  split <;> simp

@[simp] theorem State.issueStep_ids (s : State) (k : Nat) : (s.issueStep k).ids = s.ids := by
  unfold State.issueStep
  dsimp only
  repeat' split
  all_goals simp

/-! ### Execution of commands -/

@[simp] theorem State.branchDone_ids (s : State) (k status : Nat) : (s.branchDone k status).ids = s.ids := by
  unfold State.branchDone
  split <;> simp

@[simp] theorem State.runSkip_ids (n k : Nat) (s : State) : (State.runSkip n k s).ids = s.ids := by
  induction n generalizing s with
  | zero => rfl
  | succ n ih =>
    unfold State.runSkip
    dsimp only
    repeat' split
    all_goals simp [ih]

@[simp] theorem State.discardWords_ids (s : State) (k : Nat) : (s.discardWords k).ids = s.ids := by
  simp [State.discardWords]

@[simp] theorem State.cpFault_ids (s : State) (port k status : Nat) (inj : Bool) :
    (s.cpFault port k status inj).ids = s.ids := by
  unfold State.cpFault
  split <;> simp

@[simp] theorem State.enqueue_ids (s : State) (k : Nat) (w : CmdWord) : (s.enqueue k w).ids = s.ids := by
  simp [State.enqueue]

@[simp] theorem State.cpOffer_ids (s : State) (port : Nat) (w : CmdWord) (crc : HWord) :
    (s.cpOffer port w crc).ids = s.ids := by
  simp [State.cpOffer]

@[simp] theorem State.releaseCp_ids (s : State) : s.releaseCp.ids = s.ids := by simp [State.releaseCp]

@[simp] theorem State.chanEnable_ids (s : State) (k : Nat) : (s.chanEnable k).ids = s.ids := by
  simp [State.chanEnable]

@[simp] theorem State.chanResume_ids (s : State) (k : Nat) : (s.chanResume k).ids = s.ids := by
  simp [State.chanResume]

@[simp] theorem State.wrScalHi_ids (s : State) (k i : Nat) (d : Word) : (s.wrScalHi k i d).ids = s.ids := by
  simp [State.wrScalHi]

@[simp] theorem State.checkStall_ids (s : State) (k : Nat) : (s.checkStall k).ids = s.ids := by
  simp [State.checkStall]

@[simp] theorem State.wrCons_ids (s : State) (k : Nat) (d : Word) : (s.wrCons k d).ids = s.ids := by
  simp [State.wrCons]

@[simp] theorem State.wrShape_ids (s : State) (e : Nat) (d : Word) : (s.wrShape e d).ids = s.ids :=
  (State.setReg_ids _ _ (by omega)).trans (State.setRegs_ids _ _ _ (by omega))

@[simp] theorem State.loadsDone_ids (s : State) (k : Nat) (f : Flight) (v : Quad) :
    (s.loadsDone k f v).ids = s.ids := by
  simp [State.loadsDone]

@[simp] theorem State.failAll_ids (s : State) (k : Nat) (f : Flight) (aout planned : Nat) (fr : Frag) :
    (s.failAll k f aout planned fr).ids = s.ids := by
  simp [State.failAll]

@[simp] theorem State.startXfer_ids (s : State) (k : Nat) (f : Flight) : (s.startXfer k f).ids = s.ids := by
  unfold State.startXfer
  dsimp only
  repeat' split
  all_goals simp

@[simp] theorem State.startSingle_ids (s : State) (k : Nat) (f : Flight) (opcode : Nat) :
    (s.startSingle k f opcode).ids = s.ids := by
  unfold State.startSingle
  dsimp only
  split <;> simp

@[simp] theorem State.recordDone_ids (s : State) (k ord : Nat) (ok : Bool) : (s.recordDone k ord ok).ids = s.ids := by
  unfold State.recordDone
  split <;> simp

/-! ### Collectives -/

@[simp] theorem State.collPacket_ids (s : State) (c : CollInst) (opcode r cphase half dim : Nat) (scount : Nat)
    (rmode : Nat) (dir : Option Nat) (ftag offset : Nat) (pay : List Byte) (sat : Bool) :
    (s.collPacket c opcode r cphase half dim scount rmode dir ftag offset pay sat).ids = s.ids := by
  simp [State.collPacket]

@[simp] theorem State.collToken_ids (s : State) (c : CollInst) (opcode r cphase half dim : Nat) (scount : Nat)
    (rmode : Nat) (dir : Option Nat) :
    (s.collToken c opcode r cphase half dim scount rmode dir).1.ids = s.ids := by
  simp [State.collToken]

@[simp] theorem State.countCopies_ids (s : State) (n : Nat) : (s.countCopies n).ids = s.ids := by
  simp [State.countCopies]

@[simp] theorem State.collStop_ids (s : State) (g status outcome addr : Nat) (now : Bool) :
    (s.collStop g status outcome addr now).ids = s.ids := by
  unfold State.collStop
  split <;> simp

@[simp] theorem State.collAbortAll_ids (s : State) (g : Nat) (seq : HWord) (chan reason outcome : Nat)
    (chips : List Nat) (rank : Nat) (ids : HWord × HWord) :
    (s.collAbortAll g seq chan reason outcome chips rank ids).ids = s.ids := by
  simp [State.collAbortAll]

@[simp] theorem State.collMark_ids (s : State) (g : Nat) (seq : HWord) (reason outcome : Nat) :
    (s.collMark g seq reason outcome).ids = s.ids := by
  simp [State.collMark]

@[simp] theorem State.collAbort_ids (s : State) (g reason outcome addr : Nat) :
    (s.collAbort g reason outcome addr).ids = s.ids := by
  unfold State.collAbort
  split <;> simp

@[simp] theorem State.collSend1_ids (s : State) (g : Nat) (x : OutPiece) : (s.collSend1 g x).1.ids = s.ids := by
  unfold State.collSend1
  split
  · rfl
  · dsimp only
    repeat' split
    all_goals simp

/-- Each piece is sent or kept for later, from the first to the last. -/
@[simp] theorem State.collSendAll_ids (s : State) (g : Nat) : (s.collSendAll g).ids = s.ids := by
  unfold State.collSendAll
  split
  · rfl
  · exact foldl_keeps (R := fun a b : State × List OutPiece => b.1.ids = a.1.ids) (fun _ => rfl)
      (fun h k => k.trans h) _ (fun a x => by dsimp only; split <;> simp) _ _

@[simp] theorem State.collAsk_ids (n : Nat) (s : State) (g : Nat) : (State.collAsk n s g).ids = s.ids := by
  induction n generalizing s with
  | zero => rfl
  | succ n ih =>
    unfold State.collAsk
    dsimp only
    repeat' split
    all_goals simp [ih]

@[simp] theorem State.collAsks_ids (s : State) (g : Nat) : (s.collAsks g).ids = s.ids := by
  unfold State.collAsks
  split <;> simp

@[simp] theorem State.colAnswer_ids (s : State) (p : Packet) (outcome : Nat) (discarded : Bool) :
    (s.colAnswer p outcome discarded).ids = s.ids := by
  unfold State.colAnswer
  dsimp only
  split <;> simp

@[simp] theorem State.collAcks_ids (s : State) (g : Nat) : (s.collAcks g).ids = s.ids := by
  unfold State.collAcks
  split <;> simp

theorem State.collRead1_ids (s : State) (g : Nat) : ∀ t, s.collRead1 g = some t → t.ids = s.ids := by
  unfold State.collRead1
  dsimp only
  repeat' split
  all_goals simp

@[simp] theorem State.collReads_ids (n : Nat) (s : State) (g : Nat) : (State.collReads n s g).ids = s.ids := by
  induction n generalizing s with
  | zero => rfl
  | succ n ih =>
    unfold State.collReads
    split
    · next h => rw [ih, s.collRead1_ids g _ h]
    · rfl

@[simp] theorem State.collWrite_ids (s : State) (g kind : Nat) (rs : List (Nat × List Byte)) (pkt : Option Packet) :
    (s.collWrite g kind rs pkt).ids = s.ids := by
  unfold State.collWrite
  dsimp only
  repeat' split
  all_goals simp

@[simp] theorem State.collFins_ids (s : State) (g : Nat) : (s.collFins g).ids = s.ids := by
  unfold State.collFins
  split <;> simp

@[simp] theorem State.collWritten_ids (s : State) (g : Nat) (seq : HWord) (kind : Nat) (gb : List (Nat × Nat))
    (addr : Nat)
    (pkt : Option Packet) (ok : Bool) : (s.collWritten g seq kind gb addr pkt ok).ids = s.ids := by
  unfold State.collWritten
  dsimp only
  repeat' split
  all_goals simp

@[simp] theorem State.collTokens_ids (s : State) (g : Nat) : (s.collTokens g).ids = s.ids := by
  unfold State.collTokens
  dsimp only
  repeat' split
  all_goals simp

@[simp] theorem State.collEnd_ids (s : State) (g : Nat) : (s.collEnd g).ids = s.ids := by
  unfold State.collEnd
  dsimp only
  repeat' split
  all_goals simp

@[simp] theorem State.collIssued_ids (s : State) (g : Nat) : (s.collIssued g).ids = s.ids := by
  unfold State.collIssued
  repeat' split
  all_goals simp

@[simp] theorem State.collPump_ids (s : State) (g : Nat) : (s.collPump g).ids = s.ids := by simp [State.collPump]

@[simp] theorem State.collMismatch_ids (s : State) (g fields rseq peer : Nat) :
    (s.collMismatch g fields rseq peer).ids = s.ids := by
  unfold State.collMismatch
  dsimp only
  split <;> simp

@[simp] theorem State.takeReady_ids (s : State) (g : Nat) (t : ReadyTok) : (s.takeReady g t).ids = s.ids := by
  unfold State.takeReady
  dsimp only
  repeat' split
  all_goals simp

@[simp] theorem State.skipSeq_ids (s : State) (g : Nat) : (s.skipSeq g).ids = s.ids := by simp [State.skipSeq]

@[simp] theorem State.collOpen_ids (s : State) (g : Nat) (v : Quad) : (s.collOpen g v).ids = s.ids := by
  unfold State.collOpen
  split <;> simp

@[simp] theorem State.collRefuse_ids (s : State) (k : Nat) (f : Flight) (status outcome addr fails : Nat) :
    (s.collRefuse k f status outcome addr fails).ids = s.ids := by
  simp [State.collRefuse]

@[simp] theorem State.collStart_ids (s : State) (k : Nat) (f : Flight) : (s.collStart k f).ids = s.ids := by
  unfold State.collStart
  dsimp only
  repeat' split
  all_goals simp

@[simp] theorem State.collTurn_ids (s : State) (g : Nat) : (s.collTurn g).ids = s.ids := by
  unfold State.collTurn
  dsimp only
  split <;> simp

@[simp] theorem State.collCmd_ids (s : State) (k : Nat) (f : Flight) : (s.collCmd k f).ids = s.ids := by
  simp [State.collCmd]

@[simp] theorem State.collReadDone_ids (s : State) (g job : Nat) (got : List (Nat × Gran)) (err : Bool) :
    (s.collReadDone g job got err).ids = s.ids := by
  unfold State.collReadDone
  dsimp only
  repeat' split
  all_goals simp

@[simp] theorem State.collHeadDone_ids (s : State) (g : Nat) (got : List (Nat × Gran)) (err : Bool) :
    (s.collHeadDone g got err).ids = s.ids := by
  unfold State.collHeadDone
  dsimp only
  repeat' split
  all_goals simp

@[simp] theorem State.collCombine_ids (s : State) (g i : Nat) : (s.collCombine g i).ids = s.ids := by
  unfold State.collCombine
  dsimp only
  repeat' split
  all_goals simp (disch := omega)

/-! ### Packets of collectives -/

@[simp] theorem State.colDrop_ids (s : State) (p : Packet) : (s.colDrop p).ids = s.ids := by simp [State.colDrop]

@[simp] theorem State.colInvalid_ids (s : State) (p : Packet) : (s.colInvalid p).ids = s.ids := by
  simp [State.colInvalid]

@[simp] theorem State.colMoves_ids (s : State) (g : Nat) (seq : HWord) : (s.colMoves g seq).ids = s.ids := by
  unfold State.colMoves
  split <;> simp

@[simp] theorem State.colAccept_ids (s : State) (p : Packet) : (s.colAccept p).ids = s.ids := by
  unfold State.colAccept
  dsimp only
  repeat' split
  all_goals simp

@[simp] theorem State.colAbortIn_ids (s : State) (p : Packet) : (s.colAbortIn p).ids = s.ids := by
  unfold State.colAbortIn
  dsimp only
  split <;> simp

@[simp] theorem State.colAckIn_ids (s : State) (g : Nat) (c : CollInst) (w : ColWire) (r : Nat) (p : Packet) :
    (s.colAckIn g c w r p).ids = s.ids := by
  unfold State.colAckIn
  split <;> simp

@[simp] theorem State.collDrain_ids (s : State) (k : Nat) : (s.collDrain k).ids = s.ids := by simp [State.collDrain]

@[simp] theorem State.collEndAll_ids (s : State) (status outcome : Nat) (which : CollInst → Bool) :
    (s.collEndAll status outcome which).ids = s.ids := by
  unfold State.collEndAll
  refine (State.ids_foldl (fun t x => ?_) _ _).trans ?_
  · dsimp only
    repeat' split
    all_goals simp (disch := omega)
  · simp (disch := omega)

@[simp] theorem State.groupsReset_ids (s : State) : s.groupsReset.ids = s.ids := by simp [State.groupsReset]

@[simp] theorem State.drainAll_ids (s : State) (k : Nat) (keepPend fence : Bool) :
    (s.drainAll k keepPend fence).ids = s.ids := by
  simp [State.drainAll]

@[simp] theorem State.chanDisable_ids (s : State) (k : Nat) : (s.chanDisable k).ids = s.ids := by
  unfold State.chanDisable
  dsimp only
  split <;> simp

@[simp] theorem State.wrChanCtl_ids (s : State) (k : Nat) (d : Word) : (s.wrChanCtl k d).ids = s.ids := by
  simp [State.wrChanCtl]

/-! ### Requests served -/

@[simp] theorem State.serveWrite_ids (s : State) (p : Packet) : (s.serveWrite p).ids = s.ids := by
  simp [State.serveWrite]

@[simp] theorem State.serveRead_ids (s : State) (p : Packet) : (s.serveRead p).ids = s.ids := by
  simp [State.serveRead]

@[simp] theorem State.streamTurn_ids (s : State) (c r : Nat) : (s.streamTurn c r).ids = s.ids := by
  unfold State.streamTurn
  dsimp only
  repeat' split
  all_goals simp

@[simp] theorem State.streamPush_ids (s : State) (p : Packet) : (s.streamPush p).ids = s.ids := by
  simp [State.streamPush]

@[simp] theorem State.streamDone_ids (s : State) (p : Packet) : (s.streamDone p).ids = s.ids := by
  simp [State.streamDone]

@[simp] theorem State.serveDone_ids (s : State) (p : Packet) (got : List (Nat × Gran)) (err : Bool) :
    (s.serveDone p got err).ids = s.ids := by
  simp [State.serveDone]

@[simp] theorem State.writeServed_ids (s : State) (p : Packet) (count : Nat) (err : Bool) :
    (s.writeServed p count err).ids = s.ids := by
  simp [State.writeServed]

@[simp] theorem State.atcTrim_ids (s : State) (key : Nat) : (s.atcTrim key).ids = s.ids := by simp [State.atcTrim]

@[simp] theorem State.atcPut_ids (s : State) (key : Nat) (g : Gran) : (s.atcPut key g).ids = s.ids := by
  simp [State.atcPut]

@[simp] theorem State.atcMake_ids (s : State) : s.atcMake.ids = s.ids := by
  unfold State.atcMake
  dsimp only
  repeat' split
  all_goals simp

@[simp] theorem State.atomDo_ids (s : State) (a : AtomReq) (g : Gran) : (s.atomDo a g).ids = s.ids := by
  unfold State.atomDo
  dsimp only
  split <;> simp

@[simp] theorem State.atomRead_ids (s : State) (num : Nat) (got : List (Nat × Gran)) (err : Bool) :
    (s.atomRead num got err).ids = s.ids := by
  unfold State.atomRead
  dsimp only
  repeat' split
  all_goals simp

@[simp] theorem State.atomWritten_ids (s : State) (p : Packet) (found : Quad) (err : Bool) :
    (s.atomWritten p found err).ids = s.ids := by
  simp [State.atomWritten]

@[simp] theorem State.atomStep_ids (s : State) : s.atomStep.ids = s.ids := by
  unfold State.atomStep
  dsimp only
  repeat' split
  all_goals simp

@[simp] theorem State.atomQueue_ids (s : State) (p : Packet) : (s.atomQueue p).ids = s.ids := by
  simp [State.atomQueue]

@[simp] theorem State.fragRead_ids (s : State) (k ord id : Nat) (got : List (Nat × Gran)) (err : Bool) :
    (s.fragRead k ord id got err).ids = s.ids := by
  unfold State.fragRead
  dsimp only
  repeat' split
  all_goals simp

@[simp] theorem State.readDone_ids (s : State) (j : RdJob) : (s.readDone j).ids = s.ids := by
  unfold State.readDone
  split <;> simp

@[simp] theorem State.getWritten_ids (s : State) (k ord : Nat) (fr : Frag) (poison : Bool) (count : Nat)
    (err : Bool) :
    (s.getWritten k ord fr poison count err).ids = s.ids := by
  unfold State.getWritten
  split <;> simp

@[simp] theorem State.rmemDone_ids (s : State) (k ord outcome : Nat) : (s.rmemDone k ord outcome).ids = s.ids := by
  unfold State.rmemDone
  split <;> simp

@[simp] theorem State.writeDone_ids (s : State) (j : WrJob) : (s.writeDone j).ids = s.ids := by
  unfold State.writeDone
  split <;> simp

@[simp] theorem State.readGot_ids (s : State) (id : Nat) (grans : List (Nat × Gran)) :
    (s.readGot id grans).ids = s.ids := by
  simp [State.readGot]

@[simp] theorem State.readPart_ids (s : State) (id : Nat) (err : Bool) : (s.readPart id err).ids = s.ids := by
  unfold State.readPart
  split <;> simp

@[simp] theorem State.writePart_ids (s : State) (id : Nat) (err : Bool) : (s.writePart id err).ids = s.ids := by
  unfold State.writePart
  split <;> simp

@[simp] theorem State.atcDrop_ids (s : State) (p : AtcEntry → Bool) : (s.atcDrop p).ids = s.ids := by
  simp [State.atcDrop]

@[simp] theorem State.wrAtcCfg_ids (s : State) (priv : Bool) (d : Word) : (s.wrAtcCfg priv d).ids = s.ids := by
  simp [State.wrAtcCfg]

/-! ### Host ports -/

@[simp] theorem State.moved_ids (s : State) (i : Nat) : (s.moved i).ids = s.ids := by simp [State.moved]
@[simp] theorem State.hmFlag_ids (s : State) (p i : Nat) : (s.hmFlag p i).ids = s.ids := by simp [State.hmFlag]
@[simp] theorem State.hmErr_ids (s : State) (p lo : Nat) : (s.hmErr p lo).ids = s.ids := by simp [State.hmErr]

@[simp] theorem State.hmProto_ids (s : State) (p atype master addr : Nat) :
    (s.hmProto p atype master addr).ids = s.ids := by
  simp [State.hmProto]

@[simp] theorem State.hmReadEnd_ids (s : State) (p tag : Nat) (job : Nat) (err : Bool) :
    (s.hmReadEnd p tag job err).ids = s.ids := by
  simp [State.hmReadEnd]

@[simp] theorem State.hmBeat_ids (s : State) (p : Nat) (x : RdBeat) (r : RdOut) : (s.hmBeat p x r).ids = s.ids := by
  simp [State.hmBeat]

@[simp] theorem State.raRespond_ids (s : State) (p tag : Nat) (wr : Bool) (out : Nat) (data : BitVec 2048) :
    (s.raRespond p tag wr out data).ids = s.ids := by
  simp [State.raRespond]

@[simp] theorem State.raSend_ids (s : State) (p : Nat) (wr : Bool) (x : RaAccess) :
    (s.raSend p wr x).ids = s.ids := by
  simp [State.raSend]

@[simp] theorem State.raAccept_ids (s : State) (p : Nat) (wr : Bool) (x : RaAccess) :
    (s.raAccept p wr x).ids = s.ids := by
  unfold State.raAccept
  dsimp only
  repeat' split
  all_goals simp

@[simp] theorem State.raRelease_ids (s : State) : s.raRelease.ids = s.ids := by
  refine State.ids_foldl (fun t p => ?_) _ _
  split
  · rfl
  · simp

@[simp] theorem State.raOffer_ids (s : State) (p : Nat) (wr : Bool) (x : RaAccess) :
    (s.raOffer p wr x).ids = s.ids := by
  simp [State.raOffer]

@[simp] theorem State.raEnd_ids (s : State) (p : Nat) (l : RaLoad) (out : Nat) (data : BitVec 2048) (quar : Bool) :
    (s.raEnd p l out data quar).ids = s.ids := by
  simp [State.raEnd]

@[simp] theorem State.wrTallyHi_ids (s : State) (n : Nat) (d : Word) : (s.wrTallyHi n d).ids = s.ids := by
  simp [State.wrTallyHi]

@[simp] theorem State.wrWatchCtl_ids (s : State) (w : Nat) (d : Word) : (s.wrWatchCtl w d).ids = s.ids := by
  simp [State.wrWatchCtl]

@[simp] theorem State.wrWatchVal_ids (s : State) (w : Nat) (f : Watch → Watch) : (s.wrWatchVal w f).ids = s.ids := by
  simp [State.wrWatchVal]

/-! ### Packets accepted -/

@[simp] theorem State.pktCap_ids (s : State) (kind reason port : Nat) (p : Packet) :
    (s.pktCap kind reason port p).ids = s.ids := by
  simp [State.pktCap]

@[simp] theorem State.pktBad_ids (s : State) (h : Held) {cnt : Nat} (code kind reason : Nat) (inj : Bool)
    (atype : Nat)
    (hc : 0x34 ≤ cnt) : (s.pktBad h cnt code kind reason inj atype).ids = s.ids := by
  simp [State.pktBad, hc]

@[simp] theorem State.checked_ids (s : State) (h : Held) : (s.checked h).2.ids = s.ids := by
  unfold State.checked
  extract_lets p armed want bad s0 s1 s2
  have h1 : s1.ids = s.ids := by simp [s1, s0]
  have h2 : s2.ids = s.ids := by simp [s2, h1]
  split
  · simp [h1]
  · split <;> simp [h1, h2]

theorem State.fenceAnswer_ids {s t : State} {p : Packet} (h : s.fenceAnswer p = some t) : t.ids = s.ids := by
  unfold State.fenceAnswer at h
  repeat' split at h
  all_goals cases h <;> simp

@[simp] theorem State.take_ids (s : State) (i : Nat) {body : State → Held → State}
    (h : ∀ t f, (body t f).ids = t.ids) :
   (s.take i body).ids = s.ids := by
  unfold State.take
  split
  · rfl
  · dsimp only
    split
    · simp
    · split
      · next hu => rw [State.fenceAnswer_ids hu]; simp
      · rw [h]
        simp

@[simp] theorem State.serveIf_ids (s : State) (a : Acc) (p : Packet) {f : State → State}
    (h : ∀ t, (f t).ids = t.ids) :
   (s.serveIf a p f).ids = s.ids := by
  unfold State.serveIf
  dsimp only
  split
  · simp
  · split <;> simp [h]

@[simp] theorem State.stale_ids (s : State) (h : Held) : (s.stale h).ids = s.ids := by simp [State.stale]

@[simp] theorem State.freeSlot_ids (s : State) (k : Nat) (x : Slot) : (s.freeSlot k x).ids = s.ids := by
  simp [State.freeSlot]

@[simp] theorem State.slotRsp_ids (s : State) (x : Held) {body : State → Nat → Slot → Flight → State}
    (h : ∀ t k x f, (body t k x f).ids = t.ids) :
   (s.slotRsp x body).ids = s.ids := by
  unfold State.slotRsp
  dsimp only
  repeat' split
  all_goals simp [h]

@[simp] theorem State.raRsp_ids (s : State) (h : Held) (f : RaLoad → Nat × BitVec 2048) :
    (s.raRsp h f).ids = s.ids := by
  unfold State.raRsp
  dsimp only
  repeat' split
  all_goals simp

@[simp] theorem State.rsp_ids (s : State) (ctx : Nat) (x : Held) {own : State → State}
    (h : ∀ t, (own t).ids = t.ids) :
   (s.rsp ctx x own).ids = s.ids := by
  unfold State.rsp
  dsimp only
  repeat' split
  all_goals simp [h]

@[simp] theorem State.chanRsp_ids (s : State) (x : Held) {body : State → Nat → Slot → Flight → State}
    (h : ∀ t k x f, (body t k x f).ids = t.ids) :
   (s.chanRsp x body).ids = s.ids := by
  simp [State.chanRsp, h]

@[simp] theorem State.raNak_ids (s : State) (p : Packet) : (s.raNak p).ids = s.ids := by simp [State.raNak]

/-! ### Hops, towpaths and berths -/

@[simp] theorem State.unhold_ids (s : State) (place i : Nat) (h : Held) : (s.unhold place i h).ids = s.ids := by
  simp [State.unhold]

@[simp] theorem State.setHeld_ids (s : State) (place i : Nat) (h : Held) : (s.setHeld place i h).ids = s.ids := by
  simp [State.setHeld]

@[simp] theorem State.routeDrop_ids (s : State) (a : Nat) : (s.routeDrop a).ids = s.ids := by
  simp (disch := omega) [State.routeDrop]

@[simp] theorem State.hopDrop_ids (s : State) (place i : Nat) (h : Held) (why : Nat) :
    (s.hopDrop place i h why).ids = s.ids := by
  unfold State.hopDrop
  split <;> simp (disch := omega)

@[simp] theorem State.modCmap_ids (s : State) (q : Nat) (f : CmapAcc → CmapAcc) : (s.modCmap q f).ids = s.ids := by
  simp [State.modCmap]

@[simp] theorem State.notePeak_ids (s : State) (q v : Nat) : (s.notePeak q v).ids = s.ids := by simp [State.notePeak]
@[simp] theorem State.spend_ids (s : State) (q v : Nat) : (s.spend q v).ids = s.ids := by simp [State.spend]

@[simp] theorem State.noteSlot_ids (s : State) (p : Packet) (q : Nat) : (s.noteSlot p q).ids = s.ids := by
  simp [State.noteSlot]

@[simp] theorem State.xbarError_ids (s : State) (x : Nat) (inj : Bool) : (s.xbarError x inj).ids = s.ids := by
  simp [State.xbarError]

@[simp] theorem State.crossing_ids (s : State) (hit : Option XbarHit) : (s.crossing hit).2.ids = s.ids := by
  unfold State.crossing
  dsimp only
  split <;> simp

@[simp] theorem State.towBegin_ids (s : State) (q t : Nat) (h : Held) : (s.towBegin q t h).2.ids = s.ids := by
  simp [State.towBegin]

@[simp] theorem State.towFlit_ids (s : State) (q t place i : Nat) (h0 : Held) :
    (s.towFlit q t place i h0).ids = s.ids := by
  simp [State.towFlit]

@[simp] theorem State.frame_ids (n q keep : Nat) (s : State) : (State.frame n q keep s).ids = s.ids := by
  induction n generalizing s with
  | zero => rfl
  | succ n ih =>
    unfold State.frame
    repeat' split
    all_goals simp [ih]

@[simp] theorem State.towRun_ids (n : Nat) (begun : Bool) (q t : Nat) (s : State) :
    (State.towRun n begun q t s).ids = s.ids := by
  induction n generalizing s begun with
  | zero => rfl
  | succ n ih =>
    unfold State.towRun
    dsimp only
    repeat' split
    all_goals simp [ih]

@[simp] theorem State.useVc_ids (s : State) (q v : Nat) : (s.useVc q v).ids = s.ids := by simp [State.useVc]
@[simp] theorem State.mgtDrop_ids (s : State) : s.mgtDrop.ids = s.ids := by simp [State.mgtDrop]

@[simp] theorem State.hopEject_ids (s : State) (place i : Nat) (h : Held) (hit : Option XbarHit) :
    (s.hopEject place i h hit).ids = s.ids := by
  simp [State.hopEject]

@[simp] theorem State.hopTurned_ids (s : State) (place i : Nat) (h : Held) : (s.hopTurned place i h).ids = s.ids := by
  simp [State.hopTurned]

@[simp] theorem State.keyRefused_ids (s : State) (place i : Nat) (h : Held) (q : Nat) :
    (s.keyRefused place i h q).ids = s.ids := by
  simp (disch := omega) [State.keyRefused]

@[simp] theorem State.xbarCut_ids (s : State) (q : Nat) (h : Held) (b : Option Nat) :
    (s.xbarCut q h b).2.ids = s.ids := by
  simp [State.xbarCut]

@[simp] theorem State.goOn_ids (s : State) (place i : Nat) (h : Held) (q v : Nat) :
    (s.goOn place i h q v).ids = s.ids := by
  simp [State.goOn]

@[simp] theorem State.hopLeave_ids (s : State) (place i : Nat) (h : Held) (q v : Nat) (enter : Bool)
    (hit : Option XbarHit) :
    (s.hopLeave place i h q v enter hit).ids = s.ids := by
  simp [State.hopLeave]

@[simp] theorem State.hopTow_ids (s : State) (place i : Nat) (h : Held) (q t : Nat) (hit : Option XbarHit) :
    (s.hopTow place i h q t hit).ids = s.ids := by
  simp [State.hopTow]

@[simp] theorem State.hopCopy_ids (s : State) (place i : Nat) (h : Held) : (s.hopCopy place i h).ids = s.ids := by
  simp [State.hopCopy]

@[simp] theorem State.berthEcc_ids (s : State) (place : Nat) : (s.berthEcc place).2.ids = s.ids := by
  simp [State.berthEcc]

@[simp] theorem State.tableEcc_ids (s : State) (place : Nat) (h : Held) (f : Fate) :
    (s.tableEcc place h f).2.ids = s.ids := by
  simp [State.tableEcc]

@[simp] theorem State.hopHead_ids (s : State) (place i : Nat) (h : Held) (hit : Option XbarHit) :
    (s.hopHead place i h hit).ids = s.ids := by
  unfold State.hopHead
  dsimp only
  split
  · rfl
  · split
    · simp
    · have hu := State.tableEcc_ids (s.berthEcc place).2 place h (s.fate place h)
      rw [State.berthEcc_ids] at hu
      split <;> next heq => rw [heq] at hu; simpa using hu

@[simp] theorem State.hop_ids (s : State) (place i : Nat) (hit : Option XbarHit) :
    (s.hop place i hit).ids = s.ids := by
  unfold State.hop
  dsimp only
  repeat' split
  all_goals simp

@[simp] theorem State.towEnable_ids (s : State) (t : Nat) : (s.towEnable t).ids = s.ids := by simp [State.towEnable]
@[simp] theorem State.towDrain_ids (s : State) (t : Nat) : (s.towDrain t).ids = s.ids := by simp [State.towDrain]

@[simp] theorem State.towDisable_ids (s : State) (t : Nat) : (s.towDisable t).ids = s.ids := by
  unfold State.towDisable
  split <;> simp

@[simp] theorem State.wrTowEn_ids (s : State) (t : Nat) (priv : Bool) (d : Word) :
    (s.wrTowEn t priv d).ids = s.ids := by
  simp [State.wrTowEn]

/-! ### Aborts of a partition -/

@[simp] theorem State.ctlPop_ids (s : State) (p : Nat) : (s.ctlPop p).ids = s.ids := by simp [State.ctlPop]
@[simp] theorem State.discardStreams_ids (s : State) : s.discardStreams.ids = s.ids := by simp [State.discardStreams]

@[simp] theorem State.raLoadsEnd_ids (s : State) (outcome : Nat) (quar : Bool) :
    (s.raLoadsEnd outcome quar).ids = s.ids := by
  simp [State.raLoadsEnd]

@[simp] theorem State.collsAbort_ids (s : State) : s.collsAbort.ids = s.ids := by simp [State.collsAbort]

@[simp] theorem State.towsReset_ids (s : State) : s.towsReset.ids = s.ids := by
  unfold State.towsReset
  refine (State.ids_foldl (fun t x => ?_) _ _).trans ?_
  · dsimp only
    repeat' split
    all_goals simp (disch := omega)
  · simp (disch := omega)

@[simp] theorem State.reinsReset_ids (s : State) : s.reinsReset.ids = s.ids := by simp [State.reinsReset]

@[simp] theorem State.timersHeld_ids (s : State) (d : Nat) : (s.timersHeld d).ids = s.ids := by
  unfold State.timersHeld
  dsimp only
  refine (State.ids_foldl (fun _ _ => by simp) _ _).trans ((State.ids_foldl (fun _ _ => by simp) _ _).trans ?_)
  refine (State.ids_foldl (fun t p => State.ids_foldl (fun t v => ?_) _ _) _ _).trans ?_
  · split <;> simp
  · refine (State.ids_foldl (fun _ _ => ?_) _ _).trans (State.ids_foldl (fun _ _ => ?_) _ _) <;> simp

@[simp] theorem State.haltEnd_ids (s : State) : s.haltEnd.ids = s.ids := by simp [State.haltEnd]
@[simp] theorem State.portsHeld_ids (s : State) : s.portsHeld.ids = s.ids := by simp [State.portsHeld]

@[simp] theorem State.genEffects_ids (s : State) (gen : Byte) : (s.genEffects gen).ids = s.ids := by
  simp [State.genEffects]

@[simp] theorem State.stepTime_ids (s : State) : s.stepTime.ids = s.ids := by simp [State.stepTime]

@[simp] theorem State.abortSaid_ids (s : State) (x : PendStep) : (s.abortSaid x).ids = s.ids := by
  simp [State.abortSaid]

@[simp] theorem State.stepNow_ids (s : State) : s.stepNow.ids = s.ids := by
  unfold State.stepNow
  split <;> simp

@[simp] theorem State.fwdAbort_ids (s : State) (from_ key gen orig reason hops : Nat) :
    (s.fwdAbort from_ key gen orig reason hops).ids = s.ids := by
  simp [State.fwdAbort]

@[simp] theorem State.setRecov_ids (s : State) : s.setRecov.ids = s.ids := by simp [State.setRecov]

@[simp] theorem State.acceptAbort_ids (s : State) (from_ : Nat) (x : PendStep) (forward : Bool) :
    (s.acceptAbort from_ x forward).ids = s.ids := by
  simp [State.acceptAbort]

@[simp] theorem State.originAbort_ids (s : State) (reason : Nat) : (s.originAbort reason).ids = s.ids := by
  simp [State.originAbort]

@[simp] theorem State.judgeAbort_ids (s : State) (p gen orig reason hops : Nat) :
    (s.judgeAbort p gen orig reason hops).ids = s.ids := by
  simp [State.judgeAbort]

@[simp] theorem State.passAbort_ids (s : State) (p key gen orig reason hops : Nat) :
    (s.passAbort p key gen orig reason hops).ids = s.ids := by
  simp [State.passAbort]

@[simp] theorem State.wrPart_ids (s : State) (priv : Bool) (d : Word) : (s.wrPart priv d).ids = s.ids := by
  simp [State.wrPart]

@[simp] theorem State.wrAbortCtl_ids (s : State) (priv : Bool) (d : Word) : (s.wrAbortCtl priv d).ids = s.ids := by
  simp [State.wrAbortCtl]

/-! ### Link training and control flits -/

@[simp] theorem State.haltJoin_ids (s : State) (p : Nat) : (s.haltJoin p).ids = s.ids := by simp [State.haltJoin]

@[simp] theorem State.linkFault_ids (s : State) (p code cause : Nat) (inj : Bool) :
    (s.linkFault p code cause inj).ids = s.ids := by
  simp [State.linkFault]

@[simp] theorem State.linkRetry_ids (s : State) (p code reason : Nat) : (s.linkRetry p code reason).ids = s.ids := by
  simp [State.linkRetry]

@[simp] theorem State.peerFenced_ids (s : State) (p : Nat) : (s.peerFenced p).ids = s.ids := by
  simp [State.peerFenced]

@[simp] theorem State.replayEcc_ids (s : State) (p : Nat) : (s.replayEcc p).2.ids = s.ids := by simp [State.replayEcc]

@[simp] theorem State.replayFrom_ids (p : Nat) (fs : List TxFlit) (s : State) :
    (State.replayFrom p fs s).ids = s.ids := by
  induction fs generalizing s with
  | nil => rfl
  | cons f fs ih => simp [State.replayFrom, ih]

@[simp] theorem State.replayAll_ids (s : State) (p : Nat) : (s.replayAll p).ids = s.ids := by simp [State.replayAll]

@[simp] theorem State.startReplay_ids (s : State) (p : Nat) : (s.startReplay p).ids = s.ids := by
  unfold State.startReplay
  dsimp only
  split <;> simp

@[simp] theorem State.takeAck_ids (s : State) (p a : Nat) (nak : Bool) : (s.takeAck p a nak).ids = s.ids := by
  unfold State.takeAck
  dsimp only
  split <;> simp

@[simp] theorem State.noteStall_ids (s : State) (p v : Nat) : (s.noteStall p v).ids = s.ids := by
  unfold State.noteStall
  split <;> simp

@[simp] theorem State.takeCredit_ids (s : State) (p v cnt : Nat) : (s.takeCredit p v cnt).ids = s.ids := by
  simp [State.takeCredit]

@[simp] theorem State.takeTowCredit_ids (s : State) (p t cnt : Nat) : (s.takeTowCredit p t cnt).ids = s.ids := by
  simp [State.takeTowCredit]

@[simp] theorem State.takeFence_ids (s : State) (p team : Nat) (on : Bool) : (s.takeFence p team on).ids = s.ids := by
  simp [State.takeFence]

@[simp] theorem State.takeTag_ids (s : State) (p team tag : Nat) : (s.takeTag p team tag).ids = s.ids := by
  simp [State.takeTag]

@[simp] theorem State.freeBerth_ids (s : State) (p v : Nat) : (s.freeBerth p v).ids = s.ids := by
  simp [State.freeBerth]

@[simp] theorem State.refuseHead_ids (s : State) (p : Nat) (h : Held) : (s.refuseHead p h).ids = s.ids := by
  simp [State.refuseHead]

@[simp] theorem State.holdHead_ids (s : State) (p tagVc : Nat) (h : Held) : (s.holdHead p tagVc h).ids = s.ids := by
  unfold State.holdHead
  repeat' split
  all_goals simp

@[simp] theorem State.firstIn_ids (s : State) (p tag : Nat) (body : BitVec 2048) :
    (s.firstIn p tag body).ids = s.ids := by
  simp [State.firstIn]

@[simp] theorem State.dataIn_ids (s : State) (p tag : Nat) (body : BitVec 2048) :
    (s.dataIn p tag body).ids = s.ids := by
  simp [State.dataIn]

@[simp] theorem State.ctlIn_ids (s : State) (p kind : Nat) (body : BitVec 2048) :
    (s.ctlIn p kind body).ids = s.ids := by
  simp [State.ctlIn]

@[simp] theorem State.fecCount_ids (s : State) (p : Nat) (f : RxFlit) : (s.fecCount p f).ids = s.ids := by
  simp [State.fecCount]

@[simp] theorem State.rxBad_ids (s : State) (p : Nat) (f : RxFlit) (seq : Bool) : (s.rxBad p f seq).ids = s.ids := by
  simp [State.rxBad]

@[simp] theorem State.seqIn_ids (s : State) (p tag : Nat) (body : BitVec 2048) :
    (s.seqIn p tag body).ids = s.ids := by
  simp [State.seqIn]

@[simp] theorem State.retryDropped_ids (s : State) (p : Nat) : (s.retryDropped p).ids = s.ids := by
  simp [State.retryDropped]

@[simp] theorem State.linkUp_ids (s : State) (p b came : Nat) : (s.linkUp p b came).ids = s.ids := by
  simp [State.linkUp]

@[simp] theorem State.linkBack_ids (s : State) (p b : Nat) : (s.linkBack p b).ids = s.ids := by
  unfold State.linkBack
  split <;> simp

@[simp] theorem State.lnkIgn_ids (s : State) (p : Nat) : (s.lnkIgn p).ids = s.ids := by simp [State.lnkIgn]

@[simp] theorem State.linkEn_ids (s : State) (p : Nat) : (s.linkEn p).ids = s.ids := by
  unfold State.linkEn
  dsimp only
  split <;> simp

@[simp] theorem State.linkDis_ids (s : State) (p : Nat) : (s.linkDis p).ids = s.ids := by
  unfold State.linkDis
  split <;> simp

@[simp] theorem State.wrLnkCtl_ids (s : State) (p : Nat) (priv : Bool) (d : Word) :
    (s.wrLnkCtl p priv d).ids = s.ids := by
  simp [State.wrLnkCtl]

@[simp] theorem State.wrPortKey_ids (s : State) (p off : Nat) (priv : Bool) (d : Word) :
    (s.wrPortKey p off priv d).ids = s.ids := by
  simp [State.wrPortKey]

/-! ### The global halt and the progress monitors -/

@[simp] theorem State.haltEnter_ids (s : State) (key id : Nat) : (s.haltEnter key id).ids = s.ids := by
  simp [State.haltEnter]

@[simp] theorem State.haltGo_ids (s : State) (id : Nat) : (s.haltGo id).2.ids = s.ids := by simp [State.haltGo]
@[simp] theorem State.haltRelease_ids (s : State) : s.haltRelease.2.ids = s.ids := by simp [State.haltRelease]

@[simp] theorem State.wrHaltCtl_ids (s : State) (priv : Bool) (d : Word) : (s.wrHaltCtl priv d).ids = s.ids := by
  simp [State.wrHaltCtl]

@[simp] theorem State.hangSaid_ids (s : State) (mon kind inst vc : Nat) {reg : Nat} (bit code fi : Nat)
    (h : 0x34 ≤ reg) :
    (s.hangSaid mon kind inst vc reg bit code fi).ids = s.ids := by
  simp [State.hangSaid, h]

@[simp] theorem State.watchHost_ids (s : State) : s.watchHost.ids = s.ids := by simp [State.watchHost]

/-! ### Reduction units -/

@[simp] theorem State.modUnit_ids (s : State) (u : Nat) (f : RUnit → RUnit) : (s.modUnit u f).ids = s.ids := by
  simp [State.modUnit]

@[simp] theorem State.unitTry_ids (s : State) (u : Nat) : (s.unitTry u).ids = s.ids := by simp [State.unitTry]
@[simp] theorem State.unitOff_ids (s : State) (u : Nat) : (s.unitOff u).ids = s.ids := by simp [State.unitOff]

@[simp] theorem State.unitDrain_ids (s : State) (u : Nat) : (s.unitDrain u).ids = s.ids := by
  unfold State.unitDrain
  split <;> simp

@[simp] theorem State.unitsSettle_ids (s : State) : s.unitsSettle.ids = s.ids := by
  refine State.ids_foldl (fun t u => ?_) _ _
  split <;> simp

@[simp] theorem State.wrSpare_ids (s : State) (n : Nat) : (s.wrSpare n).ids = s.ids := by simp [State.wrSpare]

@[simp] theorem State.wrUnitEn_ids (s : State) (u : Nat) (on : Bool) : (s.wrUnitEn u on).ids = s.ids := by
  unfold State.wrUnitEn
  dsimp only
  repeat' split
  all_goals simp

@[simp] theorem State.wrRuCtl_ids (s : State) (priv : Bool) (d : Word) : (s.wrRuCtl priv d).ids = s.ids := by
  simp [State.wrRuCtl]

@[simp] theorem State.wrRuStat_ids (s : State) (u : Nat) (d : Word) : (s.wrRuStat u d).ids = s.ids := by
  simp [State.wrRuStat]

@[simp] theorem State.resCount_ids (s : State) (u : Nat) : (s.resCount u).ids = s.ids := by
  simp (disch := omega) [State.resCount]

@[simp] theorem State.unitsNone_ids (s : State) : s.unitsNone.ids = s.ids := by simp [State.unitsNone]
@[simp] theorem State.spareIn_ids (s : State) (u : Nat) : (s.spareIn u).ids = s.ids := by simp [State.spareIn]
@[simp] theorem State.unitOn_ids (s : State) (u : Nat) : (s.unitOn u).ids = s.ids := by simp [State.unitOn]

@[simp] theorem State.residue_ids (s : State) (u g : Nat) (inj : Bool) : (s.residue u g inj).ids = s.ids := by
  simp [State.residue]

/-! ### Lanes and teams -/

@[simp] theorem State.modLane_ids (s : State) (t i : Nat) (f : Lane → Lane) : (s.modLane t i f).ids = s.ids := by
  simp [State.modLane]

@[simp] theorem State.teamIgn_ids (s : State) (t : Nat) : (s.teamIgn t).ids = s.ids := by simp [State.teamIgn]

@[simp] theorem State.sendFrame_ids (s : State) (t i : Nat) : (s.sendFrame t i).ids = s.ids := by
  simp [State.sendFrame]

@[simp] theorem State.attemptFailed_ids (s : State) (t : Nat) : (s.attemptFailed t).ids = s.ids := by
  simp [State.attemptFailed]

@[simp] theorem State.attempt_ids (s : State) (t : Nat) : (s.attempt t).ids = s.ids := by simp [State.attempt]

@[simp] theorem State.decideTeam_ids (s : State) (t : Nat) : (s.decideTeam t).ids = s.ids := by
  unfold State.decideTeam
  dsimp only
  split <;> simp

@[simp] theorem State.markDrop_ids (s : State) (p t : Nat) : (s.markDrop p t).ids = s.ids := by simp [State.markDrop]

@[simp] theorem State.dropComplete_ids (s : State) (p t : Nat) : (s.dropComplete p t).ids = s.ids := by
  simp [State.dropComplete]

@[simp] theorem State.lastLost_ids (s : State) (p : Nat) : (s.lastLost p).ids = s.ids := by simp [State.lastLost]

@[simp] theorem State.teamUnusable_ids (s : State) (t : Nat) : (s.teamUnusable t).ids = s.ids := by
  simp [State.teamUnusable]

@[simp] theorem State.addComplete_ids (s : State) (p t : Nat) : (s.addComplete p t).ids = s.ids := by
  simp [State.addComplete]

@[simp] theorem State.teamBack_ids (s : State) (p t : Nat) : (s.teamBack p t).ids = s.ids := by simp [State.teamBack]

@[simp] theorem State.callSpare_ids (s : State) (t lane : Nat) (atOnce : Bool) :
    (s.callSpare t lane atOnce).ids = s.ids := by
  simp [State.callSpare]

@[simp] theorem State.spareIsBad_ids (s : State) (t : Nat) : (s.spareIsBad t).ids = s.ids := by
  simp [State.spareIsBad]

@[simp] theorem State.judgeTeam_ids (s0 : State) (t : Nat) : (s0.judgeTeam t).ids = s0.ids := by
  unfold State.judgeTeam
  dsimp only
  repeat' split
  all_goals simp

@[simp] theorem State.swapDone_ids (s : State) (t lane : Nat) : (s.swapDone t lane).ids = s.ids := by
  simp [State.swapDone]

@[simp] theorem State.wrTeamCfg_ids (s : State) (t : Nat) (priv : Bool) (d : Word) :
    (s.wrTeamCfg t priv d).ids = s.ids := by
  simp [State.wrTeamCfg]

@[simp] theorem State.swSwap_ids (s : State) (t lane : Nat) : (s.swSwap t lane).ids = s.ids := by simp [State.swSwap]
@[simp] theorem State.swRetry_ids (s : State) (t : Nat) : (s.swRetry t).ids = s.ids := by simp [State.swRetry]

@[simp] theorem State.wrTeamCtl_ids (s : State) (t : Nat) (d : Word) : (s.wrTeamCtl t d).ids = s.ids := by
  simp [State.wrTeamCtl]

@[simp] theorem State.prbsEnter_ids (s : State) (t : Nat) : (s.prbsEnter t).ids = s.ids := by simp [State.prbsEnter]

@[simp] theorem State.sendPattern_ids (s : State) (t : Nat) : (s.sendPattern t).ids = s.ids := by
  simp [State.sendPattern]

@[simp] theorem State.wrPrbs_ids (s : State) (t : Nat) (priv : Bool) (d : Word) :
    (s.wrPrbs t priv d).ids = s.ids := by
  simp [State.wrPrbs]

@[simp] theorem State.sealMap_ids (s : State) : s.sealMap.ids = s.ids := by
  unfold State.sealMap
  dsimp only
  repeat' split
  all_goals simp

@[simp] theorem State.wrHarness_ids (s : State) (priv : Bool) (d : Word) : (s.wrHarness priv d).ids = s.ids := by
  simp [State.wrHarness]

@[simp] theorem State.wrMap_ids (s : State) (off : Nat) (priv : Bool) (d : Word) :
    (s.wrMap off priv d).ids = s.ids := by
  simp [State.wrMap]

@[simp] theorem State.wrFom_ids (s : State) (off : Nat) (priv : Bool) (d : Word) :
    (s.wrFom off priv d).ids = s.ids := by
  simp [State.wrFom]

/-! ### The management core -/

@[simp] theorem State.ramWrite_ids (s : State) (off : Nat) (bs : List Byte) : (s.ramWrite off bs).ids = s.ids := by
  simp [State.ramWrite]

@[simp] theorem State.ramZero_ids (s : State) (lo hi : Nat) : (s.ramZero lo hi).ids = s.ids := by simp [State.ramZero]

@[simp] theorem State.setFw_ids (s : State) (m : McMode) (f : FwSt) : (s.setFw m f).ids = s.ids := by
  simp [State.setFw]

@[simp] theorem State.sayExpert_ids (s : State) : s.sayExpert.ids = s.ids := by simp [State.sayExpert]
@[simp] theorem State.closeExpert_ids (s : State) : s.closeExpert.ids = s.ids := by simp [State.closeExpert]
@[simp] theorem State.disown_ids (s : State) : s.disown.ids = s.ids := by simp [State.disown]

@[simp] theorem State.mbDone_ids (s : State) (status : Nat) (ws : List Word) : (s.mbDone status ws).ids = s.ids := by
  unfold State.mbDone
  split <;> simp

@[simp] theorem State.startFw_ids (s : State) : s.startFw.ids = s.ids := by simp [State.startFw]
@[simp] theorem State.restartFw_ids (s : State) : s.restartFw.ids = s.ids := by simp [State.restartFw]

/-! ### Faults -/

@[simp] theorem State.sayPins_ids (s : State) (old : Bool) : (s.sayPins old).ids = s.ids := by simp [State.sayPins]
@[simp] theorem State.dropWaiting_ids (s : State) : s.dropWaiting.ids = s.ids := by simp [State.dropWaiting]
@[simp] theorem State.dropServed_ids (s : State) : s.dropServed.ids = s.ids := by simp [State.dropServed]
@[simp] theorem State.freezeLogs_ids (s : State) : s.freezeLogs.ids = s.ids := by simp [State.freezeLogs]
@[simp] theorem State.enterDiag_ids (s0 : State) : s0.enterDiag.ids = s0.ids := by simp [State.enterDiag]
@[simp] theorem State.enterFault_ids (s : State) : s.enterFault.ids = s.ids := by simp [State.enterFault]
@[simp] theorem State.leaveF2_ids (s : State) : s.leaveF2.ids = s.ids := by simp [State.leaveF2]

@[simp] theorem State.fltEvent_ids (s : State) (ev code inst raised taken : Nat) :
    (s.fltEvent ev code inst raised taken).ids = s.ids := by
  simp [State.fltEvent]

@[simp] theorem State.capture_ids (s : State) (r : Raise) (taken : Nat) : (s.capture r taken).ids = s.ids := by
  have hf (t : State) (c : Collector) : ({ t with flt := c } : State).ids = t.ids := rfl
  unfold State.capture
  extract_lets seq f s0 f0 rmode w0 ws s1 f1 s2 f2
  have h2 : s2.ids = s.ids := (hf s1 _).trans ((State.setRegs_ids s0 8 _ (by omega)).trans (hf s _))
  split
  · exact (hf s0 _).trans (hf s _)
  · split
    · exact (State.fltEvent_ids ..).trans ((hf s2 _).trans h2)
    · exact h2

@[simp] theorem State.takeRaise_ids (s : State) (r : Raise) : (s.takeRaise r).ids = s.ids := by
  unfold State.takeRaise
  extract_lets x before was3 pins st0
  split
  extract_lets x1 s1 s2 s3 cap s3' src s4 s5 s6
  have h2 : s2.ids = s.ids :=
    (State.incReg_ids _ (by omega)).trans ((State.orReg_ids _ _ (by omega)).trans (by simp [s1]))
  have h3 : s3'.ids = s.ids := by simp [s3', s3, h2]
  have h4 : s4.ids = s.ids := by simp [s4, h3]
  have h5 : s5.ids = s.ids := by simp [s5, h4]
  have h6 : s6.ids = s.ids := by simp [s6, h5]
  split <;> simp [h6]

@[simp] theorem State.ack_ids (s : State) (code inst raises : Nat) : (s.ack code inst raises).2.ids = s.ids := by
  simp [State.ack]

@[simp] theorem State.wrFltAck_ids (s : State) (priv : Bool) (d : Word) : (s.wrFltAck priv d).ids = s.ids := by
  simp [State.wrFltAck]

@[simp] theorem State.startDone_ids (s : State) : s.startDone.ids = s.ids := by simp [State.startDone]

@[simp] theorem State.wrFltCtl_ids (s : State) (priv : Bool) (d : Word) : (s.wrFltCtl priv d).ids = s.ids := by
  simp [State.wrFltCtl]

/-- A read of a map cut down to the indices that `which` takes. -/
theorem SMap.get_filter {α : Type} (d : Nat → α) (m : SMap α) (which : Nat → Bool) (k : Nat) :
    SMap.get d (m.filter (fun e => which e.1)) k = if which k then SMap.get d m k else d k := by
  induction m with
  | nil => simp [SMap.get]
  | cons e m ih =>
    obtain ⟨i, v⟩ := e
    rw [List.filter_cons]
    by_cases hik : i = k
    · subst hik
      cases hw : which i <;> simp [SMap.get, ih, hw]
    · split <;> simp [SMap.get, ih, hik]

theorem idWords_filter {rg : SMap Word} {which : Nat → Bool} (h : ∀ e ∈ identityRegs, which e.1 = true) :
    idWords (rg.filter (fun e => which e.1)) = idWords rg :=
  List.map_congr_left fun e he => by rw [SMap.get_filter, if_pos (h e he)]

theorem idWords_filter_not {rg : SMap Word} {which : Nat → Bool} (h : ∀ e ∈ identityRegs, which e.1 = false) :
    idWords (rg.filter (fun e => which e.1)) = idWords [] :=
  List.map_congr_left fun e he => by rw [SMap.get_filter, if_neg (by simp [h e he])]; rfl

@[simp] theorem State.wrCrec_ids (s : State) (d : Word) : (s.wrCrec d).ids = s.ids := by
  unfold State.wrCrec
  split
  · exact idWords_filter (which := fun o => !(decide (0x2800 ≤ o) && decide (o < 0x3000))) (by decide)
  · rfl

@[simp] theorem State.railInj_ids (s : State) (code inst : Nat) : (s.railInj code inst).ids = s.ids := by
  simp [State.railInj]

@[simp] theorem State.wrFltInj_ids (s : State) (priv : Bool) (d : Word) : (s.wrFltInj priv d).ids = s.ids := by
  simp [State.wrFltInj]

/-! ### Banked and staged tables -/

@[simp] theorem State.groupReset_ids (s : State) (g : Nat) : (s.groupReset g).ids = s.ids := by
  unfold State.groupReset
  split <;> simp

@[simp] theorem State.epochIgn_ids (s : State) : s.epochIgn.ids = s.ids := by simp [State.epochIgn]
@[simp] theorem State.towTry_ids (s : State) (t : Nat) : (s.towTry t).ids = s.ids := by simp [State.towTry]

@[simp] theorem State.towSwapped_ids (s : State) (t : Nat) : (s.towSwapped t).ids = s.ids := by
  simp [State.towSwapped]

@[simp] theorem State.installWord_ids (s : State) (off : Nat) (w : Word) : (s.installWord off w).ids = s.ids := by
  unfold State.installWord
  dsimp only
  repeat' split
  all_goals simp

@[simp] theorem State.wrTable_ids (s : State) (off : Nat) (priv : Bool) (d : Word) :
    (s.wrTable off priv d).ids = s.ids := by
  simp [State.wrTable]

@[simp] theorem State.swapTables_ids (s : State) (epoch : Bool) : (s.swapTables epoch).ids = s.ids := by
  simp [State.swapTables]

@[simp] theorem State.dropStaging_ids (s : State) : s.dropStaging.ids = s.ids := by simp [State.dropStaging]

@[simp] theorem State.wrChip_ids (s : State) (priv : Bool) (d : Word) : (s.wrChip priv d).ids = s.ids := by
  simp [State.wrChip]

@[simp] theorem State.wrPartLim_ids (s : State) (hi priv : Bool) (d : Word) :
    (s.wrPartLim hi priv d).ids = s.ids := by
  simp [State.wrPartLim]

@[simp] theorem State.wrTorus_ids (s : State) (priv : Bool) (d : Word) : (s.wrTorus priv d).ids = s.ids := by
  simp [State.wrTorus]

@[simp] theorem State.wrPfence_ids (s : State) (priv : Bool) (d : Word) : (s.wrPfence priv d).ids = s.ids := by
  simp [State.wrPfence]

/-! ### Logbooks, congestion maps and the lifetime record -/

@[simp] theorem State.logLost_ids (s : State) (n k : Nat) : (s.logLost n k).ids = s.ids := by simp [State.logLost]
@[simp] theorem State.logStart_ids (s : State) (n : Nat) : (s.logStart n).ids = s.ids := by simp [State.logStart]

@[simp] theorem State.logOff_ids (s : State) (n : Nat) (lose : Bool) : (s.logOff n lose).ids = s.ids := by
  simp [State.logOff]

@[simp] theorem State.logDrained_ids (s : State) (n : Nat) : (s.logDrained n).ids = s.ids := by
  simp [State.logDrained]

@[simp] theorem State.logEn_ids (s : State) (n : Nat) (on : Bool) : (s.logEn n on).ids = s.ids := by
  unfold State.logEn
  dsimp only
  split <;> simp

@[simp] theorem State.logWrite_ids (s0 : State) (n k : Nat) : (s0.logWrite n k).ids = s0.ids := by
  simp [State.logWrite]

@[simp] theorem State.wrLogCtl_ids (s : State) (n : Nat) (priv : Bool) (d : Word) :
    (s.wrLogCtl n priv d).ids = s.ids := by
  simp [State.wrLogCtl]

@[simp] theorem State.wrLogWin_ids (s : State) (priv : Bool) (d : Word) : (s.wrLogWin priv d).ids = s.ids := by
  unfold State.wrLogWin
  exact (State.setRegs_ids _ _ _ (by omega)).trans (State.plainWrite_ids _ _ _ _)

@[simp] theorem State.cmapRecord_ids (s : State) (p idx : Nat) : (s.cmapRecord p idx).ids = s.ids := by
  simp [State.cmapRecord]

@[simp] theorem State.lifeInc64_ids (s : State) (off : Nat) : (s.lifeInc64 off).ids = s.ids := by
  have h (t : State) (l : LifeRec) : ({ t with life := l } : State).ids = t.ids := rfl
  unfold State.lifeInc64
  exact (h _ _).trans (h _ _)

@[simp] theorem State.lifeSnap_ids (s : State) : s.lifeSnap.ids = s.ids := by simp [State.lifeSnap]
@[simp] theorem State.lifeOpen_ids (s : State) : s.lifeOpen.ids = s.ids := by simp [State.lifeOpen]

@[simp] theorem State.lifeCommit_ids (s : State) : s.lifeCommit.ids = s.ids := by
  have h (t : State) (l : LifeRec) : ({ t with life := l } : State).ids = t.ids := rfl
  unfold State.lifeCommit
  split
  · rfl
  · split
    · rfl
    · exact (h _ _).trans ((State.ids_foldl (fun _ _ => h _ _) _ _).trans (State.ids_foldl (fun _ _ => h _ _) _ _))

@[simp] theorem State.wrLifeCtl_ids (s : State) (d : Word) : (s.wrLifeCtl d).ids = s.ids := by simp [State.wrLifeCtl]

@[simp] theorem State.wrLifeBody_ids (s : State) (off : Nat) (d : Word) : (s.wrLifeBody off d).ids = s.ids := by
  simp [State.wrLifeBody]

/-! ### Power and resets -/

@[simp] theorem State.base_ids (s : State) : s.base.ids = idWords [] := rfl

/-- What a reset keeps lies elsewhere. -/
theorem State.keepRegs_ids (s t : State) {which : Nat → Bool} (h : ∀ e ∈ identityRegs, which e.1 = false) :
    (s.keepRegs t which).ids = t.ids := by
  have hs : ∀ x ∈ s.rg.filter (fun x => which x.1), ∀ e ∈ identityRegs, e.1 ≠ x.1 := by
    intro x hx e he heq
    rw [List.mem_filter, ← heq, h e he] at hx
    exact absurd hx.2 (by decide)
  unfold State.keepRegs
  generalize s.rg.filter (fun x => which x.1) = l at hs
  induction l generalizing t with
  | nil => rfl
  | cons x l ih =>
    exact (ih (t.setReg x.1 x.2) fun y hy => hs y (List.mem_cons_of_mem _ hy)).trans
      (idWords_set fun e he heq => absurd heq (hs x List.mem_cons_self e he))

@[simp] theorem State.afterCold_ids (s : State) : s.afterCold.ids = idWords [] := by
  unfold State.afterCold
  extract_lets
  split
  · rfl
  · exact State.keepRegs_ids _ _ (by decide)

@[simp] theorem State.warmUnits_ids (s t : State) : (s.warmUnits t).ids = t.ids := by
  simp [State.warmUnits]

@[simp] theorem State.afterWarm_ids (s : State) : s.afterWarm.ids = idWords [] := by
  unfold State.afterWarm
  extract_lets _ _ _ _ _ _ t t1 t2 t3
  have h0 : t.ids = idWords [] := rfl
  have h1 : t1.ids = t.ids := State.keepRegs_ids s t (by decide)
  have h2 : t2.ids = t1.ids := by simp [t2]
  have h3 : t3.ids = t2.ids :=
    (State.ids_foldl (fun _ _ => State.putField_ids _ _ _ _ (by omega)) _ _).trans (by simp)
  rw [State.warmUnits_ids, h3, h2, h1, h0]

@[simp] theorem State.bootFw_ids (s : State) : s.bootFw.ids = s.ids := by simp [State.bootFw]
@[simp] theorem State.resetPins_ids (s : State) : s.resetPins.ids = s.ids := by simp [State.resetPins]
@[simp] theorem State.coldIdle_ids (s : State) : s.coldIdle.ids = s.ids := by simp [State.coldIdle]
@[simp] theorem State.holdTurn_ids (s : State) (was : Bool) : (s.holdTurn was).ids = s.ids := by simp [State.holdTurn]

@[simp] theorem State.warmRequest_ids (s : State) (cause : Nat) : (s.warmRequest cause).ids = s.ids := by
  simp [State.warmRequest]

@[simp] theorem State.wrResetCtl_ids (s : State) (priv : Bool) (d : Word) : (s.wrResetCtl priv d).ids = s.ids := by
  simp [State.wrResetCtl]

@[simp] theorem State.repairStat_ids (s : State) (r : SelfCheck) : (s.repairStat r).ids = s.ids :=
  idWords_set fun e he heq => absurd heq ((by decide : ∀ e ∈ identityRegs, e.1 ≠ 0x18) e he)

@[simp] theorem State.tap_ids (s : State) (inst : Byte) : (s.tap inst).ids = s.ids := by simp [State.tap]

/-! ### Time -/

@[simp] theorem State.wrTimeCfg_ids (s : State) (priv : Bool) (d : Word) : (s.wrTimeCfg priv d).ids = s.ids := by
  simp [State.wrTimeCfg]

@[simp] theorem State.steerBy_ids (s : State) (theta : Int) : (s.steerBy theta).ids = s.ids := by
  unfold State.steerBy
  split <;> simp

/-! ### I2C -/

@[simp] theorem State.setI2c_ids (s : State) (c : Nat) (x : Option I2cBusy) : (s.setI2c c x).ids = s.ids := by
  simp [State.setI2c]

@[simp] theorem State.setI2cData_ids (s : State) (c : Nat) (bs : List Byte) : (s.setI2cData c bs).ids = s.ids := by
  simp [State.setI2cData]

@[simp] theorem State.i2cDone_ids (s : State) (c result n : Nat) : (s.i2cDone c result n).ids = s.ids := by
  simp [State.i2cDone]

@[simp] theorem State.i2cGo_ids (s : State) (c : Nat) (mb : Option Asker) : (s.i2cGo c mb).ids = s.ids := by
  simp [State.i2cGo]

@[simp] theorem State.wrI2cCmd_ids (s : State) (c : Nat) (priv : Bool) (d : Word) :
    (s.wrI2cCmd c priv d).ids = s.ids := by
  simp [State.wrI2cCmd]

@[simp] theorem State.i2cPart_ids (s : State) (c n : Nat) (b : I2cBusy) : (s.i2cPart c n b).ids = s.ids := by
  simp [State.i2cPart]

@[simp] theorem State.i2cEnd_ids (s : State) (c : Nat) (b : I2cBusy) (r : I2cEnd) : (s.i2cEnd c b r).ids = s.ids := by
  unfold State.i2cEnd
  split <;> simp

/-! ### Register reads -/

@[simp] theorem State.latch_ids (s : State) (off : Nat) (w : Word) : (s.latch off w).ids = s.ids := by
  simp [State.latch]

@[simp] theorem State.latchCnt_ids (s : State) (k : Nat) (snap : Bool) : (s.latchCnt k snap).ids = s.ids := by
  simp [State.latchCnt]

@[simp] theorem State.readReg_ids (s : State) (off : Nat) : (s.readReg off).2.ids = s.ids := by
  unfold State.readReg
  split <;> simp

@[simp] theorem State.rgRead_ids (s : State) (off : Nat) (par : Bool) : (s.rgRead off par).ids = s.ids := by
  simp [State.rgRead]

/-! ### Register writes by address -/

@[simp] theorem State.wrFence_ids (s : State) (priv : Bool) (d : Word) : (s.wrFence priv d).ids = s.ids := by
  simp [State.wrFence]

@[simp] theorem State.wrFarCtl_ids (s : State) (priv : Bool) (d : Word) : (s.wrFarCtl priv d).ids = s.ids := by
  simp [State.wrFarCtl]

@[simp] theorem State.wrFarCmd_ids (s : State) (d : Word) : (s.wrFarCmd d).ids = s.ids := by simp [State.wrFarCmd]
@[simp] theorem State.mbIgn_ids (s : State) : s.mbIgn.ids = s.ids := by simp [State.mbIgn]
@[simp] theorem State.wrMbCtl_ids (s : State) (d : Word) : (s.wrMbCtl d).ids = s.ids := by simp [State.wrMbCtl]

@[simp] theorem State.wrMbReq_ids (s : State) {off : Nat} (d : Word) (h : 0x34 ≤ off) :
    (s.wrMbReq off d).ids = s.ids := by
  simp [State.wrMbReq, h]

@[simp] theorem State.wrWide_ids (s : State) {off : Nat} (d : Word) (h : 0x38 ≤ off) :
    (s.wrWide off d).ids = s.ids := by
  have h4 : 0x34 ≤ off - 4 := by omega
  have h0 : 0x34 ≤ off := by omega
  simp [State.wrWide, h4, h0]

@[simp] theorem State.wrShadow_ids (s : State) (off : Nat) (d : Word) : (s.wrShadow off d).ids = s.ids := by
  simp [State.wrShadow]

@[simp] theorem State.wrSeedHi_ids (s : State) (priv : Bool) (d : Word) : (s.wrSeedHi priv d).ids = s.ids := by
  simp [State.wrSeedHi]

@[simp] theorem State.wrRing_ids (s : State) (k off : Nat) (priv : Bool) (d : Word) :
    (s.wrRing k off priv d).ids = s.ids := by
  simp [State.wrRing]

@[simp] theorem State.wrCmark_ids (s : State) (priv : Bool) (d : Word) : (s.wrCmark priv d).ids = s.ids := by
  simp [State.wrCmark]

@[simp] theorem State.wrRein_ids (s : State) (priv : Bool) (d : Word) : (s.wrRein priv d).ids = s.ids := by
  simp [State.wrRein]

@[simp] theorem State.wrBasin_ids (s : State) (off : Nat) (priv : Bool) (d : Word) :
    (s.wrBasin off priv d).ids = s.ids := by
  simp [State.wrBasin]

@[simp] theorem State.writeLow_ids (s : State) (off : Nat) (priv : Bool) (d : Word) :
    (s.writeLow off priv d).ids = s.ids := by
  unfold State.writeLow
  split <;> simp

@[simp] theorem State.writeFault_ids (s : State) (off : Nat) (priv : Bool) (d : Word) :
    (s.writeFault off priv d).ids = s.ids := by
  simp [State.writeFault]

@[simp] theorem State.writeChan_ids (s : State) (k r : Nat) (priv : Bool) (d : Word) :
    (s.writeChan k r priv d).ids = s.ids := by
  simp [State.writeChan]

@[simp] theorem State.writeWatch_ids (s : State) (w r : Nat) (d : Word) : (s.writeWatch w r d).ids = s.ids := by
  unfold State.writeWatch
  split <;> simp

@[simp] theorem State.writeMid_ids (s : State) (off : Nat) (priv : Bool) (d : Word) :
    (s.writeMid off priv d).ids = s.ids := by
  have h (c : Prop) [Decidable c] (hc : c → 0xF100 ≤ off ∧ off < 0xF200) :
      (if c then s.wrMbReq off d else s.plainWrite off priv d).ids = s.ids := by
    split
    · next h => exact State.wrMbReq_ids s d (by have := hc h; omega)
    · simp
  unfold State.writeMid
  split
  · simp
  · split <;> simp
  · simp
  · split
    all_goals simp [h _ id]

@[simp] theorem State.writeObs_ids (s : State) {off : Nat} (priv : Bool) (d : Word) (h : 0x38 ≤ off) :
    (s.writeObs off priv d).ids = s.ids := by
  unfold State.writeObs
  split <;> simp [h]

@[simp] theorem State.writeReg_ids (s : State) (off : Nat) (priv : Bool) (d : Word) :
    (s.writeReg off priv d).ids = s.ids := by
  by_cases h : 0x38 ≤ off
  · simp [State.writeReg, h]
  · have hlow : off < 0x1000 := by omega
    simp [State.writeReg, hlow]

/-! ### Farriers -/

@[simp] theorem State.sayFarrier_ids (s : State) : s.sayFarrier.ids = s.ids := by simp [State.sayFarrier]
@[simp] theorem State.farOpen_ids (s : State) (ps : List Nat) : (s.farOpen ps).ids = s.ids := by simp [State.farOpen]

@[simp] theorem State.farAnswer_ids (s : State) (c : FarCmd) (status d0 d1 : Nat) :
    (s.farAnswer c status d0 d1).ids = s.ids := by
  unfold State.farAnswer
  split <;> simp

@[simp] theorem State.resetMc_ids (s : State) : s.resetMc.ids = s.ids := by simp [State.resetMc]

/-! ### Management packets -/

@[simp] theorem State.mgtSend_ids (s : State) (m : TreeMsg) (who : Option Asker) : (s.mgtSend m who).ids = s.ids := by
  simp [State.mgtSend]

@[simp] theorem State.mgtResend_ids (s : State) (m : MgtOut) : (s.mgtResend m).ids = s.ids := by
  simp [State.mgtResend]

@[simp] theorem State.mgtRespond_ids (s : State) (p : Packet) (bs : List Byte) : (s.mgtRespond p bs).ids = s.ids := by
  simp [State.mgtRespond]

@[simp] theorem State.mgtReply_ids (s : State) (p : Packet) (ws : List Word) : (s.mgtReply p ws).ids = s.ids := by
  simp [State.mgtReply]

@[simp] theorem State.answerAsk_ids (s : State) (who : Asker) (status : Nat) (ws : List Word) :
    (s.answerAsk who status ws).ids = s.ids := by
  unfold State.answerAsk
  split <;> simp

@[simp] theorem State.treePut_ids (s : State) (m : TreeMsg) : (s.treePut m).ids = s.ids := by simp [State.treePut]
@[simp] theorem State.pumpTree_ids (s : State) : s.pumpTree.ids = s.ids := by simp [State.pumpTree]

/-! ### Table cycles and management trees -/

@[simp] theorem State.modPart_ids (s : State) (f : LockPart → LockPart) : (s.modPart f).ids = s.ids := by
  simp [State.modPart]

@[simp] theorem State.sayLock_ids (s : State) : s.sayLock.ids = s.ids := by simp [State.sayLock]

@[simp] theorem State.sendDown_ids (s : State) (p : LockPart) (msg : Nat) (ws : List Word) :
    (s.sendDown p msg ws).ids = s.ids := by
  simp [State.sendDown]

@[simp] theorem State.gather_ids (s : State) (wave : Nat) (a : TreeAgg) : (s.gather wave a).ids = s.ids := by
  simp [State.gather]

@[simp] theorem State.takeoverHere_ids (s : State) (failed spare : Nat) (same : Bool) (pos : Nat) :
    (s.takeoverHere failed spare same pos).ids = s.ids := by
  unfold State.takeoverHere
  extract_lets s1
  have h1 : s1.ids = s.ids := State.ids_foldl (fun t p => by dsimp only; split <;> simp) _ _
  split <;> simp [h1]

@[simp] theorem State.stageHere_ids (s : State) (ws : List Word) : (s.stageHere ws).ids = s.ids := by
  unfold State.stageHere
  split <;> simp

@[simp] theorem State.sealHere_ids (s : State) : s.sealHere.ids = s.ids := by simp [State.sealHere]
@[simp] theorem State.lockHere_ids (s : State) : s.lockHere.ids = s.ids := by simp [State.lockHere]

@[simp] theorem State.countHere_ids (s : State) : s.countHere.ids = s.ids := by
  unfold State.countHere
  split <;> simp

@[simp] theorem State.towsOff_ids (s : State) (key : Nat) : (s.towsOff key).ids = s.ids := by simp [State.towsOff]
@[simp] theorem State.swapNow_ids (s : State) (p : LockPart) : (s.swapNow p).ids = s.ids := by simp [State.swapNow]

@[simp] theorem State.swapTurn_ids (s : State) : s.swapTurn.ids = s.ids := by
  unfold State.swapTurn
  split <;> simp

@[simp] theorem State.swapHere_ids (s : State) (epoch : Bool) : (s.swapHere epoch).ids = s.ids := by
  unfold State.swapHere
  split <;> simp

@[simp] theorem State.swapLate_ids (s : State) : s.swapLate.ids = s.ids := by
  unfold State.swapLate
  split <;> simp

@[simp] theorem State.unlock_ids (s : State) (keep : Bool) : (s.unlock keep).ids = s.ids := by simp [State.unlock]
@[simp] theorem State.releaseHere_ids (s : State) : s.releaseHere.ids = s.ids := by simp [State.releaseHere]

@[simp] theorem State.waveHere_ids (s : State) (msg : Nat) (ws : List Word) : (s.waveHere msg ws).ids = s.ids := by
  unfold State.waveHere
  split <;> simp

@[simp] theorem State.wave_ids (s : State) (msg : Nat) (ws : List Word) : (s.wave msg ws).ids = s.ids := by
  unfold State.wave
  split <;> simp

@[simp] theorem State.freeWords_ids (s : State) (n : Nat) : (s.freeWords n).2.ids = s.ids := by simp [State.freeWords]

@[simp] theorem State.sayImg_ids (s : State) (status first : Nat) : (s.sayImg status first).ids = s.ids := by
  simp [State.sayImg]

@[simp] theorem State.leadEnd_ids (s : State) (l : Lead) (status : Nat) (ws : List Word) :
    (s.leadEnd l status ws).ids = s.ids := by
  unfold State.leadEnd
  dsimp only
  split <;> simp

@[simp] theorem State.swapWave_ids (s : State) (l : Lead) (epoch : Bool) : (s.swapWave l epoch).ids = s.ids := by
  unfold State.swapWave
  split <;> simp

@[simp] theorem State.leadStep_ids (s : State) (l : Lead) (p : LockPart) : (s.leadStep l p).ids = s.ids := by
  simp [State.leadStep]

@[simp] theorem State.reportUp_ids (s : State) (p : LockPart) : (s.reportUp p).ids = s.ids := by simp [State.reportUp]

@[simp] theorem State.treeTurn_ids (n : Nat) (s : State) : (State.treeTurn n s).ids = s.ids := by
  induction n generalizing s with
  | zero => rfl
  | succ n ih =>
    unfold State.treeTurn
    repeat' split
    all_goals simp [ih]

@[simp] theorem State.leadSeal_ids (s : State) : s.leadSeal.ids = s.ids := by
  unfold State.leadSeal
  split <;> simp

@[simp] theorem State.treeGo_ids (s : State) : s.treeGo.ids = s.ids := by simp [State.treeGo]

@[simp] theorem State.swapSettle_ids (s : State) : s.swapSettle.ids = s.ids := by
  unfold State.swapSettle
  split <;> simp

@[simp] theorem State.leadRound_ids (s : State) : s.leadRound.ids = s.ids := by
  unfold State.leadRound
  split <;> simp

@[simp] theorem State.leadStart_ids (s : State) (use : LeadUse) (who : Asker) :
    (s.leadStart use who).ids = s.ids := by
  simp [State.leadStart]

theorem State.joinPart_ids {s t : State} {p : Packet} {msg : Nat} (h : s.joinPart p msg = some t) :
    t.ids = s.ids := by
  have hm (u : State) (c : Core) : ({ u with mc := c } : State).ids = u.ids := rfl
  unfold State.joinPart at h
  dsimp only at h
  repeat' split at h
  all_goals cases h
  · simp
  · exact hm s _
  · exact hm s _

@[simp] theorem State.refuseUp_ids (s : State) (p : Packet) : (s.refuseUp p).ids = s.ids := by simp [State.refuseUp]

@[simp] theorem State.treeDown_ids (s : State) (h : Held) (msg : Nat) : (s.treeDown h msg).ids = s.ids := by
  unfold State.treeDown
  extract_lets p gen s0 s1
  have h0 : s0.ids = s.ids := State.mgtReply_ids s p []
  have h1 : s1.ids = s.ids := by simp [s1, h0]
  split
  · next hj => simp [State.joinPart_ids hj, h1]
  · simp [h1]

-- By an equation of functions: the equation that `unfold` proves, of their values, is too deep for the kernel.
@[simp] theorem State.treeUp_ids (s : State) (h : Held) (wave : Nat) : (s.treeUp h wave).ids = s.ids := by
  have ids_of_eq {f g : State → Held → Nat → State} (hfg : f = g) (hg : (g s h wave).ids = s.ids) :
      (f s h wave).ids = s.ids := hfg ▸ hg
  refine ids_of_eq (f := State.treeUp) (by delta State.treeUp; exact rfl) ?_
  extract_lets p s1
  have h1 : s1.ids = s.ids := State.mgtReply_ids s p []
  clear_value s1
  split
  · simp [h1]
  · split
    · split
      simp [h1]
    · simp [h1]

@[simp] theorem State.spareJoin_ids (s : State) (p : Packet) (failed former pos : Nat) :
    (s.spareJoin p failed former pos).ids = s.ids := by
  unfold State.spareJoin
  dsimp only
  split <;> simp

@[simp] theorem State.spareHere_ids (s : State) (p : Packet) (ws : List Word) : (s.spareHere p ws).ids = s.ids := by
  unfold State.spareHere
  split <;> simp

@[simp] theorem State.sendSpare_ids (s : State) (failed spare : Nat) (same : Bool) (pos : Nat) (rs : List Rec) :
    (s.sendSpare failed spare same pos rs).ids = s.ids := by
  unfold State.sendSpare
  split <;> simp

@[simp] theorem State.childSilent_ids (s : State) (o : MgtOut) : (s.childSilent o).ids = s.ids := by
  unfold State.childSilent
  split <;> simp

@[simp] theorem State.peerSilent_ids (s : State) (o : MgtOut) : (s.peerSilent o).ids = s.ids := by
  unfold State.peerSilent
  dsimp only
  repeat' split
  all_goals simp

/-! ### Firmware -/

@[simp] theorem State.mbNonce_ids (s : State) (who : Asker) (a0 : List Word) : (s.mbNonce who a0).ids = s.ids := by
  simp [State.mbNonce]

@[simp] theorem State.mbExpertOn_ids (s : State) (who : Asker) (ws : List Word) :
    (s.mbExpertOn who ws).ids = s.ids := by
  simp [State.mbExpertOn]

@[simp] theorem State.mbExpertOff_ids (s : State) (who : Asker) (a0 : List Word) :
    (s.mbExpertOff who a0).ids = s.ids := by
  simp [State.mbExpertOff]

@[simp] theorem State.mbFwBegin_ids (s : State) (who : Asker) (ws : List Word) :
    (s.mbFwBegin who ws).ids = s.ids := by
  simp [State.mbFwBegin]

@[simp] theorem State.mbFwChunk_ids (s : State) (who : Asker) (ws : List Word) :
    (s.mbFwChunk who ws).ids = s.ids := by
  simp [State.mbFwChunk]

@[simp] theorem State.fwFail_ids (s : State) (who : Asker) (status : Nat) : (s.fwFail who status).ids = s.ids := by
  simp [State.fwFail]

@[simp] theorem State.mbFwCommit_ids (s : State) (who : Asker) (a0 : List Word) :
    (s.mbFwCommit who a0).ids = s.ids := by
  unfold State.mbFwCommit
  dsimp only
  repeat' split
  all_goals simp

/-! ### Images -/

@[simp] theorem State.mbImgBegin_ids (s : State) (who : Asker) (ws : List Word) :
    (s.mbImgBegin who ws).ids = s.ids := by
  simp [State.mbImgBegin]

@[simp] theorem State.mbImgChunk_ids (s : State) (who : Asker) (ws : List Word) :
    (s.mbImgChunk who ws).ids = s.ids := by
  simp [State.mbImgChunk]

/-- Every state that `a` answers has the identity words of `s`. -/
def KeptOk (s : State) (a : Except Nat State) : Prop := ∀ t, a = .ok t → t.ids = s.ids

theorem KeptOk.error (s : State) (i : Nat) : KeptOk s (.error i) := by
  intro t h
  simp at h
theorem KeptOk.ok {s t : State} (h : t.ids = s.ids) : KeptOk s (.ok t) := by
  intro u hu
  rw [← Except.ok.inj hu, h]

theorem State.writeRecs_kept (s : State) (cls : Nat) (rs : List (Rec × Nat)) : KeptOk s (s.writeRecs cls rs) := by
  refine List.foldlRecOn rs _ (KeptOk.ok rfl) fun a ha r _ => ?_
  split
  · exact KeptOk.error s _
  · next t =>
    split
    · exact ha
    · refine List.foldlRecOn r.1.writes _ ha fun b hb e _ => ?_
      split
      · exact KeptOk.error s _
      · next u =>
        split
        · exact KeptOk.error s _
        · exact KeptOk.ok ((u.writeReg_ids _ _ _).trans (hb u rfl))

theorem State.writeRecs_ids {s t : State} {cls : Nat} {rs : List (Rec × Nat)} (h : s.writeRecs cls rs = .ok t) :
    t.ids = s.ids :=
  s.writeRecs_kept cls rs t h

@[simp] theorem State.imgDone_ids (s : State) (who : Asker) (status : Nat) : (s.imgDone who status).ids = s.ids := by
  simp [State.imgDone]

@[simp] theorem State.imgRefused_ids (s : State) (who : Asker) (index : Option Nat) :
    (s.imgRefused who index).ids = s.ids := by
  simp [State.imgRefused]

@[simp] theorem State.imgApplied_ids (s : State) (who : Asker) (m : Image) : (s.imgApplied who m).ids = s.ids := by
  simp [State.imgApplied]

@[simp] theorem State.applyStart_ids (s : State) (who : Asker) (m : Image) (rs : List (Rec × Nat)) :
    (s.applyStart who m rs).ids = s.ids := by
  unfold State.applyStart
  split
  · simp
  · split
    · simp
    · next ht =>
      split
      · simp
      · next hu => simp [State.writeRecs_ids hu, State.writeRecs_ids ht]

@[simp] theorem State.applyLocal_ids (s : State) (who : Asker) (m : Image) (rs : List (Rec × Nat)) :
    (s.applyLocal who m rs).ids = s.ids := by
  unfold State.applyLocal
  dsimp only
  split
  · simp
  · split
    · simp
    · split
      · simp
      · next hu => rw [State.imgApplied_ids, State.writeRecs_ids hu]; simp

@[simp] theorem State.applyDomain_ids (s : State) (who : Asker) (m : Image) (rs : List (Rec × Nat)) :
    (s.applyDomain who m rs).ids = s.ids := by
  simp [State.applyDomain]

@[simp] theorem State.mbImgApply_ids (s : State) (who : Asker) (ws : List Word) :
    (s.mbImgApply who ws).ids = s.ids := by
  unfold State.mbImgApply
  dsimp only
  repeat' split
  all_goals simp

@[simp] theorem State.mbImgDrop_ids (s : State) (who : Asker) (a0 : List Word) :
    (s.mbImgDrop who a0).ids = s.ids := by
  simp [State.mbImgDrop]

@[simp] theorem State.mbTableSwap_ids (s : State) (who : Asker) (a0 : List Word) :
    (s.mbTableSwap who a0).ids = s.ids := by
  simp [State.mbTableSwap]

@[simp] theorem State.mbTakeover_ids (s : State) (who : Asker) (ws : List Word) :
    (s.mbTakeover who ws).ids = s.ids := by
  unfold State.mbTakeover
  dsimp only
  repeat' split
  all_goals simp

/-! ### The mailbox -/

@[simp] theorem State.mbInfo_ids (s : State) (who : Asker) (a0 : List Word) : (s.mbInfo who a0).ids = s.ids := by
  simp [State.mbInfo]

@[simp] theorem State.mbPeek_ids (s : State) (who : Asker) (ws : List Word) : (s.mbPeek who ws).ids = s.ids := by
  unfold State.mbPeek
  dsimp only
  split
  · simp
  · refine (State.answerAsk_ids ..).trans ?_
    exact foldl_keeps (R := fun a b : List Word × State => b.2.ids = a.2.ids) (fun _ => rfl) (fun h k => k.trans h) _
      (fun a i => by simp) _ _

@[simp] theorem State.mbDiag_ids (s : State) (who : Asker) (a0 : List Word) : (s.mbDiag who a0).ids = s.ids := by
  simp [State.mbDiag]

@[simp] theorem State.mbPoke_ids (s : State) (who : Asker) (ws : List Word) : (s.mbPoke who ws).ids = s.ids := by
  simp [State.mbPoke]

@[simp] theorem State.mbAbort_ids (s : State) (who : Asker) (a0 : List Word) : (s.mbAbort who a0).ids = s.ids := by
  simp [State.mbAbort]

@[simp] theorem State.mbHalt_ids (s : State) (who : Asker) (ws : List Word) : (s.mbHalt who ws).ids = s.ids := by
  simp [State.mbHalt]

@[simp] theorem State.mbRelease_ids (s : State) (who : Asker) (a0 : List Word) :
    (s.mbRelease who a0).ids = s.ids := by
  simp [State.mbRelease]

@[simp] theorem State.mbFltAck_ids (s : State) (who : Asker) (ws : List Word) : (s.mbFltAck who ws).ids = s.ids := by
  simp [State.mbFltAck]

@[simp] theorem State.mbEnable_ids (s : State) (who : Asker) (ws : List Word) : (s.mbEnable who ws).ids = s.ids := by
  simp [State.mbEnable]

@[simp] theorem State.mbFence_ids (s : State) (who : Asker) (ws : List Word) : (s.mbFence who ws).ids = s.ids := by
  simp [State.mbFence]

@[simp] theorem State.mbStartDone_ids (s : State) (who : Asker) (a0 : List Word) :
    (s.mbStartDone who a0).ids = s.ids := by
  simp [State.mbStartDone]

@[simp] theorem State.mbTime_ids (s : State) (who : Asker) (open_ : Bool) (ws : List Word) :
    (s.mbTime who open_ ws).ids = s.ids := by
  simp [State.mbTime]

@[simp] theorem State.mbI2c_ids (s : State) (who : Asker) (ws : List Word) : (s.mbI2c who ws).ids = s.ids := by
  simp [State.mbI2c]

@[simp] theorem State.i2cTell_ids (s : State) (c : Nat) (b : I2cBusy) : (s.i2cTell c b).ids = s.ids := by
  unfold State.i2cTell
  split <;> simp

@[simp] theorem State.mbRemote_ids (s : State) (who : Asker) (ws : List Word) : (s.mbRemote who ws).ids = s.ids := by
  simp [State.mbRemote]

@[simp] theorem State.mbDo_ids (s : State) (who : Asker) (open_ : Bool) (ws : List Word) :
    (s.mbDo who open_ ws).ids = s.ids := by
  unfold State.mbDo
  split <;> simp

@[simp] theorem State.mbPerform_ids (s : State) (who : Asker) (mode : McMode) (open_ : Bool) (ws : List Word) :
    (s.mbPerform who mode open_ ws).ids = s.ids := by
  unfold State.mbPerform
  split <;> simp

@[simp] theorem State.mbFetch_ids (s : State) : s.mbFetch.ids = s.ids := by simp [State.mbFetch]
@[simp] theorem State.mbStart_ids (s : State) (r : MbReq) : (s.mbStart r).ids = s.ids := by simp [State.mbStart]

/-! ## What a command answers

A command runs under one of the forms below (`run`, a register access, the issue of a channel's command, a packet taken, …)
around a body of its own. Each form keeps the identity words when its body does. -/

/-- Every state that `o` answers has the identity words of `s`, or those of reset. -/
def Keeps (s : State) (o : Out) : Prop := ∀ t, o = .next t → t.ids = s.ids ∨ t.ids = idWords []

theorem Keeps.next {s t : State} (h : t.ids = s.ids ∨ t.ids = idWords []) : Keeps s (.next t) := by
  intro u hu
  rwa [← Host.Outcome.next.inj hu]

section FormsOfCommands

variable {s : State} {ok : Bool}

theorem runAny_reset {f : State → State} (h : ∀ t, (f t).ids = t.ids ∨ (f t).ids = idWords []) :
    Keeps s (runAny s ok f) := by
  refine Keeps.next ?_
  cases ok
  · exact .inl rfl
  · exact h { s with out := [] }

theorem runAny_keeps {f : State → State} (h : ∀ t, (f t).ids = t.ids) : Keeps s (runAny s ok f) :=
  runAny_reset fun t => .inl (h t)

theorem run_keeps {f : State → State} (h : ∀ t, (f t).ids = t.ids) : Keeps s (run s ok f) := runAny_keeps h

theorem regCmd_keeps {off : Nat} {a : RgAcc} {al : Bool} {f : State → Bool → Word → State}
    (h : ∀ t p d, (f t p d).ids = t.ids) : Keeps s (regCmd s ok off a f al) := by
  unfold regCmd
  split
  · exact run_keeps fun t => State.regWrite_ids t off a al h
  · exact runAny_keeps fun t => by simp

theorem readCmd_keeps {off : Nat} {par : Bool} : Keeps s (readCmd s ok off par) := by
  unfold readCmd
  split
  · exact run_keeps fun t => t.rgRead_ids off par
  · exact runAny_keeps fun t => by simp

theorem chanCmd_keeps {k : Nat} {row : CmdWord → Bool} {good : State → CmdWord → Bool} {body : State → Flight → State}
    (h : ∀ t f, (body t f).ids = t.ids) : Keeps s (chanCmd k row good body s) :=
  run_keeps fun t => State.startCmd_ids t k _ h

theorem collRow_keeps {k : Nat} {types : List Nat} : Keeps s (collRow k types s) :=
  run_keeps fun t => t.startCmd_ids k _ fun u f => u.collCmd_ids k f

theorem pktRow_keeps {i : Nat} {ops : List Nat} {body : State → Held → State} (h : ∀ t x, (body t x).ids = t.ids) :
    Keeps s (pktRow i ops body s) := run_keeps fun t => State.take_ids t i h

theorem ctlRow_keeps {p ctype : Nat} {body : State → Nat → State} (h : ∀ t b, (body t b).ids = t.ids) :
    Keeps s (ctlRow p ctype body s) := by
  refine run_keeps fun t => ?_
  split
  · rw [h, State.ctlPop_ids]
  · rfl

theorem i2cRow_keeps {c : Nat} {a : RgAcc} {op : Nat} : Keeps s (i2cRow s c a op) :=
  regCmd_keeps fun t p d => t.wrI2cCmd_ids c p d

theorem farRow_keeps {which : Nat → Bool} {body : State → FarCmd → State × Option (Nat × Nat × Nat)}
    (h : ∀ t c, (body t c).1.ids = t.ids) : Keeps s (farRow which body s) := by
  have hf (t : State) (x : Farrier) : ({ t with far := x } : State).ids = t.ids := rfl
  refine run_keeps fun t => ?_
  dsimp only
  split
  · rfl
  · next c rest _ =>
    repeat' split
    · simp
    · simp
    · simp
    · next heq =>
      have hu := (congrArg (fun x => x.1.ids) heq).symm.trans (h _ _)
      rw [State.farAnswer_ids, hu, hf, hf]
    · next heq =>
      have hu := (congrArg (fun x => x.1.ids) heq).symm.trans (h _ _)
      rw [hu, hf, hf]

theorem mgtRow_keeps {i : Nat} {sel : Nat → Nat → Bool} {body : State → Held → State}
    (h : ∀ t x, (body t x).ids = t.ids) :
    Keeps s (mgtRow i sel body s) := by
  refine run_keeps fun t => State.take_ids t i fun u x => ?_
  split
  · simp
  · split
    · simp
    · exact h u x

theorem treeDownRow_keeps {i msg : Nat} : Keeps s (treeDownRow i msg s) :=
  mgtRow_keeps fun t h => t.treeDown_ids h msg

theorem treeUpRow_keeps {i msg wave : Nat} : Keeps s (treeUpRow i msg wave s) :=
  mgtRow_keeps fun t h => t.treeUp_ids h wave

theorem mbRowOf_keeps {sel : List Word → Bool} : Keeps s (mbRowOf sel s) := by
  unfold mbRowOf
  split
  · exact run_keeps fun t => t.mbStart_ids _
  · exact run_keeps fun t => rfl

theorem mbRow_keeps {cmd : Nat} : Keeps s (mbRow cmd s) := mbRowOf_keeps

end FormsOfCommands

/-! ## The commands -/

/-! ### Commands: those of the channels -/

theorem execCpWord_keeps (port : Nat) (w : CmdWord) (crc : HWord) (s : State) : Keeps s (execCpWord port w crc s) :=
  run_keeps fun t => by simp

theorem execScalarWrite_keeps (k i : Nat) (a : RgAcc) (s : State) : Keeps s (execScalarWrite k i a s) :=
  regCmd_keeps fun t p d => by simp

theorem execCrConsWrite_keeps (k : Nat) (a : RgAcc) (s : State) : Keeps s (execCrConsWrite k a s) :=
  regCmd_keeps fun t p d => by simp

theorem execShapeCommit_keeps (e : Nat) (a : RgAcc) (s : State) : Keeps s (execShapeCommit e a s) :=
  regCmd_keeps fun t p d => by simp

theorem execNop_keeps (k : Nat) (s : State) : Keeps s (execNop k s) := chanCmd_keeps fun t f => by simp
theorem execMark_keeps (k : Nat) (s : State) : Keeps s (execMark k s) := chanCmd_keeps fun t f => by simp

theorem execTrace_keeps (k : Nat) (s : State) : Keeps s (execTrace k s) := by
  refine chanCmd_keeps fun t f => ?_
  dsimp only
  split <;> simp (disch := omega)

theorem execLoadsImm_keeps (k : Nat) (s : State) : Keeps s (execLoadsImm k s) := chanCmd_keeps fun t f => by simp
theorem execLoadsTally_keeps (k : Nat) (s : State) : Keeps s (execLoadsTally k s) := chanCmd_keeps fun t f => by simp
theorem execLoadsAdd_keeps (k : Nat) (s : State) : Keeps s (execLoadsAdd k s) := chanCmd_keeps fun t f => by simp
theorem execBadOp_keeps (k : Nat) (s : State) : Keeps s (execBadOp k s) := run_keeps fun t => by simp
theorem execFence_keeps (k : Nat) (s : State) : Keeps s (execFence k s) := chanCmd_keeps fun t f => by simp
theorem execWaitCmd_keeps (k : Nat) (s : State) : Keeps s (execWaitCmd k s) := chanCmd_keeps fun t f => by simp
theorem execRepeatLoop_keeps (k : Nat) (s : State) : Keeps s (execRepeatLoop k s) := chanCmd_keeps fun t f => by simp

theorem execEndLoop_keeps (k : Nat) (s : State) : Keeps s (execEndLoop k s) := by
  refine chanCmd_keeps fun t f => ?_
  split <;> simp

theorem execBranch_keeps (k : Nat) (s : State) : Keeps s (execBranch k s) := chanCmd_keeps fun t f => by simp
theorem execPut_keeps (k : Nat) (s : State) : Keeps s (execPut k s) := chanCmd_keeps fun t f => by simp
theorem execGet_keeps (k : Nat) (s : State) : Keeps s (execGet k s) := chanCmd_keeps fun t f => by simp
theorem execCopy_keeps (k : Nat) (s : State) : Keeps s (execCopy k s) := chanCmd_keeps fun t f => by simp
theorem execAtom_keeps (k : Nat) (s : State) : Keeps s (execAtom k s) := chanCmd_keeps fun t f => by simp
theorem execSignal_keeps (k : Nat) (s : State) : Keeps s (execSignal k s) := chanCmd_keeps fun t f => by simp
theorem execLoadsMem_keeps (k : Nat) (s : State) : Keeps s (execLoadsMem k s) := chanCmd_keeps fun t f => by simp

/-- The write of the record that `k` owes first, at `off` of its ring. -/
theorem State.recordWrite_ids (s : State) (k off : Nat) (owed : List Owed) :
    (match owed with
      | o :: rest =>
        let s1 := s.modChan k (fun c => { c with owed := { o with writing := true } :: rest })
        (match s1.checkRanges .wr [(off, 64)] with
        | some _ => s1.recordDone k o.ord false
        | none => (s1.startWrite (.record k o.ord) (wrGrans off (leBytes 64 o.image.toNat) 0) 0).2)
      | [] => s).ids = s.ids := by
  split
  · dsimp only
    split <;> simp
  · rfl

theorem execCompletionRecordWrite_keeps (k : Nat) (s : State) : Keeps s (execCompletionRecordWrite k s) :=
  run_keeps fun t => t.recordWrite_ids k _ _

theorem execChannelHang_keeps (k : Nat) (s : State) : Keeps s (execChannelHang k s) := run_keeps fun t => by simp

/-! ### Commands: packets of collectives -/

theorem execAllReduce_keeps (k : Nat) (s : State) : Keeps s (execAllReduce k s) := collRow_keeps
theorem execReduceScatter_keeps (k : Nat) (s : State) : Keeps s (execReduceScatter k s) := collRow_keeps
theorem execAllGather_keeps (k : Nat) (s : State) : Keeps s (execAllGather k s) := collRow_keeps
theorem execBroadcast_keeps (k : Nat) (s : State) : Keeps s (execBroadcast k s) := collRow_keeps
theorem execReduce_keeps (k : Nat) (s : State) : Keeps s (execReduce k s) := collRow_keeps
theorem execA2aCap_keeps (k : Nat) (s : State) : Keeps s (execA2aCap k s) := collRow_keeps
theorem execBarrier_keeps (k : Nat) (s : State) : Keeps s (execBarrier k s) := collRow_keeps
theorem execScalarAr_keeps (k : Nat) (s : State) : Keeps s (execScalarAr k s) := collRow_keeps

theorem execChannelEnable_keeps (k : Nat) (a : RgAcc) (s : State) : Keeps s (execChannelEnable k a s) :=
  regCmd_keeps fun t p d => by simp

theorem execChannelDisable_keeps (k : Nat) (a : RgAcc) (s : State) : Keeps s (execChannelDisable k a s) :=
  regCmd_keeps fun t p d => by simp

theorem execResume_keeps (k : Nat) (a : RgAcc) (s : State) : Keeps s (execResume k a s) :=
  regCmd_keeps fun t p d => by simp

theorem execChannelOn_keeps (k : Nat) (s : State) : Keeps s (execChannelOn k s) := run_keeps fun t => by simp

/-! ### Commands: requests served -/

theorem execAtomicPerform_keeps (s : State) : Keeps s (execAtomicPerform s) := run_keeps fun t => by simp
theorem execAtcHoldExpire_keeps (g : Nat) (s : State) : Keeps s (execAtcHoldExpire g s) := run_keeps fun t => by simp
theorem execAtcFlush_keeps (a : RgAcc) (s : State) : Keeps s (execAtcFlush a s) := regCmd_keeps fun t p d => by simp

/-! ### Commands: host ports -/

theorem execHmReadIssue_keeps (p : Nat) (s : State) : Keeps s (execHmReadIssue p s) := by
  unfold execHmReadIssue
  dsimp only
  split <;> exact run_keeps fun t => by simp

theorem execHmWriteIssue_keeps (p : Nat) (s : State) : Keeps s (execHmWriteIssue p s) := by
  refine run_keeps fun t => ?_
  split <;> simp

theorem execHmReadBeat_keeps (p : Nat) (x : RdBeat) (s : State) : Keeps s (execHmReadBeat p x s) := by
  refine run_keeps fun t => ?_
  dsimp only
  repeat' split
  all_goals simp

theorem execHmWriteResponse_keeps (p : Nat) (x : WrRsp) (s : State) : Keeps s (execHmWriteResponse p x s) := by
  refine run_keeps fun t => ?_
  dsimp only
  repeat' split
  all_goals simp

theorem execHmTimeout_keeps (p : Nat) (isWr : Bool) (tag : Nat) (s : State) :
    Keeps s (execHmTimeout p isWr tag s) := by
  refine run_keeps fun t => ?_
  repeat' split
  all_goals simp

theorem execFragmentIssue_keeps (k : Nat) (s : State) : Keeps s (execFragmentIssue k s) := by
  refine run_keeps fun t => ?_
  dsimp only
  rw [State.raRelease_ids, State.ids_foldl, State.issueStep_ids]
  intro u x
  repeat' split
  all_goals simp

theorem execRaLoad_keeps (p : Nat) (x : RaAccess) (s : State) : Keeps s (execRaLoad p x s) :=
  run_keeps fun t => by simp

theorem execRaStore_keeps (p : Nat) (x : RaAccess) (s : State) : Keeps s (execRaStore p x s) :=
  run_keeps fun t => by simp

theorem execRaRspTaken_keeps (p : Nat) (s : State) : Keeps s (execRaRspTaken p s) := by
  refine run_keeps fun t => ?_
  split <;> simp

theorem execRaLoadTimeout_keeps (p tag : Nat) (s : State) : Keeps s (execRaLoadTimeout p tag s) := by
  refine run_keeps fun t => ?_
  split <;> simp

theorem execEventTaken_keeps (s : State) : Keeps s (execEventTaken s) := by
  refine run_keeps fun t => ?_
  split <;> simp

theorem execTallyWrite_keeps (n : Nat) (a : RgAcc) (s : State) : Keeps s (execTallyWrite n a s) :=
  regCmd_keeps fun t p d => by simp

theorem execWatchArm_keeps (w : Nat) (a : RgAcc) (s : State) : Keeps s (execWatchArm w a s) :=
  regCmd_keeps fun t p d => by simp

theorem execWatchDisarm_keeps (w : Nat) (a : RgAcc) (s : State) : Keeps s (execWatchDisarm w a s) :=
  regCmd_keeps fun t p d => by simp

theorem execWatchEventEnqueue_keeps (w : Nat) (s : State) : Keeps s (execWatchEventEnqueue w s) := by
  refine run_keeps fun t => ?_
  split <;> simp

/-! ### Commands: packets accepted -/

theorem execWr_keeps (i : Nat) (s : State) : Keeps s (execWr i s) := run_keeps fun t => by simp
theorem execRd_keeps (i : Nat) (s : State) : Keeps s (execRd i s) := pktRow_keeps fun t h => by simp

theorem execRdRelay_keeps (i : Nat) (s : State) : Keeps s (execRdRelay i s) := by
  refine pktRow_keeps fun t h => State.serveIf_ids t _ _ fun u => ?_
  split
  · simp
  · split <;> simp

theorem execRaLd_keeps (i : Nat) (s : State) : Keeps s (execRaLd i s) := pktRow_keeps fun t h => by simp
theorem execRaSt_keeps (i : Nat) (s : State) : Keeps s (execRaSt i s) := pktRow_keeps fun t h => by simp
theorem execAtomPacket_keeps (i : Nat) (s : State) : Keeps s (execAtomPacket i s) := pktRow_keeps fun t h => by simp

theorem execSignalPacket_keeps (i : Nat) (s : State) : Keeps s (execSignalPacket i s) :=
  pktRow_keeps fun t h => by simp

theorem execRlyData_keeps (i : Nat) (s : State) : Keeps s (execRlyData i s) := pktRow_keeps fun t h => by simp
theorem execWrRsp_keeps (i : Nat) (s : State) : Keeps s (execWrRsp i s) := pktRow_keeps fun t h => by simp
theorem execSigRsp_keeps (i : Nat) (s : State) : Keeps s (execSigRsp i s) := pktRow_keeps fun t h => by simp
theorem execRdRsp_keeps (i : Nat) (s : State) : Keeps s (execRdRsp i s) := pktRow_keeps fun t h => by simp

theorem execRdData_keeps (i : Nat) (s : State) : Keeps s (execRdData i s) := by
  refine pktRow_keeps fun t h => State.chanRsp_ids t h fun u k x f => ?_
  dsimp only
  repeat' split
  all_goals simp

theorem execAtomRsp_keeps (i : Nat) (s : State) : Keeps s (execAtomRsp i s) := by
  refine pktRow_keeps fun t h => State.chanRsp_ids t h fun u k x f => ?_
  dsimp only
  repeat' split
  all_goals simp

theorem execRaData_keeps (i : Nat) (s : State) : Keeps s (execRaData i s) := by
  refine pktRow_keeps fun t h => ?_
  split <;> simp

theorem execRaRsp_keeps (i : Nat) (s : State) : Keeps s (execRaRsp i s) := by
  refine pktRow_keeps fun t h => ?_
  split <;> simp

theorem execColAck_keeps (i : Nat) (s : State) : Keeps s (execColAck i s) := by
  refine pktRow_keeps fun t h => State.rsp_ids t _ h fun u => ?_
  split <;> simp

theorem execColReady_keeps (i : Nat) (s : State) : Keeps s (execColReady i s) := pktRow_keeps fun t h => by simp
theorem execColData_keeps (i : Nat) (s : State) : Keeps s (execColData i s) := pktRow_keeps fun t h => by simp
theorem execColSlot_keeps (i : Nat) (s : State) : Keeps s (execColSlot i s) := pktRow_keeps fun t h => by simp
theorem execColDone_keeps (i : Nat) (s : State) : Keeps s (execColDone i s) := pktRow_keeps fun t h => by simp
theorem execColRel_keeps (i : Nat) (s : State) : Keeps s (execColRel i s) := pktRow_keeps fun t h => by simp
theorem execCollAbort_keeps (i : Nat) (s : State) : Keeps s (execCollAbort i s) := pktRow_keeps fun t h => by simp

/-! ### Commands: hops, towpaths and berths -/

theorem execPacketHop_keeps (place i : Nat) (x : Option XbarHit) (s : State) : Keeps s (execPacketHop place i x s) :=
  run_keeps fun t => by simp

theorem execReinIncrease_keeps (k : Nat) (s : State) : Keeps s (execReinIncrease k s) := run_keeps fun t => by simp

theorem execTowEnable_keeps (t : Nat) (a : RgAcc) (s : State) : Keeps s (execTowEnable t a s) :=
  regCmd_keeps fun t p d => by simp

theorem execTowDisable_keeps (t : Nat) (a : RgAcc) (s : State) : Keeps s (execTowDisable t a s) :=
  regCmd_keeps fun t p d => by simp

theorem execTowStarted_keeps (t : Nat) (s : State) : Keeps s (execTowStarted t s) := run_keeps fun t => by simp

theorem execTowStall_keeps (t : Nat) (s : State) : Keeps s (execTowStall t s) :=
  run_keeps fun u => by simp (disch := omega)

/-! ### Commands: aborts of a partition -/

theorem execAbortFlit_keeps (p : Nat) (s : State) : Keeps s (execAbortFlit p s) := ctlRow_keeps fun t b => by simp
theorem execGenerationStep_keeps (s : State) : Keeps s (execGenerationStep s) := run_keeps fun t => by simp
theorem execGenWrite_keeps (a : RgAcc) (s : State) : Keeps s (execGenWrite a s) := regCmd_keeps fun t p d => by simp
theorem execAbortGo_keeps (a : RgAcc) (s : State) : Keeps s (execAbortGo a s) := regCmd_keeps fun t p d => by simp

theorem execAbortPairExpire_keeps (key gen : Nat) (s : State) : Keeps s (execAbortPairExpire key gen s) :=
  run_keeps fun t => by simp

/-! ### Commands: link training and control flits -/

theorem execSeqFlitReceive_keeps (p : Nat) (f : RxFlit) (s : State) : Keeps s (execSeqFlitReceive p f s) :=
  run_keeps fun t => by simp

theorem execTagReceive_keeps (p : Nat) (f : RxFlit) (s : State) : Keeps s (execTagReceive p f s) :=
  run_keeps fun t => by simp

theorem execReplayTimeout_keeps (p : Nat) (s : State) : Keeps s (execReplayTimeout p s) := run_keeps fun t => by simp

theorem execLinkParam_keeps (p : Nat) (s : State) : Keeps s (execLinkParam p s) := by
  unfold execLinkParam
  refine ctlRow_keeps fun t b => ?_
  dsimp only
  repeat' split
  all_goals simp

theorem execLinkParamSend_keeps (p : Nat) (s : State) : Keeps s (execLinkParamSend p s) := run_keeps fun t => by simp

theorem execLinkTrainTimeout_keeps (p : Nat) (s : State) : Keeps s (execLinkTrainTimeout p s) :=
  run_keeps fun t => by simp

theorem execRetrainTimeout_keeps (p : Nat) (s : State) : Keeps s (execRetrainTimeout p s) :=
  run_keeps fun t => by simp

theorem execLinkDrainTimeout_keeps (p : Nat) (s : State) : Keeps s (execLinkDrainTimeout p s) :=
  run_keeps fun t => by simp

theorem execRetrain_keeps (p : Nat) (s : State) : Keeps s (execRetrain p s) := ctlRow_keeps fun t b => by simp

theorem execLinkEnable_keeps (p : Nat) (a : RgAcc) (s : State) : Keeps s (execLinkEnable p a s) :=
  regCmd_keeps fun t p d => by simp

theorem execLinkDisable_keeps (p : Nat) (a : RgAcc) (s : State) : Keeps s (execLinkDisable p a s) :=
  regCmd_keeps fun t p d => by simp

theorem execLinkRetrainWrite_keeps (p : Nat) (a : RgAcc) (s : State) : Keeps s (execLinkRetrainWrite p a s) :=
  regCmd_keeps fun t p d => by simp

theorem execLnkInjArm_keeps (p : Nat) (a : RgAcc) (s : State) : Keeps s (execLnkInjArm p a s) :=
  regCmd_keeps fun t p d => by simp

/-! ### Commands: the global halt and the progress monitors -/

theorem execHaltGo_keeps (a : RgAcc) (s : State) : Keeps s (execHaltGo a s) := regCmd_keeps fun t p d => by simp

theorem execHaltRelease_keeps (a : RgAcc) (s : State) : Keeps s (execHaltRelease a s) :=
  regCmd_keeps fun t p d => by simp

theorem execHaltMark_keeps (p : Nat) (s : State) : Keeps s (execHaltMark p s) := ctlRow_keeps fun t b => by simp
theorem execHaltRel_keeps (p : Nat) (s : State) : Keeps s (execHaltRel p s) := ctlRow_keeps fun t b => by simp
theorem execHalted_keeps (s : State) : Keeps s (execHalted s) := run_keeps fun t => by simp
theorem execHaltTimeout_keeps (s : State) : Keeps s (execHaltTimeout s) := run_keeps fun t => by simp

theorem execSnapSelect_keeps (a : RgAcc) (s : State) : Keeps s (execSnapSelect a s) :=
  regCmd_keeps fun t p d => by simp

theorem execPortHang_keeps (p : Nat) (s : State) : Keeps s (execPortHang p s) := run_keeps fun t => by simp
theorem execVcHang_keeps (p v : Nat) (s : State) : Keeps s (execVcHang p v s) := run_keeps fun t => by simp
theorem execHportHang_keeps (inst : Nat) (s : State) : Keeps s (execHportHang inst s) := run_keeps fun t => by simp

/-! ### Commands: reduction units -/

theorem execRuEnable_keeps (a : RgAcc) (s : State) : Keeps s (execRuEnable a s) := regCmd_keeps fun t p d => by simp
theorem execRuDisable_keeps (a : RgAcc) (s : State) : Keeps s (execRuDisable a s) := regCmd_keeps fun t p d => by simp

theorem execRuSpareDesignate_keeps (a : RgAcc) (s : State) : Keeps s (execRuSpareDesignate a s) :=
  regCmd_keeps fun t p d => by simp

theorem execRuFaultedClear_keeps (u : Nat) (a : RgAcc) (s : State) : Keeps s (execRuFaultedClear u a s) :=
  regCmd_keeps fun t p d => by simp

theorem execRuSelfTestDone_keeps (u : Nat) (ok : Bool) (s : State) : Keeps s (execRuSelfTestDone u ok s) :=
  run_keeps fun t => by simp

theorem execRuCombine_keeps (u g i : Nat) (err : Bool) (s : State) : Keeps s (execRuCombine u g i err s) :=
  run_keeps fun t => by simp

theorem execRuInjArm_keeps (a : RgAcc) (s : State) : Keeps s (execRuInjArm a s) := regCmd_keeps fun t p d => by simp
theorem execPktInjArm_keeps (a : RgAcc) (s : State) : Keeps s (execPktInjArm a s) := regCmd_keeps fun t p d => by simp

/-! ### Commands: lanes and teams -/

theorem execTrainingFrame_keeps (t i : Nat) (f : TrainFrame) (s : State) : Keeps s (execTrainingFrame t i f s) :=
  run_keeps fun t => by simp

theorem execTeamDrop_keeps (p : Nat) (s : State) : Keeps s (execTeamDrop p s) := by
  refine run_keeps fun t => ?_
  dsimp only
  repeat' split
  all_goals simp

theorem execTeamAdd_keeps (p : Nat) (s : State) : Keeps s (execTeamAdd p s) := by
  refine run_keeps fun t => ?_
  dsimp only
  repeat' split
  all_goals simp

theorem execTagLock_keeps (p : Nat) (s : State) : Keeps s (execTagLock p s) := run_keeps fun t => by simp
theorem execTagLockLoss_keeps (t : Nat) (s : State) : Keeps s (execTagLockLoss t s) := run_keeps fun t => by simp

theorem execTeamRetryTimer_keeps (t : Nat) (s : State) : Keeps s (execTeamRetryTimer t s) :=
  run_keeps fun t => by simp

theorem execFomUpdate_keeps (t : Nat) (foms : List Nat) (s : State) : Keeps s (execFomUpdate t foms s) :=
  run_keeps fun t => by simp

theorem execLaneSilent_keeps (t i : Nat) (s : State) : Keeps s (execLaneSilent t i s) := run_keeps fun t => by simp

theorem execForwardedClockLoss_keeps (t : Nat) (s : State) : Keeps s (execForwardedClockLoss t s) :=
  run_keeps fun t => by simp

theorem execClockHoldoverEnd_keeps (t : Nat) (s : State) : Keeps s (execClockHoldoverEnd t s) :=
  run_keeps fun t => by simp

theorem execLaneManagementWord_keeps (x : Nat) (s : State) : Keeps s (execLaneManagementWord x s) := by
  refine run_keeps fun t => ?_
  repeat' split
  all_goals simp

theorem execMirrorReq_keeps (t : Nat) (w : Quad) (s : State) : Keeps s (execMirrorReq t w s) :=
  run_keeps fun t => by simp

theorem execMirrorAck_keeps (t : Nat) (w : Quad) (s : State) : Keeps s (execMirrorAck t w s) := by
  unfold execMirrorAck
  dsimp only
  split <;> exact run_keeps fun t => by simp

theorem execSpareCompareDone_keeps (t : Nat) (ok : Bool) (s : State) : Keeps s (execSpareCompareDone t ok s) := by
  unfold execSpareCompareDone
  dsimp only
  split <;> exact run_keeps fun t => by simp

theorem execTeamRetry_keeps (t : Nat) (a : RgAcc) (s : State) : Keeps s (execTeamRetry t a s) :=
  regCmd_keeps fun t p d => by simp

theorem execTeamSwap_keeps (t : Nat) (a : RgAcc) (s : State) : Keeps s (execTeamSwap t a s) :=
  regCmd_keeps fun t p d => by simp

theorem execPrbsMode_keeps (t : Nat) (a : RgAcc) (s : State) : Keeps s (execPrbsMode t a s) :=
  regCmd_keeps fun t p d => by simp

theorem execPrbsClr_keeps (t : Nat) (a : RgAcc) (s : State) : Keeps s (execPrbsClr t a s) :=
  regCmd_keeps fun t p d => by simp

theorem execPrbsCheckerLock_keeps (t i errs : Nat) (s : State) : Keeps s (execPrbsCheckerLock t i errs s) :=
  run_keeps fun t => by simp

theorem execHarnessSeal_keeps (a : RgAcc) (s : State) : Keeps s (execHarnessSeal a s) :=
  regCmd_keeps fun t p d => by simp

/-! ### Commands: faults -/

theorem execFaultTaken_keeps (s : State) : Keeps s (execFaultTaken s) := by
  refine run_keeps fun t => ?_
  split <;> simp

theorem execQuietExpire_keeps (code inst : Nat) (s : State) : Keeps s (execQuietExpire code inst s) :=
  run_keeps fun t => by simp

theorem execFltAck_keeps (a : RgAcc) (s : State) : Keeps s (execFltAck a s) := regCmd_keeps fun t p d => by simp

theorem execRailInvalidTimeout_keeps (line : Nat) (s : State) : Keeps s (execRailInvalidTimeout line s) :=
  run_keeps fun t => by simp

theorem execFarrierProbe_keeps (ok : Bool) (s : State) : Keeps s (execFarrierProbe ok s) := run_keeps fun t => by simp

theorem execScrub_keeps (x : ScrubHit) (s : State) : Keeps s (execScrub x s) := by
  unfold execScrub
  split <;> exact run_keeps fun t => by simp

theorem execStartDone_keeps (a : RgAcc) (s : State) : Keeps s (execStartDone a s) := regCmd_keeps fun t p d => by simp
theorem execRecovExpire_keeps (s : State) : Keeps s (execRecovExpire s) := run_keeps fun t => by simp
theorem execCrecClr_keeps (a : RgAcc) (s : State) : Keeps s (execCrecClr a s) := regCmd_keeps fun t p d => by simp
theorem execFltInjArm_keeps (a : RgAcc) (s : State) : Keeps s (execFltInjArm a s) := regCmd_keeps fun t p d => by simp

theorem execFltInjDisarm_keeps (a : RgAcc) (s : State) : Keeps s (execFltInjDisarm a s) :=
  regCmd_keeps fun t p d => by simp

theorem execFaultStaticToggle_keeps (s : State) : Keeps s (execFaultStaticToggle s) := run_keeps fun t => by simp

/-! ### Commands: banked and staged tables -/

theorem execEpochHoldExpire_keeps (s : State) : Keeps s (execEpochHoldExpire s) := run_keeps fun t => by simp
theorem execPfenceSet_keeps (a : RgAcc) (s : State) : Keeps s (execPfenceSet a s) := regCmd_keeps fun t p d => by simp

theorem execPfenceLift_keeps (a : RgAcc) (s : State) : Keeps s (execPfenceLift a s) :=
  regCmd_keeps fun t p d => by simp

/-! ### Commands: logbooks, congestion maps and the lifetime record -/

theorem execGaitInterval_keeps (mean inst : Nat) (s : State) : Keeps s (execGaitInterval mean inst s) :=
  run_keeps fun t => by simp

theorem execLogDrainWrite_keeps (n : Nat) (s : State) : Keeps s (execLogDrainWrite n s) := run_keeps fun t => by simp
theorem execLogPadTimeout_keeps (n : Nat) (s : State) : Keeps s (execLogPadTimeout n s) := run_keeps fun t => by simp

theorem execLogEnable_keeps (n : Nat) (a : RgAcc) (s : State) : Keeps s (execLogEnable n a s) :=
  regCmd_keeps fun t p d => by simp

theorem execLogDisable_keeps (n : Nat) (a : RgAcc) (s : State) : Keeps s (execLogDisable n a s) :=
  regCmd_keeps fun t p d => by simp

theorem execLogFlush_keeps (n : Nat) (a : RgAcc) (s : State) : Keeps s (execLogFlush n a s) :=
  regCmd_keeps fun t p d => by simp

theorem execLogStarted_keeps (n : Nat) (s : State) : Keeps s (execLogStarted n s) := run_keeps fun t => by simp

theorem execLogDrainTimeout_keeps (n : Nat) (s : State) : Keeps s (execLogDrainTimeout n s) :=
  run_keeps fun t => by simp

theorem execLbWriteResponse_keeps (sts : Nat) (s : State) : Keeps s (execLbWriteResponse sts s) := by
  refine run_keeps fun t => ?_
  split <;> simp

theorem execLogwinSelect_keeps (a : RgAcc) (s : State) : Keeps s (execLogwinSelect a s) :=
  regCmd_keeps fun t p d => by simp

theorem execCmapInterval_keeps (s : State) : Keeps s (execCmapInterval s) := run_keeps fun t => by simp

theorem execLifeSecond_keeps (s : State) : Keeps s (execLifeSecond s) := by
  have hl (u : State) (x : LifeRec) : ({ u with life := x } : State).ids = u.ids := rfl
  refine run_keeps fun t => ?_
  extract_lets s1 s2 s3 s4
  have h2 : s2.ids = t.ids := by simp [s2, s1]
  have h3 : s3.ids = t.ids := by
    unfold s3
    split <;> simp [h2]
  have h4 : s4.ids = s3.ids := State.ids_foldl (fun u k => by simp) _ _
  exact (hl _ _).trans (h4.trans h3)

theorem execLifeSnap_keeps (a : RgAcc) (s : State) : Keeps s (execLifeSnap a s) := regCmd_keeps fun t p d => by simp
theorem execLifeOpen_keeps (a : RgAcc) (s : State) : Keeps s (execLifeOpen a s) := regCmd_keeps fun t p d => by simp

theorem execLifeCommit_keeps (a : RgAcc) (s : State) : Keeps s (execLifeCommit a s) :=
  regCmd_keeps fun t p d => by simp

/-! ### Commands: power and resets -/

theorem execPwrOkFall_keeps (s : State) : Keeps s (execPwrOkFall s) :=
  runAny_reset fun t => .inr (by simp)

theorem execPwrOkRise_keeps (s : State) : Keeps s (execPwrOkRise s) := runAny_keeps fun t => by simp
theorem execRstNFall_keeps (s : State) : Keeps s (execRstNFall s) := runAny_keeps fun t => by simp
theorem execRstNRise_keeps (s : State) : Keeps s (execRstNRise s) := runAny_keeps fun t => by simp

theorem execWarmResetRequest_keeps (a : RgAcc) (s : State) : Keeps s (execWarmResetRequest a s) :=
  regCmd_keeps fun t p d => by simp

theorem execWarmResetProper_keeps (s : State) : Keeps s (execWarmResetProper s) := runAny_keeps fun t => by simp

theorem execSelfCheckDone_keeps (r : SelfCheck) (s : State) : Keeps s (execSelfCheckDone r s) := by
  unfold execSelfCheckDone
  split
  · next warm _ =>
    refine runAny_reset fun t => ?_
    dsimp only
    split
    · exact .inl rfl
    · exact .inr (by simp)
  · exact runAny_keeps fun _ => rfl

theorem execTapExtest_keeps (v : Quad) (s : State) : Keeps s (execTapExtest v s) := runAny_keeps fun t => by simp

theorem execTapSamplePreload_keeps (v : Quad) (s : State) : Keeps s (execTapSamplePreload v s) :=
  runAny_keeps fun t => by simp

theorem execTapClamp_keeps (s : State) : Keeps s (execTapClamp s) := runAny_keeps fun t => by simp
theorem execTapWir_keeps (s : State) : Keeps s (execTapWir s) := runAny_keeps fun t => by simp
theorem execTapWdr_keeps (_chain : Nat) (s : State) : Keeps s (execTapWdr _chain s) := runAny_keeps fun t => by simp
theorem execTapIjtag_keeps (s : State) : Keeps s (execTapIjtag s) := runAny_keeps fun t => by simp

theorem execTapBypass_keeps (code : Byte) (s : State) : Keeps s (execTapBypass code s) :=
  runAny_keeps fun t => by simp

/-- In the field a scan clears the state but for the first-fault registers, and the identity registers are none of these. -/
theorem execTapScan_keeps (s : State) : Keeps s (execTapScan s) := by
  have hfirst (rg : SMap Word) : idWords (rg.filter (fun e => isFirst e.1)) = idWords [] :=
    idWords_filter_not (which := isFirst) (by decide)
  refine runAny_reset fun t => ?_
  by_cases hf : t.pwr.field = true
  · exact .inr (by simp [hf, hfirst])
  · exact .inl (by simp [hf])

theorem execWrapperMode_keeps (w : Nat) (mode : WrapMode) (s : State) : Keeps s (execWrapperMode w mode s) :=
  runAny_keeps fun t => by simp

theorem execIjtagBist_keeps (_array : Nat) (s : State) : Keeps s (execIjtagBist _array s) :=
  runAny_keeps fun t => by simp

theorem execIjtagFuse_keeps (f : FuseOp) (s : State) : Keeps s (execIjtagFuse f s) := by
  refine runAny_keeps fun t => ?_
  dsimp only
  repeat' split
  all_goals simp

theorem execIjtagLaneLb_keeps (t : Nat) (on : Bool) (s : State) : Keeps s (execIjtagLaneLb t on s) :=
  runAny_keeps fun t => by simp

/-! ### Commands: time -/

theorem execBeaconInterval_keeps (s : State) : Keeps s (execBeaconInterval s) := run_keeps fun t => by simp

theorem execBeacon_keeps (p : Nat) (s : State) : Keeps s (execBeacon p s) := by
  unfold execBeacon
  refine ctlRow_keeps fun t b => ?_
  split <;> simp

theorem execBeaconRsp_keeps (p : Nat) (s : State) : Keeps s (execBeaconRsp p s) := by
  unfold execBeaconRsp
  refine ctlRow_keeps fun t b => ?_
  split
  · rfl
  · split
    · rfl
    · simp

/-! ### Commands: I2C -/

theorem execI2cWrite_keeps (c : Nat) (a : RgAcc) (s : State) : Keeps s (execI2cWrite c a s) := i2cRow_keeps
theorem execI2cRead_keeps (c : Nat) (a : RgAcc) (s : State) : Keeps s (execI2cRead c a s) := i2cRow_keeps
theorem execI2cReadCur_keeps (c : Nat) (a : RgAcc) (s : State) : Keeps s (execI2cReadCur c a s) := i2cRow_keeps

/-! ### Commands: register reads -/

theorem execLatchedRead_keeps (off : Nat) (par : Bool) (s : State) : Keeps s (execLatchedRead off par s) :=
  readCmd_keeps

theorem execCcntLatch_keeps (k : Nat) (snap par : Bool) (s : State) : Keeps s (execCcntLatch k snap par s) :=
  readCmd_keeps

/-! ### Commands: register writes by address -/

theorem execRegisterWrite_keeps (off : Nat) (a : RgAcc) (s : State) : Keeps s (execRegisterWrite off a s) :=
  regCmd_keeps fun t p d => by simp

theorem execPortFence_keeps (a : RgAcc) (s : State) : Keeps s (execPortFence a s) := regCmd_keeps fun t p d => by simp

theorem execFarrierTakeback_keeps (a : RgAcc) (s : State) : Keeps s (execFarrierTakeback a s) :=
  regCmd_keeps fun t p d => by simp

/-! ### Commands: farriers -/

theorem execMcWatchdogWrite_keeps (s : State) : Keeps s (execMcWatchdogWrite s) := run_keeps fun t => by simp
theorem execMcWdogExpire_keeps (s : State) : Keeps s (execMcWdogExpire s) := run_keeps fun t => by simp
theorem execFarrierOpenPorts_keeps (s : State) : Keeps s (execFarrierOpenPorts s) := run_keeps fun t => by simp
theorem execFarrierStatus_keeps (s : State) : Keeps s (execFarrierStatus s) := farRow_keeps fun t c => by simp
theorem execFarrierPeek_keeps (s : State) : Keeps s (execFarrierPeek s) := farRow_keeps fun t c => by simp
theorem execFarrierAbort_keeps (s : State) : Keeps s (execFarrierAbort s) := farRow_keeps fun t c => by simp
theorem execFarrierFence_keeps (s : State) : Keeps s (execFarrierFence s) := farRow_keeps fun t c => by simp
theorem execFarrierOpen_keeps (s : State) : Keeps s (execFarrierOpen s) := farRow_keeps fun t c => by simp
theorem execFarrierResetMc_keeps (s : State) : Keeps s (execFarrierResetMc s) := farRow_keeps fun t c => by simp
theorem execFarrierWarmReset_keeps (s : State) : Keeps s (execFarrierWarmReset s) := farRow_keeps fun t c => by simp
theorem execFarrierHalt_keeps (s : State) : Keeps s (execFarrierHalt s) := farRow_keeps fun t c => by simp
theorem execFarrierRelease_keeps (s : State) : Keeps s (execFarrierRelease s) := farRow_keeps fun t c => by simp
theorem execFarrierBadCmd_keeps (s : State) : Keeps s (execFarrierBadCmd s) := farRow_keeps fun t c => by simp
theorem execAssist_keeps (i : Nat) (s : State) : Keeps s (execAssist i s) := pktRow_keeps fun t h => by simp
theorem execAssistRsp_keeps (i : Nat) (s : State) : Keeps s (execAssistRsp i s) := pktRow_keeps fun t h => by simp

/-! ### Commands: table cycles and management trees -/

theorem execTreeStage_keeps (i : Nat) (s : State) : Keeps s (execTreeStage i s) := treeDownRow_keeps
theorem execTreeSeal_keeps (i : Nat) (s : State) : Keeps s (execTreeSeal i s) := treeDownRow_keeps
theorem execTreeReady_keeps (i : Nat) (s : State) : Keeps s (execTreeReady i s) := treeUpRow_keeps
theorem execTreeRefused_keeps (i : Nat) (s : State) : Keeps s (execTreeRefused i s) := treeUpRow_keeps
theorem execTreeLock_keeps (i : Nat) (s : State) : Keeps s (execTreeLock i s) := treeDownRow_keeps
theorem execTreeCount_keeps (i : Nat) (s : State) : Keeps s (execTreeCount i s) := treeDownRow_keeps
theorem execTreeReport_keeps (i : Nat) (s : State) : Keeps s (execTreeReport i s) := treeUpRow_keeps
theorem execTreeSwap_keeps (i : Nat) (s : State) : Keeps s (execTreeSwap i s) := treeDownRow_keeps
theorem execTreeSwapped_keeps (i : Nat) (s : State) : Keeps s (execTreeSwapped i s) := treeUpRow_keeps
theorem execTreeRelease_keeps (i : Nat) (s : State) : Keeps s (execTreeRelease i s) := treeDownRow_keeps
theorem execMbReqSpare_keeps (i : Nat) (s : State) : Keeps s (execMbReqSpare i s) := mgtRow_keeps fun t h => by simp

theorem execMbRsp_keeps (i : Nat) (s : State) : Keeps s (execMbRsp i s) := by
  refine pktRow_keeps fun t h => ?_
  repeat' split
  all_goals simp

theorem execMgtResendTimeout_keeps (mseq : Nat) (s : State) : Keeps s (execMgtResendTimeout mseq s) := by
  unfold execMgtResendTimeout
  split
  · exact run_keeps fun t => by simp
  · exact runAny_keeps fun _ => rfl

theorem execLockDrainTimeout_keeps (s : State) : Keeps s (execLockDrainTimeout s) := by
  unfold execLockDrainTimeout
  split
  · exact run_keeps fun t => by simp
  · exact runAny_keeps fun _ => rfl

theorem execLockSwapTimeout_keeps (s : State) : Keeps s (execLockSwapTimeout s) := run_keeps fun t => by simp

theorem execLockReleaseTimeout_keeps (s : State) : Keeps s (execLockReleaseTimeout s) := by
  unfold execLockReleaseTimeout
  split
  · exact run_keeps fun t => by simp
  · exact runAny_keeps fun _ => rfl

/-! ### Commands: firmware -/

theorem execExpertExpire_keeps (s : State) : Keeps s (execExpertExpire s) := by
  unfold execExpertExpire
  split
  · exact run_keeps fun t => by simp
  · exact runAny_keeps fun _ => rfl

theorem execFwHeartbeat_keeps (s : State) : Keeps s (execFwHeartbeat s) := by
  refine run_keeps fun t => ?_
  dsimp only
  split <;> simp

theorem execFwWdogExpire_keeps (s : State) : Keeps s (execFwWdogExpire s) := run_keeps fun t => by simp

theorem execFwAccessViolation_keeps (x : FwAccess) (s : State) : Keeps s (execFwAccessViolation x s) :=
  run_keeps fun t => by simp

/-! ### Commands: the mailbox -/

theorem execI2cTransactionEnd_keeps (c : Nat) (r : I2cEnd) (s : State) : Keeps s (execI2cTransactionEnd c r s) := by
  unfold execI2cTransactionEnd
  split
  · exact run_keeps fun t => by simp
  · exact runAny_keeps fun _ => rfl

theorem execI2cStretchTimeout_keeps (c n : Nat) (s : State) : Keeps s (execI2cStretchTimeout c n s) := by
  unfold execI2cStretchTimeout
  split
  · exact run_keeps fun t => by simp
  · exact runAny_keeps fun _ => rfl

theorem execMbInfo_keeps (s : State) : Keeps s (execMbInfo s) := mbRow_keeps
theorem execMbNonce_keeps (s : State) : Keeps s (execMbNonce s) := mbRow_keeps
theorem execMbExpertOn_keeps (s : State) : Keeps s (execMbExpertOn s) := mbRow_keeps
theorem execMbExpertOff_keeps (s : State) : Keeps s (execMbExpertOff s) := mbRow_keeps
theorem execMbFwBegin_keeps (s : State) : Keeps s (execMbFwBegin s) := mbRow_keeps
theorem execMbFwChunk_keeps (s : State) : Keeps s (execMbFwChunk s) := mbRow_keeps
theorem execMbFwCommit_keeps (s : State) : Keeps s (execMbFwCommit s) := mbRow_keeps
theorem execMbImgBegin_keeps (s : State) : Keeps s (execMbImgBegin s) := mbRow_keeps
theorem execMbImgChunk_keeps (s : State) : Keeps s (execMbImgChunk s) := mbRow_keeps
theorem execMbImgApplyStart_keeps (s : State) : Keeps s (execMbImgApplyStart s) := mbRowOf_keeps
theorem execMbImgApplyStageLocal_keeps (s : State) : Keeps s (execMbImgApplyStageLocal s) := mbRowOf_keeps
theorem execMbImgApplyStageDomain_keeps (s : State) : Keeps s (execMbImgApplyStageDomain s) := mbRowOf_keeps
theorem execMbImgDrop_keeps (s : State) : Keeps s (execMbImgDrop s) := mbRow_keeps
theorem execMbTableSwap_keeps (s : State) : Keeps s (execMbTableSwap s) := mbRow_keeps
theorem execMbTakeover_keeps (s : State) : Keeps s (execMbTakeover s) := mbRow_keeps
theorem execMbAbort_keeps (s : State) : Keeps s (execMbAbort s) := mbRow_keeps
theorem execMbHalt_keeps (s : State) : Keeps s (execMbHalt s) := mbRow_keeps
theorem execMbRelease_keeps (s : State) : Keeps s (execMbRelease s) := mbRow_keeps
theorem execMbFltAck_keeps (s : State) : Keeps s (execMbFltAck s) := mbRow_keeps
theorem execMbEnable_keeps (s : State) : Keeps s (execMbEnable s) := mbRow_keeps
theorem execMbFence_keeps (s : State) : Keeps s (execMbFence s) := mbRow_keeps
theorem execMbStartDone_keeps (s : State) : Keeps s (execMbStartDone s) := mbRow_keeps
theorem execMbI2c_keeps (s : State) : Keeps s (execMbI2c s) := mbRowOf_keeps
theorem execMbTimeRead_keeps (s : State) : Keeps s (execMbTimeRead s) := mbRowOf_keeps
theorem execMbTimeSet_keeps (s : State) : Keeps s (execMbTimeSet s) := mbRowOf_keeps
theorem execMbRemote_keeps (s : State) : Keeps s (execMbRemote s) := mbRow_keeps
theorem execMbPeek_keeps (s : State) : Keeps s (execMbPeek s) := mbRow_keeps
theorem execMbPoke_keeps (s : State) : Keeps s (execMbPoke s) := mbRow_keeps
theorem execMbDiag_keeps (s : State) : Keeps s (execMbDiag s) := mbRow_keeps

theorem execMbBadCmd_keeps (s : State) : Keeps s (execMbBadCmd s) := by
  unfold execMbBadCmd
  dsimp only
  split <;> exact run_keeps fun t => by simp

theorem execMbTimeout_keeps (s : State) : Keeps s (execMbTimeout s) := by
  unfold execMbTimeout
  dsimp only
  split <;> exact run_keeps fun t => by simp

theorem execKernelCall_keeps (words : List Word) (s : State) : Keeps s (execKernelCall words s) :=
  run_keeps fun t => by simp

theorem execMbReqRemote_keeps (i : Nat) (s : State) : Keeps s (execMbReqRemote i s) := mgtRow_keeps fun t h => by simp

/-! ## Every step -/

@[simp] theorem State.tick_ids (s : State) : s.tick.ids = s.ids := by simp [State.tick]

@[simp] theorem State.cyclePasses_ids (s : State) : s.cyclePasses.ids = s.ids := by simp [State.cyclePasses]

theorem exec_keeps (c : Instr) (s : State) : Keeps s (exec c s) := by
  cases c with
  | pwrOkFall => exact execPwrOkFall_keeps s
  | pwrOkRise => exact execPwrOkRise_keeps s
  | rstNFall => exact execRstNFall_keeps s
  | rstNRise => exact execRstNRise_keeps s
  | selfCheckDone r => exact execSelfCheckDone_keeps r s
  | warmResetRequest a => exact execWarmResetRequest_keeps a s
  | warmResetProper => exact execWarmResetProper_keeps s
  | tapExtest v => exact execTapExtest_keeps v s
  | tapSamplePreload v => exact execTapSamplePreload_keeps v s
  | tapClamp => exact execTapClamp_keeps s
  | tapWir => exact execTapWir_keeps s
  | tapWdr chain => exact execTapWdr_keeps chain s
  | tapIjtag => exact execTapIjtag_keeps s
  | tapScan => exact execTapScan_keeps s
  | tapBypass code => exact execTapBypass_keeps code s
  | wrapperMode w mode => exact execWrapperMode_keeps w mode s
  | ijtagBist array => exact execIjtagBist_keeps array s
  | ijtagFuse f => exact execIjtagFuse_keeps f s
  | ijtagLaneLb t on => exact execIjtagLaneLb_keeps t on s
  | cpWord port w crc => exact execCpWord_keeps port w crc s
  | channelEnable k a => exact execChannelEnable_keeps k a s
  | channelOn k => exact execChannelOn_keeps k s
  | channelDisable k a => exact execChannelDisable_keeps k a s
  | resume k a => exact execResume_keeps k a s
  | scalarWrite k j a => exact execScalarWrite_keeps k j a s
  | crConsWrite k a => exact execCrConsWrite_keeps k a s
  | latchedRead off par => exact execLatchedRead_keeps off par s
  | nop k => exact execNop_keeps k s
  | put k => exact execPut_keeps k s
  | get k => exact execGet_keeps k s
  | copy k => exact execCopy_keeps k s
  | atom k => exact execAtom_keeps k s
  | allReduce k => exact execAllReduce_keeps k s
  | reduceScatter k => exact execReduceScatter_keeps k s
  | allGather k => exact execAllGather_keeps k s
  | broadcast k => exact execBroadcast_keeps k s
  | reduce k => exact execReduce_keeps k s
  | a2aCap k => exact execA2aCap_keeps k s
  | barrier k => exact execBarrier_keeps k s
  | scalarAr k => exact execScalarAr_keeps k s
  | waitCmd k => exact execWaitCmd_keeps k s
  | signal k => exact execSignal_keeps k s
  | fence k => exact execFence_keeps k s
  | repeatLoop k => exact execRepeatLoop_keeps k s
  | endLoop k => exact execEndLoop_keeps k s
  | branch k => exact execBranch_keeps k s
  | loadsImm k => exact execLoadsImm_keeps k s
  | loadsMem k => exact execLoadsMem_keeps k s
  | loadsTally k => exact execLoadsTally_keeps k s
  | loadsAdd k => exact execLoadsAdd_keeps k s
  | mark k => exact execMark_keeps k s
  | trace k => exact execTrace_keeps k s
  | badOp k => exact execBadOp_keeps k s
  | fragmentIssue k => exact execFragmentIssue_keeps k s
  | completionRecordWrite k => exact execCompletionRecordWrite_keeps k s
  | channelHang k => exact execChannelHang_keeps k s
  | shapeCommit e a => exact execShapeCommit_keeps e a s
  | tallyWrite n a => exact execTallyWrite_keeps n a s
  | watchArm w a => exact execWatchArm_keeps w a s
  | watchDisarm w a => exact execWatchDisarm_keeps w a s
  | watchEventEnqueue w => exact execWatchEventEnqueue_keeps w s
  | atcFlush a => exact execAtcFlush_keeps a s
  | atcHoldExpire g => exact execAtcHoldExpire_keeps g s
  | atomicPerform => exact execAtomicPerform_keeps s
  | pfenceSet a => exact execPfenceSet_keeps a s
  | pfenceLift a => exact execPfenceLift_keeps a s
  | raLoad port x => exact execRaLoad_keeps port x s
  | raStore port x => exact execRaStore_keeps port x s
  | raRspTaken port => exact execRaRspTaken_keeps port s
  | raLoadTimeout port tag => exact execRaLoadTimeout_keeps port tag s
  | hmReadIssue port => exact execHmReadIssue_keeps port s
  | hmWriteIssue port => exact execHmWriteIssue_keeps port s
  | hmReadBeat port b => exact execHmReadBeat_keeps port b s
  | hmWriteResponse port r => exact execHmWriteResponse_keeps port r s
  | hmTimeout port isWr tag => exact execHmTimeout_keeps port isWr tag s
  | eventTaken => exact execEventTaken_keeps s
  | lbWriteResponse sts => exact execLbWriteResponse_keeps sts s
  | wr j => exact execWr_keeps j s
  | rd j => exact execRd_keeps j s
  | rdRelay j => exact execRdRelay_keeps j s
  | raLd j => exact execRaLd_keeps j s
  | raSt j => exact execRaSt_keeps j s
  | atomPacket j => exact execAtomPacket_keeps j s
  | signalPacket j => exact execSignalPacket_keeps j s
  | wrRsp j => exact execWrRsp_keeps j s
  | rdData j => exact execRdData_keeps j s
  | rdRsp j => exact execRdRsp_keeps j s
  | rlyData j => exact execRlyData_keeps j s
  | raData j => exact execRaData_keeps j s
  | raRsp j => exact execRaRsp_keeps j s
  | atomRsp j => exact execAtomRsp_keeps j s
  | sigRsp j => exact execSigRsp_keeps j s
  | colAck j => exact execColAck_keeps j s
  | colReady j => exact execColReady_keeps j s
  | colData j => exact execColData_keeps j s
  | colSlot j => exact execColSlot_keeps j s
  | colDone j => exact execColDone_keeps j s
  | colRel j => exact execColRel_keeps j s
  | collAbort j => exact execCollAbort_keeps j s
  | mbReqRemote j => exact execMbReqRemote_keeps j s
  | mbReqSpare j => exact execMbReqSpare_keeps j s
  | treeStage j => exact execTreeStage_keeps j s
  | treeSeal j => exact execTreeSeal_keeps j s
  | treeReady j => exact execTreeReady_keeps j s
  | treeRefused j => exact execTreeRefused_keeps j s
  | treeLock j => exact execTreeLock_keeps j s
  | treeCount j => exact execTreeCount_keeps j s
  | treeReport j => exact execTreeReport_keeps j s
  | treeSwap j => exact execTreeSwap_keeps j s
  | treeSwapped j => exact execTreeSwapped_keeps j s
  | treeRelease j => exact execTreeRelease_keeps j s
  | mbRsp j => exact execMbRsp_keeps j s
  | assist j => exact execAssist_keeps j s
  | assistRsp j => exact execAssistRsp_keeps j s
  | mgtResendTimeout mseq => exact execMgtResendTimeout_keeps mseq s
  | packetHop place j x => exact execPacketHop_keeps place j x s
  | reinIncrease k => exact execReinIncrease_keeps k s
  | towEnable t a => exact execTowEnable_keeps t a s
  | towStarted t => exact execTowStarted_keeps t s
  | towDisable t a => exact execTowDisable_keeps t a s
  | towStall t => exact execTowStall_keeps t s
  | lockDrainTimeout => exact execLockDrainTimeout_keeps s
  | epochHoldExpire => exact execEpochHoldExpire_keeps s
  | lockSwapTimeout => exact execLockSwapTimeout_keeps s
  | linkEnable p a => exact execLinkEnable_keeps p a s
  | linkDisable p a => exact execLinkDisable_keeps p a s
  | linkRetrainWrite p a => exact execLinkRetrainWrite_keeps p a s
  | linkParam p => exact execLinkParam_keeps p s
  | linkParamSend p => exact execLinkParamSend_keeps p s
  | teamDrop p => exact execTeamDrop_keeps p s
  | teamAdd p => exact execTeamAdd_keeps p s
  | retrain p => exact execRetrain_keeps p s
  | haltMark p => exact execHaltMark_keeps p s
  | haltRel p => exact execHaltRel_keeps p s
  | abortFlit p => exact execAbortFlit_keeps p s
  | beacon p => exact execBeacon_keeps p s
  | beaconRsp p => exact execBeaconRsp_keeps p s
  | seqFlitReceive p f => exact execSeqFlitReceive_keeps p f s
  | tagReceive p f => exact execTagReceive_keeps p f s
  | replayTimeout p => exact execReplayTimeout_keeps p s
  | linkTrainTimeout p => exact execLinkTrainTimeout_keeps p s
  | retrainTimeout p => exact execRetrainTimeout_keeps p s
  | linkDrainTimeout p => exact execLinkDrainTimeout_keeps p s
  | lnkInjArm p a => exact execLnkInjArm_keeps p a s
  | trainingFrame t j f => exact execTrainingFrame_keeps t j f s
  | fomUpdate t foms => exact execFomUpdate_keeps t foms s
  | mirrorReq t lmw => exact execMirrorReq_keeps t lmw s
  | mirrorAck t lmw => exact execMirrorAck_keeps t lmw s
  | spareCompareDone t ok => exact execSpareCompareDone_keeps t ok s
  | forwardedClockLoss t => exact execForwardedClockLoss_keeps t s
  | clockHoldoverEnd t => exact execClockHoldoverEnd_keeps t s
  | laneSilent t j => exact execLaneSilent_keeps t j s
  | tagLockLoss t => exact execTagLockLoss_keeps t s
  | teamRetryTimer t => exact execTeamRetryTimer_keeps t s
  | teamRetry t a => exact execTeamRetry_keeps t a s
  | teamSwap t a => exact execTeamSwap_keeps t a s
  | prbsMode t a => exact execPrbsMode_keeps t a s
  | prbsClr t a => exact execPrbsClr_keeps t a s
  | harnessSeal a => exact execHarnessSeal_keeps a s
  | i2cWrite c a => exact execI2cWrite_keeps c a s
  | i2cRead c a => exact execI2cRead_keeps c a s
  | i2cReadCur c a => exact execI2cReadCur_keeps c a s
  | i2cTransactionEnd c r => exact execI2cTransactionEnd_keeps c r s
  | i2cStretchTimeout c n => exact execI2cStretchTimeout_keeps c n s
  | faultTaken => exact execFaultTaken_keeps s
  | quietExpire code inst => exact execQuietExpire_keeps code inst s
  | fltAck a => exact execFltAck_keeps a s
  | railInvalidTimeout line => exact execRailInvalidTimeout_keeps line s
  | farrierProbe ok => exact execFarrierProbe_keeps ok s
  | scrub x => exact execScrub_keeps x s
  | startDone a => exact execStartDone_keeps a s
  | crecClr a => exact execCrecClr_keeps a s
  | fltInjArm a => exact execFltInjArm_keeps a s
  | fltInjDisarm a => exact execFltInjDisarm_keeps a s
  | recovExpire => exact execRecovExpire_keeps s
  | ruEnable a => exact execRuEnable_keeps a s
  | ruDisable a => exact execRuDisable_keeps a s
  | ruSpareDesignate a => exact execRuSpareDesignate_keeps a s
  | ruFaultedClear u a => exact execRuFaultedClear_keeps u a s
  | ruSelfTestDone u ok => exact execRuSelfTestDone_keeps u ok s
  | ruCombine u g j err => exact execRuCombine_keeps u g j err s
  | ruInjArm a => exact execRuInjArm_keeps a s
  | pktInjArm a => exact execPktInjArm_keeps a s
  | portHang p => exact execPortHang_keeps p s
  | vcHang p v => exact execVcHang_keeps p v s
  | hportHang inst => exact execHportHang_keeps inst s
  | abortGo a => exact execAbortGo_keeps a s
  | generationStep => exact execGenerationStep_keeps s
  | genWrite a => exact execGenWrite_keeps a s
  | abortPairExpire pkey gen => exact execAbortPairExpire_keeps pkey gen s
  | portFence a => exact execPortFence_keeps a s
  | mcWdogExpire => exact execMcWdogExpire_keeps s
  | farrierOpenPorts => exact execFarrierOpenPorts_keeps s
  | farrierTakeback a => exact execFarrierTakeback_keeps a s
  | farrierStatus => exact execFarrierStatus_keeps s
  | farrierPeek => exact execFarrierPeek_keeps s
  | farrierAbort => exact execFarrierAbort_keeps s
  | farrierFence => exact execFarrierFence_keeps s
  | farrierOpen => exact execFarrierOpen_keeps s
  | farrierResetMc => exact execFarrierResetMc_keeps s
  | farrierWarmReset => exact execFarrierWarmReset_keeps s
  | farrierHalt => exact execFarrierHalt_keeps s
  | farrierRelease => exact execFarrierRelease_keeps s
  | farrierBadCmd => exact execFarrierBadCmd_keeps s
  | haltGo a => exact execHaltGo_keeps a s
  | haltRelease a => exact execHaltRelease_keeps a s
  | halted => exact execHalted_keeps s
  | haltTimeout => exact execHaltTimeout_keeps s
  | snapSelect a => exact execSnapSelect_keeps a s
  | mbInfo => exact execMbInfo_keeps s
  | mbNonce => exact execMbNonce_keeps s
  | mbExpertOn => exact execMbExpertOn_keeps s
  | mbExpertOff => exact execMbExpertOff_keeps s
  | mbFwBegin => exact execMbFwBegin_keeps s
  | mbFwChunk => exact execMbFwChunk_keeps s
  | mbFwCommit => exact execMbFwCommit_keeps s
  | fwHeartbeat => exact execFwHeartbeat_keeps s
  | fwWdogExpire => exact execFwWdogExpire_keeps s
  | fwAccessViolation x => exact execFwAccessViolation_keeps x s
  | kernelCall words => exact execKernelCall_keeps words s
  | mbImgBegin => exact execMbImgBegin_keeps s
  | mbImgChunk => exact execMbImgChunk_keeps s
  | mbImgApplyStart => exact execMbImgApplyStart_keeps s
  | mbImgApplyStageLocal => exact execMbImgApplyStageLocal_keeps s
  | mbImgApplyStageDomain => exact execMbImgApplyStageDomain_keeps s
  | mbImgDrop => exact execMbImgDrop_keeps s
  | mbTableSwap => exact execMbTableSwap_keeps s
  | mbTakeover => exact execMbTakeover_keeps s
  | mbAbort => exact execMbAbort_keeps s
  | mbHalt => exact execMbHalt_keeps s
  | mbRelease => exact execMbRelease_keeps s
  | mbFltAck => exact execMbFltAck_keeps s
  | mbEnable => exact execMbEnable_keeps s
  | mbFence => exact execMbFence_keeps s
  | mbStartDone => exact execMbStartDone_keeps s
  | mbI2c => exact execMbI2c_keeps s
  | mbTimeRead => exact execMbTimeRead_keeps s
  | mbTimeSet => exact execMbTimeSet_keeps s
  | mbRemote => exact execMbRemote_keeps s
  | mbPeek => exact execMbPeek_keeps s
  | mbPoke => exact execMbPoke_keeps s
  | mbDiag => exact execMbDiag_keeps s
  | mbBadCmd => exact execMbBadCmd_keeps s
  | mbTimeout => exact execMbTimeout_keeps s
  | expertExpire => exact execExpertExpire_keeps s
  | beaconInterval => exact execBeaconInterval_keeps s
  | gaitInterval mean inst => exact execGaitInterval_keeps mean inst s
  | lifeSecond => exact execLifeSecond_keeps s
  | ccntLatch k snap par => exact execCcntLatch_keeps k snap par s
  | logEnable n a => exact execLogEnable_keeps n a s
  | logStarted n => exact execLogStarted_keeps n s
  | logDisable n a => exact execLogDisable_keeps n a s
  | logFlush n a => exact execLogFlush_keeps n a s
  | logPadTimeout n => exact execLogPadTimeout_keeps n s
  | logDrainWrite n => exact execLogDrainWrite_keeps n s
  | logDrainTimeout n => exact execLogDrainTimeout_keeps n s
  | logwinSelect a => exact execLogwinSelect_keeps a s
  | cmapInterval => exact execCmapInterval_keeps s
  | lifeSnap a => exact execLifeSnap_keeps a s
  | lifeOpen a => exact execLifeOpen_keeps a s
  | lifeCommit a => exact execLifeCommit_keeps a s
  | registerWrite off a => exact execRegisterWrite_keeps off a s
  | faultStaticToggle => exact execFaultStaticToggle_keeps s
  | mcWatchdogWrite => exact execMcWatchdogWrite_keeps s
  | laneManagementWord t => exact execLaneManagementWord_keeps t s
  | prbsCheckerLock t j errs => exact execPrbsCheckerLock_keeps t j errs s
  | tagLock p => exact execTagLock_keeps p s
  | lockReleaseTimeout => exact execLockReleaseTimeout_keeps s

/-- A step is the front command, or the passing of a cycle where none is queued. -/
theorem step_keeps (s : State) : Keeps s (step s) := by
  unfold step
  split
  · exact Keeps.next (.inl s.cyclePasses_ids)
  · next c rest _ => exact exec_keeps c { s with pending := rest }

/-- Settles O55: a step leaves the identity words as they are or as out of reset, and both are the words of R538. -/
theorem identityNeverChanges : Obligations.IdentityNeverChanges := by
  unfold Obligations.IdentityNeverChanges
  intro s t hs hstep
  rw [State.Identity_iff] at hs ⊢
  rcases step_keeps s t hstep with hsame | hreset
  · exact hsame.trans hs
  · exact hreset.trans idWords_nil

end Sys2Proof.Machine

namespace Sys2Proof.Machine

/-! ## Frames

A frame names the fields of the state that an operation may write. `Same m s t` says that `s` and `t` agree on every field
whose bit is not in the mask `m`. It is an equivalence, so the lemma of an operation says that `Same m s₀` holds of what it
answers just when it holds of the state it started in, for every mask `m` that has the fields it writes. The simplifier then
takes a composition of operations apart from the outside, and the one thing it computes on the way is with bits of masks. -/

/-- The fields of the state. -/
inductive Fld where
  | pending | out | free | now | tod | ident | pfence | rg | wshadow | rshadow | chans | cpHeld | scal | tally |
    watch | atc | eng | hm | ra | streams | ev | inj | pseq | eject | tbl | tows | reins | rrUsed | draws | counts |
    links | flt | ccnt | logs | lbOut | groups | rus | ruGone | berths | teams | phys | i2c | abort | halt | far |
    mons | mc | ts | life | cmap | pwr

/-- The bit of a field in a mask. -/
@[simp] def Fld.bit : Fld → Nat
  | .pending => 0x1
  | .out => 0x2
  | .free => 0x4
  | .now => 0x8
  | .tod => 0x10
  | .ident => 0x20
  | .pfence => 0x40
  | .rg => 0x80
  | .wshadow => 0x100
  | .rshadow => 0x200
  | .chans => 0x400
  | .cpHeld => 0x800
  | .scal => 0x1000
  | .tally => 0x2000
  | .watch => 0x4000
  | .atc => 0x8000
  | .eng => 0x10000
  | .hm => 0x20000
  | .ra => 0x40000
  | .streams => 0x80000
  | .ev => 0x100000
  | .inj => 0x200000
  | .pseq => 0x400000
  | .eject => 0x800000
  | .tbl => 0x1000000
  | .tows => 0x2000000
  | .reins => 0x4000000
  | .rrUsed => 0x8000000
  | .draws => 0x10000000
  | .counts => 0x20000000
  | .links => 0x40000000
  | .flt => 0x80000000
  | .ccnt => 0x100000000
  | .logs => 0x200000000
  | .lbOut => 0x400000000
  | .groups => 0x800000000
  | .rus => 0x1000000000
  | .ruGone => 0x2000000000
  | .berths => 0x4000000000
  | .teams => 0x8000000000
  | .phys => 0x10000000000
  | .i2c => 0x20000000000
  | .abort => 0x40000000000
  | .halt => 0x80000000000
  | .far => 0x100000000000
  | .mons => 0x200000000000
  | .mc => 0x400000000000
  | .ts => 0x800000000000
  | .life => 0x1000000000000
  | .cmap => 0x2000000000000
  | .pwr => 0x4000000000000

/-- The bits of a list of fields. -/
@[simp] def bits : List Fld → Nat
  | [] => 0
  | f :: l => f.bit ||| bits l

/-- The mask of a list of fields: its bits, kept as they are written until two masks are compared. -/
def mask (l : List Fld) : Nat := bits l

/-- The mask `m` has the fields of `l`. -/
def Has (m : Nat) (l : List Fld) : Prop := bits l &&& m = bits l

@[simp] theorem Has_mask (k l : List Fld) : Has (mask k) l ↔ bits l &&& bits k = bits l := Iff.rfl

theorem Has.subset {k l : List Fld} {m : Nat} (h : Has m k) (hl : Has (mask k) l) : Has m l := by
  unfold Has mask at *
  rw [← hl, Nat.and_assoc, h]

/-- `s` and `t` agree on the field. -/
def Fld.Agree (s t : State) : Fld → Prop
  | .pending => s.pending = t.pending
  | .out => s.out = t.out
  | .free => s.free = t.free
  | .now => s.now = t.now
  | .tod => s.tod = t.tod
  | .ident => s.ident = t.ident
  | .pfence => s.pfence = t.pfence
  | .rg => s.rg = t.rg
  | .wshadow => s.wshadow = t.wshadow
  | .rshadow => s.rshadow = t.rshadow
  | .chans => s.chans = t.chans
  | .cpHeld => s.cpHeld = t.cpHeld
  | .scal => s.scal = t.scal
  | .tally => s.tally = t.tally
  | .watch => s.watch = t.watch
  | .atc => s.atc = t.atc
  | .eng => s.eng = t.eng
  | .hm => s.hm = t.hm
  | .ra => s.ra = t.ra
  | .streams => s.streams = t.streams
  | .ev => s.ev = t.ev
  | .inj => s.inj = t.inj
  | .pseq => s.pseq = t.pseq
  | .eject => s.eject = t.eject
  | .tbl => s.tbl = t.tbl
  | .tows => s.tows = t.tows
  | .reins => s.reins = t.reins
  | .rrUsed => s.rrUsed = t.rrUsed
  | .draws => s.draws = t.draws
  | .counts => s.counts = t.counts
  | .links => s.links = t.links
  | .flt => s.flt = t.flt
  | .ccnt => s.ccnt = t.ccnt
  | .logs => s.logs = t.logs
  | .lbOut => s.lbOut = t.lbOut
  | .groups => s.groups = t.groups
  | .rus => s.rus = t.rus
  | .ruGone => s.ruGone = t.ruGone
  | .berths => s.berths = t.berths
  | .teams => s.teams = t.teams
  | .phys => s.phys = t.phys
  | .i2c => s.i2c = t.i2c
  | .abort => s.abort = t.abort
  | .halt => s.halt = t.halt
  | .far => s.far = t.far
  | .mons => s.mons = t.mons
  | .mc => s.mc = t.mc
  | .ts => s.ts = t.ts
  | .life => s.life = t.life
  | .cmap => s.cmap = t.cmap
  | .pwr => s.pwr = t.pwr

theorem Fld.Agree.refl (s : State) (f : Fld) : f.Agree s s := by cases f <;> rfl
theorem Fld.Agree.symm {s t : State} {f : Fld} (h : f.Agree s t) : f.Agree t s := by cases f <;> exact Eq.symm h
theorem Fld.Agree.trans {s t u : State} {f : Fld} (h : f.Agree s t) (k : f.Agree t u) : f.Agree s u := by
  cases f <;> exact Eq.trans h k

/-- `s` and `t` agree on every field but those of `m`. -/
def Same (m : Nat) (s t : State) : Prop := ∀ f : Fld, f.bit &&& m = 0 → f.Agree s t

@[simp, refl] theorem Same.refl (m : Nat) (s : State) : Same m s s := fun f _ => Fld.Agree.refl s f
theorem Same.symm {m : Nat} {s t : State} (h : Same m s t) : Same m t s := fun f hf => (h f hf).symm
theorem Same.trans {m : Nat} {s t u : State} (h : Same m s t) (k : Same m t u) : Same m s u :=
  fun f hf => (h f hf).trans (k f hf)

theorem Same.mono {l : List Fld} {n : Nat} {s t : State} (h : Same (mask l) s t) (hn : Has n l) : Same n s t := by
  refine fun f hf => h f ?_
  unfold mask
  rw [← hn, Nat.and_comm (bits l), ← Nat.and_assoc, hf, Nat.zero_and]

/-- Where an operation writes only fields of `l`, and `l` stands in `n`, `Same n` holds after it just when it did before. -/
theorem Same.lift {l : List Fld} {n : Nat} {s t : State} (hn : Has n l) (s₀ : State) (h : Same (mask l) s t) :
    Same n s₀ t ↔ Same n s₀ s :=
  ⟨fun k => k.trans (h.mono hn).symm, fun k => k.trans (h.mono hn)⟩

/-- After an operation that writes only fields of `m`, `Same m` holds just when it did before. -/
theorem Same.iff_of_same {m : Nat} {s₀ s t : State} (h : Same m s t) : Same m s₀ t ↔ Same m s₀ s :=
  ⟨fun k => k.trans h.symm, fun k => k.trans h⟩

/-- The same of an operation that recurs. -/
theorem Same.lift_iff {l : List Fld} {n : Nat} {s t : State} (hn : Has n l) (s₀ : State)
    (h : ∀ s₀, Same (mask l) s₀ t ↔ Same (mask l) s₀ s) : Same n s₀ t ↔ Same n s₀ s :=
  Same.lift hn s₀ ((h s).mpr (Same.refl _ s))

@[simp] theorem Same.ite_iff {m : Nat} {s₀ : State} (c : Prop) [Decidable c] (s t : State) :
    Same m s₀ (if c then s else t) ↔ if c then Same m s₀ s else Same m s₀ t := by split <;> rfl

@[simp] theorem Same.ite_fst_iff {α : Type} {m : Nat} {s₀ : State} (c : Prop) [Decidable c] (s t : State × α) :
    Same m s₀ (if c then s else t).1 ↔ if c then Same m s₀ s.1 else Same m s₀ t.1 := by split <;> rfl

@[simp] theorem Same.ite_snd_iff {α : Type} {m : Nat} {s₀ : State} (c : Prop) [Decidable c] (s t : α × State) :
    Same m s₀ (if c then s else t).2 ↔ if c then Same m s₀ s.2 else Same m s₀ t.2 := by split <;> rfl

theorem Same.foldl {α : Type} {m : Nat} {f : State → α → State} (h : ∀ t x, Same m t (f t x)) (l : List α) (s : State) :
    Same m s (l.foldl f s) :=
  foldl_keeps (Same.refl m) Same.trans f h l s

@[simp] theorem Same.foldl_iff {α : Type} {m : Nat} {s₀ : State} {f : State → α → State} (h : ∀ t x, Same m t (f t x))
    (l : List α) (s : State) : Same m s₀ (l.foldl f s) ↔ Same m s₀ s :=
  ⟨fun k => k.trans (Same.foldl h l s).symm, fun k => k.trans (Same.foldl h l s)⟩

/-! ### A state with fields written out -/

@[simp] theorem Same.with_pending {m : Nat} {s₀ s : State} {x} (h : Has m [.pending]) :
    Same m s₀ { s with pending := x } ↔ Same m s₀ s := by
  refine Same.lift h s₀ fun f hf => ?_
  cases f
  case pending => simp [mask] at hf
  all_goals rfl

@[simp] theorem Same.with_out {m : Nat} {s₀ s : State} {x} (h : Has m [.out]) :
    Same m s₀ { s with out := x } ↔ Same m s₀ s := by
  refine Same.lift h s₀ fun f hf => ?_
  cases f
  case out => simp [mask] at hf
  all_goals rfl

@[simp] theorem Same.with_free {m : Nat} {s₀ s : State} {x} (h : Has m [.free]) :
    Same m s₀ { s with free := x } ↔ Same m s₀ s := by
  refine Same.lift h s₀ fun f hf => ?_
  cases f
  case free => simp [mask] at hf
  all_goals rfl

@[simp] theorem Same.with_now {m : Nat} {s₀ s : State} {x} (h : Has m [.now]) :
    Same m s₀ { s with now := x } ↔ Same m s₀ s := by
  refine Same.lift h s₀ fun f hf => ?_
  cases f
  case now => simp [mask] at hf
  all_goals rfl

@[simp] theorem Same.with_tod {m : Nat} {s₀ s : State} {x} (h : Has m [.tod]) :
    Same m s₀ { s with tod := x } ↔ Same m s₀ s := by
  refine Same.lift h s₀ fun f hf => ?_
  cases f
  case tod => simp [mask] at hf
  all_goals rfl

@[simp] theorem Same.with_ident {m : Nat} {s₀ s : State} {x} (h : Has m [.ident]) :
    Same m s₀ { s with ident := x } ↔ Same m s₀ s := by
  refine Same.lift h s₀ fun f hf => ?_
  cases f
  case ident => simp [mask] at hf
  all_goals rfl

@[simp] theorem Same.with_pfence {m : Nat} {s₀ s : State} {x} (h : Has m [.pfence]) :
    Same m s₀ { s with pfence := x } ↔ Same m s₀ s := by
  refine Same.lift h s₀ fun f hf => ?_
  cases f
  case pfence => simp [mask] at hf
  all_goals rfl

@[simp] theorem Same.with_rg {m : Nat} {s₀ s : State} {x} (h : Has m [.rg]) :
    Same m s₀ { s with rg := x } ↔ Same m s₀ s := by
  refine Same.lift h s₀ fun f hf => ?_
  cases f
  case rg => simp [mask] at hf
  all_goals rfl

@[simp] theorem Same.with_wshadow {m : Nat} {s₀ s : State} {x} (h : Has m [.wshadow]) :
    Same m s₀ { s with wshadow := x } ↔ Same m s₀ s := by
  refine Same.lift h s₀ fun f hf => ?_
  cases f
  case wshadow => simp [mask] at hf
  all_goals rfl

@[simp] theorem Same.with_rshadow {m : Nat} {s₀ s : State} {x} (h : Has m [.rshadow]) :
    Same m s₀ { s with rshadow := x } ↔ Same m s₀ s := by
  refine Same.lift h s₀ fun f hf => ?_
  cases f
  case rshadow => simp [mask] at hf
  all_goals rfl

@[simp] theorem Same.with_chans {m : Nat} {s₀ s : State} {x} (h : Has m [.chans]) :
    Same m s₀ { s with chans := x } ↔ Same m s₀ s := by
  refine Same.lift h s₀ fun f hf => ?_
  cases f
  case chans => simp [mask] at hf
  all_goals rfl

@[simp] theorem Same.with_cpHeld {m : Nat} {s₀ s : State} {x} (h : Has m [.cpHeld]) :
    Same m s₀ { s with cpHeld := x } ↔ Same m s₀ s := by
  refine Same.lift h s₀ fun f hf => ?_
  cases f
  case cpHeld => simp [mask] at hf
  all_goals rfl

@[simp] theorem Same.with_scal {m : Nat} {s₀ s : State} {x} (h : Has m [.scal]) :
    Same m s₀ { s with scal := x } ↔ Same m s₀ s := by
  refine Same.lift h s₀ fun f hf => ?_
  cases f
  case scal => simp [mask] at hf
  all_goals rfl

@[simp] theorem Same.with_tally {m : Nat} {s₀ s : State} {x} (h : Has m [.tally]) :
    Same m s₀ { s with tally := x } ↔ Same m s₀ s := by
  refine Same.lift h s₀ fun f hf => ?_
  cases f
  case tally => simp [mask] at hf
  all_goals rfl

@[simp] theorem Same.with_watch {m : Nat} {s₀ s : State} {x} (h : Has m [.watch]) :
    Same m s₀ { s with watch := x } ↔ Same m s₀ s := by
  refine Same.lift h s₀ fun f hf => ?_
  cases f
  case watch => simp [mask] at hf
  all_goals rfl

@[simp] theorem Same.with_atc {m : Nat} {s₀ s : State} {x} (h : Has m [.atc]) :
    Same m s₀ { s with atc := x } ↔ Same m s₀ s := by
  refine Same.lift h s₀ fun f hf => ?_
  cases f
  case atc => simp [mask] at hf
  all_goals rfl

@[simp] theorem Same.with_eng {m : Nat} {s₀ s : State} {x} (h : Has m [.eng]) :
    Same m s₀ { s with eng := x } ↔ Same m s₀ s := by
  refine Same.lift h s₀ fun f hf => ?_
  cases f
  case eng => simp [mask] at hf
  all_goals rfl

@[simp] theorem Same.with_hm {m : Nat} {s₀ s : State} {x} (h : Has m [.hm]) :
    Same m s₀ { s with hm := x } ↔ Same m s₀ s := by
  refine Same.lift h s₀ fun f hf => ?_
  cases f
  case hm => simp [mask] at hf
  all_goals rfl

@[simp] theorem Same.with_ra {m : Nat} {s₀ s : State} {x} (h : Has m [.ra]) :
    Same m s₀ { s with ra := x } ↔ Same m s₀ s := by
  refine Same.lift h s₀ fun f hf => ?_
  cases f
  case ra => simp [mask] at hf
  all_goals rfl

@[simp] theorem Same.with_streams {m : Nat} {s₀ s : State} {x} (h : Has m [.streams]) :
    Same m s₀ { s with streams := x } ↔ Same m s₀ s := by
  refine Same.lift h s₀ fun f hf => ?_
  cases f
  case streams => simp [mask] at hf
  all_goals rfl

@[simp] theorem Same.with_ev {m : Nat} {s₀ s : State} {x} (h : Has m [.ev]) :
    Same m s₀ { s with ev := x } ↔ Same m s₀ s := by
  refine Same.lift h s₀ fun f hf => ?_
  cases f
  case ev => simp [mask] at hf
  all_goals rfl

@[simp] theorem Same.with_inj {m : Nat} {s₀ s : State} {x} (h : Has m [.inj]) :
    Same m s₀ { s with inj := x } ↔ Same m s₀ s := by
  refine Same.lift h s₀ fun f hf => ?_
  cases f
  case inj => simp [mask] at hf
  all_goals rfl

@[simp] theorem Same.with_pseq {m : Nat} {s₀ s : State} {x} (h : Has m [.pseq]) :
    Same m s₀ { s with pseq := x } ↔ Same m s₀ s := by
  refine Same.lift h s₀ fun f hf => ?_
  cases f
  case pseq => simp [mask] at hf
  all_goals rfl

@[simp] theorem Same.with_eject {m : Nat} {s₀ s : State} {x} (h : Has m [.eject]) :
    Same m s₀ { s with eject := x } ↔ Same m s₀ s := by
  refine Same.lift h s₀ fun f hf => ?_
  cases f
  case eject => simp [mask] at hf
  all_goals rfl

@[simp] theorem Same.with_tbl {m : Nat} {s₀ s : State} {x} (h : Has m [.tbl]) :
    Same m s₀ { s with tbl := x } ↔ Same m s₀ s := by
  refine Same.lift h s₀ fun f hf => ?_
  cases f
  case tbl => simp [mask] at hf
  all_goals rfl

@[simp] theorem Same.with_tows {m : Nat} {s₀ s : State} {x} (h : Has m [.tows]) :
    Same m s₀ { s with tows := x } ↔ Same m s₀ s := by
  refine Same.lift h s₀ fun f hf => ?_
  cases f
  case tows => simp [mask] at hf
  all_goals rfl

@[simp] theorem Same.with_reins {m : Nat} {s₀ s : State} {x} (h : Has m [.reins]) :
    Same m s₀ { s with reins := x } ↔ Same m s₀ s := by
  refine Same.lift h s₀ fun f hf => ?_
  cases f
  case reins => simp [mask] at hf
  all_goals rfl

@[simp] theorem Same.with_rrUsed {m : Nat} {s₀ s : State} {x} (h : Has m [.rrUsed]) :
    Same m s₀ { s with rrUsed := x } ↔ Same m s₀ s := by
  refine Same.lift h s₀ fun f hf => ?_
  cases f
  case rrUsed => simp [mask] at hf
  all_goals rfl

@[simp] theorem Same.with_draws {m : Nat} {s₀ s : State} {x} (h : Has m [.draws]) :
    Same m s₀ { s with draws := x } ↔ Same m s₀ s := by
  refine Same.lift h s₀ fun f hf => ?_
  cases f
  case draws => simp [mask] at hf
  all_goals rfl

@[simp] theorem Same.with_counts {m : Nat} {s₀ s : State} {x} (h : Has m [.counts]) :
    Same m s₀ { s with counts := x } ↔ Same m s₀ s := by
  refine Same.lift h s₀ fun f hf => ?_
  cases f
  case counts => simp [mask] at hf
  all_goals rfl

@[simp] theorem Same.with_links {m : Nat} {s₀ s : State} {x} (h : Has m [.links]) :
    Same m s₀ { s with links := x } ↔ Same m s₀ s := by
  refine Same.lift h s₀ fun f hf => ?_
  cases f
  case links => simp [mask] at hf
  all_goals rfl

@[simp] theorem Same.with_flt {m : Nat} {s₀ s : State} {x} (h : Has m [.flt]) :
    Same m s₀ { s with flt := x } ↔ Same m s₀ s := by
  refine Same.lift h s₀ fun f hf => ?_
  cases f
  case flt => simp [mask] at hf
  all_goals rfl

@[simp] theorem Same.with_ccnt {m : Nat} {s₀ s : State} {x} (h : Has m [.ccnt]) :
    Same m s₀ { s with ccnt := x } ↔ Same m s₀ s := by
  refine Same.lift h s₀ fun f hf => ?_
  cases f
  case ccnt => simp [mask] at hf
  all_goals rfl

@[simp] theorem Same.with_logs {m : Nat} {s₀ s : State} {x} (h : Has m [.logs]) :
    Same m s₀ { s with logs := x } ↔ Same m s₀ s := by
  refine Same.lift h s₀ fun f hf => ?_
  cases f
  case logs => simp [mask] at hf
  all_goals rfl

@[simp] theorem Same.with_lbOut {m : Nat} {s₀ s : State} {x} (h : Has m [.lbOut]) :
    Same m s₀ { s with lbOut := x } ↔ Same m s₀ s := by
  refine Same.lift h s₀ fun f hf => ?_
  cases f
  case lbOut => simp [mask] at hf
  all_goals rfl

@[simp] theorem Same.with_groups {m : Nat} {s₀ s : State} {x} (h : Has m [.groups]) :
    Same m s₀ { s with groups := x } ↔ Same m s₀ s := by
  refine Same.lift h s₀ fun f hf => ?_
  cases f
  case groups => simp [mask] at hf
  all_goals rfl

@[simp] theorem Same.with_rus {m : Nat} {s₀ s : State} {x} (h : Has m [.rus]) :
    Same m s₀ { s with rus := x } ↔ Same m s₀ s := by
  refine Same.lift h s₀ fun f hf => ?_
  cases f
  case rus => simp [mask] at hf
  all_goals rfl

@[simp] theorem Same.with_ruGone {m : Nat} {s₀ s : State} {x} (h : Has m [.ruGone]) :
    Same m s₀ { s with ruGone := x } ↔ Same m s₀ s := by
  refine Same.lift h s₀ fun f hf => ?_
  cases f
  case ruGone => simp [mask] at hf
  all_goals rfl

@[simp] theorem Same.with_berths {m : Nat} {s₀ s : State} {x} (h : Has m [.berths]) :
    Same m s₀ { s with berths := x } ↔ Same m s₀ s := by
  refine Same.lift h s₀ fun f hf => ?_
  cases f
  case berths => simp [mask] at hf
  all_goals rfl

@[simp] theorem Same.with_teams {m : Nat} {s₀ s : State} {x} (h : Has m [.teams]) :
    Same m s₀ { s with teams := x } ↔ Same m s₀ s := by
  refine Same.lift h s₀ fun f hf => ?_
  cases f
  case teams => simp [mask] at hf
  all_goals rfl

@[simp] theorem Same.with_phys {m : Nat} {s₀ s : State} {x} (h : Has m [.phys]) :
    Same m s₀ { s with phys := x } ↔ Same m s₀ s := by
  refine Same.lift h s₀ fun f hf => ?_
  cases f
  case phys => simp [mask] at hf
  all_goals rfl

@[simp] theorem Same.with_i2c {m : Nat} {s₀ s : State} {x} (h : Has m [.i2c]) :
    Same m s₀ { s with i2c := x } ↔ Same m s₀ s := by
  refine Same.lift h s₀ fun f hf => ?_
  cases f
  case i2c => simp [mask] at hf
  all_goals rfl

@[simp] theorem Same.with_abort {m : Nat} {s₀ s : State} {x} (h : Has m [.abort]) :
    Same m s₀ { s with abort := x } ↔ Same m s₀ s := by
  refine Same.lift h s₀ fun f hf => ?_
  cases f
  case abort => simp [mask] at hf
  all_goals rfl

@[simp] theorem Same.with_halt {m : Nat} {s₀ s : State} {x} (h : Has m [.halt]) :
    Same m s₀ { s with halt := x } ↔ Same m s₀ s := by
  refine Same.lift h s₀ fun f hf => ?_
  cases f
  case halt => simp [mask] at hf
  all_goals rfl

@[simp] theorem Same.with_far {m : Nat} {s₀ s : State} {x} (h : Has m [.far]) :
    Same m s₀ { s with far := x } ↔ Same m s₀ s := by
  refine Same.lift h s₀ fun f hf => ?_
  cases f
  case far => simp [mask] at hf
  all_goals rfl

@[simp] theorem Same.with_mons {m : Nat} {s₀ s : State} {x} (h : Has m [.mons]) :
    Same m s₀ { s with mons := x } ↔ Same m s₀ s := by
  refine Same.lift h s₀ fun f hf => ?_
  cases f
  case mons => simp [mask] at hf
  all_goals rfl

@[simp] theorem Same.with_mc {m : Nat} {s₀ s : State} {x} (h : Has m [.mc]) :
    Same m s₀ { s with mc := x } ↔ Same m s₀ s := by
  refine Same.lift h s₀ fun f hf => ?_
  cases f
  case mc => simp [mask] at hf
  all_goals rfl

@[simp] theorem Same.with_ts {m : Nat} {s₀ s : State} {x} (h : Has m [.ts]) :
    Same m s₀ { s with ts := x } ↔ Same m s₀ s := by
  refine Same.lift h s₀ fun f hf => ?_
  cases f
  case ts => simp [mask] at hf
  all_goals rfl

@[simp] theorem Same.with_life {m : Nat} {s₀ s : State} {x} (h : Has m [.life]) :
    Same m s₀ { s with life := x } ↔ Same m s₀ s := by
  refine Same.lift h s₀ fun f hf => ?_
  cases f
  case life => simp [mask] at hf
  all_goals rfl

@[simp] theorem Same.with_cmap {m : Nat} {s₀ s : State} {x} (h : Has m [.cmap]) :
    Same m s₀ { s with cmap := x } ↔ Same m s₀ s := by
  refine Same.lift h s₀ fun f hf => ?_
  cases f
  case cmap => simp [mask] at hf
  all_goals rfl

@[simp] theorem Same.with_pwr {m : Nat} {s₀ s : State} {x} (h : Has m [.pwr]) :
    Same m s₀ { s with pwr := x } ↔ Same m s₀ s := by
  refine Same.lift h s₀ fun f hf => ?_
  cases f
  case pwr => simp [mask] at hf
  all_goals rfl

@[simp] theorem Same.with_out_eject {m : Nat} {s₀ s : State} {x0} {x1} (h : Has m [.out, .eject]) :
    Same m s₀ { s with out := x0, eject := x1 } ↔ Same m s₀ s := by
  refine Same.lift h s₀ fun f hf => ?_
  cases f
  case out | eject => simp [mask] at hf
  all_goals rfl

@[simp] theorem Same.with_inj_pseq {m : Nat} {s₀ s : State} {x0} {x1} (h : Has m [.inj, .pseq]) :
    Same m s₀ { s with inj := x0, pseq := x1 } ↔ Same m s₀ s := by
  refine Same.lift h s₀ fun f hf => ?_
  cases f
  case inj | pseq => simp [mask] at hf
  all_goals rfl

@[simp] theorem Same.with_atc_eng {m : Nat} {s₀ s : State} {x0} {x1} (h : Has m [.atc, .eng]) :
    Same m s₀ { s with atc := x0, eng := x1 } ↔ Same m s₀ s := by
  refine Same.lift h s₀ fun f hf => ?_
  cases f
  case atc | eng => simp [mask] at hf
  all_goals rfl

@[simp] theorem Same.with_inj_eject {m : Nat} {s₀ s : State} {x0} {x1} (h : Has m [.inj, .eject]) :
    Same m s₀ { s with inj := x0, eject := x1 } ↔ Same m s₀ s := by
  refine Same.lift h s₀ fun f hf => ?_
  cases f
  case inj | eject => simp [mask] at hf
  all_goals rfl

@[simp] theorem Same.with_rg_flt {m : Nat} {s₀ s : State} {x0} {x1} (h : Has m [.rg, .flt]) :
    Same m s₀ { s with rg := x0, flt := x1 } ↔ Same m s₀ s := by
  refine Same.lift h s₀ fun f hf => ?_
  cases f
  case rg | flt => simp [mask] at hf
  all_goals rfl

@[simp] theorem Same.with_ident_mc {m : Nat} {s₀ s : State} {x0} {x1} (h : Has m [.ident, .mc]) :
    Same m s₀ { s with ident := x0, mc := x1 } ↔ Same m s₀ s := by
  refine Same.lift h s₀ fun f hf => ?_
  cases f
  case ident | mc => simp [mask] at hf
  all_goals rfl

@[simp] theorem Same.with_free_ts {m : Nat} {s₀ s : State} {x0} {x1} (h : Has m [.free, .ts]) :
    Same m s₀ { s with free := x0, ts := x1 } ↔ Same m s₀ s := by
  refine Same.lift h s₀ fun f hf => ?_
  cases f
  case free | ts => simp [mask] at hf
  all_goals rfl

@[simp] theorem Same.with_free_mc {m : Nat} {s₀ s : State} {x0} {x1} (h : Has m [.free, .mc]) :
    Same m s₀ { s with free := x0, mc := x1 } ↔ Same m s₀ s := by
  refine Same.lift h s₀ fun f hf => ?_
  cases f
  case free | mc => simp [mask] at hf
  all_goals rfl

@[simp] theorem Same.with_free_pwr {m : Nat} {s₀ s : State} {x0} {x1} (h : Has m [.free, .pwr]) :
    Same m s₀ { s with free := x0, pwr := x1 } ↔ Same m s₀ s := by
  refine Same.lift h s₀ fun f hf => ?_
  cases f
  case free | pwr => simp [mask] at hf
  all_goals rfl

@[simp] theorem Same.with_i2c_mc {m : Nat} {s₀ s : State} {x0} {x1} (h : Has m [.i2c, .mc]) :
    Same m s₀ { s with i2c := x0, mc := x1 } ↔ Same m s₀ s := by
  refine Same.lift h s₀ fun f hf => ?_
  cases f
  case i2c | mc => simp [mask] at hf
  all_goals rfl

@[simp] theorem Same.with_flt_life {m : Nat} {s₀ s : State} {x0} {x1} (h : Has m [.flt, .life]) :
    Same m s₀ { s with flt := x0, life := x1 } ↔ Same m s₀ s := by
  refine Same.lift h s₀ fun f hf => ?_
  cases f
  case flt | life => simp [mask] at hf
  all_goals rfl

@[simp] theorem Same.with_tod_ts {m : Nat} {s₀ s : State} {x0} {x1} (h : Has m [.tod, .ts]) :
    Same m s₀ { s with tod := x0, ts := x1 } ↔ Same m s₀ s := by
  refine Same.lift h s₀ fun f hf => ?_
  cases f
  case tod | ts => simp [mask] at hf
  all_goals rfl

@[simp] theorem Same.with_tbl_mc {m : Nat} {s₀ s : State} {x0} {x1} (h : Has m [.tbl, .mc]) :
    Same m s₀ { s with tbl := x0, mc := x1 } ↔ Same m s₀ s := by
  refine Same.lift h s₀ fun f hf => ?_
  cases f
  case tbl | mc => simp [mask] at hf
  all_goals rfl

@[simp] theorem Same.with_far_mc {m : Nat} {s₀ s : State} {x0} {x1} (h : Has m [.far, .mc]) :
    Same m s₀ { s with far := x0, mc := x1 } ↔ Same m s₀ s := by
  refine Same.lift h s₀ fun f hf => ?_
  cases f
  case far | mc => simp [mask] at hf
  all_goals rfl

@[simp] theorem Same.with_rus_ruGone {m : Nat} {s₀ s : State} {x0} {x1} (h : Has m [.rus, .ruGone]) :
    Same m s₀ { s with rus := x0, ruGone := x1 } ↔ Same m s₀ s := by
  refine Same.lift h s₀ fun f hf => ?_
  cases f
  case rus | ruGone => simp [mask] at hf
  all_goals rfl

@[simp] theorem Same.with_eng_streams {m : Nat} {s₀ s : State} {x0} {x1} (h : Has m [.eng, .streams]) :
    Same m s₀ { s with eng := x0, streams := x1 } ↔ Same m s₀ s := by
  refine Same.lift h s₀ fun f hf => ?_
  cases f
  case eng | streams => simp [mask] at hf
  all_goals rfl

end Sys2Proof.Machine

namespace Sys2Proof.Machine

/-- The fields that `State.mbPerform` may write. -/
def mbFlds : List Fld := [.out, .free, .tod, .ident, .pfence, .rg, .wshadow, .rshadow, .chans, .cpHeld, .scal, .tally,
  .watch, .atc, .eng, .hm, .ra, .streams, .ev, .inj, .pseq, .eject, .tbl, .tows, .reins, .rrUsed, .counts, .links,
  .flt, .ccnt, .logs, .lbOut, .groups, .rus, .teams, .phys, .i2c, .abort, .halt, .far, .mons, .mc, .ts, .life, .cmap,
  .pwr]
@[simp] theorem bits_mbFlds : bits mbFlds = 0x7FF9FEFFFFFF6 := rfl

/-- The fields that `State.writeReg` may write. -/
def regFlds : List Fld := [.out, .free, .ident, .pfence, .rg, .wshadow, .chans, .cpHeld, .scal, .tally, .watch, .atc,
  .eng, .hm, .ra, .streams, .ev, .inj, .pseq, .eject, .tbl, .tows, .reins, .rrUsed, .counts, .links, .flt, .ccnt,
  .logs, .lbOut, .groups, .rus, .teams, .phys, .i2c, .abort, .halt, .far, .mons, .mc, .ts, .life, .cmap, .pwr]
@[simp] theorem bits_regFlds : bits regFlds = 0x7FF9FEFFFFDE6 := rfl

/-- The fields that `State.writeLow` may write. -/
def lowFlds : List Fld := [.out, .ident, .pfence, .rg, .wshadow, .chans, .cpHeld, .scal, .watch, .atc, .eng, .hm, .ra,
  .streams, .ev, .inj, .pseq, .eject, .tows, .reins, .rrUsed, .counts, .links, .flt, .ccnt, .logs, .groups, .rus,
  .teams, .phys, .abort, .halt, .mons, .mc, .ts, .life, .cmap, .pwr]
@[simp] theorem bits_lowFlds : bits lowFlds = 0x7ED9BEEFFDDE2 := rfl

/-- The fields that `State.treeDown` may write. -/
def downFlds : List Fld := [.out, .free, .rg, .chans, .cpHeld, .scal, .eng, .hm, .ra, .ev, .inj, .pseq, .eject, .tbl,
  .tows, .reins, .rrUsed, .counts, .links, .flt, .ccnt, .logs, .groups, .teams, .phys, .i2c, .abort, .halt, .mons,
  .mc, .ts, .cmap]
@[simp] theorem bits_downFlds : bits downFlds = 0x2EF8BEFF71C86 := rfl

/-- The fields that `State.leadStep` may write. -/
def leadFlds : List Fld := [.out, .free, .rg, .chans, .cpHeld, .scal, .eng, .hm, .ra, .ev, .inj, .pseq, .eject, .tbl,
  .tows, .reins, .rrUsed, .counts, .links, .flt, .ccnt, .logs, .groups, .teams, .phys, .i2c, .halt, .mons, .mc, .ts,
  .cmap]
@[simp] theorem bits_leadFlds : bits leadFlds = 0x2EB8BEFF71C86 := rfl

/-- The fields that `State.takeRaise` may write. -/
def raiseFlds : List Fld := [.out, .rg, .chans, .cpHeld, .scal, .eng, .hm, .ra, .streams, .ev, .inj, .pseq, .eject,
  .tows, .reins, .rrUsed, .counts, .links, .flt, .ccnt, .logs, .groups, .teams, .phys, .halt, .mons, .mc, .ts, .life,
  .cmap]
@[simp] theorem bits_raiseFlds : bits raiseFlds = 0x3E98BEEFF1C82 := rfl

/-- The fields that `State.wave` may write. -/
def waveFlds : List Fld := [.out, .rg, .chans, .cpHeld, .scal, .eng, .hm, .ra, .ev, .inj, .pseq, .eject, .tbl, .tows,
  .reins, .rrUsed, .counts, .links, .flt, .ccnt, .logs, .groups, .teams, .phys, .halt, .mons, .mc, .ts, .cmap]
@[simp] theorem bits_waveFlds : bits waveFlds = 0x2E98BEFF71C82 := rfl

/-- The fields that `State.warmRequest` may write. -/
def warmFlds : List Fld := [.out, .rg, .chans, .cpHeld, .scal, .eng, .hm, .ra, .streams, .ev, .inj, .pseq, .eject,
  .tows, .reins, .rrUsed, .counts, .links, .flt, .ccnt, .logs, .groups, .teams, .phys, .halt, .mons, .ts, .cmap, .pwr]
@[simp] theorem bits_warmFlds : bits warmFlds = 0x6A98BEEFF1C82 := rfl

section

variable {μ : Nat} {s₀ : State}

/-! ### Stored registers -/

@[simp] theorem State.setReg_same (s : State) (off : Nat) (w : Word) (hμ : Has μ [.rg]) :
    Same μ s₀ (s.setReg off w) ↔ Same μ s₀ s :=
  Same.lift hμ s₀ (by simp [State.setReg])

@[simp] theorem State.orReg_same (s : State) (off : Nat) (w : Word) (hμ : Has μ [.rg]) :
    Same μ s₀ (s.orReg off w) ↔ Same μ s₀ s :=
  Same.lift hμ s₀ (by simp [State.orReg])

@[simp] theorem State.clrReg_same (s : State) (off : Nat) (w : Word) (hμ : Has μ [.rg]) :
    Same μ s₀ (s.clrReg off w) ↔ Same μ s₀ s :=
  Same.lift hμ s₀ (by simp [State.clrReg])

@[simp] theorem State.incReg_same (s : State) (off : Nat) (hμ : Has μ [.rg]) :
    Same μ s₀ (s.incReg off) ↔ Same μ s₀ s :=
  Same.lift hμ s₀ (by simp [State.incReg])

@[simp] theorem State.putField_same (s : State) (off lo w v : Nat) (hμ : Has μ [.rg]) :
    Same μ s₀ (s.putField off lo w v) ↔ Same μ s₀ s :=
  Same.lift hμ s₀ (by simp [State.putField])

/-! ### Shared operations -/

@[simp] theorem State.setChan_same (s : State) (k : Nat) (c : Chan) (hμ : Has μ [.chans]) :
    Same μ s₀ (s.setChan k c) ↔ Same μ s₀ s :=
  Same.lift hμ s₀ (by simp [State.setChan])

@[simp] theorem State.modChan_same (s : State) (k : Nat) (f : Chan → Chan) (hμ : Has μ [.chans]) :
    Same μ s₀ (s.modChan k f) ↔ Same μ s₀ s :=
  Same.lift hμ s₀ (by simp [State.modChan])

@[simp] theorem State.setScalar_same (s : State) (k i : Nat) (v : Quad) (hμ : Has μ [.scal]) :
    Same μ s₀ (s.setScalar k i v) ↔ Same μ s₀ s :=
  Same.lift hμ s₀ (by simp [State.setScalar])

@[simp] theorem State.setTallyRaw_same (s : State) (n : Nat) (v : BitVec 48) (hμ : Has μ [.tally]) :
    Same μ s₀ (s.setTallyRaw n v) ↔ Same μ s₀ s :=
  Same.lift hμ s₀ (by simp [State.setTallyRaw])

@[simp] theorem State.setWatch_same (s : State) (w : Nat) (x : Watch) (hμ : Has μ [.watch]) :
    Same μ s₀ (s.setWatch w x) ↔ Same μ s₀ s :=
  Same.lift hμ s₀ (by simp [State.setWatch])

@[simp] theorem State.modHm_same (s : State) (p : Nat) (f : HmPort → HmPort) (hμ : Has μ [.hm]) :
    Same μ s₀ (s.modHm p f) ↔ Same μ s₀ s :=
  Same.lift hμ s₀ (by simp [State.modHm])

@[simp] theorem State.modRa_same (s : State) (p : Nat) (f : RaPort → RaPort) (hμ : Has μ [.ra]) :
    Same μ s₀ (s.modRa p f) ↔ Same μ s₀ s :=
  Same.lift hμ s₀ (by simp [State.modRa])

@[simp] theorem State.modLink_same (s : State) (p : Nat) (f : Link → Link) (hμ : Has μ [.links]) :
    Same μ s₀ (s.modLink p f) ↔ Same μ s₀ s :=
  Same.lift hμ s₀ (by simp [State.modLink])

@[simp] theorem State.modTow_same (s : State) (t : Nat) (f : Tow → Tow) (hμ : Has μ [.tows]) :
    Same μ s₀ (s.modTow t f) ↔ Same μ s₀ s :=
  Same.lift hμ s₀ (by simp [State.modTow])

@[simp] theorem State.modCount_same (s : State) (k : Nat) (f : Counts → Counts) (hμ : Has μ [.counts]) :
    Same μ s₀ (s.modCount k f) ↔ Same μ s₀ s :=
  Same.lift hμ s₀ (by simp [State.modCount])

@[simp] theorem State.modRein_same (s : State) (k : Nat) (f : Rein → Rein) (hμ : Has μ [.reins]) :
    Same μ s₀ (s.modRein k f) ↔ Same μ s₀ s :=
  Same.lift hμ s₀ (by simp [State.modRein])

@[simp] theorem State.setSource_same (s : State) (code inst : Nat) (x : Source) (hμ : Has μ [.flt]) :
    Same μ s₀ (s.setSource code inst x) ↔ Same μ s₀ s :=
  Same.lift hμ s₀ (by simp [State.setSource])

@[simp] theorem State.drive_same (s : State) (o : Output) (hμ : Has μ [.out]) :
    Same μ s₀ (s.drive o) ↔ Same μ s₀ s :=
  Same.lift hμ s₀ (by simp [State.drive])

@[simp] theorem State.raiseX_same (s : State) (r : Raise) (hμ : Has μ [.flt]) :
    Same μ s₀ (s.raiseX r) ↔ Same μ s₀ s :=
  Same.lift hμ s₀ (by simp [State.raiseX])

@[simp] theorem State.raise_same (s : State) (code inst cls : Nat) (atype master : Nat) (addr : Nat) (detail : Nat)
    (inj : Bool) (hμ : Has μ [.flt]) :
    Same μ s₀ (s.raise code inst cls atype master addr detail inj) ↔ Same μ s₀ s :=
  Same.lift hμ s₀ (by simp [State.raise])

@[simp] theorem State.takeInj_same (s : State) (code inst : Nat) (hμ : Has μ [.rg, .flt]) :
    Same μ s₀ (s.takeInj code inst).2 ↔ Same μ s₀ s := by
  refine Same.lift hμ s₀ ?_
  unfold State.takeInj
  split <;> simp

@[simp] theorem State.takeEcc_same (s : State) (code inst cls atype master : Nat) (hμ : Has μ [.rg, .flt]) :
    Same μ s₀ (s.takeEcc code inst cls atype master).2 ↔ Same μ s₀ s :=
  Same.lift hμ s₀ (by simp [State.takeEcc])

/-! ### Events and logs -/

@[simp] theorem State.modLog_same (s : State) (n : Nat) (f : Log → Log) (hμ : Has μ [.logs]) :
    Same μ s₀ (s.modLog n f) ↔ Same μ s₀ s :=
  Same.lift hμ s₀ (by simp [State.modLog])

@[simp] theorem State.logAdd_same (s : State) (n kind sub tag q2 q3 : Nat) (hμ : Has μ [.rg, .logs]) :
    Same μ s₀ (s.logAdd n kind sub tag q2 q3).1 ↔ Same μ s₀ s :=
  Same.lift hμ s₀ (by simp [State.logAdd])

@[simp] theorem State.logAll_same (s : State) (src kind sub tag q2 q3 : Nat) (hμ : Has μ [.rg, .logs]) :
    Same μ s₀ (s.logAll src kind sub tag q2 q3).1 ↔ Same μ s₀ s :=
  Same.lift hμ s₀ (by simp [State.logAll])

@[simp] theorem State.emitAll_same (fuel : Nat) (l : List (Option Nat × BitVec 128)) (s : State) (hμ : Has μ [.rg, .ev,
    .logs]) :
    Same μ s₀ (State.emitAll fuel l s) ↔ Same μ s₀ s := by
  refine Same.lift_iff hμ s₀ fun s₀ => ?_
  induction fuel generalizing l s s₀ with
  | zero => rfl
  | succ n ih =>
    match l with
    | [] => rfl
    | (src, w) :: rest =>
      unfold State.emitAll
      split <;> simp [ih]

@[simp] theorem State.emit_same (s : State) (w : Nat) (src : Option Nat) (hμ : Has μ [.rg, .ev, .logs]) :
    Same μ s₀ (s.emit w src) ↔ Same μ s₀ s :=
  Same.lift hμ s₀ (by simp [State.emit])

@[simp] theorem State.record_same (s : State) (src kind sub tag q2 q3 : Nat) (hμ : Has μ [.rg, .ev, .logs]) :
    Same μ s₀ (s.record src kind sub tag q2 q3) ↔ Same μ s₀ s :=
  Same.lift hμ s₀ (by simp [State.record])

@[simp] theorem State.pumpEvents_same (fuel : Nat) (s : State) (hμ : Has μ [.rg, .ev, .logs]) :
    Same μ s₀ (State.pumpEvents fuel s) ↔ Same μ s₀ s := by
  refine Same.lift_iff hμ s₀ fun s₀ => ?_
  induction fuel generalizing s s₀ with
  | zero => rfl
  | succ n ih =>
    unfold State.pumpEvents
    split <;> simp [ih]

/-! ### Packets sent -/

@[simp] theorem State.setCnt64_same (s : State) (off : Nat) (v : Nat) (hμ : Has μ [.rg]) :
    Same μ s₀ (s.setCnt64 off v) ↔ Same μ s₀ s :=
  Same.lift hμ s₀ (by simp [State.setCnt64])

@[simp] theorem State.addCnt64_same (s : State) (off : Nat) (v : Nat) (hμ : Has μ [.rg]) :
    Same μ s₀ (s.addCnt64 off v) ↔ Same μ s₀ s :=
  Same.lift hμ s₀ (by simp [State.addCnt64])

@[simp] theorem State.countPkt_same (s : State) (at_ : Nat) (p : Packet) (hμ : Has μ [.rg]) :
    Same μ s₀ (s.countPkt at_ p) ↔ Same μ s₀ s := by
  refine Same.lift hμ s₀ ?_
  have two (t : State) (b n m : Nat) : Same (mask [.rg]) t ((t.addCnt64 b n).addCnt64 (b + 8) m) := by simp
  unfold State.countPkt
  refine (two s _ _ _).trans (Same.foldl (fun t i => ?_) _ _)
  split
  · exact two _ _ _ _
  · rfl

@[simp] theorem State.form_same (s : State) (h : Hd) (pay : List Byte) (dir : Option Nat) (key : Option (Nat × Nat))
    (hμ : Has μ [.rg, .inj, .pseq, .counts]) :
    Same μ s₀ (s.form h pay dir key) ↔ Same μ s₀ s :=
  Same.lift hμ s₀ (by simp [State.form])

@[simp] theorem State.respond_same (s : State) (h : Hd) (pay : List Byte) (key : Option (Nat × Nat)) (hμ : Has μ [.rg,
    .inj, .pseq, .counts]) :
    Same μ s₀ (s.respond h pay key) ↔ Same μ s₀ s :=
  Same.lift hμ s₀ (by simp [State.respond])

@[simp] theorem State.answer_same (s : State) (p : Packet) (outcome : Nat) (found : Nat) (hμ : Has μ [.rg, .inj, .pseq,
    .counts]) :
    Same μ s₀ (s.answer p outcome found) ↔ Same μ s₀ s :=
  Same.lift hμ s₀ (by simp [State.answer])

@[simp] theorem State.answerFor_same (s : State) (p : Packet) (outcome : Nat) (hμ : Has μ [.rg, .inj, .pseq, .counts]) :
    Same μ s₀ (s.answerFor p outcome) ↔ Same μ s₀ s :=
  Same.lift hμ s₀ (by simp [State.answerFor])

@[simp] theorem State.reinCharge_same (s : State) (k opcode len : Nat) (hμ : Has μ [.reins]) :
    Same μ s₀ (s.reinCharge k opcode len) ↔ Same μ s₀ s :=
  Same.lift hμ s₀ (by simp [State.reinCharge])

@[simp] theorem State.reinHeld_same (s : State) (k : Nat) (hμ : Has μ [.reins]) :
    Same μ s₀ (s.reinHeld k) ↔ Same μ s₀ s :=
  Same.lift hμ s₀ (by simp [State.reinHeld])

@[simp] theorem State.reinEcho_same (s : State) (k echo : Nat) (hμ : Has μ [.reins]) :
    Same μ s₀ (s.reinEcho k echo) ↔ Same μ s₀ s :=
  Same.lift hμ s₀ (by simp [State.reinEcho])

@[simp] theorem State.modGroup_same (s : State) (g : Nat) (f : Group → Group) (hμ : Has μ [.groups]) :
    Same μ s₀ (s.modGroup g f) ↔ Same μ s₀ s :=
  Same.lift hμ s₀ (by simp [State.modGroup])

@[simp] theorem State.modInst_same (s : State) (g : Nat) (f : CollInst → CollInst) (hμ : Has μ [.groups]) :
    Same μ s₀ (s.modInst g f) ↔ Same μ s₀ s :=
  Same.lift hμ s₀ (by simp [State.modInst])

@[simp] theorem State.modCnt_same (s : State) (k : Nat) (f : ChanCnt → ChanCnt) (hμ : Has μ [.ccnt]) :
    Same μ s₀ (s.modCnt k f) ↔ Same μ s₀ s :=
  Same.lift hμ s₀ (by simp [State.modCnt])

@[simp] theorem State.cntStart_same (s : State) (k seq iter : Nat) (hμ : Has μ [.ccnt]) :
    Same μ s₀ (s.cntStart k seq iter) ↔ Same μ s₀ s :=
  Same.lift hμ s₀ (by simp [State.cntStart])

@[simp] theorem State.cntStop_same (s : State) (k : Nat) (hμ : Has μ [.ccnt]) :
    Same μ s₀ (s.cntStop k) ↔ Same μ s₀ s :=
  Same.lift hμ s₀ (by simp [State.cntStop])

@[simp] theorem State.cntForm_same (s : State) (k n : Nat) (hμ : Has μ [.ccnt]) :
    Same μ s₀ (s.cntForm k n) ↔ Same μ s₀ s :=
  Same.lift hμ s₀ (by simp [State.cntForm])

@[simp] theorem State.cntRead_same (s : State) (k n : Nat) (hμ : Has μ [.ccnt]) :
    Same μ s₀ (s.cntRead k n) ↔ Same μ s₀ s :=
  Same.lift hμ s₀ (by simp [State.cntRead])

@[simp] theorem State.cntRein_same (s : State) (k : Nat) (hμ : Has μ [.ccnt]) :
    Same μ s₀ (s.cntRein k) ↔ Same μ s₀ s :=
  Same.lift hμ s₀ (by simp [State.cntRein])

/-! ### The read and write engines -/

@[simp] theorem State.startRead_same (s : State) (use : RdUse) (rs : List (Nat × Nat)) (hμ : Has μ [.eng, .hm]) :
    Same μ s₀ (s.startRead use rs).2 ↔ Same μ s₀ s :=
  Same.lift hμ s₀ (by simp [State.startRead])

@[simp] theorem State.startWrite_same (s : State) (use : WrUse) (grans : List WrGran) (count : Nat) (hμ : Has μ [.eng,
    .hm]) :
    Same μ s₀ (s.startWrite use grans count).2 ↔ Same μ s₀ s :=
  Same.lift hμ s₀ (by simp [State.startWrite])

/-! ### Channels -/

@[simp] theorem State.progress_same (s : State) (k : Nat) (hμ : Has μ [.chans]) :
    Same μ s₀ (s.progress k) ↔ Same μ s₀ s :=
  Same.lift hμ s₀ (by simp [State.progress])

@[simp] theorem State.stopChan_same (s : State) (k : Nat) (kind : StopKind) (seq status : Nat) (hμ : Has μ [.rg,
    .chans, .ev, .logs]) :
    Same μ s₀ (s.stopChan k kind seq status) ↔ Same μ s₀ s :=
  Same.lift hμ s₀ (by simp [State.stopChan])

@[simp] theorem State.settleOwedN_same (n k : Nat) (s : State) (hμ : Has μ [.rg, .chans, .ev, .logs]) :
    Same μ s₀ (State.settleOwedN n k s) ↔ Same μ s₀ s := by
  refine Same.lift_iff hμ s₀ fun s₀ => ?_
  induction n generalizing s s₀ with
  | zero => rfl
  | succ n ih =>
    unfold State.settleOwedN
    dsimp only
    split <;> simp [ih]

@[simp] theorem State.settleOwed_same (s : State) (k : Nat) (hμ : Has μ [.rg, .chans, .ev, .logs]) :
    Same μ s₀ (s.settleOwed k) ↔ Same μ s₀ s :=
  Same.lift hμ s₀ (by simp [State.settleOwed])

@[simp] theorem State.complete_same (s : State) (k : Nat) (f : Flight) (status : Nat) (hμ : Has μ [.rg, .chans, .ev,
    .logs]) :
    Same μ s₀ (s.complete k f status) ↔ Same μ s₀ s := by
  refine Same.lift hμ s₀ ?_
  unfold State.complete
  split <;> simp

@[simp] theorem State.chanOff_same (s : State) (k : Nat) (hμ : Has μ [.rg, .chans, .ev, .logs]) :
    Same μ s₀ (s.chanOff k) ↔ Same μ s₀ s :=
  Same.lift hμ s₀ (by simp [State.chanOff])

@[simp] theorem State.settleN_same (n k : Nat) (s : State) (hμ : Has μ [.rg, .chans, .scal, .ev, .logs]) :
    Same μ s₀ (State.settleN n k s) ↔ Same μ s₀ s := by
  refine Same.lift_iff hμ s₀ fun s₀ => ?_
  induction n generalizing s s₀ with
  | zero => rfl
  | succ n ih =>
    unfold State.settleN
    dsimp only
    repeat' split
    all_goals simp [ih]

@[simp] theorem State.settle_same (s : State) (k : Nat) (hμ : Has μ [.rg, .chans, .scal, .ev, .logs]) :
    Same μ s₀ (s.settle k) ↔ Same μ s₀ s :=
  Same.lift hμ s₀ (by simp [State.settle])

@[simp] theorem State.evalWatch_same (s : State) (w : Nat) (hμ : Has μ [.free, .watch]) :
    Same μ s₀ (s.evalWatch w) ↔ Same μ s₀ s :=
  Same.lift hμ s₀ (by simp [State.evalWatch])

@[simp] theorem State.evalWatches_same (s : State) (n : Nat) (hμ : Has μ [.free, .watch]) :
    Same μ s₀ (s.evalWatches n) ↔ Same μ s₀ s :=
  Same.lift hμ s₀ (by simp [State.evalWatches])

@[simp] theorem State.evalWaits_same (s : State) (hμ : Has μ [.rg, .chans, .scal, .ev, .logs]) :
    Same μ s₀ s.evalWaits ↔ Same μ s₀ s := by
  refine Same.lift hμ s₀ ?_
  refine Same.foldl (fun t x => ?_) _ _
  dsimp only
  repeat' split
  all_goals simp

@[simp] theorem State.setTally_same (s : State) (n : Nat) (v : BitVec 48) (hμ : Has μ [.free, .rg, .chans, .scal,
    .tally, .watch, .ev, .logs]) :
    Same μ s₀ (s.setTally n v) ↔ Same μ s₀ s :=
  Same.lift hμ s₀ (by simp [State.setTally])

@[simp] theorem State.addTally_same (s : State) (n : Nat) (v : Nat) (hμ : Has μ [.free, .rg, .chans, .scal, .tally,
    .watch, .ev, .flt, .logs]) :
    Same μ s₀ (s.addTally n v) ↔ Same μ s₀ s :=
  Same.lift hμ s₀ (by simp [State.addTally])

/-! ### Register writes -/

/-- A bit is written as 1 to clear it only where the field map lets it (`identityRegs_mask`). -/
@[simp] theorem State.w1cOnly_same (s : State) (off : Nat) (data : Word) (hμ : Has μ [.rg, .chans, .watch, .rus]) :
    Same μ s₀ (s.w1cOnly off data) ↔ Same μ s₀ s := by
  refine Same.lift hμ s₀ ?_
  unfold State.w1cOnly
  dsimp only
  repeat' split
  all_goals simp

@[simp] theorem State.rgBad_same (s : State) (off : Nat) (inj : Bool) (hμ : Has μ [.out, .rg, .flt]) :
    Same μ s₀ (s.rgBad off inj) ↔ Same μ s₀ s :=
  Same.lift hμ s₀ (by simp [State.rgBad])

@[simp] theorem State.regWrite_same (s : State) (off : Nat) (a : RgAcc) {f : State → Bool → Word → State} (al : Bool)
    (hμ : Has μ [.out, .rg, .chans, .watch, .flt, .rus]) (h : ∀ t p d, Same μ t (f t p d)) :
    Same μ s₀ (s.regWrite off a f al) ↔ Same μ s₀ s := by
  have hs (l : List Fld) : Has (mask [.out, .rg, .chans, .watch, .flt, .rus]) l → Has μ l := hμ.subset
  refine Same.iff_of_same ?_
  unfold State.regWrite
  split
  · exact h _ _ _
  · dsimp only
    split
    · simp [hs]
    · split <;> simp [hs, Same.iff_of_same (h _ _ _)]

/-- A stored write changes only fields that the map lets it. -/
@[simp] theorem State.plainWrite_same (s : State) (off : Nat) (priv : Bool) (d : Word) (hμ : Has μ [.rg]) :
    Same μ s₀ (s.plainWrite off priv d) ↔ Same μ s₀ s :=
  Same.lift hμ s₀ (by simp [State.plainWrite])

/-! ### The physical layer -/

@[simp] theorem State.modPhy_same (s : State) (t : Nat) (f : Phy → Phy) (hμ : Has μ [.phys]) :
    Same μ s₀ (s.modPhy t f) ↔ Same μ s₀ s :=
  Same.lift hμ s₀ (by simp [State.modPhy])

@[simp] theorem State.sendLanes_same (s : State) (t : Nat) (syms : List (List Nat)) (hμ : Has μ [.out]) :
    Same μ s₀ (s.sendLanes t syms) ↔ Same μ s₀ s :=
  Same.lift hμ s₀ (by simp [State.sendLanes])

@[simp] theorem State.pnFrame_same (s : State) (t i : Nat) (hμ : Has μ [.phys]) :
    Same μ s₀ (s.pnFrame t i) ↔ Same μ s₀ s :=
  Same.lift hμ s₀ (by simp [State.pnFrame])

@[simp] theorem State.sendLmw_same (s : State) (t : Nat) (w : Quad) (hμ : Has μ [.out, .phys]) :
    Same μ s₀ (s.sendLmw t w) ↔ Same μ s₀ s :=
  Same.lift hμ s₀ (by simp [State.sendLmw])

@[simp] theorem State.restartPhy_same (s : State) (t : Nat) (hμ : Has μ [.phys]) :
    Same μ s₀ (s.restartPhy t) ↔ Same μ s₀ s :=
  Same.lift hμ s₀ (by simp [State.restartPhy])

@[simp] theorem State.sendSlot_same (s : State) (t tag : Nat) (hμ : Has μ [.out]) :
    Same μ s₀ (s.sendSlot t tag) ↔ Same μ s₀ s :=
  Same.lift hμ s₀ (by simp [State.sendSlot])

@[simp] theorem State.sendBits_same (s : State) (t v scr : Nat) (inv : Bool) (hμ : Has μ [.out, .phys]) :
    Same μ s₀ (s.sendBits t v scr inv) ↔ Same μ s₀ s := by
  refine Same.lift hμ s₀ ?_
  unfold State.sendBits
  split <;> simp

@[simp] theorem State.sendBody_same (s : State) (t : Nat) (body : BitVec 2048) (inv : Bool) (hμ : Has μ [.out, .phys]) :
    Same μ s₀ (s.sendBody t body inv) ↔ Same μ s₀ s :=
  Same.lift hμ s₀ (by simp [State.sendBody])

@[simp] theorem State.slotDue_same (s : State) (t : Nat) (hμ : Has μ [.phys]) :
    Same μ s₀ (s.slotDue t).2 ↔ Same μ s₀ s := by
  refine Same.lift hμ s₀ ?_
  unfold State.slotDue
  split <;> simp

/-! ### Links -/

@[simp] theorem State.lifeInc_same (s : State) (off : Nat) (hμ : Has μ [.life]) :
    Same μ s₀ (s.lifeInc off) ↔ Same μ s₀ s :=
  Same.lift hμ s₀ (by simp [State.lifeInc])

@[simp] theorem State.spareLog_same (s : State) (kind inst detail : Nat) (hμ : Has μ [.rg, .ev, .logs, .life]) :
    Same μ s₀ (s.spareLog kind inst detail) ↔ Same μ s₀ s :=
  Same.lift hμ s₀ (by simp [State.spareLog])

@[simp] theorem State.modTeam_same (s : State) (t : Nat) (f : Team → Team) (hμ : Has μ [.teams]) :
    Same μ s₀ (s.modTeam t f) ↔ Same μ s₀ s :=
  Same.lift hμ s₀ (by simp [State.modTeam])

@[simp] theorem State.setTeams_same (s : State) (p : Nat) (which : Team → Bool) (st : TeamSt) (hμ : Has μ [.teams]) :
    Same μ s₀ (s.setTeams p which st) ↔ Same μ s₀ s :=
  Same.lift hμ s₀ (by simp [State.setTeams])

@[simp] theorem State.modMon_same (s : State) (i : Nat) (f : Monitor → Monitor) (hμ : Has μ [.mons]) :
    Same μ s₀ (s.modMon i f) ↔ Same μ s₀ s :=
  Same.lift hμ s₀ (by simp [State.modMon])

@[simp] theorem State.tagBack_same (s : State) (p : Nat) (hμ : Has μ [.tows, .links]) :
    Same μ s₀ (s.tagBack p).2 ↔ Same μ s₀ s := by
  refine Same.lift hμ s₀ ?_
  unfold State.tagBack
  dsimp only
  repeat' split
  all_goals simp

@[simp] theorem State.sendNull_same (s : State) (p team : Nat) (body : Bool) (hμ : Has μ [.out, .tows, .links, .phys]) :
    Same μ s₀ (s.sendNull p team body) ↔ Same μ s₀ s :=
  Same.lift hμ s₀ (by simp [State.sendNull])

@[simp] theorem State.spareSlot_same (s : State) (p team : Nat) (hμ : Has μ [.out, .tows, .links, .phys]) :
    Same μ s₀ (s.spareSlot p team) ↔ Same μ s₀ s :=
  Same.lift hμ s₀ (by simp [State.spareSlot])

@[simp] theorem State.driveFlit_same (s : State) (p team tag : Nat) (body : BitVec 2048) (bad : Bool) (fec : Bool) (hμ
    : Has μ [.out, .tows, .links, .phys]) :
    Same μ s₀ (s.driveFlit p team tag body bad fec) ↔ Same μ s₀ s :=
  Same.lift hμ s₀ (by simp [State.driveFlit])

@[simp] theorem State.idlePort_same (s : State) (p : Nat) (hμ : Has μ [.out, .tows, .links, .phys]) :
    Same μ s₀ (s.idlePort p) ↔ Same μ s₀ s := by
  refine Same.lift hμ s₀ ?_
  unfold State.idlePort
  dsimp only
  split <;> simp

@[simp] theorem State.idlePorts_same (s : State) (hμ : Has μ [.out, .tows, .links, .phys]) :
    Same μ s₀ s.idlePorts ↔ Same μ s₀ s :=
  Same.lift hμ s₀ (by simp [State.idlePorts])

@[simp] theorem State.takeLnkInj_same (s : State) (p : Nat) (hμ : Has μ [.rg]) :
    Same μ s₀ (s.takeLnkInj p).2 ↔ Same μ s₀ s :=
  Same.lift hμ s₀ (by simp [State.takeLnkInj])

@[simp] theorem State.nextTeam_same (s : State) (p : Nat) (hμ : Has μ [.links]) :
    Same μ s₀ (s.nextTeam p).2 ↔ Same μ s₀ s :=
  Same.lift hμ s₀ (by simp [State.nextTeam])

@[simp] theorem State.transmit_same (s : State) (p core fseq : Nat) (body : BitVec 2048) (hμ : Has μ [.out, .rg, .tows,
    .links, .phys]) :
    Same μ s₀ (s.transmit p core fseq body) ↔ Same μ s₀ s :=
  Same.lift hμ s₀ (by simp [State.transmit])

@[simp] theorem State.sendSeq_same (s : State) (p core : Nat) (body : BitVec 2048) (hμ : Has μ [.out, .rg, .tows,
    .links, .phys, .mons, .cmap]) :
    Same μ s₀ (s.sendSeq p core body) ↔ Same μ s₀ s := by
  refine Same.lift hμ s₀ ?_
  simp [State.sendSeq, -State.modLink_frame]

@[simp] theorem State.sendUnseq_same (s : State) (p kind : Nat) (body : BitVec 2048) (team : Nat) (hμ : Has μ [.out,
    .tows, .links, .phys]) :
    Same μ s₀ (s.sendUnseq p kind body team) ↔ Same μ s₀ s :=
  Same.lift hμ s₀ (by simp [State.sendUnseq])

@[simp] theorem State.sendData_same (s : State) (q v : Nat) (tow : Option Nat) (first last abn : Bool) (body : BitVec
    2048) (hμ : Has μ [.out, .rg, .tows, .links, .phys, .mons, .cmap]) :
    Same μ s₀ (s.sendData q v tow first last abn body) ↔ Same μ s₀ s :=
  Same.lift hμ s₀ (by simp [State.sendData])

@[simp] theorem State.abandon_same (s : State) (p : Nat) (hμ : Has μ [.rg]) :
    Same μ s₀ (s.abandon p) ↔ Same μ s₀ s :=
  Same.lift hμ s₀ (by simp [State.abandon])

@[simp] theorem State.abandonRest_same (s : State) (h : Held) (hμ : Has μ [.out, .rg, .tows, .links, .phys, .mons,
    .cmap]) :
    Same μ s₀ (s.abandonRest h) ↔ Same μ s₀ s := by
  refine Same.lift hμ s₀ ?_
  unfold State.abandonRest
  dsimp only
  repeat' split
  all_goals simp

@[simp] theorem State.countDrop_same (s : State) (p : Packet) (hμ : Has μ [.counts]) :
    Same μ s₀ (s.countDrop p) ↔ Same μ s₀ s :=
  Same.lift hμ s₀ (by simp [State.countDrop])

@[simp] theorem State.discard1_same (s : State) (h : Held) (hμ : Has μ [.out, .rg, .tows, .counts, .links, .phys,
    .mons, .cmap]) :
    Same μ s₀ (s.discard1 h) ↔ Same μ s₀ s :=
  Same.lift hμ s₀ (by simp [State.discard1])

@[simp] theorem State.towDrained_same (s : State) (t : Nat) (hμ : Has μ [.tows]) :
    Same μ s₀ (s.towDrained t) ↔ Same μ s₀ s :=
  Same.lift hμ s₀ (by simp [State.towDrained])

@[simp] theorem State.discardHeld_same (s : State) (which : Held → Bool) (hμ : Has μ [.out, .rg, .inj, .eject, .tows,
    .counts, .links, .phys, .mons, .cmap]) :
    Same μ s₀ (s.discardHeld which) ↔ Same μ s₀ s := by
  refine Same.lift hμ s₀ ?_
  have drop (u : State) (l : List Held) : Same (mask [.out, .rg, .inj, .eject, .tows, .counts, .links, .phys, .mons,
    .cmap]) u (l.foldl (fun t h => t.discard1 h) u) :=
    Same.foldl (fun _ _ => by simp) l u
  unfold State.discardHeld
  dsimp only
  rw [Same.iff_of_same (drop _ _)]
  refine (Same.with_inj_eject (by simp)).mpr (Same.trans ?_ (Same.foldl (fun t x => Same.trans ?_ (drop _ _)) _ _))
  · refine Same.foldl (fun t p => Same.trans ?_ (Same.foldl (fun u h => ?_) _ _)) _ _
    · simp
    · split <;> simp
  · simp

@[simp] theorem State.flushCtl_same (s : State) (p : Nat) (hμ : Has μ [.out, .rg, .tows, .links, .phys, .mons, .cmap]) :
    Same μ s₀ (s.flushCtl p) ↔ Same μ s₀ s :=
  Same.lift hμ s₀ (by simp [State.flushCtl])

@[simp] theorem State.sendCtl_same (s : State) (p ctype fields : Nat) (hμ : Has μ [.out, .rg, .tows, .links, .phys,
    .mons, .cmap]) :
    Same μ s₀ (s.sendCtl p ctype fields) ↔ Same μ s₀ s := by
  refine Same.lift hμ s₀ ?_
  unfold State.sendCtl
  dsimp only
  repeat' split
  all_goals simp

@[simp] theorem State.sendParam_same (s : State) (p : Nat) (hμ : Has μ [.out, .tows, .links, .phys]) :
    Same μ s₀ (s.sendParam p) ↔ Same μ s₀ s :=
  Same.lift hμ s₀ (by simp [State.sendParam])

@[simp] theorem State.resendParams_same (s : State) (hμ : Has μ [.out, .tows, .links, .phys]) :
    Same μ s₀ s.resendParams ↔ Same μ s₀ s :=
  Same.lift hμ s₀ (by simp [State.resendParams])

@[simp] theorem State.towKill_same (s : State) (t : Nat) (hμ : Has μ [.out, .rg, .tows, .counts, .links, .phys, .mons,
    .cmap]) :
    Same μ s₀ (s.towKill t) ↔ Same μ s₀ s :=
  Same.lift hμ s₀ (by simp [State.towKill])

@[simp] theorem State.towFence_same (s : State) (p : Nat) (hμ : Has μ [.out, .rg, .tows, .counts, .links, .phys, .mons,
    .cmap]) :
    Same μ s₀ (s.towFence p) ↔ Same μ s₀ s :=
  Same.lift hμ s₀ (by simp [State.towFence])

@[simp] theorem State.haltForget_same (s : State) (p : Nat) (hμ : Has μ [.halt]) :
    Same μ s₀ (s.haltForget p) ↔ Same μ s₀ s :=
  Same.lift hμ s₀ (by simp [State.haltForget])

@[simp] theorem State.cutPackets_same (s : State) (p : Nat) (hμ : Has μ [.out, .rg, .inj, .eject, .tows, .counts,
    .links, .phys, .mons, .cmap]) :
    Same μ s₀ (s.cutPackets p) ↔ Same μ s₀ s :=
  Same.lift hμ s₀ (by simp [State.cutPackets])

@[simp] theorem State.setTime_same (s : State) (st : TimeSt) (hμ : Has μ [.rg, .ev, .flt, .logs, .ts]) :
    Same μ s₀ (s.setTime st) ↔ Same μ s₀ s :=
  Same.lift hμ s₀ (by simp [State.setTime])

@[simp] theorem State.parentLost_same (s : State) (p : Nat) (hμ : Has μ [.rg, .ev, .flt, .logs, .ts]) :
    Same μ s₀ (s.parentLost p) ↔ Same μ s₀ s :=
  Same.lift hμ s₀ (by simp [State.parentLost])

@[simp] theorem State.fencePort_same (s : State) (p cause : Nat) (hμ : Has μ [.out, .rg, .ev, .inj, .eject, .tows,
    .counts, .links, .flt, .logs, .teams, .phys, .halt, .mons, .ts, .cmap]) :
    Same μ s₀ (s.fencePort p cause) ↔ Same μ s₀ s :=
  Same.lift hμ s₀ (by simp [State.fencePort])

@[simp] theorem State.trainPort_same (s : State) (p : Nat) (hμ : Has μ [.links, .teams, .phys]) :
    Same μ s₀ (s.trainPort p) ↔ Same μ s₀ s :=
  Same.lift hμ s₀ (by simp [State.trainPort])

@[simp] theorem State.offPort_same (s : State) (p : Nat) (hμ : Has μ [.out, .rg, .inj, .eject, .tows, .counts, .links,
    .teams, .phys, .halt, .mons, .cmap]) :
    Same μ s₀ (s.offPort p) ↔ Same μ s₀ s :=
  Same.lift hμ s₀ (by simp [State.offPort])

@[simp] theorem State.retrainPort_same (s : State) (p reason : Nat) (send drain : Bool) (hμ : Has μ [.out, .rg, .ev,
    .tows, .links, .flt, .logs, .teams, .phys, .halt, .ts, .life]) :
    Same μ s₀ (s.retrainPort p reason send drain) ↔ Same μ s₀ s := by
  refine Same.lift hμ s₀ ?_
  have h : 0x34 ≤ 0x81C + 0x40 * p := by omega
  simp [State.retrainPort]

@[simp] theorem State.drainDone_same (s : State) (p : Nat) (hμ : Has μ [.out, .rg, .inj, .eject, .tows, .counts,
    .links, .teams, .phys, .halt, .mons, .cmap]) :
    Same μ s₀ (s.drainDone p) ↔ Same μ s₀ s :=
  Same.lift hμ s₀ (by simp [State.drainDone])

@[simp] theorem State.activePort_same (s : State) (p : Nat) (fresh : Bool) (hμ : Has μ [.out, .rg, .ev, .tows, .links,
    .logs, .teams, .phys, .mons, .cmap]) :
    Same μ s₀ (s.activePort p fresh) ↔ Same μ s₀ s :=
  Same.lift hμ s₀ (by simp [State.activePort])

/-! ### Commands of a channel -/

@[simp] theorem State.modFlight_same (s : State) (k ord : Nat) (f : Flight → Flight) (hμ : Has μ [.chans]) :
    Same μ s₀ (s.modFlight k ord f) ↔ Same μ s₀ s :=
  Same.lift hμ s₀ (by simp [State.modFlight])

@[simp] theorem State.failSlot_same (s : State) (k : Nat) (x : Slot) (aout : Nat) (fenced aborted : Bool) (hμ : Has μ
    [.chans]) :
    Same μ s₀ (s.failSlot k x aout fenced aborted) ↔ Same μ s₀ s :=
  Same.lift hμ s₀ (by simp [State.failSlot])

@[simp] theorem State.dropAhead_same (s : State) (k : Nat) (hμ : Has μ [.eng]) :
    Same μ s₀ (s.dropAhead k) ↔ Same μ s₀ s :=
  Same.lift hμ s₀ (by simp [State.dropAhead])

@[simp] theorem State.drainChan_same (s : State) (k : Nat) (keepPend fence : Bool) (hμ : Has μ [.rg, .chans, .scal,
    .eng, .ev, .logs]) :
    Same μ s₀ (s.drainChan k keepPend fence) ↔ Same μ s₀ s :=
  Same.lift hμ s₀ (by simp [State.drainChan])

@[simp] theorem State.abortSlots_same (s : State) (k : Nat) (hμ : Has μ [.chans]) :
    Same μ s₀ (s.abortSlots k) ↔ Same μ s₀ s :=
  Same.lift hμ s₀ (by simp [State.abortSlots])

@[simp] theorem State.fenceSlots_same (s : State) (p : Nat) (hμ : Has μ [.rg, .chans, .scal, .ev, .logs]) :
    Same μ s₀ (s.fenceSlots p) ↔ Same μ s₀ s := by
  refine Same.lift hμ s₀ ?_
  exact Same.foldl (fun t x => by simp) _ _

@[simp] theorem State.collProgress_same (s : State) (g own : Nat) (hμ : Has μ [.chans]) :
    Same μ s₀ (s.collProgress g own) ↔ Same μ s₀ s :=
  Same.lift hμ s₀ (by simp [State.collProgress])

@[simp] theorem State.begin_same (s : State) (k : Nat) (w : CmdWord) (hμ : Has μ [.rg, .chans, .ev, .ccnt, .logs]) :
    Same μ s₀ (s.begin k w).1 ↔ Same μ s₀ s :=
  Same.lift hμ s₀ (by simp [State.begin])

@[simp] theorem State.loopLong_same (s : State) (k : Nat) (hμ : Has μ [.rg, .chans, .ev, .logs]) :
    Same μ s₀ (s.loopLong k) ↔ Same μ s₀ s :=
  Same.lift hμ s₀ (by simp [State.loopLong])

@[simp] theorem State.wordEcc_same (s : State) (k : Nat) (w : CmdWord) (hμ : Has μ [.rg, .flt]) :
    Same μ s₀ (s.wordEcc k w).2 ↔ Same μ s₀ s :=
  Same.lift hμ s₀ (by simp [State.wordEcc])

@[simp] theorem State.startCmd_same (s : State) (k : Nat) (good : CmdWord → Bool) {body : State → Flight → State}
    (hμ : Has μ [.rg, .chans, .scal, .ev, .flt, .ccnt, .logs]) (h : ∀ t f, Same μ t (body t f)) :
    Same μ s₀ (s.startCmd k good body) ↔ Same μ s₀ s := by
  have hs (l : List Fld) : Has (mask [.rg, .chans, .scal, .ev, .flt, .ccnt, .logs]) l → Has μ l := hμ.subset
  refine Same.iff_of_same ?_
  unfold State.startCmd
  split
  · rfl
  · split
    · simp [hs]
    · dsimp only
      split
      · simp [hs]
      · split <;> split <;> simp [hs, Same.iff_of_same (h _ _)]

/-! ### The issue of fragments -/

@[simp] theorem State.modeOf_same (s : State) (f : Flight) (chip len destBytes : Nat) (hμ : Has μ [.draws]) :
    Same μ s₀ (s.modeOf f chip len destBytes).2 ↔ Same μ s₀ s := by
  refine Same.lift hμ s₀ ?_
  unfold State.modeOf
  dsimp only
  repeat' split
  all_goals simp

@[simp] theorem State.towEnter_same (s : State) (e : Nat) (hμ : Has μ [.tows]) :
    Same μ s₀ (s.towEnter e) ↔ Same μ s₀ s :=
  Same.lift hμ s₀ (by simp [State.towEnter])

@[simp] theorem State.towLeave_same (s : State) (e : Nat) (hμ : Has μ [.tows]) :
    Same μ s₀ (s.towLeave e) ↔ Same μ s₀ s :=
  Same.lift hμ s₀ (by simp [State.towLeave])

@[simp] theorem State.useSlot_same (s : State) (i : Nat) (hμ : Has μ [.rrUsed]) :
    Same μ s₀ (s.useSlot i) ↔ Same μ s₀ s :=
  Same.lift hμ s₀ (by simp [State.useSlot])

@[simp] theorem State.issue_same (s : State) (k : Nat) (f : Flight) (fr : Frag) (h : Hd) (pay : List Byte) (tow :
    Option Nat) (reinLen : Nat) (hμ : Has μ [.rg, .chans, .inj, .pseq, .tows, .reins, .rrUsed, .counts, .ccnt]) :
    Same μ s₀ (s.issue k f fr h pay tow reinLen) ↔ Same μ s₀ s := by
  refine Same.lift hμ s₀ ?_
  unfold State.issue
  dsimp only
  repeat' split
  all_goals simp

@[simp] theorem State.failFrag_same (s : State) (k : Nat) (f : Flight) (fr : Frag) (aout : Nat) (fenced : Bool) (hμ :
    Has μ [.chans]) :
    Same μ s₀ (s.failFrag k f fr aout fenced) ↔ Same μ s₀ s :=
  Same.lift hμ s₀ (by simp [State.failFrag])

@[simp] theorem State.offer_same (s : State) (k : Nat) (f : Flight) (fr : Frag) (tow leaves : Bool)
    (next : Flight → Flight) {go : State → State}
    (hμ : Has μ [.chans, .reins, .ccnt]) (h : Same μ s (go s)) :
    Same μ s₀ (s.offer k f fr tow leaves next go) ↔ Same μ s₀ s := by
  have hs (l : List Fld) : Has (mask [.chans, .reins, .ccnt]) l → Has μ l := hμ.subset
  refine Same.iff_of_same ?_
  unfold State.offer
  repeat' split
  all_goals simp [hs, h]

@[simp] theorem State.issueSingle_same (s : State) (k : Nat) (f : Flight) (hμ : Has μ [.rg, .chans, .inj, .pseq, .tows,
    .reins, .rrUsed, .counts, .ccnt]) :
    Same μ s₀ (s.issueSingle k f) ↔ Same μ s₀ s := by
  refine Same.lift hμ s₀ ?_
  unfold State.issueSingle
  exact (State.offer_same _ _ _ _ _ _ _ (by simp) (by simp)).mpr (Same.refl _ s)

@[simp] theorem State.readAhead_same (s : State) (k : Nat) (f : Flight) (c : Cursor) (hμ : Has μ [.chans, .eng, .hm]) :
    Same μ s₀ (s.readAhead k f c) ↔ Same μ s₀ s := by
  refine Same.lift hμ s₀ ?_
  unfold State.readAhead
  dsimp only
  repeat' split
  all_goals simp

@[simp] theorem State.issueData_same (s : State) (k : Nat) (f : Flight) (a : Ahead) (data : List Byte) (poison : Nat)
    (hμ : Has μ [.rg, .chans, .inj, .pseq, .tows, .reins, .rrUsed, .draws, .counts, .ccnt]) :
    Same μ s₀ (s.issueData k f a data poison) ↔ Same μ s₀ s := by
  refine Same.lift hμ s₀ ?_
  unfold State.issueData
  dsimp only
  simp

@[simp] theorem State.issueRead_same (s : State) (k : Nat) (f : Flight) (c : Cursor) (way : Way) (hμ : Has μ [.rg,
    .chans, .inj, .pseq, .tows, .reins, .rrUsed, .counts, .ccnt]) :
    Same μ s₀ (s.issueRead k f c way) ↔ Same μ s₀ s := by
  refine Same.lift hμ s₀ ?_
  unfold State.issueRead
  dsimp only
  split <;> simp

@[simp] theorem State.issueStep_same (s : State) (k : Nat) (hμ : Has μ [.rg, .chans, .scal, .eng, .hm, .ev, .inj,
    .pseq, .tows, .reins, .rrUsed, .draws, .counts, .ccnt, .logs]) :
    Same μ s₀ (s.issueStep k) ↔ Same μ s₀ s := by
  refine Same.lift hμ s₀ ?_
  unfold State.issueStep
  dsimp only
  repeat' split
  all_goals simp

/-! ### Execution of commands -/

@[simp] theorem State.branchDone_same (s : State) (k status : Nat) (hμ : Has μ [.rg, .chans, .ev, .ccnt, .logs]) :
    Same μ s₀ (s.branchDone k status) ↔ Same μ s₀ s := by
  refine Same.lift hμ s₀ ?_
  unfold State.branchDone
  split <;> simp

@[simp] theorem State.runSkip_same (n k : Nat) (s : State) (hμ : Has μ [.rg, .chans, .ev, .ccnt, .logs]) :
    Same μ s₀ (State.runSkip n k s) ↔ Same μ s₀ s := by
  refine Same.lift_iff hμ s₀ fun s₀ => ?_
  induction n generalizing s s₀ with
  | zero => rfl
  | succ n ih =>
    unfold State.runSkip
    dsimp only
    repeat' split
    all_goals simp [ih]

@[simp] theorem State.discardWords_same (s : State) (k : Nat) (hμ : Has μ [.rg, .chans, .ev, .ccnt, .logs]) :
    Same μ s₀ (s.discardWords k) ↔ Same μ s₀ s :=
  Same.lift hμ s₀ (by simp [State.discardWords])

@[simp] theorem State.cpFault_same (s : State) (port k status : Nat) (inj : Bool) (hμ : Has μ [.flt]) :
    Same μ s₀ (s.cpFault port k status inj) ↔ Same μ s₀ s := by
  refine Same.lift hμ s₀ ?_
  unfold State.cpFault
  split <;> simp

@[simp] theorem State.enqueue_same (s : State) (k : Nat) (w : CmdWord) (hμ : Has μ [.chans]) :
    Same μ s₀ (s.enqueue k w) ↔ Same μ s₀ s :=
  Same.lift hμ s₀ (by simp [State.enqueue])

@[simp] theorem State.cpOffer_same (s : State) (port : Nat) (w : CmdWord) (crc : HWord) (hμ : Has μ [.out, .rg, .chans,
    .ev, .flt, .ccnt, .logs]) :
    Same μ s₀ (s.cpOffer port w crc) ↔ Same μ s₀ s :=
  Same.lift hμ s₀ (by simp [State.cpOffer])

@[simp] theorem State.releaseCp_same (s : State) (hμ : Has μ [.out, .rg, .chans, .cpHeld, .ev, .flt, .ccnt, .logs]) :
    Same μ s₀ s.releaseCp ↔ Same μ s₀ s :=
  Same.lift hμ s₀ (by simp [State.releaseCp])

@[simp] theorem State.chanEnable_same (s : State) (k : Nat) (hμ : Has μ [.chans]) :
    Same μ s₀ (s.chanEnable k) ↔ Same μ s₀ s :=
  Same.lift hμ s₀ (by simp [State.chanEnable])

@[simp] theorem State.chanResume_same (s : State) (k : Nat) (hμ : Has μ [.chans]) :
    Same μ s₀ (s.chanResume k) ↔ Same μ s₀ s :=
  Same.lift hμ s₀ (by simp [State.chanResume])

@[simp] theorem State.wrScalHi_same (s : State) (k i : Nat) (d : Word) (hμ : Has μ [.rg, .chans, .scal, .ev, .logs]) :
    Same μ s₀ (s.wrScalHi k i d) ↔ Same μ s₀ s :=
  Same.lift hμ s₀ (by simp [State.wrScalHi])

@[simp] theorem State.checkStall_same (s : State) (k : Nat) (hμ : Has μ [.rg, .chans, .ev, .logs]) :
    Same μ s₀ (s.checkStall k) ↔ Same μ s₀ s :=
  Same.lift hμ s₀ (by simp [State.checkStall])

@[simp] theorem State.wrCons_same (s : State) (k : Nat) (d : Word) (hμ : Has μ [.rg, .chans, .ev, .logs]) :
    Same μ s₀ (s.wrCons k d) ↔ Same μ s₀ s :=
  Same.lift hμ s₀ (by simp [State.wrCons])

@[simp] theorem State.wrShape_same (s : State) (e : Nat) (d : Word) (hμ : Has μ [.rg]) :
    Same μ s₀ (s.wrShape e d) ↔ Same μ s₀ s :=
  Same.lift hμ s₀ (by simp [State.wrShape])

@[simp] theorem State.loadsDone_same (s : State) (k : Nat) (f : Flight) (v : Quad) (hμ : Has μ [.rg, .chans, .scal,
    .ev, .logs]) :
    Same μ s₀ (s.loadsDone k f v) ↔ Same μ s₀ s :=
  Same.lift hμ s₀ (by simp [State.loadsDone])

@[simp] theorem State.failAll_same (s : State) (k : Nat) (f : Flight) (aout planned : Nat) (fr : Frag) (hμ : Has μ
    [.rg, .chans, .ev, .logs]) :
    Same μ s₀ (s.failAll k f aout planned fr) ↔ Same μ s₀ s :=
  Same.lift hμ s₀ (by simp [State.failAll])

@[simp] theorem State.startXfer_same (s : State) (k : Nat) (f : Flight) (hμ : Has μ [.rg, .chans, .ev, .logs]) :
    Same μ s₀ (s.startXfer k f) ↔ Same μ s₀ s := by
  refine Same.lift hμ s₀ ?_
  unfold State.startXfer
  dsimp only
  repeat' split
  all_goals simp

@[simp] theorem State.startSingle_same (s : State) (k : Nat) (f : Flight) (opcode : Nat) (hμ : Has μ [.rg, .chans,
    .scal, .eng, .hm, .ev, .inj, .pseq, .tows, .reins, .rrUsed, .draws, .counts, .ccnt, .logs]) :
    Same μ s₀ (s.startSingle k f opcode) ↔ Same μ s₀ s := by
  refine Same.lift hμ s₀ ?_
  unfold State.startSingle
  dsimp only
  split <;> simp

@[simp] theorem State.recordDone_same (s : State) (k ord : Nat) (ok : Bool) (hμ : Has μ [.rg, .chans, .scal, .ev,
    .logs]) :
    Same μ s₀ (s.recordDone k ord ok) ↔ Same μ s₀ s := by
  refine Same.lift hμ s₀ ?_
  unfold State.recordDone
  split <;> simp

/-! ### Collectives -/

@[simp] theorem State.collPacket_same (s : State) (c : CollInst) (opcode r cphase half dim : Nat) (scount : Nat) (rmode
    : Nat) (dir : Option Nat) (ftag offset : Nat) (pay : List Byte) (sat : Bool) (hμ : Has μ [.rg, .chans, .inj, .pseq,
    .counts, .ccnt]) :
    Same μ s₀ (s.collPacket c opcode r cphase half dim scount rmode dir ftag offset pay sat) ↔ Same μ s₀ s :=
  Same.lift hμ s₀ (by simp [State.collPacket])

@[simp] theorem State.collToken_same (s : State) (c : CollInst) (opcode r cphase half dim : Nat) (scount : Nat) (rmode
    : Nat) (dir : Option Nat) (hμ : Has μ [.rg, .chans, .inj, .pseq, .reins, .counts, .ccnt]) :
    Same μ s₀ (s.collToken c opcode r cphase half dim scount rmode dir).1 ↔ Same μ s₀ s :=
  Same.lift hμ s₀ (by simp [State.collToken])

@[simp] theorem State.countCopies_same (s : State) (n : Nat) (hμ : Has μ [.counts]) :
    Same μ s₀ (s.countCopies n) ↔ Same μ s₀ s :=
  Same.lift hμ s₀ (by simp [State.countCopies])

@[simp] theorem State.collStop_same (s : State) (g status outcome addr : Nat) (now : Bool) (hμ : Has μ [.eng, .groups])
    :
    Same μ s₀ (s.collStop g status outcome addr now) ↔ Same μ s₀ s := by
  refine Same.lift hμ s₀ ?_
  unfold State.collStop
  split <;> simp

@[simp] theorem State.collAbortAll_same (s : State) (g : Nat) (seq : HWord) (chan reason outcome : Nat) (chips : List
    Nat) (rank : Nat) (ids : HWord × HWord) (hμ : Has μ [.rg, .inj, .pseq, .counts]) :
    Same μ s₀ (s.collAbortAll g seq chan reason outcome chips rank ids) ↔ Same μ s₀ s :=
  Same.lift hμ s₀ (by simp [State.collAbortAll])

@[simp] theorem State.collMark_same (s : State) (g : Nat) (seq : HWord) (reason outcome : Nat) (hμ : Has μ [.rg,
    .groups]) :
    Same μ s₀ (s.collMark g seq reason outcome) ↔ Same μ s₀ s :=
  Same.lift hμ s₀ (by simp [State.collMark])

@[simp] theorem State.collAbort_same (s : State) (g reason outcome addr : Nat) (hμ : Has μ [.rg, .chans, .eng, .inj,
    .pseq, .counts, .groups]) :
    Same μ s₀ (s.collAbort g reason outcome addr) ↔ Same μ s₀ s := by
  refine Same.lift hμ s₀ ?_
  unfold State.collAbort
  split <;> simp

@[simp] theorem State.collSend1_same (s : State) (g : Nat) (x : OutPiece) (hμ : Has μ [.rg, .chans, .eng, .inj, .pseq,
    .tows, .reins, .counts, .ccnt, .groups]) :
    Same μ s₀ (s.collSend1 g x).1 ↔ Same μ s₀ s := by
  refine Same.lift hμ s₀ ?_
  unfold State.collSend1
  split
  · rfl
  · dsimp only
    repeat' split
    all_goals simp

/-- Each piece is sent or kept for later, from the first to the last. -/
@[simp] theorem State.collSendAll_same (s : State) (g : Nat) (hμ : Has μ [.rg, .chans, .eng, .inj, .pseq, .tows,
    .reins, .counts, .ccnt, .groups]) :
    Same μ s₀ (s.collSendAll g) ↔ Same μ s₀ s := by
  refine Same.lift hμ s₀ ?_
  unfold State.collSendAll
  split
  · rfl
  · next c _ =>
    refine (State.modInst_same _ _ _ (by simp)).mpr ?_
    refine foldl_keeps (R := fun a b : State × List OutPiece => Same (mask [.rg, .chans, .eng, .inj, .pseq, .tows,
    .reins, .counts, .ccnt, .groups]) a.1 b.1) (fun a => Same.refl _ a.1)
      Same.trans _ (fun a x => ?_) c.queue (s, [])
    split <;> simp

@[simp] theorem State.collAsk_same (n : Nat) (s : State) (g : Nat) (hμ : Has μ [.rg, .chans, .inj, .pseq, .reins,
    .counts, .ccnt, .groups]) :
    Same μ s₀ (State.collAsk n s g) ↔ Same μ s₀ s := by
  refine Same.lift_iff hμ s₀ fun s₀ => ?_
  induction n generalizing s s₀ with
  | zero => rfl
  | succ n ih =>
    unfold State.collAsk
    dsimp only
    repeat' split
    all_goals simp [ih]

@[simp] theorem State.collAsks_same (s : State) (g : Nat) (hμ : Has μ [.rg, .chans, .inj, .pseq, .reins, .counts,
    .ccnt, .groups]) :
    Same μ s₀ (s.collAsks g) ↔ Same μ s₀ s := by
  refine Same.lift hμ s₀ ?_
  unfold State.collAsks
  split <;> simp

@[simp] theorem State.colAnswer_same (s : State) (p : Packet) (outcome : Nat) (discarded : Bool) (hμ : Has μ [.rg,
    .chans, .inj, .pseq, .counts]) :
    Same μ s₀ (s.colAnswer p outcome discarded) ↔ Same μ s₀ s := by
  refine Same.lift hμ s₀ ?_
  unfold State.colAnswer
  dsimp only
  split <;> simp

@[simp] theorem State.collAcks_same (s : State) (g : Nat) (hμ : Has μ [.rg, .chans, .inj, .pseq, .counts, .groups]) :
    Same μ s₀ (s.collAcks g) ↔ Same μ s₀ s := by
  refine Same.lift hμ s₀ ?_
  unfold State.collAcks
  split <;> simp

theorem State.collRead1_same (s : State) (g : Nat) (t : State) (h : s.collRead1 g = some t) :
    Same (mask [.rg, .chans, .eng, .hm, .inj, .pseq, .counts, .groups]) s t := by
  unfold State.collRead1 at h
  dsimp only at h
  repeat' split at h
  all_goals cases h <;> simp

@[simp] theorem State.collReads_same (n : Nat) (s : State) (g : Nat) (hμ : Has μ [.rg, .chans, .eng, .hm, .inj, .pseq,
    .counts, .groups]) :
    Same μ s₀ (State.collReads n s g) ↔ Same μ s₀ s := by
  refine Same.lift_iff hμ s₀ fun s₀ => ?_
  induction n generalizing s s₀ with
  | zero => rfl
  | succ n ih =>
    unfold State.collReads
    split
    · next t h => exact (ih t s₀).trans (Same.iff_of_same ((s.collRead1_same g t h).mono (by simp)))
    · rfl

@[simp] theorem State.collWrite_same (s : State) (g kind : Nat) (rs : List (Nat × List Byte)) (pkt : Option Packet) (hμ
    : Has μ [.rg, .chans, .eng, .hm, .inj, .pseq, .counts, .groups]) :
    Same μ s₀ (s.collWrite g kind rs pkt) ↔ Same μ s₀ s := by
  refine Same.lift hμ s₀ ?_
  unfold State.collWrite
  dsimp only
  repeat' split
  all_goals simp

@[simp] theorem State.collFins_same (s : State) (g : Nat) (hμ : Has μ [.rg, .chans, .eng, .hm, .inj, .pseq, .counts,
    .groups]) :
    Same μ s₀ (s.collFins g) ↔ Same μ s₀ s := by
  refine Same.lift hμ s₀ ?_
  unfold State.collFins
  split <;> simp

@[simp] theorem State.collWritten_same (s : State) (g : Nat) (seq : HWord) (kind : Nat) (gb : List (Nat × Nat)) (addr :
    Nat) (pkt : Option Packet) (ok : Bool) (hμ : Has μ [.free, .rg, .chans, .scal, .tally, .watch, .ev, .inj, .pseq,
    .counts, .flt, .logs, .groups]) :
    Same μ s₀ (s.collWritten g seq kind gb addr pkt ok) ↔ Same μ s₀ s := by
  refine Same.lift hμ s₀ ?_
  unfold State.collWritten
  dsimp only
  repeat' split
  all_goals simp

@[simp] theorem State.collTokens_same (s : State) (g : Nat) (hμ : Has μ [.rg, .chans, .eng, .hm, .inj, .pseq, .reins,
    .counts, .ccnt, .groups]) :
    Same μ s₀ (s.collTokens g) ↔ Same μ s₀ s := by
  refine Same.lift hμ s₀ ?_
  unfold State.collTokens
  dsimp only
  repeat' split
  all_goals simp

@[simp] theorem State.collEnd_same (s : State) (g : Nat) (hμ : Has μ [.rg, .chans, .scal, .ev, .ccnt, .logs, .groups]) :
    Same μ s₀ (s.collEnd g) ↔ Same μ s₀ s := by
  refine Same.lift hμ s₀ ?_
  unfold State.collEnd
  dsimp only
  repeat' split
  all_goals simp

@[simp] theorem State.collIssued_same (s : State) (g : Nat) (hμ : Has μ [.chans, .ccnt]) :
    Same μ s₀ (s.collIssued g) ↔ Same μ s₀ s := by
  refine Same.lift hμ s₀ ?_
  unfold State.collIssued
  repeat' split
  all_goals simp

@[simp] theorem State.collPump_same (s : State) (g : Nat) (hμ : Has μ [.rg, .chans, .eng, .hm, .inj, .pseq, .tows,
    .reins, .counts, .ccnt, .groups]) :
    Same μ s₀ (s.collPump g) ↔ Same μ s₀ s :=
  Same.lift hμ s₀ (by simp [State.collPump])

@[simp] theorem State.collMismatch_same (s : State) (g fields rseq peer : Nat) (hμ : Has μ [.rg, .chans, .eng, .inj,
    .pseq, .counts, .flt, .groups]) :
    Same μ s₀ (s.collMismatch g fields rseq peer) ↔ Same μ s₀ s := by
  refine Same.lift hμ s₀ ?_
  unfold State.collMismatch
  dsimp only
  split <;> simp

@[simp] theorem State.takeReady_same (s : State) (g : Nat) (t : ReadyTok) (hμ : Has μ [.rg, .chans, .eng, .inj, .pseq,
    .counts, .flt, .groups]) :
    Same μ s₀ (s.takeReady g t) ↔ Same μ s₀ s := by
  refine Same.lift hμ s₀ ?_
  unfold State.takeReady
  dsimp only
  repeat' split
  all_goals simp

@[simp] theorem State.skipSeq_same (s : State) (g : Nat) (hμ : Has μ [.rg, .groups]) :
    Same μ s₀ (s.skipSeq g) ↔ Same μ s₀ s :=
  Same.lift hμ s₀ (by simp [State.skipSeq])

@[simp] theorem State.collOpen_same (s : State) (g : Nat) (v : Quad) (hμ : Has μ [.rg, .chans, .eng, .inj, .pseq,
    .reins, .counts, .flt, .ccnt, .groups]) :
    Same μ s₀ (s.collOpen g v) ↔ Same μ s₀ s := by
  refine Same.lift hμ s₀ ?_
  unfold State.collOpen
  split <;> simp

@[simp] theorem State.collRefuse_same (s : State) (k : Nat) (f : Flight) (status outcome addr fails : Nat) (hμ : Has μ
    [.rg, .chans, .scal, .ev, .ccnt, .logs]) :
    Same μ s₀ (s.collRefuse k f status outcome addr fails) ↔ Same μ s₀ s :=
  Same.lift hμ s₀ (by simp [State.collRefuse])

@[simp] theorem State.collStart_same (s : State) (k : Nat) (f : Flight) (hμ : Has μ [.rg, .chans, .scal, .eng, .hm,
    .ev, .inj, .pseq, .reins, .counts, .flt, .ccnt, .logs, .groups]) :
    Same μ s₀ (s.collStart k f) ↔ Same μ s₀ s := by
  refine Same.lift hμ s₀ ?_
  unfold State.collStart
  dsimp only
  repeat' split
  all_goals simp

@[simp] theorem State.collTurn_same (s : State) (g : Nat) (hμ : Has μ [.rg, .chans, .scal, .eng, .hm, .ev, .inj, .pseq,
    .tows, .reins, .counts, .ccnt, .logs, .groups]) :
    Same μ s₀ (s.collTurn g) ↔ Same μ s₀ s := by
  refine Same.lift hμ s₀ ?_
  unfold State.collTurn
  dsimp only
  split <;> simp

@[simp] theorem State.collCmd_same (s : State) (k : Nat) (f : Flight) (hμ : Has μ [.rg, .chans, .scal, .eng, .hm, .ev,
    .inj, .pseq, .tows, .reins, .counts, .flt, .ccnt, .logs, .groups]) :
    Same μ s₀ (s.collCmd k f) ↔ Same μ s₀ s :=
  Same.lift hμ s₀ (by simp [State.collCmd])

@[simp] theorem State.collReadDone_same (s : State) (g job : Nat) (got : List (Nat × Gran)) (err : Bool) (hμ : Has μ
    [.rg, .chans, .scal, .eng, .hm, .ev, .inj, .pseq, .tows, .reins, .counts, .ccnt, .logs, .groups]) :
    Same μ s₀ (s.collReadDone g job got err) ↔ Same μ s₀ s := by
  refine Same.lift hμ s₀ ?_
  unfold State.collReadDone
  dsimp only
  repeat' split
  all_goals simp

@[simp] theorem State.collHeadDone_same (s : State) (g : Nat) (got : List (Nat × Gran)) (err : Bool) (hμ : Has μ [.rg,
    .chans, .scal, .eng, .hm, .ev, .inj, .pseq, .tows, .reins, .counts, .flt, .ccnt, .logs, .groups]) :
    Same μ s₀ (s.collHeadDone g got err) ↔ Same μ s₀ s := by
  refine Same.lift hμ s₀ ?_
  unfold State.collHeadDone
  dsimp only
  repeat' split
  all_goals simp

@[simp] theorem State.collCombine_same (s : State) (g i : Nat) (hμ : Has μ [.rg, .chans, .scal, .eng, .hm, .ev, .inj,
    .pseq, .tows, .reins, .counts, .ccnt, .logs, .groups]) :
    Same μ s₀ (s.collCombine g i) ↔ Same μ s₀ s := by
  refine Same.lift hμ s₀ ?_
  unfold State.collCombine
  dsimp only
  repeat' split
  all_goals simp

/-! ### Packets of collectives -/

@[simp] theorem State.colDrop_same (s : State) (p : Packet) (hμ : Has μ [.rg, .chans, .inj, .pseq, .counts]) :
    Same μ s₀ (s.colDrop p) ↔ Same μ s₀ s :=
  Same.lift hμ s₀ (by simp [State.colDrop])

@[simp] theorem State.colInvalid_same (s : State) (p : Packet) (hμ : Has μ [.rg, .chans, .inj, .pseq, .counts, .flt]) :
    Same μ s₀ (s.colInvalid p) ↔ Same μ s₀ s :=
  Same.lift hμ s₀ (by simp [State.colInvalid])

@[simp] theorem State.colMoves_same (s : State) (g : Nat) (seq : HWord) (hμ : Has μ [.chans]) :
    Same μ s₀ (s.colMoves g seq) ↔ Same μ s₀ s := by
  refine Same.lift hμ s₀ ?_
  unfold State.colMoves
  split <;> simp

@[simp] theorem State.colAccept_same (s : State) (p : Packet) (hμ : Has μ [.rg, .chans, .scal, .eng, .hm, .ev, .inj,
    .pseq, .tows, .reins, .counts, .flt, .ccnt, .logs, .groups]) :
    Same μ s₀ (s.colAccept p) ↔ Same μ s₀ s := by
  refine Same.lift hμ s₀ ?_
  unfold State.colAccept
  dsimp only
  repeat' split
  all_goals simp

@[simp] theorem State.colAbortIn_same (s : State) (p : Packet) (hμ : Has μ [.rg, .chans, .scal, .eng, .hm, .ev, .inj,
    .pseq, .tows, .reins, .counts, .ccnt, .logs, .groups]) :
    Same μ s₀ (s.colAbortIn p) ↔ Same μ s₀ s := by
  refine Same.lift hμ s₀ ?_
  unfold State.colAbortIn
  dsimp only
  split <;> simp

@[simp] theorem State.colAckIn_same (s : State) (g : Nat) (c : CollInst) (w : ColWire) (r : Nat) (p : Packet) (hμ : Has
    μ [.rg, .chans, .scal, .eng, .hm, .ev, .inj, .pseq, .tows, .reins, .counts, .ccnt, .logs, .groups]) :
    Same μ s₀ (s.colAckIn g c w r p) ↔ Same μ s₀ s := by
  refine Same.lift hμ s₀ ?_
  unfold State.colAckIn
  split <;> simp

@[simp] theorem State.collDrain_same (s : State) (k : Nat) (hμ : Has μ [.rg, .chans, .scal, .eng, .hm, .ev, .inj,
    .pseq, .tows, .reins, .counts, .ccnt, .logs, .groups]) :
    Same μ s₀ (s.collDrain k) ↔ Same μ s₀ s :=
  Same.lift hμ s₀ (by simp [State.collDrain])

@[simp] theorem State.collEndAll_same (s : State) (status outcome : Nat) (which : CollInst → Bool) (hμ : Has μ [.rg,
    .chans, .scal, .eng, .hm, .ev, .inj, .pseq, .tows, .reins, .counts, .ccnt, .logs, .groups]) :
    Same μ s₀ (s.collEndAll status outcome which) ↔ Same μ s₀ s := by
  refine Same.lift hμ s₀ ?_
  refine Same.foldl (fun t x => ?_) _ _
  dsimp only
  repeat' split
  all_goals simp

@[simp] theorem State.groupsReset_same (s : State) (hμ : Has μ [.groups]) :
    Same μ s₀ s.groupsReset ↔ Same μ s₀ s :=
  Same.lift hμ s₀ (by simp [State.groupsReset])

@[simp] theorem State.drainAll_same (s : State) (k : Nat) (keepPend fence : Bool) (hμ : Has μ [.rg, .chans, .scal,
    .eng, .hm, .ev, .inj, .pseq, .tows, .reins, .counts, .ccnt, .logs, .groups]) :
    Same μ s₀ (s.drainAll k keepPend fence) ↔ Same μ s₀ s :=
  Same.lift hμ s₀ (by simp [State.drainAll])

@[simp] theorem State.chanDisable_same (s : State) (k : Nat) (hμ : Has μ [.rg, .chans, .scal, .eng, .hm, .ev, .inj,
    .pseq, .tows, .reins, .counts, .ccnt, .logs, .groups]) :
    Same μ s₀ (s.chanDisable k) ↔ Same μ s₀ s := by
  refine Same.lift hμ s₀ ?_
  unfold State.chanDisable
  dsimp only
  split <;> simp

@[simp] theorem State.wrChanCtl_same (s : State) (k : Nat) (d : Word) (hμ : Has μ [.rg, .chans, .scal, .eng, .hm, .ev,
    .inj, .pseq, .tows, .reins, .counts, .ccnt, .logs, .groups]) :
    Same μ s₀ (s.wrChanCtl k d) ↔ Same μ s₀ s :=
  Same.lift hμ s₀ (by simp [State.wrChanCtl])

/-! ### Requests served -/

@[simp] theorem State.serveWrite_same (s : State) (p : Packet) (hμ : Has μ [.eng, .hm]) :
    Same μ s₀ (s.serveWrite p) ↔ Same μ s₀ s :=
  Same.lift hμ s₀ (by simp [State.serveWrite])

@[simp] theorem State.serveRead_same (s : State) (p : Packet) (hμ : Has μ [.eng, .hm]) :
    Same μ s₀ (s.serveRead p) ↔ Same μ s₀ s :=
  Same.lift hμ s₀ (by simp [State.serveRead])

@[simp] theorem State.streamTurn_same (s : State) (c r : Nat) (hμ : Has μ [.eng, .hm, .streams]) :
    Same μ s₀ (s.streamTurn c r) ↔ Same μ s₀ s := by
  refine Same.lift hμ s₀ ?_
  unfold State.streamTurn
  dsimp only
  repeat' split
  all_goals simp

@[simp] theorem State.streamPush_same (s : State) (p : Packet) (hμ : Has μ [.eng, .hm, .streams]) :
    Same μ s₀ (s.streamPush p) ↔ Same μ s₀ s :=
  Same.lift hμ s₀ (by simp [State.streamPush])

@[simp] theorem State.streamDone_same (s : State) (p : Packet) (hμ : Has μ [.eng, .hm, .streams]) :
    Same μ s₀ (s.streamDone p) ↔ Same μ s₀ s :=
  Same.lift hμ s₀ (by simp [State.streamDone])

@[simp] theorem State.serveDone_same (s : State) (p : Packet) (got : List (Nat × Gran)) (err : Bool) (hμ : Has μ [.rg,
    .eng, .hm, .streams, .inj, .pseq, .counts]) :
    Same μ s₀ (s.serveDone p got err) ↔ Same μ s₀ s :=
  Same.lift hμ s₀ (by simp [State.serveDone])

@[simp] theorem State.writeServed_same (s : State) (p : Packet) (count : Nat) (err : Bool) (hμ : Has μ [.free, .rg,
    .chans, .scal, .tally, .watch, .eng, .hm, .streams, .ev, .inj, .pseq, .counts, .flt, .logs]) :
    Same μ s₀ (s.writeServed p count err) ↔ Same μ s₀ s :=
  Same.lift hμ s₀ (by simp [State.writeServed])

@[simp] theorem State.atcTrim_same (s : State) (key : Nat) (hμ : Has μ [.atc]) :
    Same μ s₀ (s.atcTrim key) ↔ Same μ s₀ s :=
  Same.lift hμ s₀ (by simp [State.atcTrim])

@[simp] theorem State.atcPut_same (s : State) (key : Nat) (g : Gran) (hμ : Has μ [.atc]) :
    Same μ s₀ (s.atcPut key g) ↔ Same μ s₀ s :=
  Same.lift hμ s₀ (by simp [State.atcPut])

@[simp] theorem State.atcMake_same (s : State) (hμ : Has μ [.atc]) :
    Same μ s₀ s.atcMake ↔ Same μ s₀ s := by
  refine Same.lift hμ s₀ ?_
  unfold State.atcMake
  dsimp only
  repeat' split
  all_goals simp

@[simp] theorem State.atomDo_same (s : State) (a : AtomReq) (g : Gran) (hμ : Has μ [.rg, .atc, .eng, .hm, .inj, .pseq,
    .counts]) :
    Same μ s₀ (s.atomDo a g) ↔ Same μ s₀ s := by
  refine Same.lift hμ s₀ ?_
  unfold State.atomDo
  dsimp only
  split <;> simp

@[simp] theorem State.atomRead_same (s : State) (num : Nat) (got : List (Nat × Gran)) (err : Bool) (hμ : Has μ [.rg,
    .atc, .eng, .hm, .inj, .pseq, .counts]) :
    Same μ s₀ (s.atomRead num got err) ↔ Same μ s₀ s := by
  refine Same.lift hμ s₀ ?_
  unfold State.atomRead
  dsimp only
  repeat' split
  all_goals simp

@[simp] theorem State.atomWritten_same (s : State) (p : Packet) (found : Quad) (err : Bool) (hμ : Has μ [.rg, .atc,
    .inj, .pseq, .counts]) :
    Same μ s₀ (s.atomWritten p found err) ↔ Same μ s₀ s :=
  Same.lift hμ s₀ (by simp [State.atomWritten])

@[simp] theorem State.atomStep_same (s : State) (hμ : Has μ [.rg, .atc, .eng, .hm, .inj, .pseq, .counts, .flt]) :
    Same μ s₀ s.atomStep ↔ Same μ s₀ s := by
  refine Same.lift hμ s₀ ?_
  unfold State.atomStep
  split
  · rfl
  · dsimp only
    split
    · split
      · refine (State.answer_same _ _ _ _ (by simp)).mpr ((Same.with_atc (by simp)).mpr ?_)
        simp
      · split <;> simp
    · exact (State.startRead_same _ _ _ (by simp)).mpr ((Same.with_atc (by simp)).mpr (by simp))

@[simp] theorem State.atomQueue_same (s : State) (p : Packet) (hμ : Has μ [.atc, .eng]) :
    Same μ s₀ (s.atomQueue p) ↔ Same μ s₀ s :=
  Same.lift hμ s₀ (by simp [State.atomQueue])

@[simp] theorem State.fragRead_same (s : State) (k ord id : Nat) (got : List (Nat × Gran)) (err : Bool) (hμ : Has μ
    [.rg, .chans, .scal, .ev, .flt, .ccnt, .logs]) :
    Same μ s₀ (s.fragRead k ord id got err) ↔ Same μ s₀ s := by
  refine Same.lift hμ s₀ ?_
  unfold State.fragRead
  dsimp only
  repeat' split
  all_goals simp

@[simp] theorem State.readDone_same (s : State) (j : RdJob) (hμ : Has μ [.rg, .chans, .scal, .atc, .eng, .hm, .streams,
    .ev, .inj, .pseq, .tows, .reins, .counts, .flt, .ccnt, .logs, .groups]) :
    Same μ s₀ (s.readDone j) ↔ Same μ s₀ s := by
  refine Same.lift hμ s₀ ?_
  unfold State.readDone
  split <;> simp

@[simp] theorem State.getWritten_same (s : State) (k ord : Nat) (fr : Frag) (poison : Bool) (count : Nat) (err : Bool)
    (hμ : Has μ [.free, .rg, .chans, .scal, .tally, .watch, .ev, .flt, .logs]) :
    Same μ s₀ (s.getWritten k ord fr poison count err) ↔ Same μ s₀ s := by
  refine Same.lift hμ s₀ ?_
  unfold State.getWritten
  split <;> simp

@[simp] theorem State.rmemDone_same (s : State) (k ord outcome : Nat) (hμ : Has μ [.rg, .chans, .scal, .ev, .logs]) :
    Same μ s₀ (s.rmemDone k ord outcome) ↔ Same μ s₀ s := by
  refine Same.lift hμ s₀ ?_
  unfold State.rmemDone
  split <;> simp

@[simp] theorem State.writeDone_same (s : State) (j : WrJob) (hμ : Has μ [.free, .rg, .chans, .scal, .tally, .watch,
    .atc, .eng, .hm, .streams, .ev, .inj, .pseq, .tows, .reins, .counts, .flt, .ccnt, .logs, .groups]) :
    Same μ s₀ (s.writeDone j) ↔ Same μ s₀ s := by
  refine Same.lift hμ s₀ ?_
  unfold State.writeDone
  split <;> simp

@[simp] theorem State.readGot_same (s : State) (id : Nat) (grans : List (Nat × Gran)) (hμ : Has μ [.eng]) :
    Same μ s₀ (s.readGot id grans) ↔ Same μ s₀ s :=
  Same.lift hμ s₀ (by simp [State.readGot])

@[simp] theorem State.readPart_same (s : State) (id : Nat) (err : Bool) (hμ : Has μ [.rg, .chans, .scal, .atc, .eng,
    .hm, .streams, .ev, .inj, .pseq, .tows, .reins, .counts, .flt, .ccnt, .logs, .groups]) :
    Same μ s₀ (s.readPart id err) ↔ Same μ s₀ s := by
  refine Same.lift hμ s₀ ?_
  unfold State.readPart
  split <;> simp

@[simp] theorem State.writePart_same (s : State) (id : Nat) (err : Bool) (hμ : Has μ [.free, .rg, .chans, .scal,
    .tally, .watch, .atc, .eng, .hm, .streams, .ev, .inj, .pseq, .tows, .reins, .counts, .flt, .ccnt, .logs, .groups]) :
    Same μ s₀ (s.writePart id err) ↔ Same μ s₀ s := by
  refine Same.lift hμ s₀ ?_
  unfold State.writePart
  split <;> simp

@[simp] theorem State.atcDrop_same (s : State) (p : AtcEntry → Bool) (hμ : Has μ [.atc]) :
    Same μ s₀ (s.atcDrop p) ↔ Same μ s₀ s :=
  Same.lift hμ s₀ (by simp [State.atcDrop])

@[simp] theorem State.wrAtcCfg_same (s : State) (priv : Bool) (d : Word) (hμ : Has μ [.rg, .atc]) :
    Same μ s₀ (s.wrAtcCfg priv d) ↔ Same μ s₀ s :=
  Same.lift hμ s₀ (by simp [State.wrAtcCfg])

/-! ### Host ports -/

@[simp] theorem State.moved_same (s : State) (i : Nat) (hμ : Has μ [.mons]) :
    Same μ s₀ (s.moved i) ↔ Same μ s₀ s :=
  Same.lift hμ s₀ (by simp [State.moved])

@[simp] theorem State.hmFlag_same (s : State) (p i : Nat) (hμ : Has μ [.rg]) :
    Same μ s₀ (s.hmFlag p i) ↔ Same μ s₀ s :=
  Same.lift hμ s₀ (by simp [State.hmFlag])

@[simp] theorem State.hmErr_same (s : State) (p lo : Nat) (hμ : Has μ [.rg]) :
    Same μ s₀ (s.hmErr p lo) ↔ Same μ s₀ s :=
  Same.lift hμ s₀ (by simp [State.hmErr])

@[simp] theorem State.hmProto_same (s : State) (p atype master addr : Nat) (hμ : Has μ [.rg, .flt]) :
    Same μ s₀ (s.hmProto p atype master addr) ↔ Same μ s₀ s :=
  Same.lift hμ s₀ (by simp [State.hmProto])

@[simp] theorem State.hmReadEnd_same (s : State) (p tag : Nat) (job : Nat) (err : Bool) (hμ : Has μ [.rg, .chans,
    .scal, .atc, .eng, .hm, .streams, .ev, .inj, .pseq, .tows, .reins, .counts, .flt, .ccnt, .logs, .groups]) :
    Same μ s₀ (s.hmReadEnd p tag job err) ↔ Same μ s₀ s :=
  Same.lift hμ s₀ (by simp [State.hmReadEnd])

@[simp] theorem State.hmBeat_same (s : State) (p : Nat) (x : RdBeat) (r : RdOut) (hμ : Has μ [.rg, .chans, .scal, .atc,
    .eng, .hm, .streams, .ev, .inj, .pseq, .tows, .reins, .counts, .flt, .ccnt, .logs, .groups]) :
    Same μ s₀ (s.hmBeat p x r) ↔ Same μ s₀ s :=
  Same.lift hμ s₀ (by simp [State.hmBeat])

@[simp] theorem State.raRespond_same (s : State) (p tag : Nat) (wr : Bool) (out : Nat) (data : BitVec 2048) (hμ : Has μ
    [.ra]) :
    Same μ s₀ (s.raRespond p tag wr out data) ↔ Same μ s₀ s :=
  Same.lift hμ s₀ (by simp [State.raRespond])

@[simp] theorem State.raSend_same (s : State) (p : Nat) (wr : Bool) (x : RaAccess) (hμ : Has μ [.rg, .ra, .inj, .pseq,
    .reins, .rrUsed, .counts]) :
    Same μ s₀ (s.raSend p wr x) ↔ Same μ s₀ s :=
  Same.lift hμ s₀ (by simp [State.raSend])

@[simp] theorem State.raAccept_same (s : State) (p : Nat) (wr : Bool) (x : RaAccess) (hμ : Has μ [.rg, .ra, .inj,
    .pseq, .reins, .rrUsed, .counts, .flt]) :
    Same μ s₀ (s.raAccept p wr x) ↔ Same μ s₀ s := by
  refine Same.lift hμ s₀ ?_
  unfold State.raAccept
  dsimp only
  repeat' split
  all_goals simp

@[simp] theorem State.raRelease_same (s : State) (hμ : Has μ [.rg, .ra, .inj, .pseq, .reins, .rrUsed, .counts, .flt]) :
    Same μ s₀ s.raRelease ↔ Same μ s₀ s := by
  refine Same.lift hμ s₀ ?_
  refine Same.foldl (fun t p => ?_) _ _
  split
  · rfl
  · simp

@[simp] theorem State.raOffer_same (s : State) (p : Nat) (wr : Bool) (x : RaAccess) (hμ : Has μ [.rg, .ra, .inj, .pseq,
    .reins, .rrUsed, .counts, .flt]) :
    Same μ s₀ (s.raOffer p wr x) ↔ Same μ s₀ s :=
  Same.lift hμ s₀ (by simp [State.raOffer])

@[simp] theorem State.raEnd_same (s : State) (p : Nat) (l : RaLoad) (out : Nat) (data : BitVec 2048) (quar : Bool) (hμ
    : Has μ [.ra]) :
    Same μ s₀ (s.raEnd p l out data quar) ↔ Same μ s₀ s :=
  Same.lift hμ s₀ (by simp [State.raEnd])

@[simp] theorem State.wrTallyHi_same (s : State) (n : Nat) (d : Word) (hμ : Has μ [.free, .rg, .chans, .scal, .tally,
    .watch, .ev, .logs]) :
    Same μ s₀ (s.wrTallyHi n d) ↔ Same μ s₀ s :=
  Same.lift hμ s₀ (by simp [State.wrTallyHi])

@[simp] theorem State.wrWatchCtl_same (s : State) (w : Nat) (d : Word) (hμ : Has μ [.free, .watch]) :
    Same μ s₀ (s.wrWatchCtl w d) ↔ Same μ s₀ s :=
  Same.lift hμ s₀ (by simp [State.wrWatchCtl])

@[simp] theorem State.wrWatchVal_same (s : State) (w : Nat) (f : Watch → Watch) (hμ : Has μ [.watch]) :
    Same μ s₀ (s.wrWatchVal w f) ↔ Same μ s₀ s :=
  Same.lift hμ s₀ (by simp [State.wrWatchVal])

/-! ### Packets accepted -/

@[simp] theorem State.pktCap_same (s : State) (kind reason port : Nat) (p : Packet) (hμ : Has μ [.rg]) :
    Same μ s₀ (s.pktCap kind reason port p) ↔ Same μ s₀ s :=
  Same.lift hμ s₀ (by simp [State.pktCap])

@[simp] theorem State.pktBad_same (s : State) (h : Held) {cnt : Nat} (code kind reason : Nat) (inj : Bool) (atype :
    Nat) (hμ : Has μ [.rg, .flt]) :
    Same μ s₀ (s.pktBad h cnt code kind reason inj atype) ↔ Same μ s₀ s :=
  Same.lift hμ s₀ (by simp [State.pktBad])

@[simp] theorem State.checked_same (s : State) (h : Held) (hμ : Has μ [.rg, .counts, .flt]) :
    Same μ s₀ (s.checked h).2 ↔ Same μ s₀ s := by
  refine Same.lift hμ s₀ ?_
  unfold State.checked
  extract_lets p armed want bad t s1 s2
  have h1 : Same (mask [.rg, .counts, .flt]) s s1 := by simp [s1, t]
  have h2 : Same (mask [.rg, .counts, .flt]) s s2 := by simp [s2, h1]
  split
  · simp [h1]
  · split <;> simp [h1, h2]

theorem State.fenceAnswer_same {s t : State} {p : Packet} (h : s.fenceAnswer p = some t) :
    Same (mask [.rg, .chans, .inj, .pseq, .counts]) s t := by
  unfold State.fenceAnswer at h
  repeat' split at h
  all_goals cases h <;> simp

@[simp] theorem State.take_same (s : State) (i : Nat) {body : State → Held → State}
    (hμ : Has μ [.rg, .chans, .inj, .pseq, .eject, .counts, .flt]) (h : ∀ t x, Same μ t (body t x)) :
    Same μ s₀ (s.take i body) ↔ Same μ s₀ s := by
  have hs (l : List Fld) : Has (mask [.rg, .chans, .inj, .pseq, .eject, .counts, .flt]) l → Has μ l := hμ.subset
  refine Same.iff_of_same ?_
  unfold State.take
  split
  · rfl
  · dsimp only
    split
    · simp [hs]
    · split
      · next hu => exact Same.trans (by simp [hs]) ((State.fenceAnswer_same hu).mono (hs _ (by simp)))
      · exact Same.trans (by simp [hs]) (h _ _)

@[simp] theorem State.serveIf_same (s : State) (a : Acc) (p : Packet) {f : State → State}
    (hμ : Has μ [.rg, .inj, .pseq, .counts, .flt]) (h : ∀ t, Same μ t (f t)) :
    Same μ s₀ (s.serveIf a p f) ↔ Same μ s₀ s := by
  have hs (l : List Fld) : Has (mask [.rg, .inj, .pseq, .counts, .flt]) l → Has μ l := hμ.subset
  refine Same.iff_of_same ?_
  unfold State.serveIf
  dsimp only
  split
  · simp [hs]
  · split
    · simp [hs]
    · exact Same.trans (by simp [hs]) (h _)

@[simp] theorem State.stale_same (s : State) (h : Held) (hμ : Has μ [.rg, .flt]) :
    Same μ s₀ (s.stale h) ↔ Same μ s₀ s :=
  Same.lift hμ s₀ (by simp [State.stale])

@[simp] theorem State.freeSlot_same (s : State) (k : Nat) (x : Slot) (hμ : Has μ [.chans]) :
    Same μ s₀ (s.freeSlot k x) ↔ Same μ s₀ s :=
  Same.lift hμ s₀ (by simp [State.freeSlot])

@[simp] theorem State.slotRsp_same (s : State) (x : Held) {body : State → Nat → Slot → Flight → State}
    (hμ : Has μ [.rg, .chans, .scal, .ev, .tows, .reins, .flt, .logs]) (h : ∀ t k x f, Same μ t (body t k x f)) :
    Same μ s₀ (s.slotRsp x body) ↔ Same μ s₀ s := by
  have hs (l : List Fld) : Has (mask [.rg, .chans, .scal, .ev, .tows, .reins, .flt, .logs]) l → Has μ l := hμ.subset
  refine Same.iff_of_same ?_
  unfold State.slotRsp
  dsimp only
  repeat' split
  all_goals simp [hs, Same.iff_of_same (h _ _ _ _)]

@[simp] theorem State.raRsp_same (s : State) (h : Held) (f : RaLoad → Nat × BitVec 2048) (hμ : Has μ [.rg, .ra, .inj,
    .pseq, .reins, .rrUsed, .counts, .flt]) :
    Same μ s₀ (s.raRsp h f) ↔ Same μ s₀ s := by
  refine Same.lift hμ s₀ ?_
  unfold State.raRsp
  dsimp only
  repeat' split
  all_goals simp

@[simp] theorem State.rsp_same (s : State) (ctx : Nat) (x : Held) {own : State → State}
    (hμ : Has μ [.rg, .chans, .scal, .eng, .hm, .ra, .ev, .inj, .pseq, .tows, .reins, .rrUsed, .counts, .flt, .ccnt, .logs, .groups]) (h : ∀ t, Same μ t (own t)) :
    Same μ s₀ (s.rsp ctx x own) ↔ Same μ s₀ s := by
  have hs (l : List Fld) : Has (mask [.rg, .chans, .scal, .eng, .hm, .ra, .ev, .inj, .pseq, .tows, .reins, .rrUsed, .counts, .flt, .ccnt, .logs, .groups]) l → Has μ l := hμ.subset
  refine Same.iff_of_same ?_
  unfold State.rsp
  dsimp only
  repeat' split
  all_goals simp [hs, h]

@[simp] theorem State.chanRsp_same (s : State) (x : Held) {body : State → Nat → Slot → Flight → State}
    (hμ : Has μ [.rg, .chans, .scal, .eng, .hm, .ra, .ev, .inj, .pseq, .tows, .reins, .rrUsed, .counts, .flt, .ccnt, .logs, .groups]) (h : ∀ t k x f, Same μ t (body t k x f)) :
    Same μ s₀ (s.chanRsp x body) ↔ Same μ s₀ s := by
  have hs (l : List Fld) : Has (mask [.rg, .chans, .scal, .eng, .hm, .ra, .ev, .inj, .pseq, .tows, .reins, .rrUsed, .counts, .flt, .ccnt, .logs, .groups]) l → Has μ l := hμ.subset
  refine Same.iff_of_same ?_
  unfold State.chanRsp
  refine (State.rsp_same s 0 x (hs _ (by simp)) fun t => ?_).mpr (Same.refl μ s)
  exact (State.slotRsp_same t x (hs _ (by simp)) h).mpr (Same.refl μ t)

@[simp] theorem State.raNak_same (s : State) (p : Packet) (hμ : Has μ [.rg, .ev, .reins, .logs]) :
    Same μ s₀ (s.raNak p) ↔ Same μ s₀ s :=
  Same.lift hμ s₀ (by simp [State.raNak])

/-! ### Hops, towpaths and berths -/

@[simp] theorem State.unhold_same (s : State) (place i : Nat) (h : Held) (hμ : Has μ [.inj, .tows, .links]) :
    Same μ s₀ (s.unhold place i h) ↔ Same μ s₀ s :=
  Same.lift hμ s₀ (by simp [State.unhold])

@[simp] theorem State.setHeld_same (s : State) (place i : Nat) (h : Held) (hμ : Has μ [.inj, .tows, .links]) :
    Same μ s₀ (s.setHeld place i h) ↔ Same μ s₀ s :=
  Same.lift hμ s₀ (by simp [State.setHeld])

@[simp] theorem State.routeDrop_same (s : State) (a : Nat) (hμ : Has μ [.rg]) :
    Same μ s₀ (s.routeDrop a) ↔ Same μ s₀ s :=
  Same.lift hμ s₀ (by simp [State.routeDrop])

@[simp] theorem State.hopDrop_same (s : State) (place i : Nat) (h : Held) (why : Nat) (hμ : Has μ [.rg, .inj, .tows,
    .counts, .links, .flt]) :
    Same μ s₀ (s.hopDrop place i h why) ↔ Same μ s₀ s := by
  refine Same.lift hμ s₀ ?_
  unfold State.hopDrop
  split <;> simp

@[simp] theorem State.modCmap_same (s : State) (q : Nat) (f : CmapAcc → CmapAcc) (hμ : Has μ [.cmap]) :
    Same μ s₀ (s.modCmap q f) ↔ Same μ s₀ s :=
  Same.lift hμ s₀ (by simp [State.modCmap])

@[simp] theorem State.notePeak_same (s : State) (q v : Nat) (hμ : Has μ [.cmap]) :
    Same μ s₀ (s.notePeak q v) ↔ Same μ s₀ s :=
  Same.lift hμ s₀ (by simp [State.notePeak])

@[simp] theorem State.spend_same (s : State) (q v : Nat) (hμ : Has μ [.links, .mons, .cmap]) :
    Same μ s₀ (s.spend q v) ↔ Same μ s₀ s :=
  Same.lift hμ s₀ (by simp [State.spend])

@[simp] theorem State.noteSlot_same (s : State) (p : Packet) (q : Nat) (hμ : Has μ [.chans]) :
    Same μ s₀ (s.noteSlot p q) ↔ Same μ s₀ s :=
  Same.lift hμ s₀ (by simp [State.noteSlot])

@[simp] theorem State.xbarError_same (s : State) (x : Nat) (inj : Bool) (hμ : Has μ [.rg, .ev, .flt, .logs, .life]) :
    Same μ s₀ (s.xbarError x inj) ↔ Same μ s₀ s :=
  Same.lift hμ s₀ (by simp [State.xbarError])

@[simp] theorem State.crossing_same (s : State) (hit : Option XbarHit) (hμ : Has μ [.rg, .ev, .flt, .logs, .life]) :
    Same μ s₀ (s.crossing hit).2 ↔ Same μ s₀ s := by
  refine Same.lift hμ s₀ ?_
  unfold State.crossing
  dsimp only
  split <;> simp

@[simp] theorem State.towBegin_same (s : State) (q t : Nat) (h : Held) (hμ : Has μ [.chans, .tows]) :
    Same μ s₀ (s.towBegin q t h).2 ↔ Same μ s₀ s :=
  Same.lift hμ s₀ (by simp [State.towBegin])

@[simp] theorem State.towFlit_same (s : State) (q t place i : Nat) (h0 : Held) (hμ : Has μ [.out, .rg, .chans, .inj,
    .tows, .links, .phys, .mons, .cmap]) :
    Same μ s₀ (s.towFlit q t place i h0) ↔ Same μ s₀ s :=
  Same.lift hμ s₀ (by simp [State.towFlit])

@[simp] theorem State.frame_same (n q keep : Nat) (s : State) (hμ : Has μ [.out, .rg, .chans, .inj, .tows, .links,
    .phys, .mons, .cmap]) :
    Same μ s₀ (State.frame n q keep s) ↔ Same μ s₀ s := by
  refine Same.lift_iff hμ s₀ fun s₀ => ?_
  induction n generalizing s s₀ with
  | zero => rfl
  | succ n ih =>
    unfold State.frame
    repeat' split
    all_goals simp [ih]

@[simp] theorem State.towRun_same (n : Nat) (begun : Bool) (q t : Nat) (s : State) (hμ : Has μ [.out, .rg, .chans,
    .inj, .tows, .links, .phys, .mons, .cmap]) :
    Same μ s₀ (State.towRun n begun q t s) ↔ Same μ s₀ s := by
  refine Same.lift_iff hμ s₀ fun s₀ => ?_
  induction n generalizing s s₀ begun with
  | zero => rfl
  | succ n ih =>
    unfold State.towRun
    dsimp only
    repeat' split
    all_goals simp [ih]

@[simp] theorem State.useVc_same (s : State) (q v : Nat) (hμ : Has μ [.links]) :
    Same μ s₀ (s.useVc q v) ↔ Same μ s₀ s :=
  Same.lift hμ s₀ (by simp [State.useVc])

@[simp] theorem State.mgtDrop_same (s : State) (hμ : Has μ [.rg, .flt]) :
    Same μ s₀ s.mgtDrop ↔ Same μ s₀ s :=
  Same.lift hμ s₀ (by simp [State.mgtDrop])

@[simp] theorem State.hopEject_same (s : State) (place i : Nat) (h : Held) (hit : Option XbarHit) (hμ : Has μ [.rg,
    .ev, .inj, .eject, .tows, .counts, .links, .flt, .logs, .life]) :
    Same μ s₀ (s.hopEject place i h hit) ↔ Same μ s₀ s :=
  Same.lift hμ s₀ (by simp [State.hopEject])

@[simp] theorem State.hopTurned_same (s : State) (place i : Nat) (h : Held) (hμ : Has μ [.rg, .inj, .pseq, .tows,
    .counts, .links]) :
    Same μ s₀ (s.hopTurned place i h) ↔ Same μ s₀ s :=
  Same.lift hμ s₀ (by simp [State.hopTurned])

@[simp] theorem State.keyRefused_same (s : State) (place i : Nat) (h : Held) (q : Nat) (hμ : Has μ [.rg, .inj, .tows,
    .counts, .links, .flt]) :
    Same μ s₀ (s.keyRefused place i h q) ↔ Same μ s₀ s :=
  Same.lift hμ s₀ (by simp [State.keyRefused])

@[simp] theorem State.xbarCut_same (s : State) (q : Nat) (h : Held) (b : Option Nat) (hμ : Has μ [.rg]) :
    Same μ s₀ (s.xbarCut q h b).2 ↔ Same μ s₀ s :=
  Same.lift hμ s₀ (by simp [State.xbarCut])

@[simp] theorem State.goOn_same (s : State) (place i : Nat) (h : Held) (q v : Nat) (hμ : Has μ [.out, .rg, .chans,
    .inj, .tows, .links, .phys, .mons, .cmap]) :
    Same μ s₀ (s.goOn place i h q v) ↔ Same μ s₀ s :=
  Same.lift hμ s₀ (by simp [State.goOn])

@[simp] theorem State.hopLeave_same (s : State) (place i : Nat) (h : Held) (q v : Nat) (enter : Bool) (hit : Option
    XbarHit) (hμ : Has μ [.out, .rg, .chans, .ev, .inj, .pseq, .tows, .counts, .links, .flt, .logs, .phys, .mons,
    .life, .cmap]) :
    Same μ s₀ (s.hopLeave place i h q v enter hit) ↔ Same μ s₀ s :=
  Same.lift hμ s₀ (by simp [State.hopLeave])

@[simp] theorem State.hopTow_same (s : State) (place i : Nat) (h : Held) (q t : Nat) (hit : Option XbarHit) (hμ : Has μ
    [.out, .rg, .chans, .ev, .inj, .tows, .counts, .links, .flt, .logs, .phys, .mons, .life, .cmap]) :
    Same μ s₀ (s.hopTow place i h q t hit) ↔ Same μ s₀ s :=
  Same.lift hμ s₀ (by simp [State.hopTow])

@[simp] theorem State.hopCopy_same (s : State) (place i : Nat) (h : Held) (hμ : Has μ [.eject, .links]) :
    Same μ s₀ (s.hopCopy place i h) ↔ Same μ s₀ s := by
  refine Same.lift hμ s₀ ?_
  simp [State.hopCopy, -State.modLink_frame]

@[simp] theorem State.berthEcc_same (s : State) (place : Nat) (hμ : Has μ [.rg, .flt]) :
    Same μ s₀ (s.berthEcc place).2 ↔ Same μ s₀ s :=
  Same.lift hμ s₀ (by simp [State.berthEcc])

@[simp] theorem State.tableEcc_same (s : State) (place : Nat) (h : Held) (f : Fate) (hμ : Has μ [.rg, .flt]) :
    Same μ s₀ (s.tableEcc place h f).2 ↔ Same μ s₀ s :=
  Same.lift hμ s₀ (by simp [State.tableEcc])

@[simp] theorem State.hopHead_same (s : State) (place i : Nat) (h : Held) (hit : Option XbarHit) (hμ : Has μ [.out,
    .rg, .chans, .ev, .inj, .pseq, .eject, .tows, .counts, .links, .flt, .logs, .phys, .mons, .life, .cmap]) :
    Same μ s₀ (s.hopHead place i h hit) ↔ Same μ s₀ s := by
  refine Same.lift hμ s₀ ?_
  unfold State.hopHead
  dsimp only
  split
  · rfl
  · split
    · simp
    · have hu := (State.tableEcc_same (μ := mask [.out, .rg, .chans, .ev, .inj, .pseq, .eject, .tows, .counts, .links,
    .flt, .logs, .phys, .mons, .life, .cmap]) (s₀ := s) (s.berthEcc place).2 place h (s.fate place h) (by simp)).mpr
        (by simp)
      split <;> next heq => rw [heq] at hu; simpa using hu

@[simp] theorem State.hop_same (s : State) (place i : Nat) (hit : Option XbarHit) (hμ : Has μ [.out, .rg, .chans, .ev,
    .inj, .pseq, .eject, .tows, .counts, .links, .flt, .logs, .phys, .mons, .life, .cmap]) :
    Same μ s₀ (s.hop place i hit) ↔ Same μ s₀ s := by
  refine Same.lift hμ s₀ ?_
  unfold State.hop
  dsimp only
  repeat' split
  all_goals simp

@[simp] theorem State.towEnable_same (s : State) (t : Nat) (hμ : Has μ [.tows]) :
    Same μ s₀ (s.towEnable t) ↔ Same μ s₀ s :=
  Same.lift hμ s₀ (by simp [State.towEnable])

@[simp] theorem State.towDrain_same (s : State) (t : Nat) (hμ : Has μ [.tows]) :
    Same μ s₀ (s.towDrain t) ↔ Same μ s₀ s :=
  Same.lift hμ s₀ (by simp [State.towDrain])

@[simp] theorem State.towDisable_same (s : State) (t : Nat) (hμ : Has μ [.tows]) :
    Same μ s₀ (s.towDisable t) ↔ Same μ s₀ s := by
  refine Same.lift hμ s₀ ?_
  unfold State.towDisable
  split <;> simp

@[simp] theorem State.wrTowEn_same (s : State) (t : Nat) (priv : Bool) (d : Word) (hμ : Has μ [.tows]) :
    Same μ s₀ (s.wrTowEn t priv d) ↔ Same μ s₀ s :=
  Same.lift hμ s₀ (by simp [State.wrTowEn])

/-! ### Aborts of a partition -/

@[simp] theorem State.ctlPop_same (s : State) (p : Nat) (hμ : Has μ [.links]) :
    Same μ s₀ (s.ctlPop p) ↔ Same μ s₀ s :=
  Same.lift hμ s₀ (by simp [State.ctlPop])

@[simp] theorem State.discardStreams_same (s : State) (hμ : Has μ [.streams]) :
    Same μ s₀ s.discardStreams ↔ Same μ s₀ s :=
  Same.lift hμ s₀ (by simp [State.discardStreams])

@[simp] theorem State.raLoadsEnd_same (s : State) (outcome : Nat) (quar : Bool) (hμ : Has μ [.ra]) :
    Same μ s₀ (s.raLoadsEnd outcome quar) ↔ Same μ s₀ s :=
  Same.lift hμ s₀ (by simp [State.raLoadsEnd])

@[simp] theorem State.collsAbort_same (s : State) (hμ : Has μ [.rg, .chans, .scal, .eng, .hm, .ev, .inj, .pseq, .tows,
    .reins, .counts, .ccnt, .logs, .groups]) :
    Same μ s₀ s.collsAbort ↔ Same μ s₀ s :=
  Same.lift hμ s₀ (by simp [State.collsAbort])

@[simp] theorem State.towsReset_same (s : State) (hμ : Has μ [.tows]) :
    Same μ s₀ s.towsReset ↔ Same μ s₀ s := by
  refine Same.lift hμ s₀ ?_
  refine Same.foldl (fun t x => ?_) _ _
  dsimp only
  repeat' split
  all_goals simp

@[simp] theorem State.reinsReset_same (s : State) (hμ : Has μ [.reins]) :
    Same μ s₀ s.reinsReset ↔ Same μ s₀ s :=
  Same.lift hμ s₀ (by simp [State.reinsReset])

@[simp] theorem State.timersHeld_same (s : State) (d : Nat) (hμ : Has μ [.chans, .ra, .tows, .mons]) :
    Same μ s₀ (s.timersHeld d) ↔ Same μ s₀ s := by
  refine Same.lift hμ s₀ ?_
  unfold State.timersHeld
  dsimp only
  refine Same.trans ?_ (Same.foldl (fun _ _ => by simp) _ _)
  refine Same.trans ?_ (Same.foldl (fun _ _ => by simp) _ _)
  refine Same.trans ?_ (Same.foldl (fun t p => Same.foldl (fun t v => ?_) _ _) _ _)
  · refine (Same.foldl (fun _ _ => ?_) _ _).trans (Same.foldl (fun _ _ => ?_) _ _) <;> simp
  · split <;> simp

@[simp] theorem State.haltEnd_same (s : State) (hμ : Has μ [.chans, .ra, .tows, .halt, .mons]) :
    Same μ s₀ s.haltEnd ↔ Same μ s₀ s :=
  Same.lift hμ s₀ (by simp [State.haltEnd])

@[simp] theorem State.portsHeld_same (s : State) (hμ : Has μ [.links, .teams, .phys]) :
    Same μ s₀ s.portsHeld ↔ Same μ s₀ s :=
  Same.lift hμ s₀ (by simp [State.portsHeld])

@[simp] theorem State.genEffects_same (s : State) (gen : Byte) (hμ : Has μ [.out, .ident, .rg, .chans, .scal, .eng,
    .hm, .ra, .streams, .ev, .inj, .pseq, .eject, .tows, .reins, .counts, .links, .ccnt, .logs, .groups, .phys, .abort,
    .mons, .cmap]) :
    Same μ s₀ (s.genEffects gen) ↔ Same μ s₀ s :=
  Same.lift hμ s₀ (by simp [State.genEffects])

@[simp] theorem State.stepTime_same (s : State) (hμ : Has μ [.rg]) :
    Same μ s₀ s.stepTime ↔ Same μ s₀ s :=
  Same.lift hμ s₀ (by simp [State.stepTime])

@[simp] theorem State.abortSaid_same (s : State) (x : PendStep) (hμ : Has μ [.rg, .ev, .logs]) :
    Same μ s₀ (s.abortSaid x) ↔ Same μ s₀ s :=
  Same.lift hμ s₀ (by simp [State.abortSaid])

@[simp] theorem State.stepNow_same (s : State) (hμ : Has μ [.out, .ident, .rg, .chans, .scal, .eng, .hm, .ra, .streams,
    .ev, .inj, .pseq, .eject, .tows, .reins, .rrUsed, .counts, .links, .flt, .ccnt, .logs, .groups, .teams, .phys,
    .abort, .mons, .cmap]) :
    Same μ s₀ s.stepNow ↔ Same μ s₀ s := by
  refine Same.lift hμ s₀ ?_
  unfold State.stepNow
  split <;> simp

@[simp] theorem State.fwdAbort_same (s : State) (from_ key gen orig reason hops : Nat) (hμ : Has μ [.out, .rg, .tows,
    .links, .phys, .mons, .cmap]) :
    Same μ s₀ (s.fwdAbort from_ key gen orig reason hops) ↔ Same μ s₀ s :=
  Same.lift hμ s₀ (by simp [State.fwdAbort])

@[simp] theorem State.setRecov_same (s : State) (hμ : Has μ [.rg, .flt]) :
    Same μ s₀ s.setRecov ↔ Same μ s₀ s :=
  Same.lift hμ s₀ (by simp [State.setRecov])

@[simp] theorem State.acceptAbort_same (s : State) (from_ : Nat) (x : PendStep) (forward : Bool) (hμ : Has μ [.out,
    .rg, .chans, .ra, .tows, .links, .flt, .phys, .abort, .halt, .mons, .cmap]) :
    Same μ s₀ (s.acceptAbort from_ x forward) ↔ Same μ s₀ s :=
  Same.lift hμ s₀ (by simp [State.acceptAbort])

@[simp] theorem State.originAbort_same (s : State) (reason : Nat) (hμ : Has μ [.out, .rg, .chans, .ra, .tows, .links,
    .flt, .phys, .abort, .halt, .mons, .cmap]) :
    Same μ s₀ (s.originAbort reason) ↔ Same μ s₀ s :=
  Same.lift hμ s₀ (by simp [State.originAbort])

@[simp] theorem State.judgeAbort_same (s : State) (p gen orig reason hops : Nat) (hμ : Has μ [.out, .rg, .chans, .ra,
    .tows, .links, .flt, .phys, .abort, .halt, .mons, .cmap]) :
    Same μ s₀ (s.judgeAbort p gen orig reason hops) ↔ Same μ s₀ s := by
  refine Same.lift hμ s₀ ?_
  simp [State.judgeAbort, -State.raise_frame]

@[simp] theorem State.passAbort_same (s : State) (p key gen orig reason hops : Nat) (hμ : Has μ [.out, .rg, .tows,
    .links, .phys, .abort, .mons, .cmap]) :
    Same μ s₀ (s.passAbort p key gen orig reason hops) ↔ Same μ s₀ s :=
  Same.lift hμ s₀ (by simp [State.passAbort])

@[simp] theorem State.wrPart_same (s : State) (priv : Bool) (d : Word) (hμ : Has μ [.out, .ident, .rg, .chans, .scal,
    .eng, .hm, .ra, .streams, .ev, .inj, .pseq, .eject, .tows, .reins, .rrUsed, .counts, .links, .flt, .ccnt, .logs,
    .groups, .teams, .phys, .abort, .mons, .mc, .cmap]) :
    Same μ s₀ (s.wrPart priv d) ↔ Same μ s₀ s :=
  Same.lift hμ s₀ (by simp [State.wrPart])

@[simp] theorem State.wrAbortCtl_same (s : State) (priv : Bool) (d : Word) (hμ : Has μ [.out, .rg, .chans, .ra, .tows,
    .links, .flt, .phys, .abort, .halt, .mons, .cmap]) :
    Same μ s₀ (s.wrAbortCtl priv d) ↔ Same μ s₀ s :=
  Same.lift hμ s₀ (by simp [State.wrAbortCtl])

/-! ### Link training and control flits -/

@[simp] theorem State.haltJoin_same (s : State) (p : Nat) (hμ : Has μ [.out, .rg, .tows, .links, .phys, .halt, .mons,
    .cmap]) :
    Same μ s₀ (s.haltJoin p) ↔ Same μ s₀ s :=
  Same.lift hμ s₀ (by simp [State.haltJoin])

@[simp] theorem State.linkFault_same (s : State) (p code cause : Nat) (inj : Bool) (hμ : Has μ [.out, .rg, .chans,
    .scal, .ev, .inj, .eject, .tows, .counts, .links, .flt, .logs, .teams, .phys, .halt, .mons, .ts, .cmap]) :
    Same μ s₀ (s.linkFault p code cause inj) ↔ Same μ s₀ s :=
  Same.lift hμ s₀ (by simp [State.linkFault])

@[simp] theorem State.linkRetry_same (s : State) (p code reason : Nat) (hμ : Has μ [.out, .rg, .ev, .tows, .links,
    .flt, .logs, .teams, .phys, .halt, .ts, .life]) :
    Same μ s₀ (s.linkRetry p code reason) ↔ Same μ s₀ s :=
  Same.lift hμ s₀ (by simp [State.linkRetry])

@[simp] theorem State.peerFenced_same (s : State) (p : Nat) (hμ : Has μ [.out, .rg, .chans, .ra, .ev, .inj, .eject,
    .tows, .counts, .links, .flt, .logs, .teams, .phys, .abort, .halt, .mons, .ts, .cmap]) :
    Same μ s₀ (s.peerFenced p) ↔ Same μ s₀ s :=
  Same.lift hμ s₀ (by simp [State.peerFenced])

@[simp] theorem State.replayEcc_same (s : State) (p : Nat) (hμ : Has μ [.rg, .flt]) :
    Same μ s₀ (s.replayEcc p).2 ↔ Same μ s₀ s :=
  Same.lift hμ s₀ (by simp [State.replayEcc])

@[simp] theorem State.replayFrom_same (p : Nat) (fs : List TxFlit) (s : State) (hμ : Has μ [.out, .rg, .chans, .scal,
    .ev, .inj, .eject, .tows, .counts, .links, .flt, .logs, .teams, .phys, .halt, .mons, .ts, .cmap]) :
    Same μ s₀ (State.replayFrom p fs s) ↔ Same μ s₀ s := by
  refine Same.lift_iff hμ s₀ fun s₀ => ?_
  induction fs generalizing s s₀ with
  | nil => rfl
  | cons f fs ih => simp [State.replayFrom, ih]

@[simp] theorem State.replayAll_same (s : State) (p : Nat) (hμ : Has μ [.out, .rg, .chans, .scal, .ev, .inj, .eject,
    .tows, .counts, .links, .flt, .logs, .teams, .phys, .halt, .mons, .ts, .cmap]) :
    Same μ s₀ (s.replayAll p) ↔ Same μ s₀ s :=
  Same.lift hμ s₀ (by simp [State.replayAll])

@[simp] theorem State.startReplay_same (s : State) (p : Nat) (hμ : Has μ [.out, .rg, .chans, .scal, .ev, .inj, .eject,
    .tows, .counts, .links, .flt, .logs, .teams, .phys, .halt, .mons, .ts, .life, .cmap]) :
    Same μ s₀ (s.startReplay p) ↔ Same μ s₀ s := by
  refine Same.lift hμ s₀ ?_
  unfold State.startReplay
  dsimp only
  split <;> simp

@[simp] theorem State.takeAck_same (s : State) (p a : Nat) (nak : Bool) (hμ : Has μ [.out, .rg, .chans, .scal, .ev,
    .inj, .eject, .tows, .counts, .links, .flt, .logs, .teams, .phys, .halt, .mons, .ts, .life, .cmap]) :
    Same μ s₀ (s.takeAck p a nak) ↔ Same μ s₀ s := by
  refine Same.lift hμ s₀ ?_
  unfold State.takeAck
  dsimp only
  split <;> simp

@[simp] theorem State.noteStall_same (s : State) (p v : Nat) (hμ : Has μ [.cmap]) :
    Same μ s₀ (s.noteStall p v) ↔ Same μ s₀ s := by
  refine Same.lift hμ s₀ ?_
  unfold State.noteStall
  split <;> simp

@[simp] theorem State.takeCredit_same (s : State) (p v cnt : Nat) (hμ : Has μ [.out, .rg, .chans, .scal, .ev, .inj,
    .eject, .tows, .counts, .links, .flt, .logs, .teams, .phys, .halt, .mons, .ts, .cmap]) :
    Same μ s₀ (s.takeCredit p v cnt) ↔ Same μ s₀ s :=
  Same.lift hμ s₀ (by simp [State.takeCredit])

@[simp] theorem State.takeTowCredit_same (s : State) (p t cnt : Nat) (hμ : Has μ [.out, .rg, .chans, .scal, .ev, .inj,
    .eject, .tows, .counts, .links, .flt, .logs, .teams, .phys, .halt, .mons, .ts, .cmap]) :
    Same μ s₀ (s.takeTowCredit p t cnt) ↔ Same μ s₀ s :=
  Same.lift hμ s₀ (by simp [State.takeTowCredit])

@[simp] theorem State.takeFence_same (s : State) (p team : Nat) (on : Bool) (hμ : Has μ [.out, .rg, .chans, .ra, .ev,
    .inj, .eject, .tows, .counts, .links, .flt, .logs, .teams, .phys, .abort, .halt, .mons, .ts, .cmap]) :
    Same μ s₀ (s.takeFence p team on) ↔ Same μ s₀ s :=
  Same.lift hμ s₀ (by simp [State.takeFence])

@[simp] theorem State.takeTag_same (s : State) (p team tag : Nat) (hμ : Has μ [.out, .rg, .chans, .scal, .ra, .ev,
    .inj, .eject, .tows, .counts, .links, .flt, .logs, .teams, .phys, .abort, .halt, .mons, .ts, .life, .cmap]) :
    Same μ s₀ (s.takeTag p team tag) ↔ Same μ s₀ s :=
  Same.lift hμ s₀ (by simp [State.takeTag])

@[simp] theorem State.freeBerth_same (s : State) (p v : Nat) (hμ : Has μ [.links]) :
    Same μ s₀ (s.freeBerth p v) ↔ Same μ s₀ s :=
  Same.lift hμ s₀ (by simp [State.freeBerth])

@[simp] theorem State.refuseHead_same (s : State) (p : Nat) (h : Held) (hμ : Has μ [.counts, .links]) :
    Same μ s₀ (s.refuseHead p h) ↔ Same μ s₀ s :=
  Same.lift hμ s₀ (by simp [State.refuseHead])

@[simp] theorem State.holdHead_same (s : State) (p tagVc : Nat) (h : Held) (hμ : Has μ [.rg, .tows, .counts, .links]) :
    Same μ s₀ (s.holdHead p tagVc h) ↔ Same μ s₀ s := by
  refine Same.lift hμ s₀ ?_
  unfold State.holdHead
  repeat' split
  all_goals simp

@[simp] theorem State.firstIn_same (s : State) (p tag : Nat) (body : BitVec 2048) (hμ : Has μ [.out, .rg, .inj, .eject,
    .tows, .counts, .links, .phys, .mons, .cmap]) :
    Same μ s₀ (s.firstIn p tag body) ↔ Same μ s₀ s :=
  Same.lift hμ s₀ (by simp [State.firstIn])

@[simp] theorem State.dataIn_same (s : State) (p tag : Nat) (body : BitVec 2048) (hμ : Has μ [.out, .rg, .inj, .eject,
    .tows, .counts, .links, .phys, .mons, .cmap]) :
    Same μ s₀ (s.dataIn p tag body) ↔ Same μ s₀ s :=
  Same.lift hμ s₀ (by simp [State.dataIn])

@[simp] theorem State.ctlIn_same (s : State) (p kind : Nat) (body : BitVec 2048) (hμ : Has μ [.links, .flt]) :
    Same μ s₀ (s.ctlIn p kind body) ↔ Same μ s₀ s :=
  Same.lift hμ s₀ (by simp [State.ctlIn])

@[simp] theorem State.fecCount_same (s : State) (p : Nat) (f : RxFlit) (hμ : Has μ [.rg, .flt]) :
    Same μ s₀ (s.fecCount p f) ↔ Same μ s₀ s :=
  Same.lift hμ s₀ (by simp [State.fecCount])

@[simp] theorem State.rxBad_same (s : State) (p : Nat) (f : RxFlit) (seq : Bool) (hμ : Has μ [.rg, .links, .flt]) :
    Same μ s₀ (s.rxBad p f seq) ↔ Same μ s₀ s :=
  Same.lift hμ s₀ (by simp [State.rxBad])

@[simp] theorem State.seqIn_same (s : State) (p tag : Nat) (body : BitVec 2048) (hμ : Has μ [.out, .rg, .ev, .inj,
    .eject, .tows, .counts, .links, .flt, .logs, .teams, .phys, .halt, .mons, .ts, .life, .cmap]) :
    Same μ s₀ (s.seqIn p tag body) ↔ Same μ s₀ s :=
  Same.lift hμ s₀ (by simp [State.seqIn])

@[simp] theorem State.retryDropped_same (s : State) (p : Nat) (hμ : Has μ [.teams]) :
    Same μ s₀ (s.retryDropped p) ↔ Same μ s₀ s :=
  Same.lift hμ s₀ (by simp [State.retryDropped])

@[simp] theorem State.linkUp_same (s : State) (p b came : Nat) (hμ : Has μ [.out, .rg, .ev, .tows, .links, .logs,
    .teams, .phys, .halt, .mons, .cmap]) :
    Same μ s₀ (s.linkUp p b came) ↔ Same μ s₀ s :=
  Same.lift hμ s₀ (by simp [State.linkUp])

@[simp] theorem State.linkBack_same (s : State) (p b : Nat) (hμ : Has μ [.out, .rg, .chans, .scal, .ev, .inj, .eject,
    .tows, .counts, .links, .flt, .logs, .teams, .phys, .halt, .mons, .ts, .cmap]) :
    Same μ s₀ (s.linkBack p b) ↔ Same μ s₀ s := by
  refine Same.lift hμ s₀ ?_
  unfold State.linkBack
  split <;> simp

@[simp] theorem State.lnkIgn_same (s : State) (p : Nat) (hμ : Has μ [.rg]) :
    Same μ s₀ (s.lnkIgn p) ↔ Same μ s₀ s :=
  Same.lift hμ s₀ (by simp [State.lnkIgn])

@[simp] theorem State.linkEn_same (s : State) (p : Nat) (hμ : Has μ [.rg, .links, .teams, .phys]) :
    Same μ s₀ (s.linkEn p) ↔ Same μ s₀ s := by
  refine Same.lift hμ s₀ ?_
  unfold State.linkEn
  dsimp only
  split <;> simp

@[simp] theorem State.linkDis_same (s : State) (p : Nat) (hμ : Has μ [.out, .rg, .ev, .inj, .eject, .tows, .counts,
    .links, .flt, .logs, .teams, .phys, .halt, .mons, .ts, .cmap]) :
    Same μ s₀ (s.linkDis p) ↔ Same μ s₀ s := by
  refine Same.lift hμ s₀ ?_
  unfold State.linkDis
  split <;> simp

@[simp] theorem State.wrLnkCtl_same (s : State) (p : Nat) (priv : Bool) (d : Word) (hμ : Has μ [.out, .rg, .ev, .inj,
    .eject, .tows, .counts, .links, .flt, .logs, .teams, .phys, .halt, .mons, .ts, .life, .cmap]) :
    Same μ s₀ (s.wrLnkCtl p priv d) ↔ Same μ s₀ s :=
  Same.lift hμ s₀ (by simp [State.wrLnkCtl])

@[simp] theorem State.wrPortKey_same (s : State) (p off : Nat) (priv : Bool) (d : Word) (hμ : Has μ [.rg]) :
    Same μ s₀ (s.wrPortKey p off priv d) ↔ Same μ s₀ s :=
  Same.lift hμ s₀ (by simp [State.wrPortKey])

/-! ### The global halt and the progress monitors -/

@[simp] theorem State.haltEnter_same (s : State) (key id : Nat) (hμ : Has μ [.out, .rg, .tows, .links, .phys, .halt,
    .mons, .cmap]) :
    Same μ s₀ (s.haltEnter key id) ↔ Same μ s₀ s :=
  Same.lift hμ s₀ (by simp [State.haltEnter])

@[simp] theorem State.haltGo_same (s : State) (id : Nat) (hμ : Has μ [.out, .rg, .tows, .links, .phys, .halt, .mons,
    .cmap]) :
    Same μ s₀ (s.haltGo id).2 ↔ Same μ s₀ s :=
  Same.lift hμ s₀ (by simp [State.haltGo])

@[simp] theorem State.haltRelease_same (s : State) (hμ : Has μ [.out, .rg, .chans, .ra, .ev, .inj, .pseq, .tows,
    .reins, .rrUsed, .counts, .links, .flt, .logs, .phys, .halt, .mons, .cmap]) :
    Same μ s₀ s.haltRelease.2 ↔ Same μ s₀ s :=
  Same.lift hμ s₀ (by simp [State.haltRelease])

@[simp] theorem State.wrHaltCtl_same (s : State) (priv : Bool) (d : Word) (hμ : Has μ [.out, .rg, .chans, .ra, .ev,
    .inj, .pseq, .tows, .reins, .rrUsed, .counts, .links, .flt, .logs, .phys, .halt, .mons, .cmap]) :
    Same μ s₀ (s.wrHaltCtl priv d) ↔ Same μ s₀ s :=
  Same.lift hμ s₀ (by simp [State.wrHaltCtl])

@[simp] theorem State.hangSaid_same (s : State) (mon kind inst vc : Nat) (reg : Nat) (bit code fi : Nat) (hμ : Has μ
    [.rg, .ev, .flt, .logs, .mons]) :
    Same μ s₀ (s.hangSaid mon kind inst vc reg bit code fi) ↔ Same μ s₀ s :=
  Same.lift hμ s₀ (by simp [State.hangSaid])

@[simp] theorem State.watchHost_same (s : State) (hμ : Has μ [.mons]) :
    Same μ s₀ s.watchHost ↔ Same μ s₀ s :=
  Same.lift hμ s₀ (by simp [State.watchHost])

/-! ### Reduction units -/

@[simp] theorem State.modUnit_same (s : State) (u : Nat) (f : RUnit → RUnit) (hμ : Has μ [.rus]) :
    Same μ s₀ (s.modUnit u f) ↔ Same μ s₀ s :=
  Same.lift hμ s₀ (by simp [State.modUnit])

@[simp] theorem State.unitTry_same (s : State) (u : Nat) (hμ : Has μ [.rus]) :
    Same μ s₀ (s.unitTry u) ↔ Same μ s₀ s :=
  Same.lift hμ s₀ (by simp [State.unitTry])

@[simp] theorem State.unitOff_same (s : State) (u : Nat) (hμ : Has μ [.rus]) :
    Same μ s₀ (s.unitOff u) ↔ Same μ s₀ s :=
  Same.lift hμ s₀ (by simp [State.unitOff])

@[simp] theorem State.unitDrain_same (s : State) (u : Nat) (hμ : Has μ [.rus]) :
    Same μ s₀ (s.unitDrain u) ↔ Same μ s₀ s := by
  refine Same.lift hμ s₀ ?_
  unfold State.unitDrain
  split <;> simp

@[simp] theorem State.unitsSettle_same (s : State) (hμ : Has μ [.rus]) :
    Same μ s₀ s.unitsSettle ↔ Same μ s₀ s := by
  refine Same.lift hμ s₀ ?_
  refine Same.foldl (fun t u => ?_) _ _
  split <;> simp

@[simp] theorem State.wrSpare_same (s : State) (n : Nat) (hμ : Has μ [.rg, .rus]) :
    Same μ s₀ (s.wrSpare n) ↔ Same μ s₀ s :=
  Same.lift hμ s₀ (by simp [State.wrSpare])

@[simp] theorem State.wrUnitEn_same (s : State) (u : Nat) (on : Bool) (hμ : Has μ [.rg, .rus]) :
    Same μ s₀ (s.wrUnitEn u on) ↔ Same μ s₀ s := by
  refine Same.lift hμ s₀ ?_
  unfold State.wrUnitEn
  dsimp only
  repeat' split
  all_goals simp

@[simp] theorem State.wrRuCtl_same (s : State) (priv : Bool) (d : Word) (hμ : Has μ [.rg, .rus]) :
    Same μ s₀ (s.wrRuCtl priv d) ↔ Same μ s₀ s :=
  Same.lift hμ s₀ (by simp [State.wrRuCtl])

@[simp] theorem State.wrRuStat_same (s : State) (u : Nat) (d : Word) (hμ : Has μ [.rg, .chans, .watch, .rus]) :
    Same μ s₀ (s.wrRuStat u d) ↔ Same μ s₀ s :=
  Same.lift hμ s₀ (by simp [State.wrRuStat])

@[simp] theorem State.resCount_same (s : State) (u : Nat) (hμ : Has μ [.rg]) :
    Same μ s₀ (s.resCount u) ↔ Same μ s₀ s :=
  Same.lift hμ s₀ (by simp [State.resCount])

@[simp] theorem State.unitsNone_same (s : State) (hμ : Has μ [.rg, .chans, .scal, .eng, .hm, .ev, .inj, .pseq, .tows,
    .reins, .counts, .flt, .ccnt, .logs, .groups, .ruGone]) :
    Same μ s₀ s.unitsNone ↔ Same μ s₀ s :=
  Same.lift hμ s₀ (by simp [State.unitsNone])

@[simp] theorem State.spareIn_same (s : State) (u : Nat) (hμ : Has μ [.rg, .ev, .logs, .rus, .life]) :
    Same μ s₀ (s.spareIn u) ↔ Same μ s₀ s :=
  Same.lift hμ s₀ (by simp [State.spareIn])

@[simp] theorem State.unitOn_same (s : State) (u : Nat) (hμ : Has μ [.rus, .ruGone]) :
    Same μ s₀ (s.unitOn u) ↔ Same μ s₀ s :=
  Same.lift hμ s₀ (by simp [State.unitOn])

@[simp] theorem State.residue_same (s : State) (u g : Nat) (inj : Bool) (hμ : Has μ [.rg, .chans, .scal, .eng, .hm,
    .ev, .inj, .pseq, .tows, .reins, .counts, .flt, .ccnt, .logs, .groups, .rus, .ruGone, .life]) :
    Same μ s₀ (s.residue u g inj) ↔ Same μ s₀ s :=
  Same.lift hμ s₀ (by simp [State.residue])

/-! ### Lanes and teams -/

@[simp] theorem State.modLane_same (s : State) (t i : Nat) (f : Lane → Lane) (hμ : Has μ [.teams]) :
    Same μ s₀ (s.modLane t i f) ↔ Same μ s₀ s :=
  Same.lift hμ s₀ (by simp [State.modLane])

@[simp] theorem State.teamIgn_same (s : State) (t : Nat) (hμ : Has μ [.rg]) :
    Same μ s₀ (s.teamIgn t) ↔ Same μ s₀ s :=
  Same.lift hμ s₀ (by simp [State.teamIgn])

@[simp] theorem State.sendFrame_same (s : State) (t i : Nat) (hμ : Has μ [.out, .free, .teams, .phys]) :
    Same μ s₀ (s.sendFrame t i) ↔ Same μ s₀ s :=
  Same.lift hμ s₀ (by simp [State.sendFrame])

@[simp] theorem State.attemptFailed_same (s : State) (t : Nat) (hμ : Has μ [.rg, .ev, .flt, .logs, .teams, .life]) :
    Same μ s₀ (s.attemptFailed t) ↔ Same μ s₀ s :=
  Same.lift hμ s₀ (by simp [State.attemptFailed])

@[simp] theorem State.attempt_same (s : State) (t : Nat) (hμ : Has μ [.teams, .phys]) :
    Same μ s₀ (s.attempt t) ↔ Same μ s₀ s :=
  Same.lift hμ s₀ (by simp [State.attempt])

@[simp] theorem State.decideTeam_same (s : State) (t : Nat) (hμ : Has μ [.rg, .ev, .flt, .logs, .teams, .life]) :
    Same μ s₀ (s.decideTeam t) ↔ Same μ s₀ s := by
  refine Same.lift hμ s₀ ?_
  unfold State.decideTeam
  dsimp only
  split <;> simp

@[simp] theorem State.markDrop_same (s : State) (p t : Nat) (hμ : Has μ [.rg, .ev, .logs, .teams, .life]) :
    Same μ s₀ (s.markDrop p t) ↔ Same μ s₀ s :=
  Same.lift hμ s₀ (by simp [State.markDrop])

@[simp] theorem State.dropComplete_same (s : State) (p t : Nat) (hμ : Has μ [.links, .flt, .teams, .phys]) :
    Same μ s₀ (s.dropComplete p t) ↔ Same μ s₀ s :=
  Same.lift hμ s₀ (by simp [State.dropComplete])

@[simp] theorem State.lastLost_same (s : State) (p : Nat) (hμ : Has μ [.out, .rg, .ev, .tows, .links, .flt, .logs,
    .teams, .phys, .halt, .ts, .life]) :
    Same μ s₀ (s.lastLost p) ↔ Same μ s₀ s :=
  Same.lift hμ s₀ (by simp [State.lastLost])

@[simp] theorem State.teamUnusable_same (s : State) (t : Nat) (hμ : Has μ [.out, .rg, .ev, .tows, .links, .flt, .logs,
    .teams, .phys, .halt, .mons, .ts, .life, .cmap]) :
    Same μ s₀ (s.teamUnusable t) ↔ Same μ s₀ s :=
  Same.lift hμ s₀ (by simp [State.teamUnusable])

@[simp] theorem State.addComplete_same (s : State) (p t : Nat) (hμ : Has μ [.links, .teams]) :
    Same μ s₀ (s.addComplete p t) ↔ Same μ s₀ s :=
  Same.lift hμ s₀ (by simp [State.addComplete])

@[simp] theorem State.teamBack_same (s : State) (p t : Nat) (hμ : Has μ [.out, .rg, .tows, .links, .teams, .phys,
    .mons, .cmap]) :
    Same μ s₀ (s.teamBack p t) ↔ Same μ s₀ s :=
  Same.lift hμ s₀ (by simp [State.teamBack])

@[simp] theorem State.callSpare_same (s : State) (t lane : Nat) (atOnce : Bool) (hμ : Has μ [.teams]) :
    Same μ s₀ (s.callSpare t lane atOnce) ↔ Same μ s₀ s :=
  Same.lift hμ s₀ (by simp [State.callSpare])

@[simp] theorem State.spareIsBad_same (s : State) (t : Nat) (hμ : Has μ [.rg, .ev, .flt, .logs, .teams, .life]) :
    Same μ s₀ (s.spareIsBad t) ↔ Same μ s₀ s :=
  Same.lift hμ s₀ (by simp [State.spareIsBad])

@[simp] theorem State.judgeTeam_same (s0 : State) (t : Nat) (hμ : Has μ [.out, .rg, .ev, .tows, .links, .flt, .logs,
    .teams, .phys, .halt, .mons, .ts, .life, .cmap]) :
    Same μ s₀ (s0.judgeTeam t) ↔ Same μ s₀ s0 := by
  refine Same.lift hμ s₀ ?_
  unfold State.judgeTeam
  dsimp only
  repeat' split
  all_goals simp

@[simp] theorem State.swapDone_same (s : State) (t lane : Nat) (hμ : Has μ [.out, .rg, .ev, .tows, .links, .flt, .logs,
    .teams, .phys, .halt, .mons, .ts, .life, .cmap]) :
    Same μ s₀ (s.swapDone t lane) ↔ Same μ s₀ s :=
  Same.lift hμ s₀ (by simp [State.swapDone])

@[simp] theorem State.wrTeamCfg_same (s : State) (t : Nat) (priv : Bool) (d : Word) (hμ : Has μ [.rg]) :
    Same μ s₀ (s.wrTeamCfg t priv d) ↔ Same μ s₀ s :=
  Same.lift hμ s₀ (by simp [State.wrTeamCfg])

@[simp] theorem State.swSwap_same (s : State) (t lane : Nat) (hμ : Has μ [.rg, .teams]) :
    Same μ s₀ (s.swSwap t lane) ↔ Same μ s₀ s :=
  Same.lift hμ s₀ (by simp [State.swSwap])

@[simp] theorem State.swRetry_same (s : State) (t : Nat) (hμ : Has μ [.teams, .phys]) :
    Same μ s₀ (s.swRetry t) ↔ Same μ s₀ s :=
  Same.lift hμ s₀ (by simp [State.swRetry])

@[simp] theorem State.wrTeamCtl_same (s : State) (t : Nat) (d : Word) (hμ : Has μ [.rg, .teams, .phys]) :
    Same μ s₀ (s.wrTeamCtl t d) ↔ Same μ s₀ s :=
  Same.lift hμ s₀ (by simp [State.wrTeamCtl])

@[simp] theorem State.prbsEnter_same (s : State) (t : Nat) (hμ : Has μ [.teams]) :
    Same μ s₀ (s.prbsEnter t) ↔ Same μ s₀ s :=
  Same.lift hμ s₀ (by simp [State.prbsEnter])

@[simp] theorem State.sendPattern_same (s : State) (t : Nat) (hμ : Has μ [.out]) :
    Same μ s₀ (s.sendPattern t) ↔ Same μ s₀ s :=
  Same.lift hμ s₀ (by simp [State.sendPattern])

@[simp] theorem State.wrPrbs_same (s : State) (t : Nat) (priv : Bool) (d : Word) (hμ : Has μ [.out, .rg, .teams]) :
    Same μ s₀ (s.wrPrbs t priv d) ↔ Same μ s₀ s :=
  Same.lift hμ s₀ (by simp [State.wrPrbs])

@[simp] theorem State.sealMap_same (s : State) (hμ : Has μ [.rg, .teams]) :
    Same μ s₀ s.sealMap ↔ Same μ s₀ s := by
  refine Same.lift hμ s₀ ?_
  unfold State.sealMap
  dsimp only
  repeat' split
  all_goals simp

@[simp] theorem State.wrHarness_same (s : State) (priv : Bool) (d : Word) (hμ : Has μ [.rg, .teams]) :
    Same μ s₀ (s.wrHarness priv d) ↔ Same μ s₀ s :=
  Same.lift hμ s₀ (by simp [State.wrHarness])

@[simp] theorem State.wrMap_same (s : State) (off : Nat) (priv : Bool) (d : Word) (hμ : Has μ [.rg]) :
    Same μ s₀ (s.wrMap off priv d) ↔ Same μ s₀ s :=
  Same.lift hμ s₀ (by simp [State.wrMap])

@[simp] theorem State.wrFom_same (s : State) (off : Nat) (priv : Bool) (d : Word) (hμ : Has μ [.rg]) :
    Same μ s₀ (s.wrFom off priv d) ↔ Same μ s₀ s :=
  Same.lift hμ s₀ (by simp [State.wrFom])

/-! ### The management core -/

@[simp] theorem State.ramWrite_same (s : State) (off : Nat) (bs : List Byte) (hμ : Has μ [.mc]) :
    Same μ s₀ (s.ramWrite off bs) ↔ Same μ s₀ s :=
  Same.lift hμ s₀ (by simp [State.ramWrite])

@[simp] theorem State.ramZero_same (s : State) (lo hi : Nat) (hμ : Has μ [.mc]) :
    Same μ s₀ (s.ramZero lo hi) ↔ Same μ s₀ s :=
  Same.lift hμ s₀ (by simp [State.ramZero])

@[simp] theorem State.setFw_same (s : State) (m : McMode) (f : FwSt) (hμ : Has μ [.rg, .ev, .logs, .mc]) :
    Same μ s₀ (s.setFw m f) ↔ Same μ s₀ s :=
  Same.lift hμ s₀ (by simp [State.setFw])

@[simp] theorem State.sayExpert_same (s : State) (hμ : Has μ [.rg, .ev, .logs]) :
    Same μ s₀ s.sayExpert ↔ Same μ s₀ s :=
  Same.lift hμ s₀ (by simp [State.sayExpert])

@[simp] theorem State.closeExpert_same (s : State) (hμ : Has μ [.rg, .ev, .logs, .mc]) :
    Same μ s₀ s.closeExpert ↔ Same μ s₀ s :=
  Same.lift hμ s₀ (by simp [State.closeExpert])

@[simp] theorem State.disown_same (s : State) (hμ : Has μ [.i2c, .mc]) :
    Same μ s₀ s.disown ↔ Same μ s₀ s :=
  Same.lift hμ s₀ (by simp [State.disown])

@[simp] theorem State.mbDone_same (s : State) (status : Nat) (ws : List Word) (hμ : Has μ [.rg, .ev, .logs, .i2c, .mc])
    :
    Same μ s₀ (s.mbDone status ws) ↔ Same μ s₀ s := by
  refine Same.lift hμ s₀ ?_
  unfold State.mbDone
  split <;> simp

@[simp] theorem State.startFw_same (s : State) (hμ : Has μ [.mc]) :
    Same μ s₀ s.startFw ↔ Same μ s₀ s :=
  Same.lift hμ s₀ (by simp [State.startFw])

@[simp] theorem State.restartFw_same (s : State) (hμ : Has μ [.rg, .ev, .flt, .logs, .i2c, .mc]) :
    Same μ s₀ s.restartFw ↔ Same μ s₀ s :=
  Same.lift hμ s₀ (by simp [State.restartFw])

/-! ### Faults -/

@[simp] theorem State.sayPins_same (s : State) (old : Bool) (hμ : Has μ [.out]) :
    Same μ s₀ (s.sayPins old) ↔ Same μ s₀ s :=
  Same.lift hμ s₀ (by simp [State.sayPins])

@[simp] theorem State.dropWaiting_same (s : State) (hμ : Has μ [.eng, .hm]) :
    Same μ s₀ s.dropWaiting ↔ Same μ s₀ s :=
  Same.lift hμ s₀ (by simp [State.dropWaiting])

@[simp] theorem State.dropServed_same (s : State) (hμ : Has μ [.eng, .hm, .streams]) :
    Same μ s₀ s.dropServed ↔ Same μ s₀ s := by
  refine Same.lift hμ s₀ ?_
  unfold State.dropServed
  extract_lets e s1 drop s2
  have h2 : Same (mask [.eng, .hm, .streams]) s s2 := by simp [s2, s1]
  simp [h2]

@[simp] theorem State.freezeLogs_same (s : State) (hμ : Has μ [.logs]) :
    Same μ s₀ s.freezeLogs ↔ Same μ s₀ s :=
  Same.lift hμ s₀ (by simp [State.freezeLogs])

@[simp] theorem State.enterDiag_same (s0 : State) (hμ : Has μ [.rg, .ev, .logs, .mc, .life]) :
    Same μ s₀ s0.enterDiag ↔ Same μ s₀ s0 :=
  Same.lift hμ s₀ (by simp [State.enterDiag])

@[simp] theorem State.enterFault_same (s : State) (hμ : Has μ raiseFlds) :
    Same μ s₀ s.enterFault ↔ Same μ s₀ s :=
  Same.lift hμ s₀ (by simp [State.enterFault])

@[simp] theorem State.leaveF2_same (s : State) (hμ : Has μ [.out, .rg, .chans, .ra, .tows, .links, .flt, .phys, .abort,
    .halt, .mons, .cmap]) :
    Same μ s₀ s.leaveF2 ↔ Same μ s₀ s :=
  Same.lift hμ s₀ (by simp [State.leaveF2])

@[simp] theorem State.fltEvent_same (s : State) (ev code inst raised taken : Nat) (hμ : Has μ [.rg, .ev, .logs]) :
    Same μ s₀ (s.fltEvent ev code inst raised taken) ↔ Same μ s₀ s :=
  Same.lift hμ s₀ (by simp [State.fltEvent])

@[simp] theorem State.capture_same (s : State) (r : Raise) (taken : Nat) (hμ : Has μ [.rg, .ev, .flt, .logs]) :
    Same μ s₀ (s.capture r taken) ↔ Same μ s₀ s := by
  refine Same.lift hμ s₀ ?_
  unfold State.capture
  extract_lets seq f t f0 rmode w0 ws s1 f1 s2 f2
  have h2 : Same (mask [.rg, .ev, .flt, .logs]) s s2 := by simp [s2, s1, t]
  split
  · simp [t]
  · split <;> simp [h2]

@[simp] theorem State.takeRaise_same (s : State) (r : Raise) (hμ : Has μ raiseFlds) :
    Same μ s₀ (s.takeRaise r) ↔ Same μ s₀ s := by
  refine Same.lift hμ s₀ ?_
  unfold State.takeRaise
  extract_lets x before was3 pins st0
  split
  extract_lets x1 s1 s2 s3 cap s3' src s4 s5 s6
  have h2 : Same (mask raiseFlds) s s2 := by simp [s2, s1]
  have h3 : Same (mask raiseFlds) s s3' := by simp [s3', s3, h2]
  have h4 : Same (mask raiseFlds) s s4 := by simp [s4, h3]
  have h5 : Same (mask raiseFlds) s s5 := by simp [s5, h4]
  have h6 : Same (mask raiseFlds) s s6 := by simp [s6, h5]
  split <;> simp [h6]

@[simp] theorem State.ack_same (s : State) (code inst raises : Nat) (hμ : Has μ [.out, .rg, .chans, .ra, .ev, .tows,
    .links, .flt, .logs, .phys, .abort, .halt, .mons, .cmap]) :
    Same μ s₀ (s.ack code inst raises).2 ↔ Same μ s₀ s :=
  Same.lift hμ s₀ (by simp [State.ack])

@[simp] theorem State.wrFltAck_same (s : State) (priv : Bool) (d : Word) (hμ : Has μ [.out, .rg, .chans, .ra, .ev,
    .tows, .links, .flt, .logs, .phys, .abort, .halt, .mons, .cmap]) :
    Same μ s₀ (s.wrFltAck priv d) ↔ Same μ s₀ s :=
  Same.lift hμ s₀ (by simp [State.wrFltAck])

@[simp] theorem State.startDone_same (s : State) (hμ : Has μ [.flt, .life]) :
    Same μ s₀ s.startDone ↔ Same μ s₀ s :=
  Same.lift hμ s₀ (by simp [State.startDone])

@[simp] theorem State.wrFltCtl_same (s : State) (priv : Bool) (d : Word) (hμ : Has μ [.rg, .flt, .life]) :
    Same μ s₀ (s.wrFltCtl priv d) ↔ Same μ s₀ s :=
  Same.lift hμ s₀ (by simp [State.wrFltCtl])

@[simp] theorem State.wrCrec_same (s : State) (d : Word) (hμ : Has μ [.rg, .flt]) :
    Same μ s₀ (s.wrCrec d) ↔ Same μ s₀ s := by
  refine Same.lift hμ s₀ ?_
  simp [State.wrCrec]

@[simp] theorem State.railInj_same (s : State) (code inst : Nat) (hμ : Has μ [.rg, .flt]) :
    Same μ s₀ (s.railInj code inst) ↔ Same μ s₀ s :=
  Same.lift hμ s₀ (by simp [State.railInj])

@[simp] theorem State.wrFltInj_same (s : State) (priv : Bool) (d : Word) (hμ : Has μ [.rg, .chans, .watch, .flt, .rus])
    :
    Same μ s₀ (s.wrFltInj priv d) ↔ Same μ s₀ s :=
  Same.lift hμ s₀ (by simp [State.wrFltInj])

/-! ### Banked and staged tables -/

@[simp] theorem State.groupReset_same (s : State) (g : Nat) (hμ : Has μ [.rg, .chans, .scal, .eng, .hm, .ev, .inj,
    .pseq, .tows, .reins, .counts, .ccnt, .logs, .groups]) :
    Same μ s₀ (s.groupReset g) ↔ Same μ s₀ s := by
  refine Same.lift hμ s₀ ?_
  unfold State.groupReset
  split <;> simp

@[simp] theorem State.epochIgn_same (s : State) (hμ : Has μ [.rg]) :
    Same μ s₀ s.epochIgn ↔ Same μ s₀ s :=
  Same.lift hμ s₀ (by simp [State.epochIgn])

@[simp] theorem State.towTry_same (s : State) (t : Nat) (hμ : Has μ [.tows]) :
    Same μ s₀ (s.towTry t) ↔ Same μ s₀ s :=
  Same.lift hμ s₀ (by simp [State.towTry])

@[simp] theorem State.towSwapped_same (s : State) (t : Nat) (hμ : Has μ [.out, .rg, .tows, .counts, .links, .phys,
    .mons, .cmap]) :
    Same μ s₀ (s.towSwapped t) ↔ Same μ s₀ s :=
  Same.lift hμ s₀ (by simp [State.towSwapped])

@[simp] theorem State.installWord_same (s : State) (off : Nat) (w : Word) (hμ : Has μ [.out, .rg, .chans, .scal, .eng,
    .hm, .ev, .inj, .pseq, .tbl, .tows, .reins, .counts, .links, .ccnt, .logs, .groups, .phys]) :
    Same μ s₀ (s.installWord off w) ↔ Same μ s₀ s := by
  refine Same.lift hμ s₀ ?_
  unfold State.installWord
  dsimp only
  repeat' split
  all_goals simp

@[simp] theorem State.wrTable_same (s : State) (off : Nat) (priv : Bool) (d : Word) (hμ : Has μ [.out, .rg, .chans,
    .scal, .eng, .hm, .ev, .inj, .pseq, .tbl, .tows, .reins, .counts, .links, .ccnt, .logs, .groups, .phys]) :
    Same μ s₀ (s.wrTable off priv d) ↔ Same μ s₀ s :=
  Same.lift hμ s₀ (by simp [State.wrTable])

@[simp] theorem State.swapTables_same (s : State) (epoch : Bool) (hμ : Has μ [.out, .rg, .chans, .scal, .eng, .hm, .ev,
    .inj, .pseq, .tbl, .tows, .reins, .counts, .links, .ccnt, .logs, .groups, .phys, .mons, .cmap]) :
    Same μ s₀ (s.swapTables epoch) ↔ Same μ s₀ s :=
  Same.lift hμ s₀ (by simp [State.swapTables])

@[simp] theorem State.dropStaging_same (s : State) (hμ : Has μ [.tbl]) :
    Same μ s₀ s.dropStaging ↔ Same μ s₀ s :=
  Same.lift hμ s₀ (by simp [State.dropStaging])

@[simp] theorem State.wrChip_same (s : State) (priv : Bool) (d : Word) (hμ : Has μ [.out, .ident, .tows, .links,
    .phys]) :
    Same μ s₀ (s.wrChip priv d) ↔ Same μ s₀ s :=
  Same.lift hμ s₀ (by simp [State.wrChip])

@[simp] theorem State.wrPartLim_same (s : State) (hi priv : Bool) (d : Word) (hμ : Has μ [.ident]) :
    Same μ s₀ (s.wrPartLim hi priv d) ↔ Same μ s₀ s :=
  Same.lift hμ s₀ (by simp [State.wrPartLim])

@[simp] theorem State.wrTorus_same (s : State) (priv : Bool) (d : Word) (hμ : Has μ [.out, .rg, .tows, .links, .phys]) :
    Same μ s₀ (s.wrTorus priv d) ↔ Same μ s₀ s :=
  Same.lift hμ s₀ (by simp [State.wrTorus])

@[simp] theorem State.wrPfence_same (s : State) (priv : Bool) (d : Word) (hμ : Has μ [.pfence, .rg, .ra, .inj, .pseq,
    .reins, .rrUsed, .counts, .flt]) :
    Same μ s₀ (s.wrPfence priv d) ↔ Same μ s₀ s :=
  Same.lift hμ s₀ (by simp [State.wrPfence])

/-! ### Logbooks, congestion maps and the lifetime record -/

@[simp] theorem State.logLost_same (s : State) (n k : Nat) (hμ : Has μ [.rg]) :
    Same μ s₀ (s.logLost n k) ↔ Same μ s₀ s :=
  Same.lift hμ s₀ (by simp [State.logLost])

@[simp] theorem State.logStart_same (s : State) (n : Nat) (hμ : Has μ [.logs, .lbOut]) :
    Same μ s₀ (s.logStart n) ↔ Same μ s₀ s :=
  Same.lift hμ s₀ (by simp [State.logStart])

@[simp] theorem State.logOff_same (s : State) (n : Nat) (lose : Bool) (hμ : Has μ [.rg, .ev, .logs, .lbOut]) :
    Same μ s₀ (s.logOff n lose) ↔ Same μ s₀ s :=
  Same.lift hμ s₀ (by simp [State.logOff])

@[simp] theorem State.logDrained_same (s : State) (n : Nat) (hμ : Has μ [.rg, .ev, .logs, .lbOut]) :
    Same μ s₀ (s.logDrained n) ↔ Same μ s₀ s :=
  Same.lift hμ s₀ (by simp [State.logDrained])

@[simp] theorem State.logEn_same (s : State) (n : Nat) (on : Bool) (hμ : Has μ [.rg, .ev, .logs, .lbOut]) :
    Same μ s₀ (s.logEn n on) ↔ Same μ s₀ s := by
  refine Same.lift hμ s₀ ?_
  unfold State.logEn
  dsimp only
  split <;> simp

@[simp] theorem State.logWrite_same (s0 : State) (n k : Nat) (hμ : Has μ [.out, .rg, .ev, .flt, .logs, .lbOut, .mons]) :
    Same μ s₀ (s0.logWrite n k) ↔ Same μ s₀ s0 := by
  refine Same.lift hμ s₀ ?_
  simp [State.logWrite, -State.modLog_frame]

@[simp] theorem State.wrLogCtl_same (s : State) (n : Nat) (priv : Bool) (d : Word) (hμ : Has μ [.out, .rg, .ev, .flt,
    .logs, .lbOut, .mons]) :
    Same μ s₀ (s.wrLogCtl n priv d) ↔ Same μ s₀ s :=
  Same.lift hμ s₀ (by simp [State.wrLogCtl])

@[simp] theorem State.wrLogWin_same (s : State) (priv : Bool) (d : Word) (hμ : Has μ [.rg]) :
    Same μ s₀ (s.wrLogWin priv d) ↔ Same μ s₀ s :=
  Same.lift hμ s₀ (by simp [State.wrLogWin])

@[simp] theorem State.cmapRecord_same (s : State) (p idx : Nat) (hμ : Has μ [.rg, .ev, .logs]) :
    Same μ s₀ (s.cmapRecord p idx) ↔ Same μ s₀ s :=
  Same.lift hμ s₀ (by simp [State.cmapRecord])

@[simp] theorem State.lifeInc64_same (s : State) (off : Nat) (hμ : Has μ [.life]) :
    Same μ s₀ (s.lifeInc64 off) ↔ Same μ s₀ s := by
  refine Same.lift hμ s₀ ?_
  have h (t : State) (l : LifeRec) : Same (mask [.life]) t { t with life := l } := by simp
  unfold State.lifeInc64
  exact (h _ _).trans (h _ _)

@[simp] theorem State.lifeSnap_same (s : State) (hμ : Has μ [.life]) :
    Same μ s₀ s.lifeSnap ↔ Same μ s₀ s :=
  Same.lift hμ s₀ (by simp [State.lifeSnap])

@[simp] theorem State.lifeOpen_same (s : State) (hμ : Has μ [.life]) :
    Same μ s₀ s.lifeOpen ↔ Same μ s₀ s :=
  Same.lift hμ s₀ (by simp [State.lifeOpen])

@[simp] theorem State.lifeCommit_same (s : State) (hμ : Has μ [.life]) :
    Same μ s₀ s.lifeCommit ↔ Same μ s₀ s := by
  refine Same.lift hμ s₀ ?_
  have hadd (t : State) (o n : Nat) : Same (mask [.life]) t (t.lifeAdd o n) := by simp [State.lifeAdd]
  have hlife (t : State) (l : LifeRec) : Same (mask [.life]) t { t with life := l } := by simp
  unfold State.lifeCommit
  split
  · rfl
  · split
    · exact hlife _ _
    · exact ((Same.foldl (fun _ _ => hadd _ _ _) _ _).trans (Same.foldl (fun _ _ => hlife _ _) _ _)).trans (hlife _ _)

@[simp] theorem State.wrLifeCtl_same (s : State) (d : Word) (hμ : Has μ [.life]) :
    Same μ s₀ (s.wrLifeCtl d) ↔ Same μ s₀ s :=
  Same.lift hμ s₀ (by simp [State.wrLifeCtl])

@[simp] theorem State.wrLifeBody_same (s : State) (off : Nat) (d : Word) (hμ : Has μ [.life]) :
    Same μ s₀ (s.wrLifeBody off d) ↔ Same μ s₀ s :=
  Same.lift hμ s₀ (by simp [State.wrLifeBody])

/-! ### Power and resets -/

@[simp] theorem State.keepRegs_same (s t : State) {which : Nat → Bool} (hμ : Has μ [.rg]) :
    Same μ s₀ (s.keepRegs t which) ↔ Same μ s₀ t :=
  Same.lift hμ s₀ (by simp [State.keepRegs])

@[simp] theorem State.warmUnits_same (s t : State) (hμ : Has μ [.rus]) :
    Same μ s₀ (s.warmUnits t) ↔ Same μ s₀ t :=
  Same.lift hμ s₀ (by simp [State.warmUnits])

@[simp] theorem State.bootFw_same (s : State) (hμ : Has μ [.rg, .ev, .flt, .logs, .mc]) :
    Same μ s₀ s.bootFw ↔ Same μ s₀ s :=
  Same.lift hμ s₀ (by simp [State.bootFw])

@[simp] theorem State.resetPins_same (s : State) (hμ : Has μ [.out, .pwr]) :
    Same μ s₀ s.resetPins ↔ Same μ s₀ s :=
  Same.lift hμ s₀ (by simp [State.resetPins])

@[simp] theorem State.coldIdle_same (s : State) (hμ : Has μ [.out, .tows, .links, .phys]) :
    Same μ s₀ s.coldIdle ↔ Same μ s₀ s :=
  Same.lift hμ s₀ (by simp [State.coldIdle])

@[simp] theorem State.holdTurn_same (s : State) (was : Bool) (hμ : Has μ [.out, .tows, .links, .phys, .pwr]) :
    Same μ s₀ (s.holdTurn was) ↔ Same μ s₀ s :=
  Same.lift hμ s₀ (by simp [State.holdTurn])

@[simp] theorem State.warmRequest_same (s : State) (cause : Nat) (hμ : Has μ warmFlds) :
    Same μ s₀ (s.warmRequest cause) ↔ Same μ s₀ s :=
  Same.lift hμ s₀ (by simp [State.warmRequest])

@[simp] theorem State.wrResetCtl_same (s : State) (priv : Bool) (d : Word) (hμ : Has μ warmFlds) :
    Same μ s₀ (s.wrResetCtl priv d) ↔ Same μ s₀ s :=
  Same.lift hμ s₀ (by simp [State.wrResetCtl])

@[simp] theorem State.repairStat_same (s : State) (r : SelfCheck) (hμ : Has μ [.rg]) :
    Same μ s₀ (s.repairStat r) ↔ Same μ s₀ s :=
  Same.lift hμ s₀ (by simp [State.repairStat])

@[simp] theorem State.tap_same (s : State) (inst : Byte) (hμ : Has μ [.out, .tows, .links, .phys, .pwr]) :
    Same μ s₀ (s.tap inst) ↔ Same μ s₀ s :=
  Same.lift hμ s₀ (by simp [State.tap])

/-! ### Time -/

@[simp] theorem State.wrTimeCfg_same (s : State) (priv : Bool) (d : Word) (hμ : Has μ [.rg, .ev, .flt, .logs, .ts]) :
    Same μ s₀ (s.wrTimeCfg priv d) ↔ Same μ s₀ s :=
  Same.lift hμ s₀ (by simp [State.wrTimeCfg])

@[simp] theorem State.steerBy_same (s : State) (theta : Int) (hμ : Has μ [.free, .tod, .rg, .ev, .flt, .logs, .ts]) :
    Same μ s₀ (s.steerBy theta) ↔ Same μ s₀ s := by
  refine Same.lift hμ s₀ ?_
  unfold State.steerBy
  split <;> simp

/-! ### I2C -/

@[simp] theorem State.setI2c_same (s : State) (c : Nat) (x : Option I2cBusy) (hμ : Has μ [.i2c]) :
    Same μ s₀ (s.setI2c c x) ↔ Same μ s₀ s :=
  Same.lift hμ s₀ (by simp [State.setI2c])

@[simp] theorem State.setI2cData_same (s : State) (c : Nat) (bs : List Byte) (hμ : Has μ [.rg]) :
    Same μ s₀ (s.setI2cData c bs) ↔ Same μ s₀ s :=
  Same.lift hμ s₀ (by simp [State.setI2cData])

@[simp] theorem State.i2cDone_same (s : State) (c result n : Nat) (hμ : Has μ [.rg, .ev, .logs, .i2c]) :
    Same μ s₀ (s.i2cDone c result n) ↔ Same μ s₀ s :=
  Same.lift hμ s₀ (by simp [State.i2cDone])

@[simp] theorem State.i2cGo_same (s : State) (c : Nat) (mb : Option Asker) (hμ : Has μ [.out, .rg, .ev, .logs, .i2c]) :
    Same μ s₀ (s.i2cGo c mb) ↔ Same μ s₀ s :=
  Same.lift hμ s₀ (by simp [State.i2cGo])

@[simp] theorem State.wrI2cCmd_same (s : State) (c : Nat) (priv : Bool) (d : Word) (hμ : Has μ [.out, .rg, .ev, .logs,
    .i2c]) :
    Same μ s₀ (s.wrI2cCmd c priv d) ↔ Same μ s₀ s :=
  Same.lift hμ s₀ (by simp [State.wrI2cCmd])

@[simp] theorem State.i2cPart_same (s : State) (c n : Nat) (b : I2cBusy) (hμ : Has μ [.free, .rg]) :
    Same μ s₀ (s.i2cPart c n b) ↔ Same μ s₀ s :=
  Same.lift hμ s₀ (by simp [State.i2cPart])

@[simp] theorem State.i2cEnd_same (s : State) (c : Nat) (b : I2cBusy) (r : I2cEnd) (hμ : Has μ [.free, .rg, .ev, .flt,
    .logs, .i2c]) :
    Same μ s₀ (s.i2cEnd c b r) ↔ Same μ s₀ s := by
  refine Same.lift hμ s₀ ?_
  unfold State.i2cEnd
  split <;> simp

/-! ### Register reads -/

@[simp] theorem State.latch_same (s : State) (off : Nat) (w : Word) (hμ : Has μ [.rshadow]) :
    Same μ s₀ (s.latch off w) ↔ Same μ s₀ s :=
  Same.lift hμ s₀ (by simp [State.latch])

@[simp] theorem State.latchCnt_same (s : State) (k : Nat) (snap : Bool) (hμ : Has μ [.rshadow]) :
    Same μ s₀ (s.latchCnt k snap) ↔ Same μ s₀ s :=
  Same.lift hμ s₀ (by simp [State.latchCnt])

@[simp] theorem State.readReg_same (s : State) (off : Nat) (hμ : Has μ [.rshadow]) :
    Same μ s₀ (s.readReg off).2 ↔ Same μ s₀ s := by
  refine Same.lift hμ s₀ ?_
  unfold State.readReg
  split <;> simp

@[simp] theorem State.rgRead_same (s : State) (off : Nat) (par : Bool) (hμ : Has μ [.out, .rg, .rshadow, .flt]) :
    Same μ s₀ (s.rgRead off par) ↔ Same μ s₀ s :=
  Same.lift hμ s₀ (by simp [State.rgRead])

/-! ### Register writes by address -/

@[simp] theorem State.wrFence_same (s : State) (priv : Bool) (d : Word) (hμ : Has μ [.out, .rg, .chans, .scal, .ev,
    .inj, .eject, .tows, .counts, .links, .flt, .logs, .teams, .phys, .halt, .mons, .ts, .cmap]) :
    Same μ s₀ (s.wrFence priv d) ↔ Same μ s₀ s :=
  Same.lift hμ s₀ (by simp [State.wrFence])

@[simp] theorem State.wrFarCtl_same (s : State) (priv : Bool) (d : Word) (hμ : Has μ [.out, .rg, .ev, .logs, .far]) :
    Same μ s₀ (s.wrFarCtl priv d) ↔ Same μ s₀ s :=
  Same.lift hμ s₀ (by simp [State.wrFarCtl])

@[simp] theorem State.wrFarCmd_same (s : State) (d : Word) (hμ : Has μ [.rg, .far]) :
    Same μ s₀ (s.wrFarCmd d) ↔ Same μ s₀ s := by
  refine Same.lift hμ s₀ ?_
  simp [State.wrFarCmd, -State.setReg_frame]

@[simp] theorem State.mbIgn_same (s : State) (hμ : Has μ [.rg]) :
    Same μ s₀ s.mbIgn ↔ Same μ s₀ s :=
  Same.lift hμ s₀ (by simp [State.mbIgn])

@[simp] theorem State.wrMbCtl_same (s : State) (d : Word) (hμ : Has μ [.rg, .mc]) :
    Same μ s₀ (s.wrMbCtl d) ↔ Same μ s₀ s :=
  Same.lift hμ s₀ (by simp [State.wrMbCtl])

@[simp] theorem State.wrMbReq_same (s : State) (off : Nat) (d : Word) (hμ : Has μ [.rg]) :
    Same μ s₀ (s.wrMbReq off d) ↔ Same μ s₀ s :=
  Same.lift hμ s₀ (by simp [State.wrMbReq])

@[simp] theorem State.wrWide_same (s : State) (off : Nat) (d : Word) (hμ : Has μ [.rg, .wshadow]) :
    Same μ s₀ (s.wrWide off d) ↔ Same μ s₀ s :=
  Same.lift hμ s₀ (by simp [State.wrWide])

@[simp] theorem State.wrShadow_same (s : State) (off : Nat) (d : Word) (hμ : Has μ [.wshadow]) :
    Same μ s₀ (s.wrShadow off d) ↔ Same μ s₀ s :=
  Same.lift hμ s₀ (by simp [State.wrShadow])

@[simp] theorem State.wrSeedHi_same (s : State) (priv : Bool) (d : Word) (hμ : Has μ [.rg]) :
    Same μ s₀ (s.wrSeedHi priv d) ↔ Same μ s₀ s :=
  Same.lift hμ s₀ (by simp [State.wrSeedHi])

@[simp] theorem State.wrRing_same (s : State) (k off : Nat) (priv : Bool) (d : Word) (hμ : Has μ [.rg, .chans, .ev,
    .logs]) :
    Same μ s₀ (s.wrRing k off priv d) ↔ Same μ s₀ s :=
  Same.lift hμ s₀ (by simp [State.wrRing])

@[simp] theorem State.wrCmark_same (s : State) (priv : Bool) (d : Word) (hμ : Has μ [.rg]) :
    Same μ s₀ (s.wrCmark priv d) ↔ Same μ s₀ s :=
  Same.lift hμ s₀ (by simp [State.wrCmark])

@[simp] theorem State.wrRein_same (s : State) (priv : Bool) (d : Word) (hμ : Has μ [.rg, .reins]) :
    Same μ s₀ (s.wrRein priv d) ↔ Same μ s₀ s :=
  Same.lift hμ s₀ (by simp [State.wrRein])

@[simp] theorem State.wrBasin_same (s : State) (off : Nat) (priv : Bool) (d : Word) (hμ : Has μ [.rg]) :
    Same μ s₀ (s.wrBasin off priv d) ↔ Same μ s₀ s :=
  Same.lift hμ s₀ (by simp [State.wrBasin])

@[simp] theorem State.writeLow_same (s : State) (off : Nat) (priv : Bool) (d : Word) (hμ : Has μ lowFlds) :
    Same μ s₀ (s.writeLow off priv d) ↔ Same μ s₀ s := by
  refine Same.lift hμ s₀ ?_
  unfold State.writeLow
  split <;> simp

@[simp] theorem State.writeFault_same (s : State) (off : Nat) (priv : Bool) (d : Word) (hμ : Has μ [.out, .rg, .chans,
    .scal, .watch, .ra, .ev, .inj, .pseq, .eject, .tows, .reins, .rrUsed, .counts, .links, .flt, .logs, .rus, .teams,
    .phys, .abort, .halt, .far, .mons, .ts, .life, .cmap]) :
    Same μ s₀ (s.writeFault off priv d) ↔ Same μ s₀ s :=
  Same.lift hμ s₀ (by simp [State.writeFault])

@[simp] theorem State.writeChan_same (s : State) (k r : Nat) (priv : Bool) (d : Word) (hμ : Has μ [.rg, .wshadow,
    .chans, .scal, .watch, .eng, .hm, .ev, .inj, .pseq, .tows, .reins, .counts, .ccnt, .logs, .groups, .rus]) :
    Same μ s₀ (s.writeChan k r priv d) ↔ Same μ s₀ s :=
  Same.lift hμ s₀ (by simp [State.writeChan])

@[simp] theorem State.writeWatch_same (s : State) (w r : Nat) (d : Word) (hμ : Has μ [.free, .watch]) :
    Same μ s₀ (s.writeWatch w r d) ↔ Same μ s₀ s := by
  refine Same.lift hμ s₀ ?_
  unfold State.writeWatch
  split <;> simp

@[simp] theorem State.writeMid_same (s : State) (off : Nat) (priv : Bool) (d : Word) (hμ : Has μ [.out, .free, .rg,
    .wshadow, .chans, .scal, .watch, .eng, .hm, .ev, .inj, .pseq, .tbl, .tows, .reins, .counts, .links, .flt, .ccnt,
    .logs, .groups, .rus, .teams, .phys, .i2c, .mc, .ts]) :
    Same μ s₀ (s.writeMid off priv d) ↔ Same μ s₀ s := by
  refine Same.lift hμ s₀ ?_
  have h (c : Prop) [Decidable c] (hc : c → 0xF100 ≤ off ∧ off < 0xF200) :
      (if c then s.wrMbReq off d else s.plainWrite off priv d).ids = s.ids := by
    split
    · next h => exact State.wrMbReq_ids s d (by have := hc h; omega)
    · simp
  unfold State.writeMid
  split
  · simp
  · split <;> simp
  · simp
  · split
    all_goals simp [h _ id]

@[simp] theorem State.writeObs_same (s : State) (off : Nat) (priv : Bool) (d : Word) (hμ : Has μ [.out, .rg, .wshadow, .ev, .flt, .logs, .lbOut, .mons, .life]) :
    Same μ s₀ (s.writeObs off priv d) ↔ Same μ s₀ s := by
  refine Same.lift hμ s₀ ?_
  unfold State.writeObs
  split <;> simp

@[simp] theorem State.writeReg_same (s : State) (off : Nat) (priv : Bool) (d : Word) (hμ : Has μ regFlds) :
    Same μ s₀ (s.writeReg off priv d) ↔ Same μ s₀ s := by
  refine Same.lift hμ s₀ ?_
  simp [State.writeReg]

/-! ### Farriers -/

@[simp] theorem State.sayFarrier_same (s : State) (hμ : Has μ [.rg, .ev, .logs]) :
    Same μ s₀ s.sayFarrier ↔ Same μ s₀ s :=
  Same.lift hμ s₀ (by simp [State.sayFarrier])

@[simp] theorem State.farOpen_same (s : State) (ps : List Nat) (hμ : Has μ [.links, .teams, .phys, .far]) :
    Same μ s₀ (s.farOpen ps) ↔ Same μ s₀ s :=
  Same.lift hμ s₀ (by simp [State.farOpen])

@[simp] theorem State.farAnswer_same (s : State) (c : FarCmd) (status d0 d1 : Nat) (hμ : Has μ [.rg, .inj, .pseq,
    .counts]) :
    Same μ s₀ (s.farAnswer c status d0 d1) ↔ Same μ s₀ s := by
  refine Same.lift hμ s₀ ?_
  unfold State.farAnswer
  split <;> simp

@[simp] theorem State.resetMc_same (s : State) (hμ : Has μ [.rg, .ev, .flt, .logs, .i2c, .mc]) :
    Same μ s₀ s.resetMc ↔ Same μ s₀ s :=
  Same.lift hμ s₀ (by simp [State.resetMc])

/-! ### Management packets -/

@[simp] theorem State.mgtSend_same (s : State) (m : TreeMsg) (who : Option Asker) (hμ : Has μ [.rg, .inj, .pseq,
    .counts, .mc]) :
    Same μ s₀ (s.mgtSend m who) ↔ Same μ s₀ s :=
  Same.lift hμ s₀ (by simp [State.mgtSend])

@[simp] theorem State.mgtResend_same (s : State) (m : MgtOut) (hμ : Has μ [.rg, .inj, .pseq, .counts, .mc]) :
    Same μ s₀ (s.mgtResend m) ↔ Same μ s₀ s :=
  Same.lift hμ s₀ (by simp [State.mgtResend])

@[simp] theorem State.mgtRespond_same (s : State) (p : Packet) (bs : List Byte) (hμ : Has μ [.rg, .inj, .pseq,
    .counts]) :
    Same μ s₀ (s.mgtRespond p bs) ↔ Same μ s₀ s :=
  Same.lift hμ s₀ (by simp [State.mgtRespond])

@[simp] theorem State.mgtReply_same (s : State) (p : Packet) (ws : List Word) (hμ : Has μ [.rg, .inj, .pseq, .counts,
    .mc]) :
    Same μ s₀ (s.mgtReply p ws) ↔ Same μ s₀ s :=
  Same.lift hμ s₀ (by simp [State.mgtReply])

@[simp] theorem State.answerAsk_same (s : State) (who : Asker) (status : Nat) (ws : List Word) (hμ : Has μ [.out, .rg,
    .ev, .inj, .pseq, .counts, .logs, .i2c, .mc]) :
    Same μ s₀ (s.answerAsk who status ws) ↔ Same μ s₀ s := by
  refine Same.lift hμ s₀ ?_
  unfold State.answerAsk
  split <;> simp

@[simp] theorem State.treePut_same (s : State) (m : TreeMsg) (hμ : Has μ [.mc]) :
    Same μ s₀ (s.treePut m) ↔ Same μ s₀ s :=
  Same.lift hμ s₀ (by simp [State.treePut])

@[simp] theorem State.pumpTree_same (s : State) (hμ : Has μ [.rg, .inj, .pseq, .counts, .mc]) :
    Same μ s₀ s.pumpTree ↔ Same μ s₀ s :=
  Same.lift hμ s₀ (by simp [State.pumpTree])

/-! ### Table cycles and management trees -/

@[simp] theorem State.modPart_same (s : State) (f : LockPart → LockPart) (hμ : Has μ [.mc]) :
    Same μ s₀ (s.modPart f) ↔ Same μ s₀ s :=
  Same.lift hμ s₀ (by simp [State.modPart])

@[simp] theorem State.sayLock_same (s : State) (hμ : Has μ [.rg, .ev, .logs]) :
    Same μ s₀ s.sayLock ↔ Same μ s₀ s :=
  Same.lift hμ s₀ (by simp [State.sayLock])

@[simp] theorem State.sendDown_same (s : State) (p : LockPart) (msg : Nat) (ws : List Word) (hμ : Has μ [.mc]) :
    Same μ s₀ (s.sendDown p msg ws) ↔ Same μ s₀ s :=
  Same.lift hμ s₀ (by simp [State.sendDown])

@[simp] theorem State.gather_same (s : State) (wave : Nat) (a : TreeAgg) (hμ : Has μ [.mc]) :
    Same μ s₀ (s.gather wave a) ↔ Same μ s₀ s :=
  Same.lift hμ s₀ (by simp [State.gather])

@[simp] theorem State.takeoverHere_same (s : State) (failed spare : Nat) (same : Bool) (pos : Nat) (hμ : Has μ [.out,
    .rg, .chans, .scal, .ev, .inj, .eject, .tbl, .tows, .counts, .links, .flt, .logs, .teams, .phys, .halt, .mons, .mc,
    .ts, .cmap]) :
    Same μ s₀ (s.takeoverHere failed spare same pos) ↔ Same μ s₀ s := by
  refine Same.lift hμ s₀ ?_
  unfold State.takeoverHere
  extract_lets s1
  have h1 : Same (mask [.out, .rg, .chans, .scal, .ev, .inj, .eject, .tbl, .tows, .counts, .links, .flt, .logs, .teams,
    .phys, .halt, .mons, .mc, .ts, .cmap]) s s1 := Same.foldl (fun t p => by dsimp only; split <;> simp) _ _
  split <;> simp [h1]

@[simp] theorem State.stageHere_same (s : State) (ws : List Word) (hμ : Has μ [.out, .rg, .chans, .scal, .ev, .inj,
    .eject, .tbl, .tows, .counts, .links, .flt, .logs, .teams, .phys, .halt, .mons, .mc, .ts, .cmap]) :
    Same μ s₀ (s.stageHere ws) ↔ Same μ s₀ s := by
  refine Same.lift hμ s₀ ?_
  unfold State.stageHere
  split <;> simp

@[simp] theorem State.sealHere_same (s : State) (hμ : Has μ [.rg, .ev, .tbl, .logs, .mc]) :
    Same μ s₀ s.sealHere ↔ Same μ s₀ s :=
  Same.lift hμ s₀ (by simp [State.sealHere])

@[simp] theorem State.lockHere_same (s : State) (hμ : Has μ [.rg, .ev, .tbl, .logs]) :
    Same μ s₀ s.lockHere ↔ Same μ s₀ s :=
  Same.lift hμ s₀ (by simp [State.lockHere])

@[simp] theorem State.countHere_same (s : State) (hμ : Has μ [.mc]) :
    Same μ s₀ s.countHere ↔ Same μ s₀ s := by
  refine Same.lift hμ s₀ ?_
  unfold State.countHere
  split <;> simp

@[simp] theorem State.towsOff_same (s : State) (key : Nat) (hμ : Has μ [.tows]) :
    Same μ s₀ (s.towsOff key) ↔ Same μ s₀ s :=
  Same.lift hμ s₀ (by simp [State.towsOff])

@[simp] theorem State.swapNow_same (s : State) (p : LockPart) (hμ : Has μ [.out, .rg, .chans, .scal, .eng, .hm, .ev,
    .inj, .pseq, .tbl, .tows, .reins, .counts, .links, .ccnt, .logs, .groups, .phys, .mons, .mc, .cmap]) :
    Same μ s₀ (s.swapNow p) ↔ Same μ s₀ s :=
  Same.lift hμ s₀ (by simp [State.swapNow])

@[simp] theorem State.swapTurn_same (s : State) (hμ : Has μ [.out, .rg, .chans, .scal, .eng, .hm, .ev, .inj, .pseq,
    .tbl, .tows, .reins, .counts, .links, .ccnt, .logs, .groups, .phys, .mons, .mc, .cmap]) :
    Same μ s₀ s.swapTurn ↔ Same μ s₀ s := by
  refine Same.lift hμ s₀ ?_
  unfold State.swapTurn
  split <;> simp

@[simp] theorem State.swapHere_same (s : State) (epoch : Bool) (hμ : Has μ [.out, .rg, .chans, .scal, .eng, .hm, .ev,
    .inj, .pseq, .tbl, .tows, .reins, .counts, .links, .ccnt, .logs, .groups, .phys, .mons, .mc, .cmap]) :
    Same μ s₀ (s.swapHere epoch) ↔ Same μ s₀ s := by
  refine Same.lift hμ s₀ ?_
  unfold State.swapHere
  split <;> simp

@[simp] theorem State.swapLate_same (s : State) (hμ : Has μ [.out, .rg, .chans, .scal, .eng, .hm, .ev, .inj, .pseq,
    .tbl, .tows, .reins, .counts, .links, .ccnt, .logs, .groups, .phys, .mons, .mc, .cmap]) :
    Same μ s₀ s.swapLate ↔ Same μ s₀ s := by
  refine Same.lift hμ s₀ ?_
  unfold State.swapLate
  split <;> simp

@[simp] theorem State.unlock_same (s : State) (keep : Bool) (hμ : Has μ [.out, .rg, .chans, .cpHeld, .ra, .ev, .inj,
    .pseq, .tbl, .tows, .reins, .rrUsed, .counts, .flt, .ccnt, .logs, .mc]) :
    Same μ s₀ (s.unlock keep) ↔ Same μ s₀ s :=
  Same.lift hμ s₀ (by simp [State.unlock])

@[simp] theorem State.releaseHere_same (s : State) (hμ : Has μ [.out, .rg, .chans, .cpHeld, .scal, .eng, .hm, .ra, .ev,
    .inj, .pseq, .tbl, .tows, .reins, .rrUsed, .counts, .links, .flt, .ccnt, .logs, .groups, .phys, .mons, .mc, .cmap])
    :
    Same μ s₀ s.releaseHere ↔ Same μ s₀ s :=
  Same.lift hμ s₀ (by simp [State.releaseHere])

@[simp] theorem State.waveHere_same (s : State) (msg : Nat) (ws : List Word) (hμ : Has μ waveFlds) :
    Same μ s₀ (s.waveHere msg ws) ↔ Same μ s₀ s := by
  refine Same.lift hμ s₀ ?_
  unfold State.waveHere
  split <;> simp

@[simp] theorem State.wave_same (s : State) (msg : Nat) (ws : List Word) (hμ : Has μ waveFlds) :
    Same μ s₀ (s.wave msg ws) ↔ Same μ s₀ s := by
  refine Same.lift hμ s₀ ?_
  unfold State.wave
  split <;> simp

@[simp] theorem State.freeWords_same (s : State) (n : Nat) (hμ : Has μ [.free]) :
    Same μ s₀ (s.freeWords n).2 ↔ Same μ s₀ s :=
  Same.lift hμ s₀ (by simp [State.freeWords])

@[simp] theorem State.sayImg_same (s : State) (status first : Nat) (hμ : Has μ [.rg, .ev, .logs]) :
    Same μ s₀ (s.sayImg status first) ↔ Same μ s₀ s :=
  Same.lift hμ s₀ (by simp [State.sayImg])

@[simp] theorem State.leadEnd_same (s : State) (l : Lead) (status : Nat) (ws : List Word) (hμ : Has μ leadFlds) :
    Same μ s₀ (s.leadEnd l status ws) ↔ Same μ s₀ s := by
  refine Same.lift hμ s₀ ?_
  unfold State.leadEnd
  dsimp only
  split <;> simp

@[simp] theorem State.swapWave_same (s : State) (l : Lead) (epoch : Bool) (hμ : Has μ waveFlds) :
    Same μ s₀ (s.swapWave l epoch) ↔ Same μ s₀ s := by
  refine Same.lift hμ s₀ ?_
  unfold State.swapWave
  split <;> simp

@[simp] theorem State.leadStep_same (s : State) (l : Lead) (p : LockPart) (hμ : Has μ leadFlds) :
    Same μ s₀ (s.leadStep l p) ↔ Same μ s₀ s :=
  Same.lift hμ s₀ (by simp [State.leadStep])

@[simp] theorem State.reportUp_same (s : State) (p : LockPart) (hμ : Has μ [.mc]) :
    Same μ s₀ (s.reportUp p) ↔ Same μ s₀ s :=
  Same.lift hμ s₀ (by simp [State.reportUp])

@[simp] theorem State.treeTurn_same (n : Nat) (s : State) (hμ : Has μ leadFlds) :
    Same μ s₀ (State.treeTurn n s) ↔ Same μ s₀ s := by
  refine Same.lift_iff hμ s₀ fun s₀ => ?_
  induction n generalizing s s₀ with
  | zero => rfl
  | succ n ih =>
    unfold State.treeTurn
    repeat' split
    all_goals simp [ih]

@[simp] theorem State.leadSeal_same (s : State) (hμ : Has μ waveFlds) :
    Same μ s₀ s.leadSeal ↔ Same μ s₀ s := by
  refine Same.lift hμ s₀ ?_
  unfold State.leadSeal
  split <;> simp

@[simp] theorem State.treeGo_same (s : State) (hμ : Has μ leadFlds) :
    Same μ s₀ s.treeGo ↔ Same μ s₀ s :=
  Same.lift hμ s₀ (by simp [State.treeGo])

@[simp] theorem State.swapSettle_same (s : State) (hμ : Has μ leadFlds) :
    Same μ s₀ s.swapSettle ↔ Same μ s₀ s := by
  refine Same.lift hμ s₀ ?_
  unfold State.swapSettle
  split <;> simp

@[simp] theorem State.leadRound_same (s : State) (hμ : Has μ leadFlds) :
    Same μ s₀ s.leadRound ↔ Same μ s₀ s := by
  refine Same.lift hμ s₀ ?_
  unfold State.leadRound
  split <;> simp

@[simp] theorem State.leadStart_same (s : State) (use : LeadUse) (who : Asker) (hμ : Has μ [.tbl, .mc]) :
    Same μ s₀ (s.leadStart use who) ↔ Same μ s₀ s :=
  Same.lift hμ s₀ (by simp [State.leadStart])

theorem State.joinPart_same {s t : State} {p : Packet} {msg : Nat} (h : s.joinPart p msg = some t) :
    Same (mask [.mc]) s t := by
  unfold State.joinPart at h
  dsimp only at h
  repeat' split at h
  all_goals cases h <;> simp

@[simp] theorem State.refuseUp_same (s : State) (p : Packet) (hμ : Has μ [.mc]) :
    Same μ s₀ (s.refuseUp p) ↔ Same μ s₀ s :=
  Same.lift hμ s₀ (by simp [State.refuseUp])

@[simp] theorem State.treeDown_same (s : State) (h : Held) (msg : Nat) (hμ : Has μ downFlds) :
    Same μ s₀ (s.treeDown h msg) ↔ Same μ s₀ s := by
  refine Same.lift hμ s₀ ?_
  unfold State.treeDown
  extract_lets p gen s1 s2
  have h1 : Same (mask downFlds) s s1 := (State.mgtReply_same s p [] (by simp)).mpr (Same.refl _ s)
  have h2 : Same (mask downFlds) s s2 := by simp [s2, h1]
  split
  · next hj => simp [Same.iff_of_same ((State.joinPart_same hj).mono (n := mask downFlds) (by simp)), h2]
  · simp [h2]

-- By an equation of functions: the equation that `unfold` proves, of their values, is too deep for the kernel.
@[simp] theorem State.treeUp_same (s : State) (h : Held) (wave : Nat) (hμ : Has μ leadFlds) :
    Same μ s₀ (s.treeUp h wave) ↔ Same μ s₀ s := by
  have same_of_eq {f g : State → Held → Nat → State} (hfg : f = g) (hg : Same (mask leadFlds) s (g s h wave)) :
      Same (mask leadFlds) s (f s h wave) := hfg ▸ hg
  refine Same.lift hμ s₀ (same_of_eq (f := State.treeUp) (by delta State.treeUp; exact rfl) ?_)
  extract_lets p s1
  have h1 : Same (mask leadFlds) s s1 := (State.mgtReply_same s p [] (by simp)).mpr (Same.refl _ s)
  clear_value s1
  split
  · simp [h1]
  · split <;> simp [h1]

@[simp] theorem State.spareJoin_same (s : State) (p : Packet) (failed former pos : Nat) (hμ : Has μ [.rg, .ev, .tbl,
    .logs, .mc]) :
    Same μ s₀ (s.spareJoin p failed former pos) ↔ Same μ s₀ s := by
  refine Same.lift hμ s₀ ?_
  unfold State.spareJoin
  dsimp only
  split <;> simp

@[simp] theorem State.spareHere_same (s : State) (p : Packet) (ws : List Word) (hμ : Has μ regFlds) :
    Same μ s₀ (s.spareHere p ws) ↔ Same μ s₀ s := by
  refine Same.lift hμ s₀ ?_
  have listed (t : State) (l : List (Nat × Word)) :
      Same (mask regFlds) t (l.foldl (fun u e => if spareTarget e.1 then u.writeReg e.1 true e.2 else u) t) :=
    Same.foldl (fun u e => by split <;> simp) l t
  unfold State.spareHere
  dsimp only
  split
  · have groups (t : State) (l : List Nat) :
        Same (mask regFlds) t (l.foldl (fun t g => t.writeReg (grpOff g) true (t.force (grpOff g) ||| 1)) t) :=
      Same.foldl (fun u g => by simp) l t
    split <;> simp [Same.iff_of_same (groups _ _)]
  · split
    · rfl
    · exact Same.foldl (fun t r => listed t _) _ _

@[simp] theorem State.sendSpare_same (s : State) (failed spare : Nat) (same : Bool) (pos : Nat) (rs : List Rec) (hμ :
    Has μ [.mc]) :
    Same μ s₀ (s.sendSpare failed spare same pos rs) ↔ Same μ s₀ s := by
  refine Same.lift hμ s₀ ?_
  unfold State.sendSpare
  split <;> simp

@[simp] theorem State.childSilent_same (s : State) (o : MgtOut) (hμ : Has μ [.mc]) :
    Same μ s₀ (s.childSilent o) ↔ Same μ s₀ s := by
  refine Same.lift hμ s₀ ?_
  unfold State.childSilent
  split <;> simp

@[simp] theorem State.peerSilent_same (s : State) (o : MgtOut) (hμ : Has μ leadFlds) :
    Same μ s₀ (s.peerSilent o) ↔ Same μ s₀ s := by
  refine Same.lift hμ s₀ ?_
  unfold State.peerSilent
  dsimp only
  repeat' split
  all_goals simp

/-! ### Firmware -/

@[simp] theorem State.mbNonce_same (s : State) (who : Asker) (a0 : List Word) (hμ : Has μ [.out, .free, .rg, .ev, .inj,
    .pseq, .counts, .logs, .i2c, .mc]) :
    Same μ s₀ (s.mbNonce who a0) ↔ Same μ s₀ s :=
  Same.lift hμ s₀ (by simp [State.mbNonce])

@[simp] theorem State.mbExpertOn_same (s : State) (who : Asker) (ws : List Word) (hμ : Has μ [.out, .rg, .ev, .inj,
    .pseq, .counts, .flt, .logs, .i2c, .mc]) :
    Same μ s₀ (s.mbExpertOn who ws) ↔ Same μ s₀ s :=
  Same.lift hμ s₀ (by simp [State.mbExpertOn])

@[simp] theorem State.mbExpertOff_same (s : State) (who : Asker) (a0 : List Word) (hμ : Has μ [.out, .rg, .ev, .inj,
    .pseq, .counts, .logs, .i2c, .mc]) :
    Same μ s₀ (s.mbExpertOff who a0) ↔ Same μ s₀ s :=
  Same.lift hμ s₀ (by simp [State.mbExpertOff])

@[simp] theorem State.mbFwBegin_same (s : State) (who : Asker) (ws : List Word) (hμ : Has μ [.out, .rg, .ev, .inj,
    .pseq, .counts, .logs, .i2c, .mc]) :
    Same μ s₀ (s.mbFwBegin who ws) ↔ Same μ s₀ s :=
  Same.lift hμ s₀ (by simp [State.mbFwBegin])

@[simp] theorem State.mbFwChunk_same (s : State) (who : Asker) (ws : List Word) (hμ : Has μ [.out, .rg, .ev, .inj,
    .pseq, .counts, .logs, .i2c, .mc]) :
    Same μ s₀ (s.mbFwChunk who ws) ↔ Same μ s₀ s :=
  Same.lift hμ s₀ (by simp [State.mbFwChunk])

@[simp] theorem State.fwFail_same (s : State) (who : Asker) (status : Nat) (hμ : Has μ [.out, .rg, .ev, .inj, .pseq,
    .counts, .flt, .logs, .i2c, .mc]) :
    Same μ s₀ (s.fwFail who status) ↔ Same μ s₀ s :=
  Same.lift hμ s₀ (by simp [State.fwFail])

@[simp] theorem State.mbFwCommit_same (s : State) (who : Asker) (a0 : List Word) (hμ : Has μ [.out, .rg, .ev, .inj,
    .pseq, .counts, .flt, .logs, .i2c, .mc]) :
    Same μ s₀ (s.mbFwCommit who a0) ↔ Same μ s₀ s := by
  refine Same.lift hμ s₀ ?_
  unfold State.mbFwCommit
  dsimp only
  repeat' split
  all_goals simp

/-! ### Images -/

@[simp] theorem State.mbImgBegin_same (s : State) (who : Asker) (ws : List Word) (hμ : Has μ [.out, .rg, .ev, .inj,
    .pseq, .counts, .logs, .i2c, .mc]) :
    Same μ s₀ (s.mbImgBegin who ws) ↔ Same μ s₀ s :=
  Same.lift hμ s₀ (by simp [State.mbImgBegin])

@[simp] theorem State.mbImgChunk_same (s : State) (who : Asker) (ws : List Word) (hμ : Has μ [.out, .rg, .ev, .inj,
    .pseq, .counts, .logs, .i2c, .mc]) :
    Same μ s₀ (s.mbImgChunk who ws) ↔ Same μ s₀ s :=
  Same.lift hμ s₀ (by simp [State.mbImgChunk])

/-- A run over a list that stops at the first error keeps what each of its good steps keeps. -/
theorem Same.foldl_ok {α : Type} {m : Nat} {f : Except Nat State → α → Except Nat State}
    (herr : ∀ i x, f (.error i) x = .error i) (hok : ∀ t x u, f (.ok t) x = .ok u → Same m t u) (l : List α) (s t : State)
    (h : l.foldl f (.ok s) = .ok t) : Same m s t := by
  induction l generalizing s with
  | nil => exact Except.ok.inj h ▸ Same.refl m s
  | cons x xs ih =>
    rw [List.foldl_cons] at h
    cases hx : f (.ok s) x with
    | error i =>
      rw [hx, List.foldl_fixed' (herr i)] at h
      cases h
    | ok u =>
      rw [hx] at h
      exact (hok s x u hx).trans (ih u h)

theorem State.writeRecs_same {s t : State} {cls : Nat} {rs : List (Rec × Nat)} (h : s.writeRecs cls rs = .ok t) :
    Same (mask regFlds) s t := by
  refine Same.foldl_ok (fun _ _ => rfl) (fun t r u hr => ?_) rs s t h
  dsimp only at hr
  split at hr
  · exact Except.ok.inj hr ▸ Same.refl _ t
  · refine Same.foldl_ok (fun _ _ => rfl) (fun v e w he => ?_) _ t u hr
    dsimp only at he
    split at he
    · cases he
    · cases he
      simp

@[simp] theorem State.imgDone_same (s : State) (who : Asker) (status : Nat) (hμ : Has μ [.out, .rg, .ev, .inj, .pseq,
    .counts, .logs, .i2c, .mc]) :
    Same μ s₀ (s.imgDone who status) ↔ Same μ s₀ s :=
  Same.lift hμ s₀ (by simp [State.imgDone])

@[simp] theorem State.imgRefused_same (s : State) (who : Asker) (index : Option Nat) (hμ : Has μ [.out, .free, .rg,
    .ev, .inj, .pseq, .counts, .flt, .logs, .i2c, .mc]) :
    Same μ s₀ (s.imgRefused who index) ↔ Same μ s₀ s :=
  Same.lift hμ s₀ (by simp [State.imgRefused])

@[simp] theorem State.imgApplied_same (s : State) (who : Asker) (m : Image) (hμ : Has μ [.out, .rg, .ev, .inj, .pseq,
    .counts, .logs, .i2c, .mc]) :
    Same μ s₀ (s.imgApplied who m) ↔ Same μ s₀ s :=
  Same.lift hμ s₀ (by simp [State.imgApplied])

@[simp] theorem State.applyStart_same (s : State) (who : Asker) (m : Image) (rs : List (Rec × Nat)) (hμ : Has μ
    regFlds) :
    Same μ s₀ (s.applyStart who m rs) ↔ Same μ s₀ s := by
  refine Same.lift hμ s₀ ?_
  unfold State.applyStart
  split
  · simp
  · split
    · simp
    · next ht =>
      split
      · simp
      · next hu => simp [Same.iff_of_same (State.writeRecs_same hu), Same.iff_of_same (State.writeRecs_same ht)]

@[simp] theorem State.applyLocal_same (s : State) (who : Asker) (m : Image) (rs : List (Rec × Nat)) (hμ : Has μ
    regFlds) :
    Same μ s₀ (s.applyLocal who m rs) ↔ Same μ s₀ s := by
  refine Same.lift hμ s₀ ?_
  unfold State.applyLocal
  dsimp only
  split
  · simp
  · split
    · simp
    · split
      · simp
      · next hu => simp [Same.iff_of_same (State.writeRecs_same hu)]

@[simp] theorem State.applyDomain_same (s : State) (who : Asker) (m : Image) (rs : List (Rec × Nat)) (hμ : Has μ
    leadFlds) :
    Same μ s₀ (s.applyDomain who m rs) ↔ Same μ s₀ s :=
  Same.lift hμ s₀ (by simp [State.applyDomain])

@[simp] theorem State.mbImgApply_same (s : State) (who : Asker) (ws : List Word) (hμ : Has μ regFlds) :
    Same μ s₀ (s.mbImgApply who ws) ↔ Same μ s₀ s := by
  refine Same.lift hμ s₀ ?_
  unfold State.mbImgApply
  dsimp only
  repeat' split
  all_goals simp

@[simp] theorem State.mbImgDrop_same (s : State) (who : Asker) (a0 : List Word) (hμ : Has μ [.out, .rg, .ev, .inj,
    .pseq, .tbl, .counts, .logs, .i2c, .mc]) :
    Same μ s₀ (s.mbImgDrop who a0) ↔ Same μ s₀ s :=
  Same.lift hμ s₀ (by simp [State.mbImgDrop])

@[simp] theorem State.mbTableSwap_same (s : State) (who : Asker) (a0 : List Word) (hμ : Has μ leadFlds) :
    Same μ s₀ (s.mbTableSwap who a0) ↔ Same μ s₀ s :=
  Same.lift hμ s₀ (by simp [State.mbTableSwap])

@[simp] theorem State.mbTakeover_same (s : State) (who : Asker) (ws : List Word) (hμ : Has μ leadFlds) :
    Same μ s₀ (s.mbTakeover who ws) ↔ Same μ s₀ s := by
  refine Same.lift hμ s₀ ?_
  unfold State.mbTakeover
  dsimp only
  repeat' split
  all_goals simp

/-! ### The mailbox -/

@[simp] theorem State.mbInfo_same (s : State) (who : Asker) (a0 : List Word) (hμ : Has μ [.out, .rg, .ev, .inj, .pseq,
    .counts, .logs, .i2c, .mc]) :
    Same μ s₀ (s.mbInfo who a0) ↔ Same μ s₀ s :=
  Same.lift hμ s₀ (by simp [State.mbInfo])

@[simp] theorem State.mbPeek_same (s : State) (who : Asker) (ws : List Word) (hμ : Has μ [.out, .rg, .rshadow, .ev,
    .inj, .pseq, .counts, .logs, .i2c, .mc]) :
    Same μ s₀ (s.mbPeek who ws) ↔ Same μ s₀ s := by
  refine Same.lift hμ s₀ ?_
  unfold State.mbPeek
  dsimp only
  split
  · simp
  · refine (State.answerAsk_same _ _ _ _ (by simp)).mpr ?_
    exact foldl_keeps (R := fun a b : List Word × State => Same (mask [.out, .rg, .rshadow, .ev, .inj, .pseq, .counts,
    .logs, .i2c, .mc]) a.2 b.2) (fun a => Same.refl _ a.2)
      Same.trans _ (fun a i => by simp) _ ([], s)

@[simp] theorem State.mbDiag_same (s : State) (who : Asker) (a0 : List Word) (hμ : Has μ [.out, .rg, .ev, .inj, .pseq,
    .counts, .logs, .i2c, .mc]) :
    Same μ s₀ (s.mbDiag who a0) ↔ Same μ s₀ s :=
  Same.lift hμ s₀ (by simp [State.mbDiag])

@[simp] theorem State.mbPoke_same (s : State) (who : Asker) (ws : List Word) (hμ : Has μ regFlds) :
    Same μ s₀ (s.mbPoke who ws) ↔ Same μ s₀ s :=
  Same.lift hμ s₀ (by simp [State.mbPoke])

@[simp] theorem State.mbAbort_same (s : State) (who : Asker) (a0 : List Word) (hμ : Has μ [.out, .rg, .chans, .ra, .ev,
    .inj, .pseq, .tows, .counts, .links, .flt, .logs, .phys, .i2c, .abort, .halt, .mons, .mc, .cmap]) :
    Same μ s₀ (s.mbAbort who a0) ↔ Same μ s₀ s :=
  Same.lift hμ s₀ (by simp [State.mbAbort])

@[simp] theorem State.mbHalt_same (s : State) (who : Asker) (ws : List Word) (hμ : Has μ [.out, .rg, .chans, .ra, .ev,
    .inj, .pseq, .tows, .reins, .rrUsed, .counts, .links, .flt, .logs, .phys, .i2c, .halt, .mons, .mc, .cmap]) :
    Same μ s₀ (s.mbHalt who ws) ↔ Same μ s₀ s :=
  Same.lift hμ s₀ (by simp [State.mbHalt])

@[simp] theorem State.mbRelease_same (s : State) (who : Asker) (a0 : List Word) (hμ : Has μ [.out, .rg, .chans, .ra,
    .ev, .inj, .pseq, .tows, .reins, .rrUsed, .counts, .links, .flt, .logs, .phys, .i2c, .halt, .mons, .mc, .cmap]) :
    Same μ s₀ (s.mbRelease who a0) ↔ Same μ s₀ s :=
  Same.lift hμ s₀ (by simp [State.mbRelease])

@[simp] theorem State.mbFltAck_same (s : State) (who : Asker) (ws : List Word) (hμ : Has μ [.out, .rg, .chans, .ra,
    .ev, .inj, .pseq, .tows, .counts, .links, .flt, .logs, .phys, .i2c, .abort, .halt, .mons, .mc, .cmap]) :
    Same μ s₀ (s.mbFltAck who ws) ↔ Same μ s₀ s :=
  Same.lift hμ s₀ (by simp [State.mbFltAck])

@[simp] theorem State.mbEnable_same (s : State) (who : Asker) (ws : List Word) (hμ : Has μ [.out, .rg, .ev, .inj,
    .pseq, .eject, .tows, .counts, .links, .flt, .logs, .rus, .teams, .phys, .i2c, .halt, .mons, .mc, .ts, .life,
    .cmap]) :
    Same μ s₀ (s.mbEnable who ws) ↔ Same μ s₀ s :=
  Same.lift hμ s₀ (by simp [State.mbEnable])

@[simp] theorem State.mbFence_same (s : State) (who : Asker) (ws : List Word) (hμ : Has μ [.out, .pfence, .rg, .chans,
    .scal, .ra, .ev, .inj, .pseq, .eject, .tows, .reins, .rrUsed, .counts, .links, .flt, .logs, .teams, .phys, .i2c,
    .halt, .mons, .mc, .ts, .cmap]) :
    Same μ s₀ (s.mbFence who ws) ↔ Same μ s₀ s :=
  Same.lift hμ s₀ (by simp [State.mbFence])

@[simp] theorem State.mbStartDone_same (s : State) (who : Asker) (a0 : List Word) (hμ : Has μ [.out, .rg, .ev, .inj,
    .pseq, .counts, .flt, .logs, .i2c, .mc, .life]) :
    Same μ s₀ (s.mbStartDone who a0) ↔ Same μ s₀ s :=
  Same.lift hμ s₀ (by simp [State.mbStartDone])

@[simp] theorem State.mbTime_same (s : State) (who : Asker) (open_ : Bool) (ws : List Word) (hμ : Has μ [.out, .tod,
    .rg, .ev, .inj, .pseq, .counts, .logs, .i2c, .mc]) :
    Same μ s₀ (s.mbTime who open_ ws) ↔ Same μ s₀ s :=
  Same.lift hμ s₀ (by simp [State.mbTime])

@[simp] theorem State.mbI2c_same (s : State) (who : Asker) (ws : List Word) (hμ : Has μ [.out, .rg, .ev, .inj, .pseq,
    .counts, .logs, .i2c, .mc]) :
    Same μ s₀ (s.mbI2c who ws) ↔ Same μ s₀ s :=
  Same.lift hμ s₀ (by simp [State.mbI2c])

@[simp] theorem State.i2cTell_same (s : State) (c : Nat) (b : I2cBusy) (hμ : Has μ [.out, .rg, .ev, .inj, .pseq,
    .counts, .logs, .i2c, .mc]) :
    Same μ s₀ (s.i2cTell c b) ↔ Same μ s₀ s := by
  refine Same.lift hμ s₀ ?_
  unfold State.i2cTell
  split <;> simp

@[simp] theorem State.mbRemote_same (s : State) (who : Asker) (ws : List Word) (hμ : Has μ [.out, .rg, .ev, .inj,
    .pseq, .counts, .logs, .i2c, .mc]) :
    Same μ s₀ (s.mbRemote who ws) ↔ Same μ s₀ s :=
  Same.lift hμ s₀ (by simp [State.mbRemote])

@[simp] theorem State.mbDo_same (s : State) (who : Asker) (open_ : Bool) (ws : List Word) (hμ : Has μ mbFlds) :
    Same μ s₀ (s.mbDo who open_ ws) ↔ Same μ s₀ s := by
  refine Same.lift hμ s₀ ?_
  unfold State.mbDo
  split <;> simp

@[simp] theorem State.mbPerform_same (s : State) (who : Asker) (mode : McMode) (open_ : Bool) (ws : List Word) (hμ :
    Has μ mbFlds) :
    Same μ s₀ (s.mbPerform who mode open_ ws) ↔ Same μ s₀ s := by
  refine Same.lift hμ s₀ ?_
  unfold State.mbPerform
  split <;> simp

@[simp] theorem State.mbFetch_same (s : State) (hμ : Has μ [.rg, .flt]) :
    Same μ s₀ s.mbFetch ↔ Same μ s₀ s :=
  Same.lift hμ s₀ (by simp [State.mbFetch])

@[simp] theorem State.mbStart_same (s : State) (r : MbReq) (hμ : Has μ mbFlds) :
    Same μ s₀ (s.mbStart r) ↔ Same μ s₀ s :=
  Same.lift hμ s₀ (by simp [State.mbStart])

end

end Sys2Proof.Machine

namespace Sys2Proof.Machine

/-! ## What a command leaves

A command runs under one of the forms below (`run`, a register access, the issue of a channel's command, a packet taken, …)
around a body of its own. Each form writes few fields beyond those of its body. -/

/-- Every state that `o` answers agrees with `s` but for the fields of `m`. -/
def Frames (m : Nat) (s : State) (o : Out) : Prop := ∀ t, o = .next t → Same m s t

theorem Frames.next {m : Nat} {s t : State} (h : Same m s t) : Frames m s (.next t) :=
  fun _ hu => Host.Outcome.next.inj hu ▸ h

/-- The queue that a command puts back is the one it found. -/
theorem Same.with_old_pending {m : Nat} {s t : State} (h : Same m s t) : Same m s { t with pending := s.pending } := by
  intro f hf
  cases f
  case pending => rfl
  all_goals exact h _ hf

/-- Every field but the queue. -/
def allFlds : List Fld := [.out, .free, .now, .tod, .ident, .pfence, .rg, .wshadow, .rshadow, .chans, .cpHeld, .scal,
  .tally, .watch, .atc, .eng, .hm, .ra, .streams, .ev, .inj, .pseq, .eject, .tbl, .tows, .reins, .rrUsed, .draws,
  .counts, .links, .flt, .ccnt, .logs, .lbOut, .groups, .rus, .ruGone, .berths, .teams, .phys, .i2c, .abort, .halt,
  .far, .mons, .mc, .ts, .life, .cmap, .pwr]
@[simp] theorem bits_allFlds : bits allFlds = 0x7FFFFFFFFFFFE := rfl

section FormsOfCommands

variable {μ : Nat} {s : State} {ok : Bool}

theorem runAny_frame {f : State → State} (hμ : Has μ [.out])
    (h : Same μ { s with out := [] } (f { s with out := [] })) : Frames μ s (runAny s ok f) := by
  have ho : Same μ s { s with out := [] } := (Same.with_out hμ).mpr (Same.refl μ s)
  refine Frames.next (Same.with_old_pending ?_)
  cases ok
  · exact ho
  · exact ho.trans h

theorem runAny_frames {f : State → State} (hμ : Has μ [.out]) (h : ∀ t, Same μ t (f t)) : Frames μ s (runAny s ok f) :=
  runAny_frame hμ (h _)

theorem run_frame {f : State → State} (hμ : Has μ [.out]) (h : Same μ { s with out := [] } (f { s with out := [] })) :
    Frames μ s (run s ok f) := runAny_frame hμ h

theorem run_frames {f : State → State} (hμ : Has μ [.out]) (h : ∀ t, Same μ t (f t)) : Frames μ s (run s ok f) :=
  runAny_frames hμ h

/-- A command that may change everything but the queue. -/
theorem runAny_pending {f : State → State} : Frames (mask allFlds) s (runAny s ok f) := by
  refine Frames.next fun f hf => ?_
  cases f
  case pending => rfl
  all_goals simp [mask] at hf

theorem regCmd_frames {off : Nat} {a : RgAcc} {al : Bool} {f : State → Bool → Word → State}
    (hμ : Has μ [.out, .rg, .chans, .watch, .flt, .rus]) (h : ∀ t p d, Same μ t (f t p d)) :
    Frames μ s (regCmd s ok off a f al) := by
  have ho : Has μ [.out] := hμ.subset (by simp)
  unfold regCmd
  split
  · exact run_frames ho fun t => (State.regWrite_same t off a al hμ h).mpr (Same.refl μ t)
  · exact runAny_frames ho fun t => (State.drive_same t _ ho).mpr (Same.refl μ t)

theorem readCmd_frames {off : Nat} {par : Bool} (hμ : Has μ [.out, .rg, .rshadow, .flt]) :
    Frames μ s (readCmd s ok off par) := by
  have ho : Has μ [.out] := hμ.subset (by simp)
  unfold readCmd
  split
  · exact run_frames ho fun t => (State.rgRead_same t off par hμ).mpr (Same.refl μ t)
  · exact runAny_frames ho fun t => (State.drive_same t _ ho).mpr (Same.refl μ t)

theorem chanCmd_frames {k : Nat} {row : CmdWord → Bool} {good : State → CmdWord → Bool} {body : State → Flight → State}
    (hμ : Has μ [.out, .rg, .chans, .scal, .ev, .flt, .ccnt, .logs]) (h : ∀ t f, Same μ t (body t f)) :
    Frames μ s (chanCmd k row good body s) :=
  run_frames (hμ.subset (by simp)) fun t =>
    (State.startCmd_same t k _ (hμ.subset (by simp)) h).mpr (Same.refl μ t)

theorem collRow_frames {k : Nat} {types : List Nat} (hμ : Has μ [.out, .rg, .chans, .scal, .eng, .hm, .ev, .inj, .pseq, .tows,
    .reins, .counts, .flt, .ccnt, .logs, .groups]) : Frames μ s (collRow k types s) :=
  run_frames (hμ.subset (by simp)) fun t =>
    (State.startCmd_same t k _ (hμ.subset (by simp)) fun u f =>
      (State.collCmd_same u k f (hμ.subset (by simp))).mpr (Same.refl μ u)).mpr (Same.refl μ t)

theorem pktRow_frames {i : Nat} {ops : List Nat} {body : State → Held → State}
    (hμ : Has μ [.out, .rg, .chans, .inj, .pseq, .eject, .counts, .flt]) (h : ∀ t x, Same μ t (body t x)) :
    Frames μ s (pktRow i ops body s) :=
  run_frames (hμ.subset (by simp)) fun t => (State.take_same t i (hμ.subset (by simp)) h).mpr (Same.refl μ t)

theorem ctlRow_frames {p ctype : Nat} {body : State → Nat → State} (hμ : Has μ [.out, .links])
    (h : ∀ t b, Same μ t (body t b)) : Frames μ s (ctlRow p ctype body s) := by
  refine run_frames (hμ.subset (by simp)) fun t => ?_
  split
  · exact ((State.ctlPop_same t p (hμ.subset (by simp))).mpr (Same.refl μ t)).trans (h _ _)
  · rfl

theorem i2cRow_frames {c : Nat} {a : RgAcc} {op : Nat}
    (hμ : Has μ [.out, .rg, .chans, .watch, .ev, .flt, .logs, .rus, .i2c]) : Frames μ s (i2cRow s c a op) :=
  regCmd_frames (hμ.subset (by simp)) fun t p d =>
    (State.wrI2cCmd_same t c p d (hμ.subset (by simp))).mpr (Same.refl μ t)

theorem farRow_frames {which : Nat → Bool} {body : State → FarCmd → State × Option (Nat × Nat × Nat)}
    (hμ : Has μ [.out, .rg, .inj, .pseq, .counts, .far]) (h : ∀ t c, Same μ t (body t c).1) :
    Frames μ s (farRow which body s) := by
  have hf (t : State) (x : Farrier) : Same μ t { t with far := x } :=
    (Same.with_far (hμ.subset (by simp))).mpr (Same.refl μ t)
  have ha (t : State) (c : FarCmd) (n d e : Nat) : Same μ t (t.farAnswer c n d e) :=
    (State.farAnswer_same t c n d e (hμ.subset (by simp))).mpr (Same.refl μ t)
  have hb {t v : State} {c : FarCmd} {r : Option (Nat × Nat × Nat)} (e : body t c = (v, r)) : Same μ t v := by
    have hv := h t c
    rwa [e] at hv
  refine run_frames (hμ.subset (by simp)) fun t => ?_
  split
  · rfl
  · next c rest _ =>
    extract_lets far v cmd far' u
    refine (hf t _ : Same μ t v).trans ?_
    split
    · exact ha _ _ _ _ _
    · split
      · exact ha _ _ _ _ _
      · split
        · exact ha _ _ _ _ _
        · refine (hf v _ : Same μ v u).trans ?_
          split
          · next heq => exact (hb heq).trans (ha _ _ _ _ _)
          · next heq => exact hb heq

theorem mgtRow_frames {i : Nat} {sel : Nat → Nat → Bool} {body : State → Held → State}
    (hμ : Has μ [.out, .rg, .chans, .inj, .pseq, .eject, .counts, .flt]) (h : ∀ t x, Same μ t (body t x)) :
    Frames μ s (mgtRow i sel body s) := by
  refine run_frames (hμ.subset (by simp)) fun t =>
    (State.take_same t i (hμ.subset (by simp)) fun u x => ?_).mpr (Same.refl μ t)
  split
  · exact (State.mgtDrop_same u (hμ.subset (by simp))).mpr (Same.refl μ u)
  · split
    · exact (State.mgtRespond_same u _ _ (hμ.subset (by simp))).mpr (Same.refl μ u)
    · exact h u x

theorem treeDownRow_frames {i msg : Nat} (hμ : Has μ downFlds) : Frames μ s (treeDownRow i msg s) :=
  mgtRow_frames (hμ.subset (by simp)) fun t h => (State.treeDown_same t h msg (hμ.subset (by simp))).mpr (Same.refl μ t)

theorem treeUpRow_frames {i msg wave : Nat} (hμ : Has μ leadFlds) : Frames μ s (treeUpRow i msg wave s) :=
  mgtRow_frames (hμ.subset (by simp)) fun t h => (State.treeUp_same t h wave (hμ.subset (by simp))).mpr (Same.refl μ t)

/-- Starting the mailbox's request answers its refusal or does what its command does. -/
theorem State.mbStart_frame (s : State) (r : MbReq)
    (hμ : Has μ [.out, .rg, .ev, .inj, .pseq, .counts, .flt, .logs, .i2c, .mc])
    (h : ∀ t o, mbRefusal s.mc.mode o r.words = none → Same μ t (t.mbDo .mailbox o r.words)) : Same μ s (s.mbStart r) := by
  have hmode : s.mc = s.mbFetch.mc := ((State.mbFetch_same s (μ := mask [.rg, .flt]) (by simp)).mpr (Same.refl _ s)) .mc rfl
  have hm : Same μ s s.mbFetch := (State.mbFetch_same s (hμ.subset (by simp))).mpr (Same.refl μ s)
  have hb (t : State) (x : Core) : Same μ t { t with mc := x } :=
    (Same.with_mc (hμ.subset (by simp))).mpr (Same.refl μ t)
  unfold State.mbStart
  extract_lets t c b u
  refine (hm.trans (hb t _) : Same μ s u).trans ?_
  unfold State.mbPerform
  split
  · exact (State.answerAsk_same _ _ _ _ (hμ.subset (by simp))).mpr (Same.refl μ _)
  · next hr =>
    rw [show u.mc.mode = s.mc.mode from (congrArg Core.mode hmode).symm] at hr
    exact h _ _ hr

theorem mbRowOf_frames {sel : List Word → Bool} (hμ : Has μ [.out, .rg, .ev, .inj, .pseq, .counts, .flt, .logs, .i2c, .mc])
    (h : ∀ t o ws, sel ws = true → Same μ t (t.mbDo .mailbox o ws)) : Frames μ s (mbRowOf sel s) := by
  have ho : Has μ [.out] := hμ.subset (by simp)
  unfold mbRowOf
  split
  · next r _ =>
    by_cases hr : sel r.words = true
    · exact run_frames ho fun t => t.mbStart_frame r hμ fun u o _ => h u o _ hr
    · simp only [hr, Bool.and_false]
      exact Frames.next (Same.with_old_pending (by simp [ho]))
  · exact run_frames ho fun t => Same.refl μ t

theorem mbRow_frames {cmd : Nat} (hμ : Has μ [.out, .rg, .ev, .inj, .pseq, .counts, .flt, .logs, .i2c, .mc])
    (h : ∀ t o ws, reqCmd ws = cmd → Same μ t (t.mbDo .mailbox o ws)) : Frames μ s (mbRow cmd s) :=
  mbRowOf_frames hμ fun t o ws hw => h t o ws (of_decide_eq_true hw)

end FormsOfCommands

end Sys2Proof.Machine

namespace Sys2Proof.Machine

/-- The fields that a command may write. -/
@[simp] def fldsOf : Instr → List Fld
  | .pwrOkFall .. | .selfCheckDone .. | .tapScan .. =>
    allFlds
  | .pwrOkRise .. | .warmResetProper .. | .ijtagFuse .. | .ijtagLaneLb .. | .faultStaticToggle .. =>
    [.out, .pwr]
  | .rstNFall .. | .rstNRise .. | .tapExtest .. | .tapClamp .. | .tapWir .. | .tapWdr .. | .tapBypass .. |
  .wrapperMode .. =>
    [.out, .tows, .links, .phys, .pwr]
  | .warmResetRequest .. =>
    [.out, .rg, .chans, .cpHeld, .scal, .watch, .eng, .hm, .ra, .streams, .ev, .inj, .pseq, .eject, .tows, .reins,
    .rrUsed, .counts, .links, .flt, .ccnt, .logs, .groups, .rus, .teams, .phys, .halt, .mons, .ts, .cmap, .pwr]
  | .tapSamplePreload .. | .tapIjtag .. =>
    [.out, .free, .tows, .links, .phys, .pwr]
  | .ijtagBist .. =>
    [.out, .free]
  | .cpWord .. =>
    [.out, .rg, .chans, .cpHeld, .ev, .flt, .ccnt, .logs]
  | .channelEnable .. | .channelDisable .. | .resume .. =>
    [.out, .rg, .chans, .scal, .watch, .eng, .hm, .ev, .inj, .pseq, .tows, .reins, .counts, .flt, .ccnt, .logs,
    .groups, .rus]
  | .channelOn .. =>
    [.out, .rg, .chans, .scal, .eng, .hm, .ev, .inj, .pseq, .tows, .reins, .counts, .ccnt, .logs, .groups]
  | .scalarWrite .. =>
    [.out, .rg, .chans, .scal, .watch, .ev, .flt, .logs, .rus]
  | .crConsWrite .. =>
    [.out, .rg, .chans, .watch, .ev, .flt, .logs, .rus]
  | .latchedRead .. | .ccntLatch .. =>
    [.out, .rg, .rshadow, .flt]
  | .nop .. | .put .. | .get .. | .copy .. | .waitCmd .. | .fence .. | .repeatLoop .. | .endLoop .. | .branch .. |
  .loadsImm .. | .loadsTally .. | .loadsAdd .. | .mark .. | .trace .. | .badOp .. =>
    [.out, .rg, .chans, .scal, .ev, .flt, .ccnt, .logs]
  | .atom .. | .signal .. | .loadsMem .. =>
    [.out, .rg, .chans, .scal, .eng, .hm, .ev, .inj, .pseq, .tows, .reins, .rrUsed, .draws, .counts, .flt, .ccnt,
    .logs]
  | .allReduce .. | .reduceScatter .. | .allGather .. | .broadcast .. | .reduce .. | .a2aCap .. | .barrier .. |
  .scalarAr .. =>
    [.out, .rg, .chans, .scal, .eng, .hm, .ev, .inj, .pseq, .tows, .reins, .counts, .flt, .ccnt, .logs, .groups]
  | .fragmentIssue .. =>
    [.out, .rg, .chans, .scal, .eng, .hm, .ra, .ev, .inj, .pseq, .tows, .reins, .rrUsed, .draws, .counts, .flt, .ccnt,
    .logs, .groups]
  | .completionRecordWrite .. =>
    [.out, .rg, .chans, .scal, .eng, .hm, .ev, .logs]
  | .channelHang .. =>
    [.out, .rg, .chans, .ev, .flt, .logs, .mons]
  | .shapeCommit .. | .lnkInjArm .. | .crecClr .. | .fltInjArm .. | .fltInjDisarm .. | .ruEnable .. |
  .ruDisable .. | .ruSpareDesignate .. | .ruFaultedClear .. | .ruInjArm .. | .pktInjArm .. | .snapSelect .. |
  .logwinSelect .. =>
    [.out, .rg, .chans, .watch, .flt, .rus]
  | .tallyWrite .. =>
    [.out, .free, .rg, .chans, .scal, .tally, .watch, .ev, .flt, .logs, .rus]
  | .watchArm .. | .watchDisarm .. =>
    [.out, .free, .rg, .chans, .watch, .flt, .rus]
  | .watchEventEnqueue .. =>
    [.out, .rg, .watch, .ev, .logs]
  | .atcFlush .. =>
    [.out, .rg, .chans, .watch, .atc, .flt, .rus]
  | .atcHoldExpire .. =>
    [.out, .atc]
  | .atomicPerform .. =>
    [.out, .rg, .atc, .eng, .hm, .inj, .pseq, .counts, .flt]
  | .pfenceSet .. | .pfenceLift .. =>
    [.out, .pfence, .rg, .chans, .watch, .ra, .inj, .pseq, .reins, .rrUsed, .draws, .counts, .flt, .rus]
  | .raLoad .. | .raStore .. =>
    [.out, .rg, .ra, .inj, .pseq, .reins, .rrUsed, .draws, .counts, .flt]
  | .raRspTaken .. =>
    [.out, .rg, .ra, .inj, .pseq, .reins, .rrUsed, .draws, .counts, .flt, .mons]
  | .raLoadTimeout .. =>
    [.out, .ra]
  | .hmReadIssue .. =>
    [.out, .hm, .mons]
  | .hmWriteIssue .. =>
    [.out, .atc, .hm, .mons]
  | .hmReadBeat .. =>
    [.out, .rg, .chans, .scal, .atc, .eng, .hm, .streams, .ev, .inj, .pseq, .tows, .reins, .counts, .flt, .ccnt, .logs,
    .groups]
  | .hmWriteResponse .. | .hmTimeout .. =>
    [.out, .free, .rg, .chans, .scal, .tally, .watch, .atc, .eng, .hm, .streams, .ev, .inj, .pseq, .tows, .reins,
    .counts, .flt, .ccnt, .logs, .groups]
  | .eventTaken .. =>
    [.out, .rg, .ev, .logs, .mons]
  | .lbWriteResponse .. | .logDrainTimeout .. =>
    [.out, .rg, .ev, .logs, .lbOut]
  | .wr .. | .rd .. | .rdRelay .. | .rlyData .. =>
    [.out, .rg, .chans, .eng, .hm, .inj, .pseq, .eject, .counts, .flt]
  | .raLd .. | .raSt .. =>
    [.out, .rg, .chans, .eng, .hm, .streams, .inj, .pseq, .eject, .counts, .flt]
  | .atomPacket .. =>
    [.out, .rg, .chans, .atc, .eng, .inj, .pseq, .eject, .counts, .flt]
  | .signalPacket .. =>
    [.out, .free, .rg, .chans, .scal, .tally, .watch, .ev, .inj, .pseq, .eject, .counts, .flt, .logs]
  | .wrRsp .. | .rdData .. | .rdRsp .. | .raData .. | .raRsp .. | .atomRsp .. | .sigRsp .. | .colAck .. =>
    [.out, .rg, .chans, .scal, .eng, .hm, .ra, .ev, .inj, .pseq, .eject, .tows, .reins, .rrUsed, .draws, .counts, .flt,
    .ccnt, .logs, .groups]
  | .colReady .. | .colData .. | .colSlot .. | .colDone .. | .colRel .. | .collAbort .. =>
    [.out, .rg, .chans, .scal, .eng, .hm, .ev, .inj, .pseq, .eject, .tows, .reins, .counts, .flt, .ccnt, .logs,
    .groups]
  | .mbReqRemote .. | .kernelCall .. =>
    .draws :: mbFlds
  | .mbReqSpare .. | .mbImgApplyStart .. | .mbImgApplyStageLocal .. | .mbImgApplyStageDomain .. | .mbPoke .. |
  .registerWrite .. =>
    .draws :: regFlds
  | .treeStage .. | .treeSeal .. | .treeLock .. | .treeCount .. | .treeSwap .. | .treeRelease .. =>
    .draws :: downFlds
  | .treeReady .. | .treeRefused .. | .treeReport .. | .treeSwapped .. | .mbRsp .. | .mgtResendTimeout .. |
  .lockDrainTimeout .. | .mbTableSwap .. | .mbTakeover .. | .lockReleaseTimeout .. =>
    .draws :: leadFlds
  | .assist .. =>
    [.out, .rg, .chans, .inj, .pseq, .eject, .counts, .flt, .far]
  | .assistRsp .. =>
    [.out, .rg, .chans, .inj, .pseq, .eject, .counts, .flt]
  | .packetHop .. =>
    [.out, .rg, .chans, .ra, .ev, .inj, .pseq, .eject, .tows, .reins, .rrUsed, .draws, .counts, .links, .flt, .logs,
    .phys, .mons, .life, .cmap]
  | .reinIncrease .. =>
    [.out, .reins]
  | .towEnable .. | .towDisable .. =>
    [.out, .rg, .chans, .watch, .tows, .flt, .rus]
  | .towStarted .. =>
    [.out, .tows]
  | .towStall .. =>
    [.out, .rg, .tows, .counts, .links, .flt, .phys, .mons, .cmap]
  | .epochHoldExpire .. =>
    [.out, .rg, .inj, .eject, .tbl, .tows, .counts, .links, .phys, .mons, .cmap]
  | .lockSwapTimeout .. =>
    [.out, .rg, .chans, .cpHeld, .ra, .ev, .inj, .pseq, .tbl, .tows, .reins, .rrUsed, .draws, .counts, .flt, .ccnt,
    .logs, .mc]
  | .linkEnable .. | .linkDisable .. | .linkRetrainWrite .. =>
    [.out, .rg, .chans, .watch, .ev, .inj, .eject, .tows, .counts, .links, .flt, .logs, .rus, .teams, .phys, .halt,
    .mons, .ts, .life, .cmap]
  | .linkParam .. | .linkTrainTimeout .. | .retrainTimeout .. | .linkDrainTimeout .. | .portHang .. | .vcHang .. =>
    [.out, .rg, .chans, .scal, .ev, .inj, .eject, .tows, .counts, .links, .flt, .logs, .teams, .phys, .halt, .mons,
    .ts, .cmap]
  | .linkParamSend .. | .beacon .. =>
    [.out, .tows, .links, .phys]
  | .teamDrop .. | .fomUpdate .. | .mirrorAck .. | .spareCompareDone .. | .forwardedClockLoss .. |
  .clockHoldoverEnd .. | .laneSilent .. | .tagLockLoss .. =>
    [.out, .rg, .ev, .tows, .links, .flt, .logs, .teams, .phys, .halt, .mons, .ts, .life, .cmap]
  | .teamAdd .. | .tagLock .. =>
    [.out, .rg, .tows, .links, .teams, .phys, .mons, .cmap]
  | .retrain .. =>
    [.out, .rg, .ev, .tows, .links, .flt, .logs, .teams, .phys, .halt, .ts, .life]
  | .haltMark .. =>
    [.out, .rg, .tows, .links, .phys, .halt, .mons, .cmap]
  | .haltRel .. =>
    [.out, .rg, .chans, .ra, .ev, .inj, .pseq, .tows, .reins, .rrUsed, .draws, .counts, .links, .flt, .logs, .phys,
    .halt, .mons, .cmap]
  | .abortFlit .. =>
    [.out, .rg, .chans, .ra, .tows, .links, .flt, .phys, .abort, .halt, .mons, .cmap]
  | .beaconRsp .. =>
    [.out, .free, .tod, .rg, .ev, .links, .flt, .logs, .ts]
  | .seqFlitReceive .. | .tagReceive .. =>
    [.out, .rg, .chans, .scal, .ra, .ev, .inj, .eject, .tows, .counts, .links, .flt, .logs, .teams, .phys, .abort,
    .halt, .mons, .ts, .life, .cmap]
  | .replayTimeout .. =>
    [.out, .rg, .chans, .scal, .ev, .inj, .eject, .tows, .counts, .links, .flt, .logs, .teams, .phys, .halt, .mons,
    .ts, .life, .cmap]
  | .trainingFrame .. =>
    [.out, .free, .rg, .ev, .flt, .logs, .teams, .phys, .life]
  | .mirrorReq .. | .prbsCheckerLock .. =>
    [.out, .teams]
  | .teamRetryTimer .. | .laneManagementWord .. =>
    [.out, .teams, .phys]
  | .teamRetry .. | .teamSwap .. =>
    [.out, .rg, .chans, .watch, .flt, .rus, .teams, .phys]
  | .prbsMode .. | .prbsClr .. | .harnessSeal .. =>
    [.out, .rg, .chans, .watch, .flt, .rus, .teams]
  | .i2cWrite .. | .i2cRead .. | .i2cReadCur .. =>
    [.out, .rg, .chans, .watch, .ev, .flt, .logs, .rus, .i2c]
  | .i2cTransactionEnd .. | .mbNonce .. =>
    [.out, .free, .rg, .ev, .inj, .pseq, .counts, .flt, .logs, .i2c, .mc]
  | .i2cStretchTimeout .. =>
    [.out, .free, .rg, .ev, .inj, .pseq, .counts, .logs, .i2c, .mc]
  | .faultTaken .. =>
    .draws :: raiseFlds
  | .quietExpire .. =>
    [.out, .rg, .ev, .flt, .logs]
  | .fltAck .. =>
    [.out, .rg, .chans, .watch, .ra, .ev, .tows, .links, .flt, .logs, .rus, .phys, .abort, .halt, .mons, .cmap]
  | .railInvalidTimeout .. | .farrierProbe .. | .scrub .. =>
    [.out, .flt]
  | .startDone .. | .lifeSnap .. | .lifeOpen .. | .lifeCommit .. =>
    [.out, .rg, .chans, .watch, .flt, .rus, .life]
  | .recovExpire .. =>
    [.out, .rg]
  | .ruSelfTestDone .. | .ruCombine .. =>
    [.out, .rg, .chans, .scal, .eng, .hm, .ev, .inj, .pseq, .tows, .reins, .counts, .flt, .ccnt, .logs, .groups, .rus,
    .ruGone, .life]
  | .hportHang .. =>
    [.out, .rg, .ev, .flt, .logs, .mons]
  | .abortGo .. =>
    [.out, .rg, .chans, .watch, .ra, .tows, .links, .flt, .rus, .phys, .abort, .halt, .mons, .cmap]
  | .generationStep .. =>
    [.out, .ident, .rg, .chans, .scal, .eng, .hm, .ra, .streams, .ev, .inj, .pseq, .eject, .tows, .reins, .rrUsed,
    .draws, .counts, .links, .flt, .ccnt, .logs, .groups, .teams, .phys, .abort, .mons, .cmap]
  | .genWrite .. =>
    [.out, .ident, .rg, .chans, .scal, .watch, .eng, .hm, .ra, .streams, .ev, .inj, .pseq, .eject, .tows, .reins,
    .rrUsed, .draws, .counts, .links, .flt, .ccnt, .logs, .groups, .rus, .teams, .phys, .abort, .mons, .mc, .cmap]
  | .abortPairExpire .. =>
    [.out, .abort]
  | .portFence .. =>
    [.out, .rg, .chans, .scal, .watch, .ev, .inj, .eject, .tows, .counts, .links, .flt, .logs, .rus, .teams, .phys,
    .halt, .mons, .ts, .cmap]
  | .mcWdogExpire .. =>
    [.out, .rg, .chans, .ra, .ev, .tows, .links, .flt, .logs, .phys, .abort, .halt, .far, .mons, .mc, .cmap]
  | .farrierOpenPorts .. =>
    [.out, .links, .teams, .phys, .far]
  | .farrierTakeback .. =>
    [.out, .rg, .chans, .watch, .ev, .flt, .logs, .rus, .far]
  | .farrierStatus .. | .farrierBadCmd .. =>
    [.out, .rg, .inj, .pseq, .counts, .far]
  | .farrierPeek .. =>
    [.out, .rg, .rshadow, .inj, .pseq, .counts, .far]
  | .farrierAbort .. =>
    [.out, .rg, .chans, .ra, .inj, .pseq, .tows, .counts, .links, .flt, .phys, .abort, .halt, .far, .mons, .cmap]
  | .farrierFence .. =>
    [.out, .rg, .chans, .scal, .ev, .inj, .pseq, .eject, .tows, .counts, .links, .flt, .logs, .teams, .phys, .halt,
    .far, .mons, .ts, .cmap]
  | .farrierOpen .. =>
    [.out, .rg, .inj, .pseq, .counts, .links, .teams, .phys, .far]
  | .farrierResetMc .. =>
    [.out, .rg, .ev, .inj, .pseq, .counts, .flt, .logs, .i2c, .far, .mc]
  | .farrierWarmReset .. =>
    [.out, .rg, .chans, .cpHeld, .scal, .eng, .hm, .ra, .streams, .ev, .inj, .pseq, .eject, .tows, .reins, .rrUsed,
    .draws, .counts, .links, .flt, .ccnt, .logs, .groups, .teams, .phys, .halt, .far, .mons, .ts, .cmap, .pwr]
  | .farrierHalt .. | .farrierRelease .. =>
    [.out, .rg, .chans, .ra, .ev, .inj, .pseq, .tows, .reins, .rrUsed, .draws, .counts, .links, .flt, .logs, .phys,
    .halt, .far, .mons, .cmap]
  | .haltGo .. | .haltRelease .. =>
    [.out, .rg, .chans, .watch, .ra, .ev, .inj, .pseq, .tows, .reins, .rrUsed, .draws, .counts, .links, .flt, .logs,
    .rus, .phys, .halt, .mons, .cmap]
  | .halted .. =>
    [.out, .rg, .ev, .logs, .halt]
  | .haltTimeout .. =>
    [.out, .rg, .flt, .halt]
  | .mbInfo .. | .mbExpertOn .. | .mbExpertOff .. | .mbFwBegin .. | .mbFwChunk .. | .mbFwCommit .. |
  .mbImgBegin .. | .mbImgChunk .. | .mbI2c .. | .mbTimeRead .. | .mbRemote .. | .mbDiag .. | .mbBadCmd .. =>
    [.out, .rg, .ev, .inj, .pseq, .counts, .flt, .logs, .i2c, .mc]
  | .fwHeartbeat .. | .mbTimeout .. =>
    [.out, .rg, .ev, .logs, .i2c, .mc]
  | .fwWdogExpire .. | .fwAccessViolation .. =>
    [.out, .rg, .ev, .flt, .logs, .i2c, .mc]
  | .mbImgDrop .. =>
    [.out, .rg, .ev, .inj, .pseq, .tbl, .counts, .flt, .logs, .i2c, .mc]
  | .mbAbort .. | .mbFltAck .. =>
    [.out, .rg, .chans, .ra, .ev, .inj, .pseq, .tows, .counts, .links, .flt, .logs, .phys, .i2c, .abort, .halt, .mons,
    .mc, .cmap]
  | .mbHalt .. | .mbRelease .. =>
    [.out, .rg, .chans, .ra, .ev, .inj, .pseq, .tows, .reins, .rrUsed, .draws, .counts, .links, .flt, .logs, .phys,
    .i2c, .halt, .mons, .mc, .cmap]
  | .mbEnable .. =>
    [.out, .rg, .ev, .inj, .pseq, .eject, .tows, .counts, .links, .flt, .logs, .rus, .teams, .phys, .i2c, .halt, .mons,
    .mc, .ts, .life, .cmap]
  | .mbFence .. =>
    [.out, .pfence, .rg, .chans, .scal, .ra, .ev, .inj, .pseq, .eject, .tows, .reins, .rrUsed, .draws, .counts, .links,
    .flt, .logs, .teams, .phys, .i2c, .halt, .mons, .mc, .ts, .cmap]
  | .mbStartDone .. =>
    [.out, .rg, .ev, .inj, .pseq, .counts, .flt, .logs, .i2c, .mc, .life]
  | .mbTimeSet .. =>
    [.out, .tod, .rg, .ev, .inj, .pseq, .counts, .flt, .logs, .i2c, .mc]
  | .mbPeek .. =>
    [.out, .rg, .rshadow, .ev, .inj, .pseq, .counts, .flt, .logs, .i2c, .mc]
  | .expertExpire .. =>
    [.out, .rg, .ev, .logs, .mc]
  | .beaconInterval .. =>
    [.out, .rg, .ev, .tows, .links, .flt, .logs, .phys, .ts]
  | .gaitInterval .. =>
    [.out, .rg, .ev, .flt, .logs, .life]
  | .lifeSecond .. =>
    [.out, .life]
  | .logEnable .. | .logDisable .. | .logFlush .. =>
    [.out, .rg, .chans, .watch, .ev, .flt, .logs, .lbOut, .rus, .mons]
  | .logStarted .. =>
    [.out, .logs]
  | .logPadTimeout .. | .logDrainWrite .. =>
    [.out, .rg, .ev, .flt, .logs, .lbOut, .mons]
  | .cmapInterval .. =>
    [.out, .rg, .ev, .logs, .cmap]
  | .mcWatchdogWrite .. =>
    [.out, .mc]

/-- A command answers a state that differs in no field but those named for it. -/
def Framed (c : Instr) (s : State) : Prop := Frames (mask (fldsOf c)) s (exec c s)

/-! ## What each command leaves -/

/-! ### What is left: those of the channels -/

theorem cpWord_frames (port : Nat) (w : CmdWord) (crc : HWord) (s : State) : Frames (mask (fldsOf (.cpWord port w crc)))
    s (execCpWord port w crc s) :=
  run_frames (by simp) fun t => by simp

theorem scalarWrite_frames (k i : Nat) (a : RgAcc) (s : State) : Frames (mask (fldsOf (.scalarWrite k i a))) s
    (execScalarWrite k i a s) :=
  regCmd_frames (by simp) fun t p d => by simp

theorem crConsWrite_frames (k : Nat) (a : RgAcc) (s : State) : Frames (mask (fldsOf (.crConsWrite k a))) s
    (execCrConsWrite k a s) :=
  regCmd_frames (by simp) fun t p d => by simp

theorem shapeCommit_frames (e : Nat) (a : RgAcc) (s : State) : Frames (mask (fldsOf (.shapeCommit e a))) s
    (execShapeCommit e a s) :=
  regCmd_frames (by simp) fun t p d => by simp

theorem nop_frames (k : Nat) (s : State) : Frames (mask (fldsOf (.nop k))) s (execNop k s) :=
  chanCmd_frames (by simp) fun t f => by simp

theorem mark_frames (k : Nat) (s : State) : Frames (mask (fldsOf (.mark k))) s (execMark k s) :=
  chanCmd_frames (by simp) fun t f => by simp

theorem trace_frames (k : Nat) (s : State) : Frames (mask (fldsOf (.trace k))) s (execTrace k s) := by
  refine chanCmd_frames (by simp) fun t f => ?_
  dsimp only
  split <;> simp

theorem loadsImm_frames (k : Nat) (s : State) : Frames (mask (fldsOf (.loadsImm k))) s (execLoadsImm k s) :=
  chanCmd_frames (by simp) fun t f => by simp

theorem loadsTally_frames (k : Nat) (s : State) : Frames (mask (fldsOf (.loadsTally k))) s (execLoadsTally k s) :=
  chanCmd_frames (by simp) fun t f => by simp

theorem loadsAdd_frames (k : Nat) (s : State) : Frames (mask (fldsOf (.loadsAdd k))) s (execLoadsAdd k s) :=
  chanCmd_frames (by simp) fun t f => by simp

theorem badOp_frames (k : Nat) (s : State) : Frames (mask (fldsOf (.badOp k))) s (execBadOp k s) :=
  run_frames (by simp) fun t => by simp

theorem fence_frames (k : Nat) (s : State) : Frames (mask (fldsOf (.fence k))) s (execFence k s) :=
  chanCmd_frames (by simp) fun t f => by simp

theorem waitCmd_frames (k : Nat) (s : State) : Frames (mask (fldsOf (.waitCmd k))) s (execWaitCmd k s) :=
  chanCmd_frames (by simp) fun t f => by simp

theorem repeatLoop_frames (k : Nat) (s : State) : Frames (mask (fldsOf (.repeatLoop k))) s (execRepeatLoop k s) :=
  chanCmd_frames (by simp) fun t f => by simp

theorem endLoop_frames (k : Nat) (s : State) : Frames (mask (fldsOf (.endLoop k))) s (execEndLoop k s) := by
  refine chanCmd_frames (by simp) fun t f => ?_
  split <;> simp

theorem branch_frames (k : Nat) (s : State) : Frames (mask (fldsOf (.branch k))) s (execBranch k s) :=
  chanCmd_frames (by simp) fun t f => by simp

theorem put_frames (k : Nat) (s : State) : Frames (mask (fldsOf (.put k))) s (execPut k s) :=
  chanCmd_frames (by simp) fun t f => by simp

theorem get_frames (k : Nat) (s : State) : Frames (mask (fldsOf (.get k))) s (execGet k s) :=
  chanCmd_frames (by simp) fun t f => by simp

theorem copy_frames (k : Nat) (s : State) : Frames (mask (fldsOf (.copy k))) s (execCopy k s) :=
  chanCmd_frames (by simp) fun t f => by simp

theorem atom_frames (k : Nat) (s : State) : Frames (mask (fldsOf (.atom k))) s (execAtom k s) :=
  chanCmd_frames (by simp) fun t f => by simp

theorem signal_frames (k : Nat) (s : State) : Frames (mask (fldsOf (.signal k))) s (execSignal k s) :=
  chanCmd_frames (by simp) fun t f => by simp

theorem loadsMem_frames (k : Nat) (s : State) : Frames (mask (fldsOf (.loadsMem k))) s (execLoadsMem k s) :=
  chanCmd_frames (by simp) fun t f => by simp

/-- The write of the record that `k` owes first, at `off` of its ring. -/
theorem State.recordWrite_same {m : Nat} (s : State) (k off : Nat) (owed : List Owed)
    (hm : Has m [.rg, .chans, .scal, .eng, .hm, .ev, .logs]) :
    Same m s (match owed with
      | o :: rest =>
        let s1 := s.modChan k (fun c => { c with owed := { o with writing := true } :: rest })
        (match s1.checkRanges .wr [(off, 64)] with
        | some _ => s1.recordDone k o.ord false
        | none => (s1.startWrite (.record k o.ord) (wrGrans off (leBytes 64 o.image.toNat) 0) 0).2)
      | [] => s) := by
  refine Same.mono ?_ hm
  split
  · dsimp only
    split <;> simp
  · rfl

theorem completionRecordWrite_frames (k : Nat) (s : State) : Frames (mask (fldsOf (.completionRecordWrite k))) s
    (execCompletionRecordWrite k s) :=  run_frames (by simp) fun t => t.recordWrite_same k _ _ (by simp)

theorem channelHang_frames (k : Nat) (s : State) : Frames (mask (fldsOf (.channelHang k))) s (execChannelHang k s) :=
  run_frames (by simp) fun t => by simp

/-! ### What is left: packets of collectives -/

theorem allReduce_frames (k : Nat) (s : State) : Frames (mask (fldsOf (.allReduce k))) s (execAllReduce k s) :=
  collRow_frames (by simp)

theorem reduceScatter_frames (k : Nat) (s : State) : Frames (mask (fldsOf (.reduceScatter k))) s (execReduceScatter k s)
    :=
  collRow_frames (by simp)

theorem allGather_frames (k : Nat) (s : State) : Frames (mask (fldsOf (.allGather k))) s (execAllGather k s) :=
  collRow_frames (by simp)

theorem broadcast_frames (k : Nat) (s : State) : Frames (mask (fldsOf (.broadcast k))) s (execBroadcast k s) :=
  collRow_frames (by simp)

theorem reduce_frames (k : Nat) (s : State) : Frames (mask (fldsOf (.reduce k))) s (execReduce k s) :=
  collRow_frames (by simp)

theorem a2aCap_frames (k : Nat) (s : State) : Frames (mask (fldsOf (.a2aCap k))) s (execA2aCap k s) :=
  collRow_frames (by simp)

theorem barrier_frames (k : Nat) (s : State) : Frames (mask (fldsOf (.barrier k))) s (execBarrier k s) :=
  collRow_frames (by simp)

theorem scalarAr_frames (k : Nat) (s : State) : Frames (mask (fldsOf (.scalarAr k))) s (execScalarAr k s) :=
  collRow_frames (by simp)

theorem channelEnable_frames (k : Nat) (a : RgAcc) (s : State) : Frames (mask (fldsOf (.channelEnable k a))) s
    (execChannelEnable k a s) :=
  regCmd_frames (by simp) fun t p d => by simp

theorem channelDisable_frames (k : Nat) (a : RgAcc) (s : State) : Frames (mask (fldsOf (.channelDisable k a))) s
    (execChannelDisable k a s) :=
  regCmd_frames (by simp) fun t p d => by simp

theorem resume_frames (k : Nat) (a : RgAcc) (s : State) : Frames (mask (fldsOf (.resume k a))) s (execResume k a s) :=
  regCmd_frames (by simp) fun t p d => by simp

theorem channelOn_frames (k : Nat) (s : State) : Frames (mask (fldsOf (.channelOn k))) s (execChannelOn k s) :=
  run_frames (by simp) fun t => by simp

/-! ### What is left: requests served -/

theorem atomicPerform_frames (s : State) : Frames (mask (fldsOf .atomicPerform)) s (execAtomicPerform s) :=
  run_frames (by simp) fun t => by simp

theorem atcHoldExpire_frames (g : Nat) (s : State) : Frames (mask (fldsOf (.atcHoldExpire g))) s (execAtcHoldExpire g s)
    :=
  run_frames (by simp) fun t => by simp

theorem atcFlush_frames (a : RgAcc) (s : State) : Frames (mask (fldsOf (.atcFlush a))) s (execAtcFlush a s) :=
  regCmd_frames (by simp) fun t p d => by simp

/-! ### What is left: host ports -/

theorem hmReadIssue_frames (p : Nat) (s : State) : Frames (mask (fldsOf (.hmReadIssue p))) s (execHmReadIssue p s) := by
  unfold execHmReadIssue
  dsimp only
  split <;> exact run_frames (by simp) fun t => by simp

theorem hmWriteIssue_frames (p : Nat) (s : State) : Frames (mask (fldsOf (.hmWriteIssue p))) s (execHmWriteIssue p s) :=
    by
  refine run_frames (by simp) fun t => ?_
  split
  · exact (State.drive_same _ _ (by simp)).mpr ((Same.with_atc (by simp)).mpr (by simp))
  · rfl

theorem hmReadBeat_frames (p : Nat) (x : RdBeat) (s : State) : Frames (mask (fldsOf (.hmReadBeat p x))) s (execHmReadBeat
    p x s) := by
  refine run_frames (by simp) fun t => ?_
  dsimp only
  repeat' split
  all_goals simp

theorem hmWriteResponse_frames (p : Nat) (x : WrRsp) (s : State) : Frames (mask (fldsOf (.hmWriteResponse p x))) s
    (execHmWriteResponse p x s) := by
  refine run_frames (by simp) fun t => ?_
  dsimp only
  repeat' split
  all_goals simp

theorem hmTimeout_frames (p : Nat) (isWr : Bool) (tag : Nat) (s : State) : Frames (mask (fldsOf (.hmTimeout p isWr tag)))
    s (execHmTimeout p isWr tag s) := by
  refine run_frames (by simp) fun t => ?_
  repeat' split
  all_goals simp

theorem fragmentIssue_frames (k : Nat) (s : State) : Frames (mask (fldsOf (.fragmentIssue k))) s (execFragmentIssue k s)
    := by
  refine run_frames (by simp) fun t => ?_
  dsimp only
  refine (State.raRelease_same _ (by simp)).mpr (Same.trans ?_ (Same.foldl (fun u x => ?_) _ _))
  · simp
  · repeat' split
    all_goals simp

theorem raLoad_frames (p : Nat) (x : RaAccess) (s : State) : Frames (mask (fldsOf (.raLoad p x))) s (execRaLoad p x s) :=
  run_frames (by simp) fun t => by simp

theorem raStore_frames (p : Nat) (x : RaAccess) (s : State) : Frames (mask (fldsOf (.raStore p x))) s (execRaStore p x s)
    :=
  run_frames (by simp) fun t => by simp

theorem raRspTaken_frames (p : Nat) (s : State) : Frames (mask (fldsOf (.raRspTaken p))) s (execRaRspTaken p s) := by
  refine run_frames (by simp) fun t => ?_
  split <;> simp

theorem raLoadTimeout_frames (p tag : Nat) (s : State) : Frames (mask (fldsOf (.raLoadTimeout p tag))) s
    (execRaLoadTimeout p tag s) := by
  refine run_frames (by simp) fun t => ?_
  split <;> simp

theorem eventTaken_frames (s : State) : Frames (mask (fldsOf .eventTaken)) s (execEventTaken s) := by
  refine run_frames (by simp) fun t => ?_
  split <;> simp

theorem tallyWrite_frames (n : Nat) (a : RgAcc) (s : State) : Frames (mask (fldsOf (.tallyWrite n a))) s (execTallyWrite
    n a s) :=
  regCmd_frames (by simp) fun t p d => by simp

theorem watchArm_frames (w : Nat) (a : RgAcc) (s : State) : Frames (mask (fldsOf (.watchArm w a))) s (execWatchArm w a s)
    :=
  regCmd_frames (by simp) fun t p d => by simp

theorem watchDisarm_frames (w : Nat) (a : RgAcc) (s : State) : Frames (mask (fldsOf (.watchDisarm w a))) s
    (execWatchDisarm w a s) :=
  regCmd_frames (by simp) fun t p d => by simp

theorem watchEventEnqueue_frames (w : Nat) (s : State) : Frames (mask (fldsOf (.watchEventEnqueue w))) s
    (execWatchEventEnqueue w s) := by
  refine run_frames (by simp) fun t => ?_
  split <;> simp

/-! ### What is left: packets accepted -/

theorem wr_frames (i : Nat) (s : State) : Frames (mask (fldsOf (.wr i))) s (execWr i s) := by
  have served (t : State) (h : Held) :
      Same (mask (fldsOf (.wr i))) t (t.serveIf .wr h.pkt (fun t => t.serveWrite h.pkt)) := by simp
  exact run_frames (by simp) fun t => (State.take_same t i (by simp) served).mpr (Same.refl _ t)

theorem rd_frames (i : Nat) (s : State) : Frames (mask (fldsOf (.rd i))) s (execRd i s) :=
  pktRow_frames (by simp) fun t h => by simp

theorem rdRelay_frames (i : Nat) (s : State) : Frames (mask (fldsOf (.rdRelay i))) s (execRdRelay i s) := by
  refine pktRow_frames (by simp) fun t h => (State.serveIf_same t _ _ (by simp) fun u => ?_).mpr (Same.refl _ t)
  split
  · simp
  · split <;> simp

theorem raLd_frames (i : Nat) (s : State) : Frames (mask (fldsOf (.raLd i))) s (execRaLd i s) :=
  pktRow_frames (by simp) fun t h => by simp

theorem raSt_frames (i : Nat) (s : State) : Frames (mask (fldsOf (.raSt i))) s (execRaSt i s) :=
  pktRow_frames (by simp) fun t h => by simp

theorem atomPacket_frames (i : Nat) (s : State) : Frames (mask (fldsOf (.atomPacket i))) s (execAtomPacket i s) :=
  pktRow_frames (by simp) fun t h => by simp

theorem signalPacket_frames (i : Nat) (s : State) : Frames (mask (fldsOf (.signalPacket i))) s (execSignalPacket i s) :=
  pktRow_frames (by simp) fun t h => by simp

theorem rlyData_frames (i : Nat) (s : State) : Frames (mask (fldsOf (.rlyData i))) s (execRlyData i s) :=
  pktRow_frames (by simp) fun t h => by simp

theorem wrRsp_frames (i : Nat) (s : State) : Frames (mask (fldsOf (.wrRsp i))) s (execWrRsp i s) :=
  pktRow_frames (by simp) fun t h => by simp

theorem sigRsp_frames (i : Nat) (s : State) : Frames (mask (fldsOf (.sigRsp i))) s (execSigRsp i s) :=
  pktRow_frames (by simp) fun t h => by simp

theorem rdRsp_frames (i : Nat) (s : State) : Frames (mask (fldsOf (.rdRsp i))) s (execRdRsp i s) :=
  pktRow_frames (by simp) fun t h => by simp

theorem rdData_frames (i : Nat) (s : State) : Frames (mask (fldsOf (.rdData i))) s (execRdData i s) := by
  refine pktRow_frames (by simp) fun t h => (State.chanRsp_same t h (by simp) fun u k x f => ?_).mpr (Same.refl _ t)
  dsimp only
  repeat' split
  all_goals simp

theorem atomRsp_frames (i : Nat) (s : State) : Frames (mask (fldsOf (.atomRsp i))) s (execAtomRsp i s) := by
  refine pktRow_frames (by simp) fun t h => (State.chanRsp_same t h (by simp) fun u k x f => ?_).mpr (Same.refl _ t)
  dsimp only
  repeat' split
  all_goals simp

theorem raData_frames (i : Nat) (s : State) : Frames (mask (fldsOf (.raData i))) s (execRaData i s) := by
  refine pktRow_frames (by simp) fun t h => ?_
  split <;> simp

theorem raRsp_frames (i : Nat) (s : State) : Frames (mask (fldsOf (.raRsp i))) s (execRaRsp i s) := by
  refine pktRow_frames (by simp) fun t h => ?_
  split <;> simp

theorem colAck_frames (i : Nat) (s : State) : Frames (mask (fldsOf (.colAck i))) s (execColAck i s) := by
  refine pktRow_frames (by simp) fun t h => (State.rsp_same t _ h (by simp) fun u => ?_).mpr (Same.refl _ t)
  split <;> simp

theorem colReady_frames (i : Nat) (s : State) : Frames (mask (fldsOf (.colReady i))) s (execColReady i s) :=
  pktRow_frames (by simp) fun t h => by simp

theorem colData_frames (i : Nat) (s : State) : Frames (mask (fldsOf (.colData i))) s (execColData i s) :=
  pktRow_frames (by simp) fun t h => by simp

theorem colSlot_frames (i : Nat) (s : State) : Frames (mask (fldsOf (.colSlot i))) s (execColSlot i s) :=
  pktRow_frames (by simp) fun t h => by simp

theorem colDone_frames (i : Nat) (s : State) : Frames (mask (fldsOf (.colDone i))) s (execColDone i s) :=
  pktRow_frames (by simp) fun t h => by simp

theorem colRel_frames (i : Nat) (s : State) : Frames (mask (fldsOf (.colRel i))) s (execColRel i s) :=
  pktRow_frames (by simp) fun t h => by simp

theorem collAbort_frames (i : Nat) (s : State) : Frames (mask (fldsOf (.collAbort i))) s (execCollAbort i s) :=
  pktRow_frames (by simp) fun t h => by simp

/-! ### What is left: hops, towpaths and berths -/

theorem packetHop_frames (place i : Nat) (x : Option XbarHit) (s : State) : Frames (mask (fldsOf (.packetHop place i x)))
    s (execPacketHop place i x s) :=
  run_frames (by simp) fun t => by simp

theorem reinIncrease_frames (k : Nat) (s : State) : Frames (mask (fldsOf (.reinIncrease k))) s (execReinIncrease k s) :=
  run_frames (by simp) fun t => by simp

theorem towEnable_frames (t : Nat) (a : RgAcc) (s : State) : Frames (mask (fldsOf (.towEnable t a))) s (execTowEnable t a
    s) :=
  regCmd_frames (by simp) fun t p d => by simp

theorem towDisable_frames (t : Nat) (a : RgAcc) (s : State) : Frames (mask (fldsOf (.towDisable t a))) s (execTowDisable
    t a s) :=
  regCmd_frames (by simp) fun t p d => by simp

theorem towStarted_frames (t : Nat) (s : State) : Frames (mask (fldsOf (.towStarted t))) s (execTowStarted t s) :=
  run_frames (by simp) fun t => by simp

theorem towStall_frames (t : Nat) (s : State) : Frames (mask (fldsOf (.towStall t))) s (execTowStall t s) :=
  run_frames (by simp) fun u => by simp

/-! ### What is left: aborts of a partition -/

theorem abortFlit_frames (p : Nat) (s : State) : Frames (mask (fldsOf (.abortFlit p))) s (execAbortFlit p s) :=
  ctlRow_frames (by simp) fun t b => by simp

theorem generationStep_frames (s : State) : Frames (mask (fldsOf .generationStep)) s (execGenerationStep s) :=
  run_frames (by simp) fun t => by simp

theorem genWrite_frames (a : RgAcc) (s : State) : Frames (mask (fldsOf (.genWrite a))) s (execGenWrite a s) :=
  regCmd_frames (by simp) fun t p d => by simp

theorem abortGo_frames (a : RgAcc) (s : State) : Frames (mask (fldsOf (.abortGo a))) s (execAbortGo a s) :=
  regCmd_frames (by simp) fun t p d => by simp

theorem abortPairExpire_frames (key gen : Nat) (s : State) : Frames (mask (fldsOf (.abortPairExpire key gen))) s
    (execAbortPairExpire key gen s) :=
  run_frames (by simp) fun t => by simp

/-! ### What is left: link training and control flits -/

theorem seqFlitReceive_frames (p : Nat) (f : RxFlit) (s : State) : Frames (mask (fldsOf (.seqFlitReceive p f))) s
    (execSeqFlitReceive p f s) :=
  run_frames (by simp) fun t => by simp

theorem tagReceive_frames (p : Nat) (f : RxFlit) (s : State) : Frames (mask (fldsOf (.tagReceive p f))) s (execTagReceive
    p f s) :=
  run_frames (by simp) fun t => by simp

theorem replayTimeout_frames (p : Nat) (s : State) : Frames (mask (fldsOf (.replayTimeout p))) s (execReplayTimeout p s)
    :=
  run_frames (by simp) fun t => by simp

theorem linkParam_frames (p : Nat) (s : State) : Frames (mask (fldsOf (.linkParam p))) s (execLinkParam p s) := by
  unfold execLinkParam
  refine ctlRow_frames (by simp) fun t b => ?_
  dsimp only
  repeat' split
  all_goals simp

theorem linkParamSend_frames (p : Nat) (s : State) : Frames (mask (fldsOf (.linkParamSend p))) s (execLinkParamSend p s)
    :=
  run_frames (by simp) fun t => by simp

theorem linkTrainTimeout_frames (p : Nat) (s : State) : Frames (mask (fldsOf (.linkTrainTimeout p))) s
    (execLinkTrainTimeout p s) :=
  run_frames (by simp) fun t => by simp

theorem retrainTimeout_frames (p : Nat) (s : State) : Frames (mask (fldsOf (.retrainTimeout p))) s (execRetrainTimeout p
    s) :=
  run_frames (by simp) fun t => by simp

theorem linkDrainTimeout_frames (p : Nat) (s : State) : Frames (mask (fldsOf (.linkDrainTimeout p))) s
    (execLinkDrainTimeout p s) :=
  run_frames (by simp) fun t => by simp

theorem retrain_frames (p : Nat) (s : State) : Frames (mask (fldsOf (.retrain p))) s (execRetrain p s) :=
  ctlRow_frames (by simp) fun t b => by simp

theorem linkEnable_frames (p : Nat) (a : RgAcc) (s : State) : Frames (mask (fldsOf (.linkEnable p a))) s (execLinkEnable
    p a s) :=
  regCmd_frames (by simp) fun t p d => by simp

theorem linkDisable_frames (p : Nat) (a : RgAcc) (s : State) : Frames (mask (fldsOf (.linkDisable p a))) s
    (execLinkDisable p a s) :=
  regCmd_frames (by simp) fun t p d => by simp

theorem linkRetrainWrite_frames (p : Nat) (a : RgAcc) (s : State) : Frames (mask (fldsOf (.linkRetrainWrite p a))) s
    (execLinkRetrainWrite p a s) :=
  regCmd_frames (by simp) fun t p d => by simp

theorem lnkInjArm_frames (p : Nat) (a : RgAcc) (s : State) : Frames (mask (fldsOf (.lnkInjArm p a))) s (execLnkInjArm p a
    s) :=
  regCmd_frames (by simp) fun t p d => by simp

/-! ### What is left: the global halt and the progress monitors -/

theorem haltGo_frames (a : RgAcc) (s : State) : Frames (mask (fldsOf (.haltGo a))) s (execHaltGo a s) :=
  regCmd_frames (by simp) fun t p d => by simp

theorem haltRelease_frames (a : RgAcc) (s : State) : Frames (mask (fldsOf (.haltRelease a))) s (execHaltRelease a s) :=
  regCmd_frames (by simp) fun t p d => by simp

theorem haltMark_frames (p : Nat) (s : State) : Frames (mask (fldsOf (.haltMark p))) s (execHaltMark p s) :=
  ctlRow_frames (by simp) fun t b => by simp

theorem haltRel_frames (p : Nat) (s : State) : Frames (mask (fldsOf (.haltRel p))) s (execHaltRel p s) :=
  ctlRow_frames (by simp) fun t b => by simp

theorem halted_frames (s : State) : Frames (mask (fldsOf .halted)) s (execHalted s) :=
  run_frames (by simp) fun t => by simp

theorem haltTimeout_frames (s : State) : Frames (mask (fldsOf .haltTimeout)) s (execHaltTimeout s) := by
  exact run_frames (by simp) fun t => (Same.with_halt (by simp)).mpr (by simp)

theorem snapSelect_frames (a : RgAcc) (s : State) : Frames (mask (fldsOf (.snapSelect a))) s (execSnapSelect a s) :=
  regCmd_frames (by simp) fun t p d => by simp

theorem portHang_frames (p : Nat) (s : State) : Frames (mask (fldsOf (.portHang p))) s (execPortHang p s) :=
  run_frames (by simp) fun t => by simp

theorem vcHang_frames (p v : Nat) (s : State) : Frames (mask (fldsOf (.vcHang p v))) s (execVcHang p v s) :=
  run_frames (by simp) fun t => by simp

theorem hportHang_frames (inst : Nat) (s : State) : Frames (mask (fldsOf (.hportHang inst))) s (execHportHang inst s) :=
  run_frames (by simp) fun t => by simp

/-! ### What is left: reduction units -/

theorem ruEnable_frames (a : RgAcc) (s : State) : Frames (mask (fldsOf (.ruEnable a))) s (execRuEnable a s) :=
  regCmd_frames (by simp) fun t p d => by simp

theorem ruDisable_frames (a : RgAcc) (s : State) : Frames (mask (fldsOf (.ruDisable a))) s (execRuDisable a s) :=
  regCmd_frames (by simp) fun t p d => by simp

theorem ruSpareDesignate_frames (a : RgAcc) (s : State) : Frames (mask (fldsOf (.ruSpareDesignate a))) s
    (execRuSpareDesignate a s) :=
  regCmd_frames (by simp) fun t p d => by simp

theorem ruFaultedClear_frames (u : Nat) (a : RgAcc) (s : State) : Frames (mask (fldsOf (.ruFaultedClear u a))) s
    (execRuFaultedClear u a s) :=
  regCmd_frames (by simp) fun t p d => by simp

theorem ruSelfTestDone_frames (u : Nat) (ok : Bool) (s : State) : Frames (mask (fldsOf (.ruSelfTestDone u ok))) s
    (execRuSelfTestDone u ok s) :=
  run_frames (by simp) fun t => by simp

theorem ruCombine_frames (u g i : Nat) (err : Bool) (s : State) : Frames (mask (fldsOf (.ruCombine u g i err))) s
    (execRuCombine u g i err s) :=
  run_frames (by simp) fun t => by simp

theorem ruInjArm_frames (a : RgAcc) (s : State) : Frames (mask (fldsOf (.ruInjArm a))) s (execRuInjArm a s) :=
  regCmd_frames (by simp) fun t p d => by simp

theorem pktInjArm_frames (a : RgAcc) (s : State) : Frames (mask (fldsOf (.pktInjArm a))) s (execPktInjArm a s) :=
  regCmd_frames (by simp) fun t p d => by simp

/-! ### What is left: lanes and teams -/

theorem trainingFrame_frames (t i : Nat) (f : TrainFrame) (s : State) : Frames (mask (fldsOf (.trainingFrame t i f))) s
    (execTrainingFrame t i f s) :=
  run_frames (by simp) fun t => by simp

theorem teamDrop_frames (p : Nat) (s : State) : Frames (mask (fldsOf (.teamDrop p))) s (execTeamDrop p s) := by
  refine run_frames (by simp) fun t => ?_
  dsimp only
  repeat' split
  all_goals simp

theorem teamAdd_frames (p : Nat) (s : State) : Frames (mask (fldsOf (.teamAdd p))) s (execTeamAdd p s) := by
  refine run_frames (by simp) fun t => ?_
  dsimp only
  repeat' split
  all_goals simp

theorem tagLock_frames (p : Nat) (s : State) : Frames (mask (fldsOf (.tagLock p))) s (execTagLock p s) :=
  run_frames (by simp) fun t => by simp

theorem tagLockLoss_frames (t : Nat) (s : State) : Frames (mask (fldsOf (.tagLockLoss t))) s (execTagLockLoss t s) :=
  run_frames (by simp) fun t => by simp

theorem teamRetryTimer_frames (t : Nat) (s : State) : Frames (mask (fldsOf (.teamRetryTimer t))) s (execTeamRetryTimer t
    s) :=
  run_frames (by simp) fun t => by simp

theorem fomUpdate_frames (t : Nat) (foms : List Nat) (s : State) : Frames (mask (fldsOf (.fomUpdate t foms))) s
    (execFomUpdate t foms s) :=
  run_frames (by simp) fun t => by simp

theorem laneSilent_frames (t i : Nat) (s : State) : Frames (mask (fldsOf (.laneSilent t i))) s (execLaneSilent t i s) :=
  run_frames (by simp) fun t => by simp

theorem forwardedClockLoss_frames (t : Nat) (s : State) : Frames (mask (fldsOf (.forwardedClockLoss t))) s
    (execForwardedClockLoss t s) :=
  run_frames (by simp) fun t => by simp

theorem clockHoldoverEnd_frames (t : Nat) (s : State) : Frames (mask (fldsOf (.clockHoldoverEnd t))) s
    (execClockHoldoverEnd t s) :=
  run_frames (by simp) fun t => by simp

theorem laneManagementWord_frames (x : Nat) (s : State) : Frames (mask (fldsOf (.laneManagementWord x))) s
    (execLaneManagementWord x s) := by
  refine run_frames (by simp) fun t => ?_
  repeat' split
  all_goals simp

theorem mirrorReq_frames (t : Nat) (w : Quad) (s : State) : Frames (mask (fldsOf (.mirrorReq t w))) s (execMirrorReq t w
    s) :=
  run_frames (by simp) fun t => by simp

theorem mirrorAck_frames (t : Nat) (w : Quad) (s : State) : Frames (mask (fldsOf (.mirrorAck t w))) s (execMirrorAck t w
    s) := by
  unfold execMirrorAck
  dsimp only
  split <;> exact run_frames (by simp) fun t => by simp

theorem spareCompareDone_frames (t : Nat) (ok : Bool) (s : State) : Frames (mask (fldsOf (.spareCompareDone t ok))) s
    (execSpareCompareDone t ok s) := by
  unfold execSpareCompareDone
  dsimp only
  split <;> exact run_frames (by simp) fun t => by simp

theorem teamRetry_frames (t : Nat) (a : RgAcc) (s : State) : Frames (mask (fldsOf (.teamRetry t a))) s (execTeamRetry t a
    s) :=
  regCmd_frames (by simp) fun t p d => by simp

theorem teamSwap_frames (t : Nat) (a : RgAcc) (s : State) : Frames (mask (fldsOf (.teamSwap t a))) s (execTeamSwap t a s)
    :=
  regCmd_frames (by simp) fun t p d => by simp

theorem prbsMode_frames (t : Nat) (a : RgAcc) (s : State) : Frames (mask (fldsOf (.prbsMode t a))) s (execPrbsMode t a s)
    :=
  regCmd_frames (by simp) fun t p d => by simp

theorem prbsClr_frames (t : Nat) (a : RgAcc) (s : State) : Frames (mask (fldsOf (.prbsClr t a))) s (execPrbsClr t a s) :=
  regCmd_frames (by simp) fun t p d => by simp

theorem prbsCheckerLock_frames (t i errs : Nat) (s : State) : Frames (mask (fldsOf (.prbsCheckerLock t i errs))) s
    (execPrbsCheckerLock t i errs s) :=
  run_frames (by simp) fun t => by simp

theorem harnessSeal_frames (a : RgAcc) (s : State) : Frames (mask (fldsOf (.harnessSeal a))) s (execHarnessSeal a s) :=
  regCmd_frames (by simp) fun t p d => by simp

/-! ### What is left: faults -/

theorem faultTaken_frames (s : State) : Frames (mask (fldsOf .faultTaken)) s (execFaultTaken s) := by
  refine run_frames (by simp) fun t => ?_
  split <;> simp

theorem quietExpire_frames (code inst : Nat) (s : State) : Frames (mask (fldsOf (.quietExpire code inst))) s
    (execQuietExpire code inst s) :=
  run_frames (by simp) fun t => by simp

theorem fltAck_frames (a : RgAcc) (s : State) : Frames (mask (fldsOf (.fltAck a))) s (execFltAck a s) :=
  regCmd_frames (by simp) fun t p d => by simp

theorem railInvalidTimeout_frames (line : Nat) (s : State) : Frames (mask (fldsOf (.railInvalidTimeout line))) s
    (execRailInvalidTimeout line s) :=
  run_frames (by simp) fun t => by simp

theorem farrierProbe_frames (ok : Bool) (s : State) : Frames (mask (fldsOf (.farrierProbe ok))) s (execFarrierProbe ok s)
    :=
  run_frames (by simp) fun t => by simp

theorem scrub_frames (x : ScrubHit) (s : State) : Frames (mask (fldsOf (.scrub x))) s (execScrub x s) := by
  unfold execScrub
  split <;> exact run_frames (by simp) fun t => by simp

theorem startDone_frames (a : RgAcc) (s : State) : Frames (mask (fldsOf (.startDone a))) s (execStartDone a s) :=
  regCmd_frames (by simp) fun t p d => by simp

theorem recovExpire_frames (s : State) : Frames (mask (fldsOf .recovExpire)) s (execRecovExpire s) :=
  run_frames (by simp) fun t => by simp

theorem crecClr_frames (a : RgAcc) (s : State) : Frames (mask (fldsOf (.crecClr a))) s (execCrecClr a s) :=
  regCmd_frames (by simp) fun t p d => by simp

theorem fltInjArm_frames (a : RgAcc) (s : State) : Frames (mask (fldsOf (.fltInjArm a))) s (execFltInjArm a s) :=
  regCmd_frames (by simp) fun t p d => by simp

theorem fltInjDisarm_frames (a : RgAcc) (s : State) : Frames (mask (fldsOf (.fltInjDisarm a))) s (execFltInjDisarm a s) :=
  regCmd_frames (by simp) fun t p d => by simp

theorem faultStaticToggle_frames (s : State) : Frames (mask (fldsOf .faultStaticToggle)) s (execFaultStaticToggle s) :=
  run_frames (by simp) fun t => by simp

/-! ### What is left: banked and staged tables -/

theorem epochHoldExpire_frames (s : State) : Frames (mask (fldsOf .epochHoldExpire)) s (execEpochHoldExpire s) :=
  run_frames (by simp) fun t => by simp

theorem pfenceSet_frames (a : RgAcc) (s : State) : Frames (mask (fldsOf (.pfenceSet a))) s (execPfenceSet a s) :=
  regCmd_frames (by simp) fun t p d => by simp

theorem pfenceLift_frames (a : RgAcc) (s : State) : Frames (mask (fldsOf (.pfenceLift a))) s (execPfenceLift a s) :=
  regCmd_frames (by simp) fun t p d => by simp

/-! ### What is left: logbooks, congestion maps and the lifetime record -/

theorem gaitInterval_frames (mean inst : Nat) (s : State) : Frames (mask (fldsOf (.gaitInterval mean inst))) s
    (execGaitInterval mean inst s) := by
  refine run_frames (by simp) fun t => ?_
  extract_lets m s1 s2 low life s3 s4
  have h2 : Same (mask (fldsOf (.gaitInterval mean inst))) t s2 := by simp [s2, s1]
  have h3 : Same (mask (fldsOf (.gaitInterval mean inst))) t s3 := (Same.with_life (by simp)).mpr h2
  have h4 : Same (mask (fldsOf (.gaitInterval mean inst))) s3 s4 := by
    unfold s4
    split <;> simp
  exact (h3.trans h4).trans (by split <;> simp)

theorem logDrainWrite_frames (n : Nat) (s : State) : Frames (mask (fldsOf (.logDrainWrite n))) s (execLogDrainWrite n s)
    :=
  run_frames (by simp) fun t => by simp

theorem logPadTimeout_frames (n : Nat) (s : State) : Frames (mask (fldsOf (.logPadTimeout n))) s (execLogPadTimeout n s)
    :=
  run_frames (by simp) fun t => by simp

theorem logEnable_frames (n : Nat) (a : RgAcc) (s : State) : Frames (mask (fldsOf (.logEnable n a))) s (execLogEnable n a
    s) :=
  regCmd_frames (by simp) fun t p d => by simp

theorem logDisable_frames (n : Nat) (a : RgAcc) (s : State) : Frames (mask (fldsOf (.logDisable n a))) s (execLogDisable
    n a s) :=
  regCmd_frames (by simp) fun t p d => by simp

theorem logFlush_frames (n : Nat) (a : RgAcc) (s : State) : Frames (mask (fldsOf (.logFlush n a))) s (execLogFlush n a s)
    :=
  regCmd_frames (by simp) fun t p d => by simp

theorem logStarted_frames (n : Nat) (s : State) : Frames (mask (fldsOf (.logStarted n))) s (execLogStarted n s) :=
  run_frames (by simp) fun t => by simp

theorem logDrainTimeout_frames (n : Nat) (s : State) : Frames (mask (fldsOf (.logDrainTimeout n))) s (execLogDrainTimeout
    n s) :=
  run_frames (by simp) fun t => by simp

theorem lbWriteResponse_frames (sts : Nat) (s : State) : Frames (mask (fldsOf (.lbWriteResponse sts))) s
    (execLbWriteResponse sts s) := by
  refine run_frames (by simp) fun t => ?_
  split <;> simp

theorem logwinSelect_frames (a : RgAcc) (s : State) : Frames (mask (fldsOf (.logwinSelect a))) s (execLogwinSelect a s) :=
  regCmd_frames (by simp) fun t p d => by simp

theorem cmapInterval_frames (s : State) : Frames (mask (fldsOf .cmapInterval)) s (execCmapInterval s) :=
  run_frames (by simp) fun t => by simp

theorem lifeSecond_frames (s : State) : Frames (mask (fldsOf .lifeSecond)) s (execLifeSecond s) := by
  refine run_frames (by simp) fun t => ?_
  extract_lets s1 s2 s3 s4
  have h2 : Same (mask (fldsOf .lifeSecond)) t s2 := by simp [s2, s1]
  have h3 : Same (mask (fldsOf .lifeSecond)) s2 s3 := by
    unfold s3
    split <;> simp
  have h4 : Same (mask (fldsOf .lifeSecond)) s3 s4 := Same.foldl (fun u k => by simp) _ _
  exact (Same.with_life (by simp)).mpr ((h2.trans h3).trans h4)

theorem lifeSnap_frames (a : RgAcc) (s : State) : Frames (mask (fldsOf (.lifeSnap a))) s (execLifeSnap a s) :=
  regCmd_frames (by simp) fun t p d => by simp

theorem lifeOpen_frames (a : RgAcc) (s : State) : Frames (mask (fldsOf (.lifeOpen a))) s (execLifeOpen a s) :=
  regCmd_frames (by simp) fun t p d => by simp

theorem lifeCommit_frames (a : RgAcc) (s : State) : Frames (mask (fldsOf (.lifeCommit a))) s (execLifeCommit a s) :=
  regCmd_frames (by simp) fun t p d => by simp

/-! ### What is left: power and resets -/

theorem pwrOkFall_frames (s : State) : Frames (mask (fldsOf .pwrOkFall)) s (execPwrOkFall s) :=  runAny_pending

theorem pwrOkRise_frames (s : State) : Frames (mask (fldsOf .pwrOkRise)) s (execPwrOkRise s) :=
  runAny_frames (by simp) fun t => by simp

theorem rstNFall_frames (s : State) : Frames (mask (fldsOf .rstNFall)) s (execRstNFall s) :=
  runAny_frames (by simp) fun t => by simp

theorem rstNRise_frames (s : State) : Frames (mask (fldsOf .rstNRise)) s (execRstNRise s) :=
  runAny_frames (by simp) fun t => by simp

theorem warmResetRequest_frames (a : RgAcc) (s : State) : Frames (mask (fldsOf (.warmResetRequest a))) s
    (execWarmResetRequest a s) :=
  regCmd_frames (by simp) fun t p d => by simp

theorem warmResetProper_frames (s : State) : Frames (mask (fldsOf .warmResetProper)) s (execWarmResetProper s) :=
  runAny_frames (by simp) fun t => by simp

theorem selfCheckDone_frames (r : SelfCheck) (s : State) : Frames (mask (fldsOf (.selfCheckDone r))) s (execSelfCheckDone
    r s) := by
  unfold execSelfCheckDone
  split <;> exact runAny_pending

theorem tapExtest_frames (v : Quad) (s : State) : Frames (mask (fldsOf (.tapExtest v))) s (execTapExtest v s) :=
  runAny_frames (by simp) fun t => by simp

theorem tapSamplePreload_frames (v : Quad) (s : State) : Frames (mask (fldsOf (.tapSamplePreload v))) s
    (execTapSamplePreload v s) :=
  runAny_frames (by simp) fun t => by simp

theorem tapClamp_frames (s : State) : Frames (mask (fldsOf .tapClamp)) s (execTapClamp s) :=
  runAny_frames (by simp) fun t => by simp

theorem tapWir_frames (s : State) : Frames (mask (fldsOf .tapWir)) s (execTapWir s) :=
  runAny_frames (by simp) fun t => by simp

theorem tapWdr_frames (_chain : Nat) (s : State) : Frames (mask (fldsOf (.tapWdr _chain))) s (execTapWdr _chain s) :=
  runAny_frames (by simp) fun t => by simp

theorem tapIjtag_frames (s : State) : Frames (mask (fldsOf .tapIjtag)) s (execTapIjtag s) :=
  runAny_frames (by simp) fun t => by simp

theorem tapBypass_frames (code : Byte) (s : State) : Frames (mask (fldsOf (.tapBypass code))) s (execTapBypass code s) :=
  runAny_frames (by simp) fun t => by simp

theorem tapScan_frames (s : State) : Frames (mask (fldsOf .tapScan)) s (execTapScan s) :=  runAny_pending

theorem wrapperMode_frames (w : Nat) (mode : WrapMode) (s : State) : Frames (mask (fldsOf (.wrapperMode w mode))) s
    (execWrapperMode w mode s) :=
  runAny_frames (by simp) fun t => by simp

theorem ijtagBist_frames (_array : Nat) (s : State) : Frames (mask (fldsOf (.ijtagBist _array))) s (execIjtagBist _array
    s) :=
  runAny_frames (by simp) fun t => by simp

theorem ijtagFuse_frames (f : FuseOp) (s : State) : Frames (mask (fldsOf (.ijtagFuse f))) s (execIjtagFuse f s) := by
  refine runAny_frames (by simp) fun t => ?_
  dsimp only
  repeat' split
  all_goals simp

theorem ijtagLaneLb_frames (t : Nat) (on : Bool) (s : State) : Frames (mask (fldsOf (.ijtagLaneLb t on))) s
    (execIjtagLaneLb t on s) :=
  runAny_frames (by simp) fun t => by simp

/-! ### What is left: time -/

theorem beaconInterval_frames (s : State) : Frames (mask (fldsOf .beaconInterval)) s (execBeaconInterval s) :=
  run_frames (by simp) fun t => by simp

theorem beacon_frames (p : Nat) (s : State) : Frames (mask (fldsOf (.beacon p))) s (execBeacon p s) := by
  unfold execBeacon
  refine ctlRow_frames (by simp) fun t b => ?_
  split <;> simp

theorem beaconRsp_frames (p : Nat) (s : State) : Frames (mask (fldsOf (.beaconRsp p))) s (execBeaconRsp p s) := by
  unfold execBeaconRsp
  refine ctlRow_frames (by simp) fun t b => ?_
  split
  · rfl
  · split
    · rfl
    · simp

/-! ### What is left: I2C -/

theorem i2cWrite_frames (c : Nat) (a : RgAcc) (s : State) : Frames (mask (fldsOf (.i2cWrite c a))) s (execI2cWrite c a s)
    :=
  i2cRow_frames (by simp)

theorem i2cRead_frames (c : Nat) (a : RgAcc) (s : State) : Frames (mask (fldsOf (.i2cRead c a))) s (execI2cRead c a s) :=
  i2cRow_frames (by simp)

theorem i2cReadCur_frames (c : Nat) (a : RgAcc) (s : State) : Frames (mask (fldsOf (.i2cReadCur c a))) s (execI2cReadCur
    c a s) :=
  i2cRow_frames (by simp)

/-! ### What is left: register reads -/

theorem latchedRead_frames (off : Nat) (par : Bool) (s : State) : Frames (mask (fldsOf (.latchedRead off par))) s
    (execLatchedRead off par s) :=
  readCmd_frames (by simp)

theorem ccntLatch_frames (k : Nat) (snap par : Bool) (s : State) : Frames (mask (fldsOf (.ccntLatch k snap par))) s
    (execCcntLatch k snap par s) :=
  readCmd_frames (by simp)

/-! ### What is left: register writes by address -/

theorem registerWrite_frames (off : Nat) (a : RgAcc) (s : State) : Frames (mask (fldsOf (.registerWrite off a))) s
    (execRegisterWrite off a s) :=
  regCmd_frames (by simp) fun t p d => by simp

theorem portFence_frames (a : RgAcc) (s : State) : Frames (mask (fldsOf (.portFence a))) s (execPortFence a s) :=
  regCmd_frames (by simp) fun t p d => by simp

theorem farrierTakeback_frames (a : RgAcc) (s : State) : Frames (mask (fldsOf (.farrierTakeback a))) s
    (execFarrierTakeback a s) :=
  regCmd_frames (by simp) fun t p d => by simp

/-! ### What is left: farriers -/

theorem mcWatchdogWrite_frames (s : State) : Frames (mask (fldsOf .mcWatchdogWrite)) s (execMcWatchdogWrite s) :=
  run_frames (by simp) fun t => by simp

theorem mcWdogExpire_frames (s : State) : Frames (mask (fldsOf .mcWdogExpire)) s (execMcWdogExpire s) :=
  run_frames (by simp) fun t => by simp

theorem farrierOpenPorts_frames (s : State) : Frames (mask (fldsOf .farrierOpenPorts)) s (execFarrierOpenPorts s) :=
  run_frames (by simp) fun t => by simp

theorem farrierStatus_frames (s : State) : Frames (mask (fldsOf .farrierStatus)) s (execFarrierStatus s) :=
  farRow_frames (by simp) fun t c => by simp

theorem farrierPeek_frames (s : State) : Frames (mask (fldsOf .farrierPeek)) s (execFarrierPeek s) :=
  farRow_frames (by simp) fun t c => by simp

theorem farrierAbort_frames (s : State) : Frames (mask (fldsOf .farrierAbort)) s (execFarrierAbort s) :=
  farRow_frames (by simp) fun t c => by simp

theorem farrierFence_frames (s : State) : Frames (mask (fldsOf .farrierFence)) s (execFarrierFence s) :=
  farRow_frames (by simp) fun t c => by simp

theorem farrierOpen_frames (s : State) : Frames (mask (fldsOf .farrierOpen)) s (execFarrierOpen s) :=
  farRow_frames (by simp) fun t c => by simp

theorem farrierResetMc_frames (s : State) : Frames (mask (fldsOf .farrierResetMc)) s (execFarrierResetMc s) :=
  farRow_frames (by simp) fun t c => by simp

theorem farrierWarmReset_frames (s : State) : Frames (mask (fldsOf .farrierWarmReset)) s (execFarrierWarmReset s) :=
  farRow_frames (by simp) fun t c => by simp

theorem farrierHalt_frames (s : State) : Frames (mask (fldsOf .farrierHalt)) s (execFarrierHalt s) :=
  farRow_frames (by simp) fun t c => by simp

theorem farrierRelease_frames (s : State) : Frames (mask (fldsOf .farrierRelease)) s (execFarrierRelease s) :=
  farRow_frames (by simp) fun t c => by simp

theorem farrierBadCmd_frames (s : State) : Frames (mask (fldsOf .farrierBadCmd)) s (execFarrierBadCmd s) :=
  farRow_frames (by simp) fun t c => by simp

theorem assist_frames (i : Nat) (s : State) : Frames (mask (fldsOf (.assist i))) s (execAssist i s) :=
  pktRow_frames (by simp) fun t h => by simp

theorem assistRsp_frames (i : Nat) (s : State) : Frames (mask (fldsOf (.assistRsp i))) s (execAssistRsp i s) :=
  pktRow_frames (by simp) fun t h => by simp

/-! ### What is left: table cycles and management trees -/

theorem treeStage_frames (i : Nat) (s : State) : Frames (mask (fldsOf (.treeStage i))) s (execTreeStage i s) :=
  treeDownRow_frames (by simp)

theorem treeSeal_frames (i : Nat) (s : State) : Frames (mask (fldsOf (.treeSeal i))) s (execTreeSeal i s) :=
  treeDownRow_frames (by simp)

theorem treeReady_frames (i : Nat) (s : State) : Frames (mask (fldsOf (.treeReady i))) s (execTreeReady i s) :=
  treeUpRow_frames (by simp)

theorem treeRefused_frames (i : Nat) (s : State) : Frames (mask (fldsOf (.treeRefused i))) s (execTreeRefused i s) :=
  treeUpRow_frames (by simp)

theorem treeLock_frames (i : Nat) (s : State) : Frames (mask (fldsOf (.treeLock i))) s (execTreeLock i s) :=
  treeDownRow_frames (by simp)

theorem treeCount_frames (i : Nat) (s : State) : Frames (mask (fldsOf (.treeCount i))) s (execTreeCount i s) :=
  treeDownRow_frames (by simp)

theorem treeReport_frames (i : Nat) (s : State) : Frames (mask (fldsOf (.treeReport i))) s (execTreeReport i s) :=
  treeUpRow_frames (by simp)

theorem treeSwap_frames (i : Nat) (s : State) : Frames (mask (fldsOf (.treeSwap i))) s (execTreeSwap i s) :=
  treeDownRow_frames (by simp)

theorem treeSwapped_frames (i : Nat) (s : State) : Frames (mask (fldsOf (.treeSwapped i))) s (execTreeSwapped i s) :=
  treeUpRow_frames (by simp)

theorem treeRelease_frames (i : Nat) (s : State) : Frames (mask (fldsOf (.treeRelease i))) s (execTreeRelease i s) :=
  treeDownRow_frames (by simp)

theorem mbReqSpare_frames (i : Nat) (s : State) : Frames (mask (fldsOf (.mbReqSpare i))) s (execMbReqSpare i s) :=
  mgtRow_frames (by simp) fun t h => by simp

theorem mbRsp_frames (i : Nat) (s : State) : Frames (mask (fldsOf (.mbRsp i))) s (execMbRsp i s) := by
  refine pktRow_frames (by simp) fun t h => ?_
  repeat' split
  all_goals simp

theorem mgtResendTimeout_frames (mseq : Nat) (s : State) : Frames (mask (fldsOf (.mgtResendTimeout mseq))) s
    (execMgtResendTimeout mseq s) := by
  unfold execMgtResendTimeout
  split
  · exact run_frames (by simp) fun t => by simp
  · exact runAny_frames (by simp) fun t => Same.refl _ t

theorem lockDrainTimeout_frames (s : State) : Frames (mask (fldsOf .lockDrainTimeout)) s (execLockDrainTimeout s) := by
  unfold execLockDrainTimeout
  split
  · exact run_frames (by simp) fun t => by simp
  · exact runAny_frames (by simp) fun t => Same.refl _ t

theorem lockSwapTimeout_frames (s : State) : Frames (mask (fldsOf .lockSwapTimeout)) s (execLockSwapTimeout s) :=
  run_frames (by simp) fun t => by simp

theorem lockReleaseTimeout_frames (s : State) : Frames (mask (fldsOf .lockReleaseTimeout)) s (execLockReleaseTimeout s)
    := by
  unfold execLockReleaseTimeout
  split
  · exact run_frames (by simp) fun t => by simp
  · exact runAny_frames (by simp) fun t => Same.refl _ t

/-! ### What is left: firmware -/

theorem expertExpire_frames (s : State) : Frames (mask (fldsOf .expertExpire)) s (execExpertExpire s) := by
  unfold execExpertExpire
  split
  · exact run_frames (by simp) fun t => by simp
  · exact runAny_frames (by simp) fun t => Same.refl _ t

theorem fwHeartbeat_frames (s : State) : Frames (mask (fldsOf .fwHeartbeat)) s (execFwHeartbeat s) := by
  refine run_frames (by simp) fun t => ?_
  dsimp only
  split <;> simp

theorem fwWdogExpire_frames (s : State) : Frames (mask (fldsOf .fwWdogExpire)) s (execFwWdogExpire s) :=
  run_frames (by simp) fun t => by simp

theorem fwAccessViolation_frames (x : FwAccess) (s : State) : Frames (mask (fldsOf (.fwAccessViolation x))) s
    (execFwAccessViolation x s) :=
  run_frames (by simp) fun t => by simp

/-! ### What is left: the mailbox -/

theorem i2cTransactionEnd_frames (c : Nat) (r : I2cEnd) (s : State) : Frames (mask (fldsOf (.i2cTransactionEnd c r))) s
    (execI2cTransactionEnd c r s) := by
  unfold execI2cTransactionEnd
  split
  · exact run_frames (by simp) fun t => by simp
  · exact runAny_frames (by simp) fun t => Same.refl _ t

theorem i2cStretchTimeout_frames (c n : Nat) (s : State) : Frames (mask (fldsOf (.i2cStretchTimeout c n))) s
    (execI2cStretchTimeout c n s) := by
  unfold execI2cStretchTimeout
  split
  · exact run_frames (by simp) fun t => by simp
  · exact runAny_frames (by simp) fun t => Same.refl _ t

theorem mbInfo_frames (s : State) : Frames (mask (fldsOf .mbInfo)) s (execMbInfo s) :=  mbRow_frames (by simp) fun t o ws
    h => by simp [State.mbDo, h]

theorem mbNonce_frames (s : State) : Frames (mask (fldsOf .mbNonce)) s (execMbNonce s) :=  mbRow_frames (by simp) fun t o
    ws h => by simp [State.mbDo, h]

theorem mbExpertOn_frames (s : State) : Frames (mask (fldsOf .mbExpertOn)) s (execMbExpertOn s) :=  mbRow_frames (by
    simp) fun t o ws h => by simp [State.mbDo, h]

theorem mbExpertOff_frames (s : State) : Frames (mask (fldsOf .mbExpertOff)) s (execMbExpertOff s) :=  mbRow_frames (by
    simp) fun t o ws h => by simp [State.mbDo, h]

theorem mbFwBegin_frames (s : State) : Frames (mask (fldsOf .mbFwBegin)) s (execMbFwBegin s) :=  mbRow_frames (by simp)
    fun t o ws h => by simp [State.mbDo, h]

theorem mbFwChunk_frames (s : State) : Frames (mask (fldsOf .mbFwChunk)) s (execMbFwChunk s) :=  mbRow_frames (by simp)
    fun t o ws h => by simp [State.mbDo, h]

theorem mbFwCommit_frames (s : State) : Frames (mask (fldsOf .mbFwCommit)) s (execMbFwCommit s) :=  mbRow_frames (by
    simp) fun t o ws h => by simp [State.mbDo, h]

theorem mbImgBegin_frames (s : State) : Frames (mask (fldsOf .mbImgBegin)) s (execMbImgBegin s) :=  mbRow_frames (by
    simp) fun t o ws h => by simp [State.mbDo, h]

theorem mbImgChunk_frames (s : State) : Frames (mask (fldsOf .mbImgChunk)) s (execMbImgChunk s) :=  mbRow_frames (by
    simp) fun t o ws h => by simp [State.mbDo, h]

theorem mbImgApplyStart_frames (s : State) : Frames (mask (fldsOf .mbImgApplyStart)) s (execMbImgApplyStart s) := by
  refine mbRowOf_frames (by simp) fun t o ws h => ?_
  simp only [Bool.and_eq_true, decide_eq_true_eq] at h
  simp [State.mbDo, h]

theorem mbImgApplyStageLocal_frames (s : State) : Frames (mask (fldsOf .mbImgApplyStageLocal)) s
    (execMbImgApplyStageLocal s) := by
  refine mbRowOf_frames (by simp) fun t o ws h => ?_
  simp only [Bool.and_eq_true, decide_eq_true_eq] at h
  simp [State.mbDo, h]

theorem mbImgApplyStageDomain_frames (s : State) : Frames (mask (fldsOf .mbImgApplyStageDomain)) s
    (execMbImgApplyStageDomain s) := by
  refine mbRowOf_frames (by simp) fun t o ws h => ?_
  simp only [Bool.and_eq_true, decide_eq_true_eq] at h
  simp [State.mbDo, h]

theorem mbImgDrop_frames (s : State) : Frames (mask (fldsOf .mbImgDrop)) s (execMbImgDrop s) :=  mbRow_frames (by simp)
    fun t o ws h => by simp [State.mbDo, h]

theorem mbTableSwap_frames (s : State) : Frames (mask (fldsOf .mbTableSwap)) s (execMbTableSwap s) :=  mbRow_frames (by
    simp) fun t o ws h => by simp [State.mbDo, h]

theorem mbTakeover_frames (s : State) : Frames (mask (fldsOf .mbTakeover)) s (execMbTakeover s) :=  mbRow_frames (by
    simp) fun t o ws h => by simp [State.mbDo, h]

theorem mbAbort_frames (s : State) : Frames (mask (fldsOf .mbAbort)) s (execMbAbort s) :=  mbRow_frames (by simp) fun t o
    ws h => by simp [State.mbDo, h]

theorem mbHalt_frames (s : State) : Frames (mask (fldsOf .mbHalt)) s (execMbHalt s) :=  mbRow_frames (by simp) fun t o ws
    h => by simp [State.mbDo, h]

theorem mbRelease_frames (s : State) : Frames (mask (fldsOf .mbRelease)) s (execMbRelease s) :=  mbRow_frames (by simp)
    fun t o ws h => by simp [State.mbDo, h]

theorem mbFltAck_frames (s : State) : Frames (mask (fldsOf .mbFltAck)) s (execMbFltAck s) :=  mbRow_frames (by simp) fun
    t o ws h => by simp [State.mbDo, h]

theorem mbEnable_frames (s : State) : Frames (mask (fldsOf .mbEnable)) s (execMbEnable s) :=  mbRow_frames (by simp) fun
    t o ws h => by simp [State.mbDo, h]

theorem mbFence_frames (s : State) : Frames (mask (fldsOf .mbFence)) s (execMbFence s) :=  mbRow_frames (by simp) fun t o
    ws h => by simp [State.mbDo, h]

theorem mbStartDone_frames (s : State) : Frames (mask (fldsOf .mbStartDone)) s (execMbStartDone s) :=  mbRow_frames (by
    simp) fun t o ws h => by simp [State.mbDo, h]

theorem mbI2c_frames (s : State) : Frames (mask (fldsOf .mbI2c)) s (execMbI2c s) := by
  refine mbRowOf_frames (by simp) fun t o ws h => ?_
  simp only [Bool.and_eq_true, decide_eq_true_eq] at h
  simp [State.mbDo, h]

theorem mbTimeRead_frames (s : State) : Frames (mask (fldsOf .mbTimeRead)) s (execMbTimeRead s) := by
  refine mbRowOf_frames (by simp) fun t o ws h => ?_
  simp only [Bool.and_eq_true, decide_eq_true_eq] at h
  simp [State.mbDo, State.mbTime, h]

theorem mbTimeSet_frames (s : State) : Frames (mask (fldsOf .mbTimeSet)) s (execMbTimeSet s) := by
  refine mbRowOf_frames (by simp) fun t o ws h => ?_
  simp only [Bool.and_eq_true, decide_eq_true_eq] at h
  simp [State.mbDo, h]

theorem mbRemote_frames (s : State) : Frames (mask (fldsOf .mbRemote)) s (execMbRemote s) :=  mbRow_frames (by simp) fun
    t o ws h => by simp [State.mbDo, h]

theorem mbPeek_frames (s : State) : Frames (mask (fldsOf .mbPeek)) s (execMbPeek s) :=  mbRow_frames (by simp) fun t o ws
    h => by simp [State.mbDo, h]

theorem mbPoke_frames (s : State) : Frames (mask (fldsOf .mbPoke)) s (execMbPoke s) :=  mbRow_frames (by simp) fun t o ws
    h => by simp [State.mbDo, h]

theorem mbDiag_frames (s : State) : Frames (mask (fldsOf .mbDiag)) s (execMbDiag s) :=  mbRow_frames (by simp) fun t o ws
    h => by simp [State.mbDo, h]

theorem mbBadCmd_frames (s : State) : Frames (mask (fldsOf .mbBadCmd)) s (execMbBadCmd s) := by
  have refused (r : MbReq) (hr : ∀ o, mbRefusal s.mc.mode o r.words ≠ none) :
      Same (mask (fldsOf .mbBadCmd)) { s with out := [] } (({ s with out := [] } : State).mbStart r) :=
    State.mbStart_frame _ r (by simp) fun _ o h => absurd h (hr o)
  unfold execMbBadCmd
  dsimp only
  split
  · next r _ =>
    cases hc : mbCmd (reqCmd r.words) with
    | none => exact run_frame (by simp) (refused r fun o => by simp [mbRefusal, hc])
    | some c =>
      by_cases hs : c.served s.mc.mode = true
      · simp only [hs]
        exact Frames.next (Same.with_old_pending (by simp))
      · exact run_frame (by simp) (refused r fun o => by simp [mbRefusal, hc, hs])
  · exact run_frames (by simp) fun t => Same.refl _ t

theorem mbTimeout_frames (s : State) : Frames (mask (fldsOf .mbTimeout)) s (execMbTimeout s) := by
  unfold execMbTimeout
  dsimp only
  split <;> exact run_frames (by simp) fun t => by simp

theorem kernelCall_frames (words : List Word) (s : State) : Frames (mask (fldsOf (.kernelCall words))) s (execKernelCall
    words s) :=
  run_frames (by simp) fun t => by simp

theorem mbReqRemote_frames (i : Nat) (s : State) : Frames (mask (fldsOf (.mbReqRemote i))) s (execMbReqRemote i s) :=
  mgtRow_frames (by simp) fun t h => by simp

/-- Every command answers a state that differs in no field but those named for it. -/
theorem exec_frames (c : Instr) (s : State) : Framed c s := by
  cases c with
  | pwrOkFall => exact pwrOkFall_frames s
  | pwrOkRise => exact pwrOkRise_frames s
  | rstNFall => exact rstNFall_frames s
  | rstNRise => exact rstNRise_frames s
  | selfCheckDone r => exact selfCheckDone_frames r s
  | warmResetRequest a => exact warmResetRequest_frames a s
  | warmResetProper => exact warmResetProper_frames s
  | tapExtest v => exact tapExtest_frames v s
  | tapSamplePreload v => exact tapSamplePreload_frames v s
  | tapClamp => exact tapClamp_frames s
  | tapWir => exact tapWir_frames s
  | tapWdr chain => exact tapWdr_frames chain s
  | tapIjtag => exact tapIjtag_frames s
  | tapScan => exact tapScan_frames s
  | tapBypass code => exact tapBypass_frames code s
  | wrapperMode w mode => exact wrapperMode_frames w mode s
  | ijtagBist array => exact ijtagBist_frames array s
  | ijtagFuse f => exact ijtagFuse_frames f s
  | ijtagLaneLb t on => exact ijtagLaneLb_frames t on s
  | cpWord port w crc => exact cpWord_frames port w crc s
  | channelEnable k a => exact channelEnable_frames k a s
  | channelOn k => exact channelOn_frames k s
  | channelDisable k a => exact channelDisable_frames k a s
  | resume k a => exact resume_frames k a s
  | scalarWrite k j a => exact scalarWrite_frames k j a s
  | crConsWrite k a => exact crConsWrite_frames k a s
  | latchedRead off par => exact latchedRead_frames off par s
  | nop k => exact nop_frames k s
  | put k => exact put_frames k s
  | get k => exact get_frames k s
  | copy k => exact copy_frames k s
  | atom k => exact atom_frames k s
  | allReduce k => exact allReduce_frames k s
  | reduceScatter k => exact reduceScatter_frames k s
  | allGather k => exact allGather_frames k s
  | broadcast k => exact broadcast_frames k s
  | reduce k => exact reduce_frames k s
  | a2aCap k => exact a2aCap_frames k s
  | barrier k => exact barrier_frames k s
  | scalarAr k => exact scalarAr_frames k s
  | waitCmd k => exact waitCmd_frames k s
  | signal k => exact signal_frames k s
  | fence k => exact fence_frames k s
  | repeatLoop k => exact repeatLoop_frames k s
  | endLoop k => exact endLoop_frames k s
  | branch k => exact branch_frames k s
  | loadsImm k => exact loadsImm_frames k s
  | loadsMem k => exact loadsMem_frames k s
  | loadsTally k => exact loadsTally_frames k s
  | loadsAdd k => exact loadsAdd_frames k s
  | mark k => exact mark_frames k s
  | trace k => exact trace_frames k s
  | badOp k => exact badOp_frames k s
  | fragmentIssue k => exact fragmentIssue_frames k s
  | completionRecordWrite k => exact completionRecordWrite_frames k s
  | channelHang k => exact channelHang_frames k s
  | shapeCommit e a => exact shapeCommit_frames e a s
  | tallyWrite n a => exact tallyWrite_frames n a s
  | watchArm w a => exact watchArm_frames w a s
  | watchDisarm w a => exact watchDisarm_frames w a s
  | watchEventEnqueue w => exact watchEventEnqueue_frames w s
  | atcFlush a => exact atcFlush_frames a s
  | atcHoldExpire g => exact atcHoldExpire_frames g s
  | atomicPerform => exact atomicPerform_frames s
  | pfenceSet a => exact pfenceSet_frames a s
  | pfenceLift a => exact pfenceLift_frames a s
  | raLoad port x => exact raLoad_frames port x s
  | raStore port x => exact raStore_frames port x s
  | raRspTaken port => exact raRspTaken_frames port s
  | raLoadTimeout port tag => exact raLoadTimeout_frames port tag s
  | hmReadIssue port => exact hmReadIssue_frames port s
  | hmWriteIssue port => exact hmWriteIssue_frames port s
  | hmReadBeat port b => exact hmReadBeat_frames port b s
  | hmWriteResponse port r => exact hmWriteResponse_frames port r s
  | hmTimeout port isWr tag => exact hmTimeout_frames port isWr tag s
  | eventTaken => exact eventTaken_frames s
  | lbWriteResponse sts => exact lbWriteResponse_frames sts s
  | wr j => exact wr_frames j s
  | rd j => exact rd_frames j s
  | rdRelay j => exact rdRelay_frames j s
  | raLd j => exact raLd_frames j s
  | raSt j => exact raSt_frames j s
  | atomPacket j => exact atomPacket_frames j s
  | signalPacket j => exact signalPacket_frames j s
  | wrRsp j => exact wrRsp_frames j s
  | rdData j => exact rdData_frames j s
  | rdRsp j => exact rdRsp_frames j s
  | rlyData j => exact rlyData_frames j s
  | raData j => exact raData_frames j s
  | raRsp j => exact raRsp_frames j s
  | atomRsp j => exact atomRsp_frames j s
  | sigRsp j => exact sigRsp_frames j s
  | colAck j => exact colAck_frames j s
  | colReady j => exact colReady_frames j s
  | colData j => exact colData_frames j s
  | colSlot j => exact colSlot_frames j s
  | colDone j => exact colDone_frames j s
  | colRel j => exact colRel_frames j s
  | collAbort j => exact collAbort_frames j s
  | mbReqRemote j => exact mbReqRemote_frames j s
  | mbReqSpare j => exact mbReqSpare_frames j s
  | treeStage j => exact treeStage_frames j s
  | treeSeal j => exact treeSeal_frames j s
  | treeReady j => exact treeReady_frames j s
  | treeRefused j => exact treeRefused_frames j s
  | treeLock j => exact treeLock_frames j s
  | treeCount j => exact treeCount_frames j s
  | treeReport j => exact treeReport_frames j s
  | treeSwap j => exact treeSwap_frames j s
  | treeSwapped j => exact treeSwapped_frames j s
  | treeRelease j => exact treeRelease_frames j s
  | mbRsp j => exact mbRsp_frames j s
  | assist j => exact assist_frames j s
  | assistRsp j => exact assistRsp_frames j s
  | mgtResendTimeout mseq => exact mgtResendTimeout_frames mseq s
  | packetHop place j x => exact packetHop_frames place j x s
  | reinIncrease k => exact reinIncrease_frames k s
  | towEnable t a => exact towEnable_frames t a s
  | towStarted t => exact towStarted_frames t s
  | towDisable t a => exact towDisable_frames t a s
  | towStall t => exact towStall_frames t s
  | lockDrainTimeout => exact lockDrainTimeout_frames s
  | epochHoldExpire => exact epochHoldExpire_frames s
  | lockSwapTimeout => exact lockSwapTimeout_frames s
  | linkEnable p a => exact linkEnable_frames p a s
  | linkDisable p a => exact linkDisable_frames p a s
  | linkRetrainWrite p a => exact linkRetrainWrite_frames p a s
  | linkParam p => exact linkParam_frames p s
  | linkParamSend p => exact linkParamSend_frames p s
  | teamDrop p => exact teamDrop_frames p s
  | teamAdd p => exact teamAdd_frames p s
  | retrain p => exact retrain_frames p s
  | haltMark p => exact haltMark_frames p s
  | haltRel p => exact haltRel_frames p s
  | abortFlit p => exact abortFlit_frames p s
  | beacon p => exact beacon_frames p s
  | beaconRsp p => exact beaconRsp_frames p s
  | seqFlitReceive p f => exact seqFlitReceive_frames p f s
  | tagReceive p f => exact tagReceive_frames p f s
  | replayTimeout p => exact replayTimeout_frames p s
  | linkTrainTimeout p => exact linkTrainTimeout_frames p s
  | retrainTimeout p => exact retrainTimeout_frames p s
  | linkDrainTimeout p => exact linkDrainTimeout_frames p s
  | lnkInjArm p a => exact lnkInjArm_frames p a s
  | trainingFrame t j f => exact trainingFrame_frames t j f s
  | fomUpdate t foms => exact fomUpdate_frames t foms s
  | mirrorReq t lmw => exact mirrorReq_frames t lmw s
  | mirrorAck t lmw => exact mirrorAck_frames t lmw s
  | spareCompareDone t ok => exact spareCompareDone_frames t ok s
  | forwardedClockLoss t => exact forwardedClockLoss_frames t s
  | clockHoldoverEnd t => exact clockHoldoverEnd_frames t s
  | laneSilent t j => exact laneSilent_frames t j s
  | tagLockLoss t => exact tagLockLoss_frames t s
  | teamRetryTimer t => exact teamRetryTimer_frames t s
  | teamRetry t a => exact teamRetry_frames t a s
  | teamSwap t a => exact teamSwap_frames t a s
  | prbsMode t a => exact prbsMode_frames t a s
  | prbsClr t a => exact prbsClr_frames t a s
  | harnessSeal a => exact harnessSeal_frames a s
  | i2cWrite c a => exact i2cWrite_frames c a s
  | i2cRead c a => exact i2cRead_frames c a s
  | i2cReadCur c a => exact i2cReadCur_frames c a s
  | i2cTransactionEnd c r => exact i2cTransactionEnd_frames c r s
  | i2cStretchTimeout c n => exact i2cStretchTimeout_frames c n s
  | faultTaken => exact faultTaken_frames s
  | quietExpire code inst => exact quietExpire_frames code inst s
  | fltAck a => exact fltAck_frames a s
  | railInvalidTimeout line => exact railInvalidTimeout_frames line s
  | farrierProbe ok => exact farrierProbe_frames ok s
  | scrub x => exact scrub_frames x s
  | startDone a => exact startDone_frames a s
  | crecClr a => exact crecClr_frames a s
  | fltInjArm a => exact fltInjArm_frames a s
  | fltInjDisarm a => exact fltInjDisarm_frames a s
  | recovExpire => exact recovExpire_frames s
  | ruEnable a => exact ruEnable_frames a s
  | ruDisable a => exact ruDisable_frames a s
  | ruSpareDesignate a => exact ruSpareDesignate_frames a s
  | ruFaultedClear u a => exact ruFaultedClear_frames u a s
  | ruSelfTestDone u ok => exact ruSelfTestDone_frames u ok s
  | ruCombine u g j err => exact ruCombine_frames u g j err s
  | ruInjArm a => exact ruInjArm_frames a s
  | pktInjArm a => exact pktInjArm_frames a s
  | portHang p => exact portHang_frames p s
  | vcHang p v => exact vcHang_frames p v s
  | hportHang inst => exact hportHang_frames inst s
  | abortGo a => exact abortGo_frames a s
  | generationStep => exact generationStep_frames s
  | genWrite a => exact genWrite_frames a s
  | abortPairExpire pkey gen => exact abortPairExpire_frames pkey gen s
  | portFence a => exact portFence_frames a s
  | mcWdogExpire => exact mcWdogExpire_frames s
  | farrierOpenPorts => exact farrierOpenPorts_frames s
  | farrierTakeback a => exact farrierTakeback_frames a s
  | farrierStatus => exact farrierStatus_frames s
  | farrierPeek => exact farrierPeek_frames s
  | farrierAbort => exact farrierAbort_frames s
  | farrierFence => exact farrierFence_frames s
  | farrierOpen => exact farrierOpen_frames s
  | farrierResetMc => exact farrierResetMc_frames s
  | farrierWarmReset => exact farrierWarmReset_frames s
  | farrierHalt => exact farrierHalt_frames s
  | farrierRelease => exact farrierRelease_frames s
  | farrierBadCmd => exact farrierBadCmd_frames s
  | haltGo a => exact haltGo_frames a s
  | haltRelease a => exact haltRelease_frames a s
  | halted => exact halted_frames s
  | haltTimeout => exact haltTimeout_frames s
  | snapSelect a => exact snapSelect_frames a s
  | mbInfo => exact mbInfo_frames s
  | mbNonce => exact mbNonce_frames s
  | mbExpertOn => exact mbExpertOn_frames s
  | mbExpertOff => exact mbExpertOff_frames s
  | mbFwBegin => exact mbFwBegin_frames s
  | mbFwChunk => exact mbFwChunk_frames s
  | mbFwCommit => exact mbFwCommit_frames s
  | fwHeartbeat => exact fwHeartbeat_frames s
  | fwWdogExpire => exact fwWdogExpire_frames s
  | fwAccessViolation x => exact fwAccessViolation_frames x s
  | kernelCall words => exact kernelCall_frames words s
  | mbImgBegin => exact mbImgBegin_frames s
  | mbImgChunk => exact mbImgChunk_frames s
  | mbImgApplyStart => exact mbImgApplyStart_frames s
  | mbImgApplyStageLocal => exact mbImgApplyStageLocal_frames s
  | mbImgApplyStageDomain => exact mbImgApplyStageDomain_frames s
  | mbImgDrop => exact mbImgDrop_frames s
  | mbTableSwap => exact mbTableSwap_frames s
  | mbTakeover => exact mbTakeover_frames s
  | mbAbort => exact mbAbort_frames s
  | mbHalt => exact mbHalt_frames s
  | mbRelease => exact mbRelease_frames s
  | mbFltAck => exact mbFltAck_frames s
  | mbEnable => exact mbEnable_frames s
  | mbFence => exact mbFence_frames s
  | mbStartDone => exact mbStartDone_frames s
  | mbI2c => exact mbI2c_frames s
  | mbTimeRead => exact mbTimeRead_frames s
  | mbTimeSet => exact mbTimeSet_frames s
  | mbRemote => exact mbRemote_frames s
  | mbPeek => exact mbPeek_frames s
  | mbPoke => exact mbPoke_frames s
  | mbDiag => exact mbDiag_frames s
  | mbBadCmd => exact mbBadCmd_frames s
  | mbTimeout => exact mbTimeout_frames s
  | expertExpire => exact expertExpire_frames s
  | beaconInterval => exact beaconInterval_frames s
  | gaitInterval mean inst => exact gaitInterval_frames mean inst s
  | lifeSecond => exact lifeSecond_frames s
  | ccntLatch k snap par => exact ccntLatch_frames k snap par s
  | logEnable n a => exact logEnable_frames n a s
  | logStarted n => exact logStarted_frames n s
  | logDisable n a => exact logDisable_frames n a s
  | logFlush n a => exact logFlush_frames n a s
  | logPadTimeout n => exact logPadTimeout_frames n s
  | logDrainWrite n => exact logDrainWrite_frames n s
  | logDrainTimeout n => exact logDrainTimeout_frames n s
  | logwinSelect a => exact logwinSelect_frames a s
  | cmapInterval => exact cmapInterval_frames s
  | lifeSnap a => exact lifeSnap_frames a s
  | lifeOpen a => exact lifeOpen_frames a s
  | lifeCommit a => exact lifeCommit_frames a s
  | registerWrite off a => exact registerWrite_frames off a s
  | faultStaticToggle => exact faultStaticToggle_frames s
  | mcWatchdogWrite => exact mcWatchdogWrite_frames s
  | laneManagementWord t => exact laneManagementWord_frames t s
  | prbsCheckerLock t j errs => exact prbsCheckerLock_frames t j errs s
  | tagLock p => exact tagLock_frames p s
  | lockReleaseTimeout => exact lockReleaseTimeout_frames s

end Sys2Proof.Machine

namespace Sys2Proof.Machine

/-! ## Frames as equations -/

/-- `t` with the fields outside of `m` as they are in `s`. -/
def merge (m : Nat) (s t : State) : State where
    pending := cond (Nat.beq (Fld.bit .pending &&& m) 0) s.pending t.pending
    out := cond (Nat.beq (Fld.bit .out &&& m) 0) s.out t.out
    free := cond (Nat.beq (Fld.bit .free &&& m) 0) s.free t.free
    now := cond (Nat.beq (Fld.bit .now &&& m) 0) s.now t.now
    tod := cond (Nat.beq (Fld.bit .tod &&& m) 0) s.tod t.tod
    ident := cond (Nat.beq (Fld.bit .ident &&& m) 0) s.ident t.ident
    pfence := cond (Nat.beq (Fld.bit .pfence &&& m) 0) s.pfence t.pfence
    rg := cond (Nat.beq (Fld.bit .rg &&& m) 0) s.rg t.rg
    wshadow := cond (Nat.beq (Fld.bit .wshadow &&& m) 0) s.wshadow t.wshadow
    rshadow := cond (Nat.beq (Fld.bit .rshadow &&& m) 0) s.rshadow t.rshadow
    chans := cond (Nat.beq (Fld.bit .chans &&& m) 0) s.chans t.chans
    cpHeld := cond (Nat.beq (Fld.bit .cpHeld &&& m) 0) s.cpHeld t.cpHeld
    scal := cond (Nat.beq (Fld.bit .scal &&& m) 0) s.scal t.scal
    tally := cond (Nat.beq (Fld.bit .tally &&& m) 0) s.tally t.tally
    watch := cond (Nat.beq (Fld.bit .watch &&& m) 0) s.watch t.watch
    atc := cond (Nat.beq (Fld.bit .atc &&& m) 0) s.atc t.atc
    eng := cond (Nat.beq (Fld.bit .eng &&& m) 0) s.eng t.eng
    hm := cond (Nat.beq (Fld.bit .hm &&& m) 0) s.hm t.hm
    ra := cond (Nat.beq (Fld.bit .ra &&& m) 0) s.ra t.ra
    streams := cond (Nat.beq (Fld.bit .streams &&& m) 0) s.streams t.streams
    ev := cond (Nat.beq (Fld.bit .ev &&& m) 0) s.ev t.ev
    inj := cond (Nat.beq (Fld.bit .inj &&& m) 0) s.inj t.inj
    pseq := cond (Nat.beq (Fld.bit .pseq &&& m) 0) s.pseq t.pseq
    eject := cond (Nat.beq (Fld.bit .eject &&& m) 0) s.eject t.eject
    tbl := cond (Nat.beq (Fld.bit .tbl &&& m) 0) s.tbl t.tbl
    tows := cond (Nat.beq (Fld.bit .tows &&& m) 0) s.tows t.tows
    reins := cond (Nat.beq (Fld.bit .reins &&& m) 0) s.reins t.reins
    rrUsed := cond (Nat.beq (Fld.bit .rrUsed &&& m) 0) s.rrUsed t.rrUsed
    draws := cond (Nat.beq (Fld.bit .draws &&& m) 0) s.draws t.draws
    counts := cond (Nat.beq (Fld.bit .counts &&& m) 0) s.counts t.counts
    links := cond (Nat.beq (Fld.bit .links &&& m) 0) s.links t.links
    flt := cond (Nat.beq (Fld.bit .flt &&& m) 0) s.flt t.flt
    ccnt := cond (Nat.beq (Fld.bit .ccnt &&& m) 0) s.ccnt t.ccnt
    logs := cond (Nat.beq (Fld.bit .logs &&& m) 0) s.logs t.logs
    lbOut := cond (Nat.beq (Fld.bit .lbOut &&& m) 0) s.lbOut t.lbOut
    groups := cond (Nat.beq (Fld.bit .groups &&& m) 0) s.groups t.groups
    rus := cond (Nat.beq (Fld.bit .rus &&& m) 0) s.rus t.rus
    ruGone := cond (Nat.beq (Fld.bit .ruGone &&& m) 0) s.ruGone t.ruGone
    berths := cond (Nat.beq (Fld.bit .berths &&& m) 0) s.berths t.berths
    teams := cond (Nat.beq (Fld.bit .teams &&& m) 0) s.teams t.teams
    phys := cond (Nat.beq (Fld.bit .phys &&& m) 0) s.phys t.phys
    i2c := cond (Nat.beq (Fld.bit .i2c &&& m) 0) s.i2c t.i2c
    abort := cond (Nat.beq (Fld.bit .abort &&& m) 0) s.abort t.abort
    halt := cond (Nat.beq (Fld.bit .halt &&& m) 0) s.halt t.halt
    far := cond (Nat.beq (Fld.bit .far &&& m) 0) s.far t.far
    mons := cond (Nat.beq (Fld.bit .mons &&& m) 0) s.mons t.mons
    mc := cond (Nat.beq (Fld.bit .mc &&& m) 0) s.mc t.mc
    ts := cond (Nat.beq (Fld.bit .ts &&& m) 0) s.ts t.ts
    life := cond (Nat.beq (Fld.bit .life &&& m) 0) s.life t.life
    cmap := cond (Nat.beq (Fld.bit .cmap &&& m) 0) s.cmap t.cmap
    pwr := cond (Nat.beq (Fld.bit .pwr &&& m) 0) s.pwr t.pwr

/-- What `Same` says of two states, as one equation. -/
theorem Same.eq_merge {m : Nat} {s t : State} (h : Same m s t) : t = merge m s t := by
  have of_same {α : Type} {x y : α} {n : Nat} (hxy : n = 0 → x = y) : y = cond (Nat.beq n 0) x y := by
    cases hn : Nat.beq n 0
    · rfl
    · exact (hxy (Nat.eq_of_beq_eq_true hn)).symm
  unfold merge
  rw [State.mk.injEq]
  exact ⟨of_same (h .pending), of_same (h .out), of_same (h .free), of_same (h .now), of_same (h .tod), of_same (h
    .ident), of_same (h .pfence), of_same (h .rg), of_same (h .wshadow), of_same (h .rshadow), of_same (h .chans),
    of_same (h .cpHeld), of_same (h .scal), of_same (h .tally), of_same (h .watch), of_same (h .atc), of_same (h .eng),
    of_same (h .hm), of_same (h .ra), of_same (h .streams), of_same (h .ev), of_same (h .inj), of_same (h .pseq), of_same
    (h .eject), of_same (h .tbl), of_same (h .tows), of_same (h .reins), of_same (h .rrUsed), of_same (h .draws), of_same
    (h .counts), of_same (h .links), of_same (h .flt), of_same (h .ccnt), of_same (h .logs), of_same (h .lbOut), of_same
    (h .groups), of_same (h .rus), of_same (h .ruGone), of_same (h .berths), of_same (h .teams), of_same (h .phys),
    of_same (h .i2c), of_same (h .abort), of_same (h .halt), of_same (h .far), of_same (h .mons), of_same (h .mc),
    of_same (h .ts), of_same (h .life), of_same (h .cmap), of_same (h .pwr)⟩

/-- Settles O58, by the frame of each command. -/
theorem fabricCommandsFrame : Obligations.FabricCommandsFrame := by
  intro c s t h
  have hm : t = merge (mask (fldsOf c)) s t := (exec_frames c s t h).eq_merge
  cases c
  case packetHop | reinIncrease | towEnable | towDisable | towStarted | towStall | linkEnable | linkDisable |
    linkRetrainWrite | linkParam | linkTrainTimeout | retrainTimeout | linkDrainTimeout | linkParamSend | beacon |
    teamDrop | fomUpdate | mirrorAck | spareCompareDone | forwardedClockLoss | clockHoldoverEnd | laneSilent |
    tagLockLoss | teamAdd | tagLock | retrain | haltMark | haltRel | abortFlit | beaconRsp | seqFlitReceive |
    tagReceive | replayTimeout | lnkInjArm | ruEnable | ruDisable | ruSpareDesignate | ruFaultedClear | ruInjArm |
    pktInjArm | trainingFrame | mirrorReq | prbsCheckerLock | teamRetryTimer | laneManagementWord | teamRetry |
    teamSwap | prbsMode | prbsClr | harnessSeal | i2cWrite | i2cRead | i2cReadCur | i2cTransactionEnd |
    i2cStretchTimeout | ruSelfTestDone | ruCombine | faultStaticToggle | mcWatchdogWrite =>
    dsimp only [fldsOf] at hm
    exact hm
  all_goals rfl

/-- Settles O59, by the frame of each command. -/
theorem faultCommandsFrame : Obligations.FaultCommandsFrame := by
  intro c s t h
  have hm : t = merge (mask (fldsOf c)) s t := (exec_frames c s t h).eq_merge
  cases c
  case faultTaken | quietExpire | fltAck | railInvalidTimeout | farrierProbe | scrub | startDone | lifeSnap |
    lifeOpen | lifeCommit | crecClr | fltInjArm | fltInjDisarm | snapSelect | logwinSelect | recovExpire |
    portHang | vcHang | hportHang | abortGo | generationStep | genWrite | abortPairExpire | portFence |
    mcWdogExpire | farrierOpenPorts | farrierTakeback | farrierStatus | farrierBadCmd | farrierPeek | farrierAbort |
    farrierFence | farrierOpen | farrierResetMc | farrierWarmReset | farrierHalt | farrierRelease | haltGo |
    haltRelease | halted | haltTimeout | gaitInterval | lifeSecond | ccntLatch | logEnable | logDisable | logFlush |
    logStarted | logPadTimeout | logDrainWrite | logDrainTimeout | cmapInterval =>
    dsimp only [fldsOf] at hm
    exact hm
  all_goals rfl

/-- Settles O60, by the frame of each command. -/
theorem coreCommandsFrame : Obligations.CoreCommandsFrame := by
  intro c s t h
  have hm : t = merge (mask (fldsOf c)) s t := (exec_frames c s t h).eq_merge
  cases c
  case mbReqRemote | kernelCall | mbReqSpare | mbImgApplyStart | mbImgApplyStageLocal | mbImgApplyStageDomain |
    mbPoke | registerWrite | treeStage | treeSeal | treeLock | treeCount | treeSwap | treeRelease | treeReady |
    treeRefused | treeReport | treeSwapped | mbRsp | mgtResendTimeout | lockDrainTimeout | mbTableSwap |
    mbTakeover | lockReleaseTimeout | assist | assistRsp | epochHoldExpire | lockSwapTimeout | mbInfo | mbExpertOn |
    mbExpertOff | mbFwBegin | mbFwChunk | mbFwCommit | mbImgBegin | mbImgChunk | mbI2c | mbTimeRead | mbRemote |
    mbDiag | mbBadCmd | mbNonce | fwHeartbeat | mbTimeout | fwWdogExpire | fwAccessViolation | mbImgDrop | mbAbort |
    mbFltAck | mbHalt | mbRelease | mbEnable | mbFence | mbStartDone | mbTimeSet | mbPeek | expertExpire |
    beaconInterval =>
    dsimp only [fldsOf] at hm
    exact hm
  all_goals rfl

/-- What commands of channels, host ports and packets change: the first part of O57. -/
theorem exec_restChannels (c : Instr) (s t : State) (h : exec c s = .next t) : t = restChannels c s t := by
  have hm : t = merge (mask (fldsOf c)) s t := (exec_frames c s t h).eq_merge
  cases c
  case cpWord | channelEnable | channelDisable | resume | channelOn | scalarWrite | crConsWrite | latchedRead |
    nop | put | get | copy | waitCmd | fence | repeatLoop | endLoop | branch | loadsImm | loadsTally | loadsAdd |
    mark | trace | badOp | atom | signal | loadsMem | allReduce | reduceScatter | allGather | broadcast | reduce |
    a2aCap | barrier | scalarAr | fragmentIssue | completionRecordWrite | channelHang | shapeCommit | tallyWrite |
    watchArm | watchDisarm | watchEventEnqueue | atcFlush | atcHoldExpire | atomicPerform | pfenceSet | pfenceLift |
    raLoad | raStore | raRspTaken | raLoadTimeout | hmReadIssue | hmWriteIssue | hmReadBeat | hmWriteResponse |
    hmTimeout | eventTaken | lbWriteResponse | wr | rd | rdRelay | rlyData | raLd | raSt | atomPacket |
    signalPacket | wrRsp | rdData | rdRsp | raData | raRsp | atomRsp | sigRsp | colAck | colReady | colData |
    colSlot | colDone | colRel | collAbort =>
    dsimp only [fldsOf] at hm
    exact hm
  all_goals rfl

end Sys2Proof.Machine

namespace Sys2Proof.Machine

/-! ## The step -/

/-- Settles O1: the step's equation on a queue with a front. -/
theorem stepRunsFrontCommand : Obligations.StepRunsFrontCommand := by
  intro s c rest hq
  simp only [step, hq]

/-- What a cycle changes beyond the time. -/
theorem State.cyclePasses_same (s : State) :
    Same (mask (.rus :: leadFlds)) (if s.alive then s.watchHost else s).tick s.cyclePasses := by
  unfold State.cyclePasses
  generalize (if s.alive then s.watchHost else s).tick = t
  dsimp only
  split
  · simp
  · split
    · simp
    · rfl

/-- The state that a cycle finds differs from `s` in the marks of the monitors. -/
theorem State.watchHost_if_same (s : State) : Same (mask [.mons]) s (if s.alive then s.watchHost else s) := by
  split <;> simp

theorem State.cyclePasses_now (s : State) : s.cyclePasses.now = s.now + 1 := by
  rw [← s.cyclePasses_same .now rfl, s.watchHost_if_same .now rfl]
  rfl

/-- Settles O2, by what a cycle leaves. -/
theorem idleStepPassesOneCycle : Obligations.IdleStepPassesOneCycle := by
  intro s hq
  refine ⟨{ s.cyclePasses with pending := [] }, ?_, rfl, s.cyclePasses_now⟩
  simp only [step, hq]

/-! ## PKEY and the form of the tallies -/

/-- Every field but the identity of the block and the tallies. -/
def keyFreeFlds : List Fld := [.pending, .out, .free, .now, .tod, .pfence, .rg, .wshadow, .rshadow, .chans, .cpHeld,
  .scal, .watch, .atc, .eng, .hm, .ra, .streams, .ev, .inj, .pseq, .eject, .tbl, .tows, .reins, .rrUsed, .draws,
  .counts, .links, .flt, .ccnt, .logs, .lbOut, .groups, .rus, .ruGone, .berths, .teams, .phys, .i2c, .abort, .halt,
  .far, .mons, .mc, .ts, .life, .cmap, .pwr]
@[simp] theorem bits_keyFreeFlds : bits keyFreeFlds = 0x7FFFFFFFFDFDF := rfl

/-- What leaves the identity and the tallies keeps their two invariants. -/
theorem State.KeyAndTallies.of_same {s t : State} (h : Same (mask keyFreeFlds) s t) (hs : s.KeyAndTallies) :
    t.KeyAndTallies := by
  rw [State.KeyAndTallies, ← h .ident rfl, ← h .tally rfl]
  exact hs

theorem State.setTally_keyAndTallies {s : State} (n : Nat) (v : BitVec 48) (hs : s.KeyAndTallies) :
    (s.setTally n v).KeyAndTallies := by
  have hset : (s.setTallyRaw n v).KeyAndTallies := ⟨hs.1, SMap.set_wf n v hs.2⟩
  exact hset.of_same (by simp [State.setTally])

theorem State.wrTallyHi_keyAndTallies {s : State} (n : Nat) (d : Word) (hs : s.KeyAndTallies) :
    (s.wrTallyHi n d).KeyAndTallies := State.setTally_keyAndTallies n _ hs

theorem State.addTally_keyAndTallies {s : State} (n v : Nat) (hs : s.KeyAndTallies) :
    (s.addTally n v).KeyAndTallies := by
  refine State.setTally_keyAndTallies n _ (hs.of_same ?_)
  split <;> simp

/-! ### The block's own writes -/

theorem State.writeServed_keyAndTallies {s : State} (p : Packet) (n : Nat) (err : Bool) (hs : s.KeyAndTallies) :
    (s.writeServed p n err).KeyAndTallies := by
  unfold State.writeServed
  split
  · exact hs.of_same (by simp)
  · split
    · exact hs.of_same (by simp)
    · refine State.KeyAndTallies.of_same (by simp) (s := if p.ten ∧ n ≠ 0 then s.addTally p.tally n else s) ?_
      split
      · exact State.addTally_keyAndTallies _ _ hs
      · exact hs

theorem State.getWritten_keyAndTallies {s : State} (k ord : Nat) (fr : Frag) (poison : Bool) (n : Nat) (err : Bool)
    (hs : s.KeyAndTallies) : (s.getWritten k ord fr poison n err).KeyAndTallies := by
  unfold State.getWritten
  split
  · exact hs
  · next f _ =>
    extract_lets s1 s2
    have h1 : s1.KeyAndTallies := hs.of_same (by simp [s1])
    have h2 : s2.KeyAndTallies := by
      unfold s2
      split
      · exact State.addTally_keyAndTallies _ _ h1
      · exact h1
    exact h2.of_same (by simp)

theorem State.collWritten_keyAndTallies {s : State} (g : Nat) (seq : HWord) (kind : Nat) (gb : List (Nat × Nat)) (addr : Nat)
    (ack : Option Packet) (ok : Bool) (hs : s.KeyAndTallies) :
    (s.collWritten g seq kind gb addr ack ok).KeyAndTallies := by
  have inst (t : State) (c : CollInst → CollInst) (ht : t.KeyAndTallies) : (t.modInst g c).KeyAndTallies := ht.of_same (by simp)
  unfold State.collWritten
  extract_lets s0
  have h0 : s0.KeyAndTallies := by
    unfold s0
    split
    · exact hs.of_same (by simp)
    · exact hs
  split
  · exact h0
  · split
    · exact h0
    · have h1 := inst s0 (fun c => { c with writes := c.writes - 1 }) h0
      split
      · exact inst _ _ h1
      · split
        · exact inst _ _ h1
        · split
          split
          · split
            · exact inst _ _ h1
            · exact State.addTally_keyAndTallies _ _ (inst _ _ h1)
          · exact inst _ _ h1

theorem State.writeDone_keyAndTallies {s : State} (j : WrJob) (hs : s.KeyAndTallies) : (s.writeDone j).KeyAndTallies := by
  unfold State.writeDone
  split
  case h_1 => exact State.writeServed_keyAndTallies _ _ _ hs
  case h_2 => exact State.getWritten_keyAndTallies _ _ _ _ _ _ hs
  case h_6 g seq kind gb addr ack _ =>
    exact (State.collWritten_keyAndTallies g seq kind gb addr ack (!j.err) hs).of_same (by simp)
  all_goals exact hs.of_same (by simp)

theorem State.writePart_keyAndTallies {s : State} (id : Nat) (err : Bool) (hs : s.KeyAndTallies) :
    (s.writePart id err).KeyAndTallies := by
  unfold State.writePart
  split
  · exact hs
  · next j _ =>
    extract_lets j' e t
    split
    · split
      · exact State.writeDone_keyAndTallies _ hs
      · exact hs
    · exact hs

/-! ### Writes of DX_PART and of the registers -/

theorem State.KeyAndTallies.with_gen {s : State} (gen : Byte) (hs : s.KeyAndTallies) :
    ({ s with ident := { s.ident with gen := gen } } : State).KeyAndTallies := hs

theorem State.genEffects_keyAndTallies {s : State} (gen : Byte) (hs : s.KeyAndTallies) :
    (s.genEffects gen).KeyAndTallies := by
  unfold State.genEffects
  extract_lets s1 s2 ident s3 s4 s5 abort
  have h2 : s2.KeyAndTallies := hs.of_same (by simp [s2, s1])
  clear_value s2
  have h3 : s3.KeyAndTallies := (State.KeyAndTallies.with_gen gen h2).of_same (by simp [s3, ident])
  clear_value s3
  have h4 : s4.KeyAndTallies := h3.of_same (by simp [s4])
  clear_value s4
  exact h4.of_same ((Same.with_abort (by simp)).mpr (by simp [s5]))

theorem State.stepNow_keyAndTallies {s : State} (hs : s.KeyAndTallies) : s.stepNow.KeyAndTallies := by
  unfold State.stepNow
  split
  · exact hs
  · next x rest _ =>
    extract_lets s1 a s2 s3
    have h1 : s1.KeyAndTallies := (State.genEffects_keyAndTallies x.gen hs).of_same (by simp [s1])
    clear_value s1
    have h2 : s2.KeyAndTallies := h1.of_same ((Same.with_abort (by simp)).mpr (Same.refl _ s1))
    clear_value s2
    have h3 : s3.KeyAndTallies := h2.of_same (by unfold s3; split <;> simp)
    exact h3.of_same (by split <;> simp)

/-- What DX_PART takes for PKEY is never the reserved key (R22). -/
theorem State.wrPart_keyAndTallies {s : State} (priv : Bool) (d : Word) (hs : s.KeyAndTallies) :
    (s.wrPart priv d).KeyAndTallies := by
  unfold State.wrPart
  split
  · exact hs
  · extract_lets k gen i c s1 x a s2
    have h1 : s1.KeyAndTallies := by
      unfold s1
      split
      · exact hs
      · next hk =>
        refine ⟨fun heq => hk ?_, hs.2⟩
        have hlt : k < 2 ^ 16 := Nat.mod_lt _ (by decide)
        have hn := congrArg BitVec.toNat heq
        rwa [BitVec.toNat_ofNat, Nat.mod_eq_of_lt hlt] at hn
    split
    · split
      · exact State.stepNow_keyAndTallies (s := s2) h1
      · exact h1
    · exact h1

theorem State.writeLow_keyAndTallies {s : State} (off : Nat) (priv : Bool) (d : Word) (hs : s.KeyAndTallies) :
    (s.writeLow off priv d).KeyAndTallies := by
  have chip : (s.wrChip priv d).KeyAndTallies := by
    unfold State.wrChip
    split
    · have hid : State.KeyAndTallies { s with ident :=
          { s.ident with chip := BitVec.ofNat 18 d.toNat, valid := d.toNat.testBit 31 } } := hs
      exact hid.of_same (by simp)
    · exact hs
  have limit (hi : Bool) : (s.wrPartLim hi priv d).KeyAndTallies := by
    unfold State.wrPartLim
    split
    · cases hi <;> exact hs
    · exact hs
  unfold State.writeLow
  split
  case h_5 =>
    by_cases h100 : off = 0x100
    · simpa [h100] using chip
    · by_cases h108 : off = 0x108
      · simpa [h108] using State.wrPart_keyAndTallies priv d hs
      · by_cases h10C : off = 0x10C
        · simpa [h10C] using limit false
        · by_cases h110 : off = 0x110
          · simpa [h110] using limit true
          · refine hs.of_same ?_
            simp [h100, h108, h10C, h110]
  all_goals exact hs.of_same (by simp)

theorem State.writeReg_keyAndTallies {s : State} (off : Nat) (priv : Bool) (d : Word) (hs : s.KeyAndTallies) :
    (s.writeReg off priv d).KeyAndTallies := by
  by_cases hlow : off < 0x1000
  · simpa [State.writeReg, hlow] using State.writeLow_keyAndTallies off priv d hs
  · by_cases ht : 0x10000 ≤ off ∧ off < 0x20000 ∧ off % 8 ≠ 0
    · obtain ⟨hlo, hhi, hodd⟩ := ht
      have hn (n : Nat) (h : n ≤ 0x10000) : ¬ off < n := by omega
      simpa [State.writeReg, hlow, hn, hhi, hodd] using State.wrTallyHi_keyAndTallies _ d hs
    · refine hs.of_same ?_
      simp only [State.writeReg, hlow, if_false]
      repeat' split
      case isTrue.isFalse => omega
      all_goals simp

/-! ### The mailbox -/

/-- A run over a list that stops at the first error keeps a predicate that each of its good steps keeps. -/
theorem foldl_ok_keeps {α : Type} (P : State → Prop) {f : Except Nat State → α → Except Nat State}
    (herr : ∀ i x, f (.error i) x = .error i) (hok : ∀ t x u, P t → f (.ok t) x = .ok u → P u) (l : List α) (s t : State)
    (hs : P s) (h : l.foldl f (.ok s) = .ok t) : P t := by
  induction l generalizing s with
  | nil => exact Except.ok.inj h ▸ hs
  | cons x xs ih =>
    rw [List.foldl_cons] at h
    cases hx : f (.ok s) x with
    | error i =>
      rw [hx, List.foldl_fixed' (herr i)] at h
      cases h
    | ok u =>
      rw [hx] at h
      exact ih u (hok s x u hs hx) h


/-- Records are made by register writes. -/
theorem State.writeRecs_keyAndTallies {s t : State} {cls : Nat} {rs : List (Rec × Nat)} (hs : s.KeyAndTallies)
    (h : s.writeRecs cls rs = .ok t) : t.KeyAndTallies := by
  refine foldl_ok_keeps State.KeyAndTallies (fun _ _ => rfl) (fun t r u ht hr => ?_) rs s t hs h
  dsimp only at hr
  split at hr
  · exact Except.ok.inj hr ▸ ht
  · refine foldl_ok_keeps State.KeyAndTallies (fun _ _ => rfl) (fun v e w hv he => ?_) _ t u ht hr
    dsimp only at he
    split at he
    · cases he
    · cases he
      exact State.writeReg_keyAndTallies _ _ _ hv

theorem State.applyStart_keyAndTallies {s : State} (who : Asker) (m : Image) (rs : List (Rec × Nat))
    (hs : s.KeyAndTallies) : (s.applyStart who m rs).KeyAndTallies := by
  unfold State.applyStart
  split
  · exact hs.of_same (by simp)
  · split
    · exact hs.of_same (by simp)
    · next t ht =>
      have h1 := State.writeRecs_keyAndTallies hs ht
      split
      · exact hs.of_same (by simp)
      · next u hu => exact (State.writeRecs_keyAndTallies h1 hu).of_same (by simp)

theorem State.applyLocal_keyAndTallies {s : State} (who : Asker) (m : Image) (rs : List (Rec × Nat))
    (hs : s.KeyAndTallies) : (s.applyLocal who m rs).KeyAndTallies := by
  unfold State.applyLocal
  dsimp only
  split
  · exact hs.of_same (by simp)
  · split
    · exact hs.of_same (by simp)
    · split
      · exact hs.of_same (by simp)
      · next u hu =>
        refine State.KeyAndTallies.of_same (by simp) (State.writeRecs_keyAndTallies (hs.of_same ?_) hu)
        simp

theorem State.mbImgApply_keyAndTallies {s : State} (who : Asker) (ws : List Word) (hs : s.KeyAndTallies) :
    (s.mbImgApply who ws).KeyAndTallies := by
  have done (st : Nat) : (s.imgDone who st).KeyAndTallies := hs.of_same (by simp)
  have refused (i : Option Nat) : (s.imgRefused who i).KeyAndTallies := hs.of_same (by simp)
  unfold State.mbImgApply
  split
  · exact done _
  · split
    · exact done _
    · split
      · exact refused _
      · split
        · exact refused _
        · dsimp only
          split
          · exact refused _
          · split
            · exact State.applyStart_keyAndTallies _ _ _ hs
            · exact State.applyLocal_keyAndTallies _ _ _ hs
            · exact hs.of_same (by simp)

theorem State.mbPoke_keyAndTallies {s : State} (who : Asker) (ws : List Word) (hs : s.KeyAndTallies) :
    (s.mbPoke who ws).KeyAndTallies := by
  unfold State.mbPoke
  dsimp only
  split
  · exact hs.of_same (by simp)
  · have hw := State.writeReg_keyAndTallies (arg ws 1) true (ws.getD 2 0) hs
    exact hw.of_same (by simp)

/-- The mailbox writes registers by MB_IMG_APPLY and MB_POKE only. -/
theorem State.mbDo_keyAndTallies {s : State} (who : Asker) (o : Bool) (ws : List Word) (hs : s.KeyAndTallies) :
    (s.mbDo who o ws).KeyAndTallies := by
  unfold State.mbDo
  split
  case h_10 => exact State.mbImgApply_keyAndTallies who ws hs
  case h_25 => exact State.mbPoke_keyAndTallies who ws hs
  all_goals exact hs.of_same (by simp)

theorem State.mbPerform_keyAndTallies {s : State} (who : Asker) (m : McMode) (o : Bool) (ws : List Word)
    (hs : s.KeyAndTallies) : (s.mbPerform who m o ws).KeyAndTallies := by
  unfold State.mbPerform
  split
  · exact hs.of_same (by simp)
  · exact State.mbDo_keyAndTallies who o ws hs

theorem State.mbStart_keyAndTallies {s : State} (r : MbReq) (hs : s.KeyAndTallies) : (s.mbStart r).KeyAndTallies := by
  refine State.mbPerform_keyAndTallies _ _ _ _ (hs.of_same ?_)
  simp

theorem foldl_keyAndTallies {α : Type} {f : State → α → State} (hf : ∀ t x, t.KeyAndTallies → (f t x).KeyAndTallies)
    (l : List α) {s : State} (hs : s.KeyAndTallies) : (l.foldl f s).KeyAndTallies :=
  List.foldlRecOn l f hs fun t ht x _ => hf t x ht

theorem State.spareHere_keyAndTallies {s : State} (p : Packet) (ws : List Word) (hs : s.KeyAndTallies) :
    (s.spareHere p ws).KeyAndTallies := by
  have write (t : State) (off : Nat) (d : Word) (ht : t.KeyAndTallies) : (t.writeReg off true d).KeyAndTallies :=
    State.writeReg_keyAndTallies _ _ _ ht
  unfold State.spareHere
  extract_lets w s1 gs s2 mc s3
  split
  · have h1 : s1.KeyAndTallies := write _ _ _ (write _ _ _ (write _ _ _ hs))
    have h2 : s2.KeyAndTallies := write _ _ _ (foldl_keyAndTallies (fun t g ht => write _ _ _ ht) gs h1)
    clear_value s2
    have h3 : s3.KeyAndTallies := h2.of_same ((Same.with_mc (by simp)).mpr (Same.refl _ s2))
    split
    · exact h3
    · exact h3.of_same (by simp)
  · split
    · exact hs
    · refine foldl_keyAndTallies (fun t r ht => foldl_keyAndTallies (fun u e hu => ?_) _ ht) _ hs
      split
      · exact write _ _ _ hu
      · exact hu

/-! ### What every command does to them -/

/-- Where `s` has the two invariants, every state that `o` answers has them. -/
def KeepsForm (s : State) (o : Out) : Prop := s.KeyAndTallies → ∀ t, o = .next t → t.KeyAndTallies

section

variable {s : State} {ok : Bool}

theorem KeepsForm.of_frames {l : List Fld} {o : Out} (h : Frames (mask l) s o) (hl : Has (mask keyFreeFlds) l) :
    KeepsForm s o := fun hs t ho => hs.of_same ((h t ho).mono hl)

theorem runAny_keepsForm {f : State → State} (h : ∀ t, t.KeyAndTallies → (f t).KeyAndTallies) :
    KeepsForm s (runAny s ok f) := by
  intro hs t ho
  obtain rfl := Host.Outcome.next.inj ho
  cases ok
  · exact hs
  · exact h _ hs

theorem run_keepsForm {f : State → State} (h : ∀ t, t.KeyAndTallies → (f t).KeyAndTallies) : KeepsForm s (run s ok f) :=
  runAny_keepsForm h

theorem State.regWrite_keyAndTallies {off : Nat} {a : RgAcc} {al : Bool} {f : State → Bool → Word → State}
    (h : ∀ t p d, t.KeyAndTallies → (f t p d).KeyAndTallies) (hs : s.KeyAndTallies) :
    (s.regWrite off a f al).KeyAndTallies := by
  have hi : (s.takeInj 0x27 0).2.KeyAndTallies := hs.of_same (by simp)
  unfold State.regWrite
  split
  · exact h _ _ _ hs
  · dsimp only
    split
    · exact hi.of_same (by simp)
    · split
      · exact hi.of_same (by simp)
      · have hf := h _ (s.takeInj 0x27 0).2.expert a.data hi
        exact hf.of_same (by simp)

theorem regCmd_keepsForm {off : Nat} {a : RgAcc} {al : Bool} {f : State → Bool → Word → State}
    (h : ∀ t p d, t.KeyAndTallies → (f t p d).KeyAndTallies) : KeepsForm s (regCmd s ok off a f al) := by
  unfold regCmd
  split
  · exact run_keepsForm fun t ht => State.regWrite_keyAndTallies h ht
  · exact runAny_keepsForm fun t ht => ht.of_same (by simp)

theorem State.take_keyAndTallies {i : Nat} {body : State → Held → State}
    (h : ∀ t x, t.KeyAndTallies → (body t x).KeyAndTallies) (hs : s.KeyAndTallies) : (s.take i body).KeyAndTallies := by
  unfold State.take
  split
  · exact hs
  · next x _ =>
    have hc : (({ s with eject := dropAt s.eject i } : State).checked x).2.KeyAndTallies := hs.of_same (by simp)
    dsimp only
    split
    · exact hc
    · split
      · next hu => exact hc.of_same ((State.fenceAnswer_same hu).mono (by simp))
      · exact h _ _ hc

theorem mgtRow_keepsForm {i : Nat} {sel : Nat → Nat → Bool} {body : State → Held → State}
    (h : ∀ t x, t.KeyAndTallies → (body t x).KeyAndTallies) : KeepsForm s (mgtRow i sel body s) := by
  refine run_keepsForm fun t ht => State.take_keyAndTallies (fun u x hu => ?_) ht
  split
  · exact hu.of_same (by simp)
  · split
    · exact hu.of_same (by simp)
    · exact h u x hu

theorem mbRowOf_keepsForm {sel : List Word → Bool} : KeepsForm s (mbRowOf sel s) := by
  unfold mbRowOf
  split
  · exact run_keepsForm fun t ht => State.mbStart_keyAndTallies _ ht
  · exact run_keepsForm fun t ht => ht

theorem mbRow_keepsForm {cmd : Nat} : KeepsForm s (mbRow cmd s) := mbRowOf_keepsForm

theorem execSignalPacket_keepsForm (i : Nat) : KeepsForm s (execSignalPacket i s) := by
  refine run_keepsForm fun t ht => State.take_keyAndTallies (fun u x hu => ?_) ht
  have ha := State.addTally_keyAndTallies x.pkt.tally (qf x.pkt.h5 0 48) hu
  exact ha.of_same (by simp)

theorem execHmWriteResponse_keepsForm (p : Nat) (x : WrRsp) : KeepsForm s (execHmWriteResponse p x s) := by
  refine run_keepsForm fun t ht => ?_
  dsimp only
  split
  · exact ht.of_same (by simp)
  · split
    · refine State.writePart_keyAndTallies _ _ (ht.of_same ?_)
      simp
    · split <;> exact ht.of_same (by simp)

theorem execHmTimeout_keepsForm (p : Nat) (isWr : Bool) (tag : Nat) : KeepsForm s (execHmTimeout p isWr tag s) := by
  refine run_keepsForm fun t ht => ?_
  split
  · split
    · exact State.writePart_keyAndTallies _ _ (ht.of_same (by simp))
    · exact ht
  · split
    · exact ht.of_same (by simp)
    · exact ht

theorem execMbReqRemote_keepsForm (i : Nat) : KeepsForm s (execMbReqRemote i s) := by
  refine mgtRow_keepsForm fun t x ht => ?_
  dsimp only
  split
  · exact ht.of_same (by simp)
  · split
    · exact ht
    · split
      · exact ht.of_same (by simp)
      · split
        · exact ht
        · exact State.mbPerform_keyAndTallies _ _ _ _ ht

theorem execMbReqSpare_keepsForm (i : Nat) : KeepsForm s (execMbReqSpare i s) :=
  mgtRow_keepsForm fun _ _ ht => State.spareHere_keyAndTallies _ _ (ht.of_same (by simp))

/-! ### Resets -/

theorem State.base_keyAndTallies (s : State) : s.base.KeyAndTallies := 
  ⟨(by decide : State.reset.ident.pkey ≠ 0xFFFF), SMap.nil_wf _⟩

theorem State.afterCold_keyAndTallies (s : State) : s.afterCold.KeyAndTallies := by
  unfold State.afterCold
  extract_lets fatal base flt far life pwr t
  have ht : t.KeyAndTallies := s.base_keyAndTallies
  split
  · exact ht
  · clear_value t
    exact ht.of_same (by simp)

theorem State.afterWarm_keyAndTallies (s : State) : s.afterWarm.KeyAndTallies := by
  unfold State.afterWarm
  extract_lets base flt log far core pwr t t1 t2 t3
  have ht : t.KeyAndTallies := s.base_keyAndTallies
  clear_value t
  exact ht.of_same (by simp [t3, t2, t1])

theorem execPwrOkFall_keepsForm : KeepsForm s (execPwrOkFall s) := by
  refine runAny_keepsForm fun t _ => ?_
  have hb (p : Power) : ({ t.base with pwr := p } : State).KeyAndTallies := t.base_keyAndTallies
  exact (hb _).of_same ((State.resetPins_same _ (by simp)).mpr (Same.refl _ _))

theorem execTapScan_keepsForm : KeepsForm s (execTapScan s) := by
  refine runAny_keepsForm fun t ht => ?_
  extract_lets base u pwr
  have hu : u.KeyAndTallies := by
    unfold u
    split
    · exact t.base_keyAndTallies
    · exact ht
  clear_value u
  exact hu.of_same (by simp)

theorem execSelfCheckDone_keepsForm (r : SelfCheck) : KeepsForm s (execSelfCheckDone r s) := by
  unfold execSelfCheckDone
  split
  · next warm _ =>
    refine runAny_keepsForm fun t ht => ?_
    extract_lets st pwr t0 pwr' t1 t2 t3 t4
    split
    · exact ht
    · clear_value pwr'
      have h0 : t0.KeyAndTallies := by
        unfold t0
        split
        · exact t.afterWarm_keyAndTallies
        · split
          · exact t.base_keyAndTallies
          · exact t.afterCold_keyAndTallies
      clear_value t0
      have h1 : t1.KeyAndTallies := h0
      clear_value t1
      have h2 : t2.KeyAndTallies := h1.of_same (by unfold t2; split <;> simp)
      have h4 : t4.KeyAndTallies := h2.of_same (by unfold t4; split <;> simp [t3])
      exact h4.of_same (by simp)
  · exact runAny_keepsForm fun _ ht => ht

end

theorem exec_keepsForm (c : Instr) (s : State) : KeepsForm s (exec c s) := by
  cases c
  case pwrOkFall => exact execPwrOkFall_keepsForm
  case tapScan => exact execTapScan_keepsForm
  case selfCheckDone r => exact execSelfCheckDone_keepsForm r
  case signalPacket i => exact execSignalPacket_keepsForm i
  case hmWriteResponse p x => exact execHmWriteResponse_keepsForm p x
  case hmTimeout p w tag => exact execHmTimeout_keepsForm p w tag
  case mbReqRemote i => exact execMbReqRemote_keepsForm i
  case mbReqSpare i => exact execMbReqSpare_keepsForm i
  case tallyWrite n a => exact regCmd_keepsForm fun _ _ _ ht => State.wrTallyHi_keyAndTallies _ _ ht
  case genWrite a => exact regCmd_keepsForm fun _ _ _ ht => State.wrPart_keyAndTallies _ _ ht
  case registerWrite off a => exact regCmd_keepsForm fun _ _ _ ht => State.writeReg_keyAndTallies _ _ _ ht
  case generationStep => exact run_keepsForm fun _ ht => State.stepNow_keyAndTallies ht
  case kernelCall ws => exact run_keepsForm fun _ ht => State.mbPerform_keyAndTallies _ _ _ _ ht
  case mbImgApplyStart | mbImgApplyStageLocal | mbImgApplyStageDomain =>
    dsimp only [exec]
    exact mbRowOf_keepsForm
  case mbPoke => exact mbRow_keepsForm
  all_goals exact .of_frames (exec_frames _ s) (by simp)

/-- Settles O56, by what each command does to the two and by what a cycle leaves. -/
theorem keyAndTallyFormAreKept : Obligations.KeyAndTallyFormAreKept := by
  intro s t hs h
  unfold step at h
  split at h
  · obtain rfl := Host.Outcome.next.inj h
    have hm : (if s.alive then s.watchHost else s).KeyAndTallies := hs.of_same (s.watchHost_if_same.mono (by simp))
    have ht : (if s.alive then s.watchHost else s).tick.KeyAndTallies := hm
    have hc : s.cyclePasses.KeyAndTallies := ht.of_same (s.cyclePasses_same.mono (by simp))
    exact hc
  · next c rest _ =>
    have hp : ({ s with pending := rest } : State).KeyAndTallies := hs
    exact exec_keepsForm c _ hp t h

end Sys2Proof.Machine

namespace Sys2Proof.Machine

/-! ## Every command answers -/

/-- The outcome is a next state. -/
def IsNext (o : Out) : Prop := ∃ t, o = .next t

theorem runAny_isNext {s : State} {ok : Bool} {f : State → State} : IsNext (runAny s ok f) := ⟨_, rfl⟩

theorem run_isNext {s : State} {ok : Bool} {f : State → State} : IsNext (run s ok f) := ⟨_, rfl⟩

theorem regCmd_isNext {s : State} {ok : Bool} {off : Nat} {a : RgAcc} {f : State → Bool → Word → State} {al : Bool} :
    IsNext (regCmd s ok off a f al) := by
  unfold regCmd
  split
  · exact run_isNext
  · exact runAny_isNext

theorem readCmd_isNext {s : State} {ok : Bool} {off : Nat} {par : Bool} : IsNext (readCmd s ok off par) := by
  unfold readCmd
  split
  · exact run_isNext
  · exact runAny_isNext

theorem mbRowOf_isNext {s : State} {sel : List Word → Bool} : IsNext (mbRowOf sel s) := by
  unfold mbRowOf
  split <;> exact run_isNext

theorem mbRow_isNext {s : State} {cmd : Nat} : IsNext (mbRow cmd s) := mbRowOf_isNext

theorem exec_isNext (c : Instr) (s : State) : IsNext (exec c s) := by
  cases c
  case warmResetRequest | channelEnable | channelDisable | resume | scalarWrite | crConsWrite | shapeCommit |
    tallyWrite | watchArm | watchDisarm | atcFlush | pfenceSet | pfenceLift | towEnable | towDisable |
    linkEnable | linkDisable | linkRetrainWrite | lnkInjArm | teamRetry | teamSwap | prbsMode | prbsClr |
    harnessSeal | i2cWrite | i2cRead | i2cReadCur | fltAck | startDone | crecClr | fltInjArm | fltInjDisarm |
    ruEnable | ruDisable | ruSpareDesignate | ruFaultedClear | ruInjArm | pktInjArm | abortGo | genWrite |
    portFence | farrierTakeback | haltGo | haltRelease | snapSelect | logEnable | logDisable | logFlush |
    logwinSelect | lifeSnap | lifeOpen | lifeCommit | registerWrite => exact regCmd_isNext
  case latchedRead | ccntLatch => exact readCmd_isNext
  case mbInfo | mbNonce | mbExpertOn | mbExpertOff | mbFwBegin | mbFwChunk | mbFwCommit | mbImgBegin |
    mbImgChunk | mbImgDrop | mbTableSwap | mbTakeover | mbAbort | mbHalt | mbRelease | mbFltAck | mbEnable |
    mbFence | mbStartDone | mbRemote | mbPeek | mbPoke | mbDiag => exact mbRow_isNext
  case mbImgApplyStart | mbImgApplyStageLocal | mbImgApplyStageDomain | mbI2c | mbTimeRead | mbTimeSet =>
    dsimp only [exec]
    exact mbRowOf_isNext
  case selfCheckDone r =>
    dsimp only [exec, execSelfCheckDone]
    split <;> exact runAny_isNext
  case scrub x =>
    dsimp only [exec, execScrub]
    split <;> exact run_isNext
  case mgtResendTimeout mseq =>
    dsimp only [exec, execMgtResendTimeout]
    split <;> exact run_isNext
  case lockDrainTimeout =>
    dsimp only [exec, execLockDrainTimeout]
    split <;> exact run_isNext
  case lockReleaseTimeout =>
    dsimp only [exec, execLockReleaseTimeout]
    split <;> exact run_isNext
  case i2cTransactionEnd k r =>
    dsimp only [exec, execI2cTransactionEnd]
    split <;> exact run_isNext
  case i2cStretchTimeout k n =>
    dsimp only [exec, execI2cStretchTimeout]
    split <;> exact run_isNext
  case expertExpire =>
    dsimp only [exec, execExpertExpire]
    split <;> exact run_isNext
  case mbBadCmd =>
    dsimp only [exec, execMbBadCmd]
    split <;> exact run_isNext
  case mbTimeout =>
    dsimp only [exec, execMbTimeout]
    split <;> exact run_isNext
  all_goals exact ⟨_, rfl⟩

/-- Settles O3, by the form of each command and by its frame, in which the queue does not stand. -/
theorem everyCommandAnswersAndKeepsTheQueue : Obligations.EveryCommandAnswersAndKeepsTheQueue := by
  intro c s
  obtain ⟨t, ht⟩ := exec_isNext c s
  have hq : Has (mask allFlds) (fldsOf c) := by cases c <;> simp
  exact ⟨t, ht, (((exec_frames c s t ht).mono hq) .pending rfl).symm⟩

/-! ## The commands of the pins and of test access -/

theorem execTapScan_frames_of_field {s : State} (h : s.pwr.field = false) :
    Frames (mask [.out, .tows, .links, .phys, .pwr]) s (execTapScan s) := by
  refine runAny_frame (by simp) ((State.tap_same _ _ (by simp)).mpr ((Same.with_pwr (by simp)).mpr ?_))
  rw [if_neg (by simp [h])]

/-- Settles O7, by the frame of each command. -/
theorem pinAndTestCommandsFrame : Obligations.PinAndTestCommandsFrame := by
  refine ⟨fun s t c hc h => ?_, fun s t c hc h => ?_⟩
  · have hl : Has (mask [.out, .pwr, .free]) (fldsOf c) := by
      obtain rfl | rfl | ⟨_, rfl⟩ | ⟨_, rfl⟩ | ⟨_, _, rfl⟩ := hc <;> simp
    exact ((exec_frames c s t h).mono hl).eq_merge
  · have hm : Same (mask [.out, .pwr, .free, .links, .phys, .tows]) s t := by
      obtain rfl | rfl | ⟨_, _, rfl⟩ | ⟨_, rfl⟩ | ⟨_, rfl⟩ | rfl | rfl | ⟨_, rfl⟩ | rfl | ⟨_, rfl⟩ | ⟨rfl, hf⟩ := hc
      case inr.inr.inr.inr.inr.inr.inr.inr.inr.inr => exact (execTapScan_frames_of_field hf t h).mono (by simp)
      all_goals exact (exec_frames _ s t h).mono (by simp)
    exact hm.eq_merge

end Sys2Proof.Machine

namespace Sys2Proof.Machine

/-! ## What a command of a channel does beyond its channel (O57)

`Local P k s t`: `t` differs from `s` in no other channel, in no scalar of another, not in the fault collector, and in no
stored register but the logbooks' counts of lost records. It is an equivalence, so that the lemma of an operation moves it
from before the operation to after it, as with `Same`. -/

/-- The registers in which a logbook counts the records it lost. -/
def IsLogLost (o : Nat) : Prop := ∃ n, n < 4 ∧ o = logReg n 0x24

/-- `t` is `s` but for channel `k`, its scalars, and what no claim about other channels reads. -/
structure Local (P : Prop) (k : Nat) (s t : State) : Prop where
  chan : ∀ j, j ≠ k → t.chan j = s.chan j
  scalar : ∀ j, j ≠ k → ∀ i, i < 8 → t.scalar j i = s.scalar j i
  flt : P → t.flt = s.flt
  reg : P → ∀ o, ¬ IsLogLost o → t.reg o = s.reg o

@[simp, refl] theorem Local.refl (P : Prop) (k : Nat) (s : State) : Local P k s s :=
  ⟨fun _ _ => rfl, fun _ _ _ _ => rfl, fun _ => rfl, fun _ _ _ => rfl⟩

theorem Local.symm {P : Prop} {k : Nat} {s t : State} (h : Local P k s t) : Local P k t s :=
  ⟨fun j hj => (h.chan j hj).symm, fun j hj i hi => (h.scalar j hj i hi).symm, fun p => (h.flt p).symm,
    fun p o ho => (h.reg p o ho).symm⟩

theorem Local.trans {P : Prop} {k : Nat} {s t u : State} (h : Local P k s t) (h' : Local P k t u) : Local P k s u :=
  ⟨fun j hj => (h'.chan j hj).trans (h.chan j hj), fun j hj i hi => (h'.scalar j hj i hi).trans (h.scalar j hj i hi),
    fun p => (h'.flt p).trans (h.flt p), fun p o ho => (h'.reg p o ho).trans (h.reg p o ho)⟩

/-- After an operation that is local to `k`, `Local k` holds just when it did before. -/
theorem Local.lift {P : Prop} {k : Nat} {s t : State} (h : Local P k s t) (s₀ : State) : Local P k s₀ t ↔ Local P k s₀ s :=
  ⟨fun h' => h'.trans h.symm, fun h' => h'.trans h⟩

/-- What leaves channels, scalars, the collector and the stored registers is local to every channel. -/
theorem Local.of_same {P : Prop} {k : Nat} {s t : State} {l : List Fld} (h : Same (mask l) s t)
    (hl : ∀ f ∈ [Fld.chans, .scal, .flt, .rg], f.bit &&& mask l = 0) : Local P k s t where
  chan j _ := congrArg (fun m => SMap.get (fun _ => Chan.reset) m j) (h .chans (hl _ (by simp))).symm
  scalar j _ i _ := congrArg (fun m => SMap.get (fun _ => (0 : Quad)) m (8 * j + i)) (h .scal (hl _ (by simp))).symm
  flt _ := (h .flt (hl _ (by simp))).symm
  reg _ o _ := congrArg (fun m => SMap.get regReset m o) (h .rg (hl _ (by simp))).symm

theorem Local.foldl {α : Type} {P : Prop} {k : Nat} {f : State → α → State} (hf : ∀ t x, Local P k t (f t x)) (l : List α) (s : State) :
    Local P k s (l.foldl f s) :=
  foldl_keeps (Local.refl P k) Local.trans f hf l s

section

variable {P : Prop} {k : Nat} {s₀ : State}

@[simp] theorem Local.with_ev {s : State} {x : EvPort} : Local P k s₀ { s with ev := x } ↔ Local P k s₀ s :=
  Local.lift (Local.of_same (l := [.ev]) (by simp) (by simp [mask])) s₀

@[simp] theorem State.modLog_local (s : State) (n : Nat) (f : Log → Log) : Local P k s₀ (s.modLog n f) ↔ Local P k s₀ s :=
  Local.lift (Local.of_same (l := [.logs]) (by simp) (by simp [mask])) s₀

@[simp] theorem State.cntStart_local (s : State) (j seq iter : Nat) : Local P k s₀ (s.cntStart j seq iter) ↔ Local P k s₀ s :=
  Local.lift (Local.of_same (l := [.ccnt]) (by simp) (by simp [mask])) s₀

@[simp] theorem State.cntStop_local (s : State) (j : Nat) : Local P k s₀ (s.cntStop j) ↔ Local P k s₀ s :=
  Local.lift (Local.of_same (l := [.ccnt]) (by simp) (by simp [mask])) s₀

@[simp] theorem State.modChan_local (s : State) (f : Chan → Chan) : Local P k s₀ (s.modChan k f) ↔ Local P k s₀ s :=
  Local.lift (s := s) (t := s.modChan k f)
    ⟨fun _ hj => SMap.get_set_other _ _ _ hj, fun _ _ _ _ => rfl, fun _ => rfl, fun _ _ _ => rfl⟩ s₀

@[simp] theorem State.modFlight_local (s : State) (ord : Nat) (f : Flight → Flight) :
    Local P k s₀ (s.modFlight k ord f) ↔ Local P k s₀ s := State.modChan_local s _

/-- The scalars of two channels stand apart. -/
theorem State.setScalar_local (s : State) {i : Nat} (v : Quad) (hi : i < 8) :
    Local P k s₀ (s.setScalar k i v) ↔ Local P k s₀ s :=
  Local.lift (s := s) (t := s.setScalar k i v)
    ⟨fun _ _ => rfl, fun _ _ _ _ => SMap.get_set_other _ _ _ (by omega), fun _ => rfl, fun _ _ _ => rfl⟩ s₀

theorem State.incReg_local (s : State) {o : Nat} (ho : IsLogLost o) : Local P k s₀ (s.incReg o) ↔ Local P k s₀ s :=
  Local.lift (s := s) (t := s.incReg o)
    ⟨fun _ _ => rfl, fun _ _ _ _ => rfl, fun _ => rfl, fun _ _ hne => SMap.get_set_other _ _ _ (by rintro rfl; exact hne ho)⟩ s₀

theorem State.logAdd_local (s : State) {n : Nat} (kind sub tag q2 q3 : Nat) (hn : n < 4) :
    Local P k s₀ (s.logAdd n kind sub tag q2 q3).1 ↔ Local P k s₀ s := by
  have ho : IsLogLost (0x32124 + 0x40 * n) := ⟨n, hn, by unfold logReg; omega⟩
  refine Local.lift ?_ s₀
  unfold State.logAdd
  dsimp only
  split
  · rfl
  · split
    · split
      · simp
      · simp [State.incReg_local _ ho]
    · simp

@[simp] theorem State.logAll_local (s : State) (src kind sub tag q2 q3 : Nat) :
    Local P k s₀ (s.logAll src kind sub tag q2 q3).1 ↔ Local P k s₀ s := by
  refine Local.lift ?_ s₀
  unfold State.logAll
  refine List.foldlRecOn (motive := fun (acc : State × List (BitVec 128)) => Local P k s acc.1) _ _ (Local.refl P k s) fun acc h n hn => ?_
  have hn4 : n < 4 := by fin_cases hn <;> decide
  dsimp only
  split
  · exact h.trans ((State.logAdd_local acc.1 _ _ _ _ _ hn4).mpr (Local.refl P k acc.1))
  · exact h

@[simp] theorem State.emitAll_local (fuel : Nat) (l : List (Option Nat × BitVec 128)) (s : State) :
    Local P k s₀ (State.emitAll fuel l s) ↔ Local P k s₀ s := by
  refine Local.lift ?_ s₀
  induction fuel generalizing l s with
  | zero => rfl
  | succ n ih =>
    match l with
    | [] => rfl
    | (src, w) :: rest =>
      unfold State.emitAll
      split
      · exact Local.trans (by simp) (ih _ _)
      · dsimp only
        exact Local.trans (by simp) (ih _ _)

@[simp] theorem State.emit_local (s : State) (w : Nat) (src : Option Nat) :
    Local P k s₀ (s.emit w src) ↔ Local P k s₀ s := State.emitAll_local _ _ s

/-- The records of a command's start and end. -/
theorem State.cmdRecords_local (s : State) (kind tag q2 q3 : Nat) :
    Local P k s₀ ([0, 1, 2, 3].foldl (fun t n =>
      if (t.log n).chmask.toNat.testBit k ∧ (t.reg (0x32104 + 0x40 * n)).toNat.testBit 1 then
        let (u, hi) := t.logAdd n kind k tag q2 q3
        if hi then u.emit (u.evLogHigh n).toNat else u
      else t) s) ↔ Local P k s₀ s := by
  refine Local.lift (List.foldlRecOn (motive := Local P k s) _ _ (Local.refl P k s) fun t h n hn => ?_) s₀
  have hn4 : n < 4 := by fin_cases hn <;> decide
  have ha := (State.logAdd_local t kind k tag q2 q3 hn4).mpr h
  dsimp only
  split
  · split
    · exact (State.emit_local _ _ _).mpr ha
    · exact ha
  · exact h

@[simp] theorem State.settleOwedN_local (n : Nat) (s : State) : Local P k s₀ (State.settleOwedN n k s) ↔ Local P k s₀ s := by
  refine Local.lift ?_ s₀
  induction n generalizing s with
  | zero => rfl
  | succ n ih =>
    unfold State.settleOwedN
    dsimp only
    split
    · rfl
    · split
      · rfl
      · split
        · exact Local.trans (by simp) (ih _)
        · split
          · rfl
          · refine Local.trans ?_ (ih _)
            split <;> simp

@[simp] theorem State.stopChan_local (s : State) (kind : StopKind) (seq status : Nat) :
    Local P k s₀ (s.stopChan k kind seq status) ↔ Local P k s₀ s :=
  Local.lift (by simp [State.stopChan]) s₀

@[simp] theorem State.complete_local (s : State) (f : Flight) (status : Nat) :
    Local P k s₀ (s.complete k f status) ↔ Local P k s₀ s := by
  refine Local.lift ?_ s₀
  unfold State.complete State.settleOwed
  extract_lets img cr o s1 s2 s3
  have h2 : Local P k s s2 := (State.cmdRecords_local _ _ _ _ _).mpr (by simp [s1])
  have h3 : Local P k s s3 := by
    unfold s3
    split
    · exact h2
    · split
      · simp [h2]
      · exact h2
  simp [h3]

@[simp] theorem State.begin_local (s : State) (w : CmdWord) : Local P k s₀ (s.begin k w).1 ↔ Local P k s₀ s :=
  (State.cmdRecords_local _ _ _ _ _).trans (by simp)

@[simp] theorem State.chanOff_local (s : State) : Local P k s₀ (s.chanOff k) ↔ Local P k s₀ s := by
  refine Local.lift ?_ s₀
  unfold State.chanOff
  dsimp only
  split <;> simp

theorem writesScalar_lt {w : CmdWord} {i : Nat} (h : writesScalar w = some i) : i < 8 := by
  have hlt (q lo : Nat) : cf w q lo 3 < 8 := Nat.mod_lt _ (by decide)
  unfold writesScalar at h
  split at h
  · cases h; exact hlt _ _
  · split at h
    · cases h; exact hlt _ _
    · split at h
      · cases h; exact hlt _ _
      · cases h

@[simp] theorem State.settleN_local (n : Nat) (s : State) : Local P k s₀ (State.settleN n k s) ↔ Local P k s₀ s := by
  refine Local.lift ?_ s₀
  induction n generalizing s with
  | zero => rfl
  | succ n ih =>
    unfold State.settleN State.settleOwed
    dsimp only
    split
    · refine Local.trans ((State.complete_local _ _ _).mpr ?_) (ih _)
      split
      · split
        · next hw =>
          split
          · exact (State.setScalar_local s _ (writesScalar_lt hw)).mpr (Local.refl P k s)
          · rfl
        · rfl
      · rfl
    · split
      · split
        · exact Local.trans (by simp) (ih _)
        · rfl
      · split <;> simp
      · rfl

@[simp] theorem State.settle_local (s : State) : Local P k s₀ (s.settle k) ↔ Local P k s₀ s := State.settleN_local _ s

@[simp] theorem State.loopLong_local (s : State) : Local P k s₀ (s.loopLong k) ↔ Local P k s₀ s :=
  Local.lift (by simp [State.loopLong]) s₀

@[simp] theorem State.branchDone_local (s : State) (status : Nat) : Local P k s₀ (s.branchDone k status) ↔ Local P k s₀ s := by
  refine Local.lift ?_ s₀
  unfold State.branchDone
  dsimp only
  split <;> simp

@[simp] theorem State.runSkip_local (n : Nat) (s : State) : Local P k s₀ (State.runSkip n k s) ↔ Local P k s₀ s := by
  refine Local.lift ?_ s₀
  induction n generalizing s with
  | zero => rfl
  | succ n ih =>
    unfold State.runSkip
    dsimp only
    split
    · generalize (if opOf _ = opRepeat then _ else _ : Nat) = depth
      split
      · simp
      · split
        · split
          · simp
          · exact Local.trans (by simp) (ih _)
        · split
          · simp
          · split
            · simp
            · exact Local.trans (by simp) (ih _)
        · split
          · simp
          · exact Local.trans (by simp) (ih _)
    · rfl

@[simp] theorem State.discardWords_local (s : State) : Local P k s₀ (s.discardWords k) ↔ Local P k s₀ s :=
  State.runSkip_local _ s

/-- Where `P` says that no injection is armed, taking one is local. -/
theorem State.takeEcc_local {s : State} (h : Local P k s₀ s) (harm : P → s₀.flt.armed = none)
    (code inst cls atype master : Nat) : Local P k s₀ (s.takeEcc code inst cls atype master).2 := by
  by_cases hs : s.flt.armed = none
  · rw [State.takeEcc_unarmed hs]
    exact h
  · have hp (p : P) : False := hs (by rw [h.flt p, harm p])
    have hm : Same (mask [.rg, .flt]) s (s.takeEcc code inst cls atype master).2 := by simp
    exact h.trans
      ⟨fun j _ => congrArg (fun m => SMap.get (fun _ => Chan.reset) m j) (hm .chans rfl).symm,
        fun j _ i _ => congrArg (fun m => SMap.get (fun _ => (0 : Quad)) m (8 * j + i)) (hm .scal rfl).symm,
        fun p => (hp p).elim, fun p => (hp p).elim⟩

theorem State.wordEcc_local {s : State} (h : Local P k s₀ s) (harm : P → s₀.flt.armed = none) (w : CmdWord) :
    Local P k s₀ (s.wordEcc k w).2 := by
  have h7 := State.takeEcc_local h harm 0x11 7 2 6 k
  unfold State.wordEcc
  dsimp only
  split <;> split
  · exact State.takeEcc_local (State.takeEcc_local h7 harm _ _ _ _ _) harm _ _ _ _ _
  · exact State.takeEcc_local h7 harm _ _ _ _ _
  · exact State.takeEcc_local h7 harm _ _ _ _ _
  · exact h7

/-- Starting a command is local to its channel where the row's body is. -/
theorem State.startCmd_local {s : State} (good : CmdWord → Bool) {body : State → Flight → State}
    (harm : P → s.flt.armed = none) (h : ∀ t f, Local P k t (body t f)) : Local P k s (s.startCmd k good body) := by
  unfold State.startCmd
  split
  · rfl
  · next w _ =>
    split
    · simp
    · have h0 := State.takeEcc_local (Local.refl P k s) harm 0x14 k 2 6 k
      have h1 := State.wordEcc_local h0 harm w
      dsimp only
      split
      · exact h0
      · rw [State.settle_local]
        generalize ((s.takeEcc 0x14 k 2 6 k).2.wordEcc k w).2 = s1 at h1 ⊢
        have hu : Local P k s (if good w && !((s.takeEcc 0x14 k 2 6 k).2.wordEcc k w).1 then
            body (s1.begin k w).1 (s1.begin k w).2 else (s1.begin k w).1.complete k (s1.begin k w).2 0x08) := by
          have hb : Local P k s (s1.begin k w).1 := (State.begin_local s1 w).mpr h1
          split
          · exact hb.trans (h _ _)
          · exact (State.complete_local _ _ _).mpr hb
        generalize (if good w && !((s.takeEcc 0x14 k 2 6 k).2.wordEcc k w).1 then _ else _ : State) = u at hu ⊢
        split
        · exact hu
        · exact (State.cntStop_local _ _).mpr hu

end

/-- Every state that `o` answers differs from `s` as a command of channel `k` may make it. -/
def ActsIn (k : Nat) (s : State) (o : Out) : Prop := ∀ t, o = .next t → Local (s.flt.armed = none) k s t

theorem run_actsIn {s : State} {ok : Bool} {k : Nat} {f : State → State}
    (h : Local (s.flt.armed = none) k { s with out := [] } (f { s with out := [] })) : ActsIn k s (run s ok f) := by
  intro t ht
  obtain rfl := Host.Outcome.next.inj ht
  have ho : Local (s.flt.armed = none) k s { s with out := [] } := Local.of_same (l := [.out]) (by simp) (by simp [mask])
  have hp (u : State) : Local (s.flt.armed = none) k u { u with pending := s.pending } :=
    Local.of_same (l := [.pending]) (by simp) (by simp [mask])
  refine Local.trans ?_ (hp _)
  split
  · exact ho.trans h
  · exact ho

theorem chanCmd_actsIn {s : State} {k : Nat} {row : CmdWord → Bool} {good : State → CmdWord → Bool}
    {body : State → Flight → State} (h : ∀ t f, Local (s.flt.armed = none) k t (body t f)) :
    ActsIn k s (chanCmd k row good body s) := run_actsIn (State.startCmd_local _ id h)

@[simp] theorem State.startXfer_local {P : Prop} {k : Nat} {s₀ : State} (s : State) (f : Flight) :
    Local P k s₀ (s.startXfer k f) ↔ Local P k s₀ s := by
  refine Local.lift ?_ s₀
  unfold State.startXfer State.failAll
  dsimp only
  repeat' split
  all_goals simp

theorem State.loadsDone_local {P : Prop} {k : Nat} (s : State) (f : Flight) (v : Quad) : Local P k s (s.loadsDone k f v) :=
  (State.complete_local _ _ _).mpr ((State.setScalar_local s v (Nat.mod_lt _ (by decide))).mpr (Local.refl P k s))

theorem execTrace_actsIn {k : Nat} (s : State) : ActsIn k s (execTrace k s) := by
  refine chanCmd_actsIn fun t f => (State.complete_local _ _ _).mpr ?_
  have hn : cf f.word 1 0 2 < 4 := Nat.mod_lt _ (by decide)
  generalize cf f.word 1 0 2 = n at hn ⊢
  have ho : IsLogLost (0x32124 + 0x40 * n) := ⟨n, hn, by unfold logReg; omega⟩
  split
  · exact (State.incReg_local t ho).mpr (Local.refl _ k t)
  · split
    · rfl
    · have ha := fun kind sub tag q2 q3 => (State.logAdd_local t kind sub tag q2 q3 hn).mpr
        (Local.refl (s.flt.armed = none) k t)
      dsimp only
      split
      · exact (State.emit_local _ _ _).mpr (ha _ _ _ _ _)
      · exact ha _ _ _ _ _

theorem execNop_actsIn {k : Nat} (s : State) : ActsIn k s (execNop k s) := chanCmd_actsIn fun t f => by simp

theorem execMark_actsIn {k : Nat} (s : State) : ActsIn k s (execMark k s) := chanCmd_actsIn fun t f => by simp

theorem execPut_actsIn {k : Nat} (s : State) : ActsIn k s (execPut k s) := chanCmd_actsIn fun t f => by simp

theorem execGet_actsIn {k : Nat} (s : State) : ActsIn k s (execGet k s) := chanCmd_actsIn fun t f => by simp

theorem execCopy_actsIn {k : Nat} (s : State) : ActsIn k s (execCopy k s) := chanCmd_actsIn fun t f => by simp

theorem execLoadsImm_actsIn {k : Nat} (s : State) : ActsIn k s (execLoadsImm k s) :=
  chanCmd_actsIn fun t f => t.loadsDone_local f _

theorem execLoadsTally_actsIn {k : Nat} (s : State) : ActsIn k s (execLoadsTally k s) :=
  chanCmd_actsIn fun t f => t.loadsDone_local f _

theorem execLoadsAdd_actsIn {k : Nat} (s : State) : ActsIn k s (execLoadsAdd k s) :=
  chanCmd_actsIn fun t f => t.loadsDone_local f _

theorem execFence_actsIn {k : Nat} (s : State) : ActsIn k s (execFence k s) := chanCmd_actsIn fun t _ => Local.refl _ k t

theorem execBadOp_actsIn {k : Nat} (s : State) : ActsIn k s (execBadOp k s) :=
  run_actsIn (State.startCmd_local _ id fun t f => by simp)

theorem execWaitCmd_actsIn {k : Nat} (s : State) : ActsIn k s (execWaitCmd k s) := by
  refine chanCmd_actsIn fun t f => ?_
  repeat' split
  all_goals simp

theorem execRepeatLoop_actsIn {k : Nat} (s : State) : ActsIn k s (execRepeatLoop k s) := by
  refine chanCmd_actsIn fun t f => ?_
  dsimp only
  repeat' split
  all_goals simp

theorem execEndLoop_actsIn {k : Nat} (s : State) : ActsIn k s (execEndLoop k s) := by
  refine chanCmd_actsIn fun t f => ?_
  repeat' split
  all_goals simp

theorem execBranch_actsIn {k : Nat} (s : State) : ActsIn k s (execBranch k s) := by
  refine chanCmd_actsIn fun t f => ?_
  dsimp only
  repeat' split
  all_goals simp

theorem exec_actsIn {k : Nat} {c : Instr} (s : State) (hc : c ∈ [Instr.nop k, .mark k, .loadsImm k, .loadsTally k, .loadsAdd k,
    .fence k, .waitCmd k, .trace k, .badOp k, .repeatLoop k, .endLoop k, .branch k, .put k, .get k, .copy k]) :
    ActsIn k s (exec c s) := by
  simp only [List.mem_cons, List.not_mem_nil, or_false] at hc
  obtain rfl | rfl | rfl | rfl | rfl | rfl | rfl | rfl | rfl | rfl | rfl | rfl | rfl | rfl | rfl := hc
  · exact execNop_actsIn s
  · exact execMark_actsIn s
  · exact execLoadsImm_actsIn s
  · exact execLoadsTally_actsIn s
  · exact execLoadsAdd_actsIn s
  · exact execFence_actsIn s
  · exact execWaitCmd_actsIn s
  · exact execTrace_actsIn s
  · exact execBadOp_actsIn s
  · exact execRepeatLoop_actsIn s
  · exact execEndLoop_actsIn s
  · exact execBranch_actsIn s
  · exact execPut_actsIn s
  · exact execGet_actsIn s
  · exact execCopy_actsIn s

/-! ## Watches -/

theorem State.setWatch_other (s : State) {w v : Nat} (x : Watch) (h : v ≠ w) : (s.setWatch w x).watchOf v = s.watchOf v :=
  SMap.get_set_other _ _ _ h

theorem State.watchOf_of_same {s t : State} {l : List Fld} (h : Same (mask l) s t) (hl : Fld.watch.bit &&& mask l = 0)
    (v : Nat) : t.watchOf v = s.watchOf v :=
  congrArg (fun m => SMap.get (fun _ => Watch.reset) m v) (h .watch hl).symm

theorem State.wrWatchCtl_other (s : State) {w v : Nat} (d : Word) (h : v ≠ w) :
    (s.wrWatchCtl w d).watchOf v = s.watchOf v := by
  unfold State.wrWatchCtl
  dsimp only
  split
  · exact s.setWatch_other _ h
  · split
    · exact s.setWatch_other _ h
    · split
      · exact s.setWatch_other _ h
      · exact (State.setWatch_other _ _ h).trans (s.setWatch_other _ h)

theorem State.w1cOnly_other (s : State) {w v : Nat} (d : Word) (hw : w < 256) (h : v ≠ w) :
    (s.w1cOnly (0xA000 + 16 * w) d).watchOf v = s.watchOf v := by
  have h4 : inArr (0xA000 + 16 * w) 0x4000 0x100 64 = none := by simp only [inArr]; rw [if_neg (by omega)]
  have hA : inArr (0xA000 + 16 * w) 0xA000 16 256 = some (w, 0) := by
    simp only [inArr]
    rw [if_pos (by omega), Nat.add_sub_cancel_left, Nat.mul_div_cancel_left w (by decide), Nat.mul_mod_right]
  unfold State.w1cOnly
  simp only [h4, hA]
  exact s.setWatch_other _ h

/-- A register write whose row leaves watch `v`, at an offset where clearing W1C bits leaves it, leaves it. -/
theorem regCmd_watchOf {s t : State} {ok al : Bool} {off v : Nat} {a : RgAcc} {f : State → Bool → Word → State}
    (hf : ∀ u p d, (f u p d).watchOf v = u.watchOf v) (hw : ok = true → ∀ u d, (State.w1cOnly u off d).watchOf v = u.watchOf v)
    (h : regCmd s ok off a f al = .next t) : t.watchOf v = s.watchOf v := by
  have keep (u u' : State) (hs : Same (mask [.out, .rg, .flt]) u u') : u'.watchOf v = u.watchOf v :=
    State.watchOf_of_same hs rfl v
  have made (u : State) (ho : ok = true) : (u.regWrite off a f al).watchOf v = u.watchOf v := by
    have hi := keep u (u.takeInj 0x27 0).2 (by simp)
    unfold State.regWrite
    split
    · exact hf _ _ _
    · dsimp only
      split
      · exact (keep _ _ (by simp)).trans hi
      · refine (keep _ _ ((State.drive_same _ _ (by simp)).mpr (Same.refl _ _))).trans (Eq.trans ?_ hi)
        split
        · exact hw ho _ _
        · exact hf _ _ _
  unfold regCmd at h
  split at h
  · next ha =>
    cases hok : ok with
    | false =>
      obtain rfl := Host.Outcome.next.inj ((run_false s _).symm.trans (hok ▸ h))
      rfl
    | true =>
      rw [run_ok ha hok] at h
      obtain rfl := Host.Outcome.next.inj h
      exact made { s with out := [] } hok
  · exact keep s t (runAny_frames (by simp) (fun u => by simp) t h)

/-- Settles O57: what a command of these kinds changes, channel by channel and watch by watch. -/
theorem channelCommandsFrame : Obligations.ChannelCommandsFrame := by
  refine ⟨exec_restChannels, fun k c s t hc h => ?_, fun w a c s t hc h v hv => ?_⟩
  · have hl := exec_actsIn s hc t h
    refine ⟨fun j hj => ⟨hl.chan j hj, hl.scalar j hj⟩, fun harm o ho => hl.reg harm o ?_⟩
    rintro ⟨n, hn, rfl⟩
    exact ho n hn rfl
  · have hw (hok : decide (w < 256) = true) (u : State) (d : Word) : (u.w1cOnly (0xA000 + 16 * w) d).watchOf v = u.watchOf v :=
      u.w1cOnly_other d (of_decide_eq_true hok) hv
    obtain rfl | rfl := hc
    · exact regCmd_watchOf (fun u _ d => u.wrWatchCtl_other d hv) hw h
    · exact regCmd_watchOf (fun u _ d => u.wrWatchCtl_other d hv) hw h

end Sys2Proof.Machine

namespace Sys2Proof.Machine

/-! ## What a command answers, from its form -/

/-- What a command starts from: no output yet. -/
def State.cleared (s : State) : State := { s with out := [] }
/-- What a command ends with: the queue `q`. -/
def State.ended (s : State) (q : List Instr) : State := { s with pending := q }
/-- The same with the outputs `o`. -/
def State.said (s : State) (o : List Output) : State := { s with out := o }

@[simp] theorem State.cleared_fields (s : State) :
    s.cleared.pending = s.pending ∧ s.cleared.free = s.free ∧ s.cleared.now = s.now ∧ s.cleared.tod = s.tod ∧
    s.cleared.ident = s.ident ∧ s.cleared.pfence = s.pfence ∧ s.cleared.rg = s.rg ∧ s.cleared.wshadow = s.wshadow ∧
    s.cleared.rshadow = s.rshadow ∧ s.cleared.chans = s.chans ∧ s.cleared.cpHeld = s.cpHeld ∧ s.cleared.scal = s.scal ∧
    s.cleared.tally = s.tally ∧ s.cleared.watch = s.watch ∧ s.cleared.atc = s.atc ∧ s.cleared.eng = s.eng ∧
    s.cleared.hm = s.hm ∧ s.cleared.ra = s.ra ∧ s.cleared.streams = s.streams ∧ s.cleared.ev = s.ev ∧
    s.cleared.inj = s.inj ∧ s.cleared.pseq = s.pseq ∧ s.cleared.eject = s.eject ∧ s.cleared.tbl = s.tbl ∧
    s.cleared.tows = s.tows ∧ s.cleared.reins = s.reins ∧ s.cleared.rrUsed = s.rrUsed ∧ s.cleared.draws = s.draws ∧
    s.cleared.counts = s.counts ∧ s.cleared.links = s.links ∧ s.cleared.flt = s.flt ∧ s.cleared.ccnt = s.ccnt ∧
    s.cleared.logs = s.logs ∧ s.cleared.lbOut = s.lbOut ∧ s.cleared.groups = s.groups ∧ s.cleared.rus = s.rus ∧
    s.cleared.ruGone = s.ruGone ∧ s.cleared.berths = s.berths ∧ s.cleared.teams = s.teams ∧ s.cleared.phys = s.phys ∧
    s.cleared.i2c = s.i2c ∧ s.cleared.abort = s.abort ∧ s.cleared.halt = s.halt ∧ s.cleared.far = s.far ∧
    s.cleared.mons = s.mons ∧ s.cleared.mc = s.mc ∧ s.cleared.ts = s.ts ∧ s.cleared.life = s.life ∧
    s.cleared.cmap = s.cmap ∧ s.cleared.pwr = s.pwr ∧ s.cleared.out = [] :=
  ⟨rfl, rfl, rfl, rfl, rfl, rfl, rfl, rfl, rfl, rfl, rfl, rfl, rfl, rfl, rfl, rfl, rfl, rfl, rfl, rfl, rfl, rfl, rfl, rfl,
    rfl, rfl, rfl, rfl, rfl, rfl, rfl, rfl, rfl, rfl, rfl, rfl, rfl, rfl, rfl, rfl, rfl, rfl, rfl, rfl, rfl, rfl, rfl, rfl,
    rfl, rfl, rfl⟩

@[simp] theorem State.cleared_reads (s : State) :
    (∀ o, s.cleared.reg o = s.reg o) ∧ (∀ o i w, s.cleared.rf o i w = s.rf o i w) ∧ (∀ k, s.cleared.chan k = s.chan k) ∧
    (∀ k, s.cleared.link k = s.link k) ∧ (∀ k, s.cleared.tow k = s.tow k) ∧ (∀ k, s.cleared.group k = s.group k) ∧
    (∀ k, s.cleared.log k = s.log k) ∧ (∀ k, s.cleared.tallyOf k = s.tallyOf k) ∧
    (∀ k i, s.cleared.scalar k i = s.scalar k i) ∧ (∀ k, s.cleared.watchOf k = s.watchOf k) ∧
    (∀ k, s.cleared.hmPort k = s.hmPort k) ∧ (∀ k, s.cleared.raPort k = s.raPort k) ∧ (∀ k, s.cleared.team k = s.team k) ∧
    (∀ k, s.cleared.phy k = s.phy k) ∧ (∀ k, s.cleared.unit k = s.unit k) ∧ (∀ k, s.cleared.mon k = s.mon k) ∧
    (∀ k, s.cleared.rein k = s.rein k) ∧ (∀ e, s.cleared.bank e = s.bank e) ∧ (∀ o, s.cleared.force o = s.force o) ∧
    (∀ o i w, s.cleared.ff o i w = s.ff o i w) ∧ s.cleared.inF2 = s.inF2 ∧ s.cleared.inF3 = s.inF3 ∧
    s.cleared.fenced = s.fenced ∧ s.cleared.shut = s.shut ∧ s.cleared.alive = s.alive ∧ s.cleared.expert = s.expert ∧
    s.cleared.time = s.time ∧ s.cleared.hangTicks = s.hangTicks ∧ s.cleared.here = s.here ∧ s.cleared.own = s.own :=
  ⟨fun _ => rfl, fun _ _ _ => rfl, fun _ => rfl, fun _ => rfl, fun _ => rfl, fun _ => rfl, fun _ => rfl, fun _ => rfl,
    fun _ _ => rfl, fun _ => rfl, fun _ => rfl, fun _ => rfl, fun _ => rfl, fun _ => rfl, fun _ => rfl, fun _ => rfl,
    fun _ => rfl, fun _ => rfl, fun _ => rfl, fun _ _ _ => rfl, rfl, rfl, rfl, rfl, rfl, rfl, rfl, rfl, rfl, rfl⟩

@[simp] theorem State.ended_fields (s : State) (q : List Instr) :
    (s.ended q).out = s.out ∧ (s.ended q).free = s.free ∧ (s.ended q).now = s.now ∧ (s.ended q).tod = s.tod ∧
    (s.ended q).ident = s.ident ∧ (s.ended q).pfence = s.pfence ∧ (s.ended q).rg = s.rg ∧ (s.ended q).wshadow = s.wshadow ∧
    (s.ended q).rshadow = s.rshadow ∧ (s.ended q).chans = s.chans ∧ (s.ended q).cpHeld = s.cpHeld ∧
    (s.ended q).scal = s.scal ∧ (s.ended q).tally = s.tally ∧ (s.ended q).watch = s.watch ∧ (s.ended q).atc = s.atc ∧
    (s.ended q).eng = s.eng ∧ (s.ended q).hm = s.hm ∧ (s.ended q).ra = s.ra ∧ (s.ended q).streams = s.streams ∧
    (s.ended q).ev = s.ev ∧ (s.ended q).inj = s.inj ∧ (s.ended q).pseq = s.pseq ∧ (s.ended q).eject = s.eject ∧
    (s.ended q).tbl = s.tbl ∧ (s.ended q).tows = s.tows ∧ (s.ended q).reins = s.reins ∧ (s.ended q).rrUsed = s.rrUsed ∧
    (s.ended q).draws = s.draws ∧ (s.ended q).counts = s.counts ∧ (s.ended q).links = s.links ∧ (s.ended q).flt = s.flt ∧
    (s.ended q).ccnt = s.ccnt ∧ (s.ended q).logs = s.logs ∧ (s.ended q).lbOut = s.lbOut ∧ (s.ended q).groups = s.groups ∧
    (s.ended q).rus = s.rus ∧ (s.ended q).ruGone = s.ruGone ∧ (s.ended q).berths = s.berths ∧ (s.ended q).teams = s.teams ∧
    (s.ended q).phys = s.phys ∧ (s.ended q).i2c = s.i2c ∧ (s.ended q).abort = s.abort ∧ (s.ended q).halt = s.halt ∧
    (s.ended q).far = s.far ∧ (s.ended q).mons = s.mons ∧ (s.ended q).mc = s.mc ∧ (s.ended q).ts = s.ts ∧
    (s.ended q).life = s.life ∧ (s.ended q).cmap = s.cmap ∧ (s.ended q).pwr = s.pwr ∧ (s.ended q).pending = q :=
  ⟨rfl, rfl, rfl, rfl, rfl, rfl, rfl, rfl, rfl, rfl, rfl, rfl, rfl, rfl, rfl, rfl, rfl, rfl, rfl, rfl, rfl, rfl, rfl, rfl,
    rfl, rfl, rfl, rfl, rfl, rfl, rfl, rfl, rfl, rfl, rfl, rfl, rfl, rfl, rfl, rfl, rfl, rfl, rfl, rfl, rfl, rfl, rfl, rfl,
    rfl, rfl, rfl⟩

@[simp] theorem State.ended_reads (s : State) (q : List Instr) :
    (∀ o, (s.ended q).reg o = s.reg o) ∧ (∀ o i w, (s.ended q).rf o i w = s.rf o i w) ∧
    (∀ k, (s.ended q).chan k = s.chan k) ∧ (∀ k, (s.ended q).link k = s.link k) ∧ (∀ k, (s.ended q).tow k = s.tow k) ∧
    (∀ k, (s.ended q).group k = s.group k) ∧ (∀ k, (s.ended q).log k = s.log k) ∧
    (∀ k, (s.ended q).tallyOf k = s.tallyOf k) ∧ (∀ k i, (s.ended q).scalar k i = s.scalar k i) ∧
    (∀ k, (s.ended q).watchOf k = s.watchOf k) ∧ (∀ k, (s.ended q).hmPort k = s.hmPort k) ∧
    (∀ k, (s.ended q).raPort k = s.raPort k) ∧ (∀ k, (s.ended q).team k = s.team k) ∧ (∀ k, (s.ended q).phy k = s.phy k) ∧
    (∀ k, (s.ended q).unit k = s.unit k) ∧ (∀ k, (s.ended q).mon k = s.mon k) ∧ (∀ k, (s.ended q).rein k = s.rein k) ∧
    (∀ e, (s.ended q).bank e = s.bank e) ∧ (∀ o, (s.ended q).force o = s.force o) ∧
    (∀ o i w, (s.ended q).ff o i w = s.ff o i w) ∧ (s.ended q).inF2 = s.inF2 ∧ (s.ended q).inF3 = s.inF3 ∧
    (s.ended q).fenced = s.fenced ∧ (s.ended q).shut = s.shut ∧ (s.ended q).alive = s.alive ∧
    (s.ended q).expert = s.expert ∧ (s.ended q).time = s.time ∧ (s.ended q).hangTicks = s.hangTicks ∧
    (s.ended q).here = s.here ∧ (s.ended q).own = s.own :=
  ⟨fun _ => rfl, fun _ _ _ => rfl, fun _ => rfl, fun _ => rfl, fun _ => rfl, fun _ => rfl, fun _ => rfl, fun _ => rfl,
    fun _ _ => rfl, fun _ => rfl, fun _ => rfl, fun _ => rfl, fun _ => rfl, fun _ => rfl, fun _ => rfl, fun _ => rfl,
    fun _ => rfl, fun _ => rfl, fun _ => rfl, fun _ _ _ => rfl, rfl, rfl, rfl, rfl, rfl, rfl, rfl, rfl, rfl, rfl⟩

@[simp] theorem State.said_fields (s : State) (l : List Output) :
    (s.said l).pending = s.pending ∧ (s.said l).free = s.free ∧ (s.said l).now = s.now ∧ (s.said l).tod = s.tod ∧
    (s.said l).ident = s.ident ∧ (s.said l).pfence = s.pfence ∧ (s.said l).rg = s.rg ∧ (s.said l).wshadow = s.wshadow ∧
    (s.said l).rshadow = s.rshadow ∧ (s.said l).chans = s.chans ∧ (s.said l).cpHeld = s.cpHeld ∧ (s.said l).scal = s.scal ∧
    (s.said l).tally = s.tally ∧ (s.said l).watch = s.watch ∧ (s.said l).atc = s.atc ∧ (s.said l).eng = s.eng ∧
    (s.said l).hm = s.hm ∧ (s.said l).ra = s.ra ∧ (s.said l).streams = s.streams ∧ (s.said l).ev = s.ev ∧
    (s.said l).inj = s.inj ∧ (s.said l).pseq = s.pseq ∧ (s.said l).eject = s.eject ∧ (s.said l).tbl = s.tbl ∧
    (s.said l).tows = s.tows ∧ (s.said l).reins = s.reins ∧ (s.said l).rrUsed = s.rrUsed ∧ (s.said l).draws = s.draws ∧
    (s.said l).counts = s.counts ∧ (s.said l).links = s.links ∧ (s.said l).flt = s.flt ∧ (s.said l).ccnt = s.ccnt ∧
    (s.said l).logs = s.logs ∧ (s.said l).lbOut = s.lbOut ∧ (s.said l).groups = s.groups ∧ (s.said l).rus = s.rus ∧
    (s.said l).ruGone = s.ruGone ∧ (s.said l).berths = s.berths ∧ (s.said l).teams = s.teams ∧ (s.said l).phys = s.phys ∧
    (s.said l).i2c = s.i2c ∧ (s.said l).abort = s.abort ∧ (s.said l).halt = s.halt ∧ (s.said l).far = s.far ∧
    (s.said l).mons = s.mons ∧ (s.said l).mc = s.mc ∧ (s.said l).ts = s.ts ∧ (s.said l).life = s.life ∧
    (s.said l).cmap = s.cmap ∧ (s.said l).pwr = s.pwr ∧ (s.said l).out = l :=
  ⟨rfl, rfl, rfl, rfl, rfl, rfl, rfl, rfl, rfl, rfl, rfl, rfl, rfl, rfl, rfl, rfl, rfl, rfl, rfl, rfl, rfl, rfl, rfl, rfl,
    rfl, rfl, rfl, rfl, rfl, rfl, rfl, rfl, rfl, rfl, rfl, rfl, rfl, rfl, rfl, rfl, rfl, rfl, rfl, rfl, rfl, rfl, rfl, rfl,
    rfl, rfl, rfl⟩

@[simp] theorem State.said_reads (s : State) (l : List Output) :
    (∀ o, (s.said l).reg o = s.reg o) ∧ (∀ o i w, (s.said l).rf o i w = s.rf o i w) ∧ (∀ k, (s.said l).chan k = s.chan k) ∧
    (∀ k, (s.said l).link k = s.link k) ∧ (∀ k, (s.said l).tow k = s.tow k) ∧ (∀ k, (s.said l).group k = s.group k) ∧
    (∀ k, (s.said l).log k = s.log k) ∧ (∀ k, (s.said l).tallyOf k = s.tallyOf k) ∧
    (∀ k i, (s.said l).scalar k i = s.scalar k i) ∧ (∀ k, (s.said l).watchOf k = s.watchOf k) ∧
    (∀ k, (s.said l).hmPort k = s.hmPort k) ∧ (∀ k, (s.said l).raPort k = s.raPort k) ∧
    (∀ k, (s.said l).team k = s.team k) ∧ (∀ k, (s.said l).phy k = s.phy k) ∧ (∀ k, (s.said l).unit k = s.unit k) ∧
    (∀ k, (s.said l).mon k = s.mon k) ∧ (∀ k, (s.said l).rein k = s.rein k) ∧ (∀ e, (s.said l).bank e = s.bank e) ∧
    (∀ o, (s.said l).force o = s.force o) ∧ (∀ o i w, (s.said l).ff o i w = s.ff o i w) ∧ (s.said l).inF2 = s.inF2 ∧
    (s.said l).inF3 = s.inF3 ∧ (s.said l).fenced = s.fenced ∧ (s.said l).shut = s.shut ∧ (s.said l).alive = s.alive ∧
    (s.said l).expert = s.expert ∧ (s.said l).time = s.time ∧ (s.said l).hangTicks = s.hangTicks ∧
    (s.said l).here = s.here ∧ (s.said l).own = s.own :=
  ⟨fun _ => rfl, fun _ _ _ => rfl, fun _ => rfl, fun _ => rfl, fun _ => rfl, fun _ => rfl, fun _ => rfl, fun _ => rfl,
    fun _ _ => rfl, fun _ => rfl, fun _ => rfl, fun _ => rfl, fun _ => rfl, fun _ => rfl, fun _ => rfl, fun _ => rfl,
    fun _ => rfl, fun _ => rfl, fun _ => rfl, fun _ _ _ => rfl, rfl, rfl, rfl, rfl, rfl, rfl, rfl, rfl, rfl, rfl⟩

/-- The outcome is a next state, with `P`: `Answers` of the command's own function. -/
def Meets (o : Out) (P : State → Prop) : Prop := ∃ t, o = .next t ∧ P t

theorem answers_iff {c : Instr} {s : State} {P : State → Prop} : Answers c s P ↔ Meets (exec c s) P := Iff.rfl

section
variable {s : State} {ok : Bool} {P : State → Prop} {f : State → State}

theorem Meets.runAny (hok : ok = true) (hP : P ((f s.cleared).ended s.pending)) :
    Meets (runAny s ok f) P := ⟨_, by rw [hok]; exact runAny_true s f, hP⟩

/-- Where the event of a command cannot happen, the outputs alone change. -/
theorem Meets.runAny_false (hok : ok = false) (hP : P s.cleared) : Meets (Machine.runAny s ok f) P :=
  ⟨_, by rw [hok]; exact Machine.runAny_false s f, hP⟩

theorem Meets.run (ha : s.alive = true) (hok : ok = true) (hP : P ((f s.cleared).ended s.pending)) :
    Meets (run s ok f) P := ⟨_, by rw [hok]; exact run_true ha f, hP⟩

/-- A register write that is made answers its row's write, and to the host the answer on RG. -/
theorem Meets.regCmd {off : Nat} {a : RgAcc} {f : State → Bool → Word → State} {al priv : Bool}
    (hok : ok = true) (hw : WriteMade s off a priv)
    (hP : ∀ o, P (((f s.cleared priv a.data).said o).ended s.pending)) :
    Meets (regCmd s ok off a f al) P := by
  subst hok
  refine ⟨_, regCmd_made hw f al, ?_⟩
  split
  · exact hP _
  · exact hP _

end

/-! ## Reset -/

/-- Settles O54, register by register and field by field. -/
theorem resetLeavesTheseValues : Obligations.ResetLeavesTheseValues := by
  refine ⟨by decide +kernel, fun k => ⟨rfl, rfl, rfl, rfl, rfl, rfl, fun _ => rfl, rfl⟩, rfl, rfl, rfl, rfl, rfl, rfl, rfl, rfl,
    rfl, rfl, ⟨by decide, SMap.nil_wf _⟩, ?_⟩
  unfold State.Identity
  decide +kernel

/-! ## What sending leaves of a link -/

/-- A link but for what sending moves on: which virtual channel and towpath it reports next, the counts it reported, and its
place among the slots. -/
def Link.quiet (l : Link) : Link := { l with repVc := 0, repTow := 0, told := [], slot := 0 }

/-- In `t` every link is as in `s`, but for what sending moves on. -/
def Hushed (s t : State) : Prop := ∀ p, (t.link p).quiet = (s.link p).quiet

@[simp, refl] theorem Hushed.refl (s : State) : Hushed s s := fun _ => rfl
theorem Hushed.symm {s t : State} (h : Hushed s t) : Hushed t s := fun p => (h p).symm
theorem Hushed.trans {s t u : State} (h : Hushed s t) (h' : Hushed t u) : Hushed s u := fun p => (h' p).trans (h p)

theorem Hushed.lift {s t : State} (h : Hushed s t) (s₀ : State) : Hushed s₀ t ↔ Hushed s₀ s :=
  ⟨fun h' => h'.trans h.symm, fun h' => h'.trans h⟩

theorem Hushed.st {s t : State} (h : Hushed s t) (p : Nat) : (t.link p).st = (s.link p).st := (congrArg Link.st (h p) :)

theorem Hushed.foldl {α : Type} {f : State → α → State} (hf : ∀ t x, Hushed t (f t x)) (l : List α) (s : State) :
    Hushed s (l.foldl f s) := foldl_keeps Hushed.refl Hushed.trans f hf l s

theorem Hushed.of_same {s t : State} {l : List Fld} (h : Same (mask l) s t) (hl : Fld.links.bit &&& mask l = 0) :
    Hushed s t := fun p => congrArg (fun m => (SMap.get (fun _ => Link.reset) m p).quiet) (h .links hl).symm

section
variable {s₀ : State}

theorem State.link_modLink_same (s : State) (p : Nat) (f : Link → Link) : (s.modLink p f).link p = f (s.link p) :=
  SMap.get_set_same _ _ _ _

theorem State.link_modLink_other (s : State) {p q : Nat} (f : Link → Link) (h : q ≠ p) :
    (s.modLink p f).link q = s.link q := SMap.get_set_other _ _ _ h

theorem State.modLink_hushed (s : State) (p : Nat) {f : Link → Link} (hf : ∀ l : Link, (f l).quiet = l.quiet) :
    Hushed s₀ (s.modLink p f) ↔ Hushed s₀ s := by
  refine Hushed.lift (fun q => ?_) s₀
  by_cases hq : q = p
  · subst hq
    rw [State.link_modLink_same, hf]
  · rw [State.link_modLink_other _ _ hq]

@[simp] theorem State.drive_hushed (s : State) (o : Output) : Hushed s₀ (s.drive o) ↔ Hushed s₀ s :=
  Hushed.lift (Hushed.of_same (l := [.out]) (by simp) (by simp [mask])) s₀

@[simp] theorem State.modTow_hushed (s : State) (t : Nat) (f : Tow → Tow) : Hushed s₀ (s.modTow t f) ↔ Hushed s₀ s :=
  Hushed.lift (Hushed.of_same (l := [.tows]) (by simp) (by simp [mask])) s₀

@[simp] theorem State.sendSlot_hushed (s : State) (t tag : Nat) : Hushed s₀ (s.sendSlot t tag) ↔ Hushed s₀ s :=
  State.drive_hushed s _

@[simp] theorem State.sendBody_hushed (s : State) (t : Nat) (body : BitVec 2048) (inv : Bool) :
    Hushed s₀ (s.sendBody t body inv) ↔ Hushed s₀ s :=
  Hushed.lift (Hushed.of_same (l := [.out, .phys]) (by simp) (by simp [mask])) s₀

@[simp] theorem State.pass_hushed (s : State) (p : Nat) : Hushed s₀ (s.modLink p Link.pass) ↔ Hushed s₀ s :=
  State.modLink_hushed s p (fun _ => rfl)

@[simp] theorem State.tagBack_hushed (s : State) (p : Nat) : Hushed s₀ (s.tagBack p).2 ↔ Hushed s₀ s := by
  refine Hushed.lift ?_ s₀
  have report (u : State) (i v n : Nat) (h : Hushed s u) :
      Hushed s (u.modLink p (fun l => { l with repVc := i, told := setAt l.told v n })) :=
    (State.modLink_hushed u p (f := fun l => { l with repVc := i, told := setAt l.told v n }) (fun _ => rfl)).mpr h
  unfold State.tagBack
  dsimp only
  split
  · rfl
  · cases s.nextTow p with
    | none =>
      dsimp only
      split
      · exact report _ _ _ _ (Hushed.refl s)
      · rfl
    | some e =>
      have ht : Hushed s ((s.modTow e.1 (fun x => { x with told := x.freed })).modLink p (fun l => { l with repTow := e.1 })) :=
        (State.modLink_hushed _ p (f := fun l => { l with repTow := e.1 }) (fun _ => rfl)).mpr
          ((State.modTow_hushed ..).mpr (Hushed.refl s))
      dsimp only
      split
      · exact report _ _ _ _ ht
      · exact ht

@[simp] theorem State.sendNull_hushed (s : State) (p team : Nat) (body : Bool) :
    Hushed s₀ (s.sendNull p team body) ↔ Hushed s₀ s := by
  refine Hushed.lift ?_ s₀
  unfold State.sendNull
  dsimp only
  split
  · simp
  · split <;> simp

@[simp] theorem State.idlePort_hushed (s : State) (p : Nat) : Hushed s₀ (s.idlePort p) ↔ Hushed s₀ s := by
  refine Hushed.lift ?_ s₀
  unfold State.idlePort
  dsimp only
  split
  · rfl
  · split
    · exact Hushed.foldl (fun t k => by simp) _ _
    · rfl
  · split
    · exact Hushed.foldl (fun t k => by simp) _ _
    · rfl
  · exact Hushed.foldl (fun t k => by simp) _ _

@[simp] theorem State.idlePorts_hushed (s : State) : Hushed s₀ s.idlePorts ↔ Hushed s₀ s :=
  Hushed.lift (Hushed.foldl (fun t k => by simp) _ _) s₀

end

/-! ## Pins, wrappers and test access -/

@[simp] theorem State.resetPins_pwr (s : State) : s.resetPins.pwr = { s.pwr with faultStatic := false } := rfl
@[simp] theorem State.resetPins_out (s : State) : s.resetPins.out = s.out ++ [.pins true false false] := rfl
@[simp] theorem State.resetPins_link (s : State) (p : Nat) : s.resetPins.link p = s.link p := rfl

@[simp] theorem State.coldIdle_pwr (s : State) : s.coldIdle.pwr = s.pwr :=
  (((State.coldIdle_same s (μ := mask [.out, .tows, .links, .phys]) (by simp)).mpr (Same.refl _ s)) .pwr rfl).symm

section
variable {s : State}

/-- Where something begins to hold the block, it enters the cold reset. -/
theorem State.holdTurn_begins (hp : s.pwr.pwrOk = true) (hh : s.pwr.holds = true) :
    s.holdTurn false = ({ s with pwr := { s.pwr with phase := .held, cause := 1, scan := false, warmAt := s.now } }
      : State).coldIdle.resetPins := by
  simp [State.holdTurn, hp, hh]

/-- Where nothing holds the block any more, its cold self-check starts. -/
theorem State.holdTurn_ends (hp : s.pwr.pwrOk = true) (hh : s.pwr.holds = false) :
    s.holdTurn true = ({ s with pwr := { s.pwr with phase := .check false } } : State).resetPins := by
  simp [State.holdTurn, hp, hh]

theorem State.holdTurn_stays (was : Bool) (hh : s.pwr.holds = was) : s.holdTurn was = s := by
  subst hh
  unfold State.holdTurn
  cases s.pwr.pwrOk <;> simp

/-- The pins a hold does not touch. -/
def Power.pins (p : Power) : Bool × Byte × Quad × List WrapMode := (p.rstN, p.tapInst, p.boundary, p.wrappers)

@[simp] theorem State.holdTurn_pins (s : State) (was : Bool) : (s.holdTurn was).pwr.pins = s.pwr.pins := by
  unfold State.holdTurn
  dsimp only
  split
  · rfl
  · split
    · simp [Power.pins]
    · split <;> rfl

theorem State.holdTurn_rstN (s : State) (was : Bool) : (s.holdTurn was).pwr.rstN = s.pwr.rstN :=
  congrArg (·.1) (s.holdTurn_pins was)
theorem State.holdTurn_tapInst (s : State) (was : Bool) : (s.holdTurn was).pwr.tapInst = s.pwr.tapInst :=
  congrArg (·.2.1) (s.holdTurn_pins was)
theorem State.holdTurn_boundary (s : State) (was : Bool) : (s.holdTurn was).pwr.boundary = s.pwr.boundary :=
  congrArg (·.2.2.1) (s.holdTurn_pins was)
theorem State.holdTurn_wrappers (s : State) (was : Bool) : (s.holdTurn was).pwr.wrappers = s.pwr.wrappers :=
  congrArg (·.2.2.2) (s.holdTurn_pins was)

theorem State.holdTurn_begins_phase (hp : s.pwr.pwrOk = true) (hh : s.pwr.holds = true) :
    (s.holdTurn false).pwr.phase = .held := by simp [State.holdTurn_begins hp hh]

theorem State.holdTurn_ends_phase (hp : s.pwr.pwrOk = true) (hh : s.pwr.holds = false) :
    (s.holdTurn true).pwr.phase = .check false := by simp [State.holdTurn_ends hp hh]

end

/-- A step of a walk over the ports changes the link of its own port alone. -/
theorem foldl_ports_link {f : State → Nat → State} (g : Link → Link) (hs : ∀ u p, (f u p).link p = g (u.link p))
    (ho : ∀ u p q, q ≠ p → (f u p).link q = u.link q) (s : State) (n p : Nat) :
    (((List.range n).foldl f s).link p) = if p < n then g (s.link p) else s.link p := by
  induction n with
  | zero => rfl
  | succ n ih =>
    rw [List.range_succ, List.foldl_append, List.foldl_cons, List.foldl_nil]
    by_cases h : p = n
    · subst h
      rw [hs, ih, if_neg (Nat.lt_irrefl p), if_pos (Nat.lt_succ_self p)]
    · rw [ho _ _ _ h, ih]
      simp [Nat.le_iff_lt_or_eq, h]

/-- The cold reset fences every port that is not OFF. -/
theorem State.coldIdle_st (s : State) {p : Nat} (hp : p < 12) :
    (s.coldIdle.link p).st = if (s.link p).st = .off then .off else .fenced := by
  have hq (s : State) : Hushed s s.idlePorts := (State.idlePorts_hushed s).mpr (Hushed.refl s)
  unfold State.coldIdle
  rw [(hq _).st p, foldl_ports_link (fun l => if l.st = .off then l else { l.discard with st := .fenced }), if_pos hp]
  · split
    · assumption
    · rfl
  · intro u q
    dsimp only
    split
    · rfl
    · rw [State.link_modLink_same]
  · intro u q q' hne
    dsimp only
    split
    · rfl
    · rw [State.link_modLink_other _ _ hne]

/-- What the cold reset leaves, at the pins and of the ports. -/
theorem State.holdTurn_begins_all {s : State} (hp : s.pwr.pwrOk = true) (hh : s.pwr.holds = true) :
    (s.holdTurn false).pwr.phase = .held ∧ (s.holdTurn false).pwr.cause = 1 ∧
      .pins true false false ∈ (s.holdTurn false).out ∧
      ∀ p, p < 12 → ((s.holdTurn false).link p).st = (if (s.link p).st = .off then .off else .fenced) := by
  rw [State.holdTurn_begins hp hh]
  refine ⟨by simp, by simp, by simp, fun p hlt => ?_⟩
  rw [State.resetPins_link, State.coldIdle_st _ hlt]
  rfl

theorem setAt_eq_set {α : Type} (l : List α) (i : Nat) (x : α) : setAt l i x = l.set i x := by
  induction l generalizing i with
  | nil => rfl
  | cons y ys ih => cases i <;> simp [setAt, ih]

/-- Settles O4. -/
theorem pinsAndWrappersSetThePhase : Obligations.PinsAndWrappersSetThePhase := by
  intro s
  refine ⟨fun h => ?_, fun h => ?_, fun h => ?_, fun h => ?_, fun w m h => ?_⟩
  · show Meets (execPwrOkFall s) _
    refine .runAny h ?_
    exact ⟨rfl, rfl, rfl, rfl, rfl, rfl, rfl, rfl⟩
  · show Meets (execPwrOkRise s) _
    refine .runAny (Bool.not_eq_true' _ |>.mpr h) ?_
    exact ⟨rfl, rfl⟩
  · show Meets (execRstNFall s) _
    refine .runAny h ?_
    simp only [State.ended_fields, State.cleared_fields]
    refine ⟨State.holdTurn_rstN _ _, fun hp hh => ?_⟩
    rw [hh]
    exact State.holdTurn_begins_all hp rfl
  · show Meets (execRstNRise s) _
    refine .runAny (Bool.not_eq_true' _ |>.mpr h) ?_
    simp only [State.ended_fields, State.cleared_fields]
    refine ⟨State.holdTurn_rstN _ _, fun hp hh => ?_⟩
    have hw : s.pwr.holds = true := by simp [Power.holds, h]
    rw [hw]
    exact State.holdTurn_ends_phase hp hh
  · show Meets (execWrapperMode w m s) _
    refine .runAny (decide_eq_true h) ?_
    simp only [State.ended_fields, State.cleared_fields]
    refine ⟨State.holdTurn_wrappers _ _, fun hl hp hh hm => ?_⟩
    rw [hh]
    refine State.holdTurn_begins_phase hp ?_
    have hmem : m ∈ s.pwr.wrappers.set w m := List.mem_set (by rw [hl]; exact h) m
    simp only [Power.holds, setAt_eq_set, Bool.or_eq_true, List.any_eq_true, decide_eq_true_eq]
    exact .inr ⟨m, hmem, hm⟩

@[simp] theorem State.tap_tapInst (s : State) (inst : Byte) : (s.tap inst).pwr.tapInst = inst :=
  State.holdTurn_tapInst _ _
@[simp] theorem State.tap_boundary (s : State) (inst : Byte) : (s.tap inst).pwr.boundary = s.pwr.boundary :=
  State.holdTurn_boundary _ _

section
variable {u : State} {p : Power} {b : Quad} {inst : Byte} (hu : u.pwr = { p with boundary := b })
include hu

/-- Taking an instruction that holds the block begins a cold reset of a block nothing holds. -/
theorem State.tap_holding (hi : inst = 0x00 ∨ inst = 0x02) :
    (u.tap inst).pwr.tapInst = inst ∧ (p.pwrOk = true → p.holds = false → (u.tap inst).pwr.phase = .held) := by
  refine ⟨State.tap_tapInst u inst, fun hp hh => ?_⟩
  have hw : u.pwr.holds = false := by rw [hu]; exact hh
  unfold State.tap
  rw [hw]
  refine State.holdTurn_begins_phase (by rw [hu]; exact hp) ?_
  rcases hi with rfl | rfl <;> simp [Power.holds]

/-- Taking any other instruction leaves a block that nothing holds as it is, and starts the cold self-check of a block that
only the former instruction held. -/
theorem State.tap_passing (hi : inst ≠ 0x00 ∧ inst ≠ 0x02) :
    (u.tap inst).pwr.tapInst = inst ∧ (p.holds = false → (u.tap inst).pwr.phase = p.phase) ∧
      (p.pwrOk = true → p.holds = true → ({ p with tapInst := inst } : Power).holds = false →
        (u.tap inst).pwr.phase = .check false) := by
  refine ⟨State.tap_tapInst u inst, fun hh => ?_, fun hp hh hn => ?_⟩
  · have hw : u.pwr.holds = false := by rw [hu]; exact hh
    unfold State.tap
    rw [hw, State.holdTurn_stays]
    · show u.pwr.phase = p.phase
      rw [hu]
    · simp only [Power.holds, Bool.or_eq_false_iff, decide_eq_false_iff_not] at hw ⊢
      obtain ⟨⟨⟨hr, -⟩, -⟩, hm⟩ := hw
      exact ⟨⟨⟨hr, hi.1⟩, hi.2⟩, hm⟩
  · have hw : u.pwr.holds = true := by rw [hu]; exact hh
    unfold State.tap
    rw [hw]
    exact State.holdTurn_ends_phase (by rw [hu]; exact hp) (by rw [hu]; exact hn)

end

/-- A block that RST_N holds stays held under every instruction. -/
theorem State.tap_of_rstN {s : State} (inst : Byte) (hr : s.pwr.rstN = false) :
    s.tap inst = { s with pwr := { s.pwr with tapInst := inst } } := by
  unfold State.tap
  rw [State.holdTurn_stays]
  simp [Power.holds, hr]

theorem mem_insAsc {t x : Nat} {l : List Nat} : x ∈ insAsc t l ↔ x = t ∨ x ∈ l := by
  induction l with
  | nil => simp [insAsc]
  | cons y ys ih =>
    unfold insAsc
    split
    · simp
    · split
      · next h => simp [h]
      · simp only [List.mem_cons, ih]
        exact or_left_comm

/-- Settles O5, instruction by instruction. -/
theorem tapInstructionsAndInstruments : Obligations.TapInstructionsAndInstruments := by
  refine ⟨fun s => ?_, fun s hi => ?_⟩
  · refine ⟨fun v => ?_, fun v => ?_, ?_, ?_, fun n => ?_, ?_, fun hr => ?_, fun hr => ?_, fun code hc => ?_⟩
    · show Meets (execTapExtest v s) _
      refine .runAny rfl ?_
      simp only [State.ended_fields]
      exact ⟨State.tap_holding rfl (.inl rfl), State.tap_boundary _ _⟩
    · show Meets (execTapSamplePreload v s) _
      refine .runAny rfl ?_
      simp only [State.ended_fields]
      exact ⟨State.tap_passing rfl (by decide), State.tap_boundary _ _⟩
    · show Meets (execTapClamp s) _
      refine .runAny rfl ?_
      simp only [State.ended_fields]
      exact State.tap_holding rfl (.inr rfl)
    · show Meets (execTapWir s) _
      refine .runAny rfl ?_
      simp only [State.ended_fields]
      exact State.tap_passing rfl (by decide)
    · show Meets (execTapWdr n s) _
      refine .runAny rfl ?_
      simp only [State.ended_fields]
      exact State.tap_passing rfl (by decide)
    · show Meets (execTapIjtag s) _
      refine .runAny rfl ?_
      simp only [State.ended_fields]
      exact State.tap_passing rfl (by decide)
    · show Meets (execTapScan s) _
      refine .runAny (Bool.not_eq_true' _ |>.mpr hr) ?_
      cases hf : s.pwr.field with
      | false =>
        dsimp only
        rw [if_neg (by simp [hf]), State.tap_of_rstN]
        · exact ⟨rfl, rfl, rfl, nofun⟩
        · exact hr
      | true =>
        dsimp only
        rw [if_pos (by simp [hf]), State.tap_of_rstN]
        · exact ⟨rfl, rfl, rfl, fun _ => ⟨rfl, rfl⟩⟩
        · exact hr
    · show Meets (execTapScan s) _
      exact .runAny_false (Bool.not_eq_false' _ |>.mpr hr) rfl
    · show Meets (execTapBypass code s) _
      refine .runAny (by simpa using hc) ?_
      simp only [State.ended_fields]
      exact State.tap_passing rfl (by decide)
  · have hj : s.ijtag = true := decide_eq_true hi
    refine ⟨fun a hf hp => ?_, fun bits => ?_, ?_, fun d ho => ?_, fun a r hf hn => ?_, fun f => ?_, fun n on hn hf hp => ?_⟩
    · show Meets (execIjtagBist a s) _
      refine .runAny (by simp [hj, hf, hp]) ?_
      exact ⟨_, rfl, Nat.mod_lt _ (by decide)⟩
    · show Meets (execIjtagFuse (.svn bits) s) _
      exact .runAny hj rfl
    · show Meets (execIjtagFuse (.lifecycle 1) s) _
      refine .runAny hj ?_
      dsimp only
      split
      · rfl
      · next h => simpa using h
    · show Meets (execIjtagFuse (.ownerKey d) s) _
      refine .runAny hj ?_
      simp [ho]
    · show Meets (execIjtagFuse (.repair a r) s) _
      refine .runAny hj ?_
      dsimp only
      rw [if_neg (by simp [hf]; omega)]
      rfl
    · show Meets (execIjtagFuse f s) _
      refine .runAny hj fun hf => ?_
      cases f with
      | svn bits => exact hf
      | ownerKey d =>
        dsimp only
        split
        · exact hf
        · split <;> exact hf
      | lifecycle st =>
        dsimp only
        split
        · rfl
        · exact hf
      | repair a r =>
        dsimp only
        split <;> exact hf
    · show Meets (execIjtagLaneLb n on s) _
      refine .runAny (by simp [hj, hf, hp, hn]) fun m => ?_
      cases on with
      | false => by_cases h : m = n <;> simp [h]
      | true => by_cases h : m = n <;> simp [h, mem_insAsc]

/-! ## Warm reset and self-check -/

/-- The fields a warm reset's request touches after the power state is written. -/
theorem State.warmRequest_pwr {s : State} (cause : Nat) (hp : s.pwr.phase = .run) (hf : s.inF3 = false) :
    (s.warmRequest cause).pwr = { s.pwr with phase := .warmWait, warmAt := s.now, warmCause := cause } := by
  unfold State.warmRequest
  rw [if_neg (by simp [hp, hf])]
  dsimp only
  generalize hu : ({ s with pwr := { s.pwr with phase := .warmWait, warmAt := s.now, warmCause := cause } } : State) = u
  have hs : Same (mask raiseFlds) u ((((((List.range 12).foldl (fun t p => t.fencePort p 8) u).chans.map (·.1)).foldl
      (fun t k => t.drainAll k false false) ((List.range 12).foldl (fun t p => t.fencePort p 8) u)).dropServed.raLoadsEnd 5 true).raRelease.releaseCp.sayPins s.errOn) := by
    simp
  have h : u.pwr = _ := hs .pwr rfl
  exact h.symm.trans (congrArg State.pwr hu).symm

/-- What the end of a good self-check does after the state it goes on from: it keeps the time and the phase. -/
theorem State.checked_keeps (t : State) :
    Same (mask raiseFlds) t ((if t.bootFw.fenced then t.bootFw.enterFault else t.bootFw).sayPins true) := by
  split <;> simp

theorem checkStage_good {r : SelfCheck} {warm : Bool} (hb : r.bad = none) (ho : r.romOk = true)
    (hc : r.collectorOk = true) : checkStage r warm = 0 := by simp [checkStage, hb, ho, hc]

theorem checkStage_rom {r : SelfCheck} {warm : Bool} (ho : r.romOk = false) : checkStage r warm ≠ 0 := by
  unfold checkStage
  split
  · decide
  · simp [ho]

@[simp] theorem State.afterWarm_tod (s : State) : s.afterWarm.tod = s.tod := by
  unfold State.afterWarm
  extract_lets base c l f m p t t1 t2 t3
  have h : Same (mask [.rg, .rus]) t (s.warmUnits t3) := by simp [t3, t2, t1]
  exact (h .tod rfl).symm

@[simp] theorem State.afterCold_tod (s : State) : s.afterCold.tod = 0 := by
  unfold State.afterCold
  extract_lets fatal base c f l p t
  have h : Same (mask [.rg]) t (if fatal = [] then t else s.keepRegs t isFirst) := by split <;> simp
  exact (h .tod rfl).symm

/-- A made write of the key 0xA5 with WARM 1 starts a warm reset; of another key it does nothing. -/
theorem warmResetRequest_meets {s : State} {a : RgAcc} (hw : WriteMade s 0x10 a true) (hb : RgAcc.bit a 0 = true)
    (hp : s.pwr.phase = .run) (hf : s.inF3 = false) :
    Answers (.warmResetRequest a) s (fun t =>
      (fld a.data.toNat 8 8 = 0xA5 → t.pwr.phase = .warmWait ∧ t.pwr.warmAt = s.now ∧ t.pwr.warmCause = 2) ∧
      (fld a.data.toNat 8 8 ≠ 0xA5 → t = { s with out := t.out })) := by
  show Meets (execWarmResetRequest a s) _
  unfold execWarmResetRequest
  rw [RgAcc.force_eq hb]
  refine .regCmd rfl hw fun o => ⟨fun hk => ?_, fun hk => ?_⟩
  · have h : s.cleared.wrResetCtl true a.data = s.cleared.warmRequest 2 := by
      unfold State.wrResetCtl
      rw [if_pos ⟨rfl, hb, hk⟩]
    have hq := State.warmRequest_pwr (s := s.cleared) 2 hp hf
    simp [h, hq]
  · have h : s.cleared.wrResetCtl true a.data = s.cleared := by
      unfold State.wrResetCtl
      rw [if_neg (fun h => hk h.2.2)]
    simp only [h]
    rfl

theorem State.repairStat_pwr (s : State) (r : SelfCheck) : (s.repairStat r).pwr = s.pwr := by
  have h : Same (mask [.rg]) s (s.repairStat r) := by simp
  exact (h .pwr rfl).symm

theorem State.repairStat_tod (s : State) (r : SelfCheck) : (s.repairStat r).tod = s.tod := by
  have h : Same (mask [.rg]) s (s.repairStat r) := by simp
  exact (h .tod rfl).symm

/-- A good self-check ends in operation, and keeps the time of day where the reset was a warm one. -/
theorem selfCheckDone_good {s : State} {warm : Bool} {r : SelfCheck} (hp : s.pwr.phase = .check warm) (hb : r.bad = none)
    (ho : r.romOk = true) (hc : r.collectorOk = true) :
    Answers (.selfCheckDone r) s (fun t => t.pwr.phase = .run ∧ (warm = false → t.tod = 0) ∧
      (warm = true → t.tod = s.tod)) := by
  show Meets (execSelfCheckDone r s) _
  simp only [execSelfCheckDone, hp]
  refine .runAny rfl ?_
  simp only [checkStage_good hb ho hc, ne_eq, not_true_eq_false, if_false]
  generalize hu : (if warm = true then s.cleared.afterWarm
    else if s.cleared.pwr.cause = 0 then s.cleared.base else s.cleared.afterCold) = u
  have hut : u.tod = if warm = true then s.tod else 0 := by
    rw [← hu]
    split
    · exact State.afterWarm_tod s.cleared
    · split
      · rfl
      · exact State.afterCold_tod s.cleared
  clear hu
  generalize ht2 : (if warm = true then _ else State.repairStat _ r : State) = t2
  have hphase : t2.pwr.phase = .run := by
    rw [← ht2]
    split
    · rfl
    · rw [State.repairStat_pwr]
  have htod : t2.tod = if warm = true then s.tod else 0 := by
    rw [← ht2, ← hut]
    split
    · rfl
    · rw [State.repairStat_tod]
  have hs := t2.checked_keeps
  have hp' : t2.pwr = _ := hs .pwr rfl
  have ht' : t2.tod = _ := hs .tod rfl
  simp only [State.ended_fields]
  rw [← hp', ← ht']
  exact ⟨hphase, fun hw => by rw [htod, if_neg (by simp [hw])], fun hw => by rw [htod, if_pos hw]⟩

/-- A self-check whose ROM check fails leaves the block failed. -/
theorem selfCheckDone_rom {s : State} {warm : Bool} {r : SelfCheck} (hp : s.pwr.phase = .check warm)
    (ho : r.romOk = false) : Answers (.selfCheckDone r) s (fun t => t.pwr.phase = .failed) := by
  show Meets (execSelfCheckDone r s) _
  simp only [execSelfCheckDone, hp]
  refine .runAny rfl ?_
  simp only [if_pos (checkStage_rom ho)]
  rfl

/-- Settles O6: the request, the reset proper and the two ends of a self-check. -/
theorem warmResetAndSelfCheckRun : Obligations.WarmResetAndSelfCheckRun := by
  refine ⟨fun s a hw hb hp hf => warmResetRequest_meets hw hb hp hf, fun s hp ht hi => ?_,
    fun s warm r hp hb ho hc => selfCheckDone_good hp hb ho hc, fun s warm r hp ho => selfCheckDone_rom hp ho⟩
  show Meets (execWarmResetProper s) _
  exact .runAny (by simp [hp, ht, hi]) ⟨rfl, rfl⟩

end Sys2Proof.Machine
namespace Sys2Proof.Machine

/-! ## The life of a channel -/

/-- A channel that is not ON is not ON after it settles either. -/
theorem State.settleN_not_on (n k : Nat) (s : State) (h : (s.chan k).st ≠ .on) :
    ((State.settleN n k s).chan k).st ≠ .on := by
  induction n generalizing s with
  | zero => exact h
  | succ n ih =>
    have hc (u : State) (f : Flight) (status : Nat) (hu : u.chan k = s.chan k) :
        ((u.complete k f status).chan k).st ≠ .on := by
      rw [(u.complete_completed k f status).st, hu]
      exact h
    unfold State.settleN
    dsimp only
    split
    · next f _ =>
      refine ih _ (hc _ _ _ ?_)
      split
      · split
        · split <;> rfl
        · rfl
      · rfl
    · split
      · split
        · exact ih _ (hc s _ _ rfl)
        · exact h
      · have hp := (s.settleOwed_paid k).st
        split
        · unfold State.chanOff
          dsimp only
          split
          · simp
          · rw [(State.emit_told _ _ _).chan, State.chan_modChan]
            simp
        · rw [hp]
          exact h
      · exact h

/-- A channel that drains is not ON. -/
theorem State.drainChan_not_on (s : State) (k : Nat) (keepPend fence : Bool) :
    ((s.drainChan k keepPend fence).chan k).st ≠ .on := by
  unfold State.drainChan
  dsimp only
  split
  · next h => simp [h]
  · generalize hu : (s.dropAhead k).modChan k _ = u
    have hst : (u.chan k).st = .draining := by rw [← hu, State.chan_modChan]
    refine State.settleN_not_on _ k _ ?_
    have hkeep : (((s.chan k).flights.foldl (fun t f =>
        if opOf f.word ∈ [opWait, opBranch] then t.complete k f 0x05 else t) u).chan k).st = (u.chan k).st := by
      refine foldl_keeps (R := fun s t => (t.chan k).st = (s.chan k).st) (fun _ => rfl) (fun h h' => by exact h'.trans h) _ (fun t f => ?_) _ u
      split
      · exact (t.complete_completed k f 5).st
      · rfl
    rw [hkeep, hst]
    decide

theorem State.drainAll_not_on {s : State} {k : Nat} (keepPend fence : Bool) (h : (s.chan k).st = .on) :
    ((s.drainAll k keepPend fence).chan k).st ≠ .on := by
  unfold State.drainAll
  rw [if_neg (by simp [h])]
  exact State.drainChan_not_on _ _ _ _

/-- RESUME acts on a channel that SOE stopped in ON alone. -/
theorem State.chan_chanResume (s : State) (k : Nat) : (s.chanResume k).chan k =
    if (s.chan k).st = .on ∧ (s.chan k).stop = .soe then { s.chan k with stop := .no } else s.chan k := by
  unfold State.chanResume
  rw [State.chan_modChan]

theorem State.chanResume_st (s : State) (k : Nat) : ((s.chanResume k).chan k).st = (s.chan k).st := by
  rw [State.chan_chanResume]
  split <;> rfl

theorem State.chan_chanResume_of_not_on {s : State} {k : Nat} (h : (s.chan k).st ≠ .on) :
    (s.chanResume k).chan k = s.chan k := by
  rw [State.chan_chanResume, if_neg (fun hc => h hc.1)]

/-- What a write of DX_CHAN_CTL makes of a channel that its EN leaves out of ON. -/
theorem State.chan_wrChanCtl_of_not_on {s u : State} {k : Nat} {d : Word}
    (hu : u = if d.toNat.testBit 0 then s.chanEnable k else s.chanDisable k) (h : (u.chan k).st ≠ .on) :
    (s.wrChanCtl k d).chan k = u.chan k := by
  unfold State.wrChanCtl
  rw [← hu]
  dsimp only
  split
  · exact State.chan_chanResume_of_not_on h
  · rfl

/-- Settles O8, form by form. -/
theorem channelLifeFollowsItsEnable : Obligations.ChannelLifeFollowsItsEnable := by
  intro s k a p hk hw
  refine ⟨fun hb => ?_, fun hb => ?_, fun hb hr hst => ?_, fun hst hl => ?_⟩
  · show Meets (execChannelEnable k a s) _
    unfold execChannelEnable
    rw [RgAcc.force_eq hb]
    refine .regCmd (decide_eq_true hk) hw fun o => ?_
    have hb' : a.data.toNat.testBit 0 = true := hb
    have hc (h : ((s.cleared.chanEnable k).chan k).st ≠ .on) :
        (s.cleared.wrChanCtl k a.data).chan k = (s.cleared.chanEnable k).chan k :=
      State.chan_wrChanCtl_of_not_on (by rw [if_pos hb']) h
    have he : (s.cleared.chanEnable k).chan k = _ := State.chan_modChan s.cleared k _
    simp only [State.ended_reads, State.said_reads]
    refine ⟨fun h => ?_, fun h => ?_⟩
    · rw [hc (by simp [he, h]), he]
      simp [h]
    · rw [hc (by simp [he, h]), he]
      simp [h]
  · show Meets (execChannelDisable k a s) _
    unfold execChannelDisable
    rw [RgAcc.force_eq hb]
    refine .regCmd (decide_eq_true hk) hw fun o => ?_
    have hb' : a.data.toNat.testBit 0 = false := hb
    have hc {u : State} (hu : s.cleared.chanDisable k = u) (h : (u.chan k).st ≠ .on) :
        (s.cleared.wrChanCtl k a.data).chan k = u.chan k :=
      State.chan_wrChanCtl_of_not_on (by rw [if_neg (by simp [hb']), hu]) h
    simp only [State.ended_reads, State.said_reads]
    unfold State.chanDisable at hc
    refine ⟨fun h => ?_, fun h => ?_, fun h => ?_, fun h => ?_⟩
    · have hno := State.drainAll_not_on (s := s.cleared) (k := k) false false h
      rw [hc (by simp [h]) hno]
      exact hno
    · rw [hc (u := s.cleared.modChan k (fun c => { c with en := false, late := true })) (by simp [h]) (by simp [h])]
      simp [h]
    · rw [hc (u := s.cleared.modChan k (fun c => { c with en := false, enPend := false })) (by simp [h]) (by simp [h])]
      simp [h]
    · rw [hc (u := s.cleared) (by simp [h]) (by simp [h])]
      rfl
  · show Meets (execResume k a s) _
    unfold execResume
    rw [RgAcc.force_eq hr]
    refine .regCmd (decide_eq_true hk) hw fun o => ?_
    have hb' : a.data.toNat.testBit 0 = true := hb
    have hr' : a.data.toNat.testBit 1 = true := hr
    have he : (s.cleared.chanEnable k).chan k = { s.chan k with en := true } := by
      unfold State.chanEnable
      rw [State.chan_modChan]
      simp [hst]
    have h : s.cleared.wrChanCtl k a.data = (s.cleared.chanEnable k).chanResume k := by
      simp [State.wrChanCtl, hb', hr']
    simp only [State.ended_reads, State.said_reads, h]
    rw [State.chan_chanResume, he]
    by_cases hs : (s.chan k).stop = .soe <;> simp [hs, hst]
  · show Meets (execChannelOn k s) _
    refine .run hw.1 (by simp [hk, hst]) ?_
    simp [hl]

end Sys2Proof.Machine

namespace Sys2Proof.Machine

/-! ## Commands that end at their start -/

theorem seqOf_lt (w : CmdWord) : seqOf w < 2 ^ 16 := Nat.mod_lt _ (by decide)

section
variable {s : State} {k : Nat} {w : CmdWord} {P : State → Prop}

/-- A row of one opcode whose word can start answers what starting it makes. -/
theorem Meets.chanCmd {row : CmdWord → Bool} {good : State → CmdWord → Bool} {body : State → Flight → State}
    (h : Starts s k w) (hrow : row w = true)
    (hP : P ((s.cleared.startCmd k (fun w => goodQ0 w && good s.cleared w) (fun t f => body t f)).ended s.pending)) :
    Meets (chanCmd k row good body s) P := ⟨_, chanCmd_next good body h hrow, hP⟩

theorem Meets.collRow {types : List Nat} (h : Starts s k w) (hop : opOf w = opColl) (ht : cf w 4 12 4 ∈ types)
    (hP : P ((s.cleared.startCmd k goodQ0 (fun t f => t.collCmd k f)).ended s.pending)) :
    Meets (collRow k types s) P := by
  obtain ⟨halive, hstart, -, -⟩ := h
  exact .run halive (by simp [State.heads, hstart, hop, ht]) hP

end

/-- What a word that starts alone finds on its channel when its row runs. -/
structure Begun (k : Nat) (w : CmdWord) (f : Flight) (u : State) : Prop where
  st : (u.chan k).st = .on
  stop : (u.chan k).stop = .no
  flights : (u.chan k).flights = [f]
  execSeq : (u.chan k).execSeq.toNat = seqOf w

theorem StartsAlone.begun {s : State} {k : Nat} {w : CmdWord} (h : StartsAlone s k w) :
    Begun k w (s.newFlight k w) (s.begin k w).1 := by
  obtain ⟨⟨-, hstart, -, -⟩, hnone⟩ := h
  obtain ⟨hon, hgo⟩ := State.startable_on hstart
  have hc := s.chan_begin k w
  rw [Chan.takeWord_eq] at hc
  refine ⟨by rw [hc]; exact hon, by rw [hc]; exact hgo, by rw [hc, hnone]; rfl, ?_⟩
  rw [hc]
  exact Nat.mod_eq_of_lt (seqOf_lt w)

/-- A row's word leaves `u` but for the books of its channel, and ended with `status`. -/
structure Ended (k status : Nat) (w : CmdWord) (u t : State) : Prop where
  booked : Booked u t
  flights : (t.chan k).flights = []
  lastStatus : (t.chan k).lastStatus = BitVec.ofNat 8 status
  execSeq : (t.chan k).execSeq.toNat = seqOf w
  layer : (t.chan k).layer = (u.chan k).layer
  oper : (t.chan k).oper = (u.chan k).oper
  stop : (t.chan k).stop = stopOf status (wantsSoe w)

theorem Begun.ended {k status : Nat} {w : CmdWord} {f : Flight} {u t : State} (hu : Begun k w f u)
    (h : Completed k f.ord w status u t) : Ended k status w u t := by
  refine ⟨h.booked, ?_, h.lastStatus (by simp [hu.st]), ?_, by rw [h.chan], by rw [h.chan], ?_⟩
  · rw [h.flights, hu.flights]
    simp
  · rw [h.chan]
    exact hu.execSeq
  · rw [h.stop]
    cases hkind : stopOf status (wantsSoe w) with
    | no => exact hu.stop
    | soe | always => rw [Chan.stopAfter_of_on hu.st (by simp), hu.stop]; rfl

/-- A word that starts alone and that its row ends at once, in a state `u` that still holds it. -/
theorem State.startCmd_ended {s u : State} {k status : Nat} {w : CmdWord} {good : CmdWord → Bool}
    {body : State → Flight → State} (h : StartsAlone s k w) (hgood : good w = true)
    (hu : Begun k w (s.newFlight k w) u)
    (hbody : Completed k (s.newFlight k w).ord w status u (body (s.begin k w).1 (s.newFlight k w))) :
    Ended k status w u (s.startCmd k good body) := by
  have hnone : ((body (s.begin k w).1 (s.newFlight k w)).chan k).flights = [] := by
    rw [hbody.flights, hu.flights]
    simp
  exact hu.ended (hbody.paid (State.startCmd_paid h.1 hgood hnone (by rw [hbody.st, hu.st]; decide)))

/-- A word that starts alone and that its row leaves in execution. -/
theorem State.startCmd_stays {s : State} {k : Nat} {w : CmdWord} {good : CmdWord → Bool}
    {body : State → Flight → State} (h : StartsAlone s k w) (hgood : good w = true)
    (hbody : Begun k w (s.newFlight k w) (body (s.begin k w).1 (s.newFlight k w))) :
    s.startCmd k good body = (body (s.begin k w).1 (s.newFlight k w)).settle k := by
  obtain ⟨⟨-, hstart, harm, hlong⟩, -⟩ := h
  simp [State.startCmd, hstart, hlong, State.takeEcc_unarmed harm, State.wordEcc_unarmed harm, State.begin_flight, hgood,
    State.flightOf, hbody.flights]

/-- A channel whose one command has no fragments and is no FENCE is settled. -/
theorem Begun.settle {k : Nat} {w : CmdWord} {f : Flight} {u : State} (hu : Begun k w f u) (hf : hasFrags f.word = false)
    (hop : opOf f.word ≠ opFence) : u.settle k = u := by
  simp [State.settle, State.settleN, hu.flights, State.fragsDone, hf, hop]

/-- A FENCE that is alone completes (R75). -/
theorem Begun.settle_fence {k : Nat} {w : CmdWord} {f : Flight} {u : State} (hu : Begun k w f u)
    (hop : opOf f.word = opFence) : Completed k f.ord f.word 0 u (u.settle k) := by
  have hf : hasFrags f.word = false := by
    simp only [hasFrags, hop]
    rfl
  have hc := u.complete_completed k f 0
  have hnone : ((u.complete k f 0).chan k).flights = [] := by
    rw [hc.flights, hu.flights]
    simp
  have hst : ((u.complete k f 0).chan k).st = .on := hc.st.trans hu.st
  have h : u.settle k = (u.complete k f 0).settleOwed k := by
    simp [State.settle, State.settleN, hu.flights, State.fragsDone, hf, hop, hnone, hst]
  rw [h]
  exact hc.paid (State.settleOwed_paid _ k)

/-- A word with a bad field is completed with BAD_FIELD, whatever its row does with a good one. -/
theorem State.startCmd_bad {s : State} {k : Nat} {w : CmdWord} {good : CmdWord → Bool} {body : State → Flight → State}
    (h : StartsAlone s k w) (hbad : good w = false) : Ended k 0x08 w (s.begin k w).1 (s.startCmd k good body) := by
  have hsame : s.startCmd k good body = s.startCmd k (fun _ => true) (fun t f => t.complete k f 0x08) := by
    obtain ⟨⟨-, hstart, harm, hlong⟩, -⟩ := h
    simp [State.startCmd, hstart, hlong, State.takeEcc_unarmed harm, State.wordEcc_unarmed harm, hbad]
  rw [hsame]
  exact State.startCmd_ended h rfl h.begun (State.complete_completed _ _ _ _)

/-- What BAD_FIELD leaves. -/
def EndedBad (k : Nat) (s t : State) : Prop :=
  (t.chan k).lastStatus = 0x08 ∧ (t.chan k).stop = .always ∧ (t.chan k).flights = [] ∧ t.scal = s.scal ∧ t.tally = s.tally

theorem Ended.bad {s t : State} {k : Nat} {w : CmdWord} (q : List Instr) (h : Ended k 0x08 w (s.cleared.begin k w).1 t) :
    EndedBad k s (t.ended q) := by
  have hb := (s.cleared.begin_booked k w).trans h.booked
  exact ⟨h.lastStatus, h.stop, h.flights, (congrArg State.scal hb :), (congrArg State.tally hb :)⟩

section
variable {s : State} {k : Nat} {w : CmdWord} (h : StartsAlone s k w) (hbad : goodQ0 w = false)
include h hbad

theorem chanCmd_bad {row : CmdWord → Bool} {good : State → CmdWord → Bool} {body : State → Flight → State}
    (hrow : row w = true) : Meets (chanCmd k row good body s) (EndedBad k s) :=
  .chanCmd h.1 hrow (Ended.bad _ (State.startCmd_bad (s := s.cleared) h (by simp [hbad])))

theorem collRow_bad {types : List Nat} (hop : opOf w = opColl) (ht : cf w 4 12 4 ∈ types) :
    Meets (collRow k types s) (EndedBad k s) :=
  .collRow h.1 hop ht (Ended.bad _ (State.startCmd_bad (s := s.cleared) h hbad))

end

/-- The rows of the collectives, by their type. -/
theorem collRows_bad {s : State} {k ct : Nat} {w : CmdWord} {row : Instr} (h : StartsAlone s k w) (hbad : goodQ0 w = false)
    (hop : opOf w = opColl) (hct : cf w 4 12 4 = ct)
    (hm : (ct, row) ∈ [(0, Instr.allReduce k), (1, .reduceScatter k), (2, .allGather k), (3, .broadcast k), (4, .reduce k),
      (5, .a2aCap k), (6, .barrier k), (7, .scalarAr k)]) : Answers row s (EndedBad k s) := by
  subst hct
  simp only [List.mem_cons, Prod.mk.injEq, List.not_mem_nil, or_false] at hm
  rcases hm with ⟨hct, rfl⟩ | ⟨hct, rfl⟩ | ⟨hct, rfl⟩ | ⟨hct, rfl⟩ | ⟨hct, rfl⟩ | ⟨hct, rfl⟩ | ⟨hct, rfl⟩ | ⟨hct, rfl⟩
  · show Meets (execAllReduce k s) (EndedBad k s)
    exact collRow_bad h hbad hop (by simp [hct])
  · show Meets (execReduceScatter k s) (EndedBad k s)
    exact collRow_bad h hbad hop (by simp [hct])
  · show Meets (execAllGather k s) (EndedBad k s)
    exact collRow_bad h hbad hop (by simp [hct])
  · show Meets (execBroadcast k s) (EndedBad k s)
    exact collRow_bad h hbad hop (by simp [hct])
  · show Meets (execReduce k s) (EndedBad k s)
    exact collRow_bad h hbad hop (by simp [hct])
  · show Meets (execA2aCap k s) (EndedBad k s)
    exact collRow_bad h hbad hop (by simp [hct])
  · show Meets (execBarrier k s) (EndedBad k s)
    exact collRow_bad h hbad hop (by simp [hct])
  · show Meets (execScalarAr k s) (EndedBad k s)
    exact collRow_bad h hbad hop (by simp [hct])

/-- Settles O14, row by row. -/
theorem badFieldStopsTheChannel : Obligations.BadFieldStopsTheChannel := by
  intro s k w h hbad
  refine ⟨fun hop => ?_, fun hop => ?_, fun hop => ?_, fun hop => ?_, fun hop => ?_, fun hop => ?_, fun hop => ?_,
    fun hop => ?_, fun hop => ?_, fun hop => ?_, fun hop => ?_, fun hop => ?_, fun hop => ?_, fun m row hm hop hmode => ?_,
    fun ct row hm hop hct => ?_⟩
  · show Meets (execNop k s) (EndedBad k s)
    exact chanCmd_bad h hbad (decide_eq_true hop)
  · show Meets (execPut k s) (EndedBad k s)
    exact chanCmd_bad h hbad (decide_eq_true hop)
  · show Meets (execGet k s) (EndedBad k s)
    exact chanCmd_bad h hbad (decide_eq_true hop)
  · show Meets (execCopy k s) (EndedBad k s)
    exact chanCmd_bad h hbad (decide_eq_true hop)
  · show Meets (execAtom k s) (EndedBad k s)
    exact chanCmd_bad h hbad (decide_eq_true hop)
  · show Meets (execSignal k s) (EndedBad k s)
    exact chanCmd_bad h hbad (decide_eq_true hop)
  · show Meets (execWaitCmd k s) (EndedBad k s)
    exact chanCmd_bad h hbad (decide_eq_true hop)
  · show Meets (execFence k s) (EndedBad k s)
    exact chanCmd_bad h hbad (decide_eq_true hop)
  · show Meets (execMark k s) (EndedBad k s)
    exact chanCmd_bad h hbad (decide_eq_true hop)
  · show Meets (execTrace k s) (EndedBad k s)
    exact chanCmd_bad h hbad (decide_eq_true hop)
  · show Meets (execRepeatLoop k s) (EndedBad k s)
    exact chanCmd_bad h hbad (decide_eq_true hop)
  · show Meets (execEndLoop k s) (EndedBad k s)
    exact chanCmd_bad h hbad (decide_eq_true hop)
  · show Meets (execBranch k s) (EndedBad k s)
    exact chanCmd_bad h hbad (decide_eq_true hop)
  · have hrow : (decide (opOf w = opLoads) && decide (cf w 1 0 2 = m)) = true := by simp [hop, hmode]
    simp only [List.mem_cons, Prod.mk.injEq, List.not_mem_nil, or_false] at hm
    rcases hm with ⟨rfl, rfl⟩ | ⟨rfl, rfl⟩ | ⟨rfl, rfl⟩ | ⟨rfl, rfl⟩
    · show Meets (execLoadsImm k s) (EndedBad k s)
      exact chanCmd_bad h hbad hrow
    · show Meets (execLoadsMem k s) (EndedBad k s)
      exact chanCmd_bad h hbad hrow
    · show Meets (execLoadsTally k s) (EndedBad k s)
      exact chanCmd_bad h hbad hrow
    · show Meets (execLoadsAdd k s) (EndedBad k s)
      exact chanCmd_bad h hbad hrow
  · exact collRows_bad h hbad hop hct hm

/-- A word of a good form that starts alone and that its row ends at once. -/
theorem chanCmd_ended {s : State} {k status : Nat} {w : CmdWord} {row : CmdWord → Bool} {good : State → CmdWord → Bool}
    {body : State → Flight → State} {P : State → Prop} (u : State) (h : StartsAlone s k w) (hrow : row w = true)
    (hgood : (goodQ0 w && good s.cleared w) = true) (hu : Begun k w (s.cleared.newFlight k w) u)
    (hbody : Completed k (s.cleared.newFlight k w).ord w status u (body (s.cleared.begin k w).1 (s.cleared.newFlight k w)))
    (hP : ∀ t, Ended k status w u t → P (t.ended s.pending)) : Meets (chanCmd k row good body s) P :=
  .chanCmd h.1 hrow (hP _ (State.startCmd_ended (s := s.cleared) h hgood hu hbody))

theorem cq_lt (w : CmdWord) (i : Nat) : cq w i < 2 ^ 64 := by
  unfold cq
  exact Nat.mod_lt _ (Nat.two_pow_pos 64)

/-- What a command that completes with OK at its start leaves of its channel. -/
def DoneAt (k : Nat) (w : CmdWord) (t : State) : Prop :=
  (t.chan k).lastStatus = 0 ∧ (t.chan k).flights = [] ∧ (t.chan k).execSeq.toNat = seqOf w

theorem Ended.done {k : Nat} {w : CmdWord} {u t : State} (h : Ended k 0 w u t) (q : List Instr) : DoneAt k w (t.ended q) :=
  ⟨h.lastStatus, h.flights, h.execSeq⟩

theorem Ended.scal {k status : Nat} {w : CmdWord} {u t : State} (h : Ended k status w u t) (q : List Instr) :
    (t.ended q).scal = u.scal := (congrArg State.scal h.booked :)

theorem Begun.of_told {k : Nat} {w : CmdWord} {f : Flight} {u v : State} (hu : Begun k w f u) (h : v.chan k = u.chan k) :
    Begun k w f v := by
  refine ⟨?_, ?_, ?_, ?_⟩ <;> rw [h]
  exacts [hu.st, hu.stop, hu.flights, hu.execSeq]

theorem State.loadsDone_completed (s : State) (k : Nat) (f : Flight) (v : Quad) :
    Completed k f.ord f.word 0 (s.setScalar k (cf f.word 1 2 3) v) (s.loadsDone k f v) :=
  State.complete_completed _ k { f with value := v } 0

section
variable {s : State} {k : Nat} {w : CmdWord} (h : StartsAlone s k w)
include h

/-- LOADS ends with its scalar written (R83). -/
theorem chanCmd_loadsDone {mode : Nat} {v : State → Flight → Quad} (hop : opOf w = opLoads) (hm : cf w 1 0 2 = mode)
    (hq : goodQ0 w = true) (hg : goodLoads w = true) {P : State → Prop}
    (hP : ∀ t, DoneAt k w t → t.scalar k (cf w 1 2 3) = v (s.cleared.begin k w).1 (s.cleared.newFlight k w) → P t) :
    Meets (chanCmd k (fun w => decide (opOf w = opLoads) && decide (cf w 1 0 2 = mode)) (fun _ w => goodLoads w)
      (fun t f => t.loadsDone k f (v t f)) s) P := by
  have hb : Begun k w (s.cleared.newFlight k w) (s.cleared.begin k w).1 := StartsAlone.begun (s := s.cleared) h
  refine chanCmd_ended (status := 0)
    ((s.cleared.begin k w).1.setScalar k (cf w 1 2 3) (v (s.cleared.begin k w).1 (s.cleared.newFlight k w)))
    h (by simp [hop, hm]) (by simp [hq, hg]) (hb.of_told rfl) (State.loadsDone_completed _ k _ _)
    fun t he => ?_
  refine hP _ (he.done _) ?_
  rw [show (t.ended s.pending).scalar k (cf w 1 2 3) = _ from he.booked.scalar k _]
  exact SMap.get_set_same _ _ _ _

/-- A row that completes its word with OK at once, after no more than a record of it. -/
theorem chanCmd_done {row : CmdWord → Bool} {good : State → CmdWord → Bool} {body : State → Flight → State} {v : State → Flight → State}
    (hrow : row w = true) (hq : goodQ0 w = true) (hg : good s.cleared w = true) (hbody : ∀ t f, body t f = (v t f).complete k f 0)
    (hv : ∀ t f, Told t (v t f)) : Meets (chanCmd k row good body s) (fun t => DoneAt k w t ∧ t.scal = s.scal) := by
  have hb : Begun k w (s.cleared.newFlight k w) (s.cleared.begin k w).1 := StartsAlone.begun (s := s.cleared) h
  have ht := hv (s.cleared.begin k w).1 (s.cleared.newFlight k w)
  refine chanCmd_ended (status := 0) (v (s.cleared.begin k w).1 (s.cleared.newFlight k w)) h hrow (by simp [hq, hg])
    (hb.of_told (ht.chan k)) (by rw [hbody]; exact State.complete_completed _ _ _ _) fun t he => ⟨he.done _, ?_⟩
  have hbk := (s.cleared.begin_booked k w).trans (ht.booked.trans he.booked)
  exact (congrArg State.scal hbk :)

end

/-- Settles O11, row by row. -/
theorem immediateCommandsCompleteAtOnce : Obligations.ImmediateCommandsCompleteAtOnce := by
  intro s k w h
  have hb : Begun k w (s.cleared.newFlight k w) (s.cleared.begin k w).1 := StartsAlone.begun (s := s.cleared) h
  have hbk := s.cleared.begin_booked k w
  refine ⟨fun hop hq hz => ?_, fun hop hq hr hz => ?_, fun hop hm hq hg => ?_, fun hop hm hq hg => ?_, fun hop hm hq hg => ?_,
    fun hop hq hz => ?_, fun hop hq hr hz => ?_, fun hop hq hr hz hc => ?_, fun hop => ?_⟩
  · show Meets (execNop k s) (fun t => DoneAt k w t ∧ t.scal = s.scal)
    exact chanCmd_done h (decide_eq_true hop) hq hz (fun _ _ => rfl) (fun t _ => Told.refl t)
  · show Meets (execMark k s) (fun t => DoneAt k w t ∧ (t.chan k).layer.toNat = cf w 1 0 16 ∧
      (t.chan k).oper.toNat = cf w 1 16 16 ∧ t.scal = s.scal)
    refine chanCmd_ended (status := 0) ((s.cleared.begin k w).1.modChan k (fun c => { c with
      layer := BitVec.ofNat 16 (cf w 1 0 16), oper := BitVec.ofNat 16 (cf w 1 16 16) })) h (decide_eq_true hop)
      (by simp [hq, hr, hz]) ?_ (State.complete_completed _ _ _ _) fun t he => ⟨he.done _, ?_, ?_, ?_⟩
    · refine ⟨?_, ?_, ?_, ?_⟩ <;> rw [State.chan_modChan]
      exacts [hb.st, hb.stop, hb.flights, hb.execSeq]
    · rw [show ((t.ended s.pending).chan k).layer = _ from he.layer, State.chan_modChan]
      exact Nat.mod_eq_of_lt (Nat.mod_lt _ (by decide))
    · rw [show ((t.ended s.pending).chan k).oper = _ from he.oper, State.chan_modChan]
      exact Nat.mod_eq_of_lt (Nat.mod_lt _ (by decide))
    · exact (he.scal _).trans (congrArg State.scal hbk :)
  · show Meets (execLoadsImm k s) (fun t => DoneAt k w t ∧ (t.scalar k (cf w 1 2 3)).toNat = cq w 2)
    refine chanCmd_loadsDone (v := fun _ f => BitVec.ofNat 64 (cq f.word 2)) h hop hm hq hg fun t hd hs => ⟨hd, ?_⟩
    rw [hs, BitVec.toNat_ofNat]
    exact Nat.mod_eq_of_lt (cq_lt w 2)
  · show Meets (execLoadsTally k s) (fun t => DoneAt k w t ∧ (t.scalar k (cf w 1 2 3)).toNat = (s.tallyOf (cf w 1 5 13)).toNat)
    refine chanCmd_loadsDone (v := fun t f => (t.tallyOf (cf f.word 1 5 13)).setWidth 64) h hop hm hq hg fun t hd hs => ⟨hd, ?_⟩
    have ht : (s.cleared.begin k w).1.tallyOf (cf w 1 5 13) = s.tallyOf (cf w 1 5 13) :=
      (congrArg (fun u : State => u.tallyOf (cf w 1 5 13)) hbk :)
    rw [hs]
    show (((s.cleared.begin k w).1.tallyOf (cf w 1 5 13)).setWidth 64).toNat = _
    rw [ht, BitVec.toNat_setWidth]
    omega
  · show Meets (execLoadsAdd k s) (fun t => DoneAt k w t ∧
      t.scalar k (cf w 1 2 3) = s.scalar k (cf w 1 2 3) + BitVec.ofNat 64 (cq w 2))
    refine chanCmd_loadsDone (v := fun t f => t.scalar k (cf f.word 1 2 3) + BitVec.ofNat 64 (cq f.word 2)) h hop hm hq hg
      fun t hd hs => ⟨hd, ?_⟩
    rw [hs]
    show (s.cleared.begin k w).1.scalar k (cf w 1 2 3) + _ = _
    rw [hbk.scalar]
    rfl
  · show Meets (execFence k s) (fun t => DoneAt k w t ∧ t.scal = s.scal)
    refine .chanCmd h.1 (decide_eq_true hop) ?_
    rw [State.startCmd_stays (s := s.cleared) h (by simp [hq, hz]) hb]
    have he := hb.ended (hb.settle_fence hop)
    exact ⟨he.done _, (he.scal _).trans (congrArg State.scal hbk :)⟩
  · show Meets (execTrace k s) (fun t => DoneAt k w t ∧ t.scal = s.scal)
    exact chanCmd_done h (decide_eq_true hop) hq (by simp [hr, hz]) (fun _ _ => rfl) (fun t f => by
      dsimp only
      split
      · exact State.incReg_told _ _
      · split
        · exact Told.refl t
        · split
          · exact (State.logAdd_told ..).trans (State.emit_told ..)
          · exact State.logAdd_told ..)
  · show Meets (execWaitCmd k s) (fun t => (s.waitHolds k w = true → DoneAt k w t) ∧
      (s.waitHolds k w = false → (t.chan k).flights.map (·.word) = [w] ∧ (t.chan k).execSeq.toNat = seqOf w))
    have hw : (s.cleared.begin k w).1.waitHolds k w = s.waitHolds k w := (congrArg (fun u : State => u.waitHolds k w) hbk :)
    have hgood : (goodQ0 w && (resv w 1 (span 0 26) && zeroFrom w 3 && decide (cf w 1 0 4 ≤ 5))) = true := by
      simp [hq, hr, hz, hc]
    cases hh : s.waitHolds k w with
    | true =>
      refine chanCmd_ended (status := 0) (s.cleared.begin k w).1 h (decide_eq_true hop) hgood hb ?_
        fun t he => ⟨fun _ => he.done _, nofun⟩
      show Completed k _ w 0 _ (if (s.cleared.begin k w).1.waitHolds k w = true then _ else _)
      rw [hw, if_pos hh]
      exact State.complete_completed _ _ _ _
    | false =>
      refine .chanCmd h.1 (decide_eq_true hop) ⟨nofun, fun _ => ?_⟩
      have hstay : (if (s.cleared.begin k w).1.waitHolds k (s.cleared.newFlight k w).word = true then
          (s.cleared.begin k w).1.complete k (s.cleared.newFlight k w) 0 else (s.cleared.begin k w).1) = (s.cleared.begin k w).1 := by
        rw [show (s.cleared.begin k w).1.waitHolds k (s.cleared.newFlight k w).word = _ from hw, hh]
        rfl
      rw [State.startCmd_stays (s := s.cleared) h hgood (hb.of_told (by rw [hstay])), hstay,
        hb.settle (by simp only [hasFrags]; rw [show opOf (s.cleared.newFlight k w).word = opWait from hop]; rfl)
          (by rw [show opOf (s.cleared.newFlight k w).word = opWait from hop]; decide)]
      exact ⟨by simp [hb.flights, State.newFlight], hb.execSeq⟩
  · show Meets (execBadOp k s) (fun t => (t.chan k).lastStatus = 0x07 ∧ (t.chan k).stop = .always ∧ (t.chan k).flights = [])
    obtain ⟨halive, hstart, -, -⟩ := h.1
    refine .run halive (by simp [State.heads, hstart, hop]) ?_
    have he := State.startCmd_ended (s := s.cleared) (good := fun _ => true) (body := fun t f => t.complete k f 0x07) h rfl hb
      (State.complete_completed _ _ _ _)
    exact ⟨he.lastStatus, he.stop, he.flights⟩

end Sys2Proof.Machine

namespace Sys2Proof.Machine

/-! ## Scalars that software wrote, while commands of the channel end -/

/-- Scalar `i` of channel `k` is `v`, and no command in execution that would write it is at its end. -/
structure ScalarHolds (k i : Nat) (v : Quad) (s : State) : Prop where
  scalar : s.scalar k i = v
  open_ : ∀ f ∈ (s.chan k).flights, writesScalar f.word = some i → f.cursor = none → s.quiet k f = false

section
variable {k i : Nat} {v : Quad} {s t : State}

/-- It is enough that the scalar stands, and that of the channel's commands none is new and the slots are as they were. -/
theorem ScalarHolds.of_fewer (h : ScalarHolds k i v s) (hs : t.scalar k i = s.scalar k i)
    (hf : ∀ f ∈ (t.chan k).flights, f ∈ (s.chan k).flights) (hslots : (t.chan k).flights = [] ∨ (t.chan k).slots = (s.chan k).slots) :
    ScalarHolds k i v t where
  scalar := hs.trans h.scalar
  open_ f hm hw hc := by
    rcases hslots with hnone | hslots
    · rw [hnone] at hm
      cases hm
    · have hq : t.quiet k f = s.quiet k f := by simp only [State.quiet, hslots]
      rw [hq]
      exact h.open_ f (hf f hm) hw hc

theorem ScalarHolds.of_chan (h : ScalarHolds k i v s) (hs : t.scalar k i = s.scalar k i) (hc : t.chan k = s.chan k) :
    ScalarHolds k i v t := h.of_fewer hs (by simp [hc]) (.inr (by rw [hc]))

/-- What is local to another channel leaves the scalar. -/
theorem ScalarHolds.of_local {P : Prop} {j : Nat} (h : ScalarHolds k i v s) (hl : Local P j s t) (hj : k ≠ j) (hi : i < 8) :
    ScalarHolds k i v t := h.of_chan (hl.scalar k hj i hi) (hl.chan k hj)

theorem ScalarHolds.complete (h : ScalarHolds k i v s) (f : Flight) (status : Nat) : ScalarHolds k i v (s.complete k f status) := by
  have hc := s.complete_completed k f status
  refine h.of_fewer (hc.booked.scalar k i) (fun g hg => ?_) (.inr (by rw [hc.chan]))
  rw [hc.flights] at hg
  exact List.mem_of_mem_filter hg

theorem ScalarHolds.chanOff (h : ScalarHolds k i v s) : ScalarHolds k i v (s.chanOff k) := by
  have hnone : ((s.chanOff k).chan k).flights = [] := by
    unfold State.chanOff
    dsimp only
    split <;> simp [(State.emit_told _ _ _).chan]
  have hs : (s.chanOff k).scalar k i = s.scalar k i := by
    have hm : Same (mask [.chans, .ev, .logs, .rg]) s (s.chanOff k) := by simp
    exact congrArg (fun m => SMap.get (fun _ => (0 : Quad)) m (8 * k + i)) (hm .scal rfl).symm
  exact h.of_fewer hs (by simp [hnone]) (.inl hnone)

/-- A command at its end writes another scalar. -/
theorem ScalarHolds.setScalar (h : ScalarHolds k i v s) {j : Nat} (x : Quad) (hj : j ≠ i) :
    ScalarHolds k i v (s.setScalar k j x) :=
  h.of_chan (SMap.get_set_other _ _ _ (by omega)) rfl

theorem ScalarHolds.settleN (n : Nat) (h : ScalarHolds k i v s) : ScalarHolds k i v (State.settleN n k s) := by
  induction n generalizing s with
  | zero => exact h
  | succ n ih =>
    unfold State.settleN
    dsimp only
    split
    · next f hfind =>
      have hm := List.mem_of_find?_eq_some hfind
      have hdone := List.find?_some hfind
      simp only [State.fragsDone, Bool.and_eq_true, Option.isNone_iff_eq_none] at hdone
      obtain ⟨⟨⟨-, hcur⟩, hquiet⟩, -⟩ := hdone
      have hw : writesScalar f.word ≠ some i := fun hw => by
        rw [h.open_ f hm hw hcur] at hquiet
        cases hquiet
      refine ih (ScalarHolds.complete ?_ f _)
      split
      · split
        · next j hj =>
          split
          · exact h.setScalar _ (fun hji => hw (hji ▸ hj))
          · exact h
        · exact h
      · exact h
    · split
      · split
        · exact ih (h.complete _ _)
        · exact h
      · have hp := s.settleOwed_paid k
        have hs : ScalarHolds k i v (s.settleOwed k) :=
          h.of_fewer (hp.booked.scalar k i) (by rw [hp.chan]; simp) (.inr (by rw [hp.chan]))
        split
        · exact hs.chanOff
        · exact hs
      · exact h

theorem ScalarHolds.evalWaits (hi : i < 8) (h : ScalarHolds k i v s) : ScalarHolds k i v s.evalWaits := by
  unfold State.evalWaits
  generalize s.chans = l
  induction l generalizing s with
  | nil => exact h
  | cons e l ih =>
    refine ih ?_
    dsimp only
    split
    · next f _ =>
      split
      · by_cases hk : k = e.1
        · subst hk
          exact (h.complete f 0).settleN _
        · exact h.of_local (P := False) (j := e.1)
            ((State.settle_local _).mpr ((State.complete_local _ _ _).mpr (Local.refl _ _ _))) hk hi
      · exact h
    · exact h

end

/-! ## What software writes of a channel -/

theorem State.reg_setReg_same (s : State) (o : Nat) (w : Word) : (s.setReg o w).reg o = w := SMap.get_set_same _ _ _ _

theorem State.reg_setReg_other (s : State) {o p : Nat} (w : Word) (h : p ≠ o) : (s.setReg o w).reg p = s.reg p :=
  SMap.get_set_other _ _ _ h

/-- CR_STALL follows the fill of the ring (R89). -/
theorem State.chan_checkStall (s : State) (k : Nat) :
    (s.checkStall k).chan k = { s.chan k with crStall := s.ringFull k } := by
  unfold State.checkStall
  split
  · next h => rw [(State.emit_told _ _ _).chan, State.chan_modChan, h.1]
  · next h =>
    split
    · next hn => rw [State.chan_modChan, Bool.eq_false_iff.mpr hn]
    · next hf =>
      have hfull : s.ringFull k = true := by simpa using hf
      have hst : (s.chan k).crStall = true := by simpa [hfull] using h
      rw [hfull, ← hst]

/-- No record or event moves the base or the size of a ring. -/
theorem State.ringFull_checkStall (s : State) (k : Nat) : (s.checkStall k).ringFull k = s.ringFull k := by
  have hl : Local True k s (s.checkStall k) := by
    unfold State.checkStall
    split
    · simp
    · split
      · simp
      · rfl
  have hr : (s.checkStall k).reg (0x4018 + 0x100 * k) = s.reg (0x4018 + 0x100 * k) := by
    refine hl.reg trivial _ ?_
    rintro ⟨n, -, hn⟩
    unfold logReg at hn
    omega
  have hc := s.chan_checkStall k
  unfold State.ringFull State.ringSize State.rf
  rw [hr, hc]

/-- The words of a shape entry are written one by one from their shadows. -/
theorem State.shapeWords_reg (s : State) (b n : Nat) :
    let t := (List.range n).foldl (fun t i =>
      t.setReg (b + 4 * i) (SMap.get (fun _ => (0 : Word)) t.wshadow (b + 4 * i) &&& (regMask (b + 4 * i)).rw)) s
    t.wshadow = s.wshadow ∧ ∀ i, i < n → t.reg (b + 4 * i) =
      SMap.get (fun _ => (0 : Word)) s.wshadow (b + 4 * i) &&& (regMask (b + 4 * i)).rw := by
  induction n with
  | zero => exact ⟨rfl, nofun⟩
  | succ n ih =>
    obtain ⟨hs, hr⟩ := ih
    rw [List.range_succ, List.foldl_append, List.foldl_cons, List.foldl_nil]
    refine ⟨hs, fun i hi => ?_⟩
    by_cases h : i = n
    · subst h
      rw [State.reg_setReg_same, hs]
    · rw [State.reg_setReg_other _ _ (by omega)]
      exact hr i (by omega)

/-- Settles O10: scalars, ring and shapes. -/
theorem channelRegistersTakeTheirWrites : Obligations.ChannelRegistersTakeTheirWrites := by
  refine ⟨fun s k i a p hk hi hw => ?_, fun s k a p hk hw => ?_, fun s e a p he he' hw => ?_⟩
  · show Meets (execScalarWrite k i a s) _
    refine .regCmd (by simp [hk, hi]) hw fun o => ⟨fun hst ho => ?_, fun hst => ?_⟩
    · simp only [State.ended_reads, State.said_reads, State.cleared_reads, State.cleared_fields, State.wrScalHi]
      rw [if_pos hst]
      generalize hv : BitVec.ofNat 64 _ = v
      have h : ScalarHolds k i v (s.cleared.setScalar k i v) := ⟨SMap.get_set_same _ _ _ _, ho⟩
      rw [(h.evalWaits hi).scalar, ← hv, BitVec.toNat_ofNat]
      omega
    · simp only [State.ended_reads, State.said_reads, State.ended_fields, State.said_fields, State.cleared_reads, State.wrScalHi]
      rw [if_neg hst]
      exact ⟨rfl, by rw [State.chan_modChan]⟩
  · show Meets (execCrConsWrite k a s) _
    refine .regCmd (decide_eq_true hk) hw fun o => ?_
    have hr (u : State) : ((u.said o).ended s.pending).ringFull k = u.ringFull k := rfl
    simp only [State.ended_reads, State.said_reads, hr, State.wrCons]
    rw [State.ringFull_checkStall _ k, State.chan_checkStall, State.chan_modChan]
    exact ⟨rfl, rfl⟩
  · show Meets (execShapeCommit e a s) _
    refine .regCmd (by simp [he, he']) hw fun o => ?_
    simp only [State.ended_reads, State.said_reads, State.wrShape]
    refine ⟨?_, fun i hi => ?_⟩
    · rw [show 0x801C + 32 * e = 0x8000 + 32 * e + 28 by omega, State.reg_setReg_same]
    · rw [State.reg_setReg_other _ _ (by omega)]
      exact (State.shapeWords_reg s.cleared (0x8000 + 32 * e) 7).2 i hi

end Sys2Proof.Machine

namespace Sys2Proof.Machine

/-! ## The event queue -/

/-- Nothing of the event queue of `s` is lost or moved in `t`. -/
def Queued (s t : State) : Prop := s.ev.queue <+: t.ev.queue

theorem Queued.refl (s : State) : Queued s s := List.prefix_rfl
theorem Queued.trans {s t u : State} (h : Queued s t) (h' : Queued t u) : Queued s u := List.IsPrefix.trans h h'

theorem Queued.of_same {s t : State} {l : List Fld} (h : Same (mask l) s t) (hl : Fld.ev.bit &&& mask l = 0) : Queued s t := by
  have he : s.ev = t.ev := h .ev hl
  unfold Queued
  rw [he]

theorem State.emitAll_queued (n : Nat) (l : List (Option Nat × BitVec 128)) (s : State) : Queued s (State.emitAll n l s) := by
  induction n generalizing l s with
  | zero => exact Queued.refl s
  | succ n ih =>
    cases l with
    | nil => exact Queued.refl s
    | cons e l =>
      unfold State.emitAll
      dsimp only
      split
      · exact Queued.trans (t := { s with ev := { s.ev with held := s.ev.held ++ [e] } }) List.prefix_rfl (ih _ _)
      · refine Queued.trans ?_ (ih _ _)
        refine Queued.trans (t := { s with ev := { s.ev with queue := s.ev.queue ++ [e.2] } }) (List.prefix_append _ _) ?_
        exact Queued.of_same (l := [.rg, .logs]) (by simp) rfl

/-- A word that finds room and nothing held before it is queued first. -/
theorem State.emit_front (s : State) (w : Nat) (src : Option Nat) (hroom : s.ev.queue.length < 256) (hheld : s.ev.held = []) :
    s.ev.queue ++ [BitVec.ofNat 128 w] <+: (s.emit w src).ev.queue := by
  unfold State.emit State.emitAll
  rw [if_neg (by simp [hheld]; omega)]
  dsimp only
  exact Queued.trans (Queued.of_same (s := { s with ev := { s.ev with queue := s.ev.queue ++ [BitVec.ofNat 128 w] } })
    (l := [.rg, .logs]) (by simp) rfl) (State.emitAll_queued _ _ _)

theorem State.pumpEvents_queued (n : Nat) (s : State) : Queued s (State.pumpEvents n s) := by
  induction n generalizing s with
  | zero => exact Queued.refl s
  | succ n ih =>
    unfold State.pumpEvents
    split
    · exact Queued.refl s
    · next src w rest _ =>
      split
      · exact Queued.refl s
      · refine Queued.trans ?_ (ih _)
        exact State.emitAll_queued 8 [(src, w)] { s with ev := { queue := s.ev.queue, held := [] } }

/-! ## Tallies and watches -/

theorem State.tallyOf_setTally_same (s : State) (n : Nat) (v : BitVec 48) : (s.setTally n v).tallyOf n = v := by
  have h : Same (mask [.free, .watch, .rg, .chans, .scal, .ev, .logs]) (s.setTallyRaw n v) (s.setTally n v) := by
    unfold State.setTally
    simp
  have ht : (s.setTallyRaw n v).tally = (s.setTally n v).tally := h .tally rfl
  unfold State.tallyOf
  rw [← ht]
  exact SMap.get_set_same _ _ _ _

theorem State.tallyOf_setTally_other (s : State) {n m : Nat} (v : BitVec 48) (hm : m ≠ n) :
    (s.setTally n v).tallyOf m = s.tallyOf m := by
  have h : Same (mask [.free, .watch, .rg, .chans, .scal, .ev, .logs]) (s.setTallyRaw n v) (s.setTally n v) := by
    unfold State.setTally
    simp
  have ht : (s.setTallyRaw n v).tally = (s.setTally n v).tally := h .tally rfl
  unfold State.tallyOf
  rw [← ht]
  exact SMap.get_set_other _ _ _ hm

theorem State.watchOf_setWatch (s : State) (w : Nat) (x : Watch) : (s.setWatch w x).watchOf w = x :=
  SMap.get_set_same _ _ _ _

/-- Evaluating a watch against its tally writes it as the evaluation says. -/
theorem State.watchOf_evalWatch (s : State) (w : Nat) :
    (s.evalWatch w).watchOf w = (s.watchOf w).eval w (s.tallyOf (s.watchOf w).tally) s.free := by
  unfold State.evalWatch
  dsimp only
  rw [State.watchOf_setWatch]

theorem Watch.eval_of_not (w : Nat) (t : BitVec 48) (free : Nat) {x : Watch}
    (h : condHolds x.cond false t.toNat x.value.toNat = false) : x.eval w t free = x := by
  unfold Watch.eval
  rw [if_pos (.inr (by simp [h]))]

/-- A watch without a step fires once and disarms (R146). -/
theorem Watch.eval_fires (w : Nat) (t : BitVec 48) (free : Nat) {x : Watch} (ha : x.armed = true)
    (h : condHolds x.cond false t.toNat x.value.toNat = true) (hs : x.step = 0) :
    (x.eval w t free).armed = false ∧ (x.eval w t free).fired = true ∧ (x.eval w t free).pend.isSome = true := by
  unfold Watch.eval
  rw [if_neg (by simp [ha, h])]
  simp [hs]

/-- What arming a watch makes of it. -/
theorem State.wrWatchCtl_arm (s : State) (w : Nat) {d : Word} (hb : d.toNat.testBit 20 = true) :
    let n := fld d.toNat 0 13
    let c := fld d.toNat 16 3
    let x := s.watchOf w
    let y := (s.wrWatchCtl w d).watchOf w
    (x.armed = false → c < 6 → condHolds c false (s.tallyOf n).toNat x.value.toNat = false →
        y.armed = true ∧ y.tally = n ∧ y.cond = c) ∧
      (x.armed = false → c < 6 → condHolds c false (s.tallyOf n).toNat x.value.toNat = true → x.step = 0 →
        y.armed = false ∧ y.fired = true ∧ y.pend.isSome = true) ∧
      (x.armed = false → 6 ≤ c → y.armed = false ∧ y.wrIgn = true) ∧
      (x.armed = true → y.armed = true ∧ y.tally = x.tally ∧ y.cond = x.cond) := by
  intro n c x y
  refine ⟨fun ha hc hn => ?_, fun ha hc hn hs => ?_, fun ha hc => ?_, fun ha => ?_⟩
  all_goals
    subst y
    unfold State.wrWatchCtl
    dsimp only
    rw [if_neg (by simp [hb])]
  · rw [if_neg (by simpa using ha), if_neg (by omega), State.watchOf_evalWatch, State.watchOf_setWatch, Watch.eval_of_not]
    · exact ⟨rfl, rfl, rfl⟩
    · exact hn
  · rw [if_neg (by simpa using ha), if_neg (by omega), State.watchOf_evalWatch, State.watchOf_setWatch]
    exact Watch.eval_fires _ _ _ rfl hn hs
  · rw [if_neg (by simpa using ha), if_pos hc, State.watchOf_setWatch]
    exact ⟨ha, rfl⟩
  · rw [if_pos ha, State.watchOf_setWatch]
    exact ⟨ha, rfl, rfl⟩

theorem State.wrWatchCtl_disarm (s : State) (w : Nat) {d : Word} (hb : d.toNat.testBit 20 = false) :
    ((s.wrWatchCtl w d).watchOf w).armed = false ∧ ((s.wrWatchCtl w d).watchOf w).value = (s.watchOf w).value := by
  unfold State.wrWatchCtl
  dsimp only
  rw [if_pos (by simp [hb]), State.watchOf_setWatch]
  split
  · exact ⟨rfl, rfl⟩
  · next h => exact ⟨Bool.eq_false_iff.mpr h, rfl⟩

/-- Settles O15: tallies, watches, the pending event and the host's end of the queue. -/
theorem talliesWatchesAndEvents : Obligations.TalliesWatchesAndEvents := by
  refine ⟨fun s n a p hn hw => ?_, fun s w a p hlt hw hb => ?_, fun s w a p hlt hw hb => ?_,
    fun s w e halive hlt hp hroom hheld => ?_, fun s w rest halive hq => ?_⟩
  · show Meets (execTallyWrite n a s) _
    refine .regCmd (decide_eq_true hn) hw fun o => ⟨?_, fun m hm => ?_⟩
    · simp only [State.ended_reads, State.said_reads, State.wrTallyHi, State.tallyOf_setTally_same, BitVec.toNat_ofNat,
        State.cleared_fields]
    · simp only [State.ended_reads, State.said_reads, State.wrTallyHi, State.tallyOf_setTally_other _ _ hm, State.cleared_reads]
  · show Meets (execWatchArm w a s) _
    unfold execWatchArm
    rw [RgAcc.force_eq hb]
    refine .regCmd (decide_eq_true hlt) hw fun o => ?_
    simp only [State.ended_reads, State.said_reads]
    exact s.cleared.wrWatchCtl_arm w hb
  · show Meets (execWatchDisarm w a s) _
    unfold execWatchDisarm
    rw [RgAcc.force_eq hb]
    refine .regCmd (decide_eq_true hlt) hw fun o => ?_
    simp only [State.ended_reads, State.said_reads]
    exact s.cleared.wrWatchCtl_disarm w hb
  · show Meets (execWatchEventEnqueue w s) _
    refine .run halive (by simp [hlt, hp, hroom, hheld]) ?_
    simp only [State.ended_reads, State.ended_fields, State.cleared_reads, hp]
    refine ⟨?_, ?_⟩
    · rw [State.watchOf_of_same (l := [.rg, .ev, .logs]) ((State.emit_same _ _ _ (by simp)).mpr (Same.refl _ _)) rfl,
        State.watchOf_setWatch]
    · have h := State.emit_front (s.cleared.setWatch w { s.watchOf w with pend := none }) e.toNat none hroom hheld
      rw [BitVec.ofNat_toNat] at h
      exact h
  · show Meets (execEventTaken s) _
    refine .run halive (by simp [hq]) ?_
    simp only [State.ended_fields, State.cleared_fields, hq]
    generalize hu : State.drive _ _ = u
    have hout : u.out = [.event w (crc16 (leBytes 16 w.toNat))] := by rw [← hu]; rfl
    have hque : u.ev.queue = rest := by rw [← hu]; rfl
    have hm : Same (mask [.rg, .ev, .logs]) u (State.pumpEvents 256 u) := by simp
    have ho : u.out = _ := hm .out rfl
    exact ⟨by rw [← ho, hout], hque ▸ State.pumpEvents_queued 256 u⟩

end Sys2Proof.Machine

namespace Sys2Proof.Machine

/-! ## The atomic cache -/

theorem State.mem_atcDrop (s : State) (p : AtcEntry → Bool) (e : AtcEntry) :
    e ∈ (s.atcDrop p).atc.cache ↔ e ∈ s.atc.cache ∧ (p e && s.atcIdle e.key) = false := by
  unfold State.atcDrop
  rw [List.mem_filter, Bool.not_eq_true']

theorem State.atcTrim_queue (s : State) (key : Nat) : (s.atcTrim key).atc.queue = s.atc.queue := by
  unfold State.atcTrim
  split <;> rfl

/-- Steps that leave the transfer engines leave them together. -/
theorem foldl_eng {α : Type} {f : State → α → State} (h : ∀ t x, (f t x).eng = t.eng) (l : List α) (s : State) :
    (l.foldl f s).eng = s.eng :=
  foldl_keeps (R := fun u v : State => v.eng = u.eng) (fun _ => rfl) (fun h h' => by exact h'.trans h) _ h l s

/-- A read that starts stands among the reads. -/
theorem State.startRead_eng (s : State) (use : RdUse) (rs : List (Nat × Nat)) :
    (s.startRead use rs).2.eng = { s.eng with
      next := s.eng.next + 1
      reads := s.eng.reads ++ [RdJob.mk s.eng.next use (s.reqsFor (keysOfAll rs)).length [] false true] } := by
  unfold State.startRead
  dsimp only
  rw [foldl_eng]
  exact fun _ _ => rfl

/-- A write that starts stands among the writes. -/
theorem State.startWrite_eng (s : State) (use : WrUse) (grans : List WrGran) (count : Nat) :
    (s.startWrite use grans count).2.eng = { s.eng with
      next := s.eng.next + 1
      writes := s.eng.writes ++
        [WrJob.mk s.eng.next use (grans.map (·.key)) (s.reqsFor (grans.map (·.key))).length false count true] } := by
  unfold State.startWrite
  dsimp only
  rw [foldl_eng]
  exact fun _ _ => rfl

theorem State.startWrite_atc (s : State) (use : WrUse) (grans : List WrGran) (count : Nat) :
    (s.startWrite use grans count).2.atc = s.atc := by
  have h : Same (mask [.eng, .hm]) s (s.startWrite use grans count).2 := by simp
  exact (h .atc rfl).symm

theorem State.answer_atc (s : State) (p : Packet) (outcome found : Nat) : (s.answer p outcome found).atc = s.atc := by
  have h : Same (mask [.rg, .inj, .pseq, .counts]) s (s.answer p outcome found) := by simp
  exact (h .atc rfl).symm

/-- An atomic that is performed leaves the queue (R126). -/
theorem State.atomDo_queue (s : State) (a : AtomReq) (g : Gran) :
    (s.atomDo a g).atc.queue = s.atc.queue.filter (fun x => decide (x.num ≠ a.num)) := by
  unfold State.atomDo
  dsimp only
  split
  · rw [State.atcTrim_queue, State.answer_atc]
    rfl
  · rw [State.startWrite_atc]
    rfl

/-- What an atomic writes is written through (R126). -/
theorem State.atomDo_writes (s : State) (a : AtomReq) (g : Gran)
    (h : (aopResult (a.pkt.aux % 256) (8 * a.pkt.len) (fld g.data.toNat (8 * (a.pkt.offset % 64)) (8 * a.pkt.len))
      (a.pkt.h5.toNat % 2 ^ (8 * a.pkt.len)) (a.pkt.h6.toNat % 2 ^ (8 * a.pkt.len))).isSome = true) :
    ∃ j ∈ (s.atomDo a g).eng.writes,
      j.use = .atom a.pkt (BitVec.ofNat 64 (fld g.data.toNat (8 * (a.pkt.offset % 64)) (8 * a.pkt.len))) := by
  obtain ⟨v, hv⟩ := Option.isSome_iff_exists.mp h
  unfold State.atomDo
  dsimp only
  rw [hv]
  dsimp only
  rw [State.startWrite_eng]
  exact ⟨_, List.mem_append_right _ (List.mem_singleton_self _), rfl⟩

/-- An atomic whose granule is in the cache is performed on it. -/
theorem State.atomStep_hit {s : State} {a : AtomReq} {e : AtcEntry} (harm : s.flt.armed = none)
    (ha : s.atc.queue.find? (fun x => s.atomReady x) = some a)
    (he : s.atc.cache.find? (fun e => decide (e.key = atomKey a.pkt)) = some e) : s.atomStep = s.atomDo a e.data := by
  unfold State.atomStep
  rw [ha]
  dsimp only
  rw [he]
  dsimp only
  rw [State.takeInj_unarmed harm]
  rfl

/-- An atomic whose granule is absent reads it first. -/
theorem State.atomStep_miss {s : State} {a : AtomReq} (ha : s.atc.queue.find? (fun x => s.atomReady x) = some a)
    (he : s.atc.cache.find? (fun e => decide (e.key = atomKey a.pkt)) = none) :
    ∃ j ∈ s.atomStep.eng.reads, j.use = .atom a.num := by
  unfold State.atomStep
  rw [ha]
  dsimp only
  rw [he]
  dsimp only
  rw [State.startRead_eng]
  exact ⟨_, List.mem_append_right _ (List.mem_singleton_self _), rfl⟩

/-- Settles O16. -/
theorem atomicCacheHoldsAndPerforms : Obligations.AtomicCacheHoldsAndPerforms := by
  refine ⟨fun s a p hw hb => ?_, fun s g halive hg => ?_, fun s a halive harm ha => ?_⟩
  · show Meets (execAtcFlush a s) _
    unfold execAtcFlush
    rw [RgAcc.force_eq hb]
    refine .regCmd rfl hw fun o e => ?_
    have hb' : a.data.toNat.testBit 8 = true := hb
    simp only [State.ended_fields, State.said_fields, State.wrAtcCfg, hb', if_true, State.mem_atcDrop, Bool.true_and]
    exact Iff.rfl
  · obtain ⟨x, hx, hkey, hdue, hidle⟩ := hg
    show Meets (execAtcHoldExpire g s) _
    refine .run halive ?_ fun e => ?_
    · rw [List.any_eq_true]
      exact ⟨x, hx, by simp [hkey, hdue, hidle]⟩
    · have hi : s.cleared.atcIdle e.key = s.atcIdle e.key := rfl
      simp only [State.ended_fields, State.mem_atcDrop, State.cleared_fields, hi]
      refine and_congr_right fun _ => ?_
      rw [← Bool.not_eq_true, not_congr]
      simp only [Bool.and_eq_true, decide_eq_true_eq]
      exact ⟨fun h => h.1, fun h => ⟨h, by rw [h.1]; exact hidle⟩⟩
  · show Meets (execAtomicPerform s) _
    refine .run halive ?_ ⟨fun e he => ?_, fun he => ?_⟩
    · have hm := List.mem_of_find?_eq_some ha
      have hr := List.find?_some ha
      exact List.any_eq_true.mpr ⟨a, hm, hr⟩
    · have hs : s.cleared.atomStep = _ := State.atomStep_hit (s := s.cleared) harm ha he
      simp only [State.ended_fields, hs]
      exact ⟨State.atomDo_queue _ _ _, fun hr => State.atomDo_writes _ _ _ hr⟩
    · simp only [State.ended_fields]
      exact State.atomStep_miss (s := s.cleared) ha he

end Sys2Proof.Machine

namespace Sys2Proof.Machine

/-! ## What the transfer engines leave of a host memory port

They put requests in its wait queues. What is outstanding there, and the tags in quarantine, only its own commands change. -/

/-- A host memory port without its wait queues. -/
def HmPort.sent (h : HmPort) : List RdOut × List Nat × List WrOut × List Nat := (h.rdOut, h.rdQuar, h.wrOut, h.wrQuar)

/-- In `t` as much is outstanding on every host memory port as in `s`, under the same tags. -/
def HmOut (s t : State) : Prop := ∀ p, (t.hmPort p).sent = (s.hmPort p).sent

@[simp, refl] theorem HmOut.refl (s : State) : HmOut s s := fun _ => rfl
theorem HmOut.symm {s t : State} (h : HmOut s t) : HmOut t s := fun p => (h p).symm
theorem HmOut.trans {s t u : State} (h : HmOut s t) (h' : HmOut t u) : HmOut s u := fun p => (h' p).trans (h p)

theorem HmOut.lift {s t : State} (h : HmOut s t) (s₀ : State) : HmOut s₀ t ↔ HmOut s₀ s :=
  ⟨fun h' => h'.trans h.symm, fun h' => h'.trans h⟩

theorem HmOut.of_same {s t : State} {l : List Fld} (h : Same (mask l) s t) (hl : Fld.hm.bit &&& mask l = 0) : HmOut s t :=
  fun p => congrArg (fun m => (SMap.get (fun _ => HmPort.reset) m p).sent) (h .hm hl).symm

theorem HmOut.skip {s t : State} {l : List Fld} (s₀ : State) (h : Same (mask l) s t) (hl : Fld.hm.bit &&& mask l = 0) :
    HmOut s₀ t ↔ HmOut s₀ s := (HmOut.of_same h hl).lift s₀

theorem HmOut.rdOut {s t : State} (h : HmOut s t) (p : Nat) : (t.hmPort p).rdOut = (s.hmPort p).rdOut := (congrArg (·.1) (h p) :)
theorem HmOut.rdQuar {s t : State} (h : HmOut s t) (p : Nat) : (t.hmPort p).rdQuar = (s.hmPort p).rdQuar :=
  (congrArg (·.2.1) (h p) :)
theorem HmOut.wrOut {s t : State} (h : HmOut s t) (p : Nat) : (t.hmPort p).wrOut = (s.hmPort p).wrOut :=
  (congrArg (·.2.2.1) (h p) :)
theorem HmOut.wrQuar {s t : State} (h : HmOut s t) (p : Nat) : (t.hmPort p).wrQuar = (s.hmPort p).wrQuar :=
  (congrArg (·.2.2.2) (h p) :)

@[simp] theorem HmOut.ite_iff {s₀ : State} (c : Prop) [Decidable c] (s t : State) :
    HmOut s₀ (if c then s else t) ↔ if c then HmOut s₀ s else HmOut s₀ t := by split <;> rfl

@[simp] theorem HmOut.foldl_iff {α : Type} {s₀ : State} {f : State → α → State} (h : ∀ t x, HmOut t (f t x))
    (l : List α) (s : State) : HmOut s₀ (l.foldl f s) ↔ HmOut s₀ s :=
  HmOut.lift (foldl_keeps HmOut.refl HmOut.trans f h l s) s₀

section
variable {s₀ : State}

@[simp] theorem HmOut.with_eng {s : State} {x : Engines} : HmOut s₀ { s with eng := x } ↔ HmOut s₀ s := Iff.rfl
@[simp] theorem HmOut.with_atc {s : State} {x : Atc} : HmOut s₀ { s with atc := x } ↔ HmOut s₀ s := Iff.rfl
@[simp] theorem HmOut.with_streams {s : State} {x : List Stream} : HmOut s₀ { s with streams := x } ↔ HmOut s₀ s := Iff.rfl

theorem State.hmPort_modHm_same (s : State) (p : Nat) (f : HmPort → HmPort) : (s.modHm p f).hmPort p = f (s.hmPort p) :=
  SMap.get_set_same _ _ _ _

theorem State.hmPort_modHm_other (s : State) {p q : Nat} (f : HmPort → HmPort) (h : q ≠ p) :
    (s.modHm p f).hmPort q = s.hmPort q := SMap.get_set_other _ _ _ h

theorem State.modHm_hmOut (s : State) (p : Nat) {f : HmPort → HmPort} (hf : ∀ h, (f h).sent = h.sent) :
    HmOut s₀ (s.modHm p f) ↔ HmOut s₀ s := by
  refine HmOut.lift (fun q => ?_) s₀
  by_cases hq : q = p
  · subst hq
    rw [State.hmPort_modHm_same, hf]
  · rw [State.hmPort_modHm_other _ _ hq]

@[simp] theorem State.modHm_rdWait_hmOut (s : State) (p : Nat) (w : HmPort → List RdReq) :
    HmOut s₀ (s.modHm p (fun h => { h with rdWait := w h })) ↔ HmOut s₀ s := State.modHm_hmOut s p (fun _ => rfl)

@[simp] theorem State.modHm_wrWait_hmOut (s : State) (p : Nat) (w : HmPort → List WrReq) :
    HmOut s₀ (s.modHm p (fun h => { h with wrWait := w h })) ↔ HmOut s₀ s := State.modHm_hmOut s p (fun _ => rfl)

@[simp] theorem State.takeEcc_hmOut (s : State) (code inst cls atype master : Nat) :
    HmOut s₀ (s.takeEcc code inst cls atype master).2 ↔ HmOut s₀ s :=
  HmOut.skip s₀ (l := [.rg, .flt]) (by simp) rfl

@[simp] theorem State.record_hmOut (s : State) (src kind sub tag q2 q3 : Nat) :
    HmOut s₀ (s.record src kind sub tag q2 q3) ↔ HmOut s₀ s :=
  HmOut.skip s₀ (l := [.rg, .ev, .logs]) (by simp) rfl

@[simp] theorem State.respond_hmOut (s : State) (h : Hd) (pay : List Byte) (key : Option (Nat × Nat)) :
    HmOut s₀ (s.respond h pay key) ↔ HmOut s₀ s :=
  HmOut.skip s₀ (l := [.rg, .inj, .pseq, .counts]) (by simp) rfl

@[simp] theorem State.answer_hmOut (s : State) (p : Packet) (outcome : Nat) (found : Nat) :
    HmOut s₀ (s.answer p outcome found) ↔ HmOut s₀ s :=
  HmOut.skip s₀ (l := [.rg, .inj, .pseq, .counts]) (by simp) rfl

@[simp] theorem State.modGroup_hmOut (s : State) (g : Nat) (f : Group → Group) :
    HmOut s₀ (s.modGroup g f) ↔ HmOut s₀ s :=
  HmOut.skip s₀ (l := [.groups]) (by simp) rfl

@[simp] theorem State.modInst_hmOut (s : State) (g : Nat) (f : CollInst → CollInst) :
    HmOut s₀ (s.modInst g f) ↔ HmOut s₀ s :=
  HmOut.skip s₀ (l := [.groups]) (by simp) rfl

@[simp] theorem State.cntRead_hmOut (s : State) (k n : Nat) :
    HmOut s₀ (s.cntRead k n) ↔ HmOut s₀ s :=
  HmOut.skip s₀ (l := [.ccnt]) (by simp) rfl

@[simp] theorem State.startRead_hmOut (s : State) (use : RdUse) (rs : List (Nat × Nat)) :
    HmOut s₀ (s.startRead use rs).2 ↔ HmOut s₀ s := 
  HmOut.lift (by simp [State.startRead]) s₀

@[simp] theorem State.startWrite_hmOut (s : State) (use : WrUse) (grans : List WrGran) (count : Nat) :
    HmOut s₀ (s.startWrite use grans count).2 ↔ HmOut s₀ s := 
  HmOut.lift (by simp [State.startWrite]) s₀

@[simp] theorem State.addTally_hmOut (s : State) (n : Nat) (v : Nat) :
    HmOut s₀ (s.addTally n v) ↔ HmOut s₀ s :=
  HmOut.skip s₀ (l := [.free, .rg, .chans, .scal, .tally, .watch, .ev, .flt, .logs]) (by simp) rfl

@[simp] theorem State.recordDone_hmOut (s : State) (k ord : Nat) (ok : Bool) :
    HmOut s₀ (s.recordDone k ord ok) ↔ HmOut s₀ s :=
  HmOut.skip s₀ (l := [.rg, .chans, .scal, .ev, .logs]) (by simp) rfl

@[simp] theorem State.collToken_hmOut (s : State) (c : CollInst) (opcode r cphase half dim : Nat) (scount : Nat) (rmode
    : Nat) (dir : Option Nat) :
    HmOut s₀ (s.collToken c opcode r cphase half dim scount rmode dir).1 ↔ HmOut s₀ s :=
  HmOut.skip s₀ (l := [.rg, .chans, .inj, .pseq, .reins, .counts, .ccnt]) (by simp) rfl

@[simp] theorem State.collAbort_hmOut (s : State) (g reason outcome addr : Nat) :
    HmOut s₀ (s.collAbort g reason outcome addr) ↔ HmOut s₀ s :=
  HmOut.skip s₀ (l := [.rg, .chans, .eng, .inj, .pseq, .counts, .groups]) (by simp) rfl

@[simp] theorem State.collSendAll_hmOut (s : State) (g : Nat) :
    HmOut s₀ (s.collSendAll g) ↔ HmOut s₀ s :=
  HmOut.skip s₀ (l := [.rg, .chans, .eng, .inj, .pseq, .tows, .reins, .counts, .ccnt, .groups]) (by simp) rfl

@[simp] theorem State.collAsks_hmOut (s : State) (g : Nat) :
    HmOut s₀ (s.collAsks g) ↔ HmOut s₀ s :=
  HmOut.skip s₀ (l := [.rg, .chans, .inj, .pseq, .reins, .counts, .ccnt, .groups]) (by simp) rfl

@[simp] theorem State.colAnswer_hmOut (s : State) (p : Packet) (outcome : Nat) (discarded : Bool) :
    HmOut s₀ (s.colAnswer p outcome discarded) ↔ HmOut s₀ s :=
  HmOut.skip s₀ (l := [.rg, .chans, .inj, .pseq, .counts]) (by simp) rfl

@[simp] theorem State.collAcks_hmOut (s : State) (g : Nat) :
    HmOut s₀ (s.collAcks g) ↔ HmOut s₀ s :=
  HmOut.skip s₀ (l := [.rg, .chans, .inj, .pseq, .counts, .groups]) (by simp) rfl

theorem State.collRead1_hmOut (s : State) (g : Nat) (t : State) (h : s.collRead1 g = some t) : HmOut s t := by
  unfold State.collRead1 at h
  dsimp only at h
  repeat' split at h
  all_goals cases h <;> simp

@[simp] theorem State.collReads_hmOut (n : Nat) (s : State) (g : Nat) :
    HmOut s₀ (State.collReads n s g) ↔ HmOut s₀ s := by
  refine HmOut.lift ?_ s₀
  induction n generalizing s with
  | zero => rfl
  | succ n ih =>
    unfold State.collReads
    split
    · next t h => exact (s.collRead1_hmOut g t h).trans (ih t)
    · rfl

@[simp] theorem State.collWrite_hmOut (s : State) (g kind : Nat) (rs : List (Nat × List Byte)) (pkt : Option Packet) :
    HmOut s₀ (s.collWrite g kind rs pkt) ↔ HmOut s₀ s := by
  refine HmOut.lift ?_ s₀
  unfold State.collWrite
  dsimp only
  repeat' split
  all_goals simp

@[simp] theorem State.collFins_hmOut (s : State) (g : Nat) :
    HmOut s₀ (s.collFins g) ↔ HmOut s₀ s := by
  refine HmOut.lift ?_ s₀
  unfold State.collFins
  split <;> simp

@[simp] theorem State.collWritten_hmOut (s : State) (g : Nat) (seq : HWord) (kind : Nat) (gb : List (Nat × Nat)) (addr :
    Nat) (pkt : Option Packet) (ok : Bool) :
    HmOut s₀ (s.collWritten g seq kind gb addr pkt ok) ↔ HmOut s₀ s :=
  HmOut.skip s₀ (l := [.free, .rg, .chans, .scal, .tally, .watch, .ev, .inj, .pseq, .counts, .flt, .logs, .groups]) (by simp) rfl

@[simp] theorem State.collTokens_hmOut (s : State) (g : Nat) :
    HmOut s₀ (s.collTokens g) ↔ HmOut s₀ s := by
  refine HmOut.lift ?_ s₀
  unfold State.collTokens
  dsimp only
  repeat' split
  all_goals simp

@[simp] theorem State.collEnd_hmOut (s : State) (g : Nat) :
    HmOut s₀ (s.collEnd g) ↔ HmOut s₀ s :=
  HmOut.skip s₀ (l := [.rg, .chans, .scal, .ev, .ccnt, .logs, .groups]) (by simp) rfl

@[simp] theorem State.collIssued_hmOut (s : State) (g : Nat) :
    HmOut s₀ (s.collIssued g) ↔ HmOut s₀ s :=
  HmOut.skip s₀ (l := [.chans, .ccnt]) (by simp) rfl

@[simp] theorem State.collPump_hmOut (s : State) (g : Nat) :
    HmOut s₀ (s.collPump g) ↔ HmOut s₀ s := 
  HmOut.lift (by simp [State.collPump]) s₀

@[simp] theorem State.collOpen_hmOut (s : State) (g : Nat) (v : Quad) :
    HmOut s₀ (s.collOpen g v) ↔ HmOut s₀ s :=
  HmOut.skip s₀ (l := [.rg, .chans, .eng, .inj, .pseq, .reins, .counts, .flt, .ccnt, .groups]) (by simp) rfl

@[simp] theorem State.collRefuse_hmOut (s : State) (k : Nat) (f : Flight) (status outcome addr fails : Nat) :
    HmOut s₀ (s.collRefuse k f status outcome addr fails) ↔ HmOut s₀ s :=
  HmOut.skip s₀ (l := [.rg, .chans, .scal, .ev, .ccnt, .logs]) (by simp) rfl

@[simp] theorem State.collTurn_hmOut (s : State) (g : Nat) :
    HmOut s₀ (s.collTurn g) ↔ HmOut s₀ s := by
  refine HmOut.lift ?_ s₀
  unfold State.collTurn
  dsimp only
  split <;> simp

@[simp] theorem State.collReadDone_hmOut (s : State) (g job : Nat) (got : List (Nat × Gran)) (err : Bool) :
    HmOut s₀ (s.collReadDone g job got err) ↔ HmOut s₀ s := by
  refine HmOut.lift ?_ s₀
  unfold State.collReadDone
  dsimp only
  repeat' split
  all_goals simp

@[simp] theorem State.collHeadDone_hmOut (s : State) (g : Nat) (got : List (Nat × Gran)) (err : Bool) :
    HmOut s₀ (s.collHeadDone g got err) ↔ HmOut s₀ s := by
  refine HmOut.lift ?_ s₀
  unfold State.collHeadDone
  dsimp only
  repeat' split
  all_goals simp

@[simp] theorem State.serveWrite_hmOut (s : State) (p : Packet) :
    HmOut s₀ (s.serveWrite p) ↔ HmOut s₀ s := 
  HmOut.lift (by simp [State.serveWrite]) s₀

@[simp] theorem State.serveRead_hmOut (s : State) (p : Packet) :
    HmOut s₀ (s.serveRead p) ↔ HmOut s₀ s := 
  HmOut.lift (by simp [State.serveRead]) s₀

@[simp] theorem State.streamTurn_hmOut (s : State) (c r : Nat) :
    HmOut s₀ (s.streamTurn c r) ↔ HmOut s₀ s := by
  refine HmOut.lift ?_ s₀
  unfold State.streamTurn
  dsimp only
  repeat' split
  all_goals simp

@[simp] theorem State.streamDone_hmOut (s : State) (p : Packet) :
    HmOut s₀ (s.streamDone p) ↔ HmOut s₀ s := 
  HmOut.lift (by simp [State.streamDone]) s₀

@[simp] theorem State.serveDone_hmOut (s : State) (p : Packet) (got : List (Nat × Gran)) (err : Bool) :
    HmOut s₀ (s.serveDone p got err) ↔ HmOut s₀ s := 
  HmOut.lift (by simp [State.serveDone]) s₀

@[simp] theorem State.writeServed_hmOut (s : State) (p : Packet) (count : Nat) (err : Bool) :
    HmOut s₀ (s.writeServed p count err) ↔ HmOut s₀ s := 
  HmOut.lift (by simp [State.writeServed]) s₀

@[simp] theorem State.atcTrim_hmOut (s : State) (key : Nat) :
    HmOut s₀ (s.atcTrim key) ↔ HmOut s₀ s :=
  HmOut.skip s₀ (l := [.atc]) (by simp) rfl

@[simp] theorem State.atcPut_hmOut (s : State) (key : Nat) (g : Gran) :
    HmOut s₀ (s.atcPut key g) ↔ HmOut s₀ s :=
  HmOut.skip s₀ (l := [.atc]) (by simp) rfl

@[simp] theorem State.atomDo_hmOut (s : State) (a : AtomReq) (g : Gran) :
    HmOut s₀ (s.atomDo a g) ↔ HmOut s₀ s := by
  refine HmOut.lift ?_ s₀
  unfold State.atomDo
  dsimp only
  split <;> simp

@[simp] theorem State.atomRead_hmOut (s : State) (num : Nat) (got : List (Nat × Gran)) (err : Bool) :
    HmOut s₀ (s.atomRead num got err) ↔ HmOut s₀ s := by
  refine HmOut.lift ?_ s₀
  unfold State.atomRead
  dsimp only
  repeat' split
  all_goals simp

@[simp] theorem State.atomWritten_hmOut (s : State) (p : Packet) (found : Quad) (err : Bool) :
    HmOut s₀ (s.atomWritten p found err) ↔ HmOut s₀ s :=
  HmOut.skip s₀ (l := [.rg, .atc, .inj, .pseq, .counts]) (by simp) rfl

@[simp] theorem State.fragRead_hmOut (s : State) (k ord id : Nat) (got : List (Nat × Gran)) (err : Bool) :
    HmOut s₀ (s.fragRead k ord id got err) ↔ HmOut s₀ s :=
  HmOut.skip s₀ (l := [.rg, .chans, .scal, .ev, .flt, .ccnt, .logs]) (by simp) rfl

@[simp] theorem State.readDone_hmOut (s : State) (j : RdJob) :
    HmOut s₀ (s.readDone j) ↔ HmOut s₀ s := by
  refine HmOut.lift ?_ s₀
  unfold State.readDone
  split <;> simp

@[simp] theorem State.getWritten_hmOut (s : State) (k ord : Nat) (fr : Frag) (poison : Bool) (count : Nat) (err : Bool) :
    HmOut s₀ (s.getWritten k ord fr poison count err) ↔ HmOut s₀ s :=
  HmOut.skip s₀ (l := [.free, .rg, .chans, .scal, .tally, .watch, .ev, .flt, .logs]) (by simp) rfl

@[simp] theorem State.rmemDone_hmOut (s : State) (k ord outcome : Nat) :
    HmOut s₀ (s.rmemDone k ord outcome) ↔ HmOut s₀ s :=
  HmOut.skip s₀ (l := [.rg, .chans, .scal, .ev, .logs]) (by simp) rfl

@[simp] theorem State.writeDone_hmOut (s : State) (j : WrJob) :
    HmOut s₀ (s.writeDone j) ↔ HmOut s₀ s := by
  refine HmOut.lift ?_ s₀
  unfold State.writeDone
  split <;> simp

@[simp] theorem State.readPart_hmOut (s : State) (id : Nat) (err : Bool) :
    HmOut s₀ (s.readPart id err) ↔ HmOut s₀ s := by
  refine HmOut.lift ?_ s₀
  unfold State.readPart
  split <;> simp

@[simp] theorem State.writePart_hmOut (s : State) (id : Nat) (err : Bool) :
    HmOut s₀ (s.writePart id err) ↔ HmOut s₀ s := by
  refine HmOut.lift ?_ s₀
  unfold State.writePart
  split <;> simp

@[simp] theorem State.ack_hmOut (s : State) (code inst raises : Nat) :
    HmOut s₀ (s.ack code inst raises).2 ↔ HmOut s₀ s :=
  HmOut.skip s₀ (l := [.out, .rg, .chans, .ra, .ev, .tows, .links, .flt, .logs, .phys, .abort, .halt, .mons, .cmap]) (by simp) rfl

end

end Sys2Proof.Machine

namespace Sys2Proof.Machine

/-! ## Host memory ports -/

theorem State.reg_orReg_testBit (s : State) (off i : Nat) (hi : i < 32) :
    ((s.orReg off (BitVec.ofNat 32 (2 ^ i))).reg off).toNat.testBit i = true := by
  unfold State.orReg
  rw [State.reg_setReg_same, BitVec.toNat_or, Nat.testBit_or, BitVec.toNat_ofNat, Nat.mod_eq_of_lt
    (Nat.pow_lt_pow_right (by decide) hi), Nat.testBit_two_pow_self, Bool.or_true]

/-- PROTO stands, and no read or write is touched: what a dropped answer leaves (R380). -/
def HmDropped (p : Nat) (s t : State) : Prop := t.hm = s.hm ∧ t.eng = s.eng ∧ (t.reg (hmReg p 4)).toNat.testBit 28 = true

/-- A detection with its flag leaves the requests of the port. -/
theorem State.hmFlag_dropped {s u : State} (p : Nat) (q : List Instr) (h : Same (mask [.out, .flt]) s u) :
    HmDropped p s ((u.hmFlag p 28).ended q) :=
  ⟨(h .hm rfl).symm, (h .eng rfl).symm, u.reg_orReg_testBit _ 28 (by decide)⟩

/-- Starting afresh with no outputs changes nothing but the outputs. -/
@[simp] theorem State.cleared_same {μ : Nat} {s₀ : State} (s : State) (hμ : Has μ [.out]) : Same μ s₀ s.cleared ↔ Same μ s₀ s :=
  Same.lift hμ s₀ (by simp [State.cleared])

theorem State.hmPort_drive (s : State) (o : Output) (p : Nat) : (s.drive o).hmPort p = s.hmPort p := rfl

/-- The tag of a read that ends is free again. -/
theorem State.hmReadEnd_gone (s : State) (p tag job : Nat) (err : Bool) :
    ∀ q ∈ ((s.hmReadEnd p tag job err).hmPort p).rdOut, q.tag ≠ tag := by
  intro q hq
  have h : HmOut (s.modHm p (fun h => { h with rdOut := h.rdOut.filter (fun x => decide (x.tag ≠ tag)) }))
      (s.hmReadEnd p tag job err) := (State.readPart_hmOut _ _ _).mpr (HmOut.refl _)
  rw [h.rdOut p, State.hmPort_modHm_same] at hq
  exact of_decide_eq_true (List.mem_filter.mp hq).2

/-- What a write that ends leaves outstanding. -/
theorem State.writePart_gone (s : State) (p tag job : Nat) (err : Bool)
    (h : ∀ q ∈ (s.hmPort p).wrOut, q.tag ≠ tag) : ∀ q ∈ ((s.writePart job err).hmPort p).wrOut, q.tag ≠ tag := by
  have hk : HmOut s (s.writePart job err) := by simp
  rw [hk.wrOut p]
  exact h

/-- The last beat of a read ends it, good or not (R377, R380). -/
theorem State.hmBeat_last (s : State) (p : Nat) {x : RdBeat} (r : RdOut) (hx : x.last = true) :
    ∀ q ∈ ((s.hmBeat p x r).hmPort p).rdOut, q.tag ≠ r.tag := by
  unfold State.hmBeat
  simp only [hx, if_true]
  split
  · exact State.hmReadEnd_gone _ _ _ _ _
  · exact State.hmReadEnd_gone _ _ _ _ _

theorem hmLate_find {α : Type} {l : List α} {tag : α → Nat} {n : Nat} {p : α → Bool}
    (h : l.any (fun r => decide (tag r = n) && p r) = true) : ∃ r, l.find? (fun r => decide (tag r = n)) = some r := by
  obtain ⟨r, hr, ht⟩ := List.any_eq_true.mp h
  exact Option.isSome_iff_exists.mp (List.find?_isSome.mpr ⟨r, hr, (Bool.and_eq_true_iff.mp ht).1⟩)

theorem hmReadIssue_meets {s : State} {p tag : Nat} {r : RdReq} {rest : List RdReq} (ha : s.alive = true) (hp : p < 16)
    (hw : (s.hmPort p).rdWait = r :: rest) (hr : s.hmRdRoom p = true)
    (ht : freeHmTag ((s.hmPort p).rdOut.map (·.tag)) (s.hmPort p).rdQuar = some tag) :
    Answers (.hmReadIssue p) s (fun t => t.out = [.hmRead p r.addr (r.keys.length - 1) tag] ∧ (t.hmPort p).rdWait = rest ∧
      (t.hmPort p).rdOut = (s.hmPort p).rdOut ++ [⟨tag, r, 0, false, false, s.now⟩]) := by
  show Meets (execHmReadIssue p s) _
  refine .run ha (by simp [hp, hw, hr]) ?_
  simp only [hw, ht]
  exact ⟨rfl, by simp only [State.ended_reads, State.hmPort_drive]; rw [State.hmPort_modHm_same],
    by simp only [State.ended_reads, State.hmPort_drive]; rw [State.hmPort_modHm_same]; rfl⟩

theorem hmWriteIssue_meets {s : State} {p tag : Nat} {r : WrReq} (ha : s.alive = true) (hp : p < 16)
    (hw : (s.hmPort p).wrWait.find? (fun x => !s.writeWaits x) = some r) (hr : s.hmWrRoom p = true)
    (ht : freeHmTag ((s.hmPort p).wrOut.map (·.tag)) (s.hmPort p).wrQuar = some tag) :
    Answers (.hmWriteIssue p) s (fun t =>
      t.out = [.hmWrite p r.addr tag r.grans (r.grans.map (fun (g : WrGran) => granCrc g.data.toNat))] ∧
      (t.hmPort p).wrWait = dropFirst (fun x => decide (x = r)) (s.hmPort p).wrWait ∧
      (t.hmPort p).wrOut = (s.hmPort p).wrOut ++ [⟨tag, r, s.now⟩]) := by
  have hany : (s.hmPort p).wrWait.any (fun r => !s.writeWaits r) = true :=
    by
    have hf := List.find?_some hw
    exact List.any_eq_true.mpr ⟨r, List.mem_of_find?_eq_some hw, hf⟩
  have hw' : (s.hmPort p).wrWait.find? (fun r => !s.cleared.writeWaits r) = some r := hw
  show Meets (execHmWriteIssue p s) _
  refine .run ha (by simp [hp, hany, hr]) ?_
  simp only [hw', ht]
  generalize hu : State.modHm _ p _ = u
  refine ⟨by rw [← hu]; rfl, ?_, ?_⟩
  · show (u.hmPort p).wrWait = _
    rw [← hu, State.hmPort_modHm_same]
    rfl
  · show (u.hmPort p).wrOut = _
    rw [← hu, State.hmPort_modHm_same]
    rfl

theorem hmReadBeat_meets {s : State} {p : Nat} {x : RdBeat} (ha : s.alive = true) (hp : p < 16) (harm : s.flt.armed = none) :
    let good := x.par = parity 17 (x.tag.toNat + put (b2n x.last) 10 1 + put x.sts.toNat 11 2 + put x.poison.toNat 13 4)
    Answers (.hmReadBeat p x) s (fun t => (¬good → HmDropped p s t) ∧
      (good → (∀ r ∈ (s.hmPort p).rdOut, r.tag ≠ x.tag.toNat) → x.tag.toNat ∉ (s.hmPort p).rdQuar → HmDropped p s t) ∧
      (good → ∀ r, (s.hmPort p).rdOut.find? (fun r => decide (r.tag = x.tag.toNat)) = some r → x.last = true →
        ∀ q ∈ (t.hmPort p).rdOut, q.tag ≠ x.tag.toNat)) := by
  intro good
  show Meets (execHmReadBeat p x s) _
  refine .run ha (decide_eq_true hp) ?_
  simp only [State.takeInj_unarmed (s := s.cleared) harm, State.cleared_reads]
  refine ⟨fun hg => ?_, fun hg hnone hq => ?_, fun hg r hr hx => ?_⟩
  · rw [if_pos (by rw [beq_eq_false_iff_ne.mpr hg]; rfl)]
    exact State.hmFlag_dropped (s := s) p _ (by simp)
  · have hf : (s.hmPort p).rdOut.find? (fun r => decide (r.tag = x.tag.toNat)) = none := by simpa using hnone
    rw [if_neg (by rw [beq_iff_eq.mpr hg]; decide), hf]
    dsimp only
    rw [if_neg (by simpa using hq)]
    exact State.hmFlag_dropped (s := s) p _ (by simp)
  · rw [if_neg (by rw [beq_iff_eq.mpr hg]; decide), hr]
    have hf := List.find?_some hr
    have ht : r.tag = x.tag.toNat := of_decide_eq_true hf
    rw [← ht]
    exact State.hmBeat_last s.cleared p r hx

theorem hmWriteResponse_meets {s : State} {p : Nat} {x : WrRsp} (ha : s.alive = true) (hp : p < 16) (harm : s.flt.armed = none) :
    let good := x.par = parity 12 (x.tag.toNat + put x.sts.toNat 10 2)
    Answers (.hmWriteResponse p x) s (fun t => (¬good → HmDropped p s t) ∧
      (good → (∀ r ∈ (s.hmPort p).wrOut, r.tag ≠ x.tag.toNat) → x.tag.toNat ∉ (s.hmPort p).wrQuar → HmDropped p s t) ∧
      (good → ∀ r, (s.hmPort p).wrOut.find? (fun r => decide (r.tag = x.tag.toNat)) = some r →
        ∀ q ∈ (t.hmPort p).wrOut, q.tag ≠ x.tag.toNat)) := by
  intro good
  show Meets (execHmWriteResponse p x s) _
  refine .run ha (decide_eq_true hp) ?_
  simp only [State.takeInj_unarmed (s := s.cleared) harm, State.cleared_reads]
  refine ⟨fun hg => ?_, fun hg hnone hq => ?_, fun hg r hr => ?_⟩
  · rw [if_pos (by rw [beq_eq_false_iff_ne.mpr hg]; rfl)]
    exact State.hmFlag_dropped (s := s) p _ (by simp)
  · have hf : (s.hmPort p).wrOut.find? (fun r => decide (r.tag = x.tag.toNat)) = none := by simpa using hnone
    rw [if_neg (by rw [beq_iff_eq.mpr hg]; decide), hf]
    dsimp only
    rw [if_neg (by simpa using hq)]
    exact State.hmFlag_dropped (s := s) p _ (by simp)
  · rw [if_neg (by rw [beq_iff_eq.mpr hg]; decide), hr]
    refine State.writePart_gone _ _ _ _ _ fun q hq => ?_
    rw [State.hmPort_modHm_same] at hq
    exact of_decide_eq_true (List.mem_filter.mp hq).2

theorem hmTimeout_meets {s : State} {p tag : Nat} (ha : s.alive = true) (hp : p < 16) :
    (s.hmLate p tag false = true → Answers (.hmTimeout p false tag) s (fun t => tag ∈ (t.hmPort p).rdQuar ∧
      ∀ q ∈ (t.hmPort p).rdOut, q.tag ≠ tag)) ∧
    (s.hmLate p tag true = true → Answers (.hmTimeout p true tag) s (fun t => tag ∈ (t.hmPort p).wrQuar ∧
      ∀ q ∈ (t.hmPort p).wrOut, q.tag ≠ tag)) := by
  refine ⟨fun hl => ?_, fun hl => ?_⟩
  · obtain ⟨r, hr⟩ := hmLate_find (tag := RdOut.tag) hl
    show Meets (execHmTimeout p false tag s) _
    refine .run ha (by simp [hp, hl]) ?_
    simp only [State.cleared_reads, hr, Bool.false_eq_true, if_false]
    refine ⟨?_, State.hmReadEnd_gone _ _ _ _ _⟩
    simp only [State.ended_reads]
    generalize hu : State.modHm _ p (fun h => { h with rdQuar := h.rdQuar ++ [tag] }) = u
    have hq : tag ∈ (u.hmPort p).rdQuar := by
      rw [← hu, State.hmPort_modHm_same]
      exact List.mem_append_right _ (List.mem_singleton_self tag)
    have hk : HmOut (u.modHm p (fun h => { h with rdOut := h.rdOut.filter (fun x => decide (x.tag ≠ tag)) }))
        (u.hmReadEnd p tag r.req.job true) := (State.readPart_hmOut _ _ _).mpr (HmOut.refl _)
    rw [hk.rdQuar p, State.hmPort_modHm_same]
    exact hq
  · obtain ⟨r, hr⟩ := hmLate_find (tag := WrOut.tag) hl
    show Meets (execHmTimeout p true tag s) _
    refine .run ha (by simp [hp, hl]) ?_
    simp only [State.cleared_reads, hr, if_true, State.ended_reads]
    generalize hu : State.modHm _ p _ = u
    have hk : HmOut u (u.writePart r.req.job true) := by simp
    refine ⟨?_, State.writePart_gone _ _ _ _ _ fun q hq => ?_⟩
    · rw [hk.wrQuar p, ← hu, State.hmPort_modHm_same]
      exact List.mem_append_right _ (List.mem_singleton_self tag)
    · rw [← hu, State.hmPort_modHm_same] at hq
      exact of_decide_eq_true (List.mem_filter.mp hq).2

/-- Settles O17. -/
theorem hmRequestsAreIssuedAndAnswered : Obligations.HmRequestsAreIssuedAndAnswered :=
  ⟨fun _ _ _ _ _ ha hp hw hr ht => hmReadIssue_meets ha hp hw hr ht, fun _ _ _ _ ha hp hw hr ht => hmWriteIssue_meets ha hp hw hr ht,
    fun _ _ _ ha hp harm => hmReadBeat_meets ha hp harm, fun _ _ _ ha hp harm => hmWriteResponse_meets ha hp harm,
    fun _ _ _ ha hp => hmTimeout_meets ha hp⟩

end Sys2Proof.Machine

namespace Sys2Proof.Machine

/-! ## Remote access ports -/

theorem State.raPort_modRa_same (s : State) (p : Nat) (f : RaPort → RaPort) : (s.modRa p f).raPort p = f (s.raPort p) :=
  SMap.get_set_same _ _ _ _

theorem State.raPort_modRa_other (s : State) {p q : Nat} (f : RaPort → RaPort) (h : q ≠ p) :
    (s.modRa p f).raPort q = s.raPort q := SMap.get_set_other _ _ _ h

theorem State.raPort_drive (s : State) (o : Output) (p : Nat) : (s.drive o).raPort p = s.raPort p := rfl

theorem State.raPort_of_same {s t : State} {l : List Fld} (h : Same (mask l) s t) (hl : Fld.ra.bit &&& mask l = 0) (q : Nat) :
    t.raPort q = s.raPort q := congrArg (fun m => SMap.get (fun _ => RaPort.reset) m q) (h .ra hl).symm

/-- In `t` no port but `p` differs from `s`, and port `p` lost no response. -/
structure RaAt (p : Nat) (s t : State) : Prop where
  other : ∀ q, q ≠ p → t.raPort q = s.raPort q
  rsp : (s.raPort p).rsp <+: (t.raPort p).rsp

theorem RaAt.refl (p : Nat) (s : State) : RaAt p s s := ⟨fun _ _ => rfl, List.prefix_rfl⟩

theorem RaAt.trans {p : Nat} {s t u : State} (h : RaAt p s t) (h' : RaAt p t u) : RaAt p s u :=
  ⟨fun q hq => (h'.other q hq).trans (h.other q hq), h.rsp.trans h'.rsp⟩

theorem RaAt.of_same {p : Nat} {s t : State} {l : List Fld} (h : Same (mask l) s t) (hl : Fld.ra.bit &&& mask l = 0) :
    RaAt p s t := ⟨fun q _ => State.raPort_of_same h hl q, by rw [State.raPort_of_same h hl]⟩

theorem State.modRa_at (s : State) (p : Nat) {f : RaPort → RaPort} (hf : ∀ r, r.rsp <+: (f r).rsp) : RaAt p s (s.modRa p f) :=
  ⟨fun _ hq => State.raPort_modRa_other _ _ hq, by rw [State.raPort_modRa_same]; exact hf _⟩

theorem State.raRespond_at (s : State) (p tag : Nat) (wr : Bool) (o : Nat) (d : BitVec 2048) :
    RaAt p s (s.raRespond p tag wr o d) := s.modRa_at p fun _ => List.prefix_append _ _

theorem State.raPort_raRespond (s : State) (p tag : Nat) (wr : Bool) (o : Nat) (d : BitVec 2048) :
    (s.raRespond p tag wr o d).raPort p = { s.raPort p with rsp := (s.raPort p).rsp ++ [⟨tag, wr, o, d⟩] } :=
  State.raPort_modRa_same _ _ _

theorem State.raSend_at (s : State) (p : Nat) (wr : Bool) (x : RaAccess) : RaAt p s (s.raSend p wr x) := by
  unfold State.raSend
  dsimp only
  generalize hu : State.useSlot _ _ = u
  have hs : RaAt p s u := by
    rw [← hu]
    exact RaAt.of_same (l := [.rg, .inj, .pseq, .reins, .rrUsed, .counts]) (by simp) rfl
  split
  · exact hs.trans (u.raRespond_at p _ _ _ _)
  · exact hs.trans (u.modRa_at p (f := fun r => { r with loads := r.loads ++ _ }) fun _ => List.prefix_rfl)

theorem RaAt.respond {p : Nat} {s t : State} (h : RaAt p s t) {tag : Nat} {wr : Bool} {o : Nat} {d : BitVec 2048} :
    RaAt p s (t.raRespond p tag wr o d) := h.trans (t.raRespond_at p tag wr o d)

theorem RaAt.raise {p : Nat} {s t : State} (h : RaAt p s t) {code inst cls atype master addr detail : Nat} {inj : Bool} :
    RaAt p s (t.raise code inst cls atype master addr detail inj) := h.trans (RaAt.of_same (l := [.flt]) (by simp) rfl)

theorem RaAt.takeInj {p : Nat} {s t : State} (h : RaAt p s t) {code inst : Nat} : RaAt p s (t.takeInj code inst).2 :=
  h.trans (RaAt.of_same (l := [.rg, .flt]) (by simp) rfl)

theorem State.raAccept_at (s : State) (p : Nat) (wr : Bool) (x : RaAccess) : RaAt p s (s.raAccept p wr x) := by
  have h0 := RaAt.refl p s
  unfold State.raAccept
  dsimp only
  split
  · exact h0.respond
  · split
    · exact h0.takeInj.raise.respond
    · generalize hu : (if wr = true then (s.takeInj 0x24 p).2.takeInj 0x25 p else (false, (s.takeInj 0x24 p).2)) = u
      have h2 : RaAt p s u.2 := by
        rw [← hu]
        split
        · exact h0.takeInj.takeInj
        · exact h0.takeInj
      split
      · exact h2.raise.respond
      · split
        · exact h2.raise.respond
        · split
          · exact h2.respond
          · split
            · exact h2.respond
            · exact h2.trans (State.raSend_at _ _ _ _)

/-- The turn of one port in the round of the withheld accesses (R43, R63). -/
def State.raTry (t : State) (p : Nat) : State :=
  match (t.raPort p).heldAcc with
  | [] => t
  | (wr, x) :: rest =>
    if t.raWithheld p then (if t.reinAdmits (64 + p) then t else t.reinHeld (64 + p))
    else if ¬ (t.shut || t.turn (64 + p)) then t
    else (t.modRa p (fun r => { r with heldAcc := rest })).raAccept p wr x

theorem State.raRelease_eq (s : State) : s.raRelease = [0, 1, 2, 3].foldl State.raTry s := rfl

theorem State.raTry_of_nil {s : State} {p : Nat} (h : (s.raPort p).heldAcc = []) : s.raTry p = s := by
  unfold State.raTry
  rw [h]

theorem State.raTry_at (s : State) (p : Nat) : RaAt p s (s.raTry p) := by
  unfold State.raTry
  split
  · exact RaAt.refl p s
  · split
    · split
      · exact RaAt.refl p s
      · exact RaAt.of_same (l := [.reins]) (by simp) rfl
    · split
      · exact RaAt.refl p s
      · next rest _ _ _ =>
        exact RaAt.trans (s.modRa_at p (f := fun r => { r with heldAcc := rest }) fun _ => List.prefix_rfl)
          (State.raAccept_at _ _ _ _)

/-- With nothing withheld on any port the round does nothing. -/
theorem State.raRelease_of_nil {s : State} (h : ∀ q, q < 4 → (s.raPort q).heldAcc = []) : s.raRelease = s := by
  rw [State.raRelease_eq]
  simp [State.raTry_of_nil, h]

/-- With accesses withheld on one port alone, the round is that port's turn. -/
theorem State.raRelease_of_one {s : State} {p : Nat} (hp : p < 4) (h : ∀ q, q < 4 → q ≠ p → (s.raPort q).heldAcc = []) :
    s.raRelease = s.raTry p := by
  have hq (q : Nat) (hq : q < 4) (hne : q ≠ p) : (s.raTry p).raTry q = s.raTry p :=
    State.raTry_of_nil (by rw [(s.raTry_at p).other q hne]; exact h q hq hne)
  have hs (q : Nat) (hq : q < 4) (hne : q ≠ p) : s.raTry q = s := State.raTry_of_nil (h q hq hne)
  rw [State.raRelease_eq]
  simp only [List.foldl_cons, List.foldl_nil]
  match p, hp with
  | 0, _ => rw [hq 1 (by decide) (by decide), hq 2 (by decide) (by decide), hq 3 (by decide) (by decide)]
  | 1, _ => rw [hs 0 (by decide) (by decide), hq 2 (by decide) (by decide), hq 3 (by decide) (by decide)]
  | 2, _ => rw [hs 0 (by decide) (by decide), hs 1 (by decide) (by decide), hq 3 (by decide) (by decide)]
  | 3, _ => rw [hs 0 (by decide) (by decide), hs 1 (by decide) (by decide), hs 2 (by decide) (by decide)]

/-- No response is lost in the round. -/
theorem State.raRelease_rsp (s : State) (p : Nat) : (s.raPort p).rsp <+: (s.raRelease.raPort p).rsp := by
  have step (t : State) (q : Nat) : (t.raPort p).rsp <+: ((t.raTry q).raPort p).rsp := by
    by_cases h : p = q
    · subst h
      exact (t.raTry_at p).rsp
    · rw [(t.raTry_at q).other p h]
  exact foldl_keeps (R := fun u v : State => (u.raPort p).rsp <+: (v.raPort p).rsp) (fun _ => List.prefix_rfl)
    (fun h h' => h.trans h') _ step _ s

/-! ### An access the host offers -/

section
variable {s : State} {p : Nat}

/-- In `t` no field but the outputs and the remote access ports differs from `s`. -/
def RaOnly (s t : State) : Prop := t = { s with out := t.out, ra := t.ra }

theorem RaOnly.drawInter {s t : State} (h : RaOnly s t) (a b : Pos) (n k : Nat) :
    t.drawInter a b n k = s.drawInter a b n k := by
  unfold RaOnly at h
  rw [h]
  generalize t.out = o, t.ra = r
  induction n generalizing k with
  | zero => rfl
  | succ n ih =>
    unfold State.drawInter
    simp only [ih]
    rfl

/-- How a fragment travels does not depend on the remote access ports. -/
theorem RaOnly.modeOf {s t : State} (h : RaOnly s t) (f : Flight) (chip len bytes : Nat) :
    (t.modeOf f chip len bytes).1 = (s.modeOf f chip len bytes).1 := by
  have hd := h.drawInter
  unfold RaOnly at h
  rw [h] at hd ⊢
  generalize t.out = o, t.ra = r at hd ⊢
  unfold State.modeOf
  have hh : ({ s with out := o, ra := r } : State).here = s.here := rfl
  have hr : ({ s with out := o, ra := r } : State).resolve ({ s with out := o, ra := r } : State).tbl.cur chip
    = s.resolve s.tbl.cur chip := rfl
  have ht (a b : Pos) : ({ s with out := o, ra := r } : State).freeTow a b = s.freeTow a b := rfl
  simp only [hh, hr, ht, hd]
  repeat' split
  all_goals rfl

theorem RaOnly.fragReady {s t : State} (h : RaOnly s t) (k : Nat) : t.fragReady k = s.fragReady k := by
  have hm := h.modeOf
  unfold RaOnly at h
  rw [h] at hm ⊢
  generalize t.out = o, t.ra = r at hm ⊢
  unfold State.fragReady
  simp only [hm]
  rfl

theorem RaOnly.firstHop {s t : State} (h : RaOnly s t) (dst vc opcode ftag : Nat) :
    t.firstHop dst vc opcode ftag = s.firstHop dst vc opcode ftag := by
  unfold RaOnly at h
  rw [h]
  generalize t.out = o, t.ra = r
  have hh : ({ s with out := o, ra := r } : State).here = s.here := rfl
  have hr (e : Bool) (n : Nat) : ({ s with out := o, ra := r } : State).resolve e n = s.resolve e n := rfl
  have hroute (a b : Pos) (p : Packet) (vc : Nat) (travel : Option Nat) (c : Bool) :
      ({ s with out := o, ra := r } : State).routeTo a b p vc travel c = s.routeTo a b p vc travel c := rfl
  unfold State.firstHop
  simp only [hh, hr, hroute]

theorem RaOnly.sourceCheck {s t : State} (h : RaOnly s t) (n vc opcode ftag : Nat) :
    t.sourceCheck n vc opcode ftag = s.sourceCheck n vc opcode ftag := by
  have hf := h.firstHop
  have hm : t.mayOriginate = s.mayOriginate := by
    unfold RaOnly at h
    rw [h]
    rfl
  have hr : t.rangeMapped n = s.rangeMapped n := by
    unfold RaOnly at h
    rw [h]
    rfl
  unfold State.sourceCheck State.reachable
  rw [hm, hr, hf]

theorem RaOnly.raWithheld {s t : State} (h : RaOnly s t) {q : Nat} (hq : (t.raPort q).loads = (s.raPort q).loads)
    (hq' : (t.raPort q).quar = (s.raPort q).quar) : t.raWithheld q = s.raWithheld q := by
  simp only [State.raWithheld, hq, hq']
  unfold RaOnly at h
  rw [h]
  rfl

/-- Whose turn it is in the round does not depend on what the port itself holds. -/
theorem RaOnly.turn {s t : State} (h : RaOnly s t) {p : Nat} (hp : ∀ q, q ≠ p → t.raPort q = s.raPort q) :
    t.turn (64 + p) = s.turn (64 + p) := by
  have hc (j : Nat) (hj : j ≠ 64 + p) : t.claims j = s.claims j := by
    unfold State.claims
    split
    · exact h.fragReady j
    · have ho := hp (j - 64) (by omega)
      rw [ho, h.raWithheld (by rw [ho]) (by rw [ho])]
  have hw (j : Nat) : t.weight j = s.weight j := by
    unfold RaOnly at h
    rw [h]
    rfl
  have hs (j : Nat) : t.slotsOf j = s.slotsOf j := by
    unfold RaOnly at h
    rw [h]
    rfl
  have hch : t.chans = s.chans := by
    unfold RaOnly at h
    rw [h]
  unfold State.turn
  rw [hw, hs, hch]
  refine congrArg _ (List.all_congr rfl fun j => ?_)
  by_cases hj : j = 64 + p
  · simp [hj]
  · rw [hc j hj, hw, hs]

/-- The one access offered where none is withheld has the port's turn. -/
theorem State.raOffer_eq (hp : p < 4) (h : ∀ q, q < 4 → (s.raPort q).heldAcc = []) (wr : Bool) (x : RaAccess) :
    s.raOffer p wr x = (s.modRa p (fun r => { r with heldAcc := [(wr, x)] })).raTry p := by
  have hm : s.modRa p (fun r => { r with heldAcc := r.heldAcc ++ [(wr, x)] })
      = s.modRa p (fun r => { r with heldAcc := [(wr, x)] }) := by
    unfold State.modRa
    dsimp only
    rw [h p hp]
    rfl
  unfold State.raOffer
  rw [hm]
  exact State.raRelease_of_one hp fun q hq hne => by rw [State.raPort_modRa_other _ _ hne]; exact h q hq

/-- A block that is shut answers every access UNREACH (R403). -/
theorem State.raTry_shut {u : State} {wr : Bool} {x : RaAccess} (hh : (u.raPort p).heldAcc = [(wr, x)]) (hs : u.shut = true) :
    ((u.raTry p).raPort p).rsp = (u.raPort p).rsp ++ [⟨x.tag.toNat, wr, 5, 0⟩] := by
  have hw : u.raWithheld p = false := by simp [State.raWithheld, hs]
  have hs' : (u.modRa p (fun r => { r with heldAcc := [] })).shut = true := hs
  unfold State.raTry
  rw [hh]
  simp only [hw, hs, Bool.true_or, not_true_eq_false, if_false, Bool.false_eq_true]
  unfold State.raAccept
  rw [if_pos hs', State.raPort_raRespond, State.raPort_modRa_same]

/-- While the port withholds, the access waits (R43). -/
theorem State.raTry_withheld {u : State} (hw : u.raWithheld p = true) : (u.raTry p).raPort p = u.raPort p := by
  unfold State.raTry
  split
  · rfl
  · rw [if_pos hw]
    split
    · rfl
    · exact State.raPort_of_same (l := [.reins]) (by simp) rfl p

/-- An access that may be taken, at the port's turn. -/
theorem State.raTry_accepts {u : State} {wr : Bool} {x : RaAccess} (hh : (u.raPort p).heldAcc = [(wr, x)])
    (hw : u.raWithheld p = false) (ht : u.turn (64 + p) = true) :
    u.raTry p = (u.modRa p (fun r => { r with heldAcc := [] })).raAccept p wr x := by
  unfold State.raTry
  rw [hh]
  simp only [hw, ht, Bool.or_true, not_true_eq_false, if_false, Bool.false_eq_true]

/-- An access whose parity is good and whose bytes lie in one granule group, of a chip that may be reached. -/
structure GoodAccess (u : State) (wr : Bool) (x : RaAccess) : Prop where
  open_ : u.shut = false
  armed : u.flt.armed = none
  par : x.par = parity 80 (x.addr.toNat + put (b2n wr) 64 1 + put x.lenM1.toNat 65 8 + put x.tag.toNat 73 7)
  span : x.addr.toNat % 256 + x.lenM1.toNat < 256
  source : u.sourceCheck (chipOf x.addr.toNat) 1 (if wr then 0x05 else 0x04) (x.tag.toNat + if wr then 128 else 0) = none

theorem State.raAccept_load {u : State} {x : RaAccess} (h : GoodAccess u false x)
    (hl : (u.raPort p).loads.any (fun l => decide (l.tag = x.tag.toNat)) = false)
    (hq : (u.raPort p).quar.any (fun q => decide (q.1 = x.tag.toNat)) = false) : u.raAccept p false x = u.raSend p false x := by
  obtain ⟨hs, harm, hpar, hspan, hsrc⟩ := h
  unfold State.raAccept
  simp only [hs, State.takeInj_unarmed harm, Bool.false_eq_true, if_false] at hsrc ⊢
  rw [if_neg (by rw [beq_iff_eq.mpr hpar]; decide), if_neg (fun h => h.1), if_neg (by simp [hl, hq]), if_neg (by omega), hsrc]

theorem State.raAccept_store {u : State} {x : RaAccess} (h : GoodAccess u true x) (hc : raCrcBad x false = false) :
    u.raAccept p true x = u.raSend p true x := by
  obtain ⟨hs, harm, hpar, hspan, hsrc⟩ := h
  unfold State.raAccept
  simp only [hs, State.takeInj_unarmed harm, Bool.false_eq_true, if_false, if_true, hc] at hsrc ⊢
  rw [if_neg (by rw [beq_iff_eq.mpr hpar]; decide), if_neg (by simp), if_neg (by simp), if_neg (by omega), hsrc]

/-- A load that is sent is outstanding (R42). -/
theorem State.raSend_load (u : State) (p : Nat) (x : RaAccess) :
    ((u.raSend p false x).raPort p).loads.map (fun l => (l.tag, l.addr, l.len)) =
      (u.raPort p).loads.map (fun l => (l.tag, l.addr, l.len)) ++ [(x.tag.toNat, x.addr, x.lenM1.toNat + 1)] := by
  unfold State.raSend
  dsimp only
  rw [if_neg (by decide), State.raPort_modRa_same,
    State.raPort_of_same (s := u) (l := [.rg, .inj, .pseq, .reins, .rrUsed, .counts]) (by simp) rfl]
  simp

/-- A store is answered as soon as it is sent (R42). -/
theorem State.raSend_store (u : State) (p : Nat) (x : RaAccess) :
    ((u.raSend p true x).raPort p).rsp = (u.raPort p).rsp ++ [⟨x.tag.toNat, true, 0, 0⟩] := by
  unfold State.raSend
  dsimp only
  rw [if_pos rfl, State.raPort_raRespond,
    State.raPort_of_same (s := u) (l := [.rg, .inj, .pseq, .reins, .rrUsed, .counts]) (by simp) rfl]

end

/-- `u` is `s` with one access offered on port `p`, where none was withheld on any port. -/
structure Offered (p : Nat) (wr : Bool) (x : RaAccess) (s u : State) : Prop where
  port : u.raPort p = { s.raPort p with heldAcc := [(wr, x)] }
  shut : u.shut = s.shut
  withheld : u.raWithheld p = s.raWithheld p
  turn : u.turn (64 + p) = s.turn (64 + p)
  good : GoodAccess s wr x → GoodAccess (u.modRa p (fun r => { r with heldAcc := [] })) wr x

theorem State.raOffer_offered {s : State} {p : Nat} (hp : p < 4) (h : ∀ q, q < 4 → (s.raPort q).heldAcc = []) (wr : Bool)
    (x : RaAccess) : ∃ u, Offered p wr x s u ∧ s.cleared.raOffer p wr x = u.raTry p := by
  refine ⟨s.cleared.modRa p (fun r => { r with heldAcc := [(wr, x)] }), ?_, State.raOffer_eq (s := s.cleared) hp h wr x⟩
  have hport : (s.cleared.modRa p (fun r => { r with heldAcc := [(wr, x)] })).raPort p
      = { s.raPort p with heldAcc := [(wr, x)] } := State.raPort_modRa_same _ _ _
  have ho : RaOnly s (s.cleared.modRa p (fun r => { r with heldAcc := [(wr, x)] })) := rfl
  refine ⟨hport, rfl, ho.raWithheld (by rw [hport]) (by rw [hport]), ho.turn fun q hq => State.raPort_modRa_other _ _ hq,
    fun hg => ?_⟩
  obtain ⟨hs, harm, hpar, hspan, hsrc⟩ := hg
  refine ⟨hs, harm, hpar, hspan, ?_⟩
  have ho' : RaOnly s ((s.cleared.modRa p (fun r => { r with heldAcc := [(wr, x)] })).modRa p (fun r => { r with heldAcc := [] })) :=
    rfl
  rw [ho'.sourceCheck]
  exact hsrc

section
variable {s u : State} {p : Nat} {wr : Bool} {x : RaAccess} (h : Offered p wr x s u)
include h

theorem Offered.of_shut (hs : s.shut = true) :
    ((u.raTry p).raPort p).rsp = (s.raPort p).rsp ++ [⟨x.tag.toNat, wr, 5, 0⟩] := by
  rw [State.raTry_shut (by rw [h.port]) (by rw [h.shut, hs]), h.port]

theorem Offered.of_withheld (hw : s.raWithheld p = true) :
    ((u.raTry p).raPort p).heldAcc = [(wr, x)] ∧ ((u.raTry p).raPort p).loads = (s.raPort p).loads := by
  rw [State.raTry_withheld (by rw [h.withheld, hw]), h.port]
  exact ⟨rfl, rfl⟩

theorem Offered.of_turn (hw : s.raWithheld p = false) (ht : s.turn (64 + p) = true) :
    u.raTry p = (u.modRa p (fun r => { r with heldAcc := [] })).raAccept p wr x ∧
      (u.modRa p (fun r => { r with heldAcc := [] })).raPort p = { s.raPort p with heldAcc := [] } := by
  refine ⟨State.raTry_accepts (by rw [h.port]) (by rw [h.withheld, hw]) (by rw [h.turn, ht]), ?_⟩
  rw [State.raPort_modRa_same, h.port]

end

theorem raLoad_meets {s : State} {p : Nat} {x : RaAccess} (halive : s.alive = true) (hp : p < 4) (harm : s.flt.armed = none)
    (hheld : ∀ q, q < 4 → (s.raPort q).heldAcc = []) :
    Answers (.raLoad p x) s (fun t =>
      (s.shut = true → (t.raPort p).rsp = (s.raPort p).rsp ++ [⟨x.tag.toNat, false, 5, 0⟩]) ∧
      (s.raWithheld p = true → (t.raPort p).heldAcc = [(false, x)] ∧ (t.raPort p).loads = (s.raPort p).loads) ∧
      (s.shut = false → s.raWithheld p = false → s.turn (64 + p) = true →
        x.par = parity 80 (x.addr.toNat + put (b2n false) 64 1 + put x.lenM1.toNat 65 8 + put x.tag.toNat 73 7) →
        (s.raPort p).loads.any (fun l => decide (l.tag = x.tag.toNat)) = false →
        (s.raPort p).quar.any (fun q => decide (q.1 = x.tag.toNat)) = false →
        x.addr.toNat % 256 + x.lenM1.toNat < 256 → s.sourceCheck (chipOf x.addr.toNat) 1 0x04 x.tag.toNat = none →
        (t.raPort p).loads.map (fun l => (l.tag, l.addr, l.len)) =
          (s.raPort p).loads.map (fun l => (l.tag, l.addr, l.len)) ++ [(x.tag.toNat, x.addr, x.lenM1.toNat + 1)])) := by
  obtain ⟨u, hu, he⟩ := State.raOffer_offered hp hheld false x
  show Meets (execRaLoad p x s) _
  refine .run halive (by simp [hp, hheld p hp]) ?_
  simp only [State.ended_reads, he]
  refine ⟨hu.of_shut, hu.of_withheld, fun hs hw ht hpar hl hq hspan hsrc => ?_⟩
  obtain ⟨ha, hport⟩ := hu.of_turn hw ht
  rw [ha, State.raAccept_load (hu.good ⟨hs, harm, hpar, hspan, hsrc⟩) (by rw [hport]; exact hl) (by rw [hport]; exact hq),
    State.raSend_load, hport]

theorem raStore_meets {s : State} {p : Nat} {x : RaAccess} (halive : s.alive = true) (hp : p < 4) (harm : s.flt.armed = none)
    (hheld : ∀ q, q < 4 → (s.raPort q).heldAcc = []) :
    Answers (.raStore p x) s (fun t =>
      (s.shut = true → (t.raPort p).rsp = (s.raPort p).rsp ++ [⟨x.tag.toNat, true, 5, 0⟩]) ∧
      (s.raWithheld p = true → (t.raPort p).heldAcc = [(true, x)]) ∧
      (s.shut = false → s.raWithheld p = false → s.turn (64 + p) = true →
        x.par = parity 80 (x.addr.toNat + put (b2n true) 64 1 + put x.lenM1.toNat 65 8 + put x.tag.toNat 73 7) →
        raCrcBad x false = false → x.addr.toNat % 256 + x.lenM1.toNat < 256 →
        s.sourceCheck (chipOf x.addr.toNat) 1 0x05 (x.tag.toNat + 128) = none →
        (t.raPort p).rsp = (s.raPort p).rsp ++ [⟨x.tag.toNat, true, 0, 0⟩])) := by
  obtain ⟨u, hu, he⟩ := State.raOffer_offered hp hheld true x
  show Meets (execRaStore p x s) _
  refine .run halive (by simp [hp, hheld p hp]) ?_
  simp only [State.ended_reads, he]
  refine ⟨hu.of_shut, fun hw => (hu.of_withheld hw).1, fun hs hw ht hpar hc hspan hsrc => ?_⟩
  obtain ⟨ha, hport⟩ := hu.of_turn hw ht
  rw [ha, State.raAccept_store (hu.good ⟨hs, harm, hpar, hspan, hsrc⟩) hc, State.raSend_store, hport]

/-- Settles O18. -/
theorem remoteAccessesAreTakenHeldAndAnswered : Obligations.RemoteAccessesAreTakenHeldAndAnswered := by
  refine ⟨fun s p x halive hp harm hheld => ⟨raLoad_meets halive hp harm hheld, raStore_meets halive hp harm hheld⟩,
    fun s p r rest halive hp hr => ?_, fun s p tag l halive hp hrun hl ht hd => ?_⟩
  · show Meets (execRaRspTaken p s) _
    refine .run halive (by simp [hp, hr]) ?_
    simp only [State.cleared_reads, hr, State.ended_reads, State.ended_fields]
    generalize hu : State.drive _ _ = u
    have hout : u.out = [.raResp p r ((List.range 4).map (fun g => granCrc (fld r.data.toNat (512 * g) 512)))] := by
      rw [← hu]
      rfl
    have hrsp : (u.raPort p).rsp = rest := by
      rw [← hu]
      rw [State.raPort_drive, State.raPort_modRa_same]
    have hs : Same (mask [.rg, .ra, .inj, .pseq, .reins, .rrUsed, .counts, .flt]) u u.raRelease := by simp
    have ho : u.out = _ := hs .out rfl
    exact ⟨by rw [← ho, hout], hrsp ▸ u.raRelease_rsp p⟩
  · show Meets (execRaLoadTimeout p tag s) _
    generalize hdue : (fun l : RaLoad => decide (l.tag = tag) && decide (l.at_ + 4 * s.hangTicks ≤ s.now)
      && decide (s.halt.st = .run)) = due
    have hany : (s.raPort p).loads.any due = true := List.any_eq_true.mpr ⟨l, hl, by rw [← hdue]; simp [ht, hd, hrun]⟩
    unfold execRaLoadTimeout
    dsimp only
    rw [hdue]
    refine .run halive (by simp [hp, hany]) ?_
    have hsome : ((s.raPort p).loads.find? due).isSome = true := List.find?_isSome.mpr (List.any_eq_true.mp hany)
    obtain ⟨y, hy⟩ := Option.isSome_iff_exists.mp hsome
    have hf := List.find?_some hy
    rw [← hdue] at hf
    have hyt : y.tag = tag := by
      simp only [Bool.and_eq_true, decide_eq_true_eq] at hf
      exact hf.1.1
    simp only [State.cleared_reads, hy, State.ended_reads]
    unfold State.raEnd
    rw [State.raPort_raRespond, State.raPort_modRa_same, hyt]
    refine ⟨rfl, ⟨y.pseq, ?_⟩, fun q hq => of_decide_eq_true (List.mem_filter.mp hq).2⟩
    exact List.mem_append_right _ (List.mem_singleton_self _)

end Sys2Proof.Machine

namespace Sys2Proof.Machine

/-! ## Packets that pass the checks on arrival -/

/-- In `t` every stored register outside `P` reads as in `s`. -/
def RegsBut (P : Nat → Prop) (s t : State) : Prop := ∀ o, ¬ P o → t.reg o = s.reg o

section
variable {P : Nat → Prop} {s t u : State}

theorem RegsBut.refl (s : State) : RegsBut P s s := fun _ _ => rfl
theorem RegsBut.trans (h : RegsBut P s t) (h' : RegsBut P t u) : RegsBut P s u := fun o ho => (h' o ho).trans (h o ho)

theorem RegsBut.of_same {l : List Fld} (h : Same (mask l) s t) (hl : Fld.rg.bit &&& mask l = 0) : RegsBut P s t :=
  fun o _ => congrArg (fun m => SMap.get regReset m o) (h .rg hl).symm

theorem State.setReg_but (s : State) {o : Nat} (w : Word) (h : P o) : RegsBut P s (s.setReg o w) :=
  fun _ hp => State.reg_setReg_other s w (fun he => hp (he ▸ h))

theorem RegsBut.setReg (h : RegsBut P s t) {o : Nat} (w : Word) (ho : P o) : RegsBut P s (t.setReg o w) :=
  h.trans (t.setReg_but w ho)

theorem RegsBut.incReg (h : RegsBut P s t) {o : Nat} (ho : P o) : RegsBut P s (t.incReg o) := h.setReg _ ho
theorem RegsBut.clrReg (h : RegsBut P s t) {o : Nat} (w : Word) (ho : P o) : RegsBut P s (t.clrReg o w) := h.setReg _ ho
theorem RegsBut.orReg (h : RegsBut P s t) {o : Nat} (w : Word) (ho : P o) : RegsBut P s (t.orReg o w) := h.setReg _ ho

theorem RegsBut.foldl {α : Type} {f : State → α → State} (h : ∀ t x, RegsBut P t (f t x)) (l : List α) (s : State) :
    RegsBut P s (l.foldl f s) := foldl_keeps RegsBut.refl RegsBut.trans f h l s

end

/-- The registers that a packet's arrival counts in, and the injection of a CRC error. -/
def IsArrival (o : Nat) : Prop := o = 0x218 ∨ 0x30000 ≤ o

theorem State.countPkt_but (s : State) (at_ : Nat) (p : Packet) : RegsBut IsArrival s (s.countPkt at_ p) := by
  have hset (u : State) (o v : Nat) (ho : 0x30000 ≤ o) : RegsBut IsArrival u (u.addCnt64 o v) :=
    ((RegsBut.refl u).setReg _ (.inr ho)).setReg _ (.inr (by omega))
  unfold State.countPkt
  dsimp only
  refine ((hset _ _ _ (by omega)).trans (hset _ _ _ (by omega))).trans (RegsBut.foldl (fun t i => ?_) _ _)
  split
  · exact (hset _ _ _ (by omega)).trans (hset _ _ _ (by omega))
  · exact RegsBut.refl t

/-- What a packet that passes its checks has shown, and what counting it changed. -/
structure Passed (h : Held) (s t : State) : Prop where
  same : Same (mask [.rg, .counts]) s t
  regs : RegsBut IsArrival s t
  keyed : keyedOp h.pkt.opcode = true → s.here.isSome = true ∧ s.ident.pkey ≠ 0 ∧
    (h.pkt.opcode < 0xC0 → s.abortHold = false)

theorem State.here_of_regs {s t : State} (h : Same (mask [.rg]) s t) (hr : t.reg 0x120 = s.reg 0x120) : t.here = s.here := by
  have hi : s.ident = t.ident := h .ident rfl
  have ht : s.tbl = t.tbl := h .tbl rfl
  unfold State.here State.resolve State.bank
  rw [← hi, ← ht, hr]

theorem State.checked_passed {s : State} {h : Held} (hok : (s.checked h).1 = true) : Passed h s (s.checked h).2 := by
  unfold State.checked at hok ⊢
  dsimp only at hok ⊢
  generalize hb : decide (h.pkt.t3.toNat ≠ if (s.reg 0x218).toNat.testBit 0 = true then 2 ^ 64 - 1 - h.pkt.crcOf else h.pkt.crcOf) = bad
    at hok ⊢
  generalize hs1 : (if (s.reg 0x218).toNat.testBit 0 = true then
    (if bad = true then (s.clrReg 0x218 1).orReg 0x218 2 else s.clrReg 0x218 1) else s) = s1 at hok ⊢
  have hsame : Same (mask [.rg]) s s1 := by
    rw [← hs1]
    split
    · split <;> simp
    · simp
  have hregs : RegsBut IsArrival s s1 := by
    rw [← hs1]
    have hc := (RegsBut.refl s).clrReg (P := IsArrival) (o := 0x218) 1 (.inl rfl)
    split
    · split
      · exact hc.orReg 2 (.inl rfl)
      · exact hc
    · exact RegsBut.refl s
  have hhere : s1.here = s.here := State.here_of_regs hsame (hregs 0x120 (by unfold IsArrival; omega))
  have hident : s.ident = s1.ident := hsame .ident rfl
  have habort : s.abort = s1.abort := hsame .abort rfl
  clear hs1
  generalize (if h.pkt.rmode = 3 then s1.mcastMember h.pkt else decide (h.pkt.dst = s1.own)) = here at hok ⊢
  split at hok
  · cases hok
  · next hcrc =>
    rw [if_neg hcrc]
    split at hok
    · cases hok
    · next hform =>
      split at hok
      · cases hok
      · next hgen =>
        rw [if_neg hgen]
        split at hok
        · cases hok
        · next hkey =>
          rw [if_neg hkey]
          split at hok
          · cases hok
          · next hpos =>
            rw [if_neg hpos]
            split at hok
            · cases hok
            · next hdst =>
              rw [if_neg hdst]
              refine ⟨?_, ?_, fun hk => ?_⟩
              · have hs2 : Same (mask [.rg, .counts]) s s1 := hsame.mono (by simp)
                split <;> simp [hs2]
              · refine hregs.trans ((?_ : RegsBut IsArrival s1 _).trans (State.countPkt_but _ _ _))
                split
                · exact RegsBut.of_same (l := [.counts]) (by simp) rfl
                · exact RegsBut.refl s1
              · simp only [hk, true_and, not_or, not_and] at hgen hkey hpos
                obtain ⟨hpk, hp0, -⟩ := hkey
                refine ⟨?_, by rw [hident]; exact hp0, fun hlt => ?_⟩
                · rw [← hhere]
                  exact Option.ne_none_iff_isSome.mp (by simpa using hpos)
                · have hown : s1.ownKey h.pkt = true := by
                    simp only [State.ownKey, hk, Bool.true_and, decide_eq_true_eq]
                    exact Classical.not_not.mp hpk
                  have ha := hgen.2 hlt hown
                  unfold State.abortHold at ha ⊢
                  rw [habort]
                  simpa using ha

section
variable {s : State} {i : Nat} {h : Held}

theorem Accepts.passed (ha : Accepts s i h) :
    Passed h ({ s with out := [], eject := dropAt s.eject i } : State) (s.accepted i h) := by
  obtain ⟨-, -, -, -, -, hok⟩ := ha
  exact State.checked_passed hok

/-- Taking a packet that passes changes the berths, the outputs, the counts and the registers that count. -/
theorem Accepts.same (ha : Accepts s i h) : Same (mask [.out, .eject, .rg, .counts]) s (s.accepted i h) := by
  have h0 : Same (mask [.out, .eject, .rg, .counts]) s ({ s with out := [], eject := dropAt s.eject i } : State) := by simp
  exact h0.trans (ha.passed.same.mono (by simp))

theorem Accepts.regs (ha : Accepts s i h) : RegsBut IsArrival s (s.accepted i h) := ha.passed.regs

theorem Accepts.reg (ha : Accepts s i h) {o : Nat} (hne : o ≠ 0x218) (hlt : o < 0x30000) : (s.accepted i h).reg o = s.reg o :=
  ha.regs o (by unfold IsArrival; omega)

theorem Accepts.take (ha : Accepts s i h) (body : State → Held → State) :
    s.cleared.take i body = body (s.accepted i h) h := by
  have hf : (s.accepted i h).pfence = false := by
    rw [← (ha.same .pfence rfl : s.pfence = (s.accepted i h).pfence)]
    exact ha.2.2.2.1
  obtain ⟨-, he, -, -, -, hok⟩ := ha
  have hn : (s.accepted i h).fenceAnswer h.pkt = none := by
    unfold State.fenceAnswer
    rw [if_pos (by simp [hf])]
  unfold State.take
  rw [show s.cleared.eject = s.eject from rfl, he]
  dsimp only
  rw [show ({ s.cleared with eject := dropAt s.eject i } : State) = { s with out := [], eject := dropAt s.eject i } from rfl,
    if_neg (by simp [hok])]
  rw [show (({ s with out := [], eject := dropAt s.eject i } : State).checked h).2 = s.accepted i h from rfl, hn]

theorem Accepts.berth (ha : Accepts s i h) {which : Nat → Bool} (hw : which h.pkt.opcode = true) : s.berth i which = true := by
  obtain ⟨-, he, hb, -, -, -⟩ := ha
  unfold State.berth at hb ⊢
  rw [he] at hb ⊢
  simpa [hw] using hb

/-- A row that takes a packet does its body in the state in which the packet was accepted. -/
theorem Meets.take (ha : Accepts s i h) {which : Nat → Bool} (hw : which h.pkt.opcode = true) {body : State → Held → State}
    {P : State → Prop} (hP : P ((body (s.accepted i h) h).ended s.pending)) :
    Meets (Machine.run s (s.berth i which) (fun s => s.take i body)) P :=
  .run ha.1 (ha.berth hw) (by rw [ha.take]; exact hP)

theorem Meets.pktRow (ha : Accepts s i h) {ops : List Nat} (hop : ops.contains h.pkt.opcode = true)
    {body : State → Held → State} {P : State → Prop} (hP : P ((body (s.accepted i h) h).ended s.pending)) :
    Meets (Machine.pktRow i ops body s) P := .take ha hop hP

end

/-- The registers that hold what is noted of a bad packet, and those of the logbooks' losses. -/
def IsNoted (o : Nat) : Prop := o = 0x20C ∨ o = 0x210 ∨ o = 0x214 ∨ IsLogLost o

theorem State.pktCap_reg (s : State) (kind reason port : Nat) (p : Packet) {o : Nat} (ho : ¬ IsNoted o) :
    (s.pktCap kind reason port p).reg o = s.reg o := by
  unfold IsNoted at ho
  unfold State.pktCap
  split
  · rfl
  · rw [State.reg_setReg_other _ _ (by omega), State.reg_setReg_other _ _ (by omega), State.reg_setReg_other _ _ (by omega)]

end Sys2Proof.Machine

namespace Sys2Proof.Machine

/-! ## Responses to remote loads (R44, R45, R246, R388) -/

/-- A raise leaves every register. -/
theorem State.raise_reg (s : State) (code inst cls atype master addr detail : Nat) (inj : Bool) (o : Nat) :
    (s.raise code inst cls atype master addr detail inj).reg o = s.reg o :=
  RegsBut.of_same (P := fun _ => False) (l := [.flt]) (by simp) rfl o id

theorem State.stale_reg (s : State) (h : Held) : (s.stale h).reg 0x208 = (s.incReg 0x208).reg 0x208 := by
  unfold State.stale State.pktBad
  rw [State.raise_reg, State.pktCap_reg _ _ _ _ _ (by unfold IsNoted IsLogLost logReg; omega)]

theorem State.emit_reg (s : State) (w : Nat) {o : Nat} (ho : ¬ IsLogLost o) : (s.emit w).reg o = s.reg o :=
  ((State.emit_local (P := True) (k := 0) (s₀ := s) s w none).mpr (Local.refl _ _ _)).reg trivial o ho

/-- A register that reads the same leaves what a count of it would read. -/
theorem State.incReg_reg_congr {s t : State} {o : Nat} (h : t.reg o = s.reg o) : (t.incReg o).reg o = (s.incReg o).reg o := by
  unfold State.incReg
  rw [State.reg_setReg_same, State.reg_setReg_same, h]

theorem State.rsp_own (s : State) {ctx : Nat} {h : Held} (hc : h.pkt.ctx = ctx) (own : State → State) :
    s.rsp ctx h own = own s := if_pos hc

theorem State.raPort_raEnd (s : State) (p : Nat) (l : RaLoad) (o : Nat) (d : BitVec 2048) :
    (s.raEnd p l o d false).raPort p = { s.raPort p with
      loads := (s.raPort p).loads.filter (fun y => decide (y.tag ≠ l.tag)), rsp := (s.raPort p).rsp ++ [⟨l.tag, false, o, d⟩] } := by
  unfold State.raEnd
  rw [State.raPort_raRespond, State.raPort_modRa_same]
  rfl

section
variable {u : State} {h : Held} (hctx : h.pkt.ctx = 1) (hchan : h.pkt.chan < 4) (hftag : h.pkt.ftag < 128)
  (hnil : ∀ q, q < 4 → (u.raPort q).heldAcc = []) (f : RaLoad → Nat × BitVec 2048)

/-- The load that a response answers. -/
def Held.answersLoad (h : Held) (l : RaLoad) : Bool := decide (l.tag = h.pkt.ftag % 128) && decide (l.pseq = h.pkt.rpseq)

/-- The port that a response to a remote access names. -/
def Held.raOf (h : Held) : Nat := h.pkt.chan % 4

include hctx hchan hftag

theorem State.raRsp_eq : u.raRsp h f = match (u.raPort h.raOf).loads.find? h.answersLoad with
    | some l => ((u.reinEcho (64 + h.raOf) h.pkt.cecho).raEnd h.raOf l (f l).1 (f l).2 false).raRelease
    | none => if (u.raPort h.raOf).quar.any (fun q => decide (q = (h.pkt.ftag % 128, h.pkt.rpseq))) then
        (u.modRa h.raOf (fun r => { r with quar := r.quar.filter (fun q => decide (q ≠ (h.pkt.ftag % 128, h.pkt.rpseq))) })).raRelease
      else u.stale h := by
  unfold State.raRsp
  dsimp only
  rw [if_neg (by omega)]
  rfl

theorem State.raRsp_stale (hl : (u.raPort h.raOf).loads.find? h.answersLoad = none)
    (hq : (h.pkt.ftag % 128, h.pkt.rpseq) ∉ (u.raPort h.raOf).quar) : u.raRsp h f = u.stale h := by
  rw [State.raRsp_eq hctx hchan hftag, hl]
  exact if_neg (by simpa using hq)

include hnil

theorem State.raRsp_late (hl : (u.raPort h.raOf).loads.find? h.answersLoad = none)
    (hq : (h.pkt.ftag % 128, h.pkt.rpseq) ∈ (u.raPort h.raOf).quar) :
    u.raRsp h f = u.modRa h.raOf (fun r => { r with quar := r.quar.filter (fun q => decide (q ≠ (h.pkt.ftag % 128, h.pkt.rpseq))) }) := by
  rw [State.raRsp_eq hctx hchan hftag, hl]
  dsimp only
  rw [if_pos (by simpa using hq)]
  refine State.raRelease_of_nil fun q hq => ?_
  by_cases he : q = h.raOf
  · subst he
    rw [State.raPort_modRa_same]
    exact hnil _ hq
  · rw [State.raPort_modRa_other _ _ he]
    exact hnil q hq

theorem State.raRsp_load {l : RaLoad} (hl : (u.raPort h.raOf).loads.find? h.answersLoad = some l) :
    ((u.raRsp h f).raPort h.raOf).rsp = (u.raPort h.raOf).rsp ++ [⟨l.tag, false, (f l).1, (f l).2⟩] ∧
      ∀ y ∈ ((u.raRsp h f).raPort h.raOf).loads, y.tag ≠ l.tag := by
  have hr (q : Nat) : (u.reinEcho (64 + h.raOf) h.pkt.cecho).raPort q = u.raPort q :=
    State.raPort_of_same (l := [.reins]) (by simp) rfl q
  have hend := State.raPort_raEnd (u.reinEcho (64 + h.raOf) h.pkt.cecho) h.raOf l (f l).1 (f l).2
  rw [hr] at hend
  have hn (q : Nat) (hq : q < 4) :
      (((u.reinEcho (64 + h.raOf) h.pkt.cecho).raEnd h.raOf l (f l).1 (f l).2 false).raPort q).heldAcc = [] := by
    by_cases he : q = h.raOf
    · rw [he, hend]
      exact hnil _ (he ▸ hq)
    · unfold State.raEnd State.raRespond
      rw [State.raPort_modRa_other _ _ he, State.raPort_modRa_other _ _ he, hr]
      exact hnil q hq
  rw [State.raRsp_eq hctx hchan hftag, hl]
  dsimp only
  rw [State.raRelease_of_nil hn, hend]
  exact ⟨rfl, fun y hy => by simpa using (List.mem_filter.mp hy).2⟩

end

theorem State.raPort_ended (t : State) (l : List Instr) (q : Nat) : (t.ended l).raPort q = t.raPort q := rfl

theorem State.raNak_reg (s : State) (p : Packet) (hn : (s.reg 0xF00).toNat.testBit 31 = false) :
    (s.raNak p).reg 0xF00 = BitVec.ofNat 32 (p.aux % 16 + put (p.chan % 4) 4 2 + put p.src 6 18 + 2 ^ 31) := by
  have hr : (s.reinEcho (64 + p.chan % 4) p.cecho).reg 0xF00 = s.reg 0xF00 :=
    RegsBut.of_same (P := fun _ => False) (l := [.reins]) (by simp) rfl _ id
  unfold State.raNak
  dsimp only
  rw [State.emit_reg _ _ (by unfold IsLogLost logReg; omega), hr, if_neg (by simp [hn]), State.reg_setReg_same]

section
variable {s : State} {i : Nat} {h : Held} (ha : Accepts s i h) (hctx : h.pkt.ctx = 1)

include ha hctx

/-- What a response of either kind does is what `raRsp` does in the state in which it was accepted. -/
theorem raData_meets (hop : h.pkt.opcode = 0x44) {P : State → Prop}
    (hP : P (((s.accepted i h).raRsp h (fun l => if h.pkt.poison ≠ 0 then (6, 0)
      else (0, BitVec.ofNat 2048 (leNat (h.pkt.pay.take l.len) * 2 ^ (8 * (l.addr.toNat % 256)))))).ended s.pending)) :
    Answers (.raData i) s P := by
  rw [answers_iff]
  show Meets (execRaData i s) _
  refine .pktRow ha (by rw [hop]; decide) ?_
  rw [State.rsp_own _ hctx]
  exact hP

theorem raRsp_meets (hop : h.pkt.opcode = 0x45) (hf : h.pkt.ftag < 128) {P : State → Prop}
    (hP : P (((s.accepted i h).raRsp h (fun _ => (h.pkt.aux % 16, 0))).ended s.pending)) : Answers (.raRsp i) s P := by
  rw [answers_iff]
  show Meets (execRaRsp i s) _
  refine .pktRow ha (by rw [hop]; decide) ?_
  rw [if_neg (by omega), State.rsp_own _ hctx]
  exact hP

end

/-- Settles O21: a response finds its load, a tag in quarantine, or neither; with nothing withheld the round that follows
changes nothing. -/
theorem remoteResponsesCompleteLoads : Obligations.RemoteResponsesCompleteLoads := by
  intro s i h ha hctx hnil p port isFor late stale
  have hra (q : Nat) : (s.accepted i h).raPort q = s.raPort q := State.raPort_of_same ha.same rfl q
  have hnil' (q : Nat) (hq : q < 4) : ((s.accepted i h).raPort q).heldAcc = [] := by rw [hra]; exact hnil q hq
  refine ⟨fun hchan hftag hl => ⟨fun hq => ?_, fun hq => ?_⟩, fun l hchan hftag hl => ⟨fun hop => ?_, fun hop => ?_⟩,
    fun hop hftag hbit => ?_⟩
  · have hlate (f : RaLoad → Nat × BitVec 2048) : late (((s.accepted i h).raRsp h f).ended s.pending) := fun q => by
      rw [State.raRsp_late hctx hchan hftag hnil' f (by rw [hra]; exact hl) (by rw [hra]; exact hq)]
      rw [State.raPort_ended]
      split
      · next he => rw [he, ← hra]; exact State.raPort_modRa_same _ _ _
      · next he => rw [← hra]; exact State.raPort_modRa_other _ _ he
    exact ⟨fun hop => raData_meets ha hctx hop (hlate _), fun hop => raRsp_meets ha hctx hop hftag (hlate _)⟩
  · have hstale (f : RaLoad → Nat × BitVec 2048) : stale (((s.accepted i h).raRsp h f).ended s.pending) := by
      rw [State.raRsp_stale hctx hchan hftag f (by rw [hra]; exact hl) (by rw [hra]; exact hq)]
      have hs : Same (mask [.out, .eject, .rg, .counts, .flt]) s ((s.accepted i h).stale h) :=
        (State.stale_same _ h (by simp)).mpr (ha.same.mono (by simp))
      exact ⟨(hs .ra rfl).symm, State.stale_reg _ _⟩
    exact ⟨fun hop => raData_meets ha hctx hop (hstale _), fun hop => raRsp_meets ha hctx hop hftag (hstale _)⟩
  · have hload (f : RaLoad → Nat × BitVec 2048) := State.raRsp_load hctx hchan hftag hnil' f (l := l) (by rw [hra]; exact hl)
    refine raData_meets ha hctx hop ?_
    simp only [hra] at hload
    have hend := hload (fun l => if h.pkt.poison ≠ 0 then (6, 0)
      else (0, BitVec.ofNat 2048 (leNat (h.pkt.pay.take l.len) * 2 ^ (8 * (l.addr.toNat % 256)))))
    refine ⟨hend.1.trans ?_, hend.2⟩
    by_cases hp : h.pkt.poison = 0
    · simp only [p, ne_eq, hp, not_true_eq_false, if_false, if_true]
      rfl
    · simp only [p, ne_eq, hp, not_false_eq_true, if_false, if_true]
      rfl
  · have hload := State.raRsp_load hctx hchan hftag hnil' (fun _ => (h.pkt.aux % 16, 0)) (l := l) (by rw [hra]; exact hl)
    rw [hra] at hload
    exact raRsp_meets ha hctx hop hftag hload
  · rw [answers_iff]
    show Meets (execRaRsp i s) _
    refine .pktRow ha (by rw [hop]; decide) ?_
    rw [if_pos hftag]
    refine ⟨?_, ?_⟩
    · exact State.raNak_reg _ _ (by rw [ha.reg (by decide) (by decide)]; exact hbit)
    · have hs : Same (mask [.out, .eject, .rg, .counts, .reins, .ev, .logs]) s ((s.accepted i h).raNak h.pkt) :=
        (State.raNak_same _ _ (by simp)).mpr (ha.same.mono (by simp))
      exact (hs .ra rfl).symm

end Sys2Proof.Machine

namespace Sys2Proof.Machine

/-! ## Packets formed at the block (R235 to R241) -/

/-- A field read from a quadword of which only what lies under the field's end matters. -/
theorem qf_quad {n lo w v : Nat} (h : lo + w ≤ 64) (hv : n / 2 ^ lo % 2 ^ w = v) : qf (quad n) lo w = v := by
  rw [← hv, ← Nat.shiftRight_eq_div_pow]
  unfold qf quad fld
  rw [BitVec.toNat_ofNat]
  refine Nat.eq_of_testBit_eq fun i => ?_
  simp only [Nat.testBit_mod_two_pow, Nat.testBit_shiftRight]
  by_cases hi : i < w
  · simp [hi, show lo + i < 64 by omega]
  · simp [hi]

/-- What packet `p` carries of header `h` and payload `pay`. -/
structure Carries (h : Hd) (pay : List Byte) (p : Packet) : Prop where
  opcode : p.opcode = h.opcode % 2 ^ 8
  vc : p.vc = h.vc % 2 ^ 3
  dst : p.dst = h.dst % 2 ^ 18
  aux : p.aux = h.aux % 2 ^ 16
  ctx : p.ctx = h.ctx % 2 ^ 2
  chan : p.chan = h.chan % 2 ^ 6
  ftag : p.ftag = h.ftag % 2 ^ 8
  offset : p.offset = h.offset % 2 ^ 46
  h5 : p.h5 = quad h.h5
  h6 : p.h6 = quad h.h6
  h7 : p.h7 = quad h.h7
  pay : p.pay = pay

theorem Hd.packet_carries (h : Hd) (pay : List Byte) : Carries h pay (h.packet pay).seal where
  opcode := qf_quad (by decide) (by simp only [put]; omega)
  vc := qf_quad (by decide) (by simp only [put]; omega)
  dst := qf_quad (by decide) (by simp only [put]; omega)
  aux := qf_quad (by decide) (by simp only [put]; omega)
  ctx := qf_quad (by decide) (by simp only [put]; omega)
  chan := qf_quad (by decide) (by simp only [put]; omega)
  ftag := qf_quad (by decide) (by simp only [put]; omega)
  offset := qf_quad (by decide) (by simp only [put]; omega)
  h5 := rfl
  h6 := rfl
  h7 := rfl
  pay := rfl

/-- The fields that the block fills in are none of those that `Carries` names. -/
theorem Carries.filled {h : Hd} {k g c e n : Nat} {pay : List Byte} {p : Packet}
    (hc : Carries { h with pkey := k, gen := g, src := c, epoch := e, cmark := 0, pseq := n } pay p) : Carries h pay p := by
  obtain ⟨h1, h2, h3, h4, h5, h6, h7, h8, h9, h10, h11, h12⟩ := hc
  exact ⟨h1, h2, h3, h4, h5, h6, h7, h8, h9, h10, h11, h12⟩

theorem State.countPkt_inj (s : State) (at_ : Nat) (p : Packet) : (s.countPkt at_ p).inj = s.inj :=
  ((State.countPkt_same s at_ p (μ := mask [.rg]) (by simp)).mpr (Same.refl _ _) .inj rfl).symm

/-- The state in which packet `p`, with a direction if it has one, has joined the injection point, not counted yet. -/
def State.injected (s : State) (k : Nat) (keyed : Bool) (p : Packet) (flits : Nat) (dir : Option Nat) : State :=
  let s1 := { s with
    pseq := s.pseq + 1
    inj := s.inj ++ [{ pkt := p, port := 15, share := if p.rmode = 2 then 6 else p.vc, flits := flits, copied := false
                       dir := dir, abn := none, since := s.now : Held }] }
  if keyed then s1.modCount k (fun c => { c with orig := c.orig + 1 }) else s1

theorem State.injected_inj (s : State) (k : Nat) (keyed : Bool) (p : Packet) (flits : Nat) (dir : Option Nat) :
    ∃ q : Held, (s.injected k keyed p flits dir).inj = s.inj ++ [q] ∧ q.pkt = p := by
  unfold State.injected
  cases keyed
  · exact ⟨_, rfl, rfl⟩
  · exact ⟨_, rfl, rfl⟩

theorem State.form_eq (s : State) (h : Hd) (pay : List Byte) (dir : Option Nat) (key : Option (Nat × Nat)) :
    ∃ (k flits : Nat) (keyed : Bool) (p : Packet), s.form h pay dir key = (s.injected k keyed p flits dir).countPkt 0 p ∧
      Carries h pay p := by
  unfold State.form
  generalize key.getD (s.ident.pkey.toNat, s.ident.gen.toNat) = kg
  obtain ⟨k, g⟩ := kg
  exact ⟨k, _, keyedOp h.opcode, _, rfl, Carries.filled (Hd.packet_carries { h with
      pkey := k
      gen := g
      src := s.ident.chip.toNat
      epoch := b2n s.tbl.cur
      cmark := 0
      pseq := (s.pseq + 1).toNat } pay)⟩

/-- A packet formed joins the injection point, and carries its header. -/
theorem State.form_inj (s : State) (h : Hd) (pay : List Byte) (dir : Option Nat) (key : Option (Nat × Nat)) :
    ∃ q : Held, (s.form h pay dir key).inj = s.inj ++ [q] ∧ Carries h pay q.pkt := by
  obtain ⟨k, flits, keyed, p, heq, hc⟩ := s.form_eq h pay dir key
  obtain ⟨q, hq, rfl⟩ := s.injected_inj k keyed p flits dir
  exact ⟨q, by rw [heq, State.countPkt_inj, hq], hc⟩

/-- The block may send what it is asked to (R22, R26, R240). -/
def State.Speaks (s : State) : Prop := s.mayOriginate = true ∧ s.abortHold = false

theorem State.Speaks.of_same {s t : State} {l : List Fld} (hs : s.Speaks) (h : Same (mask l) s t)
    (hl : ∀ f ∈ [Fld.ident, .tbl, .abort], f.bit &&& mask l = 0) (hr : t.reg 0x120 = s.reg 0x120) : t.Speaks := by
  have hi : s.ident = t.ident := h .ident (hl _ (by simp))
  have ht : s.tbl = t.tbl := h .tbl (hl _ (by simp))
  have hab : s.abort = t.abort := h .abort (hl _ (by simp))
  unfold State.Speaks State.mayOriginate State.here State.resolve State.bank State.abortHold at *
  rwa [hr, ← hi, ← ht, ← hab]

theorem State.respond_inj {s : State} (hs : s.Speaks) (h : Hd) (pay : List Byte) (key : Option (Nat × Nat)) :
    ∃ q : Held, (s.respond h pay key).inj = s.inj ++ [q] ∧ Carries h pay q.pkt := by
  unfold State.respond
  rw [if_neg (by simp [State.silent, hs.1, hs.2])]
  exact s.form_inj _ _ _ _

theorem failOp_lt (o : Nat) : failOp o < 2 ^ 8 := by
  unfold failOp
  split <;> decide

/-- A request answered with an outcome: the response names it, and goes back to its sender. -/
theorem State.answer_inj {s : State} (hs : s.Speaks) (p : Packet) (o found : Nat) (ho : o < 2 ^ 16) :
    ∃ q : Held, (s.answer p o found).inj = s.inj ++ [q] ∧ q.pkt.opcode = failOp p.opcode ∧ q.pkt.aux = o ∧
      q.pkt.ftag = p.ftag ∧ (p.opcode ≠ 0x43 → q.pkt.dst = p.src) := by
  have hf : p.ftag % 2 ^ 8 = p.ftag := Nat.mod_mod _ _
  have hsrc : p.src % 2 ^ 18 = p.src := Nat.mod_mod _ _
  unfold State.answer
  dsimp only
  generalize hh : (if p.opcode = 0x06 then _ else _ : Hd) = h'
  have hd : h'.opcode = failOp p.opcode ∧ h'.aux = o ∧ h'.ftag = p.ftag ∧ (p.opcode ≠ 0x43 → h'.dst = p.src) := by
    rw [← hh]
    by_cases h6 : p.opcode = 0x06
    · rw [if_pos h6, if_neg (by omega)]
      exact ⟨rfl, rfl, rfl, fun _ => rfl⟩
    · rw [if_neg h6]
      split
      · next h43 => exact ⟨rfl, rfl, rfl, fun hne => absurd h43 hne⟩
      · exact ⟨rfl, rfl, rfl, fun _ => rfl⟩
  obtain ⟨hop, haux, hftag, hdst⟩ := hd
  obtain ⟨q, hq, hc⟩ := s.respond_inj hs h' [] p.stamp
  refine ⟨q, hq, ?_, ?_, ?_, fun hne => ?_⟩
  · rw [hc.opcode, hop, Nat.mod_eq_of_lt (failOp_lt _)]
  · rw [hc.aux, haux, Nat.mod_eq_of_lt ho]
  · rw [hc.ftag, hftag, hf]
  · rw [hc.dst, hdst hne, hsrc]

/-! ## Requests at their receiver (R38, R97, R125, R141, R152, R236, R245) -/

section
variable {s : State} {i : Nat} {h : Held} (ha : Accepts s i h)
include ha

theorem Accepts.speaks (hop : h.pkt.opcode < 0xC0) : (s.accepted i h).Speaks := by
  obtain ⟨hhere, hkey, hab⟩ := ha.passed.keyed (by simp [keyedOp]; omega)
  have hs : State.Speaks ({ s with out := [], eject := dropAt s.eject i } : State) := by
    refine ⟨?_, hab hop⟩
    unfold State.mayOriginate
    rw [hhere]
    simpa using hkey
  exact hs.of_same ha.passed.same (by simp [mask]) (ha.passed.regs _ (by unfold IsArrival; omega))

theorem Accepts.unarmed : (s.accepted i h).flt.armed = none := by
  rw [← (ha.same .flt rfl : s.flt = (s.accepted i h).flt)]
  exact ha.2.2.2.2.1

theorem Accepts.shut : (s.accepted i h).shut = s.shut := by
  have hf : s.flt = (s.accepted i h).flt := ha.same .flt rfl
  have hp : s.pwr = (s.accepted i h).pwr := ha.same .pwr rfl
  unfold State.shut State.fenced State.inF2 State.inF3
  rw [← hf, ← hp]

end

theorem State.serveIf_passed {s : State} {a : Acc} {p : Packet} (harm : s.flt.armed = none) (hw : s.window9 a p = none)
    (f : State → State) : s.serveIf a p f = f s := by
  unfold State.serveIf
  rw [State.takeEcc_unarmed harm]
  dsimp only
  rw [if_neg (by decide), hw]

theorem State.serveIf_refused {s : State} {a : Acc} {p : Packet} {o : Nat} (harm : s.flt.armed = none)
    (hw : s.window9 a p = some o) (f : State → State) : s.serveIf a p f = s.answer p o := by
  unfold State.serveIf
  rw [State.takeEcc_unarmed harm]
  dsimp only
  rw [if_neg (by decide), hw]

theorem State.window9_lt {s : State} {a : Acc} {p : Packet} {o : Nat} (hw : s.window9 a p = some o) : o < 2 ^ 16 := by
  unfold State.window9 State.windowCheck at hw
  split at hw
  · next he =>
    cases hw
    split at he
    · cases he; decide
    · dsimp only at he
      generalize Nat.testBit _ _ = bit at he
      cases bit <;> cases he
      decide
  · cases hw

theorem State.relayCheck_lt {s : State} {p : Packet} {o : Nat} (hr : s.relayCheck p = some o) : o < 2 ^ 16 := by
  unfold State.relayCheck at hr
  dsimp only at hr
  split at hr
  · cases hr; decide
  · split at hr
    · cases hr
    · cases hr; decide

end Sys2Proof.Machine

namespace Sys2Proof.Machine

section
variable {s : State} {i : Nat} {h : Held} (ha : Accepts s i h)
include ha

/-- A refused request starts nothing and is answered with the outcome of the check. -/
theorem Accepts.refused (hop : h.pkt.opcode < 0xC0) {o : Nat} (ho : o < 2 ^ 16) (l : List Instr) :
    let t := ((s.accepted i h).answer h.pkt o).ended l
    t.eng = s.eng ∧ t.streams = s.streams ∧ t.atc = s.atc ∧
      ∃ q, t.inj = s.inj ++ [q] ∧ q.pkt.opcode = failOp h.pkt.opcode ∧ q.pkt.aux = o ∧ q.pkt.ftag = h.pkt.ftag := by
  have hsame : Same (mask [.out, .eject, .rg, .counts, .inj, .pseq]) s ((s.accepted i h).answer h.pkt o) :=
    (State.answer_same _ _ _ _ (by simp)).mpr (ha.same.mono (by simp))
  obtain ⟨q, hq, hopc, haux, hftag, -⟩ := State.answer_inj (ha.speaks hop) h.pkt o 0 ho
  rw [← (ha.same .inj rfl : s.inj = (s.accepted i h).inj)] at hq
  exact ⟨(hsame .eng rfl).symm, (hsame .streams rfl).symm, (hsame .atc rfl).symm, q, hq, hopc, haux, hftag⟩

theorem Accepts.eng : (s.accepted i h).eng = s.eng := (ha.same .eng rfl).symm

/-- What a write served starts: the payload's granules. -/
theorem Accepts.serveWrite (l : List Instr) : let t := ((s.accepted i h).serveWrite h.pkt).ended l
    ∃ j, t.eng.writes = s.eng.writes ++ [j] ∧ j.use = .packet h.pkt ∧
      j.keys = (wrGrans h.pkt.offset h.pkt.pay h.pkt.poison.toNat).map (·.key) ∧
      j.count = (if h.pkt.ten then tallyCount h.pkt.offset h.pkt.len h.pkt.poison.toNat else 0) := by
  dsimp only
  simp only [State.ended_fields]
  unfold State.serveWrite
  rw [State.startWrite_eng, ha.eng]
  exact ⟨_, rfl, rfl, rfl, rfl⟩

theorem Accepts.serveRead (l : List Instr) : let t := ((s.accepted i h).serveRead h.pkt).ended l
    ∃ j, t.eng.reads = s.eng.reads ++ [j] ∧ j.use = .serve h.pkt := by
  dsimp only
  simp only [State.ended_fields]
  unfold State.serveRead
  rw [State.startRead_eng, ha.eng]
  exact ⟨_, rfl, rfl⟩

end

/-! ### Streams of remote accesses -/

theorem find?_updFirst {α : Type} {P : α → Bool} {f : α → α} (hf : ∀ x, P (f x) = P x) (l : List α) :
    (updFirst P f l).find? P = (l.find? P).map f := by
  induction l with
  | nil => rfl
  | cons x xs ih =>
    cases hx : P x
    · simp [updFirst, hx, ih]
    · simp [updFirst, hx, hf]

theorem mem_updFirst {α : Type} {P : α → Bool} {f : α → α} (hf : ∀ x, P (f x) = P x) {l : List α} {x : α}
    (h : l.find? P = some x) : f x ∈ updFirst P f l :=
  List.mem_of_find?_eq_some (p := P) (by rw [find?_updFirst hf, h]; rfl)

/-- A stream has just been given `p` to wait for. -/
def Waiting (t : State) (p : Packet) : Prop := ∃ x, t.streams.find? (fun x => x.is p.src (p.chan % 4)) = some x ∧ p ∈ x.queue

theorem State.streams_serveRead (s : State) (p : Packet) : (s.serveRead p).streams = s.streams :=
  ((State.serveRead_same s p (μ := mask [.eng, .hm]) (by simp)).mpr (Same.refl _ _) .streams rfl).symm

theorem State.streams_serveWrite (s : State) (p : Packet) : (s.serveWrite p).streams = s.streams :=
  ((State.serveWrite_same s p (μ := mask [.eng, .hm]) (by simp)).mpr (Same.refl _ _) .streams rfl).symm

/-- With a packet at the stream its front is being served. -/
theorem State.streamTurn_busy {t : State} {p : Packet} (hw : Waiting t p) :
    ∃ x ∈ (t.streamTurn p.src (p.chan % 4)).streams, x.is p.src (p.chan % 4) = true ∧ p ∈ x.queue ∧ x.busy = true := by
  obtain ⟨x, hx, hp⟩ := hw
  have his := List.find?_some hx
  have hmem := List.mem_of_find?_eq_some hx
  unfold State.streamTurn
  rw [hx]
  dsimp only
  split
  · next hb => exact ⟨x, hmem, his, hp, hb⟩
  · cases hq : x.queue with
    | nil => simp [hq] at hp
    | cons y ys =>
      dsimp only
      have hin := mem_updFirst (P := fun y : Stream => y.is p.src (p.chan % 4)) (f := fun y => { y with busy := true })
        (fun _ => rfl) hx
      refine ⟨{ x with busy := true }, ?_, his, hp, rfl⟩
      split
      · rw [State.streams_serveRead]
        exact hin
      · rw [State.streams_serveWrite]
        exact hin

theorem State.streamPush_busy (s : State) (p : Packet) :
    ∃ x ∈ (s.streamPush p).streams, x.is p.src (p.chan % 4) = true ∧ p ∈ x.queue ∧ x.busy = true := by
  unfold State.streamPush
  dsimp only
  refine State.streamTurn_busy ?_
  by_cases hany : s.streams.any (fun x => x.is p.src (p.chan % 4)) = true
  · rw [if_pos hany]
    obtain ⟨x, hx, his⟩ := List.any_eq_true.mp hany
    cases hf : s.streams.find? (fun x => x.is p.src (p.chan % 4)) with
    | none => exact absurd his (by simpa using List.find?_eq_none.mp hf x hx)
    | some y =>
      refine ⟨{ y with queue := y.queue ++ [p] }, ?_, by simp⟩
      exact (find?_updFirst (P := fun x : Stream => x.is p.src (p.chan % 4)) (f := fun x => { x with queue := x.queue ++ [p] })
        (fun _ => rfl) _).trans (by rw [hf]; rfl)
  · rw [if_neg hany]
    refine ⟨⟨p.src, p.chan % 4, [p], false⟩, ?_, by simp⟩
    rw [List.find?_append, List.find?_eq_none.mpr (by simpa using hany)]
    simp [Stream.is]

/-! ### Signals -/

theorem RegsBut.of_local {k : Nat} {s t : State} (h : Local True k s t) : RegsBut IsLogLost s t := h.reg trivial

theorem State.evalWaits_but (s : State) : RegsBut IsLogLost s s.evalWaits := by
  unfold State.evalWaits
  refine RegsBut.foldl (fun t e => ?_) _ _
  dsimp only
  split
  · refine RegsBut.of_local (k := e.1) ?_
    split <;> simp
  · exact RegsBut.refl t

theorem State.setTally_but (s : State) (n : Nat) (v : BitVec 48) : RegsBut IsLogLost s (s.setTally n v) :=
  (RegsBut.of_same (l := [.tally, .free, .watch]) (by simp) rfl).trans (State.evalWaits_but _)

theorem State.addTally_unarmed {s : State} (harm : s.flt.armed = none) (n v : Nat) :
    s.addTally n v = s.setTally n (s.tallyOf n + BitVec.ofNat 48 v) := by
  unfold State.addTally
  simp only [State.takeEcc_unarmed harm, ite_self]

theorem Accepts.signal {s : State} {i : Nat} {h : Held} (ha : Accepts s i h) (hop : h.pkt.opcode = 0x07) (l : List Instr) :
    let t := (((s.accepted i h).addTally h.pkt.tally (qf h.pkt.h5 0 48)).answer h.pkt 0).ended l
    t.tallyOf h.pkt.tally = s.tallyOf h.pkt.tally + BitVec.ofNat 48 (qf h.pkt.h5 0 48) ∧
      ∃ q, t.inj = s.inj ++ [q] ∧ q.pkt.opcode = 0x47 ∧ q.pkt.aux = 0 ∧ q.pkt.dst = h.pkt.src := by
  dsimp only
  rw [State.addTally_unarmed ha.unarmed]
  generalize hv : (s.accepted i h).tallyOf h.pkt.tally + BitVec.ofNat 48 (qf h.pkt.h5 0 48) = v
  have hset : Same (mask [.free, .rg, .chans, .scal, .tally, .watch, .ev, .logs]) (s.accepted i h)
      ((s.accepted i h).setTally h.pkt.tally v) := by simp
  have hspeaks : ((s.accepted i h).setTally h.pkt.tally v).Speaks :=
    (ha.speaks (by omega)).of_same hset (by simp [mask]) (State.setTally_but _ _ _ _ (by unfold IsLogLost logReg; omega))
  have htally : Same (mask [.rg, .inj, .pseq, .counts]) ((s.accepted i h).setTally h.pkt.tally v)
      (((s.accepted i h).setTally h.pkt.tally v).answer h.pkt 0) := by simp
  obtain ⟨q, hq, hopc, haux, -, hdst⟩ := State.answer_inj hspeaks h.pkt 0 0 (by decide)
  refine ⟨?_, q, ?_, ?_, haux, hdst (by omega)⟩
  · have hs : s.tallyOf h.pkt.tally = (s.accepted i h).tallyOf h.pkt.tally :=
      congrArg (fun m => SMap.get (fun _ => (0 : BitVec 48)) m h.pkt.tally) (ha.same .tally rfl)
    rw [hs, hv]
    exact (congrArg (fun m => SMap.get (fun _ => (0 : BitVec 48)) m h.pkt.tally) (htally .tally rfl)).symm.trans
      (State.tallyOf_setTally_same (s.accepted i h) h.pkt.tally v)
  · rw [(ha.same .inj rfl : s.inj = _), (hset .inj rfl : _ = _)]
    exact hq
  · rw [hopc, hop]
    rfl

section
variable {s : State} {i : Nat} {h : Held} (ha : Accepts s i h) {op : Nat} (hop : h.pkt.opcode = op) {a : Acc}
  {F : Held → State → State} {P : State → Prop}
include ha hop

/-- A request that its window allows does what its row does. -/
theorem Accepts.allowed (hw : (s.accepted i h).window9 a h.pkt = none) (hP : P ((F h (s.accepted i h)).ended s.pending)) :
    Meets (pktRow i [op] (fun s h => s.serveIf a h.pkt (F h)) s) P :=
  .pktRow ha (by simp [hop]) (by rw [State.serveIf_passed ha.unarmed hw]; exact hP)

theorem Accepts.denied (hlt : op < 0xC0) {o : Nat} (hw : (s.accepted i h).window9 a h.pkt = some o) :
    Meets (pktRow i [op] (fun s h => s.serveIf a h.pkt (F h)) s) (fun t =>
      t.eng = s.eng ∧ t.streams = s.streams ∧ t.atc = s.atc ∧
      ∃ q, t.inj = s.inj ++ [q] ∧ q.pkt.opcode = failOp h.pkt.opcode ∧ q.pkt.aux = o ∧ q.pkt.ftag = h.pkt.ftag) :=
  .pktRow ha (by simp [hop]) (by
    rw [State.serveIf_refused ha.unarmed hw]
    exact ha.refused (by omega) (State.window9_lt hw) _)

end

/-- Settles O19: a request that its window allows starts its work in the state in which it was accepted, and one that it does
not is answered with the outcome of the check. -/
theorem requestsAreServed : Obligations.RequestsAreServed := by
  intro s i h ha u p written readIn joined refused
  have hjoin (t : State) : joined ((t.streamPush p).ended s.pending) := t.streamPush_busy p
  have hopen (t : State) (hs : s.shut = false) (f : State → State) :
      (if (s.accepted i h).shut then t else f (s.accepted i h)) = f (s.accepted i h) := if_neg (by simp [ha.shut, hs])
  simp only [answers_iff]
  refine ⟨fun hop => ⟨fun hw => ?_, fun o hw => ?_⟩, fun hop => ⟨fun hw => ?_, fun o hw => ?_⟩,
    fun hop => ⟨fun hw hs => ?_, fun o hw => ?_⟩, fun hop => ⟨fun hw hr hs => ?_, fun o hw hr => ?_, fun o hw => ?_⟩,
    fun hop => ⟨fun hw hs => ?_, fun o hw => ?_⟩, fun hop => ⟨fun hw => ?_, fun o hw => ?_⟩,
    fun hop => ⟨fun hw => ?_, fun o hw => ?_⟩, fun hop => ?_⟩
  · show Meets (execWr i s) _
    refine .take ha (by simp [show h.pkt.opcode = 1 from hop]) ?_
    rw [State.serveIf_passed ha.unarmed hw]
    exact ha.serveWrite _
  · show Meets (execWr i s) _
    refine .take ha (by simp [show h.pkt.opcode = 1 from hop]) ?_
    rw [State.serveIf_refused ha.unarmed hw]
    exact ha.refused (show p.opcode < 0xC0 by omega) (State.window9_lt hw) _
  · exact ha.allowed (F := fun h t => t.serveWrite h.pkt) hop hw (ha.serveWrite _)
  · exact ha.denied (F := fun h t => t.serveWrite h.pkt) hop (by decide) hw
  · refine ha.allowed (F := fun h t => if t.shut then t else t.serveRead h.pkt) hop hw ?_
    rw [hopen _ hs (fun t => t.serveRead h.pkt)]
    exact ha.serveRead _
  · exact ha.denied (F := fun h t => if t.shut then t else t.serveRead h.pkt) hop (by decide) hw
  · show Meets (execRdRelay i s) _
    refine .pktRow ha (by simp [show h.pkt.opcode = 3 from hop]) ?_
    rw [State.serveIf_passed ha.unarmed hw, hr]
    dsimp only
    rw [hopen _ hs (fun t => t.serveRead h.pkt)]
    exact ha.serveRead _
  · show Meets (execRdRelay i s) _
    refine .pktRow ha (by simp [show h.pkt.opcode = 3 from hop]) ?_
    rw [State.serveIf_passed ha.unarmed hw, hr]
    exact ha.refused (show p.opcode < 0xC0 by omega) (State.relayCheck_lt hr) _
  · show Meets (execRdRelay i s) _
    refine .pktRow ha (by simp [show h.pkt.opcode = 3 from hop]) ?_
    rw [State.serveIf_refused ha.unarmed hw]
    exact ha.refused (show p.opcode < 0xC0 by omega) (State.window9_lt hw) _
  · refine ha.allowed (F := fun h t => if t.shut then t else t.streamPush h.pkt) hop hw ?_
    rw [hopen _ hs (fun t => t.streamPush h.pkt)]
    exact hjoin _
  · exact ha.denied (F := fun h t => if t.shut then t else t.streamPush h.pkt) hop (by decide) hw
  · exact ha.allowed (F := fun h t => t.streamPush h.pkt) hop hw (hjoin _)
  · exact ha.denied (F := fun h t => t.streamPush h.pkt) hop (by decide) hw
  · refine ha.allowed (F := fun h t => t.atomQueue h.pkt) hop hw ?_
    rw [← ha.eng, (ha.same .atc rfl : s.atc = _)]
    exact ⟨rfl, rfl⟩
  · exact ha.denied (F := fun h t => t.atomQueue h.pkt) hop (by decide) hw
  · show Meets (execSignalPacket i s) _
    exact .pktRow ha (by simp [show h.pkt.opcode = 7 from hop]) (ha.signal hop _)

end Sys2Proof.Machine

namespace Sys2Proof.Machine

/-! ## Responses to fragments (R62, R64, R96, R246, R248) -/

/-- Channel `k` holds no slot in `t` that it did not hold in `s`. -/
def FewerSlots (k : Nat) (s t : State) : Prop := ∀ y ∈ (t.chan k).slots, y ∈ (s.chan k).slots

section
variable {k : Nat} {s t u : State}

theorem FewerSlots.refl (k : Nat) (s : State) : FewerSlots k s s := fun _ h => h
theorem FewerSlots.trans (h : FewerSlots k s t) (h' : FewerSlots k t u) : FewerSlots k s u := fun y hy => h y (h' y hy)
theorem FewerSlots.of_eq (h : (t.chan k).slots = (s.chan k).slots) : FewerSlots k s t := fun _ hy => h ▸ hy

theorem FewerSlots.of_same {l : List Fld} (h : Same (mask l) s t) (hl : Fld.chans.bit &&& mask l = 0) : FewerSlots k s t :=
  .of_eq (congrArg (fun m => (SMap.get (fun _ => Chan.reset) m k).slots) (h .chans hl).symm)

theorem State.slots_modFlight (s : State) (k ord : Nat) (f : Flight → Flight) :
    ((s.modFlight k ord f).chan k).slots = (s.chan k).slots := by
  unfold State.modFlight
  rw [State.chan_modChan]

theorem State.slots_freeSlot (s : State) (k : Nat) (x : Slot) :
    ((s.freeSlot k x).chan k).slots = (s.chan k).slots.filter (fun y => decide (y.ftag ≠ x.ftag)) := by
  unfold State.freeSlot
  rw [State.chan_modChan]

theorem State.slots_failSlot (s : State) (k : Nat) (x : Slot) (aout : Nat) (fenced aborted : Bool) :
    ((s.failSlot k x aout fenced aborted).chan k).slots = (s.chan k).slots.filter (fun y => decide (y.ftag ≠ x.ftag)) := by
  unfold State.failSlot
  rw [State.slots_modFlight, State.chan_modChan]

/-- Settling a channel takes no slot. -/
theorem State.settleN_slots (n k : Nat) (s : State) : FewerSlots k s (State.settleN n k s) := by
  induction n generalizing s with
  | zero => exact FewerSlots.refl k s
  | succ n ih =>
    have hc (u : State) (f : Flight) (status : Nat) (hu : u.chan k = s.chan k) : FewerSlots k s (u.complete k f status) :=
      .of_eq ((congrArg Chan.slots (u.complete_completed k f status).chan).trans (by rw [hu]))
    unfold State.settleN
    dsimp only
    split
    · next f _ =>
      refine (hc _ _ _ ?_).trans (ih _)
      split
      · split
        · split <;> rfl
        · rfl
      · rfl
    · split
      · split
        · exact (hc s _ _ rfl).trans (ih _)
        · exact FewerSlots.refl k s
      · have hp : FewerSlots k s (s.settleOwed k) := .of_eq (congrArg Chan.slots (s.settleOwed_paid k).chan :)
        split
        · unfold State.chanOff
          dsimp only
          intro y hy
          split at hy
          · rw [State.chan_modChan, (State.emit_told _ _ _).chan, State.chan_modChan] at hy
            simp at hy
          · rw [(State.emit_told _ _ _).chan, State.chan_modChan] at hy
            simp at hy
        · exact hp
      · exact FewerSlots.refl k s

theorem State.settle_slots (s : State) (k : Nat) : FewerSlots k s (s.settle k) := s.settleN_slots _ k

end

/-- What a row does with the fragment that its response matches: it gives out no slot. -/
def KeepsSlots (body : State → Nat → Slot → Flight → State) : Prop := ∀ t k x f, FewerSlots k t (body t k x f)

section
variable {u : State} {h : Held} {body : State → Nat → Slot → Flight → State} {k : Nat} {x : Slot} {f : Flight}

/-- The state in which the rein and the towpath of a fragment have seen its response. -/
def State.echoed (u : State) (k : Nat) (x : Slot) (p : Packet) : State :=
  match x.tow with
  | some e => (u.reinEcho k p.cecho).towLeave e
  | none => u.reinEcho k p.cecho

theorem State.echoed_same (u : State) (k : Nat) (x : Slot) (p : Packet) : Same (mask [.reins, .tows]) u (u.echoed k x p) := by
  unfold State.echoed
  split <;> simp

theorem State.slotRsp_none (hs : u.slotFor h.pkt = none) : u.slotRsp h body = u.stale h := by
  unfold State.slotRsp
  dsimp only
  rw [hs]

theorem State.slotRsp_eq (hs : u.slotFor h.pkt = some (k, x, f)) : u.slotRsp h body =
    (if (if h.pkt.opcode = 0x41 then 0 else h.pkt.aux % 16) ≠ 0 ∨ h.pkt.opcode = 0x42 then
      (u.echoed k x h.pkt).failSlot k x (if h.pkt.opcode = 0x41 then 0 else h.pkt.aux % 16) false false
    else (if (u.answersOf f).contains h.pkt.opcode then body else fun t _ _ _ => t)
      ((u.echoed k x h.pkt).freeSlot k x) k x f).settle k := by
  unfold State.slotRsp
  dsimp only
  rw [hs]
  rfl

/-- The slot of a matched fragment is free again. -/
theorem State.slotRsp_free (hb : KeepsSlots body) (hs : u.slotFor h.pkt = some (k, x, f)) :
    ∀ y ∈ ((u.slotRsp h body).chan k).slots, y.ftag ≠ x.ftag := by
  intro y hy
  rw [State.slotRsp_eq hs] at hy
  replace hy := State.settle_slots _ _ y hy
  generalize (if h.pkt.opcode = 0x41 then 0 else h.pkt.aux % 16) = o at hy
  have hfil (l : List Slot) (hm : y ∈ l.filter (fun y => decide (y.ftag ≠ x.ftag))) : y.ftag ≠ x.ftag := by
    simpa using (List.mem_filter.mp hm).2
  split at hy
  · rw [State.slots_failSlot] at hy
    exact hfil _ hy
  · refine hfil _ (?_ : y ∈ ((u.echoed k x h.pkt).chan k).slots.filter _)
    rw [← State.slots_freeSlot]
    split at hy
    · exact hb _ _ _ _ y hy
    · exact hy

end

theorem Accepts.stale {s : State} {i : Nat} {h : Held} (ha : Accepts s i h) (l : List Instr) :
    let t := ((s.accepted i h).stale h).ended l
    t.chans = s.chans ∧ t.eng = s.eng ∧ t.reg 0x208 = ((s.accepted i h).incReg 0x208).reg 0x208 := by
  have hs : Same (mask [.out, .eject, .rg, .counts, .flt]) s ((s.accepted i h).stale h) :=
    (State.stale_same _ h (by simp)).mpr (ha.same.mono (by simp))
  exact ⟨(hs .chans rfl).symm, (hs .eng rfl).symm, State.stale_reg _ _⟩

section
variable {s : State} {i : Nat} {h : Held} (ha : Accepts s i h) {op : Nat} (hop : h.pkt.opcode = op)
  {body : Held → State → Nat → Slot → Flight → State} (hb : KeepsSlots (body h))
include ha hop hb

/-- A response in the context of a channel, of a row that gives out no slot. -/
theorem Accepts.chanRsp : Meets (pktRow i [op] (fun s h => s.chanRsp h (body h)) s) (fun t =>
    (∀ k x f, (s.accepted i h).slotFor h.pkt = some (k, x, f) → ∀ y ∈ (t.chan k).slots, y.ftag ≠ x.ftag) ∧
    ((h.pkt.ctx = 0 ∨ h.pkt.ctx = 3) → (s.accepted i h).slotFor h.pkt = none → t.chans = s.chans ∧ t.eng = s.eng ∧
      t.reg 0x208 = ((s.accepted i h).incReg 0x208).reg 0x208)) := by
  refine .pktRow ha (by simp [hop]) ?_
  unfold State.chanRsp
  by_cases hctx : h.pkt.ctx = 0
  · rw [State.rsp_own _ hctx]
    refine ⟨fun k x f hs => State.slotRsp_free hb hs, fun _ hnone => ?_⟩
    rw [State.slotRsp_none hnone]
    exact ha.stale _
  · refine ⟨fun k x f hs => ?_, fun hc _ => ?_⟩
    · unfold State.slotFor at hs
      rw [if_pos hctx] at hs
      cases hs
    · have h3 : h.pkt.ctx = 3 := hc.resolve_left hctx
      unfold State.rsp
      dsimp only
      rw [if_neg hctx, h3]
      exact ha.stale _

end

/-! ### The rows -/

theorem Meets.and {o : Out} {P Q : State → Prop} (h : Meets o P) (h' : Meets o Q) : Meets o (fun t => P t ∧ Q t) := by
  obtain ⟨t, rfl, hp⟩ := h
  obtain ⟨t', ht, hq⟩ := h'
  cases ht
  exact ⟨t, rfl, hp, hq⟩

theorem Meets.mono {o : Out} {P Q : State → Prop} (h : Meets o P) (hPQ : ∀ t, P t → Q t) : Meets o Q := by
  obtain ⟨t, ht, hp⟩ := h
  exact ⟨t, ht, hPQ t hp⟩

/-- What a row of data does with the fragment it matches: it fails it, keeps a scalar's value, or writes the data (R63, R96). -/
def dataBody (h : Held) (t : State) (k : Nat) (x : Slot) (f : Flight) : State :=
  let fail := fun (o : Nat) => t.modFlight k x.ord (fun g => g.fail ⟨x.frag.idx, o, false, false, failAddr f.word x.frag⟩)
  if opOf f.word = opLoads then
    if h.pkt.poison ≠ 0 then fail 6
    else t.modFlight k x.ord (fun g => { g with value := BitVec.ofNat 64 (leNat (h.pkt.pay.take 8)), written := true })
  else
    match t.window9 .wr h.pkt with
    | some o => fail o
    | none =>
      ((t.modFlight k x.ord (fun g => { g with localW := g.localW + 1 })).startWrite (.get k x.ord x.frag (decide (h.pkt.poison ≠ 0)))
        (wrGrans h.pkt.offset h.pkt.pay h.pkt.poison.toNat) (tallyCount h.pkt.offset h.pkt.len h.pkt.poison.toNat)).2

/-- What a row of an atomic's result does: it keeps the value, and writes it where the word says so (R122). -/
def atomBody (h : Held) (t : State) (k : Nat) (x : Slot) (f : Flight) : State :=
  let w := f.word
  let n := if cf w 4 8 2 = 0 then 4 else 8
  let t1 := t.modFlight k x.ord (fun g => { g with value := h.pkt.h5, written := (cq w 4).testBit 14 })
  if ¬ (cq w 4).testBit 18 then t1
  else
    let off := offOf (cq w 5)
    match t1.checkRanges .wr [(off, n)] with
    | some o => t1.modFlight k x.ord (fun g => g.fail ⟨0, o, false, false, BitVec.ofNat 64 (cq w 5)⟩)
    | none =>
      ((t1.modFlight k x.ord (fun g => { g with localW := g.localW + 1 })).startWrite (.rmem k x.ord)
        (wrGrans off (leBytes n h.pkt.h5.toNat) 0) 0).2

theorem State.modFlight_slots (s : State) (k ord : Nat) (f : Flight → Flight) : FewerSlots k s (s.modFlight k ord f) :=
  .of_eq (s.slots_modFlight k ord f)

theorem State.startWrite_slots (s : State) (k : Nat) (use : WrUse) (gs : List WrGran) (n : Nat) :
    FewerSlots k s (s.startWrite use gs n).2 := .of_same (l := [.eng, .hm]) (by simp) rfl

theorem dataBody_keeps (h : Held) : KeepsSlots (dataBody h) := by
  intro t k x f
  unfold dataBody
  dsimp only
  split
  · split <;> exact t.modFlight_slots _ _ _
  · split
    · exact t.modFlight_slots _ _ _
    · exact (t.modFlight_slots _ _ _).trans (State.startWrite_slots _ _ _ _ _)

theorem atomBody_keeps (h : Held) : KeepsSlots (atomBody h) := by
  intro t k x f
  unfold atomBody
  dsimp only
  generalize hu : t.modFlight k x.ord _ = u
  have h1 : FewerSlots k t u := hu ▸ t.modFlight_slots _ _ _
  split
  · exact h1
  · split
    · exact h1.trans (u.modFlight_slots _ _ _)
    · exact (h1.trans (u.modFlight_slots _ _ _)).trans (State.startWrite_slots _ _ _ _ _)

/-- The data of a fragment of a GET that the windows allow are written. -/
theorem State.slotRsp_data {u : State} {h : Held} {k : Nat} {x : Slot} {f : Flight} (hop : h.pkt.opcode = 0x41)
    (hs : u.slotFor h.pkt = some (k, x, f)) (hget : opOf f.word = opGet) (hans : (u.answersOf f).contains 0x41 = true)
    (hw : u.window9 .wr h.pkt = none) :
    ∃ j ∈ (u.slotRsp h (dataBody h)).eng.writes, j.use = .get k x.ord x.frag (decide (h.pkt.poison ≠ 0)) := by
  have hv : ((u.echoed k x h.pkt).freeSlot k x).window9 .wr h.pkt = none := by
    have hs : Same (mask [.reins, .tows, .chans]) u ((u.echoed k x h.pkt).freeSlot k x) :=
      (State.freeSlot_same _ _ _ (by simp)).mpr ((u.echoed_same k x h.pkt).mono (by simp))
    rw [← hw]
    unfold State.window9 State.windowCheck State.windowOf State.window State.ff State.force
    rw [hs .tbl rfl]
  have hset (t : State) : (t.settle k).eng = t.eng :=
    ((State.settle_same t k (μ := mask [.rg, .chans, .scal, .ev, .logs]) (by simp)).mpr (Same.refl _ _) .eng rfl).symm
  rw [State.slotRsp_eq hs, hset, if_neg (by simp [hop]), if_pos (by rw [hop]; exact hans)]
  unfold dataBody
  dsimp only
  rw [if_neg (by rw [hget]; decide), hv]
  dsimp only
  rw [State.startWrite_eng]
  exact ⟨_, List.mem_append_right _ (List.mem_singleton_self _), rfl⟩

/-- Settles O20: a fragment matched loses its slot before its row's effect, which gives out none, and a response that matches
nothing is stale. -/
theorem responsesEndTheirFragments : Obligations.ResponsesEndTheirFragments := by
  intro s i h ha u free stale
  simp only [answers_iff]
  have hid : KeepsSlots (fun t _ _ _ => t) := fun t k _ _ => FewerSlots.refl k t
  refine ⟨fun hop => ?_, fun hop => ?_, fun hop => ?_, fun hop => ?_, fun hop => ?_⟩
  · exact ha.chanRsp (body := fun _ t k x _ => t.modFlight k x.ord (fun g => { g with bytes := g.bytes + x.frag.len })) hop
      (fun t k x _ => t.modFlight_slots _ _ _)
  · exact ha.chanRsp (body := fun _ t _ _ _ => t) hop hid
  · have hmeets := ha.chanRsp (body := dataBody) hop (dataBody_keeps h)
    have hdata : Meets (pktRow i [0x41] (fun s h => s.chanRsp h (dataBody h)) s) (fun t => ∀ k x f, u.slotFor h.pkt = some (k, x, f) →
        opOf f.word = opGet → (u.answersOf f).contains 0x41 = true → u.window9 .wr h.pkt = none →
        ∃ j ∈ t.eng.writes, j.use = .get k x.ord x.frag (decide (h.pkt.poison ≠ 0))) := by
      refine .pktRow ha (by simp [hop]) fun k x f hs hget hans hw => ?_
      have hctx : h.pkt.ctx = 0 := by
        by_contra hne
        simp [State.slotFor, hne] at hs
      unfold State.chanRsp
      rw [State.rsp_own _ hctx]
      exact State.slotRsp_data hop hs hget hans hw
    exact (hmeets.and hdata).mono fun t ⟨⟨hfree, hstale⟩, hd⟩ => ⟨hfree, hstale, hd⟩
  · exact ha.chanRsp (body := atomBody) hop (atomBody_keeps h)
  · exact ha.chanRsp (body := fun _ t _ _ _ => t) hop hid

end Sys2Proof.Machine

namespace Sys2Proof.Machine

/-! ## Accesses on RG (R10, R143, R393, R394, R417, R465, R495) -/

section
variable {s : State} {ok : Bool} {off : Nat} {a : RgAcc} {f : State → Bool → Word → State} {al : Bool} {P : State → Prop}

/-- A host write with bad parity is counted and not made. -/
theorem Meets.regCmd_parity (hok : ok = true) (ha : s.alive = true) (harm : s.flt.armed = none) (hw : a.who = .host)
    (hp : a.par ≠ rgParity true off a.data) (hP : P ((s.cleared.rgBad off false).ended s.pending)) :
    Meets (Machine.regCmd s ok off a f al) P := by
  unfold Machine.regCmd
  rw [if_pos ha]
  refine .run ha hok ?_
  unfold State.regWrite
  rw [hw]
  dsimp only
  rw [State.takeInj_unarmed (s := s.cleared) harm]
  dsimp only
  rw [if_pos (by simpa using hp)]
  exact hP

/-- A write while the block is held is answered RESET. -/
theorem Meets.regCmd_held (hok : ok = true) (ha : s.alive = false) (hph : s.pwr.phase ≠ .off) (hw : a.who = .host)
    (hP : P ((s.cleared.drive (.rgAnswer 0 2)).ended s.pending)) : Meets (Machine.regCmd s ok off a f al) P := by
  unfold Machine.regCmd
  rw [if_neg (by simp [ha])]
  exact .runAny (by simp [hok, hw, hph]) hP

/-- In F3 a host write clears what it may clear and is answered. -/
theorem Meets.regCmd_fatal (hok : ok = true) (ha : s.alive = true) (harm : s.flt.armed = none) (hw : a.who = .host)
    (hp : a.par = rgParity true off a.data) (hf3 : s.inF3 = true)
    (hP : P (((s.cleared.w1cOnly off a.data).drive (.rgAnswer 0 0)).ended s.pending)) :
    Meets (Machine.regCmd s ok off a f false) P := by
  unfold Machine.regCmd
  rw [if_pos ha]
  refine .run ha hok ?_
  unfold State.regWrite
  rw [hw]
  dsimp only
  rw [State.takeInj_unarmed (s := s.cleared) harm]
  dsimp only
  rw [if_neg (by simpa using hp), if_pos (by rw [show s.cleared.inF3 = s.inF3 from rfl, hf3]; rfl)]
  exact hP

/-- A read with good parity answers the word, and keeps what it latched. -/
theorem Meets.readCmd (hok : ok = true) (ha : s.alive = true) (harm : s.flt.armed = none)
    (hP : P (((s.cleared.readReg off).2.drive (.rgAnswer (s.cleared.readReg off).1 0)).ended s.pending)) :
    Meets (Machine.readCmd s ok off (rgParity false off 0)) P := by
  unfold Machine.readCmd
  rw [if_pos ha]
  refine .run ha hok ?_
  unfold State.rgRead
  rw [State.takeInj_unarmed (s := s.cleared) harm]
  dsimp only
  rw [if_neg (by simp)]
  exact hP

end

/-! ### Fields of stored registers -/

/-- The bits of a register after a field of it was put. -/
theorem State.testBit_putField (s : State) (off : Nat) {lo w : Nat} (v : Nat) (h : lo + w ≤ 32) (i : Nat) :
    ((s.putField off lo w v).reg off).toNat.testBit i =
      if lo ≤ i ∧ i < lo + w then v.testBit (i - lo) else (s.reg off).toNat.testBit i := by
  have hone (x : Nat) (hx : x < 2 ^ w) : x * 2 ^ lo < 2 ^ 32 :=
    calc x * 2 ^ lo < 2 ^ w * 2 ^ lo := Nat.mul_lt_mul_of_pos_right hx (Nat.two_pow_pos lo)
      _ = 2 ^ (lo + w) := by rw [← Nat.pow_add, Nat.add_comm]
      _ ≤ 2 ^ 32 := Nat.pow_le_pow_right (by decide) h
  have hv := hone (v % 2 ^ w) (Nat.mod_lt _ (Nat.two_pow_pos w))
  have hm := hone (2 ^ w - 1) (Nat.sub_lt (Nat.two_pow_pos w) (by decide))
  unfold State.putField
  rw [State.reg_setReg_same]
  by_cases hi : i < 32
  · simp only [BitVec.testBit_toNat, BitVec.getLsbD_or, BitVec.getLsbD_and, BitVec.getLsbD_not, BitVec.getLsbD_ofNat, hi,
      decide_true, Bool.true_and, Nat.testBit_mul_two_pow, Nat.testBit_two_pow_sub_one, Nat.testBit_mod_two_pow]
    by_cases hlo : lo ≤ i
    · by_cases hhi : i < lo + w
      · simp [hlo, hhi, show i - lo < w by omega]
      · simp [hlo, hhi, show ¬ i - lo < w by omega]
    · simp [hlo]
  · have hbig (x : Word) : x.toNat.testBit i = false := Nat.testBit_lt_two_pow (x.isLt.trans_le (Nat.pow_le_pow_right (by decide) (by omega)))
    rw [hbig, hbig, if_neg (by omega)]

/-- A field put reads back. -/
theorem State.rf_putField (s : State) (off : Nat) {lo w : Nat} (v : Nat) (h : lo + w ≤ 32) :
    (s.putField off lo w v).rf off lo w = v % 2 ^ w := by
  unfold State.rf fld
  refine Nat.eq_of_testBit_eq fun i => ?_
  simp only [Nat.testBit_mod_two_pow, Nat.testBit_shiftRight, State.testBit_putField s off v h]
  by_cases hi : i < w
  · simp [hi]
  · simp [hi]

/-- A field put leaves the fields beside it. -/
theorem State.rf_putField_other (s : State) (off : Nat) {lo w lo' w' : Nat} (v : Nat) (h : lo + w ≤ 32)
    (hd : lo' + w' ≤ lo ∨ lo + w ≤ lo') : (s.putField off lo w v).rf off lo' w' = s.rf off lo' w' := by
  unfold State.rf fld
  refine Nat.eq_of_testBit_eq fun i => ?_
  simp only [Nat.testBit_mod_two_pow, Nat.testBit_shiftRight, State.testBit_putField s off v h]
  by_cases hi : i < w'
  · simp [show ¬ (lo ≤ lo' + i ∧ lo' + i < lo + w) by omega]
  · simp [hi]

theorem State.reg_putField_other (s : State) {off o : Nat} (lo w v : Nat) (h : o ≠ off) :
    (s.putField off lo w v).reg o = s.reg o := State.reg_setReg_other _ _ h

theorem State.reg_orReg_other (s : State) {off o : Nat} (w : Word) (h : o ≠ off) : (s.orReg off w).reg o = s.reg o :=
  State.reg_setReg_other _ _ h

theorem State.reg_drive (s : State) (x : Output) (o : Nat) : (s.drive x).reg o = s.reg o := rfl

end Sys2Proof.Machine

namespace Sys2Proof.Machine

/-- The registers without behaviour of their own that O49 names. -/
theorem writeReg_plain {off : Nat} (h : off ∈ [0x140, 0x320, 0x3000]) (s : State) (p : Bool) (d : Word) :
    s.writeReg off p d = s.plainWrite off p d := by
  simp only [List.mem_cons, List.not_mem_nil, or_false] at h
  rcases h with rfl | rfl | rfl <;> rfl

/-- They hold nothing that a write of ones clears. -/
theorem w1cOnly_plain {off : Nat} (h : off ∈ [0x140, 0x320, 0x3000]) (s : State) (d : Word) :
    s.w1cOnly off d = s.setReg off (s.reg off) := by
  have hset : s.w1cOnly off d = s.setReg off (s.reg off &&& ~~~(d &&& (regMask off).w1c)) ∧ (regMask off).w1c = 0 := by
    simp only [List.mem_cons, List.not_mem_nil, or_false] at h
    rcases h with rfl | rfl | rfl
    · exact ⟨rfl, rfl⟩
    · exact ⟨rfl, rfl⟩
    · exact ⟨rfl, rfl⟩
  rw [hset.1, hset.2, show ~~~(d &&& (0 : Word)) = BitVec.allOnes 32 by simp, BitVec.and_allOnes]

theorem State.reg_setReg_self (s : State) (off o : Nat) : (s.setReg off (s.reg off)).reg o = s.reg o := by
  by_cases ho : o = off
  · rw [ho, State.reg_setReg_same]
  · exact State.reg_setReg_other _ _ ho

theorem State.rgBad_eq (s : State) (off : Nat) : ∃ o r f, s.rgBad off false = { s with out := o, rg := r, flt := f } := by
  unfold State.rgBad State.raise State.raiseX
  dsimp only
  split
  · exact ⟨_, _, _, rfl⟩
  · exact ⟨_, _, _, rfl⟩

theorem State.rgBad_out (s : State) (off : Nat) : (s.rgBad off false).out = s.out ++ [.rgAnswer 0 1] := by
  unfold State.rgBad State.raise State.raiseX
  dsimp only
  split <;> rfl

theorem State.rgBad_reg (s : State) (off : Nat) :
    ((s.rgBad off false).reg 0xF08).toNat.testBit 0 = true ∧ ∀ o, o ≠ 0xF08 → (s.rgBad off false).reg o = s.reg o := by
  unfold State.rgBad
  simp only [State.reg_drive, State.raise_reg]
  refine ⟨?_, fun o ho => ?_⟩
  · rw [State.testBit_putField _ _ _ (by decide), if_neg (by omega)]
    exact s.reg_orReg_testBit 0xF08 0 (by decide)
  · rw [State.reg_putField_other _ _ _ _ ho, State.reg_orReg_other _ _ ho]

/-! ### Latched reads -/

theorem State.shadow_latch (s : State) (o : Nat) (w : Word) (p : Nat) :
    (s.latch o w).shadow p = if p = o then w else s.shadow p := by
  unfold State.latch State.shadow
  by_cases h : p = o
  · subst h
    rw [if_pos rfl]
    exact SMap.get_set_same _ _ _ _
  · rw [if_neg h]
    exact SMap.get_set_other _ _ _ h

theorem inArr_none {off base stride n : Nat} (h : off < base ∨ base + stride * n ≤ off) : inArr off base stride n = none :=
  if_neg (by omega)

theorem inArr_some {off base stride n k r : Nat} (hk : k < n) (hr : r < stride) (ho : off = base + stride * k + r) :
    inArr off base stride n = some (k, r) := by
  have hlt : stride * k + r < stride * n :=
    calc stride * k + r < stride * k + stride := by omega
      _ = stride * (k + 1) := rfl
      _ ≤ stride * n := Nat.mul_le_mul_left _ hk
  unfold inArr
  rw [if_pos (by omega), show off - base = r + stride * k by omega, Nat.add_mul_div_left _ _ (by omega), Nat.div_eq_of_lt hr,
    Nat.add_mul_mod_self_left, Nat.mod_eq_of_lt hr, Nat.zero_add]

theorem isWideLo_tally {n : Nat} (hn : n < 8192) : isWideLo (0x10000 + 8 * n) = true ∧ isWideLo (0x10004 + 8 * n) = false := by
  refine ⟨?_, ?_⟩
  · simp only [isWideLo, show decide ((0x10000 + 8 * n) % 8 = 0) = true by simp,
      show decide (0x10000 ≤ 0x10000 + 8 * n) = true by simp, show decide (0x10000 + 8 * n < 0x20000) = true by simp; omega,
      Bool.and_true, Bool.or_true, Bool.true_or]
  · simp only [isWideLo, show decide ((0x10004 + 8 * n) % 8 = 0) = false by simp [Nat.add_mod], Bool.false_and]

theorem State.readWord_tally (s : State) {o : Nat} (h : 0x10000 ≤ o) (h' : o < 0x20000) :
    s.readWord o = BitVec.ofNat 32 (fld (s.tallyOf ((o - 0x10000) / 8)).toNat (32 * (o / 4 % 2)) 32) := by
  unfold State.readWord
  rw [if_neg (by omega), if_neg (by omega), if_neg (by omega), if_neg (by omega), if_pos h']

/-- The low word of a tally is wide: reading it latches the high word, which the next read returns. -/
theorem State.readReg_tally (s : State) {n : Nat} (hn : n < 8192) :
    s.readReg (0x10000 + 8 * n) = ((s.tallyOf n).setWidth 32,
      s.latch (0x10004 + 8 * n) (BitVec.ofNat 32 ((s.tallyOf n).toNat / 2 ^ 32))) ∧
    s.readReg (0x10004 + 8 * n) = (s.shadow (0x10004 + 8 * n), s) := by
  have hcc (o : Nat) (ho : o < 0x31000) : ccntAt o = none := by
    unfold ccntAt
    rw [inArr_none (.inl ho)]
    rfl
  obtain ⟨hlo, hhi⟩ := isWideLo_tally hn
  have hmod (x : Nat) : BitVec.ofNat 32 (x % 2 ^ 32) = BitVec.ofNat 32 x := by
    apply BitVec.eq_of_toNat_eq
    simp
  unfold State.readReg
  rw [hcc _ (by omega), hcc _ (by omega)]
  dsimp only
  refine ⟨?_, ?_⟩
  · rw [if_pos hlo, s.readWord_tally (by omega) (by omega), s.readWord_tally (by omega) (by omega),
      show (0x10000 + 8 * n - 0x10000) / 8 = n by omega, show (0x10000 + 8 * n + 4 - 0x10000) / 8 = n by omega,
      show (0x10000 + 8 * n) / 4 % 2 = 0 by omega, show (0x10000 + 8 * n + 4) / 4 % 2 = 1 by omega,
      show 0x10000 + 8 * n + 4 = 0x10004 + 8 * n by omega]
    simp only [fld, hmod, Nat.shiftRight_eq_div_pow]
    refine Prod.ext ?_ rfl
    apply BitVec.eq_of_toNat_eq
    simp
  · rw [if_neg (by simp [hhi]), if_pos (by rw [show 0x10004 + 8 * n - 4 = 0x10000 + 8 * n by omega]; exact ⟨by omega, hlo⟩)]

/-- Reading the first word of a channel's counters latches the set. -/
theorem State.readReg_ccnt (s : State) {k : Nat} (hk : k < 64) (snap : Bool) :
    let b := 0x31000 + 0x40 * k + (if snap then 0x20 else 0)
    let c := if snap then (s.cmdCnt k).snap else (s.cmdCnt k).live
    (s.readReg b).1 = BitVec.ofNat 32 (c.word 0) ∧
      (∀ i, i < 8 → (s.readReg b).2.shadow (b + 4 * i) = BitVec.ofNat 32 (c.word i)) ∧ (s.readReg b).2.out = s.out := by
  intro b c
  have hin (i : Nat) (hi : i < 8) : inArr (b + 4 * i) 0x31000 0x40 64 = some (k, (if snap then 0x20 else 0) + 4 * i) :=
    inArr_some hk (by split <;> omega) (by simp only [b]; omega)
  have hword (i : Nat) (hi : i < 8) : s.readWord (b + 4 * i) = BitVec.ofNat 32 (c.word i) := by
    have hb : 0x31000 ≤ b + 4 * i := by simp only [b]; omega
    unfold State.readWord State.readObs
    rw [if_neg (by omega), if_neg (by omega), if_neg (by omega), if_neg (by omega), if_neg (by omega), if_neg (by omega),
      if_neg (by omega), hin i hi]
    dsimp only
    cases snap
    · rw [if_pos (by simp; omega), show (if false = true then 0x20 else 0) + 4 * i = 4 * i by simp,
        show 4 * i % 0x20 / 4 = i by omega]
      rfl
    · rw [if_neg (by simp), show (if true = true then 0x20 else 0) + 4 * i = 0x20 + 4 * i by simp,
        show (0x20 + 4 * i) % 0x20 / 4 = i by omega]
      rfl
  have hlatch : ∀ i, i < 8 → (s.latchCnt k snap).shadow (b + 4 * i) = BitVec.ofNat 32 (c.word i) := by
    intro i hi
    rw [← hword i hi]
    unfold State.latchCnt
    simp only [List.range, List.range.loop, List.foldl_cons, List.foldl_nil, State.shadow_latch]
    interval_cases i <;> simp [b]
  have hread : s.readReg b = ((s.latchCnt k snap).shadow b, s.latchCnt k snap) := by
    have hcc : ccntAt b = some (k, snap, 0) := by
      have hin0 := hin 0 (by decide)
      rw [Nat.mul_zero, Nat.add_zero, Nat.add_zero] at hin0
      unfold ccntAt
      rw [hin0]
      cases snap <;> simp
    unfold State.readReg
    rw [hcc]
    rfl
  rw [hread]
  refine ⟨hlatch 0 (by decide), hlatch, ?_⟩
  exact (foldl_keeps (R := fun s t : State => t.out = s.out) (fun _ => rfl) (fun h h' => by exact h'.trans h)
    (fun (t : State) i => t.latch (b + 4 * i) (s.readWord (b + 4 * i))) (fun _ _ => rfl) (List.range 8) s :)

/-- Settles O49: a bad write, a plain one, one in F3, and the latches of the wide words and of the counters. -/
theorem registerAccessesAnswer : Obligations.RegisterAccessesAnswer := by
  simp only [Obligations.RegisterAccessesAnswer, answers_iff]
  refine ⟨fun s off a hm hlt hhost => ⟨fun ha harm hp => ?_, fun ha hph => ?_⟩, fun s off a p hoff hw => ?_,
    fun s off a hoff ha harm hhost hp hf3 => ?_, fun s n hn ha harm => ⟨?_, ?_⟩, fun s k snap hk ha harm => ?_⟩
  · refine .regCmd_parity (by simp [hm, hlt]) ha harm hhost hp ?_
    obtain ⟨hbit, hother⟩ := s.cleared.rgBad_reg off
    obtain ⟨o, r, f, he⟩ := s.cleared.rgBad_eq off
    refine ⟨s.cleared.rgBad_out off, hbit, hother, ?_⟩
    rw [he]
    rfl
  · exact .regCmd_held (by simp [hm, hlt]) ha hph hhost rfl
  · have hok : (decide (off % 4 = 0) && decide (off < 0x100000)) = true := by
      simp only [List.mem_cons, List.not_mem_nil, or_false] at hoff
      rcases hoff with rfl | rfl | rfl <;> rfl
    refine .regCmd hok hw fun o => ?_
    rw [writeReg_plain hoff]
    exact ⟨State.reg_setReg_same _ _ _, fun o ho => State.reg_setReg_other _ _ ho, rfl⟩
  · have hok : (decide (off % 4 = 0) && decide (off < 0x100000)) = true ∧ decide (off = 0x2024) = false := by
      simp only [List.mem_cons, List.not_mem_nil, or_false] at hoff
      rcases hoff with rfl | rfl | rfl <;> exact ⟨rfl, rfl⟩
    show Meets (execRegisterWrite off a s) _
    unfold execRegisterWrite
    rw [hok.2]
    refine .regCmd_fatal hok.1 ha harm hhost hp hf3 ?_
    rw [w1cOnly_plain hoff]
    exact ⟨rfl, s.cleared.reg_setReg_self off⟩
  · refine .readCmd (by simp; omega) ha harm ?_
    rw [(s.cleared.readReg_tally hn).1]
    refine ⟨rfl, ?_, rfl⟩
    have hlatch := s.cleared.shadow_latch (0x10004 + 8 * n) (BitVec.ofNat 32 ((s.tallyOf n).toNat / 2 ^ 32)) (0x10004 + 8 * n)
    rw [if_pos rfl] at hlatch
    calc _ = (BitVec.ofNat 32 ((s.tallyOf n).toNat / 2 ^ 32)).toNat := congrArg BitVec.toNat hlatch
      _ = _ := by
        have := (s.tallyOf n).isLt
        rw [BitVec.toNat_ofNat]
        omega
  · refine .readCmd (by simp; omega) ha harm ?_
    rw [(s.cleared.readReg_tally hn).2]
    rfl
  · obtain ⟨h0, hi, hout⟩ := s.cleared.readReg_ccnt hk snap
    refine .readCmd (by simp [hk]) ha harm ⟨?_, hi⟩
    rw [h0]
    exact congrArg (· ++ _) hout

end Sys2Proof.Machine

namespace Sys2Proof.Machine

/-! ## Gait (R496) -/

theorem State.emit_life (s : State) (w : Nat) : (s.emit w).life = s.life :=
  ((State.emit_same s w none (μ := mask [.rg, .ev, .logs]) (by simp)).mpr (Same.refl _ _) .life rfl).symm

theorem State.raise_life (s : State) (code inst cls atype master addr detail : Nat) (inj : Bool) :
    (s.raise code inst cls atype master addr detail inj).life = s.life :=
  ((State.raise_same s code inst cls atype master addr detail inj (μ := mask [.flt]) (by simp)).mpr (Same.refl _ _) .life rfl).symm

/-- The gait registers and the second's lowest mean in `t`, after an interval with mean `m` and latest microsecond `n` from `s`. -/
structure GaitAt (m n : Nat) (s t : State) : Prop where
  latest : (t.reg 0x32000).toNat = m + 2 ^ 16 * n
  extremes : (t.reg 0x32004).toNat = min m (s.rf 0x32004 0 16) + 2 ^ 16 * max m (s.rf 0x32004 16 16)
  low : t.reg 0x32008 = if m < 950 then (s.incReg 0x32008).reg 0x32008 else s.reg 0x32008
  second : t.life.secLow = some (match s.life.secLow with | some x => min x m | none => m)

theorem GaitAt.emit {m n : Nat} {s t : State} (h : GaitAt m n s t) (w : Nat) : GaitAt m n s (t.emit w) := by
  have hr (o : Nat) (ho : o ≤ 0x32008) : (t.emit w).reg o = t.reg o := State.emit_reg _ _ (by unfold IsLogLost logReg; omega)
  exact ⟨by rw [hr _ (by decide)]; exact h.latest, by rw [hr _ (by decide)]; exact h.extremes,
    by rw [hr _ (by decide)]; exact h.low, by rw [State.emit_life]; exact h.second⟩

/-- Two halves of a register. -/
theorem toNat_halves {a b : Nat} (ha : a < 2 ^ 16) (hb : b < 2 ^ 16) : (BitVec.ofNat 32 (a + put b 16 16)).toNat = a + 2 ^ 16 * b := by
  rw [BitVec.toNat_ofNat]
  unfold put
  omega

theorem State.rf_lt (s : State) (off lo w : Nat) : s.rf off lo w < 2 ^ w := Nat.mod_lt _ (Nat.two_pow_pos w)

/-- What the two registers and the second's lowest mean are after an interval, before its low mean is counted. -/
def State.gaitMoved (s : State) (m n : Nat) : State :=
  let u := (s.setReg 0x32000 (BitVec.ofNat 32 (m + put n 16 16))).setReg 0x32004
    (BitVec.ofNat 32 (min m (s.rf 0x32004 0 16) + put (max m (s.rf 0x32004 16 16)) 16 16))
  { u with life := { u.life with secLow := some (match s.life.secLow with | some x => min x m | none => m) } }

/-- The same, with a low mean counted. -/
def State.gaitCounted (s : State) (m n : Nat) : State :=
  if m < 950 then ((s.gaitMoved m n).incReg 0x32008).raise 0x06 0 0 else s.gaitMoved m n

theorem execGaitInterval_eq (mean inst : Nat) (s : State) : execGaitInterval mean inst s = run s true (fun s =>
    if min mean 65535 < s.rf 0x3200C 0 16 then (s.gaitCounted (min mean 65535) (min inst 65535)).emit (0x93 + put (min mean 65535) 8 16)
    else s.gaitCounted (min mean 65535) (min inst 65535)) := rfl

theorem State.gaitCounted_at (s : State) {m n : Nat} (hm : m < 2 ^ 16) (hn : n < 2 ^ 16) :
    GaitAt m n s (s.gaitCounted m n) := by
  have hlo := s.rf_lt 0x32004 0 16
  have hhi := s.rf_lt 0x32004 16 16
  have h0 : ((s.gaitMoved m n).reg 0x32000).toNat = m + 2 ^ 16 * n := by
    rw [show (s.gaitMoved m n).reg 0x32000 = _ from State.reg_setReg_other _ _ (by decide), State.reg_setReg_same,
      toNat_halves hm hn]
  have h4 : ((s.gaitMoved m n).reg 0x32004).toNat = min m (s.rf 0x32004 0 16) + 2 ^ 16 * max m (s.rf 0x32004 16 16) := by
    rw [show (s.gaitMoved m n).reg 0x32004 = _ from State.reg_setReg_same _ _ _, toNat_halves (by omega) (by omega)]
  have h8 : (s.gaitMoved m n).reg 0x32008 = s.reg 0x32008 := by
    rw [show (s.gaitMoved m n).reg 0x32008 = _ from State.reg_setReg_other _ _ (by decide)]
    exact State.reg_setReg_other _ _ (by decide)
  unfold State.gaitCounted
  split
  · next hlow =>
    have hr (o : Nat) (ho : o ≠ 0x32008) : (((s.gaitMoved m n).incReg 0x32008).raise 0x06 0 0).reg o = (s.gaitMoved m n).reg o := by
      rw [State.raise_reg]
      exact State.reg_setReg_other _ _ ho
    refine ⟨by rw [hr _ (by decide)]; exact h0, by rw [hr _ (by decide)]; exact h4, ?_, ?_⟩
    · rw [State.raise_reg, if_pos hlow]
      exact State.incReg_reg_congr h8
    · rw [State.raise_life]
      rfl
  · next hlow => exact ⟨h0, h4, by rw [if_neg hlow]; exact h8, rfl⟩

theorem gaitInterval_meets (s : State) (mean inst : Nat) (ha : s.alive = true) :
    Meets (execGaitInterval mean inst s) (GaitAt (min mean 65535) (min inst 65535) s) := by
  have hat := s.cleared.gaitCounted_at (m := min mean 65535) (n := min inst 65535) (by omega) (by omega)
  have hend (t : State) (h : GaitAt (min mean 65535) (min inst 65535) s.cleared t) :
      GaitAt (min mean 65535) (min inst 65535) s (t.ended s.pending) := ⟨h.latest, h.extremes, h.low, h.second⟩
  rw [execGaitInterval_eq]
  refine .run ha rfl ?_
  split
  · exact hend _ (hat.emit _)
  · exact hend _ hat

/-! ## The lifetime record (R505 to R507) -/

theorem State.lifeWord_lifeInc (s : State) {o p : Nat} (h : p ≠ o) : (s.lifeInc o).lifeWord p = s.lifeWord p :=
  SMap.get_set_other _ _ _ h

theorem State.lifeWord_lifeAdd_same (s : State) (o n : Nat) :
    ((s.lifeAdd o n).lifeWord o).toNat = min (2 ^ 32 - 1) ((s.lifeWord o).toNat + n) := by
  rw [show (s.lifeAdd o n).lifeWord o = _ from SMap.get_set_same _ _ _ _, BitVec.toNat_ofNat]
  omega

theorem State.lifeWord_lifeAdd_other (s : State) {o p : Nat} (n : Nat) (h : p ≠ o) : (s.lifeAdd o n).lifeWord p = s.lifeWord p :=
  SMap.get_set_other _ _ _ h

/-- Two words of the record as one number. -/
def State.lifeWide (s : State) (o : Nat) : Nat := (s.lifeWord o).toNat + 2 ^ 32 * (s.lifeWord (o + 4)).toNat

theorem State.lifeWide_congr {s t : State} {o : Nat} (h : t.lifeWord o = s.lifeWord o) (h' : t.lifeWord (o + 4) = s.lifeWord (o + 4)) :
    t.lifeWide o = s.lifeWide o := by
  unfold State.lifeWide
  rw [h, h']

theorem State.lifeWord_lifeInc64_other (s : State) {o p : Nat} (h : p ≠ o) (h' : p ≠ o + 4) :
    (s.lifeInc64 o).lifeWord p = s.lifeWord p := by
  unfold State.lifeInc64 State.lifeWord
  exact (SMap.get_set_other _ _ _ h').trans (SMap.get_set_other _ _ _ h)

theorem State.lifeWide_lifeInc64 (s : State) (o : Nat) : (s.lifeInc64 o).lifeWide o = min (2 ^ 64 - 1) (s.lifeWide o + 1) := by
  have hlo : (s.lifeInc64 o).lifeWord o = BitVec.ofNat 32
      (min (2 ^ 64 - 1) ((s.lifeWord o).toNat + (s.lifeWord (o + 4)).toNat * 2 ^ 32 + 1)) :=
    (SMap.get_set_other _ _ _ (by omega)).trans (SMap.get_set_same _ _ _ _)
  have hhi : (s.lifeInc64 o).lifeWord (o + 4) = BitVec.ofNat 32
      (min (2 ^ 64 - 1) ((s.lifeWord o).toNat + (s.lifeWord (o + 4)).toNat * 2 ^ 32 + 1) / 2 ^ 32) := SMap.get_set_same _ _ _ _
  unfold State.lifeWide
  rw [hlo, hhi, BitVec.toNat_ofNat, BitVec.toNat_ofNat]
  omega

/-- The second counted in the record, with the bin of its lowest mean. -/
def State.lifeUsed (s : State) : State :=
  let s1 := s.lifeInc64 0x008
  let s2 := if (List.range 12).any (fun p => decide ((s.link p).st = .active)) then s1.lifeInc64 0x010 else s1
  match s.life.secLow with
  | some m => s2.lifeInc (0x020 + 4 * gaitBin m)
  | none => s2

/-- The second counted at each usable team. -/
def State.lifeTeams (s : State) : State := (List.range 16).foldl (fun t k =>
  if (t.team k).st = .usable then t.lifeInc (0x080 + 32 * k + 4 * t.fomBin k) else t) s

/-- A new second begins. -/
def State.newSecond (s : State) : State := { s with life := { s.life with secLow := none } }

theorem execLifeSecond_eq (s : State) : execLifeSecond s = run s true (fun s => s.lifeUsed.lifeTeams.newSecond) := by
  unfold execLifeSecond
  refine congrArg (run s true) (funext fun u => ?_)
  unfold State.newSecond State.lifeTeams State.lifeUsed
  generalize u.life.secLow = low
  cases low with
  | none => dsimp only
  | some m => dsimp only

theorem State.lifeWide_lifeInc (s : State) {o : Nat} (h : 0x10 ≤ o) : (s.lifeInc o).lifeWide 8 = s.lifeWide 8 :=
  State.lifeWide_congr (s.lifeWord_lifeInc (by omega)) (s.lifeWord_lifeInc (by omega))

theorem State.lifeWide_lifeUsed (s : State) : s.lifeUsed.lifeWide 8 = min (2 ^ 64 - 1) (s.lifeWide 8 + 1) := by
  rw [← s.lifeWide_lifeInc64 8]
  unfold State.lifeUsed
  dsimp only
  generalize s.lifeInc64 8 = u
  generalize hv : (if (List.range 12).any (fun p => decide ((s.link p).st = .active)) = true then u.lifeInc64 16 else u) = v
  have hv8 : v.lifeWide 8 = u.lifeWide 8 := by
    rw [← hv]
    split
    · exact State.lifeWide_congr (u.lifeWord_lifeInc64_other (by decide) (by decide)) (u.lifeWord_lifeInc64_other (by decide) (by decide))
    · rfl
  rw [← hv8]
  split
  · exact v.lifeWide_lifeInc (by omega)
  · rfl

theorem State.lifeWide_lifeTeams (s : State) : s.lifeTeams.lifeWide 8 = s.lifeWide 8 := by
  unfold State.lifeTeams
  refine foldl_keeps (R := fun s t : State => t.lifeWide 8 = s.lifeWide 8) (fun _ => rfl) (fun h h' => by exact h'.trans h) _
    (fun t k => ?_) _ s
  split
  · exact t.lifeWide_lifeInc (by omega)
  · rfl

theorem State.newSecond_life (s : State) : s.newSecond.life.secLow = none ∧ s.newSecond.lifeWide 8 = s.lifeWide 8 := ⟨rfl, rfl⟩

theorem lifeSecond_meets (s : State) (ha : s.alive = true) : Meets (execLifeSecond s) (fun t => t.life.secLow = none ∧
    t.lifeWide 8 = min (2 ^ 64 - 1) (s.lifeWide 8 + 1)) := by
  rw [execLifeSecond_eq]
  refine .run ha rfl ?_
  have hwide : s.cleared.lifeUsed.lifeTeams.lifeWide 8 = min (2 ^ 64 - 1) (s.lifeWide 8 + 1) :=
    (State.lifeWide_lifeTeams _).trans s.cleared.lifeWide_lifeUsed
  generalize s.cleared.lifeUsed.lifeTeams = u at hwide
  exact ⟨rfl, hwide⟩

/-! ### Snapshot, restoration -/

theorem get_foldl_set (f : Nat → Word) (l : List Nat) (m : List (Nat × Word)) (o : Nat) :
    SMap.get (fun _ => (0 : Word)) (l.foldl (fun m o => SMap.set (fun _ => 0) m o (f o)) m) o =
      if o ∈ l then f o else SMap.get (fun _ => 0) m o := by
  induction l generalizing m with
  | nil => simp
  | cons x xs ih =>
    rw [List.foldl_cons, ih]
    by_cases hx : o = x
    · subst hx
      simp [SMap.get_set_same]
    · simp [hx, SMap.get_set_other _ _ _ hx]

theorem State.lifeSnap_life (s : State) : (∀ o ∈ lifeOffs, SMap.get (fun _ => (0 : Word)) s.lifeSnap.life.snap o = s.lifeBody o) ∧
    s.lifeSnap.life.crc = lifeCrc s.lifeBody ∧ s.lifeSnap.life.live = s.life.live := by
  refine ⟨fun o ho => ?_, rfl, rfl⟩
  unfold State.lifeSnap
  dsimp only
  rw [get_foldl_set, if_pos ho]

theorem State.lifeWord_joined_other (f : Nat → Nat) (l : List Nat) (s : State) {o : Nat} (ho : o ∉ l) :
    (l.foldl (fun t o => t.lifeAdd o (f o)) s).lifeWord o = s.lifeWord o := by
  induction l generalizing s with
  | nil => rfl
  | cons x xs ih =>
    obtain ⟨hx, hxs⟩ := not_or.mp (mt List.mem_cons.mpr ho)
    rw [List.foldl_cons, ih _ hxs, State.lifeWord_lifeAdd_other _ _ hx]

/-- A list of counts joined to the record. -/
theorem State.lifeWord_joined (f : Nat → Nat) {l : List Nat} (hnd : l.Nodup) (s : State) {o : Nat} (ho : o ∈ l) :
    ((l.foldl (fun t o => t.lifeAdd o (f o)) s).lifeWord o).toNat = min (2 ^ 32 - 1) ((s.lifeWord o).toNat + f o) := by
  induction l generalizing s with
  | nil => simp at ho
  | cons x xs ih =>
    obtain ⟨hx, hxs⟩ := List.nodup_cons.mp hnd
    rw [List.foldl_cons]
    by_cases he : o = x
    · rw [he, State.lifeWord_joined_other f xs _ hx, State.lifeWord_lifeAdd_same]
    · rw [ih hxs _ ((List.mem_cons.mp ho).resolve_left he), State.lifeWord_lifeAdd_other _ _ he]

/-- The words of the record that are counts of 32 bits. -/
def lifeCounts : List Nat := lifeOffs.filter (fun o => decide (0x018 ≤ o) && (decide (o < 0x280) || decide (o = 0x684)))

theorem lifeCounts_nodup : lifeCounts.Nodup :=
  List.Nodup.filter _ (List.Nodup.map (fun _ _ h => by simpa using h) List.nodup_range)

theorem mem_lifeCounts {i : Nat} (h : 6 ≤ i) (h' : i < 160) : 4 * i ∈ lifeCounts := by
  refine List.mem_filter.mpr ⟨List.mem_map.mpr ⟨i, List.mem_range.mpr (by omega), rfl⟩, ?_⟩
  simp
  omega

/-- The two wide counts joined to the record. -/
def State.joinWide (t : State) (n : Nat → Word) (o : Nat) : State :=
  let v := min (2 ^ 64 - 1) ((t.lifeWord o).toNat + (t.lifeWord (o + 4)).toNat * 2 ^ 32 + (n o).toNat + (n (o + 4)).toNat * 2 ^ 32)
  { t with life := { t.life with
      live := SMap.set (fun _ => 0) (SMap.set (fun _ => 0) t.life.live o (BitVec.ofNat 32 v)) (o + 4) (BitVec.ofNat 32 (v / 2 ^ 32)) } }

theorem State.lifeWord_joinWide (t : State) (n : Nat → Word) {o p : Nat} (h : p ≠ o) (h' : p ≠ o + 4) :
    (t.joinWide n o).lifeWord p = t.lifeWord p := (SMap.get_set_other _ _ _ h').trans (SMap.get_set_other _ _ _ h)

/-- The counts of the restored body joined to those since cold reset. -/
def State.lifeJoined (s : State) : State :=
  ((lifeCounts.foldl (fun t o => t.lifeAdd o (s.lifeNew o).toNat) s).joinWide s.lifeNew 8).joinWide s.lifeNew 0x10

theorem State.lifeWord_lifeJoined (s : State) {i : Nat} (h : 6 ≤ i) (h' : i < 160) :
    (s.lifeJoined.lifeWord (4 * i)).toNat = min (2 ^ 32 - 1) ((s.lifeWord (4 * i)).toNat + (s.lifeNew (4 * i)).toNat) := by
  unfold State.lifeJoined
  rw [State.lifeWord_joinWide _ _ (by omega) (by omega), State.lifeWord_joinWide _ _ (by omega) (by omega),
    State.lifeWord_joined _ lifeCounts_nodup s (mem_lifeCounts h h')]

/-- The restored body is bad: its CRC, its version or its chip is wrong. -/
def State.lifeBad (s : State) : Prop :=
  s.life.crc ≠ lifeCrc s.lifeNew ∨ s.lifeNew 0 ≠ 1 ∨ (s.lifeNew 4).toNat / 2 ^ 12 ≠ 0x7E13D

theorem State.lifeCommit_closed {s : State} (h : s.life.rstate ≠ .open_) : s.lifeCommit = s := if_pos h

theorem State.lifeCommit_bad {s : State} (h : s.life.rstate = .open_) (hb : s.lifeBad) :
    s.lifeCommit.life = { s.life with rstate := .refused, body := [] } := by
  unfold State.lifeBad at hb
  unfold State.lifeCommit
  rw [if_neg (by simp [h]), if_pos hb]

theorem State.lifeCommit_good {s : State} (h : s.life.rstate = .open_) (hb : ¬ s.lifeBad) :
    s.lifeCommit.life.rstate = .restored ∧ s.lifeCommit.life.live = s.lifeJoined.life.live := by
  unfold State.lifeBad at hb
  unfold State.lifeCommit
  rw [if_neg (by simp [h]), if_neg hb]
  exact ⟨rfl, rfl⟩

/-- A write of DX_LIFE_CTL with its three bits known. -/
theorem State.wrLifeCtl_bits (s : State) {d : Word} {b0 b1 b2 : Bool} (h0 : d.toNat.testBit 0 = b0) (h1 : d.toNat.testBit 1 = b1)
    (h2 : d.toNat.testBit 2 = b2) : s.wrLifeCtl d =
      (let s1 := if b0 then s.lifeSnap else s
       let s2 := if b1 then s1.lifeOpen else s1
       if b2 then s2.lifeCommit else s2) := by
  unfold State.wrLifeCtl
  rw [h0, h1, h2]

/-- What COMMIT leaves of the record, read in the state before it. -/
theorem State.lifeCommit_life {s u t : State} (hu : u.life = s.life) (ht : t.life = u.lifeCommit.life) :
    (s.life.rstate ≠ .open_ → t.life = s.life) ∧
    (s.life.rstate = .open_ → s.lifeBad → t.life = { s.life with rstate := .refused, body := [] }) ∧
    (s.life.rstate = .open_ → ¬ s.lifeBad → t.life.rstate = .restored ∧ ∀ i, 6 ≤ i → i < 160 →
      (t.lifeWord (4 * i)).toNat = min (2 ^ 32 - 1) ((s.lifeWord (4 * i)).toNat + (s.lifeNew (4 * i)).toNat)) := by
  have hnew : u.lifeNew = s.lifeNew := by unfold State.lifeNew; rw [hu]
  have hword : u.lifeWord = s.lifeWord := by unfold State.lifeWord; rw [hu]
  have hbad : s.lifeBad = u.lifeBad := by unfold State.lifeBad; rw [hu, hnew]
  rw [ht, hbad, ← hu]
  refine ⟨fun h => by rw [State.lifeCommit_closed h], State.lifeCommit_bad, fun ho hb => ?_⟩
  obtain ⟨hst, hlive⟩ := State.lifeCommit_good ho hb
  refine ⟨hst, fun i hi hi' => ?_⟩
  have ht' : t.lifeWord (4 * i) = u.lifeJoined.lifeWord (4 * i) := by
    unfold State.lifeWord
    rw [ht, hlive]
  rw [ht', u.lifeWord_lifeJoined hi hi', hnew, hword]

/-- Settles O51: the gait registers field by field, a second at the two words of the record, and the three bits of
DX_LIFE_CTL each alone. -/
theorem gaitAndLifeAreKept : Obligations.GaitAndLifeAreKept := by
  simp only [Obligations.GaitAndLifeAreKept, answers_iff]
  refine ⟨fun s mean inst ha => ?_, fun s ha => ?_, fun s a p hw => ⟨fun h0 h1 h2 => ?_, fun h0 h1 h2 => ?_, fun h0 h1 h2 => ?_⟩⟩
  · obtain ⟨t, ht, hat⟩ := gaitInterval_meets s mean inst ha
    exact ⟨t, ht, hat.latest, hat.extremes, hat.low, hat.second⟩
  · exact (lifeSecond_meets s ha).mono fun t ht => ⟨ht.1, ht.2.trans (by unfold State.lifeWide; rfl)⟩
  · show Meets (execLifeSnap a s) _
    unfold execLifeSnap
    rw [RgAcc.force_eq h0]
    refine .regCmd rfl hw fun o => ?_
    rw [s.cleared.wrLifeCtl_bits h0 h1 h2]
    exact s.cleared.lifeSnap_life
  · show Meets (execLifeOpen a s) _
    unfold execLifeOpen
    rw [RgAcc.force_eq h1]
    refine .regCmd rfl hw fun o => ?_
    rw [s.cleared.wrLifeCtl_bits h0 h1 h2]
    refine ⟨fun hc hn => ?_, fun hno => ?_⟩
    · exact congrArg State.life (if_pos ⟨hc, hn⟩ : s.cleared.lifeOpen = _)
    · have hsame : s.cleared.lifeOpen = s.cleared :=
        if_neg fun h => hno.elim (fun hc => Bool.false_ne_true (hc.symm.trans h.1)) (fun hn => hn h.2)
      exact (congrArg State.life hsame :)
  · show Meets (execLifeCommit a s) _
    unfold execLifeCommit
    rw [RgAcc.force_eq h2]
    refine .regCmd rfl hw fun o => ?_
    rw [s.cleared.wrLifeCtl_bits h0 h1 h2]
    simp only [Bool.false_eq_true, if_false, if_true]
    have hend (u : State) : ((u.said o).ended s.pending).life = u.life := rfl
    exact State.lifeCommit_life (u := s.cleared) rfl (hend _)

end Sys2Proof.Machine

namespace Sys2Proof.Machine

/-! ## I²C transactions (R363, R364) -/

theorem State.i2cBusy_setI2c (s : State) (c : Nat) (x : Option I2cBusy) : (s.setI2c c x).i2cBusy c = x := SMap.get_set_same _ _ _ _

/-- Controller `c` stands idle with a result and a count in `t`, and DONE. -/
structure I2cEnded (c result n : Nat) (t : State) : Prop where
  busy : t.i2cBusy c = none
  result : t.rf (i2cReg c 8) 1 3 = result
  count : t.rf (i2cReg c 8) 4 8 = n % 256
  done : (t.reg (i2cReg c 8)).toNat.testBit 12 = true

theorem fld_or (a b lo w : Nat) : fld (a ||| b) lo w = fld a lo w ||| fld b lo w := by
  unfold fld
  rw [Nat.shiftRight_or_distrib, Nat.or_mod_two_pow]

theorem fld_and (a b lo w : Nat) : fld (a &&& b) lo w = fld a lo w &&& fld b lo w := by
  unfold fld
  rw [Nat.shiftRight_and_distrib, Nat.and_mod_two_pow]

/-- A field of a word beside what its bits 12 and 13 held. -/
theorem fld_beside (old : Word) {x lo w : Nat} (hx : x < 2 ^ 32) (h0 : fld 0x3000 lo w = 0) :
    fld ((old &&& 0x3000) ||| BitVec.ofNat 32 x).toNat lo w = fld x lo w := by
  rw [BitVec.toNat_or, BitVec.toNat_and, fld_or, fld_and, BitVec.toNat_ofNat, Nat.mod_eq_of_lt hx,
    show fld (BitVec.toNat (0x3000 : Word)) lo w = 0 from h0, Nat.and_zero, Nat.zero_or]

theorem State.reg_i2cDone (s : State) (c result n : Nat) : (s.i2cDone c result n).reg (i2cReg c 8) =
    (s.reg (i2cReg c 8) &&& 0x3000) ||| BitVec.ofNat 32 (put result 1 3 + put n 4 8 + 0x1000) := by
  unfold State.i2cDone
  rw [State.emit_reg _ _ (by unfold IsLogLost logReg i2cReg; omega), State.reg_setReg_same]

theorem State.i2cBusy_drive (s : State) (o : Output) (c : Nat) : (s.drive o).i2cBusy c = s.i2cBusy c := rfl

theorem State.i2cBusy_emit (s : State) (w c : Nat) : (s.emit w).i2cBusy c = s.i2cBusy c :=
  congrArg (fun m => SMap.get (fun _ => (none : Option I2cBusy)) m c)
    ((State.emit_same s w none (μ := mask [.rg, .ev, .logs]) (by simp)).mpr (Same.refl _ _) .i2c rfl).symm

theorem State.i2cDone_ended (s : State) (c : Nat) {result : Nat} (hr : result < 8) (n : Nat) :
    I2cEnded c result n (s.i2cDone c result n) where
  busy := by
    unfold State.i2cDone
    rw [State.i2cBusy_emit]
    exact s.i2cBusy_setI2c c none
  result := by
    unfold State.rf
    rw [State.reg_i2cDone, fld_beside _ (by unfold put; omega) rfl]
    unfold fld put
    omega
  count := by
    unfold State.rf
    rw [State.reg_i2cDone, fld_beside _ (by unfold put; omega) rfl]
    unfold fld put
    omega
  done := by
    rw [State.reg_i2cDone, BitVec.toNat_or, Nat.testBit_or, BitVec.toNat_ofNat]
    refine Bool.or_eq_true_iff.mpr (.inr ?_)
    rw [Nat.testBit_eq_decide_div_mod_eq]
    unfold put
    simp
    omega

/-- What GO makes of an enabled idle controller, of a disabled one, and of a busy one. -/
structure WentI2c (c w : Nat) (s t : State) : Prop where
  goes : s.i2cBusy c = none → (s.reg (i2cReg c 0)).toNat.testBit 0 = true → fld w 0 2 ≠ 3 →
    t.i2cBusy c = some ⟨fld w 0 2, fld w 2 7, fld w 9 8, fld w 17 7 + 1, none⟩
  off : s.i2cBusy c = none → (s.reg (i2cReg c 0)).toNat.testBit 0 = false → t.i2cBusy c = none ∧ t.rf (i2cReg c 8) 1 3 = 6
  busy : (s.i2cBusy c).isSome = true → t.i2c = s.i2c ∧ (t.reg (i2cReg c 8)).toNat.testBit 13 = true

theorem State.wrI2cCmd_went (s : State) (c : Nat) (priv : Bool) {d : Word} (hd : d.toNat.testBit 31 = true) :
    WentI2c c (mergeWrite (regMask (i2cReg c 4)) priv (s.reg (i2cReg c 4)) d).toNat s (s.wrI2cCmd c priv d) := by
  unfold State.wrI2cCmd
  dsimp only
  rw [if_pos hd]
  generalize hu : s.plainWrite (i2cReg c 4) priv d = u
  have hbusy : u.i2cBusy c = s.i2cBusy c := by rw [← hu]; rfl
  have hi2c : u.i2c = s.i2c := by rw [← hu]; rfl
  have hctl : u.reg (i2cReg c 0) = s.reg (i2cReg c 0) := by
    rw [← hu]
    exact State.reg_setReg_other _ _ (by unfold i2cReg; omega)
  have hcmd : u.reg (i2cReg c 4) = mergeWrite (regMask (i2cReg c 4)) priv (s.reg (i2cReg c 4)) d := by
    rw [← hu]
    exact State.reg_setReg_same _ _ _
  rw [← hcmd]
  unfold State.i2cGo
  dsimp only
  constructor
  case goes =>
    intro hb hen hop
    rw [hbusy, hb, if_neg (by simp), if_neg (by rw [hctl]; simp [hen, hop]), State.i2cBusy_drive]
    exact State.i2cBusy_setI2c u c _
  case off =>
    intro hb hen
    rw [hbusy, hb, if_neg (by simp), if_pos (by rw [hctl]; simp [hen])]
    exact ⟨(u.i2cDone_ended c (by decide) 0).busy, (u.i2cDone_ended c (by decide) 0).result⟩
  case busy =>
    intro hb
    rw [hbusy, if_pos hb]
    exact ⟨hi2c, u.reg_orReg_testBit (i2cReg c 8) 13 (by decide)⟩

theorem State.i2cTell_none (s : State) (c : Nat) {b : I2cBusy} (h : b.mb = none) : s.i2cTell c b = s := by
  unfold State.i2cTell
  rw [h]

theorem i2cRow_meets {s : State} {c : Nat} {a : RgAcc} {priv : Bool} (hc : c < 8) (hw : WriteMade s (i2cReg c 4) a priv)
    (hgo : a.bit 31 = true) {op : Nat} (hop : fld a.data.toNat 0 2 = op) (hne : op ≠ 3) :
    Meets (i2cRow s c a op) (WentI2c c (mergeWrite (regMask (i2cReg c 4)) priv (s.reg (i2cReg c 4)) a.data).toNat s) := by
  have hbits (i : Nat) : a.bit i = decide (a.data.toNat / 2 ^ i % 2 = 1) := Nat.testBit_eq_decide_div_mod_eq
  have hlow : a.data.toNat % 4 = op := hop
  have h0 : a.bit 0 = decide (op % 2 = 1) := by rw [hbits]; exact decide_eq_decide.mpr (by omega)
  have h1 : a.bit 1 = decide (op = 2) := by rw [hbits]; exact decide_eq_decide.mpr (by omega)
  unfold i2cRow
  rw [RgAcc.force_eq hgo, RgAcc.force_eq h0, RgAcc.force_eq h1]
  refine .regCmd (decide_eq_true hc) hw fun o => ?_
  obtain ⟨hgoes, hoff, hbusy⟩ := s.cleared.wrI2cCmd_went c priv hgo
  exact ⟨hgoes, hoff, hbusy⟩

/-- Where a transaction of no mailbox ends, nobody is told. -/
theorem i2cEnd_meets {s : State} {c : Nat} {b : I2cBusy} (ha : s.alive = true) (hc : c < 8) (hb : s.i2cBusy c = some b)
    (hmb : b.mb = none) (r : I2cEnd) {result n : Nat} (hend : I2cEnded c result n (s.cleared.i2cEnd c b r)) :
    Meets (execI2cTransactionEnd c r s) (I2cEnded c result n) := by
  unfold execI2cTransactionEnd
  rw [hb]
  refine .run ha (decide_eq_true hc) ?_
  rw [State.i2cTell_none _ _ hmb]
  exact ⟨hend.busy, hend.result, hend.count, hend.done⟩

/-- Settles O37: GO by what the controller is at, and each way a transaction ends. -/
theorem i2cTransactions : Obligations.I2cTransactions := by
  simp only [Obligations.I2cTransactions, answers_iff]
  refine ⟨fun s c a priv hc hw hgo => ⟨fun hop => ?_, fun hop => ?_, fun hop => ?_⟩, fun s c b ha hc hb hmb => ?_⟩
  · exact (i2cRow_meets hc hw hgo hop (by decide)).mono fun t ht => ⟨ht.goes, ht.off, ht.busy⟩
  · exact (i2cRow_meets hc hw hgo hop (by decide)).mono fun t ht => ⟨ht.goes, ht.off, ht.busy⟩
  · exact (i2cRow_meets hc hw hgo hop (by decide)).mono fun t ht => ⟨ht.goes, ht.off, ht.busy⟩
  · have hends {r : I2cEnd} {result n : Nat} (hend : I2cEnded c result n (s.cleared.i2cEnd c b r)) :
        Meets (execI2cTransactionEnd c r s) (fun t => t.i2cBusy c = none ∧ t.rf (i2cReg c 8) 1 3 = result ∧
          t.rf (i2cReg c 8) 4 8 = n % 256 ∧ (t.reg (i2cReg c 8)).toNat.testBit 12 = true) :=
      (i2cEnd_meets ha hc hb hmb r hend).mono fun t ht => ⟨ht.busy, ht.result, ht.count, ht.done⟩
    refine ⟨fun bs => hends (State.i2cDone_ended _ c (by decide) _), ?_, fun n => hends (State.i2cDone_ended _ c (by decide) _),
      hends (State.i2cDone_ended _ c (by decide) _), fun n => hends (State.i2cDone_ended _ c (by decide) _), fun n => ?_⟩
    · exact hends (State.i2cDone_ended _ c (by decide) 0)
    · show Meets (execI2cStretchTimeout c n s) _
      unfold execI2cStretchTimeout
      rw [hb]
      refine .run ha (decide_eq_true hc) ?_
      rw [State.i2cTell_none _ _ hmb]
      obtain ⟨h1, h2, h3, h4⟩ := (s.cleared.i2cPart c (min n b.n) b).i2cDone_ended c (result := 3) (by decide) (min n b.n)
      exact ⟨h1, h2, h3, h4⟩

end Sys2Proof.Machine

namespace Sys2Proof.Machine

/-! ## The harness map (R355 to R357) -/

theorem testBit_maskOf (l : List Nat) (i : Nat) : (maskOf l).testBit i = decide (i ∈ l) := by
  have gen (m : Nat) : (l.foldl (fun m i => m ||| 2 ^ i) m).testBit i = (m.testBit i || decide (i ∈ l)) := by
    induction l generalizing m with
    | nil => simp
    | cons x xs ih =>
      rw [List.foldl_cons, ih, Nat.testBit_or, Nat.testBit_two_pow, Bool.or_assoc]
      congr 1
      simp [eq_comm]
  unfold maskOf
  rw [gen]
  simp

/-- The quays that no team's port uses. -/
def State.quaysDown (s : State) : List Nat :=
  (List.range 4).filter (fun q => (List.range 4).all (fun k => decide (s.teamPort (4 * q + k) = 15)))

theorem State.mem_quaysDown (s : State) {q : Nat} (hq : q < 4) : q ∈ s.quaysDown ↔ ∀ k, k < 4 → s.teamPort (4 * q + k) = 15 := by
  simp [State.quaysDown, hq]

theorem State.quaysDown_lt (s : State) : ∀ q ∈ s.quaysDown, q < 4 := fun q h => by
  simpa using (List.mem_filter.mp h).1

/-- The word of a sealed map: SEAL beside the quays powered down. -/
theorem sealWord_bits {l : List Nat} (hl : ∀ q ∈ l, q < 4) :
    let w : Word := BitVec.ofNat 32 (1 + maskOf (l.map (fun q => 16 + q)))
    w.toNat.testBit 0 = true ∧ fld w.toNat 4 12 = 0 ∧ ∀ q, q < 4 → (w.toNat.testBit (16 + q) = true ↔ q ∈ l) := by
  intro w
  have hbit (i : Nat) : (maskOf (l.map (fun q => 16 + q))).testBit i = decide (∃ q ∈ l, 16 + q = i) := by
    rw [testBit_maskOf]
    simp
  have hq (q : Nat) : (maskOf (l.map (fun q => 16 + q))).testBit (16 + q) = decide (q ∈ l) := by
    rw [hbit]
    simp
  have hw' : w = BitVec.ofNat 32 (1 + maskOf (l.map (fun q => 16 + q))) := rfl
  clear_value w
  generalize maskOf (l.map (fun q => 16 + q)) = m at hbit hq hw'
  have hlow : m % 2 ^ 16 = 0 := by
    refine Nat.eq_of_testBit_eq fun i => ?_
    rw [Nat.testBit_mod_two_pow, hbit, Nat.zero_testBit]
    simp only [Bool.and_eq_false_imp, decide_eq_true_eq, decide_eq_false_iff_not, not_exists, not_and]
    omega
  have hlt : m < 2 ^ 20 := by
    refine Nat.lt_pow_two_of_testBit _ fun i hi => ?_
    rw [hbit, decide_eq_false_iff_not]
    rintro ⟨q, hql, rfl⟩
    have := hl q hql
    omega
  have hw : w.toNat = 1 + m := by
    rw [hw', BitVec.toNat_ofNat]
    omega
  rw [hw]
  refine ⟨?_, ?_, fun q hq4 => ?_⟩
  · rw [Nat.testBit_eq_decide_div_mod_eq]
    simp
    omega
  · unfold fld
    omega
  · rw [← Nat.testBit_shiftRight (i := 16) (j := q), Nat.shiftRight_eq_div_pow, show (1 + m) / 2 ^ 16 = m / 2 ^ 16 by omega,
      ← Nat.shiftRight_eq_div_pow, Nat.testBit_shiftRight, hq, decide_eq_true_eq]

theorem State.sealMap_good (s : State) (h : (s.reg 0xC000).toNat.testBit 0 = false) (hr : s.sealRefuse = none) :
    s.sealMap.reg 0xC000 = BitVec.ofNat 32 (1 + maskOf (s.quaysDown.map (fun q => 16 + q))) := by
  unfold State.sealMap
  rw [if_neg (by simp [h]), hr]
  dsimp only
  have hkeep (u : State) : ((List.range 16).foldl (fun (a : State) t =>
      if s.quaysDown.contains (t / 4) ∧ (a.team t).st = .prbs then a.modTeam t (fun x => { x with st := .off, prbs := false }) else a) u).reg 0xC000
      = u.reg 0xC000 := by
    refine foldl_keeps (R := fun s t : State => t.reg 0xC000 = s.reg 0xC000) (fun _ => rfl) (fun h h' => by exact h'.trans h) _
      (fun t k => ?_) _ u
    split <;> rfl
  exact (hkeep _).trans (State.reg_setReg_same _ _ _)

theorem State.sealMap_refused (s : State) (h : (s.reg 0xC000).toNat.testBit 0 = false) {c p t : Nat}
    (hr : s.sealRefuse = some (c, p, t)) :
    (s.sealMap.reg 0xC000).toNat.testBit 0 = false ∧ s.sealMap.rf 0xC000 4 12 = put c 0 4 + put p 4 4 + put t 8 4 := by
  unfold State.sealMap
  rw [if_neg (by simp [h]), hr]
  refine ⟨?_, ?_⟩
  · rw [State.testBit_putField _ _ _ (by decide), if_neg (by omega), h]
  · rw [State.rf_putField _ _ _ (by decide)]
    unfold put
    omega

/-- Settles O36: a sealed map stays, and another is refused with its reason or sealed. -/
theorem harnessSealChecksTheMap : Obligations.HarnessSealChecksTheMap := by
  simp only [Obligations.HarnessSealChecksTheMap, answers_iff]
  refine ⟨fun s a hw hb => ?_, fun s a hw hb => ?_⟩
  · show Meets (execHarnessSeal a s) _
    unfold execHarnessSeal
    rw [RgAcc.force_eq hb]
    refine .regCmd rfl hw fun o => ?_
    unfold State.wrHarness
    rw [if_pos ⟨rfl, hb⟩]
    refine ⟨fun h1 => ?_, fun h0 => ⟨fun c p n hr => s.cleared.sealMap_refused h0 hr, fun hr => ?_⟩⟩
    · have hsame : s.cleared.sealMap = s.cleared := if_pos h1
      rw [hsame]
      exact ⟨rfl, rfl⟩
    · obtain ⟨hb0, hf, hq⟩ := sealWord_bits s.cleared.quaysDown_lt
      rw [← s.cleared.sealMap_good h0 hr] at hb0 hf hq
      exact ⟨hb0, hf, fun q hq4 => (hq q hq4).trans (s.cleared.mem_quaysDown hq4)⟩
  · show Meets (execHarnessSeal a s) _
    unfold execHarnessSeal
    rw [RgAcc.force_eq hb]
    refine .regCmd rfl hw fun o => ?_
    unfold State.wrHarness
    rw [if_neg (by simp)]
    exact ⟨rfl, rfl⟩

end Sys2Proof.Machine

namespace Sys2Proof.Machine

/-! ## Checkers, injections and recovery mode (R400, R405, R406, R424 to R430) -/

/-- In `t` the raise of a code of one source at a class waits, where two did not wait already. -/
def RaisedAt (s : State) (code inst cls : Nat) (t : State) : Prop :=
  (s.flt.waiting.filter (fun x => x.code = code ∧ x.inst = inst)).length < 2 →
    ∃ r, t.flt.waiting = insertRaise r s.flt.waiting ∧ r.code = code ∧ r.inst = inst ∧ r.cls = cls

theorem State.raise_raisedAt (s : State) (code inst cls atype master addr detail : Nat) (inj : Bool) :
    RaisedAt s code inst cls (s.raise code inst cls atype master addr detail inj) := by
  intro hlt
  unfold State.raise State.raiseX
  rw [if_neg (Nat.not_le_of_lt hlt)]
  exact ⟨_, rfl, rfl, rfl, rfl⟩

theorem Meets.raise {s : State} {ok : Bool} (ha : s.alive = true) (hok : ok = true) (code inst cls atype master addr detail : Nat)
    (inj : Bool) : Meets (Machine.run s ok (fun s => s.raise code inst cls atype master addr detail inj)) (RaisedAt s code inst cls) :=
  .run ha hok (s.cleared.raise_raisedAt code inst cls atype master addr detail inj)

/-- A write of a register that F3 does not close is made for a host with good parity in F3 too. -/
theorem Meets.regCmd_always {s : State} {ok : Bool} {off : Nat} {a : RgAcc} {f : State → Bool → Word → State} {P : State → Prop}
    (hok : ok = true) (ha : s.alive = true) (hw : a.who = .host → s.flt.armed = none ∧ a.par = rgParity true off a.data)
    (hP : ∀ p o, P (((f s.cleared p a.data).said o).ended s.pending)) : Meets (Machine.regCmd s ok off a f true) P := by
  unfold Machine.regCmd
  rw [if_pos ha]
  refine .run ha hok ?_
  unfold State.regWrite
  cases hwho : a.who with
  | kernel => exact hP true (f s.cleared true a.data).out
  | host =>
    obtain ⟨harm, hp⟩ := hw hwho
    dsimp only
    rw [State.takeInj_unarmed (s := s.cleared) harm]
    dsimp only
    rw [if_neg (by simpa using hp), if_neg (by simp)]
    exact hP _ _

/-- A word written with its bit `i` known. -/
theorem State.wrFltCtl_startDone (s : State) (p : Bool) {d : Word} (hd : d.toNat.testBit 10 = true) :
    (s.wrFltCtl p d).flt.capStart = false ∧ (s.wrFltCtl p d).life.rstate ≠ .open_ := by
  unfold State.wrFltCtl
  dsimp only
  rw [if_pos hd]
  generalize (if p ∧ d.toNat.testBit 12 then _ else _ : State) = u
  refine ⟨rfl, ?_⟩
  unfold State.startDone
  dsimp only
  split
  · decide
  · next h => exact h

/-- An injection that the block takes is made at once where it is of a rail, and is gone then. -/
theorem State.takeInj_armed {s : State} {code inst : Nat} {b : Bool} (h : s.flt.armed = some (code, inst, b)) :
    (s.takeInj code inst).1 = true ∧ (s.takeInj code inst).2.flt.armed = none ∧
      ((s.takeInj code inst).2.reg 0x2020).toNat.testBit 16 = true := by
  unfold State.takeInj
  rw [h]
  dsimp only
  rw [if_pos ⟨rfl, rfl⟩]
  exact ⟨rfl, rfl, State.reg_orReg_testBit _ 0x2020 16 (by decide)⟩

theorem State.raise_armed (s : State) (code inst cls atype master addr detail : Nat) (inj : Bool) :
    (s.raise code inst cls atype master addr detail inj).flt.armed = s.flt.armed := by
  unfold State.raise State.raiseX
  split <;> rfl

theorem State.railInj_made {s : State} {code inst : Nat} {b : Bool} (h : s.flt.armed = some (code, inst, b))
    (hc : code ∈ [1, 2, 3]) :
    (s.railInj code inst).flt.armed = none ∧ ((s.railInj code inst).reg 0x2020).toNat.testBit 16 = true := by
  obtain ⟨hmade, harm, hbit⟩ := s.takeInj_armed h
  unfold State.railInj
  rw [if_pos (by simpa using hc)]
  dsimp only
  rw [hmade, if_pos rfl, State.raise_armed, State.raise_reg]
  exact ⟨harm, hbit⟩

theorem State.wrFltInj_arm (s : State) {d : Word} (hf3 : s.inF3 = false) (h15 : d.toNat.testBit 15 = true) :
    let code := fld d.toNat 0 8
    let t := s.wrFltInj true d
    (injYes code = true → code ∉ [1, 2, 3] → t.flt.armed = some (code, fld d.toNat 8 6, d.toNat.testBit 14) ∧ t.flt.capTest = true) ∧
    (code ∈ [1, 2, 3] → t.flt.armed = none ∧ (t.reg 0x2020).toNat.testBit 16 = true) ∧
    (injYes code = false → t.flt.armed = none ∧ (t.reg 0x2020).toNat.testBit 17 = true) := by
  intro code t
  have ht : t = s.wrFltInj true d := rfl
  unfold State.wrFltInj at ht
  dsimp only at ht
  rw [if_neg (by simp [hf3]), if_neg (by simp), if_neg (by simp [h15])] at ht
  refine ⟨fun hy hc => ?_, fun hc => ?_, fun hy => ?_⟩
  · rw [if_pos hy] at ht
    unfold State.railInj at ht
    rw [if_neg (by simpa using hc)] at ht
    rw [ht]
    exact ⟨rfl, rfl⟩
  · rw [if_pos (by unfold injYes; simp only [code, List.mem_cons, List.not_mem_nil, or_false] at hc; rcases hc with h | h | h <;> rw [h] <;> rfl)] at ht
    rw [ht]
    exact State.railInj_made rfl hc
  · rw [if_neg (by rw [hy]; decide)] at ht
    rw [ht]
    exact ⟨rfl, State.reg_orReg_testBit _ 0x2020 17 (by decide)⟩

theorem State.wrFltInj_disarm (s : State) {d : Word} (hf3 : s.inF3 = false) (h15 : d.toNat.testBit 15 = false) :
    (s.wrFltInj true d).flt.armed = none := by
  unfold State.wrFltInj
  dsimp only
  rw [if_neg (by simp [hf3]), if_neg (by simp), if_pos (by simp [h15])]
  split
  · rfl
  · next h => exact Option.not_isSome_iff_eq_none.mp h

theorem State.wrCrec_clear (s : State) {d : Word} (h : d.toNat.testBit 7 = true) :
    (s.wrCrec d).flt.recs = 0 ∧ (s.wrCrec d).flt.lost = 0 ∧ (s.wrCrec d).flt.rseq = 0 ∧
      ∀ e ∈ (s.wrCrec d).rg, ¬(0x2800 ≤ e.1 ∧ e.1 < 0x3000) := by
  unfold State.wrCrec
  rw [if_pos h]
  refine ⟨rfl, rfl, rfl, fun e he h => ?_⟩
  have hout := (List.mem_filter.mp he).2
  simp [h.1, h.2] at hout

/-- Settles O40, row by row. -/
theorem checkersAndInjections : Obligations.CheckersAndInjections := by
  simp only [Obligations.CheckersAndInjections, answers_iff]
  refine ⟨fun s ha => ⟨fun line => ?_, ?_, ?_, fun a row he => ⟨?_, ?_⟩, fun hb ht => ?_, fun hf hp ht => ?_, fun a hw hb => ?_⟩,
    fun s a hw hf3 => ⟨fun hb => ?_, fun hb => ?_⟩, fun s a priv hw hb => ?_⟩
  · exact Meets.raise ha rfl _ _ _ _ _ _ _ _
  · show Meets (run s true (fun s => s.raise 0x02 0 3 9 0x61)) _
    exact Meets.raise ha rfl _ _ _ _ _ _ _ _
  · show Meets (run s true (fun s => if true then s else s.raise 0x02 0 3 9 0x61)) _
    exact .run ha rfl rfl
  · exact Meets.raise ha he _ _ _ _ _ _ _ _
  · exact Meets.raise ha he _ _ _ _ _ _ _ _
  · show Meets (execRecovExpire s) _
    refine .run ha (by simp [hb, ht]) ?_
    have hclr : ((s.cleared.clrReg 0x2004 0x1000).reg 0x2004).toNat.testBit 12 = false := by
      unfold State.clrReg
      rw [State.reg_setReg_same, BitVec.toNat_and, Nat.testBit_and, show (~~~(0x1000 : Word)).toNat.testBit 12 = false by decide,
        Bool.and_false]
    exact hclr
  · show Meets (execFaultStaticToggle s) _
    exact .run ha (by simp [hf, hp, ht]) ⟨rfl, rfl⟩
  · show Meets (execCrecClr a s) _
    unfold execCrecClr
    rw [RgAcc.force_eq hb]
    exact .regCmd_always rfl ha hw fun p o => s.cleared.wrCrec_clear hb
  · show Meets (execFltInjArm a s) _
    unfold execFltInjArm
    rw [RgAcc.force_eq hb]
    exact .regCmd rfl hw fun o => s.cleared.wrFltInj_arm hf3 hb
  · show Meets (execFltInjDisarm a s) _
    unfold execFltInjDisarm
    rw [RgAcc.force_eq hb]
    exact .regCmd rfl hw fun o => s.cleared.wrFltInj_disarm hf3 hb
  · show Meets (execStartDone a s) _
    unfold execStartDone
    rw [RgAcc.force_eq hb]
    exact .regCmd rfl hw fun o => s.cleared.wrFltCtl_startDone priv hb

end Sys2Proof.Machine

namespace Sys2Proof.Machine

/-! ## Rates of the reins -/

/-- Every rein has in `t` the rate it had in `s`. -/
def RatesKept (s t : State) : Prop := ∀ k, (t.rein k).rate = (s.rein k).rate

section
variable {s t u : State}

theorem RatesKept.refl (s : State) : RatesKept s s := fun _ => rfl
theorem RatesKept.trans (h : RatesKept s t) (h' : RatesKept t u) : RatesKept s u := fun k => (h' k).trans (h k)

theorem RatesKept.of_same {l : List Fld} (h : Same (mask l) s t) (hl : Fld.reins.bit &&& mask l = 0) : RatesKept s t :=
  fun k => congrArg (fun m => (SMap.get (fun _ => Rein.reset) m k).rate) (h .reins hl).symm

theorem State.rein_modRein_same (s : State) (k : Nat) (f : Rein → Rein) : (s.modRein k f).rein k = f (s.rein k) :=
  SMap.get_set_same _ _ _ _

theorem State.rein_modRein_other (s : State) {k j : Nat} (f : Rein → Rein) (h : j ≠ k) : (s.modRein k f).rein j = s.rein j :=
  SMap.get_set_other _ _ _ h

theorem State.modRein_rates (s : State) (k : Nat) {f : Rein → Rein} (hf : ∀ r, (f r).rate = r.rate) : RatesKept s (s.modRein k f) := by
  intro j
  by_cases h : j = k
  · rw [h, State.rein_modRein_same, hf]
  · rw [State.rein_modRein_other _ _ h]

theorem RatesKept.symm (h : RatesKept s t) : RatesKept t s := fun k => (h k).symm

/-- After an operation that keeps the rates, they are as before just when they were. -/
theorem RatesKept.lift (h : RatesKept s t) (s₀ : State) : RatesKept s₀ t ↔ RatesKept s₀ s :=
  ⟨fun h' => h'.trans h.symm, fun h' => h'.trans h⟩

variable {s₀ : State}

@[simp] theorem State.form_rates (s : State) (h : Hd) (pay : List Byte) (dir : Option Nat) (key : Option (Nat × Nat)) :
    RatesKept s₀ (s.form h pay dir key) ↔ RatesKept s₀ s :=
  (RatesKept.of_same (l := [.rg, .inj, .pseq, .counts]) (by simp) rfl).lift s₀

@[simp] theorem State.reinCharge_rates (s : State) (k op len : Nat) : RatesKept s₀ (s.reinCharge k op len) ↔ RatesKept s₀ s := by
  unfold State.reinCharge
  exact RatesKept.lift (s.modRein_rates k (by intro r; rfl)) s₀

@[simp] theorem State.reinHeld_rates (s : State) (k : Nat) : RatesKept s₀ (s.reinHeld k) ↔ RatesKept s₀ s := by
  unfold State.reinHeld
  exact RatesKept.lift (s.modRein_rates k (by intro r; rfl)) s₀

@[simp] theorem State.useSlot_rates (s : State) (i : Nat) : RatesKept s₀ (s.useSlot i) ↔ RatesKept s₀ s :=
  (RatesKept.of_same (l := [.rrUsed]) (by simp) rfl).lift s₀

@[simp] theorem State.modRa_rates (s : State) (p : Nat) (f : RaPort → RaPort) : RatesKept s₀ (s.modRa p f) ↔ RatesKept s₀ s :=
  (RatesKept.of_same (l := [.ra]) (by simp) rfl).lift s₀

@[simp] theorem State.raRespond_rates (s : State) (p tag : Nat) (wr : Bool) (o : Nat) (d : BitVec 2048) :
    RatesKept s₀ (s.raRespond p tag wr o d) ↔ RatesKept s₀ s := State.modRa_rates _ _ _

@[simp] theorem State.takeInj_rates (s : State) (code inst : Nat) : RatesKept s₀ (s.takeInj code inst).2 ↔ RatesKept s₀ s :=
  (RatesKept.of_same (l := [.rg, .flt]) (by simp) rfl).lift s₀

@[simp] theorem State.raise_rates (s : State) (code inst cls atype master addr detail : Nat) (inj : Bool) :
    RatesKept s₀ (s.raise code inst cls atype master addr detail inj) ↔ RatesKept s₀ s :=
  (RatesKept.of_same (l := [.flt]) (by simp) rfl).lift s₀

theorem State.raSend_rates (s : State) (p : Nat) (wr : Bool) (x : RaAccess) : RatesKept s (s.raSend p wr x) := by
  unfold State.raSend
  dsimp only
  split <;> simp [RatesKept.refl]

theorem State.raAccept_rates (s : State) (p : Nat) (wr : Bool) (x : RaAccess) : RatesKept s (s.raAccept p wr x) := by
  unfold State.raAccept
  dsimp only
  split
  · simp [RatesKept.refl]
  · split
    · simp [RatesKept.refl]
    · generalize hu : (if wr = true then (s.takeInj 0x24 p).2.takeInj 0x25 p else (false, (s.takeInj 0x24 p).2)) = u
      have h2 : RatesKept s u.2 := by
        rw [← hu]
        split <;> simp [RatesKept.refl]
      split
      · simpa using h2
      · split
        · simpa using h2
        · split
          · simpa using h2
          · split
            · simpa using h2
            · exact h2.trans (State.raSend_rates _ _ _ _)

/-- The round of the withheld accesses changes no rate. -/
theorem State.raRelease_rates (s : State) : RatesKept s s.raRelease := by
  rw [State.raRelease_eq]
  refine foldl_keeps RatesKept.refl RatesKept.trans _ (fun t p => ?_) _ s
  unfold State.raTry
  split
  · exact RatesKept.refl t
  · split
    · split <;> simp [RatesKept.refl]
    · split
      · exact RatesKept.refl t
      · exact ((State.modRa_rates t p _).mpr (RatesKept.refl t)).trans (State.raAccept_rates _ _ _ _)

end

theorem SMap.get_of_all {α : Type} {P : α → Prop} {dflt : Nat → α} (hd : ∀ k, P (dflt k)) {m : SMap α} (h : ∀ e ∈ m, P e.2) (k : Nat) :
    P (SMap.get dflt m k) := by
  induction m with
  | nil => exact hd k
  | cons e m ih =>
    unfold SMap.get
    split
    · exact h e (by simp)
    · exact ih fun x hx => h x (by simp [hx])

/-- After the reins are reset every RATE is 4,095. -/
theorem State.reinsReset_rate (s : State) (k : Nat) : (s.reinsReset.rein k).rate = 4095 := by
  refine SMap.get_of_all (P := fun r : Rein => r.rate = 4095) (fun _ => rfl) (fun e he => ?_) k
  obtain ⟨x, -, hx⟩ := List.mem_filterMap.mp he
  dsimp only at hx
  split at hx
  · cases hx
  · cases hx
    rfl

/-! ## Aborts and generations (R21 to R28, R439 to R442) -/

/-- What a generation's effects leave: the generation taken, the time of the step, every RATE anew, and no own packet in an
ejection berth. -/
structure Stepped (gen : Byte) (s t : State) : Prop where
  ident : t.ident = { s.ident with gen := gen }
  abort : t.abort = { s.abort with lastStep := some s.now }
  rates : ∀ k, (t.rein k).rate = 4095
  eject : ∀ h ∈ t.eject, s.ownPkt h = false

theorem State.discardHeld_eject (s : State) (which : Held → Bool) : ∀ h ∈ (s.discardHeld which).eject, which h = false := by
  unfold State.discardHeld
  extract_lets s1 s2 out
  clear_value out s2
  have hkeep (l : List Held) (v : State) : (l.foldl (fun t h => t.discard1 h) v).eject = v.eject := by
    refine foldl_keeps (R := fun s t : State => t.eject = s.eject) (fun _ => rfl) (fun h h' => by exact h'.trans h) _
      (fun t h => ?_) l v
    exact ((State.discard1_same t h (μ := mask [.out, .rg, .tows, .counts, .links, .phys, .mons, .cmap]) (by simp)).mpr
      (Same.refl _ _) .eject rfl).symm
  intro h hh
  rw [hkeep out] at hh
  simpa using (List.mem_filter.mp hh).2

/-- The block with generation `gen`. -/
def State.withGen (s : State) (gen : Byte) : State := { s with ident := { s.ident with gen := gen } }

/-- What a new generation ends beyond what was held. -/
def State.genEnds (s : State) : State :=
  let s3 := s.discardStreams.raLoadsEnd 7 false
  let s4 := (s3.chans.map (·.1)).foldl (fun t k => (t.abortSlots k).drainAll k false false) s3
  s4.towsReset.reinsReset

/-- The time of a generation step noted. -/
def State.stepNoted (s : State) : State := { s with abort := { s.abort with lastStep := some s.now } }

theorem State.genEffects_eq (s : State) (gen : Byte) :
    s.genEffects gen = ((s.collsAbort.discardHeld s.collsAbort.ownPkt).withGen gen).genEnds.stepNoted := by
  unfold State.genEffects State.stepNoted State.genEnds State.withGen
  dsimp only

theorem State.genEnds_same (s : State) : Same (mask [.streams, .ra, .rg, .chans, .scal, .eng, .hm, .ev, .inj, .pseq, .tows,
    .reins, .counts, .ccnt, .logs, .groups]) s s.genEnds := by
  unfold State.genEnds
  simp

theorem State.genEnds_rate (s : State) (k : Nat) : (s.genEnds.rein k).rate = 4095 := by
  unfold State.genEnds
  exact State.reinsReset_rate _ k

theorem State.genEffects_stepped (s : State) (gen : Byte) : Stepped gen s (s.genEffects gen) := by
  rw [State.genEffects_eq]
  have h1 : Same (mask [.rg, .chans, .scal, .eng, .hm, .ev, .inj, .pseq, .tows, .reins, .counts, .ccnt, .logs, .groups])
      s s.collsAbort := by simp
  have hown : s.collsAbort.ownPkt = s.ownPkt := by
    unfold State.ownPkt State.ownKey
    rw [← (h1 .ident rfl : s.ident = s.collsAbort.ident)]
  have h2 : Same (mask [.out, .rg, .chans, .scal, .eng, .hm, .ev, .inj, .pseq, .eject, .tows, .reins, .counts, .ccnt, .logs, .groups,
      .links, .phys, .mons, .cmap]) s (s.collsAbort.discardHeld s.collsAbort.ownPkt) := by simp
  have he2 := s.collsAbort.discardHeld_eject s.collsAbort.ownPkt
  rw [hown] at he2 h2 ⊢
  generalize s.collsAbort.discardHeld s.ownPkt = u at h2 he2
  have h5 := (u.withGen gen).genEnds_same
  generalize hg : (u.withGen gen).genEnds = g at h5
  have hid : (u.withGen gen).ident = { s.ident with gen := gen } := by rw [(h2 .ident rfl : s.ident = u.ident)]; rfl
  have hrate : ∀ k, (g.rein k).rate = 4095 := hg ▸ State.genEnds_rate _
  have hidg : g.ident = (u.withGen gen).ident := (h5 .ident rfl).symm
  have habg : g.abort = u.abort := (h5 .abort rfl).symm
  have hnowg : g.now = u.now := (h5 .now rfl).symm
  have hejg : g.eject = u.eject := (h5 .eject rfl).symm
  clear hg h5
  refine ⟨hidg.trans hid, ?_, hrate, fun h hh => he2 h (hejg ▸ hh)⟩
  have hab : s.abort = u.abort := h2 .abort rfl
  have hnow : s.now = u.now := h2 .now rfl
  rw [hab, hnow, ← habg, ← hnowg]
  rfl

theorem State.stepNow_stepped (s : State) {x : PendStep} {rest : List PendStep} (h : s.abort.steps = x :: rest) :
    s.stepNow.ident = { s.ident with gen := x.gen } ∧ s.stepNow.abort = { s.abort with lastStep := some s.now, steps := rest } ∧
      (∀ k, (s.stepNow.rein k).rate = 4095) ∧ ∀ h ∈ s.stepNow.eject, s.ownPkt h = false := by
  obtain ⟨hid, hab, hrate, hej⟩ := s.genEffects_stepped x.gen
  unfold State.stepNow
  rw [h]
  dsimp only
  generalize s.genEffects x.gen = g at hid hab hrate hej
  generalize hu : ({ g.stepTime with abort := { g.stepTime.abort with steps := rest } } : State) = u
  have huid : u.ident = { s.ident with gen := x.gen } := by rw [← hu]; exact hid
  have huab : u.abort = { s.abort with lastStep := some s.now, steps := rest } := by
    rw [← hu]
    show ({ g.abort with steps := rest } : AbortSt) = _
    rw [hab]
  have hurate : ∀ k, (u.rein k).rate = 4095 := by rw [← hu]; exact hrate
  have huej : ∀ h ∈ u.eject, s.ownPkt h = false := by rw [← hu]; exact hej
  clear hu
  generalize hv : (if x.selfStep = true then (if x.quiet = true then u else u.abortSaid x).portsHeld
    else if x.quiet = true then u else u.abortSaid x) = v
  have hsame : Same (mask [.rg, .ev, .logs, .links, .teams, .phys]) u v := by
    rw [← hv]
    split <;> split <;> simp
  have hrel : Same (mask [.rg, .ev, .logs, .links, .teams, .phys, .ra, .inj, .pseq, .reins, .rrUsed, .counts, .flt]) u v.raRelease :=
    (State.raRelease_same _ (by simp)).mpr (hsame.mono (by simp))
  have hidr : v.raRelease.ident = u.ident := (hrel .ident rfl).symm
  have habr : v.raRelease.abort = u.abort := (hrel .abort rfl).symm
  refine ⟨hidr.trans huid, habr.trans huab, fun k => ?_, fun h hh => huej h ?_⟩
  · rw [v.raRelease_rates k, RatesKept.of_same hsame rfl k]
    exact hurate k
  · exact (hrel .eject rfl : u.eject = _) ▸ hh

/-- What originating an abort makes of the steps that wait, and of recovery mode. -/
theorem State.originAbort_taken (s : State) (reason : Nat) (hk : s.ident.pkey ≠ 0) (ha : s.abortHold = false) :
    (s.originAbort reason).abort = { s.abort with steps := [⟨s.ident.gen + 1, reason, s.ident.chip, 0, false, false⟩] } ∧
      (s.originAbort reason).flt.recovAt = s.now := by
  have hst : s.abort.steps = [] := by
    unfold State.abortHold at ha
    simpa using (Bool.or_eq_false_iff.mp ha).2
  unfold State.originAbort
  rw [if_neg (not_or.mpr ⟨hk, by simp [ha]⟩)]
  generalize (⟨s.ident.gen + 1, reason, s.ident.chip, 0, false, false⟩ : PendStep) = x
  unfold State.acceptAbort
  dsimp only
  rw [if_pos rfl]
  generalize hf : s.fwdAbort 15 s.ident.pkey.toNat x.gen.toNat x.orig.toNat x.reason (x.hops + 1) = f
  have hsame : Same (mask [.out, .rg, .tows, .links, .phys, .mons, .cmap, .chans, .ra, .halt]) s
      (if f.haltOwn = true then f.haltEnd else f) := by
    rw [← hf]
    split <;> simp
  generalize (if f.haltOwn = true then f.haltEnd else f) = u at hsame
  have hab : u.abort = s.abort := (hsame .abort rfl).symm
  have hnow : u.now = s.now := (hsame .now rfl).symm
  refine ⟨?_, hnow⟩
  show ({ u.abort with steps := u.abort.steps ++ [x] } : AbortSt) = _
  rw [hab, hst]
  rfl

theorem State.originAbort_held (s : State) (reason : Nat) (h : s.ident.pkey = 0 ∨ s.abortHold = true) : s.originAbort reason = s :=
  if_pos h

/-- What a write of DX_PART that may be made makes of identity and steps (R22 to R24, R442). -/
structure Parted (k : Nat) (gen : Nat) (s t : State) : Prop where
  hold : t.abort.skewHold = false
  pkey : t.ident.pkey.toNat = if k = 0xFFFF then s.ident.pkey.toNat else k
  plain : s.abort.skewHold = false → t.ident.gen.toNat = gen ∧ t.abort.steps = s.abort.steps
  now : s.abort.skewHold = true → s.abort.steps = [] → s.stepDue = true →
    t.ident.gen.toNat = gen ∧ t.abort.steps = [] ∧ t.abort.lastStep = some s.now
  later : s.abort.skewHold = true → ¬(s.abort.steps = [] ∧ s.stepDue = true) →
    t.ident.gen = s.ident.gen ∧ t.abort.steps = s.abort.steps ++ [⟨BitVec.ofNat 8 gen, 0, 0, 0, false, true⟩]

theorem State.wrPart_locked (s : State) (priv : Bool) {d : Word} (h : ¬ priv = true ∨ s.keyLocked d = true) : s.wrPart priv d = s :=
  if_pos h

/-- The hold of an abort out of step ended, with the step `x` behind those that wait. -/
def State.stepQueued (s : State) (x : PendStep) : State :=
  { s with abort := { s.abort with skewHold := false, steps := s.abort.steps ++ [x] } }

theorem State.wrPart_parted (s : State) {d : Word} (h : s.keyLocked d = false) :
    Parted (fld d.toNat 0 16) (fld d.toNat 16 8) s (s.wrPart true d) := by
  have hgen : (BitVec.ofNat 8 (fld d.toNat 16 8)).toNat = fld d.toNat 16 8 := by
    rw [BitVec.toNat_ofNat]
    exact Nat.mod_mod _ _
  have hlt : fld d.toNat 0 16 < 2 ^ 16 := Nat.mod_lt _ (by decide)
  unfold State.wrPart
  rw [if_neg (by simp [h])]
  dsimp only
  generalize fld d.toNat 0 16 = k at hlt ⊢
  generalize fld d.toNat 16 8 = gen at hgen ⊢
  generalize hu : (if k = 0xFFFF then s else _ : State) = u
  have hab : u.abort = s.abort := by rw [← hu]; split <;> rfl
  have hnow : u.now = s.now := by rw [← hu]; split <;> rfl
  have hg : u.ident.gen = s.ident.gen := by rw [← hu]; split <;> rfl
  have hk : u.ident.pkey.toNat = if k = 0xFFFF then s.ident.pkey.toNat else k := by
    rw [← hu]
    split
    · rfl
    · exact (BitVec.toNat_ofNat _ _).trans (Nat.mod_eq_of_lt hlt)
  have hdue : u.stepDue = s.stepDue := by unfold State.stepDue; rw [hab, hnow]
  clear hu
  rw [hab]
  by_cases hh : s.abort.skewHold = true
  · rw [if_pos hh]
    generalize hx : (⟨BitVec.ofNat 8 gen, 0, 0, 0, false, true⟩ : PendStep) = x
    have hxg : x.gen = BitVec.ofNat 8 gen := by rw [← hx]
    rw [← hab]
    show Parted k gen s (if (u.stepQueued x).abort.steps = [x] ∧ (u.stepQueued x).stepDue = true then (u.stepQueued x).stepNow
      else u.stepQueued x)
    have hvab : (u.stepQueued x).abort = { s.abort with skewHold := false, steps := s.abort.steps ++ [x] } := by rw [← hab]; rfl
    have hvid : (u.stepQueued x).ident = u.ident := rfl
    have hvnow : (u.stepQueued x).now = s.now := hnow
    generalize u.stepQueued x = v at hvab hvid hvnow ⊢
    have hvdue : v.stepDue = s.stepDue := by
      unfold State.stepDue
      rw [hvab, hvnow]
    have hone : v.abort.steps = [x] ↔ s.abort.steps = [] := by
      rw [hvab]
      simp
    split
    · next hcond =>
      obtain ⟨hst, hdue'⟩ := hcond
      obtain ⟨hid, hab', -, -⟩ := v.stepNow_stepped hst
      have hnil := hone.mp hst
      rw [hvdue] at hdue'
      refine ⟨by rw [hab', hvab], ?_, fun h' => absurd hh (by simp [h']), fun _ _ _ => ⟨?_, by rw [hab'], ?_⟩,
        fun _ hn => absurd ⟨hnil, hdue'⟩ hn⟩
      · rw [hid, hvid]
        exact hk
      · rw [hid]
        show x.gen.toNat = gen
        rw [hxg, hgen]
      · rw [hab', hvnow]
    · next hcond =>
      rw [hone, hvdue] at hcond
      refine ⟨by rw [hvab], by rw [hvid]; exact hk, fun h' => absurd hh (by simp [h']), fun _ hn hd => absurd ⟨hn, hd⟩ hcond,
        fun _ _ => ⟨by rw [hvid, hg], by rw [hvab, ← hx]⟩⟩
  · rw [if_neg hh]
    exact ⟨by simpa [hab] using hh, hk, fun _ => ⟨hgen, by rw [← hab]⟩, fun h' => absurd h' hh, fun h' => absurd h' hh⟩

/-- Settles O42, write by write and step by step. -/
theorem abortsAndGenerations : Obligations.AbortsAndGenerations := by
  simp only [Obligations.AbortsAndGenerations, answers_iff]
  refine ⟨fun s a hw hb => ?_, fun s x rest ha hst hdue => ?_, fun s a hw => ?_, fun s a hw => ?_, fun s key gen n ha hin hn => ?_,
    fun s a priv hw => ⟨fun hb => ?_, fun hb => ?_⟩⟩
  · show Meets (execAbortGo a s) _
    unfold execAbortGo
    rw [RgAcc.force_eq hb]
    refine .regCmd rfl hw fun o => ?_
    unfold State.wrAbortCtl
    dsimp only
    rw [if_pos ⟨rfl, hb⟩]
    refine ⟨fun h => ?_, fun hk hab => ?_⟩
    · rw [State.originAbort_held (s.cleared.plainWrite 0x3010 true a.data) 0 h]
      rfl
    · obtain ⟨h1, h2⟩ := (s.cleared.plainWrite 0x3010 true a.data).originAbort_taken 0 hk hab
      exact ⟨(congrArg AbortSt.steps h1 :), h2⟩
  · show Meets (execGenerationStep s) _
    refine .run ha (by simp [hst, hdue]) ?_
    obtain ⟨h1, h2, h3, h4⟩ := s.cleared.stepNow_stepped hst
    exact ⟨h1, (congrArg AbortSt.steps h2 :), (congrArg AbortSt.lastStep h2 :), h3, h4⟩
  · show Meets (execGenWrite a s) _
    refine .regCmd rfl hw fun o => ?_
    refine ⟨fun hr hown hf => ?_, fun hmay => ?_⟩
    · rw [State.wrPart_locked s.cleared true (.inr (show s.keyLocked a.data = true by simp [State.keyLocked, hr, hown, hf]))]
      exact ⟨rfl, rfl⟩
    · obtain ⟨h1, h2, h3, h4, h5⟩ := s.cleared.wrPart_parted (d := a.data) (show s.keyLocked a.data = false by
          unfold State.keyLocked
          rcases hmay with h | h | h <;> simp [h])
      exact ⟨h1, h2, h3, h4, h5⟩
  · show Meets (execGenWrite a s) _
    refine .regCmd rfl hw fun o => ?_
    rw [State.wrPart_locked s.cleared false (.inl (by decide))]
    exact ⟨rfl, rfl⟩
  · show Meets (execAbortPairExpire key gen s) _
    refine .run ha (List.any_eq_true.mpr ⟨_, hin, by simp [hn]⟩) fun x => ?_
    exact List.mem_filter.trans (and_congr_right fun _ => by simp [imp_iff_not_or, or_assoc])
  · show Meets (execPfenceSet a s) _
    unfold execPfenceSet
    rw [RgAcc.force_eq hb]
    refine .regCmd rfl hw fun o => ?_
    unfold State.wrPfence
    cases priv
    · rw [if_pos (by decide)]
      rfl
    · rw [if_neg (by decide), if_pos (show a.data.toNat.testBit 0 = true from hb)]
      rfl
  · show Meets (execPfenceLift a s) _
    unfold execPfenceLift
    rw [RgAcc.force_eq hb]
    refine .regCmd rfl hw fun o => ?_
    unfold State.wrPfence
    cases priv
    · rw [if_pos (by decide)]
      rfl
    · rw [if_neg (by decide), if_neg (by rw [show a.data.toNat.testBit 0 = false from hb]; decide)]
      have hrel (u : State) : u.raRelease.pfence = u.pfence :=
        ((State.raRelease_same u (μ := mask [.rg, .ra, .inj, .pseq, .reins, .rrUsed, .counts, .flt]) (by simp)).mpr
          (Same.refl _ _) .pfence rfl).symm
      exact hrel _

end Sys2Proof.Machine

namespace Sys2Proof.Machine

/-! ## A hang said and lost again

Nothing in the statement bounds the port on which a held packet says that its head has left. Where that number is a monitor's,
completing the packet arms this monitor anew. -/

/-- The command answers a state without the property. -/
def answersWithout (c : Instr) (s : State) (p : State → Bool) : Bool :=
  match exec c s with
  | .next t => !p t
  | _ => false

/-- A command that answers a state without a property does not answer one that implies it. -/
theorem not_answers_of_without {c : Instr} {s : State} {P : State → Prop} (p : State → Bool) (hp : ∀ t, P t → p t = true)
    (h : answersWithout c s p = true) : ¬ Answers c s P := by
  rintro ⟨t, ht, hPt⟩
  simp [answersWithout, ht, hp t hPt] at h

/-- A packet of partition 7 from chip 9 to chip `d`. -/
def straying (d : Nat) : Packet := Hd.packet { opcode := 7, vc := 1, pkey := 7, dst := d, src := 9 } []

/-- Chip 5 of a torus of 16 × 16 × 32, in partition 7, with a sealed harness map that gives port 0 the direction X+ and team 0. -/
def oneTeam : State :=
  [(0x120, 0x0001F3CF), (0xC000, 1), (0xC004, 0xFFFFFFF0), (0xC008, 0xBFFFFFFF), (0xC040, 1), (0xC06C, 3), (0x600, 7)].foldl
    (fun t e => t.setReg e.1 (BitVec.ofNat 32 e.2)) { State.reset with ident := ⟨5, true, 7, 0, 0, 8191⟩, now := 2 ^ 40 }

/-- A packet to chip 6 at the injection point waits for a credit of port 0, which is ACTIVE without a credit, and port 0 receives
a packet of which a flit has left on "port 17": a link in RETRAIN past the last port, at the monitor of port 0's channel 1. -/
def strayHang : State :=
  (({ oneTeam with inj := [{ pkt := straying 6, port := 15, share := 1, flits := 1, copied := false, dir := none, abn := none, since := 0 }] }
    : State).modLink 0 (fun l => { l with
      st := .active
      basin := [{ pkt := straying 6, port := 0, share := 1, flits := 1, copied := false, dir := none, abn := none, since := 0,
                  more := true, sent := 1, out := some (17, 0, none) }] })).modLink 17 (fun l => { l with st := .retrain })

/-- Refutes O41: with a hang of port 0's channel 1 said, the port is fenced, and fencing it completes the packet that it was
receiving. That packet has left in part on "port 17", whose number is the monitor of the channel (16 + 8 × 0 + 1), and the first
flit in a replay buffer arms the monitor of its port: SAID reads 0 again. -/
theorem not_monitorsAndHalts : ¬ Obligations.MonitorsAndHalts := by
  unfold Obligations.MonitorsAndHalts
  intro h
  have hv := ((h.1 strayHang 0 (by decide +kernel) (by decide) (by decide +kernel) (by decide +kernel)).2 1 0 (by decide)
    (by decide +kernel) (by decide +kernel) (by decide +kernel))
  exact not_answers_of_without (fun t => (t.mon 17).said) (fun t ht => ht.2) (by decide +kernel) hv

end Sys2Proof.Machine

namespace Sys2Proof.Machine

/-! ## What carrying packets leaves of a link -/

/-- A link but for what carrying flits moves on: what sending moves on, the basin and its freed berths, the replay buffer with its
sequence number and rotation, and the control flits that wait to be sent. -/
def Link.control (l : Link) : Link :=
  { l.quiet with basin := [], freed := [], fseq := 0, rot := 0, replay := [], ctlWait := [] }

/-- In `t` every link is as in `s`, but for what carrying flits moves on. -/
def Steered (s t : State) : Prop := ∀ p, (t.link p).control = (s.link p).control

/-- Links that carrying flits does not tell apart agree in their control fields. -/
theorem Link.control_quiet {l m : Link} (h : l.quiet = m.quiet) : l.control = m.control := by
  unfold Link.control
  rw [h]

@[simp, refl] theorem Steered.refl (s : State) : Steered s s := fun _ => rfl
theorem Steered.symm {s t : State} (h : Steered s t) : Steered t s := fun p => (h p).symm
theorem Steered.trans {s t u : State} (h : Steered s t) (h' : Steered t u) : Steered s u := fun p => (h' p).trans (h p)

theorem Steered.lift {s t : State} (h : Steered s t) (s₀ : State) : Steered s₀ t ↔ Steered s₀ s :=
  ⟨fun h' => h'.trans h.symm, fun h' => h'.trans h⟩

theorem Steered.foldl {α : Type} {f : State → α → State} (hf : ∀ t x, Steered t (f t x)) (l : List α) (s : State) :
    Steered s (l.foldl f s) := foldl_keeps Steered.refl Steered.trans f hf l s

theorem Steered.of_same {s t : State} {l : List Fld} (h : Same (mask l) s t) (hl : Fld.links.bit &&& mask l = 0) :
    Steered s t := fun p => congrArg (fun m => (SMap.get (fun _ => Link.reset) m p).control) (h .links hl).symm

theorem Hushed.steered {s t : State} (h : Hushed s t) : Steered s t := fun p => Link.control_quiet (h p)

section
variable {s t : State} (h : Steered s t) (p : Nat)
include h

theorem Steered.st : (t.link p).st = (s.link p).st := (congrArg Link.st (h p) :)
theorem Steered.cause : (t.link p).cause = (s.link p).cause := (congrArg Link.cause (h p) :)
theorem Steered.teams : (t.link p).teams = (s.link p).teams := (congrArg Link.teams (h p) :)
theorem Steered.dropAsk : (t.link p).dropAsk = (s.link p).dropAsk := (congrArg Link.dropAsk (h p) :)
theorem Steered.enPend : (t.link p).enPend = (s.link p).enPend := (congrArg Link.enPend (h p) :)
theorem Steered.heldEn : (t.link p).heldEn = (s.link p).heldEn := (congrArg Link.heldEn (h p) :)
theorem Steered.cred : (t.link p).cred = (s.link p).cred := (congrArg Link.cred (h p) :)

end

section
variable {s₀ : State}

theorem State.modLink_steered (s : State) (p : Nat) {f : Link → Link} (hf : ∀ l : Link, (f l).control = l.control) :
    Steered s₀ (s.modLink p f) ↔ Steered s₀ s := by
  refine Steered.lift (fun q => ?_) s₀
  by_cases hq : q = p
  · subst hq
    rw [State.link_modLink_same, hf]
  · rw [State.link_modLink_other _ _ hq]

/-- A change of a link that keeps its control. -/
theorem Steered.modLink (s : State) (p : Nat) {f : Link → Link} (hf : ∀ l : Link, (f l).control = l.control) :
    Steered s (s.modLink p f) := (State.modLink_steered s p hf).mpr (Steered.refl s)

@[simp] theorem State.modTow_steered (s : State) (t : Nat) (f : Tow → Tow) : Steered s₀ (s.modTow t f) ↔ Steered s₀ s :=
  Steered.lift (Steered.of_same (l := [.tows]) (by simp) rfl) s₀

@[simp] theorem State.modTeam_steered (s : State) (t : Nat) (f : Team → Team) : Steered s₀ (s.modTeam t f) ↔ Steered s₀ s :=
  Steered.lift (Steered.of_same (l := [.teams]) (by simp) rfl) s₀

@[simp] theorem State.modMon_steered (s : State) (i : Nat) (f : Monitor → Monitor) : Steered s₀ (s.modMon i f) ↔ Steered s₀ s :=
  Steered.lift (Steered.of_same (l := [.mons]) (by simp) rfl) s₀

@[simp] theorem State.incReg_steered (s : State) (off : Nat) : Steered s₀ (s.incReg off) ↔ Steered s₀ s :=
  Steered.lift (Steered.of_same (l := [.rg]) (by simp) rfl) s₀

@[simp] theorem State.setReg_steered (s : State) (off : Nat) (w : Word) : Steered s₀ (s.setReg off w) ↔ Steered s₀ s :=
  Steered.lift (Steered.of_same (l := [.rg]) (by simp) rfl) s₀

@[simp] theorem State.orReg_steered (s : State) (off : Nat) (w : Word) : Steered s₀ (s.orReg off w) ↔ Steered s₀ s :=
  Steered.lift (Steered.of_same (l := [.rg]) (by simp) rfl) s₀

@[simp] theorem State.emit_steered (s : State) (w : Nat) (src : Option Nat) : Steered s₀ (s.emit w src) ↔ Steered s₀ s :=
  Steered.lift (Steered.of_same (l := [.rg, .ev, .logs]) (by simp) rfl) s₀

@[simp] theorem State.raise_steered (s : State) (code inst cls atype master addr detail : Nat) (inj : Bool) :
    Steered s₀ (s.raise code inst cls atype master addr detail inj) ↔ Steered s₀ s :=
  Steered.lift (Steered.of_same (l := [.flt]) (by simp) rfl) s₀

@[simp] theorem State.parentLost_steered (s : State) (p : Nat) : Steered s₀ (s.parentLost p) ↔ Steered s₀ s :=
  Steered.lift (Steered.of_same (l := [.rg, .ev, .flt, .logs, .ts]) (by simp) rfl) s₀

@[simp] theorem State.haltForget_steered (s : State) (p : Nat) : Steered s₀ (s.haltForget p) ↔ Steered s₀ s :=
  Steered.lift (Steered.of_same (l := [.halt]) (by simp) rfl) s₀

@[simp] theorem State.countDrop_steered (s : State) (p : Packet) : Steered s₀ (s.countDrop p) ↔ Steered s₀ s :=
  Steered.lift (Steered.of_same (l := [.counts]) (by simp) rfl) s₀

@[simp] theorem State.abandon_steered (s : State) (p : Nat) : Steered s₀ (s.abandon p) ↔ Steered s₀ s :=
  Steered.lift (Steered.of_same (l := [.rg]) (by simp) rfl) s₀

@[simp] theorem State.restartPhy_steered (s : State) (t : Nat) : Steered s₀ (s.restartPhy t) ↔ Steered s₀ s :=
  Steered.lift (Steered.of_same (l := [.phys]) (by simp) rfl) s₀

@[simp] theorem State.towDrained_steered (s : State) (t : Nat) : Steered s₀ (s.towDrained t) ↔ Steered s₀ s :=
  Steered.lift (Steered.of_same (l := [.tows]) (by simp) rfl) s₀

@[simp] theorem State.setTeams_steered (s : State) (p : Nat) (which : Team → Bool) (st : TeamSt) :
    Steered s₀ (s.setTeams p which st) ↔ Steered s₀ s :=
  Steered.lift (Steered.of_same (l := [.teams]) (by simp) rfl) s₀

@[simp] theorem State.tagBack_steered (s : State) (p : Nat) : Steered s₀ (s.tagBack p).2 ↔ Steered s₀ s :=
  Steered.lift (Hushed.steered (by simp)) s₀

@[simp] theorem State.sendNull_steered (s : State) (p team : Nat) (body : Bool) : Steered s₀ (s.sendNull p team body) ↔ Steered s₀ s :=
  Steered.lift (Hushed.steered (by simp)) s₀

@[simp] theorem State.idlePort_steered (s : State) (p : Nat) : Steered s₀ (s.idlePort p) ↔ Steered s₀ s :=
  Steered.lift (Hushed.steered (by simp)) s₀

@[simp] theorem State.slotDue_steered (s : State) (t : Nat) : Steered s₀ (s.slotDue t).2 ↔ Steered s₀ s :=
  Steered.lift (Steered.of_same (l := [.phys]) (by simp) rfl) s₀

@[simp] theorem State.spareSlot_steered (s : State) (p team : Nat) : Steered s₀ (s.spareSlot p team) ↔ Steered s₀ s := by
  refine Steered.lift ?_ s₀
  unfold State.spareSlot
  dsimp only
  split <;> simp

@[simp] theorem State.driveFlit_steered (s : State) (p team tag : Nat) (body : BitVec 2048) (bad fec : Bool) :
    Steered s₀ (s.driveFlit p team tag body bad fec) ↔ Steered s₀ s := by
  refine Steered.lift ?_ s₀
  have hp : Steered s (s.modLink p Link.pass) := Hushed.steered (by simp)
  unfold State.driveFlit
  dsimp only
  split
  · exact hp.trans (Hushed.steered (by simp))
  · rw [State.spareSlot_steered]
    exact hp.trans (Hushed.steered (by simp))

@[simp] theorem State.takeLnkInj_steered (s : State) (p : Nat) : Steered s₀ (s.takeLnkInj p).2 ↔ Steered s₀ s :=
  Steered.lift (Steered.of_same (l := [.rg]) (by simp) rfl) s₀

@[simp] theorem State.nextTeam_steered (s : State) (p : Nat) : Steered s₀ (s.nextTeam p).2 ↔ Steered s₀ s :=
  State.modLink_steered s p (fun _ => rfl)

@[simp] theorem State.transmit_steered (s : State) (p core fseq : Nat) (body : BitVec 2048) :
    Steered s₀ (s.transmit p core fseq body) ↔ Steered s₀ s := by
  simp [State.transmit]

@[simp] theorem State.sendUnseq_steered (s : State) (p kind : Nat) (body : BitVec 2048) (team : Nat) :
    Steered s₀ (s.sendUnseq p kind body team) ↔ Steered s₀ s := by
  simp [State.sendUnseq]

/-- What a new sequenced flit does before it is transmitted: it is numbered and kept, and counted for its monitor. -/
@[simp] theorem State.sendSeq_steered (s : State) (p core : Nat) (body : BitVec 2048) :
    Steered s₀ (s.sendSeq p core body) ↔ Steered s₀ s := by
  refine Steered.lift ?_ s₀
  unfold State.sendSeq
  extract_lets l wait s1 acc more s2 s3
  have h1 : Steered s s1 := Steered.modLink s p (by intro l; rfl)
  have h2 : Steered s s2 := by
    dsimp only [s2]
    split
    · exact h1.trans (Steered.of_same (l := [.cmap]) (by simp) rfl)
    · exact h1
  have h3 : Steered s s3 := by
    dsimp only [s3]
    split <;> simpa using h2
  split
  · exact h3
  · simpa using h3

@[simp] theorem State.sendData_steered (s : State) (q v : Nat) (tow : Option Nat) (first last abn : Bool) (body : BitVec 2048) :
    Steered s₀ (s.sendData q v tow first last abn body) ↔ Steered s₀ s := State.sendSeq_steered _ _ _ _

@[simp] theorem State.flushCtl_steered (s : State) (p : Nat) : Steered s₀ (s.flushCtl p) ↔ Steered s₀ s := by
  refine Steered.lift ?_ s₀
  unfold State.flushCtl
  extract_lets l now go
  split
  · rfl
  · exact ((State.modLink_steered s p (f := fun l => { l with ctlWait := l.ctlWait.drop go.length }) (fun _ => rfl)).mpr
      (Steered.refl s)).trans (Steered.foldl (fun t x => by simp) _ _)

@[simp] theorem State.sendCtl_steered (s : State) (p ctype fields : Nat) : Steered s₀ (s.sendCtl p ctype fields) ↔ Steered s₀ s := by
  refine Steered.lift ?_ s₀
  unfold State.sendCtl
  dsimp only
  split
  · rfl
  · split
    · exact (State.flushCtl_steered _ _).mpr (Steered.modLink s p (by intro l; rfl))
    · exact (State.flushCtl_steered _ _).mpr (Steered.modLink s p (by intro l; rfl))
    · exact (State.flushCtl_steered _ _).mpr (Steered.modLink s p (by intro l; rfl))
    · rfl

/-! ### Discarding packets -/

@[simp] theorem State.abandonRest_steered (s : State) (h : Held) : Steered s₀ (s.abandonRest h) ↔ Steered s₀ s := by
  refine Steered.lift ?_ s₀
  unfold State.abandonRest
  split
  · rfl
  · next q v tow _ =>
    split
    · rfl
    · extract_lets n t
      have ht : Steered s t := by
        dsimp only [t]
        split
        · exact Steered.foldl (fun t x => by simp) _ _
        · exact Steered.foldl (fun t x => by simp) _ _
        · exact Steered.foldl (fun t x => by simp) _ _
        · rfl
      split <;> simpa using ht

@[simp] theorem State.discard1_steered (s : State) (h : Held) : Steered s₀ (s.discard1 h) ↔ Steered s₀ s := by
  simp [State.discard1]

@[simp] theorem State.discardHeld_steered (s : State) (which : Held → Bool) :
    Steered s₀ (s.discardHeld which) ↔ Steered s₀ s := by
  refine Steered.lift ?_ s₀
  unfold State.discardHeld
  extract_lets s1 s2 out
  have h1 : Steered s s1 := by
    refine Steered.foldl (fun t p => ?_) _ _
    refine ((State.modLink_steered t p (f := fun l => { l with basin := l.basin.filter (fun h => !(which h)) })
      (fun _ => rfl)).mpr (Steered.refl t)).trans (Steered.foldl (fun u h => ?_) _ _)
    split
    · exact (State.discard1_steered _ _).mpr (Steered.modLink u p (by intro l; rfl))
    · rfl
  have h2 : Steered s1 s2 := by
    refine Steered.foldl (fun t e => ?_) _ _
    exact (((State.towDrained_steered _ _).mpr ((State.modTow_steered _ _ _).mpr (Steered.refl t)))).trans
      (Steered.foldl (fun u h => by simp) _ _)
  have h3 : Steered s2 { s2 with eject := s2.eject.filter (fun h => !(which h)), inj := s2.inj.filter (fun h => !(which h)) } :=
    Steered.of_same (l := [.eject, .inj]) (by simp) rfl
  exact ((h1.trans h2).trans h3).trans (Steered.foldl (fun u h => by simp) _ _)

@[simp] theorem State.cutPackets_steered (s : State) (p : Nat) : Steered s₀ (s.cutPackets p) ↔ Steered s₀ s := by
  refine Steered.lift ?_ s₀
  unfold State.cutPackets
  refine ((State.discardHeld_steered s _).mpr (Steered.refl s)).trans (Steered.foldl (fun t e => ?_) _ _)
  split <;> simp

@[simp] theorem State.towKill_steered (s : State) (t : Nat) : Steered s₀ (s.towKill t) ↔ Steered s₀ s := by
  refine Steered.lift ?_ s₀
  unfold State.towKill
  exact ((State.modTow_steered s t _).mpr (Steered.refl s)).trans (Steered.foldl (fun u h => by simp) _ _)

@[simp] theorem State.towFence_steered (s : State) (p : Nat) : Steered s₀ (s.towFence p) ↔ Steered s₀ s := by
  refine Steered.lift (Steered.foldl (fun t e => ?_) _ _) s₀
  dsimp only
  split <;> simp

end

/-! ### Ports that are fenced, trained or taken off -/

/-- What a port in FENCED with a CAUSE is of itself. -/
def Link.fence (l : Link) (cause now : Nat) : Link :=
  { l.discard with st := .fenced, cause := cause, enPend := false, since := now }

/-- In `t` link `p` is `l`, and every other link as in `s`, but for what carrying flits moves on. -/
def SteeredTo (s : State) (p : Nat) (l : Link) (t : State) : Prop :=
  (t.link p).control = l.control ∧ ∀ q, q ≠ p → (t.link q).control = (s.link q).control

theorem SteeredTo.trans {s t u : State} {p : Nat} {l : Link} (h : SteeredTo s p l t) (h' : Steered t u) : SteeredTo s p l u :=
  ⟨(h' p).trans h.1, fun q hq => (h' q).trans (h.2 q hq)⟩

theorem State.modLink_steeredTo (s : State) (p : Nat) (f : Link → Link) : SteeredTo s p (f (s.link p)) (s.modLink p f) :=
  ⟨by rw [State.link_modLink_same], fun q hq => by rw [State.link_modLink_other _ _ hq]⟩

theorem SteeredTo.st {s t : State} {p : Nat} {l : Link} (h : SteeredTo s p l t) : (t.link p).st = l.st := (congrArg Link.st h.1 :)

theorem SteeredTo.other_st {s t : State} {p q : Nat} {l : Link} (h : SteeredTo s p l t) (hq : q ≠ p) :
    (t.link q).st = (s.link q).st := (congrArg Link.st (h.2 q hq) :)

/-- A port that is OFF, or FENCED already, is not fenced again. -/
theorem State.fencePort_unchanged {s : State} {p : Nat} (h : (s.link p).st = .off ∨ (s.link p).st = .fenced) (cause : Nat) :
    s.fencePort p cause = s := by
  unfold State.fencePort
  exact if_pos h

/-- Any other port is FENCED with the cause; no other port changes. -/
theorem State.fencePort_steered {s : State} {p : Nat} (hoff : (s.link p).st ≠ .off) (hf : (s.link p).st ≠ .fenced) (cause : Nat) :
    SteeredTo s p ((s.link p).fence cause s.now) (s.fencePort p cause) := by
  unfold State.fencePort
  extract_lets l s1 s2
  rw [if_neg (not_or.mpr ⟨hoff, hf⟩)]
  have hlost (q : Nat) : (s.parentLost p).link q = s.link q := congrArg (fun m => SMap.get (fun _ => Link.reset) m q)
    (((State.parentLost_same s p (μ := mask [.rg, .ev, .flt, .logs, .ts]) (by simp)).mpr (Same.refl _ s)) .links rfl).symm
  have h1 : SteeredTo s p (l.fence cause s.now) s1 :=
    ⟨by rw [State.link_modLink_same, hlost]; rfl, fun q hq => by rw [State.link_modLink_other _ _ hq, hlost]⟩
  have h2 : Steered s1 s2 := Steered.foldl (fun a t => by simp) _ _
  clear_value s2
  exact (h1.trans h2).trans (by simp)

/-- What a port in TRAINING is of itself. -/
def Link.train (l : Link) (now : Nat) : Link :=
  { l.discard with
    st := .training, enPend := false, heldEn := false, teams := [], fseq := 0, e := 0, acked := 0
    freed := [0, 0, 0, 0, 0, 0], told := [0, 0, 0, 0, 0, 0], seen := [0, 0, 0, 0, 0, 0]
    peer := { Peer.reset with chip := l.peer.chip, dir := l.peer.dir }, since := now
    basin := l.basin.map (fun h => { h with share := 7 }) }

/-- A port that is trained is in TRAINING afresh; no other port changes. -/
theorem State.trainPort_steered (s : State) (p : Nat) : SteeredTo s p ((s.link p).train s.now) (s.trainPort p) := by
  unfold State.trainPort
  extract_lets base s1
  have h1 : SteeredTo s p ((s.link p).train s.now) s1 := s.modLink_steeredTo p (fun l => l.train s.now)
  clear_value s1
  exact h1.trans (Steered.foldl (fun a t => by simp) _ _)

/-- What a port in OFF is of itself. -/
def Link.turnOff (l : Link) (now : Nat) : Link :=
  { l.discard with
    st := .off, enPend := false, heldEn := false, teams := [], mgtOnly := false, since := now
    peer := { l.peer with valid := false } }

/-- A port whose enable is not held goes OFF; no other port changes. -/
theorem State.offPort_steered {s : State} {p : Nat} (h : (s.link p).enPend = false) :
    SteeredTo s p ((s.link p).turnOff s.now) (s.offPort p) := by
  unfold State.offPort
  extract_lets pend s1 s2
  rw [if_neg (by simp [pend, h])]
  have h1 : SteeredTo s p ((s.link p).turnOff s.now) s1 := s.modLink_steeredTo p (fun l => l.turnOff s.now)
  have h2 : Steered s1 s2 := by simp [s2]
  exact h1.trans h2

/-- What a port that goes from ACTIVE or DRAINING into RETRAIN is of itself. -/
def Link.retrain (l : Link) (now : Nat) : Link :=
  { l with
    st := .retrain, drain := decide (l.st = .draining), since := now, goodParams := 0, tagLock := false, fenceRun := [], dropAsk := []
    replayAt := none }

@[simp] theorem State.spareLog_steered {s₀ : State} (s : State) (event t i : Nat) :
    Steered s₀ (s.spareLog event t i) ↔ Steered s₀ s :=
  Steered.lift (Steered.of_same (l := [.rg, .ev, .logs, .life]) (by simp) rfl) s₀

/-- Going on with a change of link `p` that does not depend on what carrying flits moves on. -/
theorem SteeredTo.modLink {s t : State} {p : Nat} {f : Link → Link} (h : Steered s t)
    (hf : ∀ l m : Link, l.control = m.control → (f l).control = (f m).control) : SteeredTo s p (f (s.link p)) (t.modLink p f) :=
  ⟨by rw [State.link_modLink_same, hf _ _ (h p)], fun q hq => by rw [State.link_modLink_other _ _ hq, h q]⟩

/-- An ACTIVE port goes into RETRAIN; no other port changes. -/
theorem State.retrainPort_steered {s : State} {p : Nat} {drain : Bool} (h : (s.link p).st = .active ∨ drain = true ∧ (s.link p).st = .draining)
    (reason : Nat) (send : Bool) : SteeredTo s p ((s.link p).retrain s.now) (s.retrainPort p reason send drain) := by
  unfold State.retrainPort
  extract_lets s0 s1 s2
  rw [if_neg (by tauto)]
  have h0 : Steered s s0 := by
    dsimp only [s0]
    split <;> simp
  have h1 : SteeredTo s p ((s.link p).retrain s.now) s1 := by
    exact SteeredTo.modLink (p := p) (f := fun l => l.retrain s.now) h0
      (fun l m h => (congrArg (fun l : Link => (l.retrain s.now).control) h :))
  have h2 : Steered s1 s2 := Steered.foldl (fun a t => by simp) _ _
  clear_value s1 s2
  exact (h1.trans h2).trans (by simp)

end Sys2Proof.Machine

namespace Sys2Proof.Machine

/-! ## The mailbox: its requests and their answers -/

/-- What the management core holds but for the mailbox, and for whom its cycle and its requests are. -/
def Core.apart (c : Core) : Core := { c with mb := ⟨none, false, 0, 0, []⟩, lead := none, outst := [] }

/-- The mailbox's request has its answer: the mailbox holds it, and the core has changed in nothing else. -/
structure MbTold (r : MbReq) (st : Nat) (ws : List Word) (s t : State) : Prop where
  mb : t.mc.mb = ⟨none, true, BitVec.ofNat 8 (fld (r.words.headD 0).toNat 8 8), BitVec.ofNat 8 st,
    rspWords st (fld (r.words.headD 0).toNat 8 8) ws⟩
  core : t.mc.apart = s.mc.apart
  same : Same (mask [.rg, .ev, .logs, .i2c, .mc]) s t
  idle : ∀ c, s.i2cBusy c = none → t.i2cBusy c = none
  reg : ∀ o, ¬ IsLogLost o → t.reg o = s.reg o

/-- The indices of a map whose values are changed where they stand. -/
theorem SMap.get_map_option {α β : Type} (f : α → β) (m : SMap (Option α)) (k : Nat) :
    SMap.get (fun _ => none) (m.map (fun e => (e.1, e.2.map f))) k = (SMap.get (fun _ => none) m k).map f := by
  induction m with
  | nil => rfl
  | cons e m ih =>
    obtain ⟨i, v⟩ := e
    show (if i = k then v.map f else SMap.get (fun _ => none) (m.map _) k) = _
    rw [ih]
    by_cases h : i = k <;> simp [SMap.get, h]

section
variable {s t : State} {r : MbReq} {st : Nat} {ws : List Word}

/-- The mailbox's request, where there is one, is answered. -/
theorem State.mbDone_told (h : s.mc.mb.busy = some r) : MbTold r st ws s (s.mbDone st ws) := by
  have hu : s.mbDone st ws = ({ s with mc := { s.mc with
      mb := ⟨none, true, BitVec.ofNat 8 (fld (r.words.headD 0).toNat 8 8), BitVec.ofNat 8 st,
        rspWords st (fld (r.words.headD 0).toNat 8 8) ws⟩ } } : State).disown.emit
      (0x80 + put (fld (r.words.headD 0).toNat 8 8) 8 8 + put st 16 8) := by
    unfold State.mbDone
    rw [h]
  rw [hu]
  generalize hm : (⟨none, true, BitVec.ofNat 8 (fld (r.words.headD 0).toNat 8 8), BitVec.ofNat 8 st,
    rspWords st (fld (r.words.headD 0).toNat 8 8) ws⟩ : Mailbox) = m
  generalize hv : ({ s with mc := { s.mc with mb := m } } : State).disown = v
  generalize 0x80 + put (fld (r.words.headD 0).toNat 8 8) 8 8 + put st 16 8 = w
  have he := (State.emit_same v w none (μ := mask [.rg, .ev, .logs]) (by simp)).mpr (Same.refl _ v)
  have hmc : (v.emit w).mc = v.mc := (he .mc rfl : v.mc = _).symm
  have hi2c : (v.emit w).i2c = v.i2c := (he .i2c rfl : v.i2c = _).symm
  constructor
  case mb => rw [hmc, ← hv]; exact hm.symm
  case core => rw [hmc, ← hv]; rfl
  case same =>
    have h1 : Same (mask [.rg, .ev, .logs, .i2c, .mc]) s v := by rw [← hv]; simp
    exact h1.trans (he.mono (by simp))
  case idle =>
    intro c hc
    show SMap.get (fun _ => none) (v.emit w).i2c c = none
    rw [hi2c, ← hv]
    refine (SMap.get_map_option _ s.i2c c).trans ?_
    rw [show SMap.get (fun _ => none) s.i2c c = none from hc]
    rfl
  case reg =>
    intro o ho
    rw [State.emit_reg _ _ ho, ← hv]
    rfl

theorem MbTold.answered (h : MbTold r st ws s t) (q : List Instr) : MbAnswered (t.ended q) st :=
  ⟨(congrArg Mailbox.busy h.mb :), (congrArg Mailbox.done h.mb :), (congrArg Mailbox.status h.mb :)⟩

/-- What an answer leaves of the core. -/
theorem MbTold.apart (h : MbTold r st ws s t) {α : Type} (f : Core → α) : f t.mc.apart = f s.mc.apart := congrArg f h.core

/-- Where a command asked by the mailbox has its result, the mailbox is told. -/
theorem State.answerAsk_told (h : s.mc.mb.busy = some r) : MbTold r st ws s (s.answerAsk .mailbox st ws) := State.mbDone_told h

/-- A request that is not refused is of a command served in the mode. -/
theorem served_of_not_refused {mode : McMode} {expert : Bool} {words : List Word} (h : mbRefusal mode expert words = none) :
    ∃ c, mbCmd (reqCmd words) = some c ∧ c.served mode = true := by
  unfold mbRefusal at h
  split at h
  · simp at h
  · next c hc =>
    refine ⟨c, hc, ?_⟩
    by_contra hs
    simp [hs] at h

/-- A row of the mailbox performs the request that waits, where the row is the request's. -/
theorem Meets.mbRowOf {P : State → Prop} (hw : MbWaits s r) {sel : List Word → Bool} (hsel : sel r.words = true)
    (hP : P (((s.asked r).mbDo .mailbox s.expert r.words).ended s.pending)) : Meets (mbRowOf sel s) P := by
  obtain ⟨ha, hb, hst, harm, href⟩ := hw
  unfold Machine.mbRowOf
  rw [hb]
  dsimp only
  obtain ⟨c, hc, hserved⟩ := served_of_not_refused href
  refine .run ha (by simp [hst, hc, hserved, hsel]) ?_
  have hfetch : s.cleared.mbFetch = s.cleared := by
    unfold State.mbFetch
    rw [State.takeEcc_unarmed (s := s.cleared) harm, State.takeEcc_unarmed (s := s.cleared) harm]
  have hstart : s.cleared.mbStart r = (s.asked r).mbDo .mailbox s.expert r.words := by
    unfold State.mbStart
    rw [hfetch]
    show (s.asked r).mbPerform .mailbox s.mc.mode s.expert r.words = _
    unfold State.mbPerform
    rw [href]
  rw [hstart]
  exact hP

/-- A row of one command code; `t` is what performing the request comes to. -/
theorem Meets.mbRow {P : State → Prop} {cmd : Nat} {t : State} (hw : MbWaits s r) (hcmd : reqCmd r.words = cmd)
    (hdo : (s.asked r).mbDo .mailbox s.expert r.words = t) (hP : P (t.ended s.pending)) : Meets (Machine.mbRow cmd s) P :=
  .mbRowOf hw (decide_eq_true hcmd) (hdo ▸ hP)

end

end Sys2Proof.Machine

namespace Sys2Proof.Machine

/-! ## Halts and acknowledgements by request -/

/-- What a halt is but for the ports it has told and those it awaits. -/
def HaltHead (h : Halt) : HaltSt × HWord × HWord × Nat × Bool := (h.st, h.key, h.id, h.since, h.said)

section
variable {s : State}

theorem State.haltJoin_head (s : State) (p : Nat) : HaltHead (s.haltJoin p).halt = HaltHead s.halt := by
  unfold State.haltJoin
  split
  · rfl
  · generalize hu : ({ s with halt := { s.halt with sent := s.halt.sent ++ [p], awaited := s.halt.awaited ++ [p] } } : State) = u
    have h : u.halt = (u.sendCtl p 0x10 (put s.halt.key.toNat 32 16 + put s.halt.id.toNat 48 16)).halt :=
      (State.sendCtl_same u p _ _ (μ := mask [.out, .rg, .tows, .links, .phys, .mons, .cmap]) (by simp)).mpr (Same.refl _ u) .halt rfl
    rw [← h, ← hu]
    rfl

/-- A halt that is entered is of its key and marker, from now on. -/
theorem State.haltEnter_head (s : State) (key id : Nat) :
    HaltHead (s.haltEnter key id).halt = (.halting, BitVec.ofNat 16 key, BitVec.ofNat 16 id, s.now, false) := by
  unfold State.haltEnter
  refine foldl_keeps (R := fun s t : State => HaltHead t.halt = HaltHead s.halt) (fun _ => rfl) (fun h h' => h'.trans h) _
    (fun t p => ?_) _ _
  split
  · exact t.haltJoin_head p
  · rfl

/-- GO by a writer with privilege, with nothing else written, halts a running partition. -/
theorem State.wrHaltCtl_go {id : Nat} (hid : id < 2 ^ 16) (hrun : s.halt.st = .run) (hkey : s.ident.pkey ≠ 0) :
    HaltHead (s.wrHaltCtl true (BitVec.ofNat 32 (id + 0x10000))).halt =
      (.halting, BitVec.ofNat 16 s.ident.pkey.toNat, BitVec.ofNat 16 id, s.now, false) := by
  have hd : (BitVec.ofNat 32 (id + 0x10000)).toNat = id + 65536 := by
    rw [BitVec.toNat_ofNat]
    omega
  have h16 : (id + 65536).testBit 16 = true := by
    rw [Nat.testBit_eq_decide_div_mod_eq]
    exact decide_eq_true (by omega)
  have h17 : (id + 65536).testBit 17 = false := by
    rw [Nat.testBit_eq_decide_div_mod_eq]
    exact decide_eq_false (by omega)
  have hlow : fld (id + 65536) 0 16 = id := by
    unfold fld
    rw [Nat.shiftRight_zero]
    omega
  generalize hu : s.plainWrite 0x3100 true (BitVec.ofNat 32 (id + 0x10000)) = u
  have hhalt : u.halt = s.halt := by rw [← hu]; rfl
  have hident : u.ident = s.ident := by rw [← hu]; rfl
  have hnow : u.now = s.now := by rw [← hu]; rfl
  have hgo : u.haltGo id = (true, u.haltEnter u.ident.pkey.toNat id) :=
    if_pos ⟨by rw [hhalt]; exact hrun, by rw [hident]; exact hkey⟩
  have hw : s.wrHaltCtl true (BitVec.ofNat 32 (id + 0x10000)) = u.haltEnter u.ident.pkey.toNat id := by
    simp [State.wrHaltCtl, hd, h16, h17, hlow, hu, hgo]
  rw [hw, u.haltEnter_head, hident, hnow]

/-- The end of a halt is a running partition. -/
theorem State.haltRelease_run (h : s.halt.st ≠ .run) : s.haltRelease.1 = true ∧ s.haltRelease.2.halt.st = .run := by
  unfold State.haltRelease
  rw [if_neg h]
  dsimp only
  generalize (State.emit _ _ : State) = v
  refine ⟨rfl, ?_⟩
  have hrel : v.haltEnd.halt = v.haltEnd.raRelease.halt :=
    (State.raRelease_same v.haltEnd (μ := mask [.rg, .ra, .inj, .pseq, .reins, .rrUsed, .counts, .flt]) (by simp)).mpr
      (Same.refl _ _) .halt rfl
  rw [← hrel]
  rfl

/-- REL by a writer with privilege, with nothing else but a marker written, leaves the partition running. -/
theorem State.wrHaltCtl_rel {id : Nat} (hid : id < 2 ^ 16) :
    (s.wrHaltCtl true (BitVec.ofNat 32 (id + 0x20000))).halt.st = .run := by
  have hd : (BitVec.ofNat 32 (id + 0x20000)).toNat = id + 131072 := by
    rw [BitVec.toNat_ofNat]
    omega
  have h16 : (id + 131072).testBit 16 = false := by
    rw [Nat.testBit_eq_decide_div_mod_eq]
    exact decide_eq_false (by omega)
  have h17 : (id + 131072).testBit 17 = true := by
    rw [Nat.testBit_eq_decide_div_mod_eq]
    exact decide_eq_true (by omega)
  generalize hu : s.plainWrite 0x3100 true (BitVec.ofNat 32 (id + 0x20000)) = u
  have hhalt : u.halt = s.halt := by rw [← hu]; rfl
  by_cases hrun : s.halt.st = .run
  · have hw : s.wrHaltCtl true (BitVec.ofNat 32 (id + 0x20000)) = u.orReg 0x3100 0x40000 := by
      simp [State.wrHaltCtl, hd, h16, h17, hu, hrun]
    rw [hw]
    exact (congrArg Halt.st hhalt :).trans hrun
  · have hrel := u.haltRelease_run (by rw [hhalt]; exact hrun)
    have hw : s.wrHaltCtl true (BitVec.ofNat 32 (id + 0x20000)) = u.haltRelease.2 := by
      simp [State.wrHaltCtl, hd, h16, h17, hu, hrun, hrel.1]
    rw [hw]
    exact hrel.2

/-! ### Acknowledgements -/

theorem State.acceptAbort_src (s : State) (from_ : Nat) (x : PendStep) (forward : Bool) :
    (s.acceptAbort from_ x forward).flt.src = s.flt.src := by
  unfold State.acceptAbort
  extract_lets s1 s2
  have h : Same (mask [.out, .rg, .tows, .links, .phys, .mons, .cmap, .chans, .ra, .halt]) s s2 := by
    dsimp only [s2, s1]
    split <;> split <;> simp
  have hf : s.flt = s2.flt := h .flt rfl
  rw [hf]
  rfl

theorem State.leaveF2_src (s : State) : s.leaveF2.flt.src = s.flt.src := by
  unfold State.leaveF2
  split
  · exact s.acceptAbort_src _ _ _
  · rfl

/-- A source that awaits the acknowledgement of its number of raises is CLEAR after it. -/
theorem State.ack_clear {code inst : Nat} (hf3 : s.inF3 = false) (hst : (s.source code inst).st = .awaitAck) :
    (s.ack code inst (s.source code inst).raises).1 = true ∧
      ((s.ack code inst (s.source code inst).raises).2.source code inst).st = .clear := by
  unfold State.ack
  dsimp only
  rw [hf3, hst, if_neg (by decide), if_neg (by simp)]
  refine ⟨rfl, ?_⟩
  generalize hu : s.setSource code inst { s.source code inst with st := .clear } = u
  have hclear : (SMap.get (fun _ => Source.reset) u.flt.src (64 * code + inst)).st = .clear := by
    rw [← hu]
    exact congrArg Source.st (SMap.get_set_same _ _ _ _)
  have he : u.flt = (u.fltEvent 0x63 code inst 2 2).flt :=
    (State.fltEvent_same u 0x63 code inst 2 2 (μ := mask [.rg, .ev, .logs]) (by simp)).mpr (Same.refl _ u) .flt rfl
  generalize u.fltEvent 0x63 code inst 2 2 = v at he
  rw [he] at hclear
  have hv : (if v.fenced = true then v else v.leaveF2.sayPins s.errOn).flt.src = v.flt.src := by
    split
    · rfl
    · rw [← v.leaveF2_src]
      exact congrArg Collector.src
        ((State.sayPins_same v.leaveF2 s.errOn (μ := mask [.out]) (by simp)).mpr (Same.refl _ _) .flt rfl :
          v.leaveF2.flt = (v.leaveF2.sayPins s.errOn).flt).symm
  show (SMap.get (fun _ => Source.reset) (if v.fenced = true then v else v.leaveF2.sayPins s.errOn).flt.src _).st = _
  rw [hv]
  exact hclear

/-- A write with GO by a writer with privilege does to the collector what the acknowledgement does. -/
theorem State.wrFltAck_flt (hf3 : s.inF3 = false) {d : Word} (h31 : d.toNat.testBit 31 = true) :
    (s.wrFltAck true d).flt = (s.ack (fld d.toNat 0 8) (fld d.toNat 8 6) (fld d.toNat 14 4)).2.flt := by
  unfold State.wrFltAck
  dsimp only
  rw [hf3, h31, if_neg (by decide), if_neg (by decide), if_neg (by decide)]
  split <;> rfl

end

end Sys2Proof.Machine

namespace Sys2Proof.Machine

/-! ## An I²C transaction by request -/

theorem fld_testBit (n lo w i : Nat) : (fld n lo w).testBit i = (decide (i < w) && n.testBit (lo + i)) := by
  unfold fld
  rw [Nat.testBit_mod_two_pow, Nat.testBit_shiftRight]

/-- A field that its writer may write is what was written. -/
theorem fld_mergeWrite {m : RegMask} {old d : Word} {lo w : Nat}
    (hm : ∀ j, lo ≤ j → j < lo + w → (m.rw ||| m.rwl).getLsbD j = true ∧ m.w1c.getLsbD j = false) :
    fld (mergeWrite m true old d).toNat lo w = fld d.toNat lo w := by
  refine Nat.eq_of_testBit_eq fun i => ?_
  rw [fld_testBit, fld_testBit]
  by_cases hi : i < w
  · obtain ⟨h1, h2⟩ := hm (lo + i) (by omega) (by omega)
    have hlt : lo + i < 32 := by
      by_contra hge
      rw [BitVec.getLsbD_of_ge _ _ (by omega)] at h1
      exact absurd h1 (by decide)
    have hbit (x : Word) : x.toNat.testBit (lo + i) = x.getLsbD (lo + i) := rfl
    rw [hbit, hbit]
    unfold mergeWrite
    rw [BitVec.getLsbD_eq_getElem hlt] at h1 h2
    have h3 : m.rw[lo + i] = true ∨ m.rwl[lo + i] = true := by simpa using h1
    rcases h3 with h3 | h3 <;> simp [hlt, h2, h3]
  · simp [hi]

/-- Software may write all of the command of a controller. -/
theorem regMask_i2cCmd {c : Nat} (hc : c < 8) : (regMask (i2cReg c 4)).rw ||| (regMask (i2cReg c 4)).rwl = 0xFFFFFF ∧
    (regMask (i2cReg c 4)).w1c = 0 := by
  have h : ∀ c < 8, (regMask (i2cReg c 4)).rw ||| (regMask (i2cReg c 4)).rwl = 0xFFFFFF ∧ (regMask (i2cReg c 4)).w1c = 0 := by decide
  exact h c hc

/-- The command word of a transaction. -/
def i2cCmdWord (op addr off n : Nat) : Word := BitVec.ofNat 32 (op + put addr 2 7 + put off 9 8 + put (n - 1) 17 7)

/-- What a controller reads from its command once the word of a transaction is written. -/
theorem i2cCmd_fields {c op addr off n : Nat} (hc : c < 8) (hop : op < 4) (old : Word) :
    let w := (mergeWrite (regMask (i2cReg c 4)) true old (i2cCmdWord op addr off n)).toNat
    fld w 0 2 = op ∧ fld w 2 7 = addr % 2 ^ 7 ∧ fld w 9 8 = off % 2 ^ 8 ∧ fld w 17 7 = (n - 1) % 2 ^ 7 := by
  obtain ⟨h1, h2⟩ := regMask_i2cCmd hc
  have hall : ∀ j < 24, (0xFFFFFF : Word).getLsbD j = true := by decide
  have hfld {lo w : Nat} (h : lo + w ≤ 24) :
      fld (mergeWrite (regMask (i2cReg c 4)) true old (i2cCmdWord op addr off n)).toNat lo w = fld (i2cCmdWord op addr off n).toNat lo w :=
    fld_mergeWrite fun j _ hj => ⟨by rw [h1]; exact hall j (by omega), by rw [h2]; exact BitVec.getLsbD_zero⟩
  dsimp only
  rw [hfld (by decide), hfld (by decide), hfld (by decide), hfld (by decide)]
  unfold i2cCmdWord put fld
  simp only [Nat.shiftRight_eq_div_pow, BitVec.toNat_ofNat]
  omega

section
variable {s : State}

theorem State.reg_setI2cData (s : State) (c : Nat) (bs : List Byte) {o : Nat} (ho : ∀ i, o ≠ i2cReg c (0x80 + 4 * i)) :
    (s.setI2cData c bs).reg o = s.reg o := by
  unfold State.setI2cData
  dsimp only
  exact foldl_keeps (R := fun s t : State => t.reg o = s.reg o) (fun _ => rfl) (fun h h' => h'.trans h) _
    (fun t i => State.reg_setReg_other _ _ (ho i)) _ s

/-- The state in which the kernel lets the controller go: speed, data and command are written. -/
def State.i2cLoaded (s : State) (c op addr off n speed : Nat) (bs : List Byte) : State :=
  (if op = 0 then (s.putField (i2cReg c 0) 1 2 speed).setI2cData c bs else s.putField (i2cReg c 0) 1 2 speed).plainWrite (i2cReg c 4) true
    (i2cCmdWord op addr off n)

theorem State.i2cLoaded_same (s : State) (c op addr off n speed : Nat) (bs : List Byte) :
    Same (mask [.rg]) s (s.i2cLoaded c op addr off n speed bs) := by
  unfold State.i2cLoaded
  split <;> simp

/-- The controller's enable stands, and its command holds the transaction. -/
theorem State.i2cLoaded_reg (c op addr off n speed : Nat) (bs : List Byte) :
    ((s.i2cLoaded c op addr off n speed bs).reg (i2cReg c 0)).toNat.testBit 0 = (s.reg (i2cReg c 0)).toNat.testBit 0 ∧
      ∃ old, (s.i2cLoaded c op addr off n speed bs).reg (i2cReg c 4) = mergeWrite (regMask (i2cReg c 4)) true old (i2cCmdWord op addr off n) := by
  unfold State.i2cLoaded
  generalize hu : (if op = 0 then (s.putField (i2cReg c 0) 1 2 speed).setI2cData c bs else s.putField (i2cReg c 0) 1 2 speed) = u
  have hctl : u.reg (i2cReg c 0) = (s.putField (i2cReg c 0) 1 2 speed).reg (i2cReg c 0) := by
    rw [← hu]
    split
    · exact State.reg_setI2cData _ _ _ (fun i => by unfold i2cReg; omega)
    · rfl
  refine ⟨?_, _, State.reg_setReg_same _ _ _⟩
  rw [show (u.plainWrite (i2cReg c 4) true (i2cCmdWord op addr off n)).reg (i2cReg c 0) = u.reg (i2cReg c 0) from
    State.reg_setReg_other _ _ (by unfold i2cReg; omega), hctl, State.testBit_putField _ _ _ (by decide)]
  simp

/-- An idle controller that is let go with a transaction: enabled it is at it for its asker, disabled it has ended. -/
theorem State.i2cLoaded_go {c op : Nat} (hc : c < 8) (hop : op < 3) (addr off speed : Nat) {n : Nat} (hn : n < 128) (bs : List Byte)
    (who : Asker) (hidle : s.i2cBusy c = none) :
    let t := (s.i2cLoaded c op addr off (n + 1) speed bs).i2cGo c (some who)
    ((s.reg (i2cReg c 0)).toNat.testBit 0 = true → t.i2cBusy c = some ⟨op, addr % 2 ^ 7, off % 2 ^ 8, n + 1, some who⟩) ∧
      ((s.reg (i2cReg c 0)).toNat.testBit 0 = false → t.i2cBusy c = none) := by
  obtain ⟨hen, old, hcmd⟩ := s.i2cLoaded_reg c op addr off (n + 1) speed bs
  obtain ⟨h1, h2, h3, h4⟩ := i2cCmd_fields (addr := addr) (off := off) (n := n + 1) hc (show op < 4 by omega) old
  have hi2c : (s.i2cLoaded c op addr off (n + 1) speed bs).i2c = s.i2c :=
    (s.i2cLoaded_same c op addr off (n + 1) speed bs .i2c rfl : s.i2c = _).symm
  generalize s.i2cLoaded c op addr off (n + 1) speed bs = u at hen hcmd hi2c
  rw [← hcmd] at h1 h2 h3 h4
  have hfree : u.i2cBusy c = none := by
    unfold State.i2cBusy
    rw [hi2c]
    exact hidle
  unfold State.i2cGo
  dsimp only
  rw [hfree, if_neg (by simp), hen, h1, h2, h3, h4, show (n + 1 - 1) % 2 ^ 7 = n by omega]
  refine ⟨fun h => ?_, fun h => ?_⟩
  · rw [if_neg (by simp [h]; omega), State.i2cBusy_drive]
    exact State.i2cBusy_setI2c _ _ _
  · rw [if_pos (by simp [h])]
    exact (u.i2cDone_ended c (by decide) 0).busy

/-- The arguments of a transaction that the mailbox may ask for: no reserved bit, an operation, and the data of a write. -/
def I2cArgs (ws : List Word) : Prop :=
  arg ws 1 &&& 0x7F0307 = arg ws 1 ∧ arg ws 2 &&& 0x37FFF = arg ws 2 ∧ fld (arg ws 1) 8 2 ≠ 3 ∧
    (fld (arg ws 1) 8 2 = 0 → 2 + (fld (arg ws 2) 8 7 + 1 + 3) / 4 ≤ reqNw ws)

theorem State.mbI2c_bad (s : State) (who : Asker) {ws : List Word} (h : ¬ I2cArgs ws) : s.mbI2c who ws = s.answerAsk who 2 [] := by
  unfold State.mbI2c
  dsimp only
  rw [if_pos]
  unfold I2cArgs at h
  by_contra hc
  push Not at hc
  exact h ⟨hc.1, hc.2.1, hc.2.2.1, fun h0 => hc.2.2.2 h0⟩

/-- The controller of the mailbox's transaction is loaded and let go; it answers at once where the controller is at rest. -/
theorem State.mbI2c_good (s : State) (who : Asker) {ws : List Word} (h : I2cArgs ws) :
    let t := (s.i2cLoaded (fld (arg ws 1) 0 3) (fld (arg ws 1) 8 2) (fld (arg ws 1) 16 7) (arg ws 2) (fld (arg ws 2) 8 7 + 1)
      (fld (arg ws 2) 16 2) (argBytes ws 3 (fld (arg ws 2) 8 7 + 1))).i2cGo (fld (arg ws 1) 0 3) (some who)
    s.mbI2c who ws = if (t.i2cBusy (fld (arg ws 1) 0 3)).isSome then t
      else t.answerAsk who 0 (t.i2cWords (fld (arg ws 1) 0 3) (decide (fld (arg ws 1) 8 2 ≠ 0))) := by
  obtain ⟨h1, h2, h3, h4⟩ := h
  unfold State.mbI2c
  dsimp only
  rw [if_neg]
  · rfl
  · push Not
    exact ⟨h1, h2, h3, fun h0 => h4 h0⟩

end

theorem fld_lt (n lo w : Nat) : fld n lo w < 2 ^ w := Nat.mod_lt _ (Nat.two_pow_pos w)

/-- Settles O47, request by request: each does the register's write and tells the mailbox. -/
theorem mailboxActsAsRegisters : Obligations.MailboxActsAsRegisters := by
  simp only [Obligations.MailboxActsAsRegisters, answers_iff]
  intro s r hw
  have hbusy : (s.asked r).mc.mb.busy = some { r with started := true } := rfl
  have told {t : State} (hmc : t.mc = (s.asked r).mc) (st : Nat) (l : List Word) :
      MbTold { r with started := true } st l t (t.answerAsk .mailbox st l) :=
    State.answerAsk_told (congrArg (fun m : Core => m.mb.busy) hmc :)
  have halts (d : Word) : ((s.asked r).wrHaltCtl true d).mc = (s.asked r).mc :=
    ((State.wrHaltCtl_same (s.asked r) true d (μ := mask [.out, .rg, .chans, .ra, .ev, .inj, .pseq, .tows, .reins, .rrUsed, .counts,
      .links, .flt, .logs, .phys, .halt, .mons, .cmap]) (by simp)).mpr (Same.refl _ _) .mc rfl : (s.asked r).mc = _).symm
  refine ⟨fun hc => ?_, fun hc => ?_, fun hc => ?_, fun hc => ?_, fun hc => ⟨fun hen => ?_, fun hen h1 hi => ?_, fun hen h1 hi => ?_,
    fun hen h1 hi => ?_⟩, fun hc => ⟨fun hbad => ?_, fun hp htwo => ?_, fun hp htwo => ?_⟩, fun hc => ?_, fun hc hidle => ?_⟩
  · refine .mbRow hw hc (t := (s.asked r).mbAbort .mailbox r.words) (by simp only [State.mbDo, hc]) ?_
    have hsame := (State.originAbort_same (s.asked r) 0 (μ := mask [.out, .rg, .chans, .ra, .tows, .links, .flt, .phys, .abort,
      .halt, .mons, .cmap]) (by simp)).mpr (Same.refl _ _)
    have ht := told (t := (s.asked r).originAbort 0) (hsame .mc rfl : (s.asked r).mc = _).symm 0
      [BitVec.ofNat 32 ((s.asked r).originAbort 0).genBase.toNat]
    refine ⟨ht.answered _, fun hk hab => ?_⟩
    obtain ⟨h1, -⟩ := (s.asked r).originAbort_taken 0 hk hab
    have hst : ((s.asked r).originAbort 0).abort.steps = [⟨s.ident.gen + 1, 0, s.ident.chip, 0, false, false⟩] := (congrArg AbortSt.steps h1 :)
    have hgen : ((s.asked r).originAbort 0).genBase = s.ident.gen + 1 := by
      unfold State.genBase
      rw [hst]
      rfl
    refine ⟨?_, ?_⟩
    · have habort : ((s.asked r).originAbort 0).abort = _ := ht.same .abort rfl
      exact (congrArg AbortSt.steps habort.symm :).trans hst
    · have hrsp := (congrArg (fun m : Mailbox => m.rsp.getD 1 0) ht.mb :)
      exact hrsp.trans (congrArg (fun g : Byte => BitVec.ofNat 32 g.toNat) hgen)
  · refine .mbRow hw hc (t := (s.asked r).mbHalt .mailbox r.words) (by simp only [State.mbDo, hc]) ⟨fun hbad => ?_, fun hok => ?_⟩
    · unfold State.mbHalt
      rw [if_pos hbad]
      have ht := told (t := s.asked r) rfl 2 []
      exact ⟨ht.answered _, (ht.same .halt rfl : (s.asked r).halt = _).symm⟩
    · unfold State.mbHalt
      rw [if_neg (Nat.not_le.mpr hok)]
      have ht := told (t := (s.asked r).wrHaltCtl true (BitVec.ofNat 32 (arg r.words 1 + 0x10000))) (halts _) 0 []
      refine ⟨ht.answered _, fun hrun hk => ?_⟩
      have hhead := (s.asked r).wrHaltCtl_go hok hrun hk
      rw [show ((s.asked r).wrHaltCtl true (BitVec.ofNat 32 (arg r.words 1 + 0x10000))).halt = _ from ht.same .halt rfl] at hhead
      refine ⟨(congrArg Prod.fst hhead :), ?_⟩
      have hid := (congrArg (fun x => x.2.2.1.toNat) hhead :)
      exact hid.trans (by rw [BitVec.toNat_ofNat]; exact Nat.mod_eq_of_lt hok)
  · refine .mbRow hw hc (t := (s.asked r).mbRelease .mailbox r.words) (by simp only [State.mbDo, hc]) ?_
    unfold State.mbRelease
    have ht := told (halts (BitVec.ofNat 32 ((s.asked r).rf 0x3100 0 16 + 0x20000))) 0 []
    have hrun := (s.asked r).wrHaltCtl_rel (State.rf_lt (s.asked r) 0x3100 0 16)
    rw [show ((s.asked r).wrHaltCtl true _).halt = _ from ht.same .halt rfl] at hrun
    exact ⟨ht.answered _, hrun⟩
  · refine .mbRow hw hc (t := (s.asked r).mbFltAck .mailbox r.words) (by simp only [State.mbDo, hc]) ⟨fun hbad => ?_, fun h31 hres => ?_⟩
    · unfold State.mbFltAck
      rw [if_pos (by simpa using hbad)]
      have ht := told (t := s.asked r) rfl 2 []
      exact ⟨ht.answered _, (ht.same .flt rfl : (s.asked r).flt = _).symm⟩
    · unfold State.mbFltAck
      rw [if_neg (by simp [h31, hres])]
      have hsame := (State.wrFltAck_same (s.asked r) true (r.words.getD 1 0) (μ := mask [.out, .rg, .chans, .ra, .ev, .tows, .links, .flt,
        .logs, .phys, .abort, .halt, .mons, .cmap]) (by simp)).mpr (Same.refl _ _)
      have ht := told (hsame .mc rfl : (s.asked r).mc = _).symm 0 [((s.asked r).wrFltAck true (r.words.getD 1 0)).readWord 0x2010]
      refine ⟨ht.answered _, fun hf3 hst hraises => ?_⟩
      have hflt : ((s.asked r).wrFltAck true (r.words.getD 1 0)).flt = _ := ht.same .flt rfl
      have hack := (s.asked r).ack_clear (code := fld (arg r.words 1) 0 8) (inst := fld (arg r.words 1) 8 6) hf3 hst
      rw [show ((s.asked r).source (fld (arg r.words 1) 0 8) (fld (arg r.words 1) 8 6)).raises = _ from hraises] at hack
      have hwr := (s.asked r).wrFltAck_flt hf3 h31
      rw [hflt] at hwr
      exact (congrArg (fun f : Collector => (SMap.get (fun _ => Source.reset) f.src _).st) hwr).trans hack.2
  · refine .mbRow hw hc (t := (s.asked r).mbEnable .mailbox r.words) (by simp only [State.mbDo, hc]) ?_
    unfold State.mbEnable
    rw [if_pos hen]
    exact (told (t := s.asked r) rfl 2 []).answered _
  · refine .mbRow hw hc (t := (s.asked r).mbEnable .mailbox r.words) (by simp only [State.mbDo, hc]) ?_
    unfold State.mbEnable
    rw [if_neg (Nat.not_lt.mpr hen), if_pos ⟨h1, hi⟩]
    rfl
  · refine .mbRow hw hc (t := (s.asked r).mbEnable .mailbox r.words) (by simp only [State.mbDo, hc]) ?_
    unfold State.mbEnable
    rw [if_neg (Nat.not_lt.mpr hen), if_neg (by simp [h1]), if_pos ⟨h1, hi⟩]
    rfl
  · refine .mbRow hw hc (t := (s.asked r).mbEnable .mailbox r.words) (by simp only [State.mbDo, hc]) ?_
    unfold State.mbEnable
    rw [if_neg (Nat.not_lt.mpr hen), if_neg (by simp [h1]), if_neg (by simp [h1]), if_pos ⟨h1, hi⟩]
    rfl
  · refine .mbRow hw hc (t := (s.asked r).mbFence .mailbox r.words) (by simp only [State.mbDo, hc]) ?_
    unfold State.mbFence
    rw [if_pos hbad]
    have ht := told (t := s.asked r) rfl 2 []
    exact ⟨ht.answered _, (ht.same .links rfl : (s.asked r).links = _).symm⟩
  · refine .mbRow hw hc (t := (s.asked r).mbFence .mailbox r.words) (by simp only [State.mbDo, hc]) ?_
    unfold State.mbFence
    dsimp only
    rw [if_neg (by omega), if_pos htwo]
    rfl
  · refine .mbRow hw hc (t := (s.asked r).mbFence .mailbox r.words) (by simp only [State.mbDo, hc]) ?_
    unfold State.mbFence
    dsimp only
    rw [if_neg (by omega), if_neg (by omega)]
    rfl
  · refine .mbRow hw hc (t := (s.asked r).mbStartDone .mailbox r.words) (by simp only [State.mbDo, hc]) ?_
    unfold State.mbStartDone
    have ht := told (t := (s.asked r).startDone) rfl 0 []
    have hflt : (s.asked r).startDone.flt = _ := ht.same .flt rfl
    exact ⟨ht.answered _, (congrArg Collector.capStart hflt.symm :)⟩
  · show Meets (execMbI2c s) _
    unfold execMbI2c
    refine .mbRowOf hw (by simp [hc, hidle]) ?_
    have i2cGoes (hgood : I2cArgs r.words) := (s.asked r).i2cLoaded_go (c := fld (arg r.words 1) 0 3) (op := fld (arg r.words 1) 8 2)
      (fld_lt _ _ _) (by have := fld_lt (arg r.words 1) 8 2; have := hgood.2.2.1; omega) (fld (arg r.words 1) 16 7) (arg r.words 2)
      (fld (arg r.words 2) 16 2) (n := fld (arg r.words 2) 8 7) (fld_lt _ _ _) (argBytes r.words 3 (fld (arg r.words 2) 8 7 + 1)) .mailbox hidle
    rw [show fld (arg r.words 1) 16 7 % 2 ^ 7 = fld (arg r.words 1) 16 7 from Nat.mod_eq_of_lt (fld_lt _ _ _)] at i2cGoes
    have hmc {t : State} (h : Same (mask [.rg, .out, .ev, .logs, .i2c]) (s.asked r) t) : t.mc = (s.asked r).mc :=
      (h .mc rfl : (s.asked r).mc = _).symm
    have hsame : Same (mask [.rg, .out, .ev, .logs, .i2c]) (s.asked r) (((s.asked r).i2cLoaded (fld (arg r.words 1) 0 3)
        (fld (arg r.words 1) 8 2) (fld (arg r.words 1) 16 7) (arg r.words 2) (fld (arg r.words 2) 8 7 + 1) (fld (arg r.words 2) 16 2)
        (argBytes r.words 3 (fld (arg r.words 2) 8 7 + 1))).i2cGo (fld (arg r.words 1) 0 3) (some .mailbox)) :=
      (State.i2cGo_same _ _ _ (by simp)).mpr ((State.i2cLoaded_same _ _ _ _ _ _ _ _).mono (by simp))
    rw [show (s.asked r).mbDo .mailbox s.expert r.words = (s.asked r).mbI2c .mailbox r.words by simp only [State.mbDo, hc]]
    refine ⟨fun hbad => ?_, fun hgood hen => ?_, fun hgood hen => ?_⟩
    · rw [State.mbI2c_bad _ _ hbad]
      have ht := told (t := s.asked r) rfl 2 []
      exact ⟨ht.answered _, ht.idle _ hidle⟩
    · rw [State.mbI2c_good _ _ hgood]
      have hgo := (i2cGoes hgood).1 hen
      rw [if_pos (by rw [hgo]; rfl)]
      exact ⟨hgo, (congrArg (fun m : Core => m.mb.busy) (hmc hsame) :).trans hbusy⟩
    · rw [State.mbI2c_good _ _ hgood]
      have hgo := (i2cGoes hgood).2 hen
      rw [if_neg (by rw [hgo]; decide)]
      exact (told (hmc hsame) 0 _).answered _

end Sys2Proof.Machine

namespace Sys2Proof.Machine

/-! ## What the mailbox answers -/

section
variable {s t : State} {r : MbReq} {st : Nat} {ws : List Word}

/-- The words of an answer. -/
theorem MbTold.rsp (h : MbTold r st ws s t) : t.mc.mb.rsp = rspWords st (fld (r.words.headD 0).toNat 8 8) ws :=
  (congrArg Mailbox.rsp h.mb :)

/-- A request with one word to read answers that word, and keeps what reading it latched. -/
theorem State.mbPeek_one (s : State) (who : Asker) {words : List Word} (hal : arg words 1 % 4 = 0) (hn : arg words 2 = 1)
    (hlo : 0x10000 ≤ arg words 1) (hhi : arg words 1 < 0x100000) :
    s.mbPeek who words = (s.readReg (arg words 1)).2.answerAsk who 0 [(s.readReg (arg words 1)).1] := by
  unfold State.mbPeek
  dsimp only
  rw [if_neg (by omega), hn]
  rfl

/-- The core with one more request outstanding. -/
def Core.sent (c : Core) (o : MgtOut) : Core := { c with mseq := o.mseq, outst := c.outst ++ [o] }

/-- A request sent to another kernel is outstanding. -/
theorem State.mgtSend_mc (s : State) (m : TreeMsg) (who : Option Asker) :
    (s.mgtSend m who).mc =
      s.mc.sent ⟨(s.mc.mseq + 1) % 2 ^ 32, m.dst, m.aux, m.h5, m.h6, m.pkey, wordBytes m.pay, s.now, 0, who⟩ := by
  unfold State.mgtSend
  dsimp only
  generalize ht : State.form s _ _ _ _ = t
  have h : s.mc = t.mc := by
    rw [← ht]
    exact (State.form_same s _ _ _ _ (μ := mask [.rg, .inj, .pseq, .counts]) (by simp)).mpr (Same.refl _ s) .mc rfl
  show t.mc.sent ⟨(s.mc.mseq + 1) % 2 ^ 32, m.dst, m.aux, m.h5, m.h6, m.pkey, wordBytes m.pay, s.now, 0, who⟩ = _
  rw [← h]

theorem State.sayExpert_mc (s : State) : s.sayExpert.mc = s.mc :=
  ((State.sayExpert_same s (μ := mask [.rg, .ev, .logs]) (by simp)).mpr (Same.refl _ s) .mc rfl : s.mc = _).symm

theorem State.raise_mc (s : State) (code inst cls atype master addr detail : Nat) (inj : Bool) :
    (s.raise code inst cls atype master addr detail inj).mc = s.mc :=
  ((State.raise_same s code inst cls atype master addr detail inj (μ := mask [.flt]) (by simp)).mpr (Same.refl _ s) .mc rfl : s.mc = _).symm

/-- Expert control that is closed is not open. -/
theorem State.closeExpert_mc (s : State) : s.closeExpert.mc = { s.mc with openUntil := none } := by
  unfold State.closeExpert
  split
  · generalize hu : ({ s with mc := { s.mc with openUntil := none } } : State) = u
    have h : u.mc = u.sayExpert.mc := (State.sayExpert_same u (μ := mask [.rg, .ev, .logs]) (by simp)).mpr (Same.refl _ u) .mc rfl
    rw [← h, ← hu]
  · next h =>
    rw [Option.not_isSome_iff_eq_none] at h
    rw [← h]

/-- The row of what no mode serves, or not this one, answers the check that the request fails. -/
theorem Meets.mbBad {P : State → Prop} (ha : s.alive = true) (hb : s.mc.mb.busy = some r) (hst : r.started = false)
    (harm : s.flt.armed = none) (hno : ∀ c, mbCmd (reqCmd r.words) = some c → c.served s.mc.mode = false) {n : Nat}
    (href : mbRefusal s.mc.mode s.expert r.words = some n) (hP : P (((s.asked r).answerAsk .mailbox n []).ended s.pending)) :
    Meets (execMbBadCmd s) P := by
  unfold execMbBadCmd
  rw [hb]
  dsimp only
  have hok : (!r.started && !(match mbCmd (reqCmd r.words) with
      | some c => c.served s.mc.mode
      | none => false)) = true := by
    rw [hst]
    cases hc : mbCmd (reqCmd r.words) with
    | none => rfl
    | some c => simp [hno c hc]
  refine .run ha hok ?_
  have hfetch : s.cleared.mbFetch = s.cleared := by
    unfold State.mbFetch
    rw [State.takeEcc_unarmed (s := s.cleared) harm, State.takeEcc_unarmed (s := s.cleared) harm]
  have hstart : s.cleared.mbStart r = (s.asked r).answerAsk .mailbox n [] := by
    unfold State.mbStart
    rw [hfetch]
    show (s.asked r).mbPerform .mailbox s.mc.mode s.expert r.words = _
    unfold State.mbPerform
    rw [href]
  rw [hstart]
  exact hP

end

/-- Settles O44, question by question. -/
theorem mailboxAnswers : Obligations.MailboxAnswers := by
  simp only [Obligations.MailboxAnswers, answers_iff]
  refine ⟨fun s r hw => ?_, fun s r ha hb hst harm => ⟨fun hno => ?_, fun c hc hserved => ?_⟩, fun s r ha hb hlate => ?_,
    fun s ws ha hruns => ?_⟩
  · have told {t : State} (hmc : t.mc.mb.busy = some { r with started := true }) (st : Nat) (l : List Word) :
        MbTold { r with started := true } st l t (t.answerAsk .mailbox st l) := State.answerAsk_told hmc
    have asked : (s.asked r).mc.mb.busy = some { r with started := true } := rfl
    refine ⟨fun hc => ?_, fun hc => ?_, fun hc => ?_, fun hc => ?_, fun hc h1 => ?_, fun hc h1 => ?_, fun hc => ?_, fun hc => ?_,
      fun hc => ?_, fun hc => ?_⟩
    · refine .mbRow hw hc (t := (s.asked r).mbInfo .mailbox r.words) (by simp only [State.mbDo, hc]) ?_
      have ht := told asked 0 [(s.asked r).readWord 0, (s.asked r).readWord 4, (s.asked r).readWord 0xF000, s.mc.fwver]
      exact ⟨ht.answered _, ht.rsp⟩
    · refine .mbRow hw hc (t := (s.asked r).mbNonce .mailbox r.words) (by simp only [State.mbDo, hc]) ?_
      unfold State.mbNonce
      dsimp only
      generalize hu : ({ s.asked r with free := (s.asked r).free + 1, mc := { (s.asked r).mc with
        nonce := some (Config.nonce (s.asked r).free, (s.asked r).now) } } : State) = u
      have ht := told (t := u) (by rw [← hu]; rfl) 0
        ((List.range 8).map (fun i => BitVec.ofNat 32 ((Config.nonce (s.asked r).free).toNat / 2 ^ (32 * i))))
      have hfree : u.free = _ := ht.same .free rfl
      refine ⟨ht.answered _, ?_, Config.nonce (s.asked r).free, ?_⟩
      · exact hfree.symm.trans (by rw [← hu]; rfl)
      · exact (ht.apart Core.nonce).trans (by rw [← hu]; rfl)
    · refine .mbRow hw hc (t := (s.asked r).mbExpertOn .mailbox r.words) (by simp only [State.mbDo, hc]) ?_
      unfold State.mbExpertOn
      dsimp only
      by_cases hd : arg r.words 1 = 0 ∨ 3600 < arg r.words 1
      · rw [if_pos hd]
        have ht := told (t := { s.asked r with mc := { (s.asked r).mc with nonce := none } }) rfl 2 []
        exact ⟨ht.apart Core.nonce, fun _ => ⟨ht.answered _, ht.apart Core.openUntil⟩, fun _ _ => by omega, fun _ _ => by omega⟩
      · rw [if_neg hd]
        by_cases hok : (s.asked r).expertOk r.words = true
        · rw [if_pos hok]
          generalize hu : State.sayExpert _ = u
          have hmc : u.mc = { (s.asked r).mc with nonce := none, openUntil := some (s.now + arg r.words 1 * 156250000) } := by
            rw [← hu, State.sayExpert_mc]
            rfl
          have ht := told (t := u) (by rw [hmc]; rfl) 0 []
          have hn : u.mc.nonce = none := by rw [hmc]
          have ho : u.mc.openUntil = some (s.now + arg r.words 1 * 156250000) := by rw [hmc]
          exact ⟨(ht.apart Core.nonce).trans hn, fun h => absurd h hd, fun _ _ _ => ⟨ht.answered _, (ht.apart Core.openUntil).trans ho⟩,
            fun _ _ h => absurd hok (by rw [h]; decide)⟩
        · rw [if_neg hok]
          generalize hu : State.raise _ 0x7B 0 1 0 0x60 = u
          have hmc : u.mc = { (s.asked r).mc with nonce := none } := by
            rw [← hu, State.raise_mc]
          have ht := told (t := u) (by rw [hmc]; rfl) 8 []
          have hn : u.mc.nonce = none := by rw [hmc]
          have ho : u.mc.openUntil = s.mc.openUntil := by rw [hmc]; rfl
          exact ⟨(ht.apart Core.nonce).trans hn, fun h => absurd h hd, fun _ _ h => absurd h hok, fun _ _ _ =>
            ⟨ht.answered _, (ht.apart Core.openUntil).trans ho⟩⟩
    · refine .mbRow hw hc (t := (s.asked r).mbExpertOff .mailbox r.words) (by simp only [State.mbDo, hc]) ?_
      have hmc := (s.asked r).closeExpert_mc
      have ht := told (t := (s.asked r).closeExpert) (by rw [hmc]; rfl) 0 []
      exact ⟨ht.answered _, (ht.apart Core.openUntil).trans (congrArg Core.openUntil hmc)⟩
    · show Meets (execMbTimeRead s) _
      unfold execMbTimeRead
      refine .mbRowOf hw (by simp [hc, h1]) ?_
      rw [show (s.asked r).mbDo .mailbox s.expert r.words = (s.asked r).mbTime .mailbox s.expert r.words by simp only [State.mbDo, hc]]
      unfold State.mbTime
      dsimp only
      by_cases h0 : arg r.words 1 = 0
      · rw [if_pos h0, if_pos h0]
        have ht := told asked 0 [(s.asked r).readWord 0xF04C, (s.asked r).readWord 0xF040, (s.asked r).readWord 0xF044]
        exact ⟨ht.answered _, (ht.same .tod rfl : (s.asked r).tod = _).symm⟩
      · rw [if_neg h0, if_neg h0, if_pos (.inl h1)]
        have ht := told asked 2 []
        exact ⟨ht.answered _, (ht.same .tod rfl : (s.asked r).tod = _).symm⟩
    · show Meets (execMbTimeSet s) _
      unfold execMbTimeSet
      refine .mbRowOf hw (by simp [hc, h1]) ?_
      rw [show (s.asked r).mbDo .mailbox s.expert r.words = (s.asked r).mbTime .mailbox s.expert r.words by simp only [State.mbDo, hc]]
      unfold State.mbTime
      dsimp only
      rw [if_neg (by omega)]
      refine ⟨fun hnw => ?_, fun hnw hno => ?_, fun hnw hex hmaster => ?_⟩
      · rw [if_pos (.inr hnw)]
        have ht := told asked 2 []
        exact ⟨ht.answered _, (ht.same .tod rfl : (s.asked r).tod = _).symm⟩
      · rw [if_neg (by omega), if_pos (hno.imp (by simp) (fun h => by rw [show ((s.asked r).reg 0xF048).toNat.testBit 1 = false from h]; decide))]
        have ht := told asked 3 []
        exact ⟨ht.answered _, (ht.same .tod rfl : (s.asked r).tod = _).symm⟩
      · rw [if_neg (by omega), if_neg (not_or.mpr ⟨by simp [hex], not_not.mpr (show ((s.asked r).reg 0xF048).toNat.testBit 1 = true from hmaster)⟩)]
        generalize hu : ({ s.asked r with tod := (arg r.words 2 + arg r.words 3 * 2 ^ 32) * 3125 } : State) = u
        have ht := told (t := u) (by rw [← hu]; rfl) 0 [u.readWord 0xF04C, u.readWord 0xF040, u.readWord 0xF044]
        have htod : u.tod = _ := ht.same .tod rfl
        exact ⟨ht.answered _, htod.symm.trans (by rw [← hu])⟩
    · refine .mbRow hw hc (t := (s.asked r).mbRemote .mailbox r.words) (by simp only [State.mbDo, hc]) ⟨fun hbad => ?_, fun hok => ?_⟩
      · unfold State.mbRemote
        rw [if_pos hbad]
        exact (told asked 2 []).answered _
      · unfold State.mbRemote
        rw [if_neg (Nat.not_le.mpr hok)]
        have hmc := (s.asked r).mgtSend_mc ⟨arg r.words 1, 0, put (s.asked r).ident.gen.toNat 16 8, 0, (s.asked r).ident.pkey.toNat,
          (r.words.drop 2).take (reqNw r.words - 1)⟩ (some .mailbox)
        exact ⟨(congrArg (fun c : Core => c.mb.busy) hmc :), _, (congrArg Core.outst hmc :), rfl, rfl⟩
    · refine .mbRow hw hc (t := (s.asked r).mbPeek .mailbox r.words) (by simp only [State.mbDo, hc]) ⟨fun hbad => ?_, fun hal hn hlo hhi => ?_⟩
      · unfold State.mbPeek
        dsimp only
        rw [if_pos (by tauto)]
        exact (told asked 2 []).answered _
      · rw [State.mbPeek_one _ _ hal hn hlo hhi]
        have hbusy : ((s.asked r).readReg (arg r.words 1)).2.mc.mb.busy = some { r with started := true } :=
          (congrArg (fun c : Core => c.mb.busy) ((State.readReg_same (s.asked r) (arg r.words 1) (μ := mask [.rshadow]) (by simp)).mpr
            (Same.refl _ _) .mc rfl : (s.asked r).mc = _).symm :)
        have ht := told hbusy 0 [((s.asked r).readReg (arg r.words 1)).1]
        exact ⟨ht.answered _, ht.rsp⟩
    · refine .mbRow hw hc (t := (s.asked r).mbPoke .mailbox r.words) (by simp only [State.mbDo, hc]) ⟨fun hbad => ?_, fun hal hlo => ?_⟩
      · unfold State.mbPoke
        dsimp only
        rw [if_pos hbad]
        exact (told asked 2 []).answered _
      · unfold State.mbPoke
        dsimp only
        rw [if_neg (by omega)]
        rfl
    · refine .mbRow hw hc (t := (s.asked r).mbDiag .mailbox r.words) (by simp only [State.mbDo, hc]) ?_
      have ht := told asked 0 ([0x2000, 0x2014, 0x2018, 0x201C, 0x2024, 0x3040].map (s.asked r).readWord)
      exact ⟨ht.answered _, ht.rsp⟩
  · refine .mbBad ha hb hst harm (by simp [hno]) (n := 1) (by simp [mbRefusal, hno]) ?_
    exact (State.answerAsk_told (r := { r with started := true }) rfl).answered _
  · refine .mbBad ha hb hst harm (fun c' hc' => by rw [hc] at hc'; cases hc'; exact hserved) (n := if s.mc.mode = .diag then 0xA else 1)
      (by simp [mbRefusal, hc, hserved]) ?_
    exact (State.answerAsk_told (r := { r with started := true }) rfl).answered _
  · show Meets (execMbTimeout s) _
    unfold execMbTimeout
    rw [hb]
    dsimp only
    refine .run ha (decide_eq_true ?_) ((State.mbDone_told (s := s.cleared) hb).answered _)
    cases hc : mbCmd (reqCmd r.words) <;> simpa [hc] using hlate
  · show Meets (execKernelCall ws s) _
    refine .run ha hruns ?_
    rfl

end Sys2Proof.Machine

namespace Sys2Proof.Machine

/-! ## Firmware and images in chunks -/

section
variable {s : State} {r : MbReq}

theorem State.emit_mc (s : State) (w : Nat) : (s.emit w).mc = s.mc :=
  ((State.emit_same s w none (μ := mask [.rg, .ev, .logs]) (by simp)).mpr (Same.refl _ s) .mc rfl : s.mc = _).symm

/-- Entering a mode and a state of the firmware, or standing in both, is being in them. -/
theorem State.setFw_mc (s : State) (m : McMode) (f : FwSt) : (s.setFw m f).mc = { s.mc with mode := m, fw := f } := by
  unfold State.setFw
  split
  · next h => rw [← h.1, ← h.2]
  · rw [State.emit_mc]

/-- The parts of the core that a load of firmware settles. -/
structure FwGone (c : Core) : Prop where
  fw : c.fw = .none
  mode : c.mode = .basic

/-- A load that fails is answered its status, and the firmware is gone. -/
theorem State.fwFail_told (hb : s.mc.mb.busy = some r) (st : Nat) :
    ∃ u : State, FwGone u.mc ∧ MbTold r st [] u (s.fwFail .mailbox st) := by
  unfold State.fwFail
  dsimp only
  generalize hu : State.setFw _ .basic .none = u
  have hmc : ∃ v : State, u.mc = { v.mc with mode := .basic, fw := .none } ∧ v.mc.mb = s.mc.mb := by
    rw [← hu]
    exact ⟨_, State.setFw_mc _ _ _, by rw [State.raise_mc]; rfl⟩
  obtain ⟨v, hv, hmb⟩ := hmc
  refine ⟨u, ⟨by rw [hv], by rw [hv]⟩, State.answerAsk_told ?_⟩
  rw [hv]
  exact (congrArg Mailbox.busy hmb).trans hb

/-- What a restart of the firmware leaves: a good code restarts in the mode it ran in, one that is not leaves none. -/
structure FwRestarted (s t : State) : Prop where
  told : ∀ r, s.mc.mb.busy = some r → MbAnswered t 7
  good : s.codeGood = true → t.mc.fw = .restarting ∧ t.mc.mode = s.mc.mode ∧ t.mc.heartAt = s.now ∧
    t.mc.restarts = min 255 (s.mc.restarts + 1)
  bad : s.codeGood = false → t.mc.fw = .none ∧ t.mc.mode = .basic

/-- Telling the mailbox, where it waits, leaves the core apart from it. -/
theorem State.mbDone_apart (s : State) (st : Nat) (ws : List Word) : (s.mbDone st ws).mc.apart = s.mc.apart := by
  cases hb : s.mc.mb.busy with
  | none =>
    unfold State.mbDone
    rw [hb]
  | some r => exact (State.mbDone_told hb).core

theorem State.restartFw_restarted (s : State) : FwRestarted s s.restartFw := by
  unfold State.restartFw
  dsimp only
  by_cases hg : s.codeGood = true
  · rw [if_pos hg]
    generalize hu : State.setFw _ _ .restarting = u
    have hmc : u.mc = { s.startFw.mc with restarts := min 255 (s.startFw.mc.restarts + 1), fw := .restarting } := by
      rw [← hu, State.setFw_mc]
    have hap := u.mbDone_apart 7 []
    constructor
    case told =>
      intro r hb
      exact (State.mbDone_told (s := u) (by rw [hmc]; exact hb)).answered _
    case good =>
      intro _
      refine ⟨(congrArg Core.fw hap :).trans ?_, (congrArg Core.mode hap :).trans ?_, (congrArg Core.heartAt hap :).trans ?_,
        (congrArg Core.restarts hap :).trans ?_⟩
      · simp only [Core.apart, hmc]
      · simp only [Core.apart, hmc]
        rfl
      · simp only [Core.apart, hmc]
        rfl
      · simp only [Core.apart, hmc]
        rfl
    case bad => exact fun h => absurd hg (by rw [h]; decide)
  · rw [if_neg hg]
    generalize hu : State.setFw _ .basic .none = u
    have hmc : u.mc = { s.mc with mode := .basic, fw := .none } := by
      rw [← hu, State.setFw_mc, State.raise_mc]
    have hap := u.mbDone_apart 7 []
    constructor
    case told =>
      intro r hb
      exact (State.mbDone_told (s := u) (by rw [hmc]; exact hb)).answered _
    case good => exact fun h => absurd h hg
    case bad =>
      intro _
      refine ⟨(congrArg Core.fw hap :).trans ?_, (congrArg Core.mode hap :).trans ?_⟩
      all_goals simp only [Core.apart, hmc]

/-- A restart after a fault that it raises. -/
theorem State.restartFw_raised (s : State) (code inst cls atype master addr : Nat) :
    FwRestarted s (s.raise code inst cls atype master addr).restartFw := by
  have hmc := s.raise_mc code inst cls atype master addr 0 false
  have hnow : (s.raise code inst cls atype master addr).now = s.now :=
    ((State.raise_same s code inst cls atype master addr 0 false (μ := mask [.flt]) (by simp)).mpr (Same.refl _ s) .now rfl : s.now = _).symm
  have h := (s.raise code inst cls atype master addr).restartFw_restarted
  have hg : (s.raise code inst cls atype master addr).codeGood = s.codeGood := by
    unfold State.codeGood State.ramRead
    rw [hmc]
  obtain ⟨h1, h2, h3⟩ := h
  rw [hmc] at h1 h2
  rw [hg, hnow] at h2
  rw [hg] at h3
  exact ⟨h1, h2, h3⟩

/-- Staging and the part in a cycle are dropped. -/
def State.imgDropped (s : State) : State := { s.dropStaging with mc := { s.mc with part := none } }

/-- With no cycle that runs here, what is staged is dropped. -/
theorem State.mbImgDrop_free (s : State) (who : Asker) (ws : List Word)
    (h : ¬ (s.mc.lead.isSome = true ∨ s.tbl.phase = .locked ∨ s.tbl.phase = .swapped)) :
    s.mbImgDrop who ws = (if s.tbl.phase = .staged then s.imgDropped.sayLock else s.imgDropped).answerAsk who 0 [] := by
  unfold State.mbImgDrop
  rw [if_neg h]
  rfl

end

/-- Settles O45, request by request, then the running firmware and the end of expert control. -/
theorem firmwareLives : Obligations.FirmwareLives := by
  simp only [Obligations.FirmwareLives, answers_iff]
  refine ⟨fun s r hw => ?_, fun s ha hruns => ⟨?_, fun hlate => ?_, fun x hx => ?_⟩, fun s n ha hopen hn => ?_⟩
  · have told {t : State} (hmc : t.mc.mb.busy = some { r with started := true }) (st : Nat) (l : List Word) :
        MbTold { r with started := true } st l t (t.answerAsk .mailbox st l) := State.answerAsk_told hmc
    have asked : (s.asked r).mc.mb.busy = some { r with started := true } := rfl
    have hseal : 64 + sealLen = 260 := rfl
    refine ⟨fun hc => ?_, fun hc => ?_, fun hc => ?_, fun hc => ?_, fun hc => ?_, fun hc => ?_⟩
    · refine .mbRow hw hc (t := (s.asked r).mbFwBegin .mailbox r.words) (by simp only [State.mbDo, hc]) ⟨fun hbad => ?_, fun hlo hhi => ?_⟩
      · unfold State.mbFwBegin
        rw [hseal, if_pos hbad]
        have ht := told asked 2 []
        exact ⟨ht.answered _, ht.apart Core.fwLen⟩
      · unfold State.mbFwBegin
        dsimp only
        rw [hseal, if_neg (not_or.mpr ⟨Nat.not_lt.mpr hlo, Nat.not_lt.mpr hhi⟩)]
        generalize hu : State.setFw _ .basic .loading = u
        have hmode : u.mc.mode = .basic := by rw [← hu, State.setFw_mc]
        have hfw : u.mc.fw = .loading := by rw [← hu, State.setFw_mc]
        have hlen : u.mc.fwLen = arg r.words 1 := by rw [← hu, State.setFw_mc]
        have hparts : u.mc.fwParts = [] := by rw [← hu, State.setFw_mc]
        have ht := told (t := u) (by rw [← hu, State.setFw_mc]; rfl) 0 []
        exact ⟨ht.answered _, (ht.apart Core.mode).trans hmode, (ht.apart Core.fw).trans hfw, (ht.apart Core.fwLen).trans hlen,
          (ht.apart Core.fwParts).trans hparts⟩
    · refine .mbRow hw hc (t := (s.asked r).mbFwChunk .mailbox r.words) (by simp only [State.mbDo, hc]) ⟨fun hok => ?_, fun hbad => ?_⟩
      · unfold State.mbFwChunk
        dsimp only
        rw [if_pos (show chunkOk (s.asked r).mc.fwParts (s.asked r).mc.fwLen r.words = true from hok)]
        exact ⟨(told rfl 0 []).answered _, (told rfl 0 []).apart Core.fwParts⟩
      · unfold State.mbFwChunk
        rw [if_neg (by rw [show chunkOk (s.asked r).mc.fwParts (s.asked r).mc.fwLen r.words = false from hbad]; decide)]
        exact ⟨(told asked 2 []).answered _, (told asked 2 []).apart Core.fwParts⟩
    · refine .mbRow hw hc (t := (s.asked r).mbFwCommit .mailbox r.words) (by simp only [State.mbDo, hc]) ⟨fun hbad => ?_,
        fun st hlen hcov hst => ?_, fun hlen hcov hgood => ?_⟩
      · unfold State.mbFwCommit
        dsimp only
        rw [if_pos (show (s.asked r).mc.fwLen = 0 ∨ ¬ covered (s.asked r).mc.fwParts (s.asked r).mc.fwLen = true from
          hbad.imp id (fun h => by rw [show covered (s.asked r).mc.fwParts (s.asked r).mc.fwLen = false from h]; decide))]
        obtain ⟨u, hgone, ht⟩ := (s.asked r).fwFail_told asked 2
        exact ⟨ht.answered _, (ht.apart Core.fw).trans hgone.fw, (ht.apart Core.mode).trans hgone.mode⟩
      · unfold State.mbFwCommit
        dsimp only
        rw [if_neg (show ¬ ((s.asked r).mc.fwLen = 0 ∨ ¬ covered (s.asked r).mc.fwParts (s.asked r).mc.fwLen = true) from
          not_or.mpr ⟨hlen, not_not.mpr hcov⟩), show (s.asked r).fwCheck ((s.asked r).ramRead 0 (s.asked r).mc.fwLen) = some st from hst]
        obtain ⟨u, hgone, ht⟩ := (s.asked r).fwFail_told asked st
        exact ⟨ht.answered _, (ht.apart Core.fw).trans hgone.fw, (ht.apart Core.mode).trans hgone.mode⟩
      · unfold State.mbFwCommit
        dsimp only
        rw [if_neg (show ¬ ((s.asked r).mc.fwLen = 0 ∨ ¬ covered (s.asked r).mc.fwParts (s.asked r).mc.fwLen = true) from
          not_or.mpr ⟨hlen, not_not.mpr hcov⟩), show (s.asked r).fwCheck ((s.asked r).ramRead 0 (s.asked r).mc.fwLen) = none from hgood]
        exact ⟨rfl, rfl, rfl, rfl⟩
    · refine .mbRow hw hc (t := (s.asked r).mbImgBegin .mailbox r.words) (by simp only [State.mbDo, hc]) ⟨fun hbad => ?_, fun hlo hhi => ?_⟩
      · unfold State.mbImgBegin
        rw [hseal, if_pos hbad]
        have ht := told asked 2 []
        exact ⟨ht.answered _, ht.apart Core.imgLen⟩
      · unfold State.mbImgBegin
        rw [hseal, if_neg (not_or.mpr ⟨Nat.not_lt.mpr hlo, Nat.not_lt.mpr hhi⟩)]
        exact ⟨(told rfl 0 []).answered _, (told rfl 0 []).apart Core.imgLen, (told rfl 0 []).apart Core.imgParts⟩
    · refine .mbRow hw hc (t := (s.asked r).mbImgChunk .mailbox r.words) (by simp only [State.mbDo, hc]) ⟨fun hok => ?_, fun hbad => ?_⟩
      · unfold State.mbImgChunk
        dsimp only
        rw [if_pos (show chunkOk (s.asked r).mc.imgParts ((s.asked r).mc.imgLen.getD 0) r.words = true from hok)]
        exact ⟨(told rfl 0 []).answered _, (told rfl 0 []).apart Core.imgParts⟩
      · unfold State.mbImgChunk
        rw [if_neg (by rw [show chunkOk (s.asked r).mc.imgParts ((s.asked r).mc.imgLen.getD 0) r.words = false from hbad]; decide)]
        exact ⟨(told asked 2 []).answered _, (told asked 2 []).apart Core.imgParts⟩
    · refine .mbRow hw hc (t := (s.asked r).mbImgDrop .mailbox r.words) (by simp only [State.mbDo, hc]) ⟨fun hbusy => ?_, fun hlead hph => ?_⟩
      · unfold State.mbImgDrop
        rw [if_pos (show (s.asked r).mc.lead.isSome = true ∨ (s.asked r).tbl.phase = .locked ∨ (s.asked r).tbl.phase = .swapped from hbusy)]
        have ht := told asked 5 []
        exact ⟨ht.answered _, (ht.same .tbl rfl : (s.asked r).tbl = _).symm⟩
      · rw [State.mbImgDrop_free _ _ _ (show ¬ ((s.asked r).mc.lead.isSome = true ∨ (s.asked r).tbl.phase = .locked ∨
          (s.asked r).tbl.phase = .swapped) by
            rw [show (s.asked r).mc.lead = none from hlead, show (s.asked r).tbl.phase = s.tbl.phase from rfl]
            rcases hph with h | h <;> simp [h])]
        generalize hv : (s.asked r).imgDropped = v
        have hpart : v.mc.part = none := by rw [← hv]; rfl
        have htbl : v.tbl = s.dropStaging.tbl := by rw [← hv]; rfl
        have hb : v.mc.mb.busy = some { r with started := true } := by rw [← hv]; rfl
        have hsay : Same (mask [.rg, .ev, .logs]) v (if (s.asked r).tbl.phase = .staged then v.sayLock else v) := by
          split <;> simp
        generalize (if (s.asked r).tbl.phase = .staged then v.sayLock else v) = u at hsay
        have hmc : v.mc = u.mc := hsay .mc rfl
        have ht := told (t := u) (by rw [← hmc]; exact hb) 0 []
        have hut : v.tbl = u.tbl := hsay .tbl rfl
        have htt : u.tbl = _ := ht.same .tbl rfl
        refine ⟨ht.answered _, (ht.apart Core.part).trans ?_, htt.symm.trans (hut.symm.trans htbl)⟩
        show u.mc.part = none
        rw [← hmc]
        exact hpart
  · show Meets (execFwHeartbeat s) _
    refine .run ha hruns ?_
    dsimp only
    generalize hu : State.setFw _ .full .running = u
    have hmc : u.mc = { s.mc with heartAt := s.now, mode := .full, fw := .running } := by
      rw [← hu, State.setFw_mc]
      rfl
    have hbusy : u.mc.mb.busy = s.mc.mb.busy := by rw [hmc]
    have hheart : u.mc.mode = .full ∧ u.mc.fw = .running ∧ u.mc.heartAt = s.now := by rw [hmc]; exact ⟨rfl, rfl, rfl⟩
    obtain ⟨h1, h2, h3⟩ := hheart
    cases hb : u.mc.mb.busy with
    | none =>
      exact ⟨h1, h2, h3, fun r h => by simp [← hbusy, hb] at h⟩
    | some r =>
      dsimp only
      split
      · have ht := State.mbDone_told (s := u) (st := 0) (ws := []) hb
        exact ⟨(ht.apart Core.mode).trans h1, (ht.apart Core.fw).trans h2, (ht.apart Core.heartAt).trans h3, fun _ _ _ _ => ht.answered _⟩
      · next hno =>
        refine ⟨h1, h2, h3, fun r' hr' hst hcmd => absurd (And.intro hst hcmd) ?_⟩
        rw [← hbusy, hb, Option.some.injEq] at hr'
        rw [← hr']
        exact hno
  · show Meets (execFwWdogExpire s) _
    refine .run ha (by simp [hruns, hlate]) ?_
    obtain ⟨h1, h2, h3⟩ := s.cleared.restartFw_raised 0x79 0 1 0 0x60 0
    exact ⟨h1, h2, h3⟩
  · show Meets (execFwAccessViolation x s) _
    refine .run ha (by simp [hruns, hx]) ?_
    obtain ⟨h1, h2, h3⟩ := s.cleared.restartFw_raised 0x7A 0 1 (if x.wr then 2 else 1) 0x60 x.addr.toNat
    exact ⟨h1, h2, h3⟩
  · show Meets (execExpertExpire s) _
    unfold execExpertExpire
    rw [hopen]
    refine .run ha (decide_eq_true hn) ?_
    exact (congrArg Core.openUntil s.cleared.closeExpert_mc :)

end Sys2Proof.Machine

namespace Sys2Proof.Machine

/-! ## Messages of the tree, and what a cycle leaves of the core -/

/-- The core but for the messages it has sent, holds back and has answered. -/
def Core.still (c : Core) : Core := { c with mseq := 0, outst := [], treeQ := [], answered := [] }

section
variable {s t u : State}

/-- In `t` the core is as in `s`, but for its messages. -/
def Stillness (s t : State) : Prop := t.mc.still = s.mc.still

theorem Stillness.refl (s : State) : Stillness s s := rfl
theorem Stillness.trans (h : Stillness s t) (h' : Stillness t u) : Stillness s u := Eq.trans h' h
theorem Stillness.of_mc (h : t.mc = s.mc) : Stillness s t := congrArg Core.still h
theorem Stillness.of_same {l : List Fld} (h : Same (mask l) s t) (hl : Fld.mc.bit &&& mask l = 0) : Stillness s t :=
  .of_mc (h .mc hl : s.mc = t.mc).symm

theorem Stillness.part (h : Stillness s t) : t.mc.part = s.mc.part := (congrArg Core.part h :)
theorem Stillness.lead (h : Stillness s t) : t.mc.lead = s.mc.lead := (congrArg Core.lead h :)
theorem Stillness.mb (h : Stillness s t) : t.mc.mb = s.mc.mb := (congrArg Core.mb h :)
theorem Stillness.cycle (h : Stillness s t) : t.mc.cycle = s.mc.cycle := (congrArg Core.cycle h :)

theorem State.treePut_still (s : State) (m : TreeMsg) : Stillness s (s.treePut m) := rfl

theorem State.sendDown_still (s : State) (p : LockPart) (msg : Nat) (ws : List Word) : Stillness s (s.sendDown p msg ws) :=
  foldl_keeps (R := Stillness) Stillness.refl Stillness.trans _ (fun t _ => t.treePut_still _) _ s

theorem State.mgtSend_still (s : State) (m : TreeMsg) (who : Option Asker) : Stillness s (s.mgtSend m who) := by
  unfold Stillness
  rw [State.mgtSend_mc]
  rfl

/-- Messages that leave change the core in nothing but messages. -/
theorem State.pumpTree_still (s : State) : Stillness s s.pumpTree := by
  unfold State.pumpTree
  refine Stillness.trans (t := { s with mc := { s.mc with treeQ := [] } }) rfl
    (foldl_keeps (R := Stillness) Stillness.refl Stillness.trans _ (fun t m => ?_) _ _)
  split
  · exact t.treePut_still m
  · exact t.mgtSend_still m none

/-- The core with one more request answered; it keeps the latest 256. -/
def Core.noted (c : Core) (a : Answered) : Core :=
  { c with answered := (c.answered ++ [a]).drop ((c.answered ++ [a]).length - 256) }

theorem Core.noted_still (c : Core) (a : Answered) : (c.noted a).still = c.still := by
  simp only [Core.still, Core.noted]

theorem Core.mem_noted (c : Core) (a : Answered) : a ∈ (c.noted a).answered := by
  unfold Core.noted
  dsimp only
  rw [List.drop_append_of_le_length (by simp)]
  exact List.mem_append_right _ (List.mem_singleton_self a)

/-- A reply to another kernel is kept as answered. -/
theorem State.mgtReply_mc (s : State) (p : Packet) (ws : List Word) :
    (s.mgtReply p ws).mc = s.mc.noted ⟨p.src, qf p.h7 0 32, p.aux, wordBytes ws⟩ := by
  unfold State.mgtReply State.mgtRespond
  dsimp only
  generalize ht : State.form s _ _ _ _ = t
  have h : s.mc = t.mc := by
    rw [← ht]
    exact (State.form_same s _ _ _ _ (μ := mask [.rg, .inj, .pseq, .counts]) (by simp)).mpr (Same.refl _ s) .mc rfl
  show t.mc.noted ⟨p.src, qf p.h7 0 32, p.aux, wordBytes ws⟩ = _
  rw [← h]

theorem State.mgtReply_still (s : State) (p : Packet) (ws : List Word) : Stillness s (s.mgtReply p ws) := by
  unfold Stillness
  rw [State.mgtReply_mc, Core.noted_still]

/-- An answer leaves the part in the cycle, and a block that does not lead leads no more. -/
theorem State.answerAsk_part (s : State) (who : Asker) (st : Nat) (ws : List Word) :
    (s.answerAsk who st ws).mc.part = s.mc.part ∧ (s.mc.lead = none → (s.answerAsk who st ws).mc.lead = none) := by
  cases who with
  | mailbox =>
    show (s.mbDone st ws).mc.part = _ ∧ (_ → (s.mbDone st ws).mc.lead = none)
    cases hb : s.mc.mb.busy with
    | none =>
      have h : s.mbDone st ws = s := by
        unfold State.mbDone
        rw [hb]
      rw [h]
      exact ⟨rfl, id⟩
    | some r =>
      unfold State.mbDone
      rw [hb]
      dsimp only
      rw [State.emit_mc]
      refine ⟨rfl, fun h => ?_⟩
      show s.mc.lead.map _ = none
      rw [h]
      rfl
  | call => exact ⟨rfl, id⟩
  | nobody => exact ⟨rfl, id⟩
  | remote p =>
    have h := s.mgtReply_still p (rspHead st (fld (leNat (p.pay.take 4)) 8 8) ws.length :: ws)
    exact ⟨h.part, fun hl => h.lead.trans hl⟩

/-! ### The end of a cycle at a block -/

/-- What unlocking does to the tables. -/
def Tables.unlocked (t : Tables) (keep : Bool) : Tables :=
  { t with
    phase := .none
    other := if t.phase ≠ .swapped ∧ ¬ keep ∧ t.other = .ready then BankSt.idle else t.other }

/-- The end of an unlocking at the core, at the command port and at the towpaths. -/
def State.unlockEnds (s : State) : State :=
  (List.range 128).foldl (fun t e => t.towTry e) (({ s with mc := { s.mc with part := none } }).releaseCp).raRelease

theorem State.unlockEnds_tbl (s : State) : s.unlockEnds.tbl = s.tbl ∧ s.unlockEnds.mc = { s.mc with part := none } := by
  have h : Same (mask [.out, .rg, .chans, .cpHeld, .ev, .flt, .ccnt, .logs, .ra, .inj, .pseq, .reins, .rrUsed, .counts, .tows])
      { s with mc := { s.mc with part := none } } s.unlockEnds := by
    simp [State.unlockEnds]
  exact ⟨(h .tbl rfl : s.tbl = _).symm, (h .mc rfl : ({ s.mc with part := none } : Core) = _).symm⟩

def State.unlockStarts (s : State) (keep : Bool) : State := { s with tbl := s.tbl.unlocked keep }

theorem State.unlock_tbl (s : State) (keep : Bool) : (s.unlock keep).tbl = s.tbl.unlocked keep ∧ (s.unlock keep).mc = { s.mc with part := none } := by
  have h2 : Same (mask [.rg, .ev, .logs]) (s.unlockStarts keep)
      (if s.tbl.phase = .none then s.unlockStarts keep else (s.unlockStarts keep).sayLock) := by
    split <;> simp
  have htbl : s.tbl.unlocked keep = _ := h2 .tbl rfl
  have hmc : s.mc = _ := h2 .mc rfl
  have hdef : s.unlock keep = (if s.tbl.phase = .none then s.unlockStarts keep else (s.unlockStarts keep).sayLock).unlockEnds := rfl
  rw [hdef]
  generalize (if s.tbl.phase = .none then s.unlockStarts keep else (s.unlockStarts keep).sayLock) = u at htbl hmc
  obtain ⟨ht, hm⟩ := u.unlockEnds_tbl
  exact ⟨ht.trans htbl.symm, hm.trans (by rw [← hmc])⟩

theorem State.releaseHere_ends (s : State) :
    s.releaseHere.mc.part = none ∧ s.releaseHere.tbl = s.swapLate.tbl.unlocked false := by
  obtain ⟨h1, h2⟩ := s.swapLate.unlock_tbl false
  have hw : ∀ t : State, ({ t with mc := { t.mc with spareWait := false } } : State).mc.part = t.mc.part ∧
      ({ t with mc := { t.mc with spareWait := false } } : State).tbl = t.tbl := fun _ => ⟨rfl, rfl⟩
  unfold State.releaseHere
  extract_lets t
  rw [(hw t).1, (hw t).2, h1, h2]
  exact ⟨rfl, rfl⟩

/-- A block that does not await its own swap has no swap to make up for. -/
theorem State.swapLate_of_not_awaited {s : State} (h : ∀ p, s.mc.part = some p → p.await.contains s.own = false) : s.swapLate = s := by
  unfold State.swapLate
  split
  · next p hp => rw [if_neg (by rw [h p hp]; simp)]
  · rfl

/-- A block with a part takes a message of the leader. -/
theorem State.wave_of_part {p : LockPart} (h : s.mc.part = some p) (msg : Nat) (ws : List Word) :
    s.wave msg ws = (s.sendDown p msg ws).waveHere msg ws := by
  unfold State.wave
  rw [h]

theorem State.sendDown_same_all (s : State) (p : LockPart) (msg : Nat) (ws : List Word) : Same (mask [.mc]) s (s.sendDown p msg ws) := by simp

theorem State.own_of_same {l : List Fld} (h : Same (mask l) s t) (hl : Fld.ident.bit &&& mask l = 0) : t.own = s.own := by
  have hi : s.ident = t.ident := h .ident hl
  unfold State.own
  rw [hi]

/-- What is left of a cycle at the block that led it. -/
structure LeadEnded (s t : State) : Prop where
  lead : t.mc.lead = none
  part : t.mc.part = none
  phase : t.tbl.phase = .none
  cur : (∀ p, s.mc.part = some p → p.await.contains s.own = false) → t.tbl.cur = s.tbl.cur

/-- The block leads no more. -/
def State.leadless (s : State) : State := { s with mc := { s.mc with lead := none } }

/-- What a cycle that ends notes of the image it applied. -/
def State.leadNotes (s : State) (l : Lead) (st : Nat) (rs : List Word) : State :=
  match l.use with
  | .apply serial =>
    let t := s.sayImg st (rs.headD 0).toNat
    let u := if st = 4 then t.raise 0x7C 0 0 0 0x60 else t
    if st = 0 then { u with mc := { u.mc with serial := some serial } } else u
  | _ => s

theorem State.leadEnd_eq (s : State) (l : Lead) (st : Nat) (ws : List Word) :
    s.leadEnd l st ws = (((if st = 4 then (s.wave 10 []).leadless.freeWords 2 else (ws, (s.wave 10 []).leadless)).2.leadNotes l st
      (if st = 4 then (s.wave 10 []).leadless.freeWords 2 else (ws, (s.wave 10 []).leadless)).1).answerAsk l.who st
      (if st = 4 then (s.wave 10 []).leadless.freeWords 2 else (ws, (s.wave 10 []).leadless)).1) := rfl

theorem State.leadEnd_of_refused (s : State) (l : Lead) (ws : List Word) :
    s.leadEnd l 4 ws = (((s.wave 10 []).leadless.freeWords 2).2.leadNotes l 4 ((s.wave 10 []).leadless.freeWords 2).1).answerAsk
      l.who 4 ((s.wave 10 []).leadless.freeWords 2).1 := by
  rw [State.leadEnd_eq, if_pos rfl]

theorem State.leadEnd_of_not_refused (s : State) (l : Lead) {st : Nat} (ws : List Word) (h : st ≠ 4) :
    s.leadEnd l st ws = ((s.wave 10 []).leadless.leadNotes l st ws).answerAsk l.who st ws := by
  rw [State.leadEnd_eq, if_neg h]

/-- In `t` the tables, the part in a cycle and its lead are as in `s`. -/
structure CycleKept (s t : State) : Prop where
  tbl : t.tbl = s.tbl
  part : t.mc.part = s.mc.part
  lead : t.mc.lead = s.mc.lead

theorem CycleKept.trans (h : CycleKept s t) (h' : CycleKept t u) : CycleKept s u :=
  ⟨h'.tbl.trans h.tbl, h'.part.trans h.part, h'.lead.trans h.lead⟩

theorem CycleKept.of_same {l : List Fld} (h : Same (mask l) s t) (hm : Fld.mc.bit &&& mask l = 0) (ht : Fld.tbl.bit &&& mask l = 0) :
    CycleKept s t :=
  have hmc : s.mc = t.mc := h .mc hm
  ⟨(h .tbl ht : s.tbl = t.tbl).symm, congrArg Core.part hmc.symm, congrArg Core.lead hmc.symm⟩

theorem State.setSerial_kept (s : State) (n : Nat) : CycleKept s { s with mc := { s.mc with serial := some n } } := ⟨rfl, rfl, rfl⟩

theorem State.leadNotes_kept (s : State) (l : Lead) (st : Nat) (rs : List Word) : CycleKept s (s.leadNotes l st rs) := by
  unfold State.leadNotes
  split
  · next serial hserial =>
    extract_lets t u
    have hu : Same (mask [.rg, .ev, .logs, .flt]) s u := by
      dsimp only [u, t]
      split <;> simp
    split
    · exact (CycleKept.of_same hu rfl rfl).trans (u.setSerial_kept serial)
    · exact .of_same hu rfl rfl
  · exact ⟨rfl, rfl, rfl⟩

theorem State.answerAsk_tbl (s : State) (who : Asker) (st : Nat) (ws : List Word) : (s.answerAsk who st ws).tbl = s.tbl :=
  ((State.answerAsk_same s who st ws (μ := mask [.out, .rg, .ev, .inj, .pseq, .counts, .logs, .i2c, .mc]) (by simp)).mpr (Same.refl _ s)
    .tbl rfl : s.tbl = _).symm

/-- The end of a cycle at its leader: its own release, then the answer. -/
theorem State.leadEnd_after (s : State) (l : Lead) (st : Nat) (ws : List Word) :
    (s.leadEnd l st ws).tbl = (s.wave 10 []).tbl ∧ (s.leadEnd l st ws).mc.part = (s.wave 10 []).mc.part ∧
      (s.leadEnd l st ws).mc.lead = none := by
  generalize hv : s.wave 10 [] = v
  have hless : v.leadless.tbl = v.tbl ∧ v.leadless.mc.part = v.mc.part ∧ v.leadless.mc.lead = none := ⟨rfl, rfl, rfl⟩
  have step : ∀ (u : State) rs, u.tbl = v.tbl ∧ u.mc.part = v.mc.part ∧ u.mc.lead = none →
      ((u.leadNotes l st rs).answerAsk l.who st rs).tbl = v.tbl ∧ ((u.leadNotes l st rs).answerAsk l.who st rs).mc.part = v.mc.part ∧
        ((u.leadNotes l st rs).answerAsk l.who st rs).mc.lead = none := by
    intro u rs ⟨htbl, hpart, hlead⟩
    have hk := u.leadNotes_kept l st rs
    obtain ⟨hp, hl⟩ := (u.leadNotes l st rs).answerAsk_part l.who st rs
    exact ⟨(State.answerAsk_tbl _ _ _ _).trans (hk.tbl.trans htbl), hp.trans (hk.part.trans hpart), hl (hk.lead.trans hlead)⟩
  by_cases h4 : st = 4
  · subst h4
    rw [State.leadEnd_of_refused, hv]
    have hf : Same (mask [.free]) v.leadless (v.leadless.freeWords 2).2 := by simp
    have hk := CycleKept.of_same hf rfl rfl
    exact step _ _ ⟨hk.tbl.trans hless.1, hk.part.trans hless.2.1, hk.lead.trans hless.2.2⟩
  · rw [State.leadEnd_of_not_refused _ _ _ h4, hv]
    exact step _ _ hless

theorem State.leadEnd_ended {p : LockPart} (hp : s.mc.part = some p) (l : Lead) (st : Nat) (ws : List Word) :
    LeadEnded s (s.leadEnd l st ws) := by
  obtain ⟨htbl, hpart, hlead⟩ := s.leadEnd_after l st ws
  have hs1 : s.wave 10 [] = (s.sendDown p 10 []).releaseHere := s.wave_of_part hp 10 []
  obtain ⟨hrpart, hrtbl⟩ := (s.sendDown p 10 []).releaseHere_ends
  rw [hs1] at htbl hpart
  refine ⟨hlead, hpart.trans hrpart, by rw [htbl, hrtbl]; rfl, fun h => ?_⟩
  have hown := State.own_of_same (s.sendDown_same_all p 10 []) rfl
  have hdtbl : s.tbl = (s.sendDown p 10 []).tbl := s.sendDown_same_all p 10 [] .tbl rfl
  have hlate : (s.sendDown p 10 []).swapLate = s.sendDown p 10 [] := by
    refine State.swapLate_of_not_awaited fun q hq => ?_
    rw [(s.sendDown_still p 10 []).part] at hq
    rw [hown]
    exact h q hq
  rw [htbl, hrtbl, hlate, hdtbl]
  rfl

end

end Sys2Proof.Machine

namespace Sys2Proof.Machine

/-! ## What sending leaves of the basins -/

/-- In `t` every basin is as in `s`. -/
def Berthed (s t : State) : Prop := ∀ p, (t.link p).basin = (s.link p).basin

section
variable {s t u : State}

theorem Berthed.refl (s : State) : Berthed s s := fun _ => rfl
theorem Berthed.trans (h : Berthed s t) (h' : Berthed t u) : Berthed s u := fun p => (h' p).trans (h p)

theorem Berthed.of_same {l : List Fld} (h : Same (mask l) s t) (hl : Fld.links.bit &&& mask l = 0) : Berthed s t :=
  fun p => congrArg (fun m => (SMap.get (fun _ => Link.reset) m p).basin) (h .links hl).symm

theorem Berthed.of_hushed (h : Hushed s t) : Berthed s t := fun p => (congrArg Link.basin (h p) :)

theorem Berthed.foldl {α : Type} {f : State → α → State} (hf : ∀ t x, Berthed t (f t x)) (l : List α) (s : State) :
    Berthed s (l.foldl f s) := foldl_keeps Berthed.refl Berthed.trans f hf l s

theorem Berthed.modLink (s : State) (p : Nat) {f : Link → Link} (hf : ∀ l : Link, (f l).basin = l.basin) :
    Berthed s (s.modLink p f) := by
  intro q
  by_cases hq : q = p
  · subst hq
    rw [State.link_modLink_same, hf]
  · rw [State.link_modLink_other _ _ hq]

theorem State.driveFlit_berthed (s : State) (p team tag : Nat) (body : BitVec 2048) (bad fec : Bool) :
    Berthed s (s.driveFlit p team tag body bad fec) := by
  have hp : Berthed s (s.modLink p Link.pass) := .of_hushed (by simp)
  unfold State.driveFlit
  dsimp only
  split
  · exact hp.trans (.of_hushed (by simp))
  · refine hp.trans ?_
    generalize hu : ((((s.modLink p Link.pass).drive _).sendSlot team _).sendBody team body fec) = v
    have hv : Hushed (s.modLink p Link.pass) v := by
      rw [← hu]
      simp
    have hdue : Berthed v (v.slotDue team).2 := .of_same (l := [.phys]) (by simp) rfl
    refine (Berthed.of_hushed hv).trans ?_
    unfold State.spareSlot
    dsimp only
    split
    · exact hdue.trans (.of_hushed (by simp))
    · exact hdue

theorem State.transmit_berthed (s : State) (p core fseq : Nat) (body : BitVec 2048) :
    Berthed s (s.transmit p core fseq body) := by
  have h1 : Berthed s (s.takeLnkInj p).2 := .of_same (l := [.rg]) (by simp) rfl
  have h2 : Berthed (s.takeLnkInj p).2 ((s.takeLnkInj p).2.nextTeam p).2 := Berthed.modLink _ p (by intro l; rfl)
  have h3 : Berthed ((s.takeLnkInj p).2.nextTeam p).2 (((s.takeLnkInj p).2.nextTeam p).2.tagBack p).2 := .of_hushed (by simp)
  exact (h1.trans h2).trans (h3.trans (State.driveFlit_berthed _ _ _ _ _ _ _))

theorem State.sendSeq_berthed (s : State) (p core : Nat) (body : BitVec 2048) : Berthed s (s.sendSeq p core body) := by
  unfold State.sendSeq
  extract_lets l wait s1 acc more s2 s3
  have h1 : Berthed s s1 := Berthed.modLink s p (by intro l; rfl)
  have h2 : Berthed s s2 := by
    dsimp only [s2]
    split
    · exact h1.trans (.of_same (l := [.cmap]) (by simp) rfl)
    · exact h1
  have h3 : Berthed s s3 := by
    dsimp only [s3]
    split
    · exact h2.trans (.of_same (l := [.mons]) (by simp) rfl)
    · exact h2
  split
  · exact h3
  · exact h3.trans (State.transmit_berthed _ _ _ _ _)

theorem State.abandonRest_berthed (s : State) (h : Held) : Berthed s (s.abandonRest h) := by
  have hsend (n q v : Nat) (tow : Option Nat) : Berthed s
      ((List.range n).foldl (fun t i => t.sendData q v tow false (decide (i + 1 = n)) true 0) s) :=
    Berthed.foldl (fun t _ => t.sendSeq_berthed _ _ _) _ s
  unfold State.abandonRest
  split
  · exact .refl s
  · next q v tow _ =>
    split
    · exact .refl s
    · extract_lets n t
      have ht : Berthed s t := by
        dsimp only [t]
        split
        · exact hsend n q v tow
        · exact hsend n q v tow
        · exact hsend n q v tow
        · exact .refl s
      split
      · exact ht
      · exact ht.trans (.of_same (l := [.rg]) (by simp) rfl)

theorem State.discard1_berthed (s : State) (h : Held) : Berthed s (s.discard1 h) :=
  (Berthed.of_same (l := [.counts]) (by simp) rfl : Berthed s (s.countDrop h.pkt)).trans (State.abandonRest_berthed _ h)

/-- What discarding does at one port leaves of the basins: its own without what is discarded. -/
theorem State.discardPort_basin (s : State) (which : Held → Bool) (p q : Nat) :
    (((s.link p).basin.foldl (fun u h =>
      if which h then
        (u.modLink p (fun l => { l with
          freed := if h.share < 6 then setAt l.freed h.share ((l.freed.getD h.share 0 + 1) % 256) else l.freed })).discard1 h
      else u) (s.modLink p (fun l => { l with basin := l.basin.filter (fun h => !(which h)) }))).link q).basin =
      if q = p then (s.link q).basin.filter (fun h => !(which h)) else (s.link q).basin := by
  have hfold := Berthed.foldl (f := fun (u : State) h =>
      if which h then
        (u.modLink p (fun l => { l with
          freed := if h.share < 6 then setAt l.freed h.share ((l.freed.getD h.share 0 + 1) % 256) else l.freed })).discard1 h
      else u) (fun u h => by
        split
        · exact (Berthed.modLink u p (by intro l; rfl)).trans (State.discard1_berthed _ h)
        · exact .refl u) (s.link p).basin (s.modLink p (fun l => { l with basin := l.basin.filter (fun h => !(which h)) }))
  rw [hfold q]
  split
  · next hq => subst hq; rw [State.link_modLink_same]
  · next hq => rw [State.link_modLink_other _ _ hq]

/-- Nothing that is discarded stays in a basin. -/
theorem State.discardHeld_basin (s : State) (which : Held → Bool) {p : Nat} (hp : p < 12) :
    ∀ h ∈ ((s.discardHeld which).link p).basin, which h = false := by
  unfold State.discardHeld
  extract_lets s1 s2 out
  have h2 : Berthed s1 s2 := by
    refine Berthed.foldl (fun t x => ?_) _ _
    obtain ⟨e, x⟩ := x
    dsimp only
    generalize hu : State.towDrained _ e = u
    have htu : Berthed t u := .of_same (l := [.tows]) (by rw [← hu]; simp) rfl
    exact htu.trans (Berthed.foldl (fun u h => u.discard1_berthed h) _ _)
  have h3 : Berthed s2 { s2 with eject := s2.eject.filter (fun h => !(which h)), inj := s2.inj.filter (fun h => !(which h)) } :=
    .of_same (l := [.eject, .inj]) (by simp) rfl
  have h4 := (h2.trans h3).trans (Berthed.foldl (fun t h => t.discard1_berthed h) out _)
  rw [h4 p]
  clear_value out s2
  have hports : ∀ (l : List Nat) (t : State), (p ∈ l ∨ ∀ h ∈ (t.link p).basin, which h = false) →
      ∀ h ∈ ((l.foldl (fun t p => (t.link p).basin.foldl (fun u h =>
        if which h then
          (u.modLink p (fun l => { l with
            freed := if h.share < 6 then setAt l.freed h.share ((l.freed.getD h.share 0 + 1) % 256) else l.freed })).discard1 h
        else u) (t.modLink p (fun l => { l with basin := l.basin.filter (fun h => !(which h)) }))) t).link p).basin, which h = false := by
    intro l
    induction l with
    | nil => intro t ht; exact ht.resolve_left (by simp)
    | cons q l ih =>
      intro t ht
      refine ih _ ?_
      by_cases hl : p ∈ l
      · exact .inl hl
      · refine .inr fun h hh => ?_
        rw [State.discardPort_basin] at hh
        split at hh
        · simpa using (List.mem_filter.mp hh).2
        · next hq =>
          refine ht.resolve_left (fun hm => ?_) h hh
          rcases List.mem_cons.mp hm with hm | hm
          · exact hq hm
          · exact hl hm
  exact hports _ s (.inl (List.mem_range.mpr hp))

/-- Nothing that is discarded stays at the injection point. -/
theorem State.discardHeld_inj (s : State) (which : Held → Bool) : ∀ h ∈ (s.discardHeld which).inj, which h = false := by
  unfold State.discardHeld
  extract_lets s1 s2 out
  clear_value out s2
  have hkeep (l : List Held) (v : State) : (l.foldl (fun t h => t.discard1 h) v).inj = v.inj := by
    refine foldl_keeps (R := fun s t : State => t.inj = s.inj) (fun _ => rfl) (fun h h' => by exact h'.trans h) _
      (fun t h => ?_) l v
    exact ((State.discard1_same t h (μ := mask [.out, .rg, .tows, .counts, .links, .phys, .mons, .cmap]) (by simp)).mpr
      (Same.refl _ _) .inj rfl).symm
  intro h hh
  rw [hkeep out] at hh
  simpa using (List.mem_filter.mp hh).2

end

/-! ## The limits of the lock cycle (R287 to R290) -/

theorem State.pumpTree_kept (s : State) : CycleKept s s.pumpTree :=
  ⟨((State.pumpTree_same s (μ := mask [.rg, .inj, .pseq, .counts, .mc]) (by simp)).mpr (Same.refl _ s) .tbl rfl : s.tbl = _).symm,
    s.pumpTree_still.part, s.pumpTree_still.lead⟩

/-- Settles O26: the leader's end of a cycle releases its own block, unlocking alone keeps the bank, and the end of a bank's hold
discards what is held of its epoch. -/
theorem lockCycleLimits : Obligations.LockCycleLimits := by
  have hend (s : State) (l : Lead) (p : LockPart) (st : Nat) (ws : List Word) (hp : s.mc.part = some p) :
      (s.leadEnd l st ws).pumpTree.mc.lead = none ∧ (s.leadEnd l st ws).pumpTree.mc.part = none ∧
        (s.leadEnd l st ws).pumpTree.tbl.phase = .none ∧
        (p.await.contains s.own = false → (s.leadEnd l st ws).pumpTree.tbl.cur = s.tbl.cur) := by
    obtain ⟨hlead, hpart, hphase, hcur⟩ := s.leadEnd_ended hp l st ws
    obtain ⟨ktbl, kpart, klead⟩ := (s.leadEnd l st ws).pumpTree_kept
    refine ⟨klead.trans hlead, kpart.trans hpart, by rw [ktbl, hphase], fun hown => ?_⟩
    rw [ktbl]
    refine hcur fun q hq => ?_
    rw [← Option.some.inj (hp.symm.trans hq)]
    exact hown
  unfold Obligations.LockCycleLimits
  refine ⟨fun s l p ha hl hp hph hat hfb hown => answers_iff.mpr ?_, fun s ha hl hph hat => answers_iff.mpr ?_,
    fun s l p ha hl hp hw hat => answers_iff.mpr ?_, fun s ha ho hat => answers_iff.mpr ?_⟩
  · show Meets (execLockDrainTimeout s) _
    unfold execLockDrainTimeout
    rw [hl, hp]
    dsimp only
    refine .run ha (by simp [hph, hat]) ?_
    have hfb' : ¬ ((s.cleared.reg 0x320).toNat.testBit 16 = true ∧ ¬ p.drains = true) := fun h => by
      rw [show (s.cleared.reg 0x320).toNat.testBit 16 = false from hfb] at h
      exact absurd h.1 (by simp)
    rw [if_neg hfb']
    obtain ⟨hlead, hpart, hphase, hcur⟩ := hend s.cleared l p 6 [] hp
    exact ⟨hlead, hpart, hphase, hcur hown⟩
  · show Meets (execLockSwapTimeout s) _
    refine .run ha (by simp [hl, hph, hat]) ?_
    obtain ⟨htbl, hmc⟩ := s.cleared.unlock_tbl true
    have hother : (s.cleared.tbl.unlocked true).other = s.tbl.other := if_neg (by simp)
    generalize s.cleared.unlock true = u at htbl hmc
    exact ⟨(congrArg Tables.phase htbl :), (congrArg Tables.other htbl :).trans hother, (congrArg Tables.cur htbl :), (congrArg Core.part hmc :)⟩
  · show Meets (execLockReleaseTimeout s) _
    unfold execLockReleaseTimeout
    rw [hl, hp]
    dsimp only
    refine .run ha (by simp [hw, hat]) ?_
    obtain ⟨hlead, hpart, hphase, -⟩ := hend s.cleared l p 0 (s.cleared.leadWords l p) hp
    exact ⟨hlead, hpart, hphase⟩
  · show Meets (execEpochHoldExpire s) _
    refine .run ha (by simp [ho, hat]) ?_
    generalize hu : State.discardHeld _ _ = u
    have htbl : u.tbl = { s.tbl with other := .idle } := by
      rw [← hu]
      exact ((State.discardHeld_same _ _ (μ := mask [.out, .rg, .inj, .eject, .tows, .counts, .links, .phys, .mons, .cmap])
        (by simp)).mpr (Same.refl _ _) .tbl rfl).symm
    have hkept (h : Held) (hh : decide (h.pkt.epoch ≠ s.cleared.tbl.cur) = false) : h.pkt.epoch = s.tbl.cur :=
      not_not.mp (of_decide_eq_false hh)
    have hinj : ∀ h ∈ u.inj, h.pkt.epoch = s.tbl.cur := by
      rw [← hu]
      exact fun h hh => hkept h (State.discardHeld_inj _ _ h hh)
    have hej : ∀ h ∈ u.eject, h.pkt.epoch = s.tbl.cur := by
      rw [← hu]
      exact fun h hh => hkept h (State.discardHeld_eject _ _ h hh)
    have hbas : ∀ p, p < 12 → ∀ h ∈ (u.link p).basin, h.pkt.epoch = s.tbl.cur := by
      rw [← hu]
      exact fun p hp h hh => hkept h (State.discardHeld_basin _ _ hp h hh)
    exact ⟨htbl, hinj, hej, hbas⟩

end Sys2Proof.Machine

namespace Sys2Proof.Machine

/-! ## The turns of a cycle at a block -/

/-- The core but for its messages and its part in a cycle. -/
def Core.unparted (c : Core) : Core := { c.still with part := none }

section
variable {s t u : State}

/-- In `t` the core is as in `s`, but for its messages and its part in a cycle. -/
def Steady (s t : State) : Prop := t.mc.unparted = s.mc.unparted

theorem Steady.refl (s : State) : Steady s s := rfl
theorem Steady.trans (h : Steady s t) (h' : Steady t u) : Steady s u := Eq.trans h' h
theorem Steady.of_still (h : Stillness s t) : Steady s t := by
  show ({ t.mc.still with part := none } : Core) = { s.mc.still with part := none }
  rw [show t.mc.still = s.mc.still from h]
theorem Steady.of_same {l : List Fld} (h : Same (mask l) s t) (hl : Fld.mc.bit &&& mask l = 0) : Steady s t :=
  .of_still (.of_same h hl)

theorem Steady.lead (h : Steady s t) : t.mc.lead = s.mc.lead := (congrArg Core.lead h :)
theorem Steady.mb (h : Steady s t) : t.mc.mb = s.mc.mb := (congrArg Core.mb h :)
theorem Steady.cycle (h : Steady s t) : t.mc.cycle = s.mc.cycle := (congrArg Core.cycle h :)

theorem State.modPart_steady (s : State) (f : LockPart → LockPart) : Steady s (s.modPart f) := rfl
theorem State.modPart_part (s : State) (f : LockPart → LockPart) : (s.modPart f).mc.part = s.mc.part.map f := rfl
theorem State.modPart_tbl (s : State) (f : LockPart → LockPart) : (s.modPart f).tbl = s.tbl := rfl

theorem Stillness.part_of_same {l : List Fld} (h : Same (mask l) s t) (hl : Fld.mc.bit &&& mask l = 0) : t.mc.part = s.mc.part :=
  (Stillness.of_same h hl).part

/-! ### A turn that ends -/

/-- A part that reported what it gathered. -/
def LockPart.turned (p : LockPart) : LockPart := if p.wave = 0 ∨ p.await ≠ [] then p else { p with wave := 0 }

theorem LockPart.turned_of_stops {p : LockPart} (h : p.wave = 0 ∨ p.await ≠ []) : p.turned = p := if_pos h

theorem LockPart.turned_of_answered {p : LockPart} (hw : p.wave ≠ 0) (ha : p.await = []) : p.turned = { p with wave := 0 } :=
  if_neg (not_or.mpr ⟨hw, not_not.mpr ha⟩)

/-- A turn stops where no wave runs, or one is still answered. -/
theorem State.treeTurn_stops {n : Nat} (h : ∀ p, s.mc.part = some p → p.wave = 0 ∨ p.await ≠ []) : s.treeTurn n = s := by
  cases n with
  | zero => rfl
  | succ n =>
    unfold State.treeTurn
    split
    · rfl
    · next p hp => rw [if_pos (h p hp)]

/-- A turn of a block that leads: its next step, and the turns after it. -/
theorem State.treeTurn_lead {n : Nat} {p : LockPart} {l : Lead} (hp : s.mc.part = some p) (hw : p.wave ≠ 0) (ha : p.await = [])
    (hl : s.mc.lead = some l) : s.treeTurn (n + 1) = (s.leadStep l p).treeTurn n := by
  rw [State.treeTurn, hp]
  dsimp only
  rw [if_neg (by tauto), hl]

theorem State.reportUp_part (s : State) (p : LockPart) : (s.reportUp p).mc.part = s.mc.part.map (fun p => { p with wave := 0 }) := rfl

/-- A block that does not lead reports once. -/
theorem State.treeTurn_member {n : Nat} (hl : s.mc.lead = none) :
    Steady s (s.treeTurn (n + 1)) ∧ (s.treeTurn (n + 1)).tbl = s.tbl ∧
      (s.treeTurn (n + 1)).mc.part = s.mc.part.map LockPart.turned := by
  by_cases h : ∀ p, s.mc.part = some p → p.wave = 0 ∨ p.await ≠ []
  · rw [State.treeTurn_stops h]
    refine ⟨.refl s, rfl, ?_⟩
    cases hp : s.mc.part with
    | none => rfl
    | some p => exact congrArg some (if_pos (h p hp)).symm
  · push Not at h
    obtain ⟨p, hp, hw, ha⟩ := h
    have hstep : s.treeTurn (n + 1) = s.reportUp p := by
      rw [State.treeTurn, hp]
      dsimp only
      rw [if_neg (by tauto), hl]
    rw [hstep]
    refine ⟨rfl, rfl, ?_⟩
    rw [State.reportUp_part, hp]
    exact congrArg some (if_neg (by tauto)).symm

/-- Only a block that leads, with no wave running, seals in its turn. -/
theorem State.leadSeal_stops (h : s.mc.lead = none ∨ ∀ p, s.mc.part = some p → p.wave ≠ 0) : s.leadSeal = s := by
  unfold State.leadSeal
  split
  · next l p hl hp =>
    rw [if_neg]
    intro hs
    rcases h with h | h
    · rw [hl] at h
      cases h
    · exact h p hp hs.1
  · rfl

/-- What goes out after a turn leaves the part and the tables. -/
theorem State.treeGo_of_stops (h : s.mc.lead = none ∨ ∀ p, s.mc.part = some p → p.wave ≠ 0) :
    Stillness (s.treeTurn 8) s.treeGo ∧ s.treeGo.tbl = (s.treeTurn 8).tbl := by
  unfold State.treeGo
  rw [State.leadSeal_stops h]
  exact ⟨State.pumpTree_still _, (State.pumpTree_kept _).tbl⟩

/-- The turn of a block that does not lead. -/
theorem State.treeGo_member (hl : s.mc.lead = none) :
    Steady s s.treeGo ∧ s.treeGo.tbl = s.tbl ∧ s.treeGo.mc.part = s.mc.part.map LockPart.turned := by
  obtain ⟨hstill, htbl⟩ := State.treeGo_of_stops (.inl hl)
  obtain ⟨hs, ht, hp⟩ := State.treeTurn_member (n := 7) hl
  exact ⟨hs.trans (.of_still hstill), htbl.trans ht, hstill.part.trans hp⟩

/-! ### What the waves do here -/

/-- The part of `t` has asked the children of `p` in `wave`. -/
def Asks (t : State) (p : LockPart) (wave : Nat) : Prop :=
  ∃ q, t.mc.part = some q ∧ q.children = p.children ∧ q.await = p.children ∧ q.wave = wave ∧ q.last = p.last

theorem Asks.of_part {p : LockPart} {wave : Nat} (h : Asks t p wave) (hu : u.mc.part = t.mc.part) : Asks u p wave := by
  obtain ⟨q, hq, hr⟩ := h
  exact ⟨q, hu.trans hq, hr⟩

theorem State.gather_asks {p : LockPart} (hp : s.mc.part = some p) (wave : Nat) (a : TreeAgg) : Asks (s.gather wave a) p wave := by
  unfold State.gather Asks
  rw [State.modPart_part, hp]
  exact ⟨_, rfl, rfl, rfl, rfl, rfl⟩

/-- A turn stops where children are awaited. -/
theorem Asks.stops {p : LockPart} {wave n : Nat} (h : Asks s p wave) (hp : p.children ≠ []) : s.treeTurn n = s := by
  obtain ⟨q, hq, -, ha, -⟩ := h
  refine State.treeTurn_stops fun r hr => .inr ?_
  rw [← Option.some.inj (hq.symm.trans hr), ha]
  exact hp

/-- What a message leaves when it goes down before it acts here. -/
theorem State.sendDown_kept (s : State) (p : LockPart) (msg : Nat) (ws : List Word) :
    CycleKept s (s.sendDown p msg ws) ∧ Stillness s (s.sendDown p msg ws) ∧ (s.sendDown p msg ws).now = s.now :=
  have h := s.sendDown_still p msg ws
  have hs := s.sendDown_same_all p msg ws
  ⟨⟨(hs .tbl rfl : s.tbl = _).symm, h.part, h.lead⟩, h, (hs .now rfl : s.now = _).symm⟩

theorem State.sayLock_kept (s : State) : CycleKept s s.sayLock ∧ Stillness s s.sayLock := by
  have h : Same (mask [.rg, .ev, .logs]) s s.sayLock := by simp
  exact ⟨.of_same h rfl rfl, .of_same h rfl⟩

/-- The tables of a block with a staging, locked at `now`. -/
def Tables.locked (t : Tables) (now : Nat) : Tables := if t.phase = .staged then { t with phase := .locked, lockAt := now } else t

theorem State.lockHere_locks (s : State) : s.lockHere.tbl = s.tbl.locked s.now ∧ Stillness s s.lockHere := by
  unfold State.lockHere Tables.locked
  split
  · obtain ⟨hk, hs⟩ := ({ s with tbl := { s.tbl with phase := .locked, lockAt := s.now } } : State).sayLock_kept
    exact ⟨hk.tbl, hs⟩
  · exact ⟨rfl, rfl⟩

theorem State.wave5_locks {p : LockPart} (hp : s.mc.part = some p) (ws : List Word) :
    (s.wave 5 ws).tbl = s.tbl.locked s.now ∧ Stillness s (s.wave 5 ws) := by
  rw [State.wave_of_part hp]
  obtain ⟨hk, hs, hnow⟩ := s.sendDown_kept p 5 ws
  obtain ⟨htbl, hs'⟩ := (s.sendDown p 5 ws).lockHere_locks
  exact ⟨htbl.trans (by rw [hk.tbl, hnow]), hs.trans hs'⟩

/-- The packet counts that a block answers to COUNT. -/
def LockPart.counted (p : LockPart) (n : Nat × Nat × Nat) : LockPart := { p with last := some n }

theorem State.countHere_asks {p : LockPart} (hp : s.mc.part = some p) :
    ∃ n, Asks s.countHere (p.counted n) 6 ∧ s.countHere.tbl = s.tbl ∧ Steady s s.countHere := by
  unfold State.countHere
  rw [hp]
  dsimp only
  exact ⟨_, State.gather_asks (by rw [State.modPart_part, hp]; rfl) _ _, rfl, rfl⟩

theorem State.wave6_asks {p : LockPart} (hp : s.mc.part = some p) (ws : List Word) :
    ∃ n, Asks (s.wave 6 ws) (p.counted n) 6 ∧ (s.wave 6 ws).tbl = s.tbl ∧ Steady s (s.wave 6 ws) := by
  rw [State.wave_of_part hp]
  obtain ⟨hk, hs, -⟩ := s.sendDown_kept p 6 ws
  obtain ⟨n, ha, htbl, hst⟩ := State.countHere_asks (hk.part.trans hp)
  exact ⟨n, ha, htbl.trans hk.tbl, (Steady.of_still hs).trans hst⟩

/-! ### Steps of the leader -/

/-- All blocks are ready: the leader locks its own and asks for the counts. -/
theorem State.leadStep_locks (s : State) {l : Lead} {p : LockPart} (hw : p.wave = 2) (hr : p.agg.refused = 0) (hs : p.agg.silent = 0)
    (hu : l.use = .swap) : s.leadStep l p = (s.wave 5 []).wave 6 [] := by
  unfold State.leadStep
  dsimp only
  rw [if_pos hw, if_neg (by simp [hr, State.leadStale, hu]), if_neg (by simp [Lead.bears, hu, hs])]

/-- All blocks have swapped: the cycle ends. -/
theorem State.leadStep_ends (s : State) (l : Lead) {p : LockPart} (hw : p.wave = 8) (hs : p.agg.silent = 0) :
    s.leadStep l p = s.leadEnd l 0 (s.leadWords l p) := by
  unfold State.leadStep
  dsimp only
  rw [if_neg (by simp [hw]), if_neg (by simp [hw]), if_neg (by simp [hs])]

/-! ### Packets of the tree -/

/-- A row of MB_REQ packets does its body for one that comes. -/
theorem Meets.mgtRow {i c m : Nat} {h : Held} (hc : MgtComes s i h c m) {sel : Nat → Nat → Bool} (hsel : sel c m = true)
    {body : State → Held → State} {P : State → Prop} (hP : P ((body (s.accepted i h) h).ended s.pending)) :
    Meets (Machine.mgtRow i sel body s) P := by
  obtain ⟨ha, hop, hclass, hmsg, htaken, hnew⟩ := hc
  have hfind : (s.accepted i h).mc.answered.find?
      (fun a => decide (a.src = h.pkt.src) && decide (a.mseq = qf h.pkt.h7 0 32)) = none := by
    rw [← (ha.same .mc rfl : s.mc = (s.accepted i h).mc), List.find?_eq_none]
    intro a hm
    simpa using hnew a hm
  unfold Machine.mgtRow
  have hberth := ha.berth (which := fun o => decide (o = 0xC1)) (by simp [hop])
  refine .run ha.1 ?_ ?_
  · rw [hberth, ha.2.1]
    dsimp only
    rw [hclass, hmsg, hsel]
    rfl
  · rw [ha.take, if_neg (by simp [htaken]), hfind]
    exact hP

/-- What a message of the tree leaves when it has been taken and answered. -/
theorem Accepts.replied {i : Nat} {h : Held} (ha : Accepts s i h) (ws : List Word) :
    Stillness s ((s.accepted i h).mgtReply h.pkt ws) ∧
      Same (mask [.out, .eject, .rg, .counts, .inj, .pseq, .mc]) s ((s.accepted i h).mgtReply h.pkt ws) :=
  ⟨(Stillness.of_same ha.same rfl).trans (State.mgtReply_still _ _ _),
    (State.mgtReply_same _ _ _ (by simp)).mpr (ha.same.mono (by simp))⟩

end

/-! ## Reports (R288) -/

/-- A part with a child's report gathered. -/
def LockPart.joined (q : LockPart) (src : Nat) (a : TreeAgg × Bool) : LockPart :=
  { q with agg := q.agg.add a.1, drains := q.drains || a.2, await := dropFirst (fun x => decide (x = src)) q.await }

-- By an equation of functions, as in `State.treeUp_same`; of a property, so that the kernel does not look into the answer.
theorem State.treeUp_joins {s t : State} {h : Held} {q : LockPart} {wave : Nat} {P : State → Prop} (ht : s.mgtReply h.pkt [] = t)
    (hp : t.mc.part = some q) (hc : q.cycle = BitVec.ofNat 16 h.pkt.h5.toNat) (hl : q.leader = BitVec.ofNat 18 h.pkt.h6.toNat)
    (hw : q.wave = wave) (hsrc : h.pkt.src ∈ q.await)
    (hP : P ((t.modPart (fun q => q.joined h.pkt.src (aggOf (payWords h.pkt.pay)))).treeGo)) : P (s.treeUp h wave) := by
  have val_of_eq {f g : State → Held → Nat → State} (hfg : f = g) (hg : P (g s h wave)) : P (f s h wave) := hfg ▸ hg
  refine val_of_eq (f := State.treeUp) (by delta State.treeUp; exact rfl) ?_
  extract_lets p s1
  have hs1 : s1 = t := ht
  clear_value s1
  subst hs1
  rw [hp]
  dsimp only
  have hin : q.await.contains p.src = true := by simpa using hsrc
  rw [if_pos ⟨hc, hl, hw, hin⟩]
  generalize ha : aggOf (payWords p.pay) = a
  rw [show aggOf (payWords h.pkt.pay) = a from ha] at hP
  obtain ⟨a, d⟩ := a
  exact hP

/-- What gathering a report of `src` comes to in `v`, from `t`, at a part `q`. -/
structure Joined (t v : State) (q : LockPart) (src : Nat) (a : TreeAgg × Bool) : Prop where
  part : t.mc.lead = none ∨ (q.joined src a).await ≠ [] → v.mc.part = some (q.joined src a).turned
  locks : ∀ l, (q.joined src a).await = [] → t.mc.lead = some l → l.use = .swap → q.wave = 2 → (q.joined src a).agg.refused = 0 →
    (q.joined src a).agg.silent = 0 → q.children ≠ [] → v.tbl = t.tbl.locked t.now
  ends : ∀ l, (q.joined src a).await = [] → t.mc.lead = some l → q.wave = 8 → (q.joined src a).agg.silent = 0 →
    v.mc.lead = none ∧ v.mc.part = none ∧ v.tbl.phase = .none

theorem State.go_gathers {j : State} {p : LockPart} (hp : j.mc.part = some p) (hw : p.wave ≠ 0) :
    (j.mc.lead = none ∨ p.await ≠ [] → j.treeGo.mc.part = some p.turned) ∧
    (∀ l, p.await = [] → j.mc.lead = some l → l.use = .swap → p.wave = 2 → p.agg.refused = 0 → p.agg.silent = 0 → p.children ≠ [] →
      j.treeGo.tbl = j.tbl.locked j.now) ∧
    (∀ l, p.await = [] → j.mc.lead = some l → p.wave = 8 → p.agg.silent = 0 →
      j.treeGo.mc.lead = none ∧ j.treeGo.mc.part = none ∧ j.treeGo.tbl.phase = .none) := by
  obtain ⟨hstill, htbl⟩ := State.treeGo_of_stops (s := j) (.inr fun r hr => by
    rw [← Option.some.inj (hp.symm.trans hr)]
    exact hw)
  refine ⟨fun h => ?_, fun l he hl huse hw2 href hsil hkids => ?_, fun l he hl hw8 hsil => ?_⟩
  · rcases h with hl | hne
    · rw [(State.treeGo_member hl).2.2, hp]
      rfl
    · have hstop : j.treeTurn 8 = j := State.treeTurn_stops fun r hr => by
        rw [← Option.some.inj (hp.symm.trans hr)]
        exact .inr hne
      rw [hstill.part, hstop, hp, LockPart.turned_of_stops (.inr hne)]
  · obtain ⟨htbl5, hst5⟩ := State.wave5_locks hp []
    obtain ⟨n, hasks, htbl6, -⟩ := State.wave6_asks (hst5.part.trans hp) []
    rw [htbl, State.treeTurn_lead hp hw he hl, j.leadStep_locks hw2 href hsil huse, hasks.stops hkids, htbl6, htbl5]
  · obtain ⟨hlead, hpart, hphase, -⟩ := State.leadEnd_ended hp l 0 (j.leadWords l p)
    rw [State.treeTurn_lead hp hw he hl, j.leadStep_ends l hw8 hsil, State.treeTurn_stops (by rw [hpart]; simp)] at hstill htbl
    exact ⟨hstill.lead.trans hlead, hstill.part.trans hpart, by rw [htbl, hphase]⟩

theorem State.joined_gathers {t : State} {q : LockPart} (hp : t.mc.part = some q) (src : Nat) (a : TreeAgg × Bool) (hw : q.wave ≠ 0) :
    Joined t (t.modPart (fun q => q.joined src a)).treeGo q src a := by
  have hpart : (t.modPart (fun q => q.joined src a)).mc.part = some (q.joined src a) := by
    rw [State.modPart_part, hp]
    rfl
  obtain ⟨hg, hlock, hend⟩ := State.go_gathers hpart hw
  exact ⟨hg, hlock, hend⟩

/-- Settles O24: a report joins the part; the turn that follows stops while others are awaited, reports up where the block does not
lead, and takes the leader's next step where it does. -/
theorem reportsGatherUpTheTree : Obligations.ReportsGatherUpTheTree := by
  unfold Obligations.ReportsGatherUpTheTree
  intro s i h q msg hcomes hpart hcycle hleader hsrc hwave rest a gathered
  have ha : Accepts s i h := hcomes.1
  obtain ⟨hstill, hsame⟩ := ha.replied (h := h) []
  have hw0 : q.wave ≠ 0 := by
    rw [hwave]
    split
    · simp
    · split <;> simp
  have hrow {wave : Nat} {row : Instr} {P : State → Prop} (hexec : ∀ s, exec row s = treeUpRow i msg wave s) (hw : q.wave = wave)
      (hP : ∀ t v : State, t.mc.lead = s.mc.lead → t.tbl = s.tbl → t.now = s.now →
        Joined t v q h.pkt.src (aggOf (payWords h.pkt.pay)) → P (v.ended s.pending)) :
      Answers row s P := by
    refine answers_iff.mpr ?_
    rw [hexec]
    have hp := hstill.part.trans hpart
    exact .mgtRow hcomes (by simp) (State.treeUp_joins (P := fun u => P (u.ended s.pending)) rfl hp hcycle hleader hw hsrc
      (hP _ _ hstill.lead (hsame .tbl rfl : s.tbl = _).symm (hsame .now rfl : s.now = _).symm (State.joined_gathers hp _ _ hw0)))
  have hgather (t v : State) (hl : t.mc.lead = s.mc.lead) (hv : Joined t v q h.pkt.src (aggOf (payWords h.pkt.pay))) :
      gathered (v.ended s.pending) := by
    refine ⟨fun hne => ⟨_, hv.part (.inr hne), ?_⟩, fun he hn => ⟨_, hv.part (.inl (hl.trans hn)), ?_⟩⟩
    · rw [LockPart.turned_of_stops (.inr hne)]
      exact ⟨rfl, rfl, rfl⟩
    · rw [LockPart.turned_of_answered (p := q.joined h.pkt.src (aggOf (payWords h.pkt.pay))) hw0 he]
      exact ⟨he, rfl⟩
  refine ⟨?_, ?_, ?_, ?_⟩
  · rintro rfl
    refine hrow (fun _ => rfl) hwave fun t v hl htbl hnow hv => ⟨hgather t v hl hv, fun l he hlead href hsil huse hph hkids => ?_⟩
    have hend : v.tbl = s.tbl.locked s.now := by
      rw [hv.locks l he (hl.trans hlead) huse hwave href hsil hkids, htbl, hnow]
    rw [Tables.locked, if_pos hph] at hend
    exact ⟨(congrArg Tables.phase hend :), (congrArg Tables.lockAt hend :)⟩
  · rintro rfl
    exact hrow (fun _ => rfl) hwave fun t v hl _ _ hv => hgather t v hl hv
  · rintro rfl
    exact hrow (fun _ => rfl) hwave fun t v hl _ _ hv => hgather t v hl hv
  · rintro rfl
    exact hrow (fun _ => rfl) hwave fun t v hl _ _ hv => ⟨hgather t v hl hv, fun l he hlead hsil =>
      hv.ends l he (hl.trans hlead) hwave hsil⟩

end Sys2Proof.Machine

namespace Sys2Proof.Machine

/-! ## The leader's messages at a member of its cycle (R287) -/

section
variable {s t u : State}

/-- A block takes a message of its own cycle under the parent that sent it. -/
def LockPart.under (q : LockPart) (src : Nat) : LockPart := { q with parent := src }

theorem State.joinPart_of_part {p : Packet} {q : LockPart} (hq : s.mc.part = some q) (hl : s.mc.lead = none)
    (hc : q.cycle = BitVec.ofNat 16 p.h5.toNat) (hld : q.leader = BitVec.ofNat 18 p.h6.toNat) (msg : Nat) :
    s.joinPart p msg = some (s.modPart (fun q => q.under p.src)) := by
  unfold State.joinPart
  dsimp only
  rw [hq]
  dsimp only
  rw [if_pos ⟨hc, hld, by rw [hl]; rfl⟩]
  rfl

-- By an equation of functions, as in `State.treeUp_same`; of a property, so that the kernel does not look into the answer.
theorem State.treeDown_takes {h : Held} {q : LockPart} {msg : Nat} {P : State → Prop} (ht : s.mgtReply h.pkt [] = t)
    (hp : t.mc.part = some q) (hl : t.mc.lead = none) (hc : q.cycle = BitVec.ofNat 16 h.pkt.h5.toNat)
    (hld : q.leader = BitVec.ofNat 18 h.pkt.h6.toNat) (hgen : msg = 1 → fld h.pkt.h5.toNat 16 8 = t.ident.gen.toNat)
    (hP : P (((t.modPart (fun q => q.under h.pkt.src)).wave msg (payWords h.pkt.pay)).treeGo)) : P (s.treeDown h msg) := by
  have val_of_eq {f g : State → Held → Nat → State} (hfg : f = g) (hg : P (g s h msg)) : P (f s h msg) := hfg ▸ hg
  refine val_of_eq (f := State.treeDown) (by delta State.treeDown; exact rfl) ?_
  extract_lets p gen s0 s1
  have hs0 : s0 = t := ht
  have hs1 : s1 = s0 := if_neg (by
    rintro ⟨h1, -, hne⟩
    rw [hs0] at hne
    exact hne (hgen h1))
  clear_value s1
  rw [hs1, hs0, State.joinPart_of_part hp hl hc hld]
  exact hP

/-! ### What each message does here -/

theorem State.stageHere_stages {ws : List Word} {rs : List Rec} (h0 : (ws.getD 0 0).toNat ≠ 0xFFFFFFFF) (hrs : parseRecs 64 ws = some rs)
    (ho : s.stageOpen = true) (htgt : ∀ r ∈ rs, r.isFor s.own = true → ∀ e ∈ r.writes, stagedTarget e.1 = true) :
    (s.stageHere ws).tbl = (rs.filter (fun r => r.isFor s.own)).foldl Tables.stageRec s.tbl ∧ Steady s (s.stageHere ws) := by
  have hany : (rs.filter (fun r => r.isFor s.own)).any (fun r => r.writes.any (fun e => !stagedTarget e.1)) = false := by
    rw [List.any_eq_false]
    intro r hr
    obtain ⟨hm, hf⟩ := List.mem_filter.mp hr
    simp only [List.any_eq_true, not_exists, not_and, Bool.not_eq_true']
    exact fun e he => by simp [htgt r hm hf e he]
  unfold State.stageHere
  dsimp only
  rw [if_neg h0, hrs]
  dsimp only
  rw [if_neg (by simp [ho, hany])]
  exact ⟨rfl, rfl⟩

theorem State.stagingOk_of_same {l : List Fld} (h : Same (mask l) s t) (hr : Fld.rg.bit &&& mask l = 0) (hi : Fld.ident.bit &&& mask l = 0)
    (ht : Fld.tbl.bit &&& mask l = 0) : t.stagingOk = s.stagingOk := by
  have hreg : s.rg = t.rg := h .rg hr
  have hid : s.ident = t.ident := h .ident hi
  have htbl : s.tbl = t.tbl := h .tbl ht
  unfold State.stagingOk State.bankOk State.drainOk State.otherBank State.bank State.badGrp State.rf State.reg
  rw [hreg, hid, htbl]

/-- The tables of a block that sealed its staging in cycle `c`. -/
def Tables.sealed (t : Tables) (c : HWord) : Tables := { t with other := .ready, phase := .staged, cycle := c }

def State.sealedAs (s : State) (c : HWord) : State := { s with tbl := s.tbl.sealed c }

/-- A part with what its block's staging changes noted. -/
def LockPart.draining (q : LockPart) (d : Bool) : LockPart := { q with drains := d }

/-- The end of SEAL at a block: its report is gathered with those of its children. -/
theorem State.gather_seal {q : LockPart} {d : Bool} (hq : t.mc.part = some (q.draining d)) (a : TreeAgg) :
    Steady t (t.gather 2 a) ∧ Asks (t.gather 2 a) q 2 ∧ (t.gather 2 a).tbl = t.tbl := by
  obtain ⟨r, hr⟩ := State.gather_asks hq 2 a
  exact ⟨rfl, ⟨r, hr⟩, rfl⟩

theorem State.sealHere_seals {q : LockPart} (hq : s.mc.part = some q) :
    Steady s s.sealHere ∧ Asks s.sealHere q 2 ∧
    (q.bad = false → s.stagingOk = true → s.stageOpen = true → s.sealHere.tbl = s.tbl.sealed q.cycle) ∧
    (q.bad = true ∨ s.stagingOk = false → s.sealHere.tbl = s.tbl) := by
  have hpart : (s.modPart (fun p => p.draining s.stagingDrains)).mc.part = some (q.draining s.stagingDrains) := by
    rw [State.modPart_part, hq]
    rfl
  unfold State.sealHere
  rw [hq]
  dsimp only
  split
  · next hok =>
    simp only [Bool.and_eq_true, Bool.not_eq_true', Bool.or_eq_true] at hok
    obtain ⟨⟨hbad, hst⟩, -⟩ := hok
    obtain ⟨hk, hstill⟩ := ((s.modPart (fun p => p.draining s.stagingDrains)).sealedAs q.cycle).sayLock_kept
    obtain ⟨hsteady, hasks, htbl⟩ := State.gather_seal (hk.part.trans hpart) { TreeAgg.zero with ready := 1 }
    exact ⟨(Steady.of_still hstill).trans hsteady, hasks, fun _ _ _ => htbl.trans hk.tbl, fun h => by simp [hbad, hst] at h⟩
  · next hok =>
    obtain ⟨hsteady, hasks, htbl⟩ := State.gather_seal hpart { TreeAgg.zero with refused := 1, first := s.own + 1 }
    exact ⟨hsteady, hasks, fun hb hst ho => absurd (by simp [hb, hst, ho]) hok, fun _ => htbl⟩

/-! ### The swap -/

theorem State.towsOn_of_tbl (htbl : t.tbl = s.tbl) (htows : t.tows = s.tows) (key : Nat) : t.towsOn key = s.towsOn key := by
  unfold State.towsOn State.ff State.force State.tow
  rw [htbl, htows]

/-- What a block's swap makes of the tables. -/
structure Swapped (s : Tables) (force : SMap Word) (epoch : Bool) (t : Tables) : Prop where
  phase : t.phase = .swapped
  cur : t.cur = !s.cur
  force : t.force = force
  other : t.other = if epoch then .hold else .idle

theorem State.swapTables_swaps (s : State) (epoch : Bool) :
    Swapped s.tbl s.stagedForce epoch (s.swapTables epoch).tbl ∧ Stillness s (s.swapTables epoch) := by
  unfold State.swapTables
  extract_lets old new changed base s1 s2
  have h1 : Swapped s.tbl s.stagedForce epoch s1.tbl ∧ Stillness s s1 := ⟨⟨rfl, rfl, rfl, rfl⟩, rfl⟩
  have h2 : Same (mask [.out, .rg, .chans, .scal, .eng, .hm, .ev, .inj, .pseq, .tows, .reins, .counts, .ccnt, .logs, .groups, .links,
      .phys, .mons, .cmap]) s1 s2.resendParams := by
    have hfold : Same (mask [.out, .rg, .chans, .scal, .eng, .hm, .ev, .inj, .pseq, .tows, .reins, .counts, .ccnt, .logs, .groups,
        .links, .phys, .mons, .cmap]) s1 s2 := by
      dsimp only [s2]
      exact (Same.foldl (fun t g => by simp) _ _).trans (Same.foldl (fun t g => by simp) _ _)
    exact (State.resendParams_same _ (by simp)).mpr hfold
  clear_value s1 s2
  rw [← (h2 .tbl rfl : s1.tbl = s2.resendParams.tbl)]
  exact ⟨h1.1, h1.2.trans (.of_same h2 rfl)⟩

theorem State.swapNow_swaps (s : State) (p : LockPart) :
    Swapped s.tbl s.stagedForce p.epochMode (s.swapNow p).tbl ∧ Steady s (s.swapNow p) := by
  obtain ⟨hs, hstill⟩ := s.swapTables_swaps p.epochMode
  obtain ⟨hk, hstill'⟩ := (s.swapTables p.epochMode).sayLock_kept
  unfold State.swapNow
  refine ⟨?_, ((Steady.of_still hstill).trans (.of_still hstill')).trans (State.modPart_steady _ _)⟩
  rw [State.modPart_tbl, hk.tbl]
  exact hs

/-- A part that awaits its own block's swap. -/
def LockPart.swapping (q : LockPart) (own : Nat) (epoch : Bool) : LockPart := { q with epochMode := epoch, await := own :: q.await }

/-- A part that has begun to gather wave `wave`. -/
def LockPart.gathering (q : LockPart) (wave : Nat) (a : TreeAgg) (now : Nat) : LockPart :=
  { q with wave := wave, await := q.children, agg := { a with silent := if wave = 8 then 0 else q.silent }, since := now }

theorem State.gather_part {q : LockPart} (hq : s.mc.part = some q) (wave : Nat) (a : TreeAgg) :
    (s.gather wave a).mc.part = some (q.gathering wave a s.now) := by
  unfold State.gather
  rw [State.modPart_part, hq]
  rfl

theorem State.swapTurn_swaps {p : LockPart} (hp : s.mc.part = some p) (hd : s.swapDue p = true) : s.swapTurn = s.swapNow p := by
  unfold State.swapTurn
  rw [hp]
  exact if_pos hd

theorem State.swapHere_swaps {q : LockPart} (hq : s.mc.part = some q) (hph : s.tbl.phase = .locked) {epoch : Bool}
    (ht : epoch = true → s.towsOn q.key = []) :
    Swapped s.tbl s.stagedForce epoch (s.swapHere epoch).tbl ∧ Steady s (s.swapHere epoch) := by
  let p := (q.gathering 8 TreeAgg.zero s.now).swapping s.own epoch
  have hpart : ((s.gather 8 TreeAgg.zero).modPart (fun q => q.swapping s.own epoch)).mc.part = some p := by
    rw [State.modPart_part, State.gather_part hq]
    rfl
  have hfacts : ((s.gather 8 TreeAgg.zero).modPart (fun q => q.swapping s.own epoch)).tbl = s.tbl ∧
      ((s.gather 8 TreeAgg.zero).modPart (fun q => q.swapping s.own epoch)).tows = s.tows ∧
      ((s.gather 8 TreeAgg.zero).modPart (fun q => q.swapping s.own epoch)).own = s.own ∧
      Steady s ((s.gather 8 TreeAgg.zero).modPart (fun q => q.swapping s.own epoch)) := ⟨rfl, rfl, rfl, rfl⟩
  have hunf : s.swapHere epoch = (if epoch then ((s.gather 8 TreeAgg.zero).modPart (fun q => q.swapping s.own epoch)).towsOff q.key
      else (s.gather 8 TreeAgg.zero).modPart (fun q => q.swapping s.own epoch)).swapTurn := by
    unfold State.swapHere
    rw [hq]
    exact if_neg (not_not.mpr (.inl hph))
  rw [hunf]
  generalize (s.gather 8 TreeAgg.zero).modPart (fun q => q.swapping s.own epoch) = v at hpart hfacts
  obtain ⟨htbl, htows, hown, hsteady⟩ := hfacts
  have hon : epoch = true → v.towsOn q.key = [] := fun he => (State.towsOn_of_tbl htbl htows q.key).trans (ht he)
  have hoff : (if epoch then v.towsOff q.key else v) = v := by
    split
    · next he =>
      unfold State.towsOff
      rw [hon he]
      rfl
    · rfl
  have hdue : v.swapDue p = true := by
    unfold State.swapDue
    rw [htbl, hph, hown]
    cases epoch with
    | false => simp [p, LockPart.swapping, LockPart.gathering]
    | true => simp [p, LockPart.swapping, LockPart.gathering, hon rfl]
  obtain ⟨hs, hst⟩ := v.swapNow_swaps p
  rw [hoff, State.swapTurn_swaps hpart hdue]
  have hforce : v.stagedForce = s.stagedForce := by
    unfold State.stagedForce
    rw [htbl]
  rw [htbl, hforce] at hs
  exact ⟨hs, hsteady.trans hst⟩

/-! ### The release -/

theorem State.releaseHere_member {q : LockPart} (hq : s.mc.part = some q) (hown : q.await.contains s.own = false) :
    s.releaseHere.tbl = s.tbl.unlocked false ∧ s.releaseHere.mc.part = none ∧ s.releaseHere.mc.lead = s.mc.lead := by
  have hlate : s.swapLate = s := State.swapLate_of_not_awaited fun p hp => by
    rw [← Option.some.inj (hq.symm.trans hp)]
    exact hown
  have hw : ∀ t : State, ({ t with mc := { t.mc with spareWait := false } } : State).mc.lead = t.mc.lead := fun _ => rfl
  obtain ⟨hpart, htbl⟩ := s.releaseHere_ends
  refine ⟨by rw [htbl, hlate], hpart, ?_⟩
  obtain ⟨-, hmc⟩ := s.unlock_tbl false
  unfold State.releaseHere
  extract_lets t
  rw [hw t, show t = s.unlock false from by rw [← hlate], hmc]

/-! ### The waves, with what goes down before them -/

theorem State.stageOpen_of_tbl (h : t.tbl = s.tbl) : t.stageOpen = s.stageOpen := by
  unfold State.stageOpen
  rw [h]

theorem State.wave1_stages {q : LockPart} {ws : List Word} {rs : List Rec} (hq : s.mc.part = some q)
    (h0 : (ws.getD 0 0).toNat ≠ 0xFFFFFFFF) (hrs : parseRecs 64 ws = some rs) (ho : s.stageOpen = true)
    (htgt : ∀ r ∈ rs, r.isFor s.own = true → ∀ e ∈ r.writes, stagedTarget e.1 = true) :
    (s.wave 1 ws).tbl = (rs.filter (fun r => r.isFor s.own)).foldl Tables.stageRec s.tbl ∧ Steady s (s.wave 1 ws) := by
  rw [State.wave_of_part hq]
  obtain ⟨hk, hs, -⟩ := s.sendDown_kept q 1 ws
  have hown : (s.sendDown q 1 ws).own = s.own := State.own_of_same (s.sendDown_same_all q 1 ws) rfl
  obtain ⟨htbl, hst⟩ := State.stageHere_stages (s := s.sendDown q 1 ws) h0 hrs (by rw [State.stageOpen_of_tbl hk.tbl, ho])
    (by rw [hown]; exact htgt)
  rw [hown, hk.tbl] at htbl
  exact ⟨htbl, (Steady.of_still hs).trans hst⟩

theorem State.wave2_seals {q : LockPart} (hq : s.mc.part = some q) (ws : List Word) :
    Steady s (s.wave 2 ws) ∧ Asks (s.wave 2 ws) q 2 ∧
    (q.bad = false → s.stagingOk = true → s.stageOpen = true → (s.wave 2 ws).tbl = s.tbl.sealed q.cycle) ∧
    (q.bad = true ∨ s.stagingOk = false → (s.wave 2 ws).tbl = s.tbl) := by
  rw [State.wave_of_part hq]
  obtain ⟨hk, hs, -⟩ := s.sendDown_kept q 2 ws
  obtain ⟨hst, hasks, hyes, hno⟩ := State.sealHere_seals (hk.part.trans hq)
  have hok : (s.sendDown q 2 ws).stagingOk = s.stagingOk := State.stagingOk_of_same (s.sendDown_same_all q 2 ws) rfl rfl rfl
  rw [hok, State.stageOpen_of_tbl hk.tbl, hk.tbl] at hyes
  rw [hok, hk.tbl] at hno
  exact ⟨(Steady.of_still hs).trans hst, hasks, hyes, hno⟩

theorem State.wave8_swaps {q : LockPart} {ws : List Word} (hq : s.mc.part = some q) (hph : s.tbl.phase = .locked)
    (ht : (ws.headD 0).toNat.testBit 0 = true → s.towsOn q.key = []) :
    Swapped s.tbl s.stagedForce ((ws.headD 0).toNat.testBit 0) (s.wave 8 ws).tbl ∧ Steady s (s.wave 8 ws) := by
  rw [State.wave_of_part hq]
  obtain ⟨hk, hs, -⟩ := s.sendDown_kept q 8 ws
  have htows : (s.sendDown q 8 ws).tows = s.tows := (s.sendDown_same_all q 8 ws .tows rfl : s.tows = _).symm
  obtain ⟨hsw, hst⟩ := State.swapHere_swaps (hk.part.trans hq) (by rw [hk.tbl, hph])
    (fun he => (State.towsOn_of_tbl hk.tbl htows q.key).trans (ht he))
  have hforce : (s.sendDown q 8 ws).stagedForce = s.stagedForce := by
    unfold State.stagedForce
    rw [hk.tbl]
  rw [hk.tbl, hforce] at hsw
  exact ⟨hsw, (Steady.of_still hs).trans hst⟩

theorem State.wave10_releases {q : LockPart} (hq : s.mc.part = some q) (hown : q.await.contains s.own = false) (ws : List Word) :
    (s.wave 10 ws).tbl = s.tbl.unlocked false ∧ (s.wave 10 ws).mc.part = none ∧ (s.wave 10 ws).mc.lead = s.mc.lead := by
  rw [State.wave_of_part hq]
  obtain ⟨hk, -, -⟩ := s.sendDown_kept q 10 ws
  have ho : (s.sendDown q 10 ws).own = s.own := State.own_of_same (s.sendDown_same_all q 10 ws) rfl
  obtain ⟨htbl, hpart, hlead⟩ := State.releaseHere_member (hk.part.trans hq) (by rw [ho]; exact hown)
  exact ⟨htbl.trans (by rw [hk.tbl]), hpart, hlead.trans hk.lead⟩

theorem LockPart.turned_children (p : LockPart) : p.turned.children = p.children := by
  unfold LockPart.turned
  split <;> rfl

theorem LockPart.turned_last (p : LockPart) : p.turned.last = p.last := by
  unfold LockPart.turned
  split <;> rfl

/-- What a message of the leader finds at a member: its part, under the parent that sent the message, and all else as before. -/
structure Member (s t : State) (q : LockPart) (src : Nat) : Prop where
  part : t.mc.part = some (q.under src)
  lead : t.mc.lead = none
  tbl : t.tbl = s.tbl
  tows : t.tows = s.tows
  now : t.now = s.now
  own : t.own = s.own

theorem Member.of_replied {q : LockPart} {src : Nat} {l : List Fld} (hs : Stillness s t) (h : Same (mask l) s t) (hq : s.mc.part = some q)
    (hl : s.mc.lead = none) (htbl : Fld.tbl.bit &&& mask l = 0) (htows : Fld.tows.bit &&& mask l = 0) (hnow : Fld.now.bit &&& mask l = 0)
    (hid : Fld.ident.bit &&& mask l = 0) :
    Member s (t.modPart (fun q => q.under src)) q src ∧ (t.modPart (fun q => q.under src)).stagingOk = t.stagingOk := by
  have h' : Same (mask [.mc]) t (t.modPart (fun q => q.under src)) := by simp
  refine ⟨⟨?_, hs.lead.trans hl, (h .tbl htbl : s.tbl = t.tbl).symm, (h .tows htows : s.tows = t.tows).symm,
    (h .now hnow : s.now = t.now).symm, (State.own_of_same h' rfl).trans (State.own_of_same h hid)⟩, State.stagingOk_of_same h' rfl rfl rfl⟩
  rw [State.modPart_part, hs.part, hq]
  rfl

end

/-- Settles O23: a member passes each message down and acts on it here; its turn then leaves the tables. -/
theorem leaderMessagesAct : Obligations.LeaderMessagesAct := by
  unfold Obligations.LeaderMessagesAct
  intro s i h q msg hcomes hlead hpart hcycle hleader u ws
  have ha : Accepts s i h := hcomes.1
  obtain ⟨hstill, hsame⟩ := ha.replied (h := h) []
  have hid : u.ident = s.ident := (hsame .ident rfl : s.ident = _).symm
  have hrow {row : Instr} {P : State → Prop} (hexec : ∀ s, exec row s = treeDownRow i msg s)
      (hgen : msg = 1 → fld h.pkt.h5.toNat 16 8 = s.ident.gen.toNat)
      (hP : ∀ t v : State, Member s t q h.pkt.src → t.stagingOk = u.stagingOk → v = (t.wave msg ws).treeGo → P (v.ended s.pending)) :
      Answers row s P := by
    refine answers_iff.mpr ?_
    rw [hexec]
    have hp := hstill.part.trans hpart
    have hl := hstill.lead.trans hlead
    refine .mgtRow hcomes (by simp) (State.treeDown_takes (P := fun u => P (u.ended s.pending)) rfl hp hl hcycle hleader
      (fun h1 => by rw [show ((s.accepted i h).mgtReply h.pkt []).ident = s.ident from hid]; exact hgen h1) (hP _ _ ?_ ?_ rfl))
    · exact (Member.of_replied hstill hsame hpart hlead rfl rfl rfl rfl).1
    · exact (Member.of_replied (src := h.pkt.src) hstill hsame hpart hlead rfl rfl rfl rfl).2
  refine ⟨fun h1 rs hgen h0 hrs hopen htgt => ?_, fun h2 hopen => ?_, fun h5 => ?_, fun h6 => ?_, fun h8 hph htows => ?_,
    fun h10 hown => ?_⟩
  · subst h1
    refine hrow (fun _ => rfl) (fun _ => hgen) fun t v ht _ hv => ?_
    obtain ⟨htbl, hst⟩ := State.wave1_stages ht.part h0 hrs (by rw [State.stageOpen_of_tbl ht.tbl, hopen]) (by rw [ht.own]; exact htgt)
    have hgo : v.tbl = _ := hv ▸ (State.treeGo_member (hst.lead.trans ht.lead)).2.1
    rw [htbl, ht.own, ht.tbl] at hgo
    exact hgo
  · subst h2
    refine hrow (fun _ => rfl) (by simp) fun t v ht hok hv => ?_
    obtain ⟨hst, -, hyes, hno⟩ := State.wave2_seals ht.part ws
    have hgo : v.tbl = _ := hv ▸ (State.treeGo_member (hst.lead.trans ht.lead)).2.1
    rw [hok, ht.tbl, State.stageOpen_of_tbl ht.tbl] at hyes
    rw [hok, ht.tbl] at hno
    refine ⟨fun hb hs => ?_, fun hb => hgo.trans (hno hb)⟩
    have hsealed : v.tbl = s.tbl.sealed q.cycle := hgo.trans (hyes hb hs hopen)
    exact ⟨(congrArg Tables.other hsealed :), (congrArg Tables.phase hsealed :), (congrArg Tables.cycle hsealed :)⟩
  · subst h5
    refine hrow (fun _ => rfl) (by simp) fun t v ht _ hv => ?_
    obtain ⟨htbl, hst⟩ := State.wave5_locks ht.part ws
    have hgo : v.tbl = _ := hv ▸ (State.treeGo_member (hst.lead.trans ht.lead)).2.1
    rw [htbl, ht.tbl, ht.now] at hgo
    refine ⟨fun hs => ?_, fun hs => hgo.trans (if_neg hs)⟩
    rw [Tables.locked, if_pos hs] at hgo
    exact ⟨(congrArg Tables.phase hgo :), (congrArg Tables.lockAt hgo :)⟩
  · subst h6
    refine hrow (fun _ => rfl) (by simp) fun t v ht _ hv => ?_
    obtain ⟨n, ⟨r, hr, hch, haw, hwave, hlast⟩, htbl, hst⟩ := State.wave6_asks ht.part ws
    obtain ⟨-, hgt, hgp⟩ := State.treeGo_member (hst.lead.trans ht.lead)
    rw [← hv] at hgt hgp
    rw [hr] at hgp
    refine ⟨hgt.trans (htbl.trans ht.tbl), r.turned, hgp, ?_, ?_, fun hne => ?_⟩
    · rw [r.turned_last, hlast]
      rfl
    · rw [r.turned_children, hch]
      rfl
    · rw [LockPart.turned_of_stops (.inr (by rw [haw]; exact hne))]
      exact ⟨hwave, haw⟩
  · subst h8
    refine hrow (fun _ => rfl) (by simp) fun t v ht _ hv => ?_
    obtain ⟨hsw, hst⟩ := State.wave8_swaps ht.part (by rw [ht.tbl, hph]) (fun he => (State.towsOn_of_tbl ht.tbl ht.tows q.key).trans (htows he))
    have hgo : v.tbl = _ := hv ▸ (State.treeGo_member (hst.lead.trans ht.lead)).2.1
    have hforce : t.stagedForce = s.stagedForce := by
      unfold State.stagedForce
      rw [ht.tbl]
    rw [← hgo, ht.tbl, hforce] at hsw
    exact ⟨hsw.phase, hsw.cur, hsw.force, hsw.other⟩
  · subst h10
    refine hrow (fun _ => rfl) (by simp) fun t v ht _ hv => ?_
    obtain ⟨htbl, hp, hl⟩ := State.wave10_releases ht.part (by rw [ht.own]; exact hown) ws
    obtain ⟨-, hgt, hgp⟩ := State.treeGo_member (hl.trans ht.lead)
    rw [← hv, htbl, ht.tbl] at hgt
    rw [← hv, hp] at hgp
    exact ⟨(congrArg Tables.phase hgt :), hgp, (congrArg Tables.cur hgt :)⟩

end Sys2Proof.Machine

namespace Sys2Proof.Machine

/-! ## Cycles led here -/

section
variable {s t u : State}

/-- In `t` recovery mode ends when it does in `s`. -/
def Recovering (s t : State) : Prop := t.flt.recovAt = s.flt.recovAt

theorem Recovering.refl (s : State) : Recovering s s := rfl
theorem Recovering.trans (h : Recovering s t) (h' : Recovering t u) : Recovering s u := Eq.trans h' h
theorem Recovering.of_same {l : List Fld} (h : Same (mask l) s t) (hl : Fld.flt.bit &&& mask l = 0) : Recovering s t :=
  (congrArg Collector.recovAt (h .flt hl : s.flt = t.flt) :).symm

theorem State.raise_recovering (s : State) (code inst cls atype master addr detail : Nat) (inj : Bool) :
    Recovering s (s.raise code inst cls atype master addr detail inj) := by
  unfold State.raise State.raiseX Recovering
  split <;> rfl

theorem State.setTime_recovering (s : State) (x : TimeSt) : Recovering s (s.setTime x) := by
  unfold State.setTime
  split
  · exact .refl s
  · extract_lets ts s1
    have h1 : Recovering s s1 := .of_same (l := [.rg, .ev, .logs, .ts]) (by simp [s1]) rfl
    split
    · have h2 : Recovering s1 (s1.putField 0xF04C 16 16 (min 65535 (s1.rf 0xF04C 16 16 + 1))) := .of_same (l := [.rg]) (by simp) rfl
      exact (h1.trans h2).trans (State.raise_recovering _ _ _ _ _ _ _ _ _)
    · exact h1

theorem State.fencePort_recovering (s : State) (p cause : Nat) : Recovering s (s.fencePort p cause) := by
  unfold State.fencePort
  extract_lets l s1 s2
  split
  · exact .refl s
  · have h0 : Recovering s (s.parentLost p) := by
      unfold State.parentLost
      split
      · exact s.setTime_recovering _
      · exact .refl s
    have h1 : Recovering (s.parentLost p) s1 := .of_same (l := [.links]) (by simp [s1]) rfl
    have h2 : Same (mask [.out, .rg, .inj, .eject, .tows, .counts, .links, .teams, .phys, .halt, .mons, .cmap]) s1
        (((((s2.towFence p).cutPackets p).haltForget p).modMon p (fun _ => Monitor.reset)).idlePort p) := by
      simp [s2]
    exact (h0.trans h1).trans (.of_same h2 rfl)

/-- What staging keeps: the core but its part's mark of what could not be staged, and recovery mode. -/
structure Staging (s t : State) : Prop where
  steady : Steady s t
  part : ∀ p, s.mc.part = some p → ∃ b, t.mc.part = some { p with bad := b }
  recov : Recovering s t

theorem Staging.trans (h : Staging s t) (h' : Staging t u) : Staging s u := by
  refine ⟨h.steady.trans h'.steady, fun p hp => ?_, h.recov.trans h'.recov⟩
  obtain ⟨b, hb⟩ := h.part p hp
  obtain ⟨c, hc⟩ := h'.part _ hb
  exact ⟨c, hc⟩

theorem Staging.of_still (h : Stillness s t) (hr : Recovering s t) : Staging s t :=
  ⟨.of_still h, fun p hp => ⟨p.bad, h.part.trans hp⟩, hr⟩

theorem Staging.refl (s : State) : Staging s s := .of_still rfl rfl

theorem State.markBad_staging (s : State) : Staging s (s.modPart (fun p => { p with bad := true })) :=
  ⟨rfl, fun p hp => ⟨true, by rw [State.modPart_part, hp]; rfl⟩, rfl⟩

theorem State.withTables_staging (s : State) (b : Tables) : Staging s { s with tbl := b } := .of_still rfl rfl

theorem State.takeoverHere_staging (s : State) (failed spare : Nat) (same : Bool) (pos : Nat) :
    Staging s (s.takeoverHere failed spare same pos) := by
  unfold State.takeoverHere
  extract_lets s1
  have h1 : Staging s s1 := by
    refine foldl_keeps (R := Staging) Staging.refl Staging.trans _ (fun t p => ?_) _ _
    dsimp only
    split
    · have hf := t.fencePort_recovering p 7
      have hs : Same (mask [.out, .rg, .ev, .inj, .eject, .tows, .counts, .links, .flt, .logs, .teams, .phys, .halt, .mons, .ts, .cmap])
          t (t.fencePort p 7) := by simp
      have hs' : Same (mask [.rg, .chans, .scal, .ev, .logs]) (t.fencePort p 7) ((t.fencePort p 7).fenceSlots p) := by simp
      exact .of_still ((Stillness.of_same hs rfl).trans (.of_same hs' rfl)) (hf.trans (.of_same hs' rfl))
    · exact .refl t
  clear_value s1
  split
  · exact h1.trans (State.markBad_staging _)
  · exact h1.trans (State.withTables_staging _ _)

theorem State.stageHere_staging (s : State) (ws : List Word) : Staging s (s.stageHere ws) := by
  unfold State.stageHere
  dsimp only
  split
  · exact s.takeoverHere_staging _ _ _ _
  · split
    · exact s.markBad_staging
    · split
      · exact s.markBad_staging
      · exact s.withTables_staging _

theorem State.wave1_staging (s : State) (ws : List Word) : Staging s (s.wave 1 ws) := by
  unfold State.wave
  split
  · exact .refl s
  · next p hp =>
    have hs := s.sendDown_same_all p 1 ws
    exact (Staging.of_still (s.sendDown_still p 1 ws) (.of_same hs rfl)).trans (State.stageHere_staging _ ws)

/-- A block that leads a cycle with children, none of whose waves is answered in full. -/
structure Leading (use : LeadUse) (who : Asker) (gen : Byte) (kids : List Nat) (t : State) : Prop where
  lead : t.mc.lead = some ⟨use, who, gen⟩
  part : ∃ p, t.mc.part = some p ∧ p.children = kids ∧ (p.wave = 0 ∨ p.await ≠ [])

section
variable {use : LeadUse} {who : Asker} {gen : Byte} {kids : List Nat}

theorem Leading.staging (h : Leading use who gen kids s) (hs : Staging s t) : Leading use who gen kids t := by
  obtain ⟨hl, p, hp, hk, hw⟩ := h
  obtain ⟨b, hb⟩ := hs.part p hp
  exact ⟨hs.steady.lead.trans hl, _, hb, hk, hw⟩

theorem Leading.still (h : Leading use who gen kids s) (hs : Stillness s t) : Leading use who gen kids t := by
  obtain ⟨hl, hp⟩ := h
  exact ⟨hs.lead.trans hl, by rw [hs.part]; exact hp⟩

/-- A leader's turn, where children stand to answer or messages to go out: it seals at most, and waits. -/
theorem Leading.go (h : Leading use who gen kids s) (hk : kids ≠ [] ∨ s.treeIdle = false) :
    Leading use who gen kids s.treeGo ∧ Steady s s.treeGo ∧ Recovering s s.treeGo := by
  have hseal : Leading use who gen kids s.leadSeal ∧ Steady s s.leadSeal ∧ Recovering s s.leadSeal := by
    obtain ⟨hl, p, hp, hc, hw⟩ := id h
    unfold State.leadSeal
    rw [hl, hp]
    dsimp only
    split
    · next hs =>
      have hkids : kids ≠ [] := hk.resolve_right (by simp [hs.2.2])
      obtain ⟨hst, ⟨q, hq, hqc, hqa, -⟩, -⟩ := State.wave2_seals hp []
      refine ⟨⟨hst.lead.trans hl, q, hq, hqc.trans hc, .inr (by rw [hqa, hc]; exact hkids)⟩, hst, ?_⟩
      rw [State.wave_of_part hp]
      exact .of_same (l := [.rg, .ev, .tbl, .logs, .mc])
        ((State.sealHere_same _ (by simp)).mpr ((s.sendDown_same_all p 2 []).mono (by simp))) rfl
    · exact ⟨h, .refl s, .refl s⟩
  obtain ⟨hlead, hst, hr⟩ := hseal
  have hstop : s.leadSeal.treeTurn 8 = s.leadSeal := State.treeTurn_stops fun p hp => by
    obtain ⟨-, q, hq, -, hw⟩ := hlead
    rw [← Option.some.inj (hq.symm.trans hp)]
    exact hw
  have hstill := s.leadSeal.pumpTree_still
  have hgo : s.treeGo = s.leadSeal.pumpTree := by
    unfold State.treeGo
    rw [hstop]
  rw [hgo]
  exact ⟨hlead.still hstill, hst.trans (.of_still hstill),
    hr.trans (.of_same (l := [.rg, .inj, .pseq, .counts, .mc]) (by simp) rfl)⟩

/-- A cycle begun: the block leads it, with the next cycle number, and its part waits for the first wave. -/
theorem State.leadStart_leads (s : State) (use : LeadUse) (who : Asker) :
    Leading use who s.ident.gen (s.ownKids s.own s.ident.pkey.toNat) (s.leadStart use who) ∧
      (s.leadStart use who).mc.cycle = s.mc.cycle + 1 ∧ (s.leadStart use who).mc.mb = s.mc.mb ∧ Recovering s (s.leadStart use who) :=
  ⟨⟨rfl, _, rfl, rfl, .inl rfl⟩, rfl, rfl, rfl⟩

/-- What a cycle led here has come to when it waits for its children. -/
structure CycleLed (s t : State) (use : LeadUse) : Prop where
  lead : t.mc.lead = some ⟨use, .mailbox, s.ident.gen⟩
  cycle : t.mc.cycle = s.mc.cycle + 1
  mb : t.mc.mb = s.mc.mb
  recov : Recovering s t

theorem State.cycle_waits (s : State) (use : LeadUse) (hk : s.ownKids s.own s.ident.pkey.toNat ≠ [] ∨ t.treeIdle = false)
    (h : Staging (s.leadStart use .mailbox) t) : CycleLed s t.treeGo use := by
  obtain ⟨hl, hc, hm, hr⟩ := s.leadStart_leads use .mailbox
  obtain ⟨hlead, hst, hrec⟩ := (hl.staging h).go hk
  exact ⟨hlead.lead, hst.cycle.trans (h.steady.cycle.trans hc), hst.mb.trans (h.steady.mb.trans hm), (hr.trans h.recov).trans hrec⟩

theorem State.waves1_staging (s : State) (l : List Rec) : Staging s (l.foldl (fun (t : State) r => t.wave 1 r.words) s) :=
  foldl_keeps (R := Staging) Staging.refl Staging.trans _ (fun t _ => t.wave1_staging _) l s

theorem State.treePut_staging (s : State) (m : TreeMsg) : Staging s (s.treePut m) := .of_still (s.treePut_still m) rfl

theorem State.sendSpare_staging (s : State) (failed spare : Nat) (same : Bool) (pos : Nat) (rs : List Rec) :
    Staging s (s.sendSpare failed spare same pos rs) := by
  unfold State.sendSpare
  split
  · exact .refl s
  · extract_lets m mine es t gs map
    have ht : Staging s t := foldl_keeps (R := Staging) Staging.refl Staging.trans _ (fun u e => u.treePut_staging _) _ _
    exact ht.trans (t.treePut_staging _)

/-- A spare has its last message before it. -/
theorem State.sendSpare_busy {p : LockPart} (hp : s.mc.part = some p) (failed spare : Nat) (same : Bool) (pos : Nat) (rs : List Rec) :
    (s.sendSpare failed spare same pos rs).treeIdle = false := by
  have hput (u : State) (m : TreeMsg) : (u.treePut m).treeIdle = false := by
    simp [State.treeIdle, State.treePut]
  unfold State.sendSpare
  rw [hp]
  exact hput _ _

end

end

/-! ## Images that are applied (R475) -/

section
variable {s : State} {r : MbReq}

/-- The mailbox is told how its image fared, and tables and serial number are as before. -/
structure ImgTold (s t : State) (st : Nat) : Prop where
  answered : ∀ q, MbAnswered (t.ended q) st
  tbl : t.tbl = s.tbl
  serial : t.mc.serial = s.mc.serial

theorem MbTold.img {t : State} {st : Nat} {ws : List Word} (h : MbTold r st ws s t) : ImgTold s t st :=
  ⟨h.answered, (h.same .tbl rfl : s.tbl = t.tbl).symm, (congrArg Core.serial h.core :)⟩

theorem State.answer_told (hb : s.mc.mb.busy = some r) (st : Nat) (ws : List Word) : ImgTold s (s.answerAsk .mailbox st ws) st :=
  (State.answerAsk_told hb).img

theorem ImgTold.of_same {l : List Fld} {t u : State} {st : Nat} (h : Same (mask l) s t) (hm : Fld.mc.bit &&& mask l = 0)
    (ht : Fld.tbl.bit &&& mask l = 0) (hu : ImgTold t u st) : ImgTold s u st := by
  have hmc : s.mc = t.mc := h .mc hm
  exact ⟨hu.answered, hu.tbl.trans (h .tbl ht : s.tbl = t.tbl).symm, hu.serial.trans (by rw [hmc])⟩

theorem State.imgDone_told (hb : s.mc.mb.busy = some r) (st : Nat) : ImgTold s (s.imgDone .mailbox st) st := by
  have h : Same (mask [.rg, .ev, .logs]) s (s.sayImg st 0) := by simp
  have hmc : s.mc = (s.sayImg st 0).mc := h .mc rfl
  exact .of_same h rfl rfl (State.answer_told (by rw [← hmc]; exact hb) st [])

theorem State.imgRefused_told (hb : s.mc.mb.busy = some r) (i : Option Nat) : ImgTold s (s.imgRefused .mailbox i) 4 := by
  have hfree : Same (mask [.free]) s (s.freeWords 2).2 := by simp
  unfold State.imgRefused
  rcases hf : s.freeWords 2 with ⟨fs, t⟩
  rw [hf] at hfree
  dsimp only
  generalize hv : State.sayImg (State.raise t _ _ _ _ _) 4 _ = v
  have h : Same (mask [.free, .flt, .rg, .ev, .logs]) s v := by
    have htv : Same (mask [.flt, .rg, .ev, .logs]) t v := by
      rw [← hv]
      simp
    exact (hfree.mono (by simp)).trans (htv.mono (by simp))
  have hmc : s.mc = v.mc := h .mc rfl
  exact .of_same h rfl rfl (State.answer_told (by rw [← hmc]; exact hb) 4 _)

/-! ### The course of MB_IMG_APPLY -/

/-- A record that a rule refuses is found with its place as it is without. -/
theorem find_zipIdx_refused (l : List Rec) :
    (l.zipIdx.find? (fun x => !x.1.allowed)).map (·.1) = l.find? (fun x => !x.allowed) := by
  conv_rhs => rw [← List.zipIdx_map_fst 0 l, List.find?_map]
  rfl

theorem foldl_stageRec_zipIdx (l : List Rec) (p : Rec → Bool) (b : Tables) :
    (l.zipIdx.filter (fun x => p x.1)).foldl (fun b x => b.stageRec x.1) b = (l.filter p).foldl Tables.stageRec b := by
  conv_rhs => rw [← List.zipIdx_map_fst 0 l, List.filter_map, List.foldl_map]
  rfl

/-- Where no record is of a class, writing that class writes nothing. -/
theorem State.writeRecs_of_none (s : State) {cls : Nat} {rs : List (Rec × Nat)} (h : ∀ x ∈ rs, x.1.cls ≠ cls) :
    s.writeRecs cls rs = .ok s := by
  unfold State.writeRecs
  induction rs with
  | nil => rfl
  | cons x rs ih =>
    rw [List.foldl_cons]
    dsimp only
    rw [if_pos (.inl (h x (by simp)))]
    exact ih fun y hy => h y (List.mem_cons_of_mem _ hy)

section
variable {who : Asker} {ws : List Word} {m : Image} {l : List Rec}

theorem State.mbImgApply_of_mode (h : 2 < arg ws 1) : s.mbImgApply who ws = s.imgDone who 2 := if_pos h

theorem State.mbImgApply_of_bad {st : Nat} (h : arg ws 1 ≤ 2) (hi : s.image = .error st) : s.mbImgApply who ws = s.imgDone who st := by
  unfold State.mbImgApply
  rw [if_neg (by omega), hi]

theorem State.mbImgApply_of_unfit (h : arg ws 1 ≤ 2) (hi : s.image = .ok m) (hf : s.imageFits m = false ∨ m.recs = none) :
    s.mbImgApply who ws = s.imgRefused who none := by
  unfold State.mbImgApply
  rw [if_neg (by omega), hi]
  dsimp only
  by_cases hfit : s.imageFits m = true
  · rw [if_neg (by simp [hfit]), hf.resolve_left (by simp [hfit])]
  · rw [if_pos hfit]

theorem State.mbImgApply_of_refused (h : arg ws 1 ≤ 2) (hi : s.image = .ok m) (hfit : s.imageFits m = true) (hl : m.recs = some l)
    (hr : l.find? (fun x => !x.allowed) ≠ none) : ∃ i, s.mbImgApply who ws = s.imgRefused who i := by
  unfold State.mbImgApply
  rw [if_neg (by omega), hi]
  dsimp only
  rw [if_neg (by simp [hfit]), hl]
  dsimp only
  rw [← find_zipIdx_refused] at hr
  cases hx : l.zipIdx.find? (fun x => !x.1.allowed) with
  | none => exact absurd (by rw [hx]; rfl) hr
  | some x => exact ⟨_, rfl⟩

/-- A good image is applied as its MODE says. -/
theorem State.mbImgApply_of_good (h : arg ws 1 ≤ 2) (hi : s.image = .ok m) (hfit : s.imageFits m = true) (hl : m.recs = some l)
    (hr : l.find? (fun x => !x.allowed) = none) :
    (arg ws 1 = 0 → s.mbImgApply who ws = s.applyStart who m l.zipIdx) ∧
    (arg ws 1 = 1 → s.mbImgApply who ws = s.applyLocal who m l.zipIdx) ∧
    (arg ws 1 = 2 → s.mbImgApply who ws = s.applyDomain who m l.zipIdx) := by
  unfold State.mbImgApply
  rw [if_neg (by omega), hi]
  dsimp only
  rw [if_neg (by simp [hfit]), hl]
  dsimp only
  have hx : l.zipIdx.find? (fun x => !x.1.allowed) = none := by
    rw [← find_zipIdx_refused] at hr
    simpa using hr
  refine ⟨fun h0 => ?_, fun h1 => ?_, fun h2 => ?_⟩
  · simp only [hx, h0]
  · simp only [hx, h1]
  · simp only [hx, h2]

theorem State.imgApplied_told (hb : s.mc.mb.busy = some r) : (∀ q, MbAnswered ((s.imgApplied .mailbox m).ended q) 0) ∧
    (s.imgApplied .mailbox m).mc.serial = some m.serial ∧ (s.imgApplied .mailbox m).tbl = s.tbl := by
  have h := State.imgDone_told (s := { s with mc := { s.mc with serial := some m.serial } }) hb 0
  exact ⟨h.answered, h.serial, h.tbl⟩

/-- The block with tables `b`. -/
def State.withTables (s : State) (b : Tables) : State := { s with tbl := b }

/-- MODE 1: this chip's records are staged and sealed. -/
theorem State.applyLocal_seals (hb : s.mc.mb.busy = some r) (hopen : ¬(s.cycleBusy false = true ∨ s.stageOpen = false))
    (hcls : ∀ x ∈ l, x.cls ≠ 2) {staged : Tables}
    (hst : (l.filter (fun x => decide (x.cls = 1) && x.isFor s.own)).foldl Tables.stageRec s.tbl = staged)
    (hok : (s.withTables staged).stagingOk = true) :
    (∀ q, MbAnswered ((s.applyLocal .mailbox m l.zipIdx).ended q) 0) ∧ (s.applyLocal .mailbox m l.zipIdx).mc.serial = some m.serial ∧
      (s.applyLocal .mailbox m l.zipIdx).tbl = { staged with other := .ready, phase := .staged } := by
  have hrun : s.applyLocal .mailbox m l.zipIdx =
      ((s.withTables { staged with other := .ready, phase := .staged }).sayLock).imgApplied .mailbox m := by
    unfold State.applyLocal
    rw [if_neg (by simpa using hopen)]
    dsimp only
    rw [foldl_stageRec_zipIdx l (fun x => decide (x.cls = 1) && x.isFor s.own), hst]
    have hcls' : ∀ x ∈ l.zipIdx, x.1.cls ≠ 2 := fun x hx => hcls x.1 (List.fst_mem_of_mem_zipIdx hx)
    rw [if_neg (show ¬¬({ s with tbl := staged } : State).stagingOk = true from not_not.mpr hok), State.writeRecs_of_none _ hcls']
    rfl
  obtain ⟨hk, hstill⟩ := (s.withTables { staged with other := .ready, phase := .staged }).sayLock_kept
  obtain ⟨ha, hs, ht⟩ := State.imgApplied_told (m := m) (s := (s.withTables { staged with other := .ready, phase := .staged }).sayLock)
    ((congrArg Mailbox.busy hstill.mb :).trans hb)
  rw [hrun]
  exact ⟨ha, hs, ht.trans hk.tbl⟩

/-- MODE 2: the records go out on a cycle led here. -/
theorem State.applyDomain_leads (hopen : ¬(s.cycleBusy false = true ∨ s.stageOpen = false))
    (hk : s.ownKids s.own s.ident.pkey.toNat ≠ []) (rs : List (Rec × Nat)) :
    CycleLed s (s.applyDomain .mailbox m rs) (.apply m.serial) := by
  unfold State.applyDomain
  rw [if_neg (by simpa using hopen)]
  exact State.cycle_waits s _ (.inl hk) (State.waves1_staging _ _)

end

/-! ### MB_TAKEOVER -/

section
variable {ws : List Word}

/-- The arguments of a takeover that may stand. -/
def TakeoverArgs (ws : List Word) : Prop := arg ws 1 < 2 ^ 18 ∧ arg ws 2 < 2 ^ 18 ∧ arg ws 1 ≠ arg ws 2 ∧ arg ws 3 ≤ 1

theorem State.mbTakeover_of_bad (h : ¬TakeoverArgs ws) : s.mbTakeover .mailbox ws = s.answerAsk .mailbox 2 [] := by
  unfold TakeoverArgs at h
  unfold State.mbTakeover
  dsimp only
  exact if_pos (by omega)

theorem State.mbTakeover_of_busy (h : TakeoverArgs ws) (hb : s.cycleBusy false = true ∨ s.stageOpen = false) :
    s.mbTakeover .mailbox ws = s.answerAsk .mailbox 5 [] := by
  obtain ⟨h1, h2, h3, h4⟩ := h
  unfold State.mbTakeover
  dsimp only
  rw [if_neg (by omega), if_pos (by simpa using hb)]

theorem State.mbTakeover_of_unreached {rs : List Rec} (h : TakeoverArgs ws) (hb : s.cycleBusy false = false) (ho : s.stageOpen = true)
    (hrs : s.takeoverRecs = .ok rs) (hr : s.resolve s.tbl.cur (arg ws 2) = none ∨ s.rankReach (arg ws 2) 5 0xC1 = false) :
    s.mbTakeover .mailbox ws = s.answerAsk .mailbox 9 [] := by
  obtain ⟨h1, h2, h3, h4⟩ := h
  unfold State.mbTakeover
  dsimp only
  rw [if_neg (by omega), if_neg (by simp [hb, ho]), hrs]
  cases hp : s.resolve s.tbl.cur (arg ws 2) with
  | none => rfl
  | some pos =>
    obtain ⟨x, y, z⟩ := pos
    have hreach := hr.resolve_left (by simp [hp])
    exact if_pos (by simp [hreach])

theorem State.mbTakeover_leads {rs : List Rec} {pos : Pos} (h : TakeoverArgs ws) (hb : s.cycleBusy false = false)
    (ho : s.stageOpen = true) (hrs : s.takeoverRecs = .ok rs) (hp : s.resolve s.tbl.cur (arg ws 2) = some pos)
    (hreach : s.rankReach (arg ws 2) 5 0xC1 = true) :
    CycleLed s.setRecov (s.mbTakeover .mailbox ws)
      (.takeover (BitVec.ofNat 18 (arg ws 1)) (BitVec.ofNat 18 (arg ws 2)) ((arg ws 3).testBit 0)) := by
  obtain ⟨h1, h2, h3, h4⟩ := h
  obtain ⟨x, y, z⟩ := pos
  have hstage (use : LeadUse) (head : List Word) (l : List Rec) (failed spare : Nat) (same : Bool) (at_ : Nat) :
      CycleLed s.setRecov (((l.foldl (fun (t : State) r => t.wave 1 r.words) ((s.setRecov.leadStart use .mailbox).wave 1 head)).sendSpare
        failed spare same at_ rs).treeGo) use := by
    have hw := ((s.setRecov.leadStart use .mailbox).wave1_staging head).trans
      (State.waves1_staging ((s.setRecov.leadStart use .mailbox).wave 1 head) l)
    obtain ⟨b, hb⟩ := hw.part _ rfl
    exact State.cycle_waits _ _ (.inr (State.sendSpare_busy hb _ _ _ _ _)) (hw.trans (State.sendSpare_staging _ _ _ _ _ _))
  have hrun : ∃ (head : List Word) (l : List Rec) (at_ : Nat), s.mbTakeover .mailbox ws = (((l.foldl (fun (t : State) r => t.wave 1 r.words)
      ((s.setRecov.leadStart (.takeover (BitVec.ofNat 18 (arg ws 1)) (BitVec.ofNat 18 (arg ws 2)) ((arg ws 3).testBit 0)) .mailbox).wave 1
        head)).sendSpare (arg ws 1) (arg ws 2) ((arg ws 3).testBit 0) at_ rs).treeGo) := by
    unfold State.mbTakeover
    dsimp only
    rw [if_neg (by omega), if_neg (by simp [hb, ho]), hrs, hp]
    dsimp only
    rw [if_neg (by simp [hreach])]
    exact ⟨_, _, _, rfl⟩
  obtain ⟨head, l, at_, hrun⟩ := hrun
  rw [hrun]
  exact hstage _ _ _ _ _ _ _

end

end

/-- Settles O46: an image's refusals and a busy cycle are told the mailbox; a cycle that begins is led here, and waits. -/
theorem imagesAreApplied : Obligations.ImagesAreApplied := by
  unfold Obligations.ImagesAreApplied
  intro s r hw ws q waits
  have hb : q.mc.mb.busy = some { r with started := true } := rfl
  have hwaits (v : State) (use : LeadUse) (h : CycleLed q v use) : waits (v.ended s.pending) use :=
    ⟨h.lead, h.cycle, (congrArg Mailbox.busy h.mb :)⟩
  refine ⟨fun hc => ?_, fun hc => ?_, fun hc => ?_⟩
  · intro applies refuses
    have hdo : (s.asked r).mbDo .mailbox s.expert r.words = q.mbImgApply .mailbox ws := by
      simp only [State.mbDo, show reqCmd r.words = 0x22 from hc]
      rfl
    have hrow {row : Instr} {P : State → Prop} (happ : (row = .mbImgApplyStart ∧ arg ws 1 ≠ 1 ∧ arg ws 1 ≠ 2) ∨
        (row = .mbImgApplyStageLocal ∧ arg ws 1 = 1) ∨ (row = .mbImgApplyStageDomain ∧ arg ws 1 = 2))
        (hP : P ((q.mbImgApply .mailbox ws).ended s.pending)) : Answers row s P := by
      refine answers_iff.mpr ?_
      rw [← hdo] at hP
      rcases happ with ⟨rfl, h1, h2⟩ | ⟨rfl, h1⟩ | ⟨rfl, h2⟩
      · show Meets (execMbImgApplyStart s) P
        unfold execMbImgApplyStart
        exact .mbRowOf hw (by simp [show reqCmd r.words = 0x22 from hc, show arg r.words 1 ≠ 1 from h1, show arg r.words 1 ≠ 2 from h2]) hP
      · show Meets (execMbImgApplyStageLocal s) P
        unfold execMbImgApplyStageLocal
        exact .mbRowOf hw (by simp [show reqCmd r.words = 0x22 from hc, show arg r.words 1 = 1 from h1]) hP
      · show Meets (execMbImgApplyStageDomain s) P
        unfold execMbImgApplyStageDomain
        exact .mbRowOf hw (by simp [show reqCmd r.words = 0x22 from hc, show arg r.words 1 = 2 from h2]) hP
    have happlies {row : Instr} {P : State → Prop} (ha : applies row) (hP : arg ws 1 ≤ 2 → P ((q.mbImgApply .mailbox ws).ended s.pending)) :
        Answers row s P := by
      rcases ha with ⟨h, h0⟩ | ⟨h, h1⟩ | ⟨h, h2⟩
      · exact hrow (.inl ⟨h, by omega, by omega⟩) (hP (by omega))
      · exact hrow (.inr (.inl ⟨h, h1⟩)) (hP (by omega))
      · exact hrow (.inr (.inr ⟨h, h2⟩)) (hP (by omega))
    have hrefused (i : Option Nat) : refuses ((q.imgRefused .mailbox i).ended s.pending) := by
      have h := State.imgRefused_told hb i
      exact ⟨h.answered _, h.tbl, h.serial⟩
    refine ⟨fun h2 => hrow (.inl ⟨rfl, by omega, by omega⟩) ?_, fun st row ha hi => happlies ha fun hle => ?_,
      fun m row ha hi hf => happlies ha fun hle => ?_, fun m l row ha hi hfit hl hr => happlies ha fun hle => ?_,
      ?_⟩
    · rw [State.mbImgApply_of_mode h2]
      exact (State.imgDone_told hb 2).answered _
    · rw [State.mbImgApply_of_bad hle hi]
      have h := State.imgDone_told hb st
      exact ⟨h.answered _, h.tbl⟩
    · rw [State.mbImgApply_of_unfit hle hi hf]
      exact hrefused none
    · obtain ⟨i, h⟩ := State.mbImgApply_of_refused (who := .mailbox) hle hi hfit hl hr
      rw [h]
      exact hrefused i
    · intro m l hi hfit hl hr rs busy
      have hgood (hle : arg ws 1 ≤ 2) := State.mbImgApply_of_good (who := .mailbox) hle hi hfit hl hr
      have hstart {P : State → Prop} (h0 : arg ws 1 = 0) (hP : P ((q.applyStart .mailbox m rs).ended s.pending)) :
          Answers .mbImgApplyStart s P := by
        refine hrow (.inl ⟨rfl, by omega, by omega⟩) ?_
        rw [(hgood (by omega)).1 h0]
        exact hP
      have hlocal {P : State → Prop} (h1 : arg ws 1 = 1) (hP : P ((q.applyLocal .mailbox m rs).ended s.pending)) :
          Answers .mbImgApplyStageLocal s P := by
        refine hrow (.inr (.inl ⟨rfl, h1⟩)) ?_
        rw [(hgood (by omega)).2.1 h1]
        exact hP
      have hdomain {P : State → Prop} (h2 : arg ws 1 = 2) (hP : P ((q.applyDomain .mailbox m rs).ended s.pending)) :
          Answers .mbImgApplyStageDomain s P := by
        refine hrow (.inr (.inr ⟨rfl, h2⟩)) ?_
        rw [(hgood (by omega)).2.2 h2]
        exact hP
      have hbusy (hbz : busy) : (q.cycleBusy false = true ∨ ¬q.stageOpen = true) := by simpa using hbz
      have h5 := State.imgDone_told hb 5
      refine ⟨fun h0 hno => hstart h0 ?_, fun v u h0 hopen hv hu => hstart h0 ?_, fun h1 hbz => hlocal h1 ?_,
        fun h1 hnb hcls => ?_, fun h2 hbz => hdomain h2 ?_, fun h2 hnb hk => hdomain h2 ?_⟩
      · unfold State.applyStart
        rw [if_pos (by simp [hno])]
        have h := State.imgRefused_told hb none
        exact ⟨h.answered _, h.serial⟩
      · unfold State.applyStart
        rw [if_neg (by simp [hopen]), hv]
        dsimp only
        rw [hu]
        rfl
      · unfold State.applyLocal
        rw [if_pos (hbusy hbz)]
        exact ⟨h5.answered _, h5.tbl⟩
      · intro staged hok
        have h := State.applyLocal_seals (s := q) (m := m) hb hnb hcls (staged := staged) rfl hok
        exact hlocal h1 ⟨h.1 _, h.2.1, h.2.2⟩
      · unfold State.applyDomain
        rw [if_pos (hbusy hbz)]
        exact ⟨h5.answered _, h5.tbl⟩
      · exact hwaits _ _ (State.applyDomain_leads hnb hk rs)
  · have hdo : (s.asked r).mbDo .mailbox s.expert r.words = q.mbTableSwap .mailbox ws := by
      simp only [State.mbDo, show reqCmd r.words = 0x24 from hc]
      rfl
    refine ⟨fun hbz => answers_iff.mpr (.mbRow hw hc hdo ?_), fun hnb hk => answers_iff.mpr (.mbRow hw hc hdo ?_)⟩
    · unfold State.mbTableSwap
      rw [if_pos hbz]
      have h := State.answer_told hb 5 []
      exact ⟨h.answered _, h.tbl⟩
    · unfold State.mbTableSwap
      rw [if_neg (by simp [hnb])]
      exact hwaits _ _ (State.cycle_waits q .swap (.inl hk) (Staging.refl _))
  · intro failed spare good
    have hdo : (s.asked r).mbDo .mailbox s.expert r.words = q.mbTakeover .mailbox ws := by
      simp only [State.mbDo, show reqCmd r.words = 0x30 from hc]
      rfl
    have htold {st : Nat} (h : q.mbTakeover .mailbox ws = q.answerAsk .mailbox st []) :
        MbAnswered ((q.mbTakeover .mailbox ws).ended s.pending) st := by
      rw [h]
      exact (State.answer_told hb st []).answered _
    refine ⟨fun hbad => answers_iff.mpr (.mbRow hw hc hdo ?_), fun hg hbz => answers_iff.mpr (.mbRow hw hc hdo ?_),
      fun rs hg hnb ho hrs hr => answers_iff.mpr (.mbRow hw hc hdo ?_),
      fun rs pos hg hnb ho hrs hp hr => answers_iff.mpr (.mbRow hw hc hdo ?_)⟩
    · exact htold (State.mbTakeover_of_bad hbad)
    · exact htold (State.mbTakeover_of_busy hg hbz)
    · exact htold (State.mbTakeover_of_unreached hg hnb ho hrs hr)
    · have h := State.mbTakeover_leads hg hnb ho hrs hp hr
      exact ⟨h.recov, h.lead, h.cycle, (congrArg Mailbox.busy h.mb :)⟩

end Sys2Proof.Machine

namespace Sys2Proof.Machine

/-! ## Words of a payload -/

theorem leNat_leBytes_four {n : Nat} (h : n < 4294967296) : leNat (leBytes 4 n) = n := by
  simp only [leBytes, leNat, BitVec.toNat_ofNat]
  omega

/-- A response of one word, read back. -/
theorem payWords_wordBytes_one (w : Word) : payWords (wordBytes [w]) = [w] := by
  have hlen : (leBytes 4 w.toNat).length = 4 := rfl
  have hlt : w.toNat < 4294967296 := w.isLt
  simp only [payWords, wordBytes, List.flatMap_cons, List.flatMap_nil, List.append_nil, hlen, Nat.reduceDiv, List.range_one,
    List.map_cons, List.map_nil, Nat.mul_zero, List.drop_zero]
  rw [List.take_of_length_le (by rw [hlen]), leNat_leBytes_four hlt, BitVec.ofNat_toNat, BitVec.setWidth_eq]

/-! ## Management packets between kernels (R478 to R480) -/

section
variable {s t u : State}

/-- In `t` the requests answered are those of `s`. -/
def Recalled (s t : State) : Prop := t.mc.answered = s.mc.answered

theorem Recalled.refl (s : State) : Recalled s s := rfl
theorem Recalled.trans (h : Recalled s t) (h' : Recalled t u) : Recalled s u := Eq.trans h' h
theorem Recalled.of_same {l : List Fld} (h : Same (mask l) s t) (hl : Fld.mc.bit &&& mask l = 0) : Recalled s t :=
  (congrArg Core.answered (h .mc hl : s.mc = t.mc) :).symm

theorem State.wrPart_recalled (s : State) (priv : Bool) (d : Word) : Recalled s (s.wrPart priv d) := by
  unfold State.wrPart
  split
  · exact .refl s
  · extract_lets k gen _ _ s1 x _ s2 _
    have h1 : Recalled s s1 := by
      dsimp only [s1]
      split <;> rfl
    split
    · have h2 : Same (mask [.abort]) s1 s2 := by simp [s2]
      split
      · exact h1.trans ((Recalled.of_same h2 rfl).trans (.of_same (l := [.out, .ident, .rg, .chans, .scal, .eng, .hm, .ra, .streams,
          .ev, .inj, .pseq, .eject, .tows, .reins, .rrUsed, .counts, .links, .flt, .ccnt, .logs, .groups, .teams, .phys, .abort, .mons,
          .cmap]) (by simp) rfl))
      · exact h1.trans (.of_same h2 rfl)
    · exact h1.trans (.of_same (l := [.ident]) (by simp) rfl)

/-- The registers of a spare's number: a write of one leaves the requests answered. -/
theorem State.writeReg_spare_recalled (s : State) {off : Nat} (ho : off = 0x10C ∨ off = 0x110 ∨ off = 0x100 ∨ off = 0x108 ∨
    spareTarget off = true) (d : Word) : Recalled s (s.writeReg off true d) := by
  rcases ho with rfl | rfl | rfl | rfl | ho
  · exact .of_same (l := [.ident]) (by simp [State.writeReg, State.writeLow, inArr]) rfl
  · exact .of_same (l := [.ident]) (by simp [State.writeReg, State.writeLow, inArr]) rfl
  · exact .of_same (l := [.out, .ident, .tows, .links, .phys]) (by simp [State.writeReg, State.writeLow, inArr]) rfl
  · have h : s.writeReg 0x108 true d = s.wrPart true d := by simp [State.writeReg, State.writeLow, inArr]
    rw [h]
    exact s.wrPart_recalled true d
  · simp only [spareTarget, Bool.and_eq_true, decide_eq_true_eq] at ho
    unfold State.writeReg
    rw [if_neg (by omega), if_neg (by omega), if_neg (by omega), if_neg (by omega), if_neg (by omega), if_neg (by omega),
      if_pos (by omega)]
    split
    · exact .refl s
    · exact .of_same (l := [.out, .rg, .chans, .scal, .eng, .hm, .ev, .inj, .pseq, .tbl, .tows, .reins, .counts, .links, .ccnt, .logs,
        .groups, .phys]) (by simp) rfl

/-- The block with tables `b` and part `q`. -/
def State.joins (s : State) (b : Tables) (q : LockPart) : State := { s with tbl := b, mc := { s.mc with part := some q } }

theorem State.spareJoin_recalled (s : State) (p : Packet) (failed former pos : Nat) :
    Recalled s (s.spareJoin p failed former pos) ∧ (s.spareJoin p failed former pos).mc.spareWait = s.mc.spareWait := by
  have hlock (v : State) : Recalled v v.sayLock ∧ v.sayLock.mc.spareWait = v.mc.spareWait := by
    have h : Same (mask [.rg, .ev, .logs]) v v.sayLock := by simp
    exact ⟨.of_same h rfl, (congrArg Core.spareWait (h .mc rfl : v.mc = v.sayLock.mc) :).symm⟩
  unfold State.spareJoin
  extract_lets cycle mine b
  split
  · exact ⟨.refl s, rfl⟩
  · extract_lets t q
    split
    · exact ⟨.refl s, rfl⟩
    · exact ⟨Recalled.trans (t := t.joins { t.tbl with other := .ready, phase := .staged, cycle := cycle } q) rfl (hlock _).1,
        (hlock (t.joins { t.tbl with other := .ready, phase := .staged, cycle := cycle } q)).2⟩

theorem spareTarget_grpOff {g : Nat} (h : g < 512) : spareTarget (grpOff g) = true := by
  unfold spareTarget grpOff
  rw [decide_eq_true (by omega), decide_eq_true (by omega)]
  rfl

/-- The block waits for the release that ends a takeover. -/
def State.awaitsRelease (s : State) : State := { s with mc := { s.mc with spareWait := true } }

theorem State.spareHere_recalled (s : State) (p : Packet) (ws : List Word) : Recalled s (s.spareHere p ws) ∧
    (ws.getD 0 0 = 0xFFFFFFFE → (s.spareHere p ws).mc.spareWait = true) := by
  unfold State.spareHere
  extract_lets w s1 gs s2 _ s3
  split
  · have h1 : Recalled s s1 := ((State.writeReg_spare_recalled s (by simp) _).trans (State.writeReg_spare_recalled _ (by simp) _)).trans
      (State.writeReg_spare_recalled _ (by simp) _)
    have h2 : Recalled s1 s2 := by
      have hfold : ∀ (l : List Nat) (t : State), (∀ g ∈ l, g < 512) →
          Recalled t (l.foldl (fun t g => t.writeReg (grpOff g) true (t.force (grpOff g) ||| 1)) t) := by
        intro l
        induction l with
        | nil => exact fun t _ => .refl t
        | cons g l ih =>
          intro t hl
          exact (State.writeReg_spare_recalled t (.inr (.inr (.inr (.inr (spareTarget_grpOff (hl g (by simp))))))) _).trans
            (ih _ fun x hx => hl x (List.mem_cons_of_mem _ hx))
      exact (hfold gs s1 fun g hg => List.mem_range.mp (List.mem_filter.mp hg).1).trans (State.writeReg_spare_recalled _ (by simp) _)
    have h3 : Recalled s2 s3 ∧ s3.mc.spareWait = true := ⟨rfl, rfl⟩
    clear_value s3 s2 s1
    split
    · exact ⟨(h1.trans h2).trans h3.1, fun _ => h3.2⟩
    · obtain ⟨h4, hw⟩ := s3.spareJoin_recalled p (fld (w 1).toNat 0 18) (fld (w 21).toNat 0 18) (fld (w 22).toNat 0 22)
      exact ⟨((h1.trans h2).trans h3.1).trans h4, fun _ => hw.trans h3.2⟩
  · next h0 =>
    refine ⟨?_, fun h => absurd h h0⟩
    split
    · exact .refl s
    · refine foldl_keeps (R := Recalled) Recalled.refl Recalled.trans _ (fun t r => ?_) _ s
      refine foldl_keeps (R := Recalled) Recalled.refl Recalled.trans _ (fun u e => ?_) _ t
      split
      · next he => exact u.writeReg_spare_recalled (.inr (.inr (.inr (.inr he)))) _
      · exact .refl u

/-- What the answer to a request by packet `p` is kept as. -/
theorem State.mgtReply_keeps (s : State) (p : Packet) (ws : List Word) :
    ⟨p.src, qf p.h7 0 32, p.aux, wordBytes ws⟩ ∈ (s.mgtReply p ws).mc.answered := by
  rw [State.mgtReply_mc]
  exact Core.mem_noted _ _

/-- A request that the mailbox no longer waits for. -/
def MgtOut.disowned (m : MgtOut) : MgtOut := { m with who := m.who.map (fun a => if a = .mailbox then .nobody else a) }

theorem State.mbDone_outst {r : MbReq} (hb : s.mc.mb.busy = some r) (st : Nat) (ws : List Word) :
    (s.mbDone st ws).mc.outst = s.mc.outst.map MgtOut.disowned := by
  unfold State.mbDone
  rw [hb]
  dsimp only
  rw [State.emit_mc]
  rfl

/-- A response ends the request it matches, and the mailbox that forwarded it is told. -/
theorem State.rsp_ends {o : MgtOut} {r : MbReq} (hb : s.mc.mb.busy = some r) (ws : List Word)
    (ht : t.mc = { s.mc with outst := s.mc.outst.filter (fun x => decide (x.mseq ≠ o.mseq)) }) (q : List Instr) :
    (∀ x ∈ ((t.answerAsk .mailbox 0 ws).ended q).mc.outst, x.mseq ≠ o.mseq) ∧ MbAnswered ((t.answerAsk .mailbox 0 ws).ended q) 0 := by
  have hbt : t.mc.mb.busy = some r := by
    rw [ht]
    exact hb
  refine ⟨fun x hx => ?_, (State.answerAsk_told hbt).answered q⟩
  have hm : x ∈ (t.mbDone 0 ws).mc.outst := hx
  rw [State.mbDone_outst hbt, List.mem_map] at hm
  obtain ⟨y, hy, rfl⟩ := hm
  rw [ht] at hy
  exact of_decide_eq_true (List.mem_filter.mp hy).2

/-- The core with the requests `l` outstanding. -/
def State.withOutst (s : State) (l : List MgtOut) : State := { s with mc := { s.mc with outst := l } }

theorem State.withOutst_outst (s : State) (l : List MgtOut) : (s.withOutst l).mc.outst = l := rfl
theorem State.withOutst_inj (s : State) (l : List MgtOut) : (s.withOutst l).inj = s.inj := rfl

/-- The packet of a request sent again. -/
def MgtOut.head (o : MgtOut) : Hd :=
  { opcode := 0xC1, vc := 5, dst := o.dst, len := o.pay.length, ctx := 3, aux := o.aux, h5 := o.h5, h6 := o.h6, h7 := o.mseq }

theorem State.mgtResend_eq (s : State) (o : MgtOut) :
    s.mgtResend o = (s.form o.head o.pay none (some (o.pkey, fld o.h5 16 8))).withOutst
      ((s.form o.head o.pay none (some (o.pkey, fld o.h5 16 8))).mc.outst.map
        (fun x => if x.mseq = o.mseq then { x with at_ := s.now, sends := x.sends + 1 } else x)) := rfl

/-- A request sent again is outstanding under its number, one send on. -/
theorem State.mgtResend_resends {o : MgtOut} (ho : o ∈ s.mc.outst) :
    { o with at_ := s.now, sends := o.sends + 1 } ∈ (s.mgtResend o).mc.outst ∧
      ∃ x, (s.mgtResend o).inj = s.inj ++ [x] ∧ x.pkt.opcode = 0xC1 ∧ x.pkt.dst = o.dst % 2 ^ 18 ∧
        qf x.pkt.h7 0 32 = o.mseq % 2 ^ 32 := by
  obtain ⟨x, hx, hc⟩ := State.form_inj s o.head o.pay none (some (o.pkey, fld o.h5 16 8))
  have hmc : s.mc = (s.form o.head o.pay none (some (o.pkey, fld o.h5 16 8))).mc :=
    (State.form_same s _ _ _ _ (μ := mask [.rg, .inj, .pseq, .counts]) (by simp)).mpr (Same.refl _ s) .mc rfl
  rw [State.mgtResend_eq, State.withOutst_outst, State.withOutst_inj, ← hmc]
  refine ⟨List.mem_map.mpr ⟨o, ho, if_pos rfl⟩, x, hx, hc.opcode, hc.dst, ?_⟩
  rw [hc.h7]
  exact qf_quad (by decide) (by simp [MgtOut.head])

end

section
variable {s : State} {i : Nat} {h : Held}

theorem Meets.mbReqSpare {msg : Nat} (hc : MgtComes s i h 2 msg) : Meets (execMbReqSpare i s) (fun t =>
    let ws := payWords h.pkt.pay
    t = { ((s.accepted i h).mgtReply h.pkt []).spareHere h.pkt ws with pending := s.pending } ∧
      (ws.getD 0 0 = 0xFFFFFFFE → t.mc.spareWait = true) ∧ ∃ a ∈ t.mc.answered, a.src = h.pkt.src ∧ a.mseq = qf h.pkt.h7 0 32) := by
  have hended (v : State) (hw : (payWords h.pkt.pay).getD 0 0 = 0xFFFFFFFE → v.mc.spareWait = true)
      (hm : ∃ a ∈ v.mc.answered, a.src = h.pkt.src ∧ a.mseq = qf h.pkt.h7 0 32) :
      v.ended s.pending = { v with pending := s.pending } ∧
        ((payWords h.pkt.pay).getD 0 0 = 0xFFFFFFFE → (v.ended s.pending).mc.spareWait = true) ∧
        ∃ a ∈ (v.ended s.pending).mc.answered, a.src = h.pkt.src ∧ a.mseq = qf h.pkt.h7 0 32 := ⟨rfl, hw, hm⟩
  unfold execMbReqSpare
  refine .mgtRow hc (by simp) ?_
  obtain ⟨hrec, hwait⟩ := ((s.accepted i h).mgtReply h.pkt []).spareHere_recalled h.pkt (payWords h.pkt.pay)
  have hkept := (s.accepted i h).mgtReply_keeps h.pkt []
  rw [← show _ = _ from hrec] at hkept
  exact hended _ hwait ⟨_, hkept, rfl, rfl⟩

theorem Meets.mbRsp (ha : Accepts s i h) (hop : h.pkt.opcode = 0xC2) : Meets (execMbRsp i s) (fun t =>
    ∀ o, s.mc.outst.find? (fun o => decide (o.mseq = qf h.pkt.h7 0 32)) = some o → o.who = some .mailbox → s.mc.mb.busy.isSome = true →
      (∀ x ∈ t.mc.outst, x.mseq ≠ o.mseq) ∧ MbAnswered t 0) := by
  refine .pktRow ha (by simp [hop]) ?_
  intro o ho hwho hb
  have hmc : s.mc = (s.accepted i h).mc := ha.same .mc rfl
  obtain ⟨r, hr⟩ := Option.isSome_iff_exists.mp hb
  dsimp only
  rw [← hmc, ho]
  dsimp only
  rw [hwho]
  refine State.rsp_ends (s := s.accepted i h) (r := r) (by rw [← hmc]; exact hr) _ ?_ _
  rw [hmc]

theorem Meets.assist (ha : Accepts s i h) (hop : h.pkt.opcode = 0xC3) (hk : h.pkt.pkey = s.ident.pkey.toNat) (hport : h.port < 12)
    (hpeer : (s.link h.port).peer.chip = h.pkt.src) : Meets (execAssist i s) (fun t =>
      t.far.queue = s.far.queue ++ [⟨BitVec.ofNat 128 (leNat (h.pkt.pay.take 16)), some (h.pkt, h.port)⟩]) := by
  refine .pktRow ha (by simp [hop]) ?_
  have hid : s.ident = (s.accepted i h).ident := ha.same .ident rfl
  have hlinks : s.links = (s.accepted i h).links := ha.same .links rfl
  have hfar : s.far = (s.accepted i h).far := ha.same .far rfl
  dsimp only
  rw [if_neg (by rw [← hid]; simp [hk]), if_neg (by
    rw [show (s.accepted i h).link h.port = s.link h.port from by unfold State.link; rw [hlinks]]
    simp [hpeer, hport]), hfar]
  rfl

theorem Meets.assistRsp (ha : Accepts s i h) (hop : h.pkt.opcode = 0xC4) (hk : h.pkt.pkey = s.ident.pkey.toNat) :
    Meets (execAssistRsp i s) (fun t => t = { s.accepted i h with pending := s.pending }) := by
  refine .pktRow ha (by simp [hop]) ?_
  have hid : s.ident = (s.accepted i h).ident := ha.same .ident rfl
  dsimp only
  rw [if_neg (by rw [← hid]; simp [hk])]
  rfl

theorem Meets.mgtResend {o : MgtOut} (ha : s.alive = true)
    (ho : s.mc.outst.find? (fun x => decide (x.mseq = o.mseq) && decide (x.at_ + nsTicks 100000 ≤ s.now)) = some o) (hs : o.sends < 8) :
    Meets (execMgtResendTimeout o.mseq s) (fun t => { o with at_ := s.now, sends := o.sends + 1 } ∈ t.mc.outst ∧
      ∃ x, t.inj = s.inj ++ [x] ∧ x.pkt.opcode = 0xC1 ∧ x.pkt.dst = o.dst % 2 ^ 18 ∧ qf x.pkt.h7 0 32 = o.mseq % 2 ^ 32) := by
  unfold execMgtResendTimeout
  rw [ho]
  refine .run ha rfl ?_
  rw [if_pos hs]
  have hended (v : State) {m : MgtOut} {Q : Held → Prop} (hv : m ∈ v.mc.outst ∧ ∃ x, v.inj = s.inj ++ [x] ∧ Q x) :
      m ∈ (v.ended s.pending).mc.outst ∧ ∃ x, (v.ended s.pending).inj = s.inj ++ [x] ∧ Q x := hv
  exact hended _ (State.mgtResend_resends (s := s.cleared) (List.mem_of_find?_eq_some ho))

theorem Meets.mbReqRemote {msg : Nat} (hc : MgtComes s i h 0 msg) {P : State → Prop} (hbusy : (s.accepted i h).remoteBusy h.pkt = false)
    (hrefused : notRemote (reqCmd (payWords h.pkt.pay)) = true → P (((s.accepted i h).answerAsk (.remote h.pkt) 3 []).ended s.pending))
    (hdone : notRemote (reqCmd (payWords h.pkt.pay)) = false → reqCmd (payWords h.pkt.pay) ≠ 0x40 ∧
      P (((s.accepted i h).mbPerform (.remote h.pkt) .full false (payWords h.pkt.pay)).ended s.pending)) :
    Meets (execMbReqRemote i s) P := by
  unfold execMbReqRemote
  refine .mgtRow hc (by simp) ?_
  have hclass : h.pkt.aux % 16 = 0 := hc.2.2.1
  dsimp only
  rw [if_neg (not_not.mpr hclass), if_neg (by simp [hbusy])]
  cases hn : notRemote (reqCmd (payWords h.pkt.pay)) with
  | true => exact hrefused hn
  | false =>
    obtain ⟨hne, hP⟩ := hdone hn
    rw [if_neg (by simp), if_neg (fun hx => hne hx.1)]
    exact hP

end

/-- Settles O25: each management packet's effect, with its answer kept. -/
theorem managementPacketsAct : Obligations.ManagementPacketsAct := by
  unfold Obligations.ManagementPacketsAct
  refine ⟨fun s i h msg hc => ⟨fun hn hb => answers_iff.mpr ?_, fun hn hne hb => answers_iff.mpr ?_⟩,
    fun s i h msg hc => answers_iff.mpr (Meets.mbReqSpare hc),
    fun s i h ha => ⟨fun hop => answers_iff.mpr (Meets.mbRsp ha hop), fun hop hk hport hpeer => answers_iff.mpr (Meets.assist ha hop hk hport hpeer),
      fun hop hk => answers_iff.mpr (Meets.assistRsp ha hop hk)⟩,
    fun s o ha ho hs => answers_iff.mpr (Meets.mgtResend ha ho hs)⟩
  · refine Meets.mbReqRemote hc hb (fun _ => ?_) (fun hf => absurd (hn.symm.trans hf) (by decide))
    exact ⟨_, State.mgtReply_keeps _ _ _, rfl, rfl, payWords_wordBytes_one _⟩
  · exact Meets.mbReqRemote hc hb (fun ht => absurd (hn.symm.trans ht) (by decide)) (fun _ => ⟨hne, rfl⟩)

end Sys2Proof.Machine

namespace Sys2Proof.Machine

/-! ## The control registers of a port (R304, R309 to R311, R443) -/

section
variable {s t u : State} {p : Nat}

/-- What a write of a port's control register leaves before it acts: its register, and the wait of its replay. -/
structure Written (s t : State) (p : Nat) : Prop where
  links : ∀ q, ∃ n, t.link q = { s.link q with toUse := n }
  same : Same (mask [.rg, .links]) s t

/-- The beginning of a write of DX_LNK_CTL: what is stored, and the wait of a replay. -/
def State.lnkStored (s : State) (p : Nat) (priv : Bool) (d : Word) : State :=
  let v := d.toNat
  let d' := if priv && s.enIgnored p (v.testBit 0) then forceBit d 0 ((s.reg (lnkReg p 0)).toNat.testBit 0) else d
  let s1 := s.plainWrite (lnkReg p 0) priv d'
  if priv && !v.testBit 2 then s1.modLink p (fun l => { l with toUse := max 1 (fld v 3 8) }) else s1

theorem State.lnkStored_written (s : State) (p : Nat) (priv : Bool) (d : Word) : Written s (s.lnkStored p priv d) p := by
  unfold State.lnkStored
  extract_lets v d' s1
  have h1 : Same (mask [.rg]) s s1 := by simp [s1]
  have hl (q : Nat) : s1.link q = s.link q := congrArg (fun m => SMap.get (fun _ => Link.reset) m q) (h1 .links rfl).symm
  split
  · refine ⟨fun q => ?_, (State.modLink_same _ _ _ (by simp)).mpr (h1.mono (by simp))⟩
    by_cases hq : q = p
    · subst hq
      exact ⟨_, by rw [State.link_modLink_same, hl]⟩
    · exact ⟨(s.link q).toUse, by rw [State.link_modLink_other _ _ hq, hl]⟩
  · exact ⟨fun q => ⟨(s.link q).toUse, hl q⟩, h1.mono (by simp)⟩

theorem Written.st (h : Written s t p) (q : Nat) : (t.link q).st = (s.link q).st := by
  obtain ⟨n, hn⟩ := h.links q
  rw [hn]

/-- A write that does not fit the budget of time-outs. -/
def LnkFits (v : Nat) : Prop := 64 * max 1 (fld v 3 8) * max 1 (fld v 11 4) ≤ 100000

theorem State.wrLnkCtl_of_long {d : Word} (h : ¬LnkFits d.toNat) : s.wrLnkCtl p true d = s.lnkIgn p := by
  unfold LnkFits at h
  unfold State.wrLnkCtl
  dsimp only
  exact if_pos ⟨rfl, by omega⟩

/-- The end of a write of DX_LNK_CTL: a port may be retrained at once. -/
def State.lnkRetrains (s : State) (p : Nat) (d : Word) : State := if d.toNat.testBit 1 then s.retrainPort p 1 true else s

theorem State.wrLnkCtl_of_fits {d : Word} (h : LnkFits d.toNat) :
    s.wrLnkCtl p true d = (if s.enIgnored p (d.toNat.testBit 0) then
        (if d.toNat.testBit 0 then (s.lnkStored p true d).lnkIgn p else s.lnkStored p true d)
      else if d.toNat.testBit 0 then (s.lnkStored p true d).linkEn p else (s.lnkStored p true d).linkDis p).lnkRetrains p d := by
  unfold LnkFits at h
  unfold State.wrLnkCtl
  dsimp only
  rw [if_neg (by omega)]
  simp only [Bool.true_and, not_true_eq_false, if_false]
  rfl

theorem State.wrLnkCtl_of_enable {d : Word} (h : LnkFits d.toNat) (hen : d.toNat.testBit 0 = true) :
    s.wrLnkCtl p true d = (if s.enIgnored p true then (s.lnkStored p true d).lnkIgn p else (s.lnkStored p true d).linkEn p).lnkRetrains
      p d := by
  rw [State.wrLnkCtl_of_fits h, hen]
  simp only [if_true]

theorem State.wrLnkCtl_of_disable {d : Word} (h : LnkFits d.toNat) (hen : d.toNat.testBit 0 = false) (hi : s.enIgnored p false = false) :
    s.wrLnkCtl p true d = ((s.lnkStored p true d).linkDis p).lnkRetrains p d := by
  rw [State.wrLnkCtl_of_fits h, hen, hi]
  simp only [Bool.false_eq_true, if_false]

/-- An ACTIVE port is retrained by a write that asks for it. -/
theorem State.lnkRetrains_retrains {d : Word} (h : (s.link p).st = .active) (hb : d.toNat.testBit 1 = true) :
    ((s.lnkRetrains p d).link p).st = .retrain := by
  unfold State.lnkRetrains
  rw [if_pos hb]
  exact (State.retrainPort_steered (.inl h) 1 true).st

/-- A port that is not ACTIVE is not retrained by a write. -/
theorem State.retrainPort_unchanged (h : (s.link p).st ≠ .active) (reason : Nat) (send : Bool) : s.retrainPort p reason send = s :=
  if_pos ⟨h, by simp⟩

theorem State.lnkRetrains_unchanged {d : Word} (h : (s.link p).st ≠ .active ∨ d.toNat.testBit 1 = false) : s.lnkRetrains p d = s := by
  unfold State.lnkRetrains
  split
  · next hb => exact State.retrainPort_unchanged (h.resolve_right (by simp [hb])) 1 true
  · rfl

theorem State.lnkIgn_ignores (s : State) (p : Nat) :
    (s.lnkIgn p).links = s.links ∧ ((s.lnkIgn p).reg (lnkReg p 4)).toNat.testBit 16 = true := by
  refine ⟨rfl, ?_⟩
  have h := State.reg_orReg_testBit s (lnkReg p 4) 16 (by decide)
  exact h

/-! ### What enabling does -/

theorem State.enIgnored_fenced (h : s.enIgnored p true = false) (hf : (s.link p).st = .fenced) : s.standing p = false := by
  unfold State.enIgnored at h
  simp only [hf, Bool.or_eq_false_iff, decide_true, Bool.true_and] at h
  simpa using h.2

/-- What enabling makes of a port that is not ignored. -/
structure Enabled (l : Link) (defer : Bool) (m : Link) : Prop where
  off : l.st = .off → m.st = .training
  draining : l.st = .draining → m.st = .draining ∧ m.enPend = true
  deferred : l.st = .fenced → defer = true → m.st = .fenced ∧ m.heldEn = true
  fenced : l.st = .fenced → defer = false → m.st = .training
  active : l.st = .active → m.st = .active

theorem State.linkEn_enabled (hst : (s.link p).st = .fenced → s.standing p = false) :
    Enabled (s.link p) s.selfDefer ((s.linkEn p).link p) := by
  have htrain : ((s.trainPort p).link p).st = .training := (s.trainPort_steered p).st
  unfold State.linkEn
  dsimp only
  constructor
  case off =>
    intro h
    rw [h]
    exact htrain
  case draining =>
    intro h
    rw [h]
    dsimp only
    rw [State.link_modLink_same]
    exact ⟨h, rfl⟩
  case deferred =>
    intro h hd
    rw [h]
    dsimp only
    rw [if_neg (by simp [hst h]), if_pos hd, State.link_modLink_same]
    exact ⟨h, rfl⟩
  case fenced =>
    intro h hd
    rw [h]
    dsimp only
    rw [if_neg (by simp [hst h]), if_neg (by simp [hd])]
    exact htrain
  case active =>
    intro h
    rw [h]
    exact h

/-! ### What disabling does -/

theorem State.link_of_same {l : List Fld} (h : Same (mask l) s t) (hl : Fld.links.bit &&& mask l = 0) (q : Nat) : t.link q = s.link q :=
  congrArg (fun m => SMap.get (fun _ => Link.reset) m q) (h .links hl).symm

/-- What has left in part on a port is read off the packets that stand in the block. -/
theorem State.startedOn_of {l : List Fld} (h : Same (mask l) s t) (hi : Fld.inj.bit &&& mask l = 0) (ht : Fld.tows.bit &&& mask l = 0)
    (hb : ∀ q, (t.link q).basin = (s.link q).basin) (q : Nat) : t.startedOn q = s.startedOn q := by
  have hinj : s.inj = t.inj := h .inj hi
  have htows : s.tows = t.tows := h .tows ht
  unfold State.startedOn State.allHeld
  simp only [hb, hinj, htows]

/-- A port that drains. -/
def Link.drains (l : Link) (now : Nat) : Link := { l with st := .draining, drain := false, since := now, ctlWait := [] }

/-- A port that carries traffic drains when it is disabled, and is done at once where it holds nothing. -/
theorem State.linkDis_drains (h : (s.link p).st = .active ∨ (s.link p).st = .retrain) :
    ∃ u : State, s.linkDis p = u.drainDone p ∧ u.link p = (s.link p).drains s.now ∧ u.startedOn p = s.startedOn p := by
  have hlost : Same (mask [.rg, .ev, .flt, .logs, .ts]) s (s.parentLost p) := by simp
  let s1 := ((s.parentLost p).modLink p (fun l => l.drains s.now)).haltForget p
  let s2 := (s1.portTeams p).foldl (fun t k => t.modTeam k (fun x =>
      match x.st with
      | .retraining => { x with st := if (s.link p).teams.contains k then TeamSt.usable else TeamSt.dropped, retryAt := none }
      | _ => { x with retryAt := none })) s1
  have hdis : s.linkDis p = s2.drainDone p := by
    unfold State.linkDis
    rcases h with h | h
    · rw [h]
      rfl
    · rw [h]
      rfl
  have h2 : Same (mask [.halt, .teams]) ((s.parentLost p).modLink p (fun l => l.drains s.now)) s2 := by
    simp [s2, s1]
  have h3 : Same (mask [.rg, .ev, .flt, .logs, .ts, .links, .halt, .teams]) s s2 :=
    ((State.modLink_same (s.parentLost p) p (fun l => l.drains s.now) (by simp)).mpr (hlost.mono (by simp))).trans (h2.mono (by simp))
  have hlink (q : Nat) : s2.link q = if q = p then (s.link p).drains s.now else s.link q := by
    rw [State.link_of_same h2 rfl]
    split
    · next hq => rw [hq, State.link_modLink_same, State.link_of_same hlost rfl]
    · next hq => rw [State.link_modLink_other _ _ hq, State.link_of_same hlost rfl]
  refine ⟨s2, hdis, by rw [hlink, if_pos rfl], State.startedOn_of h3 rfl rfl (fun q => ?_) p⟩
  rw [hlink]
  split
  · next hq => rw [hq]; rfl
  · rfl

/-- What disabling makes of a port. -/
structure Disabled (l : Link) (started : Bool) (m : Link) : Prop where
  carries : l.st = .active ∨ l.st = .retrain → l.replay ≠ [] ∨ started = true → m.st = .draining
  done : l.st = .active ∨ l.st = .retrain → l.replay = [] → started = false → l.enPend = false → m.st = .off
  other : l.st = .training ∨ l.st = .fenced → l.enPend = false → m.st = .off
  draining : l.st = .draining → m.st = .draining ∧ m.enPend = false

theorem State.linkDis_disabled (s : State) (p : Nat) : Disabled (s.link p) (s.startedOn p) ((s.linkDis p).link p) := by
  constructor
  case carries =>
    intro h hc
    obtain ⟨u, hu, hl, hst⟩ := State.linkDis_drains h
    rw [hu]
    unfold State.drainDone
    dsimp only
    rw [if_neg (by
      rw [hl, hst]
      rintro ⟨-, hr, hn⟩
      exact hc.elim (fun hne => hne hr) hn), hl]
    rfl
  case done =>
    intro h hr hn he
    obtain ⟨u, hu, hl, hst⟩ := State.linkDis_drains h
    rw [hu]
    unfold State.drainDone
    dsimp only
    rw [if_pos (by rw [hl, hst]; exact ⟨rfl, hr, by simp [hn]⟩)]
    exact (State.offPort_steered (by rw [hl]; exact he)).st
  case other =>
    intro h he
    unfold State.linkDis
    rcases h with h | h
    · rw [h]
      exact (State.offPort_steered he).st
    · rw [h]
      exact (State.offPort_steered he).st
  case draining =>
    intro h
    unfold State.linkDis
    rw [h]
    dsimp only
    rw [State.link_modLink_same]
    exact ⟨h, rfl⟩

/-! ### Fences -/

/-- What a fence makes of the ports: those named go FENCED by software, the others keep their state. -/
structure FencedBy (ps : List Nat) (s t : State) : Prop where
  named : ∀ p ∈ ps, (s.link p).st ≠ .off → (t.link p).st = .fenced ∧ ((s.link p).st ≠ .fenced → (t.link p).cause = 7)
  other : ∀ p, p ∉ ps → (t.link p).st = (s.link p).st
  kept : ∀ p, (s.link p).st = .fenced → (t.link p).st = .fenced ∧ (t.link p).cause = (s.link p).cause

theorem State.fenceStep_steered (s : State) (p : Nat) :
    ((s.link p).st = .off ∨ (s.link p).st = .fenced) ∧
        (if (s.link p).st = .off ∨ (s.link p).st = .fenced then s else (s.fencePort p 7).fenceSlots p) = s ∨
      ¬((s.link p).st = .off ∨ (s.link p).st = .fenced) ∧ SteeredTo s p ((s.link p).fence 7 s.now)
        (if (s.link p).st = .off ∨ (s.link p).st = .fenced then s else (s.fencePort p 7).fenceSlots p) := by
  by_cases h : (s.link p).st = .off ∨ (s.link p).st = .fenced
  · exact .inl ⟨h, if_pos h⟩
  · refine .inr ⟨h, ?_⟩
    rw [if_neg h]
    obtain ⟨hoff, hf⟩ := not_or.mp h
    exact (State.fencePort_steered hoff hf 7).trans (Steered.of_same (l := [.rg, .chans, .scal, .ev, .logs]) (by simp) rfl)

/-- Fencing the ports of a list one after another. -/
theorem State.fences_fenced (ps : List Nat) (s : State) : FencedBy ps s (ps.foldl (fun t p =>
    if (t.link p).st = .off ∨ (t.link p).st = .fenced then t else (t.fencePort p 7).fenceSlots p) s) := by
  induction ps generalizing s with
  | nil => exact ⟨fun p hp => absurd hp (by simp), fun _ _ => rfl, fun _ h => ⟨h, rfl⟩⟩
  | cons q ps ih =>
    rw [List.foldl_cons]
    rcases s.fenceStep_steered q with ⟨hq, heq⟩ | ⟨hq, hst⟩
    · rw [heq]
      obtain ⟨hnamed, hother, hkept⟩ := ih s
      refine ⟨fun p hp hoff => ?_, fun p hp => hother p fun hm => hp (List.mem_cons_of_mem q hm), hkept⟩
      rcases List.mem_cons.mp hp with rfl | hm
      · have hf := hq.resolve_left hoff
        exact ⟨(hkept p hf).1, fun hne => absurd hf hne⟩
      · exact hnamed p hm hoff
    · generalize hu : (if (s.link q).st = .off ∨ (s.link q).st = .fenced then s else (s.fencePort q 7).fenceSlots q) = u at hst
      obtain ⟨hnamed, hother, hkept⟩ := ih u
      have hcause (p : Nat) (hp : p ≠ q) : (u.link p).cause = (s.link p).cause := (congrArg Link.cause (hst.2 p hp) :)
      have hstq : (u.link q).st = .fenced := hst.st
      have hcq : (u.link q).cause = 7 := (congrArg Link.cause hst.1 :)
      refine ⟨fun p hp hoff => ?_, fun p hp => ?_, fun p hf => ?_⟩
      · by_cases hpq : p = q
        · subst hpq
          exact ⟨(hkept p hstq).1, fun _ => (hkept p hstq).2.trans hcq⟩
        · have hm := (List.mem_cons.mp hp).resolve_left hpq
          rw [← hst.other_st hpq] at hoff ⊢
          exact hnamed p hm hoff
      · obtain ⟨hpq, hm⟩ := not_or.mp (fun h => hp (List.mem_cons.mpr h))
        exact (hother p hm).trans (hst.other_st hpq)
      · have hpq : p ≠ q := by
          rintro rfl
          exact hq (.inr hf)
        obtain ⟨h1, h2⟩ := hkept p ((hst.other_st hpq).trans hf)
        exact ⟨h1, h2.trans (hcause p hpq)⟩

end

/-- Settles O29: a write of a port's control register enables, disables or retrains it, unless it is ignored; a fence fences the ports it
names, one after another. -/
theorem linkControlWrites : Obligations.LinkControlWrites := by
  unfold Obligations.LinkControlWrites
  refine ⟨fun s p a hp hw => ?_, fun s p a priv hp hw hb => answers_iff.mpr ?_, fun s a hw => answers_iff.mpr ?_,
    fun s a hw => answers_iff.mpr ?_⟩
  · intro l v ignored fits
    have hrow {row : Instr} {P : State → Prop} (hexec : exec row s = regCmd s (decide (p < 12)) (lnkReg p 0) a
        (fun s pr d => s.wrLnkCtl p pr d)) (hP : ∀ t : State, t.links = (s.cleared.wrLnkCtl p true a.data).links →
          t.rg = (s.cleared.wrLnkCtl p true a.data).rg → P t) : Answers row s P := by
      refine answers_iff.mpr ?_
      rw [hexec]
      exact .regCmd (by simp [hp]) hw fun o => hP _ rfl rfl
    have hlink {t u : State} (h : t.links = u.links) : t.link p = u.link p := by
      unfold State.link
      rw [h]
    have hign {t u : State} (hl : t.links = (u.lnkIgn p).links) (hr : t.rg = (u.lnkIgn p).rg) (hst : (u.link p).st = l.st) :
        ignored t := by
      obtain ⟨h1, h2⟩ := u.lnkIgn_ignores p
      refine ⟨by rw [hlink (hl.trans h1), hst], ?_⟩
      rw [show t.reg (lnkReg p 4) = (u.lnkIgn p).reg (lnkReg p 4) from by unfold State.reg; rw [hr]]
      exact h2
    have hwrit := s.cleared.lnkStored_written p true a.data
    have hwst : ((s.cleared.lnkStored p true a.data).link p).st = l.st := hwrit.st p
    have hdefer : (s.cleared.lnkStored p true a.data).selfDefer = s.selfDefer := by
      unfold State.selfDefer
      rw [← (hwrit.same .abort rfl : s.cleared.abort = _)]
      rfl
    have hstand : (s.cleared.lnkStored p true a.data).standing p = s.standing p := by
      unfold State.standing State.fenced State.inF2 State.inF3
      rw [← (hwrit.same .flt rfl : s.cleared.flt = _)]
      rfl
    have hfit (hf : fits) (hen : a.data.toNat.testBit 0 = true) := State.wrLnkCtl_of_enable (s := s.cleared) (p := p) (d := a.data) hf hen
    have hdis (hf : fits) (hen : a.data.toNat.testBit 0 = false) (hi : s.enIgnored p false = false) :=
      State.wrLnkCtl_of_disable (s := s.cleared) (p := p) (d := a.data) hf hen hi
    have hforce {i : Nat} {b : Bool} (h : RgAcc.bit a i = b) : RgAcc.force a i b = a := if_pos h
    obtain ⟨n, hn⟩ := hwrit.links p
    have hstart : (s.cleared.lnkStored p true a.data).startedOn p = s.startedOn p := by
      refine State.startedOn_of hwrit.same rfl rfl (fun q => ?_) p
      obtain ⟨m, hm⟩ := hwrit.links q
      rw [hm]
    generalize s.cleared.lnkStored p true a.data = w at *
    refine ⟨fun hen => ?_, fun hen hf hni => ?_, fun h1 hen hf hst => ?_⟩
    · refine hrow (show execLinkEnable p a s = _ by unfold execLinkEnable; rw [hforce hen]) fun t hl hr =>
        ⟨fun hnf => ?_, fun hf hig hb1 => ?_, fun hf hni => ?_⟩
      · rw [State.wrLnkCtl_of_long hnf] at hl hr
        exact hign hl hr rfl
      · rw [hfit hf hen, if_pos (show s.cleared.enIgnored p true = true from hig), State.lnkRetrains_unchanged (.inr hb1)] at hl hr
        exact hign hl hr hwst
      · rw [hfit hf hen, if_neg (by rw [show s.cleared.enIgnored p true = s.enIgnored p true from rfl, hni]; simp)] at hl
        have hE := State.linkEn_enabled (s := w) (p := p) fun hfen => by
          rw [hstand]
          exact State.enIgnored_fenced hni (hwst.symm.trans hfen)
        rw [hdefer] at hE
        have hdone (h : ((w.linkEn p).link p).st ≠ .active ∨ RgAcc.bit a 1 = false) : t.link p = (w.linkEn p).link p := by
          rw [State.lnkRetrains_unchanged h] at hl
          exact hlink hl
        refine ⟨fun h => ?_, fun h => ?_, fun h hd => ?_, fun h hd => ?_, fun h hb1 => ?_⟩
        · have hs := hE.off (hwst.trans h)
          rw [hdone (.inl (by rw [hs]; simp))]
          exact hs
        · have hs := hE.draining (hwst.trans h)
          rw [hdone (.inl (by rw [hs.1]; simp))]
          exact hs
        · have hs := hE.deferred (hwst.trans h) hd
          rw [hdone (.inl (by rw [hs.1]; simp))]
          exact hs
        · have hs := hE.fenced (hwst.trans h) hd
          rw [hdone (.inl (by rw [hs]; simp))]
          exact hs
        · rw [hdone (.inr hb1)]
          exact hE.active (hwst.trans h)
    · refine hrow (show execLinkDisable p a s = _ by unfold execLinkDisable; rw [hforce hen]) fun t hl _ => ?_
      rw [hdis hf hen hni] at hl
      have hD := w.linkDis_disabled p
      rw [hstart] at hD
      have hrep : (w.link p).replay = l.replay ∧ (w.link p).enPend = l.enPend := by
        rw [hn]
        exact ⟨rfl, rfl⟩
      have hdone (h : ((w.linkDis p).link p).st ≠ .active) : t.link p = (w.linkDis p).link p := by
        rw [State.lnkRetrains_unchanged (.inl h)] at hl
        exact hlink hl
      refine ⟨fun h hc => ?_, fun h hr hst hp => ?_, fun h hp => ?_, fun h => ?_⟩
      · have hs := hD.carries (by rw [hwst]; exact h) (by rw [hrep.1]; exact hc)
        rw [hdone (by rw [hs]; simp)]
        exact hs
      · have hs := hD.done (by rw [hwst]; exact h) (hrep.1.trans hr) hst (hrep.2.trans hp)
        rw [hdone (by rw [hs]; simp)]
        exact hs
      · have hs := hD.other (by rw [hwst]; exact h) (hrep.2.trans hp)
        rw [hdone (by rw [hs]; simp)]
        exact hs
      · have hs := hD.draining (hwst.trans h)
        rw [hdone (by rw [hs.1]; simp)]
        exact hs
    · refine hrow (show execLinkRetrainWrite p a s = _ by unfold execLinkRetrainWrite; rw [hforce h1]) fun t hl _ => ?_
      rw [hfit hf hen] at hl
      rw [hlink hl]
      refine State.lnkRetrains_retrains ?_ h1
      split
      · exact hwst.trans hst
      · exact (State.linkEn_enabled (s := w) (p := p) fun hfen => by rw [hwst, show l.st = .active from hst] at hfen; cases hfen).active
          (hwst.trans hst)
  · show Meets (execLnkInjArm p a s) _
    unfold execLnkInjArm
    have hforce : RgAcc.force a 0 true = a := if_pos hb
    rw [hforce]
    refine .regCmd (by simp [hp]) hw fun o => ⟨?_, rfl⟩
    exact State.reg_setReg_same _ _ _
  · show Meets (execPortFence a s) _
    refine .regCmd rfl hw fun o => ?_
    have hwr : s.cleared.wrFence true a.data = (setBits 12 a.data.toNat).foldl (fun t p =>
        if (t.link p).st = .off ∨ (t.link p).st = .fenced then t else (t.fencePort p 7).fenceSlots p) s.cleared := if_neg (by simp)
    rw [hwr]
    obtain ⟨hnamed, hother, -⟩ := State.fences_fenced (setBits 12 a.data.toNat) s.cleared
    have hmem (p : Nat) (hp : p < 12) : p ∈ setBits 12 a.data.toNat ↔ a.data.toNat.testBit p = true := by
      simp [setBits, hp]
    exact fun p hp => ⟨fun hb => hnamed p ((hmem p hp).mpr hb), fun hb => hother p fun hm => by simp [(hmem p hp).mp hm] at hb⟩
  · show Meets (execPortFence a s) _
    refine .regCmd rfl hw fun o => ?_
    have hwr : s.cleared.wrFence false a.data = s.cleared := if_pos (by simp)
    rw [hwr]
    rfl

end Sys2Proof.Machine

namespace Sys2Proof.Machine

/-! ## What sending a flit leaves of towpaths and registers -/

/-- A towpath entry but for what was last reported of it upstream. -/
def Tow.course (x : Tow) : Tow := { x with told := 0 }

/-- The register of link `p` that counts and marks what was sent: injections taken, packets given up. -/
def IsSent (o : Nat) : Prop := o % 64 = 0x24 ∨ o % 64 = 0x20 ∧ o < 0xB20

/-- In `t` the towpaths are as in `s`, but for their last reports, and the registers but for those of sending. -/
structure Towed (s t : State) : Prop where
  tow : ∀ n, (t.tow n).course = (s.tow n).course
  reg : ∀ o, ¬ IsSent o → t.reg o = s.reg o

section
variable {s t u : State}

theorem Towed.refl (s : State) : Towed s s := ⟨fun _ => rfl, fun _ _ => rfl⟩
theorem Towed.trans (h : Towed s t) (h' : Towed t u) : Towed s u :=
  ⟨fun n => (h'.tow n).trans (h.tow n), fun o ho => (h'.reg o ho).trans (h.reg o ho)⟩

theorem Towed.of_same {l : List Fld} (h : Same (mask l) s t) (ht : Fld.tows.bit &&& mask l = 0) (hr : Fld.rg.bit &&& mask l = 0) :
    Towed s t :=
  ⟨fun n => congrArg (fun m => (SMap.get (fun _ => Tow.reset) m n).course) (h .tows ht).symm,
    fun o _ => congrArg (fun m => SMap.get regReset m o) (h .rg hr).symm⟩

theorem Towed.foldl {α : Type} {f : State → α → State} (hf : ∀ t x, Towed t (f t x)) (l : List α) (s : State) :
    Towed s (l.foldl f s) := foldl_keeps Towed.refl Towed.trans f hf l s

theorem State.tow_modTow_same (s : State) (n : Nat) (f : Tow → Tow) : (s.modTow n f).tow n = f (s.tow n) :=
  SMap.get_set_same _ _ _ _

theorem State.tow_modTow_other (s : State) {n m : Nat} (f : Tow → Tow) (h : m ≠ n) : (s.modTow n f).tow m = s.tow m :=
  SMap.get_set_other _ _ _ h

theorem Towed.modTow (s : State) (n : Nat) {f : Tow → Tow} (hf : ∀ x : Tow, (f x).course = x.course) : Towed s (s.modTow n f) := by
  refine ⟨fun m => ?_, fun _ _ => rfl⟩
  by_cases h : m = n
  · subst h
    rw [State.tow_modTow_same, hf]
  · rw [State.tow_modTow_other _ _ h]

theorem Towed.modLink (s : State) (p : Nat) (f : Link → Link) : Towed s (s.modLink p f) := .of_same (l := [.links]) (by simp) rfl rfl

theorem State.tagBack_towed (s : State) (p : Nat) : Towed s (s.tagBack p).2 := by
  unfold State.tagBack
  dsimp only
  split
  · exact .refl s
  · cases hn : s.nextTow p with
    | none =>
      dsimp only
      split
      · dsimp only
        exact .modLink _ _ _
      · exact .refl s
    | some e =>
      obtain ⟨t, x⟩ := e
      have h1 := (Towed.modTow s t (f := fun x => { x with told := x.freed }) (by intro x; rfl)).trans
        (Towed.modLink _ p (fun l => { l with repTow := t }))
      dsimp only
      split
      · dsimp only
        exact h1.trans (.modLink _ _ _)
      · exact h1

theorem State.takeLnkInj_towed (s : State) (p : Nat) : Towed s (s.takeLnkInj p).2 := by
  unfold State.takeLnkInj
  dsimp only
  split
  · refine ⟨fun _ => rfl, fun o ho => ?_⟩
    have hne : o ≠ 0x824 + 0x40 * p := by
      unfold IsSent at ho
      omega
    exact (State.reg_setReg_other _ _ hne).trans (State.reg_setReg_other _ _ hne)
  · exact .refl s

theorem State.sendNull_towed (s : State) (p team : Nat) (body : Bool) : Towed s (s.sendNull p team body) := by
  have hb := s.tagBack_towed p
  unfold State.sendNull
  dsimp only
  split
  · exact hb.trans (.of_same (l := [.out, .phys]) (by simp) rfl rfl)
  · split
    · exact hb.trans (.of_same (l := [.out, .phys]) (by simp) rfl rfl)
    · exact hb.trans (.of_same (l := [.out, .phys]) (by simp) rfl rfl)

theorem State.spareSlot_towed (s : State) (p team : Nat) : Towed s (s.spareSlot p team) := by
  have h : Towed s (s.slotDue team).2 := .of_same (l := [.phys]) (by simp) rfl rfl
  unfold State.spareSlot
  dsimp only
  split
  · exact h.trans (State.sendNull_towed _ _ _ _)
  · exact h

theorem State.driveFlit_towed (s : State) (p team tag : Nat) (body : BitVec 2048) (bad fec : Bool) :
    Towed s (s.driveFlit p team tag body bad fec) := by
  have hp : Towed s (s.modLink p Link.pass) := .modLink _ _ _
  unfold State.driveFlit
  dsimp only
  split
  · exact hp.trans (.of_same (l := [.out, .phys]) (by simp) rfl rfl)
  · exact hp.trans ((Towed.of_same (l := [.out, .phys]) (by simp) rfl rfl).trans (State.spareSlot_towed _ p team))

theorem State.transmit_towed (s : State) (p core fseq : Nat) (body : BitVec 2048) : Towed s (s.transmit p core fseq body) :=
  (((s.takeLnkInj_towed p).trans (.of_same (l := [.links]) (by simp) rfl rfl : Towed _ ((s.takeLnkInj p).2.nextTeam p).2)).trans
    (State.tagBack_towed _ p)).trans (State.driveFlit_towed _ _ _ _ _ _ _)

theorem State.sendSeq_towed (s : State) (p core : Nat) (body : BitVec 2048) : Towed s (s.sendSeq p core body) := by
  unfold State.sendSeq
  extract_lets l wait s1 acc more s2 s3
  have h1 : Towed s s1 := .modLink _ _ _
  have h2 : Towed s s2 := by
    dsimp only [s2]
    split
    · exact h1.trans (.of_same (l := [.cmap]) (by simp) rfl rfl)
    · exact h1
  have h3 : Towed s s3 := by
    dsimp only [s3]
    split
    · exact h2.trans (.of_same (l := [.mons]) (by simp) rfl rfl)
    · exact h2
  split
  · exact h3
  · exact h3.trans (State.transmit_towed _ _ _ _ _)

theorem State.abandon_towed (s : State) (p : Nat) : Towed s (s.abandon p) := by
  unfold State.abandon
  split
  · next hp =>
    refine ⟨fun _ => rfl, fun o ho => ?_⟩
    exact State.reg_setReg_other _ _ (by unfold IsSent at ho; omega)
  · exact .refl s

theorem State.abandonRest_towed (s : State) (h : Held) : Towed s (s.abandonRest h) := by
  have hsend (n q v : Nat) (tow : Option Nat) : Towed s
      ((List.range n).foldl (fun t i => t.sendData q v tow false (decide (i + 1 = n)) true 0) s) :=
    Towed.foldl (fun t _ => t.sendSeq_towed _ _ _) _ s
  unfold State.abandonRest
  split
  · exact .refl s
  · next q v tow _ =>
    split
    · exact .refl s
    · extract_lets n t
      have ht : Towed s t := by
        dsimp only [t]
        split
        · exact hsend n q v tow
        · exact hsend n q v tow
        · exact hsend n q v tow
        · exact .refl s
      split
      · exact ht
      · exact ht.trans (State.abandon_towed t q)

theorem State.discard1_towed (s : State) (h : Held) : Towed s (s.discard1 h) :=
  (.of_same (l := [.counts]) (by simp) rfl rfl : Towed s (s.countDrop h.pkt)).trans (State.abandonRest_towed _ h)

/-- A towpath that is fenced or stalled is OFF, with nothing in its queue. -/
theorem State.towKill_killed (s : State) (n : Nat) : ((s.towKill n).tow n).st = .off ∧ ((s.towKill n).tow n).en = false ∧
    ((s.towKill n).tow n).queue = [] ∧ ∀ o, ¬ IsSent o → (s.towKill n).reg o = s.reg o := by
  unfold State.towKill
  have h := Towed.foldl (fun (u : State) (h : Held) => u.discard1_towed h) (s.tow n).queue (s.modTow n (fun x => { x with
    st := .off, en := false, enPend := false, avail := 0, hopCred := 0
    freed := (x.freed + x.queue.length) % 8, queue := [] }))
  obtain ⟨htow, hreg⟩ := h
  have hn := htow n
  rw [State.tow_modTow_same] at hn
  exact ⟨(congrArg Tow.st hn :), (congrArg Tow.en hn :), (congrArg Tow.queue hn :), hreg⟩

end

end Sys2Proof.Machine

namespace Sys2Proof.Machine

/-! ## Reins and towpaths (R272 to R278) -/

section
variable {s : State} {n : Nat}

theorem State.towEnable_tow (s : State) (n : Nat) :
    ((s.tow n).st = .off → ((s.towEnable n).tow n).en = true ∧
      ((s.towEnable n).tow n).st = (if (s.force (0xB000 + 32 * n)).toNat.testBit 0 then .starting else .off)) ∧
    ((s.tow n).st = .draining → ((s.towEnable n).tow n).st = .draining ∧ ((s.towEnable n).tow n).enPend = true) ∧
    ((s.tow n).st = .starting ∨ (s.tow n).st = .on → ((s.towEnable n).tow n).st = (s.tow n).st ∧ ((s.towEnable n).tow n).en = true) := by
  unfold State.towEnable
  rw [State.tow_modTow_same]
  refine ⟨fun h => ?_, fun h => ?_, fun h => ?_⟩
  · rw [h]
    exact ⟨rfl, rfl⟩
  · rw [h]
    exact ⟨rfl, rfl⟩
  · rcases h with h | h
    · rw [h]
      exact ⟨rfl, rfl⟩
    · rw [h]
      exact ⟨rfl, rfl⟩

/-- A SOURCE that drains is OFF once every packet is answered. -/
theorem State.towDrain_source (h : s.ff (0xB000 + 32 * n) 1 2 = 0) :
    ((s.towDrain n).tow n).st = (if (s.tow n).avail = s.ff (0xB000 + 32 * n) 16 8 then .off else .draining) ∧
      ((s.towDrain n).tow n).en = false := by
  unfold State.towDrain
  dsimp only
  rw [if_pos h]
  split
  · rw [State.tow_modTow_same, State.tow_modTow_same]
    exact ⟨rfl, rfl⟩
  · rw [State.tow_modTow_same]
    exact ⟨rfl, rfl⟩

/-- A hop that drains is OFF once its queue is empty. -/
theorem State.towDrain_hop (h : s.ff (0xB000 + 32 * n) 1 2 ≠ 0) (hp : (s.tow n).enPend = false) :
    ((s.towDrain n).tow n).st = (if (s.tow n).queue = [] then .off else .draining) ∧ ((s.towDrain n).tow n).en = false := by
  have h1 : (s.modTow n (fun x => { x with st := .draining, en := false })).tow n = { s.tow n with st := .draining, en := false } :=
    State.tow_modTow_same _ _ _
  have hff : (s.modTow n (fun x => { x with st := .draining, en := false })).ff (0xB000 + 32 * n) 1 2 ≠ 0 := h
  unfold State.towDrain
  dsimp only
  rw [if_neg h]
  generalize s.modTow n (fun x => { x with st := .draining, en := false }) = u at h1 hff
  unfold State.towDrained
  dsimp only
  rw [h1]
  by_cases hq : (s.tow n).queue = []
  · rw [if_pos ⟨rfl, hff, hq⟩, if_pos hq, State.tow_modTow_same, h1]
    dsimp only
    rw [hp]
    exact ⟨rfl, rfl⟩
  · rw [if_neg (fun hx => hq hx.2.2), if_neg hq, h1]
    exact ⟨rfl, rfl⟩

theorem State.towDisable_tow (s : State) (n : Nat) :
    ((s.tow n).st = .on → s.towDisable n = s.towDrain n) ∧
    ((s.tow n).st = .starting → ((s.towDisable n).tow n).st = .starting ∧ ((s.towDisable n).tow n).en = false) ∧
    ((s.tow n).st = .draining → ((s.towDisable n).tow n).st = .draining ∧ ((s.towDisable n).tow n).enPend = false) := by
  unfold State.towDisable
  refine ⟨fun h => ?_, fun h => ?_, fun h => ?_⟩
  · rw [h]
  · rw [h]
    dsimp only
    rw [State.tow_modTow_same]
    exact ⟨h, rfl⟩
  · rw [h]
    dsimp only
    rw [State.tow_modTow_same]
    exact ⟨h, rfl⟩

/-- A towpath that has started, enabled still. -/
def State.towOn (s : State) (n : Nat) : State :=
  s.modTow n (fun x => { x with
    st := .on
    avail := if s.ff (0xB000 + 32 * n) 1 2 = 0 then s.ff (0xB000 + 32 * n) 16 8 else 0
    hopCred := if s.ff (0xB000 + 32 * n) 1 2 = 2 then 0 else 2
    seen := 0, freed := 0, told := 0, queue := [], lastRsp := s.now })

theorem State.towOn_drains (s : State) (n : Nat) (hp : (s.tow n).enPend = false) : (((s.towOn n).towDrain n).tow n).st = .off := by
  have htow : (s.towOn n).tow n = _ := State.tow_modTow_same s n _
  by_cases h0 : s.ff (0xB000 + 32 * n) 1 2 = 0
  · rw [(State.towDrain_source (s := s.towOn n) h0).1, htow]
    dsimp only
    rw [if_pos h0]
    exact if_pos rfl
  · rw [(State.towDrain_hop (s := s.towOn n) h0 (by rw [htow]; exact hp)).1, htow]
    exact if_pos rfl

theorem State.towStall_kills (s : State) (n : Nat) (v : State) (hv : v.reg (0xB01C + 32 * n) = (s.orReg (0xB01C + 32 * n) 8).reg (0xB01C + 32 * n)) :
    ((v.towKill n).tow n).st = .off ∧ ((v.towKill n).tow n).en = false ∧ ((v.towKill n).tow n).queue = [] ∧
      ((v.towKill n).reg (0xB01C + 32 * n)).toNat.testBit 3 = true := by
  obtain ⟨h1, h2, h3, hreg⟩ := v.towKill_killed n
  refine ⟨h1, h2, h3, ?_⟩
  rw [hreg _ (by unfold IsSent; omega), hv]
  exact State.reg_orReg_testBit s (0xB01C + 32 * n) 3 (by decide)

end

/-- Settles O28: the new value of the rein, and of the entry that the command names, read back. -/
theorem reinsAndTowpaths : Obligations.ReinsAndTowpaths := by
  unfold Obligations.ReinsAndTowpaths
  refine ⟨fun s k ha hk hat => answers_iff.mpr ?_, fun s n a hn hw => ⟨fun hen => answers_iff.mpr ?_, fun hen => answers_iff.mpr ?_⟩,
    fun s n a hn hw => ⟨fun hen => answers_iff.mpr ?_, fun hen => answers_iff.mpr ?_⟩, fun s n ha hn hst hup => answers_iff.mpr ?_,
    fun s n ha hn hst hrole hav hrsp hrun => answers_iff.mpr ?_⟩
  · show Meets (execReinIncrease k s) _
    refine .run ha (by simp [hk, hat]) ?_
    have hr : ∀ (v : State) (f : Rein → Rein), ((v.modRein k f).ended s.pending).rein k = f (v.rein k) :=
      fun v f => State.rein_modRein_same v k f
    rw [hr]
    refine ⟨?_, rfl, rfl, rfl, rfl⟩
    dsimp only
    rw [show (s.cleared.rein k) = s.rein k from rfl, show s.cleared.rf 0x304 0 8 = s.rf 0x304 0 8 from rfl]
    simp only [Bool.and_eq_true, Bool.not_eq_true']
  · show Meets (execTowEnable n a s) _
    unfold execTowEnable
    rw [show RgAcc.force a 0 true = a from if_pos hen]
    refine .regCmd (by simp [hn]) hw fun o => ?_
    have hwr : s.cleared.wrTowEn n true a.data = s.cleared.towEnable n := by
      unfold State.wrTowEn
      rw [if_neg (by simp), if_pos (show a.data.toNat.testBit 0 = true from hen)]
    rw [hwr]
    exact s.cleared.towEnable_tow n
  · show Meets (execTowDisable n a s) _
    unfold execTowDisable
    rw [show RgAcc.force a 0 false = a from if_pos hen]
    refine .regCmd (by simp [hn]) hw fun o => ?_
    have hwr : s.cleared.wrTowEn n true a.data = s.cleared.towDisable n := by
      unfold State.wrTowEn
      rw [if_neg (by simp), if_neg (by rw [show a.data.toNat.testBit 0 = false from hen]; simp)]
    rw [hwr]
    obtain ⟨hon, hstart, hdrain⟩ := s.cleared.towDisable_tow n
    refine ⟨fun h h0 => ?_, fun h h0 hp => ?_, hstart, hdrain⟩
    · rw [hon h]
      exact State.towDrain_source (s := s.cleared) h0
    · rw [hon h]
      exact State.towDrain_hop (s := s.cleared) h0 hp
  · show Meets (execTowEnable n a s) _
    unfold execTowEnable
    rw [show RgAcc.force a 0 true = a from if_pos hen]
    exact .regCmd (by simp [hn]) hw fun o => rfl
  · show Meets (execTowDisable n a s) _
    unfold execTowDisable
    rw [show RgAcc.force a 0 false = a from if_pos hen]
    exact .regCmd (by simp [hn]) hw fun o => rfl
  · show Meets (execTowStarted n s) _
    unfold execTowStarted
    refine .run ha (by simp [hn, hst, hup]) ?_
    refine ⟨fun he => ?_, fun he hp => ?_⟩
    · have hrun : (if (s.cleared.tow n).en then s.cleared.towOn n else (s.cleared.towOn n).towDrain n) = s.cleared.towOn n := if_pos he
      have htow : (s.cleared.towOn n).tow n = _ := State.tow_modTow_same s.cleared n _
      show ((if (s.cleared.tow n).en then s.cleared.towOn n else (s.cleared.towOn n).towDrain n).tow n).st = _ ∧
        ((if (s.cleared.tow n).en then s.cleared.towOn n else (s.cleared.towOn n).towDrain n).tow n).avail = _ ∧
        ((if (s.cleared.tow n).en then s.cleared.towOn n else (s.cleared.towOn n).towDrain n).tow n).hopCred = _ ∧
        ((if (s.cleared.tow n).en then s.cleared.towOn n else (s.cleared.towOn n).towDrain n).tow n).queue = _
      rw [hrun, htow]
      exact ⟨rfl, rfl, rfl, rfl⟩
    · have hrun : (if (s.cleared.tow n).en then s.cleared.towOn n else (s.cleared.towOn n).towDrain n) =
          (s.cleared.towOn n).towDrain n := if_neg (by rw [show (s.cleared.tow n).en = false from he]; simp)
      show ((if (s.cleared.tow n).en then s.cleared.towOn n else (s.cleared.towOn n).towDrain n).tow n).st = _
      rw [hrun]
      exact s.cleared.towOn_drains n hp
  · show Meets (execTowStall n s) _
    unfold execTowStall
    refine .run ha (by simp [hn, hst, hrole, hav, hrsp, hrun]) ?_
    exact s.cleared.towStall_kills n _ (by rw [State.raise_reg])

end Sys2Proof.Machine

namespace Sys2Proof.Machine

/-! ## Reduction units: what each operation does to a unit -/

section
variable {s t : State} {u v : Nat}

theorem State.unit_modUnit_same (s : State) (u : Nat) (f : RUnit → RUnit) : (s.modUnit u f).unit u = f (s.unit u) :=
  SMap.get_set_same _ _ _ _

theorem State.unit_modUnit_other (s : State) (f : RUnit → RUnit) (h : v ≠ u) : (s.modUnit u f).unit v = s.unit v :=
  SMap.get_set_other _ _ _ h

theorem State.unit_of_same {l : List Fld} (h : Same (mask l) s t) (hl : Fld.rus.bit &&& mask l = 0) (u : Nat) : t.unit u = s.unit u :=
  congrArg (fun m => SMap.get (fun _ => RUnit.reset) m u) (h .rus hl).symm

theorem State.unitTry_other (s : State) (h : v ≠ u) : (s.unitTry u).unit v = s.unit v := by
  unfold State.unitTry
  dsimp only
  split
  · exact s.unit_modUnit_other _ h
  · rfl

theorem State.unitTry_stays (h : s.unitEn u = false ∨ s.unitSpare = u) : s.unitTry u = s := by
  unfold State.unitTry
  refine if_neg ?_
  rintro ⟨-, -, he, hs⟩
  rcases h with h | h
  · rw [h] at he
    cases he
  · exact hs h

theorem State.unitTry_starts (hst : (s.unit u).st = .off) (hf : (s.unit u).faulted = false) (he : s.unitEn u = true)
    (hs : s.unitSpare ≠ u) : ((s.unitTry u).unit u).st = .starting ∧ ((s.unitTry u).unit u).holds = (s.unit u).holds := by
  unfold State.unitTry
  dsimp only
  rw [if_pos ⟨hst, by simp [hf], he, hs⟩, State.unit_modUnit_same]
  exact ⟨rfl, rfl⟩

theorem State.unitTry_not_on (h : (s.unit u).st ≠ .on) : ((s.unitTry u).unit u).st ≠ .on := by
  unfold State.unitTry
  dsimp only
  split
  · rw [State.unit_modUnit_same]
    simp
  · exact h

theorem State.unitOff_other (s : State) (h : v ≠ u) : (s.unitOff u).unit v = s.unit v := by
  unfold State.unitOff
  extract_lets t
  have ht : t.unit v = s.unit v := s.unit_modUnit_other _ h
  split
  · rw [State.unitTry_other _ h, ht]
  · exact ht

theorem State.unitOff_not_on (s : State) (u : Nat) : ((s.unitOff u).unit u).st ≠ .on := by
  have ht : ((s.modUnit u (fun x => { x with st := .off, enPend := false, holds := none })).unit u).st ≠ .on := by
    rw [State.unit_modUnit_same]
    simp
  unfold State.unitOff
  dsimp only
  split
  · exact State.unitTry_not_on ht
  · exact ht

/-- A unit that is not enabled, or stands by, or whose enable is not held, goes OFF and holds nothing. -/
theorem State.unitOff_off (h : (s.unitEn u = false ∨ s.unitSpare = u) ∨ (s.unit u).enPend = false) :
    ((s.unitOff u).unit u).st = .off ∧ ((s.unitOff u).unit u).holds = none := by
  have ht : (s.modUnit u (fun x => { x with st := .off, enPend := false, holds := none })).unit u =
      { s.unit u with st := .off, enPend := false, holds := none } := State.unit_modUnit_same _ _ _
  have hoff : s.unitOff u = s.modUnit u (fun x => { x with st := .off, enPend := false, holds := none }) := by
    unfold State.unitOff
    dsimp only
    split
    · next hp => exact State.unitTry_stays (h.resolve_right (by simp [hp]))
    · rfl
  rw [hoff, ht]
  exact ⟨rfl, rfl⟩

theorem State.unitDrain_other (s : State) (h : v ≠ u) : (s.unitDrain u).unit v = s.unit v := by
  unfold State.unitDrain
  split
  · exact s.unit_modUnit_other _ h
  · exact s.unitOff_other h

theorem State.unitDrain_not_on (s : State) (u : Nat) : ((s.unitDrain u).unit u).st ≠ .on := by
  unfold State.unitDrain
  split
  · rw [State.unit_modUnit_same]
    simp
  · exact s.unitOff_not_on u

theorem State.unitDrain_off (hr : s.readyPieces = []) (h : s.unitEn u = false ∨ s.unitSpare = u) :
    ((s.unitDrain u).unit u).st = .off ∧ ((s.unitDrain u).unit u).holds = none := by
  have hd : s.unitDrain u = s.unitOff u := by
    unfold State.unitDrain
    rw [hr]
    rfl
  rw [hd]
  exact State.unitOff_off (.inl h)

theorem State.readyPieces_of_groups (h : t.groups = s.groups) : t.readyPieces = s.readyPieces := by
  unfold State.readyPieces
  rw [h]

/-! ### The bits of DX_RU_CTL -/

/-- Bit `i` of DX_RU_CTL. -/
def State.ruBit (s : State) (i : Nat) : Bool := (s.reg 0x180).toNat.testBit i

theorem State.ruBit_of_rg (h : t.rg = s.rg) (i : Nat) : t.ruBit i = s.ruBit i := by
  unfold State.ruBit State.reg
  rw [h]

theorem State.ruBit_putField (s : State) {lo w : Nat} (x : Nat) (h : lo + w ≤ 32) (i : Nat) :
    (s.putField 0x180 lo w x).ruBit i = if lo ≤ i ∧ i < lo + w then x.testBit (i - lo) else s.ruBit i :=
  s.testBit_putField 0x180 x h i

/-- Bit 23 of DX_RU_CTL says that a write was ignored. -/
theorem State.ruBit_orIgn (s : State) (i : Nat) : (s.orReg 0x180 0x800000).ruBit i = (decide (i = 23) || s.ruBit i) := by
  have hbit : (BitVec.toNat (0x800000 : Word)).testBit i = decide (i = 23) :=
    (Nat.testBit_two_pow (n := 23) (m := i)).trans (by simp [eq_comm])
  unfold State.ruBit State.orReg
  rw [State.reg_setReg_same, BitVec.toNat_or, Nat.testBit_or, hbit, Bool.or_comm]

theorem State.ruBit_clrIgn (s : State) {i : Nat} (h : i < 23) : (s.clrReg 0x180 0x800000).ruBit i = s.ruBit i := by
  have hbit : ∀ i < 23, (BitVec.toNat (~~~(0x800000 : Word))).testBit i = true := by decide
  unfold State.ruBit State.clrReg
  rw [State.reg_setReg_same, BitVec.toNat_and, Nat.testBit_and, hbit i h, Bool.and_true]

theorem State.unitSpare_of_bits (h : ∀ i, 17 ≤ i → i < 22 → t.ruBit i = s.ruBit i) : t.unitSpare = s.unitSpare := by
  unfold State.unitSpare State.rf fld
  refine Nat.eq_of_testBit_eq fun i => ?_
  simp only [Nat.testBit_mod_two_pow, Nat.testBit_shiftRight]
  by_cases hi : i < 5
  · have hb := h (17 + i) (by omega) (by omega)
    unfold State.ruBit at hb
    rw [hb]
  · simp [hi]

theorem State.unitSpare_putSpare (s : State) {n : Nat} (h : n < 32) : (s.putField 0x180 17 5 n).unitSpare = n := by
  unfold State.unitSpare
  rw [State.rf_putField _ _ _ (by omega)]
  exact Nat.mod_eq_of_lt h

/-! ### Writes of the enables -/

/-- What the writes of other units' enables leave of unit `u`: the unit, its enable and the standby, and the groups; a
write once ignored stays noted. -/
structure UnitApart (u : Nat) (s t : State) : Prop where
  unit : t.unit u = s.unit u
  bits : ∀ i, i = u ∨ 17 ≤ i ∧ i < 23 → t.ruBit i = s.ruBit i
  noted : s.ruBit 23 = true → t.ruBit 23 = true
  groups : t.groups = s.groups

theorem UnitApart.refl (u : Nat) (s : State) : UnitApart u s s := ⟨rfl, fun _ _ => rfl, id, rfl⟩

theorem UnitApart.trans {r : State} (h : UnitApart u s t) (h' : UnitApart u t r) : UnitApart u s r :=
  ⟨h'.unit.trans h.unit, fun i hi => (h'.bits i hi).trans (h.bits i hi), fun hn => h'.noted (h.noted hn), h'.groups.trans h.groups⟩

theorem UnitApart.en (h : UnitApart u s t) : t.unitEn u = s.unitEn u := h.bits u (.inl rfl)

theorem UnitApart.spare (h : UnitApart u s t) : t.unitSpare = s.unitSpare :=
  State.unitSpare_of_bits fun i hi hi' => h.bits i (.inr ⟨hi, by omega⟩)

theorem UnitApart.ready (h : UnitApart u s t) : t.readyPieces = s.readyPieces := State.readyPieces_of_groups h.groups

/-- An operation of units only that leaves unit `u`. -/
theorem UnitApart.of_units (h : Same (mask [.rus]) s t) (hu : t.unit u = s.unit u) : UnitApart u s t :=
  ⟨hu, fun _ _ => State.ruBit_of_rg (h .rg rfl).symm _, fun hn => (State.ruBit_of_rg (h .rg rfl).symm 23).trans hn,
    (h .groups rfl).symm⟩

theorem UnitApart.putEnable (s : State) {x : Nat} (hx : x < 17) (hu : x ≠ u) (b : Nat) :
    UnitApart u s (s.putField 0x180 x 1 b) := by
  have hbit (i : Nat) (hi : i ≠ x) : (s.putField 0x180 x 1 b).ruBit i = s.ruBit i := by
    rw [State.ruBit_putField _ _ (by omega), if_neg (by omega)]
  exact ⟨rfl, fun i hi => hbit i (by omega), fun hn => (hbit 23 (by omega)).trans hn, rfl⟩

theorem UnitApart.orIgn (s : State) (hu : u < 23) : UnitApart u s (s.orReg 0x180 0x800000) :=
  ⟨rfl, fun i hi => by rw [State.ruBit_orIgn, decide_eq_false (by omega), Bool.false_or],
    fun hn => by rw [State.ruBit_orIgn, hn, Bool.or_true], rfl⟩

theorem State.wrUnitEn_apart (s : State) {x : Nat} (hx : x < 17) (hu : x ≠ u) (hu' : u < 23) (b : Bool) :
    UnitApart u s (s.wrUnitEn x b) := by
  have hput := UnitApart.putEnable s hx hu (b2n b)
  have hign := UnitApart.orIgn s hu'
  have hmod (f : RUnit → RUnit) : UnitApart u s ((s.putField 0x180 x 1 (b2n b)).modUnit x f) :=
    hput.trans (.of_units (by simp : Same (mask [.rus]) _ (State.modUnit _ x f)) (State.unit_modUnit_other _ _ hu.symm))
  unfold State.wrUnitEn
  dsimp only
  split
  · next hb =>
    subst hb
    split
    · exact hmod _
    · exact hput.trans (.of_units (by simp) (State.unitTry_other _ hu.symm))
    · exact hput
  · next hb =>
    rw [Bool.not_eq_true] at hb
    subst hb
    split
    · split
      · exact hign
      · exact hput.trans (.of_units (by simp) (State.unitDrain_other _ hu.symm))
    · split
      · exact hign
      · exact hput
    · exact hmod _
    · exact hput

/-- The seventeen writes of the enables, seen from unit `u`: one of them is its own, and `I` holds before it. -/
theorem foldl_wrUnitEn_at {I : State → Prop} (hu : u < 17) (b : Nat → Bool) (hI : I s)
    (hstep : ∀ t x, x < 17 → x ≠ u → I t → I (t.wrUnitEn x (b x))) :
    ∃ t, UnitApart u s t ∧ I t ∧
      UnitApart u (t.wrUnitEn u (b u)) ((List.range 17).foldl (fun t x => t.wrUnitEn x (b x)) s) := by
  have hkeep (l : List Nat) (hl : ∀ x ∈ l, x < 17 ∧ x ≠ u) (r : State) :
      UnitApart u r (l.foldl (fun t x => t.wrUnitEn x (b x)) r) ∧
        (I r → I (l.foldl (fun t x => t.wrUnitEn x (b x)) r)) := by
    induction l generalizing r with
    | nil => exact ⟨.refl _ _, id⟩
    | cons x l ih =>
      obtain ⟨hx, hxu⟩ := hl x (by simp)
      obtain ⟨ha, hi⟩ := ih (fun y hy => hl y (by simp [hy])) (r.wrUnitEn x (b x))
      exact ⟨(r.wrUnitEn_apart hx hxu (by omega) _).trans ha, fun h => hi (hstep r x hx hxu h)⟩
  obtain ⟨l, l', hsplit⟩ := List.append_of_mem (List.mem_range.2 hu)
  have hnodup : (l ++ u :: l').Nodup := hsplit ▸ List.nodup_range
  have hmem (x : Nat) (hx : x ∈ l ++ u :: l') : x < 17 := List.mem_range.1 (hsplit ▸ hx)
  obtain ⟨hl, hl', hd⟩ := List.nodup_append.1 hnodup
  have hbefore := hkeep l (fun x hx => ⟨hmem x (by simp [hx]), hd x hx u (by simp)⟩) s
  have hafter := hkeep l' (fun x hx => ⟨hmem x (by simp [hx]), fun h => (List.nodup_cons.1 hl').1 (h ▸ hx)⟩)
  rw [hsplit, List.foldl_append, List.foldl_cons]
  exact ⟨_, hbefore.1, hbefore.2 hI, (hafter _).1⟩

theorem foldl_wrUnitEn_ctl (s : State) (b : Nat → Bool) :
    UnitApart 17 s ((List.range 17).foldl (fun t x => t.wrUnitEn x (b x)) s) :=
  List.foldlRecOn _ _ (motive := UnitApart 17 s) (.refl _ _) fun t h x hx =>
    have hx := List.mem_range.1 hx
    h.trans (t.wrUnitEn_apart hx (by omega) (by omega) _)

/-! ### Units that hold a piece that is gone -/

theorem State.unitsSettle_units (s : State) : Same (mask [.rus]) s s.unitsSettle := by simp

theorem State.unitsSettle_keeps (h : ∀ x, (s.unit u).holds = some x → s.readyPieces.contains x = true) :
    s.unitsSettle.unit u = s.unit u := by
  refine (List.foldlRecOn (motive := fun t => Same (mask [.rus]) s t ∧ t.unit u = s.unit u) _ _ ⟨.refl _ _, rfl⟩ ?_).2
  rintro t ⟨hs, hu⟩ x -
  split
  · next y hy =>
    split
    · exact ⟨hs, hu⟩
    · next hr =>
      have hxu : u ≠ x := by
        rintro rfl
        rw [State.readyPieces_of_groups (hs .groups rfl).symm] at hr
        exact hr (h y (hu ▸ hy))
      exact ⟨by simpa using hs, (t.unitOff_other hxu).trans hu⟩
  · exact ⟨hs, hu⟩

theorem State.unitsSettle_not_on (h : (s.unit u).st ≠ .on) : (s.unitsSettle.unit u).st ≠ .on := by
  refine List.foldlRecOn (motive := fun t : State => (t.unit u).st ≠ .on) _ _ h ?_
  intro t hu x _
  split
  · split
    · exact hu
    · by_cases hxu : u = x
      · rw [hxu]
        exact t.unitOff_not_on x
      · rw [t.unitOff_other hxu]
        exact hu
  · exact hu

theorem State.unitsSettle_off (hst : (s.unit u).st = .off) (hholds : (s.unit u).holds = none) : (s.unitsSettle.unit u).st = .off := by
  rw [State.unitsSettle_keeps fun x hx => by rw [hholds] at hx; cases hx]
  exact hst

/-! ### A write of DX_RU_CTL -/

/-- What stands before a write of DX_RU_CTL designates and enables: units, groups, enables and standby. -/
structure RuAs (s t : State) : Prop where
  unit : ∀ u, t.unit u = s.unit u
  bits : ∀ i < 22, t.ruBit i = s.ruBit i
  groups : t.groups = s.groups

theorem RuAs.spare (h : RuAs s t) : t.unitSpare = s.unitSpare := State.unitSpare_of_bits fun i _ hi => h.bits i hi

theorem RuAs.ready (h : RuAs s t) : t.readyPieces = s.readyPieces := State.readyPieces_of_groups h.groups

theorem RuAs.up (h : RuAs s t) : t.unitsUp = s.unitsUp := by
  unfold State.unitsUp
  simp only [h.unit]

/-- A privileged write: the standby, the seventeen enables, and units that hold a piece that is gone. -/
theorem State.wrRuCtl_privileged (s : State) (d : Word) : ∃ t, RuAs s t ∧ s.wrRuCtl true d =
    ((List.range 17).foldl (fun t x => t.wrUnitEn x (d.toNat.testBit x)) (t.wrSpare (fld d.toNat 17 5))).unitsSettle := by
  have hput (r : State) (x : Nat) : RuAs r (r.putField 0x180 22 1 x) :=
    ⟨fun _ => rfl, fun i hi => by rw [State.ruBit_putField _ _ (by omega), if_neg (by omega)], rfl⟩
  by_cases h23 : d.toNat.testBit 23 = true
  · refine ⟨(s.clrReg 0x180 0x800000).putField 0x180 22 1 (fld d.toNat 22 1), ⟨fun _ => rfl, fun i hi => ?_, rfl⟩, ?_⟩
    · rw [(hput _ _).bits i hi, State.ruBit_clrIgn _ (by omega)]
    · unfold State.wrRuCtl
      rw [if_neg (by simp)]
      dsimp only
      rw [if_pos h23]
  · refine ⟨s.putField 0x180 22 1 (fld d.toNat 22 1), hput _ _, ?_⟩
    unfold State.wrRuCtl
    rw [if_neg (by simp)]
    dsimp only
    rw [if_neg h23]

/-- The write seen from unit `u` where the standby stays: the write of its own enable at `r`, where `I` holds, and then what
becomes of it if its piece is gone. -/
theorem State.wrRuCtl_at {I : State → Prop} {d : Word} (hu : u < 17) (hn : fld d.toNat 17 5 = s.unitSpare)
    (hI : ∀ t, RuAs s t → I t) (hstep : ∀ t x, x < 17 → x ≠ u → I t → I (t.wrUnitEn x (d.toNat.testBit x))) :
    ∃ r w, r.unit u = s.unit u ∧ r.unitSpare = s.unitSpare ∧ r.groups = s.groups ∧ I r ∧
      UnitApart u (r.wrUnitEn u (d.toNat.testBit u)) w ∧ s.wrRuCtl true d = w.unitsSettle := by
  obtain ⟨t, ht, he⟩ := s.wrRuCtl_privileged d
  have hs : t.wrSpare (fld d.toNat 17 5) = t := by
    unfold State.wrSpare
    exact if_pos (hn.trans ht.spare.symm)
  rw [hs] at he
  obtain ⟨r, hr, hIr, hw⟩ := foldl_wrUnitEn_at (I := I) hu (fun x => d.toNat.testBit x) (hI t ht) hstep
  exact ⟨r, _, hr.unit.trans (ht.unit u), hr.spare.trans ht.spare, hr.groups.trans ht.groups, hIr, hw, he⟩

section
variable {b : Bool}

theorem State.wrUnitEn_groups (s : State) (u : Nat) (b : Bool) : (s.wrUnitEn u b).groups = s.groups :=
  ((by simp : Same (mask [.rg, .rus]) s (s.wrUnitEn u b)) .groups rfl).symm

theorem State.unitEn_putEnable (s : State) (hu : u < 17) (b : Bool) : (s.putField 0x180 u 1 (b2n b)).unitEn u = b := by
  refine (s.ruBit_putField (b2n b) (show u + 1 ≤ 32 by omega) u).trans ?_
  rw [if_pos (by omega), Nat.sub_self]
  cases b <;> rfl

theorem State.unitSpare_putEnable (s : State) (hu : u < 17) (b : Nat) : (s.putField 0x180 u 1 b).unitSpare = s.unitSpare :=
  State.unitSpare_of_bits fun i hi _ => by rw [State.ruBit_putField _ _ (by omega), if_neg (by omega)]

/-- A unit that is OFF and good starts its self-test when it is enabled and does not stand by. -/
theorem State.wrUnitEn_starts (hu : u < 17) (hst : (s.unit u).st = .off) (hf : (s.unit u).faulted = false) (hs : s.unitSpare ≠ u) :
    ((s.wrUnitEn u true).unit u).st = .starting ∧ ((s.wrUnitEn u true).unit u).holds = (s.unit u).holds := by
  unfold State.wrUnitEn
  simp only [hst, if_pos]
  exact State.unitTry_starts (s := s.putField 0x180 u 1 (b2n true)) hst hf (s.unitEn_putEnable hu true)
    (by rw [State.unitSpare_putEnable _ hu]; exact hs)

/-- A draining unit holds or lets go of its enable. -/
theorem State.wrUnitEn_draining (hst : (s.unit u).st = .draining) (b : Bool) :
    (s.wrUnitEn u b).unit u = { s.unit u with enPend := b } := by
  have hmod (f : RUnit → RUnit) : ((s.putField 0x180 u 1 (b2n b)).modUnit u f).unit u = f (s.unit u) := State.unit_modUnit_same _ _ _
  unfold State.wrUnitEn
  cases b <;> simp [hst, hmod]

/-- A unit that is ON and not the last one is ON no more once its enable is taken away. -/
theorem State.wrUnitEn_disables (hu : u < 17) (hst : (s.unit u).st = .on) (hup : s.unitsUp ≠ [u]) :
    ((s.wrUnitEn u false).unit u).st ≠ .on ∧ (s.wrUnitEn u false).unitEn u = false ∧
      (s.readyPieces = [] → ((s.wrUnitEn u false).unit u).st = .off ∧ ((s.wrUnitEn u false).unit u).holds = none) := by
  have he : s.wrUnitEn u false = (s.putField 0x180 u 1 (b2n false)).unitDrain u := by
    unfold State.wrUnitEn
    simp [hst, hup]
  have hen := s.unitEn_putEnable hu false
  rw [he]
  refine ⟨State.unitDrain_not_on _ _, ?_, fun hr => State.unitDrain_off hr (.inl hen)⟩
  have hs : Same (mask [.rus]) (s.putField 0x180 u 1 (b2n false)) ((s.putField 0x180 u 1 (b2n false)).unitDrain u) := by simp
  exact (State.ruBit_of_rg (hs .rg rfl).symm u).trans hen

/-- The last unit that is up keeps its enable, and the write is noted as ignored. -/
theorem State.wrUnitEn_last (hup : s.unitsUp = [u]) :
    (s.wrUnitEn u false).unit u = s.unit u ∧ (s.wrUnitEn u false).ruBit 23 = true := by
  have hmem : u ∈ s.unitsUp := by simp [hup]
  have hst : (s.unit u).st = .on ∨ (s.unit u).st = .starting := by
    unfold State.unitsUp at hmem
    simpa using (List.mem_filter.1 hmem).2
  have he : s.wrUnitEn u false = s.orReg 0x180 0x800000 := by
    unfold State.wrUnitEn
    rcases hst with h | h <;> simp [h, hup]
  rw [he]
  exact ⟨rfl, by rw [State.ruBit_orIgn]; rfl⟩

/-- A unit that is not ON is not ON after a write of its enable. -/
theorem State.wrUnitEn_not_on (h : (s.unit u).st ≠ .on) (b : Bool) : ((s.wrUnitEn u b).unit u).st ≠ .on := by
  unfold State.wrUnitEn
  dsimp only
  split
  · split
    · rw [State.unit_modUnit_same]
      exact h
    · exact State.unitTry_not_on h
    · exact h
  · split
    · next hst => exact absurd hst h
    · split <;> exact h
    · rw [State.unit_modUnit_same]
      exact h
    · exact h

/-- The standby, once OFF, stays as it is whatever is written of its enable. -/
theorem State.wrUnitEn_standby (hu : u < 17) (hst : (s.unit u).st = .off) (hs : s.unitSpare = u) (b : Bool) :
    (s.wrUnitEn u b).unit u = s.unit u := by
  have hstay : (s.putField 0x180 u 1 (b2n true)).unitTry u = s.putField 0x180 u 1 (b2n true) :=
    State.unitTry_stays (.inr ((s.unitSpare_putEnable hu _).trans hs))
  have he : s.wrUnitEn u b = s.putField 0x180 u 1 (b2n b) := by
    unfold State.wrUnitEn
    cases b <;> simp [hst, hstay]
  rw [he]
  rfl

end

theorem State.mem_unitsUp : u ∈ s.unitsUp ↔ u < 17 ∧ ((s.unit u).st = .on ∨ (s.unit u).st = .starting) := by
  simp [State.unitsUp]

/-- A unit that is up stays up where its enable is written 1. -/
theorem State.wrUnitEn_up {w x : Nat} {b : Bool} (hx : x < 17) (hw : w ∈ s.unitsUp) (h : x = w → b = true) :
    w ∈ (s.wrUnitEn x b).unitsUp := by
  obtain ⟨hlt, hst⟩ := State.mem_unitsUp.1 hw
  refine State.mem_unitsUp.2 ⟨hlt, ?_⟩
  by_cases hxw : x = w
  · have he : s.wrUnitEn x b = s.putField 0x180 x 1 (b2n b) := by
      rw [h hxw]
      unfold State.wrUnitEn
      rcases hst with hst | hst <;> simp [hxw, hst]
    rw [he]
    exact hst
  · rw [(s.wrUnitEn_apart hx hxw (by omega) b).unit]
    exact hst

/-- Where one unit only is up, the others' enables may be taken away and it alone is up. -/
theorem State.wrUnitEn_alone {x : Nat} (hup : s.unitsUp = [u]) (hx : x < 17) (hxu : x ≠ u) :
    (s.wrUnitEn x false).unitsUp = [u] := by
  have hdown : x ∉ s.unitsUp := by simp [hup, hxu]
  rw [State.mem_unitsUp, not_and, not_or] at hdown
  obtain ⟨hon, hstarting⟩ := hdown hx
  have hst (v : Nat) (hlt : v < 17) : ((s.wrUnitEn x false).unit v).st = (s.unit v).st := by
    by_cases hv : x = v
    · subst hv
      cases hs : (s.unit x).st with
      | on => exact absurd hs hon
      | starting => exact absurd hs hstarting
      | draining => rw [State.wrUnitEn_draining hs, hs]
      | off =>
        have he : s.wrUnitEn x false = s.putField 0x180 x 1 (b2n false) := by
          unfold State.wrUnitEn
          simp [hs]
        rw [he]
        exact hs
    · rw [(s.wrUnitEn_apart hx hv (by omega) false).unit]
  rw [← hup]
  exact List.filter_congr fun v hv => by rw [hst v (List.mem_range.1 hv)]

/-! ### The standby -/

theorem State.wrSpare_refused {n : Nat} (hn : n ≠ s.unitSpare) (hlt : n < 17) (hf : (s.unit n).faulted = true) :
    (s.wrSpare n).unitSpare = s.unitSpare ∧ (s.wrSpare n).ruBit 23 = true := by
  have he : s.wrSpare n = s.orReg 0x180 0x800000 := by
    unfold State.wrSpare
    exact (if_neg hn).trans (if_pos ⟨hlt, hf⟩)
  rw [he]
  refine ⟨State.unitSpare_of_bits fun i _ hi => ?_, ?_⟩
  · rw [State.ruBit_orIgn, decide_eq_false (by omega), Bool.false_or]
  · rw [State.ruBit_orIgn]
    rfl

/-- A good standby is designated, and leaves ON. -/
theorem State.wrSpare_designates {n : Nat} (hn : n ≠ s.unitSpare) (h32 : n < 32) (hf : 17 ≤ n ∨ (s.unit n).faulted = false) :
    (s.wrSpare n).unitSpare = n ∧ (n < 17 → (s.unit n).st = .on → ((s.wrSpare n).unit n).st ≠ .on ∧
      (s.readyPieces = [] → ((s.wrSpare n).unit n).st = .off ∧ ((s.wrSpare n).unit n).holds = none)) := by
  have hput : (s.putField 0x180 17 5 n).unitSpare = n := s.unitSpare_putSpare h32
  have hgood : ¬(n < 17 ∧ (s.unit n).faulted = true) := by
    rintro ⟨hlt, hfn⟩
    rcases hf with hf | hf
    · omega
    · simp [hf] at hfn
  unfold State.wrSpare
  dsimp only
  rw [if_neg hn, if_neg hgood]
  generalize hr : s.putField 0x180 17 5 n = r at hput ⊢
  have hunit : r.unit n = s.unit n := by rw [← hr]; rfl
  have hready : r.readyPieces = s.readyPieces := by rw [← hr]; rfl
  generalize hw : (if n < 17 ∧ (r.unit n).st = .on then r.unitDrain n else r) = w
  have hwrg : Same (mask [.rus]) r w := by
    rw [← hw]
    split <;> simp
  have hspare (v : State) (h : Same (mask [.rus]) r v) : v.unitSpare = n :=
    (State.unitSpare_of_bits fun i _ _ => State.ruBit_of_rg (h .rg rfl).symm i).trans hput
  have hunits : (if s.unitSpare < 17 then w.unitTry s.unitSpare else w).unit n = w.unit n := by
    split
    · exact w.unitTry_other hn
    · rfl
  refine ⟨hspare _ ?_, fun hlt hon => ?_⟩
  · split
    · simpa using hwrg
    · exact hwrg
  · rw [hunits, ← hw, if_pos ⟨hlt, by rw [hunit, hon]⟩]
    exact ⟨r.unitDrain_not_on n, fun h => State.unitDrain_off (hready.trans h) (.inr hput)⟩

/-! ### The rows -/

/-- A write of DX_RU_CTL that leaves the standby, seen from unit `u` whose piece is not gone: an enable. -/
theorem State.wrRuCtl_enables {d : Word} (hn : fld d.toNat 17 5 = s.unitSpare) (hu : u < 17) (hb : d.toNat.testBit u = true)
    (hk : ∀ x, (s.unit u).holds = some x → s.readyPieces.contains x = true) :
    ((s.unit u).st = .off → (s.unit u).faulted = false → s.unitSpare ≠ u → ((s.wrRuCtl true d).unit u).st = .starting) ∧
      ((s.unit u).st = .draining → ((s.wrRuCtl true d).unit u).st = .draining ∧ ((s.wrRuCtl true d).unit u).enPend = true) := by
  obtain ⟨r, w, hunit, hspare, hgroups, -, hw, he⟩ :=
    State.wrRuCtl_at (I := fun _ => True) hu hn (fun _ _ => trivial) fun _ _ _ _ _ => trivial
  rw [he]
  rw [hb] at hw
  have hready : w.readyPieces = s.readyPieces :=
    hw.ready.trans (State.readyPieces_of_groups ((r.wrUnitEn_groups u true).trans hgroups))
  have hkeep (h : (w.unit u).holds = (s.unit u).holds) : w.unitsSettle.unit u = w.unit u :=
    State.unitsSettle_keeps fun x hx => hready ▸ hk x (h.symm.trans hx)
  rw [← hunit, ← hspare]
  refine ⟨fun hst hf hs => ?_, fun hst => ?_⟩
  · obtain ⟨hstarts, hholds⟩ := State.wrUnitEn_starts hu hst hf hs
    rw [← hw.unit] at hstarts hholds
    rw [hkeep (hholds.trans (by rw [hunit])), hstarts]
  · have hdr := hw.unit.trans (State.wrUnitEn_draining hst true)
    rw [hkeep (by rw [hdr, hunit]), hdr]
    exact ⟨hst, rfl⟩

/-- The same write, seen from a unit whose enable it takes away. -/
theorem State.wrRuCtl_disables {d : Word} (hn : fld d.toNat 17 5 = s.unitSpare) (hu : u < 17) (hb : d.toNat.testBit u = false)
    (hk : ∀ x, (s.unit u).holds = some x → s.readyPieces.contains x = true) :
    ((s.unit u).st = .on → (∃ w, w < 17 ∧ w ≠ u ∧ d.toNat.testBit w = true ∧ w ∈ s.unitsUp) →
      ((s.wrRuCtl true d).unit u).st ≠ .on ∧ (s.wrRuCtl true d).unitEn u = false ∧
        (s.readyPieces = [] → ((s.wrRuCtl true d).unit u).st = .off)) ∧
    ((s.unit u).st = .draining → ((s.wrRuCtl true d).unit u).st = .draining ∧ ((s.wrRuCtl true d).unit u).enPend = false) ∧
    (s.unitsUp = [u] → (∀ w, w < 17 → d.toNat.testBit w = false) →
      (s.wrRuCtl true d).unit u = s.unit u ∧ (s.wrRuCtl true d).ruBit 23 = true) := by
  have hrg (w : State) : w.unitsSettle.rg = w.rg := (w.unitsSettle_units .rg rfl).symm
  refine ⟨fun hst ⟨x, hx, hxu, hbx, hup⟩ => ?_, fun hst => ?_, fun hup hall => ?_⟩
  · obtain ⟨r, w, hunit, -, hgroups, hI, hw, he⟩ := State.wrRuCtl_at (I := fun t => x ∈ t.unitsUp) hu hn
      (fun t ht => ht.up ▸ hup) fun t y hy _ hI => t.wrUnitEn_up hy hI fun h => h ▸ hbx
    rw [he]
    rw [hb] at hw
    rw [← hunit] at hst
    obtain ⟨hoff, hen, hr⟩ := State.wrUnitEn_disables hu hst (fun h => hxu (by rw [h] at hI; simpa using hI))
    rw [← hw.unit] at hoff hr
    refine ⟨State.unitsSettle_not_on hoff, ?_, fun hready => ?_⟩
    · exact ((State.ruBit_of_rg (hrg w) u).trans hw.en).trans hen
    · obtain ⟨hst', hholds⟩ := hr ((State.readyPieces_of_groups hgroups).trans hready)
      exact State.unitsSettle_off hst' hholds
  · obtain ⟨r, w, hunit, -, hgroups, -, hw, he⟩ :=
      State.wrRuCtl_at (I := fun _ => True) hu hn (fun _ _ => trivial) fun _ _ _ _ _ => trivial
    rw [he]
    rw [hb] at hw
    rw [← hunit] at hst
    have hready : w.readyPieces = s.readyPieces :=
      hw.ready.trans (State.readyPieces_of_groups ((r.wrUnitEn_groups u false).trans hgroups))
    have hdr := hw.unit.trans (State.wrUnitEn_draining hst false)
    rw [State.unitsSettle_keeps fun y hy => hready ▸ hk y (by rw [hdr, hunit] at hy; exact hy), hdr]
    exact ⟨hst, rfl⟩
  · obtain ⟨r, w, hunit, -, hgroups, hI, hw, he⟩ := State.wrRuCtl_at (I := fun t => t.unitsUp = [u]) hu hn
      (fun t ht => ht.up.trans hup) fun t y hy hyu hI => hall y hy ▸ State.wrUnitEn_alone hI hy hyu
    rw [he]
    rw [hb] at hw
    obtain ⟨hsame, h23⟩ := State.wrUnitEn_last hI
    have hready : w.readyPieces = s.readyPieces :=
      hw.ready.trans (State.readyPieces_of_groups ((r.wrUnitEn_groups u false).trans hgroups))
    have hun : w.unit u = s.unit u := hw.unit.trans (hsame.trans hunit)
    rw [State.unitsSettle_keeps fun y hy => hready ▸ hk y (hun ▸ hy), hun]
    exact ⟨rfl, (State.ruBit_of_rg (hrg w) 23).trans (hw.noted h23)⟩

/-- A write that designates another standby. -/
theorem State.wrRuCtl_designates {d : Word} {n : Nat} (hd : fld d.toNat 17 5 = n) (hn : n ≠ s.unitSpare) :
    (n < 17 → (s.unit n).faulted = true → (s.wrRuCtl true d).unitSpare = s.unitSpare ∧ (s.wrRuCtl true d).ruBit 23 = true) ∧
    (17 ≤ n ∨ (s.unit n).faulted = false → (s.wrRuCtl true d).unitSpare = n) ∧
    (n < 17 → (s.unit n).faulted = false → (s.unit n).st = .on → ((s.wrRuCtl true d).unit n).st ≠ .on ∧
      (s.readyPieces = [] → ((s.wrRuCtl true d).unit n).st = .off)) := by
  have h32 : n < 32 := hd ▸ Nat.mod_lt _ (by decide)
  obtain ⟨t, ht, he⟩ := s.wrRuCtl_privileged d
  rw [hd] at he
  have hnt : n ≠ t.unitSpare := ht.spare ▸ hn
  have hctl := (foldl_wrUnitEn_ctl (t.wrSpare n) fun x => d.toNat.testBit x)
  have hsettle (w : State) (i : Nat) : w.unitsSettle.ruBit i = w.ruBit i := State.ruBit_of_rg (w.unitsSettle_units .rg rfl).symm i
  have hspare (w : State) : w.unitsSettle.unitSpare = w.unitSpare := State.unitSpare_of_bits fun i _ _ => hsettle w i
  rw [he, hspare, hctl.spare, hsettle, ← ht.spare, ← ht.unit]
  refine ⟨fun hlt hf => ?_, fun hf => (State.wrSpare_designates hnt h32 hf).1, fun hlt hf hon => ?_⟩
  · obtain ⟨hs, hb⟩ := State.wrSpare_refused hnt hlt hf
    exact ⟨hs, hctl.noted hb⟩
  · obtain ⟨hs, hst⟩ := State.wrSpare_designates hnt h32 (.inr hf)
    obtain ⟨hnot, hready⟩ := hst hlt hon
    obtain ⟨r, hr, -, hw⟩ := foldl_wrUnitEn_at (s := t.wrSpare n) (I := fun _ => True) hlt (fun x => d.toNat.testBit x) trivial
      fun _ _ _ _ _ => trivial
    rw [← hr.unit] at hnot
    refine ⟨State.unitsSettle_not_on (by rw [hw.unit]; exact State.wrUnitEn_not_on hnot _), fun h => ?_⟩
    obtain ⟨hoff, hholds⟩ := hready (ht.ready.trans h)
    rw [← hr.unit] at hoff hholds
    have hun := hw.unit.trans (State.wrUnitEn_standby hlt hoff (hr.spare.trans hs) (d.toNat.testBit n))
    exact State.unitsSettle_off (by rw [hun, hoff]) (by rw [hun, hholds])

/-- Clearing FAULTED lets a unit start again where it may. -/
theorem State.wrRuStat_clears {d : Word} (hu : u < 17) (hd : d.toNat.testBit 4 = true) (hf : (s.unit u).faulted = true) :
    ((s.wrRuStat u d).unit u).faulted = false ∧ ((s.wrRuStat u d).unit u).st =
      (if (s.unit u).st = .off ∧ s.unitEn u = true ∧ s.unitSpare ≠ u then .starting else (s.unit u).st) := by
  have hbit : (d &&& 0x10).toNat.testBit 4 = true := by
    rw [BitVec.toNat_and, Nat.testBit_and, hd]
    rfl
  have h4 : inArr (0x190 + 4 * u) 0x4000 0x100 64 = none := inArr_none (.inl (by omega))
  have hA : inArr (0x190 + 4 * u) 0xA000 16 256 = none := inArr_none (.inl (by omega))
  have hR : inArr (0x190 + 4 * u) 0x190 4 17 = some (u, 0) := inArr_some hu (by omega) (by omega)
  have hf' : (SMap.get (fun _ => RUnit.reset) s.rus u).faulted = true := hf
  have hu' : (s.wrRuStat u d).unit u = { s.unit u with
      faulted := false,
      st := if (s.unit u).st = .off ∧ s.unitEn u = true ∧ s.unitSpare ≠ u then .starting else (s.unit u).st } := by
    unfold State.wrRuStat State.w1cOnly
    simp only [h4, hA, hR]
    rw [if_pos ⟨hf', hbit⟩]
    exact SMap.get_set_same _ _ _ _
  rw [hu']
  exact ⟨rfl, rfl⟩

/-- The standby that comes in is another unit than one that is FAULTED. -/
theorem State.spareIn_faulted (s : State) (v : Nat) (hf : (s.unit u).faulted = true) : (s.spareIn v).unit u = s.unit u := by
  unfold State.spareIn
  dsimp only
  split
  · next h =>
    obtain ⟨-, -, -, -, hn⟩ := h
    have hne : u ≠ s.unitSpare := by
      rintro rfl
      exact hn hf
    rw [State.unit_of_same (l := [.rg, .ev, .logs, .life]) (t := State.spareLog _ 5 s.unitSpare v)
      (by simp : Same _ (State.modUnit (s.putField 0x180 17 5 31) s.unitSpare fun x => { x with st := .starting }) _) rfl,
      State.unit_modUnit_other _ _ hne]
    rfl
  · rfl

/-- What follows a residue fault of a unit leaves it OFF and FAULTED, with nothing held. -/
theorem State.spared_faulted (s : State) (v : Nat) (hf : (s.unit u).faulted = true) :
    (((s.spareLog 6 v 0).spareIn v).unitsNone).unit u = s.unit u := by
  have hlog : (s.spareLog 6 v 0).unit u = s.unit u :=
    State.unit_of_same (l := [.rg, .ev, .logs, .life]) (by simp) rfl u
  rw [State.unit_of_same (l := [.rg, .chans, .scal, .eng, .hm, .ev, .inj, .pseq, .tows, .reins, .counts, .flt, .ccnt, .logs,
    .groups, .ruGone]) (by simp : Same _ ((s.spareLog 6 v 0).spareIn v) _) rfl, State.spareIn_faulted _ _ (hlog ▸ hf), hlog]

theorem State.residue_faults (s : State) (u g : Nat) (inj : Bool) : ((s.residue u g inj).unit u).st = .off ∧
    ((s.residue u g inj).unit u).faulted = true ∧ ((s.residue u g inj).unit u).holds = none := by
  unfold State.residue
  dsimp only
  generalize State.collTurn _ g = r
  have hu : (r.modUnit u (fun x => { x with st := .off, enPend := false, faulted := true, holds := none })).unit u =
      { r.unit u with st := .off, enPend := false, faulted := true, holds := none } := State.unit_modUnit_same _ _ _
  rw [State.spared_faulted _ _ (by rw [hu]), hu]
  exact ⟨rfl, rfl, rfl⟩

/-- What a combine does to the unit that made it: OFF and FAULTED after a mismatch. -/
theorem State.residue_settled (s : State) (u g : Nat) (inj : Bool) :
    ((if ((s.residue u g inj).unit u).st = .draining then (s.residue u g inj).unitOff u else s.residue u g inj).unitsSettle.unit
      u).st = .off ∧
    ((if ((s.residue u g inj).unit u).st = .draining then (s.residue u g inj).unitOff u else s.residue u g inj).unitsSettle.unit
      u).faulted = true := by
  obtain ⟨hst, hf, hholds⟩ := s.residue_faults u g inj
  rw [if_neg (by rw [hst]; simp), State.unitsSettle_keeps fun x hx => by simp [hholds] at hx]
  exact ⟨hst, hf⟩

/-- A self-test that fails leaves the unit OFF and FAULTED. -/
theorem State.selfTest_fails (s : State) (u : Nat) :
    (((((((s.modUnit u (fun x => { x with st := .off, faulted := true })).raise 0x62 u 1 0 0x66).resCount u).spareLog 6 u 0).spareIn
      u).unitsNone).unit u) = { s.unit u with st := .off, faulted := true } := by
  generalize hr : ((s.modUnit u (fun x => { x with st := .off, faulted := true })).raise 0x62 u 1 0 0x66).resCount u = r
  have hu : r.unit u = { s.unit u with st := .off, faulted := true } := by
    rw [← hr, State.unit_of_same (l := [.flt, .rg]) (s := s.modUnit u (fun x => { x with st := .off, faulted := true })) (by simp) rfl,
      State.unit_modUnit_same]
  rw [State.spared_faulted _ _ (by rw [hu]), hu]

theorem State.modInst_inst {g : Nat} {c : CollInst} (f : CollInst → CollInst) (hc : (s.group g).inst = some c) :
    ((s.modInst g f).group g).inst = some (f c) := by
  unfold State.modInst State.modGroup State.group
  rw [SMap.get_set_same]
  exact congrArg (Option.map f) hc

/-- A piece combined goes to its collective. -/
theorem State.collCombine_takes {g i : Nat} {c : CollInst} {w : Wait} (hc : (s.group g).inst = some c) (hw : c.waits[i]? = some w) :
    ∃ v : State, (v.group g).inst = some (c.combine w) ∧ v.inj = s.inj ∧ s.collCombine g i = v.collTurn g := by
  refine ⟨(s.addCnt64 (0x30100 + 8 * c.plan.fmt) (c.combined w)).modInst g (fun c => c.combine w), ?_, ?_, ?_⟩
  · have hadd : Same (mask [.rg]) s (s.addCnt64 (0x30100 + 8 * c.plan.fmt) (c.combined w)) := by simp
    exact State.modInst_inst _ ((congrArg (fun m => (SMap.get (fun _ => Group.reset) m g).inst) (hadd .groups rfl).symm).trans hc)
  · exact ((by simp : Same (mask [.rg, .groups]) s _) .inj rfl).symm
  · unfold State.collCombine
    rw [hc]
    dsimp only
    rw [hw]

/-- What follows a combine at its unit leaves what the combine did elsewhere, and a unit that drains is done. -/
theorem State.combine_settled (s : State) (u : Nat) :
    Same (mask [.rus]) s (if (s.unit u).st = .draining then s.unitOff u else s).unitsSettle ∧
    ((s.unit u).st = .draining → (s.unit u).enPend = false →
      ((if (s.unit u).st = .draining then s.unitOff u else s).unitsSettle.unit u).st = .off) := by
  refine ⟨by split <;> simp, fun hst hp => ?_⟩
  rw [if_pos hst]
  obtain ⟨hoff, hholds⟩ := State.unitOff_off (.inr hp)
  exact State.unitsSettle_off hoff hholds

end

section
variable (s : State) (o : List Output) (q : List Instr)

theorem State.unit_ended (u : Nat) : ((s.said o).ended q).unit u = s.unit u := rfl

theorem State.unitEn_ended (u : Nat) : ((s.said o).ended q).unitEn u = s.unitEn u := rfl

theorem State.unitSpare_ended : ((s.said o).ended q).unitSpare = s.unitSpare := rfl

theorem State.ruBit_ended (i : Nat) : ((((s.said o).ended q).reg 0x180).toNat.testBit i) = s.ruBit i := rfl

theorem State.unitOn_unit (u : Nat) : (s.unitOn u).unit u = { s.unit u with st := if s.unitEn u then Life.on else Life.off } :=
  s.unit_modUnit_same u (fun x => { x with st := if s.unitEn u then Life.on else Life.off })

end

/-- Settles O38: a write of DX_RU_CTL is seen from each unit as the write of its own enable among writes that leave it. -/
theorem reductionUnitsLive : Obligations.ReductionUnitsLive := by
  simp only [Obligations.ReductionUnitsLive, answers_iff]
  refine ⟨fun s a hw => ⟨fun hn => ?_, fun hn => ?_, fun hn => ?_⟩, fun s u a priv hu hw hb hf => ?_,
    fun s u ha hu hst => ⟨?_, ?_⟩, fun s u g i ha hu ht => ⟨?_, fun c w harm hc hwait => ?_⟩,
    fun s a priv => ⟨fun hw hb => ?_, fun hw hb => ?_⟩⟩
  · show Meets (execRuEnable a s) _
    refine .regCmd rfl hw fun o u hu hb hk => ?_
    obtain ⟨hstarts, hdrains⟩ := s.cleared.wrRuCtl_enables hn hu hb hk
    rw [State.unit_ended]
    exact ⟨fun hst hf hs => hstarts hst hf (fun h => hs (hn.trans h)), hdrains⟩
  · show Meets (execRuDisable a s) _
    refine .regCmd rfl hw fun o u hu hb hk => ?_
    rw [State.unit_ended, State.unitEn_ended, State.ruBit_ended]
    exact s.cleared.wrRuCtl_disables hn hu hb hk
  · show Meets (execRuSpareDesignate a s) _
    refine .regCmd rfl hw fun o => ?_
    rw [State.unit_ended, State.unitSpare_ended, State.ruBit_ended]
    exact s.cleared.wrRuCtl_designates rfl hn
  · show Meets (execRuFaultedClear u a s) _
    unfold execRuFaultedClear
    rw [RgAcc.force_eq hb]
    exact .regCmd (by simp [hu]) hw fun o => s.cleared.wrRuStat_clears hu hb hf
  · show Meets (execRuSelfTestDone u true s) _
    refine .run ha (by simp [hu, hst]) ?_
    rw [if_pos rfl]
    have hended (v : State) (q : List Instr) (b : Bool) (h : v.unit u = { s.unit u with st := if b then Life.on else Life.off }) :
        ((v.ended q).unit u).st = if b then Life.on else Life.off := congrArg RUnit.st h
    exact hended _ _ _ (s.cleared.unitOn_unit u)
  · show Meets (execRuSelfTestDone u false s) _
    refine .run ha (by simp [hu, hst]) ?_
    rw [if_neg (by simp)]
    have hended (v : State) (q : List Instr) (x : RUnit) (h : v.unit u = { x with st := .off, faulted := true }) :
        ((v.ended q).unit u).st = .off ∧ ((v.ended q).unit u).faulted = true :=
      ⟨congrArg RUnit.st h, congrArg RUnit.faulted h⟩
    exact hended _ _ _ (s.cleared.selfTest_fails u)
  · show Meets (execRuCombine u g i true s) _
    refine .run ha (by simp [hu, ht]) ?_
    have hended (v : State) (q : List Instr) (h : (v.unit u).st = .off ∧ (v.unit u).faulted = true) :
        ((v.ended q).unit u).st = .off ∧ ((v.ended q).unit u).faulted = true := h
    dsimp only
    rw [Bool.or_true, if_pos rfl]
    exact hended _ _ (State.residue_settled _ _ _ _)
  · show Meets (execRuCombine u g i false s) _
    refine .run ha (by simp [hu, ht]) ?_
    have harm' : (s.cleared.reg 0x188).toNat.testBit 7 = false := harm
    dsimp only
    simp only [harm', Bool.false_and, Bool.or_false, Bool.false_eq_true, if_false]
    obtain ⟨v, hinst, hinj, he⟩ := State.collCombine_takes (s := s.cleared) hc hwait
    rw [he]
    have hunit : (v.collTurn g).unit u = s.unit u := by
      rw [← he]
      exact State.unit_of_same (l := [.rg, .chans, .scal, .eng, .hm, .ev, .inj, .pseq, .tows, .reins, .counts, .ccnt, .logs, .groups])
        (s := s.cleared) (by simp) rfl u
    obtain ⟨hsame, hoff⟩ := (v.collTurn g).combine_settled u
    rw [hunit] at hsame hoff ⊢
    have hended (r z : State) (q : List Instr) (hs : Same (mask [.rus]) z r)
        (hd : (s.unit u).st = .draining → (s.unit u).enPend = false → (r.unit u).st = .off) :
        ((r.ended q).groups = z.groups ∧ (r.ended q).inj = z.inj) ∧
          ((s.unit u).st = .draining → (s.unit u).enPend = false → ((r.ended q).unit u).st = .off) :=
      ⟨⟨(hs .groups rfl).symm, (hs .inj rfl).symm⟩, hd⟩
    obtain ⟨⟨hgroups, hinj'⟩, hend⟩ := hended _ _ s.pending hsame hoff
    exact ⟨⟨v, hinst, hinj, hgroups, hinj'⟩, hend⟩
  · show Meets (execRuInjArm a s) _
    unfold execRuInjArm
    rw [RgAcc.force_eq hb]
    exact .regCmd rfl hw fun o => s.cleared.reg_setReg_same _ _
  · show Meets (execPktInjArm a s) _
    unfold execPktInjArm
    rw [RgAcc.force_eq hb]
    exact .regCmd rfl hw fun o => s.cleared.reg_setReg_same _ _

end Sys2Proof.Machine

namespace Sys2Proof.Machine

/-! ## A logbook that starts again while LB writes stand open -/

/-- Logbook 0 drains with its enable held, holds nothing, and two of its LB writes are not answered. -/
def heldLogbook : State :=
  ({ State.reset with lbOut := [0, 0] } : State).modLog 0 (fun l => { l with st := .draining, enPend := true, sent := [2, 2] })

/-- Refutes O50: an answer with a status other than 0 stops the logbook, which goes OFF and starts anew by its held enable; the
write of its last life that is still open belongs to no logbook any more, so that what stands open is not the former rest. -/
theorem not_logbooksLive : ¬ Obligations.LogbooksLive := by
  unfold Obligations.LogbooksLive
  rintro ⟨-, -, hresponse, -, -⟩
  exact not_answers_of_without (fun t => decide (t.lbOut = [0])) (fun t ht => decide_eq_true ht.1) (by decide +kernel)
    (hresponse heldLogbook 0 1 [0] (by decide +kernel) (by decide) (by decide +kernel))

end Sys2Proof.Machine

namespace Sys2Proof.Machine

/-! ## The registers that traffic leaves

Packets formed, sent, cut and completed, commands that end and instances that end write counters, injections, the receiver's
capture and the synchronization count, and no other stored register. -/

/-- The registers that traffic may write. -/
def IsTraffic (o : Nat) : Prop := o ∈ [0x170, 0x2020, 0xF04C] ∨ 0x30000 ≤ o ∨ IsSent o

/-- In `t` the registers that traffic leaves read as in `s`. -/
def Quiet (s t : State) : Prop := RegsBut IsTraffic s t

/-- All fields but the stored registers. -/
def unstored : List Fld := [.pending, .out, .free, .now, .tod, .ident, .pfence, .wshadow, .rshadow, .chans, .cpHeld, .scal, .tally,
  .watch, .atc, .eng, .hm, .ra, .streams, .ev, .inj, .pseq, .eject, .tbl, .tows, .reins, .rrUsed, .draws, .counts, .links, .flt,
  .ccnt, .logs, .lbOut, .groups, .rus, .ruGone, .berths, .teams, .phys, .i2c, .abort, .halt, .far, .mons, .mc, .ts, .life, .cmap,
  .pwr]

section
variable {s t : State}

theorem Quiet.refl (s : State) : Quiet s s := RegsBut.refl s
theorem Quiet.trans {u : State} (h : Quiet s t) (h' : Quiet t u) : Quiet s u := RegsBut.trans h h'
theorem Quiet.reg (h : Quiet s t) {o : Nat} (ho : ¬ IsTraffic o) : t.reg o = s.reg o := h o ho

theorem Quiet.of_rg (h : t.rg = s.rg) : Quiet s t := fun _ _ => congrArg (fun m => SMap.get regReset m _) h

theorem Quiet.same (h : Same (mask unstored) s t) : Quiet s t := RegsBut.of_same h rfl

theorem Quiet.mono {P : Nat → Prop} (h : RegsBut P s t) (hP : ∀ o, P o → IsTraffic o) : Quiet s t :=
  fun o ho => h o fun hp => ho (hP o hp)

theorem Quiet.of_towed (h : Towed s t) : Quiet s t := .mono h.reg fun _ ho => .inr (.inr ho)

theorem Quiet.of_local {k : Nat} (h : Local True k s t) : Quiet s t :=
  .mono (RegsBut.of_local h) (by rintro o ⟨n, -, rfl⟩; exact .inr (.inl (by unfold logReg; omega)))

theorem Quiet.foldl {α : Type} {f : State → α → State} (h : ∀ t x, Quiet t (f t x)) (l : List α) (s : State) : Quiet s (l.foldl f s) :=
  RegsBut.foldl h l s

theorem State.setReg_quiet (s : State) {o : Nat} (w : Word) (h : IsTraffic o) : Quiet s (s.setReg o w) := s.setReg_but w h

/-! ### Packets formed -/

theorem State.countPkt_quiet (s : State) (at_ : Nat) (p : Packet) : Quiet s (s.countPkt at_ p) := by
  have hset (u : State) (o v : Nat) (ho : 0x30000 ≤ o) : Quiet u (u.addCnt64 o v) :=
    (u.setReg_quiet _ (.inr (.inl ho))).trans (State.setReg_quiet _ _ (.inr (.inl (by omega))))
  unfold State.countPkt
  dsimp only
  refine ((hset _ _ _ (by omega)).trans (hset _ _ _ (by omega))).trans (.foldl (fun t i => ?_) _ _)
  split
  · exact (hset _ _ _ (by omega)).trans (hset _ _ _ (by omega))
  · exact Quiet.refl t

theorem State.form_quiet (s : State) (h : Hd) (pay : List Byte) (dir : Option Nat) (key : Option (Nat × Nat)) :
    Quiet s (s.form h pay dir key) := by
  obtain ⟨k, flits, keyed, p, heq, -⟩ := s.form_eq h pay dir key
  rw [heq]
  refine Quiet.trans (t := s.injected k keyed p flits dir) (.of_rg ?_) (State.countPkt_quiet _ _ _)
  unfold State.injected
  cases keyed <;> rfl

theorem State.respond_quiet (s : State) (h : Hd) (pay : List Byte) (key : Option (Nat × Nat)) : Quiet s (s.respond h pay key) := by
  unfold State.respond
  split
  · exact .refl s
  · exact s.form_quiet _ _ _ _

/-! ### Commands that end -/

theorem State.emit_quiet (s : State) (w : Nat) : Quiet s (s.emit w) :=
  fun _ ho => s.emit_reg w fun ⟨n, _, h⟩ => ho (.inr (.inl (by rw [h]; unfold logReg; omega)))

theorem State.complete_quiet (s : State) (k : Nat) (f : Flight) (st : Nat) : Quiet s (s.complete k f st) :=
  .of_local ((State.complete_local s f st).mpr (Local.refl True k s))

theorem State.settle_quiet (s : State) (k : Nat) : Quiet s (s.settle k) :=
  .of_local ((State.settle_local s).mpr (Local.refl True k s))

theorem State.discardWords_quiet (s : State) (k : Nat) : Quiet s (s.discardWords k) :=
  .of_local ((State.discardWords_local s).mpr (Local.refl True k s))

/-! ### Collectives -/

theorem State.colAnswer_quiet (s : State) (p : Packet) (outcome : Nat) (d : Bool) : Quiet s (s.colAnswer p outcome d) := by
  unfold State.colAnswer
  extract_lets t g
  have ht : Quiet s t := s.respond_quiet _ _ _
  split
  · split
    · exact ht.trans (.same (by simp [unstored]))
    · exact ht
  · exact ht

theorem State.collAbort_quiet (s : State) (g reason outcome addr : Nat) : Quiet s (s.collAbort g reason outcome addr) := by
  unfold State.collAbort
  split
  · exact .refl s
  · split
    · exact .refl s
    · dsimp only
      generalize s.flightOf _ _ = f
      refine Quiet.trans (t := s.collAbortAll g _ _ reason outcome _ _ _) ?_ (Quiet.same ((State.collStop_same _ _ _ _ _ _ (by simp
        [unstored])).mpr ((State.collProgress_same _ _ _ (by simp [unstored])).mpr (.refl _ _))))
      unfold State.collAbortAll
      exact (s.setReg_quiet _ (.inl (by simp))).trans (.foldl (fun t r => t.form_quiet _ _ _ _) _ _)

theorem State.collPacket_quiet (s : State) (c : CollInst) (opcode r cphase half dim scount rmode : Nat) (dir : Option Nat)
    (ftag offset : Nat) (pay : List Byte) (sat : Bool) :
    Quiet s (s.collPacket c opcode r cphase half dim scount rmode dir ftag offset pay sat) := by
  unfold State.collPacket
  extract_lets f
  generalize f.getD (0, 0) = ids
  obtain ⟨layer, oper⟩ := ids
  dsimp -zeta only
  extract_lets h
  exact (s.form_quiet h pay dir none).trans (.same (by simp [unstored]))

theorem State.collToken_quiet (s : State) (c : CollInst) (opcode r cphase half dim scount rmode : Nat) (dir : Option Nat) :
    Quiet s (s.collToken c opcode r cphase half dim scount rmode dir).1 := by
  unfold State.collToken
  split
  · exact .refl s
  · split
    · exact (s.collPacket_quiet c opcode r cphase half dim scount rmode dir 0 0 [] false).trans (.same (by simp [unstored]))
    · exact .same (by simp [unstored])

theorem State.collRead1_quiet {g : Nat} (h : s.collRead1 g = some t) : Quiet s t := by
  unfold State.collRead1 at h
  split at h
  · cases h
  · split at h
    · cases h
    · split at h
      · cases h
      · dsimp only at h
        split at h
        · cases h
        · split at h
          · cases h
            exact s.collAbort_quiet _ _ _ _
          · cases h
            exact .same (by simp [unstored])

theorem State.collReads_quiet (n : Nat) (s : State) (g : Nat) : Quiet s (State.collReads n s g) := by
  induction n generalizing s with
  | zero => exact .refl s
  | succ n ih =>
    unfold State.collReads
    split
    · next t h => exact (State.collRead1_quiet h).trans (ih t)
    · exact .refl s

theorem State.collAcks_quiet (s : State) (g : Nat) : Quiet s (s.collAcks g) := by
  unfold State.collAcks
  split
  · exact .refl s
  · exact (Quiet.same (t := s.modInst g _) (by simp [unstored])).trans (.foldl (fun t x => t.colAnswer_quiet _ _ _) _ _)

theorem State.collAsk_quiet (n : Nat) (s : State) (g : Nat) : Quiet s (State.collAsk n s g) := by
  induction n generalizing s with
  | zero => exact .refl s
  | succ n ih =>
    unfold State.collAsk
    split
    · exact .refl s
    · split
      · exact .refl s
      · dsimp only
        split
        · exact .refl s
        · next c _ _ r ph h d rest _ _ =>
          have ht := s.collToken_quiet c 0x80 r ph h d 0 0 none
          split
          · exact ht.trans ((Quiet.same (by simp [unstored])).trans (ih _))
          · exact ht

theorem State.collAsks_quiet (s : State) (g : Nat) : Quiet s (s.collAsks g) := by
  unfold State.collAsks
  split
  · exact .refl s
  · exact State.collAsk_quiet _ s g

theorem State.collWrite_quiet (s : State) (g kind : Nat) (rs : List (Nat × List Byte)) (pkt : Option Packet) :
    Quiet s (s.collWrite g kind rs pkt) := by
  unfold State.collWrite
  split
  · exact .refl s
  · dsimp only
    split
    · split
      · exact (Quiet.same (by simp [unstored])).trans (State.colAnswer_quiet _ _ _ _)
      · exact .same (by simp [unstored])
    · exact .same (by simp [unstored])

theorem State.collFins_quiet (s : State) (g : Nat) : Quiet s (s.collFins g) := by
  unfold State.collFins
  split
  · exact .refl s
  · exact (Quiet.same (t := s.modInst g _) (by simp [unstored])).trans
      (.foldl (fun t x => (Quiet.same (by simp [unstored])).trans (State.collWrite_quiet _ _ _ _ _)) _ _)

theorem State.collSend1_quiet (s : State) (g : Nat) (x : OutPiece) : Quiet s (s.collSend1 g x).1 := by
  unfold State.collSend1
  split
  · exact .refl s
  · next c _ =>
    extract_lets r idx tow chip rmode dir
    clear_value idx tow chip rmode dir
    split
    · have ht := s.collToken_quiet c 0x84 r x.cphase x.half x.dim 0 (if x.mdir.isSome then 3 else 0) x.mdir
      generalize s.collToken c 0x84 r x.cphase x.half x.dim 0 (if x.mdir.isSome then 3 else 0) x.mdir = q at ht
      obtain ⟨t, sent⟩ := q
      dsimp only at ht ⊢
      split
      · exact ht.trans (.same (by simp [unstored]))
      · exact ht
    · split
      · exact .refl s
      · split
        · exact s.collAbort_quiet _ _ _ _
        · split
          · exact .same (by simp [unstored])
          · split
            · exact .refl s
            · next tag _ =>
              extract_lets s1 s2
              have h1 : Quiet s s1 :=
                (s.collPacket_quiet c x.opcode r x.cphase x.half x.dim 0 rmode dir tag x.offset x.pay x.sat).trans
                  (.same (by simp [unstored, s1]))
              have h2 : Quiet s1 s2 := .same (by simp [unstored, s2])
              refine h1.trans (h2.trans ?_)
              dsimp only
              split
              · exact .same (by simp [unstored])
              · split
                · exact .same (by simp [unstored])
                · exact .refl s2

theorem State.collSendAll_quiet (s : State) (g : Nat) : Quiet s (s.collSendAll g) := by
  unfold State.collSendAll
  split
  · exact .refl s
  · generalize hq : List.foldl _ (s, ([] : List OutPiece)) _ = q
    have h : Quiet s q.1 := by
      rw [← hq]
      refine List.foldlRecOn (motive := fun acc : State × List OutPiece => Quiet s acc.1) _ _ (.refl s) fun acc h x _ => ?_
      split
      · exact h
      · exact h.trans (acc.1.collSend1_quiet g x)
    exact h.trans (.same (by simp [unstored]))

theorem State.collTokens_quiet (s : State) (g : Nat) : Quiet s (s.collTokens g) := by
  unfold State.collTokens
  split
  · exact .refl s
  · next c _ =>
    split
    · exact .refl s
    · extract_lets s1 s2
      have h1 : Quiet s s1 := .foldl (fun t r => by
        generalize (if c.plan.ctype = 5 then c.counts.getD r 0 else 0) = n
        have ht := t.collToken_quiet c 0x83 r 0 0 0 n 0 none
        dsimp only
        split
        · exact ht.trans (.same (by simp [unstored]))
        · exact ht) _ s
      have h2 : Quiet s s2 := h1.trans (.same (by simp [unstored, s2]))
      split
      · exact h2
      · split
        · split
          · exact h2.trans ((Quiet.same (by simp [unstored])).trans (State.collWrite_quiet _ _ _ _ _))
          · exact h2
        · exact h2

theorem State.collIssued_quiet (s : State) (g : Nat) : Quiet s (s.collIssued g) := .same (by simp [unstored])

theorem State.collPump_quiet (s : State) (g : Nat) : Quiet s (s.collPump g) := by
  unfold State.collPump
  exact (((((((s.collAcks_quiet g).trans (State.collAsks_quiet _ g)).trans (State.collReads_quiet _ _ g)).trans
    (State.collFins_quiet _ g)).trans (State.collSendAll_quiet _ g)).trans (State.collTokens_quiet _ g)).trans
    (State.collFins_quiet _ g)).trans (Quiet.trans (State.collAcks_quiet _ g) (State.collIssued_quiet _ g))

theorem State.collEnd_quiet (s : State) (g : Nat) : Quiet s (s.collEnd g) := by
  unfold State.collEnd
  split
  · exact .refl s
  · extract_lets s1
    have h1 : Quiet s s1 := .same (by simp [unstored, s1])
    split
    · exact h1
    · refine h1.trans (Quiet.trans (.same ?_) ((State.complete_quiet _ _ _ _).trans (State.settle_quiet _ _)))
      split <;> simp [unstored]

theorem State.collTurn_quiet (s : State) (g : Nat) : Quiet s (s.collTurn g) := by
  unfold State.collTurn
  dsimp only
  split
  · split
    · exact (s.collPump_quiet g).trans (State.collEnd_quiet _ g)
    · exact s.collPump_quiet g
  · exact s.collPump_quiet g

/-! ### Channels that drain, remote accesses and command ports -/

theorem State.collDrain_quiet (s : State) (k : Nat) : Quiet s (s.collDrain k) := by
  unfold State.collDrain
  refine .foldl (fun t f => ?_) _ _
  split
  · exact .refl t
  · exact (t.collAbort_quiet _ _ _ _).trans (State.collTurn_quiet _ _)

theorem State.drainChan_quiet (s : State) (k : Nat) (keep fence : Bool) : Quiet s (s.drainChan k keep fence) := by
  unfold State.drainChan
  dsimp only
  split
  · exact .refl s
  · refine ((Quiet.same (t := (s.dropAhead k).modChan k _) (by simp [unstored])).trans (.foldl (fun t f => ?_) _ _)).trans
      (State.settle_quiet _ k)
    split
    · exact t.complete_quiet _ _ _
    · exact .refl t

theorem State.drainAll_quiet (s : State) (k : Nat) (keep fence : Bool) : Quiet s (s.drainAll k keep fence) := by
  unfold State.drainAll
  split
  · exact .refl s
  · exact (Quiet.same (t := s.modChan k _) (by simp [unstored])).trans ((State.collDrain_quiet _ k).trans (State.drainChan_quiet _ k _ _))

theorem State.takeInj_quiet (s : State) (code inst : Nat) : Quiet s (s.takeInj code inst).2 := by
  unfold State.takeInj
  split
  · split
    · exact Quiet.trans (Quiet.of_rg rfl) ((State.setReg_quiet _ _ (.inl (by simp))).trans (State.setReg_quiet _ _ (.inl (by simp))))
    · exact .refl s
  · exact .refl s

theorem State.raSend_quiet (s : State) (p : Nat) (wr : Bool) (x : RaAccess) : Quiet s (s.raSend p wr x) := by
  unfold State.raSend
  extract_lets len off h pay t
  have ht : Quiet s t := (s.form_quiet h pay none none).trans (.same (by simp [unstored, t]))
  split
  · exact ht.trans (.same (by simp [unstored]))
  · exact ht.trans (.same (by simp [unstored]))

theorem State.raAccept_quiet (s : State) (p : Nat) (wr : Bool) (x : RaAccess) : Quiet s (s.raAccept p wr x) := by
  unfold State.raAccept
  extract_lets tag par
  split
  · exact .same (by simp [unstored])
  · have h1 := s.takeInj_quiet 0x24 p
    generalize s.takeInj 0x24 p = i at h1
    obtain ⟨ip, s1⟩ := i
    dsimp only at h1 ⊢
    split
    · exact h1.trans (.same (by simp [unstored]))
    · have h2 : Quiet s (if wr = true then s1.takeInj 0x25 p else (false, s1)).2 := by
        split
        · exact h1.trans (s1.takeInj_quiet 0x25 p)
        · exact h1
      generalize (if wr = true then s1.takeInj 0x25 p else (false, s1)) = i at h2
      obtain ⟨ic, s2⟩ := i
      dsimp only at h2 ⊢
      split
      · exact h2.trans (.same (by simp [unstored]))
      · split
        · exact h2.trans (.same (by simp [unstored]))
        · split
          · exact h2.trans (.same (by simp [unstored]))
          · split
            · exact h2.trans (.same (by simp [unstored]))
            · exact h2.trans (s2.raSend_quiet p wr x)

theorem State.raRelease_quiet (s : State) : Quiet s s.raRelease := by
  unfold State.raRelease
  refine .foldl (fun t p => ?_) _ _
  split
  · exact .refl t
  · split
    · split
      · exact .refl t
      · exact .same (by simp [unstored])
    · split
      · exact .refl t
      · exact (Quiet.same (by simp [unstored])).trans (State.raAccept_quiet _ _ _ _)

theorem State.drive_quiet (s : State) (o : Output) : Quiet s (s.drive o) := .same (by simp [unstored])

theorem State.cpOffer_quiet (s : State) (port : Nat) (w : CmdWord) (crc : HWord) : Quiet s (s.cpOffer port w crc) := by
  unfold State.cpOffer
  have h1 := s.takeInj_quiet 0x28 port
  generalize s.takeInj 0x28 port = i at h1
  obtain ⟨inj, s1⟩ := i
  dsimp only at h1 ⊢
  refine h1.trans (Quiet.trans ?_ (State.drive_quiet _ _))
  split
  · exact (Quiet.same (t := s1.enqueue (cf w 0 8 6) w) (by simp [unstored])).trans (State.discardWords_quiet _ _)
  · exact .same (by simp [unstored])

theorem State.releaseCp_quiet (s : State) : Quiet s s.releaseCp := by
  unfold State.releaseCp
  exact Quiet.trans (t := { s with cpHeld := [] }) (Quiet.of_rg rfl) (.foldl (fun t x => t.cpOffer_quiet _ _ _) _ _)

/-! ### Ports fenced -/

theorem State.raise_quiet (s : State) (code inst cls : Nat) : Quiet s (s.raise code inst cls) := .same (by simp [unstored])

theorem State.setTime_quiet (s : State) (st : TimeSt) : Quiet s (s.setTime st) := by
  unfold State.setTime
  split
  · exact .refl s
  · extract_lets _ s1
    have hts (x : TimeSync) : Quiet s { s with ts := x } := .of_rg rfl
    have h1 : Quiet s s1 := (hts _).trans (State.emit_quiet _ _)
    split
    · have hput (v : Nat) : Quiet s1 (s1.putField 0xF04C 16 16 v) := s1.setReg_quiet _ (.inl (by simp))
      exact h1.trans ((hput _).trans (State.raise_quiet _ _ _ _))
    · exact h1

theorem State.parentLost_quiet (s : State) (p : Nat) : Quiet s (s.parentLost p) := by
  unfold State.parentLost
  split
  · exact s.setTime_quiet _
  · exact .refl s

theorem State.discard1_quiet (s : State) (h : Held) : Quiet s (s.discard1 h) := .of_towed (s.discard1_towed h)

theorem State.discards_quiet (s : State) (l : List Held) : Quiet s (l.foldl (fun t h => t.discard1 h) s) :=
  .foldl (fun t h => t.discard1_quiet h) l s

theorem State.modLink_quiet (s : State) (p : Nat) (f : Link → Link) : Quiet s (s.modLink p f) := .same (by simp [unstored])

theorem State.discardHeld_quiet (s : State) (which : Held → Bool) : Quiet s (s.discardHeld which) := by
  unfold State.discardHeld
  extract_lets s1 s2 out
  have h1 : Quiet s s1 := by
    refine .foldl (fun t p => (t.modLink_quiet p _).trans (.foldl (fun u h => ?_) _ _)) _ _
    split
    · exact (u.modLink_quiet p _).trans (State.discard1_quiet _ h)
    · exact .refl u
  have h2 : Quiet s1 s2 := by
    refine .foldl (fun t x => ?_) _ _
    obtain ⟨e, x⟩ := x
    dsimp -zeta only
    extract_lets gone u
    have hu : Quiet t u := .same (by simp [unstored, u])
    exact hu.trans (u.discards_quiet gone)
  have hcut (v : State) (e i : List Held) : Quiet v { v with eject := e, inj := i } := .of_rg rfl
  exact h1.trans (h2.trans ((hcut s2 _ _).trans (State.discards_quiet _ out)))

theorem State.cutPackets_quiet (s : State) (p : Nat) : Quiet s (s.cutPackets p) := by
  unfold State.cutPackets
  refine (s.discardHeld_quiet _).trans (.foldl (fun t e => ?_) _ _)
  split
  · exact .same (by simp [unstored])
  · exact .refl t

theorem State.towKill_quiet (s : State) (t : Nat) : Quiet s (s.towKill t) := by
  unfold State.towKill
  exact (Quiet.same (by simp [unstored])).trans (.foldl (fun u h => u.discard1_quiet h) _ _)

theorem State.towFence_quiet (s : State) (p : Nat) : Quiet s (s.towFence p) := by
  unfold State.towFence
  refine .foldl (fun a x => ?_) _ _
  dsimp only
  split
  · exact a.towKill_quiet _
  · exact .refl a

theorem State.fencePort_quiet (s : State) (p cause : Nat) : Quiet s (s.fencePort p cause) := by
  unfold State.fencePort
  extract_lets l s1 s2
  split
  · exact .refl s
  · have h1 : Quiet s s1 := (s.parentLost_quiet p).trans (State.modLink_quiet _ p _)
    have h2 : Quiet s1 s2 := .foldl (fun a t => .same (by simp [unstored])) _ _
    have h3 : Quiet s2 ((s2.towFence p).cutPackets p) := (s2.towFence_quiet p).trans (State.cutPackets_quiet _ p)
    exact (h1.trans h2).trans (h3.trans (.same (by simp [unstored])))

/-- A warm reset that begins. -/
theorem State.warmRequest_quiet (s : State) (cause : Nat) : Quiet s (s.warmRequest cause) := by
  unfold State.warmRequest
  split
  · exact .refl s
  · extract_lets pins _ s1 s2 s3 s4
    have h1 : Quiet s s1 := .of_rg rfl
    have h2 : Quiet s1 s2 := .foldl (fun t p => t.fencePort_quiet p 8) _ _
    have h3 : Quiet s2 s3 := .foldl (fun t k => t.drainAll_quiet k false false) _ _
    have h4 : Quiet s3 s4 := (Quiet.same (t := s3.dropServed.raLoadsEnd 5 true) (by simp [unstored])).trans (State.raRelease_quiet _)
    exact ((h1.trans h2).trans h3).trans (h4.trans (s4.releaseCp_quiet.trans (.same (by simp [unstored]))))

end

end Sys2Proof.Machine

namespace Sys2Proof.Machine

/-! ## The farrier: its commands and what it does for a core that has stopped -/

section
variable {s : State} {c : FarCmd} {rest : List FarCmd}

/-- The state in which the farrier performs command `c`: its queue holds the rest, and the command is noted. -/
def State.farTaken (s : State) (c : FarCmd) (rest : List FarCmd) : State :=
  { s with far := { s.far with queue := rest, lastCmd := BitVec.ofNat 8 (c.f 0 8), ncmd := min 255 (s.far.ncmd + 1) } }

/-- The state in which the farrier refuses a command. -/
def State.farLeft (s : State) (rest : List FarCmd) : State := { s with far := { s.far with queue := rest } }

/-- A command of RG is answered in the RSP registers. -/
theorem State.farAnswer_rg (s : State) (hc : c.src = none) (st d0 d1 : Nat) : s.farAnswer c st d0 d1 =
    (((s.setReg 0x3060 (BitVec.ofNat 32 (st + put (c.f 8 8) 8 8))).setReg 0x3064 (BitVec.ofNat 32 d0)).setReg 0x3068
      (BitVec.ofNat 32 d1)).setReg 0x306C 0 := by
  unfold State.farAnswer
  rw [hc]

theorem State.farAnswer_stored (s : State) (hc : c.src = none) (st d0 d1 : Nat) : Same (mask [.rg]) s (s.farAnswer c st d0 d1) := by
  rw [State.farAnswer_rg s hc]
  simp

theorem State.farAnswer_status (s : State) (hc : c.src = none) (st d0 d1 : Nat) :
    (s.farAnswer c st d0 d1).reg 0x3060 = BitVec.ofNat 32 (st + put (c.f 8 8) 8 8) := by
  rw [State.farAnswer_rg s hc, State.reg_setReg_other _ _ (by decide), State.reg_setReg_other _ _ (by decide),
    State.reg_setReg_other _ _ (by decide), State.reg_setReg_same]

theorem State.farAnswer_data (s : State) (hc : c.src = none) (st d0 d1 : Nat) :
    (s.farAnswer c st d0 d1).reg 0x3064 = BitVec.ofNat 32 d0 := by
  rw [State.farAnswer_rg s hc, State.reg_setReg_other _ _ (by decide), State.reg_setReg_other _ _ (by decide), State.reg_setReg_same]

/-- A command is at the front, and the farrier takes it. -/
structure FarFront (s : State) (c : FarCmd) (rest : List FarCmd) : Prop where
  alive : s.alive = true
  queue : s.far.queue = c :: rest
  ready : s.farReady = true
  src : c.src = none

section
variable {which : Nat → Bool} {body : State → FarCmd → State × Option (Nat × Nat × Nat)} {P : State → Prop}

theorem Meets.farUnknown (h : FarFront s c rest) (hw : which (c.f 0 8) = true) (hc : c.f 0 8 = 0 ∨ 9 < c.f 0 8)
    (hP : P (((s.cleared.farLeft rest).farAnswer c 1 0 0).ended s.pending)) : Meets (farRow which body s) P := by
  unfold farRow
  refine .run h.alive (by simp [h.queue, hw, h.ready]) ?_
  rw [show s.cleared.far.queue = c :: rest from h.queue]
  dsimp only
  rw [if_pos hc]
  exact hP

theorem Meets.farForeign (h : FarFront s c rest) (hw : which (c.f 0 8) = true) (hc : ¬(c.f 0 8 = 0 ∨ 9 < c.f 0 8))
    (hk : c.f 16 16 ≠ s.ident.pkey.toNat) (hP : P (((s.cleared.farLeft rest).farAnswer c 2 0 0).ended s.pending)) :
    Meets (farRow which body s) P := by
  unfold farRow
  refine .run h.alive (by simp [h.queue, hw, h.ready]) ?_
  rw [show s.cleared.far.queue = c :: rest from h.queue]
  dsimp only
  rw [if_neg hc, if_pos (show c.f 16 16 ≠ s.cleared.ident.pkey.toNat from hk)]
  exact hP

theorem Meets.farDenied (h : FarFront s c rest) (hw : which (c.f 0 8) = true) (hc : ¬(c.f 0 8 = 0 ∨ 9 < c.f 0 8))
    (hk : c.f 16 16 = s.ident.pkey.toNat) (h3 : 3 ≤ c.f 0 8) (ha : s.far.acting = false)
    (hP : P (((s.cleared.farLeft rest).farAnswer c 3 0 0).ended s.pending)) : Meets (farRow which body s) P := by
  unfold farRow
  refine .run h.alive (by simp [h.queue, hw, h.ready]) ?_
  rw [show s.cleared.far.queue = c :: rest from h.queue]
  dsimp only
  rw [if_neg hc, if_neg (show ¬(c.f 16 16 ≠ s.cleared.ident.pkey.toNat) from fun hn => hn hk),
    if_pos (show 3 ≤ c.f 0 8 ∧ ¬s.cleared.far.acting = true from ⟨h3, by simp [ha]⟩)]
  exact hP

/-- A command that may be performed is, and what its body answers goes out. -/
theorem Meets.farPerformed (h : FarFront s c rest) (hw : which (c.f 0 8) = true) (hc : ¬(c.f 0 8 = 0 ∨ 9 < c.f 0 8))
    (hk : c.f 16 16 = s.ident.pkey.toNat) (ha : c.f 0 8 ≤ 2 ∨ s.far.acting = true)
    (hanswered : ∀ st d0 d1, (body (s.cleared.farTaken c rest) c).2 = some (st, d0, d1) →
      P (((body (s.cleared.farTaken c rest) c).1.farAnswer c st d0 d1).ended s.pending))
    (hsilent : (body (s.cleared.farTaken c rest) c).2 = none → P ((body (s.cleared.farTaken c rest) c).1.ended s.pending)) :
    Meets (farRow which body s) P := by
  unfold farRow
  refine .run h.alive (by simp [h.queue, hw, h.ready]) ?_
  rw [show s.cleared.far.queue = c :: rest from h.queue]
  dsimp only
  have hperforms : ¬(3 ≤ c.f 0 8 ∧ ¬s.cleared.far.acting = true) := fun hn => ha.elim (fun ha => by omega) hn.2
  rw [if_neg hc, if_neg (show ¬(c.f 16 16 ≠ s.cleared.ident.pkey.toNat) from fun hn => hn hk), if_neg hperforms]
  generalize hb : body _ c = r
  have hr : body (s.cleared.farTaken c rest) c = r := hb
  rw [hr] at hanswered hsilent
  obtain ⟨v, none | ⟨st, d0, d1⟩⟩ := r
  · exact hsilent rfl
  · exact hanswered st d0 d1 rfl

end

/-- An answer leaves the farrier as the command left it. -/
theorem State.farAnswer_told (s : State) (hc : c.src = none) (st d0 d1 : Nat) (q : List Instr) :
    ((s.farAnswer c st d0 d1).ended q).far = s.far ∧
      ((s.farAnswer c st d0 d1).ended q).reg 0x3060 = BitVec.ofNat 32 (st + put (c.f 8 8) 8 8) :=
  ⟨(s.farAnswer_stored hc st d0 d1 .far rfl).symm, s.farAnswer_status hc st d0 d1⟩

/-- What a command does to the farrier's own state before it is answered. -/
structure FarKept (s t : State) : Prop where
  queue : t.far.queue = s.far.queue
  last : t.far.lastCmd = s.far.lastCmd

theorem FarKept.of_same {t : State} {l : List Fld} (h : Same (mask l) s t) (hl : Fld.far.bit &&& mask l = 0) : FarKept s t :=
  ⟨congrArg Farrier.queue (h .far hl).symm, congrArg Farrier.lastCmd (h .far hl).symm⟩

/-- What every command answers where it is foreign or may not be performed, and what it notes where it is performed. -/
theorem Meets.farAnswers {n : Nat} {body : State → FarCmd → State × Option (Nat × Nat × Nat)} (h : FarFront s c rest)
    (hn : c.f 0 8 = n) (h1 : n ≠ 0) (h9 : n ≤ 9) (hb : ∀ u, FarKept u (body u c).1) :
    Meets (farRow (fun m => decide (m = n)) body s) (fun t =>
      (¬c.f 16 16 = s.ident.pkey.toNat → (t.far.queue = rest ∧ t.reg 0x3060 = BitVec.ofNat 32 (2 + put (c.f 8 8) 8 8)) ∧
        t.far.lastCmd = s.far.lastCmd) ∧
      (c.f 16 16 = s.ident.pkey.toNat → 3 ≤ c.f 0 8 → s.far.acting = false →
        (t.far.queue = rest ∧ t.reg 0x3060 = BitVec.ofNat 32 (3 + put (c.f 8 8) 8 8)) ∧ t.far.lastCmd = s.far.lastCmd) ∧
      (c.f 16 16 = s.ident.pkey.toNat → c.f 0 8 ≤ 2 ∨ s.far.acting = true → t.far.lastCmd.toNat = c.f 0 8)) := by
  have hw : (fun m => decide (m = n)) (c.f 0 8) = true := decide_eq_true hn
  have hc : ¬(c.f 0 8 = 0 ∨ 9 < c.f 0 8) := by omega
  have hleft (st : Nat) : ((((s.cleared.farLeft rest).farAnswer c st 0 0).ended s.pending).far.queue = rest ∧
      (((s.cleared.farLeft rest).farAnswer c st 0 0).ended s.pending).reg 0x3060 = BitVec.ofNat 32 (st + put (c.f 8 8) 8 8)) ∧
      (((s.cleared.farLeft rest).farAnswer c st 0 0).ended s.pending).far.lastCmd = s.far.lastCmd := by
    obtain ⟨hf, hr⟩ := (s.cleared.farLeft rest).farAnswer_told h.src st 0 0 s.pending
    rw [hf]
    exact ⟨⟨rfl, hr⟩, rfl⟩
  by_cases hk : c.f 16 16 = s.ident.pkey.toNat
  · by_cases ha : c.f 0 8 ≤ 2 ∨ s.far.acting = true
    · have hlast (v : State) (hv : FarKept (s.cleared.farTaken c rest) v) : v.far.lastCmd.toNat = c.f 0 8 := by
        rw [hv.last]
        show (BitVec.ofNat 8 (c.f 0 8)).toNat = _
        rw [BitVec.toNat_ofNat]
        omega
      refine .farPerformed h hw hc hk ha (fun st d0 d1 _ => ?_) fun _ => ?_
      · refine ⟨fun hn => absurd hk hn, fun _ _ hna => ?_, fun _ _ => ?_⟩
        · exfalso
          rcases ha with ha | ha
          · omega
          · simp [hna] at ha
        · rw [(State.farAnswer_told _ h.src st d0 d1 s.pending).1]
          exact hlast _ (hb _)
      · have hl := hlast _ (hb (s.cleared.farTaken c rest))
        refine ⟨fun hn => absurd hk hn, fun _ _ hna => ?_, fun _ _ => hl⟩
        exfalso
        rcases ha with ha | ha
        · omega
        · simp [hna] at ha
    · obtain ⟨h2, hna⟩ := not_or.mp ha
      exact .farDenied h hw hc hk (by omega) (by simpa using hna) ⟨fun hn => absurd hk hn, fun _ _ _ => hleft 3, fun _ h => absurd h ha⟩
  · exact .farForeign h hw hc hk ⟨fun _ => hleft 2, fun h => absurd h hk, fun h => absurd h hk⟩

end

end Sys2Proof.Machine

namespace Sys2Proof.Machine

/-! ### Ports opened, the core restarted -/

/-- Ports that the farrier opens are noted as opened, and those FENCED train. -/
structure FarOpened (ps : List Nat) (s t : State) : Prop where
  kept : FarKept s t
  opened : ∀ p, p ∈ ps ∨ p ∈ s.far.opened → p ∈ t.far.opened
  training : ∀ p, (s.link p).st = .training ∨ p ∈ ps ∧ (s.link p).st = .fenced → (t.link p).st = .training

/-- The state in which port `p` is noted as opened. -/
def State.noteOpened (s : State) (p : Nat) : State :=
  { s with far := { s.far with opened := if s.far.opened.contains p then s.far.opened else s.far.opened ++ [p] } }

theorem State.farOpen_cons (s : State) (p : Nat) (ps : List Nat) : s.farOpen (p :: ps) =
    (if (s.link p).st = .fenced then (s.noteOpened p).trainPort p else s.noteOpened p).farOpen ps := rfl

theorem State.mem_noteOpened (s : State) (p q : Nat) (h : q = p ∨ q ∈ s.far.opened) : q ∈ (s.noteOpened p).far.opened := by
  show q ∈ if s.far.opened.contains p then s.far.opened else s.far.opened ++ [p]
  split
  · next hc =>
    rcases h with rfl | h
    · simpa using hc
    · exact h
  · simpa [or_comm] using h

theorem State.farOpen_opened (ps : List Nat) (s : State) : FarOpened ps s (s.farOpen ps) := by
  induction ps generalizing s with
  | nil => exact ⟨⟨rfl, rfl⟩, fun p h => h.resolve_left (by simp), fun p h => h.elim id fun h => absurd h.1 (by simp)⟩
  | cons q ps ih =>
    rw [State.farOpen_cons]
    have hnote := s.mem_noteOpened q
    by_cases hq : (s.link q).st = .fenced
    · rw [if_pos hq]
      obtain ⟨⟨hqueue, hlast⟩, hopened, htraining⟩ := ih ((s.noteOpened q).trainPort q)
      have hfar : ((s.noteOpened q).trainPort q).far = (s.noteOpened q).far :=
        ((by simp : Same (mask [.links, .teams, .phys]) (s.noteOpened q) _) .far rfl).symm
      have hst := (s.noteOpened q).trainPort_steered q
      refine ⟨⟨hqueue.trans (congrArg Farrier.queue hfar :), hlast.trans (congrArg Farrier.lastCmd hfar :)⟩, fun p hp => ?_, fun p hp => ?_⟩
      · rw [List.mem_cons, or_assoc, or_left_comm] at hp
        exact hopened p (hp.imp_right fun h => hfar ▸ hnote p h)
      · by_cases hpq : p = q
        · exact htraining p (.inl (by rw [hpq, hst.st]; rfl))
        · have hsame : (((s.noteOpened q).trainPort q).link p).st = (s.link p).st := hst.other_st hpq
          rw [List.mem_cons, or_iff_right hpq, ← hsame] at hp
          exact htraining p hp
    · rw [if_neg hq]
      obtain ⟨⟨hqueue, hlast⟩, hopened, htraining⟩ := ih (s.noteOpened q)
      refine ⟨⟨hqueue, hlast⟩, fun p hp => ?_, fun p hp => ?_⟩
      · rw [List.mem_cons, or_assoc, or_left_comm] at hp
        exact hopened p (hp.imp_right (hnote p))
      · refine htraining p (hp.imp_right fun ⟨hmem, hf⟩ => ⟨?_, hf⟩)
        rcases List.mem_cons.mp hmem with rfl | hmem
        · exact absurd hf hq
        · exact hmem

section
variable {s : State}

theorem State.setFw_quiet (s : State) (m : McMode) (f : FwSt) : Quiet s (s.setFw m f) := by
  unfold State.setFw
  split
  · exact .refl s
  · have hm (x : Core) : Quiet s { s with mc := x } := .of_rg rfl
    exact (hm _).trans (State.emit_quiet _ _)

theorem State.closeExpert_quiet (s : State) : Quiet s s.closeExpert := by
  unfold State.closeExpert State.sayExpert
  split
  · have hm (x : Core) : Quiet s { s with mc := x } := .of_rg rfl
    exact (hm _).trans (State.emit_quiet _ _)
  · exact .refl s

theorem State.mbDone_quiet (s : State) (st : Nat) (ws : List Word) : Quiet s (s.mbDone st ws) := by
  cases hb : s.mc.mb.busy with
  | none =>
    have h : s.mbDone st ws = s := by
      unfold State.mbDone
      rw [hb]
    rw [h]
    exact .refl s
  | some r => exact .mono (State.mbDone_told hb).reg (by rintro o ⟨n, -, rfl⟩; exact .inr (.inl (by unfold logReg; omega)))

theorem State.bootFw_quiet (s : State) : Quiet s s.bootFw := by
  unfold State.bootFw
  extract_lets _ s0
  have h0 : Quiet s s0 := .of_rg rfl
  split
  · exact h0
  · split
    · exact h0.trans ((Quiet.same (t := s0.startFw) (by simp [unstored])).trans (State.setFw_quiet _ _ _))
    · exact h0.trans (State.raise_quiet _ _ _ _)

/-- What stands open at a core that has restarted: nothing. -/
structure CoreIdle (c : Core) : Prop where
  nonce : c.nonce = none
  outst : c.outst = []
  closed : c.openUntil = none
  busy : c.mb.busy = none

theorem State.bootFw_idle (h : CoreIdle s.mc) : CoreIdle s.bootFw.mc := by
  obtain ⟨h1, h2, h3, h4⟩ := h
  unfold State.bootFw
  dsimp only
  split
  · exact ⟨h1, h2, h3, h4⟩
  · split
    · rw [State.setFw_mc]
      exact ⟨h1, h2, h3, h4⟩
    · rw [State.raise_mc]
      exact ⟨h1, h2, h3, h4⟩

theorem State.closeExpert_closed (s : State) : s.closeExpert.mc.openUntil = none := by
  unfold State.closeExpert State.sayExpert
  split
  · rw [State.emit_mc]
  · next h => simpa using h

theorem State.mbDone_idle (s : State) (st : Nat) (ws : List Word) :
    (s.mbDone st ws).mc.mb.busy = none ∧ (s.mbDone st ws).mc.openUntil = s.mc.openUntil := by
  refine ⟨?_, (congrArg Core.openUntil (s.mbDone_apart st ws) :)⟩
  cases hb : s.mc.mb.busy with
  | none =>
    unfold State.mbDone
    rw [hb]
    exact hb
  | some r => exact congrArg Mailbox.busy (State.mbDone_told hb).mb

/-- A core that the farrier resets stands idle. -/
theorem State.resetMc_idle (s : State) : CoreIdle s.resetMc.mc := by
  unfold State.resetMc
  extract_lets s1 _ s2
  obtain ⟨hbusy, hopen⟩ := s.closeExpert.mbDone_idle 7 []
  have h2 : CoreIdle s2.mc := ⟨rfl, rfl, hopen.trans s.closeExpert_closed, hbusy⟩
  clear_value s2
  obtain ⟨hn, ho, hc, hb⟩ := h2
  split
  · exact ⟨hn, ho, hc, hb⟩
  · refine State.bootFw_idle ?_
    rw [State.setFw_mc]
    exact ⟨hn, ho, hc, hb⟩

theorem State.resetMc_quiet (s : State) : Quiet s s.resetMc := by
  unfold State.resetMc
  extract_lets s1 _ s2
  have h1 : Quiet s s1 := s.closeExpert_quiet.trans (State.mbDone_quiet _ _ _)
  have h2 : Quiet s1 s2 := .of_rg rfl
  have h12 := h1.trans h2
  clear_value s2
  split
  · exact h12.trans (.of_rg rfl)
  · exact h12.trans ((s2.setFw_quiet _ _).trans (State.bootFw_quiet _))

/-! ### The rows -/

/-- Ten rows of one claim each: a command that may be performed, and answers, is told `st`. -/
theorem State.farAnswer_tells {c : FarCmd} {rest : List FarCmd} {v : State} (hc : c.src = none) (hq : v.far.queue = rest) (st d0 d1 : Nat)
    (q : List Instr) : ((v.farAnswer c st d0 d1).ended q).far.queue = rest ∧
      ((v.farAnswer c st d0 d1).ended q).reg 0x3060 = BitVec.ofNat 32 (st + put (c.f 8 8) 8 8) := by
  obtain ⟨hf, hr⟩ := v.farAnswer_told hc st d0 d1 q
  exact ⟨hf.symm ▸ hq, hr⟩

/-- A field that an answer leaves reads after it as before. -/
theorem State.farAnswer_field {c : FarCmd} {α : Type} (v : State) (hc : c.src = none) (st d0 d1 : Nat) (q : List Instr) (f : State → α)
    (hf : ∀ t u : State, Same (mask [.rg]) t u → f (u.ended q) = f t) : f ((v.farAnswer c st d0 d1).ended q) = f v :=
  hf v _ (v.farAnswer_stored hc st d0 d1)

/-- The state in which the farrier sees that the core has not written its watchdog. -/
def State.wdogSeen (s : State) : State := { s with mc := { s.mc with wdogAt := s.now } }

/-- The state in which it begins to act. -/
def State.wdogActs (s : State) : State :=
  { s.wdogSeen with far := { s.far with acting := true, since := s.now, openDone := false } }

/-- The state in which its abort has gone out. -/
def State.abortNoted (s : State) (sent : Bool) : State := { s with far := { s.far with abortSent := sent } }

theorem Meets.mcWdogExpire {P : State → Prop} (ha : s.alive = true) (ht : s.mc.wdogAt + nsTicks 50000000 ≤ s.now)
    (hagain : s.far.acting = true → P (((s.cleared.wdogSeen.raise 0x04 0 2 0 0x61).sayPins s.cleared.errOn).ended s.pending))
    (hfirst : s.far.acting = false → ∀ b, P (((((s.cleared.wdogActs.raise 0x04 0 2 0 0x61).setRecov.sayFarrier.originAbort 2).abortNoted
      b).sayPins s.cleared.errOn).ended s.pending)) : Meets (execMcWdogExpire s) P := by
  unfold execMcWdogExpire
  refine .run ha (decide_eq_true ht) ?_
  by_cases hact : s.cleared.far.acting = true
  · simp only [hact, Bool.not_true, Bool.false_eq_true, if_false]
    exact hagain hact
  · rw [Bool.not_eq_true] at hact
    simp only [hact, Bool.not_false, if_true]
    exact hfirst hact _

/-- What the farrier does for a core that it finds stopped. -/
theorem State.wdogActs_aborts (s : State) (b : Bool) (old : Bool) (q : List Instr) :
    let t := ((((s.wdogActs.raise 0x04 0 2 0 0x61).setRecov.sayFarrier.originAbort 2).abortNoted b).sayPins old).ended q
    t.mc.wdogAt = s.now ∧ t.far.acting = true ∧ t.far.since = s.now ∧ t.far.openDone = false ∧
      (s.ident.pkey ≠ 0 → s.abortHold = false → t.abort.steps = [⟨s.ident.gen + 1, 2, s.ident.chip, 0, false, false⟩]) := by
  have hu : Same (mask [.flt, .rg, .ev, .logs]) s.wdogActs (s.wdogActs.raise 0x04 0 2 0 0x61).setRecov.sayFarrier := by simp
  generalize (s.wdogActs.raise 0x04 0 2 0 0x61).setRecov.sayFarrier = u at hu
  have hv : Same (mask [.out, .rg, .chans, .ra, .tows, .links, .flt, .phys, .abort, .halt, .mons, .cmap]) u (u.originAbort 2) := by simp
  have hident : u.ident = s.ident := (hu .ident rfl).symm
  have habort : u.abort = s.abort := (hu .abort rfl).symm
  have habs : s.ident.pkey ≠ 0 → s.abortHold = false →
      (u.originAbort 2).abort.steps = [⟨s.ident.gen + 1, 2, s.ident.chip, 0, false, false⟩] := by
    intro hk hh
    have hhold : u.abortHold = s.abortHold := by
      unfold State.abortHold
      rw [habort]
    rw [(u.originAbort_taken 2 (hident ▸ hk) (hhold.trans hh)).1, hident]
  generalize u.originAbort 2 = v at hv habs
  have hp : Same (mask [.out]) (v.abortNoted b) ((v.abortNoted b).sayPins old) := by simp
  have hended (w : State) (hmc : w.mc = s.wdogActs.mc) (hfar : w.far = { s.wdogActs.far with abortSent := b }) (hab : w.abort = v.abort) :
      (w.ended q).mc.wdogAt = s.now ∧ (w.ended q).far.acting = true ∧ (w.ended q).far.since = s.now ∧
        (w.ended q).far.openDone = false ∧ (s.ident.pkey ≠ 0 → s.abortHold = false →
          (w.ended q).abort.steps = [⟨s.ident.gen + 1, 2, s.ident.chip, 0, false, false⟩]) :=
    ⟨(congrArg Core.wdogAt hmc :), (congrArg Farrier.acting hfar :), (congrArg Farrier.since hfar :), (congrArg Farrier.openDone hfar :),
      fun hk hh => (congrArg AbortSt.steps hab).trans (habs hk hh)⟩
  have hfarv : v.far = s.wdogActs.far := (hv .far rfl).symm.trans (hu .far rfl).symm
  refine hended _ ?_ ?_ ((hp .abort rfl).symm.trans rfl)
  · exact ((hp .mc rfl).symm.trans (hv .mc rfl).symm).trans (hu .mc rfl).symm
  · rw [← (hp .far rfl : (v.abortNoted b).far = _)]
    show ({ v.far with abortSent := b } : Farrier) = _
    rw [hfarv]

/-- What it finds anew while it acts changes neither its own state nor the abort. -/
theorem State.wdogSeen_kept (s : State) (old : Bool) (q : List Instr) :
    let t := ((s.wdogSeen.raise 0x04 0 2 0 0x61).sayPins old).ended q
    t.mc.wdogAt = s.now ∧ t.far = s.far ∧ t.abort = s.abort := by
  have hu : Same (mask [.flt, .out]) s.wdogSeen ((s.wdogSeen.raise 0x04 0 2 0 0x61).sayPins old) := by simp
  exact ⟨(congrArg Core.wdogAt (hu .mc rfl).symm :), (hu .far rfl).symm, (hu .abort rfl).symm⟩

/-- TAKEBACK ends the acting, and changes nothing where the farrier watches. -/
theorem State.wrFarCtl_takeback {d : Word} (hd : d.toNat.testBit 0 = true) (s : State) :
    (s.wrFarCtl true d).far.acting = false ∧ (s.far.acting = true → (s.wrFarCtl true d).far.opened = []) ∧
      (s.far.acting = false → (s.wrFarCtl true d).far = s.far) := by
  unfold State.wrFarCtl
  by_cases hact : s.far.acting = true
  · rw [if_pos ⟨rfl, hd, hact⟩]
    extract_lets pins _ t
    have hu (w : Nat) : Same (mask [.rg, .ev, .logs, .out]) t ((t.emit w).sayPins pins) := by simp
    have hfar (w : Nat) : ((t.emit w).sayPins pins).far = t.far := (hu w .far rfl).symm
    rw [hfar]
    exact ⟨rfl, fun _ => rfl, fun h => by simp [hact] at h⟩
  · rw [if_neg (by simp [hact])]
    exact ⟨by simpa using hact, fun h => absurd h hact, fun _ => rfl⟩

end

section
variable {s : State} {c : FarCmd} {rest : List FarCmd} {body : State → FarCmd → State × Option (Nat × Nat × Nat)}

theorem State.originAbort_farKept (s : State) (reason : Nat) : FarKept s (s.originAbort reason) :=
  .of_same (l := [.out, .rg, .chans, .ra, .tows, .links, .flt, .phys, .abort, .halt, .mons, .cmap]) (by simp) rfl

theorem State.wrFence_farKept (s : State) (d : Word) : FarKept s (s.wrFence true d) :=
  .of_same (l := [.out, .rg, .chans, .scal, .ev, .inj, .eject, .tows, .counts, .links, .flt, .logs, .teams, .phys, .halt, .mons,
    .ts, .cmap]) (by simp) rfl

theorem State.resetMc_farKept (s : State) : FarKept s s.resetMc := .of_same (l := [.rg, .ev, .flt, .logs, .i2c, .mc]) (by simp) rfl

theorem State.warmRequest_farKept (s : State) (cause : Nat) : FarKept s (s.warmRequest cause) :=
  .of_same (l := warmFlds) (by simp) rfl

theorem State.wrHaltCtl_farKept (s : State) (d : Word) : FarKept s (s.wrHaltCtl true d) :=
  .of_same (l := [.out, .rg, .chans, .ra, .ev, .inj, .pseq, .tows, .reins, .rrUsed, .counts, .links, .flt, .logs, .phys, .halt,
    .mons, .cmap]) (by simp) rfl

theorem State.farAnswer_farKept (s : State) (hc : c.src = none) (st d0 d1 : Nat) : FarKept s (s.farAnswer c st d0 d1) :=
  .of_same (s.farAnswer_stored hc st d0 d1) rfl

/-- What an answer leaves of what the command did. -/
theorem State.farAnswer_leaves (v : State) (hc : c.src = none) (st d0 d1 : Nat) (q : List Instr) :
    ((v.farAnswer c st d0 d1).ended q).abort = v.abort ∧ ((v.farAnswer c st d0 d1).ended q).halt = v.halt ∧
      ((v.farAnswer c st d0 d1).ended q).far = v.far ∧ (∀ p, ((v.farAnswer c st d0 d1).ended q).link p = v.link p) :=
  have h := v.farAnswer_stored hc st d0 d1
  ⟨(h .abort rfl).symm, (h .halt rfl).symm, (h .far rfl).symm, fun p => State.link_of_same h rfl p⟩

/-- A write of DX_FENCE fences the ports it names that are not OFF. -/
theorem State.wrFence_fences (s : State) {m : Nat} (hm : m < 2 ^ 12) {p : Nat} (hp : p < 12) (hb : m.testBit p = true)
    (hst : (s.link p).st ≠ .off) : ((s.wrFence true (BitVec.ofNat 32 m)).link p).st = .fenced := by
  have hd : (BitVec.ofNat 32 m).toNat = m := by
    rw [BitVec.toNat_ofNat]
    omega
  have hw : s.wrFence true (BitVec.ofNat 32 m) = (setBits 12 m).foldl (fun t p =>
      if (t.link p).st = .off ∨ (t.link p).st = .fenced then t else (t.fencePort p 7).fenceSlots p) s := by
    unfold State.wrFence
    rw [if_neg (by simp), hd]
  rw [hw]
  exact ((State.fences_fenced (setBits 12 m) s).named p (by simp [setBits, hp, hb]) hst).1

theorem State.readReg_farKept (s : State) (off : Nat) : FarKept s (s.readReg off).2 := .of_same (l := [.rshadow]) (by simp) rfl

/-- A word that is answered reads as it is. -/
theorem State.farAnswer_reads (v : State) (hc : c.src = none) (w : Word) (q : List Instr) :
    ((v.farAnswer c 0 w.toNat 0).ended q).reg 0x3064 = w :=
  (v.farAnswer_data hc 0 w.toNat 0).trans (BitVec.ofNat_toNat 32 w |>.trans (BitVec.setWidth_eq w))

/-- The warm reset that a command asks for waits with its cause. -/
theorem State.farAnswer_warm (v : State) (hc : c.src = none) (q : List Instr) (hp : v.pwr.phase = .run) (hf : v.inF3 = false) :
    (((v.farAnswer c 0 0 0).warmRequest 3).ended q).pwr.phase = .warmWait ∧
      (((v.farAnswer c 0 0 0).warmRequest 3).ended q).pwr.warmCause = 3 := by
  have h := v.farAnswer_stored hc 0 0 0
  have hf' : (v.farAnswer c 0 0 0).inF3 = false := by
    unfold State.inF3 at hf ⊢
    rwa [← (h .flt rfl : v.flt = _)]
  have hw := State.warmRequest_pwr 3 ((congrArg Power.phase (h .pwr rfl : v.pwr = _)).symm.trans hp) hf'
  exact ⟨(congrArg Power.phase hw :), (congrArg Power.warmCause hw :)⟩

/-- A halt begun with a number of 16 bits stands HALTING with that number. -/
theorem HaltHead.starts {h : Halt} {key : HWord} {id n : Nat} {b : Bool} (hid : id < 2 ^ 16)
    (hh : HaltHead h = (.halting, key, BitVec.ofNat 16 id, n, b)) : h.st = .halting ∧ h.id.toNat = id := by
  unfold HaltHead at hh
  simp only [Prod.mk.injEq] at hh
  obtain ⟨hst, -, hn, -, -⟩ := hh
  rw [hn, BitVec.toNat_ofNat]
  exact ⟨hst, Nat.mod_eq_of_lt hid⟩

theorem FarKept.trans {t u : State} (h : FarKept s t) (h' : FarKept t u) : FarKept s u :=
  ⟨h'.queue.trans h.queue, h'.last.trans h.last⟩

/-- A command that is performed and then answered 0, and what its answer leaves of what it did. -/
theorem Meets.farActs {n d0 d1 : Nat} {E : State → Prop} (h : FarFront s c rest) (hn : c.f 0 8 = n) (h1 : n ≠ 0) (h9 : n ≤ 9)
    (hk : c.f 16 16 = s.ident.pkey.toNat) (ha : n ≤ 2 ∨ s.far.acting = true)
    (hb : (body (s.cleared.farTaken c rest) c).2 = some (0, d0, d1)) (hq : (body (s.cleared.farTaken c rest) c).1.far.queue = rest)
    (hE : E (((body (s.cleared.farTaken c rest) c).1.farAnswer c 0 d0 d1).ended s.pending)) :
    Meets (farRow (fun m => decide (m = n)) body s) (fun t =>
      (t.far.queue = rest ∧ t.reg 0x3060 = BitVec.ofNat 32 (0 + put (c.f 8 8) 8 8)) ∧ E t) := by
  refine .farPerformed h (decide_eq_true hn) (by omega) hk (hn ▸ ha) (fun st e0 e1 he => ?_) fun he => by simp [hb] at he
  obtain ⟨rfl, rfl, rfl⟩ : 0 = st ∧ d0 = e0 ∧ d1 = e1 := by simpa [hb] using he
  exact ⟨State.farAnswer_tells h.src hq 0 _ _ _, hE⟩

/-- A command that is answered 0 before it acts, where what acts then leaves the answer. -/
theorem Meets.farActsLate {n : Nat} {act : State → State} {E : State → Prop} (h : FarFront s c rest) (hn : c.f 0 8 = n) (h1 : n ≠ 0)
    (h9 : n ≤ 9) (hk : c.f 16 16 = s.ident.pkey.toNat) (ha : n ≤ 2 ∨ s.far.acting = true) (hact : ∀ u, Quiet u (act u))
    (hfar : ∀ u, FarKept u (act u)) (hE : E ((act ((s.cleared.farTaken c rest).farAnswer c 0 0 0)).ended s.pending)) :
    Meets (farRow (fun m => decide (m = n)) (fun s c => (act (s.farAnswer c 0 0 0), none)) s) (fun t =>
      (t.far.queue = rest ∧ t.reg 0x3060 = BitVec.ofNat 32 (0 + put (c.f 8 8) 8 8)) ∧ E t) := by
  refine .farPerformed h (decide_eq_true hn) (by omega) hk (hn ▸ ha) (fun st e0 e1 he => by cases he) fun he => ⟨?_, hE⟩
  obtain ⟨hq, hr⟩ := State.farAnswer_tells (v := s.cleared.farTaken c rest) h.src rfl 0 0 0 s.pending
  have hquiet : ¬ IsTraffic 0x3060 := by
    unfold IsTraffic IsSent
    simp
  have hended (v w : State) (q : List Instr) (hf : v.far.queue = rest) (hv : v.reg 0x3060 = BitVec.ofNat 32 (0 + put (c.f 8 8) 8 8))
      (hw : Quiet v w) (hk : FarKept v w) :
      (w.ended q).far.queue = rest ∧ (w.ended q).reg 0x3060 = BitVec.ofNat 32 (0 + put (c.f 8 8) 8 8) :=
    ⟨hk.queue.trans hf, (hw.reg hquiet).trans hv⟩
  exact hended ((s.cleared.farTaken c rest).farAnswer c 0 0 0) _ _ hq hr (hact _) (hfar _)

end

/-- Settles O43, command by command; two commands are answered before they act, and what acts then leaves the answer. -/
theorem farrierActsAndAnswers : Obligations.FarrierActsAndAnswers := by
  simp only [Obligations.FarrierActsAndAnswers, answers_iff]
  refine ⟨fun s ha => ⟨?_, fun ht => ?_, fun hact hopen ht => ?_⟩, fun s a hw hb => ?_, fun s c rest ha hq hr hsrc => ?_⟩
  · show Meets (execMcWatchdogWrite s) _
    exact .run ha rfl rfl
  · show Meets (execMcWdogExpire s) _
    refine .mcWdogExpire ha ht (fun hact => ?_) fun hact b => ?_
    · obtain ⟨hat, hfar, hab⟩ := s.cleared.wdogSeen_kept s.cleared.errOn s.pending
      exact ⟨hat, (congrArg Farrier.acting hfar).trans hact, fun h => by simp [hact] at h, fun _ => ⟨hfar, hab⟩⟩
    · obtain ⟨hat, hacts, hsince, hopen, hsteps⟩ := s.cleared.wdogActs_aborts b s.cleared.errOn s.pending
      exact ⟨hat, hacts, fun _ => ⟨hsince, hopen, hsteps⟩, fun h => by simp [hact] at h⟩
  · show Meets (execFarrierOpenPorts s) _
    refine .run ha (by simp [hact, hopen, ht]) ⟨rfl, ?_⟩
    obtain ⟨-, hopened, htraining⟩ := s.cleared.farOpen_opened s.cleared.validPorts
    have hended (v : State) (q : List Instr) (p : Nat) (ho : p ∈ v.far.opened) (hl : (s.link p).st = .fenced → (v.link p).st = .training) :
        p ∈ (({ v with far := { v.far with openDone := true } } : State).ended q).far.opened ∧
          ((s.link p).st = .fenced → ((({ v with far := { v.far with openDone := true } } : State).ended q).link p).st = .training) :=
      ⟨ho, hl⟩
    exact fun p hp => hended _ _ p (hopened p (.inl hp)) fun hf => htraining p (.inr ⟨hp, hf⟩)
  · show Meets (execFarrierTakeback a s) _
    unfold execFarrierTakeback
    rw [RgAcc.force_eq hb]
    exact .regCmd rfl hw fun o => s.cleared.wrFarCtl_takeback hb
  · have hfront : FarFront s c rest := ⟨ha, hq, hr, hsrc⟩
    refine ⟨fun hcmd => ?_, fun row hrow => ?_, fun hcmd hk => ?_, fun hcmd hk => ?_, fun hcmd hacts => ?_, fun hcmd hacts => ?_,
      fun hcmd hacts => ?_, fun hcmd hacts => ?_, fun hcmd hacts => ?_, fun hcmd hacts => ?_, fun hcmd hacts => ?_⟩
    · show Meets (execFarrierBadCmd s) _
      exact .farUnknown hfront (by simpa using hcmd) hcmd (State.farAnswer_tells hsrc rfl 1 0 0 _)
    · simp only [List.mem_cons, Prod.mk.injEq, List.not_mem_nil, or_false] at hrow
      rcases hrow with ⟨hn, rfl⟩ | ⟨hn, rfl⟩ | ⟨hn, rfl⟩ | ⟨hn, rfl⟩ | ⟨hn, rfl⟩ | ⟨hn, rfl⟩ | ⟨hn, rfl⟩ | ⟨hn, rfl⟩ | ⟨hn, rfl⟩
      · show Meets (execFarrierStatus s) _
        exact .farAnswers hfront hn (by decide) (by decide) fun u => ⟨rfl, rfl⟩
      · show Meets (execFarrierPeek s) _
        refine .farAnswers hfront hn (by decide) (by decide) fun u => ?_
        dsimp only
        split
        · exact ⟨rfl, rfl⟩
        · exact .of_same (l := [.rshadow]) (by simp) rfl
      · show Meets (execFarrierAbort s) _
        exact .farAnswers hfront hn (by decide) (by decide) fun u => u.originAbort_farKept 3
      · show Meets (execFarrierFence s) _
        exact .farAnswers hfront hn (by decide) (by decide) fun u => u.wrFence_farKept _
      · show Meets (execFarrierOpen s) _
        exact .farAnswers hfront hn (by decide) (by decide) fun u => (u.farOpen_opened _).kept
      · show Meets (execFarrierResetMc s) _
        exact .farAnswers hfront hn (by decide) (by decide) fun u => (u.farAnswer_farKept hsrc 0 0 0).trans (State.resetMc_farKept _)
      · show Meets (execFarrierWarmReset s) _
        exact .farAnswers hfront hn (by decide) (by decide) fun u => (u.farAnswer_farKept hsrc 0 0 0).trans (State.warmRequest_farKept _ 3)
      · show Meets (execFarrierHalt s) _
        exact .farAnswers hfront hn (by decide) (by decide) fun u => u.wrHaltCtl_farKept _
      · show Meets (execFarrierRelease s) _
        exact .farAnswers hfront hn (by decide) (by decide) fun u => u.wrHaltCtl_farKept _
    · show Meets (execFarrierStatus s) _
      refine .farPerformed hfront (decide_eq_true hcmd) (by omega) hk (.inl (by omega)) (fun st d0 d1 h => ?_) fun h => by cases h
      cases h
      exact State.farAnswer_tells hsrc rfl 0 _ _ _
    · show Meets (execFarrierPeek s) _
      have hu : s.cleared.farTaken c rest =
          { s with out := [], far := { s.far with queue := rest, lastCmd := 2, ncmd := min 255 (s.far.ncmd + 1) } } := by
        unfold State.farTaken
        rw [hcmd]
        rfl
      rw [← hu]
      by_cases hoff : 0xF000 ≤ fld (c.f 32 32) 2 18 * 4 ∧ fld (c.f 32 32) 2 18 * 4 < 0xF300
      · refine .farPerformed hfront (decide_eq_true hcmd) (by omega) hk (.inl (by omega)) ?_ ?_
        · dsimp only
          rw [if_pos hoff]
          intro st d0 d1 h
          cases h
          exact ⟨fun _ _ => State.farAnswer_tells hsrc rfl 3 0 0 _, fun h => by omega⟩
        · dsimp only
          rw [if_pos hoff]
          intro h
          cases h
      · refine .farPerformed hfront (decide_eq_true hcmd) (by omega) hk (.inl (by omega)) ?_ ?_
        · dsimp only
          rw [if_neg hoff]
          intro st d0 d1 h
          cases h
          exact ⟨fun h1 h2 => absurd ⟨h1, h2⟩ hoff, fun _ => ⟨State.farAnswer_tells hsrc (State.readReg_farKept _ _).queue 0 _ 0 _,
            State.farAnswer_reads _ hsrc _ _⟩⟩
        · dsimp only
          rw [if_neg hoff]
          intro h
          cases h
    · show Meets (execFarrierAbort s) _
      refine .farActs hfront hcmd (by decide) (by decide) hacts.1 (.inr hacts.2) rfl (State.originAbort_farKept _ 3).queue ?_
      rw [(State.farAnswer_leaves _ hsrc _ _ _ _).1]
      exact fun hkey hhold => congrArg AbortSt.steps (State.originAbort_taken (s.cleared.farTaken c rest) 3 hkey hhold).1
    · show Meets (execFarrierFence s) _
      refine .farActs hfront hcmd (by decide) (by decide) hacts.1 (.inr hacts.2) rfl (State.wrFence_farKept _ _).queue ?_
      intro p hp hb hst
      rw [(State.farAnswer_leaves _ hsrc _ _ _ _).2.2.2]
      exact State.wrFence_fences (s.cleared.farTaken c rest) (Nat.mod_lt _ (by decide)) hp hb hst
    · show Meets (execFarrierOpen s) _
      refine .farActs hfront hcmd (by decide) (by decide) hacts.1 (.inr hacts.2) rfl (State.farOpen_opened _ _).kept.queue ?_
      intro p hp hb hv
      obtain ⟨-, -, hfar, hlink⟩ := State.farAnswer_leaves (c := c) _ hsrc _ _ _ _
      rw [hfar, hlink]
      have hmem : p ∈ (setBits 12 (c.f 32 12)).filter (fun p => (s.cleared.farTaken c rest).portValid p) :=
        List.mem_filter.mpr ⟨by simp [setBits, hp, hb], hv⟩
      obtain ⟨-, hopened, htraining⟩ := (s.cleared.farTaken c rest).farOpen_opened
        ((setBits 12 (c.f 32 12)).filter (fun p => (s.cleared.farTaken c rest).portValid p))
      exact ⟨hopened p (.inl hmem), fun hf => htraining p (.inr ⟨hmem, hf⟩)⟩
    · show Meets (execFarrierResetMc s) _
      refine .farActsLate (act := State.resetMc) hfront hcmd (by decide) (by decide) hacts.1 (.inr hacts.2) State.resetMc_quiet
        State.resetMc_farKept ?_
      obtain ⟨hn, ho, hc, hb⟩ := State.resetMc_idle ((s.cleared.farTaken c rest).farAnswer c 0 0 0)
      exact ⟨hn, ho, hc, hb⟩
    · show Meets (execFarrierWarmReset s) _
      refine .farActsLate (act := fun u => u.warmRequest 3) hfront hcmd (by decide) (by decide) hacts.1 (.inr hacts.2)
        (fun u => u.warmRequest_quiet 3) (fun u => u.warmRequest_farKept 3) ?_
      exact State.farAnswer_warm (s.cleared.farTaken c rest) hsrc s.pending
    · show Meets (execFarrierHalt s) _
      refine .farActs hfront hcmd (by decide) (by decide) hacts.1 (.inr hacts.2) rfl (State.wrHaltCtl_farKept _ _).queue ?_
      intro hrun hkey
      have hid : c.f 32 16 < 2 ^ 16 := Nat.mod_lt _ (by decide)
      have hgo := State.wrHaltCtl_go (s := s.cleared.farTaken c rest) hid hrun hkey
      rw [(State.farAnswer_leaves _ hsrc _ _ _ _).2.1]
      exact HaltHead.starts hid hgo
    · show Meets (execFarrierRelease s) _
      refine .farActs hfront hcmd (by decide) (by decide) hacts.1 (.inr hacts.2) rfl (State.wrHaltCtl_farKept _ _).queue ?_
      rw [(State.farAnswer_leaves _ hsrc _ _ _ _).2.1]
      exact State.wrHaltCtl_rel (Nat.mod_lt _ (by decide))

end Sys2Proof.Machine

namespace Sys2Proof.Machine

/-! ## Teams: what leaving and returning does to a team and to its port -/

section
variable {s t : State} {n k : Nat}

theorem State.team_modTeam_same (s : State) (n : Nat) (f : Team → Team) : (s.modTeam n f).team n = f (s.team n) :=
  SMap.get_set_same _ _ _ _

theorem State.team_modTeam_other (s : State) (f : Team → Team) (h : k ≠ n) : (s.modTeam n f).team k = s.team k :=
  SMap.get_set_other _ _ _ h

theorem State.team_of_same {l : List Fld} (h : Same (mask l) s t) (hl : Fld.teams.bit &&& mask l = 0) (n : Nat) : t.team n = s.team n :=
  congrArg (fun m => SMap.get (fun _ => Team.reset) m n) (h .teams hl).symm

theorem State.teamPort_of_reg (h : ∀ o, 0xC004 ≤ o → o < 0xD000 → t.reg o = s.reg o) (hn : n < 16) : t.teamPort n = s.teamPort n := by
  unfold State.teamPort State.rf
  rw [h _ (by omega) (by omega)]

/-- A fold that gives a property at one of its elements, which every step keeps. -/
theorem foldl_reaches {α σ : Type} {Q : σ → Prop} {f : σ → α → σ} {x : α} {l : List α} (hx : x ∈ l) (hat : ∀ s, Q (f s x))
    (hkeep : ∀ s y, Q s → Q (f s y)) (s : σ) : Q (l.foldl f s) := by
  obtain ⟨l₁, l₂, rfl⟩ := List.append_of_mem hx
  rw [List.foldl_append, List.foldl_cons]
  exact List.foldlRecOn (motive := Q) _ _ (hat _) fun t h y _ => hkeep t y h

/-- A team that trains anew. -/
structure Retraining (x : Team) : Prop where
  st : x.st = .retraining
  tagLock : x.tagLock = false
  holdover : x.holdover = false

theorem Team.begin_retraining (x : Team) (preset : Option Nat) : Retraining (x.begin .retraining preset) := ⟨rfl, rfl, rfl⟩

theorem State.restartPhy_team (s : State) (n k : Nat) : (s.restartPhy n).team k = s.team k :=
  State.team_of_same (l := [.phys]) (by simp) rfl k

theorem State.attempt_retraining (s : State) (n : Nat) : Retraining ((s.attempt n).team n) := by
  unfold State.attempt
  rw [State.restartPhy_team, State.team_modTeam_same]
  exact Team.begin_retraining _ _

theorem State.attempt_link (s : State) (n p : Nat) : (s.attempt n).link p = s.link p :=
  State.link_of_same (l := [.teams, .phys]) (by simp) rfl p

/-- A port that goes into RETRAIN trains every team of its own. -/
theorem State.retrainPort_teams {p : Nat} (hst : (s.link p).st = .active) (reason : Nat) (hn : n ∈ s.portTeams p) :
    Retraining ((s.retrainPort p reason true).team n) := by
  unfold State.retrainPort
  extract_lets s0 s1 s2
  rw [if_neg (by simp [hst])]
  have h2 : Retraining (s2.team n) := by
    refine foldl_reaches (Q := fun t : State => Retraining (t.team n)) hn (fun t => ?_) (fun t y h => ?_) s1
    · rw [State.restartPhy_team, State.team_modTeam_same]
      exact Team.begin_retraining _ _
    · rw [State.restartPhy_team]
      by_cases hy : n = y
      · rw [hy, State.team_modTeam_same]
        exact Team.begin_retraining _ _
      · rw [State.team_modTeam_other _ _ hy]
        exact h
  rw [State.team_of_same (l := [.rg, .ev, .logs, .life, .halt]) (s := s2) (by simp) rfl]
  exact h2

theorem State.mem_portTeams {p : Nat} : n ∈ s.portTeams p ↔ n < 16 ∧ s.teamPort n = p := by
  simp [State.portTeams]

/-- The last usable team of an ACTIVE port is lost. -/
theorem State.lastLost_retrains {p : Nat} (hst : (s.link p).st = .active) (hn : n ∈ s.portTeams p) :
    ((s.lastLost p).link p).st = .retrain ∧ Retraining ((s.lastLost p).team n) := by
  unfold State.lastLost
  generalize hu : s.raise 0x38 p 1 10 (0x50 + p) = u
  have hs : Same (mask [.flt]) s u := by
    rw [← hu]
    simp
  have hlink : u.link p = s.link p := State.link_of_same hs rfl p
  have hport : u.portTeams p = s.portTeams p := by
    unfold State.portTeams State.teamPort State.rf State.reg
    rw [← (hs .rg rfl : s.rg = _)]
  exact ⟨(State.retrainPort_steered (.inl (hlink ▸ hst)) 4 true).st,
    State.retrainPort_teams (hlink ▸ hst) 4 (hport ▸ hn)⟩

/-- A team that reads DROPPED. -/
theorem State.markDrop_team (s : State) (p n : Nat) : ((s.markDrop p n).team n).st = .dropped ∧
    ((s.markDrop p n).team n).tagLock = false ∧ ((s.markDrop p n).team n).holdover = (s.team n).holdover ∧
    (∀ q, (s.markDrop p n).link q = s.link q) := by
  unfold State.markDrop
  generalize hu : s.modTeam n _ = u
  have hs : Same (mask [.rg, .ev, .logs, .life]) u ((u.incReg (teamReg n 0x20)).spareLog 3 n p) := by simp
  rw [State.team_of_same hs rfl]
  have hlink (q : Nat) : u.link q = s.link q := by
    rw [← hu]
    rfl
  refine ⟨?_, ?_, ?_, fun q => (State.link_of_same hs rfl q).trans (hlink q)⟩
  all_goals rw [← hu, State.team_modTeam_same]

theorem State.raise_link (s : State) (code inst cls atype master p : Nat) : (s.raise code inst cls atype master).link p = s.link p :=
  State.link_of_same (l := [.flt]) (by simp) rfl p

/-- The exchange of a drop is complete: the team is out of the rotation and trains. -/
theorem State.dropComplete_drops (s : State) (p n : Nat) : Retraining ((s.dropComplete p n).team n) ∧
    ((s.dropComplete p n).link p).teams = (s.link p).teams.filter (fun k => decide (k ≠ n)) := by
  unfold State.dropComplete
  refine ⟨State.attempt_retraining _ _, ?_⟩
  rw [State.attempt_link, State.raise_link, State.link_modLink_same]

/-- What losing team `n` of an ACTIVE port does. -/
structure TeamLeft (n p : Nat) (s t : State) : Prop where
  last : (s.link p).teams.all (fun k => decide (k = n) || (s.link p).dropAsk.contains k) = true →
    (t.link p).st = .retrain ∧ (t.team n).st = .retraining
  other : (s.link p).teams.all (fun k => decide (k = n) || (s.link p).dropAsk.contains k) = false → s.portCompat p = false →
    (t.team n).st = .dropped ∧ n ∈ (t.link p).dropAsk
  holdover : (s.team n).holdover = false → (t.team n).holdover = false
  tagLock : (t.team n).tagLock = false

theorem State.teamUnusable_left (hn : n < 16) (hst : (s.link (s.teamPort n)).st = .active) (hin : n ∈ (s.link (s.teamPort n)).teams)
    (hask : n ∉ (s.link (s.teamPort n)).dropAsk) : TeamLeft n (s.teamPort n) s (s.teamUnusable n) := by
  unfold State.teamUnusable
  extract_lets p l s1
  rw [if_neg (by simp [l, p, hst, hin, hask])]
  by_cases hall : l.teams.all (fun k => decide (k = n) || l.dropAsk.contains k) = true
  · rw [if_pos hall]
    obtain ⟨hlink, hstteam, hlock, hhold⟩ := State.lastLost_retrains (n := n) hst (State.mem_portTeams.mpr ⟨hn, rfl⟩)
    exact ⟨fun _ => ⟨hlink, hstteam⟩, fun h => absurd hall (by simpa using h), fun _ => hhold, hlock⟩
  · rw [if_neg hall]
    obtain ⟨hdrop, hlock, hhold, hlinks⟩ := s.markDrop_team p n
    split
    · next hc =>
      obtain ⟨⟨hst', hlock', hhold'⟩, -⟩ := s1.dropComplete_drops p n
      exact ⟨fun h => absurd h hall, fun _ h => by simp [p, hc] at h, fun _ => hhold', hlock'⟩
    · have hctl (u : State) (f : Nat) : (u.sendCtl p 2 f).team n = u.team n :=
        State.team_of_same (l := [.out, .rg, .tows, .links, .phys, .mons, .cmap]) (by simp) rfl n
      have hsteer (u : State) (f : Nat) : ((u.sendCtl p 2 f).link p).dropAsk = (u.link p).dropAsk :=
        Steered.dropAsk ((State.sendCtl_steered u p 2 f).mpr (Steered.refl u)) p
      have hteam : (s1.modLink p (fun l => { l with dropAsk := l.dropAsk ++ [n] })).team n = s1.team n := rfl
      refine ⟨fun h => absurd h hall, fun _ _ => ⟨?_, ?_⟩, fun h => ?_, ?_⟩
      · rw [hctl, hteam]
        exact hdrop
      · rw [hsteer, State.link_modLink_same]
        simp
      · rw [hctl, hteam]
        exact hhold.trans h
      · rw [hctl, hteam]
        exact hlock

/-! ### The exchanges of a team on its port -/

theorem State.modTeam_link (s : State) (n p : Nat) (f : Team → Team) : (s.modTeam n f).link p = s.link p := rfl

/-- A team that has lost what it needs is unusable, whatever else of it changed first. -/
theorem State.loses_team (hn : n < 16) (hst : (s.link (s.teamPort n)).st = .active) (hin : n ∈ (s.link (s.teamPort n)).teams)
    (hask : n ∉ (s.link (s.teamPort n)).dropAsk) (f : Team → Team) (q : List Instr) :
    let t := ((s.modTeam n f).teamUnusable n).ended q
    let l := s.link (s.teamPort n)
    ((l.teams.all (fun k => decide (k = n) || l.dropAsk.contains k) = true →
        (t.link (s.teamPort n)).st = .retrain ∧ (t.team n).st = .retraining) ∧
      (l.teams.all (fun k => decide (k = n) || l.dropAsk.contains k) = false → s.portCompat (s.teamPort n) = false →
        (t.team n).st = .dropped ∧ n ∈ (t.link (s.teamPort n)).dropAsk)) ∧
    ((f (s.team n)).holdover = false → (t.team n).holdover = false) ∧ (t.team n).tagLock = false := by
  obtain ⟨hlast, hother, hhold, hlock⟩ := State.teamUnusable_left (s := s.modTeam n f) hn hst hin hask
  rw [State.team_modTeam_same] at hhold
  exact ⟨⟨hlast, hother⟩, hhold, hlock⟩

/-- RETRY of a FAILED team begins a new series of attempts, where its port is ACTIVE at once. -/
theorem State.wrTeamCtl_retry {d : Word} (h0 : d.toNat.testBit 0 = false) (h5 : d.toNat.testBit 5 = true) (s : State) (n : Nat) :
    ((s.team n).st = .failed → (s.link (s.teamPort n)).st = .active → ((s.wrTeamCtl n d).team n).st = .retraining) ∧
    ((s.team n).st = .failed → (s.link (s.teamPort n)).st ≠ .active →
      ((s.wrTeamCtl n d).team n).st = .dropped ∧ ((s.wrTeamCtl n d).team n).retryAt = some s.now) ∧
    ((s.team n).st ≠ .failed → (s.wrTeamCtl n d).teams = s.teams) := by
  have he : s.wrTeamCtl n d = s.swRetry n := by
    unfold State.wrTeamCtl
    simp [h0, h5]
  rw [he]
  unfold State.swRetry
  refine ⟨fun hf hst => ?_, fun hf hst => ?_, fun hf => ?_⟩
  · rw [if_neg (by simp [hf])]
    dsimp only
    rw [if_pos hst]
    exact (State.attempt_retraining _ n).st
  · rw [if_neg (by simp [hf])]
    dsimp only
    rw [if_neg hst, State.team_modTeam_same]
    exact ⟨rfl, rfl⟩
  · rw [if_pos hf]

/-- A team that a control flit names is one of the port's. -/
theorem State.cmdTeam_mem {p b : Nat} (h : s.cmdTeam p b = some n) : n ∈ s.portTeams p := List.mem_of_getElem? h

/-- A team whose drop is complete is in the rotation no more. -/
theorem State.dropComplete_gone (s : State) (p n : Nat) : n ∉ ((s.dropComplete p n).link p).teams ∧
    ((s.dropComplete p n).team n).st = .retraining := by
  obtain ⟨hre, hteams⟩ := s.dropComplete_drops p n
  rw [hteams]
  exact ⟨by simp, hre.st⟩

/-- An addition that is complete: the team is in the rotation, and usable. -/
theorem State.addComplete_adds (s : State) (p n : Nat) : n ∈ ((s.addComplete p n).link p).teams ∧
    ((s.addComplete p n).team n).st = .usable := by
  unfold State.addComplete
  refine ⟨?_, by rw [State.team_modTeam_same]⟩
  rw [State.modTeam_link, State.link_modLink_same]
  exact mem_insAsc.mpr (.inl rfl)

end

/-- Settles O35, event by event. -/
theorem teamsLeaveAndReturn : Obligations.TeamsLeaveAndReturn := by
  simp only [Obligations.TeamsLeaveAndReturn, answers_iff]
  refine ⟨fun s n ha hlive hst hin hask => ?_, fun s n r ha hn hst hport hretry hr => ?_, fun s n a priv hn hw hb hb0 => ?_,
    fun s p b n hc hteam hst => ⟨fun hadd hin => ?_, fun hadd hin hre => ?_⟩⟩
  · obtain ⟨hn, hus, -, -⟩ : n < 16 ∧ (s.team n).st = .usable ∧ _ ∧ _ := by simpa [State.teamLive, and_assoc] using hlive
    have hleft := fun f => State.loses_team (s := s.cleared) hn hst hin hask f s.pending
    refine ⟨fun hh => ?_, ?_⟩
    · show Meets (execClockHoldoverEnd n s) _
      refine .run ha (by simp [hlive, hh]) ?_
      obtain ⟨hl, hhold, -⟩ := hleft (fun x => { x with holdover := false })
      exact ⟨hl, hhold rfl⟩
    · show Meets (execTagLockLoss n s) _
      refine .run ha (by simp [hn, hus, hst]) ?_
      obtain ⟨hl, -, hlock⟩ := hleft (fun x => { x with tagLock := false })
      exact ⟨hl, hlock⟩
  · show Meets (execTeamRetryTimer n s) _
    exact .run ha (by simp [hn, hst, hport, hretry, hr]) (s.cleared.attempt_retraining n).st
  · show Meets (execTeamRetry n a s) _
    unfold execTeamRetry
    rw [RgAcc.force_eq hb]
    exact .regCmd (by simp [hn]) hw fun o => s.cleared.wrTeamCtl_retry hb0 hb n
  · obtain ⟨ha, hp, hfront⟩ := hc
    show Meets (execTeamDrop p s) _
    refine .run ha (by simp [hp, hfront, hadd]) ?_
    rw [show s.cleared.ctlFront p 2 = some b from hfront]
    dsimp only
    rw [show (s.cleared.ctlPop p).cmdTeam p b = some n from hteam]
    dsimp only
    have hlink : (s.cleared.ctlPop p).link p = { s.link p with ctl := (s.link p).ctl.drop 1 } := State.link_modLink_same _ _ _
    have hmem : n ∈ (s.cleared.ctlPop p).portTeams p := State.cmdTeam_mem hteam
    generalize s.cleared.ctlPop p = u at hlink hmem
    rw [hlink]
    dsimp only
    rw [if_neg (by simp [hadd, hst, hin])]
    refine ⟨fun hask => ?_, fun hask hall => ?_, fun hask hall => ?_⟩
    · rw [if_pos (by simpa using hask)]
      exact u.dropComplete_gone p n
    · rw [if_neg (by simpa using hask), if_pos hall]
      exact (State.lastLost_retrains (by rw [hlink]; exact hst) hmem).1
    · rw [if_neg (by simpa using hask), if_neg (by rw [hall]; simp)]
      exact State.dropComplete_gone _ p n
  · obtain ⟨ha, hp, hfront⟩ := hc
    show Meets (execTeamAdd p s) _
    refine .run ha (by simp [hp, hfront, hadd]) ?_
    rw [show s.cleared.ctlFront p 2 = some b from hfront]
    dsimp only
    rw [show (s.cleared.ctlPop p).cmdTeam p b = some n from hteam]
    dsimp only
    have hlink : (s.cleared.ctlPop p).link p = { s.link p with ctl := (s.link p).ctl.drop 1 } := State.link_modLink_same _ _ _
    have hmem : (s.cleared.ctlPop p).team n = s.team n := rfl
    generalize s.cleared.ctlPop p = u at hlink hmem
    rw [hlink, hmem]
    dsimp only
    rw [if_neg (by simp [hst, hin, hre])]
    refine ⟨fun hready => ?_, fun hask hlock => ?_⟩
    · split
      · exact u.addComplete_adds p n
      · next hask =>
        rw [if_pos (hready.resolve_left (by simpa using hask))]
        exact State.addComplete_adds _ p n
    · rw [if_neg (by simpa using hask), if_neg (by simp [hlock])]
      have hended (v : State) (q : List Instr) (l : Link) (hl : v.link p = l) (ht : l.teams = (s.link p).teams) (hd : 200 + n ∈ l.dropAsk) :
          ((v.ended q).link p).teams = (s.link p).teams ∧ 200 + n ∈ ((v.ended q).link p).dropAsk :=
        ⟨(congrArg Link.teams hl).trans ht, (congrArg Link.dropAsk hl :) ▸ hd⟩
      exact hended _ _ _ (State.link_modLink_same _ _ _) (by rw [hlink]) (mem_insAsc.mpr (.inl rfl))

end Sys2Proof.Machine

namespace Sys2Proof.Machine

/-! ## The spare lane -/

section
variable {s t : State} {n i j : Nat}

theorem Team.lane_set {x : Team} (h : x.lanes.length = 10) (hi : i < 10) (y : Lane) :
    ({ x with lanes := setAt x.lanes i y } : Team).lane i = y := by
  unfold Team.lane
  rw [setAt_eq_set, List.getD_eq_getElem?_getD, List.getElem?_set_self (by omega)]
  rfl

theorem Team.lane_set_other {x : Team} (hj : j ≠ i) (y : Lane) : ({ x with lanes := setAt x.lanes i y } : Team).lane j = x.lane j := by
  unfold Team.lane
  rw [setAt_eq_set, List.getD_eq_getElem?_getD, List.getElem?_set_ne hj.symm, List.getD_eq_getElem?_getD]

theorem lt_of_mem_lanePositions (h : i ∈ lanePositions) : i < 10 ∧ i ≠ 8 := by
  revert i
  decide

/-- One position fails that the spare does not replace. -/
theorem Team.failing_one {x : Team} (hi : i ∈ lanePositions) (hb : (x.lane i).bad = true) (hsound : ∀ j, j < 10 → j ≠ i → (x.lane j).bad = false)
    (hs : x.spareFor = none) : x.failing = [i] := by
  have h1 : x.failing = lanePositions.filter (fun j => decide (j = i)) := by
    refine List.filter_congr fun j hj => ?_
    by_cases hji : j = i
    · rw [hji, hb, hs]
      simp
    · rw [hsound j (lt_of_mem_lanePositions hj).1 hji]
      simp [hji]
  have hone : ∀ i ∈ lanePositions, lanePositions.filter (fun j => decide (j = i)) = [i] := by decide
  rw [h1, hone i hi]

/-- No position fails but one that the spare replaces. -/
theorem Team.failing_none {x : Team} (hsound : ∀ j, j < 10 → x.spareFor ≠ some j → (x.lane j).bad = false) : x.failing = [] := by
  refine List.filter_eq_nil_iff.mpr fun j hj h => ?_
  rw [Bool.and_eq_true] at h
  rw [hsound j (lt_of_mem_lanePositions hj).1 (by simpa using h.2)] at h
  simp at h

/-- A team of which one position fails calls for the free spare. -/
theorem State.judgeTeam_calls (h8 : ((s.team n).lane 8).bad = false) (hfree : s.spareFree n = true) (hcall : (s.team n).call = none)
    (hfail : (s.team n).failing = [i]) : s.judgeTeam n = s.callSpare n i true := by
  have hspare : (s.team n).spareFor = none := by
    unfold State.spareFree at hfree
    simp only [Bool.and_eq_true, decide_eq_true_eq] at hfree
    tauto
  unfold State.judgeTeam
  simp only [h8, Bool.false_eq_true, if_false, hspare, hfail, hcall, hfree]
  simp

/-- A team of which no position fails, and whose spare is not free, stays as it is. -/
theorem State.judgeTeam_stays (h8 : ((s.team n).lane 8).bad = false) (hfree : s.spareFree n = false)
    (hbad : (s.team n).spareFor = none ∨ (s.team n).spareBad = false) (hfail : (s.team n).failing = []) : s.judgeTeam n = s := by
  have hs : ¬((s.team n).spareFor.isSome = true ∧ (s.team n).spareBad = true) := by rcases hbad with h | h <;> simp [h]
  unfold State.judgeTeam
  simp only [h8, Bool.false_eq_true, if_false, hfail, hfree, if_neg hs]
  simp

theorem State.callSpare_team (s : State) (n i : Nat) (now : Bool) : (s.callSpare n i now).team n =
    { s.team n with call := some ⟨i, ((s.team n).txn + 1) % 256, now, 0⟩, txn := ((s.team n).txn + 1) % 256 } :=
  State.team_modTeam_same _ _ _

/-- Whether the spare is free is read off its team and the team's configuration. -/
theorem State.spareFree_of (hrg : t.rg = s.rg) (h : (t.team n).spareFor = (s.team n).spareFor ∧ (t.team n).spareBad = (s.team n).spareBad ∧
    (t.team n).mirror = (s.team n).mirror ∧ (t.team n).arm = (s.team n).arm ∧ (t.team n).txFor = (s.team n).txFor) :
    t.spareFree n = s.spareFree n := by
  obtain ⟨h1, h2, h3, h4, h5⟩ := h
  unfold State.spareFree State.reg
  dsimp only
  rw [hrg, h1, h2, h3, h4, h5]

/-- The state of the spare of a team is not free once it stands in, and where it is bad. -/
theorem State.spareFree_taken (h : (s.team n).spareFor ≠ none ∨ (s.team n).spareBad = true) : s.spareFree n = false := by
  unfold State.spareFree
  rcases h with h | h <;> simp [h]

/-- What a switch to the spare leaves: the spare in the position's place, and no call. -/
theorem State.swapDone_swaps {l : Nat} (hl : lanePos l = true) (hbad : (s.team n).spareBad = false)
    (hsound : ∀ j, j < 10 → j ≠ l → ((s.team n).lane j).bad = false) :
    ((s.swapDone n l).team n).spareFor = some l ∧ ((s.swapDone n l).team n).call = none := by
  unfold State.swapDone
  generalize hu : s.modTeam n _ = u
  have hteam : u.team n = { s.team n with spareFor := some l, call := none, holdover := (s.team n).holdover && decide (l ≠ 9) } := by
    rw [← hu]
    exact State.team_modTeam_same _ _ _
  generalize hv : State.spareLog _ 1 n l = v
  have hvteam : v.team n = u.team n := by
    rw [← hv]
    exact State.team_of_same (l := [.rg, .flt, .ev, .logs, .life]) (by simp) rfl n
  rw [hteam] at hvteam
  have h8 : l ≠ 8 := by
    rintro rfl
    simp [lanePos] at hl
  have hj : v.judgeTeam n = v := by
    refine State.judgeTeam_stays ?_ (State.spareFree_taken (.inl (by rw [hvteam]; simp))) (.inr (by rw [hvteam]; exact hbad)) ?_
    · rw [hvteam]
      exact hsound 8 (by decide) h8.symm
    · refine Team.failing_none fun j hj hs => ?_
      rw [hvteam] at hs ⊢
      exact hsound j hj fun h => hs (by rw [h])
  rw [hj, hvteam]
  exact ⟨rfl, rfl⟩

/-- A team of which a position falls out, and which has the spare free, calls for it. -/
theorem State.judgeTeam_of_lost {f : Team → Team} (hlen : (s.team n).lanes.length = 10) (hi : i ∈ lanePositions) (hfree : s.spareFree n = true)
    (hcall : (s.team n).call = none) (hsound : ∀ j, j < 10 → j ≠ i → ((s.team n).lane j).bad = false)
    (hf : (f (s.team n)).lanes = setAt (s.team n).lanes i { (s.team n).lane i with lost := true, bad := true })
    (hk : (f (s.team n)).spareFor = (s.team n).spareFor ∧ (f (s.team n)).spareBad = (s.team n).spareBad ∧
      (f (s.team n)).mirror = (s.team n).mirror ∧ (f (s.team n)).arm = (s.team n).arm ∧ (f (s.team n)).txFor = (s.team n).txFor)
    (hc : (f (s.team n)).call = (s.team n).call) :
    ((s.modTeam n f).judgeTeam n).team n =
      { f (s.team n) with call := some ⟨i, ((f (s.team n)).txn + 1) % 256, true, 0⟩, txn := ((f (s.team n)).txn + 1) % 256 } ∧
    ((f (s.team n)).lane i).lost = true := by
  have hteam := s.team_modTeam_same n f
  have hlane (j : Nat) : (f (s.team n)).lane j =
      ({ s.team n with lanes := setAt (s.team n).lanes i { (s.team n).lane i with lost := true, bad := true } } : Team).lane j :=
    congrArg (fun l => List.getD l j Lane.reset) hf
  obtain ⟨hi10, hi8⟩ := lt_of_mem_lanePositions hi
  have hat := (hlane i).trans (Team.lane_set hlen hi10 _)
  have hother (j : Nat) (hj : j ≠ i) := (hlane j).trans (Team.lane_set_other hj _)
  have hspare : (s.team n).spareFor = none := by
    unfold State.spareFree at hfree
    simp only [Bool.and_eq_true, decide_eq_true_eq] at hfree
    tauto
  have hj : (s.modTeam n f).judgeTeam n = (s.modTeam n f).callSpare n i true := by
    refine State.judgeTeam_calls ?_ ?_ ?_ ?_
    · rw [hteam, hother 8 hi8.symm]
      exact hsound 8 (by decide) hi8.symm
    · exact (State.spareFree_of (s := s) (t := s.modTeam n f) rfl (by rw [hteam]; exact hk)).trans hfree
    · rw [hteam, hc]
      exact hcall
    · rw [hteam]
      refine Team.failing_one hi (by rw [hat]) (fun j hj hji => ?_) (hk.1.trans hspare)
      rw [hother j hji]
      exact hsound j hj hji
  refine ⟨?_, by rw [hat]⟩
  rw [hj, State.callSpare_team, hteam]

end

section
variable {s : State} {n : Nat}

/-- SWAP written for a position calls for the free spare, and is ignored where the spare is not free. -/
theorem State.wrTeamCtl_swap {d : Word} (h0 : d.toNat.testBit 0 = true) (hlive : s.teamLive n = true)
    (hpos : lanePos (fld d.toNat 1 4) = true) :
    (s.spareFree n = true → (s.team n).call = none → ((s.wrTeamCtl n d).team n).call =
      some ⟨fld d.toNat 1 4, ((s.team n).txn + 1) % 256, ((s.team n).lane (fld d.toNat 1 4)).bad || decide (fld d.toNat 1 4 = 9), 0⟩) ∧
    (s.spareFree n = false ∨ (s.team n).call.isSome = true → (s.wrTeamCtl n d).teams = s.teams ∧
      ((s.wrTeamCtl n d).reg (teamReg n 4)).toNat.testBit 25 = true) := by
  have hus : (s.team n).st = .usable := by
    unfold State.teamLive at hlive
    simp only [Bool.and_eq_true, decide_eq_true_eq] at hlive
    tauto
  have he : s.wrTeamCtl n d = s.swSwap n (fld d.toNat 1 4) := by
    have hretry (u : State) (hu : (u.team n).st = .usable) : u.swRetry n = u := if_pos (by simp [hu])
    have hst : ((s.swSwap n (fld d.toNat 1 4)).team n).st = .usable := by
      unfold State.swSwap
      split
      · exact hus
      · split
        · exact hus
        · rw [State.callSpare_team]
          exact hus
    unfold State.wrTeamCtl
    rw [if_pos h0]
    dsimp only
    rw [hretry _ hst, ite_self]
  rw [he]
  unfold State.swSwap
  rw [if_neg (by simp [hpos])]
  refine ⟨fun hfree hcall => ?_, fun h => ?_⟩
  · rw [if_neg (by simp [hlive, hfree, hcall]), State.callSpare_team]
  · rw [if_pos (by rcases h with h | h <;> simp [h])]
    exact ⟨rfl, s.reg_orReg_testBit (teamReg n 4) 25 (by decide)⟩

/-- A spare found unusable is bad, and called no more; with every position sound nothing else follows. -/
theorem State.spareIsBad_judged (hbad : (s.team n).spareBad = false) (hspare : (s.team n).spareFor = none)
    (hsound : ∀ j, j < 10 → j ≠ 10 → ((s.team n).lane j).bad = false) :
    (((s.spareIsBad n).judgeTeam n).team n).spareBad = true ∧ (((s.spareIsBad n).judgeTeam n).team n).call = none := by
  have hteam : (s.spareIsBad n).team n = { s.team n with spareBad := true, call := none } := by
    unfold State.spareIsBad
    rw [if_neg (by simp [hbad])]
    generalize hu : s.modTeam n _ = u
    rw [State.team_of_same (l := [.rg, .flt, .ev, .logs, .life]) (s := u) (by simp) rfl, ← hu, State.team_modTeam_same]
  have hj : (s.spareIsBad n).judgeTeam n = s.spareIsBad n := by
    refine State.judgeTeam_stays ?_ (State.spareFree_taken (.inr (by rw [hteam]))) (.inl (by rw [hteam]; exact hspare)) ?_
    · rw [hteam]
      exact hsound 8 (by decide) (by decide)
    · refine Team.failing_none fun j hj _ => ?_
      rw [hteam]
      exact hsound j hj (by omega)
  rw [hj, hteam]
  exact ⟨rfl, rfl⟩

end

/-- Settles O34, event by event. -/
theorem sparesReplaceLanes : Obligations.SparesReplaceLanes := by
  simp only [Obligations.SparesReplaceLanes, answers_iff]
  intro s n ha hlive hlen
  have hswapped (v : State) (q : List Instr) (l : Nat) (h : (v.team n).spareFor = some l ∧ (v.team n).call = none) :
      ((v.ended q).team n).spareFor = some l ∧ ((v.ended q).team n).call = none := h
  have hspareBad (v : State) (q : List Instr) (h : (v.team n).spareBad = true ∧ (v.team n).call = none) :
      ((v.ended q).team n).spareBad = true ∧ ((v.ended q).team n).call = none := h
  refine ⟨fun i hi hfree hcall hsound => ?_, fun hh hfree hcall hsound => ?_, fun a priv hw hb hpos => ?_, fun hm htx => ?_,
    fun w hg hkind hpos => ?_, fun w c hg hkind hcall hst hl htxn => ?_, fun c hcall hst hpos hbad hsound => ?_,
    fun c hcall hst honce hbad hspare hsound => ?_⟩
  · show Meets (execLaneSilent n i s) _
    refine .run ha (by simp [hlive, (lt_of_mem_lanePositions hi).1]) ?_
    obtain ⟨hteam, hlost⟩ := State.judgeTeam_of_lost (s := s.cleared) (f := fun x => { x with
      lanes := setAt x.lanes i { x.lane i with lost := true, bad := true } }) hlen hi hfree hcall hsound rfl ⟨rfl, rfl, rfl, rfl, rfl⟩ rfl
    have hended (v : State) (q : List Instr) (x : Team) (h : v.team n = x) (hl : (x.lane i).lost = true) :
        ((v.ended q).team n).call = x.call ∧ (((v.ended q).team n).lane i).lost = true :=
      ⟨congrArg Team.call h, (congrArg (fun x : Team => (x.lane i).lost) h).trans hl⟩
    exact hended _ _ _ hteam hlost
  · show Meets (execForwardedClockLoss n s) _
    refine .run ha (by simp [hlive, hh]) ?_
    have hspare : (s.cleared.team n).spareFor ≠ some 9 := by
      have h : s.spareFree n = true := hfree
      unfold State.spareFree at h
      simp only [Bool.and_eq_true, decide_eq_true_eq] at h
      have hn : (s.cleared.team n).spareFor = none := by tauto
      rw [hn]
      simp
    dsimp only
    rw [if_neg hspare]
    have h1 := s.cleared.team_modTeam_same n (fun x => { x with holdover := true })
    generalize hu : s.cleared.modTeam n (fun x => { x with holdover := true }) = u at h1
    have hfree' : u.spareFree n = true := by
      rw [← hfree]
      exact State.spareFree_of (by rw [← hu]; rfl) (by rw [h1]; exact ⟨rfl, rfl, rfl, rfl, rfl⟩)
    obtain ⟨hteam, -⟩ := State.judgeTeam_of_lost (s := u) (n := n) (i := 9) (f := fun x => { x with
      lanes := setAt x.lanes 9 { x.lane 9 with lost := true, bad := true } }) (by rw [h1]; exact hlen) (by decide) hfree'
      (by rw [h1]; exact hcall) (fun j hj hj9 => by rw [h1]; exact hsound j hj hj9) rfl ⟨rfl, rfl, rfl, rfl, rfl⟩ rfl
    rw [h1] at hteam
    have hended (v : State) (q : List Instr) (x : Team) (h : v.team n = x) : ((v.ended q).team n).call = x.call ∧
        ((v.ended q).team n).holdover = x.holdover := ⟨congrArg Team.call h, congrArg Team.holdover h⟩
    exact hended _ _ _ hteam
  · show Meets (execTeamSwap n a s) _
    unfold execTeamSwap
    rw [RgAcc.force_eq hb]
    have hn : n < 16 := by
      unfold State.teamLive at hlive
      simp only [Bool.and_eq_true, decide_eq_true_eq] at hlive
      tauto
    exact .regCmd (by simp [hn]) hw fun o => State.wrTeamCtl_swap (s := s.cleared) hb hlive hpos
  · show Meets (execLaneManagementWord n s) _
    refine .run ha (by simp [hlive, hm, htx]) ?_
    have hmod := s.cleared.team_modTeam_same n
    refine ⟨fun i harm => ?_, fun c harm hcall hst => ?_, fun i k harm hcall hack => ?_, fun harm hcall hack => ?_⟩
    · rw [harm]
      have h := hmod (fun x => { x with mirror := some i, arm := none })
      exact ⟨congrArg Team.mirror h, congrArg Team.arm h⟩
    · rw [harm, hcall]
      dsimp only
      rw [if_pos hst]
      exact ⟨congrArg Team.call (hmod (fun x => { x with call := some { c with stage := 1 } })), rfl⟩
    · rw [harm, hcall, hack]
      have h := hmod (fun x => { x with ack := none, arm := some i })
      exact ⟨congrArg Team.ack h, congrArg Team.arm h, rfl⟩
    · rw [harm, hcall, hack]
      exact ⟨rfl, rfl⟩
  · show Meets (execMirrorReq n w s) _
    refine .run ha (by simp [hlive, hg, hkind, hpos]) ⟨fun h1 h2 h3 => ?_, fun h => ?_⟩
    · rw [if_neg (by simp [h1, h2, h3])]
      exact congrArg Team.ack (s.cleared.team_modTeam_same n (fun x => { x with ack := some (qf w 4 4, qf w 8 8) }))
    · rw [if_pos h]
      rfl
  · show Meets (execMirrorAck n w s) _
    refine .run ha (by simp [hlive, hg, hkind]) ?_
    rw [hcall]
    dsimp only
    rw [if_pos ⟨hst, hl, htxn⟩]
    refine ⟨fun ho => ?_, fun ho hpos hbad hsound => ?_⟩
    · rw [if_neg (by simp [ho])]
      exact congrArg Team.call (s.cleared.team_modTeam_same n (fun x => { x with call := some { c with stage := 2 } }))
    · rw [if_pos ho]
      exact hswapped _ _ _ (State.swapDone_swaps (s := s.cleared) hpos hbad hsound)
  · show Meets (execSpareCompareDone n true s) _
    refine .run ha (by simp [hlive, hcall, hst]) ?_
    rw [hcall]
    dsimp only
    rw [if_pos (.inl rfl)]
    exact hswapped _ _ _ (State.swapDone_swaps (s := s.cleared) hpos hbad hsound)
  · show Meets (execSpareCompareDone n false s) _
    refine .run ha (by simp [hlive, hcall, hst]) ?_
    rw [hcall]
    dsimp only
    rw [if_neg (by simp [honce])]
    exact hspareBad _ _ (State.spareIsBad_judged (s := s.cleared) hbad hspare hsound)

end Sys2Proof.Machine

namespace Sys2Proof.Machine

/-! ## Lanes: figures of merit, training frames and PRBS counters -/

/-- In `t` every position has the figure of merit it has in `s`. -/
def FomKept (s t : State) : Prop := ∀ k i, ((t.team k).lane i).fom = ((s.team k).lane i).fom

section
variable {s t u : State} {n i : Nat}

theorem FomKept.refl (s : State) : FomKept s s := fun _ _ => rfl
theorem FomKept.trans (h : FomKept s t) (h' : FomKept t u) : FomKept s u := fun k i => (h' k i).trans (h k i)

theorem FomKept.of_same {l : List Fld} (h : Same (mask l) s t) (hl : Fld.teams.bit &&& mask l = 0) : FomKept s t :=
  fun k i => congrArg (fun x : Team => (x.lane i).fom) (State.team_of_same h hl k)

theorem FomKept.modTeam (s : State) (n : Nat) {f : Team → Team} (hf : ∀ (x : Team) i, ((f x).lane i).fom = (x.lane i).fom) :
    FomKept s (s.modTeam n f) := by
  intro k i
  by_cases hk : k = n
  · rw [hk, State.team_modTeam_same, hf]
  · rw [State.team_modTeam_other _ _ hk]

theorem State.modTeam_fom_same (s : State) (n : Nat) {f : Team → Team} (hf : ∀ (x : Team) i, ((f x).lane i).fom = (x.lane i).fom)
    {t : State} {l : List Fld} (h : Same (mask l) (s.modTeam n f) t) (hl : Fld.teams.bit &&& mask l = 0) : FomKept s t :=
  (FomKept.modTeam s n hf).trans (.of_same h hl)

theorem FomKept.foldl {α : Type} {f : State → α → State} (hf : ∀ t x, FomKept t (f t x)) (l : List α) (s : State) :
    FomKept s (l.foldl f s) := foldl_keeps FomKept.refl FomKept.trans f hf l s

/-- Training that begins leaves the figures of merit. -/
theorem Team.begin_fom (x : Team) (st : TeamSt) (preset : Option Nat) (i : Nat) : ((x.begin st preset).lane i).fom = (x.lane i).fom := by
  have hlane (y : Lane) : (y.begin preset).fom = y.fom := by
    unfold Lane.begin
    cases preset <;> rfl
  show ((x.lanes.map (fun y => y.begin preset)).getD i Lane.reset).fom = (x.lanes.getD i Lane.reset).fom
  rw [List.getD_eq_getElem?_getD, List.getD_eq_getElem?_getD, List.getElem?_map]
  cases x.lanes[i]? with
  | none => rfl
  | some y => exact hlane y

theorem State.attempt_fom (s : State) (n : Nat) : FomKept s (s.attempt n) :=
  s.modTeam_fom_same n (f := fun x => x.begin .retraining (s.initPreset n)) (fun x i => Team.begin_fom x _ _ i) (l := [.phys])
    ((State.restartPhy_same _ _ (by simp)).mpr (.refl _ _)) rfl

theorem State.retrainPort_fom (s : State) (p reason : Nat) (send drain : Bool) : FomKept s (s.retrainPort p reason send drain) := by
  unfold State.retrainPort
  extract_lets s0 s1 s2
  split
  · exact .refl s
  · have h1 : FomKept s s1 := .of_same (l := [.out, .rg, .ev, .links, .flt, .logs, .phys, .ts, .tows, .mons, .cmap]) (by
      dsimp only [s1, s0]
      split <;> simp) rfl
    have h2 : FomKept s1 s2 := .foldl (fun a t => a.modTeam_fom_same t (f := fun x => x.begin .retraining none)
      (fun x i => Team.begin_fom x _ _ i) (l := [.phys]) (by simp) rfl) _ _
    exact (h1.trans h2).trans (.of_same (l := [.rg, .ev, .logs, .life, .halt]) (by simp) rfl)

theorem State.teamUnusable_fom (s : State) (n : Nat) : FomKept s (s.teamUnusable n) := by
  unfold State.teamUnusable
  extract_lets p l s1
  split
  · exact .refl s
  · split
    · exact (FomKept.of_same (l := [.flt]) (by simp) rfl : FomKept s (s.raise 0x38 p 1 10 (0x50 + p))).trans (State.retrainPort_fom _ _ _ _ _)
    · have h1 : FomKept s s1 := by
        dsimp only [s1]
        unfold State.markDrop
        generalize hu : s.modTeam n _ = u
        have h : FomKept s u := hu ▸ .modTeam s n fun _ _ => rfl
        exact h.trans (.of_same (l := [.rg, .ev, .logs, .life]) (by simp) rfl)
      refine h1.trans ?_
      split
      · unfold State.dropComplete
        exact FomKept.trans (.of_same (l := [.links, .flt]) (by simp) rfl) (State.attempt_fom _ _)
      · exact .of_same (l := [.out, .rg, .tows, .links, .phys, .mons, .cmap]) (by simp) rfl

theorem State.spareIsBad_fom (s : State) (n : Nat) : FomKept s (s.spareIsBad n) := by
  unfold State.spareIsBad
  split
  · exact .refl s
  · exact s.modTeam_fom_same n (f := fun x => { x with spareBad := true, call := none }) (fun _ _ => rfl)
      (l := [.flt, .rg, .ev, .logs, .life]) (by simp) rfl

theorem State.callSpare_fom (s : State) (n i : Nat) (now : Bool) : FomKept s (s.callSpare n i now) := .modTeam s n fun _ _ => rfl

theorem State.judgeTeam_fom (s0 : State) (n : Nat) : FomKept s0 (s0.judgeTeam n) := by
  unfold State.judgeTeam
  extract_lets s x fails
  have h : FomKept s0 s := by
    dsimp only [s]
    split
    · exact s0.spareIsBad_fom n
    · exact .refl s0
  clear_value s fails
  refine h.trans ?_
  split
  · exact s.teamUnusable_fom n
  · split
    · rcases fails with _ | ⟨i, _ | ⟨j, l⟩⟩
      · exact s.teamUnusable_fom n
      · dsimp only
        split
        · split
          · exact .modTeam s n fun _ _ => rfl
          · split
            · exact s.callSpare_fom _ _ _
            · exact s.teamUnusable_fom n
        · split
          · exact s.callSpare_fom _ _ _
          · exact s.teamUnusable_fom n
      · exact s.teamUnusable_fom n
    · split
      · split
        · exact s.callSpare_fom _ _ _
        · exact .refl s
      · exact .refl s

theorem State.attemptFailed_fom (s : State) (n : Nat) : FomKept s (s.attemptFailed n) := by
  unfold State.attemptFailed
  dsimp only
  split
  · exact s.modTeam_fom_same n (f := fun x => { x with st := .failed, attempts := (s.team n).attempts + 1, retryAt := none })
      (fun _ _ => rfl) (l := [.flt, .rg, .ev, .logs, .life]) (by simp) rfl
  · exact .modTeam s n fun _ _ => rfl

theorem State.decideTeam_fom (s : State) (n : Nat) : FomKept s (s.decideTeam n) := by
  unfold State.decideTeam
  extract_lets p x st v s1 s2
  have h1 : FomKept s s1 := .modTeam s n fun _ _ => rfl
  have h2 : FomKept s1 s2 := .modTeam s1 n fun _ _ => rfl
  clear_value v s2
  split
  · exact h1.trans (.modTeam s1 n fun _ _ => rfl)
  · split
    · exact h1.trans (s1.attemptFailed_fom n)
    · split
      · refine (h1.trans h2).trans (.foldl (fun a k => .modTeam a k fun x i => ?_) _ _)
        split
        · exact x.begin_fom _ _ i
        · exact x.begin_fom _ _ i
      · exact h1.trans h2

end

end Sys2Proof.Machine

namespace Sys2Proof.Machine

/-! ## A training frame at a lane -/

/-- Lane `y`, position `i` of the team at place `place`, once frame `f` has been heard (R338 to R343). -/
def Lane.framed (y : Lane) (i place train limit : Nat) (f : TrainFrame) : Lane :=
  let good := laneGood f.ctl
  let wrong := good && (decide (qf f.ctl 16 4 ≠ i) || decide (qf f.ctl 20 4 ≠ place))
  let y1 := if good then y.control f.ctl.toNat else y
  let y2 := if laneGood f.sts then y1.answer f.sts.toNat else y1
  let y3 := y2.measure train limit f.fom.toNat f.settled
  if wrong then { y3 with bad := true, miswire := true } else y3

section
variable {y z : Lane} {i place train limit fom : Nat} {settled : Bool} {f : TrainFrame}

theorem Lane.measure_fom (y : Lane) : (y.measure train limit fom settled).fom = fom := by
  unfold Lane.measure
  dsimp only
  split
  · rfl
  · split
    · rfl
    · split
      · rfl
      · rfl

theorem Lane.measure_done (h : y.train = .open_) (hf : train ≤ fom) : (y.measure train limit fom true).train = .done := by
  unfold Lane.measure
  dsimp only
  rw [if_neg (by simp [h]), if_pos ⟨hf, .inl rfl⟩]

theorem Lane.measure_failed (h : y.train = .open_) (hf : fom < train) (hl : limit ≤ y.asks) :
    (y.measure train limit fom settled).train = .failed := by
  unfold Lane.measure
  dsimp only
  rw [if_neg (by simp [h]), if_neg (by omega), if_pos hl]

/-- The taps of a lane and the setting it echoes. -/
def Lane.taps (y : Lane) : (Int × Int × Int) × Nat := ((y.cm2, y.cm1, y.cp1), y.echo)

theorem Lane.measure_taps (y : Lane) : (y.measure train limit fom settled).taps = y.taps := by
  unfold Lane.measure
  dsimp only
  split
  · rfl
  · split
    · rfl
    · split
      · rfl
      · rfl

theorem Lane.control_preset {c : Nat} (h1 : 1 ≤ fld c 0 3) (h5 : fld c 0 3 ≤ 5) (hs : fld y.seen 0 3 ≠ fld c 0 3) :
    (y.control c).taps = (presetTaps (fld c 0 3), fld c 0 3) := by
  unfold Lane.control
  dsimp only
  rw [if_pos ⟨h1, h5⟩, if_neg hs]
  rfl

theorem Lane.tapStep_train (y : Lane) (j req : Nat) : (y.tapStep j req).train = y.train ∧ (y.tapStep j req).asks = y.asks := by
  unfold Lane.tapStep
  split
  · exact ⟨rfl, rfl⟩
  · split
    · exact ⟨rfl, rfl⟩
    · extract_lets d a b c
      split
      · exact ⟨rfl, rfl⟩
      · exact ⟨rfl, rfl⟩

theorem Lane.control_train (y : Lane) (c : Nat) : (y.control c).train = y.train ∧ (y.control c).asks = y.asks := by
  unfold Lane.control
  extract_lets ps y1
  have h1 : y1.train = y.train ∧ y1.asks = y.asks := by
    dsimp only [y1]
    split
    · split
      · exact ⟨rfl, rfl⟩
      · exact ⟨rfl, rfl⟩
    · simp [Lane.tapStep_train]
  exact h1

theorem Lane.answer_asks (y : Lane) (q : Nat) : y.asks ≤ (y.answer q).asks := by
  unfold Lane.answer
  dsimp only
  split
  · omega
  · omega

/-- The lane as `f` has reached the measurement of its figure. -/
theorem Lane.framed_eq (y : Lane) (i place train limit : Nat) (f : TrainFrame) : ∃ z : Lane,
    (z.train = y.train ∧ y.asks ≤ z.asks) ∧
    (laneGood f.ctl = true → z.taps = (y.control f.ctl.toNat).taps) ∧
    ((y.framed i place train limit f).fom = (z.measure train limit f.fom.toNat f.settled).fom ∧
      (y.framed i place train limit f).train = (z.measure train limit f.fom.toNat f.settled).train ∧
      (y.framed i place train limit f).taps = (z.measure train limit f.fom.toNat f.settled).taps) := by
  unfold Lane.framed
  extract_lets good wrong y1 y2 y3
  have h1 : y1.train = y.train ∧ y1.asks = y.asks := by
    dsimp only [y1]
    split
    · exact y.control_train _
    · exact ⟨rfl, rfl⟩
  have h2 : (y2.train = y1.train ∧ y1.asks ≤ y2.asks) ∧ y2.taps = y1.taps := by
    dsimp only [y2]
    split
    · exact ⟨⟨rfl, y1.answer_asks _⟩, rfl⟩
    · exact ⟨⟨rfl, le_rfl⟩, rfl⟩
  refine ⟨y2, ⟨h2.1.1.trans h1.1, h1.2.symm.le.trans h2.1.2⟩, fun hg => ?_, ?_⟩
  · rw [h2.2]
    dsimp only [y1]
    rw [if_pos hg]
  · split
    · exact ⟨rfl, rfl, rfl⟩
    · exact ⟨rfl, rfl, rfl⟩

theorem Lane.framed_fom (y : Lane) : (y.framed i place train limit f).fom = f.fom.toNat := by
  obtain ⟨z, -, -, hfom, -, -⟩ := y.framed_eq i place train limit f
  rw [hfom, Lane.measure_fom]

theorem Lane.framed_preset (hg : laneGood f.ctl = true) (h1 : 1 ≤ fld f.ctl.toNat 0 3) (h5 : fld f.ctl.toNat 0 3 ≤ 5)
    (hs : fld y.seen 0 3 ≠ fld f.ctl.toNat 0 3) :
    (y.framed i place train limit f).taps = (presetTaps (fld f.ctl.toNat 0 3), fld f.ctl.toNat 0 3) := by
  obtain ⟨z, -, hz, -, -, htaps⟩ := y.framed_eq i place train limit f
  rw [htaps, Lane.measure_taps, hz hg, Lane.control_preset h1 h5 hs]

theorem Lane.framed_wrong (hg : laneGood f.ctl = true) (h : qf f.ctl 16 4 ≠ i ∨ qf f.ctl 20 4 ≠ place) :
    (y.framed i place train limit f).bad = true ∧ (y.framed i place train limit f).miswire = true := by
  unfold Lane.framed
  dsimp only
  rw [if_pos (by simpa [hg] using h)]
  exact ⟨rfl, rfl⟩

theorem Lane.framed_done (ht : y.train = .open_) (hf : train ≤ f.fom.toNat) (hs : f.settled = true) :
    (y.framed i place train limit f).train = .done := by
  obtain ⟨z, ⟨hz, -⟩, -, -, htrain, -⟩ := y.framed_eq i place train limit f
  rw [htrain, hs, Lane.measure_done (hz.trans ht) hf]

theorem Lane.framed_failed (ht : y.train = .open_) (hf : f.fom.toNat < train) (hl : limit ≤ y.asks) :
    (y.framed i place train limit f).train = .failed := by
  obtain ⟨z, ⟨hz, hasks⟩, -, -, htrain, -⟩ := y.framed_eq i place train limit f
  rw [htrain, Lane.measure_failed (hz.trans ht) hf (hl.trans hasks)]

end

section
variable {s t : State} {n i j : Nat}

/-- The lanes of team `n` of `t`: lane `i` is `y` but for the request it sends next, every other as in `s`. -/
structure LaneBecomes (s t : State) (n i : Nat) (y : Lane) : Prop where
  at_ : ∃ a, (t.team n).lane i = { y with ask := a }
  other : ∀ j, j ≠ i → (t.team n).lane j = (s.team n).lane j
  len : (t.team n).lanes.length = (s.team n).lanes.length

theorem LaneBecomes.of_same {u : State} {y : Lane} {l : List Fld} (h : LaneBecomes s t n i y) (hs : Same (mask l) t u)
    (hl : Fld.teams.bit &&& mask l = 0) : LaneBecomes s u n i y := by
  obtain ⟨hat, hother, hlen⟩ := h
  rw [← State.team_of_same hs hl n] at hat hother hlen
  exact ⟨hat, hother, hlen⟩

theorem State.modLane_becomes (s : State) (hlen : (s.team n).lanes.length = 10) (hi : i < 10) (f : Lane → Lane) :
    LaneBecomes s (s.modLane n i f) n i (f ((s.team n).lane i)) := by
  unfold State.modLane
  refine ⟨⟨(f ((s.team n).lane i)).ask, ?_⟩, fun j hj => ?_, ?_⟩
  · rw [State.team_modTeam_same, Team.lane_set hlen hi]
  · rw [State.team_modTeam_same, Team.lane_set_other hj]
  · rw [State.team_modTeam_same, setAt_eq_set, List.length_set]

/-- A lane takes frame `f` and sends its own. -/
theorem State.sendFrame_becomes (y : Lane) (hlen : (s.team n).lanes.length = 10) (hi : i < 10) :
    LaneBecomes s ((s.modLane n i (fun _ => y)).sendFrame n i) n i y ∧
      ∃ c d e, .train n i c d e ∈ ((s.modLane n i (fun _ => y)).sendFrame n i).out := by
  have h1 := s.modLane_becomes hlen hi (fun _ => y)
  generalize s.modLane n i (fun _ => y) = u at h1
  unfold State.sendFrame
  extract_lets v s1 y1
  refine ⟨?_, ⟨_, _, _, List.mem_append_right _ (List.mem_singleton_self _)⟩⟩
  have h2 := State.modLane_becomes { u with free := u.free + 1 } (h1.len.trans hlen) hi (fun y => { y with ask := y.nextAsk v })
  have h3 : LaneBecomes s s1 n i y := by
    obtain ⟨⟨a, ha⟩, ho, hl⟩ := h1
    obtain ⟨⟨a', ha'⟩, ho', hl'⟩ := h2
    exact ⟨⟨a', ha'.trans (congrArg (fun w : Lane => { w with ask := a' }) ha)⟩, fun j hj => (ho' j hj).trans (ho j hj), hl'.trans hl⟩
  exact h3.of_same (l := [.phys, .out]) (by simp) rfl

/-- With another position still in training the team is not decided. -/
theorem Team.allIn_false {x : Team} (hlen : x.lanes.length = 10) (hj : j < 10) (hf : (x.lane j).far = .open_) : x.allIn = false := by
  have hmem : x.lane j ∈ x.lanes := by
    have h : j < x.lanes.length := by omega
    have h' : x.lane j = x.lanes[j] := List.getD_eq_getElem _ _ h
    rw [h']
    exact List.getElem_mem h
  refine Bool.eq_false_iff.mpr fun h => ?_
  have := List.all_eq_true.mp h _ hmem
  simp [hf] at this

end

/-- A training frame (clause 1 of O33). -/
theorem trainingFrame_answers (s : State) (n i : Nat) (f : TrainFrame) (ha : s.alive = true) (hn : n < 16) (hi : i < 10)
    (htr : s.inTraining n = true) (hlen : (s.team n).lanes.length = 10) {P : State → Prop}
    (hP : ∀ t z c d e, ((t.team n).lane i).fom = f.fom.toNat → .train n i c d e ∈ t.out →
      ((∃ j, j < 10 ∧ j ≠ i ∧ ((s.team n).lane j).far = .open_) → ∃ a, (t.team n).lane i = { z with ask := a }) →
      z = ((s.team n).lane i).framed i (s.teamPos n) (s.fomTrain n) (s.askLimit n) f → P t) :
    Meets (execTrainingFrame n i f s) P := by
  refine .run ha (by simp [hn, hi, htr]) ?_
  extract_lets y good wrong y1 y2 y3 y4 s1 s2
  have hy4 : y4 = y.framed i (s.teamPos n) (s.fomTrain n) (s.askLimit n) f := rfl
  have h1 : LaneBecomes s.cleared s1 n i y4 ∧ ∃ c d e, .train n i c d e ∈ s1.out := State.sendFrame_becomes y4 hlen hi
  obtain ⟨h1, c, d, e, hout⟩ := h1
  clear_value s1
  have h2 : LaneBecomes s.cleared s2 n i y4 ∧ .train n i c d e ∈ s2.out := by
    dsimp only [s2]
    split
    · have hsame (b : Nat) : Same (mask [.flt]) s1 (s1.raise 0x42 n 1 10 b) := by simp
      exact ⟨h1.of_same (hsame _) rfl, (hsame _) .out rfl ▸ hout⟩
    · exact ⟨h1, hout⟩
  obtain ⟨h2, hout⟩ := h2
  clear_value s2
  have hfom : ((s2.team n).lane i).fom = f.fom.toNat := by
    obtain ⟨⟨a, ha⟩, -, -⟩ := h2
    rw [ha]
    exact Lane.framed_fom _
  have hended (v : State) (q : List Instr) (z : Lane) (c d e) (h1 : ((v.team n).lane i).fom = f.fom.toNat)
    (h2 : .train n i c d e ∈ v.out) (h3 : (∃ j, j < 10 ∧ j ≠ i ∧ ((s.team n).lane j).far = .open_) → ∃ a, (v.team n).lane i = { z with ask := a })
    (hz : z = ((s.team n).lane i).framed i (s.teamPos n) (s.fomTrain n) (s.askLimit n) f) : P (v.ended q) := hP (v.ended q) z c d e h1 h2 h3 hz
  split
  · next hall =>
    refine hended _ _ y4 c d e ((s2.decideTeam_fom n n i).trans hfom) ?_ (fun ⟨j, hj, hji, hfar⟩ => ?_) hy4
    · rw [← (show Same (mask [.rg, .ev, .flt, .logs, .teams, .life]) s2 (s2.decideTeam n) by simp) .out rfl]
      exact hout
    · rw [Team.allIn_false (h2.len.trans hlen) hj ((congrArg Lane.far (h2.other j hji)).trans hfar)] at hall
      cases hall
  · exact hended _ _ y4 c d e hfom hout (fun _ => h2.at_) hy4

end Sys2Proof.Machine

namespace Sys2Proof.Machine

/-! ## Figures of merit and PRBS mode -/

section
variable {s t : State} {n i : Nat}

theorem State.modLane_same_lane (s : State) (hlen : (s.team n).lanes.length = 10) (hi : i < 10) (f : Lane → Lane) :
    ((s.modLane n i f).team n).lane i = f ((s.team n).lane i) := by
  unfold State.modLane
  rw [State.team_modTeam_same, Team.lane_set hlen hi]

theorem State.modLane_other_lane (s : State) {j : Nat} (h : j ≠ i) (f : Lane → Lane) :
    ((s.modLane n i f).team n).lane j = (s.team n).lane j := by
  unfold State.modLane
  rw [State.team_modTeam_same, Team.lane_set_other h]

theorem State.modLane_length (s : State) (f : Lane → Lane) : ((s.modLane n i f).team n).lanes.length = (s.team n).lanes.length := by
  unfold State.modLane
  rw [State.team_modTeam_same, setAt_eq_set, List.length_set]

theorem State.reg_of_rg (h : t.rg = s.rg) (o : Nat) : t.reg o = s.reg o := by
  unfold State.reg
  rw [h]

/-- Each of the first `k` lanes given its figure in turn. -/
theorem State.foldl_modLane_fom {g : Nat → Lane → Lane} {v : Nat → Nat} (hg : ∀ i y, (g i y).fom = v i)
    (hlen : (s.team n).lanes.length = 10) (k : Nat) (hk : k ≤ 10) :
    (((List.range k).foldl (fun a i => a.modLane n i (g i)) s).team n).lanes.length = 10 ∧
      ∀ i, i < k → ((((List.range k).foldl (fun a i => a.modLane n i (g i)) s).team n).lane i).fom = v i := by
  induction k with
  | zero => exact ⟨hlen, fun i hi => absurd hi (Nat.not_lt_zero i)⟩
  | succ k ih =>
    obtain ⟨hl, hfom⟩ := ih (by omega)
    rw [List.range_succ, List.foldl_append]
    refine ⟨(State.modLane_length _ _).trans hl, fun i hi => ?_⟩
    by_cases hik : i = k
    · rw [hik]
      exact (congrArg Lane.fom (State.modLane_same_lane _ hl (by omega) _)).trans (hg k _)
    · exact (congrArg Lane.fom (State.modLane_other_lane _ hik _)).trans (hfom i (by omega))

theorem Team.lane_map {x : Team} {f : Lane → Lane} (i : Nat) : ({ x with lanes := x.lanes.map f } : Team).lane i =
    if i < x.lanes.length then f (x.lane i) else Lane.reset := by
  unfold Team.lane
  rw [List.getD_eq_getElem?_getD, List.getD_eq_getElem?_getD, List.getElem?_map]
  split
  · next h => rw [List.getElem?_eq_getElem h]; rfl
  · next h => rw [List.getElem?_eq_none (by omega)]; rfl

/-- No lane of team `n` has counted a PRBS error. -/
def NoPrbsErr (s : State) (n : Nat) : Prop := ∀ i, ((s.team n).lane i).prbsErr = 0

/-- An update of a team whose lanes keep their PRBS errors, or lose them. -/
theorem NoPrbsErr.modTeam {f : Team → Team} {g : Lane → Lane} (hf : (f (s.team n)).lanes = (s.team n).lanes.map g)
    (hg : ∀ i, (g ((s.team n).lane i)).prbsErr = 0) : NoPrbsErr (s.modTeam n f) n := by
  intro i
  rw [State.team_modTeam_same]
  have h : (f (s.team n)).lane i = ({ s.team n with lanes := (s.team n).lanes.map g } : Team).lane i := by
    unfold Team.lane
    rw [hf]
  rw [h, Team.lane_map]
  split
  · exact hg i
  · rfl

theorem State.prbsEnter_noErr (h : NoPrbsErr s n) : NoPrbsErr (s.prbsEnter n) n := by
  unfold State.prbsEnter
  dsimp only
  split
  · exact .modTeam rfl fun i => h i
  · exact h

theorem State.sendPattern_team (s : State) (n : Nat) : (s.sendPattern n).team n = s.team n := rfl

/-- A write with CLR 1 clears the PRBS errors of the team. -/
theorem State.wrPrbs_clr (priv : Bool) {d : Word} (hd : d.toNat.testBit 4 = true) : NoPrbsErr (s.wrPrbs n priv d) n := by
  unfold State.wrPrbs
  extract_lets s1 s2 v
  have h2 : NoPrbsErr s2 n := by
    dsimp only [s2]
    rw [if_pos hd]
    exact .modTeam rfl fun _ => rfl
  clear_value s2
  split
  · exact h2
  · split
    · split
      · exact fun i => (congrArg (fun x : Team => (x.lane i).prbsErr) (State.sendPattern_team _ n)).trans
          (NoPrbsErr.modTeam (f := fun x => { x with st := .off, prbs := false, lanes := x.lanes.map (fun y => { y with prbsLock := false }) })
            rfl (fun j => h2 j) i)
      · exact h2
    · split
      · exact State.prbsEnter_noErr h2
      · exact h2

theorem State.quayOn_of_reg (h : t.reg 0xC000 = s.reg 0xC000) (n : Nat) : t.quayOn n = s.quayOn n := by
  unfold State.quayOn
  rw [h]

theorem State.prbsEnter_enters (hq : s.quayOn n = true) (hp : 12 ≤ s.teamPort n ∨ (s.link (s.teamPort n)).st = .off) :
    ((s.prbsEnter n).team n).st = .prbs := by
  unfold State.prbsEnter
  dsimp only
  rw [if_pos ⟨hq, hp⟩, State.team_modTeam_same]

/-- A privileged write of a team's PRBS register leaves or enters the mode. -/
theorem State.wrPrbs_mode (d : Word) (hn : n < 16) :
    let v := (mergeWrite (regMask (teamReg n 0xC)) true (s.reg (teamReg n 0xC)) d).toNat
    (fld v 0 2 = 0 → (s.team n).st = .prbs → ((s.wrPrbs n true d).team n).st = .off) ∧
    (fld v 0 2 ≠ 0 → v.testBit 2 = true ∨ v.testBit 3 = true → s.quayOn n = true →
      12 ≤ s.teamPort n ∨ (s.link (s.teamPort n)).st = .off → ((s.wrPrbs n true d).team n).st = .prbs) := by
  intro v
  unfold State.wrPrbs
  extract_lets s1 s2 v2
  have hteam : (s2.team n).st = (s.team n).st := by
    dsimp only [s2]
    split
    · rw [State.team_modTeam_same]
      rfl
    · rfl
  have hrg : s2.rg = s1.rg := by
    dsimp only [s2]
    split
    · rfl
    · rfl
  have hlinks : s2.links = s.links := by
    dsimp only [s2]
    split
    · rfl
    · rfl
  have hv : v2 = v := by
    show (s2.reg _).toNat = _
    rw [State.reg_of_rg hrg]
    exact congrArg BitVec.toNat (State.reg_setReg_same _ _ _)
  have hreg (o : Nat) (ho : o < 0xD000) : s2.reg o = s.reg o := by
    rw [State.reg_of_rg hrg]
    exact State.reg_setReg_other _ _ (by unfold teamReg; omega)
  clear_value s2
  rw [if_neg (by simp)]
  simp only [hv]
  refine ⟨fun h0 hst => ?_, fun h0 h1 hq hp => ?_⟩
  · rw [if_pos h0, if_pos (hteam.trans hst), State.sendPattern_team, State.team_modTeam_same]
  · rw [if_neg h0, if_pos h1, State.sendPattern_team]
    have hport : s2.teamPort n = s.teamPort n := State.teamPort_of_reg (fun o _ ho => hreg o ho) hn
    refine State.prbsEnter_enters ((State.quayOn_of_reg (hreg _ (by omega)) n).trans hq) ?_
    rw [hport, show s2.link (s.teamPort n) = s.link (s.teamPort n) from congrArg (fun m => SMap.get (fun _ => Link.reset) m _) hlinks]
    exact hp

end

/-- A checker's lane once 256 bits with `errs` errors have come (R346). -/
def Lane.checked (errs : Nat) (y : Lane) : Lane :=
  if y.prbsLock then { y with prbsErr := min (2 ^ 32 - 1) (y.prbsErr + min 256 errs), prbsLock := decide (errs ≤ 32) }
  else { y with prbsLock := decide (errs = 0) }

theorem Lane.checked_locked {y : Lane} {errs : Nat} (h : y.prbsLock = true) :
    (y.checked errs).prbsErr = min (2 ^ 32 - 1) (y.prbsErr + min 256 errs) ∧ (y.checked errs).prbsLock = decide (errs ≤ 32) := by
  unfold Lane.checked
  rw [if_pos h]
  exact ⟨rfl, rfl⟩

theorem Lane.checked_unlocked {y : Lane} {errs : Nat} (h : y.prbsLock = false) :
    (y.checked errs).prbsErr = y.prbsErr ∧ (y.checked errs).prbsLock = decide (errs = 0) := by
  unfold Lane.checked
  rw [if_neg (by simp [h])]
  exact ⟨rfl, rfl⟩

theorem prbsCheckerLock_answers {s : State} {n i : Nat} (errs : Nat) (ha : s.alive = true) (hn : n < 16) (hi : i < 10)
    (hst : (s.team n).st = .prbs) (hb : (s.reg (teamReg n 0xC)).toNat.testBit 3 = true) (hlen : (s.team n).lanes.length = 10)
    {P : State → Prop} (hP : ∀ t : State, (t.team n).lane i = ((s.team n).lane i).checked errs → P t) :
    Meets (execPrbsCheckerLock n i errs s) P := by
  refine .run ha (by simp [hn, hi, hst, hb]) ?_
  have hended (v : State) (q : List Instr) (h : (v.team n).lane i = ((s.team n).lane i).checked errs) : P (v.ended q) := hP _ h
  exact hended _ _ (State.modLane_same_lane s.cleared hlen hi (Lane.checked errs))

theorem State.judgedIf_fom (s : State) (n : Nat) {f : Team → Team} (hf : ∀ (x : Team) i, ((f x).lane i).fom = (x.lane i).fom) :
    FomKept s (if s.teamLive n then (s.modTeam n f).judgeTeam n else s) := by
  split
  · exact (FomKept.modTeam s n hf).trans (State.judgeTeam_fom _ n)
  · exact .refl s

/-- Position `i` of team `n` once the figures `foms` have come (R344). -/
def State.fomLane (s : State) (n : Nat) (foms : List Nat) (i : Nat) (y : Lane) : Lane :=
  let f := foms.getD i 0 % 256
  let lost := y.lost && decide (f = 0)
  { y with fom := f, lost := lost, bad := y.miswire || lost || decide (f < s.fomFail n)
           low := if f < s.fomSwap n then min 16 (y.low + 1) else 0 }

theorem State.fomLane_fom (s : State) (n : Nat) (foms : List Nat) (i : Nat) (y : Lane) :
    (s.fomLane n foms i y).fom = foms.getD i 0 % 256 := rfl

theorem fomUpdate_answers {s : State} {n : Nat} (foms : List Nat) (ha : s.alive = true) (hlive : s.teamLive n = true)
    (hst : (s.link (s.teamPort n)).st = .active) (hlen : (s.team n).lanes.length = 10) :
    Meets (execFomUpdate n foms s) (fun t => ∀ i, i < 10 → ((t.team n).lane i).fom = foms.getD i 0 % 256) := by
  have hlive' : s.teamLive n = true := hlive
  unfold State.teamLive at hlive'
  simp only [Bool.and_eq_true, decide_eq_true_eq] at hlive'
  obtain ⟨⟨⟨hn, husable⟩, -⟩, hp⟩ := hlive'
  refine .run ha (by simp [hn, hp, hst, husable]) ?_
  extract_lets s1
  have hs1 : s1 = (List.range 10).foldl (fun a i => a.modLane n i (s.cleared.fomLane n foms i)) s.cleared := rfl
  have hfom := (State.foldl_modLane_fom (s := s.cleared) (s.cleared.fomLane_fom n foms) hlen 10 le_rfl).2
  rw [← hs1] at hfom
  clear_value s1
  have hended (v : State) (q : List Instr) (h : ∀ i, i < 10 → ((v.team n).lane i).fom = foms.getD i 0 % 256) :
      ∀ i, i < 10 → (((v.ended q).team n).lane i).fom = foms.getD i 0 % 256 := h
  refine hended _ _ fun i hi => (s1.judgedIf_fom n ?_ n i).trans (hfom i hi)
  exact fun _ _ => rfl

/-- Settles O33, clause by clause. -/
theorem lanesTrainAndAreMeasured : Obligations.LanesTrainAndAreMeasured := by
  simp only [Obligations.LanesTrainAndAreMeasured, answers_iff]
  refine ⟨fun s n i f ha hn hi htr hlen => ?_, fun s n foms ha hlive hst hlen => ?_, fun s n i errs ha hn hi hst hb hlen => ?_,
    fun s n a hn hw => ?_, fun s n a priv hn hw hb => ?_⟩
  · refine trainingFrame_answers s n i f ha hn hi htr hlen fun t z c d e hfom hout hz hframed => ⟨hfom, ⟨c, d, e, hout⟩, fun hj => ?_⟩
    obtain ⟨a, hz⟩ := hz hj
    rw [hz, hframed]
    refine ⟨fun hg h1 h5 hs => ?_, fun hg h => Lane.framed_wrong hg h, fun ht hf hs => Lane.framed_done ht hf hs,
      fun ht hf hl => Lane.framed_failed ht hf hl⟩
    exact Prod.ext_iff.mp (Lane.framed_preset hg h1 h5 hs)
  · exact fomUpdate_answers foms ha hlive hst hlen
  · exact prbsCheckerLock_answers errs ha hn hi hst hb hlen fun t ht =>
      ⟨fun h => ht ▸ Lane.checked_locked h, fun h => ht ▸ Lane.checked_unlocked h⟩
  · show Meets (execPrbsMode n a s) _
    exact .regCmd (by simp [hn]) hw fun o => State.wrPrbs_mode (s := s.cleared) a.data hn
  · show Meets (execPrbsClr n a s) _
    unfold execPrbsClr
    rw [RgAcc.force_eq hb]
    exact .regCmd (by simp [hn]) hw fun o => State.wrPrbs_clr (s := s.cleared) priv hb

end Sys2Proof.Machine

namespace Sys2Proof.Machine

/-! ## What sending a flit puts out -/

/-- The output is a flit. -/
def Output.isFlit : Output → Bool
  | .flit .. => true
  | _ => false

/-- From `s` to `t` the outputs `l` are flits, in that order, among outputs that are none. -/
def Flits (l : List Output) (s t : State) : Prop := ∃ m, t.out = s.out ++ m ∧ m.filter Output.isFlit = l

section
variable {s t u : State} {l l' : List Output}

theorem Flits.none (h : t.out = s.out) : Flits [] s t := ⟨[], by simp [h], rfl⟩
theorem Flits.refl (s : State) : Flits [] s s := .none rfl

theorem Flits.trans (h : Flits l s t) (h' : Flits l' t u) : Flits (l ++ l') s u := by
  obtain ⟨m, hm, rfl⟩ := h
  obtain ⟨m', hm', rfl⟩ := h'
  exact ⟨m ++ m', by rw [hm', hm, List.append_assoc], List.filter_append ..⟩

theorem Flits.thenNone (h : Flits l s t) (h' : Flits [] t u) : Flits l s u := by
  have := h.trans h'
  rwa [List.append_nil] at this

theorem Flits.mem {o : Output} (h : Flits l s t) (ho : o ∈ l) : o ∈ t.out := by
  obtain ⟨m, hm, rfl⟩ := h
  rw [hm]
  exact List.mem_append_right _ (List.mem_of_mem_filter ho)

/-- What was put out stays. -/
theorem Flits.keeps {o : Output} (h : Flits l s t) (ho : o ∈ s.out) : o ∈ t.out := by
  obtain ⟨m, hm, -⟩ := h
  rw [hm]
  exact List.mem_append_left _ ho

theorem Flits.drive (s : State) {o : Output} (h : o.isFlit = false) : Flits [] s (s.drive o) := ⟨[o], rfl, by simp [h]⟩

theorem Flits.same {m : List Fld} (h : Same (mask m) s t) (hm : Fld.out.bit &&& mask m = 0) : Flits [] s t := .none (h .out hm).symm

theorem State.sendLanes_flits (s : State) (n : Nat) (syms : List (List Nat)) : Flits [] s (s.sendLanes n syms) := .drive s rfl

theorem State.modPhy_flits (s : State) (n : Nat) (f : Phy → Phy) : Flits [] s (s.modPhy n f) := .none rfl

theorem State.sendBits_flits (s : State) (n v scr : Nat) (inv : Bool) : Flits [] s (s.sendBits n v scr inv) := by
  unfold State.sendBits
  dsimp only
  split
  · exact (s.modPhy_flits n _).trans (State.sendLanes_flits _ _ _)
  · split
    · exact s.modPhy_flits n _
    · exact (s.modPhy_flits n _).trans (State.sendLanes_flits _ _ _)

theorem State.sendBody_flits (s : State) (n : Nat) (body : BitVec 2048) (inv : Bool) : Flits [] s (s.sendBody n body inv) :=
  s.sendBits_flits _ _ _ _

theorem State.sendSlot_flits (s : State) (n tag : Nat) : Flits [] s (s.sendSlot n tag) := .drive s rfl

theorem State.tagBack_flits (s : State) (p : Nat) : Flits [] s (s.tagBack p).2 := .same (m := [.tows, .links]) (by simp) rfl

theorem State.portCompat_of_reg {p : Nat} (h : t.reg (0xC040 + 4 * p) = s.reg (0xC040 + 4 * p)) : t.portCompat p = s.portCompat p := by
  unfold State.portCompat
  rw [h]

theorem State.portCompat_of_same {m : List Fld} (h : Same (mask m) s t) (hm : Fld.rg.bit &&& mask m = 0) (p : Nat) :
    t.portCompat p = s.portCompat p :=
  State.portCompat_of_reg (congrArg (fun r => SMap.get regReset r _) (h .rg hm).symm)

/-- A null slot of a port that is no compatibility port sends no flit. -/
theorem State.spareSlot_flits {p : Nat} (s : State) (n : Nat) (hc : s.portCompat p = false) : Flits [] s (s.spareSlot p n) := by
  unfold State.spareSlot
  dsimp only
  have h1 : Flits [] s (s.slotDue n).2 := .same (m := [.phys]) (by simp) rfl
  have hc1 : (s.slotDue n).2.portCompat p = false := (State.portCompat_of_same (m := [.phys]) (by simp) rfl p).trans hc
  split
  · refine h1.trans ?_
    generalize (s.slotDue n).2 = u at hc1
    unfold State.sendNull
    dsimp only
    have h2 := u.tagBack_flits p

    rw [if_neg (by simp [hc1])]
    exact h2.trans ((Flits.drive _ rfl).trans (State.sendSlot_flits _ _ _))
  · exact h1

/-- A flit driven on a port is one flit of that port and team. -/
theorem State.driveFlit_flits (s : State) (p n tag : Nat) (body : BitVec 2048) (bad fec : Bool) :
    ∃ tag' body', Flits [.flit p n tag' body'] s (s.driveFlit p n tag body bad fec) ∧ (s.portCompat p = false → body' = body) := by
  unfold State.driveFlit
  extract_lets s0 b g
  have h0 : Flits [] s s0 := .none rfl
  have hdrive (tag' : BitVec 112) (body' : BitVec 2048) : Flits [.flit p n tag' body'] s (s0.drive (.flit p n tag' body')) :=
    h0.trans ⟨[.flit p n tag' body'], rfl, rfl⟩
  split
  · next hc => exact ⟨_, _, (hdrive _ _).thenNone (State.sendBody_flits _ _ _ _), fun h => by rw [hc] at h; cases h⟩
  · next hc =>
    refine ⟨_, _, (((hdrive _ _).thenNone (State.sendSlot_flits _ _ _)).thenNone (State.sendBody_flits _ _ _ _)).thenNone
      (State.spareSlot_flits _ _ ?_), fun _ => rfl⟩
    refine Eq.trans ?_ (Bool.eq_false_iff.mpr hc)
    exact State.portCompat_of_same (m := [.out, .phys, .links]) (by simp [s0]) rfl p

/-- An unsequenced flit is one flit of its port and team, with its body. -/
theorem State.sendUnseq_flits (s : State) (p kind : Nat) (body : BitVec 2048) (n : Nat) (hc : s.portCompat p = false) :
    ∃ tag, Flits [.flit p n tag body] s (s.sendUnseq p kind body n) := by
  unfold State.sendUnseq
  dsimp only
  obtain ⟨tag, body', h, hb⟩ := (s.tagBack p).2.driveFlit_flits p n (kind + (s.tagBack p).1) body false false
  have hc1 : (s.tagBack p).2.portCompat p = false := (State.portCompat_of_same (m := [.tows, .links]) (by simp) rfl p).trans hc
  rw [hb hc1] at h
  exact ⟨tag, (s.tagBack_flits p).trans h⟩

end

end Sys2Proof.Machine

namespace Sys2Proof.Machine

/-! ## Control flits of halts, aborts and time -/

section
variable {s t : State} {p b : Nat}

/-- The front control flit of a port acts, taken out of its queue. -/
theorem Meets.ctlRow {ctype : Nat} {body : State → Nat → State} {P : State → Prop} (h : CtlComes s p ctype b)
    (hP : P ((body (s.cleared.ctlPop p) b).ended s.pending)) : Meets (ctlRow p ctype body s) P := by
  obtain ⟨ha, hp, hf⟩ := h
  refine .run ha (by simp [hp, hf]) ?_
  have hf' : s.cleared.ctlFront p ctype = some b := hf
  rw [hf']
  exact hP

theorem State.ctlPop_link (s : State) (p : Nat) : (s.ctlPop p).link p = { s.link p with ctl := (s.link p).ctl.drop 1 } :=
  State.link_modLink_same _ _ _

/-! ### Time -/

theorem State.setTime_stays {st : TimeSt} (h : s.ts.st = st) : s.setTime st = s := if_pos h

theorem State.setTime_ts {st : TimeSt} (h : s.ts.st ≠ st) :
    (s.setTime st).ts = { s.ts with st := st, good := 0, missed := 0, stepped := false, corr := 0 } := by
  unfold State.setTime
  rw [if_neg h]
  extract_lets _ s1
  obtain ⟨u, hu, hs1⟩ : ∃ u : State, u.ts = { s.ts with st := st, good := 0, missed := 0, stepped := false, corr := 0 } ∧
      s1 = u.emit (0x85 + put (tsCode st) 8 2) := ⟨_, rfl, rfl⟩
  rw [← hu]
  have h1 : u.ts = s1.ts := (show Same (mask [.rg, .ev, .logs]) u s1 by simp [hs1]) .ts rfl
  clear_value s1
  split
  · exact ((show Same (mask [.rg, .flt]) s1 ((s1.putField 0xF04C 16 16 (min 65535 (s1.rf 0xF04C 16 16 + 1))).raise 0x7E 0 1) by
      simp) .ts rfl).symm.trans h1.symm
  · exact h1.symm

theorem State.setTime_reg (st : TimeSt) {o : Nat} (ho : o ≠ 0xF04C) (hlog : ¬ IsLogLost o) : (s.setTime st).reg o = s.reg o := by
  unfold State.setTime
  split
  · rfl
  · extract_lets _ s1
    have h1 : s1.reg o = s.reg o := State.emit_reg _ _ hlog
    split
    · rw [State.raise_reg]
      exact (State.reg_setReg_other _ _ ho).trans h1
    · exact h1

theorem not_isLogLost_low {o : Nat} (h : o < 0x30000) : ¬ IsLogLost o := by
  rintro ⟨n, -, rfl⟩
  unfold logReg at h
  omega

/-- What the measured offset does to the time of `s`, with `near` of an offset within bounds. -/
structure TimeSteered (s t : State) (near : Prop) : Prop where
  t1 : t.ts.t1 = none
  reg : ∀ o, o ≠ 0xF04C → ¬ IsLogLost o → t.reg o = s.reg o
  locks : s.ts.st = .acquire → near → 15 ≤ s.ts.good → t.ts.st = .locked
  acquires : s.ts.st = .acquire → ¬ near → t.ts.st = .acquire
  stays : s.ts.st = .locked → t.ts.st = .locked
  leaves : s.ts.st = .holdover → ¬ near → t.ts.st = .acquire

/-- A response that leaves the time state as it is. -/
theorem TimeSteered.stay {near : Prop} (hst : t.ts.st = s.ts.st) (hrg : t.rg = s.rg) (ht1 : t.ts.t1 = none)
    (hl : s.ts.st = .acquire → near → ¬ 15 ≤ s.ts.good) (hh : s.ts.st = .holdover → near) : TimeSteered s t near :=
  ⟨ht1, fun o _ _ => congrArg (fun m => SMap.get regReset m o) hrg, fun ha hn hg => absurd hg (hl ha hn),
    fun ha _ => hst.trans ha, fun ha => hst.trans ha, fun ha hn => absurd (hh ha) hn⟩

/-- The time once a measurement has been taken in. -/
def State.measured (s : State) (good : Nat) : State := { s with ts := { s.ts with good := good, missed := 0, t1 := none } }

theorem State.setTime_measured {good : Nat} {st : TimeSt} (h : s.ts.st ≠ st) :
    ((s.measured good).setTime st).ts.st = st ∧ ((s.measured good).setTime st).ts.t1 = none ∧
      ∀ o, o ≠ 0xF04C → ¬ IsLogLost o → ((s.measured good).setTime st).reg o = s.reg o := by
  have hts := State.setTime_ts (s := s.measured good) (st := st) h
  exact ⟨congrArg TimeSync.st hts, congrArg TimeSync.t1 hts, fun o ho hlog => State.setTime_reg st ho hlog⟩

/-- The measurement taken in, whatever it does to rate and counter. -/
theorem State.steerBy_steers (s : State) (theta : Int) : TimeSteered s (s.steerBy theta) (-8 < theta ∧ theta < 8) := by
  unfold State.steerBy
  extract_lets near good corr set1
  have hgood (h : -8 < theta ∧ theta < 8) : good = s.ts.good + 1 := if_pos (by simp [near, h])
  have hbad (h : ¬(-8 < theta ∧ theta < 8)) : good = 0 := if_neg (by simpa [near] using h)
  have hlocks (st : TimeSt) (h : s.ts.st ≠ st) := State.setTime_measured (s := s) (good := good) h
  split
  · next hst => exact .stay rfl rfl rfl (by simp [hst]) (by simp [hst])
  · next hst =>
    split
    · next hbig => exact .stay rfl rfl rfl (fun _ h => by omega) (by simp [hst])
    · split
      · next h16 =>
        obtain ⟨h1, h2, h3⟩ := hlocks .locked (by simp [hst])
        exact ⟨h2, h3, fun _ _ _ => h1, fun _ h => absurd (hbad h) (by omega), fun h => by simp [hst] at h,
          fun h => by simp [hst] at h⟩
      · next h16 => exact .stay rfl rfl rfl (fun _ h => by have := hgood h; omega) (by simp [hst])
  · next hst => exact .stay rfl rfl rfl (by simp [hst]) (by simp [hst])
  · next hst =>
    split
    · next hn =>
      obtain ⟨h1, h2, h3⟩ := hlocks .acquire (by simp [hst])
      exact ⟨h2, h3, fun h => by simp [hst] at h, fun _ _ => h1, fun h => by simp [hst] at h, fun _ _ => h1⟩
    · next hn =>
      have hn' : -8 < theta ∧ theta < 8 := by simpa [near] using hn
      split
      · obtain ⟨h1, h2, h3⟩ := hlocks .locked (by simp [hst])
        exact ⟨h2, h3, fun h => by simp [hst] at h, fun _ h => absurd hn' h, fun _ => h1, fun _ h => absurd hn' h⟩
      · exact .stay rfl rfl rfl (by simp [hst]) fun _ => hn'

end

end Sys2Proof.Machine

namespace Sys2Proof.Machine

/-! ## Control flits at their block -/

section
variable {s t : State} {p b : Nat}

/-- An abort that is accepted waits behind the steps that wait, and sets recovery mode now. -/
theorem State.acceptAbort_waits (s : State) (from_ : Nat) (x : PendStep) (forward : Bool) :
    (s.acceptAbort from_ x forward).abort = { s.abort with steps := s.abort.steps ++ [x] } ∧
      (s.acceptAbort from_ x forward).flt.recovAt = s.now := by
  unfold State.acceptAbort
  extract_lets s1 s2
  have hsame : Same (mask [.out, .rg, .tows, .links, .phys, .mons, .cmap, .chans, .ra, .halt]) s s2 := by
    dsimp only [s2, s1]
    split <;> split <;> simp
  clear_value s2
  have hab : s2.abort = s.abort := (hsame .abort rfl).symm
  have hnow : s2.now = s.now := (hsame .now rfl).symm
  refine ⟨?_, hnow⟩
  show ({ s2.abort with steps := s2.abort.steps ++ [x] } : AbortSt) = _
  rw [hab]

/-- An abort of another partition is remembered, and no step of the block's own waits for it. -/
theorem State.passAbort_remembers (s : State) (p key gen orig reason hops : Nat) :
    (s.passAbort p key gen orig reason hops).abort.steps = s.abort.steps ∧
      ∃ n, (key, gen, n) ∈ (s.passAbort p key gen orig reason hops).abort.pairs := by
  unfold State.passAbort
  extract_lets live _ l
  split
  · next hany =>
    obtain ⟨⟨k, g, n⟩, hmem, heq⟩ := List.any_eq_true.mp hany
    simp only [Bool.and_eq_true, decide_eq_true_eq] at heq
    obtain ⟨rfl, rfl⟩ := heq
    exact ⟨rfl, n, hmem⟩
  · generalize hu : ({ s with abort := { s.abort with pairs := l.drop (l.length - 16) } } : State) = u
    have hab : u.abort = (u.fwdAbort p key gen orig reason (hops + 1)).abort :=
      (show Same (mask [.out, .rg, .tows, .links, .phys, .mons, .cmap]) u _ by simp) .abort rfl
    rw [← hab, ← hu]
    refine ⟨rfl, s.now, ?_⟩
    show _ ∈ l.drop (l.length - 16)
    have hl : l.length = live.length + 1 := by simp [l]
    rw [hl, show l = live ++ [(key, gen, s.now)] from rfl, List.drop_append_of_le_length (by omega)]
    exact List.mem_append_right _ (List.mem_singleton_self _)

/-- What an abort of the own partition does by its distance `d` ahead. -/
theorem State.judgeAbort_acts (s : State) (p gen orig reason hops : Nat) :
    let d := (gen + 256 - s.genBase.toNat) % 256
    let t := s.judgeAbort p gen orig reason hops
    (d = 1 → t.abort.steps = s.abort.steps ++ [⟨BitVec.ofNat 8 gen, reason, BitVec.ofNat 18 orig, hops, false, false⟩] ∧
      t.flt.recovAt = s.now) ∧
    (2 ≤ d → d ≤ 127 → t.abort = { s.abort with skewHold := true }) ∧
    (d = 0 ∨ 128 ≤ d → t.abort = s.abort ∧ t.reg 0x3024 = (s.incReg 0x3024).reg 0x3024) := by
  intro d t
  dsimp only [t]
  unfold State.judgeAbort
  refine ⟨fun h => ?_, fun h2 h127 => ?_, fun h => ?_⟩
  · rw [if_pos h]
    obtain ⟨hab, hrec⟩ := s.acceptAbort_waits p ⟨BitVec.ofNat 8 gen, reason, BitVec.ofNat 18 orig, hops, false, false⟩ true
    exact ⟨congrArg AbortSt.steps hab, hrec⟩
  · rw [if_neg (show ¬ d = 1 by omega), if_pos ⟨h2, h127⟩]
  · rw [if_neg (show ¬ d = 1 by omega), if_neg (show ¬ (2 ≤ d ∧ d ≤ 127) by omega)]
    exact ⟨rfl, rfl⟩

end

/-- `u` is `s` without the front control flit of port `p`. -/
structure Popped (s u : State) (p : Nat) : Prop where
  same : Same (mask [.out, .links]) s u
  link : u.link p = { s.link p with ctl := (s.link p).ctl.drop 1 }

section
variable {s u : State} {p b : Nat}

theorem Popped.reg (h : Popped s u p) (o : Nat) : u.reg o = s.reg o := State.reg_of_rg (h.same .rg rfl).symm o
theorem Popped.st (h : Popped s u p) : (u.link p).st = (s.link p).st := (congrArg Link.st h.link :)

theorem Popped.keyAdmitted (h : Popped s u p) (q key : Nat) : u.keyAdmitted q key = s.keyAdmitted q key := by
  unfold State.keyAdmitted
  rw [h.reg, h.reg]

theorem Popped.portCompat (h : Popped s u p) (q : Nat) : u.portCompat q = s.portCompat q := State.portCompat_of_reg (h.reg _)

theorem State.ctlPop_popped (s : State) (p : Nat) : Popped s (s.cleared.ctlPop p) p :=
  ⟨(State.ctlPop_same _ _ (by simp)).mpr ((State.cleared_same s (by simp)).mpr (.refl _ s)), s.cleared.ctlPop_link p⟩

theorem Meets.popped {ctype : Nat} {body : State → Nat → State} {P : State → Prop} (h : CtlComes s p ctype b)
    (hP : ∀ u, Popped s u p → P ((body u b).ended s.pending)) : Meets (Machine.ctlRow p ctype body s) P :=
  .ctlRow h (hP _ (s.ctlPop_popped p))

/-- What a HALT_MARK of key and marker does to the halt. -/
theorem haltMark_acts (h : CtlComes s p 0x10 b) : Meets (execHaltMark p s) (fun t =>
    (s.halt.st = .run → s.keyAdmitted p (fld b 32 16) = true → fld b 48 16 ≠ s.halt.id.toNat → (s.link p).st = .active →
      t.halt.st = .halting ∧ t.halt.key.toNat = fld b 32 16 ∧ t.halt.id.toNat = fld b 48 16 ∧ p ∉ t.halt.awaited ∧ t.halt.since = s.now) ∧
    (s.halt.st ≠ .run → fld b 32 16 = s.halt.key.toNat → fld b 48 16 = s.halt.id.toNat →
      t.halt = { s.halt with awaited := s.halt.awaited.filter (fun q => decide (q ≠ p)) }) ∧
    (s.halt.st ≠ .run → ¬(fld b 32 16 = s.halt.key.toNat ∧ fld b 48 16 = s.halt.id.toNat) → t.halt = s.halt)) := by
  refine .popped h fun u hu => ?_
  have hhalt : u.halt = s.halt := (hu.same .halt rfl).symm
  have hnow : u.now = s.now := (hu.same .now rfl).symm
  rw [← hhalt, ← hu.keyAdmitted, ← hu.st, ← hnow]
  dsimp only
  refine ⟨fun hrun hkey hid hst => ?_, fun hrun hkey hid => ?_, fun hrun hother => ?_⟩
  · rw [if_neg (not_not.mpr hrun), if_pos ⟨hkey, hid, hst⟩]
    have hhead := u.haltEnter_head (fld b 32 16) (fld b 48 16)
    generalize u.haltEnter (fld b 32 16) (fld b 48 16) = v at hhead
    simp only [HaltHead, Prod.mk.injEq] at hhead
    obtain ⟨h1, h2, h3, h4, -⟩ := hhead
    refine ⟨h1, (congrArg BitVec.toNat h2).trans ((BitVec.toNat_ofNat ..).trans (Nat.mod_eq_of_lt (fld_lt b 32 16))),
      (congrArg BitVec.toNat h3).trans ((BitVec.toNat_ofNat ..).trans (Nat.mod_eq_of_lt (fld_lt b 48 16))), fun hmem => ?_, h4⟩
    exact of_decide_eq_true (List.mem_filter.mp hmem).2 rfl
  · rw [if_pos hrun, if_pos ⟨hkey, hid⟩]
    rfl
  · rw [if_pos hrun, if_neg hother]
    rfl

theorem haltRel_acts (h : CtlComes s p 0x11 b) : Meets (execHaltRel p s) (fun t =>
    (s.halt.st ≠ .run → fld b 32 16 = s.halt.key.toNat → fld b 48 16 = s.halt.id.toNat → t.halt.st = .run) ∧
    (¬(fld b 32 16 = s.halt.key.toNat ∧ fld b 48 16 = s.halt.id.toNat) → t.halt = s.halt)) := by
  refine .popped h fun u hu => ?_
  have hhalt : u.halt = s.halt := (hu.same .halt rfl).symm
  rw [← hhalt]
  refine ⟨fun hrun hkey hid => ?_, fun hother => ?_⟩
  · rw [if_pos ⟨hrun, hkey, hid⟩]
    exact (State.haltRelease_run hrun).2
  · rw [if_neg fun h => hother h.2]
    rfl

theorem abortFlit_acts (h : CtlComes s p 0x20 b) :
    let key := fld b 32 16
    let gen := fld b 48 8
    let d := (gen + 256 - s.genBase.toNat) % 256
    let taken := (s.link p).st = .active ∧ s.keyAdmitted p key = true
    Meets (execAbortFlit p s) (fun t =>
      (¬taken → t.abort = s.abort) ∧
      (taken → key = s.ident.pkey.toNat → d = 1 → t.abort.steps = s.abort.steps ++
        [⟨BitVec.ofNat 8 gen, fld b 96 8, BitVec.ofNat 18 (fld b 64 18), fld b 104 8, false, false⟩] ∧ t.flt.recovAt = s.now) ∧
      (taken → key = s.ident.pkey.toNat → 2 ≤ d → d ≤ 127 → t.abort = { s.abort with skewHold := true }) ∧
      (taken → key = s.ident.pkey.toNat → d = 0 ∨ 128 ≤ d → t.abort = s.abort ∧ t.reg 0x3024 = (s.incReg 0x3024).reg 0x3024) ∧
      (taken → key ≠ s.ident.pkey.toNat → t.abort.steps = s.abort.steps ∧ ∃ n, (key, gen, n) ∈ t.abort.pairs)) := by
  intro key gen d taken
  refine .popped h fun u hu => ?_
  have hab : u.abort = s.abort := (hu.same .abort rfl).symm
  have hid : u.ident = s.ident := (hu.same .ident rfl).symm
  have hnow : u.now = s.now := (hu.same .now rfl).symm
  have hbase : u.genBase = s.genBase := by
    unfold State.genBase
    rw [hab, hid]
  have hinc : (u.incReg 0x3024).reg 0x3024 = (s.incReg 0x3024).reg 0x3024 := State.incReg_reg_congr (hu.reg _)
  obtain ⟨hone, hskew, hold⟩ := u.judgeAbort_acts p gen (fld b 64 18) (fld b 96 8) (fld b 104 8)
  rw [hbase, hab] at hone hskew hold
  rw [hnow] at hone
  rw [hinc] at hold
  have htaken (h : taken) : ¬((u.link p).st ≠ .active ∨ ¬ u.keyAdmitted p key = true) := by
    rw [hu.st, hu.keyAdmitted]
    simpa using h
  have hown (h : taken) (hk : key = s.ident.pkey.toNat) : (if (u.link p).st ≠ .active ∨ ¬ u.keyAdmitted p key = true then u
      else if key = u.ident.pkey.toNat then u.judgeAbort p gen (fld b 64 18) (fld b 96 8) (fld b 104 8)
      else u.passAbort p key gen (fld b 64 18) (fld b 96 8) (fld b 104 8)) = u.judgeAbort p gen (fld b 64 18) (fld b 96 8) (fld b 104 8) := by
    rw [if_neg (htaken h), if_pos (hk.trans (by rw [hid]))]
  dsimp only
  refine ⟨fun h => ?_, fun h hk => ?_, fun h hk => ?_, fun h hk => ?_, fun h hk => ?_⟩
  · rw [if_pos (by rw [hu.st, hu.keyAdmitted]; simpa [taken, or_iff_not_imp_left] using h)]
    exact hab
  · rw [hown h hk]
    exact hone
  · rw [hown h hk]
    exact hskew
  · rw [hown h hk]
    exact hold
  · rw [if_neg (htaken h), if_neg (by rw [hid]; exact hk)]
    obtain ⟨h1, h2⟩ := u.passAbort_remembers p key gen (fld b 64 18) (fld b 96 8) (fld b 104 8)
    exact ⟨h1.trans (congrArg AbortSt.steps hab), h2⟩

/-- A BEACON is answered with the times of its coming and of the answer. -/
theorem beacon_answered (h : CtlComes s p 0x30 b) (hst : (s.link p).st = .active) (hc : s.portCompat p = false) :
    Meets (execBeacon p s) (fun t => ∃ team tag, .flit p team tag (ctlBody 0x31 (put (fld b 32 16) 32 16 + put (fld b 64 64) 64 64 +
      put (s.ctlTime p) 128 64 + put s.time 192 64)) ∈ t.out) := by
  unfold execBeacon
  extract_lets t2
  refine .popped h fun u hu => ?_
  have htime : u.time = s.time := congrArg (fun n => (n / 3125) % 2 ^ 64) (hu.same .tod rfl).symm
  rw [if_neg (not_not.mpr (hu.st.trans hst)), htime]
  generalize ctlBody _ _ = body
  obtain ⟨tag, hout⟩ := u.sendUnseq_flits p 3 body ((u.link p).teams.headD 0) ((hu.portCompat p).trans hc)
  exact ⟨_, tag, hout.mem (List.mem_singleton_self _)⟩

theorem beaconRsp_acts {t1 : Nat} (h : CtlComes s p 0x31 b) :
    let theta := (diff64 (fld b 128 64) t1 - diff64 (s.ctlTime p) (fld b 192 64) - toSigned 16 (s.rf 0xF058 0 16)) / 2
    let delta := (diff64 (s.ctlTime p) t1 - diff64 (fld b 192 64) (fld b 128 64)) / 2
    let ours := s.beaconOn = true ∧ p = s.rf 0xF048 2 4 ∧ fld b 32 16 = s.ts.seq.toNat
    Meets (execBeaconRsp p s) (fun t => (s.ts.t1 = none ∨ ¬ours → t.ts = s.ts) ∧
      (s.ts.t1 = some t1 → ours → t.reg 0xF050 = BitVec.ofNat 32 (wrapInt 32 theta) ∧ t.reg 0xF054 = BitVec.ofNat 32 (wrapInt 32 delta) ∧
        ∃ v : State, v.ts = s.ts ∧ TimeSteered v t (-8 < theta ∧ theta < 8))) := by
  intro theta delta ours
  unfold execBeaconRsp
  extract_lets t4
  refine .popped h fun u hu => ?_
  have hts : u.ts = s.ts := (hu.same .ts rfl).symm
  have hon : u.beaconOn = s.beaconOn := by
    unfold State.beaconOn
    rw [hu.reg]
  have hrf (o lo w : Nat) : u.rf o lo w = s.rf o lo w := by
    unfold State.rf
    rw [hu.reg]
  have hmine : ours ↔ ¬(¬ u.beaconOn = true ∨ p ≠ u.rf 0xF048 2 4 ∨ fld b 32 16 ≠ u.ts.seq.toNat) := by
    rw [hon, hrf, hts]
    simp only [ours]
    tauto
  refine ⟨fun hno => ?_, fun ht1 ho => ?_⟩
  · rw [← hts] at hno ⊢
    rcases h1 : u.ts.t1 with _ | x
    · rfl
    · have h2 : ¬ ours := hno.resolve_left (by simp [h1])
      dsimp only
      rw [if_pos (not_not.mp fun h3 => h2 (hmine.mpr h3))]
      rfl
  · rw [← hts] at ht1
    rw [ht1]
    dsimp only
    rw [if_neg (hmine.mp ho), hrf]
    generalize hw : (u.setReg 0xF050 _).setReg 0xF054 _ = w
    have hst := w.steerBy_steers theta
    have hreg (o : Nat) (ho : o ≠ 0xF04C) (hlow : o < 0x30000) : (w.steerBy theta).reg o = w.reg o := hst.reg o ho (not_isLogLost_low hlow)
    refine ⟨(hreg _ (by decide) (by decide)).trans ?_, (hreg _ (by decide) (by decide)).trans ?_, w, ?_,
      ⟨hst.t1, hst.reg, hst.locks, hst.acquires, hst.stays, hst.leaves⟩⟩
    · rw [← hw, State.reg_setReg_other _ _ (by decide)]
      exact State.reg_setReg_same _ _ _
    · rw [← hw]
      exact State.reg_setReg_same _ _ _
    · rw [← hw]
      exact hts

/-- The start of a beacon interval: its beginning and the beacons missed. -/
def State.interval (s : State) : State :=
  { s with ts := { s.ts with at_ := s.now, missed := if s.ts.t1.isSome then s.ts.missed + 1 else s.ts.missed } }

theorem beaconInterval_acts (ha : s.alive = true) (hon : s.beaconOn = true) (hdue : s.ts.at_ + s.beaconTicks ≤ s.now) :
    let p := s.rf 0xF048 2 4
    let missed := if s.ts.t1.isSome then s.ts.missed + 1 else s.ts.missed
    Meets (execBeaconInterval s) (fun t => t.ts.at_ = s.now ∧
      (s.ts.st = .locked → 16 ≤ missed → t.ts.st = .holdover) ∧
      (s.ts.st = .locked → missed < 16 → t.ts.st = .locked) ∧
      (p < 12 → (s.link p).st = .active → s.portCompat p = false → t.ts.seq = s.ts.seq + 1 ∧ t.ts.t1 = some s.time) ∧
      (¬(p < 12 ∧ (s.link p).st = .active ∧ s.portCompat p = false) → t.ts.seq = s.ts.seq)) := by
  intro p missed
  refine .run ha (by simp [hon, hdue]) ?_
  extract_lets q _ s1 s2 n x
  have h2 : (s2.ts.at_ = s.now ∧ s2.ts.seq = s.ts.seq) ∧ (s.ts.st = .locked → 16 ≤ missed → s2.ts.st = .holdover) ∧
      (s.ts.st = .locked → missed < 16 → s2.ts.st = .locked) := by
    dsimp only [s2]
    split
    · next h =>
      have hts : (s1.setTime .holdover).ts = { s1.ts with st := .holdover, good := 0, missed := 0, stepped := false, corr := 0 } :=
        State.setTime_ts (by simp [h.1])
      rw [hts]
      exact ⟨⟨rfl, rfl⟩, fun _ _ => rfl, fun _ hm => absurd h.2 (Nat.not_le.mpr hm)⟩
    · next h => exact ⟨⟨rfl, rfl⟩, fun hl hm => absurd ⟨hl, hm⟩ h, fun hl _ => hl⟩
  have hreg (q : Nat) (hq : q < 12) : s2.portCompat q = s.portCompat q := by
    refine State.portCompat_of_reg ?_
    dsimp only [s2]
    split
    · exact State.setTime_reg .holdover (by omega) (not_isLogLost_low (by omega))
    · rfl
  have hsame : Same (mask [.rg, .ev, .flt, .logs, .ts]) s1 s2 := by
    dsimp only [s2]
    split
    · simp
    · simp
  have hlink (q : Nat) : s2.link q = s.link q := State.link_of_same hsame rfl q
  have htime : s2.time = s.time := congrArg (fun n => (n / 3125) % 2 ^ 64) (hsame .tod rfl).symm
  have hn : n = s2.ts.seq + 1 := rfl
  have hx : x = s2.ts := rfl
  clear_value x n
  subst hn hx
  obtain ⟨⟨hat, hseq⟩, hhold, hlock⟩ := h2
  have hcond : (p < 12 ∧ (s2.link p).st = .active ∧ ¬ s2.portCompat p = true) ↔
      (p < 12 ∧ (s.link p).st = .active ∧ s.portCompat p = false) := by
    rw [hlink]
    exact and_congr_right fun hp => and_congr_right fun _ => by rw [hreg p hp]; simp
  have hended (v : State) (q : List Instr) (x : TimeSync) (hv : v.ts = x) : (v.ended q).ts = x := hv
  by_cases hc : q < 12 ∧ (s2.link q).st = .active ∧ ¬ s2.portCompat q = true
  · rw [if_pos hc]
    generalize hw : ({ s2 with ts := _ } : State) = w
    generalize ctlBody _ _ = body
    have hts : (w.sendUnseq q 3 body).ts = w.ts :=
      ((State.sendUnseq_same w q 3 body _ (by simp)).mpr (.refl (mask [.out, .tows, .links, .phys]) w) .ts rfl).symm
    rw [hended _ _ _ (hts.trans (congrArg State.ts hw.symm))]
    exact ⟨hat, hhold, hlock, fun _ _ _ => ⟨congrArg (· + 1) hseq, congrArg some htime⟩, fun hn => absurd (hcond.mp hc) hn⟩
  · rw [if_neg hc]
    exact ⟨hat, hhold, hlock, fun h1 h2 h3 => absurd (hcond.mpr ⟨h1, h2, h3⟩) hc, fun _ => hseq⟩

end

/-- Settles O32, flit by flit. -/
theorem controlFlitsAct : Obligations.ControlFlitsAct := by
  simp only [Obligations.ControlFlitsAct, answers_iff]
  refine ⟨fun s p b h => haltMark_acts h, fun s p b h => haltRel_acts h, fun s p b h => abortFlit_acts h,
    fun s p b h hst hc => beacon_answered h hst hc, fun s p b t1 h => ?_, fun s ha hon hdue => beaconInterval_acts ha hon hdue⟩
  obtain ⟨t, ht, hno, hours⟩ := beaconRsp_acts h (t1 := t1)
  refine ⟨t, ht, hno, fun ht1 ho => ?_⟩
  obtain ⟨h0, h4, v, hv, hst⟩ := hours ht1 ho
  rw [← hv]
  exact ⟨h0, h4, hst.t1, hst.locks, hst.acquires, hst.stays, hst.leaves⟩

end Sys2Proof.Machine

namespace Sys2Proof.Machine

/-! ## Ports that are faulted, made ACTIVE and brought back -/

section
variable {s t : State} {p q : Nat} {l : Link}

theorem SteeredTo.cause (h : SteeredTo s p l t) : (t.link p).cause = l.cause := (congrArg Link.cause h.1 :)
theorem SteeredTo.cred (h : SteeredTo s p l t) : (t.link p).cred = l.cred := (congrArg Link.cred h.1 :)
theorem SteeredTo.teams (h : SteeredTo s p l t) : (t.link p).teams = l.teams := (congrArg Link.teams h.1 :)
theorem SteeredTo.tagLock (h : SteeredTo s p l t) : (t.link p).tagLock = l.tagLock := (congrArg Link.tagLock h.1 :)
theorem SteeredTo.mgtOnly (h : SteeredTo s p l t) : (t.link p).mgtOnly = l.mgtOnly := (congrArg Link.mgtOnly h.1 :)
theorem SteeredTo.paramAt (h : SteeredTo s p l t) : (t.link p).paramAt = l.paramAt := (congrArg Link.paramAt h.1 :)
theorem SteeredTo.peer (h : SteeredTo s p l t) : (t.link p).peer = l.peer := (congrArg Link.peer h.1 :)
theorem SteeredTo.goodParams (h : SteeredTo s p l t) : (t.link p).goodParams = l.goodParams := (congrArg Link.goodParams h.1 :)

/-- Going on from a port that is `l` with a change that sends nothing. -/
theorem SteeredTo.thenMod {f : Link → Link} (h : SteeredTo s p l t)
    (hf : ∀ l m : Link, l.control = m.control → (f l).control = (f m).control) : SteeredTo s p (f l) (t.modLink p f) :=
  ⟨by rw [State.link_modLink_same, hf _ _ h.1], fun q hq => by rw [State.link_modLink_other _ _ hq, h.2 q hq]⟩

/-- A port that is neither OFF nor FENCED is fenced by a fault of its own with its cause. -/
theorem State.linkFault_fences (hoff : (s.link p).st ≠ .off) (hf : (s.link p).st ≠ .fenced) (code cause : Nat) (inj : Bool) :
    ((s.linkFault p code cause inj).link p).st = .fenced ∧ ((s.linkFault p code cause inj).link p).cause = cause := by
  unfold State.linkFault
  have hlink : (s.raise code p 2 10 (0x50 + p) 0 0 inj).link p = s.link p := State.link_of_same (l := [.flt]) (by simp) rfl p
  generalize s.raise code p 2 10 (0x50 + p) 0 0 inj = u at hlink
  have hst : SteeredTo u p ((u.link p).fence cause u.now) (u.fencePort p cause) :=
    State.fencePort_steered (by rw [hlink]; exact hoff) (by rw [hlink]; exact hf) cause
  have h : SteeredTo u p ((u.link p).fence cause u.now) ((u.fencePort p cause).fenceSlots p) :=
    hst.trans (.of_same (l := [.rg, .chans, .scal, .ev, .logs]) (by simp) rfl)
  exact ⟨h.st, h.cause⟩

theorem State.haltJoin_steered (s : State) (p : Nat) : Steered s (s.haltJoin p) := by
  unfold State.haltJoin
  split
  · exact .refl s
  · generalize hu : ({ s with halt := { s.halt with sent := s.halt.sent ++ [p], awaited := s.halt.awaited ++ [p] } } : State) = u
    have h : Steered s u := by
      rw [← hu]
      exact fun _ => rfl
    exact h.trans ((State.sendCtl_steered u p _ _).mpr (.refl u))

theorem State.retryDropped_steered (s : State) (p : Nat) : Steered s (s.retryDropped p) :=
  .of_same (l := [.teams]) (by simp) rfl

/-- What a port made ACTIVE is, or one that goes on draining after RETRAIN. -/
def Link.activate (l : Link) (fresh : Bool) (toUse now : Nat) : Link :=
  { l with
    st := if l.drain && !fresh then .draining else .active, drain := false, since := now, toUse := toUse
    cred := if fresh then (List.range 6).map (fun v => l.peer.shares.getD v 0) else l.cred }

theorem Link.activate_control {l m : Link} (h : l.control = m.control) (fresh : Bool) (toUse now : Nat) :
    (l.activate fresh toUse now).control = (m.activate fresh toUse now).control :=
  (congrArg (fun l : Link => (l.activate fresh toUse now).control) h :)

theorem State.activePort_steered (s : State) (p : Nat) (fresh : Bool) :
    ∃ toUse, SteeredTo s p ((s.link p).activate fresh toUse s.now) (s.activePort p fresh) := by
  unfold State.activePort
  extract_lets l c s1 s2 s3
  refine ⟨if c.testBit 2 then autoTo l.rtt (fld c 11 4) else max 1 (fld c 3 8), ?_⟩
  have h1 : SteeredTo s p ((s.link p).activate fresh (if c.testBit 2 then autoTo l.rtt (fld c 11 4) else max 1 (fld c 3 8)) s.now) s1 :=
    s.modLink_steeredTo p (fun l' => l'.activate fresh (if c.testBit 2 then autoTo l.rtt (fld c 11 4) else max 1 (fld c 3 8)) s.now)
  have h2 : Steered s1 s2 := .foldl (fun a t => by simp) _ _
  have h3 : Steered s2 s3 := by
    dsimp only [s3]
    split
    · simp
    · rfl
  exact ((h1.trans h2).trans h3).trans (by simp)

/-- With no injection armed a replay sends every flit. -/
theorem State.replayFrom_steered (p : Nat) (fl : List TxFlit) : ∀ s : State, s.flt.armed = none → Steered s (State.replayFrom p fl s) := by
  induction fl with
  | nil => exact fun s _ => .refl s
  | cons f fl ih =>
    intro s h
    unfold State.replayFrom State.replayEcc
    rw [takeEcc_unarmed h]
    dsimp only
    rw [if_neg (by simp)]
    have harm : (s.transmit p f.core f.fseq f.body).flt = s.flt :=
      ((State.transmit_same s p f.core f.fseq f.body (by simp)).mpr (.refl (mask [.out, .rg, .tows, .links, .phys]) s) .flt rfl).symm
    exact ((State.transmit_steered s p f.core f.fseq f.body).mpr (.refl s)).trans (ih _ (by rw [harm]; exact h))

theorem State.replayAll_steered (h : s.flt.armed = none) (p : Nat) : Steered s (s.replayAll p) := by
  unfold State.replayAll
  dsimp only
  generalize hu : s.modLink p _ = u
  have hsu : Steered s u := hu ▸ Steered.modLink s p fun l => rfl
  exact hsu.trans (State.replayFrom_steered p _ u (by rw [← hu]; exact h))

/-! ### LINK_PARAM sent -/

/-- Unsequenced flits to a list of teams: one each, with the body. -/
theorem State.foldl_sendUnseq_flits (p kind : Nat) (body : BitVec 2048) (ts : List Nat) : ∀ s : State, s.portCompat p = false →
    (∀ o ∈ s.out, o ∈ (ts.foldl (fun t k => t.sendUnseq p kind body k) s).out) ∧
      ∀ k ∈ ts, ∃ tag, .flit p k tag body ∈ (ts.foldl (fun t k => t.sendUnseq p kind body k) s).out := by
  induction ts with
  | nil => exact fun s _ => ⟨fun o ho => ho, fun k hk => absurd hk (List.not_mem_nil)⟩
  | cons k ts ih =>
    intro s hc
    obtain ⟨tag, hout⟩ := s.sendUnseq_flits p kind body k hc
    have hc' : (s.sendUnseq p kind body k).portCompat p = false :=
      (State.portCompat_of_same (m := [.out, .tows, .links, .phys]) (by simp) rfl p).trans hc
    obtain ⟨hkeep, hsent⟩ := ih _ hc'
    refine ⟨fun o ho => hkeep o (hout.keeps ho), fun j hj => ?_⟩
    rcases List.mem_cons.mp hj with rfl | hj
    · exact ⟨tag, hkeep _ (hout.mem (List.mem_singleton_self _))⟩
    · exact hsent j hj

theorem State.sendParam_steered (s : State) (p : Nat) : ∃ stamps,
    SteeredTo s p { s.link p with paramAt := s.now, stamps := stamps } (s.sendParam p) := by
  have h : Steered s ((s.link p).teams.foldl (fun t k => t.sendUnseq p 3 (ctlBody 0x01 (s.paramFields p)) k) s) :=
    .foldl (fun t k => by simp) _ _
  unfold State.sendParam
  generalize (s.link p).teams.foldl (fun t k => t.sendUnseq p 3 (ctlBody 0x01 (s.paramFields p)) k) s = u at h
  refine ⟨(if (s.link p).st = .active then [] else (s.link p).stamps) ++ [s.time], ?_⟩
  exact SteeredTo.modLink (f := fun l => { l with paramAt := s.now, stamps := (if l.st = .active then [] else l.stamps) ++ [s.time] }) h
    fun l m hlm => (congrArg (fun l : Link => (({ l with paramAt := s.now, stamps := (if l.st = .active then [] else l.stamps) ++ [s.time] } :
      Link)).control) hlm :)

theorem State.sendParam_flits (s : State) (p : Nat) (hc : s.portCompat p = false) :
    ∀ k ∈ (s.link p).teams, ∃ tag, .flit p k tag (ctlBody 0x01 (s.paramFields p)) ∈ (s.sendParam p).out :=
  (State.foldl_sendUnseq_flits p 3 (ctlBody 0x01 (s.paramFields p)) (s.link p).teams s hc).2

end

end Sys2Proof.Machine

namespace Sys2Proof.Machine

/-! ## The bring-up of a port -/

section
variable {s u t : State} {p b : Nat}

theorem Popped.portTeams (h : Popped s u p) (q : Nat) : u.portTeams q = s.portTeams q := by
  unfold State.portTeams State.teamPort State.rf
  simp only [h.reg]

theorem Popped.paramGood (h : Popped s u p) : u.paramGood p b = s.paramGood p b := by
  have hteams : (u.link p).teams = (s.link p).teams := (congrArg Link.teams h.link :)
  unfold State.paramGood State.portDir State.rf
  simp only [h.reg, h.portTeams, h.portCompat, hteams]

theorem Popped.paramWire (h : Popped s u p) : u.paramWire p b = s.paramWire p b := by
  have hid : u.ident = s.ident := (h.same .ident rfl).symm
  have htbl : u.tbl = s.tbl := (h.same .tbl rfl).symm
  have hres (e : Bool) (n : Nat) : u.resolve e n = s.resolve e n := by
    unfold State.resolve State.bank
    rw [h.reg, htbl]
  unfold State.paramWire State.here State.portDir State.rf
  simp only [h.reg, hid, htbl, hres]

theorem Popped.forcedMgt (h : Popped s u p) : u.forcedMgt p = s.forcedMgt p := by
  unfold State.forcedMgt
  rw [← h.same .far rfl]

/-- A port that LINK_PARAM makes ACTIVE has the peer's shares as credits. -/
theorem State.linkUp_steered (s : State) (p b came : Nat) : ∃ l, SteeredTo s p l (s.linkUp p b came) ∧ l.st = .active ∧
    l.cred = (List.range 6).map (fun v => (s.link p).peer.shares.getD v 0) ∧ l.mgtOnly = (s.link p).mgtOnly := by
  unfold State.linkUp
  extract_lets s1
  have h1 : s1.link p = { s.link p with rtt := came - fld b 256 64 - fld b 320 64, fseq := 0, e := 0, acked := 0 } :=
    State.link_modLink_same _ _ _
  have ho (q : Nat) (hq : q ≠ p) : s1.link q = s.link q := State.link_modLink_other _ _ hq
  clear_value s1
  obtain ⟨toUse, h2⟩ := s1.activePort_steered p true
  have h3 := (h2.trans (State.haltJoin_steered _ p)).trans (State.retryDropped_steered _ p)
  refine ⟨(s1.link p).activate true toUse s1.now, ⟨h3.1, fun q hq => (h3.2 q hq).trans (by rw [ho q hq])⟩, ?_, ?_, ?_⟩
  · simp [Link.activate]
  · simp [Link.activate, h1]
  · simp [Link.activate, h1]

/-- An acknowledgement takes flits off the replay buffer, and changes nothing else of the link. -/
theorem Link.ackTo_some {l m : Link} {a : Nat} (h : l.ackTo a = some m) : ∃ n, m = { l with replay := l.replay.drop n, acked := a } := by
  unfold Link.ackTo at h
  extract_lets base n at h
  split at h
  · exact ⟨n, (Option.some.inj h).symm⟩
  · exact absurd h (by simp)

theorem Link.ackTo_isSome_congr {l m : Link} (hr : l.replay = m.replay) (hf : l.fseq = m.fseq) (a : Nat) :
    (l.ackTo a).isSome = (m.ackTo a).isSome := by
  unfold Link.ackTo
  rw [hr, hf]
  dsimp only
  split
  · split
    · rfl
    · rfl
  · split
    · rfl
    · rfl

theorem SteeredTo.drain {l : Link} (h : SteeredTo s p l t) : (t.link p).drain = l.drain := (congrArg Link.drain h.1 :)

/-- LINK_PARAM of a peer that answers RETRAIN makes the port ACTIVE again. -/
theorem State.linkBack_active (harm : s.flt.armed = none) (hack : ((s.link p).ackTo (fld b 384 12)).isSome = true)
    (hdrain : (s.link p).drain = false) : ((s.linkBack p b).link p).st = .active := by
  obtain ⟨l, hl⟩ := Option.isSome_iff_exists.mp hack
  have hld : l.drain = false := by
    obtain ⟨n, rfl⟩ := Link.ackTo_some hl
    exact hdrain
  unfold State.linkBack
  rw [hl]
  dsimp -zeta only
  extract_lets s1 s2 s3 s4
  have h1 : SteeredTo s p { l with st := .active, ctlWait := [], since := s.now } (s1.modLink p fun l => { l with
      st := .active, ctlWait := [], since := s.now }) := by
    have h : SteeredTo s p l s1 := (s.modLink_steeredTo p (fun _ => l)).trans (by simp [s1])
    exact h.thenMod (f := fun l => { l with st := .active, ctlWait := [], since := s.now })
      fun l m hlm => (congrArg (fun l : Link => (({ l with st := .active, ctlWait := [], since := s.now } : Link)).control) hlm :)
  have h2 : SteeredTo s p { l with st := .active, ctlWait := [], since := s.now } s2 := h1.trans (State.replayAll_steered (s := s1.modLink p _) harm p)
  have h3 : SteeredTo s p { l with st := .active, ctlWait := [], since := s.now } s3 := h2.trans (Steered.modLink _ _ fun l => rfl)
  clear_value s3
  rw [if_neg (by simp [h3.st])]
  obtain ⟨toUse, h4⟩ := s3.activePort_steered p false
  have hst : (s4.link p).st = .active := by
    rw [h4.st]
    simp [Link.activate, h3.drain, hld]
  rw [if_pos hst]
  exact ((State.haltJoin_steered s4 p).trans (State.retryDropped_steered _ p)).st p |>.trans hst

/-! ### LINK_PARAM received -/

/-- Link `l` once a good LINK_PARAM `b` that came at `came` has been noted (R309). -/
def Link.toldOf (l : Link) (forced : Bool) (wire : Option Bool) (b came : Nat) : Link :=
  { l with
    mgtOnly := forced || (match wire with | some ok => !ok | none => l.mgtOnly)
    goodParams := l.goodParams + 1
    peer := { chip := fld b 64 18, chipValid := b.testBit 95, dir := fld b 96 3
              shares := (List.range 7).map (fun v => fld b (8 * shareByte v) 8)
              tTx := fld b 192 64, rxAt := came, valid := true } }

/-- The credits by channel, each from its own byte of LINK_PARAM. -/
theorem shares_credits (b : Nat) : (List.range 6).map (fun v => ((List.range 7).map (fun v => fld b (8 * shareByte v) 8)).getD v 0) =
    (List.range 6).map (fun v => fld b (8 * (if v = 5 then 16 else 17 + v)) 8) := rfl

/-- What the port is once a good LINK_PARAM has been noted, for each state it may be in. -/
structure ParamTaken (s t : State) (p b : Nat) : Prop where
  first : (s.link p).st = .training → (s.link p).goodParams = 0 → (t.link p).st = .training ∧ (t.link p).goodParams = 1 ∧
    (t.link p).peer.chip = fld b 64 18 ∧ (t.link p).peer.valid = true
  up : (s.link p).st = .training → 0 < (s.link p).goodParams → (s.link p).stamps.contains (fld b 256 64) = true →
    (t.link p).st = .active ∧ (t.link p).cred = (List.range 6).map (fun v => fld b (8 * (if v = 5 then 16 else 17 + v)) 8)
  stays : (s.link p).st = .active → (t.link p).st = .active ∧ (t.link p).cred = (s.link p).cred
  back : (s.link p).st = .retrain → (s.link p).tagLock = true → ((s.link p).ackTo (fld b 384 12)).isSome = true → (s.link p).drain = false →
    (t.link p).st = .active
  mgt : ∀ ok, (s.link p).st = .training ∨ (s.link p).st = .active → s.paramWire p b = some ok →
    (t.link p).mgtOnly = (s.forcedMgt p || !ok)

theorem ParamTaken.of_link {v : State} (h : ParamTaken s t p b) (hv : v.link p = t.link p) : ParamTaken s v p b := by
  obtain ⟨h1, h2, h3, h4, h5⟩ := h
  exact ⟨by rwa [hv], by rwa [hv], by rwa [hv], by rwa [hv], by rwa [hv]⟩

theorem ParamTaken.popped (h : ParamTaken u t p b) (hu : Popped s u p) : ParamTaken s t p b := by
  obtain ⟨h1, h2, h3, h4, h5⟩ := h
  have hl := hu.link
  have hst : (u.link p).st = (s.link p).st := hu.st
  have hg : (u.link p).goodParams = (s.link p).goodParams := (congrArg Link.goodParams hl :)
  have hstamps : (u.link p).stamps = (s.link p).stamps := (congrArg Link.stamps hl :)
  have hcred : (u.link p).cred = (s.link p).cred := (congrArg Link.cred hl :)
  have hlock : (u.link p).tagLock = (s.link p).tagLock := (congrArg Link.tagLock hl :)
  have hdrain : (u.link p).drain = (s.link p).drain := (congrArg Link.drain hl :)
  have hack : ((u.link p).ackTo (fld b 384 12)).isSome = ((s.link p).ackTo (fld b 384 12)).isSome :=
    Link.ackTo_isSome_congr (m := s.link p) (congrArg Link.replay hl :) (congrArg Link.fseq hl :) _
  rw [hst] at h1 h2 h3 h4 h5
  rw [hg] at h1 h2
  rw [hstamps] at h2
  rw [hcred] at h3
  rw [hlock, hack, hdrain] at h4
  rw [hu.forcedMgt, hu.paramWire] at h5
  exact ⟨h1, h2, h3, h4, h5⟩

theorem State.paramTaken (s v : State) (p b came : Nat) (harm : v.flt.armed = none)
    (hlink : v.link p = (s.link p).toldOf (s.forcedMgt p) (s.paramWire p b) b came) :
    ParamTaken s (if (s.link p).st = .training ∧ 2 ≤ (v.link p).goodParams ∧ (v.link p).stamps.contains (fld b 256 64) then v.linkUp p b came
      else if (s.link p).st = .retrain ∧ (v.link p).tagLock then v.linkBack p b else v) p b := by
  have hst : (v.link p).st = (s.link p).st := (congrArg Link.st hlink :)
  have hgood : (v.link p).goodParams = (s.link p).goodParams + 1 := congrArg Link.goodParams hlink
  have hstamps : (v.link p).stamps = (s.link p).stamps := (congrArg Link.stamps hlink :)
  have hlock : (v.link p).tagLock = (s.link p).tagLock := (congrArg Link.tagLock hlink :)
  have hpeer : (v.link p).peer = ((s.link p).toldOf (s.forcedMgt p) (s.paramWire p b) b came).peer := congrArg Link.peer hlink
  have hmgt (ok : Bool) (h : s.paramWire p b = some ok) : (v.link p).mgtOnly = (s.forcedMgt p || !ok) := by
    rw [hlink, h]
    rfl
  by_cases hup : (s.link p).st = .training ∧ 2 ≤ (v.link p).goodParams ∧ (v.link p).stamps.contains (fld b 256 64) = true
  · rw [if_pos hup]
    obtain ⟨htr, hg, -⟩ := hup
    obtain ⟨l, hl, hlst, hcred, hlm⟩ := v.linkUp_steered p b came
    refine ⟨fun _ h => by omega, fun _ _ _ => ⟨hl.st.trans hlst, hl.cred.trans (hcred.trans ?_)⟩, fun h => by simp [htr] at h,
      fun h => by simp [htr] at h, fun ok _ h => hl.mgtOnly.trans (hlm.trans (hmgt ok h))⟩
    rw [hpeer]
    exact shares_credits b
  · rw [if_neg hup]
    have hnot : (s.link p).st = .training → 0 < (s.link p).goodParams → (s.link p).stamps.contains (fld b 256 64) = true → False :=
      fun h1 h2 h3 => hup ⟨h1, by omega, by rw [hstamps]; exact h3⟩
    by_cases hback : (s.link p).st = .retrain ∧ (v.link p).tagLock = true
    · rw [if_pos hback]
      refine ⟨fun h => by simp [hback.1] at h, fun h => by simp [hback.1] at h, fun h => by simp [hback.1] at h, fun _ _ hack hd => ?_,
        fun ok h => by simp [hback.1] at h⟩
      refine State.linkBack_active harm ?_ (by rw [hlink]; exact hd)
      rw [hlink]
      exact (Link.ackTo_isSome_congr (l := (s.link p).toldOf (s.forcedMgt p) (s.paramWire p b) b came) (m := s.link p) rfl rfl _).trans hack
    · rw [if_neg hback]
      refine ⟨fun h1 h2 => ⟨hst.trans h1, by omega, ?_, ?_⟩, fun h1 h2 h3 => (hnot h1 h2 h3).elim,
        fun h => ⟨hst.trans h, (congrArg Link.cred hlink :)⟩, fun h1 h2 => absurd ⟨h1, hlock.trans h2⟩ hback, fun ok _ h => hmgt ok h⟩
      · rw [hpeer]
        rfl
      · rw [hpeer]
        rfl

/-- A LINK_PARAM that comes. -/
theorem linkParam_acts (h : CtlComes s p 1 b) (harm : s.flt.armed = none) {P : State → Prop}
    (hbad : ∀ t, (s.link p).st = .training ∨ (s.link p).st = .active ∨ (s.link p).st = .retrain → s.paramGood p b = false →
      (t.link p).st = .fenced → (t.link p).cause = 6 → P t)
    (hgood : ∀ t, (s.link p).st = .training ∨ (s.link p).st = .active ∨ (s.link p).st = .retrain → s.paramGood p b = true →
      ParamTaken s t p b → P t)
    (hother : ∀ t, ¬((s.link p).st = .training ∨ (s.link p).st = .active ∨ (s.link p).st = .retrain) → P t) :
    Meets (execLinkParam p s) P := by
  unfold execLinkParam
  extract_lets came
  refine .popped h fun u hu => ?_
  have hst := hu.st
  rw [← hst] at hbad hgood hother
  dsimp only
  by_cases hno : (u.link p).st ≠ .training ∧ (u.link p).st ≠ .active ∧ (u.link p).st ≠ .retrain
  · rw [if_pos hno]
    exact hother _ (by tauto)
  · have hin : (u.link p).st = .training ∨ (u.link p).st = .active ∨ (u.link p).st = .retrain := by tauto
    rw [if_neg hno]
    by_cases hg : u.paramGood p b = true
    · rw [if_neg (not_not.mpr hg)]
      rw [hu.paramGood] at hg
      refine hgood _ hin hg ?_
      have harm' : u.flt.armed = none := by rw [← hu.same .flt rfl]; exact harm
      have hX (X : State) (hX : ParamTaken u X p b) : ParamTaken s (X.ended s.pending) p b := (hX.popped hu).of_link rfl
      have hraise (w : Prop) [Decidable w] : (if w then u.raise 0x37 p 1 10 (0x50 + p) else u).flt.armed = none ∧
          (if w then u.raise 0x37 p 1 10 (0x50 + p) else u).link p = u.link p := by
        split
        · exact ⟨(State.raise_armed ..).trans harm', State.link_of_same (l := [.flt]) (by simp) rfl p⟩
        · exact ⟨harm', rfl⟩
      refine hX _ (State.paramTaken u _ p b came (hraise _).1 ?_)
      rw [State.link_modLink_same, (hraise _).2]
      rfl
    · rw [if_pos hg]
      rw [hu.paramGood] at hg
      obtain ⟨h1, h2⟩ := State.linkFault_fences (s := u) (p := p) (by rintro h; simp [h] at hin) (by rintro h; simp [h] at hin) 0x35 6 false
      exact hbad _ hin (by simpa using hg) h1 h2

end

end Sys2Proof.Machine

namespace Sys2Proof.Machine

/-! ## Bring-up, settled -/

section
variable {s t : State} {p b : Nat}

/-- The teams given tag lock have it. -/
theorem State.foldl_tagLock {ts : List Nat} {k : Nat} (hk : k ∈ ts) (s : State) :
    ((ts.foldl (fun a t => a.modTeam t (fun x => { x with tagLock := true })) s).team k).tagLock = true := by
  refine foldl_reaches (Q := fun t : State => (t.team k).tagLock = true) hk (fun t => ?_) (fun t j h => ?_) s
  · rw [State.team_modTeam_same]
  · by_cases hj : k = j
    · rw [hj, State.team_modTeam_same]
    · rw [State.team_modTeam_other _ _ hj]
      exact h

theorem tagLock_acts (ha : s.alive = true) (hp : p < 12) (hst : (s.link p).st = .training ∨ (s.link p).st = .retrain)
    (hlock : (s.link p).tagLock = false) (hup : (s.portTeams p).filter (fun k => (s.team k).trained) ≠ [])
    (hdec : (s.portTeams p).all (fun k => (s.team k).decided) = true) :
    let up := (s.portTeams p).filter (fun k => (s.team k).trained)
    Meets (execTagLock p s) (fun t => (t.link p).st = (s.link p).st ∧ (t.link p).tagLock = true ∧ (t.link p).teams = up ∧
      (t.link p).paramAt = s.now ∧ ∀ k ∈ up, (t.team k).tagLock = true) := by
  intro up
  have hbring : ((decide ((s.link p).st = .training) || decide ((s.link p).st = .retrain)) && !(s.link p).tagLock && decide (up ≠ []) &&
      (s.portTeams p).all (fun t => (s.team t).decided)) = true := by
    simp only [hlock, hdec, Bool.not_false, Bool.and_true, Bool.and_eq_true, Bool.or_eq_true, decide_eq_true_eq]
    exact ⟨hst, hup⟩
  unfold execTagLock
  refine .run ha (by simp only [hp, decide_true, Bool.true_and, Bool.or_eq_true]; exact .inl hbring) ?_
  rw [if_pos hbring]
  extract_lets s1
  have h1 : s1.link p = { s.link p with tagLock := true, teams := up, rot := 0, goodParams := 0 } := State.link_modLink_same _ _ _
  have hnow : s1.now = s.now := rfl
  clear_value s1
  have hteams (k : Nat) (hk : k ∈ up) := State.foldl_tagLock hk s1
  have h2 : Steered s1 (up.foldl (fun a t => a.modTeam t (fun x => { x with tagLock := true })) s1) := .foldl (fun a t => by simp) _ _
  have hnow2 : (up.foldl (fun a t => a.modTeam t (fun x => { x with tagLock := true })) s1).now = s1.now :=
    ((show Same (mask [.teams]) s1 (up.foldl (fun a t => a.modTeam t (fun x => { x with tagLock := true })) s1) from
      .foldl (fun a t => by simp) _ _) .now rfl).symm
  generalize up.foldl (fun a t => a.modTeam t (fun x => { x with tagLock := true })) s1 = v at hteams h2 hnow2
  obtain ⟨stamps, h3⟩ := v.sendParam_steered p
  have hv : Same (mask [.out, .tows, .links, .phys]) v (v.sendParam p) := by simp
  have hended (w : State) (q : List Instr) (h : (w.link p).st = (s.link p).st ∧ (w.link p).tagLock = true ∧ (w.link p).teams = up ∧
      (w.link p).paramAt = s.now ∧ ∀ k ∈ up, (w.team k).tagLock = true) : ((w.ended q).link p).st = (s.link p).st ∧
      ((w.ended q).link p).tagLock = true ∧ ((w.ended q).link p).teams = up ∧ ((w.ended q).link p).paramAt = s.now ∧
      ∀ k ∈ up, ((w.ended q).team k).tagLock = true := h
  refine hended _ _ ⟨h3.st.trans ((h2.st p).trans (congrArg Link.st h1 :)), h3.tagLock.trans ?_, h3.teams.trans ((h2.teams p).trans
    (congrArg Link.teams h1)), h3.paramAt.trans (hnow2.trans hnow), fun k hk => ?_⟩
  · exact (congrArg Link.tagLock (h2 p) :).trans (congrArg Link.tagLock h1)
  · rw [State.team_of_same hv rfl]
    exact hteams k hk

theorem linkParamSend_acts (ha : s.alive = true) (hp : p < 12) (hst : (s.link p).st = .training ∨ (s.link p).st = .retrain)
    (hlock : (s.link p).tagLock = true) (hdue : (s.link p).paramAt + nsTicks 1000 ≤ s.now) :
    Meets (execLinkParamSend p s) (fun t => (t.link p).paramAt = s.now ∧ (s.portCompat p = false → ∀ k ∈ (s.link p).teams,
      ∃ tag, .flit p k tag (ctlBody 0x01 (s.paramFields p)) ∈ t.out)) := by
  refine .run ha (by simp [hp, hst, hlock, hdue]) ?_
  obtain ⟨stamps, h⟩ := s.cleared.sendParam_steered p
  exact ⟨h.paramAt, fun hc => s.cleared.sendParam_flits p hc⟩

/-- A port that its time fences. -/
theorem Meets.fences (ha : s.alive = true) {ok : Bool} (hok : ok = true) (code cause : Nat) (hoff : (s.link p).st ≠ .off)
    (hf : (s.link p).st ≠ .fenced) :
    Meets (Machine.run s ok (fun s => s.linkFault p code cause)) (fun t => (t.link p).st = .fenced ∧ (t.link p).cause = cause) :=
  .run ha hok (State.linkFault_fences (s := s.cleared) hoff hf code cause false)

theorem retrain_acts (h : CtlComes s p 3 b) : Meets (execRetrain p s) (fun t =>
    (t.link p).st = if (s.link p).st = .active then .retrain else (s.link p).st) := by
  refine .popped h fun u hu => ?_
  rw [← hu.st]
  have hended (v : State) (q : List Instr) (x : LinkSt) (h : (v.link p).st = x) : ((v.ended q).link p).st = x := h
  refine hended _ _ _ ?_
  by_cases hst : (u.link p).st = .active
  · rw [if_pos hst]
    exact (State.retrainPort_steered (.inl hst) _ _).st
  · rw [if_neg hst]
    unfold State.retrainPort
    rw [if_pos ⟨hst, by simp⟩]

end

/-- Settles O30, event by event. -/
theorem linkBringUp : Obligations.LinkBringUp := by
  simp only [Obligations.LinkBringUp, answers_iff]
  refine ⟨fun s p ha hp => ⟨fun hst hlock hup hdec => tagLock_acts ha hp hst hlock hup hdec,
    fun hst hlock hdue => linkParamSend_acts ha hp hst hlock hdue, fun hst hdue => ?_, fun hst hdue => ?_, fun hst hdue => ?_⟩,
    fun s p b h harm => ?_, fun s p b h => retrain_acts h⟩
  · exact Meets.fences ha (by simp [hp, hst, hdue]) 0x34 3 (by simp [hst]) (by simp [hst])
  · exact Meets.fences ha (by simp [hp, hst, hdue]) 0x34 3 (by simp [hst]) (by simp [hst])
  · exact Meets.fences ha (by simp [hp, hst, hdue]) 0x34 3 (by simp [hst]) (by simp [hst])
  · refine linkParam_acts h harm (fun t _ hg h1 h2 => ?_) (fun t hin hg hT => ?_) (fun t hno => ?_)
    · exact ⟨fun _ _ => ⟨h1, h2⟩, fun h => by simp [hg] at h, fun h => by simp [hg] at h, fun h => by simp [hg] at h,
        fun h => by simp [hg] at h, fun _ h => by simp [hg] at h⟩
    · exact ⟨fun _ h => by simp [hg] at h, fun _ => hT.first, fun _ => hT.up, fun _ => hT.stays, fun _ => hT.back, fun ok _ => hT.mgt ok⟩
    · exact ⟨fun h => absurd h hno, fun _ h => absurd (.inl h) hno, fun _ h => absurd (.inl h) hno, fun _ h => absurd (.inr (.inl h)) hno,
        fun _ h => absurd (.inr (.inr h)) hno, fun _ _ h => absurd (h.imp_right .inl) hno⟩

end Sys2Proof.Machine

namespace Sys2Proof.Machine

/-! ## Compatibility ports, and what discarding leaves of a basin -/

/-- In `t` the same ports as in `s` are compatibility ports. -/
def CompatKept (s t : State) : Prop := ∀ q, t.portCompat q = s.portCompat q

section
variable {s t u : State} {p : Nat}

theorem CompatKept.refl (s : State) : CompatKept s s := fun _ => rfl
theorem CompatKept.trans (h : CompatKept s t) (h' : CompatKept t u) : CompatKept s u := fun q => (h' q).trans (h q)

theorem CompatKept.of_same {l : List Fld} (h : Same (mask l) s t) (hl : Fld.rg.bit &&& mask l = 0) : CompatKept s t :=
  State.portCompat_of_same h hl

theorem CompatKept.foldl {α : Type} {f : State → α → State} (hf : ∀ t x, CompatKept t (f t x)) (l : List α) (s : State) :
    CompatKept s (l.foldl f s) := foldl_keeps CompatKept.refl CompatKept.trans f hf l s

/-- A write below the port map keeps it. -/
theorem CompatKept.setReg (s : State) {o : Nat} (w : Word) (ho : o < 0xC040) : CompatKept s (s.setReg o w) :=
  fun _ => State.portCompat_of_reg (State.reg_setReg_other _ _ (by omega))

theorem testBit_four_of_taken (x : Word) : (x &&& ~~~1 ||| 4).toNat.testBit 4 = x.toNat.testBit 4 := by
  rw [BitVec.testBit_toNat, BitVec.testBit_toNat, BitVec.getLsbD_or, BitVec.getLsbD_and, BitVec.getLsbD_not]
  rw [show (4 : Word).getLsbD 4 = false by decide, show (1 : Word).getLsbD 4 = false by decide]
  simp

/-- An injection of a link that is taken leaves the port map. -/
theorem State.takeLnkInj_compat (s : State) (p : Nat) : CompatKept s (s.takeLnkInj p).2 := by
  intro q
  unfold State.takeLnkInj
  dsimp only
  split
  · unfold State.portCompat State.orReg State.clrReg
    dsimp only
    by_cases h : 0xC040 + 4 * q = 0x824 + 0x40 * p
    · rw [h, State.reg_setReg_same, State.reg_setReg_same]
      exact testBit_four_of_taken _
    · rw [State.reg_setReg_other _ _ h, State.reg_setReg_other _ _ h]
  · rfl

theorem State.driveFlit_compat (s : State) (p team tag : Nat) (body : BitVec 2048) (bad fec : Bool) :
    CompatKept s (s.driveFlit p team tag body bad fec) := .of_same (l := [.out, .tows, .links, .phys]) (by simp) rfl

theorem State.transmit_compat (s : State) (p core fseq : Nat) (body : BitVec 2048) : CompatKept s (s.transmit p core fseq body) := by
  have h : CompatKept (s.takeLnkInj p).2 ((s.takeLnkInj p).2.nextTeam p).2 := .of_same (l := [.links]) (by simp) rfl
  have h' : CompatKept ((s.takeLnkInj p).2.nextTeam p).2 (((s.takeLnkInj p).2.nextTeam p).2.tagBack p).2 :=
    .of_same (l := [.links, .tows]) (by simp) rfl
  exact ((s.takeLnkInj_compat p).trans h).trans (h'.trans (State.driveFlit_compat _ _ _ _ _ _ _))

theorem State.sendSeq_compat (s : State) (p core : Nat) (body : BitVec 2048) : CompatKept s (s.sendSeq p core body) := by
  unfold State.sendSeq
  extract_lets l wait s1 acc more s2 s3
  have h2 : CompatKept s s2 := by
    dsimp only [s2]
    split
    · exact fun _ => rfl
    · exact fun _ => rfl
  have h1 : CompatKept s s3 := by
    dsimp only [s3]
    split
    · exact h2.trans fun _ => rfl
    · exact h2
  split
  · exact h1
  · exact h1.trans (State.transmit_compat _ _ _ _ _)

theorem State.flushCtl_compat (s : State) (p : Nat) : CompatKept s (s.flushCtl p) := by
  unfold State.flushCtl
  extract_lets l now go
  split
  · exact .refl s
  · refine CompatKept.trans (t := s.modLink p fun l => { l with ctlWait := l.ctlWait.drop go.length }) (fun _ => rfl) ?_
    exact .foldl (fun a e => a.sendSeq_compat _ _ _) _ _

theorem State.flushCtl_berthed (s : State) (p : Nat) : Berthed s (s.flushCtl p) := by
  unfold State.flushCtl
  extract_lets l now go
  split
  · exact .refl s
  · refine Berthed.trans (t := s.modLink p fun l => { l with ctlWait := l.ctlWait.drop go.length }) (Berthed.modLink s p fun _ => rfl) ?_
    exact .foldl (fun a e => a.sendSeq_berthed _ _ _) _ _

theorem State.abandonRest_compat (s : State) (h : Held) : CompatKept s (s.abandonRest h) := by
  have hsend (n q v : Nat) (tow : Option Nat) : CompatKept s
      ((List.range n).foldl (fun t i => t.sendData q v tow false (decide (i + 1 = n)) true 0) s) :=
    CompatKept.foldl (fun t _ => t.sendSeq_compat _ _ _) _ s
  unfold State.abandonRest
  split
  · exact .refl s
  · next q v tow _ =>
    split
    · exact .refl s
    · extract_lets n t
      have ht : CompatKept s t := by
        dsimp only [t]
        split
        · exact hsend n q v tow
        · exact hsend n q v tow
        · exact hsend n q v tow
        · exact .refl s
      split
      · exact ht
      · refine ht.trans ?_
        unfold State.abandon
        split
        · exact CompatKept.setReg _ _ (by omega)
        · exact .refl _

theorem State.discard1_compat (s : State) (h : Held) : CompatKept s (s.discard1 h) :=
  (CompatKept.of_same (l := [.counts]) (by simp) rfl : CompatKept s (s.countDrop h.pkt)).trans (State.abandonRest_compat _ h)

theorem State.discardHeld_compat (s : State) (which : Held → Bool) : CompatKept s (s.discardHeld which) := by
  unfold State.discardHeld
  extract_lets s1 s2 out
  have h1 : CompatKept s s1 := by
    refine .foldl (fun t p => ?_) _ _
    refine CompatKept.trans (t := t.modLink p fun l => { l with basin := l.basin.filter (fun h => !(which h)) }) (fun _ => rfl) ?_
    refine .foldl (fun u h => ?_) _ _
    split
    · refine CompatKept.trans (t := u.modLink p fun l => { l with
        freed := if h.share < 6 then setAt l.freed h.share ((l.freed.getD h.share 0 + 1) % 256) else l.freed }) (fun _ => rfl) ?_
      exact State.discard1_compat _ _
    · exact .refl u
  have h2 : CompatKept s1 s2 := by
    refine .foldl (fun t x => ?_) _ _
    obtain ⟨e, x⟩ := x
    dsimp only
    generalize hu : State.towDrained _ e = u
    have htu : CompatKept t u := .of_same (l := [.tows]) (by rw [← hu]; simp) rfl
    exact htu.trans (.foldl (fun u h => u.discard1_compat h) _ _)
  exact (h1.trans h2).trans ((CompatKept.of_same (l := [.eject, .inj]) (by simp) rfl :
    CompatKept s2 { s2 with eject := s2.eject.filter (fun h => !(which h)), inj := s2.inj.filter (fun h => !(which h)) }).trans
    (.foldl (fun t h => t.discard1_compat h) out _))

/-- A basin with nothing to discard stays as it is. -/
theorem State.discardHeld_keeps_basin (s : State) {which : Held → Bool} (h : ∀ x ∈ (s.link p).basin, which x = false) :
    ((s.discardHeld which).link p).basin = (s.link p).basin := by
  have hfilter : (s.link p).basin.filter (fun x => !(which x)) = (s.link p).basin := List.filter_eq_self.mpr fun x hx => by simp [h x hx]
  unfold State.discardHeld
  extract_lets s1 s2 out
  have h1 : (s1.link p).basin = (s.link p).basin := by
    refine List.foldlRecOn (motive := fun t : State => (t.link p).basin = (s.link p).basin) _ _ rfl fun t ht q _ => ?_
    rw [State.discardPort_basin, ht]
    split
    · exact hfilter
    · rfl
  have h2 : Berthed s1 s2 := by
    refine Berthed.foldl (fun t x => ?_) _ _
    obtain ⟨e, x⟩ := x
    dsimp only
    generalize hu : State.towDrained _ e = u
    have htu : Berthed t u := .of_same (l := [.tows]) (by rw [← hu]; simp) rfl
    exact htu.trans (Berthed.foldl (fun u h => u.discard1_berthed h) _ _)
  have h3 : Berthed s2 { s2 with eject := s2.eject.filter (fun h => !(which h)), inj := s2.inj.filter (fun h => !(which h)) } :=
    .of_same (l := [.eject, .inj]) (by simp) rfl
  exact (((h2.trans h3).trans (Berthed.foldl (fun t h => t.discard1_berthed h) out _)) p).trans h1

end

end Sys2Proof.Machine

namespace Sys2Proof.Machine

/-! ## What a tag does to its port -/

section
variable {s t u : State} {p team tag : Nat} {l : Link}

/-- Port `p` of `t` is that of `s` with link `l`, once what it held to send has gone out. -/
structure Acked (s t : State) (p : Nat) (l : Link) : Prop where
  link : SteeredTo s p l t
  basin : (t.link p).basin = l.basin
  compat : CompatKept s t
  tod : t.tod = s.tod
  replay : l.ctlWait = [] → (t.link p).replay = l.replay

theorem Acked.st (h : Acked s t p l) : (t.link p).st = l.st := h.link.st
theorem Acked.e (h : Acked s t p l) : (t.link p).e = l.e := (congrArg Link.e h.link.1 :)
theorem Acked.ctl (h : Acked s t p l) : (t.link p).ctl = l.ctl := (congrArg Link.ctl h.link.1 :)
theorem Acked.mgtOnly (h : Acked s t p l) : (t.link p).mgtOnly = l.mgtOnly := h.link.mgtOnly
theorem Acked.seen (h : Acked s t p l) : (t.link p).seen = l.seen := (congrArg Link.seen h.link.1 :)
theorem Acked.fenceRun (h : Acked s t p l) : (t.link p).fenceRun = l.fenceRun := (congrArg Link.fenceRun h.link.1 :)
theorem Acked.peer (h : Acked s t p l) : (t.link p).peer = l.peer := h.link.peer
theorem Acked.cred (h : Acked s t p l) : (t.link p).cred = l.cred := h.link.cred

theorem State.drainDone_unchanged (h : (s.link p).st ≠ .draining) : s.drainDone p = s := if_neg fun hd => h hd.1

/-- An ACTIVE port sends the control flits it held; with none held its replay buffer stays. -/
theorem State.flushCtl_acked (hst : (s.link p).st = .active) : Acked s (s.flushCtl p) p (s.link p) := by
  have hsame : Same (mask [.out, .rg, .tows, .links, .phys, .mons, .cmap]) s (s.flushCtl p) := by simp
  refine ⟨⟨((State.flushCtl_steered s p).mpr (.refl s)) p, fun q _ => ((State.flushCtl_steered s p).mpr (.refl s)) q⟩,
    s.flushCtl_berthed p p, s.flushCtl_compat p, (hsame .tod rfl).symm, fun hw => ?_⟩
  unfold State.flushCtl
  extract_lets l now go
  have hnow : now = [] := by
    dsimp only [now, l]
    rw [hw, List.take_nil]
  have hgo : go = [] := by
    dsimp only [go]
    rw [hnow]
    split <;> rfl
  rw [if_neg (by simp [l, hst]), hgo, List.foldl_nil, State.link_modLink_same]

theorem Acked.trans {m : Link} (h : Acked s t p l) (h' : Acked t u p (t.link p)) (hm : t.link p = m) : Acked s u p m := by
  subst hm
  exact ⟨⟨h'.link.1, fun q hq => (h'.link.2 q hq).trans (h.link.2 q hq)⟩, h'.basin, h.compat.trans h'.compat, h'.tod.trans h.tod, h'.replay⟩

/-- An acknowledgement without a request for a replay. -/
theorem State.takeAck_acked {a : Nat} (hst : (s.link p).st = .active) (hack : (s.link p).ackTo a = some l) :
    Acked s (s.takeAck p a false) p l := by
  have hlst : l.st = .active := by
    obtain ⟨n, rfl⟩ := Link.ackTo_some hack
    exact hst
  unfold State.takeAck
  extract_lets l0
  rw [show l0.ackTo a = some l from hack]
  dsimp -zeta only
  extract_lets s1 s2 again
  rw [if_neg (by simp)]
  have h1 : s1.link p = l := State.link_modLink_same _ _ _
  have h2 : Acked s s2 p l := by
    have hlink : s2.link p = l := by
      dsimp only [s2]
      split
      · exact h1
      · exact h1
    have hother (q : Nat) (hq : q ≠ p) : s2.link q = s.link q := by
      have hs1 : s1.link q = s.link q := State.link_modLink_other _ _ hq
      dsimp only [s2]
      split
      · exact hs1
      · exact hs1
    refine ⟨⟨by rw [hlink], fun q hq => by rw [hother q hq]⟩, by rw [hlink], ?_, ?_, fun _ => by rw [hlink]⟩
    · dsimp only [s2]
      split
      · exact fun _ => rfl
      · exact fun _ => rfl
    · dsimp only [s2]
      split
      · rfl
      · rfl
  have hlink : s2.link p = l := by
    dsimp only [s2]
    split
    · exact h1
    · exact h1
  clear_value s2
  have h3 := s2.flushCtl_acked (p := p) (by rw [hlink]; exact hlst)
  rw [State.drainDone_unchanged (by rw [h3.st, hlink, hlst]; simp)]
  exact h2.trans h3 hlink

/-- A tag without FENCE leaves a port that has had none. -/
theorem State.takeFence_none (hrun : (s.link p).fenceRun = []) : s.takeFence p team false = s := by
  unfold State.takeFence
  extract_lets l old run s1
  have hrun' : run = [] := by simp [run, l, hrun]
  have h1 : s1 = s := if_pos ⟨hrun, by simp⟩
  rw [hrun', h1, if_neg fun h => ?_]
  obtain ⟨hne, hall⟩ := h
  obtain ⟨x, hx⟩ := List.exists_mem_of_ne_nil _ hne
  have := List.all_eq_true.mp hall x hx
  simp at this

/-- A tag that acknowledges, reports on no towpath and asks for nothing: what is left is its credit report. -/
theorem State.takeTag_acked (hfence : s.takeFence p team (tag.testBit 41) = u) (hst : (u.link p).st = .active)
    (h53 : tag.testBit 53 = false) (h40 : tag.testBit 40 = false) (hack : (u.link p).ackTo (fld tag 28 12) = some l) :
    ∃ v, Acked u v p l ∧ (v.link p).st = .active ∧
      s.takeTag p team tag = if fld tag 42 3 < 6 then v.takeCredit p (fld tag 42 3) (fld tag 45 8) else v := by
  have hv := State.takeAck_acked hst hack
  have hvst : ((u.takeAck p (fld tag 28 12) false).link p).st = .active := by
    obtain ⟨n, rfl⟩ := Link.ackTo_some hack
    exact hv.st.trans hst
  refine ⟨u.takeAck p (fld tag 28 12) false, hv, hvst, ?_⟩
  unfold State.takeTag
  dsimp only
  rw [hfence, if_neg (by simp [hst]), h40, if_neg (by simp [hvst]), if_neg (by simp [h53])]

end

end Sys2Proof.Machine

namespace Sys2Proof.Machine

/-! ## Flits received in sequence -/

/-- Port `p` of `t` expects the flit it expects in `s`, and asks for a replay as there. -/
def SeqKept (p : Nat) (s t : State) : Prop := (t.link p).e = (s.link p).e ∧ (t.link p).nak = (s.link p).nak

section
variable {s t u : State} {p tag : Nat} {body : BitVec 2048}

theorem SeqKept.refl (s : State) : SeqKept p s s := ⟨rfl, rfl⟩
theorem SeqKept.trans (h : SeqKept p s t) (h' : SeqKept p t u) : SeqKept p s u := ⟨h'.1.trans h.1, h'.2.trans h.2⟩
theorem SeqKept.of_steered (h : Steered s t) : SeqKept p s t := ⟨(congrArg Link.e (h p) :), (congrArg Link.nak (h p) :)⟩

theorem SeqKept.of_same {l : List Fld} (h : Same (mask l) s t) (hl : Fld.links.bit &&& mask l = 0) : SeqKept p s t :=
  .of_steered (.of_same h hl)

theorem SeqKept.modLink (s : State) (p : Nat) {f : Link → Link} (hf : ∀ l : Link, (f l).e = l.e ∧ (f l).nak = l.nak) :
    SeqKept p s (s.modLink p f) := by
  unfold SeqKept
  rw [State.link_modLink_same]
  exact hf _

theorem State.refuseHead_seq (s : State) (h : Held) : SeqKept p s (s.refuseHead p h) := by
  unfold State.refuseHead State.freeBerth
  have h1 : SeqKept p s (s.countDrop h.pkt) := .of_same (l := [.counts]) (by simp) rfl
  split
  · exact h1.trans (.modLink _ p fun _ => ⟨rfl, rfl⟩)
  · exact h1

theorem State.holdHead_seq (s : State) (vc : Nat) (h : Held) : SeqKept p s (s.holdHead p vc h) := by
  unfold State.holdHead
  split
  · exact (SeqKept.of_same (l := [.rg]) (by simp) rfl : SeqKept p s (s.incReg 0x310)).trans (State.refuseHead_seq _ h)
  · split
    · exact s.refuseHead_seq h
    · split
      · exact ⟨rfl, rfl⟩
      · exact .modLink _ p fun _ => ⟨rfl, rfl⟩

theorem State.dataIn_seq (s : State) (tag : Nat) (body : BitVec 2048) : SeqKept p s (s.dataIn p tag body) := by
  unfold State.dataIn
  split
  · unfold State.firstIn
    extract_lets vc tow s1 h
    have h1 : SeqKept p s s1 := .of_steered ((State.discardHeld_steered s _).mpr (.refl s))
    exact h1.trans (State.holdHead_seq _ _ _)
  · extract_lets mine put s1
    have h1 : SeqKept p s s1 := by
      dsimp only [s1]
      split
      · exact .modLink _ p fun _ => ⟨rfl, rfl⟩
      · exact .refl s
    refine h1.trans (foldl_keeps SeqKept.refl SeqKept.trans _ (fun t e => ?_) _ _)
    split
    · exact ⟨rfl, rfl⟩
    · exact .refl t

theorem State.ctlIn_seq (s : State) (kind : Nat) (body : BitVec 2048) : SeqKept p s (s.ctlIn p kind body) := by
  unfold State.ctlIn
  dsimp only
  split
  · exact .modLink _ p fun _ => ⟨rfl, rfl⟩
  · exact .of_same (l := [.flt]) (by simp) rfl

/-- A control flit of its kind joins those that came before it. -/
theorem State.ctlIn_joins {kind : Nat} (hk : ctlKind (body.toNat % 256) = some kind) (hc : body.toNat % 256 = 1 ∨ s.portCompat p = false) :
    ((s.ctlIn p kind body).link p).ctl = (s.link p).ctl ++ [(s.time, body)] := by
  unfold State.ctlIn
  dsimp only
  rw [if_pos ⟨hk, by simpa using hc⟩, State.link_modLink_same]

/-- The flit that is all of its packet. -/
theorem State.grow_whole (body : BitVec 2048) {h : Held} (hc : s.portCompat p = false) (hraw : h.raw = []) (hout : h.out = none)
    (habn : h.abn = none) : (s.grow p body true false h).abn = none ∧ (s.grow p body true false h).share = h.share ∧
      (s.grow p body true false h).flits = 1 ∧ (s.grow p body true false h).more = false ∧
      (s.grow p body true false h).pkt = Packet.ofBytes (leBytes 256 body.toNat) := by
  unfold State.grow State.flitCount
  rw [hraw, hout, habn, hc]
  simp

/-- A head that the port takes joins its basin. -/
theorem State.holdHead_joins (vc : Nat) {h : Held} (hmgt : (s.link p).mgtOnly = false) (habn : h.abn = none) (hshare : h.share < 6) :
    ((s.holdHead p vc h).link p).basin = (s.link p).basin ++ [h] := by
  unfold State.holdHead
  rw [if_neg (by simp [hmgt]), if_neg (by simp [habn]), if_neg (by omega)]
  dsimp only
  rw [State.link_modLink_same]

/-- A DATA flit that is first and last of its packet puts it in the basin. -/
theorem State.firstIn_joins (hlast : tag.testBit 18 = true) (htow : tag.testBit 19 = false) (habn : tag.testBit 27 = false)
    (hvc : fld tag 14 3 < 6) (hmgt : (s.link p).mgtOnly = false) (hc : s.portCompat p = false)
    (hmore : ∀ x ∈ (s.link p).basin, x.more = false) :
    ∃ h, ((s.firstIn p tag body).link p).basin = (s.link p).basin ++ [h] ∧ h.share = fld tag 14 3 ∧ h.flits = 1 ∧ h.more = false ∧
      h.pkt = Packet.ofBytes (leBytes 256 body.toNat) := by
  unfold State.firstIn
  extract_lets vc tow s1 h0
  have hbasin : (s1.link p).basin = (s.link p).basin := s.discardHeld_keeps_basin fun x hx => by
    unfold Held.takes
    simp [hmore x hx]
  have hsteer : Steered s s1 := (State.discardHeld_steered s _).mpr (.refl s)
  have hcompat : CompatKept s s1 := s.discardHeld_compat _
  clear_value s1
  have hmgt1 : (s1.link p).mgtOnly = false := (congrArg Link.mgtOnly (hsteer p) :).trans hmgt
  have hc1 : s1.portCompat p = false := (hcompat p).trans hc
  have hshare : h0.share = fld tag 14 3 := if_neg (by simp [tow, htow])
  have hraw : h0.raw = [] := rfl
  have hout : h0.out = none := rfl
  have habn0 : h0.abn = none := rfl
  clear_value h0
  rw [hlast, habn]
  obtain ⟨h1, h2, h3, h4, h5⟩ := State.grow_whole body hc1 hraw hout habn0
  exact ⟨_, (State.holdHead_joins _ hmgt1 h1 (by omega)).trans (by rw [hbasin]), h2.trans hshare, h3, h4, h5⟩

/-- What a sequenced flit does to the port it comes to. -/
structure SeqTaken (s t : State) (p tag : Nat) (body : BitVec 2048) : Prop where
  next : (fld tag 2 12 + 4096 - (s.link p).e) % 4096 = 0 → (t.link p).e = ((s.link p).e + 1) % 4096 ∧ (t.link p).nak = false
  out : (fld tag 2 12 + 4096 - (s.link p).e) % 4096 ≠ 0 →
    (fld tag 2 12 + 4096 - (s.link p).e) % 4096 ≤ 1024 ∨ 3072 ≤ (fld tag 2 12 + 4096 - (s.link p).e) % 4096 →
    (t.link p).e = (s.link p).e ∧ (t.link p).nak = true ∧ (t.link p).basin = (s.link p).basin ∧ (t.link p).ctl = (s.link p).ctl
  far : 1024 < (fld tag 2 12 + 4096 - (s.link p).e) % 4096 → (fld tag 2 12 + 4096 - (s.link p).e) % 4096 < 3072 → (t.link p).st = .retrain
  ctl : (fld tag 2 12 + 4096 - (s.link p).e) % 4096 = 0 → tag % 4 = 2 → s.portCompat p = false → ctlKind (body.toNat % 256) = some 2 →
    (t.link p).ctl = (s.link p).ctl ++ [(s.time, body)]
  data : (fld tag 2 12 + 4096 - (s.link p).e) % 4096 = 0 → tag % 4 = 1 → tag.testBit 17 = true → tag.testBit 18 = true →
    tag.testBit 19 = false → tag.testBit 27 = false → fld tag 14 3 < 6 → (s.link p).mgtOnly = false → s.portCompat p = false →
    (∀ x ∈ (s.link p).basin, x.more = false) → ∃ h, (t.link p).basin = (s.link p).basin ++ [h] ∧ h.share = fld tag 14 3 ∧ h.flits = 1 ∧
      h.more = false ∧ h.pkt = Packet.ofBytes (leBytes 256 body.toNat)

theorem State.linkRetry_retrains (hst : (s.link p).st = .active) (code reason : Nat) : ((s.linkRetry p code reason).link p).st = .retrain := by
  unfold State.linkRetry
  have hlink : (s.raise code p 1 10 (0x50 + p)).link p = s.link p := State.link_of_same (l := [.flt]) (by simp) rfl p
  generalize s.raise code p 1 10 (0x50 + p) = u at hlink
  exact (State.retrainPort_steered (s := u) (p := p) (.inl (by rw [hlink]; exact hst)) reason true).st

theorem State.seqIn_takes (hst : (s.link p).st = .active) (tag : Nat) (body : BitVec 2048) : SeqTaken s (s.seqIn p tag body) p tag body := by
  unfold State.seqIn
  extract_lets l d s1 s2
  have h1 : s1.link p = { s.link p with e := (l.e + 1) % 4096, nak := false } := State.link_modLink_same _ _ _
  have h2 : s2.link p = { s.link p with nak := true } := State.link_modLink_same _ _ _
  have hc1 : s1.portCompat p = s.portCompat p := rfl
  have ht1 : s1.time = s.time := rfl
  have hd : d = (fld tag 2 12 + 4096 - (s.link p).e) % 4096 := rfl
  clear_value s1 s2
  by_cases h0 : d = 0
  · rw [if_pos h0]
    refine ⟨fun _ => ?_, fun h => absurd h0 h, fun h => by omega, fun _ h4 hc hk => ?_, fun _ h4 h17 h18 h19 h27 hvc hmgt hc hmore => ?_⟩
    · split
      · have hk := s1.dataIn_seq (p := p) tag body
        exact ⟨hk.1.trans (by rw [h1]), hk.2.trans (by rw [h1])⟩
      · have hk := s1.ctlIn_seq (p := p) 2 body
        exact ⟨hk.1.trans (by rw [h1]), hk.2.trans (by rw [h1])⟩
    · rw [if_neg (by omega), State.ctlIn_joins hk (.inr (hc1.trans hc)), h1, ht1]
    · rw [if_pos h4]
      unfold State.dataIn
      rw [if_pos h17]
      obtain ⟨h, hb, hh⟩ := State.firstIn_joins (s := s1) (p := p) (body := body) h18 h19 h27 hvc (by rw [h1]; exact hmgt) (hc1.trans hc)
        (by rw [h1]; exact hmore)
      exact ⟨h, hb.trans (by rw [h1]), hh⟩
  · rw [if_neg h0]
    refine ⟨fun h => absurd h h0, fun _ hb => ?_, fun hlo hhi => ?_, fun h => absurd h h0, fun h => absurd h h0⟩
    · rw [if_neg (by omega), h2]
      exact ⟨rfl, rfl, rfl, rfl⟩
    · rw [if_pos ⟨hlo, hhi⟩]
      exact State.linkRetry_retrains (by rw [h2]; exact hst) _ _

end

end Sys2Proof.Machine

namespace Sys2Proof.Machine

/-! ## Tags received, and replays -/

section
variable {s t u : State} {p tag : Nat} {f : RxFlit} {l : Link}

theorem lnkReg_low {off : Nat} (hp : p < 12) (ho : off < 0x40) : lnkReg p off < 0xC040 := by
  unfold lnkReg
  omega

/-- Counting what FEC corrected leaves links, time and the port map. -/
theorem State.fecCount_keeps (s : State) (hp : p < 12) (f : RxFlit) : Same (mask [.rg, .flt]) s (s.fecCount p f) ∧ CompatKept s (s.fecCount p f) := by
  refine ⟨by simp, ?_⟩
  unfold State.fecCount
  dsimp only
  exact ((CompatKept.setReg _ _ (lnkReg_low hp (by decide))).trans (.setReg _ _ (lnkReg_low hp (by decide)))).trans
    (.foldl (fun t _ => .of_same (l := [.flt]) (by simp) rfl) _ _)

/-- A flit that is not good. -/
theorem State.rxBad_asks (s : State) (p : Nat) (f : RxFlit) :
    ((s.rxBad p f true).link p).e = (s.link p).e ∧ ((s.rxBad p f true).link p).nak = true := by
  unfold State.rxBad
  extract_lets s1 s2
  have h1 : s1.link p = s.link p := by
    dsimp only [s1]
    split
    · rfl
    · exact State.link_of_same (l := [.rg, .flt]) (by simp) rfl p
  have h2 : s2.link p = { s1.link p with fenceRun := (s1.link p).fenceRun.filter (fun e => decide (e.1 ≠ f.team)) } :=
    State.link_modLink_same _ _ _
  rw [if_pos rfl, State.link_modLink_same, h2, h1]
  exact ⟨rfl, rfl⟩

/-- The credits of a channel that a report raises within the share. -/
theorem State.takeCredit_adds {v cnt : Nat} (hn : 0 < (cnt + 256 - (s.link p).seen.getD v 0) % 256)
    (hle : (s.link p).cred.getD v 0 + (cnt + 256 - (s.link p).seen.getD v 0) % 256 ≤ (s.link p).peer.shares.getD v 0) :
    ((s.takeCredit p v cnt).link p).cred = setAt (s.link p).cred v ((s.link p).cred.getD v 0 + (cnt + 256 - (s.link p).seen.getD v 0) % 256) := by
  unfold State.takeCredit
  extract_lets l d c
  have hlink : (s.noteStall p v).link p = s.link p := State.link_of_same (l := [.cmap]) (by simp) rfl p
  rw [if_neg (show ¬ d = 0 from Nat.pos_iff_ne_zero.mp hn), if_neg (Nat.not_lt.mpr hle)]
  exact (congrArg Link.cred (State.link_modLink_same (s.noteStall p v) p (fun l => { l with cred := setAt l.cred v c, seen := setAt l.seen v cnt }))).trans
    (by rw [hlink])

theorem State.takeCredit_exceeds {v cnt : Nat} (hst : (s.link p).st = .active) (hn : 0 < (cnt + 256 - (s.link p).seen.getD v 0) % 256)
    (hlt : (s.link p).peer.shares.getD v 0 < (s.link p).cred.getD v 0 + (cnt + 256 - (s.link p).seen.getD v 0) % 256) :
    ((s.takeCredit p v cnt).link p).st = .fenced ∧ ((s.takeCredit p v cnt).link p).cause = 5 := by
  unfold State.takeCredit
  extract_lets l d c
  rw [if_neg (show ¬ d = 0 from Nat.pos_iff_ne_zero.mp hn), if_pos hlt]
  exact State.linkFault_fences (by simp [hst]) (by simp [hst]) _ _ _

theorem State.acceptAbort_steered (s : State) (from_ : Nat) (x : PendStep) (forward : Bool) : Steered s (s.acceptAbort from_ x forward) := by
  have hfwd (key gen orig reason hops : Nat) : Steered s (s.fwdAbort from_ key gen orig reason hops) := by
    unfold State.fwdAbort
    refine .foldl (fun t q => ?_) _ _
    split
    · simp
    · rfl
  unfold State.acceptAbort
  extract_lets s1 s2
  have h1 : Steered s s1 := by
    dsimp only [s1]
    split
    · exact hfwd _ _ _ _ _
    · rfl
  have h2 : Steered s1 s2 := by
    dsimp only [s2]
    split
    · exact .of_same (l := [.chans, .ra, .tows, .halt, .mons]) (by simp) rfl
    · rfl
  exact (h1.trans h2).trans fun _ => rfl

/-- A peer that is FENCED fences the port with CAUSE 2. -/
theorem State.peerFenced_fences (hst : (s.link p).st = .active) : ((s.peerFenced p).link p).st = .fenced ∧ ((s.peerFenced p).link p).cause = 2 := by
  unfold State.peerFenced
  extract_lets s1
  have hlink : ((s.orReg (lnkReg p 4) 0x80).raise 0x39 p 1 10 (0x50 + p)).link p = s.link p :=
    State.link_of_same (l := [.rg, .flt]) (by simp) rfl p
  have h1 : (s1.link p).st = .fenced ∧ (s1.link p).cause = 2 := by
    dsimp only [s1]
    generalize (s.orReg (lnkReg p 4) 0x80).raise 0x39 p 1 10 (0x50 + p) = u at hlink
    have h := State.fencePort_steered (s := u) (p := p) (by simp [hlink, hst]) (by simp [hlink, hst]) 2
    exact ⟨h.st, h.cause⟩
  clear_value s1
  split
  · unfold State.originAbort
    split
    · exact h1
    · have h := s1.acceptAbort_steered 15 ⟨s1.ident.gen + 1, 1, s1.ident.chip, 0, false, false⟩ true
      exact ⟨(h.st p).trans h1.1, (h.cause p).trans h1.2⟩
  · exact h1

/-- A FENCE tag on the one team of a port that had `n` in a row. -/
theorem State.takeFence_counts {team n : Nat} (hteams : (s.link p).teams = [team]) (hrun : (s.link p).fenceRun = [(team, n)]) :
    ∃ u : State, u = s.modLink p (fun l => { l with fenceRun := [(team, min 64 (n + 1))] }) ∧
      s.takeFence p team true = if 63 ≤ n then u.peerFenced p else u := by
  refine ⟨_, rfl, ?_⟩
  unfold State.takeFence
  extract_lets l old run s1
  have hold : old = n := by simp [old, l, hrun]
  have hrun' : run = [(team, min 64 (n + 1))] := by simp [run, l, hrun, hold]
  have h1 : s1 = s.modLink p (fun l => { l with fenceRun := [(team, min 64 (n + 1))] }) := by
    dsimp only [s1]
    rw [if_neg (by simp), hrun']
  rw [h1, hrun', show l.teams = [team] from hteams]
  simp only [ne_eq, List.cons_ne_nil, not_false_eq_true, List.all_cons, List.all_nil, List.any_cons, List.any_nil, decide_true,
    Bool.true_and, Bool.or_false, Bool.and_true, true_and, decide_eq_true_eq]
  exact if_congr (by omega) rfl rfl

end

end Sys2Proof.Machine

namespace Sys2Proof.Machine

/-! ## Replays -/

section
variable {s t u : State} {p : Nat}

theorem State.spareSlot_hushed (s : State) (p team : Nat) : Hushed s (s.spareSlot p team) := by
  have h1 : Hushed s (s.slotDue team).2 := .of_same (l := [.phys]) (by simp) rfl
  unfold State.spareSlot
  dsimp only
  split
  · exact h1.trans (by simp)
  · exact h1

theorem State.driveFlit_hushed (s : State) (p team tag : Nat) (body : BitVec 2048) (bad fec : Bool) :
    Hushed s (s.driveFlit p team tag body bad fec) := by
  unfold State.driveFlit
  extract_lets s0 b g
  have h0 : Hushed s s0 := by simp [s0]
  split
  · exact h0.trans (by simp)
  · exact (h0.trans (by simp)).trans (State.spareSlot_hushed _ p team)

/-- Sending a flit again leaves the replay buffers. -/
theorem State.transmit_replay (s : State) (p core fseq : Nat) (body : BitVec 2048) :
    ((s.transmit p core fseq body).link p).replay = (s.link p).replay := by
  have h1 : ((s.takeLnkInj p).2.link p).replay = (s.link p).replay :=
    congrArg Link.replay (State.link_of_same (l := [.rg]) (by simp) rfl p)
  have h2 : (((s.takeLnkInj p).2.nextTeam p).2.link p).replay = ((s.takeLnkInj p).2.link p).replay := by
    unfold State.nextTeam
    dsimp only
    rw [State.link_modLink_same]
  have h3 : Hushed ((s.takeLnkInj p).2.nextTeam p).2 (s.transmit p core fseq body) :=
    ((State.tagBack_hushed _ p).mpr (.refl _)).trans (State.driveFlit_hushed _ _ _ _ _ _ _)
  exact ((congrArg Link.replay (h3 p) :).trans h2).trans h1

/-- Sending a flit is one flit of its port. -/
theorem State.transmit_flits (s : State) (p core fseq : Nat) (body : BitVec 2048) :
    ∃ team tag body', Flits [.flit p team tag body'] s (s.transmit p core fseq body) := by
  have h1 : Flits [] s (s.takeLnkInj p).2 := .same (m := [.rg]) (by simp) rfl
  have h2 : Flits [] (s.takeLnkInj p).2 ((s.takeLnkInj p).2.nextTeam p).2 := .same (m := [.links]) (by simp) rfl
  have h3 := ((s.takeLnkInj p).2.nextTeam p).2.tagBack_flits p
  unfold State.transmit
  dsimp only
  obtain ⟨tag, body', h4, -⟩ := (((s.takeLnkInj p).2.nextTeam p).2.tagBack p).2.driveFlit_flits p ((s.takeLnkInj p).2.nextTeam p).1
    (core + put fseq 2 12 + (((s.takeLnkInj p).2.nextTeam p).2.tagBack p).1) body (s.takeLnkInj p).1.1 (s.takeLnkInj p).1.2
  exact ⟨_, tag, body', ((h1.trans h2).trans h3).trans h4⟩

/-- The outputs that are flits of port `p`. -/
def flitOf (p : Nat) (o : Output) : Bool := match o with
  | .flit q _ _ _ => decide (q = p)
  | _ => false

theorem filter_flitOf {p : Nat} (m : List Output) : m.filter (flitOf p) = (m.filter Output.isFlit).filter (flitOf p) := by
  rw [List.filter_filter]
  refine List.filter_congr fun o _ => ?_
  cases o <;> simp [flitOf, Output.isFlit]

/-- With no injection armed a replay from the start sends every flit, and leaves the replay buffer. -/
theorem State.replayFrom_flits (p : Nat) (fl : List TxFlit) : ∀ s : State, s.flt.armed = none →
    ((State.replayFrom p fl s).link p).replay = (s.link p).replay ∧
      ∃ l, Flits l s (State.replayFrom p fl s) ∧ l.length = fl.length ∧ ∀ o ∈ l, flitOf p o = true := by
  induction fl with
  | nil => exact fun s _ => ⟨rfl, [], .refl s, rfl, by simp⟩
  | cons f fl ih =>
    intro s h
    unfold State.replayFrom State.replayEcc
    rw [takeEcc_unarmed h]
    dsimp only
    rw [if_neg (by simp)]
    have harm : (s.transmit p f.core f.fseq f.body).flt = s.flt :=
      ((State.transmit_same s p f.core f.fseq f.body (by simp)).mpr (.refl (mask [.out, .rg, .tows, .links, .phys]) s) .flt rfl).symm
    obtain ⟨team, tag, body', h1⟩ := s.transmit_flits p f.core f.fseq f.body
    have hr := s.transmit_replay p f.core f.fseq f.body
    generalize s.transmit p f.core f.fseq f.body = u at harm h1 hr
    obtain ⟨hrep, l, h2, hlen, hall⟩ := ih u (by rw [harm]; exact h)
    refine ⟨hrep.trans hr, _, h1.trans h2, by simp [hlen], fun o ho => ?_⟩
    rcases List.mem_append.mp ho with ho | ho
    · rw [List.mem_singleton.mp ho]
      exact decide_eq_true rfl
    · exact hall o ho

/-- A replay of every flit: sent once more each, now. -/
theorem State.replayAll_flits (h : s.flt.armed = none) (p : Nat) :
    ((s.replayAll p).link p).replay = (s.link p).replay.map (fun f => { f with sends := f.sends + 1, at_ := s.now }) ∧
      ∃ l, Flits l s (s.replayAll p) ∧ l.length = (s.link p).replay.length ∧ ∀ o ∈ l, flitOf p o = true := by
  unfold State.replayAll
  dsimp only
  have h1 := State.link_modLink_same s p (fun l => { l with replay := l.replay.map (fun f => { f with sends := f.sends + 1, at_ := s.now }) })
  generalize hu : s.modLink p _ = u at h1
  obtain ⟨hr, l, hl, hlen, hall⟩ := State.replayFrom_flits p (s.link p).replay u (by rw [← hu]; exact h)
  exact ⟨hr.trans (by rw [h1]), l, (Flits.none (by rw [← hu]; rfl) : Flits [] s u).trans hl, hlen, hall⟩

theorem replayTimeout_acts {f : TxFlit} {rest : List TxFlit} (ha : s.alive = true) (hp : p < 12) (harm : s.flt.armed = none)
    (hst : (s.link p).st = .active) (hr : (s.link p).replay = f :: rest) (hdue : f.at_ + (s.link p).toTicks ≤ s.now) :
    Meets (execReplayTimeout p s) (fun t =>
      (f.sends ≤ max 1 (s.rf (lnkReg p 0) 11 4) →
        (t.link p).replay = (s.link p).replay.map (fun f => { f with sends := f.sends + 1, at_ := s.now }) ∧
        (t.out.filter (flitOf p)).length = (s.link p).replay.length) ∧
      (max 1 (s.rf (lnkReg p 0) 11 4) < f.sends → (t.link p).st = .retrain)) := by
  unfold execReplayTimeout
  extract_lets l
  refine .run ha (by simp [hp, l, hst, hr, hdue]) ?_
  have hr' : (s.cleared.link p).replay = f :: rest := hr
  have hsr : s.cleared.startReplay p = if max 1 (s.rf (lnkReg p 0) 11 4) + 1 ≤ f.sends then s.cleared.linkRetry p 0x32 2
      else ((s.cleared.modLink p (fun l => { l with replayAt := some (l.acked, s.now) })).incReg (lnkReg p 0xC)).replayAll p := by
    unfold State.startReplay
    dsimp only
    rw [hr']
    rfl
  rw [hsr]
  refine ⟨fun hle => ?_, fun hlt => ?_⟩
  · rw [if_neg (by omega)]
    have hlink : ((s.cleared.modLink p (fun l => { l with replayAt := some (l.acked, s.now) })).incReg (lnkReg p 0xC)).link p =
        { s.link p with replayAt := some ((s.link p).acked, s.now) } :=
      State.link_modLink_same s.cleared p (fun l => { l with replayAt := some (l.acked, s.now) })
    have hout : ((s.cleared.modLink p (fun l => { l with replayAt := some (l.acked, s.now) })).incReg (lnkReg p 0xC)).out = [] := rfl
    have hnow : ((s.cleared.modLink p (fun l => { l with replayAt := some (l.acked, s.now) })).incReg (lnkReg p 0xC)).now = s.now := rfl
    have harm' : ((s.cleared.modLink p (fun l => { l with replayAt := some (l.acked, s.now) })).incReg (lnkReg p 0xC)).flt.armed = none := harm
    generalize (s.cleared.modLink p (fun l => { l with replayAt := some (l.acked, s.now) })).incReg (lnkReg p 0xC) = u at hlink hout hnow harm'
    obtain ⟨hrep, m, ⟨n, hn, hm⟩, hlen, hall⟩ := State.replayAll_flits harm' p
    rw [hlink, hnow] at hrep
    rw [hlink] at hlen
    rw [hout, List.nil_append] at hn
    refine ⟨hrep, Eq.trans (congrArg (fun m => (m.filter (flitOf p)).length) hn) ?_⟩
    rw [filter_flitOf, hm, List.filter_eq_self.mpr hall, hlen]
  · rw [if_pos (by omega)]
    exact State.linkRetry_retrains (s := s.cleared) hst _ _

end

end Sys2Proof.Machine

namespace Sys2Proof.Machine

/-! ## Flits in sequence, settled -/

section
variable {s t v : State} {p tag : Nat} {body : BitVec 2048} {f : RxFlit} {l : Link}

/-- What a flit does to a port depends on where the port expects, what it holds, and time. -/
theorem SeqTaken.congr (h : SeqTaken v t p tag body) (he : (v.link p).e = (s.link p).e) (hb : (v.link p).basin = (s.link p).basin)
    (hctl : (v.link p).ctl = (s.link p).ctl) (hm : (v.link p).mgtOnly = (s.link p).mgtOnly) (hc : v.portCompat p = s.portCompat p)
    (ht : v.time = s.time) : SeqTaken s t p tag body := by
  obtain ⟨h1, h2, h3, h4, h5⟩ := h
  rw [he] at h1 h2 h3 h4 h5
  rw [hb, hctl] at h2
  rw [hc, hctl, ht] at h4
  rw [hm, hc, hb] at h5
  exact ⟨h1, h2, h3, h4, h5⟩

theorem SeqTaken.ended (h : SeqTaken s t p tag body) (q : List Instr) : SeqTaken s (t.ended q) p tag body :=
  ⟨h.next, h.out, h.far, h.ctl, h.data⟩

/-- A tag that only acknowledges, at a port that has had no FENCE. -/
def PlainTag (s : State) (p tag : Nat) : Prop :=
  (s.link p).fenceRun = [] ∧ tag.testBit 41 = false ∧ tag.testBit 40 = false ∧ tag.testBit 53 = false ∧
    ((s.link p).ackTo (fld tag 28 12)).isSome = true

/-- What such a tag leaves to do: its credit report. -/
theorem State.takeTag_plain {team : Nat} (hp : p < 12) (hst : (s.link p).st = .active) (h : PlainTag s p tag) :
    ∃ l v, (s.link p).ackTo (fld tag 28 12) = some l ∧ Acked (s.fecCount p f) v p l ∧ (v.link p).st = .active ∧
      (s.fecCount p f).takeTag p team tag = if fld tag 42 3 < 6 then v.takeCredit p (fld tag 42 3) (fld tag 45 8) else v := by
  obtain ⟨hrun, h41, h40, h53, hack⟩ := h
  obtain ⟨l, hl⟩ := Option.isSome_iff_exists.mp hack
  have hlink : (s.fecCount p f).link p = s.link p := State.link_of_same (s.fecCount_keeps hp f).1 rfl p
  have hfence : (s.fecCount p f).takeFence p team (tag.testBit 41) = s.fecCount p f := by
    rw [h41]
    exact State.takeFence_none (by rw [hlink]; exact hrun)
  obtain ⟨v, hv, hvst, htake⟩ := State.takeTag_acked hfence (by rw [hlink]; exact hst) h53 h40 (by rw [hlink]; exact hl)
  exact ⟨l, v, hl, hv, hvst, htake⟩

/-- The state once a sequenced flit has come. -/
def State.seqFlit (s : State) (p : Nat) (f : RxFlit) : State :=
  if s.fecFail f ∨ ¬ s.rxGood p f then (s.fecCount p f).rxBad p f true
  else
    let s2 := (s.fecCount p f).takeTag p f.team (s.rxTag p f)
    if (s2.link p).st = .active ∨ (s2.link p).st = .draining then s2.seqIn p (s.rxTag p f) (s.rxBody p f) else s2

/-- The checks of FEC and CRC that a flit must pass. -/
def State.rxFine (s : State) (p : Nat) (f : RxFlit) : Prop := s.fecFail f = false ∧ s.rxGood p f = true

theorem State.not_rxFine (h : ¬ s.rxFine p f) : s.fecFail f = true ∨ ¬ s.rxGood p f = true := by
  by_cases hf : s.fecFail f = true
  · exact .inl hf
  · exact .inr fun hg => h ⟨by simpa using hf, hg⟩

theorem State.rxFine_not (h : s.rxFine p f) : ¬(s.fecFail f = true ∨ ¬ s.rxGood p f = true) := by
  obtain ⟨h1, h2⟩ := h
  exact fun h => h.elim (fun h => Bool.false_ne_true (h1.symm.trans h)) fun h => h h2

theorem State.seqFlit_bad (hp : p < 12) (h : ¬ s.rxFine p f) :
    ((s.seqFlit p f).link p).e = (s.link p).e ∧ ((s.seqFlit p f).link p).nak = true := by
  have hlink : (s.fecCount p f).link p = s.link p := State.link_of_same (s.fecCount_keeps hp f).1 rfl p
  unfold State.seqFlit
  rw [if_pos (State.not_rxFine h)]
  obtain ⟨h1, h2⟩ := (s.fecCount p f).rxBad_asks p f
  exact ⟨h1.trans (by rw [hlink]), h2⟩

theorem State.seqFlit_good (hp : p < 12) (hst : (s.link p).st = .active) (h : s.rxFine p f) (hplain : PlainTag s p (s.rxTag p f))
    (hv : 6 ≤ fld (s.rxTag p f) 42 3) : SeqTaken s (s.seqFlit p f) p (s.rxTag p f) (s.rxBody p f) := by
  obtain ⟨hsame, hcompat⟩ := s.fecCount_keeps hp f
  obtain ⟨m, v, hm, hv', hvst, htake⟩ := State.takeTag_plain (f := f) (team := f.team) hp hst hplain
  unfold State.seqFlit
  rw [if_neg (State.rxFine_not h), htake.trans (if_neg (Nat.not_lt.mpr hv)), if_pos (.inl hvst)]
  obtain ⟨n, hmn⟩ := Link.ackTo_some hm
  have htod : v.tod = s.tod := hv'.tod.trans (hsame .tod rfl).symm
  have hc : v.portCompat p = s.portCompat p := (hv'.compat p).trans (hcompat p)
  have he := hv'.e
  have hb := hv'.basin
  have hctl := hv'.ctl
  have hmgt := hv'.mgtOnly
  rw [hmn] at he hb hctl hmgt
  exact (State.seqIn_takes hvst _ _).congr he hb hctl hmgt hc (congrArg (fun n => (n / 3125) % 2 ^ 64) htod)

/-- A sequenced flit comes. -/
theorem seqFlit_acts {P : State → Prop} (ha : s.alive = true) (hp : p < 12) (hst : (s.link p).st = .active)
    (htag : s.rxTag p f % 4 = 1 ∨ s.rxTag p f % 4 = 2)
    (hP : ∀ t, (¬ s.rxFine p f → (t.link p).e = (s.link p).e ∧ (t.link p).nak = true) →
      (s.rxFine p f → PlainTag s p (s.rxTag p f) → 6 ≤ fld (s.rxTag p f) 42 3 →
        SeqTaken s t p (s.rxTag p f) (s.rxBody p f)) → P t) :
    Meets (execSeqFlitReceive p f s) P := by
  unfold execSeqFlitReceive
  extract_lets l tag
  have htag' : (decide (tag % 4 = 1) || decide (tag % 4 = 2)) = true := by simpa using htag
  refine .run ha (by rw [htag']; simp [hp, l, hst]) ?_
  have hended (v : State) (q : List Instr) (h1 : ¬ s.rxFine p f → (v.link p).e = (s.link p).e ∧ (v.link p).nak = true)
      (h2 : s.rxFine p f → PlainTag s p (s.rxTag p f) → 6 ≤ fld (s.rxTag p f) 42 3 →
        SeqTaken s v p (s.rxTag p f) (s.rxBody p f)) : P (v.ended q) :=
    hP _ h1 fun a b c => (h2 a b c).ended q
  refine hended (s.cleared.seqFlit p f) _ (fun h => State.seqFlit_bad (s := s.cleared) hp h) fun h hplain hv => ?_
  have h' := State.seqFlit_good (s := s.cleared) (f := f) hp hst h hplain hv
  exact ⟨h'.next, h'.out, h'.far, h'.ctl, h'.data⟩

/-- A LINK_PARAM during bring-up joins the control flits. -/
theorem tagParam_joins (ha : s.alive = true) (hp : p < 12) (hst : (s.link p).st = .training) (hlock : (s.link p).tagLock = true)
    (htag : s.rxTag p f % 4 = 3) (hfec : s.fecFail f = false) (hgood : s.rxGood p f = true) (hb : (s.rxBody p f).toNat % 256 = 1) :
    Meets (execTagReceive p f s) (fun t => (t.link p).ctl = (s.link p).ctl ++ [(s.time, s.rxBody p f)]) := by
  unfold execTagReceive
  extract_lets l tag
  have htag3 : tag % 4 = 3 := htag
  refine .run ha (by simp [hp, l, hst, htag3]) ?_
  extract_lets s1 s2 st
  obtain ⟨hsame, hcompat⟩ := s.cleared.fecCount_keeps hp f
  have hlink : s1.link p = s.link p := State.link_of_same hsame rfl p
  have htime : s1.time = s.time := congrArg (fun n => (n / 3125) % 2 ^ 64) (hsame .tod rfl).symm
  have hs2 : s2 = s1 := if_pos hst
  have hst2 : st = .training := by
    dsimp only [st]
    rw [hs2, hlink, hst]
  rw [if_neg (show ¬(s.cleared.fecFail f = true ∨ ¬ s.cleared.rxGood p f = true) from
      fun h => h.elim (fun h => Bool.false_ne_true (hfec.symm.trans h)) fun h => h hgood),
    if_neg (by rw [htag3, hst2]; simp), if_neg (fun h => h.2 ⟨hb, hlock⟩), hs2]
  have hjoin := State.ctlIn_joins (s := s1) (p := p) (kind := 3) (body := s.rxBody p f) (by rw [hb]; rfl) (.inl hb)
  rw [hlink, htime] at hjoin
  exact hjoin

end

end Sys2Proof.Machine

namespace Sys2Proof.Machine

section
variable {s : State} {p : Nat} {f : RxFlit}

/-- A good tag of an ACTIVE port is taken, and nothing else. -/
theorem tagReceive_takes {P : State → Prop} (ha : s.alive = true) (hp : p < 12) (hst : (s.link p).st = .active)
    (htag : s.rxTag p f % 4 = 0) (hgood : s.rxFine p f)
    (hE : ∀ v q, P v → P (State.ended v q)) (hP : P ((s.cleared.fecCount p f).takeTag p f.team (s.rxTag p f))) : Meets (execTagReceive p f s) P := by
  unfold execTagReceive
  extract_lets l tag
  have htag0 : tag % 4 = 0 := htag
  have hnot : ¬ l.st = .training := by simp [l, hst]
  refine .run ha (by simp [hp, l, hst, htag0]) ?_
  extract_lets s1 s2 st
  have hs2 : s2 = s1.takeTag p f.team tag := if_neg hnot
  rw [if_neg (State.rxFine_not (s := s.cleared) hgood), if_pos (.inl htag0), hs2]
  exact hE _ _ hP

/-- The credits a tag reports, with nothing else asked. -/
theorem State.takeTag_credits (hp : p < 12) (hst : (s.link p).st = .active) {tag team : Nat} (hplain : PlainTag s p tag) (hv : fld tag 42 3 < 6) :
    let l := s.link p
    let v := fld tag 42 3
    let n := (fld tag 45 8 + 256 - l.seen.getD v 0) % 256
    let t := (s.fecCount p f).takeTag p team tag
    (0 < n → l.cred.getD v 0 + n ≤ l.peer.shares.getD v 0 → (t.link p).cred = setAt l.cred v (l.cred.getD v 0 + n)) ∧
    (0 < n → l.peer.shares.getD v 0 < l.cred.getD v 0 + n → (t.link p).st = .fenced ∧ (t.link p).cause = 5) := by
  intro l v n t
  obtain ⟨m, u, hm, hu, hust, htake⟩ := State.takeTag_plain (f := f) (team := team) hp hst hplain
  obtain ⟨k, hmk⟩ := Link.ackTo_some hm
  have hseen := hu.seen
  have hcred := hu.cred
  have hpeer := hu.peer
  rw [hmk] at hseen hcred hpeer
  have hadds := State.takeCredit_adds (s := u) (p := p) (v := v) (cnt := fld tag 45 8)
  have hexceeds := State.takeCredit_exceeds (s := u) (p := p) (v := v) (cnt := fld tag 45 8) hust
  have ht : t = u.takeCredit p v (fld tag 45 8) := htake.trans (if_pos hv)
  rw [hseen, hcred, hpeer, ← ht] at hadds hexceeds
  exact ⟨hadds, hexceeds⟩

/-- The replay buffer once a tag has acknowledged, with nothing held to be sent. -/
theorem State.takeTag_replay (hp : p < 12) (hst : (s.link p).st = .active) {tag team : Nat} (hplain : PlainTag s p tag) (hv : 6 ≤ fld tag 42 3)
    (hw : (s.link p).ctlWait = []) {l : Link} (hl : (s.link p).ackTo (fld tag 28 12) = some l) :
    (((s.fecCount p f).takeTag p team tag).link p).replay = l.replay := by
  obtain ⟨m, u, hm, hu, hust, htake⟩ := State.takeTag_plain (f := f) (team := team) hp hst hplain
  obtain rfl : m = l := Option.some.inj (hm.symm.trans hl)
  rw [htake, if_neg (Nat.not_lt.mpr hv)]
  refine hu.replay ?_
  obtain ⟨k, hmk⟩ := Link.ackTo_some hl
  rw [hmk]
  exact hw

/-- The FENCE tags in a row of a port of one team: the 64th tells that the peer is FENCED. -/
theorem State.takeTag_fence (hp : p < 12) (hst : (s.link p).st = .active) {tag team n : Nat} (h41 : tag.testBit 41 = true)
    (hteams : (s.link p).teams = [team]) (hrun : (s.link p).fenceRun = [(team, n)]) :
    let t := (s.fecCount p f).takeTag p team tag
    (63 ≤ n → (t.link p).st = .fenced ∧ (t.link p).cause = 2) ∧
    (n < 63 → tag.testBit 40 = false → tag.testBit 53 = false → 6 ≤ fld tag 42 3 → ((s.link p).ackTo (fld tag 28 12)).isSome = true →
      (t.link p).st = .active ∧ (t.link p).fenceRun = [(team, n + 1)]) := by
  intro t
  have hlink : (s.fecCount p f).link p = s.link p := State.link_of_same (s.fecCount_keeps hp f).1 rfl p
  dsimp only [t]
  generalize s.fecCount p f = w at hlink
  obtain ⟨u, hu, hfence⟩ := State.takeFence_counts (s := w) (p := p) (team := team) (n := n) (by rw [hlink]; exact hteams)
    (by rw [hlink]; exact hrun)
  have hul : u.link p = { s.link p with fenceRun := [(team, min 64 (n + 1))] } := by
    rw [hu, State.link_modLink_same, hlink]
  have hust : (u.link p).st = .active := by rw [hul]; exact hst
  refine ⟨fun h => ?_, fun h h40 h53 hv hack => ?_⟩
  · have hf : w.takeFence p team (tag.testBit 41) = u.peerFenced p := by rw [h41, hfence, if_pos h]
    obtain ⟨hfst, hcause⟩ := State.peerFenced_fences hust
    unfold State.takeTag
    dsimp only
    rw [hf, if_pos (by simp [hfst])]
    exact ⟨hfst, hcause⟩
  · have hf : w.takeFence p team (tag.testBit 41) = u := by rw [h41, hfence, if_neg (by omega)]
    have hack' : ((u.link p).ackTo (fld tag 28 12)).isSome = true :=
      (Link.ackTo_isSome_congr (m := s.link p) (congrArg Link.replay hul :) (congrArg Link.fseq hul :) _).trans hack
    obtain ⟨l, hl⟩ := Option.isSome_iff_exists.mp hack'
    obtain ⟨v, hv', hvst, htake⟩ := State.takeTag_acked hf hust h53 h40 hl
    rw [htake, if_neg (Nat.not_lt.mpr hv)]
    refine ⟨hvst, ?_⟩
    obtain ⟨k, hk⟩ := Link.ackTo_some hl
    have hrun' := hv'.fenceRun
    rw [hk, hul] at hrun'
    rw [hrun', show min 64 (n + 1) = n + 1 by omega]

end

/-- Settles O31, flit by flit. -/
theorem flitsReceivedInSequence : Obligations.FlitsReceivedInSequence := by
  simp only [Obligations.FlitsReceivedInSequence, answers_iff]
  refine ⟨fun s p f ha hp harm hst => ⟨fun htag => ?_, fun htag hgood => ?_⟩,
    fun s p f ha hp hst hlock htag hfec hgood hb => tagParam_joins ha hp hst hlock htag hfec hgood hb,
    fun s p f rest ha hp harm hst hr hdue => replayTimeout_acts ha hp harm hst hr hdue⟩
  · refine seqFlit_acts ha hp hst htag fun t hbad hgood => ⟨hbad, fun hg hplain hv => ?_⟩
    have h := hgood hg hplain hv
    refine ⟨h.next, h.out, h.far, fun hd h2 hc hk => ?_, fun hd h1 h17 h18 h19 h27 hvc hmgt hc hmore => ?_⟩
    · have hbody : s.rxBody p f = f.body := if_neg (by simp [hc])
      rw [hbody] at h
      exact h.ctl hd h2 hc hk
    · have hbody : s.rxBody p f = f.body := if_neg (by simp [hc])
      rw [hbody] at h
      exact h.data hd h1 h17 h18 h19 h27 hvc hmgt hc hmore
  · refine tagReceive_takes ha hp hst htag hgood (fun v q h => h) ⟨fun hplain hv hw l hl => ?_, fun hplain hv => ?_, fun n h41 hteams hrun => ?_⟩
    · exact State.takeTag_replay (s := s.cleared) hp hst hplain hv hw hl
    · exact State.takeTag_credits (s := s.cleared) hp hst hplain hv
    · exact State.takeTag_fence (s := s.cleared) hp hst h41 hteams hrun

end Sys2Proof.Machine

namespace Sys2Proof.Machine

/-! ## Packets that hop -/

section
variable {s t u : State} {place i : Nat} {h : Held}

/-! ### The block's own accesses enter after what is there -/

/-- In `t` what stood at the injection point in `s` stands there still, at its head. -/
def InjGrows (s t : State) : Prop := s.inj <+: t.inj

theorem InjGrows.trans (h : InjGrows s t) (h' : InjGrows t u) : InjGrows s u := List.IsPrefix.trans h h'

theorem InjGrows.of_same {l : List Fld} (h : Same (mask l) s t) (hl : Fld.inj.bit &&& mask l = 0) : InjGrows s t := by
  unfold InjGrows
  rw [h .inj hl]

theorem State.form_grows (s : State) (h : Hd) (pay : List Byte) (k o n j : Nat) : InjGrows s (((s.form h pay).reinCharge k o n).useSlot j) := by
  obtain ⟨q, hq, -⟩ := s.form_inj h pay none none
  refine InjGrows.trans (t := s.form h pay) ?_ (.of_same (l := [.reins, .rrUsed]) (by simp) rfl)
  unfold InjGrows
  rw [hq]
  exact List.prefix_append _ _

theorem State.raSend_grows (s : State) (p : Nat) (wr : Bool) (x : RaAccess) : InjGrows s (s.raSend p wr x) := by
  unfold State.raSend
  dsimp only
  generalize hu : State.useSlot _ _ = u
  have hs : InjGrows s u := by
    rw [← hu]
    exact s.form_grows _ _ _ _ _ _
  clear hu
  have hra (v : State) (hv : Same (mask [.ra]) u v) : InjGrows s v := hs.trans (.of_same hv rfl)
  split
  · exact hra _ (by simp)
  · exact hra _ (by simp)

theorem State.raAccept_grows (s : State) (p : Nat) (wr : Bool) (x : RaAccess) : InjGrows s (s.raAccept p wr x) := by
  have hsent (v : State) (hv : Same (mask [.rg, .flt]) s v) : InjGrows s (v.raSend p wr x) :=
    (InjGrows.of_same hv rfl).trans (v.raSend_grows p wr x)
  unfold State.raAccept
  dsimp only
  split
  · exact .of_same (l := [.ra]) (by simp) rfl
  · split
    · exact .of_same (l := [.rg, .flt, .ra]) (by simp) rfl
    · generalize hu : (if wr = true then (s.takeInj 0x24 p).2.takeInj 0x25 p else (false, (s.takeInj 0x24 p).2)) = v
      have h2 : Same (mask [.rg, .flt]) s v.2 := by
        rw [← hu]
        split <;> simp
      have hrsp (tag o : Nat) (w : State) (hw : Same (mask [.rg, .flt]) s w) : InjGrows s (w.raRespond p tag wr o) :=
        (InjGrows.of_same hw rfl).trans (.of_same (l := [.ra]) (by simp) rfl)
      split
      · exact hrsp _ _ _ (h2.trans (by simp))
      · split
        · exact hrsp _ _ _ (h2.trans (by simp))
        · split
          · exact hrsp _ _ _ h2
          · split
            · exact hrsp _ _ _ h2
            · exact hsent _ h2

theorem State.raRelease_grows (s : State) : InjGrows s s.raRelease := by
  rw [State.raRelease_eq]
  refine foldl_keeps (R := InjGrows) (fun _ => List.prefix_rfl) InjGrows.trans _ (fun t p => ?_) _ _
  unfold State.raTry
  split
  · exact List.prefix_rfl
  · split
    · split
      · exact List.prefix_rfl
      · exact .of_same (l := [.reins]) (by simp) rfl
    · split
      · exact List.prefix_rfl
      · exact InjGrows.trans (.of_same (l := [.ra]) (by simp) rfl) (State.raAccept_grows _ _ _ _)

/-! ### The place that a packet leaves -/

/-- The packet that stood at index `i` of its place in `s` is gone from there in `t`. -/
structure Gone (s t : State) (place i : Nat) : Prop where
  basin : place < 12 → (t.link place).basin = dropAt (s.link place).basin i
  inj : place = 15 → dropAt s.inj i <+: t.inj
  queue : 16 ≤ place → (t.tow (place - 16)).queue = (s.tow (place - 16)).queue.drop 1

theorem Gone.then (h : Gone s t place i) (hb : place < 12 → (u.link place).basin = (t.link place).basin) (hi : InjGrows t u)
    (hq : 16 ≤ place → (u.tow (place - 16)).queue = (t.tow (place - 16)).queue) : Gone s u place i :=
  ⟨fun hp => (hb hp).trans (h.basin hp), fun hp => (h.inj hp).trans hi, fun hp => (hq hp).trans (h.queue hp)⟩

theorem State.tow_of_same {l : List Fld} (h : Same (mask l) s t) (hl : Fld.tows.bit &&& mask l = 0) (n : Nat) : t.tow n = s.tow n :=
  congrArg (fun m => SMap.get (fun _ => Tow.reset) m n) (h .tows hl).symm

theorem Gone.same (h : Gone s t place i) {l : List Fld} (hs : Same (mask l) t u) (hl : Fld.links.bit &&& mask l = 0)
    (hi : Fld.inj.bit &&& mask l = 0) (ht : Fld.tows.bit &&& mask l = 0) : Gone s u place i :=
  h.then (fun _ => by rw [State.link_of_same hs hl]) (.of_same hs hi) fun _ => by rw [State.tow_of_same hs ht]

theorem State.unhold_gone (s : State) (place i : Nat) (h : Held) : Gone s (s.unhold place i h) place i := by
  unfold State.unhold
  split
  · next hp =>
    refine ⟨fun _ => ?_, fun h15 => absurd h15 (by omega), fun h16 => absurd h16 (by omega)⟩
    rw [State.link_modLink_same]
  · next hp =>
    split
    · next h15 => exact ⟨fun h12 => absurd h12 hp, fun _ => List.prefix_rfl, fun h16 => absurd h16 (by omega)⟩
    · next h15 =>
      refine ⟨fun h12 => absurd h12 hp, fun h => absurd h h15, fun _ => ?_⟩
      generalize hu : s.modTow (place - 16) _ = u
      have hq : (u.tow (place - 16)).queue = (s.tow (place - 16)).queue.drop 1 := by
        rw [← hu, State.tow_modTow_same]
      unfold State.towDrained
      dsimp only
      split
      · rw [State.tow_modTow_same]
        exact hq
      · exact hq

/-- The end of a hop: from the injection point the block's own accesses follow. -/
def State.hopEnd (t : State) (place : Nat) : State := if place = 15 then t.raRelease else t

theorem State.hopEnd_same (t : State) (place : Nat) : Same (mask [.rg, .ra, .inj, .pseq, .reins, .rrUsed, .counts, .flt]) t (t.hopEnd place) := by
  unfold State.hopEnd
  split
  · simp
  · exact .refl _ t

theorem Gone.hopEnd (h : Gone s t place i) : Gone s (t.hopEnd place) place i := by
  have hs := t.hopEnd_same place
  refine h.then (fun _ => by rw [State.link_of_same hs rfl]) ?_ fun _ => by rw [State.tow_of_same hs rfl]
  unfold State.hopEnd
  split
  · exact t.raRelease_grows
  · exact List.prefix_rfl

/-! ### What a hop of a packet does by its fate -/

/-- Packet `h` stands whole at index `i` of `place`, first of its kind there, and nothing holds it. -/
structure Hops (s : State) (place i : Nat) (h : Held) : Prop where
  armed : s.flt.armed = none
  run : s.halt.st = .run
  held : s.heldAt place i = some h
  first : s.first place i h = true
  out : h.out = none
  more : h.more = false
  abort : place = 15 → s.abortHold = false

theorem Hops.head (hh : Hops s place i h) (hit : Option XbarHit) : s.hop place i hit = s.hopHead place i h hit := by
  obtain ⟨harm, hrun, hheld, hfirst, hout, hmore, habort⟩ := hh
  unfold State.hop
  rw [hheld]
  dsimp only
  rw [hout]
  dsimp only
  refine if_neg ?_
  rintro (hn | ⟨hp, hn | hn⟩)
  · exact hn hfirst
  · simp [State.haltedPkt, hrun] at hn
  · simp [habort hp] at hn

theorem State.berthEcc_unarmed (harm : s.flt.armed = none) (place : Nat) : s.berthEcc place = (false, s) := by
  unfold State.berthEcc
  split
  · exact State.takeEcc_unarmed harm _ _ _ _ _
  · rfl

theorem State.tableEcc_unarmed (harm : s.flt.armed = none) (place : Nat) (h : Held) (f : Fate) : s.tableEcc place h f = (f, s) := by
  unfold State.tableEcc
  simp only [State.takeEcc_unarmed harm, ite_self, Bool.false_eq_true, if_false]

theorem Hops.eject (hh : Hops s place i h) (hf : s.fate place h = .eject) (hit : Option XbarHit) :
    s.hop place i hit = s.hopEject place i h hit := by
  rw [hh.head]
  unfold State.hopHead
  simp only [hf, hh.more, State.berthEcc_unarmed hh.armed, State.tableEcc_unarmed hh.armed]
  rfl

theorem Hops.drop (hh : Hops s place i h) {why : Nat} (hf : s.fate place h = .drop why) (hit : Option XbarHit) :
    s.hop place i hit = s.hopDrop place i h why := by
  rw [hh.head]
  unfold State.hopHead
  simp only [hf, State.berthEcc_unarmed hh.armed, State.tableEcc_unarmed hh.armed]
  rfl

theorem Hops.leave (hh : Hops s place i h) {q v : Nat} {enter : Bool} (hf : s.fate place h = .leave q v enter none) (hit : Option XbarHit) :
    s.hop place i hit = (s.hopCopy place i h).hopLeave place i (((s.hopCopy place i h).heldAt place i).getD h) q v enter hit := by
  rw [hh.head]
  unfold State.hopHead
  simp only [hf, State.berthEcc_unarmed hh.armed, State.tableEcc_unarmed hh.armed]
  rfl

theorem Hops.tow (hh : Hops s place i h) {q v k : Nat} {enter : Bool} (hf : s.fate place h = .leave q v enter (some k)) (hit : Option XbarHit) :
    s.hop place i hit = s.hopTow place i h q k hit := by
  rw [hh.head]
  unfold State.hopHead
  simp only [hf, State.berthEcc_unarmed hh.armed, State.tableEcc_unarmed hh.armed]
  rfl

theorem State.crossing_unarmed (harm : s.flt.armed = none) : s.crossing none = (none, s) := by
  unfold State.crossing
  simp [harm]

end

end Sys2Proof.Machine

namespace Sys2Proof.Machine

/-! ## Packets that end, or leave a copy -/

section
variable {s t : State} {place i : Nat} {h : Held}

/-- A hop by its parts: the attempt, and then the block's own accesses. -/
theorem Meets.packetHop {P : State → Prop} (ha : s.alive = true) (hh : Hops s.cleared place i h)
    (hE : ∀ v q, P v → P (State.ended v q)) (hP : P ((s.cleared.hop place i none).hopEnd place)) : Meets (execPacketHop place i none s) P := by
  have hheld : s.heldAt place i = some h := hh.held
  unfold execPacketHop
  exact .run ha (by rw [hheld]; rfl) (hE _ _ hP)

theorem State.hopEject_ends (harm : s.flt.armed = none) (h1 : h.pkt.opcode ≠ 0xC1) (h3 : h.pkt.opcode ≠ 0xC3) :
    Gone s (s.hopEject place i h none) place i ∧
      (s.hopEject place i h none).eject = if h.abn.isSome then s.eject else s.eject ++ [{ h with since := s.now }] := by
  have hej : Same (mask [.links, .inj, .tows]) s (s.unhold place i h) := by simp
  have hgone := s.unhold_gone place i h
  unfold State.hopEject
  rw [State.crossing_unarmed harm]
  dsimp only
  generalize s.unhold place i h = u at hej hgone
  have heject : u.eject = s.eject := (hej .eject rfl).symm
  have hnow : u.now = s.now := (hej .now rfl).symm
  by_cases hab : h.abn.isSome = true
  · rw [if_pos (.inl hab), if_neg (by simp [Option.isSome_iff_ne_none.mp hab]), if_pos hab]
    exact ⟨hgone.same (l := [.counts]) (by simp) rfl rfl rfl, ((show Same (mask [.counts]) u (u.countDrop h.pkt) by simp) .eject rfl).symm.trans heject⟩
  · rw [if_neg (by simpa using hab), if_neg (by simp [h1, h3]), if_neg hab]
    exact ⟨⟨hgone.basin, hgone.inj, hgone.queue⟩, by rw [heject, hnow]⟩

/-- What the counters of a drop say, for a packet that came over a port. -/
structure DropCounted (s t : State) (place why : Nat) : Prop where
  route : why = 0x50 ∨ why = 0x51 ∨ why = 0x52 → t.reg 0x310 = (s.incReg 0x310).reg 0x310
  epoch : why = 0x314 → t.reg 0x314 = (s.incReg 0x314).reg 0x314
  key : why = 0x54 → t.reg (0x608 + 0x20 * place) = (s.incReg (0x608 + 0x20 * place)).reg (0x608 + 0x20 * place)
  bad : why = 0x56 → t.reg 0x204 = (s.incReg 0x204).reg 0x204

theorem State.routeDrop_reg (s : State) (a : Nat) : (s.routeDrop a).reg 0x310 = (s.incReg 0x310).reg 0x310 := by
  unfold State.routeDrop
  dsimp only
  split
  · exact State.reg_setReg_other _ _ (by omega)
  · rfl

theorem State.hopDrop_counts (s : State) (i : Nat) (h : Held) (why : Nat) (hp : place < 12) :
    DropCounted s (s.hopDrop place i h why) place why := by
  have hreg (o : Nat) : ((s.unhold place i h).countDrop h.pkt).reg o = s.reg o :=
    State.reg_of_rg ((show Same (mask [.links, .inj, .tows, .counts]) s ((s.unhold place i h).countDrop h.pkt) by simp) .rg rfl).symm o
  have harr : arrival place h = place := if_pos hp
  unfold State.hopDrop
  rw [harr]
  dsimp only
  generalize (s.unhold place i h).countDrop h.pkt = u at hreg
  refine ⟨?_, ?_, ?_, ?_⟩
  · rintro (rfl | rfl | rfl)
    · exact (State.raise_reg ..).trans ((u.routeDrop_reg place).trans (State.incReg_reg_congr (hreg _)))
    · exact (State.raise_reg ..).trans (State.incReg_reg_congr (hreg _))
    · exact (State.raise_reg ..).trans ((u.routeDrop_reg place).trans (State.incReg_reg_congr (hreg _)))
  · rintro rfl
    exact State.incReg_reg_congr (hreg _)
  · rintro rfl
    exact (State.raise_reg ..).trans (State.incReg_reg_congr (hreg _))
  · rintro rfl
    show (State.pktBad u h 0x204 0x56 2 _ false 5).reg 0x204 = _
    unfold State.pktBad
    rw [State.raise_reg, State.pktCap_reg _ _ _ _ _ (by unfold IsNoted IsLogLost logReg; omega)]
    exact State.incReg_reg_congr (hreg _)

theorem State.hopDrop_gone (s : State) (place i : Nat) (h : Held) (why : Nat) : Gone s (s.hopDrop place i h why) place i := by
  have hgone : Gone s ((s.unhold place i h).countDrop h.pkt) place i :=
    (s.unhold_gone place i h).same (l := [.counts]) (by simp) rfl rfl rfl
  unfold State.hopDrop
  dsimp only
  generalize (s.unhold place i h).countDrop h.pkt = u at hgone
  split
  · exact hgone.same (l := [.rg, .flt]) (by simp) rfl rfl rfl
  · exact hgone.same (l := [.rg, .flt]) (by simp) rfl rfl rfl
  · exact hgone.same (l := [.rg, .flt]) (by simp) rfl rfl rfl
  · exact hgone.same (l := [.rg, .flt]) (by simp) rfl rfl rfl
  · exact hgone.same (l := [.rg, .flt]) (by simp) rfl rfl rfl

theorem State.hopEnd_other {place : Nat} (hp : place < 12) (t : State) : t.hopEnd place = t := if_neg (by omega)

theorem State.hopEnd_eject (t : State) (place : Nat) : (t.hopEnd place).eject = t.eject := ((t.hopEnd_same place) .eject rfl).symm

theorem State.hopDrop_eject (s : State) (place i : Nat) (h : Held) (why : Nat) : (s.hopDrop place i h why).eject = s.eject :=
  ((show Same (mask [.rg, .inj, .tows, .counts, .links, .flt]) s (s.hopDrop place i h why) by simp) .eject rfl).symm

/-- A multicast packet that passes a member leaves its copy. -/
theorem State.hopCopy_copies (hp : place < 12) (hmode : h.pkt.rmode = 3) (hcop : h.copied = false) (hmore : h.more = false)
    (habn : h.abn = none) (hmem : s.mcastMember h.pkt = true) :
    (s.hopCopy place i h).eject = s.eject ++ [{ h with since := s.now, sent := 0, out := none }] := by
  unfold State.hopCopy
  rw [if_pos ⟨hp, hmode, by simp [hcop], by simp [hmore], by simp [habn], hmem⟩]
  rfl

theorem State.hopLeave_eject (s : State) (place i : Nat) (h : Held) (q v : Nat) (enter : Bool) (hit : Option XbarHit) :
    (s.hopLeave place i h q v enter hit).eject = s.eject :=
  ((show Same (mask [.out, .rg, .chans, .ev, .inj, .pseq, .tows, .counts, .links, .flt, .logs, .phys, .mons, .life, .cmap]) s
    (s.hopLeave place i h q v enter hit) by simp) .eject rfl).symm

end

end Sys2Proof.Machine

namespace Sys2Proof.Machine

/-! ## A packet that starts on a port -/

section
variable {s t u : State} {p q : Nat}

/-- No towpath entry is ON or DRAINING. -/
def NoTow (s : State) : Prop := ∀ e ∈ s.tows, e.2.st ≠ .on ∧ e.2.st ≠ .draining

theorem NoTow.of_tows (h : NoTow s) (ht : t.tows = s.tows) : NoTow t := by
  unfold NoTow
  rw [ht]
  exact h

theorem NoTow.of_same (h : NoTow s) {l : List Fld} (hs : Same (mask l) s t) (hl : Fld.tows.bit &&& mask l = 0) : NoTow t :=
  h.of_tows (hs .tows hl).symm

theorem NoTow.modTow (h : NoTow s) (n : Nat) {f : Tow → Tow} (hf : ∀ x : Tow, (f x).st = x.st) : NoTow (s.modTow n f) := by
  have hn : (s.tow n).st ≠ .on ∧ (s.tow n).st ≠ .draining :=
    SMap.get_of_all (P := fun x : Tow => x.st ≠ .on ∧ x.st ≠ .draining) (fun _ => by decide) h n
  intro e he
  have hset : e ∈ s.tows ∨ e = (n, f (s.tow n)) := by
    have he' : e ∈ SMap.set (fun _ => Tow.reset) s.tows n (f (s.tow n)) := he
    unfold SMap.set at he'
    split at he'
    · exact .inl (SMap.mem_erase he')
    · exact (SMap.mem_insert he').symm
  rcases hset with he | rfl
  · exact h e he
  · rw [hf]
    exact hn

/-- With no towpath entry that carries there is no slot of one, and none is framed. -/
theorem NoTow.frame (h : NoTow s) (n keep : Nat) : State.frame n q keep s = s := by
  have howner : s.slotOwner q = none := by
    unfold State.slotOwner
    dsimp only
    rw [Option.map_eq_none_iff, List.find?_eq_none]
    intro e he
    simp [(h e he).1, (h e he).2]
  cases n with
  | zero => rfl
  | succ n =>
    unfold State.frame
    rw [howner]

theorem State.tagBack_noTow (h : NoTow s) (p : Nat) : NoTow (s.tagBack p).2 := by
  unfold State.tagBack
  dsimp only
  split
  · exact h
  · split
    · split
      · exact (h.modTow (f := fun x => { x with told := x.freed }) _ fun _ => rfl).of_tows rfl
      · exact h.of_tows rfl
    · split
      · exact (h.modTow (f := fun x => { x with told := x.freed }) _ fun _ => rfl).of_tows rfl
      · exact h.of_tows rfl

theorem State.driveFlit_noTow (h : NoTow s) (p team tag : Nat) (body : BitVec 2048) (bad fec : Bool) :
    NoTow (s.driveFlit p team tag body bad fec) := by
  have hnull (t : State) (ht : NoTow t) : NoTow (t.spareSlot p team) := by
    have h1 : NoTow (t.slotDue team).2 := ht.of_same (l := [.phys]) (by simp) rfl
    unfold State.spareSlot
    dsimp only
    split
    · unfold State.sendNull
      dsimp only
      split
      · exact (State.tagBack_noTow h1 p).of_same (l := [.out, .phys]) (by simp) rfl
      · exact (State.tagBack_noTow h1 p).of_same (l := [.out, .phys]) (by simp) rfl
    · exact h1
  unfold State.driveFlit
  dsimp only
  split
  · exact h.of_same (l := [.links, .out, .phys]) (by simp) rfl
  · exact hnull _ (h.of_same (l := [.links, .out, .phys]) (by simp) rfl)

theorem State.transmit_noTow (h : NoTow s) (p core fseq : Nat) (body : BitVec 2048) : NoTow (s.transmit p core fseq body) := by
  have h1 : NoTow (s.takeLnkInj p).2 := h.of_same (l := [.rg]) (by simp) rfl
  have h2 : NoTow ((s.takeLnkInj p).2.nextTeam p).2 := h1.of_same (l := [.links]) (by simp) rfl
  exact State.driveFlit_noTow (State.tagBack_noTow h2 p) _ _ _ _ _ _

/-- Sending a flit moves a link on by its rotation, and by what it reports. -/
theorem State.transmit_link (s : State) (p core fseq : Nat) (body : BitVec 2048) :
    ∃ r, ((s.transmit p core fseq body).link p).quiet = ({ s.link p with rot := r } : Link).quiet := by
  have h1 : (s.takeLnkInj p).2.link p = s.link p := State.link_of_same (l := [.rg]) (by simp) rfl p
  have h3 : Hushed ((s.takeLnkInj p).2.nextTeam p).2 (s.transmit p core fseq body) :=
    ((State.tagBack_hushed _ p).mpr (.refl _)).trans (State.driveFlit_hushed _ _ _ _ _ _ _)
  refine ⟨(((s.takeLnkInj p).2.nextTeam p).2.link p).rot, (h3 p).trans ?_⟩
  unfold State.nextTeam
  dsimp only
  rw [State.link_modLink_same, h1]

/-- A sequenced flit sent on an ACTIVE port enters its replay buffer. -/
theorem State.sendSeq_link (hst : (s.link p).st = .active) (core : Nat) (body : BitVec 2048) :
    ∃ r, ((s.sendSeq p core body).link p).quiet = ({ s.link p with
      fseq := ((s.link p).fseq + 1) % 4096
      replay := (s.link p).replay ++ [⟨(s.link p).fseq, core, body, 1, s.now⟩], rot := r } : Link).quiet := by
  unfold State.sendSeq
  extract_lets l wait s1 acc more s2 s3
  have hwait : wait = false := by simp [wait, l, hst]
  have h1 : s1.link p = { s.link p with
      fseq := ((s.link p).fseq + 1) % 4096
      replay := (s.link p).replay ++ [⟨(s.link p).fseq, core, body, 1, s.now⟩] } := by
    refine (State.link_modLink_same _ _ _).trans ?_
    rw [hwait]
    rfl
  have h2 : s2.link p = s1.link p := by
    dsimp only [s2]
    split
    · rfl
    · rfl
  have h3 : s3.link p = s2.link p := by
    dsimp only [s3]
    split
    · rfl
    · rfl
  rw [if_neg (by simp [hwait])]
  clear_value s3
  obtain ⟨r, hr⟩ := s3.transmit_link p core l.fseq body
  rw [h3, h2, h1] at hr
  exact ⟨r, hr⟩

theorem State.sendSeq_noTow (h : NoTow s) (p core : Nat) (body : BitVec 2048) : NoTow (s.sendSeq p core body) := by
  unfold State.sendSeq
  extract_lets l wait s1 acc more s2 s3
  have h2 : NoTow s2 := by
    dsimp only [s2]
    split
    · exact h.of_tows rfl
    · exact h.of_tows rfl
  have h3 : NoTow s3 := by
    dsimp only [s3]
    split
    · exact h2.of_tows rfl
    · exact h2
  split
  · exact h3
  · exact State.transmit_noTow h3 _ _ _ _

/-- From `s` to `t` port `q` has sent `n` flits, each kept for a replay. -/
structure SentOn (s t : State) (q n : Nat) : Prop where
  noTow : NoTow s → NoTow t
  st : (s.link q).st = .active → (t.link q).st = .active
  replay : (t.link q).replay.length = (s.link q).replay.length + n
  ctlWait : (t.link q).ctlWait = (s.link q).ctlWait
  steered : Steered s t
  berthed : Berthed s t
  inj : t.inj = s.inj
  eject : t.eject = s.eject

theorem SentOn.refl (s : State) (q : Nat) : SentOn s s q 0 := ⟨id, id, rfl, rfl, .refl s, .refl s, rfl, rfl⟩

theorem SentOn.trans {m n : Nat} (h : SentOn s t q m) (h' : SentOn t u q n) : SentOn s u q (m + n) :=
  ⟨h'.noTow ∘ h.noTow, h'.st ∘ h.st, by rw [h'.replay, h.replay, Nat.add_assoc], h'.ctlWait.trans h.ctlWait, h.steered.trans h'.steered,
    h.berthed.trans h'.berthed, h'.inj.trans h.inj, h'.eject.trans h.eject⟩

theorem State.sendSeq_sentOn (hst : (s.link q).st = .active) (core : Nat) (body : BitVec 2048) : SentOn s (s.sendSeq q core body) q 1 := by
  obtain ⟨r, hr⟩ := State.sendSeq_link hst core body
  have hsame : Same (mask [.out, .rg, .tows, .links, .phys, .mons, .cmap]) s (s.sendSeq q core body) := by simp
  have hsteer : Steered s (s.sendSeq q core body) := (State.sendSeq_steered s q core body).mpr (.refl s)
  refine ⟨fun h => State.sendSeq_noTow h _ _ _, fun h => (hsteer.st q).trans h, ?_, (congrArg Link.ctlWait hr :), hsteer, s.sendSeq_berthed _ _ _,
    (hsame .inj rfl).symm, (hsame .eject rfl).symm⟩
  have hrep : ((s.sendSeq q core body).link q).replay = (s.link q).replay ++ [⟨(s.link q).fseq, core, body, 1, s.now⟩] :=
    congrArg Link.replay hr
  rw [hrep, List.length_append, List.length_singleton]

/-- A list of flits sent one by one. -/
theorem SentOn.foldl {α : Type} {F : State → α → State} (hF : ∀ t x, NoTow t → ∃ core body, F t x = t.sendSeq q core body) (l : List α) :
    ∀ s : State, NoTow s → (s.link q).st = .active → SentOn s (l.foldl F s) q l.length := by
  induction l with
  | nil => exact fun s _ _ => .refl s q
  | cons x l ih =>
    intro s hn hst
    obtain ⟨core, body, hx⟩ := hF s x hn
    have h1 : SentOn s (F s x) q 1 := by
      rw [hx]
      exact State.sendSeq_sentOn hst core body
    have h2 := h1.trans (ih (F s x) (h1.noTow hn) (h1.st hst))
    rw [List.foldl_cons, List.length_cons, Nat.add_comm]
    exact h2

end

end Sys2Proof.Machine

namespace Sys2Proof.Machine

/-! ## A whole packet sent at once -/

section
variable {s t u : State} {place i q v : Nat} {h : Held}

/-- A link without its berths. -/
def Link.emptied (l : Link) : Link := { l with basin := [], freed := [] }

/-- In `t` the links are as in `s`, but for their berths. -/
def Rebased (s t : State) : Prop := ∀ p, (t.link p).emptied = (s.link p).emptied

theorem Rebased.steered (h : Rebased s t) : Steered s t := fun p => by
  have hp := congrArg (fun l => ({ l.quiet with fseq := 0, rot := 0, replay := [], ctlWait := [] } : Link)) (h p)
  exact hp

theorem Rebased.modLink (s : State) (p : Nat) {f : Link → Link} (hf : ∀ l : Link, (f l).emptied = l.emptied) : Rebased s (s.modLink p f) := by
  intro r
  by_cases hr : r = p
  · rw [hr, State.link_modLink_same, hf]
  · rw [State.link_modLink_other _ _ hr]

theorem State.setHeld_port (hp : place < 12 ∨ place = 15) (s : State) (i : Nat) (h : Held) :
    Rebased s (s.setHeld place i h) ∧ Same (mask [.links, .inj]) s (s.setHeld place i h) := by
  unfold State.setHeld
  split
  · exact ⟨Rebased.modLink s place fun _ => rfl, by simp⟩
  · next h12 =>
    rw [if_pos (hp.resolve_left h12)]
    exact ⟨fun _ => rfl, by simp⟩

theorem State.unhold_port (hp : place < 12 ∨ place = 15) (s : State) (i : Nat) (h : Held) :
    Rebased s (s.unhold place i h) ∧ Same (mask [.links, .inj]) s (s.unhold place i h) := by
  unfold State.unhold
  split
  · exact ⟨Rebased.modLink s place fun _ => rfl, by simp⟩
  · next h12 =>
    rw [if_pos (hp.resolve_left h12)]
    exact ⟨fun _ => rfl, by simp⟩

theorem dropAt_eq_eraseIdx {α : Type} (l : List α) (i : Nat) : dropAt l i = l.eraseIdx i := by
  induction l generalizing i with
  | nil => rfl
  | cons x xs ih =>
    cases i with
    | zero => rfl
    | succ i => exact congrArg (x :: ·) (ih i)

theorem dropAt_setAt {α : Type} (l : List α) (i : Nat) (x : α) : dropAt (setAt l i x) i = dropAt l i := by
  rw [dropAt_eq_eraseIdx, dropAt_eq_eraseIdx, setAt_eq_set, List.eraseIdx_set_eq]

/-- What is gone after a change of the packet is gone from where it stood. -/
theorem Gone.of_setHeld (hp : place < 12 ∨ place = 15) (hg : Gone (s.setHeld place i h) t place i) : Gone s t place i := by
  obtain ⟨hb, hi, -⟩ := hg
  unfold State.setHeld at hb hi
  refine ⟨fun h12 => ?_, fun h15 => ?_, fun h16 => absurd h16 (by omega)⟩
  · rw [hb h12, if_pos h12, State.link_modLink_same]
    exact dropAt_setAt _ _ _
  · have hi' := hi h15
    rw [if_neg (by omega), if_pos h15] at hi'
    rwa [dropAt_setAt] at hi'

/-- The whole packet has left on port `q`, and its place is free. -/
structure Left (s t : State) (place i q n : Nat) : Prop where
  gone : Gone s t place i
  replay : (t.link q).replay.length = (s.link q).replay.length + n
  cred : (t.link q).cred = (s.link q).cred
  eject : t.eject = s.eject

/-- A packet that has come whole goes on with all its flits where the replay buffer has room. -/
theorem State.goOn_left (hp : place < 12 ∨ place = 15) (hst : (s.link q).st = .active) (hctl : (s.link q).ctlWait = []) (hn : NoTow s)
    (hcompat : s.portCompat q = false) (hmore : h.more = false) (hsent : h.sent = 0) (hroom : (s.link q).replay.length + h.flits ≤ 1024) :
    Left s (s.goOn place i h q v) place i q h.flits := by
  obtain ⟨hbase, hsame⟩ := s.unhold_port hp i h
  have hgone := s.unhold_gone place i h
  have hlen : (s.bodies q h).length = h.flits := by simp [State.bodies, hmore, hcompat]
  have hnew : ((s.bodies q h).drop h.sent).take (1024 - (s.link q).replay.length) = s.bodies q h := by
    rw [hsent, List.drop_zero, List.take_of_length_le (by omega)]
  unfold State.goOn
  rw [if_neg (by simp [hst])]
  extract_lets bs new upto done s1 s2
  have hb : new.length = h.flits := by
    show (((s.bodies q h).drop h.sent).take _).length = _
    rw [hnew, hlen]
  have hdone : done = true := by simp [done, upto, hmore, hb, bs, hlen, hsent]
  have h1 : s1 = s.unhold place i h := if_pos hdone
  have hn1 : NoTow s1 := by
    rw [h1]
    exact hn.of_same hsame rfl
  have hlink : (s1.link q).emptied = (s.link q).emptied := by
    rw [h1]
    exact hbase q
  have hst1 : (s1.link q).st = .active := (congrArg Link.st hlink :).trans hst
  have hfold : SentOn s1 s2 q (new.zip (List.range new.length)).length := by
    refine SentOn.foldl (fun t x ht => ?_) _ s1 hn1 hst1
    obtain ⟨b, j⟩ := x
    dsimp only
    rw [ht.frame]
    exact ⟨_, _, rfl⟩
  have hz : (new.zip (List.range new.length)).length = h.flits := by simp [hb]
  rw [hz] at hfold
  have hej1 : s1.eject = s.eject := by
    rw [h1]
    exact (hsame .eject rfl).symm
  have hg1 : Gone s s1 place i := by
    rw [h1]
    exact hgone
  clear_value s2 s1
  obtain ⟨-, hst2, hrep2, hctl2, hsteer2, hber2, hinj2, hej2⟩ := hfold
  have hctl1 : (s1.link q).ctlWait = [] := (congrArg Link.ctlWait hlink :).trans hctl
  have hfl := State.flushCtl_acked (p := q) (hst2 hst1)
  have hflinj : Same (mask [.out, .rg, .tows, .links, .phys, .mons, .cmap]) s2 (s2.flushCtl q) := by simp
  refine ⟨hg1.then ?_ ?_ ?_, ?_, ?_, ?_⟩
  · exact fun _ => (hber2.trans (s2.flushCtl_berthed q)) place
  · show s1.inj <+: (s2.flushCtl q).inj
    rw [← hflinj .inj rfl, hinj2]
  · intro h16
    omega
  · rw [hfl.replay (hctl2.trans hctl1), hrep2]
    have hrep1 : (s1.link q).replay = (s.link q).replay := (congrArg Link.replay hlink :)
    rw [hrep1]
  · exact (hfl.cred.trans (congrArg Link.cred (hsteer2 q) :)).trans (congrArg Link.cred hlink :)
  · exact ((hflinj .eject rfl).symm.trans hej2).trans hej1

end

end Sys2Proof.Machine

namespace Sys2Proof.Machine

/-! ## A packet that may start on a port starts there -/

section
variable {s t u : State} {place i q v : Nat} {h : Held}

/-- The virtual channel is told apart from the opcode and the key. -/
theorem Packet.setVc_opcode (p : Packet) (v : Nat) : (p.setVc v).opcode = p.opcode := by
  have hvc : p.vc = p.h0.toNat / 256 % 8 := by simp [Packet.vc, qf, fld, Nat.shiftRight_eq_div_pow]
  have hlt := p.h0.isLt
  simp only [Packet.setVc, Packet.opcode, qf, fld, quad, put, BitVec.toNat_ofNat, hvc, Nat.shiftRight_eq_div_pow]
  omega

theorem Packet.setVc_pkey (p : Packet) (v : Nat) : (p.setVc v).pkey = p.pkey := by
  have hvc : p.vc = p.h0.toNat / 256 % 8 := by simp [Packet.vc, qf, fld, Nat.shiftRight_eq_div_pow]
  have hlt := p.h0.isLt
  simp only [Packet.setVc, Packet.pkey, qf, fld, quad, put, BitVec.toNat_ofNat, hvc, Nat.shiftRight_eq_div_pow]
  omega

/-- From `s` to `t` port `q` has paid a credit of channel `v`. -/
structure CredPaid (s t : State) (q v : Nat) : Prop where
  cred : (t.link q).cred = setAt (s.link q).cred v ((s.link q).cred.getD v 0 - 1)
  st : (t.link q).st = (s.link q).st
  ctlWait : (t.link q).ctlWait = (s.link q).ctlWait
  replay : (t.link q).replay = (s.link q).replay
  berthed : Berthed s t
  same : Same (mask [.chans, .links, .mons, .cmap]) s t

theorem State.pay_paid (s : State) (q v : Nat) (p : Packet) : CredPaid s (((s.noteSlot p q).spend q v).useVc q v) q v := by
  have hsame : Same (mask [.chans, .links, .mons, .cmap]) s (((s.noteSlot p q).spend q v).useVc q v) := by simp
  have h0 : (s.noteSlot p q).link q = s.link q := State.link_of_same (l := [.chans]) (by simp) rfl q
  have h0' (r : Nat) : ((s.noteSlot p q).link r).basin = (s.link r).basin := by
    rw [State.link_of_same (l := [.chans]) (s := s) (by simp) rfl r]
  generalize s.noteSlot p q = u at hsame h0 h0'
  have hspend (r : Nat) : (u.spend q v).link r =
      (u.modLink q fun l => { l with cred := setAt l.cred v (l.cred.getD v 0 - 1) }).link r := by
    unfold State.spend
    generalize (u.modLink q fun l => { l with cred := setAt l.cred v (l.cred.getD v 0 - 1) }) = w
    refine State.link_of_same (l := [.mons, .cmap]) ?_ rfl r
    dsimp only
    split <;> split <;> simp
  have h1 : (u.spend q v).link q = { s.link q with cred := setAt (s.link q).cred v ((s.link q).cred.getD v 0 - 1) } := by
    rw [hspend, State.link_modLink_same, h0]
  have hb : Berthed s (u.spend q v) := fun r => by
    rw [hspend, Berthed.modLink u q (f := fun l => { l with cred := setAt l.cred v (l.cred.getD v 0 - 1) }) (fun _ => rfl) r, h0']
  generalize u.spend q v = w at hsame h1 hb
  unfold State.useVc at hsame ⊢
  by_cases h5 : v = 5
  · rw [if_pos h5] at hsame ⊢
    exact ⟨by rw [h1], by rw [h1], by rw [h1], by rw [h1], hb, hsame⟩
  · rw [if_neg h5] at hsame ⊢
    refine ⟨?_, ?_, ?_, ?_, hb.trans (Berthed.modLink w q fun _ => rfl), hsame⟩
    · rw [State.link_modLink_same, h1]
    · rw [State.link_modLink_same, h1]
    · rw [State.link_modLink_same, h1]
    · rw [State.link_modLink_same, h1]

theorem State.xbarCut_none (s : State) (q : Nat) (h : Held) : s.xbarCut q h none = (h, s) := by
  unfold State.xbarCut
  obtain ⟨_, _, _, _, _, _, abn, _, _, _, _, _, _⟩ := h
  cases abn
  · rfl
  · rfl

/-- What has paid its credit leaves whole where the replay buffer has room. -/
theorem CredPaid.left (hpaid : CredPaid s u q v) (hp : place < 12 ∨ place = 15) (hst : (s.link q).st = .active) (hctl : (s.link q).ctlWait = [])
    (hcompat : s.portCompat q = false) (hmore : h.more = false) (hsent : h.sent = 0)
    (hroom : (s.link q).replay.length + h.flits ≤ 1024) (hn : NoTow s) :
    Gone u ((u.setHeld place i h).goOn place i h q v) place i ∧
      (((u.setHeld place i h).goOn place i h q v).link q).replay.length = (s.link q).replay.length + h.flits ∧
      (((u.setHeld place i h).goOn place i h q v).link q).cred = setAt (s.link q).cred v ((s.link q).cred.getD v 0 - 1) := by
  obtain ⟨hcred, hst', hctl', hrep, -, hsame⟩ := hpaid
  obtain ⟨hbase, hsame1⟩ := u.setHeld_port hp i h
  have hrep1 : ((u.setHeld place i h).link q).replay = (u.link q).replay := (congrArg Link.replay (hbase q) :)
  have hcred1 : ((u.setHeld place i h).link q).cred = (u.link q).cred := (congrArg Link.cred (hbase q) :)
  have hst1 : ((u.setHeld place i h).link q).st = (u.link q).st := (congrArg Link.st (hbase q) :)
  have hctl1 : ((u.setHeld place i h).link q).ctlWait = (u.link q).ctlWait := (congrArg Link.ctlWait (hbase q) :)
  have hleft : Left (u.setHeld place i h) ((u.setHeld place i h).goOn place i h q v) place i q h.flits := by
    refine State.goOn_left hp (hst1.trans (hst'.trans hst)) (hctl1.trans (hctl'.trans hctl)) ((hn.of_same hsame rfl).of_same hsame1 rfl) ?_
      hmore hsent ?_
    · rw [State.portCompat_of_same hsame1 rfl, State.portCompat_of_same hsame rfl, hcompat]
    · rw [hrep1, hrep]
      exact hroom
  exact ⟨hleft.gone.of_setHeld hp, by rw [hleft.replay, hrep1, hrep], by rw [hleft.cred, hcred1, hcred]⟩

theorem State.hopLeave_left (hp : place < 12 ∨ place = 15) (harm : s.flt.armed = none) (hrun : s.halt.st = .run)
    (habort : place = 15 → s.abortHold = false) (hkey : 0xC1 ≤ h.pkt.opcode ∨ s.keyAdmitted q h.pkt.pkey = true)
    (hcompat : s.portCompat q = false) (hst : (s.link q).st = .active) (hctl : (s.link q).ctlWait = []) {enter : Bool}
    (hcred : s.hasCredit q v enter = true) (hturn : s.vcTurn q v = true) (hmore : h.more = false) (hsent : h.sent = 0)
    (hpos : 0 < h.flits) (hroom : (s.link q).replay.length + h.flits ≤ 1024) (hn : NoTow s) :
    Gone s (s.hopLeave place i h q v enter none) place i ∧
      ((s.hopLeave place i h q v enter none).link q).replay.length = (s.link q).replay.length + h.flits ∧
      ((s.hopLeave place i h q v enter none).link q).cred = setAt (s.link q).cred v ((s.link q).cred.getD v 0 - 1) := by
  have hstart : s.mayStart q place h = true := by
    by_cases h15 : place = 15
    · simp [State.mayStart, State.haltedPkt, hrun, hctl, habort h15]
    · simp [State.mayStart, State.haltedPkt, hrun, hctl, h15]
  have hbodies : s.bodies q h ≠ [] := by simp [State.bodies, hmore, hcompat]; omega
  unfold State.hopLeave
  rw [State.crossing_unarmed harm]
  dsimp only
  generalize hpk : (if v = h.pkt.vc then h.pkt else h.pkt.setVc v) = p
  have hkept : p.opcode = h.pkt.opcode ∧ p.pkey = h.pkt.pkey := by
    rw [← hpk]
    split
    · exact ⟨rfl, rfl⟩
    · exact ⟨h.pkt.setVc_opcode v, h.pkt.setVc_pkey v⟩
  rw [if_neg (by rw [hkept.1, hkept.2]; rintro ⟨hlt, hno⟩; exact hkey.elim (by omega) hno), if_neg (by simp [hcompat]),
    if_neg (by simp [hcred, hstart, hturn, hbodies]; omega), State.xbarCut_none]
  dsimp only
  generalize (if v = 5 then 0 else s.markLevel q v) = mark
  have hpay := s.pay_paid q v p
  generalize ((s.noteSlot p q).spend q v).useVc q v = w at hpay
  generalize hu : (if mark ≤ p.cmark then w else w.modCmap q fun c => { c with marked := c.marked + 1 }) = u
  have hpaid : CredPaid s u q v := by
    rw [← hu]
    split
    · exact hpay
    · exact ⟨hpay.cred, hpay.st, hpay.ctlWait, hpay.replay, hpay.berthed, hpay.same.trans (by simp)⟩
  generalize hh1 : ({ h with pkt := if mark = 0 then p else p.raiseMark mark, out := some (q, v, none) } : Held) = h1
  have hm1 : h1.more = false := by rw [← hh1, ← hmore]
  have hs1 : h1.sent = 0 := by rw [← hh1, ← hsent]
  have hf1 : h1.flits = h.flits := by rw [← hh1]
  obtain ⟨hgone, hrep, hcr⟩ := hpaid.left (i := i) hp hst hctl hcompat hm1 hs1 (by rw [hf1]; exact hroom) hn
  rw [hf1] at hrep
  refine ⟨⟨fun h12 => ?_, fun h15 => ?_, fun h16 => absurd h16 (by omega)⟩, hrep, hcr⟩
  · rw [hgone.basin h12, hpaid.berthed]
  · have hinj := hgone.inj h15
    rwa [← hpaid.same .inj rfl] at hinj

end

end Sys2Proof.Machine

namespace Sys2Proof.Machine

/-! ## A packet of a towpath entry begins to leave -/

section
variable {s t u : State} {place i q k : Nat} {h : Held}

/-! ### What a flit of a towpath entry moves -/

/-- In `t` no entry has another credit, and no port another replay buffer. -/
structure Stowed (s t : State) : Prop where
  cred : ∀ n, (t.tow n).hopCred = (s.tow n).hopCred
  replay : ∀ p, (t.link p).replay = (s.link p).replay

theorem Stowed.refl (s : State) : Stowed s s := ⟨fun _ => rfl, fun _ => rfl⟩
theorem Stowed.trans (h : Stowed s t) (h' : Stowed t u) : Stowed s u :=
  ⟨fun n => (h'.cred n).trans (h.cred n), fun p => (h'.replay p).trans (h.replay p)⟩

theorem Stowed.modLink (s : State) (p : Nat) {f : Link → Link} (hf : ∀ l : Link, (f l).replay = l.replay) : Stowed s (s.modLink p f) := by
  refine ⟨fun _ => rfl, fun r => ?_⟩
  by_cases hr : r = p
  · rw [hr, State.link_modLink_same, hf]
  · rw [State.link_modLink_other _ _ hr]

theorem Stowed.modTow (s : State) (n : Nat) {f : Tow → Tow} (hf : ∀ x : Tow, (f x).hopCred = x.hopCred) : Stowed s (s.modTow n f) := by
  refine ⟨fun m => ?_, fun _ => rfl⟩
  by_cases hm : m = n
  · rw [hm, State.tow_modTow_same, hf]
  · rw [State.tow_modTow_other _ _ hm]

theorem State.setHeld_stowed (s : State) (place i : Nat) (h : Held) : Stowed s (s.setHeld place i h) := by
  unfold State.setHeld
  split
  · exact .modLink _ _ fun _ => rfl
  · split
    · exact ⟨fun _ => rfl, fun _ => rfl⟩
    · exact .modTow _ _ fun _ => rfl

theorem State.towDrained_stowed (s : State) (n : Nat) : Stowed s (s.towDrained n) := by
  unfold State.towDrained
  dsimp only
  split
  · exact .modTow _ _ fun _ => rfl
  · exact .refl s

theorem State.unhold_stowed (s : State) (place i : Nat) (h : Held) : Stowed s (s.unhold place i h) := by
  unfold State.unhold
  split
  · exact .modLink _ _ fun _ => rfl
  · split
    · exact ⟨fun _ => rfl, fun _ => rfl⟩
    · exact (Stowed.modTow s _ (f := fun x => { x with queue := x.queue.drop 1, freed := (x.freed + 1) % 8 }) fun _ => rfl).trans
        (State.towDrained_stowed _ _)

/-- A sequenced flit enters the replay buffer of its port. -/
theorem State.sendSeq_replay (s : State) (p core : Nat) (body : BitVec 2048) :
    ∃ f, ((s.sendSeq p core body).link p).replay = (s.link p).replay ++ [f] ∧ f.body = body := by
  unfold State.sendSeq
  extract_lets l wait s1 acc more s2 s3
  obtain ⟨f, h1, hbody⟩ : ∃ f, (s1.link p).replay = (s.link p).replay ++ [f] ∧ f.body = body :=
    ⟨_, congrArg Link.replay (State.link_modLink_same _ _ _), rfl⟩
  have h2 : s2.link p = s1.link p := by
    dsimp only [s2]
    split
    · rfl
    · rfl
  have h3 : s3.link p = s2.link p := by
    dsimp only [s3]
    split
    · rfl
    · rfl
  rw [← h2, ← h3] at h1
  clear_value s3
  refine ⟨f, ?_, hbody⟩
  split
  · exact h1
  · obtain ⟨r, hr⟩ := s3.transmit_link p core l.fseq body
    have hrep : ((s3.transmit p core l.fseq body).link p).replay = (s3.link p).replay := (congrArg Link.replay hr :)
    rw [hrep, h1]

/-- From `s` to `t` entry `k` has gained no credit, and what stood in the replay buffer of port `q` stands there still, at its head. -/
structure Runs (s t : State) (k q : Nat) : Prop where
  cred : (t.tow k).hopCred ≤ (s.tow k).hopCred
  replay : (s.link q).replay <+: (t.link q).replay

theorem Runs.refl (s : State) : Runs s s k q := ⟨Nat.le_refl _, List.prefix_rfl⟩
theorem Runs.trans (h : Runs s t k q) (h' : Runs t u k q) : Runs s u k q := ⟨h'.cred.trans h.cred, h.replay.trans h'.replay⟩

theorem Stowed.runs (h : Stowed s t) : Runs s t k q := ⟨(h.cred k).le, by rw [h.replay]⟩

theorem State.sendSeq_runs (s : State) (core : Nat) (body : BitVec 2048) : Runs s (s.sendSeq q core body) k q := by
  obtain ⟨f, hf, -⟩ := s.sendSeq_replay q core body
  refine ⟨(congrArg Tow.hopCred ((s.sendSeq_towed q core body).tow k) :).le, ?_⟩
  rw [hf]
  exact List.prefix_append _ _

theorem State.towBegin_runs (s : State) (h : Held) : Runs s (s.towBegin q k h).2 k q := by
  unfold State.towBegin
  split
  · exact .refl s
  · have h0 : Runs s (s.noteSlot h.pkt q) k q := by
      have hs : Same (mask [.chans]) s (s.noteSlot h.pkt q) := by simp
      exact ⟨by rw [State.tow_of_same hs rfl], by rw [State.link_of_same hs rfl]⟩
    refine h0.trans ⟨?_, List.prefix_rfl⟩
    dsimp only
    rw [State.tow_modTow_same]
    exact Nat.sub_le _ _

/-- One flit of an entry: its head pays, its place or what is left of it follows, and the flit is sent. -/
theorem State.towFlit_runs (s : State) (place i : Nat) (h : Held) : Runs s (s.towFlit q k place i h) k q := by
  have h0 := s.towBegin_runs (q := q) (k := k) h
  unfold State.towFlit
  generalize s.towBegin q k h = r at h0
  obtain ⟨x, s1⟩ := r
  dsimp only
  refine (h0.trans ?_).trans (State.sendSeq_runs _ _ _)
  split
  · exact (State.unhold_stowed _ _ _ _).runs
  · exact (State.setHeld_stowed _ _ _ _).runs

theorem State.towRun_runs (n : Nat) (s : State) : Runs s (State.towRun n true q k s) k q := by
  induction n generalizing s with
  | zero => exact .refl s
  | succ n ih =>
    unfold State.towRun
    dsimp only
    split
    · split
      · exact (s.towFlit_runs _ _ _).trans (ih _)
      · exact .refl s
    · exact .refl s

theorem State.flushCtl_runs (s : State) : Runs s (s.flushCtl q) k q := by
  unfold State.flushCtl
  dsimp only
  split
  · exact .refl s
  · generalize (if s.startedOn q = true then _ else _ : List (Nat × BitVec 2048)) = go
    refine (Stowed.modLink s q (f := fun l => { l with ctlWait := l.ctlWait.drop go.length }) fun _ => rfl).runs.trans ?_
    generalize s.modLink q (fun l => { l with ctlWait := l.ctlWait.drop go.length }) = u
    exact foldl_keeps (R := fun a b => Runs a b k q) (fun a => .refl a) Runs.trans
      (fun (a : State) (e : Nat × BitVec 2048) => a.sendSeq q 2 e.2) (fun a e => a.sendSeq_runs 2 e.2) go u

/-- The head of a packet pays a credit of its entry, and its first flit enters the replay buffer. -/
theorem State.towFlit_first (s : State) (place i : Nat) (hout : h.out = none) (habn : h.abn = none) (hcred : 1 ≤ (s.tow k).hopCred) :
    ((s.towFlit q k place i h).tow k).hopCred < (s.tow k).hopCred ∧
      ∃ f, ((s.towFlit q k place i h).link q).replay = (s.link q).replay ++ [f] ∧ f.body = h.pkt.flit h.sent := by
  have hbegin : s.towBegin q k h = ({ h with out := some (q, h.pkt.vc, some k) },
      (s.noteSlot h.pkt q).modTow k fun x => { x with hopCred := x.hopCred - 1 }) := if_neg (by simp [hout])
  have hs : Same (mask [.chans]) s (s.noteSlot h.pkt q) := by simp
  have hc1 : (((s.noteSlot h.pkt q).modTow k fun x => { x with hopCred := x.hopCred - 1 }).tow k).hopCred = (s.tow k).hopCred - 1 := by
    rw [State.tow_modTow_same, State.tow_of_same hs rfl]
  have hl1 : ((s.noteSlot h.pkt q).modTow k fun x => { x with hopCred := x.hopCred - 1 }).link q = s.link q :=
    (rfl : _ = (s.noteSlot h.pkt q).link q).trans (State.link_of_same hs rfl q)
  unfold State.towFlit
  rw [hbegin]
  generalize (s.noteSlot h.pkt q).modTow k (fun x => { x with hopCred := x.hopCred - 1 }) = s1 at hc1 hl1
  dsimp only
  have hput (v : State) (hv : Stowed s1 v) (core : Nat) (b : BitVec 2048) : ((v.sendSeq q core b).tow k).hopCred < (s.tow k).hopCred ∧
      ∃ f, ((v.sendSeq q core b).link q).replay = (s.link q).replay ++ [f] ∧ f.body = b := by
    have hsent : ((v.sendSeq q core b).tow k).hopCred = (v.tow k).hopCred := (congrArg Tow.hopCred ((v.sendSeq_towed q core b).tow k) :)
    have hrep := v.sendSeq_replay q core b
    rw [hv.replay, hl1] at hrep
    refine ⟨?_, hrep⟩
    rw [hsent, hv.cred, hc1]
    omega
  have hbody : (if decide (h.abn.getD (h.sent + 1) ≤ h.sent) = true then (0 : BitVec 2048) else h.pkt.flit h.sent) = h.pkt.flit h.sent :=
    if_neg (by simp [habn])
  unfold State.sendData
  rw [hbody]
  refine hput _ ?_ _ _
  split
  · exact State.unhold_stowed _ _ _ _
  · exact State.setHeld_stowed _ _ _ _

end

end Sys2Proof.Machine

namespace Sys2Proof.Machine

/-! ## Every hop of a packet -/

section
variable {s t u : State} {place i q v k : Nat} {h : Held} {enter : Bool}

/-! ### The entry whose slot is at hand -/

/-- The first entry that a test finds is found again where its own value has been written and passes the test. -/
theorem SMap.find?_insert {α : Type} (P : Nat × α → Bool) {m : SMap α} {k : Nat} (x : α) (hm : (m.find? P).map (·.1) = some k)
    (hx : P (k, x) = true) : ((SMap.insert m k x).find? P).map (·.1) = some k := by
  induction m with
  | nil => simp at hm
  | cons e m ih =>
    obtain ⟨j, y⟩ := e
    unfold SMap.insert
    split
    · rw [List.find?_cons_of_pos hx]
      rfl
    · split
      · rw [List.find?_cons_of_pos hx]
        rfl
      · next hj =>
        by_cases hy : P (j, y) = true
        · rw [List.find?_cons_of_pos hy] at hm
          exact absurd (Option.some.inj hm) hj
        · rw [List.find?_cons_of_neg hy] at hm ⊢
          exact ih hm

/-- The entry whose slot is at hand carries. -/
def Tow.live (x : Tow) : Bool := decide (x.st = .on) || decide (x.st = .draining)

theorem State.slotOwner_modTow (hown : s.slotOwner q = some k) {f : Tow → Tow} (hf : (f (s.tow k)).live = true) :
    (s.modTow k f).slotOwner q = some k := by
  unfold State.slotOwner at hown ⊢
  dsimp only at hown ⊢
  have hreset : f (s.tow k) ≠ Tow.reset := by
    intro hr
    rw [hr] at hf
    exact absurd hf (by decide)
  have hset : (s.modTow k f).tows = SMap.insert s.tows k (f (s.tow k)) := if_neg hreset
  rw [hset]
  refine SMap.find?_insert _ _ hown ?_
  obtain ⟨e, he, rfl⟩ := Option.map_eq_some_iff.mp hown
  have hp := List.find?_some he
  simp only [Bool.and_eq_true] at hp ⊢
  exact ⟨⟨⟨hf, hp.1.1.2⟩, hp.1.2⟩, hp.2⟩

/-- What a packet is due depends on the towpaths by what their entries read as. -/
theorem State.fate_of_tows {m : SMap Tow} (hm : ∀ n, ({ s with tows := m } : State).tow n = s.tow n) (place : Nat) (h : Held) :
    ({ s with tows := m } : State).fate place h = s.fate place h := by
  have htow (n : Nat) : ({ s with tows := m } : State).towFate n = s.towFate n := by
    unfold State.towFate
    rw [hm]
    rfl
  have hroute (here t : Pos) (travel : Option Nat) : ({ s with tows := m } : State).routeFate h here t travel = s.routeFate h here t travel := by
    unfold State.routeFate
    simp only [htow]
    rfl
  unfold State.fate
  simp only [htow, hroute]
  rfl

theorem State.towReady_of_tows {m : SMap Tow} (hm : ∀ n, ({ s with tows := m } : State).tow n = s.tow n) (k q room : Nat) :
    ({ s with tows := m } : State).towReady k q room = s.towReady k q room := by
  have hnext : ({ s with tows := m } : State).towNext k = s.towNext k := by
    unfold State.towNext
    rw [hm]
    rfl
  unfold State.towReady
  rw [hnext]
  simp only [hm, State.fate_of_tows hm]
  rfl

/-- The packet of an entry that may send is the entry's next one, and its head finds a credit. -/
theorem State.towReady_some {room : Nat} (hready : s.towReady k q room = some (place, i, h)) :
    s.towNext k = some (place, i, h) ∧ (h.out = none → 1 ≤ (s.tow k).hopCred) := by
  unfold State.towReady at hready
  split at hready
  · exact absurd hready (by simp)
  · next place' i' x hx =>
    dsimp only at hready
    split at hready
    · next hc =>
      obtain ⟨rfl, rfl, rfl⟩ : place' = place ∧ i' = i ∧ x = h := by simpa using hready
      refine ⟨hx, fun hout => ?_⟩
      simp only [hout, Option.isSome_none, Bool.false_or, Bool.and_eq_true, decide_eq_true_eq] at hc
      omega
    · exact absurd hready (by simp)

/-- A towpath packet written back as it stands leaves its entry ready. -/
theorem State.setHeld_ready (hown : s.slotOwner q = some k) (hlive : (s.tow k).live = true) {room : Nat}
    (hready : s.towReady k q room = some (place, i, h)) :
    (s.setHeld place i h).slotOwner q = some k ∧ (s.setHeld place i h).towReady k q room = some (place, i, h) := by
  obtain ⟨hnext, -⟩ := State.towReady_some hready
  unfold State.towNext at hnext
  split at hnext
  · obtain ⟨x, hx, he⟩ := Option.map_eq_some_iff.mp hnext
    obtain ⟨rfl, rfl, rfl⟩ : 15 = place ∧ _ = i ∧ x = h := by simpa using he
    have hsame : s.setHeld 15 (s.inj.findIdx fun h => decide (h.pkt.rmode = 2) && decide (h.dir = some (k + 8))) x = s := by
      show ({ s with inj := setAt s.inj _ x } : State) = s
      obtain ⟨hlt, hget⟩ := List.getElem?_eq_some_iff.mp hx
      rw [setAt_eq_set, ← hget, List.set_getElem_self]
    rw [hsame]
    exact ⟨hown, hready⟩
  · obtain ⟨x, hx, he⟩ := Option.map_eq_some_iff.mp hnext
    obtain ⟨rfl, rfl, rfl⟩ : 16 + k = place ∧ 0 = i ∧ x = h := by simpa using he
    have hput : s.setHeld (16 + k) 0 x = s.modTow k fun y => { y with queue := setAt y.queue 0 x } := by
      unfold State.setHeld
      rw [if_neg (by omega), if_neg (by omega), Nat.add_sub_cancel_left]
    have hqueue : setAt (s.tow k).queue 0 x = (s.tow k).queue := by
      obtain ⟨l, hl⟩ : ∃ l, (s.tow k).queue = x :: l := by
        cases hq : (s.tow k).queue with
        | nil => simp [hq] at hx
        | cons y l => exact ⟨l, by simpa [hq] using hx⟩
      rw [hl]
      rfl
    have htow (n : Nat) : (s.modTow k fun y => { y with queue := setAt y.queue 0 x }).tow n = s.tow n := by
      by_cases hn : n = k
      · rw [hn, State.tow_modTow_same, hqueue]
      · exact State.tow_modTow_other _ _ hn
    rw [hput]
    refine ⟨State.slotOwner_modTow hown hlive, ?_⟩
    unfold State.modTow at htow ⊢
    rw [State.towReady_of_tows htow, hready]

/-- A packet of the entry whose slot is at hand begins to leave. -/
theorem State.hopTow_begins (harm : s.flt.armed = none) (hlive : (s.tow k).live = true) (hkey : s.keyAdmitted q h.pkt.pkey = true)
    (hown : s.slotOwner q = some k) (hready : s.towReady k q (1024 - (s.link q).replay.length) = some (place, i, h))
    (hout : h.out = none) (habn : h.abn = none) :
    ((s.hopTow place i h q k none).tow k).hopCred < (s.tow k).hopCred ∧
      ∃ f l, ((s.hopTow place i h q k none).link q).replay = (s.link q).replay ++ f :: l ∧ f.body = h.pkt.flit h.sent := by
  have hcred := (State.towReady_some hready).2 hout
  have hstow := s.setHeld_stowed place i h
  obtain ⟨hown1, hready1⟩ := State.setHeld_ready hown hlive hready
  unfold State.hopTow
  rw [if_neg (by simp [hkey]), if_neg (by simp [hready]), State.crossing_unarmed harm]
  dsimp only
  rw [State.xbarCut_none]
  dsimp only
  generalize s.setHeld place i h = s1 at hstow hown1 hready1
  have hrun : State.towRun 128 false q k s1 = State.towRun 127 true q k (s1.towFlit q k place i h) := by
    conv_lhs => unfold State.towRun
    dsimp only
    rw [if_pos hown1, hstow.replay, hready1]
  obtain ⟨hless, f, hf, hbody⟩ := s1.towFlit_first (q := q) (k := k) place i hout habn (by rw [hstow.cred]; exact hcred)
  have hrest : Runs (s1.towFlit q k place i h) ((State.towRun 128 false q k s1).flushCtl q) k q := by
    rw [hrun]
    exact (State.towRun_runs _ _).trans (State.flushCtl_runs _)
  obtain ⟨l, hl⟩ := hrest.replay
  rw [hf, hstow.replay, List.append_assoc] at hl
  rw [hstow.cred] at hless
  exact ⟨hrest.cred.trans_lt hless, f, l, hl.symm, hbody⟩

end

end Sys2Proof.Machine

namespace Sys2Proof.Machine

/-! ## What a hop of a packet does -/

section
variable {s t u : State} {place i q v k : Nat} {h : Held} {enter : Bool}

theorem State.towFate_leaves {tow : Option Nat} (hf : s.towFate k = .leave q v enter tow) : tow = some k ∧ (s.link q).st = .active := by
  unfold State.towFate at hf
  dsimp only at hf
  split at hf
  · exact absurd hf (by simp)
  · split at hf
    · exact absurd hf (by simp)
    · split at hf
      · next hact =>
        obtain ⟨hq, -, -, ht⟩ : _ = q ∧ 6 = v ∧ false = enter ∧ some k = tow := by simpa using hf
        exact ⟨ht.symm, by rw [← hq]; exact hact.1⟩
      · exact absurd hf (by simp)

theorem State.towFate_live {tow : Option Nat} (hf : s.towFate k = .leave q v enter tow) : (s.tow k).live = true := by
  unfold State.towFate at hf
  dsimp only at hf
  split at hf
  · exact absurd hf (by simp)
  · next hst =>
    unfold Tow.live
    by_cases hon : (s.tow k).st = .on
    · simp [hon]
    · simpa [hon] using hst

/-- What leaves a hop queue is its entry's. -/
theorem State.fate_leaves {tow : Option Nat} (hf : s.fate place h = .leave q v enter tow) :
    (16 ≤ place → s.towFate (place - 16) = .leave q v enter tow) ∧ (∀ k, tow = some k → (s.tow k).live = true) := by
  have hmcast {here t : Pos} {p : Packet} {dir : Nat} {e : Bool} (hm : s.mcastFate here t p dir e = .leave q v enter tow) : tow = none := by
    unfold State.mcastFate at hm
    generalize excFind (s.bank p.epoch) p.vc p.pkey t (if e = true then some (dir / 2) else none) = x at hm
    split at hm
    · exact absurd hm (by simp)
    · split at hm
      · exact absurd hm (by simp)
      · split at hm
        · exact (by simpa using hm : _ ∧ _ ∧ _ ∧ none = tow).2.2.2.symm
        · exact absurd hm (by simp)
  have htow {n : Nat} (hn : s.towFate n = .leave q v enter tow) : ∀ k, tow = some k → (s.tow k).live = true := by
    rintro k rfl
    obtain ⟨hk, -⟩ := State.towFate_leaves hn
    rw [Option.some.inj hk]
    exact State.towFate_live hn
  unfold State.fate at hf
  dsimp only at hf
  split at hf
  · exact absurd hf (by simp)
  · split at hf
    · exact absurd hf (by simp)
    · split at hf
      · split at hf <;> exact absurd hf (by simp)
      · split at hf
        · exact absurd hf (by simp)
        · split at hf
          · exact absurd hf (by simp)
          · split at hf
            · exact ⟨fun _ => hf, htow hf⟩
            · next hp =>
              refine ⟨fun h16 => absurd h16 hp, ?_⟩
              unfold State.routeFate at hf
              dsimp only at hf
              split at hf
              · split at hf
                · split at hf
                  · exact htow hf
                  · exact absurd hf (by simp)
                · exact absurd hf (by simp)
              · split at hf
                · split at hf
                  · simp [hmcast hf]
                  · simp [hmcast hf]
                  · exact absurd hf (by simp)
                · split at hf
                  · exact absurd hf (by simp)
                  · simp [(by simpa using hf : _ ∧ _ ∧ _ ∧ none = tow).2.2.2.symm]
                  · exact absurd hf (by simp)
                  · exact absurd hf (by simp)

/-- A packet that leaves on no towpath stands in a basin or at the injection point. -/
theorem Hops.port (hh : Hops s place i h) (hf : s.fate place h = .leave q v enter none) : place < 12 ∨ place = 15 := by
  have hheld := hh.held
  unfold State.heldAt at hheld
  split at hheld
  · next hp => exact .inl hp
  · split at hheld
    · next hp => exact .inr hp
    · split at hheld
      · next hp =>
        exact absurd (State.towFate_leaves ((State.fate_leaves hf).1 hp.1)).1 (by simp)
      · exact absurd hheld (by simp)

theorem State.hopCopy_other (hm : h.pkt.rmode ≠ 3) : s.hopCopy place i h = s := if_neg (by simp [hm])

theorem State.hopEnd_tow (t : State) (place n : Nat) : (t.hopEnd place).tow n = t.tow n := State.tow_of_same (t.hopEnd_same place) rfl n

theorem State.hopEnd_link (t : State) (place p : Nat) : (t.hopEnd place).link p = t.link p := State.link_of_same (t.hopEnd_same place) rfl p

end

/-- Settles O27, by what the packet is due. -/
theorem packetsHop : Obligations.PacketsHop := by
  simp only [Obligations.PacketsHop, answers_iff]
  intro s place i h ha harm hrun hheld hfirst hout hmore habort
  have hh : Hops s.cleared place i h := ⟨harm, hrun, hheld, hfirst, hout, hmore, habort⟩
  refine ⟨fun hf h1 h3 => ?_, fun why hf => ?_, fun q v enter hf hkey hcompat hmode hst hctl hcred hturn hsent hpos hroom hn => ?_,
    fun q v enter k hf hkey hown hready habn => ?_, fun q v enter hf hp hmode hcop habn hmem => ?_⟩
  · refine Meets.packetHop ha hh (fun _ _ h => h) ?_
    rw [hh.eject hf]
    obtain ⟨hgone, heject⟩ := State.hopEject_ends (s := s.cleared) (place := place) (i := i) harm h1 h3
    obtain ⟨hb, hi, hq⟩ := hgone.hopEnd
    exact ⟨⟨hb, hi, hq⟩, (State.hopEnd_eject _ _).trans heject⟩
  · refine Meets.packetHop ha hh (fun _ _ h => h) ?_
    rw [hh.drop hf]
    obtain ⟨hb, hi, hq⟩ := (s.cleared.hopDrop_gone place i h why).hopEnd
    refine ⟨⟨hb, hi, hq⟩, (State.hopEnd_eject _ _).trans (State.hopDrop_eject _ _ _ _ _), fun hp => ?_⟩
    rw [State.hopEnd_other hp]
    obtain ⟨hroute, hepoch, hkey, hbad⟩ := s.cleared.hopDrop_counts i h why hp
    exact ⟨hroute, hepoch, hkey, hbad⟩
  · have hp := hh.port hf
    refine Meets.packetHop ha hh (fun _ _ h => h) ?_
    rw [hh.leave hf, State.hopCopy_other hmode, hh.held]
    dsimp only [Option.getD_some]
    obtain ⟨hgone, hrep, hcr⟩ := State.hopLeave_left (s := s.cleared) (i := i) hp harm hrun habort hkey hcompat hst hctl hcred hturn hmore hsent hpos hroom hn
    obtain ⟨hb, hi, hq⟩ := hgone.hopEnd
    exact ⟨⟨hb, hi, hq⟩, (State.hopEnd_eject _ _).trans (State.hopLeave_eject _ _ _ _ _ _ _ _), by rw [State.hopEnd_link]; exact hrep,
      by rw [State.hopEnd_link]; exact hcr⟩
  · refine Meets.packetHop ha hh (fun _ _ h => h) ?_
    rw [hh.tow hf]
    obtain ⟨hless, hrep⟩ := State.hopTow_begins (s := s.cleared) harm ((State.fate_leaves hf).2 k rfl) hkey hown hready hout habn
    exact ⟨by rw [State.hopEnd_tow]; exact hless, by rw [State.hopEnd_link]; exact hrep⟩
  · refine Meets.packetHop ha hh (fun _ _ h => h) ?_
    rw [hh.leave hf]
    exact ((State.hopEnd_eject _ _).trans (State.hopLeave_eject _ _ _ _ _ _ _ _)).trans
      (State.hopCopy_copies (s := s.cleared) hp hmode hcop hmore habn hmem)

end Sys2Proof.Machine

namespace Sys2Proof.Machine

/-! ## Collective packets at their entry -/

section
variable {s t u : State} {i g r : Nat} {h : Held} {p : Packet} {c : CollInst} {seq : HWord}

theorem State.group_of_same {l : List Fld} (h : Same (mask l) s t) (hl : Fld.groups.bit &&& mask l = 0) (g : Nat) : t.group g = s.group g :=
  congrArg (fun m => SMap.get (fun _ => Group.reset) m g) (h .groups hl).symm

theorem State.group_modGroup_same (s : State) (g : Nat) (f : Group → Group) : (s.modGroup g f).group g = f (s.group g) :=
  SMap.get_set_same _ _ _ _

theorem State.collProgress_group (s : State) (g own n : Nat) : (s.collProgress g own).group n = s.group n :=
  State.group_of_same (l := [.chans]) (by simp) rfl n

theorem State.inst_modInst (s : State) (g : Nat) (f : CollInst → CollInst) :
    ((s.modInst g f).group g).inst = (s.group g).inst.map f :=
  congrArg Group.inst (s.group_modGroup_same g _)

/-- A collective changed is the collective put. -/
theorem State.modInst_put (hinst : (s.group g).inst = some c) (f : CollInst → CollInst) : s.modInst g f = s.modInst g (fun _ => f c) := by
  unfold State.modInst State.modGroup
  dsimp only
  rw [hinst]
  rfl

/-- The member of rank `r` is the chip that a group's tables put there. -/
def State.grpChips (s : State) (g : Nat) : List Nat := (List.range (grpSize (s.grpWord g))).map (grpChip (s.grpWord g) s.rlist)

/-- How far a packet's sequence is ahead of the group's. -/
def State.colAhead (s : State) (p : Packet) : Nat :=
  (BitVec.ofNat 16 (qf p.h5 32 16) -
    (match (s.group (qf p.h5 20 9)).inst with | some c => c.seq | none => (s.group (qf p.h5 20 9)).nseq) : HWord).toNat

/-! ### What a collective packet meets at its group -/

/-- A packet of a sequence past is dropped. -/
theorem State.colAccept_past (hv : (s.grpWord (qf p.h5 20 9) 0).testBit 0 = true) (hd : 2 ^ 15 ≤ s.colAhead p) :
    s.colAccept p = s.colDrop p := by
  unfold State.colAccept
  dsimp only
  rw [if_neg (by simp [hv])]
  exact if_pos hd

/-- A packet that is not of what follows is dropped where the sequence in turn has not started. -/
theorem State.colAccept_early (hv : (s.grpWord (qf p.h5 20 9) 0).testBit 0 = true) (hinst : (s.group (qf p.h5 20 9)).inst = none)
    (hseq : (s.group (qf p.h5 20 9)).nseq = BitVec.ofNat 16 (qf p.h5 32 16)) (hop : p.opcode ≠ 0x80)
    (hsrc : (s.grpChips (qf p.h5 20 9)).contains p.src = true) : s.colAccept p = s.colDrop p := by
  obtain ⟨r, hr⟩ : ∃ r, (s.grpChips (qf p.h5 20 9)).findIdx? (fun x => x = p.src) = some r := by
    refine Option.isSome_iff_exists.mp ?_
    rw [List.findIdx?_isSome, List.any_eq_true]
    exact ⟨p.src, by simpa using hsrc, by simp⟩
  unfold State.grpChips at hr
  unfold State.colAccept
  dsimp only
  rw [if_neg (by simp [hv]), hinst, ← hseq, BitVec.sub_self]
  dsimp only
  rw [if_neg (by decide), if_neg (by simp [hop]), hr]
  exact if_neg (by simp)

/-- COL_READY of an entry with nothing in progress is held. -/
theorem State.colAccept_ready (hv : (s.grpWord (qf p.h5 20 9) 0).testBit 0 = true) (hinst : (s.group (qf p.h5 20 9)).inst = none)
    (hseq : (s.group (qf p.h5 20 9)).nseq = BitVec.ofNat 16 (qf p.h5 32 16)) (hop : p.opcode = 0x80)
    (hmarks : ∀ m ∈ (s.group (qf p.h5 20 9)).marks, m.1 ≠ BitVec.ofNat 16 (qf p.h5 32 16)) :
    ((s.colAccept p).group (qf p.h5 20 9)).ready =
      (s.group (qf p.h5 20 9)).ready ++ [⟨BitVec.ofNat 16 (qf p.h5 32 16), p.src, p.h5, p.h6, p.h7⟩] := by
  unfold State.colAccept
  dsimp only
  rw [if_neg (by simp [hv]), hinst]
  dsimp only
  rw [hseq, BitVec.sub_self, if_neg (by decide), if_pos (by simp [hop]), if_neg (by simpa using fun x y h => hmarks _ h rfl)]
  rw [State.group_of_same (l := [.chans]) (State.colMoves_same _ _ _ (by simp) |>.mpr (.refl _ _)) rfl, State.group_modGroup_same]

/-- A packet of the collective in progress, with its signature, acts there. -/
theorem State.colAccept_inst (hv : (s.grpWord (qf p.h5 20 9) 0).testBit 0 = true) (hinst : (s.group (qf p.h5 20 9)).inst = some c)
    (hseq : c.seq = BitVec.ofNat 16 (qf p.h5 32 16)) (hended : c.ended = none) (hhdr : c.hdr = false)
    (hr : (s.grpChips (qf p.h5 20 9)).findIdx? (fun x => x = p.src) = some r)
    (hdiff : sigDiff (c.plan.sig5 c.seq) c.plan.sig6 p.h5.toNat p.h6.toNat = 0) :
    s.colAccept p = if p.opcode = 0x80 then
        ((s.collProgress (qf p.h5 20 9) c.chan).takeReady (qf p.h5 20 9) ⟨BitVec.ofNat 16 (qf p.h5 32 16), p.src, p.h5, p.h6, p.h7⟩).collTurn
          (qf p.h5 20 9)
      else ((s.collProgress (qf p.h5 20 9) c.chan).modInst (qf p.h5 20 9) (fun c => c.take r p)).collTurn (qf p.h5 20 9) := by
  unfold State.grpChips at hr
  unfold State.colAccept
  dsimp only
  rw [if_neg (by simp [hv]), hinst]
  dsimp only
  rw [← hseq, BitVec.sub_self, if_neg (by decide), if_neg (by simp [hhdr]), hr]
  dsimp only
  rw [if_neg (by simp), if_neg (by simp [hended, hhdr]), if_neg (by simp [hdiff])]

end

end Sys2Proof.Machine

namespace Sys2Proof.Machine

/-! ## What collective packets do -/

section
variable {s t u : State} {i g r : Nat} {h : Held} {p : Packet} {c : CollInst} {seq : HWord}

/-- READY of an agreeing signature opens its streams. -/
theorem State.takeReady_opens (hinst : (s.group g).inst = some c) (hended : c.ended = none) {tok : ReadyTok}
    (hr : c.plan.chips.findIdx? (fun x => x = tok.src) = some r)
    (hdiff : sigDiff (c.plan.sig5 c.seq) c.plan.sig6 tok.h5.toNat tok.h6.toNat = 0) :
    s.takeReady g tok = s.modInst g (fun _ => { c with
      outs := c.outs.map (fun o =>
        let key := c.plan.keyOf (qf tok.h7 0 2) (qf tok.h7 2 1) (qf tok.h7 3 2)
        if o.rank = r ∧ o.key = key ∧ ¬ o.ready then { o with ready := true, credit := firstCredit key } else o) }) := by
  unfold State.takeReady
  rw [hinst]
  dsimp only
  rw [if_neg (by simp [hended]), hr]
  dsimp only
  rw [if_neg (by simp [hdiff]), State.modInst_put hinst]

theorem CollInst.take_data (hop : p.opcode = 0x81) (ht : c.plan.ctype ≠ 5) : c.take r p = c.arrive r p := by
  unfold CollInst.take
  dsimp only
  rw [hop]
  exact if_neg ht

theorem CollInst.take_slot (hop : p.opcode = 0x82) (ht : c.plan.ctype = 5) (hfit : p.offset + p.pay.length ≤ c.plan.cap * c.plan.rb) :
    c.take r p = { c with
      got := setAt c.got r (c.got.getD r 0 + p.pay.length)
      fin := c.fin ++ [⟨[(c.plan.dst + r * c.plan.cap * c.plan.rb + p.offset, p.pay)], false, some p⟩] } := by
  unfold CollInst.take
  dsimp only
  rw [hop]
  exact if_neg (by simp [ht]; omega)

theorem CollInst.take_done (hop : p.opcode = 0x83) : c.take r p = c.done r (qf p.h7 32 32) := by
  unfold CollInst.take
  dsimp only
  rw [hop]
  rfl

theorem CollInst.take_rel (hop : p.opcode = 0x84) (ht : c.plan.ctype = 6) : c.take r p = c.starRelease (qf p.h7 3 2) := by
  unfold CollInst.take
  dsimp only
  rw [hop]
  exact if_pos ht

theorem State.colDrop_other (h1 : p.opcode ≠ 0x81) (h2 : p.opcode ≠ 0x82) : s.colDrop p = s.incReg 0x16C := by
  unfold State.colDrop
  exact if_neg (by simp [h1, h2])

/-- An acknowledgement returns a credit and ends a packet's wait before the entry goes on. -/
theorem State.colAckIn_acts {w : ColWire} (hinst : (s.group g).inst = some c) (h3 : p.aux % 16 ≠ 0xA) (h5 : p.aux % 16 ≠ 5) :
    ∃ v, s.colAckIn g c w r p = v.collTurn g ∧ Same (mask [.chans, .reins, .groups, .tows]) s v ∧ v.chans = (s.collProgress g c.chan).chans ∧
      (v.group g).inst = some { c with
        outs := c.outs.map (fun o => if o.rank = r ∧ o.key = w.key then { o with credit := o.credit + 1 } else o)
        wires := (c.wires.map (fun x => if x = w then { x with left := x.left.filter (fun q => q ≠ r) } else x)).filter
          (fun x => x.left ≠ []) } := by
  unfold State.colAckIn
  extract_lets outcome s1 s2 s3
  have h1 : (s1.group g).inst = some { c with
        outs := c.outs.map (fun o => if o.rank = r ∧ o.key = w.key then { o with credit := o.credit + 1 } else o)
        wires := (c.wires.map (fun x => if x = w then { x with left := x.left.filter (fun q => q ≠ r) } else x)).filter
          (fun x => x.left ≠ []) } := by
    dsimp only [s1]
    rw [State.inst_modInst, State.group_of_same (l := [.chans, .reins]) (s := s) (by simp) rfl, hinst]
    rfl
  have hs1 : Same (mask [.chans, .reins, .groups]) s s1 := by simp [s1]
  have hc1 : s1.chans = (s.collProgress g c.chan).chans := by
    have hs : Same (mask [.reins, .groups]) (s.collProgress g c.chan) s1 := by simp [s1]
    exact (hs .chans rfl).symm
  have hs2 : Same (mask [.tows]) s1 s2 := by
    dsimp only [s2]
    split
    · simp
    · exact .refl _ _
  refine ⟨s3, rfl, ?_⟩
  have hs3 : s3 = s2 := if_neg (by simp [outcome, h3, h5])
  rw [hs3]
  refine ⟨(hs1.mono (by simp)).trans (hs2.mono (by simp)), (hs2 .chans rfl).symm.trans hc1, ?_⟩
  rw [State.group_of_same hs2 rfl]
  exact h1

/-- An abort of the collective in progress ends it before the entry goes on. -/
theorem State.collStop_ends (hinst : (s.group g).inst = some c) (hended : c.ended = none) (status outcome addr : Nat) :
    ∃ c', ((s.collStop g status outcome addr false).group g).inst = some c' ∧ c'.ended = some (status, outcome, addr) ∧ c'.queue = [] ∧
      c'.src = [] := by
  unfold State.collStop
  rw [hinst]
  dsimp only
  rw [if_neg (by simp [hended]), State.inst_modInst]
  show ∃ c', Option.map _ (s.group g).inst = some c' ∧ _
  rw [hinst]
  exact ⟨_, rfl, rfl, rfl, rfl⟩

/-- An abort of a sequence that has not started is marked. -/
theorem State.collMark_marks (hmarks : ∀ m ∈ (s.group g).marks, m.1 ≠ seq) (reason outcome : Nat) :
    ((s.collMark g seq reason outcome).group g).marks = (s.group g).marks ++ [(seq, reason, outcome)] := by
  unfold State.collMark
  dsimp only
  rw [if_neg (by simpa using fun x y h => hmarks _ h rfl)]
  generalize hu : s.modGroup g _ = u
  have hg : (u.group g).marks = (s.group g).marks ++ [(seq, reason, outcome)] := by
    rw [← hu, State.group_modGroup_same]
  have hfold (l : List Nat) : Same (mask [.rg]) u (l.foldl (fun t _ => t.incReg 0x16C) u) :=
    foldl_keeps (R := Same (mask [.rg])) (fun v => .refl _ v) Same.trans (fun (t : State) (_ : Nat) => t.incReg 0x16C)
      (fun v _ => by simp) l u
  rw [State.group_of_same (hfold _) rfl]
  exact hg

end

end Sys2Proof.Machine

namespace Sys2Proof.Machine

/-! ## Collective packets, row by row -/

section
variable {s : State} {i r : Nat} {h : Held} {c : CollInst}

theorem Accepts.tbl (ha : Accepts s i h) : (s.accepted i h).tbl = s.tbl := (ha.same .tbl rfl).symm

theorem Accepts.grpWord (ha : Accepts s i h) (g k : Nat) : (s.accepted i h).grpWord g k = s.grpWord g k := by
  unfold State.grpWord State.force
  rw [ha.tbl]

theorem Accepts.grpChips (ha : Accepts s i h) (g : Nat) : (s.accepted i h).grpChips g = s.grpChips g := by
  unfold State.grpChips State.grpWord State.rlist State.force
  rw [ha.tbl]

theorem Accepts.group (ha : Accepts s i h) (g : Nat) : (s.accepted i h).group g = s.group g := State.group_of_same ha.same rfl g

theorem Accepts.colAhead (ha : Accepts s i h) {n : Nat} (hd : n ≤ s.colAhead h.pkt) : n ≤ (s.accepted i h).colAhead h.pkt := by
  unfold State.colAhead at hd ⊢
  rw [ha.group]
  exact hd

/-- What a dropped packet leaves: the groups, and one more in the count of drops. -/
theorem Accepts.colDropped (ha : Accepts s i h) (h1 : h.pkt.opcode ≠ 0x81) (h2 : h.pkt.opcode ≠ 0x82)
    (hdrop : (s.accepted i h).colAccept h.pkt = (s.accepted i h).colDrop h.pkt) (l : List Instr) :
    (((s.accepted i h).colAccept h.pkt).ended l).groups = s.groups ∧
      (((s.accepted i h).colAccept h.pkt).ended l).reg 0x16C = ((s.accepted i h).incReg 0x16C).reg 0x16C := by
  rw [hdrop, State.colDrop_other h1 h2]
  exact ⟨(ha.same .groups rfl).symm, rfl⟩

/-- An agreeing packet of the collective in progress puts there what the collective becomes. -/
theorem Accepts.colActs (ha : Accepts s i h) (hv : (s.grpWord (qf h.pkt.h5 20 9) 0).testBit 0 = true)
    (hinst : (s.group (qf h.pkt.h5 20 9)).inst = some c) (hseq : c.seq = BitVec.ofNat 16 (qf h.pkt.h5 32 16))
    (hended : c.ended = none) (hhdr : c.hdr = false) (hr : (s.grpChips (qf h.pkt.h5 20 9)).findIdx? (fun x => x = h.pkt.src) = some r)
    (hdiff : sigDiff (c.plan.sig5 c.seq) c.plan.sig6 h.pkt.h5.toNat h.pkt.h6.toNat = 0) (hop : h.pkt.opcode ≠ 0x80)
    {e : CollInst} (he : c.take r h.pkt = e) :
    (s.accepted i h).colAccept h.pkt =
      (((s.accepted i h).collProgress (qf h.pkt.h5 20 9) c.chan).modInst (qf h.pkt.h5 20 9) (fun _ => e)).collTurn (qf h.pkt.h5 20 9) := by
  rw [State.colAccept_inst (c := c) (r := r) (by rw [ha.grpWord, hv]) (by rw [ha.group, hinst]) hseq hended hhdr (by rw [ha.grpChips, hr]) hdiff,
    if_neg hop, State.modInst_put (c := c) (by rw [State.collProgress_group, ha.group, hinst]), he]

theorem Accepts.colOpens (ha : Accepts s i h) (hv : (s.grpWord (qf h.pkt.h5 20 9) 0).testBit 0 = true)
    (hinst : (s.group (qf h.pkt.h5 20 9)).inst = some c) (hseq : c.seq = BitVec.ofNat 16 (qf h.pkt.h5 32 16))
    (hended : c.ended = none) (hhdr : c.hdr = false) (hr : (s.grpChips (qf h.pkt.h5 20 9)).findIdx? (fun x => x = h.pkt.src) = some r)
    (hdiff : sigDiff (c.plan.sig5 c.seq) c.plan.sig6 h.pkt.h5.toNat h.pkt.h6.toNat = 0) (hop : h.pkt.opcode = 0x80)
    (hchips : c.plan.chips = s.grpChips (qf h.pkt.h5 20 9)) :
    (s.accepted i h).colAccept h.pkt =
      (((s.accepted i h).collProgress (qf h.pkt.h5 20 9) c.chan).modInst (qf h.pkt.h5 20 9) (fun _ => { c with
        outs := c.outs.map (fun o =>
          let key := c.plan.keyOf (qf h.pkt.h7 0 2) (qf h.pkt.h7 2 1) (qf h.pkt.h7 3 2)
          if o.rank = r ∧ o.key = key ∧ ¬ o.ready then { o with ready := true, credit := firstCredit key } else o) })).collTurn
        (qf h.pkt.h5 20 9) := by
  rw [State.colAccept_inst (c := c) (r := r) (by rw [ha.grpWord, hv]) (by rw [ha.group, hinst]) hseq hended hhdr (by rw [ha.grpChips, hr]) hdiff,
    if_pos hop, State.takeReady_opens (c := c) (r := r) (by rw [State.collProgress_group, ha.group, hinst]) hended (by rw [hchips, hr]) hdiff]

/-- The state that a collective packet leaves, where its entry has done all it can. -/
theorem State.collTurn_ended {t v : State} {g : Nat} (hv : t = v.collTurn g) (l : List Instr) :
    t.ended l = { State.collTurn v g with pending := l } := by
  rw [hv]
  rfl

end

/-- Settles O22, by what the packet meets at its group. -/
theorem collectivePacketsAct : Obligations.CollectivePacketsAct := by
  simp only [Obligations.CollectivePacketsAct, answers_iff]
  intro s i h ha
  have hrow {op : Nat} (hop : h.pkt.opcode = op) {P : State → Prop} (hP : P (((s.accepted i h).colAccept h.pkt).ended s.pending)) :
      Meets (pktRow i [op] (fun s h => s.colAccept h.pkt) s) P := .pktRow ha (by simp [hop]) hP
  refine ⟨fun c r hv hinst hseq hended hhdr hr hdiff => ⟨fun hop hchips => ?_, fun hop ht => ?_, fun hop ht hfit => ?_, fun hop => ?_,
    fun hop ht => ?_⟩, fun hv hinst hseq => ⟨fun hop hmarks => ?_, fun hsrc => ⟨fun hop => ?_, fun hop => ?_⟩⟩,
    fun hv hd => ⟨fun hop => ?_, fun hop => ?_, fun hop => ?_⟩, fun g' c w r hop hctx hwire hinst h3 h5 => ?_, fun hop hctx => ?_,
    fun hop => ⟨fun c hinst hseq hended => ?_, fun hinst hseq hmarks => ?_⟩⟩
  · exact hrow hop (State.collTurn_ended (ha.colOpens hv hinst hseq hended hhdr hr hdiff hop hchips) _)
  · exact hrow hop (State.collTurn_ended (ha.colActs hv hinst hseq hended hhdr hr hdiff (by simp [hop]) (CollInst.take_data hop ht)) _)
  · exact hrow hop (State.collTurn_ended (ha.colActs hv hinst hseq hended hhdr hr hdiff (by simp [hop]) (CollInst.take_slot hop ht hfit)) _)
  · exact hrow hop (State.collTurn_ended (ha.colActs hv hinst hseq hended hhdr hr hdiff (by simp [hop]) (CollInst.take_done hop)) _)
  · exact hrow hop (State.collTurn_ended (ha.colActs hv hinst hseq hended hhdr hr hdiff (by simp [hop]) (CollInst.take_rel hop ht)) _)
  · refine hrow hop ?_
    have hready := State.colAccept_ready (s := s.accepted i h) (p := h.pkt) (by rw [ha.grpWord, hv]) (by rw [ha.group, hinst])
      (by rw [ha.group, hseq]) hop (by rw [ha.group]; exact hmarks)
    rw [ha.group] at hready
    exact hready
  · exact hrow hop (ha.colDropped (by simp [hop]) (by simp [hop]) (State.colAccept_early (by rw [ha.grpWord, hv]) (by rw [ha.group, hinst])
      (by rw [ha.group, hseq]) (by simp [hop]) (by rw [ha.grpChips]; exact hsrc)) _)
  · exact hrow hop (ha.colDropped (by simp [hop]) (by simp [hop]) (State.colAccept_early (by rw [ha.grpWord, hv]) (by rw [ha.group, hinst])
      (by rw [ha.group, hseq]) (by simp [hop]) (by rw [ha.grpChips]; exact hsrc)) _)
  · exact hrow hop (ha.colDropped (by simp [hop]) (by simp [hop]) (State.colAccept_past (by rw [ha.grpWord, hv]) (ha.colAhead hd)) _)
  · exact hrow hop (ha.colDropped (by simp [hop]) (by simp [hop]) (State.colAccept_past (by rw [ha.grpWord, hv]) (ha.colAhead hd)) _)
  · exact hrow hop (ha.colDropped (by simp [hop]) (by simp [hop]) (State.colAccept_past (by rw [ha.grpWord, hv]) (ha.colAhead hd)) _)
  · refine .pktRow ha (by simp [hop]) ?_
    obtain ⟨v, hv, hs, hchans, hinst'⟩ := State.colAckIn_acts (s := s.accepted i h) (g := g') (r := r) (p := h.pkt) (w := w)
      (by rw [ha.group]; exact hinst) h3 h5
    refine ⟨v, _, hinst', rfl, rfl, (hs .inj rfl).symm.trans (ha.same .inj rfl).symm, hchans, State.collTurn_ended ?_ _⟩
    unfold State.rsp
    rw [if_pos hctx]
    dsimp only
    rw [hwire]
    exact hv
  · refine .pktRow ha (by simp [hop]) ?_
    have hgroups : ((s.accepted i h).stale h).groups = s.groups :=
      ((show Same (mask [.rg, .flt]) (s.accepted i h) ((s.accepted i h).stale h) by simp) .groups rfl).symm.trans (ha.same .groups rfl).symm
    have hstale (v : State) (hv : v = (s.accepted i h).stale h) : (v.ended s.pending).groups = s.groups ∧
        (v.ended s.pending).reg 0x208 = ((s.accepted i h).incReg 0x208).reg 0x208 := by
      rw [hv]
      exact ⟨hgroups, (ha.stale s.pending).2.2⟩
    refine hstale _ ?_
    unfold State.rsp
    rcases hctx with hctx | ⟨hctx, hwire⟩
    · rw [if_neg (by simp [hctx]), hctx]
      rfl
    · rw [if_pos hctx]
      dsimp only
      rw [hwire]
  · refine .pktRow ha (by simp [hop]) ?_
    have hinst' : (((s.accepted i h).collProgress (qf h.pkt.h5 20 9) c.chan).group (qf h.pkt.h5 20 9)).inst = some c := by
      rw [State.collProgress_group, ha.group, hinst]
    refine ⟨State.collStop_ends hinst' hended _ _ _, State.collTurn_ended ?_ _⟩
    unfold State.colAbortIn
    dsimp only
    rw [ha.group, hinst]
    exact if_pos hseq.symm
  · refine .pktRow ha (by simp [hop]) ?_
    have hmark := State.collMark_marks (s := s.accepted i h) (g := qf h.pkt.h5 20 9) (seq := BitVec.ofNat 16 (qf h.pkt.h5 32 16))
      (by rw [ha.group]; exact hmarks) (h.pkt.aux / 16 % 16) (h.pkt.aux % 16)
    have hrun : (s.accepted i h).colAbortIn h.pkt =
        (s.accepted i h).collMark (qf h.pkt.h5 20 9) (BitVec.ofNat 16 (qf h.pkt.h5 32 16)) (h.pkt.aux / 16 % 16) (h.pkt.aux % 16) := by
      unfold State.colAbortIn
      dsimp only
      rw [ha.group, hinst]
      exact if_pos (.inl hseq.symm)
    rw [ha.group] at hmark
    rw [hrun]
    exact hmark

end Sys2Proof.Machine

namespace Sys2Proof.Machine

/-! ## What the issuing of a fragment leaves at its channel -/

section
variable {s t u : State} {k ord : Nat}

/-- In `t` channel `k` has produced as many records as in `s`, and holds the slots that it held, where it held one. -/
structure Kept (k : Nat) (s t : State) : Prop where
  prod : (t.chan k).prod = (s.chan k).prod
  slots : (s.chan k).slots ≠ [] → (t.chan k).slots = (s.chan k).slots

theorem Kept.refl (k : Nat) (s : State) : Kept k s s := ⟨rfl, fun _ => rfl⟩

theorem Kept.trans (h : Kept k s t) (h' : Kept k t u) : Kept k s u :=
  ⟨h'.prod.trans h.prod, fun hs => (h'.slots (by rwa [h.slots hs])).trans (h.slots hs)⟩

theorem Kept.of_chan (hp : (t.chan k).prod = (s.chan k).prod) (hs : (t.chan k).slots = (s.chan k).slots) : Kept k s t := ⟨hp, fun _ => hs⟩

theorem Kept.of_same {l : List Fld} (h : Same (mask l) s t) (hl : Fld.chans.bit &&& mask l = 0) : Kept k s t := by
  have hc : t.chan k = s.chan k := congrArg (fun m => SMap.get (fun _ => Chan.reset) m k) (h .chans hl).symm
  exact .of_chan (by rw [hc]) (by rw [hc])

theorem State.modFlight_kept (s : State) (k ord : Nat) (f : Flight → Flight) : Kept k s (s.modFlight k ord f) := by
  unfold State.modFlight
  exact .of_chan (by rw [State.chan_modChan]) (by rw [State.chan_modChan])

theorem State.settleOwed_kept (s : State) (k : Nat) : Kept k s (s.settleOwed k) :=
  .of_chan (congrArg Chan.prod (s.settleOwed_paid k).chan :) (congrArg Chan.slots (s.settleOwed_paid k).chan :)

theorem State.complete_kept (s : State) (k : Nat) (f : Flight) (status : Nat) : Kept k s (s.complete k f status) :=
  .of_chan (congrArg Chan.prod (s.complete_completed k f status).chan :) (congrArg Chan.slots (s.complete_completed k f status).chan :)

theorem State.chanOff_prod (s : State) (k : Nat) : ((s.chanOff k).chan k).prod = (s.chan k).prod := by
  unfold State.chanOff
  dsimp only
  split
  · rw [State.chan_modChan, (State.emit_told _ _ _).chan, State.chan_modChan]
  · rw [(State.emit_told _ _ _).chan, State.chan_modChan]

/-- Settling a channel keeps its slots, which alone keep it from going OFF, and its producer. -/
theorem State.settleN_kept (n k : Nat) (s : State) : Kept k s (State.settleN n k s) := by
  induction n generalizing s with
  | zero => exact .refl k s
  | succ n ih =>
    unfold State.settleN
    dsimp only
    split
    · next f _ =>
      refine Kept.trans (?_ : Kept k s _) ((State.complete_kept _ k f _).trans (ih _))
      split
      · split
        · split
          · exact .of_same (l := [.scal]) (by simp) rfl
          · exact .refl k s
        · exact .refl k s
      · exact .refl k s
    · split
      · split
        · exact (State.complete_kept _ _ _ _).trans (ih _)
        · exact .refl k s
      · have hp := s.settleOwed_kept k
        split
        · next hc => exact ⟨(State.chanOff_prod _ _).trans hp.prod, fun hs => absurd hc.2.1 hs⟩
        · exact hp
      · exact .refl k s

theorem State.settle_kept (s : State) (k : Nat) : Kept k s (s.settle k) := s.settleN_kept _ k

/-! ### One step of issuing -/

/-- The end of a step of issuing: the counters of a command that has issued all, and what is due of the channel. -/
def State.stepEnd (s : State) (k ord : Nat) : State :=
  (match s.flightOf k ord with
  | some g => if g.cursor.isNone ∧ g.ahead.isNone then s.cntStop k else s
  | none => s).settle k

theorem State.stepEnd_same (s : State) (k ord : Nat) : Same (mask [.rg, .chans, .scal, .ev, .ccnt, .logs]) s (s.stepEnd k ord) := by
  unfold State.stepEnd
  split
  · split
    · simp
    · simp
  · simp

theorem State.stepEnd_kept (s : State) (k ord : Nat) : Kept k s (s.stepEnd k ord) := by
  unfold State.stepEnd
  refine Kept.trans ?_ (State.settle_kept _ k)
  split
  · split
    · exact .of_same (l := [.ccnt]) (by simp) rfl
    · exact .refl k s
  · exact .refl k s

variable {f : Flight}

theorem State.issueStep_single (hform : s.mayForm = true) (hiss : (s.chan k).issuing = some f)
    (hop : opOf f.word ∈ [opAtom, opSignal, opLoads]) (hord : (s.chan k).ordWait f = false) :
    s.issueStep k = (s.issueSingle k f).stepEnd k f.ord := by
  unfold State.issueStep
  rw [hiss]
  dsimp only
  rw [if_neg (by simp [hform]), if_pos hop, if_neg (by simp [hord])]
  rfl

theorem State.issueStep_data (hform : s.mayForm = true) (hiss : (s.chan k).issuing = some f)
    (hop : opOf f.word ∉ [opAtom, opSignal, opLoads]) {a : Ahead} (ha : f.ahead = some a) {d : List Byte} {p : Nat} (hd : a.data = some (d, p)) :
    s.issueStep k = (s.issueData k f a d p).stepEnd k f.ord := by
  unfold State.issueStep
  rw [hiss]
  dsimp only
  rw [if_neg (by simp [hform]), if_neg hop, ha]
  dsimp only
  rw [hd]
  rfl

theorem State.issueStep_ahead (hform : s.mayForm = true) (hiss : (s.chan k).issuing = some f)
    (hop : opOf f.word ∉ [opAtom, opSignal, opLoads]) (ha : f.ahead = none) {c : Cursor} (hc : f.cursor = some c) (hway : s.wayOf f.word = .send) :
    s.issueStep k = (s.readAhead k f c).stepEnd k f.ord := by
  unfold State.issueStep
  rw [hiss]
  dsimp only
  rw [if_neg (by simp [hform]), if_neg hop, ha, hc, hway]
  rfl

theorem State.issueStep_read (hform : s.mayForm = true) (hiss : (s.chan k).issuing = some f)
    (hop : opOf f.word ∉ [opAtom, opSignal, opLoads]) (ha : f.ahead = none) {c : Cursor} (hc : f.cursor = some c) {way : Way}
    (hway : s.wayOf f.word = way) (hne : way ≠ .send) : s.issueStep k = (s.issueRead k f c way).stepEnd k f.ord := by
  unfold State.issueStep
  rw [hiss]
  dsimp only
  rw [if_neg (by simp [hform]), if_neg hop, ha, hc, hway]
  cases way with
  | send => exact absurd rfl hne
  | fetch => rfl
  | relay => rfl

/-- A fold whose steps change nothing changes nothing. -/
theorem foldl_still {α β : Type} {F : β → α → β} {l : List α} {b : β} (h : ∀ x ∈ l, F b x = b) : l.foldl F b = b := by
  induction l with
  | nil => rfl
  | cons x l ih =>
    rw [List.foldl_cons, h x (by simp)]
    exact ih fun y hy => h y (by simp [hy])

/-- A step of issuing where no collective is the channel's and no RA access waits. -/
theorem Meets.fragmentIssue (ha : s.alive = true) (hk : k < 64) (hcoll : ∀ e ∈ s.groups, ∀ c, e.2.inst = some c → c.chan ≠ k)
    (hra : ∀ p, p < 4 → (s.raPort p).heldAcc = []) {P : State → Prop} (hE : ∀ v q, P v → P (State.ended v q))
    (hP : P (s.cleared.issueStep k)) : Meets (execFragmentIssue k s) P := by
  unfold execFragmentIssue
  refine .run ha (by simpa using hk) (hE _ _ ?_)
  have hs : Same (mask [.rg, .chans, .scal, .eng, .hm, .ev, .inj, .pseq, .tows, .reins, .rrUsed, .draws, .counts, .ccnt, .logs])
    s.cleared (s.cleared.issueStep k) := by simp
  dsimp only
  generalize s.cleared.issueStep k = t at hs hP
  have hgroups : t.groups = s.groups := (hs .groups rfl).symm
  have hraP (p : Nat) : t.raPort p = s.raPort p := congrArg (fun m => SMap.get (fun _ => RaPort.reset) m p) (hs .ra rfl).symm
  rw [foldl_still, State.raRelease_of_nil fun p hp => by rw [hraP, hra p hp]]
  · exact hP
  · rintro ⟨g, x⟩ he
    rw [hgroups] at he
    dsimp only
    split
    · next c hc => exact if_neg (hcoll _ he c hc)
    · rfl

end

end Sys2Proof.Machine

namespace Sys2Proof.Machine

/-! ## Fragments enter the injection point -/

section
variable {s t u : State} {k : Nat} {f : Flight} {fr : Frag} {h : Hd} {pay : List Byte} {tow : Option Nat} {op chip : Nat}

/-- From `s` to `t` a packet of channel `k` has entered the injection point, and its fragment of flight `f` holds a slot. -/
def FragSent (k : Nat) (f : Flight) (op chip : Nat) (s t : State) : Prop :=
  ∃ h y, t.inj = s.inj ++ [h] ∧ h.pkt.opcode = op ∧ h.pkt.chan = k ∧ h.pkt.dst = chip % 2 ^ 18 ∧
    (t.chan k).slots = (s.chan k).slots ++ [y] ∧ y.ord = f.ord ∧ y.ftag = h.pkt.ftag

theorem FragSent.then {l : List Fld} (h : FragSent k f op chip s t) (hk : Kept k t u) (hs : Same (mask l) t u) (hl : Fld.inj.bit &&& mask l = 0) :
    FragSent k f op chip s u := by
  obtain ⟨q, y, hi, hop, hc, hd, hsl, ho, ht⟩ := h
  exact ⟨q, y, (show u.inj = t.inj from (hs .inj hl).symm).trans hi, hop, hc, hd, (hk.slots (by simp [hsl])).trans hsl, ho, ht⟩

theorem FragSent.of_same {l : List Fld} (hs : Same (mask l) s t) (hi : Fld.inj.bit &&& mask l = 0) (hc : Fld.chans.bit &&& mask l = 0)
    (h : FragSent k f op chip t u) : FragSent k f op chip s u := by
  obtain ⟨q, y, hinj, hop, hch, hd, hsl, ho, ht⟩ := h
  have hchan : t.chan k = s.chan k := congrArg (fun m => SMap.get (fun _ => Chan.reset) m k) (hs .chans hc).symm
  exact ⟨q, y, by rw [hinj, hs .inj hi], hop, hch, hd, by rw [hsl, hchan], ho, ht⟩

theorem State.freeTag_lt {par tag : Nat} (ht : s.freeTag k par = some tag) : tag < 256 := by
  unfold State.freeTag lowest at ht
  exact List.mem_range.mp (List.mem_of_find?_eq_some ht)

/-- The header of a request of channel `k` under a tag. -/
def Hd.tagged (h : Hd) (k tag : Nat) (f : Flight) : Hd :=
  { h with ctx := 0, chan := k, ftag := tag, layer := f.layer.toNat, oper := f.oper.toNat }

/-- A packet that has joined the injection point takes its slot. -/
theorem FragSent.slotted {tag : Nat} {q : Held} (hk : k < 64) (hop : h.opcode < 256) (hlt : tag < 256) (hq : t.inj = s.inj ++ [q])
    (hc : Carries (h.tagged k tag f) pay q.pkt) (hchan : t.chan k = s.chan k) {y : Slot} (ho : y.ord = f.ord) (ht : y.ftag = tag) (now : Nat) :
    FragSent k f h.opcode h.dst s (t.modChan k (fun c => { c with slots := c.slots ++ [y], progress := now })) := by
  refine ⟨q, y, hq, hc.opcode.trans (Nat.mod_eq_of_lt hop), hc.chan.trans (Nat.mod_eq_of_lt hk), hc.dst, ?_, ho, ?_⟩
  · rw [State.chan_modChan, hchan]
  · rw [hc.ftag, ht]
    exact (Nat.mod_eq_of_lt hlt).symm

/-- A packet formed is charged and counted. -/
theorem FragSent.counted (hsent : FragSent k f op chip s t) (hv : Same (mask [.tows, .reins]) t u) (n : Nat) :
    FragSent k f op chip s ((u.useSlot k).cntForm k n) := by
  have hvs : Same (mask [.rrUsed, .ccnt]) u ((u.useSlot k).cntForm k n) := by simp
  exact (hsent.then (.of_same hv rfl) hv rfl).then (.of_same hvs rfl) hvs rfl

/-- A request that finds a free tag enters the injection point. -/
theorem State.issue_sent (hk : k < 64) (htag : (s.freeTag k fr.idx).isSome = true) (hop : h.opcode < 256) (reinLen : Nat) :
    FragSent k f h.opcode h.dst s (s.issue k f fr h pay tow reinLen) := by
  obtain ⟨tag, ht⟩ := Option.isSome_iff_exists.mp htag
  obtain ⟨q, hq, hc⟩ := s.form_inj (h.tagged k tag f) pay (tow.map (· + 8)) none
  have hform : Same (mask [.rg, .inj, .pseq, .counts]) s (s.form (h.tagged k tag f) pay (tow.map (· + 8))) := by simp
  have hchan : (s.form (h.tagged k tag f) pay (tow.map (· + 8))).chan k = s.chan k :=
    congrArg (fun m => SMap.get (fun _ => Chan.reset) m k) (hform .chans rfl).symm
  unfold State.issue
  rw [ht]
  refine FragSent.counted (t := (s.form (h.tagged k tag f) pay (tow.map (· + 8))).modChan k _)
    (.slotted hk hop (State.freeTag_lt ht) hq hc hchan
      (y := ⟨tag, (s.form (h.tagged k tag f) pay (tow.map (· + 8))).pseq.toNat, f.ord, fr, h.dst, none, tow⟩) rfl rfl s.now) ?_ _
  split
  · exact (State.towEnter_same _ _ (by simp)).mpr (.refl _ _)
  · exact (State.reinCharge_same _ _ _ _ (by simp)).mpr (.refl _ _)

/-- What may leave, has room and has its turn goes. -/
theorem State.offer_goes {tw leaves : Bool} {next : Flight → Flight} {go : State → State} (hl : leaves = true)
    (hroom : s.room k fr.idx tw = true) (hturn : s.turn k = true) : s.offer k f fr tw leaves next go = (go s).modFlight k f.ord next := by
  unfold State.offer
  rw [if_neg (by simp [hl]), if_neg (by simp [hroom]), if_neg (by simp [hturn])]

theorem State.room_tag {idx : Nat} {tw : Bool} (hroom : s.room k idx tw = true) : (s.freeTag k idx).isSome = true := by
  unfold State.room at hroom
  simp only [Bool.and_eq_true] at hroom
  exact hroom.1.2

/-- An offer that goes sends its packet, at the end of the step too. -/
theorem FragSent.offered {next : Flight → Flight} (hsent : FragSent k f op chip s u) :
    FragSent k f op chip s ((u.modFlight k f.ord next).stepEnd k f.ord) :=
  (hsent.then (l := [.chans]) (State.modFlight_kept _ _ _ _) (by simp) rfl).then (State.stepEnd_kept _ _ _) (State.stepEnd_same _ _ _) rfl

end

end Sys2Proof.Machine

namespace Sys2Proof.Machine

/-! ## Fragments and records, one by one -/

section
variable {s t u : State} {k : Nat} {f : Flight}

theorem State.issueSingle_sent (hk : k < 64) (hop : (singleHd f).opcode < 256) (hroom : s.room k 0 false = true) (hturn : s.turn k = true)
    (hleave : s.canLeave (singleHd f).dst 1 (singleHd f).opcode 0 = true) :
    FragSent k f (singleHd f).opcode (singleHd f).dst s ((s.issueSingle k f).stepEnd k f.ord) := by
  unfold State.issueSingle
  dsimp only
  rw [State.offer_goes hleave hroom hturn]
  exact (State.issue_sent hk (State.room_tag hroom) hop _).offered

theorem singleHd_atom (h : opOf f.word = opAtom) : (singleHd f).opcode = 0x06 ∧ (singleHd f).dst = chipOf (cq f.word 1) := by
  unfold singleHd
  dsimp only
  rw [if_pos h]
  exact ⟨rfl, rfl⟩

theorem singleHd_signal (h : opOf f.word = opSignal) : (singleHd f).opcode = 0x07 ∧ (singleHd f).dst = cf f.word 1 0 18 := by
  unfold singleHd
  dsimp only
  rw [if_neg (by rw [h]; decide), if_pos h]
  exact ⟨rfl, rfl⟩

theorem singleHd_loads (h : opOf f.word = opLoads) : (singleHd f).opcode = 0x02 ∧ (singleHd f).dst = chipOf (cq f.word 2) := by
  unfold singleHd
  dsimp only
  rw [if_neg (by rw [h]; decide), if_neg (by rw [h]; decide)]
  exact ⟨rfl, rfl⟩

/-- Channel `k` has room for a packet, its turn, and the packet can leave. -/
def State.Goes (s : State) (k idx op chip : Nat) : Prop :=
  s.room k idx false = true ∧ s.turn k = true ∧ s.canLeave chip 1 op idx = true

theorem State.Goes.single {op chip : Nat} (hg : s.Goes k 0 op chip) (hk : k < 64) (hop : op < 256)
    (hh : (singleHd f).opcode = op ∧ (singleHd f).dst = chip) (hform : s.mayForm = true) (hiss : (s.chan k).issuing = some f)
    (hmem : opOf f.word ∈ [opAtom, opSignal, opLoads]) (hord : (s.chan k).ordWait f = false) : FragSent k f op chip s (s.issueStep k) := by
  obtain ⟨hroom, hturn, hleave⟩ := hg
  obtain ⟨rfl, rfl⟩ := hh
  rw [State.issueStep_single hform hiss hmem hord]
  exact State.issueSingle_sent hk hop hroom hturn hleave

/-- The request of a fragment that the block does not read itself. -/
theorem State.Goes.read {op : Nat} {fr : Frag} {c : Cursor} {rest : Option Cursor} {way : Way}
    (hg : s.Goes k fr.idx op (chipOf (cq f.word 1))) (hk : k < 64) (hway : s.wayOf f.word = way) (hwop : way = .fetch ∧ op = 0x02 ∨ way = .relay ∧ op = 0x03)
    (hnext : (s.xferOf f).next c = some (fr, rest)) (hform : s.mayForm = true) (hiss : (s.chan k).issuing = some f)
    (hmem : opOf f.word ∉ [opAtom, opSignal, opLoads]) (ha : f.ahead = none) (hc : f.cursor = some c) :
    FragSent k f op (chipOf (cq f.word 1)) s (s.issueStep k) := by
  obtain ⟨hroom, hturn, hleave⟩ := hg
  rw [State.issueStep_read hform hiss hmem ha hc hway (by rcases hwop with ⟨rfl, -⟩ | ⟨rfl, -⟩ <;> decide)]
  unfold State.issueRead
  dsimp only
  rw [hnext]
  dsimp only
  rcases hwop with ⟨rfl, rfl⟩ | ⟨rfl, rfl⟩
  · rw [if_neg (by decide), State.offer_goes hleave hroom hturn]
    exact (State.issue_sent hk (State.room_tag hroom) (by simp) _).offered
  · rw [if_pos rfl, State.offer_goes hleave hroom hturn]
    exact (State.issue_sent hk (State.room_tag hroom) (by simp) _).offered

theorem State.freeTag_of_same {l : List Fld} (hs : Same (mask l) s t) (hc : Fld.chans.bit &&& mask l = 0) (hg : Fld.groups.bit &&& mask l = 0)
    (k par : Nat) : t.freeTag k par = s.freeTag k par := by
  have hchans : s.chans = t.chans := hs .chans hc
  have hgroups : s.groups = t.groups := hs .groups hg
  unfold State.freeTag State.tagsUsed State.colTags State.chan
  rw [hchans, hgroups]

/-- The data packet of a fragment that has been read. -/
theorem State.issueData_sent (hk : k < 64) {a : Ahead} {d : List Byte} {p rm vc inter : Nat} {tow : Option Nat}
    (hmode : (s.modeOf f (chipOf (cq f.word 2)) a.frag.len
      ((s.xferOf f).destBytes + (if (s.xferOf f).toMx then (s.xferOf f).scales else 0))).1 = (rm, vc, inter, tow))
    (hroom : s.room k a.frag.idx tow.isSome = true) (hturn : s.turn k = true) (horig : s.mayOriginate = true)
    (hleave : tow.isSome = true ∨ s.canLeave (if rm = 1 then inter else chipOf (cq f.word 2)) vc 0x01 a.frag.idx = true) :
    FragSent k f 0x01 (chipOf (cq f.word 2)) s ((s.issueData k f a d p).stepEnd k f.ord) := by
  have hs1 := State.modeOf_same (μ := mask [.draws]) (s₀ := s) s f (chipOf (cq f.word 2)) a.frag.len
    ((s.xferOf f).destBytes + (if (s.xferOf f).toMx then (s.xferOf f).scales else 0)) (by simp) |>.mpr (.refl _ s)
  unfold State.issueData
  dsimp only
  generalize s.modeOf f (chipOf (cq f.word 2)) a.frag.len _ = m at hmode hs1
  obtain ⟨m1, s1⟩ := m
  dsimp only at hmode hs1
  rw [hmode]
  dsimp only
  have htag : (s1.freeTag k a.frag.idx).isSome = true := by
    rw [State.freeTag_of_same hs1 rfl rfl]
    exact State.room_tag hroom
  rw [State.offer_goes ?_ hroom hturn]
  · exact (FragSent.of_same hs1 rfl rfl (State.issue_sent hk htag (by simp) _)).offered
  · rcases hleave with h | h
    · rw [if_pos h, horig]
    · split
      · exact horig
      · exact h

theorem State.startRead_job (s : State) (use : RdUse) (rs : List (Nat × Nat)) :
    ∃ j, (s.startRead use rs).2.eng.reads = s.eng.reads ++ [j] ∧ j.use = use ∧ j.live = true := by
  rw [State.startRead_eng]
  exact ⟨_, rfl, rfl, rfl⟩

/-- The source of the next fragment is read. -/
theorem State.readAhead_reads {c : Cursor} {fr : Frag} {rest : Option Cursor} (hnext : (s.xferOf f).next c = some (fr, rest))
    (horig : s.mayOriginate = true) (hrange : s.checkRanges .rd ((s.xferOf f).reads fr c.run c.off) = none) :
    ∃ j, (s.readAhead k f c).eng.reads = s.eng.reads ++ [j] ∧ j.use = .frag k f.ord ∧ j.live = true := by
  unfold State.readAhead
  dsimp only
  rw [hnext]
  dsimp only
  rw [if_neg (by simp [horig])]
  have hr : (s.modFlight k f.ord (fun g => { g with cursor := rest })).checkRanges .rd ((s.xferOf f).reads fr c.run c.off) = none := hrange
  rw [hr]
  obtain ⟨j, hj, huse, hlive⟩ := State.startRead_job (s.modFlight k f.ord (fun g => { g with cursor := rest })) (.frag k f.ord)
    ((s.xferOf f).reads fr c.run c.off)
  exact ⟨j, hj, huse, hlive⟩

end

end Sys2Proof.Machine

namespace Sys2Proof.Machine

/-! ## Completion records are written -/

section
variable {s t u : State} {k : Nat} {f : Flight} {o : Owed} {rest : List Owed}

theorem State.raOnly_cleared (s : State) : RaOnly s s.cleared := rfl

theorem State.turn_cleared (s : State) (k : Nat) : s.cleared.turn k = s.turn k := by
  have hc (j : Nat) : s.cleared.claims j = s.claims j := by
    unfold State.claims
    rw [s.raOnly_cleared.fragReady, s.raOnly_cleared.raWithheld rfl rfl]
    rfl
  unfold State.turn
  simp only [hc]
  rfl

theorem State.canLeave_cleared (s : State) (chip vc opcode par : Nat) : s.cleared.canLeave chip vc opcode par = s.canLeave chip vc opcode par := by
  unfold State.canLeave State.reachable
  rw [s.raOnly_cleared.firstHop]
  rfl

theorem State.Goes.cleared {idx op chip : Nat} (hg : s.Goes k idx op chip) : s.cleared.Goes k idx op chip := by
  unfold State.Goes
  rw [s.turn_cleared, s.canLeave_cleared]
  exact hg

theorem length_leBytes (n v : Nat) : (leBytes n v).length = n := by
  induction n generalizing v with
  | zero => rfl
  | succ n ih => exact congrArg (· + 1) (ih _)

/-- A write of one aligned granule has its key alone. -/
theorem wrGrans_aligned {off : Nat} (h64 : off % 64 = 0) (v : Nat) : (wrGrans off (leBytes 64 v) 0).map (·.key) = [off / 64] := by
  unfold wrGrans
  rw [length_leBytes, List.map_map]
  have hk : keysOf off 64 = [off / 64] := by
    unfold keysOf
    rw [if_neg (by decide), show (off + 64 - 1) / 64 - off / 64 + 1 = 1 by omega]
    rfl
  rw [hk]
  rfl

/-- Where the record of channel `k` goes. -/
def State.recordOff (s : State) (k : Nat) : Nat := s.ringBase k + 64 * ((s.chan k).prod.toNat % s.ringSize k)

theorem State.recordOff_aligned (s : State) (k : Nat) : s.recordOff k % 64 = 0 := by
  unfold State.recordOff State.ringBase
  omega

/-- A record that the windows do not allow is given up: the producer moves on. -/
theorem State.recordDone_gives (ho : (s.chan k).owed = { o with writing := true } :: rest) :
    ((s.recordDone k o.ord false).chan k).prod = (s.chan k).prod + 1 := by
  unfold State.recordDone
  rw [ho]
  dsimp only
  rw [if_neg (by simp)]
  refine (State.settle_kept _ k).prod.trans ((State.settleOwed_kept _ k).prod.trans ?_)
  rw [State.chan_checkStall]
  dsimp only
  generalize hu : s.modChan k _ = u
  have hprod : (u.chan k).prod = (s.chan k).prod + 1 := by rw [← hu, State.chan_modChan]
  split
  · unfold State.stopChan
    rw [(State.emit_told _ _ _).chan, State.chan_modChan]
    exact hprod
  · exact hprod

/-- The record written to `off` stands among the writes, and the channel as it was. -/
theorem State.recordWrite_job {off : Nat} (h64 : off % 64 = 0) :
    let t := (s.startWrite (.record k o.ord) (wrGrans off (leBytes 64 o.image.toNat) 0) 0).2
    t.chan k = s.chan k ∧ ∃ j, t.eng.writes = s.eng.writes ++ [j] ∧ j.use = .record k o.ord ∧ j.keys = [off / 64] := by
  intro t
  have hsame : Same (mask [.eng, .hm]) s t := by simp [t]
  refine ⟨congrArg (fun m => SMap.get (fun _ => Chan.reset) m k) (hsame .chans rfl).symm, ?_⟩
  dsimp only [t]
  rw [State.startWrite_eng, wrGrans_aligned h64]
  exact ⟨_, rfl, rfl, rfl⟩

/-- The state in which the first record owed, `o`, is being written. -/
def State.recording (s : State) (k : Nat) (o : Owed) (rest : List Owed) : State :=
  s.modChan k (fun c => { c with owed := { o with writing := true } :: rest })

theorem State.recording_chan (s : State) (k : Nat) (o : Owed) (rest : List Owed) :
    (s.recording k o rest).chan k = { s.chan k with owed := { o with writing := true } :: rest } := State.chan_modChan _ _ _

theorem State.checkRanges_modChan (s : State) (k : Nat) (f : Chan → Chan) (a : Acc) (rs : List (Nat × Nat)) :
    (s.cleared.modChan k f).checkRanges a rs = s.checkRanges a rs := rfl

/-- The first record owed goes out to `off`, or is given up. -/
theorem State.recordWrite_does {P : State → Prop} {off : Nat} {owed : List Owed} (howed : owed = o :: rest)
    (hgive : (s.recording k o rest).checkRanges .wr [(off, 64)] ≠ none → P ((s.recording k o rest).recordDone k o.ord false))
    (hwrite : (s.recording k o rest).checkRanges .wr [(off, 64)] = none →
      P ((s.recording k o rest).startWrite (.record k o.ord) (wrGrans off (leBytes 64 o.image.toNat) 0) 0).2) :
    P (match (generalizing := false) owed with
      | o :: rest =>
        let s1 := s.modChan k (fun c => { c with owed := { o with writing := true } :: rest })
        (match s1.checkRanges .wr [(off, 64)] with
        | some _ => s1.recordDone k o.ord false
        | none => (s1.startWrite (.record k o.ord) (wrGrans off (leBytes 64 o.image.toNat) 0) 0).2)
      | [] => s) := by
  subst howed
  dsimp only
  split
  · next x hx => exact hgive (by unfold State.recording; rw [hx]; simp)
  · next hx => exact hwrite hx

theorem Meets.completionRecord (ha : s.alive = true) (hk : k < 64) (hready : s.recordReady k = true) (howed : (s.chan k).owed = o :: rest)
    {P : State → Prop} (hE : ∀ v q, P v → P (State.ended v q))
    (hgive : (s.cleared.recording k o rest).checkRanges .wr [(s.cleared.recordOff k, 64)] ≠ none →
      P ((s.cleared.recording k o rest).recordDone k o.ord false))
    (hwrite : (s.cleared.recording k o rest).checkRanges .wr [(s.cleared.recordOff k, 64)] = none →
      P ((s.cleared.recording k o rest).startWrite (.record k o.ord) (wrGrans (s.cleared.recordOff k) (leBytes 64 o.image.toNat) 0) 0).2) :
    Meets (execCompletionRecordWrite k s) P := by
  unfold execCompletionRecordWrite
  refine .run ha (by simp [hk, hready]) (hE _ _ ?_)
  exact State.recordWrite_does (s := s.cleared) (off := s.cleared.ringBase k + 64 * ((s.cleared.chan k).prod.toNat % s.cleared.ringSize k))
    (owed := (s.cleared.chan k).owed) howed hgive hwrite

theorem State.recordOff_cleared (s : State) (k : Nat) : s.cleared.recordOff k = s.recordOff k := rfl

end

/-- Settles O48, by what the channel issues. -/
theorem fragmentsAndRecordsAreIssued : Obligations.FragmentsAndRecordsAreIssued := by
  simp only [Obligations.FragmentsAndRecordsAreIssued, answers_iff]
  refine ⟨fun s k f ha hk hcoll hra hform hiss => ?_, fun s k o rest ha hk hready howed => ?_⟩
  · have hstep {op chip : Nat} (hs : FragSent k f op chip s.cleared (s.cleared.issueStep k)) :
        Meets (execFragmentIssue k s) (FragSent k f op chip s) :=
      Meets.fragmentIssue ha hk hcoll hra (fun _ _ h => h) hs
    have hother (hop : opOf f.word ∈ [opPut, opGet, opCopy]) : opOf f.word ∉ [opAtom, opSignal, opLoads] := by
      intro hmem
      simp only [List.mem_cons, List.not_mem_nil, or_false, opPut, opGet, opCopy, opAtom, opSignal, opLoads] at hop hmem
      omega
    refine ⟨fun hop hg => ?_, fun hop hord hg => ?_, fun hop hg => ?_, fun hop => ⟨fun c fr rest hah hc hnext => ⟨fun hway hg => ?_, fun hway hg => ?_⟩,
      fun a d p rm vc inter tow hah hd hmode hroom hturn horig hleave => ?_, fun c fr rest hah hc hway hnext horig hrange => ?_⟩⟩
    · exact hstep (State.Goes.single (s := s.cleared) (State.Goes.cleared hg) hk (by decide) (singleHd_atom hop) hform hiss (by simp [hop])
        (by simp [Chan.ordWait, hop, opAtom, opSignal]))
    · exact hstep (State.Goes.single (s := s.cleared) (State.Goes.cleared hg) hk (by decide) (singleHd_signal hop) hform hiss (by simp [hop]) hord)
    · exact hstep (State.Goes.single (s := s.cleared) (State.Goes.cleared hg) hk (by decide) (singleHd_loads hop) hform hiss (by simp [hop])
        (by simp [Chan.ordWait, hop, opLoads, opSignal]))
    · exact hstep (State.Goes.read (s := s.cleared) (State.Goes.cleared hg) hk hway (.inl ⟨rfl, rfl⟩) hnext hform hiss (hother hop) hah hc)
    · exact hstep (State.Goes.read (s := s.cleared) (State.Goes.cleared hg) hk hway (.inr ⟨rfl, rfl⟩) hnext hform hiss (hother hop) hah hc)
    · refine hstep ?_
      rw [State.issueStep_data (s := s.cleared) hform hiss (hother hop) hah hd]
      refine State.issueData_sent (s := s.cleared) hk ((s.raOnly_cleared.modeOf _ _ _ _).trans hmode) hroom ((s.turn_cleared k).trans hturn) horig ?_
      rw [s.canLeave_cleared]
      exact hleave
    · refine Meets.fragmentIssue ha hk hcoll hra (fun _ _ h => h) ?_
      rw [State.issueStep_ahead (s := s.cleared) hform hiss (hother hop) hah hc hway]
      obtain ⟨j, hj, huse, hlive⟩ := State.readAhead_reads (s := s.cleared) (k := k) hnext horig hrange
      have hahead : Same (mask [.chans, .eng, .hm]) s.cleared (s.cleared.readAhead k f c) := by simp
      have hend := (s.cleared.readAhead k f c).stepEnd_same k f.ord
      refine ⟨?_, j, ?_, huse, hlive⟩
      · exact (hend .inj rfl).symm.trans (hahead .inj rfl).symm
      · rw [← hend .eng rfl]
        exact hj
  · have hchan := s.cleared.recording_chan k o rest
    have hrange : (s.cleared.recording k o rest).checkRanges .wr [(s.recordOff k, 64)] = s.checkRanges .wr [(s.recordOff k, 64)] :=
      s.checkRanges_modChan k _ _ _
    refine Meets.completionRecord ha hk hready howed (fun _ _ h => h) (fun hno => ?_) (fun hyes => ?_)
    · rw [s.recordOff_cleared, hrange] at hno
      refine ⟨fun hyes => absurd hyes hno, fun _ => ⟨?_, ?_⟩⟩
      · rw [State.recordDone_gives (rest := rest) (by rw [hchan]), hchan]
        rfl
      · exact ((show Same (mask [.rg, .chans, .scal, .ev, .logs]) (s.cleared.recording k o rest)
          ((s.cleared.recording k o rest).recordDone k o.ord false) by simp) .eng rfl).symm
    · rw [s.recordOff_cleared, hrange] at hyes
      obtain ⟨hc, hj⟩ := State.recordWrite_job (s := s.cleared.recording k o rest) (k := k) (o := o) (s.recordOff_aligned k)
      rw [s.recordOff_cleared]
      exact ⟨fun _ => ⟨by rw [hc, hchan], hj⟩, fun hno => absurd hyes hno⟩

end Sys2Proof.Machine
